-- ==== Sys2Proof/Word.lean ====
section
/-! DEFINITION. The unit of data: an octet. Frames, flash and host memory are sequences of octets (R11, R13). -/
namespace Sys2Proof

/-- One octet. -/
abbrev Octet := BitVec 8

end Sys2Proof
end

