-- ==== Sys2Proof/Syntax.lean ====
section
/-! DEFINITION. The commands the block takes: one constructor of `Instr` per row of opcode_table.json, with the operands
that come from outside the block. A command is the moment the row names (95_what_each_step_holds.md: whole and
indivisible); what the outside world decides (octets received, answers of memory, flash and pins) is an operand. -/
namespace Sys2Proof

/-- The three object-access agents (R48, Table 0.3). -/
inductive AgentKind where
  /-- host software on a processor -/
  | host
  /-- a manager, by its key slot -/
  | manager
  /-- the fabric root acting for a manager slot -/
  | fabric
  deriving DecidableEq, Repr

/-- An agent with its number: the processor 0–7 of H, the manager slot 0–7 of M and F (R50, Table 2.3 `pending`). -/
structure Agent where
  kind : AgentKind
  slot : Nat
  deriving DecidableEq, Repr

/-- What one received cell brings (R82, R84, R100, R103). `errAt` is the position within the cell of the first octet that an invalid code group,
invalid block or error character touches; `fecCorrected` and `fecBad` are the codewords corrected and found uncorrectable with it; `replErrs` the
positions within it of the runs in which a repetition differs. -/
structure CellInput where
  octets       : List Octet
  last         : Bool
  errAt        : Option Nat
  fecCorrected : Nat
  fecBad       : Nat
  replErrs     : List Nat
  deriving DecidableEq, Repr

/-- The start of a received frame (R84, R88, R100): its eight start octets, and how many of their runs differ in a repetition where the lane
replicates. -/
structure StartInput where
  octets   : List Octet
  replErrs : Nat
  deriving DecidableEq, Repr

/-- What a received fragment brings (R82, R100, R102): its octets to the four end octets, the position of the first octet that an invalid code group,
invalid block or error character touches, the codewords corrected and found uncorrectable with it. -/
structure FragInput where
  octets       : List Octet
  errAt        : Option Nat
  fecCorrected : Nat
  fecBad       : Nat
  deriving DecidableEq, Repr

/-- What the reads of a copy's cells meet (R154, R158): corrected errors, an uncorrectable error in a cell, one in the VALUE of its template. -/
structure CellRead where
  fixed    : Nat
  bad      : Bool
  template : Bool
  deriving DecidableEq, Repr

/-- What the SEC-DED decoder of a classifier memory finds at a read (R149), or that of the template memory at a fold decision (R154, R158). -/
inductive EccFinding where
  | clean
  | actionBad
  /-- an action entry that was read, in Legend's or Contour's bank, whether or not it decides -/
  | actionAt (contour : Bool) (entry : Nat)
  | contourFixed
  | contourBad (entry : Nat)
  | flowFixed
  | flowBad (way : Nat)
  | templateFixed
  | templateBad
  deriving DecidableEq, Repr

/-- What a survey read finds (R139). -/
inductive SurveyFinding where
  | equal
  | differs
  | shadowFixed (differs : Bool)
  | shadowBad
  | writtenSince
  deriving DecidableEq, Repr

/-- The kind of a producer ring (R223). -/
inductive RingKind where
  | tq
  | bq
  deriving DecidableEq, Repr

/-- The five words of a mailbox that a GO write samples (Tables 2.8 and 2.9). -/
structure MbWords where
  cmd   : Nat
  pathA : Nat
  pathB : Nat
  dataA : Nat
  dataB : Nat
  deriving DecidableEq, Repr

/-- A write of MB_CMD with the words that stand before it (R63); an access of another width than 64 bits is ignored (R62). -/
structure MbAccess where
  words   : MbWords
  width64 : Bool
  deriving DecidableEq, Repr

/-- One of the two clocks of a lane (Table 3.1): with `tx` the transmit clock, otherwise the receive clock. -/
structure LaneClock where
  lane : Nat
  tx   : Bool
  deriving DecidableEq, Repr

/-- How a scan job's source ended (R274, R275): it delivered the rest of the range, or it stopped with a result code of Table 11.7 after
delivering so many octets more. What the octets are is the device's own: a memory-port job's come in its read bursts, the flash and the tables
are part of it. -/
inductive ScanOutcome where
  | complete
  | failed (result octets : Nat)
  deriving DecidableEq, Repr

/-- What discovery of the flash finds (R339). Times in microseconds. -/
structure SfdpResult where
  signature   : Bool
  density     : Nat
  erase4k     : Bool
  eraseOpcode : Nat
  /-- the read modes listed: bit m for code m of `nvm_read_mode` -/
  readModes   : Nat
  /-- opcodes with 4-octet addresses are listed -/
  addr4       : Bool
  quadEnable  : Nat
  pageSize    : Nat
  programMax  : Nat
  eraseMax    : Nat
  suspendMax  : Nat
  hasSuspend  : Bool
  /-- the typical page-program and 4 KiB erase times, in microseconds -/
  programTyp  : Nat
  eraseTyp    : Nat
  deriving DecidableEq, Repr

/-- The inputs that Snowdrop watches (R326). -/
inductive WakeIn where
  | source (number : Nat)
  | wakeN
  | primrose (channel : Nat)
  deriving DecidableEq, Repr

/-- The commands, one constructor per row of the table, in the table's order. -/
inductive Instr where
  | tickBoundary
  | rxFrameStart (ch : Nat) (start : StartInput) (crossing : Nat)
  | rxCell (ch : Nat) (cell : CellInput)
  | keyPresent
  | decisionDeliver (ecc : EccFinding)
  | commitPoint (ep : Nat)
  | applyHeldEffects
  | hostTxFrame
  | alRxFrame (al : Nat) (length : Nat) (rsvd : Bool) (octets : List Octet) (err : Bool)
  | schedChoice (ep : Nat) (level : Nat) (lead : Nat)
  | txFrameStart (ep : Nat) (level : Nat) (crossing : Nat) (ecc : CellRead)
  | txFrameEnd (ep : Nat)
  | alTxFrameEnd (al : Nat) (ecc : CellRead)
  | macControlOther (ch : Nat) (frame : List Octet)
  | pauseRx (ch : Nat) (frame : List Octet)
  | pfcRx (ch : Nat) (frame : List Octet)
  | pauseGenStart (ch : Nat)
  | pauseRefreshExpire (ch : Nat) (acct : Nat)
  | pauseActiveExpire (ch : Nat) (acct : Nat)
  | pauseHoldEnd (ch : Nat) (hold : Nat)
  | pauseWdBreak (ch : Nat)
  | holdoffEnd (ch : Nat)
  | verifyRx (ch : Nat)
  | respondRx (ch : Nat)
  | verifyTimeExpire (ch : Nat)
  | mmFragmentRx (ch : Nat) (start : List Octet) (frag : FragInput) (crossing : Nat)
  | fabricFragmentRx (ch : Nat) (start : List Octet) (frag : FragInput) (crossing : Nat)
  | fragTimeout (ch : Nat) (level : Nat)
  | sdRise (lane : Nat)
  | sdFall (lane : Nat)
  | laneClockLost (clock : LaneClock)
  | laneClockReturn (clock : LaneClock)
  | syncAcquired (lane : Nat)
  | syncLost (lane : Nat) (hiBer : Bool)
  | anComplete (lane : Nat) (page : Nat)
  | syncTimeoutExpire (lane : Nat)
  | upHoldExpire (lane : Nat)
  | linkRestart (agent : Agent) (lane : Nat)
  | objectWrite (agent : Agent) (path : List Nat) (index sub : Nat) (data : List Octet)
  | stagedWrite (agent : Agent) (path : List Nat) (index sub : Nat) (data : List Octet)
  | commit (agent : Agent) (path : List Nat)
  | commitCheckDone (unit : Nat)
  | commitApply
  | discard (agent : Agent) (path : List Nat)
  | leaseClaim (agent : Agent) (path : List Nat)
  | leaseClaimDecide
  | leaseRenew (agent : Agent) (path : List Nat)
  | leaseRelease (agent : Agent) (path : List Nat)
  | leaseExpiry (unit : Nat)
  | alarmAck (agent : Agent) (path : List Nat) (mask : Nat)
  | mailboxRead (proc : Nat) (access : MbAccess)
  | mailboxWrite (proc : Nat) (access : MbAccess)
  | mailboxDone (proc : Nat)
  | dpTargetWrite (agent : Agent) (value : Nat)
  | dpOffsetWrite (agent : Agent) (value : Nat)
  | dpLengthWrite (agent : Agent) (value : Nat)
  | dpDataRead (agent : Agent) (n : Nat)
  | dpDataWrite (agent : Agent) (octets : List Octet)
  | dpApertureRead (window : Nat) (width : Nat)
  | dpApertureWrite (window : Nat) (width : Nat) (word : Nat)
  | accessRead (ch : Nat) (frame : List Octet)
  | accessWrite (ch : Nat) (frame : List Octet)
  | accessEpoch (ch : Nat) (frame : List Octet)
  | accessResponse
  | accessRelayTimeout (tag : Nat)
  | keyWrite (agent : Agent) (slot : Nat) (key : List Octet)
  | keyErase (agent : Agent) (slot : Nat)
  | tableUpdateApply
  | surveyStep (finding : SurveyFinding)
  | surveyRepair
  | editionCommit (agent : Agent)
  | editionDiscard (agent : Agent)
  | editionFlip
  | editionDrained
  | flowSweepVisit
  | policerWrite (agent : Agent) (entry : Nat) (octets : List Octet)
  | foldFlush (agent : Agent)
  | foldDataRx (ch : Nat) (frame : List Octet) (eccBad : Bool) (crossing : Nat)
  | templateInstallRx (ch : Nat) (frame : List Octet)
  | foldNakRx (ch : Nat) (frame : List Octet)
  | templateInstallTx (ch : Nat)
  | foldNakTx (ch : Nat)
  | foldHoldExpire (ch : Nat) (fseq : Nat)
  | queueWrite (agent : Agent) (queue : Nat) (octets : List Octet)
  | gateTransition (ep : Nat)
  | gateCtReached (ep : Nat)
  | tailDoorbell (kind : RingKind) (ring : Nat) (value : Nat) (width64 : Bool)
  | scanKnock (kind : RingKind) (ring : Nat) (width64 : Bool)
  | ringScanDone (kind : RingKind) (ring : Nat) (ready : Nat)
  | cqHeadDoorbell (ring : Nat) (value : Nat) (width64 : Bool)
  | doorbellAbsent (offset : Nat)
  | descReadDone (kind : RingKind) (ring : Nat) (entry : List Octet)
  | mpReadResponse (tag : Nat) (data : List Octet) (last : Bool) (err : Bool)
  | mpWriteResponse (tag : Nat) (err : Bool)
  | mpOperationTimeout (write : Bool) (tag : Nat)
  | bqBufferTake (bq : Nat) (ecc : CellRead)
  | cqStallDetect (cq : Nat)
  | cqIrqTimer (cq : Nat)
  | ringStart (agent : Agent) (unit : Nat)
  | ringStop (agent : Agent) (unit : Nat)
  | ringReset (agent : Agent) (unit : Nat)
  | ringConfigWrite (agent : Agent) (unit : Nat) (index : Nat) (data : List Octet)
  | alStateChange (al : Nat) (value : Nat)
  | alHoldExpire (al : Nat)
  | alTxStall (al : Nat)
  | coexReqRise (i : Nat)
  | coexGrant (i : Nat) (late : Bool)
  | coexReqFall (i : Nat)
  | maxQuietExpire (i : Nat)
  | streamWrite (agent : Agent) (entry : Nat) (octets : List Octet)
  | scanJobStore (agent : Agent) (job : Nat) (octets : List Octet)
  | scanJobGo (agent : Agent) (job : Nat) (octets : List Octet)
  | scanJobStart
  | scanJobDone (job : Nat) (outcome : ScanOutcome)
  | scanAbort (agent : Agent) (job : Nat)
  | timeNowRead (agent : Agent)
  | incrementWrite (agent : Agent) (data : List Octet)
  | trefLost
  | trefRestored
  | stepSet (agent : Agent)
  | adjust (agent : Agent) (d : Int)
  | timeStepApply
  | ppsInEdge
  | ppsInMissing
  | ppsOutRise
  | ppsOutFall
  | helloTimer
  | helloRx (ch : Nat) (frame : List Octet)
  | deadTimerExpire (lane : Nat)
  | lsaRx (ch : Nat) (frame : List Octet)
  | lsaRefresh
  | lsaAgeOut (origin : Nat)
  | routeCompute
  | assignRx (ch : Nat) (frame : List Octet)
  | assignRefresh
  | duplicateRenumber (serial : Nat)
  | relayReqRx (ch : Nat) (frame : List Octet)
  | relayRspRx (ch : Nat) (frame : List Octet)
  | eventDelivery (proc : Nat)
  | eqHeadReturn (proc : Nat) (word : Nat) (width64 : Bool)
  | sourceComplete (proc : Nat) (word : Nat) (width64 : Bool)
  | maskWrite (proc : Nat) (word : Nat) (width64 : Bool)
  | thresholdWrite (proc : Nat) (word : Nat) (width64 : Bool)
  | sourceWrite (agent : Agent) (source : Nat) (octets : List Octet)
  | testRaise (agent : Agent) (cause : Nat)
  | eqConfigWrite (agent : Agent) (eq : Nat) (index : Nat) (data : List Octet)
  | wakeInput (input : WakeIn)
  | fbFreeze (agent : Agent)
  | fbThaw (agent : Agent)
  | freezeLimitExpire
  | pfailFall
  | pfailRecover
  | nvmDiscovery (found : SfdpResult)
  | nvmOperationDone (ok : Bool)
  | nvmTimeout
  | monumentMount
  | monumentProgram (ok : Bool)
  | tokenAccrue
  | budgetHourExpire
  | monumentRestart (agent : Agent)
  | monumentFormat (agent : Agent) (sectors : Nat)
  | atlasSet (agent : Agent) (base limit : Nat)
  | atlasErase (agent : Agent)
  | atlasImageWrite (agent : Agent) (octets : List Octet)
  | atlasApply
  | powerRequest (agent : Agent) (target : Nat) (inFrame : Bool)
  | modeApply
  | handshakeAnswer
  | frameWaitExpire
  | idleEnter
  | idleExit
  | returnReady (step : Nat)
  | returnStepTimeout
  | returnEnd
  | primroseFrame (ch : Nat) (frame : List Octet)
  | snowdropOverride (view : Nat)
  | statsClear (agent : Agent) (unit : Nat)
  | statsClearApply
  | statsSnapshot (agent : Agent) (unit : Nat) (slot : Nat)
  | snapshotLatch
  | snapshotDone (slot : Nat)
  | rxPeakRead (agent : Agent) (ch : Nat) (sub : Nat)
  | porstAssert
  | porstRelease (serial : Nat)
  | srstAssert
  | srstRelease
  | sdClkLost
  | sdClkRestored
  | pllLockLoss
  | ledActivityTimer (lane : Nat)
  | pllLock
  | hiBerEnd (lane : Nat)
  deriving DecidableEq, Repr

end Sys2Proof
end

