-- ==== Sys2Proof/Decode.lean ====
section
/-! DEFINITION. The command a word spells. The opcode table gives no row any bits: the block's commands are events, not
encoded words. No word therefore spells a command. -/
namespace Sys2Proof

/-- The command that a word of `nbits` bits spells: none, since no row of the table has bits. -/
def decodeTableWord (_nbits _w : Nat) : Option Instr := none

end Sys2Proof
end

