-- ==== Sys2Proof/Machine/Bits.lean ====
section
/-! DEFINITION. Bit fields and octet orders (R13): a word is a number, a field is its bits high:low; multi-octet fields of
frames and flash are most significant octet first, those of host memory and the data port least significant first. -/
namespace Sys2Proof.Machine

/-- Bits `lo + width − 1 : lo` of `v`. -/
def field (v lo width : Nat) : Nat := (v >>> lo) % 2 ^ width

/-- One bit of `v`. -/
def bit (v i : Nat) : Bool := v.testBit i

/-- `v` with the field of `width` bits at `lo` set to `x`. -/
def setField (v lo width x : Nat) : Nat :=
  v - field v lo width * 2 ^ lo + (x % 2 ^ width) * 2 ^ lo

/-- `v` with bit `i` set to `b`. -/
def setBit (v i : Nat) (b : Bool) : Nat := setField v i 1 b.toNat

/-- The number of an octet string, most significant octet first. -/
def ofMsb (l : List Octet) : Nat := l.foldl (fun a o => a * 256 + o.toNat) 0

/-- The number of an octet string, least significant octet first. -/
def ofLsb : List Octet → Nat
  | [] => 0
  | o :: t => o.toNat + 256 * ofLsb t

/-- `n` octets of `v`, least significant octet first. -/
def toLsb : Nat → Nat → List Octet
  | 0, _ => []
  | n + 1, v => BitVec.ofNat 8 v :: toLsb n (v / 256)

/-- `n` octets of `v`, most significant octet first. -/
def toMsb (n v : Nat) : List Octet := (toLsb n v).reverse

/-- The octet at position `i`, 0 beyond the end. -/
def octet (l : List Octet) (i : Nat) : Nat := (l.getD i 0).toNat

/-- Two octets at `i`, most significant first. -/
def be16 (l : List Octet) (i : Nat) : Nat := octet l i * 256 + octet l (i + 1)

/-- `n` octets at `i`, most significant first. -/
def beN (l : List Octet) (i n : Nat) : Nat := ofMsb ((l.drop i).take n)

/-- `l` with the octets from position `i` replaced by `r`. -/
def patch (l : List Octet) (i : Nat) (r : List Octet) : List Octet :=
  l.take i ++ r ++ l.drop (i + r.length)

/-- A two's complement number of `w` bits. -/
def signed (w v : Nat) : Int := if v.testBit (w - 1) then (v : Int) - 2 ^ w else v

/-- The `w`-bit two's complement code of an integer. -/
def unsigned (w : Nat) (x : Int) : Nat := (x % (2 ^ w : Int)).toNat

/-- Quotient rounded up. -/
def ceilDiv (a b : Nat) : Nat := (a + b - 1) / b

end Sys2Proof.Machine
end

