-- ==== Sys2Proof/Machine/Crc.lean ====
section
/-! DEFINITION. The check computations of Table 11.1 (R262): every check value in the device is one of the four. -/
namespace Sys2Proof.Machine

/-- A row of Table 11.1. `init` is the register of the unreflected computation (R262). -/
structure CrcModel where
  width     : Nat
  poly      : Nat
  init      : Nat
  reflected : Bool
  xorOut    : Nat
  deriving DecidableEq, Repr

/-- CRC-32 (IEEE 802.3), POLY 0b00. -/
def crc32 : CrcModel := ⟨32, 0x04C11DB7, 0xFFFFFFFF, true, 0xFFFFFFFF⟩
/-- CRC-32C, POLY 0b01. -/
def crc32c : CrcModel := ⟨32, 0x1EDC6F41, 0xFFFFFFFF, true, 0xFFFFFFFF⟩
/-- CRC-16, POLY 0b10. -/
def crc16 : CrcModel := ⟨16, 0x1021, 0xFFFF, false, 0x0000⟩
/-- CRC-8, POLY 0b11. -/
def crc8 : CrcModel := ⟨8, 0x2F, 0xFF, false, 0xFF⟩

/-- The computation that a POLY field selects. -/
def crcOfPoly (p : Nat) : CrcModel :=
  match p with
  | 0 => crc32
  | 1 => crc32c
  | 2 => crc16
  | _ => crc8

/-- The bits of an octet in the order the computation takes them (R262). -/
def crcBits (m : CrcModel) (o : Octet) : List Bool :=
  let l := [7, 6, 5, 4, 3, 2, 1, 0].map (fun i => o.toNat.testBit i)
  if m.reflected then l.reverse else l

/-- One bit into the register: its highest bit is combined with the input bit. -/
def crcStep (m : CrcModel) (r : Nat) (b : Bool) : Nat :=
  let top := r.testBit (m.width - 1) != b
  let r' := (r * 2) % 2 ^ m.width
  if top then r' ^^^ m.poly else r'

/-- The register after an octet string. -/
def crcRun (m : CrcModel) (r : Nat) (l : List Octet) : Nat :=
  l.foldl (fun r o => (crcBits m o).foldl (crcStep m) r) r

/-- The `w` low bits of `v` in reverse order. -/
def bitReverse : Nat → Nat → Nat
  | 0, _ => 0
  | w + 1, v => (v % 2) * 2 ^ w + bitReverse w (v / 2)

/-- The result from a register: reflected out where the row says so, then the final XOR. -/
def crcFinish (m : CrcModel) (r : Nat) : Nat :=
  (if m.reflected then bitReverse m.width r else r) ^^^ m.xorOut

/-- The check value of an octet string from a stated initial value. -/
def crcFrom (m : CrcModel) (init : Nat) (l : List Octet) : Nat := crcFinish m (crcRun m init l)

/-- The check value of an octet string (R262). -/
def crc (m : CrcModel) (l : List Octet) : Nat := crcFrom m m.init l

/-- The four FCS octets of a frame's octets, in the order they are sent. PRESUMED (log entry 5): IEEE 802.3 sends the
CRC-32 with the coefficient of the highest term first, which is the least significant octet of the reflected result. -/
def fcsOctets (l : List Octet) : List Octet := toLsb 4 (crc crc32 l)

/-- The stomped FCS: the bitwise inverse of the computed FCS (R107). -/
def stompOctets (l : List Octet) : List Octet := toLsb 4 (crc crc32 l ^^^ 0xFFFFFFFF)

end Sys2Proof.Machine
end

