-- ==== Sys2Proof/Config.lean ====
section
/-! DEFINITION. What synthesis fixes: the three builds of Table 0.1 and their resources, the constants common to all builds
(R4, R11), and the values the manual leaves to the implementation. -/
namespace Sys2Proof

/-- The build configurations (R3, R5). -/
inductive Build where
  | tlafelu8
  | tlafelu24
  | tlafelu64
  deriving DecidableEq, Repr

namespace Build

/-- `root.config_id`, which is the channel count (Table 0.2). -/
def channels : Build → Nat
  | tlafelu8 => 8
  | tlafelu24 => 24
  | tlafelu64 => 64

/-- Lanes (Table 0.1). -/
def lanes : Build → Nat
  | tlafelu8 => 2
  | tlafelu24 => 6
  | tlafelu64 => 16

/-- Legend TCAM entries (Table 0.1). -/
def legendEntries : Build → Nat
  | tlafelu8 => 1024
  | tlafelu24 => 2048
  | tlafelu64 => 4096

/-- Contour range entries (Table 0.1). -/
def contourEntries : Build → Nat
  | tlafelu8 => 512
  | tlafelu24 => 1024
  | tlafelu64 => 2048

/-- Flow table entries (Table 0.1). -/
def flowEntries : Build → Nat
  | tlafelu8 => 8192
  | tlafelu24 => 16384
  | tlafelu64 => 65536

/-- The bits b of a flow bucket number (R143). -/
def bucketBits : Build → Nat
  | tlafelu8 => 11
  | tlafelu24 => 12
  | tlafelu64 => 14

/-- Scheduler flow queues (Table 0.1). -/
def queues : Build → Nat
  | tlafelu8 => 512
  | tlafelu24 => 1024
  | tlafelu64 => 2048

/-- Buffer cells of 64 octets (Table 0.1). -/
def cells : Build → Nat
  | tlafelu8 => 24576
  | tlafelu24 => 49152
  | tlafelu64 => 98304

/-- Host rings of each kind (Table 0.1). -/
def rings : Build → Nat
  | tlafelu8 => 16
  | tlafelu24 => 32
  | tlafelu64 => 64

/-- Interrupt sources (Table 0.1). -/
def sources : Build → Nat
  | tlafelu8 => 48
  | tlafelu24 => 144
  | tlafelu64 => 384

/-- Folding templates (R155). -/
def templates : Build → Nat
  | tlafelu8 => 128
  | tlafelu24 => 256
  | tlafelu64 => 512

/-- Folding stubs (R155). -/
def stubs : Build → Nat
  | tlafelu8 => 4096
  | tlafelu24 => 8192
  | tlafelu64 => 16384

/-- Slot bits t of a template number (R155). -/
def templateBits : Build → Nat
  | tlafelu8 => 7
  | tlafelu24 => 8
  | tlafelu64 => 9

/-- Policers (R148). -/
def policers : Build → Nat
  | tlafelu8 => 256
  | tlafelu24 => 512
  | tlafelu64 => 1024

/-- Gate timers (R179). -/
def gateTimers : Build → Nat
  | tlafelu8 => 8
  | tlafelu24 => 16
  | tlafelu64 => 32

/-- Whether the build has the pause watchdog (Table 0.1, R8). -/
def hasWatchdog : Build → Bool
  | tlafelu64 => true
  | _ => false

end Build

namespace Config

/-- Slots in a tick (Table 0.4). -/
def slotsPerTick : Nat := 256

/-- Ticks in a millisecond (R95). -/
def ticksPerMs : Nat := 6250

/-- Ticks in a microsecond times 4: a tick is 160 ns (Table 0.4), so 1 µs is 6.25 ticks. -/
def ticksOfUs (us : Nat) : Nat := (us * 25 + 3) / 4

/-- The host port's endpoint number (Table 1.4). -/
def hostEp : Nat := 0x43

/-- The number of no endpoint (Table 1.4). -/
def noEp : Nat := 0x7F

/-- `unit_rev` of every unit (R400). -/
def unitRev : Nat := 0x0102

/-- The octets of one lane receive FIFO (R79). -/
def laneFifoOctets : Nat := 16384

/-- FREE VALUE (log entry 8): the SD_CLK periods between the entry into a low-power mode and an event of the stay. The
periods pass outside the block's own clock, and nothing here fixes how many. -/
opaque sdPeriods : Nat → BitVec 32

/-- FREE VALUE (log entry 8): the TREF_CLK edges that the time counter sees during a stay in SLEEP (R291). -/
opaque sleepEdges : Nat → BitVec 64

/-- FREE VALUE (log entry 79): the OSC_CLK periods of 20 ns that pass between two events of a stay in SLEEP (R291). -/
opaque oscPeriods : Nat → BitVec 64

/-- FREE VALUE (log entry 24): which lane of Tlafelu-8 changed its LN_SD where a wake input names the shared source of LINK_CHANGE (Table
14.8): the row's operand is the source alone. -/
opaque wakeLane : Nat → BitVec 1

/-- FREE VALUE (log entry 9): the length against which a frame is policed while its length is not known yet (R148). -/
opaque policedLength : Nat → BitVec 14

/-- FREE VALUE (log entry 11): the number of the cell in which an uncorrectable error was met (R154): which cells a frame occupies is
not stated. -/
opaque cellNumber : Nat → BitVec 32

/-- FREE VALUE (log entry 14): which of the free ways, or way pairs, of its bucket a learned flow takes (R144). -/
opaque learnWay : Nat → BitVec 2

/-- FREE VALUE (log entry 15): CARRIED and COMPUTED of a GUARD_FAIL record whose outcome is FORMAT, where no check field or region can
be read (Table 11.5). -/
opaque guardFormat : Nat → BitVec 64

/-- FREE VALUE (log entry 20): `monument.region_base` in 4 KiB sectors, which is fixed at synthesis (R342). -/
opaque regionSector : BitVec 16

/-- FREE VALUE (log entry 21): what a Monument slot holds after a program of it that failed (R348): the slot is partial, and nothing more
is stated. -/
opaque partialSlot : Nat → BitVec 512

/-- FREE VALUE (log entry 92): which of the commands of an operation of the NVM port has timed out (R340, Table 15.4). -/
opaque timedOutStage : Nat → BitVec 8

/-- FREE VALUE (log entry 99): the type, modulo 3, and in bit 2 the tag of the frame that a FOLD_DATA frame carries, where no template tells them
(R377). -/
opaque carriedType : Nat → BitVec 3

/-- FREE VALUE (log entry 35): how many octets of its range a running scan job has read of the flash or of a table within a tick (R275). -/
opaque scanOctets : Nat → BitVec 32

end Config
end Sys2Proof
end

