-- ==== Sys2Proof/Machine/Dict.lean ====
section
/-! DEFINITION. The object dictionary as data (R43 to R48, R405): which units exist, and for each kind of unit its objects
with type, access mode, agents, default and range, one row per row of the manual's object tables. -/
namespace Sys2Proof.Machine

/-- The kinds of unit (Table 19.1). -/
inductive UnitKind where
  | root | power | interrupt | time | fieldbook | monument | legend | contour | flow | buffer | sched | guard | host
  | graticule | dataport | coex | parser | stats | access | lane | channel | airLink | tq | bq | cq | eq | chStats | alStats
  deriving DecidableEq, Repr

/-- Object types (Table 2.2); a command carries the octets of its argument, and `octets 0` is `dp_data`. -/
inductive ObjType where
  | bool | u8 | u16 | u32 | u64 | i32 | time80 | table
  | octets (n : Nat)
  | cmd (arg : Nat)
  deriving DecidableEq, Repr

/-- Access modes (R47). -/
inductive Access where
  | ro | wo | rw | rws | cmd
  deriving DecidableEq, Repr

/-- The agents of a row (R48). -/
inductive Agents where
  | hmf | hm | h
  deriving DecidableEq, Repr

/-- A default: a number, the ring's own number, or a resource of the build. -/
inductive Dflt where
  | num (n : Nat)
  | ownNumber
  | cells
  | stubs
  deriving DecidableEq, Repr

/-- The range of a row. -/
inductive Range where
  | any
  | between (lo hi : Nat)
  | signedBetween (lo hi : Int)
  | cellsFrom (lo : Nat)
  | rings
  | aligned64
  | etherType
  | channelBits
  | laneBits
  | unicast
  | userOffset
  | action
  | wakeSource
  | primroseBits
  | mfSlot
  | dpTarget
  deriving DecidableEq, Repr

/-- One row of an object table: an index range and a sub-index range that share the rest. -/
structure ObjRow where
  idxLo   : Nat
  idxHi   : Nat
  subLo   : Nat
  subHi   : Nat
  type    : ObjType
  access  : Access
  agents  : Agents
  default : Dflt
  range   : Range
  deriving DecidableEq, Repr

/-- The objects of Tables 0.2, 1.2, 2.6, 18.5. -/
def rootRows : List ObjRow :=
  [⟨0x5000, 0x5000, 0, 0, .u8, .ro, .hmf, .num 0, .any⟩,
   ⟨0x5001, 0x5001, 0, 0, .u64, .ro, .hmf, .num 0, .any⟩,
   ⟨0x5002, 0x5002, 0, 0, .u16, .ro, .hmf, .num 0, .between 0 256⟩,
   ⟨0x5003, 0x5003, 0, 0, .u16, .ro, .hmf, .num 0, .between 0 256⟩,
   ⟨0x6000, 0x6000, 0, 0, .table, .ro, .hmf, .num 0, .any⟩,
   ⟨0x6001, 0x6001, 0, 0, .table, .ro, .hmf, .num 0, .any⟩,
   ⟨0x4000, 0x4000, 0, 0, .u8, .rw, .hmf, .num 0, .between 0 1⟩,
   ⟨0x4001, 0x4001, 0, 0, .u16, .rw, .hmf, .num 30, .between 1 3600⟩,
   ⟨0x1010, 0x1010, 0, 15, .u32, .rws, .hmf, .num 0, .mfSlot⟩]

/-- The objects of Table 2.3. -/
def headerRows : List ObjRow :=
  [⟨0x0000, 0x0000, 0, 0, .u16, .ro, .hmf, .num 0, .any⟩,
   ⟨0x0001, 0x0001, 0, 0, .u16, .ro, .hmf, .num 0, .any⟩,
   ⟨0x0002, 0x0002, 0, 0, .u8, .ro, .hmf, .num 0, .between 0 4⟩,
   ⟨0x0003, 0x0003, 0, 0, .u16, .ro, .hmf, .num 0, .between 0 254⟩,
   ⟨0x0004, 0x0004, 0, 0, .table, .ro, .hmf, .num 0, .any⟩,
   ⟨0x0005, 0x0005, 0, 0, .u32, .ro, .hmf, .num 0, .any⟩,
   ⟨0x0006, 0x0006, 0, 0, .cmd 4, .cmd, .hmf, .num 0, .any⟩,
   ⟨0x0010, 0x0010, 0, 0, .u16, .ro, .hmf, .num 0, .any⟩,
   ⟨0x0011, 0x0011, 0, 0, .u32, .ro, .hmf, .num 0, .between 0 3600000⟩,
   ⟨0x0012, 0x0012, 0, 0, .cmd 0, .cmd, .hmf, .num 0, .any⟩,
   ⟨0x0013, 0x0013, 0, 0, .cmd 0, .cmd, .hmf, .num 0, .any⟩,
   ⟨0x0014, 0x0014, 0, 0, .cmd 0, .cmd, .hmf, .num 0, .any⟩,
   ⟨0x0020, 0x0020, 0, 0, .u8, .ro, .hmf, .num 0, .between 0 2⟩,
   ⟨0x0020, 0x0020, 1, 1, .u16, .ro, .hmf, .num 0, .any⟩,
   ⟨0x0020, 0x0020, 2, 2, .u16, .ro, .hmf, .num 0, .between 0 1346⟩,
   ⟨0x0020, 0x0020, 3, 3, .u16, .ro, .hmf, .num 0, .any⟩,
   ⟨0x0020, 0x0020, 4, 4, .u8, .ro, .hmf, .num 0, .any⟩,
   ⟨0x0020, 0x0020, 5, 5, .u32, .ro, .hmf, .num 0, .any⟩,
   ⟨0x0021, 0x0021, 0, 0, .table, .ro, .hmf, .num 0, .any⟩,
   ⟨0x0030, 0x0030, 0, 0, .cmd 0, .cmd, .hmf, .num 0, .any⟩,
   ⟨0x0031, 0x0031, 0, 0, .cmd 0, .cmd, .hmf, .num 0, .any⟩]

/-- The objects of Table 2.10. -/
def dataportRows : List ObjRow :=
  [⟨0x4000, 0x4000, 0, 0, .u8, .rw, .hmf, .num 1, .between 1 8⟩,
   ⟨0x4000, 0x4000, 1, 8, .u16, .rw, .hmf, .num 0, .between 0 4095⟩,
   ⟨0x4001, 0x4001, 0, 0, .u16, .rw, .hmf, .num 0, .dpTarget⟩,
   ⟨0x4002, 0x4002, 0, 0, .u32, .rw, .hmf, .num 0, .any⟩,
   ⟨0x4003, 0x4003, 0, 0, .u32, .rw, .hmf, .num 0, .any⟩,
   ⟨0x4004, 0x4004, 0, 0, .octets 0, .rw, .hmf, .num 0, .any⟩,
   ⟨0x5000, 0x5000, 0, 0, .u16, .ro, .hmf, .num 0, .any⟩]

/-- The objects of Table 2.11. -/
def accessRows : List ObjRow :=
  [⟨0x1000, 0x1000, 0, 0, .u16, .rws, .h, .num 34998, .etherType⟩,
   ⟨0x1001, 0x1001, 0, 0, .u64, .rws, .hmf, .num 0, .channelBits⟩,
   ⟨0x5000, 0x5000, 0, 0, .u8, .ro, .hmf, .num 0, .any⟩,
   ⟨0x5001, 0x5001, 0, 0, .u32, .ro, .hmf, .num 0, .any⟩,
   ⟨0x5002, 0x5002, 0, 7, .u64, .ro, .hmf, .num 0, .any⟩,
   ⟨0x7000, 0x7000, 0, 0, .cmd 1, .cmd, .h, .num 0, .any⟩,
   ⟨0x8000, 0x8000, 0, 0, .u64, .ro, .hmf, .num 0, .any⟩,
   ⟨0x8001, 0x8001, 0, 0, .u64, .ro, .hmf, .num 0, .any⟩,
   ⟨0x8002, 0x8002, 0, 0, .u64, .ro, .hmf, .num 0, .any⟩,
   ⟨0x8003, 0x8003, 0, 0, .u64, .ro, .hmf, .num 0, .any⟩,
   ⟨0x8004, 0x8004, 0, 0, .u64, .ro, .hmf, .num 0, .any⟩,
   ⟨0x9000, 0x9000, 0, 7, .octets 16, .wo, .hm, .num 0, .any⟩]

/-- The objects of Tables 3.3, 12.1, part 1. -/
def laneRows1 : List ObjRow :=
  [⟨0x1000, 0x1000, 0, 0, .u8, .rws, .hmf, .num 0, .between 0 7⟩,
   ⟨0x1001, 0x1001, 0, 0, .bool, .rws, .hmf, .num 0, .between 0 1⟩,
   ⟨0x1002, 0x1002, 0, 0, .bool, .rws, .hmf, .num 0, .between 0 1⟩,
   ⟨0x1003, 0x1003, 0, 0, .u8, .rws, .hmf, .num 0, .between 0 3⟩,
   ⟨0x1004, 0x1004, 0, 0, .u8, .rws, .hmf, .num 0, .between 0 2⟩,
   ⟨0x1005, 0x1005, 0, 0, .u8, .rws, .hmf, .num 0, .between 0 1⟩,
   ⟨0x1006, 0x1006, 0, 0, .u8, .rws, .hmf, .num 0, .between 0 3⟩,
   ⟨0x1007, 0x1007, 0, 0, .u16, .rws, .hmf, .num 10, .between 1 1000⟩,
   ⟨0x1008, 0x1008, 0, 0, .u16, .rws, .hmf, .num 1, .between 0 1000⟩,
   ⟨0x4000, 0x4000, 0, 0, .u8, .rw, .hmf, .num 0, .between 0 2⟩,
   ⟨0x5000, 0x5000, 0, 0, .u8, .ro, .hmf, .num 0, .between 0 5⟩,
   ⟨0x5001, 0x5001, 0, 0, .u16, .ro, .hmf, .num 0, .any⟩,
   ⟨0x5002, 0x5002, 0, 0, .bool, .ro, .hmf, .num 0, .any⟩,
   ⟨0x7000, 0x7000, 0, 0, .cmd 0, .cmd, .hmf, .num 0, .any⟩,
   ⟨0x8000, 0x8000, 0, 0, .u32, .ro, .hmf, .num 0, .any⟩,
   ⟨0x8001, 0x8001, 0, 0, .u32, .ro, .hmf, .num 0, .any⟩,
   ⟨0x8002, 0x8002, 0, 0, .u32, .ro, .hmf, .num 0, .any⟩,
   ⟨0x8003, 0x8003, 0, 0, .u64, .ro, .hmf, .num 0, .any⟩,
   ⟨0x8004, 0x8004, 0, 0, .u64, .ro, .hmf, .num 0, .any⟩,
   ⟨0x8005, 0x8005, 0, 0, .u32, .ro, .hmf, .num 0, .any⟩,
   ⟨0x8006, 0x8006, 0, 0, .u64, .ro, .hmf, .num 0, .any⟩,
   ⟨0x8007, 0x8007, 0, 0, .u64, .ro, .hmf, .num 0, .any⟩,
   ⟨0x8008, 0x8008, 0, 0, .u64, .ro, .hmf, .num 0, .any⟩,
   ⟨0x8009, 0x8009, 0, 0, .u64, .ro, .hmf, .num 0, .any⟩]

/-- The objects of Tables 3.3, 12.1, part 2. -/
def laneRows2 : List ObjRow :=
  [⟨0x800A, 0x800A, 0, 0, .u64, .ro, .hmf, .num 0, .any⟩,
   ⟨0x1010, 0x1010, 0, 0, .u16, .rws, .hmf, .num 0, .between 0 65535⟩,
   ⟨0x1011, 0x1011, 0, 0, .u16, .rws, .hmf, .num 0, .between 0 65535⟩]

/-- The objects of Tables 3.3, 12.1. -/
def laneRows : List ObjRow := laneRows1 ++ laneRows2

/-- The objects of Tables 3.6, 4.3, 4.7, 6.5, 8.7, part 1. -/
def channelRows1 : List ObjRow :=
  [⟨0x1000, 0x1000, 0, 0, .bool, .rws, .hmf, .num 0, .between 0 1⟩,
   ⟨0x1001, 0x1001, 0, 0, .u16, .rws, .hmf, .num 1522, .between 64 16352⟩,
   ⟨0x1002, 0x1002, 0, 0, .octets 6, .rws, .hmf, .num 0, .unicast⟩,
   ⟨0x5000, 0x5000, 0, 0, .u8, .ro, .hmf, .num 0, .between 0 5⟩,
   ⟨0x5001, 0x5001, 0, 0, .u8, .ro, .hmf, .num 0, .between 0 8⟩,
   ⟨0x5002, 0x5002, 0, 0, .u8, .ro, .hmf, .num 0, .between 0 10⟩,
   ⟨0x8000, 0x8000, 0, 0, .u64, .ro, .hmf, .num 0, .any⟩,
   ⟨0x1010, 0x1010, 0, 0, .u8, .rws, .hmf, .num 0, .between 0 2⟩,
   ⟨0x1011, 0x1011, 0, 0, .u8, .rws, .hmf, .num 0, .between 0 255⟩,
   ⟨0x1012, 0x1012, 0, 0, .u16, .rws, .hmf, .num 65535, .between 1 65535⟩,
   ⟨0x1013, 0x1013, 0, 0, .u8, .rws, .hmf, .num 0, .between 0 7⟩,
   ⟨0x1014, 0x1014, 0, 0, .u32, .rws, .hmf, .num 1024, .cellsFrom 0⟩,
   ⟨0x1014, 0x1014, 1, 8, .u32, .rws, .hmf, .num 128, .cellsFrom 0⟩,
   ⟨0x1015, 0x1015, 0, 8, .u32, .rws, .hmf, .num 312, .cellsFrom 0⟩,
   ⟨0x1016, 0x1016, 0, 0, .u32, .rws, .hmf, .num 768, .cellsFrom 0⟩,
   ⟨0x1016, 0x1016, 1, 8, .u32, .rws, .hmf, .num 96, .cellsFrom 0⟩,
   ⟨0x1017, 0x1017, 0, 0, .u32, .rws, .hmf, .num 256, .cellsFrom 1⟩,
   ⟨0x1017, 0x1017, 1, 8, .u32, .rws, .hmf, .num 32, .cellsFrom 1⟩,
   ⟨0x5010, 0x5010, 0, 8, .u32, .ro, .hmf, .num 0, .any⟩,
   ⟨0x5011, 0x5011, 0, 8, .u32, .ro, .hmf, .num 0, .any⟩,
   ⟨0x5012, 0x5012, 0, 0, .u16, .ro, .hmf, .num 0, .any⟩,
   ⟨0x5013, 0x5013, 0, 0, .u16, .ro, .hmf, .num 0, .any⟩,
   ⟨0x8010, 0x8010, 0, 0, .u64, .ro, .hmf, .num 0, .any⟩,
   ⟨0x8011, 0x8011, 0, 0, .u64, .ro, .hmf, .num 0, .any⟩]

/-- The objects of Tables 3.6, 4.3, 4.7, 6.5, 8.7, part 2. -/
def channelRows2 : List ObjRow :=
  [⟨0x8012, 0x8012, 0, 0, .u64, .ro, .hmf, .num 0, .any⟩,
   ⟨0x8013, 0x8013, 0, 0, .u64, .ro, .hmf, .num 0, .any⟩,
   ⟨0x8014, 0x8014, 0, 0, .u64, .ro, .hmf, .num 0, .any⟩,
   ⟨0x8015, 0x8015, 0, 0, .u64, .ro, .hmf, .num 0, .any⟩,
   ⟨0x8016, 0x8016, 0, 0, .u64, .ro, .hmf, .num 0, .any⟩,
   ⟨0x8017, 0x8017, 0, 8, .u64, .ro, .hmf, .num 0, .any⟩,
   ⟨0x8018, 0x8018, 0, 0, .u64, .ro, .hmf, .num 0, .any⟩,
   ⟨0x8019, 0x8019, 0, 0, .u64, .ro, .hmf, .num 0, .any⟩,
   ⟨0x801A, 0x801A, 0, 0, .u64, .ro, .hmf, .num 0, .any⟩,
   ⟨0x801B, 0x801B, 0, 8, .u64, .ro, .hmf, .num 0, .any⟩,
   ⟨0x801C, 0x801C, 0, 8, .u64, .ro, .hmf, .num 0, .any⟩,
   ⟨0x801D, 0x801D, 0, 8, .u64, .ro, .hmf, .num 0, .any⟩,
   ⟨0x1020, 0x1020, 0, 0, .bool, .rws, .hmf, .num 0, .between 0 1⟩,
   ⟨0x1021, 0x1021, 0, 0, .u16, .rws, .hmf, .num 64, .between 13 6250⟩,
   ⟨0x8020, 0x8020, 0, 0, .u64, .ro, .hmf, .num 0, .any⟩,
   ⟨0x8021, 0x8021, 0, 0, .u64, .ro, .hmf, .num 0, .any⟩,
   ⟨0x8022, 0x8022, 0, 0, .u64, .ro, .hmf, .num 0, .any⟩,
   ⟨0x8023, 0x8023, 0, 0, .u64, .ro, .hmf, .num 0, .any⟩,
   ⟨0x8024, 0x8024, 0, 0, .u64, .ro, .hmf, .num 0, .any⟩,
   ⟨0x8025, 0x8025, 0, 0, .u64, .ro, .hmf, .num 0, .any⟩,
   ⟨0x8026, 0x8026, 0, 0, .u64, .ro, .hmf, .num 0, .any⟩,
   ⟨0x1030, 0x1030, 0, 0, .u8, .rws, .hmf, .num 1, .between 0 2⟩,
   ⟨0x1031, 0x1031, 0, 0, .bool, .rws, .hmf, .num 0, .between 0 1⟩,
   ⟨0x1032, 0x1032, 0, 0, .bool, .rws, .hmf, .num 0, .between 0 1⟩]

/-- The objects of Tables 3.6, 4.3, 4.7, 6.5, 8.7, part 3. -/
def channelRows3 : List ObjRow :=
  [⟨0x1033, 0x1033, 0, 0, .u8, .rws, .hmf, .num 10, .between 1 128⟩,
   ⟨0x1034, 0x1034, 0, 0, .u8, .rws, .hmf, .num 0, .between 0 3⟩,
   ⟨0x1035, 0x1035, 0, 0, .u16, .rws, .hmf, .num 50, .between 0 10000⟩,
   ⟨0x1036, 0x1036, 0, 0, .u16, .rws, .hmf, .num 100, .between 1 60000⟩,
   ⟨0x5030, 0x5030, 0, 0, .u8, .ro, .hmf, .num 0, .between 0 3⟩,
   ⟨0x5031, 0x5031, 0, 0, .u16, .ro, .hmf, .num 0, .any⟩,
   ⟨0x5032, 0x5032, 0, 0, .u8, .ro, .hmf, .num 0, .between 0 1⟩,
   ⟨0x6030, 0x6030, 0, 0, .table, .ro, .hmf, .num 0, .any⟩,
   ⟨0x8030, 0x8030, 0, 0, .u64, .ro, .hmf, .num 0, .any⟩,
   ⟨0x8031, 0x8031, 0, 0, .u64, .ro, .hmf, .num 0, .any⟩,
   ⟨0x8032, 0x8032, 0, 0, .u64, .ro, .hmf, .num 0, .any⟩,
   ⟨0x8033, 0x8033, 0, 0, .u64, .ro, .hmf, .num 0, .any⟩,
   ⟨0x8034, 0x8034, 0, 0, .u64, .ro, .hmf, .num 0, .any⟩,
   ⟨0x8035, 0x8035, 0, 0, .u64, .ro, .hmf, .num 0, .any⟩,
   ⟨0x8036, 0x8036, 0, 8, .u64, .ro, .hmf, .num 0, .any⟩,
   ⟨0x8037, 0x8037, 0, 0, .u64, .ro, .hmf, .num 0, .any⟩,
   ⟨0x8038, 0x8038, 0, 0, .u64, .ro, .hmf, .num 0, .any⟩,
   ⟨0x8039, 0x8039, 0, 0, .u64, .ro, .hmf, .num 0, .any⟩,
   ⟨0x803A, 0x803A, 0, 0, .u64, .ro, .hmf, .num 0, .any⟩,
   ⟨0x803B, 0x803B, 0, 0, .u64, .ro, .hmf, .num 0, .any⟩,
   ⟨0x803C, 0x803C, 0, 0, .u64, .ro, .hmf, .num 0, .any⟩,
   ⟨0x803D, 0x803D, 0, 0, .u64, .ro, .hmf, .num 0, .any⟩,
   ⟨0x803E, 0x803E, 0, 0, .u64, .ro, .hmf, .num 0, .any⟩,
   ⟨0x803F, 0x803F, 0, 0, .u64, .ro, .hmf, .num 0, .any⟩]

/-- The objects of Tables 3.6, 4.3, 4.7, 6.5, 8.7, part 4. -/
def channelRows4 : List ObjRow :=
  [⟨0x8040, 0x8040, 0, 0, .u64, .ro, .hmf, .num 0, .any⟩,
   ⟨0x8041, 0x8041, 0, 0, .u64, .ro, .hmf, .num 0, .any⟩,
   ⟨0x8042, 0x8042, 0, 0, .u64, .ro, .hmf, .num 0, .any⟩,
   ⟨0x8043, 0x8043, 0, 0, .u64, .ro, .hmf, .num 0, .any⟩,
   ⟨0x8044, 0x8044, 0, 0, .u64, .ro, .hmf, .num 0, .any⟩,
   ⟨0x8045, 0x8045, 0, 0, .u64, .ro, .hmf, .num 0, .any⟩]

/-- The objects of Tables 3.6, 4.3, 4.7, 6.5, 8.7. -/
def channelRows : List ObjRow := channelRows1 ++ channelRows2 ++ channelRows3 ++ channelRows4

/-- The objects of Table 5.9. -/
def legendRows : List ObjRow :=
  [⟨0x1000, 0x1000, 1, 4, .u16, .rws, .hmf, .num 0, .userOffset⟩,
   ⟨0x1001, 0x1001, 0, 0, .u64, .rws, .hmf, .num 0, .action⟩,
   ⟨0x1002, 0x1002, 0, 0, .u8, .rws, .hmf, .num 0, .rings⟩,
   ⟨0x1003, 0x1003, 0, 0, .u8, .rws, .hmf, .num 1, .between 0 64⟩,
   ⟨0x5000, 0x5000, 0, 0, .u16, .ro, .hmf, .num 0, .any⟩,
   ⟨0x5001, 0x5001, 0, 0, .u8, .ro, .hmf, .num 0, .between 0 2⟩,
   ⟨0x5002, 0x5002, 0, 1, .u32, .ro, .hmf, .num 0, .any⟩,
   ⟨0x5003, 0x5003, 0, 0, .u16, .ro, .hmf, .num 0, .any⟩,
   ⟨0x6000, 0x6000, 0, 0, .table, .rw, .hmf, .num 0, .any⟩,
   ⟨0x6001, 0x6001, 0, 0, .table, .rw, .hmf, .num 0, .any⟩,
   ⟨0x6002, 0x6002, 0, 0, .table, .ro, .hmf, .num 0, .any⟩,
   ⟨0x6003, 0x6003, 0, 0, .table, .ro, .hmf, .num 0, .any⟩,
   ⟨0x6004, 0x6004, 0, 0, .table, .rw, .hmf, .num 0, .any⟩,
   ⟨0x7001, 0x7001, 0, 0, .cmd 0, .cmd, .hmf, .num 0, .any⟩,
   ⟨0x7002, 0x7002, 0, 0, .cmd 0, .cmd, .hmf, .num 0, .any⟩,
   ⟨0x8000, 0x8000, 0, 0, .u64, .ro, .hmf, .num 0, .any⟩,
   ⟨0x8001, 0x8001, 0, 0, .u64, .ro, .hmf, .num 0, .any⟩,
   ⟨0x8002, 0x8002, 0, 0, .u64, .ro, .hmf, .num 0, .any⟩,
   ⟨0x8003, 0x8003, 0, 0, .u64, .ro, .hmf, .num 0, .any⟩,
   ⟨0x8004, 0x8004, 0, 0, .u64, .ro, .hmf, .num 0, .any⟩,
   ⟨0x8005, 0x8005, 0, 0, .u64, .ro, .hmf, .num 0, .any⟩,
   ⟨0x8006, 0x8006, 0, 0, .u64, .ro, .hmf, .num 0, .any⟩]

/-- The objects of Table 5.15. -/
def contourRows : List ObjRow :=
  [⟨0x6000, 0x6000, 0, 0, .table, .rw, .hmf, .num 0, .any⟩,
   ⟨0x6001, 0x6001, 0, 0, .table, .rw, .hmf, .num 0, .any⟩,
   ⟨0x6002, 0x6002, 0, 0, .table, .ro, .hmf, .num 0, .any⟩,
   ⟨0x6003, 0x6003, 0, 0, .table, .ro, .hmf, .num 0, .any⟩,
   ⟨0x8000, 0x8000, 0, 0, .u64, .ro, .hmf, .num 0, .any⟩,
   ⟨0x8001, 0x8001, 0, 0, .u64, .ro, .hmf, .num 0, .any⟩,
   ⟨0x8002, 0x8002, 0, 0, .u64, .ro, .hmf, .num 0, .any⟩]

/-- The objects of Table 5.16. -/
def flowRows : List ObjRow :=
  [⟨0x1000, 0x1000, 0, 0, .u16, .rws, .hmf, .num 300, .between 0 65535⟩,
   ⟨0x1001, 0x1001, 0, 0, .u32, .rws, .hmf, .num 0, .any⟩,
   ⟨0x5000, 0x5000, 0, 0, .u32, .ro, .hmf, .num 0, .any⟩,
   ⟨0x6000, 0x6000, 0, 0, .table, .rw, .hmf, .num 0, .any⟩,
   ⟨0x6001, 0x6001, 0, 0, .table, .rw, .hmf, .num 0, .any⟩,
   ⟨0x6010, 0x6013, 0, 0, .table, .rw, .hmf, .num 0, .any⟩,
   ⟨0x8000, 0x8000, 0, 0, .u64, .ro, .hmf, .num 0, .any⟩,
   ⟨0x8001, 0x8001, 0, 0, .u64, .ro, .hmf, .num 0, .any⟩,
   ⟨0x8002, 0x8002, 0, 0, .u64, .ro, .hmf, .num 0, .any⟩,
   ⟨0x8003, 0x8003, 0, 0, .u64, .ro, .hmf, .num 0, .any⟩,
   ⟨0x8004, 0x8004, 0, 0, .u64, .ro, .hmf, .num 0, .any⟩]

/-- The objects of Table 6.1. -/
def bufferRows : List ObjRow :=
  [⟨0x1000, 0x1000, 0, 0, .bool, .rws, .hmf, .num 0, .between 0 1⟩,
   ⟨0x1001, 0x1001, 0, 0, .u8, .rws, .hmf, .num 4, .between 1 255⟩,
   ⟨0x1002, 0x1002, 0, 0, .u32, .rws, .hmf, .num 2048, .cellsFrom 256⟩,
   ⟨0x1003, 0x1003, 0, 2, .u32, .rws, .hmf, .num 2048, .cellsFrom 256⟩,
   ⟨0x1004, 0x1004, 0, 0, .u32, .rws, .hmf, .num 256, .between 64 4096⟩,
   ⟨0x5000, 0x5000, 0, 0, .u32, .ro, .hmf, .cells, .any⟩,
   ⟨0x5001, 0x5001, 0, 0, .u32, .ro, .hmf, .num 0, .any⟩,
   ⟨0x5002, 0x5002, 0, 0, .u32, .ro, .hmf, .stubs, .any⟩,
   ⟨0x5003, 0x5003, 0, 0, .u16, .ro, .hmf, .num 0, .any⟩,
   ⟨0x5004, 0x5004, 0, 0, .u32, .ro, .hmf, .num 0, .any⟩,
   ⟨0x5005, 0x5005, 0, 2, .u32, .ro, .hmf, .num 0, .any⟩,
   ⟨0x6000, 0x6000, 0, 0, .table, .ro, .hmf, .num 0, .any⟩,
   ⟨0x7000, 0x7000, 0, 0, .cmd 0, .cmd, .hmf, .num 0, .any⟩,
   ⟨0x8000, 0x8000, 0, 0, .u64, .ro, .hmf, .num 0, .any⟩,
   ⟨0x8001, 0x8001, 0, 0, .u64, .ro, .hmf, .num 0, .any⟩,
   ⟨0x8002, 0x8002, 0, 0, .u64, .ro, .hmf, .num 0, .any⟩,
   ⟨0x8003, 0x8003, 0, 0, .u64, .ro, .hmf, .num 0, .any⟩,
   ⟨0x8004, 0x8004, 0, 0, .u64, .ro, .hmf, .num 0, .any⟩,
   ⟨0x8005, 0x8005, 0, 0, .u64, .ro, .hmf, .num 0, .any⟩,
   ⟨0x8006, 0x8006, 0, 0, .u64, .ro, .hmf, .num 0, .any⟩]

/-- The objects of Table 7.6. -/
def schedRows : List ObjRow :=
  [⟨0x5000, 0x5000, 0, 0, .u8, .ro, .hmf, .num 0, .between 0 32⟩,
   ⟨0x5001, 0x5001, 0, 0, .u16, .ro, .hmf, .num 0, .any⟩,
   ⟨0x6000, 0x6000, 0, 0, .table, .rw, .hmf, .num 0, .any⟩,
   ⟨0x6001, 0x6001, 0, 0, .table, .ro, .hmf, .num 0, .any⟩,
   ⟨0x6002, 0x6002, 0, 0, .table, .rws, .hmf, .num 0, .any⟩,
   ⟨0x6003, 0x6003, 0, 0, .table, .ro, .hmf, .num 0, .any⟩,
   ⟨0x6100, 0x6142, 0, 0, .table, .rws, .hmf, .num 0, .any⟩,
   ⟨0x8000, 0x8000, 0, 0, .u64, .ro, .hmf, .num 0, .any⟩,
   ⟨0x8001, 0x8001, 0, 0, .u64, .ro, .hmf, .num 0, .any⟩,
   ⟨0x8002, 0x8002, 0, 0, .u64, .ro, .hmf, .num 0, .any⟩,
   ⟨0x8003, 0x8003, 0, 0, .u64, .ro, .hmf, .num 0, .any⟩,
   ⟨0x8004, 0x8004, 0, 0, .u64, .ro, .hmf, .num 0, .any⟩,
   ⟨0x8005, 0x8005, 0, 0, .u64, .ro, .hmf, .num 0, .any⟩,
   ⟨0x8006, 0x8006, 0, 0, .u64, .ro, .hmf, .num 0, .any⟩,
   ⟨0x8007, 0x8007, 0, 0, .u64, .ro, .hmf, .num 0, .any⟩]

/-- The objects of Table 9.11, and the commands of its rings that the group forwards (R22). -/
def hostRows : List ObjRow :=
  [⟨0x7000, 0x7002, 0, 0, .cmd 0, .cmd, .hmf, .num 0, .any⟩,
   ⟨0x1000, 0x1000, 0, 0, .u8, .rws, .hmf, .num 16, .between 1 48⟩,
   ⟨0x1001, 0x1001, 0, 0, .u8, .rws, .hmf, .num 16, .between 1 48⟩,
   ⟨0x1002, 0x1002, 0, 0, .bool, .rws, .hmf, .num 1, .between 0 1⟩,
   ⟨0x4000, 0x4000, 0, 0, .u16, .rw, .hmf, .num 50, .between 1 10000⟩,
   ⟨0x4001, 0x4001, 0, 0, .u16, .rw, .hmf, .num 256, .between 1 256⟩,
   ⟨0x4002, 0x4002, 0, 0, .u16, .rw, .hmf, .num 1, .between 1 10000⟩,
   ⟨0x5000, 0x5000, 0, 0, .u16, .ro, .hmf, .num 0, .between 0 256⟩,
   ⟨0x8000, 0x8000, 0, 0, .u64, .ro, .hmf, .num 0, .any⟩,
   ⟨0x8001, 0x8001, 0, 0, .u64, .ro, .hmf, .num 0, .any⟩,
   ⟨0x8002, 0x8002, 0, 0, .u64, .ro, .hmf, .num 0, .any⟩,
   ⟨0x8003, 0x8003, 0, 0, .u64, .ro, .hmf, .num 0, .any⟩,
   ⟨0x8004, 0x8004, 0, 0, .u64, .ro, .hmf, .num 0, .any⟩]

/-- The objects of Table 9.9. -/
def tqRows : List ObjRow :=
  [⟨0x4000, 0x4000, 0, 0, .u64, .rw, .hmf, .num 0, .aligned64⟩,
   ⟨0x4001, 0x4001, 0, 0, .u8, .rw, .hmf, .num 4, .between 4 16⟩,
   ⟨0x4002, 0x4002, 0, 0, .u8, .rw, .hmf, .num 0, .between 0 1⟩,
   ⟨0x4003, 0x4003, 0, 0, .u8, .rw, .hmf, .ownNumber, .rings⟩,
   ⟨0x4005, 0x4005, 0, 0, .u8, .rw, .hmf, .num 0, .between 0 7⟩,
   ⟨0x4006, 0x4006, 0, 0, .u8, .rw, .hmf, .num 0, .between 0 7⟩,
   ⟨0x5000, 0x5000, 0, 0, .u32, .ro, .hmf, .num 0, .any⟩,
   ⟨0x5001, 0x5001, 0, 0, .u32, .ro, .hmf, .num 0, .any⟩,
   ⟨0x5002, 0x5002, 0, 0, .u32, .ro, .hmf, .num 0, .any⟩,
   ⟨0x7000, 0x7000, 0, 0, .cmd 0, .cmd, .hmf, .num 0, .any⟩,
   ⟨0x7001, 0x7001, 0, 0, .cmd 0, .cmd, .hmf, .num 0, .any⟩,
   ⟨0x7002, 0x7002, 0, 0, .cmd 0, .cmd, .hmf, .num 0, .any⟩,
   ⟨0x8000, 0x8000, 0, 0, .u64, .ro, .hmf, .num 0, .any⟩,
   ⟨0x8001, 0x8001, 0, 0, .u64, .ro, .hmf, .num 0, .any⟩,
   ⟨0x8002, 0x8002, 0, 0, .u64, .ro, .hmf, .num 0, .any⟩,
   ⟨0x8003, 0x8003, 0, 0, .u64, .ro, .hmf, .num 0, .any⟩,
   ⟨0x8004, 0x8004, 0, 0, .u64, .ro, .hmf, .num 0, .any⟩,
   ⟨0x8005, 0x8005, 0, 0, .u64, .ro, .hmf, .num 0, .any⟩]

/-- The objects of Table 9.9. -/
def bqRows : List ObjRow :=
  [⟨0x4000, 0x4000, 0, 0, .u64, .rw, .hmf, .num 0, .aligned64⟩,
   ⟨0x4001, 0x4001, 0, 0, .u8, .rw, .hmf, .num 4, .between 4 16⟩,
   ⟨0x4002, 0x4002, 0, 0, .u8, .rw, .hmf, .num 0, .between 0 1⟩,
   ⟨0x4003, 0x4003, 0, 0, .u8, .rw, .hmf, .ownNumber, .rings⟩,
   ⟨0x4005, 0x4005, 0, 0, .u8, .rw, .hmf, .num 0, .between 0 7⟩,
   ⟨0x4006, 0x4006, 0, 0, .u8, .rw, .hmf, .num 0, .between 0 7⟩,
   ⟨0x5000, 0x5000, 0, 0, .u32, .ro, .hmf, .num 0, .any⟩,
   ⟨0x5001, 0x5001, 0, 0, .u32, .ro, .hmf, .num 0, .any⟩,
   ⟨0x5002, 0x5002, 0, 0, .u32, .ro, .hmf, .num 0, .any⟩,
   ⟨0x7000, 0x7000, 0, 0, .cmd 0, .cmd, .hmf, .num 0, .any⟩,
   ⟨0x7001, 0x7001, 0, 0, .cmd 0, .cmd, .hmf, .num 0, .any⟩,
   ⟨0x7002, 0x7002, 0, 0, .cmd 0, .cmd, .hmf, .num 0, .any⟩,
   ⟨0x8000, 0x8000, 0, 0, .u64, .ro, .hmf, .num 0, .any⟩,
   ⟨0x8001, 0x8001, 0, 0, .u64, .ro, .hmf, .num 0, .any⟩,
   ⟨0x8002, 0x8002, 0, 0, .u64, .ro, .hmf, .num 0, .any⟩,
   ⟨0x8003, 0x8003, 0, 0, .u64, .ro, .hmf, .num 0, .any⟩,
   ⟨0x8004, 0x8004, 0, 0, .u64, .ro, .hmf, .num 0, .any⟩,
   ⟨0x8005, 0x8005, 0, 0, .u64, .ro, .hmf, .num 0, .any⟩,
   ⟨0x8006, 0x8006, 0, 0, .u64, .ro, .hmf, .num 0, .any⟩,
   ⟨0x8007, 0x8007, 0, 0, .u64, .ro, .hmf, .num 0, .any⟩,
   ⟨0x8008, 0x8008, 0, 0, .u64, .ro, .hmf, .num 0, .any⟩]

/-- The objects of Table 9.9. -/
def cqRows : List ObjRow :=
  [⟨0x4000, 0x4000, 0, 0, .u64, .rw, .hmf, .num 0, .aligned64⟩,
   ⟨0x4001, 0x4001, 0, 0, .u8, .rw, .hmf, .num 4, .between 4 16⟩,
   ⟨0x4002, 0x4002, 0, 0, .u8, .rw, .hmf, .num 0, .between 0 0⟩,
   ⟨0x4004, 0x4004, 0, 0, .bool, .rw, .hmf, .num 0, .between 0 1⟩,
   ⟨0x4006, 0x4006, 0, 0, .u8, .rw, .hmf, .num 0, .between 0 7⟩,
   ⟨0x4007, 0x4007, 0, 0, .u16, .rw, .hmf, .num 1, .between 1 65535⟩,
   ⟨0x4008, 0x4008, 0, 0, .u16, .rw, .hmf, .num 0, .between 0 65535⟩,
   ⟨0x5000, 0x5000, 0, 0, .u32, .ro, .hmf, .num 0, .any⟩,
   ⟨0x5001, 0x5001, 0, 0, .u32, .ro, .hmf, .num 0, .any⟩,
   ⟨0x5003, 0x5003, 0, 0, .u8, .ro, .hmf, .num 0, .between 0 8⟩,
   ⟨0x5004, 0x5004, 0, 0, .u32, .ro, .hmf, .num 24, .any⟩,
   ⟨0x7000, 0x7000, 0, 0, .cmd 0, .cmd, .hmf, .num 0, .any⟩,
   ⟨0x7001, 0x7001, 0, 0, .cmd 0, .cmd, .hmf, .num 0, .any⟩,
   ⟨0x7002, 0x7002, 0, 0, .cmd 0, .cmd, .hmf, .num 0, .any⟩,
   ⟨0x8000, 0x8000, 0, 0, .u64, .ro, .hmf, .num 0, .any⟩,
   ⟨0x8001, 0x8001, 0, 0, .u64, .ro, .hmf, .num 0, .any⟩,
   ⟨0x8002, 0x8002, 0, 0, .u64, .ro, .hmf, .num 0, .any⟩,
   ⟨0x8004, 0x8004, 0, 0, .u64, .ro, .hmf, .num 0, .any⟩,
   ⟨0x8005, 0x8005, 0, 0, .u64, .ro, .hmf, .num 0, .any⟩,
   ⟨0x8009, 0x8009, 0, 0, .u64, .ro, .hmf, .num 0, .any⟩]

/-- The objects of Table 10.5. -/
def airLinkRows : List ObjRow :=
  [⟨0x1000, 0x1000, 0, 0, .bool, .rws, .hmf, .num 0, .between 0 1⟩,
   ⟨0x1001, 0x1001, 0, 0, .u8, .rws, .hmf, .num 4, .between 1 16⟩,
   ⟨0x1002, 0x1002, 0, 0, .u8, .rws, .hmf, .num 4, .between 1 16⟩,
   ⟨0x1003, 0x1003, 0, 0, .u16, .rws, .hmf, .num 1600, .between 16 65535⟩,
   ⟨0x1004, 0x1004, 0, 0, .u16, .rws, .hmf, .num 2, .between 1 10000⟩,
   ⟨0x1005, 0x1005, 0, 0, .u16, .rws, .hmf, .num 1, .between 1 10000⟩,
   ⟨0x5000, 0x5000, 0, 0, .u8, .ro, .hmf, .num 0, .between 0 3⟩,
   ⟨0x5001, 0x5001, 0, 0, .bool, .ro, .hmf, .num 0, .between 0 1⟩,
   ⟨0x8000, 0x8000, 0, 0, .u64, .ro, .hmf, .num 0, .any⟩,
   ⟨0x8001, 0x8001, 0, 0, .u64, .ro, .hmf, .num 0, .any⟩,
   ⟨0x8002, 0x8002, 0, 0, .u64, .ro, .hmf, .num 0, .any⟩,
   ⟨0x8003, 0x8003, 0, 0, .u64, .ro, .hmf, .num 0, .any⟩,
   ⟨0x8004, 0x8004, 0, 0, .u64, .ro, .hmf, .num 0, .any⟩,
   ⟨0x8005, 0x8005, 0, 0, .u64, .ro, .hmf, .num 0, .any⟩,
   ⟨0x8006, 0x8006, 0, 0, .u64, .ro, .hmf, .num 0, .any⟩]

/-- The objects of Table 10.6. -/
def coexRows : List ObjRow :=
  [⟨0x1000, 0x1000, 0, 2, .u16, .rws, .hmf, .num 0, .laneBits⟩,
   ⟨0x1001, 0x1001, 0, 0, .u32, .rws, .hmf, .num 2000, .between 100 1000000⟩,
   ⟨0x1002, 0x1002, 0, 0, .u32, .rws, .hmf, .num 5000, .between 10 1000000⟩,
   ⟨0x1003, 0x1003, 0, 0, .u16, .rws, .hmf, .num 80, .between 4 65535⟩,
   ⟨0x1004, 0x1004, 0, 0, .bool, .rws, .hmf, .num 0, .between 0 1⟩,
   ⟨0x5000, 0x5000, 0, 2, .u8, .ro, .hmf, .num 0, .between 0 3⟩,
   ⟨0x5001, 0x5001, 0, 0, .u16, .ro, .hmf, .num 0, .any⟩,
   ⟨0x8000, 0x8000, 0, 2, .u64, .ro, .hmf, .num 0, .any⟩,
   ⟨0x8001, 0x8001, 0, 2, .u64, .ro, .hmf, .num 0, .any⟩,
   ⟨0x8002, 0x8002, 0, 2, .u64, .ro, .hmf, .num 0, .any⟩,
   ⟨0x8003, 0x8003, 0, 2, .u64, .ro, .hmf, .num 0, .any⟩]

/-- The objects of Table 11.8. -/
def guardRows : List ObjRow :=
  [⟨0x5000, 0x5000, 0, 0, .u16, .ro, .hmf, .num 0, .between 0 512⟩,
   ⟨0x6000, 0x6000, 0, 0, .table, .rws, .hmf, .num 0, .any⟩,
   ⟨0x6001, 0x6001, 0, 0, .table, .rw, .hmf, .num 0, .any⟩,
   ⟨0x6002, 0x6002, 0, 0, .table, .rw, .hmf, .num 0, .any⟩,
   ⟨0x7000, 0x7000, 0, 0, .cmd 1, .cmd, .hmf, .num 0, .any⟩,
   ⟨0x8000, 0x8000, 0, 0, .u64, .ro, .hmf, .num 0, .any⟩,
   ⟨0x8001, 0x8001, 0, 0, .u64, .ro, .hmf, .num 0, .any⟩,
   ⟨0x8002, 0x8002, 0, 0, .u64, .ro, .hmf, .num 0, .any⟩,
   ⟨0x8003, 0x8003, 0, 0, .u64, .ro, .hmf, .num 0, .any⟩,
   ⟨0x8004, 0x8004, 0, 0, .u64, .ro, .hmf, .num 0, .any⟩,
   ⟨0x8005, 0x8005, 0, 0, .u64, .ro, .hmf, .num 0, .any⟩,
   ⟨0x8006, 0x8006, 0, 0, .u64, .ro, .hmf, .num 0, .any⟩,
   ⟨0x8007, 0x8007, 0, 0, .u64, .ro, .hmf, .num 0, .any⟩,
   ⟨0x8008, 0x8008, 0, 0, .u64, .ro, .hmf, .num 0, .any⟩,
   ⟨0x8009, 0x8009, 0, 0, .u64, .ro, .hmf, .num 0, .any⟩,
   ⟨0x800A, 0x800A, 0, 0, .u64, .ro, .hmf, .num 0, .any⟩,
   ⟨0x800B, 0x800B, 0, 0, .u64, .ro, .hmf, .num 0, .any⟩,
   ⟨0x800C, 0x800C, 0, 0, .u64, .ro, .hmf, .num 0, .any⟩,
   ⟨0x800D, 0x800D, 0, 0, .u64, .ro, .hmf, .num 0, .any⟩,
   ⟨0x800E, 0x800E, 0, 0, .u64, .ro, .hmf, .num 0, .any⟩]

/-- The objects of Table 12.3. -/
def timeRows : List ObjRow :=
  [⟨0x1000, 0x1000, 0, 0, .u16, .rws, .hmf, .num 16, .between 2 65535⟩,
   ⟨0x1001, 0x1001, 0, 0, .bool, .rws, .hmf, .num 0, .between 0 1⟩,
   ⟨0x1002, 0x1002, 0, 0, .u32, .rws, .hmf, .num 100000, .between 1 500000⟩,
   ⟨0x1003, 0x1003, 0, 0, .i32, .rws, .hmf, .num 0, .signedBetween (-500000000) (499999999)⟩,
   ⟨0x4000, 0x4000, 0, 0, .u64, .rw, .hmf, .num 34359738368, .between 34325378630 34394098106⟩,
   ⟨0x4001, 0x4001, 0, 0, .time80, .rw, .hmf, .num 0, .any⟩,
   ⟨0x5000, 0x5000, 0, 0, .time80, .ro, .hmf, .num 0, .any⟩,
   ⟨0x5000, 0x5000, 1, 1, .u16, .ro, .hmf, .num 0, .any⟩,
   ⟨0x5001, 0x5001, 0, 0, .bool, .ro, .hmf, .num 0, .between 0 1⟩,
   ⟨0x5002, 0x5002, 0, 0, .u8, .ro, .hmf, .num 0, .between 0 1⟩,
   ⟨0x5003, 0x5003, 0, 0, .time80, .ro, .hmf, .num 0, .any⟩,
   ⟨0x5003, 0x5003, 1, 1, .u16, .ro, .hmf, .num 0, .any⟩,
   ⟨0x7000, 0x7000, 0, 0, .cmd 0, .cmd, .hmf, .num 0, .any⟩,
   ⟨0x7001, 0x7001, 0, 0, .cmd 8, .cmd, .hmf, .num 0, .any⟩,
   ⟨0x8000, 0x8000, 0, 0, .u64, .ro, .hmf, .num 0, .any⟩,
   ⟨0x8001, 0x8001, 0, 0, .u64, .ro, .hmf, .num 0, .any⟩,
   ⟨0x8002, 0x8002, 0, 0, .u64, .ro, .hmf, .num 0, .any⟩,
   ⟨0x8003, 0x8003, 0, 0, .u64, .ro, .hmf, .num 0, .any⟩]

/-- The objects of Table 13.6. -/
def graticuleRows : List ObjRow :=
  [⟨0x1000, 0x1000, 0, 0, .bool, .rws, .hmf, .num 0, .between 0 1⟩,
   ⟨0x1001, 0x1001, 0, 0, .u8, .rws, .hmf, .num 128, .between 0 255⟩,
   ⟨0x1002, 0x1002, 0, 0, .u8, .rws, .hmf, .num 0, .between 0 254⟩,
   ⟨0x1003, 0x1003, 0, 0, .u8, .rws, .hmf, .num 16, .between 2 255⟩,
   ⟨0x1004, 0x1004, 0, 15, .u16, .rws, .hmf, .num 1, .between 1 65535⟩,
   ⟨0x1005, 0x1005, 0, 15, .u8, .rws, .hmf, .num 0, .between 0 254⟩,
   ⟨0x5000, 0x5000, 0, 0, .u64, .ro, .hmf, .num 0, .any⟩,
   ⟨0x5001, 0x5001, 0, 0, .u8, .ro, .hmf, .num 0, .between 0 3⟩,
   ⟨0x5002, 0x5002, 0, 0, .u8, .ro, .hmf, .num 0, .between 0 254⟩,
   ⟨0x5003, 0x5003, 0, 0, .u64, .ro, .hmf, .num 0, .any⟩,
   ⟨0x5004, 0x5004, 0, 0, .u8, .ro, .hmf, .num 0, .between 0 254⟩,
   ⟨0x5005, 0x5005, 0, 0, .u16, .ro, .hmf, .num 0, .any⟩,
   ⟨0x5006, 0x5006, 0, 0, .u32, .ro, .hmf, .num 0, .any⟩,
   ⟨0x6000, 0x6000, 0, 0, .table, .ro, .hmf, .num 0, .any⟩,
   ⟨0x6001, 0x6001, 0, 0, .table, .ro, .hmf, .num 0, .any⟩,
   ⟨0x6002, 0x6002, 0, 0, .table, .ro, .hmf, .num 0, .any⟩,
   ⟨0x8000, 0x800D, 0, 0, .u64, .ro, .hmf, .num 0, .any⟩]

/-- The objects of Table 14.9. -/
def interruptRows : List ObjRow :=
  [⟨0x1000, 0x1000, 0, 15, .u16, .rws, .hmf, .num 511, .wakeSource⟩,
   ⟨0x5000, 0x5000, 0, 7, .u16, .ro, .hmf, .num 0, .any⟩,
   ⟨0x5001, 0x5001, 0, 0, .u16, .ro, .hmf, .num 0, .any⟩,
   ⟨0x6000, 0x6000, 0, 0, .table, .rw, .hmf, .num 0, .any⟩,
   ⟨0x7000, 0x7000, 0, 0, .cmd 2, .cmd, .hmf, .num 0, .any⟩,
   ⟨0x8000, 0x8000, 0, 7, .u64, .ro, .hmf, .num 0, .any⟩,
   ⟨0x8001, 0x8001, 0, 0, .u64, .ro, .hmf, .num 0, .any⟩,
   ⟨0x8002, 0x8002, 0, 7, .u64, .ro, .hmf, .num 0, .any⟩,
   ⟨0x8003, 0x8003, 0, 7, .u64, .ro, .hmf, .num 0, .any⟩,
   ⟨0x8004, 0x8004, 0, 7, .u64, .ro, .hmf, .num 0, .any⟩]

/-- The objects of Table 14.10. -/
def eqRows : List ObjRow :=
  [⟨0x4000, 0x4000, 0, 0, .u64, .rw, .hmf, .num 0, .aligned64⟩,
   ⟨0x4001, 0x4001, 0, 0, .u8, .rw, .hmf, .num 4, .between 4 12⟩,
   ⟨0x4002, 0x4002, 0, 0, .bool, .rw, .hmf, .num 0, .between 0 1⟩,
   ⟨0x5000, 0x5000, 0, 0, .u32, .ro, .hmf, .num 0, .any⟩,
   ⟨0x5001, 0x5001, 0, 0, .u32, .ro, .hmf, .num 0, .any⟩]

/-- The objects of Table 15.10. -/
def fieldbookRows : List ObjRow :=
  [⟨0x1000, 0x1000, 0, 0, .u8, .rws, .hmf, .num 4, .between 0 7⟩,
   ⟨0x1001, 0x1001, 0, 0, .u16, .rws, .hmf, .num 10, .between 1 3600⟩,
   ⟨0x4000, 0x4000, 0, 0, .u8, .rw, .hmf, .num 0, .between 0 1⟩,
   ⟨0x5000, 0x5000, 0, 0, .u8, .ro, .hmf, .num 0, .any⟩,
   ⟨0x5001, 0x5001, 0, 0, .u32, .ro, .hmf, .num 1, .any⟩,
   ⟨0x5002, 0x5002, 0, 0, .u32, .ro, .hmf, .num 1, .any⟩,
   ⟨0x5003, 0x5003, 0, 0, .u32, .ro, .hmf, .num 0, .any⟩,
   ⟨0x5004, 0x5004, 0, 0, .u32, .ro, .hmf, .num 0, .any⟩,
   ⟨0x5005, 0x5005, 0, 0, .u16, .ro, .hmf, .num 0, .any⟩,
   ⟨0x5006, 0x5006, 0, 0, .u16, .ro, .hmf, .num 0, .any⟩,
   ⟨0x6000, 0x6000, 0, 0, .table, .ro, .hmf, .num 0, .any⟩,
   ⟨0x6001, 0x6001, 0, 0, .table, .ro, .hmf, .num 0, .any⟩,
   ⟨0x6002, 0x6002, 0, 0, .table, .ro, .hmf, .num 0, .any⟩,
   ⟨0x8000, 0x8004, 0, 0, .u64, .ro, .hmf, .num 0, .any⟩]

/-- The objects of Table 15.11, part 1. -/
def monumentRows1 : List ObjRow :=
  [⟨0x1000, 0x1000, 0, 0, .u8, .rws, .hmf, .num 4, .between 0 7⟩,
   ⟨0x1001, 0x1001, 0, 0, .u8, .rws, .hmf, .num 2, .between 0 2⟩,
   ⟨0x1002, 0x1002, 0, 0, .u8, .rws, .hmf, .num 100, .between 10 100⟩,
   ⟨0x1003, 0x1003, 0, 0, .u16, .rws, .hmf, .num 100, .between 10 10000⟩,
   ⟨0x1004, 0x1004, 0, 0, .u8, .rws, .hmf, .num 2, .between 2 16⟩,
   ⟨0x5000, 0x5000, 0, 0, .u32, .ro, .hmf, .num 0, .any⟩,
   ⟨0x5001, 0x5001, 0, 0, .u8, .ro, .hmf, .num 0, .between 0 3⟩,
   ⟨0x5002, 0x5002, 0, 0, .u64, .ro, .hmf, .num 0, .any⟩,
   ⟨0x5003, 0x5003, 0, 0, .u8, .ro, .hmf, .num 0, .between 0 4⟩,
   ⟨0x5004, 0x5004, 0, 2, .u32, .ro, .hmf, .num 0, .any⟩,
   ⟨0x5005, 0x5005, 0, 0, .u32, .ro, .hmf, .num 0, .any⟩,
   ⟨0x5006, 0x5006, 0, 0, .u16, .ro, .hmf, .num 0, .between 8 1024⟩,
   ⟨0x5007, 0x5007, 0, 0, .u32, .ro, .hmf, .num 0, .any⟩,
   ⟨0x5008, 0x5008, 0, 0, .u32, .ro, .hmf, .num 0, .any⟩,
   ⟨0x5009, 0x5009, 0, 0, .u16, .ro, .hmf, .num 8, .between 0 512⟩,
   ⟨0x500A, 0x500A, 0, 0, .u8, .ro, .hmf, .num 0, .between 0 8⟩,
   ⟨0x500B, 0x500B, 0, 0, .u8, .ro, .hmf, .num 0, .between 0 4⟩,
   ⟨0x500B, 0x500B, 1, 1, .u8, .ro, .hmf, .num 0, .between 0 4⟩,
   ⟨0x500B, 0x500B, 2, 2, .u32, .ro, .hmf, .num 0, .any⟩,
   ⟨0x500B, 0x500B, 3, 3, .u16, .ro, .hmf, .num 0, .any⟩,
   ⟨0x6000, 0x6000, 0, 0, .table, .ro, .hmf, .num 0, .any⟩,
   ⟨0x6001, 0x6001, 0, 0, .table, .ro, .hmf, .num 0, .any⟩,
   ⟨0x6002, 0x6002, 0, 0, .table, .rw, .hm, .num 0, .any⟩,
   ⟨0x7000, 0x7000, 0, 0, .cmd 0, .cmd, .hmf, .num 0, .any⟩]

/-- The objects of Table 15.11, part 2. -/
def monumentRows2 : List ObjRow :=
  [⟨0x7001, 0x7001, 0, 0, .cmd 2, .cmd, .h, .num 0, .any⟩,
   ⟨0x7002, 0x7002, 0, 0, .cmd 8, .cmd, .hm, .num 0, .any⟩,
   ⟨0x7003, 0x7003, 0, 0, .cmd 0, .cmd, .hm, .num 0, .any⟩,
   ⟨0x8000, 0x8006, 0, 0, .u64, .ro, .hmf, .num 0, .any⟩]

/-- The objects of Table 15.11. -/
def monumentRows : List ObjRow := monumentRows1 ++ monumentRows2

/-- The objects of Table 16.8. -/
def powerRows : List ObjRow :=
  [⟨0x1000, 0x1000, 0, 0, .bool, .rws, .hmf, .num 1, .between 0 1⟩,
   ⟨0x1001, 0x1001, 0, 0, .u16, .rws, .hmf, .num 64, .between 16 65535⟩,
   ⟨0x1002, 0x1002, 0, 0, .u16, .rws, .hmf, .num 2000, .between 20 60000⟩,
   ⟨0x1003, 0x1003, 0, 0, .u32, .rws, .hmf, .num 1024, .any⟩,
   ⟨0x1004, 0x1004, 0, 0, .u64, .rws, .hmf, .num 0, .primroseBits⟩,
   ⟨0x1005, 0x1005, 0, 0, .bool, .rws, .hmf, .num 0, .between 0 1⟩,
   ⟨0x5000, 0x5000, 0, 0, .u8, .ro, .hmf, .num 0, .between 0 5⟩,
   ⟨0x5001, 0x5001, 0, 0, .u8, .ro, .hmf, .num 0, .between 0 3⟩,
   ⟨0x5002, 0x5002, 0, 0, .u8, .ro, .hmf, .num 255, .any⟩,
   ⟨0x5003, 0x5003, 0, 0, .u8, .ro, .hmf, .num 0, .between 0 5⟩,
   ⟨0x5003, 0x5003, 1, 1, .u8, .ro, .hmf, .num 0, .between 0 5⟩,
   ⟨0x5003, 0x5003, 2, 2, .u16, .ro, .hmf, .num 0, .any⟩,
   ⟨0x5003, 0x5003, 3, 3, .u8, .ro, .hmf, .num 0, .between 0 9⟩,
   ⟨0x5003, 0x5003, 4, 4, .u32, .ro, .hmf, .num 0, .any⟩,
   ⟨0x5004, 0x5004, 0, 0, .u8, .ro, .hmf, .num 0, .between 0 5⟩,
   ⟨0x6000, 0x6000, 0, 0, .table, .rws, .hmf, .num 0, .any⟩,
   ⟨0x7000, 0x7000, 0, 0, .cmd 1, .cmd, .hmf, .num 0, .any⟩,
   ⟨0x8000, 0x8009, 0, 0, .u64, .ro, .hmf, .num 0, .any⟩]

/-- The objects of Table 17.2. -/
def chStatsRows : List ObjRow :=
  [⟨0x5000, 0x5000, 0, 0, .u32, .ro, .hmf, .num 0, .any⟩,
   ⟨0x7000, 0x7000, 0, 0, .cmd 0, .cmd, .hmf, .num 0, .any⟩,
   ⟨0x8000, 0x8000, 0, 0, .u64, .ro, .hmf, .num 0, .any⟩,
   ⟨0x8001, 0x8001, 0, 0, .u64, .ro, .hmf, .num 0, .any⟩,
   ⟨0x8002, 0x8002, 0, 9, .u64, .ro, .hmf, .num 0, .any⟩,
   ⟨0x8003, 0x8003, 0, 0, .u64, .ro, .hmf, .num 0, .any⟩,
   ⟨0x8004, 0x8004, 0, 0, .u64, .ro, .hmf, .num 0, .any⟩,
   ⟨0x8005, 0x8005, 0, 0, .u64, .ro, .hmf, .num 0, .any⟩,
   ⟨0x8006, 0x8006, 0, 0, .u64, .ro, .hmf, .num 0, .any⟩,
   ⟨0x8007, 0x8007, 0, 0, .u64, .ro, .hmf, .num 0, .any⟩,
   ⟨0x8008, 0x8008, 0, 0, .u64, .ro, .hmf, .num 0, .any⟩,
   ⟨0x8009, 0x8009, 0, 0, .u64, .ro, .hmf, .num 0, .any⟩,
   ⟨0x800A, 0x800A, 0, 0, .u64, .ro, .hmf, .num 0, .any⟩,
   ⟨0x8010, 0x8010, 0, 0, .u64, .ro, .hmf, .num 0, .any⟩,
   ⟨0x8011, 0x8011, 0, 0, .u64, .ro, .hmf, .num 0, .any⟩,
   ⟨0x8012, 0x8012, 0, 9, .u64, .ro, .hmf, .num 0, .any⟩,
   ⟨0x8013, 0x8013, 0, 0, .u64, .ro, .hmf, .num 0, .any⟩,
   ⟨0x8014, 0x8014, 0, 0, .u64, .ro, .hmf, .num 0, .any⟩,
   ⟨0x8015, 0x8015, 0, 0, .u64, .ro, .hmf, .num 0, .any⟩,
   ⟨0x8016, 0x8016, 0, 0, .u64, .ro, .hmf, .num 0, .any⟩,
   ⟨0x8017, 0x8017, 0, 0, .u64, .ro, .hmf, .num 0, .any⟩,
   ⟨0x8018, 0x8018, 0, 0, .u64, .ro, .hmf, .num 0, .any⟩]

/-- The objects of Table 17.3. -/
def alStatsRows : List ObjRow :=
  [⟨0x5000, 0x5000, 0, 0, .u32, .ro, .hmf, .num 0, .any⟩,
   ⟨0x7000, 0x7000, 0, 0, .cmd 0, .cmd, .hmf, .num 0, .any⟩,
   ⟨0x8000, 0x8000, 0, 0, .u64, .ro, .hmf, .num 0, .any⟩,
   ⟨0x8001, 0x8001, 0, 0, .u64, .ro, .hmf, .num 0, .any⟩,
   ⟨0x8002, 0x8002, 0, 9, .u64, .ro, .hmf, .num 0, .any⟩,
   ⟨0x8010, 0x8010, 0, 0, .u64, .ro, .hmf, .num 0, .any⟩,
   ⟨0x8011, 0x8011, 0, 0, .u64, .ro, .hmf, .num 0, .any⟩,
   ⟨0x8012, 0x8012, 0, 9, .u64, .ro, .hmf, .num 0, .any⟩]

/-- The objects of Table 17.4, and the `clear` of its blocks that the group forwards (R22, R380). -/
def statsRows : List ObjRow :=
  [⟨0x7000, 0x7000, 0, 0, .cmd 0, .cmd, .hmf, .num 0, .any⟩,
   ⟨0x5000, 0x5000, 0, 1, .u8, .ro, .hmf, .num 0, .between 0 2⟩,
   ⟨0x5001, 0x5001, 0, 1, .u16, .ro, .hmf, .num 0, .any⟩,
   ⟨0x5002, 0x5002, 0, 1, .u32, .ro, .hmf, .num 0, .any⟩,
   ⟨0x5003, 0x5003, 0, 1, .u16, .ro, .hmf, .num 0, .between 0 12288⟩,
   ⟨0x5004, 0x5004, 0, 1, .u16, .ro, .hmf, .num 0, .any⟩,
   ⟨0x6000, 0x6000, 0, 0, .table, .ro, .hmf, .num 0, .any⟩,
   ⟨0x6001, 0x6001, 0, 0, .table, .ro, .hmf, .num 0, .any⟩,
   ⟨0x6002, 0x6002, 0, 0, .table, .ro, .hmf, .num 0, .any⟩,
   ⟨0x6003, 0x6003, 0, 0, .table, .ro, .hmf, .num 0, .any⟩,
   ⟨0x7001, 0x7001, 0, 0, .cmd 3, .cmd, .hmf, .num 0, .any⟩]

/-- The objects of a kind of unit outside the common header. -/
def rowsOf : UnitKind → List ObjRow
  | .root => rootRows
  | .power => powerRows
  | .interrupt => interruptRows
  | .time => timeRows
  | .fieldbook => fieldbookRows
  | .monument => monumentRows
  | .legend => legendRows
  | .contour => contourRows
  | .flow => flowRows
  | .buffer => bufferRows
  | .sched => schedRows
  | .guard => guardRows
  | .host => hostRows
  | .graticule => graticuleRows
  | .dataport => dataportRows
  | .coex => coexRows
  | .parser => []
  | .stats => statsRows
  | .access => accessRows
  | .lane => laneRows
  | .channel => channelRows
  | .airLink => airLinkRows
  | .tq => tqRows
  | .bq => bqRows
  | .cq => cqRows
  | .eq => eqRows
  | .chStats => chStatsRows
  | .alStats => alStatsRows

/-- The kind of a unit number, `none` where the build provides no such unit (R6, R405, Table 19.1). -/
def unitKind? (b : Build) (u : Nat) : Option UnitKind :=
  if u < 0x013 then
    [UnitKind.root, .power, .interrupt, .time, .fieldbook, .monument, .legend, .contour, .flow, .buffer, .sched, .guard,
     .host, .graticule, .dataport, .coex, .parser, .stats, .access][u]?
  else if 0x100 ≤ u ∧ u < 0x100 + b.lanes then some .lane
  else if 0x200 ≤ u ∧ u < 0x200 + b.channels then some .channel
  else if 0x300 ≤ u ∧ u < 0x303 then some .airLink
  else if 0x400 ≤ u ∧ u < 0x400 + b.rings then some .tq
  else if 0x440 ≤ u ∧ u < 0x440 + b.rings then some .bq
  else if 0x480 ≤ u ∧ u < 0x480 + b.rings then some .cq
  else if 0x4C0 ≤ u ∧ u < 0x4C8 then some .eq
  else if 0x500 ≤ u ∧ u < 0x500 + b.channels then some .chStats
  else if 0x540 ≤ u ∧ u < 0x543 then some .alStats
  else none

/-- `unit_type` of a kind (Table 19.1). -/
def unitType : UnitKind → Nat
  | .root => 0x0001
  | .power => 0x0002
  | .interrupt => 0x0003
  | .time => 0x0004
  | .fieldbook => 0x0005
  | .monument => 0x0006
  | .legend => 0x0007
  | .contour => 0x0008
  | .flow => 0x0009
  | .buffer => 0x000A
  | .sched => 0x000B
  | .guard => 0x000C
  | .host => 0x000D
  | .graticule => 0x000E
  | .dataport => 0x000F
  | .coex => 0x0010
  | .parser => 0x0011
  | .stats => 0x0012
  | .access => 0x0013
  | .lane => 0x0100
  | .channel => 0x0200
  | .airLink => 0x0300
  | .tq => 0x0400
  | .bq => 0x0401
  | .cq => 0x0402
  | .eq => 0x0403
  | .chStats => 0x0500
  | .alStats => 0x0501

/-- The numbers of a range of units. -/
def unitRange (lo n : Nat) : List Nat := (List.range n).map (lo + ·)

/-- The children of a unit, ascending (R19, R20, Table 1.1); those of the graticule group are device IDs and are kept by the
fabric (R310). -/
def childrenOf (b : Build) (u : Nat) : List Nat :=
  if u = 0 then
    unitRange 0x001 0x012 ++ unitRange 0x100 b.lanes ++ unitRange 0x200 b.channels ++ unitRange 0x300 3
  else if u = 0x00C then
    unitRange 0x400 b.rings ++ unitRange 0x440 b.rings ++ unitRange 0x480 b.rings ++ unitRange 0x4C0 8
  else if u = 0x011 then unitRange 0x500 b.channels ++ unitRange 0x540 3
  else []

/-- The parent of a unit other than root (R19). -/
def parentOf (u : Nat) : Nat :=
  if 0x400 ≤ u ∧ u < 0x4C8 then 0x00C else if 0x500 ≤ u then 0x011 else 0

/-- The units of the subtree of `u`, itself first, depth first in ascending order. -/
def subtree (b : Build) (u : Nat) : List Nat :=
  u :: (childrenOf b u).flatMap (fun c => c :: childrenOf b c)

/-- `a` is `u` or an ancestor of `u`. -/
def covers (a u : Nat) : Bool :=
  a = u || a = 0 || (u ≠ 0 && parentOf u = a)

/-- The pause-watchdog objects, which only Tlafelu-64 has (R8, Table 8.7). -/
def watchdogIndex (idx : Nat) : Bool :=
  idx = 0x1035 || idx = 0x1036 || idx = 0x5032 || idx = 0x8043 || idx = 0x8044

/-- The rows of a unit of kind `k` in build `b`, the common header first. -/
def unitRows (b : Build) (k : UnitKind) : List ObjRow :=
  let own := rowsOf k
  headerRows ++ (if k = .channel && !b.hasWatchdog then own.filter (fun r => !watchdogIndex r.idxLo) else own)

/-- The row of an index and sub-index. -/
def rowAt (b : Build) (k : UnitKind) (idx sub : Nat) : Option ObjRow :=
  (unitRows b k).find? (fun r => r.idxLo ≤ idx && idx ≤ r.idxHi && r.subLo ≤ sub && sub ≤ r.subHi)

/-- Some sub-index of the index is defined. -/
def indexDefined (b : Build) (k : UnitKind) (idx : Nat) : Bool :=
  (unitRows b k).any (fun r => r.idxLo ≤ idx && idx ≤ r.idxHi)

/-- The number of a default. -/
def Dflt.value (b : Build) (u : Nat) : Dflt → Nat
  | .num n => n
  | .ownNumber => u % 0x40
  | .cells => b.cells
  | .stubs => b.stubs

/-- The reset value of an object of a unit. -/
def defaultOf (b : Build) (u idx sub : Nat) : Nat :=
  match unitKind? b u with
  | none => 0
  | some k =>
    match rowAt b k idx sub with
    | some r => r.default.value b u
    | none => 0

/-- The octets of a type (Table 2.2). -/
def ObjType.size : ObjType → Nat
  | .bool => 1
  | .u8 => 1
  | .u16 => 2
  | .u32 => 4
  | .u64 => 8
  | .i32 => 4
  | .time80 => 10
  | .table => 0
  | .octets n => n
  | .cmd _ => 2

/-- The octets of one entry and the count of entries of a TABLE object that the data port reaches in build `b`; `none` for
any other object. `REC_SECTORS` of the Monument header in force sets the size of `monument.records` (R342). -/
def tableShape (b : Build) (k : UnitKind) (idx recSectors : Nat) : Option (Nat × Nat) :=
  match k, idx with
  | .root, 0x6000 => some (1, 256)
  | .root, 0x6001 => some (1, 256)
  | .power, 0x6000 => some (32, 16)
  | .interrupt, 0x6000 => some (8, b.sources)
  | .fieldbook, 0x6000 => some (8, 32768)
  | .fieldbook, 0x6001 => some (16, 4096)
  | .fieldbook, 0x6002 => some (16, 256)
  | .monument, 0x6000 => some (64, recSectors * 64)
  | .monument, 0x6001 => some (64, 2)
  | .monument, 0x6002 => some (8, 0x20000000)
  | .legend, 0x6000 => some (96, b.legendEntries)
  | .legend, 0x6001 => some (8, b.legendEntries)
  | .legend, 0x6002 => some (8, b.legendEntries)
  | .legend, 0x6003 => some (8, b.legendEntries)
  | .legend, 0x6004 => some (16, 256)
  | .contour, 0x6000 => some (24, b.contourEntries)
  | .contour, 0x6001 => some (8, b.contourEntries)
  | .contour, 0x6002 => some (8, b.contourEntries)
  | .contour, 0x6003 => some (8, b.contourEntries)
  | .flow, 0x6000 => some (32, b.flowEntries)
  | .flow, 0x6001 => some (32, b.policers)
  | .flow, 0x6010 => some (1, 256)
  | .flow, 0x6011 => some (1, 256)
  | .flow, 0x6012 => some (1, 256)
  | .flow, 0x6013 => some (1, 256)
  | .buffer, 0x6000 => some (128, b.templates)
  | .sched, 0x6000 => some (32, b.queues)
  | .sched, 0x6001 => some (32, b.queues)
  | .sched, 0x6002 => some (32, 67)
  | .sched, 0x6003 => some (16, 67)
  | .guard, 0x6000 => some (8, 16)
  | .guard, 0x6001 => some (16, 512)
  | .guard, 0x6002 => some (32, 4)
  | .graticule, 0x6000 => some (32, 16)
  | .graticule, 0x6001 => some (8, 255)
  | .graticule, 0x6002 => some (10, 254)
  | .stats, 0x6000 => some (8, 12288)
  | .stats, 0x6001 => some (8, 12288)
  | .stats, 0x6002 => some (8, 12288)
  | .stats, 0x6003 => some (8, 12288)
  | .channel, 0x6030 => some (24, 64)
  | .sched, i => if 0x6100 ≤ i ∧ i ≤ 0x6142 then some (8, 256) else none
  | _, _ => none

/-- The endpoint number is one that the build provides (Table 1.4). -/
def epPresent (b : Build) (ep : Nat) : Bool :=
  ep < b.channels || (0x40 ≤ ep && ep ≤ 0x43)

/-- The reset value of a table entry, octet 0 least significant (Tables 5.14, 7.1, 7.3, 7.4, 7.5 and 1.2; every other entry
is 0). Entries of endpoints that the build lacks read 0 (R179). -/
def tabDefault (b : Build) (u idx e : Nat) : Nat :=
  match u, idx with
  | 0x000, 0x6000 => 0x7F
  | 0x000, 0x6001 => 0x7F
  | 0x008, 0x6001 => 1 * 2 ^ 57 + 2 * 2 ^ 55
  | 0x00A, 0x6000 =>
      (3 * 2 ^ 50 + 3 * 2 ^ 48 + 3 * 2 ^ 46 + 256 * 2 ^ 32) + (2048 * 2 ^ 46 + 1024 * 2 ^ 28) * 2 ^ 128
        + (3 * 2 ^ 10) * 2 ^ 224
  | 0x00A, 0x6002 =>
      if epPresent b e then (1 * 2 ^ 49 + 0xFF * 2 ^ 41 + 256 * 2 ^ 8) + (1600000 * 2 ^ 32) * 2 ^ 64 else 0
  | 0x00A, 0x6003 => if epPresent b e then 0xFF * 2 ^ 46 else 0
  | 0x00A, i => if 0x6100 ≤ i ∧ i ≤ 0x6142 then 0xFF * 2 ^ 56 + 1600000 else 0
  | _, _ => 0

end Sys2Proof.Machine
end

