-- ==== Sys2Proof/Machine/Map.lean ====
section
/-! DEFINITION. A finite map held as plain data: a list of key and value pairs, no key twice, no entry equal to what an
unlisted key reads as. -/
namespace Sys2Proof.Machine

/-- Pairs of a key and its value. -/
abbrev Map (κ ν : Type) := List (κ × ν)

namespace Map
variable {κ ν : Type} [DecidableEq κ] [DecidableEq ν]

/-- The value of a listed key. -/
def find? : Map κ ν → κ → Option ν
  | [], _ => none
  | (k, v) :: t, x => if k = x then some v else find? t x

/-- The value at a key, `d` where it is not listed. -/
def get (m : Map κ ν) (x : κ) (d : ν) : ν := (find? m x).getD d

/-- The map without a key. -/
def erase : Map κ ν → κ → Map κ ν
  | [], _ => []
  | (k, v) :: t, x => if k = x then erase t x else (k, v) :: erase t x

/-- The map with `x` at `v`; an entry equal to the default `d` is not listed. -/
def set (m : Map κ ν) (x : κ) (v d : ν) : Map κ ν :=
  if v = d then erase m x else (x, v) :: erase m x

/-- No key twice. -/
def noDup (m : Map κ ν) : Bool := decide (m.map Prod.fst).Nodup

end Map
end Sys2Proof.Machine
end

