-- ==== Sys2Proof/Machine/State.lean ====
section
/-! DEFINITION. The state of the block, as plain data: the object file (every scalar object of the dictionary under its own
address), the table entries, the registers that the manual names without an address, the frames and copies in the datapath,
the queues, timers and contexts of every unit, the outstanding memory-port operations, the flash, and the queue of commands
that wait. Unlisted objects and entries read as their reset values (Dict.lean). -/
namespace Sys2Proof.Machine

/-- The reasons the machine could stop with a fault. The manual gives the block no stop: every failure it describes is an
abort code, a counter, an alarm bit or a record. There is therefore no fault, and nobody raises one (safe). -/
inductive Fault where
  deriving DecidableEq, Repr

/-- The reasons a command is refused. -/
inductive Refusal where
  /-- Raised by Dispatch.lean alone, for a row that has no meaning yet; safe, since the machine stops. No row is in that
  case now. -/
  | notModelled (mnemonic : String)
  deriving DecidableEq, Repr

/-- The abort codes of Table 2.13 (R76). -/
inductive Abort where
  | ok | noUnit | noObject | noSubindex | readOnly | writeOnly | leaseHeld | notAuthorised | modeForbids | range | length
  | align | calendarFull | pinConflict | bufferOvercommit | timerConflict | editionBusy | laneModeConflict | timeout | replay
  | tagMismatch | busy
  deriving DecidableEq, Repr

/-- The completion of the last access: its agent, its code, and the octets it returns, most significant first. `code` is
`none` while the access has not completed (a COMMIT in check, a claim awaiting its boundary). MODEL FIELD: what the sender of
the access is told. -/
structure Completion where
  agent : Agent
  code  : Option Abort
  data  : List Octet
  deriving DecidableEq, Repr

/-- The address of an object (R43), local. -/
structure ObjAddr where
  unit : Nat
  idx  : Nat
  sub  : Nat
  deriving DecidableEq, Repr

/-- The address of a table entry. -/
structure EntAddr where
  unit  : Nat
  idx   : Nat
  entry : Nat
  deriving DecidableEq, Repr

/-- A queue of copies: a flow queue, a base queue of an endpoint and class (R171), or a BQ FIFO (R237). -/
inductive QueueRef where
  | flow (n : Nat)
  | base (ep cls : Nat)
  | bq (n : Nat)
  deriving DecidableEq, Repr

/-- Registers the manual names that have no object address. -/
inductive Hid where
  /-- shaper credit of a flow queue in 1/65,536 byte (R188) -/
  | shaper (q : Nat)
  /-- finish tag F_last (R185) -/
  | finish (q : QueueRef)
  /-- virtual time V of a class at an endpoint (R185) -/
  | vtime (ep cls : Nat)
  /-- bucket levels of a policer in 1/65,536 byte (R148), held as the distance below the burst size -/
  | bucketC (n : Nat)
  | bucketP (n : Nat)
  /-- transmit credit of a quartered channel in bytes (R89) -/
  | quarterCredit (ch : Nat)
  /-- next SEQ to send and last SEQ seen plus 1, 0 for none, on a quartered channel (R87, R88) -/
  | quarterSeqTx (ch : Nat)
  | quarterSeqRx (ch : Nat)
  /-- quarter that last started a frame (R89) -/
  | quarterTurn (lane : Nat)
  /-- position of the tag visit (R186), of the flow sweeper (R145) -/
  | tagVisit
  | sweep
  /-- last ring served per priority level (R232, R237) -/
  | tqTurn (prio : Nat)
  | bqTurn (prio : Nat)
  /-- an account owes a pause message (R116) -/
  | pauseDue (ch acct : Nat)
  /-- ticks a continuous pause hold has lasted (R217) -/
  | holdLen (ch hold : Nat)
  /-- verify mPackets sent (R203) -/
  | verifyCount (ch : Nat)
  /-- fragmented-frame counts sent per level (Table 8.2) -/
  | fcntTx (ch level : Nat)
  /-- next fold sequence of a link (Table 6.4) -/
  | fseq (ch : Nat)
  /-- consecutive mismatches of a send-cache slot (R160) -/
  | sendMiss (ch slot : Nat)
  /-- next record number of `tx_ts` (Table 8.6) -/
  | wseq (ch : Nat)
  /-- reserved completion credits of a CQ (R241) -/
  | reserved (cq : Nat)
  /-- completions written since CQ_DONE was last raised (R244) -/
  | cqUncovered (cq : Nat)
  /-- ticks a CQ stall has lasted (R243) -/
  | stallTicks (cq : Nat)
  /-- ticks since READY of an air link (R255) -/
  | sinceReady (al : Nat)
  /-- a CQ awaits its stall report once (R243): 1 when reported -/
  | stallReported (cq : Nat)
  /-- 1 where the run-ahead of a TQ was discarded for one of higher priority, until it is read again (R233) -/
  | aheadHeld (tq : Nat)
  /-- AL_TX_ERR with the last LAST beat (R252); AL_RX_READY has fallen at a frame boundary since the unit was asked (R256) -/
  | alTxErr (al : Nat)
  | alClosed (al : Nat)
  /-- filtered AL_STATE, not yet latched (R254) -/
  | alFiltered (al : Nat)
  /-- the sampled aggressor mask of a requester (R257) and the level of COEX_GNT (R258) -/
  | coexMask (i : Nat)
  | coexGnt (i : Nat)
  /-- the tick of the first raise that the next record of an edge or level source covers (Table 14.5) -/
  | raiseTick (src : Nat)
  /-- applied threshold of a processor (R320) -/
  | threshold (p : Nat)
  /-- RUNNING_THR, MASK_SRC and MASK_VAL of a processor block as last written (Table 14.7) -/
  | maskSrc (p : Nat)
  | maskVal (p : Nat)
  /-- 1 while a record of EQp whose write has failed is not written yet (R322) -/
  | eqWrite (p : Nat)
  /-- the tick count plus 1 of the boundary last counted in `eq_full_ticks` (R322) -/
  | eqCounted (p : Nat)
  /-- IRQ_NE level (R321) -/
  | irqNe (p : Nat)
  /-- the lane's hi-BER condition (R85), and whether its clock is lost (R97) -/
  | hiBer (lane : Nat)
  | clockLost (lane : Nat)
  /-- a receiver in ACQUIRE has sync but the hi-BER condition lasts (R96); the base page advertised (R83) -/
  | syncHeld (lane : Nat)
  | anPage (lane : Nat)
  /-- LANE_LED activity (R399) -/
  | ledActive (lane : Nat)
  /-- survey slots of this tick used (R139), update slots taken (R32) -/
  | surveyUsed
  | slotsTaken
  /-- the classifier slot last taken (R32), counted as `now`, plus 1 -/
  | slotUsed
  /-- ticks spent in IDLE whose credit is still due (R362) -/
  | idleDue
  /-- next serial numbers of frames and of MP operations in the model's own bookkeeping -/
  | nextFrame
  | nextTag
  /-- power handshake: order asked (R363), 0 none -/
  | askOrder
  /-- the mode the transition left, and its target (R365 to R368) -/
  | origin
  | target
  /-- return step (Table 16.4), 0 none; 5 is the PLL; 6 is the restore -/
  | returnStep
  /-- the low-power mode in force for a return, and whether it is a PORST start -/
  | returnFrom
  /-- Snowdrop's view found at a return that differs from the mode retained, plus 1, 0 for none (R372) -/
  | returnView
  /-- request pins PWR_REG_REQ, OSC_REQ, MEM_PWR_REQ, LOGIC_ISO_N (Table 18.2): bits 3:0 -/
  | requests
  /-- filtered PFAIL_N low, SD_CLK lost, PORST_N low, SRST_N low, PLL lock lost: 1 -/
  | pfailLow
  | sdClkLost
  | porstLow
  | srstLow
  | pllLost
  /-- SRST_N awaits the end of a return (R395) -/
  | srstPending
  /-- the cause to raise when the return ends, plus 1 (R326, R368) -/
  | wakeCause
  /-- a request that came in an object-access frame and waits for its response to leave (R359): its target plus 1; 16 times the responses up to
  its own; then 2^20 times the number of its frame plus 1 -/
  | requestHeld
  /-- boundaries at which the idle conditions have held in a row, and the frames counted at the last (R361) -/
  | idleTicks
  | idleMark
  /-- 1 where work that breaks the idle conditions has begun since the last boundary, be it over since (R361) -/
  | idleBroken
  /-- the agent of an accepted edition commit (R135), as `lease_holder` gives one -/
  | editionAgent
  /-- first Primrose match fired (R399) -/
  | primroseHigh
  /-- PPS_OUT level (R290) -/
  | ppsOut
  /-- TREF_CLK lost since, in ticks (R282) -/
  | trefTicks
  /-- the increment that holds until the next TREF_CLK edge, plus 1; 0 where no write waits (R281) -/
  | paceHeld
  /-- what the counter has interpolated since its last TREF_CLK edge at an entry to SLEEP, in 2^-38 ns: its first edge there makes it up (R291) -/
  | edgeRest
  /-- the counter, in 2^-38 ns, up to which the instants of PPS_OUT have been passed; the elapsed count at which its pulse ends (R290) -/
  | ppsLast
  | ppsEnd
  /-- the slot, since the tick count began, in which the last received octet of a lane arrived (R79) -/
  | wireEnd (lane : Nat)
  /-- the slot, since the tick count began, up to which the cells of a lane have left its FIFO by the ingress calendar (R31, R79) -/
  | fifoSeen (lane : Nat)
  /-- the level of the unit in reception on a fabric link plus 1, 0 for none; 4 while its header's octet 4 has not come (R210) -/
  | rxLevel (ch : Nat)
  /-- own LSA sequence (R303), demotion hellos counted (R305), relay tags -/
  | lsaSeq
  | betterSeen
  | relayTag
  /-- priority of the followed root (R305) -/
  | rootPriority
  /-- the tick of the last flood of the own LSA plus 1, 0 for none (R303) -/
  | lsaTick
  /-- consecutive failed NVM operations (R348), Monument state FAULT -/
  | nvmFails
  | monFault
  /-- an erase is suspended (R349), the commit of R349 has been made -/
  | eraseSuspended
  | pfailDone
  /-- Monument records dropped in the hour, and their highest severity (R347) -/
  | hourDrops
  | hourSeverity
  /-- ATLAS_BASE plus 1 (0 for none), ATLAS_LIMIT and HGEN of the header in force (Table 15.5) -/
  | atlasBase
  | atlasLimit
  | hgen
  /-- an atlas entry that waits for its access (R355): the octet of the body behind it, its number, and the code with which the access has
  ended plus 1, 0 before -/
  | atlasPos
  | atlasEntry
  | atlasDone
  /-- the buffer cells that the body of the atlas holds (R355) -/
  | atlasCells
  /-- the flash as discovery has found it (R339): page size, addressing (0: 3 octets, 1: 4-octet opcodes, 2: 4-octet mode), 4 KiB erase opcode,
  quad-enable method, erase suspend supported, typical page-program and 4 KiB erase times in microseconds -/
  | programTyp
  | eraseTyp
  | pageSize
  | nvmAddressing
  | eraseOpcode
  | quadEnable
  | nvmSuspend
  /-- discovery has ended since the start (R339); a mount asked for by `monument.restart` waits (R348) -/
  | nvmKnown
  | mountDue
  /-- the first operation of `nvmQ` is in progress (R341); how many pending records the program in progress holds, from the first on, 0 for none
  (R346); the opcode of the last command that the port has issued (R338, R340) -/
  | nvmBegun
  | progCount
  | nvmOpcode
  /-- the register of a running scan job's computation (R275); the job that checks the atlas plus 1, 0 for none (R355) -/
  | jobCrc (job : Nat)
  | atlasJob
  /-- fixed records written since a freeze: first FSEQ plus 1, 0 for none (R335) -/
  | gapFirst
  /-- how many fixed records were written since a freeze (R335) -/
  | gapCount
  /-- first Snowdrop FSEQ of a stay plus 1, 0 for none (R337) -/
  | sdFirst
  /-- the Snowdrop record of an earlier stay into which an event of this one has folded, plus 1, and 2^16 more where the Monument has accepted it
  (R332); 0 for none -/
  | sdFolded
  /-- Snowdrop records of a return from OFF that are offered once the Monument is mounted (R337, R345): the first plus 1, 0 for none, and the one
  behind the last -/
  | sdOffer
  | sdUntil
  /-- tick of a freeze (R350) -/
  | freezeTick
  | sdLostTick
  /-- the part of a unit's alarm_summary taken from its children at the last boundary (R21) -/
  | childAlarms (u : Nat)
  /-- records held in the fixed ring and in the Snowdrop ring (R331) -/
  | fixedHeld
  | sdHeld
  /-- FB_EVENT became due during a stay in a low-power mode (R334); raised at the return -/
  | sdEvent
  deriving DecidableEq, Repr

/-- Tick timers (R25 step 1): ticks left. -/
inductive TimerId where
  | syncTimeout (lane : Nat)
  | upHold (lane : Nat)
  | verify (ch : Nat)
  | refresh (ch acct : Nat)
  | pauseActive (ch acct : Nat)
  | holdoff (ch : Nat)
  | cqStall (cq : Nat)
  | cqIrq (cq : Nat)
  | alHold (al : Nat)
  | freezeLimit
  | token
  | budgetHour
  | foldHold (ch fseq : Nat)
  | dead (lane : Nat)
  | hello
  | lsaRefresh
  | lsaAge (origin : Nat)
  | assignRefresh
  | duplicate (serial : Nat)
  | tagRate (ch : Nat)
  | frameWait
  | led (lane : Nat)
  | ppsIn
  deriving DecidableEq, Repr

/-- A lease (R56): the unit that carries it, its holder, the ticks left. -/
structure Lease where
  unit   : Nat
  holder : Agent
  left   : Nat
  deriving DecidableEq, Repr

/-- A pending write of a staged object or table entry (R52, R179). -/
inductive StagedTarget where
  | obj (a : ObjAddr)
  | ent (a : EntAddr)
  deriving DecidableEq, Repr

structure StagedWrite where
  target : StagedTarget
  value  : Nat
  agent  : Agent
  deriving DecidableEq, Repr

/-- A commit that is CHECKING or ACCEPTED (R53) with the writes it covers. `orphans` are the covered writes whose writer's
lease has ended since (R55, R60). -/
structure CommitOp where
  unit     : Nat
  agent    : Agent
  accepted : Bool
  writes   : List StagedWrite
  orphans  : List StagedTarget
  deriving DecidableEq, Repr

/-- A lease claim accepted in the closing tick (R409). -/
structure Claim where
  unit  : Nat
  agent : Agent
  deriving DecidableEq, Repr

/-- A mailbox (Tables 2.8, 2.9): its words as held, BUSY, DONE, ABORT, ATTEMPT. -/
structure Mailbox where
  words   : MbWords
  busy    : Bool
  /-- MODEL FIELD: its request has ended and MAILBOX_DONE is to follow -/
  ready   : Bool
  done    : Bool
  abort   : Nat
  attempt : Nat
  deriving DecidableEq, Repr

/-- A data-port context (R65, R66): the octets of an entry being gathered are in `gather`. -/
structure DpCtx where
  pathLen : Nat
  path    : List Nat
  target  : Option (Nat × Nat)
  tIndex  : Nat
  offset  : Nat
  length  : Nat
  status  : Abort
  gather  : List Octet
  deriving DecidableEq, Repr

/-- A response that waits to leave (R73): its channel, the octets of the frame without FCS. -/
structure Response where
  ch     : Nat
  octets : List Octet
  deriving DecidableEq, Repr

/-- An object-access request in the queue of 8 (R73): its channel, its frame from the destination address to the FCS, whether it is
being executed. -/
structure AccessReq where
  ch      : Nat
  frame   : List Octet
  started : Bool
  /-- the key under which its TAG has been found right, 0 before (R73) -/
  key     : Nat
  deriving DecidableEq, Repr

/-- For whom a relay is outstanding (R308): a manager whose request came on a channel under a key, a mailbox, a member whose RELAY_REQ with AGENT M
the root has issued again, a child of a group command (R309, R310), an agent whose access came as a command of its own row. -/
inductive RelayFor where
  | manager (ch : Nat) (frame : List Octet) (key : Nat)
  | mailbox (proc : Nat)
  | member (id tag : Nat) (pdu : List Octet)
  | group (agent : Agent) (child : Nat)
  | direct (agent : Agent)
  deriving DecidableEq, Repr

/-- An outstanding relay (R308), by its tag. -/
structure Relay where
  tag    : Nat
  for?   : RelayFor
  deriving DecidableEq, Repr

/-- A relayed request whose execution here has not ended: the F slot, the member that asked, its tag and its PDU (R308). -/
structure RelayExec where
  slot : Nat
  dst  : Nat
  tag  : Nat
  pdu  : List Octet
  deriving DecidableEq, Repr

/-- A command of the graticule group that waits for its children (R22, R309, R310): its agent, the unit it was written to (root or the group)
and its index, its argument, the children still out, those of them whose request has not left yet, the first that did not return OK.
-/
structure GroupCmd where
  agent : Agent
  unit  : Nat
  index : Nat
  data  : List Octet
  left  : List Nat
  wait  : List Nat
  first : Option (Abort × Nat)
  /-- the DATA that came with the first failure (R74) -/
  reply : List Octet
  deriving DecidableEq, Repr

/-- A classification key (R124 to R126): both words, whether there are two, LEN, and the positions of the L3 and L4
bases. -/
structure Key where
  word1 : Nat
  word2 : Nat
  two   : Bool
  len   : Nat
  l2    : Nat
  l3    : Nat
  l4    : Option Nat
  deriving DecidableEq, Repr

/-- Which entry decided a frame (R142). -/
inductive Decider where
  | legend (i : Nat)
  | contour (i : Nat)
  | miss
  /-- a transit fabric frame, decided from its header (R300) -/
  | transit
  deriving DecidableEq, Repr

/-- Where one copy of a frame goes: the endpoint whose scheduler gets it, the fabric destination of a fabric copy (R297), and
whether it is the mirror. -/
structure Target where
  ep     : Nat
  dst    : Option Nat
  mirror : Bool
  deriving DecidableEq, Repr

/-- The decision of a frame: what the parameters in force gave when its key was presented (R38). -/
structure Decision where
  decider : Decider
  /-- the deciding action (Table 5.7), with R236 applied -/
  action  : Nat
  tie     : Bool
  edition : Nat
  hash    : Nat
  hsym    : Nat
  bucketA : Nat
  bucketB : Nat
  /-- 0 none, n for policer n − 1 -/
  policer : Nat
  queue   : Nat
  /-- 0 green, 1 yellow, 2 red, and its colour action: 0 PASS, 1 MARK, 2 DROP (Table 5.14) -/
  colour  : Nat
  colourAct : Nat
  cls     : Nat
  /-- guard profile number plus 1, 0 for none, and its contents (R267) -/
  profNo  : Nat
  profile : Nat
  targets : List Target
  /-- BQs of the host copies, with the mirror flag -/
  rings   : List (Nat × Bool)
  /-- copies dropped for want of a route (R297) -/
  noRoute : Nat
  eccDrop : Bool
  /-- admission drops held to the commit point: queue, marked (R173) -/
  tailDrops : List (Nat × Bool)
  deriving DecidableEq, Repr

/-- How a received frame failed (Table 4.1, R112, R99, R205, R209). -/
inductive RxFail where
  | overflow | symbol | oversize | runt | stomped | fcs | fabricHeader | quota
  /-- a reassembly failure, counted already (R205, R209) -/
  | reassembly
  deriving DecidableEq, Repr

/-- The transmit descriptor of a host frame, as read (Table 9.4), with its ring and index. -/
structure TxDesc where
  tq    : Nat
  pos   : Nat
  word1 : Nat
  word2 : Nat
  addr  : Nat
  deriving DecidableEq, Repr

/-- A buffer of a BQ: its entry position, address, size and cookie (Table 9.5). -/
structure BqBuffer where
  bq     : Nat
  pos    : Nat
  addr   : Nat
  size   : Nat
  cookie : Nat
  recycled : Bool
  /-- its entry is in error, and completes when a credit is free (R230, R241) -/
  bad    : Bool
  /-- `none` once H has passed it (R240); before, an earlier entry is still being read (R246), and the entry faults its ring when H has come to it
  where this names a counter (Table 9.8) -/
  ahead  : Option Nat
  deriving DecidableEq, Repr

/-- What a committed frame is for (R101, R72, R298, R161, R163): ordinary traffic, a frame that its own row consumes, or one that is discarded and
only counted (Table 13.2, R294, R360). -/
inductive FrameUse where
  | data | macControl | access | control | install | nak | foldData | discarded
  /-- a frame unfolded from a FOLD_DATA frame that has been counted already (R163) -/
  | unfolded
  deriving DecidableEq, Repr

/-- A count or latch that a frame owes until its held effects are applied (R36, R38): a counter by `n`, an alarm bit of a unit, a count of a flow
queue in the column `col` of its entry. -/
inductive Owed where
  | count (u i k n : Nat)
  | alarm (u b : Nat)
  | queue (q col : Nat)
  deriving DecidableEq, Repr

/-- A frame in the device. -/
structure Frame where
  id        : Nat
  /-- ingress endpoint (Table 1.4) -/
  ing       : Nat
  /-- the octets as they entered, FCS included once it is in; on a fabric link from the fabric header on -/
  octets    : List Octet
  onFabric  : Bool
  /-- `max_frame` in force at the first cell (R93) -/
  maxFrame  : Nat
  /-- the account of the frame, chosen at its first cell (R111), none for a MAC control frame -/
  account   : Option Nat
  ended     : Bool
  committed : Bool
  applied   : Bool
  use       : FrameUse
  key       : Option Key
  /-- the edition it is in flight under (R40) -/
  tag       : Option Nat
  decision  : Option Decision
  /-- cells held (R151) -/
  cells     : Nat
  /-- its stub (Table 6.2, R156) -/
  stub      : Option Nat
  /-- receive timestamp in 1/16 ns and the elapsed count at the same instant (R121, R284) -/
  rxTime    : Option (Nat × Nat)
  l3        : Nat
  l4        : Nat
  desc      : Option TxDesc
  l3Ins     : Bool
  l4Ins     : Bool
  txTime    : Option (Nat × Nat)
  guardMark : Bool
  guardValue : Nat
  /-- its transmit completion has been made (R235) -/
  completed : Bool
  /-- its fold decision (R156): 0 not eligible, 1 folded, 2 not folded, 3 not folded for want of a stub -/
  fold      : Nat
  /-- it was reassembled from fragments (R205, R209) -/
  asm       : Bool
  /-- what it counts in its application slot beside what its decision says (R36) -/
  owed      : List Owed
  /-- LENGTH of its descriptor, where it came with one (R126) -/
  descLen   : Option Nat
  /-- what its decision is if Contour entry i (true) or way i of the flow table (false) proves unreadable (R38, R149), until it is delivered -/
  alts      : List ((Bool × Nat) × Decision)
  /-- a cell of it, or the template of its stub, has proved unreadable (R154, R158) -/
  eccBad    : Bool
  deriving DecidableEq, Repr

/-- Where a copy stands. -/
inductive CopyState where
  | queued | chosen | sending | suspended | held
  deriving DecidableEq, Repr

/-- How a copy in progress ends: in full, with a stomped FCS since its frame was undone (R107) or a cell was unreadable (R154), or
discarded since the channel is not UP (R99). -/
inductive CopyEnd where
  | full | stomped | ecc | down
  deriving DecidableEq, Repr

/-- A copy of a frame bound for an endpoint (R172). -/
structure Copy where
  frame   : Nat
  ep      : Nat
  queue   : QueueRef
  cls     : Nat
  level   : Nat
  /-- drop-eligible (R189) -/
  marked  : Bool
  mirror  : Bool
  /-- fabric destination of a fabric copy (R297) -/
  dst     : Option Nat
  state   : CopyState
  /-- tick of its placement (R192) -/
  placed  : Nat
  /-- it started before its frame had committed (R34) -/
  cut     : Bool
  /-- charge length at the start and the weight then (R185) -/
  charge  : Nat
  weight  : Nat
  /-- octets and fragments sent before the present fragment (R204, R208), and the slot since the tick count began in which it started -/
  pos     : Nat
  frags   : Nat
  since   : Nat
  /-- what leaves in place of the frame's own octets, without the FCS: a stomped rest -/
  body    : Option (List Octet)
  /-- octets sent ahead (a fabric header, a fold body's head), how many frame octets they stand for, and octets written over
  the frame's (R198, R162, R221) -/
  lead    : List Octet
  skip    : Nat
  patches : List (Nat × List Octet)
  /-- its start octets (R196) -/
  start   : List Octet
  ending  : CopyEnd
  /-- the fold sequence under which it was sent as FOLD_DATA (R164) -/
  fseq    : Option Nat
  /-- it is resent as DATA (R164) -/
  resend  : Bool
  txTime  : Option (Nat × Nat)
  /-- the receive buffer taken for a host copy (R237) -/
  buffer  : Option BqBuffer
  /-- GATE_OVERRUN counted (R181) -/
  overrun : Bool
  deriving DecidableEq, Repr

/-- A reassembly context (R205, R209): channel, level, fragmented-frame count, next fragment number, class, the octets that have come. -/
structure AsmCtx where
  ch     : Nat
  level  : Nat
  fcnt   : Nat
  fnum   : Nat
  cls    : Nat
  octets : List Octet
  /-- the frame that its cells have entered (R102, R103), none once that has failed -/
  frame  : Option Nat
  /-- the slots its timer has counted since the end of the last fragment (R210) -/
  wait   : Nat
  deriving DecidableEq, Repr

/-- A cell that a lane FIFO has given room (R79, R103): the channel, its octets, the slot since the tick count began in which it was complete. -/
structure FifoCell where
  ch     : Nat
  octets : Nat
  slot   : Nat
  deriving DecidableEq, Repr

/-- A frame the transmitting MAC builds itself (R118, R161). -/
inductive GenFrame where
  | pause (ch : Nat)
  /-- messages with time 0 in the form of a pause mode that has been left (R115): `pfc`, and the accounts -/
  | pauseEnd (ch : Nat) (pfc : Bool) (accounts : List Nat)
  | install (ch slot : Nat)
  | nak (ch slot gen fseq reason : Nat)
  /-- a verify or respond mPacket that waits for the wire (R203) -/
  | mPacket (ch smd : Nat)
  deriving DecidableEq, Repr

/-- A slot of a fold cache (R159). -/
structure FoldSlot where
  ch     : Nat
  slot   : Nat
  send   : Bool
  gen    : Nat
  pos0   : Nat
  pos1   : Nat
  v4csum : Bool
  v4off  : Nat
  header : List Octet
  deriving DecidableEq, Repr

/-- A queued classifier table write (R138). -/
structure TableUpdate where
  addr  : EntAddr
  value : Nat
  agent : Agent
  /-- its access waits: 1 until the write has been applied (R131), 2 until it has a place in the queue (R138); 3 where the write waits as
  under 1 and its access has ended with the refusal of a later entry; 0 otherwise -/
  held  : Nat
  deriving DecidableEq, Repr

/-- A completion that is staged or whose write is on its way (Table 9.6): the four words without PHASE, and the extended
timestamp block. -/
structure CqEntry where
  w0  : Nat
  w1  : Nat
  w2  : Nat
  w3  : Nat
  ext : Nat
  deriving DecidableEq, Repr

/-- What an outstanding memory-port operation is for (R246, R390). -/
inductive MpPurpose where
  | descRead (kind : RingKind) (ring : Nat)
  | payload (tq pos : Nat)
  | cqWrite (cq : Nat) (entry : CqEntry)
  /-- a payload write of the host copy of a frame to a BQ, mirror or not -/
  | buffer (frame bq : Nat) (mirror : Bool)
  | eqRecord (p : Nat)
  /-- the burst that a ring scan is reading (R228) -/
  | ringScan (kind : RingKind) (ring : Nat)
  /-- the burst that a scan job is reading (R274) -/
  | scan (job : Nat)
  /-- a read in flight at a discard: its data is dropped (R233) -/
  | dropped
  deriving DecidableEq, Repr

/-- An outstanding operation on MP (R246, R390): a read gathers its octets beat by beat. Tag 256 stands for one that waits to be issued. -/
structure MpOp where
  write   : Bool
  tag     : Nat
  addr    : Nat
  octets  : List Octet
  purpose : MpPurpose
  deriving DecidableEq, Repr

/-- A descriptor read ahead of its frame (R233), with the payload octets that have arrived. -/
structure AheadEntry where
  desc   : TxDesc
  /-- its payload reads have been issued; the bursts that have returned, by address -/
  issued : Bool
  parts  : List (Nat × List Octet)
  /-- the status with which it will complete in error, or the fault that its ring enters when every entry before it has been consumed: 0x100 for
  an entry that was not ready, 0x101 for a read that failed (R230, Table 9.8) -/
  failed : Option Nat
  deriving DecidableEq, Repr

/-- A mask or threshold write that waits for the arbiter (R320). -/
inductive ArbWrite where
  | mask (p src : Nat) (v : Bool)
  | threshold (p v : Nat)
  | source (src target prio : Nat) (mask : Bool)
  deriving DecidableEq, Repr

/-- A write to a processor block that SP has not accepted for want of room in the arbiter (R325): the processor, whether it is the second word of
the block, the word. -/
structure BlockWrite where
  proc    : Nat
  control : Bool
  word    : Nat
  deriving DecidableEq, Repr

/-- A latch that is set on a shared source (R315): the source, the cause, the tick of its raise. -/
structure Latch where
  src   : Nat
  cause : Nat
  tick  : Nat
  deriving DecidableEq, Repr

/-- One level of a processor's stack (R319). -/
structure StackItem where
  proc : Nat
  src  : Nat
  prio : Nat
  deriving DecidableEq, Repr

/-- The last record of the variable ring (R332): its offset, sequence and what a fold compares. -/
structure LastVar where
  offset  : Nat
  seq     : Nat
  code    : Nat
  source  : Nat
  payload : List Octet
  /-- its FIRST, and whether the Monument has accepted it (R346) -/
  first   : Nat
  taken   : Bool
  deriving DecidableEq, Repr

/-- The last record of a fixed ring (R332). -/
structure LastFixed where
  seq    : Nat
  code   : Nat
  source : Nat
  p0     : Nat
  p1     : Nat
  /-- MODEL FIELDS: the time of its first occurrence, and whether the Monument has accepted it (R346) -/
  first  : Nat
  taken  : Bool
  deriving DecidableEq, Repr

/-- The ring of the field book an event went to (R328). -/
inductive RingName where
  | var | fixed | sd
  deriving DecidableEq, Repr

/-- An event whose record waits for the end of the command that raised it (R328): the ring, the code, the source unit, the payload values with
their octets, whether it takes no Monument token. -/
structure HeldEvent where
  ring    : RingName
  code    : Nat
  source  : Nat
  vals    : List (Nat × Nat)
  noToken : Bool
  deriving DecidableEq, Repr

/-- A Monument record that waits in a page buffer (R346): its slot, its octets 0 to 59, the ring and sequence of the record
it copies, how often its program has failed. -/
structure MonPending where
  slot   : Nat
  octets : List Octet
  ring   : RingName
  seq    : Nat
  tries  : Nat
  deriving DecidableEq, Repr

/-- The operations of the NVM port but for Monument programs (R341): a header update, the erase of a record sector, a `dp_data` read of the
Monument's tables, a write of `atlas_image` at an address, the erase of a sector of the atlas area. The agent of a write is the one told of its
end, `none` where its access has ended before. -/
inductive NvmOp where
  | header
  | erase (sector : Nat)
  | read (agent : Agent) (octets : Nat)
  | image (agent : Option Agent) (addr : Nat) (octets : List Octet)
  | area (agent : Option Agent) (addr : Nat)
  /-- step `k` of a format of the Monument's region for `sectors` record sectors (R345, Table 15.11): the erase of sector `k` of its `total`, the
  header's two copies first, and after them the header; `first` for the format of a mount -/
  | region (agent : Option Agent) (k total sectors : Nat) (first : Bool)
  deriving DecidableEq, Repr

/-- A link-state advertisement held (R303, Table 13.3). -/
structure Lsa where
  origin : Nat
  id     : Nat
  seq    : Nat
  alarms : Nat
  adj    : List (Nat × Nat × Nat × Nat)
  deriving DecidableEq, Repr

/-- An entry of the ID assignment table (Table 13.8). -/
structure Assign where
  serial    : Nat
  id        : Nat
  reachable : Bool
  duplicate : Bool
  /-- MODEL FIELD at the root: the tick at which it was found unreachable -/
  since     : Nat
  deriving DecidableEq, Repr

/-- An ASSIGN table as received or held (R306, R307): its root, that root's priority, sequence and generation, the next chunk awaited,
its entries. -/
structure AssignTable where
  root    : Nat
  prio    : Nat
  seq     : Nat
  gen     : Nat
  chunk   : Nat
  entries : List Assign
  deriving DecidableEq, Repr

/-- A snapshot slot (R381, R382): the covered counters latched, in order, with their widths. -/
structure Snapshot where
  slot   : Nat
  unit   : Nat
  agent  : Agent
  values : List (ObjAddr × Nat × Nat)
  deriving DecidableEq, Repr

/-- The machine. -/
structure State where
  /-- the commands that wait, first in first out -/
  pending   : List Instr
  /-- the build configuration, fixed at synthesis (R3) -/
  build     : Build
  /-- the slot of the tick, 0 to 255 (R11) -/
  slot      : Nat
  /-- the object file: scalar objects that differ from their reset values -/
  obj       : Map ObjAddr Nat
  /-- the table entries that differ from their reset values, octet 0 least significant -/
  tab       : Map EntAddr Nat
  /-- registers without an object address -/
  hid       : Map Hid Int
  /-- running tick timers -/
  timers    : Map TimerId Nat
  /-- MODEL FIELD: the completion of the last access -/
  result    : Completion
  leases    : List Lease
  claims    : List Claim
  staged    : List StagedWrite
  commits   : List CommitOp
  mailboxes : Map Nat Mailbox
  dpCtx     : Map (AgentKind × Nat) DpCtx
  /-- installed AES keys by slot (R70) -/
  keys      : Map Nat Nat
  /-- accepted sequence numbers within the replay window (R71), by slot -/
  replay    : List (Nat × Nat)
  /-- object-access requests in the queue of 8 (R73) -/
  accessQ   : List AccessReq
  responses : List Response
  relays    : List Relay
  relayExecs : List RelayExec
  groupCmds : List GroupCmd
  /-- frames in progress or stored -/
  frames    : List Frame
  copies    : List Copy
  /-- frames whose key waits for presentation, for decision, and committed frames whose held effects wait (R33, R127, R38) -/
  keyQ      : List Nat
  decQ      : List Nat
  appQ      : List Nat
  /-- the frame in progress on each ingress endpoint -/
  rxNow     : Map Nat Nat
  asm       : List AsmCtx
  /-- the cells that have had room in a lane FIFO, those that have left it forgotten when room is wanted (R79) -/
  fifo      : List FifoCell
  /-- pause hold counters by channel and hold (R215) -/
  holds     : Map (Nat × Nat) Nat
  genQ      : List GenFrame
  folds     : List FoldSlot
  updateQ   : List TableUpdate
  /-- Legend entries that the survey found differing and that await their rewrite (R139), and removed ones -/
  repairQ   : List Nat
  shadowBad : List Nat
  /-- action entries and Contour entries with an uncorrectable error not yet rewritten (R149): (true, i) is
  Legend action i, (true, 0x10000 + i) Contour action i, (false, i) Contour entry i -/
  eccBad    : List (Bool × Nat)
  /-- pending gate configurations by endpoint: CT (R182), with the entry and list they will make operational -/
  gatePend  : Map Nat (Nat × Nat × List Nat)
  /-- RATE and BURST written to a flow queue that apply at the next boundary (R175) -/
  rateWait  : Map Nat Nat
  /-- operational gate configurations by endpoint (R180) -/
  gateOper  : Map Nat (Nat × List Nat)
  /-- rings with a pending scan (bit 0), a scan in progress (bit 1) (R228) -/
  scans     : Map Nat Nat
  ahead     : List AheadEntry
  mpOps     : List MpOp
  cqStaged  : List (Nat × CqEntry)
  bqBuffers : List BqBuffer
  /-- queued scan jobs, in the order in which they start (R273, R277) -/
  jobQ      : List Nat
  latches   : List Latch
  arbQ      : List ArbWrite
  /-- writes to processor blocks that SP holds off (R325), first come first -/
  blockWait : List BlockWrite
  levels    : List StackItem
  /-- event records whose write has failed and is to be made again: the queue, the address, the octets (R322) -/
  eqRecords : List (Nat × Nat × List Octet)
  /-- the last record of each ring, into which an equal event folds (R332) -/
  lastFixed : Option LastFixed
  lastSd    : Option LastFixed
  lastVar   : Option LastVar
  /-- MODEL FIELD: the events of the command that runs, in the order of R328; `none` between commands -/
  evHold    : Option (List HeldEvent)
  monQ      : List MonPending
  nvmQ      : List NvmOp
  flash     : List Host.Cell
  /-- MODEL FIELD: how many free values have been taken (each is `Config` applied to it) -/
  free      : Nat
  /-- the time counter and the elapsed count in 2^−38 ns, a 64th of the counter's unit, in which a slot adds exactly
  5 × `increment` (R280, R281, R284) -/
  time      : Nat
  elapsed   : Nat
  /-- a step command of this tick (R283): its agent; true and the TIME80 to take, or false and the change in ns -/
  timeStep  : Option (Agent × Bool × Int)
  lsas      : List Lsa
  assigns   : List Assign
  /-- the ASSIGN table being received, and the latest one held (R306, R307) -/
  assignBuf : Option AssignTable
  assignHeld : Option AssignTable
  snapWait  : List Snapshot
  snapBusy  : List Snapshot
  snapDone  : List Snapshot
  clearWait : List Nat
  modeWait  : Option Nat
  /-- the last unit sent on each endpoint: its octets; under a channel plus 0x100 those of the last unit that leaving UP has stopped (R99) -/
  txOut     : Map Nat (List Octet)
  deriving DecidableEq, Repr

/-- The state right after start-up from PORST_N (R401 step 2): CONFIGURE, every object at its default, nothing in progress. -/
def State.reset : State where
  pending := []
  build := .tlafelu64
  slot := 0
  obj := [(⟨0x00D, 0x5000, 0⟩, 1)]
  tab := []
  hid := [(.requests, 15)]
  timers := [(.token, 12500000)]
  result := ⟨⟨.host, 0⟩, some .ok, []⟩
  leases := []
  claims := []
  staged := []
  commits := []
  mailboxes := []
  dpCtx := []
  keys := []
  replay := []
  accessQ := []
  responses := []
  relays := []
  relayExecs := []
  groupCmds := []
  frames := []
  copies := []
  keyQ := []
  decQ := []
  appQ := []
  rxNow := []
  asm := []
  fifo := []
  holds := []
  genQ := []
  folds := []
  updateQ := []
  repairQ := []
  shadowBad := []
  eccBad := []
  gatePend := []
  gateOper := []
  rateWait := []
  scans := []
  ahead := []
  mpOps := []
  cqStaged := []
  bqBuffers := []
  jobQ := []
  latches := []
  arbQ := []
  blockWait := []
  levels := []
  eqRecords := []
  lastFixed := none
  lastSd := none
  lastVar := none
  evHold := none
  monQ := []
  nvmQ := []
  flash := []
  free := 0
  time := 0
  elapsed := 0
  timeStep := none
  lsas := []
  assigns := []
  assignBuf := none
  assignHeld := none
  snapWait := []
  snapBusy := []
  snapDone := []
  clearWait := []
  modeWait := none
  txOut := []

end Sys2Proof.Machine
end

