-- ==== Sys2Proof/Machine/Ops.lean ====
section
/-! DEFINITION. The named operations over the state: reading and writing objects, table entries, hidden registers and
timers; counters; the abort codes; the modes; the clock of the block; latched alarms. -/
namespace Sys2Proof.Machine

/-- The value of an object, its reset value where it has not been written. -/
def State.rd (s : State) (u i k : Nat) : Nat := s.obj.get ⟨u, i, k⟩ (defaultOf s.build u i k)

/-- An object set to a value. -/
def State.wr (s : State) (u i k v : Nat) : State :=
  { s with obj := s.obj.set ⟨u, i, k⟩ v (defaultOf s.build u i k) }

/-- A table entry, octet 0 least significant. -/
def State.ent (s : State) (u i e : Nat) : Nat := s.tab.get ⟨u, i, e⟩ (tabDefault s.build u i e)

/-- A table entry set to a value. -/
def State.setEnt (s : State) (u i e v : Nat) : State :=
  { s with tab := s.tab.set ⟨u, i, e⟩ v (tabDefault s.build u i e) }

/-- A field of a table entry. -/
def State.entField (s : State) (u i e lo w : Nat) : Nat := field (s.ent u i e) lo w

/-- A field of a table entry set. -/
def State.setEntField (s : State) (u i e lo w v : Nat) : State := s.setEnt u i e (setField (s.ent u i e) lo w v)

/-- A register without an object address. -/
def State.reg (s : State) (h : Hid) : Int := s.hid.get h 0

/-- A register without an object address, read as a natural number. -/
def State.regN (s : State) (h : Hid) : Nat := (s.reg h).toNat

/-- A register without an object address set. -/
def State.setReg (s : State) (h : Hid) (v : Int) : State := { s with hid := s.hid.set h v 0 }

/-- The ticks left of a timer, `none` where it does not run. -/
def State.timer (s : State) (t : TimerId) : Option Nat := s.timers.find? t

/-- A timer started at `n` ticks. -/
def State.startTimer (s : State) (t : TimerId) (n : Nat) : State :=
  { s with timers := (t, n) :: s.timers.erase t }

/-- A timer stopped. -/
def State.stopTimer (s : State) (t : TimerId) : State := { s with timers := s.timers.erase t }

/-- The width of a counter (Tables 3.3 and others): four lane counters have 32 bits, every other 64. -/
def counterBits (u i : Nat) : Nat :=
  if 0x100 ≤ u ∧ u < 0x200 ∧ (i ≤ 0x8002 ∨ i = 0x8005) then 32 else 64

/-- A counter plus `n`, modulo 2 to its width (R378). -/
def State.bump (s : State) (u i k n : Nat) : State := s.wr u i k ((s.rd u i k + n) % 2 ^ counterBits u i)

/-- Bit `b` of the latched alarms of unit `u` set (R51). -/
def State.latch (s : State) (u b : Nat) : State := s.wr u 0x0005 0 (setBit (s.rd u 0x0005 0) b true)

/-- The next free value's number, and the state in which it has been taken. -/
def State.takeFree (s : State) : Nat × State := (s.free, { s with free := s.free + 1 })

/-- The number of an abort code (Table 2.13). -/
def Abort.code : Abort → Nat
  | .ok => 0x0000
  | .noUnit => 0x0101
  | .noObject => 0x0102
  | .noSubindex => 0x0103
  | .readOnly => 0x0201
  | .writeOnly => 0x0202
  | .leaseHeld => 0x0203
  | .notAuthorised => 0x0204
  | .modeForbids => 0x0205
  | .range => 0x0301
  | .length => 0x0302
  | .align => 0x0303
  | .calendarFull => 0x0401
  | .pinConflict => 0x0402
  | .bufferOvercommit => 0x0403
  | .timerConflict => 0x0404
  | .editionBusy => 0x0405
  | .laneModeConflict => 0x0406
  | .timeout => 0x0501
  | .replay => 0x0502
  | .tagMismatch => 0x0503
  | .busy => 0x0504

/-- Every abort code. -/
def Abort.all : List Abort :=
  [.ok, .noUnit, .noObject, .noSubindex, .readOnly, .writeOnly, .leaseHeld, .notAuthorised, .modeForbids, .range, .length,
   .align, .calendarFull, .pinConflict, .bufferOvercommit, .timerConflict, .editionBusy, .laneModeConflict, .timeout, .replay,
   .tagMismatch, .busy]

/-- The abort code of a number that some code has. -/
def Abort.ofCode (n : Nat) : Abort := (Abort.all.find? (fun a => a.code = n)).getD .timeout

/-- The completion of an access told to its sender. -/
def State.complete (s : State) (a : Agent) (c : Abort) (data : List Octet := []) : State :=
  { s with result := ⟨a, some c, data⟩ }

/-- The operating mode (Table 16.1): 0 CONFIGURE, 1 RUN, 2 IDLE, 3 SLEEP, 4 DEEP_SLEEP, 5 OFF. -/
def State.mode (s : State) : Nat := s.rd 0x001 0x5000 0

/-- The phase of a transition: 0 STEADY, 1 ENTERING, 2 EXITING, 3 ROLLING_BACK (Table 16.8). -/
def State.phase (s : State) : Nat := s.rd 0x001 0x5001 0

/-- The main domain runs: CONFIGURE, RUN or IDLE, no reset asserted (Table 18.1, R388). -/
def State.mainUp (s : State) : Bool :=
  s.mode ≤ 2 && s.regN .porstLow = 0 && s.regN .srstLow = 0 && s.regN .pllLost = 0 && s.phase ≠ 2

/-- The restore of a return from OFF runs, in which the flash is discovered and the Monument mounted (Table 16.4, R401). -/
def State.restoring (s : State) : Bool :=
  s.regN .porstLow = 0 && s.phase = 2 && s.regN .returnStep = 6 && s.regN .returnFrom = 5

/-- Snowdrop is powered: every mode but OFF (Table 18.1). -/
def State.snowdropUp (s : State) : Bool := s.mode ≠ 5 && s.regN .porstLow = 0

/-- Frames may start: the mode is RUN (R360). -/
def State.running (s : State) : Bool := s.mode = 1

/-- The entry handshake has come to the unit of order `n` or beyond (R363). -/
def State.asked (s : State) (n : Nat) : Bool := s.phase = 1 && n ≤ s.regN .askOrder

/-- The device leaves IDLE for RUN (R362). -/
def State.wake (s : State) : State := if s.mode = 2 then s.wr 0x001 0x5000 0 1 else s

/-- Work begins that R361 does not let IDLE be entered over: it breaks the ticks that its conditions have held. -/
def State.busyNow (s : State) : State := s.setReg .idleBroken 1

/-- `root.tick_count` (R24). -/
def State.tick (s : State) : Nat := s.rd 0x000 0x5001 0

/-- The low 32 bits of the tick count: a tick time (R24). -/
def State.tick32 (s : State) : Nat := s.tick % 2 ^ 32

/-- The 2^−38 ns of one nanosecond. -/
def nsUnit : Nat := 2 ^ 38

/-- The time at which the counter wraps: 2^48 seconds (R280). -/
def timeWrap : Nat := 2 ^ 48 * 1000000000 * nsUnit

/-- `time.increment` (R281). -/
def State.increment (s : State) : Nat := s.rd 0x003 0x4000 0

/-- The increment at which the counter runs: one written since the last TREF_CLK edge takes effect at the next (R281). -/
def State.pace (s : State) : Nat := if s.regN .paceHeld = 0 then s.increment else s.regN .paceHeld - 1

/-- TREF_CLK edges up to a slot `p` of a tick: at the nominal 125 MHz one in 12.8 CCLK, the first in slot 0 (DESIGN CHOICE, log entry 79: the
rule measures K; the model takes the nominal ratio). -/
def edgesTo (p : Nat) : Nat := p * 5 / 64

/-- The slot in which edge `e` of a tick is seen. -/
def edgeSlot (e : Nat) : Nat := ceilDiv (64 * e) 5

/-- What the counter has gained by a slot `p`, in 64ths of the increment (R281): 64 for each edge, and 64 ÷ K = 5 for each CCLK since the last. -/
def paceTo (p : Nat) : Nat := 64 * edgesTo p + 5 * (p - edgeSlot (edgesTo p))

/-- The gain of the counter in the `n` slots from now: along the edges (R281), with a new increment from the next edge on, or free on CCLK while
TREF_CLK is lost (R282). -/
def State.gain (s : State) (n : Nat) : Nat :=
  if s.rd 0x003 0x5002 0 = 1 then 5 * n * s.pace
  else
    let edge := edgeSlot (edgesTo s.slot + 1)
    if s.slot + n < edge then (paceTo (s.slot + n) - paceTo s.slot) * s.pace
    else (paceTo edge - paceTo s.slot) * s.pace + (paceTo (s.slot + n) - paceTo edge) * s.increment

/-- What the value of the counter holds beyond that of the next TREF_CLK edge less a whole increment: it is interpolated since the last edge, and an
increment that waits for the next edge is not yet its pace (R281). -/
def State.interpolated (s : State) : Int :=
  if s.rd 0x003 0x5002 0 = 1 then 0
  else ((5 * (s.slot - edgeSlot (edgesTo s.slot)) * s.pace : Nat) : Int) + 64 * s.increment - 64 * s.pace

/-- The gain of the counter in the last `n` slots at its present pace. -/
def State.gained (s : State) (n : Nat) : Nat :=
  if s.rd 0x003 0x5002 0 = 1 then 5 * n * s.pace
  else
    let p := s.slot + 256 * (n / 256 + 1)
    (paceTo p - paceTo (p - n)) * s.pace

/-- A slot counts for the timer of a reassembly context (R210): no unit of a higher level is being received, and this channel's `pause_active`
does not cover the class of the context. A whole frame in reception counts as higher until its level is in. -/
def State.fragCounts (s : State) (c : AsmCtx) : Bool :=
  let higher : Bool := c.level + 1 < s.regN (.rxLevel c.ch)
  let active := s.rd (0x200 + c.ch) 0x5013 0
  !higher && !(match s.rd (0x200 + c.ch) 0x1010 0 with | 1 => active.testBit 8 | 2 => active.testBit c.cls | _ => false)

/-- The reassembly contexts when `n` slots have passed. -/
def State.countFragments (s : State) (n : Nat) : List AsmCtx :=
  s.asm.map (fun c => if s.fragCounts c then { c with wait := c.wait + n } else c)

/-- Time passes for `n` slots: the counter and the elapsed count advance (R281, R282, R284), and so do the timers of reassembly contexts (R210). -/
def State.advance (s : State) (n : Nat) : State :=
  let s1 := if s.rd 0x003 0x5002 0 = 1 ∨ s.slot + n < edgeSlot (edgesTo s.slot + 1) then s else s.setReg .paceHeld 0
  { s1 with time := (s.time + s.gain n) % timeWrap, elapsed := s.elapsed + s.gain n, asm := s.countFragments n }

/-- One slot passes with no command (R11): the counter advances; slot 255 lasts until TICK_BOUNDARY. Without CCLK nothing
passes (Table 16.1). -/
def slotPasses (s : State) : State :=
  if s.mainUp ∧ s.slot < 255 then { s.advance 1 with slot := s.slot + 1 } else s

/-- The slots since the tick count began (R11, R24). -/
def State.now (s : State) : Nat := s.tick * 256 + s.slot

/-- The classifier slot that runs is taken by an update or a survey step (R32, R33). -/
def State.slotTaken (s : State) : Bool := s.regN .slotUsed = s.now + 1

/-- The counter's value from its start, in whole nanoseconds. -/
def State.nowNs (s : State) : Nat := s.time / nsUnit

/-- The seconds part of the counter. -/
def State.seconds (s : State) : Nat := s.nowNs / 1000000000

/-- The nanoseconds part of the counter. -/
def State.nanos (s : State) : Nat := s.nowNs % 1000000000

/-- The counter as a TIME80 (Table 2.2). -/
def State.time80 (s : State) : Nat := s.seconds * 2 ^ 32 + s.nanos

/-- A TIME80 as 2^−38 ns. -/
def ofTime80 (v : Nat) : Nat := (v / 2 ^ 32 * 1000000000 + v % 2 ^ 32) * nsUnit

/-- 2^−38 ns as a TIME80. -/
def toTime80 (t : Nat) : Nat := (t / nsUnit / 1000000000) * 2 ^ 32 + t / nsUnit % 1000000000

/-- The counter as a TIME48 (R288). -/
def State.time48 (s : State) : Nat :=
  (s.seconds % 2 ^ 32) * 2 ^ 16 + s.nanos * 65536 / 1000000000

/-- The length of a frame as stored, without a fabric header (R151). -/
def Frame.len (f : Frame) : Nat := f.octets.length - (if f.onFabric then 12 else 0)

/-- The frame's octets without a fabric header. -/
def Frame.inner (f : Frame) : List Octet := f.octets.drop (if f.onFabric then 12 else 0)

/-- A frame, by its number. -/
def State.frame? (s : State) (id : Nat) : Option Frame := s.frames.find? (fun f => f.id = id)

/-- A frame replaced by one with the same number. -/
def State.setFrame (s : State) (f : Frame) : State :=
  { s with frames := s.frames.map (fun g => if g.id = f.id then f else g) }

/-- The endpoint is on the build and is a channel. -/
def State.isChannel (s : State) (ep : Nat) : Bool := ep < s.build.channels

/-- The lane that carries a channel: four channels to a lane (Table 3.3). -/
def laneOf (ch : Nat) : Nat := ch / 4

/-- The unit number of a channel, of a lane, of an air link. -/
def chUnit (ch : Nat) : Nat := 0x200 + ch
def lnUnit (lane : Nat) : Nat := 0x100 + lane
def alUnit (al : Nat) : Nat := 0x300 + al
/-- The counter block of a channel, of an air link (R376, Table 17.1). -/
def csUnit (ch : Nat) : Nat := 0x500 + ch
def asUnit (al : Nat) : Nat := 0x540 + al

end Sys2Proof.Machine
end

