-- ==== Sys2Proof/Machine/Cause.lean ====
section
/-! DEFINITION. Causes and sources (R313 to R318): which source a cause belongs to, and what a raise does to it. -/
namespace Sys2Proof.Machine

/-- The cause code of a kind and an instance (R315). -/
def causeCode (kind inst : Nat) : Nat := kind * 4096 + inst

def causeMailbox (n : Nat) : Nat := causeCode 0x0 n
def causeCqDone (n : Nat) : Nat := causeCode 0x1 n
def causeCqStall (n : Nat) : Nat := causeCode 0x2 n
def causeRingErr (u : Nat) : Nat := causeCode 0x3 u
def causeTxTs (c : Nat) : Nat := causeCode 0x4 c
def causePauseWd (c : Nat) : Nat := causeCode 0x5 c
def causeGuardFail (p : Nat) : Nat := causeCode 0x6 p
def causeScanDone (j : Nat) : Nat := causeCode 0x7 j
def causeScanFail (j : Nat) : Nat := causeCode 0x8 j
def causeAlParked (n : Nat) : Nat := causeCode 0x9 n
def causeCoexExpired (i : Nat) : Nat := causeCode 0xA i
def causeLinkChange (n : Nat) : Nat := causeCode 0xB n
def causeTrefLost : Nat := causeCode 0xC 0
def causePpsIn : Nat := causeCode 0xC 1
def causeFabricChange : Nat := causeCode 0xD 0
def causePowerFail : Nat := causeCode 0xE 0
def causePowerResult : Nat := causeCode 0xE 1
def causeWake : Nat := causeCode 0xE 2
def causeFbEvent : Nat := causeCode 0xE 3
def causeMonumentEvent : Nat := causeCode 0xE 4
def causeEditionSteady : Nat := causeCode 0xE 5

/-- The kind of a cause code. -/
def causeKind (c : Nat) : Nat := c / 4096 % 16

/-- The instance of a cause code. -/
def causeInst (c : Nat) : Nat := c % 4096

/-- The number picked for the three builds of Table 14.1. -/
def perBuild (b : Build) (x8 x24 x64 : Nat) : Nat :=
  match b with
  | .tlafelu8 => x8
  | .tlafelu24 => x24
  | .tlafelu64 => x64

/-- A unit is a ring: TQ, BQ or CQ of the build. -/
def isRingUnit (b : Build) (u : Nat) : Bool :=
  match unitKind? b u with
  | some .tq => true
  | some .bq => true
  | some .cq => true
  | _ => false

/-- The build has the cause (Table 14.1). -/
def causePresent (b : Build) (c : Nat) : Bool :=
  let i := causeInst c
  match causeKind c with
  | 0x0 => i < 8
  | 0x1 => i < b.rings
  | 0x2 => i < b.rings
  | 0x3 => isRingUnit b i
  | 0x4 => i < b.channels
  | 0x5 => b.hasWatchdog && i < b.channels
  | 0x6 => i < 16
  | 0x7 => i < 4
  | 0x8 => i < 4
  | 0x9 => i < 3
  | 0xA => i < 3
  | 0xB => i < b.lanes
  | 0xC => i < 2
  | 0xD => i < 1
  | 0xE => i < 6
  | _ => false

/-- The `proc` of a ring (Table 9.9), 0 for any other unit. -/
def State.procOf (s : State) (u : Nat) : Nat := if isRingUnit s.build u then s.rd u 0x4006 0 else 0

/-- The source of a cause (Table 14.1); `proc` is the processor of the ring for RING_ERR. -/
def sourceOf (b : Build) (c proc : Nat) : Nat :=
  let i := causeInst c
  match causeKind c with
  | 0x0 => i
  | 0x1 => 0x08 + i
  | 0x2 => perBuild b (0x08 + i) (0x28 + i) (0x48 + i)
  | 0x3 => perBuild b 0x18 0x48 0x88 + proc
  | 0x4 => perBuild b 0x20 (0x50 + i) (0x90 + i)
  | 0x5 => 0xD0 + i
  | 0x6 => perBuild b 0x21 (0x68 + i % 8) (0x110 + i)
  | 0x7 => perBuild b 0x22 (0x70 + i) (0x120 + i)
  | 0x8 => perBuild b 0x23 (0x74 + i) (0x124 + i)
  | 0x9 => perBuild b 0x24 (0x78 + i) (0x128 + i)
  | 0xA => perBuild b 0x25 (0x7B + i) (0x12B + i)
  | 0xB => perBuild b 0x29 (0x81 + i) (0x131 + i)
  | 0xC => perBuild b 0x26 0x7E 0x12E + i
  | 0xD => perBuild b 0x28 0x80 0x130
  | _ => perBuild b 0x2A 0x87 0x141 + i

/-- The source carries several causes (R314, Table 14.1). -/
def sharedSource (b : Build) (src : Nat) : Bool :=
  match b with
  | .tlafelu8 => (0x08 ≤ src && src ≤ 0x25) || src = 0x29
  | .tlafelu24 => (0x48 ≤ src && src ≤ 0x4F) || (0x68 ≤ src && src ≤ 0x6F)
  | .tlafelu64 => 0x88 ≤ src && src ≤ 0x8F

/-- The level source's cause, `none` for any other source (R314). -/
def levelCause? (b : Build) (src : Nat) : Option Nat :=
  let al := perBuild b 0x1000 0x78 0x128
  if al ≤ src ∧ src < al + 3 then some (causeAlParked (src - al))
  else if src = perBuild b 0x26 0x7E 0x12E then some causeTrefLost
  else if src = perBuild b 0x2A 0x87 0x141 then some causePowerFail
  else none

/-- The one cause of an edge source (Table 14.1). -/
def edgeCause (b : Build) (src : Nat) : Nat :=
  let within (lo n : Nat) : Bool := lo ≤ src && src < lo + n
  if src < 8 then causeMailbox src
  else if within 0x08 b.rings then causeCqDone (src - 0x08)
  else if within (perBuild b 0x1000 0x28 0x48) b.rings then causeCqStall (src - perBuild b 0x1000 0x28 0x48)
  else if within (perBuild b 0x1000 0x50 0x90) b.channels then causeTxTs (src - perBuild b 0x1000 0x50 0x90)
  else if within (perBuild b 0x1000 0x1000 0xD0) b.channels then causePauseWd (src - 0xD0)
  else if within (perBuild b 0x1000 0x1000 0x110) 16 then causeGuardFail (src - 0x110)
  else if within (perBuild b 0x1000 0x70 0x120) 4 then causeScanDone (src - perBuild b 0x1000 0x70 0x120)
  else if within (perBuild b 0x1000 0x74 0x124) 4 then causeScanFail (src - perBuild b 0x1000 0x74 0x124)
  else if within (perBuild b 0x1000 0x7B 0x12B) 3 then causeCoexExpired (src - perBuild b 0x1000 0x7B 0x12B)
  else if src = perBuild b 0x27 0x7F 0x12F then causePpsIn
  else if src = perBuild b 0x28 0x80 0x130 then causeFabricChange
  else if within (perBuild b 0x1000 0x81 0x131) b.lanes then causeLinkChange (src - perBuild b 0x1000 0x81 0x131)
  else causeCode 0xE (src - perBuild b 0x2A 0x87 0x141)

/-- The fixed target of a source of kinds 0x0 to 0x3, `none` where TARGET is writable (Table 14.2). -/
def State.fixedTarget? (s : State) (src : Nat) : Option Nat :=
  let b := s.build
  let stall := perBuild b 0x08 0x28 0x48
  let err := perBuild b 0x18 0x48 0x88
  if src < 8 then some src
  else if src < 0x08 + b.rings then some (s.procOf (0x480 + (src - 0x08)))
  else if stall ≤ src ∧ src < stall + b.rings then some (s.procOf (0x480 + (src - stall)))
  else if err ≤ src ∧ src < err + 8 then some (src - err)
  else none

/-- Fields of a source entry (Table 14.2). -/
def State.srcState (s : State) (src : Nat) : Nat := s.entField 0x002 0x6000 src 51 2
def State.srcPrio (s : State) (src : Nat) : Nat := s.entField 0x002 0x6000 src 57 4
def State.srcMask (s : State) (src : Nat) : Bool := s.entField 0x002 0x6000 src 54 1 = 1
def State.srcCount (s : State) (src : Nat) : Nat := s.entField 0x002 0x6000 src 32 16
def State.srcTarget (s : State) (src : Nat) : Nat :=
  match s.fixedTarget? src with
  | some p => p
  | none => s.entField 0x002 0x6000 src 61 3

/-- STATE and COUNT of a source set. -/
def State.setSrc (s : State) (src st count : Nat) : State :=
  (s.setEntField 0x002 0x6000 src 51 2 st).setEntField 0x002 0x6000 src 32 16 count

/-- An edge source is raised (Table 14.3, R318). -/
def State.raiseEdge (s : State) (src : Nat) : State :=
  match s.srcState src with
  | 0 => (s.setSrc src 1 1).setReg (.raiseTick src) s.tick32
  | 2 => (s.setSrc src 3 1).setReg (.raiseTick src) s.tick32
  | st => s.setSrc src st (min 0xFFFF (s.srcCount src + 1))

/-- A cause of a shared source is raised (R315, Table 14.3): a latch already set is not counted again. -/
def State.raiseShared (s : State) (src cause : Nat) : State :=
  if s.latches.any (fun l => l.src = src && l.cause = cause) then s
  else
    let s1 := { s with latches := s.latches ++ [Latch.mk src cause s.tick32] }
    match s.srcState src with
    | 0 => s1.setSrc src 1 1
    | 2 => s1.setSrc src 3 1
    | st => s1.setSrc src st 1

/-- A cause is raised on its source: an edge source or a shared one. A level source is sampled at the boundary (R317), so
the start of its condition does nothing here. A cause that the build does not have cannot come about. A cause wakes the device from IDLE
(R362). -/
def State.raise (s : State) (cause : Nat) : State :=
  if causePresent s.build cause then
    let s := s.wake
    let src := sourceOf s.build cause (s.procOf (causeInst cause))
    if sharedSource s.build src then s.raiseShared src cause
    else if (levelCause? s.build src).isSome then s
    else s.raiseEdge src
  else s

end Sys2Proof.Machine
end

