-- ==== Sys2Proof/Machine/FieldBook.lean ====
section
/-! DEFINITION. Recording an event (R328 to R334) in one of the three rings of the field book, and offering it to the Monument
(R346, R347). -/
namespace Sys2Proof.Machine

/-- The fixed severity of an event code (R333, Table 15.3, R373, R393). -/
def severityOf (code : Nat) : Nat :=
  match code with
  | 0x0101 => 2 | 0x0301 => 2 | 0x0401 => 2 | 0x0402 => 4 | 0x0501 => 3 | 0x0502 => 5 | 0x0503 => 5 | 0x0504 => 4
  | 0x0505 => 3 | 0x0601 => 3 | 0x0602 => 4 | 0x0603 => 3 | 0x0701 => 1 | 0x0901 => 3 | 0x0902 => 4 | 0x0903 => 2
  | 0x0904 => 4 | 0x0A01 => 3 | 0x0A02 => 4 | 0x0A03 => 4 | 0x0B01 => 5 | 0x0B02 => 4 | 0x0C01 => 4 | 0x0C02 => 2
  | 0x0C03 => 2 | 0x0C04 => 3 | 0x0D01 => 2 | 0x0D02 => 4 | 0x0D03 => 4 | 0x0D04 => 2 | 0x0E01 => 3 | 0x0E02 => 4
  | 0x0F01 => 1 | 0x0F02 => 1 | 0x0F10 => 1 | 0x0F11 => 4 | 0x0F12 => 6 | 0x0F13 => 3 | 0x0F14 => 4 | 0x0F15 => 6
  | 0x0F20 => 1 | 0x0F21 => 5 | 0x1001 => 1 | 0x1002 => 3 | 0x1003 => 2 | 0x1004 => 5 | 0x1005 => 4 | 0x1201 => 4
  | 0x1202 => 2 | 0x1203 => 5
  | _ => 0

/-- The octets of a payload given as (octets, value) pairs (R333). -/
def payloadOctets (vals : List (Nat × Nat)) : List Octet := vals.flatMap (fun v => toMsb v.1 v.2)

/-- The octets of the variable ring (R328). -/
def ringOctets : Nat := 262144

/-- Octet `o` of the variable ring. -/
def State.ringOctet (s : State) (o : Nat) : Nat := field (s.ent 0x004 0x6000 (o / 8)) (8 * (o % 8)) 8

/-- `n` octets of the variable ring as a number, most significant first. -/
def State.ringField (s : State) (o n : Nat) : Nat :=
  (List.range n).foldl (fun a i => a * 256 + s.ringOctet (o + i)) 0

/-- Octets written into the ring from an offset that is a multiple of 8, in units of 8 octets. -/
def State.ringWrite (s : State) (o : Nat) (l : List Octet) : State :=
  (List.range (ceilDiv l.length 8)).foldl
    (fun s i => s.setEnt 0x004 0x6000 (o / 8 + i) (ofLsb ((l.drop (8 * i)).take 8))) s

/-- The octets that a variable record with `n` payload octets occupies (R329). -/
def varSize (n : Nat) : Nat := 24 + 8 * ceilDiv n 8

/-- The sequence after `q`: 2^32 − 1 wraps to 1 (Table 15.1). -/
def nextSeq (q : Nat) : Nat := if q = 2 ^ 32 - 1 then 1 else q + 1

def State.fbNext (s : State) : Nat := s.rd 0x004 0x5003 0
def State.fbOldest (s : State) : Nat := s.rd 0x004 0x5004 0

/-- The oldest record of the variable ring is discarded (R330). -/
def State.dropOldest (s : State) : State :=
  let o := s.fbOldest
  let e := o + varSize (s.ringOctet (o + 14))
  let e := if ringOctets ≤ e then 0 else if e ≠ s.fbNext ∧ s.ringField e 4 = 0 then 0 else e
  ((s.wr 0x004 0x5004 0 e).wr 0x004 0x5002 0 (nextSeq (s.rd 0x004 0x5002 0))).bump 0x004 0x8002 0 1

/-- The oldest records that a new record of `n` octets at `at_` overlaps, or at whose offset it ends, are discarded; `fill`
is where filler begins, or the ring's end (R330). -/
def State.makeRoom : Nat → State → Nat → Nat → Nat → State
  | 0, s, _, _, _ => s
  | k + 1, s, fill, at_, n =>
    let o := s.fbOldest
    if o = s.fbNext then s
    else if fill ≤ o ∨ (at_ ≤ o ∧ o < at_ + n) ∨ (at_ + n) % ringOctets = o then State.makeRoom k s.dropOldest fill at_ n
    else s

/-- The header and payload of a variable record (Table 15.1). -/
def State.varRecord (s : State) (seq code source : Nat) (payload : List Octet) (mon drop : Bool) : List Octet :=
  toMsb 4 seq ++ toMsb 2 code ++ toMsb 2 (severityOf code * 2 ^ 13 + source % 2 ^ 12) ++ toMsb 6 s.time48
    ++ toMsb 1 payload.length
    ++ toMsb 1 ((s.rd 0x003 0x5001 0 % 2) * 128 + mon.toNat * 64 + drop.toNat * 32)
    ++ toMsb 4 s.time48 ++ toMsb 2 1 ++ toMsb 2 0
    ++ payload ++ List.replicate (8 * ceilDiv payload.length 8 - payload.length) 0

/-- The Monument accepts events: READY, mounted, not in FAULT. -/
def State.monUp (s : State) : Bool := s.rd 0x005 0x5001 0 = 2 && s.regN .monFault = 0 && s.rd 0x005 0x5006 0 ≠ 0

/-- The record slots of the Monument (R342). -/
def State.monSlots (s : State) : Nat := s.rd 0x005 0x5006 0 * 64

/-- The next free slot of the page buffers: after the last slot taken, or the head (R346). -/
def State.monFreeSlot (s : State) : Nat :=
  match s.monQ.getLast? with
  | some m => (m.slot + 1) % s.monSlots
  | none => s.rd 0x005 0x5007 0

/-- A page buffer accepts a record at slot `x`: the page is the current one or the next, its sector is erased (R346). -/
def State.monAccepts (s : State) (x : Nat) : Bool :=
  let cur := s.rd 0x005 0x5007 0 / 4
  let pages := s.monSlots / 4
  let ahead := (x / 4 + pages - cur) % pages
  ahead ≤ 1 && s.monQ.length < 8
    && (match s.monQ.getLast? with | some m => (x / 4 + pages - m.slot / 4) % pages ≤ 1 | none => true)
    && !s.nvmQ.any (fun o => match o with | .erase sec => sec = x / 64 | _ => false)

/-- The octets 0 to 59 of a Monument record (Table 15.6). -/
def State.monRecord (s : State) (code source sev : Nat) (payload : List Octet) (fixed : Bool) (fbSeq rep first : Nat) :
    List Octet :=
  toMsb 1 1
    ++ toMsb 1 (sev * 32 + (if payload.length > 28 then 16 else 0) + (if s.regN .pfailLow = 1 then 8 else 0) + fixed.toNat * 4)
    ++ toMsb 2 code ++ toMsb 2 (source % 2 ^ 12) ++ toMsb 4 (s.rd 0x005 0x5008 0) ++ toMsb 4 (s.rd 0x012 0x5001 0)
    ++ toMsb 6 first ++ toMsb 4 s.time48 ++ toMsb 2 rep ++ toMsb 1 payload.length ++ toMsb 1 0 ++ toMsb 4 fbSeq
    ++ payload.take 28 ++ List.replicate (28 - payload.length) 0

/-- What became of an offered event. -/
inductive Offered where
  | no | taken | dropped
  deriving DecidableEq, Repr

/-- A drop for want of a token (R347): counted, and the hour runs. -/
def State.budgetDrop (s : State) (sev : Nat) : State :=
  let s := s.bump 0x005 0x8001 0 1
  let s := if (s.timer .budgetHour).isSome then s else s.startTimer .budgetHour 22500000000
  (s.setReg .hourDrops (s.reg .hourDrops + 1)).setReg .hourSeverity (max (s.reg .hourSeverity) sev)

/-- `fieldbook.state`: bit 0 reader freeze, bit 1 power-fail freeze, bit 2 Snowdrop recording (Table 15.10). -/
def State.fbState (s : State) : Nat := s.rd 0x004 0x5000 0

/-- The book is frozen for power fail, so the NVM port starts nothing (R336, R349). -/
def State.pfailFrozen (s : State) : Bool := s.fbState.testBit 1

/-- The pending records of the page of the first pending one (R346): they stand in front. -/
def State.pageGroup (s : State) : List MonPending :=
  match s.monQ with
  | m :: _ => s.monQ.filter (fun x => x.slot / 4 = m.slot / 4)
  | [] => []

/-- An operation is an erase; a data-port read. -/
def NvmOp.erases : NvmOp → Bool
  | .erase _ => true
  | .area _ _ => true
  | .region _ k total _ _ => k < total
  | _ => false

/-- An operation is a step of a format. -/
def NvmOp.formats : NvmOp → Bool
  | .region _ _ _ _ _ => true
  | _ => false

def NvmOp.reads : NvmOp → Bool
  | .read _ _ => true
  | _ => false

/-- An operation whose write has ended for an agent (R67). -/
def NvmOp.disown (a : Agent) : NvmOp → NvmOp
  | .image b x l => .image (if b = some a then none else b) x l
  | .area b x => .area (if b = some a then none else b) x
  | .region b k t n f => .region (if b = some a then none else b) k t n f
  | o => o

/-- An erase is in progress (R341). -/
def State.erasing (s : State) : Bool := s.regN .nvmBegun = 1 && s.nvmQ.head?.any NvmOp.erases

/-- An erase in progress that the flash can suspend for a program (R341). -/
def State.maySuspend (s : State) : Bool := s.regN .nvmSuspend = 1 && s.erasing

/-- A format has begun: the slots that records wait for are about to be erased, so no program starts before its end (DESIGN CHOICE, log entry 87). -/
def State.formatting (s : State) : Bool :=
  s.nvmQ.any (fun o => match o with | .region _ k _ _ _ => 0 < k | _ => false) || (s.regN .nvmBegun = 1 && s.nvmQ.head?.any NvmOp.formats)

/-- The program of the pending records of a page begins, whenever the port is free for it (R341, R346): it holds those that are pending
now. -/
def State.programStart (s : State) : State :=
  if s.regN .progCount ≠ 0 ∨ s.monQ = [] ∨ !s.monUp ∨ s.pfailFrozen ∨ s.formatting ∨ (s.regN .nvmBegun = 1 ∧ !s.maySuspend) then s
  else s.setReg .progCount (s.pageGroup.length : Int)

/-- An event is offered to the Monument (R346 to R348). `free` is a record that takes no token and that no severity keeps back (R347, R349),
`first` the time of its first occurrence. While the power fails nothing counts a record that finds no slot (R349). -/
def State.offer (s : State) (code source : Nat) (payload : List Octet) (ring : RingName) (seq rep first : Nat) (free : Bool) :
    Offered × State :=
  let sev := severityOf code
  if !free ∧ sev < s.rd 0x005 0x1000 0 then (.no, s)
  else if s.regN .monFault = 1 then (.dropped, s)
  else if !s.monUp then (.no, s)
  else
    let x := s.monFreeSlot
    if !s.monAccepts x then (.dropped, if s.regN .pfailLow = 1 then s else s.bump 0x005 0x8002 0 1)
    else if !free ∧ s.rd 0x005 0x5009 0 = 0 then (.dropped, s.budgetDrop sev)
    else
      let fbSeq := if ring = .var then seq else 0
      let o := s.monRecord code source sev payload (ring = .sd) fbSeq rep first
      let s1 := if free then s else s.wr 0x005 0x5009 0 (s.rd 0x005 0x5009 0 - 1)
      let s2 := s1.wr 0x005 0x5008 0 ((s1.rd 0x005 0x5008 0 + 1) % 2 ^ 32)
      let s3 := { s2 with monQ := s2.monQ ++ [MonPending.mk x o ring seq 0] }
      (.taken, (s3.wr 0x005 0x500A 0 s3.monQ.length).programStart)

/-- A fold of an event updates its copy that is still pending: REPEAT and LAST (R346). -/
def State.offerFold (s : State) (ring : RingName) (seq : Nat) : State :=
  { s with
    monQ := s.monQ.map (fun m =>
      if m.ring = ring ∧ m.seq = seq then
        { m with octets := patch m.octets 20 (toMsb 4 s.time48 ++ toMsb 2 (min 0xFFFF (be16 m.octets 24 + 1))) }
      else m) }

/-- A folded event is offered (R332): where its record has been accepted, only a copy still pending changes (R346); else it is offered anew,
with the REPEAT it has now. -/
def State.foldOffer (s : State) (code source : Nat) (payload : List Octet) (ring : RingName) (seq rep first : Nat) (free taken : Bool) :
    Offered × State :=
  if taken then (.taken, s.offerFold ring seq) else s.offer code source payload ring seq rep first free

/-- FB_EVENT for a new record of a severity (R334). -/
def State.fbEvent (s : State) (code : Nat) : State :=
  if s.rd 0x004 0x1000 0 ≤ severityOf code then s.raise causeFbEvent else s

/-- A new record of the variable ring (R329, R330). -/
def State.newVar (s : State) (code source : Nat) (payload : List Octet) (noToken : Bool) : State :=
  let n := varSize payload.length
  let next := s.fbNext
  let wraps := ringOctets < next + n
  let at_ := if wraps then 0 else next
  let seq := s.rd 0x004 0x5001 0
  let s1 := s.makeRoom 128 (if wraps then next else ringOctets) at_ n
  let s2 := if s1.fbOldest = s1.fbNext then (s1.wr 0x004 0x5004 0 at_).wr 0x004 0x5002 0 seq else s1
  let s3 := if wraps then s2.ringWrite next (List.replicate (ringOctets - next) 0) else s2
  let (res, s4) := s3.offer code source payload .var seq 1 s3.time48 noToken
  let s5 := s4.ringWrite at_ (s4.varRecord seq code source payload (res = Offered.taken) (res = Offered.dropped))
  let s6 := ((s5.wr 0x004 0x5003 0 ((at_ + n) % ringOctets)).wr 0x004 0x5001 0 (nextSeq seq)).bump 0x004 0x8000 0 1
  ({ s6 with lastVar := some ⟨at_, seq, code, source, payload, s.time48, res = Offered.taken⟩ }).fbEvent code

/-- An event goes to the variable ring: a fold, or a new record (R328 to R332). -/
def State.recordVar (s : State) (code source : Nat) (payload : List Octet) (noToken : Bool) : State :=
  match s.lastVar with
  | some l =>
    if l.code = code ∧ l.source = source ∧ l.payload = payload then
      let rep := min 0xFFFF (s.ringField (l.offset + 20) 2 + 1)
      let flags := s.ringOctet (l.offset + 15)
      let s1 := (s.ringWrite (l.offset + 16) (toMsb 4 s.time48 ++ toMsb 2 rep ++ toMsb 2 0)).bump 0x004 0x8001 0 1
      let (res, s2) := s1.foldOffer code source payload .var l.seq rep l.first noToken l.taken
      let s3 := { s2 with lastVar := some { l with taken := res = Offered.taken } }
      s3.ringWrite (l.offset + 8) (toMsb 6 l.first ++ toMsb 1 payload.length
        ++ toMsb 1 (setBit (setBit flags 6 (res = Offered.taken)) 5 (flags.testBit 5 || res = Offered.dropped)))
    else s.newVar code source payload noToken
  | none => s.newVar code source payload noToken

/-- A fixed record (Table 15.2) as a table entry. -/
def fixedRecord (fseq code time source p0 p1 : Nat) (sd : Bool) : Nat :=
  ofLsb (toMsb 2 fseq ++ toMsb 2 code ++ toMsb 4 time
    ++ toMsb 2 (sd.toNat * 2 ^ 15 + severityOf code * 2 ^ 12 + source % 2 ^ 12) ++ toMsb 1 1 ++ toMsb 1 0 ++ toMsb 2 p0 ++ toMsb 2 p1)

/-- REPEAT of a fixed record plus one, saturating (R332). -/
def foldFixed (e : Nat) : Nat := setField e 80 8 (min 0xFF (field e 80 8 + 1))

/-- The low 16 bits of payload value `i`, or 0 (Table 15.2). -/
def payloadWord (vals : List (Nat × Nat)) (i : Nat) : Nat :=
  match vals[i]? with
  | some v => v.2 % 2 ^ 16
  | none => 0

/-- A new record of the fixed ring (R331). -/
def State.newFixed (s : State) (code source : Nat) (vals : List (Nat × Nat)) (noToken : Bool) (p0 p1 q : Nat) : State :=
  let full := s.regN .fixedHeld = 4096
  let s := s.setEnt 0x004 0x6001 (q % 4096) (fixedRecord q code s.tick32 source p0 p1 false)
  let s := (s.wr 0x004 0x5005 0 ((q + 1) % 65536)).bump 0x004 0x8003 0 1
  let s := (if s.regN .gapFirst = 0 then s.setReg .gapFirst (q + 1) else s).setReg .gapCount (s.reg .gapCount + 1)
  let s := if full then s.raise causeFbEvent else (s.setReg .fixedHeld (s.reg .fixedHeld + 1))
  let (res, s) := s.offer code source (payloadOctets vals) .fixed q 1 s.time48 noToken
  let s := { s with lastFixed := some ⟨q, code, source, p0, p1, s.time48, res = Offered.taken⟩ }
  s.fbEvent code

/-- An event goes to the fixed ring (R331, R332). -/
def State.recordFixed (s : State) (code source : Nat) (vals : List (Nat × Nat)) (noToken : Bool) : State :=
  let p0 := payloadWord vals 0
  let p1 := payloadWord vals 1
  let q := s.rd 0x004 0x5005 0
  match s.lastFixed with
  | some l =>
    if l.code = code ∧ l.source = source ∧ l.p0 = p0 ∧ l.p1 = p1 then
      let e := foldFixed (s.ent 0x004 0x6001 (l.seq % 4096))
      let (res, s) := (s.setEnt 0x004 0x6001 (l.seq % 4096) e).foldOffer code source (payloadOctets vals) .fixed l.seq (field e 80 8) l.first
        noToken l.taken
      { s with lastFixed := some { l with taken := res = Offered.taken } }
    else s.newFixed code source vals noToken p0 p1 q
  | none => s.newFixed code source vals noToken p0 p1 q

/-- A new record of the Snowdrop ring (R331). -/
def State.newSd (s : State) (code source p0 p1 q : Nat) : State :=
  let (f, s) := s.takeFree
  let s := s.setEnt 0x004 0x6002 (q % 256) (fixedRecord q code (Config.sdPeriods f).toNat source p0 p1 true)
  let s := s.wr 0x004 0x5006 0 ((q + 1) % 65536)
  let s := { s with lastSd := some ⟨q, code, source, p0, p1, 0, false⟩ }
  let s := if s.regN .sdHeld = 256 ∨ s.rd 0x004 0x1000 0 ≤ severityOf code then s.setReg .sdEvent 1 else s
  let s := s.setReg .sdHeld (min 256 (s.reg .sdHeld + 1))
  if s.regN .sdFirst = 0 then s.setReg .sdFirst (q + 1) else s

/-- An event goes to the Snowdrop ring (R331, R337). The SD_CLK periods since the entry are the outside's: a free value
(log entry 8). -/
def State.recordSd (s : State) (code source : Nat) (vals : List (Nat × Nat)) : State :=
  let p0 := payloadWord vals 0
  let p1 := payloadWord vals 1
  let q := s.rd 0x004 0x5006 0
  match s.lastSd with
  | some l =>
    if l.code = code ∧ l.source = source ∧ l.p0 = p0 ∧ l.p1 = p1 then
      let s1 := s.setEnt 0x004 0x6002 (l.seq % 256) (foldFixed (s.ent 0x004 0x6002 (l.seq % 256)))
      if s.regN .sdFirst = 0 then s1.setReg .sdFolded (l.seq + 1 + l.taken.toNat * 2 ^ 16 : Nat) else s1
    else s.newSd code source p0 p1 q
  | none => s.newSd code source p0 p1 q

/-- The ring of an event, by the state of the book at its slot (R328). -/
def State.ringNow (s : State) : RingName := if s.fbState.testBit 2 then .sd else if s.fbState % 4 ≠ 0 then .fixed else .var

/-- The record of an event is written. -/
def State.recordNow (s : State) (e : HeldEvent) : State :=
  match e.ring with
  | .sd => s.recordSd e.code e.source e.vals
  | .fixed => s.recordFixed e.code e.source e.vals e.noToken
  | .var => s.recordVar e.code e.source (payloadOctets e.vals) e.noToken

/-- An event takes its place among the events of its slot: ascending source unit, then code, equals in the order raised (R328). -/
def placeEvent (e : HeldEvent) : List HeldEvent → List HeldEvent
  | [] => [e]
  | x :: t => if e.source < x.source ∨ (e.source = x.source ∧ e.code < x.code) then e :: x :: t else x :: placeEvent e t

/-- An event writes a field-book record, with the events that its command has raised in the same slot (R328). `vals` are the payload values
with their octets (R333). -/
def State.record (s : State) (code source : Nat) (vals : List (Nat × Nat)) (noToken : Bool := false) : State :=
  let e : HeldEvent := ⟨s.ringNow, code, source, vals, noToken⟩
  match s.evHold with
  | some l => { s with evHold := some (placeEvent e l) }
  | none => s.recordNow e

/-- The records of the events held are written. -/
def State.writeHeld (s : State) : State := (s.evHold.getD []).foldl State.recordNow { s with evHold := none }

/-- The records held are written before the state of the book changes: which ring a later event takes is another (R328). -/
def State.flushHeld (s : State) : State := match s.evHold with | some _ => { s.writeHeld with evHold := some [] } | none => s

/-- What raises several events in one slot: their records are written at its end, in order (R328). -/
def State.together (s : State) (f : State → State) : State :=
  match s.evHold with
  | some _ => f s
  | none => (f { s with evHold := some [] }).writeHeld

/-- A command that raises several events in one slot. -/
def gathered (s : State) (f : State → Host.Outcome State Fault Refusal) : Host.Outcome State Fault Refusal :=
  match s.evHold with
  | some _ => f s
  | none =>
    match f { s with evHold := some [] } with
    | .next t => .next t.writeHeld
    | o => o

end Sys2Proof.Machine
end

