-- ==== Sys2Proof/Machine/Completion.lean ====
section
/-! DEFINITION. Rings and completions (R223 to R225, R231, R235, R241 to R245): positions, credits, the completion that is ready,
staging, and what a ring's fault does. -/
namespace Sys2Proof.Machine

/-- The units of the rings (Table 1.1). -/
def tqUnit (n : Nat) : Nat := 0x400 + n
def bqUnit (n : Nat) : Nat := 0x440 + n
def cqUnit (n : Nat) : Nat := 0x480 + n

/-- The unit of a producer ring. -/
def ringUnit : RingKind → Nat → Nat
  | .tq, n => tqUnit n
  | .bq, n => bqUnit n

/-- The state of a ring (Table 9.8): 1 RUN, 2 STOPPED, 3 RETAINED, 4 FAULT. After reset it is STOPPED. -/
def State.ringState (s : State) (u : Nat) : Nat := if s.rd u 0x0002 0 = 0 then 2 else s.rd u 0x0002 0

/-- The entries N of a ring (R224). -/
def State.ringN (s : State) (u : Nat) : Nat := 2 ^ s.rd u 0x4001 0

/-- A position advanced by `d` modulo 2N. -/
def State.advancePos (s : State) (u p d : Nat) : Nat := (p + d) % (2 * s.ringN u)

/-- The distance from a position to another modulo 2N. -/
def State.posDiff (s : State) (u a b : Nat) : Nat := (a + 2 * s.ringN u - b) % (2 * s.ringN u)

/-- The phase bit of an entry at a position (R225). -/
def State.phaseAt (s : State) (u p : Nat) : Nat := 1 - p / s.ringN u

/-- The staged completions of a CQ. -/
def State.stagedOf (s : State) (cq : Nat) : List CqEntry := (s.cqStaged.filter (fun p => p.1 = cq)).map Prod.snd

/-- Free entries of a CQ: N − (W − R) mod 2N. -/
def State.cqFree (s : State) (cq : Nat) : Nat :=
  let u := cqUnit cq
  s.ringN u - s.posDiff u (s.rd u 0x5000 0) (s.rd u 0x5001 0)

/-- The credit count of a CQ (R241). -/
def State.cqCount (s : State) (cq : Nat) : Nat := s.cqFree cq + 8 - (s.stagedOf cq).length - s.regN (.reserved cq)

/-- The credits that may be reserved. DEDUCED (log entry 97): a CQ that does not run writes nothing, and what is started for it must find room in
the staging area of 8. -/
def State.cqCredits (s : State) (cq : Nat) : Nat :=
  if s.ringState (cqUnit cq) = 1 then s.cqCount cq else min (s.cqCount cq) (8 - (s.stagedOf cq).length - s.regN (.reserved cq))

/-- A credit reserved, and one released (R241). -/
def State.reserve (s : State) (cq : Nat) : State := s.setReg (.reserved cq) (s.reg (.reserved cq) + 1)
def State.unreserve (s : State) (cq : Nat) : State := s.setReg (.reserved cq) (max 0 (s.reg (.reserved cq) - 1))

/-- The tag with which an operation stands that waits for its place on MP (R246, R390). -/
def mpWaiting : Nat := 256

/-- The operations outstanding on MP in one direction. -/
def mpBusy (ops : List MpOp) (write : Bool) : List MpOp := ops.filter (fun o => o.write = write && o.tag ≠ mpWaiting)

/-- The tag a new operation gets: the lowest that no outstanding one of its direction carries, where one more may be outstanding, 64 writes or
`reads` reads (R246, R390); which tag is free to choose (log entry 29). -/
def mpTag (ops : List MpOp) (reads : Nat) (write : Bool) : Nat :=
  let busy := mpBusy ops write
  if (if write then 64 else reads) ≤ busy.length then mpWaiting
  else ((List.range 256).find? (fun n => !busy.any (fun o => o.tag = n))).getD mpWaiting

/-- An operation is issued on MP, or waits behind those outstanding. -/
def State.mpIssue (s : State) (write : Bool) (addr : Nat) (octets : List Octet) (p : MpPurpose) : State :=
  let waits : Bool := s.mpOps.any (fun o => o.write = write && o.tag = mpWaiting)
  let tag := if waits then mpWaiting else mpTag s.mpOps (s.rd 0x00C 0x4001 0) write
  { s.setReg .nextTag (s.reg .nextTag + 1) with mpOps := s.mpOps ++ [MpOp.mk write tag addr octets p] }

/-- Operations that wait are issued as others have ended, in their order. -/
def State.mpSettle (s : State) : State :=
  let give (done : List MpOp) (o : MpOp) (rest : List MpOp) : MpOp :=
    if o.tag = mpWaiting then { o with tag := mpTag (done ++ rest) (s.rd 0x00C 0x4001 0) o.write } else o
  let rec go (done : List MpOp) : List MpOp → List MpOp
    | [] => done
    | o :: rest => go (done ++ [give done o rest]) rest
  if s.mpOps.any (fun o => o.tag = mpWaiting) then { s with mpOps := go [] s.mpOps } else s

/-- Operations with a purpose become dropped: those in flight complete, and their data is not used (R233). -/
def State.dropOps (s : State) (p : MpPurpose → Bool) : State :=
  { s with mpOps := (s.mpOps.filter (fun o => !(p o.purpose && o.tag = mpWaiting))).map (fun o => if p o.purpose then { o with purpose := .dropped } else o) }

/-- The octets of a completion at a position (Table 9.6, R231): the extended form of 64 octets where the CQ has `ext`. -/
def State.cqOctets (s : State) (cq : Nat) (e : CqEntry) (p : Nat) : List Octet :=
  let u := cqUnit cq
  let ext := s.rd u 0x4004 0 = 1
  let w3 := setBit (setBit e.w3 63 (s.phaseAt u p = 1)) 50 ext
  toLsb 8 e.w0 ++ toLsb 8 e.w1 ++ toLsb 8 e.w2 ++ toLsb 8 w3
    ++ (if ext then toLsb 12 e.ext ++ List.replicate 20 0 else [])

/-- A completion is written at W. -/
def State.cqWriteNow (s : State) (cq : Nat) (e : CqEntry) : State :=
  let u := cqUnit cq
  let w := s.rd u 0x5000 0
  let size := if s.rd u 0x4004 0 = 1 then 64 else 32
  (s.mpIssue true (s.rd u 0x4000 0 + w % s.ringN u * size) (s.cqOctets cq e w) (.cqWrite cq e)).wr u 0x5000 0 (s.advancePos u w 1)

/-- Staged completions are written as space allows, in the order they became ready (R241). -/
def State.cqFlush : Nat → State → Nat → State
  | 0, s, _ => s
  | k + 1, s, cq =>
    match s.stagedOf cq with
    | [] => s
    | e :: _ =>
      if s.ringState (cqUnit cq) = 1 ∧ 0 < s.cqFree cq then
        State.cqFlush k ({ s with cqStaged := s.cqStaged.erase (cq, e) }.cqWriteNow cq e) cq
      else s

/-- A completion is ready: its reserved credit is released, and it is written or staged (R241). -/
def State.cqReady (s : State) (cq : Nat) (e : CqEntry) : State :=
  let s1 := s.unreserve cq
  if s1.ringState (cqUnit cq) = 1 ∧ 0 < s1.cqFree cq ∧ s1.stagedOf cq = [] then s1.cqWriteNow cq e
  else { s1 with cqStaged := s1.cqStaged ++ [(cq, e)] }

/-- A ring enters FAULT (Table 9.8): RING_ERR, a record with the position. -/
def State.ringFault (s : State) (u pos : Nat) : State :=
  ((s.wr u 0x0002 0 4).raise (causeRingErr u)).record 0x0904 u [(4, pos)]

/-- An extended timestamp block (Table 6.6) of an instant in 1/16 ns. -/
def extTime (t : Nat) : Nat :=
  let ns := t / 16
  (ns / 1000000000 % 2 ^ 48) * 2 ^ 48 + ns % 1000000000 * 2 ^ 16 + t % 16 * 4096

/-- A compact timestamp (R167): units of 0.25 ns. -/
def compactTime (t : Nat) : Nat := t / 4 % 2 ^ 32

/-- The completion of a ring entry (Table 9.6): its words without PHASE and EXT. -/
def completionOf (cookie len ring kind status index ep cls hash guard flags : Nat) (ts : Option Nat) : CqEntry :=
  ⟨cookie * 2 ^ 32 + (if status = 0 then len else 0) * 2 ^ 16 + ring * 2 ^ 10 + kind * 2 ^ 8 + status,
   (match ts with | some t => compactTime t | none => 0) * 2 ^ 32 + index * 2 ^ 16 + ep * 2 ^ 9 + cls * 2 ^ 6,
   hash * 2 ^ 32 + guard,
   flags + (if ts.isSome then 2 ^ 55 else 0),
   match ts with | some t => extTime t | none => 0⟩

/-- The flags of a decision in a completion: TIE, MARK. -/
def decisionFlags (d : Option Decision) : Nat :=
  match d with
  | some d => d.tie.toNat * 2 ^ 54 + (if d.colourAct = 1 then 2 ^ 52 else 0)
  | none => 0

/-- The transmit completion of a host frame is made (R235): `ts` is the channel and instant of the timestamped copy. -/
def State.txComplete (s : State) (f : Frame) (t : TxDesc) (status : Nat) (ts : Option (Nat × Nat)) : State :=
  let u := tqUnit t.tq
  let cls := match f.decision with | some d => d.cls | none => 0
  let flags := f.l3Ins.toNat * 2 ^ 57 + f.l4Ins.toNat * 2 ^ 56 + decisionFlags f.decision + f.guardMark.toNat * 2 ^ 51
  let ep := match ts with | some x => x.1 | none => 0x7F
  let e := completionOf (t.word2 % 2 ^ 32) f.octets.length t.tq 0 status (t.pos % s.ringN u) ep cls 0 f.guardValue flags
    (ts.map Prod.snd)
  (s.setFrame { f with completed := true }).cqReady (s.rd u 0x4003 0) e

/-- A ring entry found in error completes at once (R230, R234): its credit is reserved and used. -/
def State.errComplete (s : State) (t : TxDesc) (status : Nat) : State :=
  let u := tqUnit t.tq
  (s.reserve (s.rd u 0x4003 0)).cqReady (s.rd u 0x4003 0)
    (completionOf (t.word2 % 2 ^ 32) 0 t.tq 0 status (t.pos % s.ringN u) 0x7F 0 0 0 0 none)

/-- A host frame that asked for a timestamp and has no channel copy left completes without one (R235). -/
def State.tsCheck (s : State) (f : Frame) : State :=
  match f.desc with
  | some t =>
    if f.applied && !f.completed && t.word1.testBit 40
        && !s.copies.any (fun c => c.frame = f.id && s.isChannel c.ep && c.state ≠ .held) then s.txComplete f t 0 none
    else s
  | none => s

end Sys2Proof.Machine
end

