-- ==== Sys2Proof/Machine/Parser.lean ====
section
/-! DEFINITION. The parser (R123 to R126): the key of a frame from its first 128 octets, and the two hashes of the flow tuple
(R143, R147). -/
namespace Sys2Proof.Machine

/-- What the parser is given: the octets that are in (at most 128 are read), whether the frame has ended, whether it carries
a fabric header, the ingress endpoint, the station address of a channel (0 elsewhere), the four user offsets, and the
descriptor length of a frame from the host port or an air link. -/
structure ParseIn where
  octets  : List Octet
  ended   : Bool
  fabric  : Bool
  ing     : Nat
  station : Nat
  offsets : List Nat
  descLen : Option Nat
  deriving DecidableEq, Repr

/-- What the walk has found. FLAGS holds bits 171 to 156 of Table 5.3 as bits 15 to 0. -/
structure Walk where
  pos     : Nat
  outer   : Option Nat
  inner   : Option Nat
  etype   : Nat
  proto   : Nat
  src     : Nat
  dst     : Nat
  sport   : Nat
  dport   : Nat
  dscp    : Nat
  flags   : Nat
  tcp     : Nat
  ktype   : Nat
  word2   : Nat
  l4      : Option Nat
  ipLen   : Option Nat
  deriving DecidableEq, Repr

/-- The header of `n` octets at `off` lies in the frame and below octet 128 (R123). -/
def ParseIn.reach (v : ParseIn) (off n : Nat) : Bool := off + n ≤ 128 && off + n ≤ v.octets.length

/-- DEPTH and TRUNC of a header of `n` octets at `off` that is not reached (R123). -/
def ParseIn.endFlags (v : ParseIn) (off n : Nat) : Nat :=
  (if 128 < off + n then 4 else 0) + (if v.ended ∧ v.octets.length < off + n then 8 else 0)

/-- A flag set. -/
def Walk.flag (w : Walk) (f : Nat) : Walk := { w with flags := w.flags ||| f }

/-- The walk goes on behind an IP header to step 6: no later fragment, and a protocol of Table 5.1. -/
def Walk.walksOn (w : Walk) : Bool := !w.flags.testBit 10 && (w.proto = 6 || w.proto = 17 || w.proto = 1 || w.proto = 58)

/-- Step 6: TCP, UDP, ICMP and ICMPv6 (Table 5.1). -/
def ParseIn.layer4 (v : ParseIn) (w : Walk) (off : Nat) : Walk :=
  let need := if w.proto = 6 then 20 else if w.proto = 17 then 8 else 4
  if !w.walksOn then w
  else if !v.reach off need then w.flag (v.endFlags off need)
  else if w.proto = 6 then
    { w.flag 128 with sport := be16 v.octets off, dport := be16 v.octets (off + 2), tcp := octet v.octets (off + 13) }
  else if w.proto = 17 then { w.flag 64 with sport := be16 v.octets off, dport := be16 v.octets (off + 2) }
  else { w.flag 32 with sport := be16 v.octets off }

/-- Step 5, IPv4. -/
def ParseIn.ipv4 (v : ParseIn) (w : Walk) : Walk :=
  let o := v.octets
  let p := w.pos
  if !v.reach p 20 then w.flag (v.endFlags p 20)
  else if octet o p / 16 ≠ 4 then w
  else
    let ihl := octet o p % 16
    let frag := be16 o (p + 6)
    let fl := 8192 + (if frag % 16384 ≠ 0 then 2048 else 0) + (if frag % 8192 ≠ 0 then 1024 else 0)
      + (if 5 < ihl then 512 else 0)
    let w1 := { w.flag fl with
      ktype := 1, dscp := octet o (p + 1) / 4, proto := octet o (p + 9), src := beN o (p + 12) 4, dst := beN o (p + 16) 4,
      ipLen := some (be16 o (p + 2)) }
    if ihl < 5 then w1.flag 8
    else
      let w2 := { w1 with l4 := some (p + 4 * ihl) }
      if !v.reach p (4 * ihl) then (if w2.walksOn then w2.flag (v.endFlags p (4 * ihl)) else w2) else v.layer4 w2 (p + 4 * ihl)

/-- The IPv6 extension headers, `k` of them walked so far (Table 5.1, step 5). DESIGN CHOICE (log entry 109): a Fragment header that the walk does not
pass, the third, sets no FRAG. -/
def ParseIn.ipv6Ext (v : ParseIn) : Nat → Walk → Nat → Nat → Walk
  | fuel, w, off, k =>
    let nh := w.proto
    let w := { w with l4 := some off }
    if nh = 0 ∨ nh = 43 ∨ nh = 44 ∨ nh = 60 then
      match fuel with
      | 0 => w.flag 4
      | fuel + 1 =>
        let n := if nh = 44 ∨ !v.reach off 2 then 8 else 8 * (octet v.octets (off + 1) + 1)
        if !v.reach off n then w.flag (v.endFlags off n)
        else
          let fo := be16 v.octets (off + 2) / 8
          let fl := 256 + (if nh = 44 then 2048 + (if fo ≠ 0 then 1024 else 0) else 0)
          let w1 := { w.flag fl with
            proto := octet v.octets off,
            word2 := setField (setField w.word2 (if k = 0 then 100 else 92) 8 nh) 90 2 (k + 1) }
          v.ipv6Ext fuel w1 (off + n) (k + 1)
    else if nh = 135 ∨ nh = 139 ∨ nh = 140 ∨ nh = 253 ∨ nh = 254 then w.flag 4
    else v.layer4 w off

/-- Step 5, IPv6. -/
def ParseIn.ipv6 (v : ParseIn) (w : Walk) : Walk :=
  let o := v.octets
  let p := w.pos
  if !v.reach p 40 then w.flag (v.endFlags p 40)
  else if octet o p / 16 ≠ 6 then w
  else
    let w1 := { w.flag 4096 with
      ktype := 2, dscp := field (be16 o p) 6 6, proto := octet o (p + 6), src := beN o (p + 8) 4, dst := beN o (p + 24) 4,
      ipLen := some (be16 o (p + 4) + 40),
      word2 := beN o (p + 12) 12 * 2 ^ 224 + beN o (p + 28) 12 * 2 ^ 128 + (beN o (p + 1) 3 % 2 ^ 20) * 2 ^ 108
        + octet o (p + 7) * 2 ^ 82 }
    v.ipv6Ext 2 w1 (p + 40) 0

/-- Step 5, ARP. -/
def ParseIn.arp (v : ParseIn) (w : Walk) : Walk :=
  let o := v.octets
  let p := w.pos
  if !v.reach p 28 then w.flag (v.endFlags p 28)
  else if be16 o p ≠ 1 ∨ be16 o (p + 2) ≠ 0x0800 then w
  else { w with ktype := 3, proto := octet o (p + 7), src := beN o (p + 14) 4, dst := beN o (p + 24) 4 }

/-- Step 5 by the type after the last tag. -/
def ParseIn.layer3 (v : ParseIn) (w : Walk) : Walk :=
  if w.etype = 0x0800 then v.ipv4 w
  else if w.etype = 0x86DD then v.ipv6 w
  else if w.etype = 0x0806 then v.arp w
  else w

/-- A VLAN tag's TPID. -/
def isTpid (t : Nat) : Bool := t = 0x8100 || t = 0x88A8

/-- Steps 3 and 4: the tags, then step 5. -/
def ParseIn.tags (v : ParseIn) (w : Walk) : Walk :=
  let o := v.octets
  if isTpid w.etype then
    if !v.reach w.pos 4 then w.flag (v.endFlags w.pos 4)
    else
      let w1 := { w.flag 32768 with outer := some (be16 o w.pos), etype := be16 o (w.pos + 2), pos := w.pos + 4 }
      if isTpid w1.etype then
        if !v.reach w1.pos 4 then w1.flag (v.endFlags w1.pos 4)
        else
          let w2 := { w1.flag 16384 with inner := some (be16 o w1.pos), etype := be16 o (w1.pos + 2), pos := w1.pos + 4 }
          if isTpid w2.etype then w2.flag 4 else v.layer3 w2
      else v.layer3 w1
  else v.layer3 w

/-- The offset of the Ethernet header. -/
def ParseIn.base (v : ParseIn) : Nat := if v.fabric then 12 else 0

/-- The whole walk (Table 5.1). -/
def ParseIn.walk (v : ParseIn) : Walk :=
  let p := v.base
  let w0 : Walk := ⟨p, none, none, 0, 0, 0, 0, 0, 0, 0, if v.fabric then 16 else 0, 0, 0, 0, none, none⟩
  if !v.reach p 14 then w0.flag (v.endFlags p 14)
  else
    let da := beN v.octets p 6
    let fl := (if da.testBit 40 then 2 else 0) + (if v.station ≠ 0 ∧ da = v.station then 1 else 0)
    v.tags { w0.flag fl with etype := be16 v.octets (p + 12), pos := p + 14 }

/-- A user field and its USER_VALID bit (R125). -/
def ParseIn.userField (v : ParseIn) (w : Walk) (cfg : Nat) : Option Nat :=
  let off := cfg % 128
  let at? : Option Nat := match field cfg 8 2 with
    | 0 => some (v.base + off)
    | 1 => some (w.pos + off)
    | 2 => w.l4.map (· + off)
    | _ => if v.fabric then some off else none
  match at? with
  | some a => if v.reach a 4 then some (beN v.octets a 4) else none
  | none => none

/-- LEN (R126). -/
def ParseIn.len (v : ParseIn) (w : Walk) : Nat :=
  min 0xFFFF (match v.descLen with
    | some n => n
    | none =>
      if v.ended ∧ v.octets.length ≤ 128 then v.octets.length - v.base
      else match w.ipLen with
        | some n => n + (w.pos - v.base) + 4
        | none => 0xFFFF)

/-- The key of a frame (R124). -/
def ParseIn.parse (v : ParseIn) : Key :=
  let w := v.walk
  let us := v.offsets.map (v.userField w)
  let user (i : Nat) : Nat := ((us.getD i none).getD 0) * 2 ^ (96 - 32 * i)
  let valid (i : Nat) : Nat := if (us.getD i none).isSome then 2 ^ (131 - i) else 0
  let word1 := v.ing * 2 ^ 313 + (w.outer.getD 0 / 8192) * 2 ^ 310 + (w.outer.getD 0 % 4096) * 2 ^ 298 + w.etype * 2 ^ 282
    + w.proto * 2 ^ 274 + w.src * 2 ^ 242 + w.dst * 2 ^ 210 + w.sport * 2 ^ 194 + w.dport * 2 ^ 178 + w.dscp * 2 ^ 172
    + w.flags * 2 ^ 156 + (w.inner.getD 0 % 4096) * 2 ^ 144 + w.tcp * 2 ^ 136 + w.ktype * 2 ^ 132
    + valid 0 + valid 1 + valid 2 + valid 3 + user 0 + user 1 + user 2 + user 3
  ⟨word1, w.word2, w.ktype = 2, v.len w, v.base, w.pos, w.l4⟩

/-- Fields of a key's first word (Table 5.2). -/
def Key.ingEp (k : Key) : Nat := field k.word1 313 7
def Key.pcp (k : Key) : Nat := field k.word1 310 3
def Key.vid (k : Key) : Nat := field k.word1 298 12
def Key.etype (k : Key) : Nat := field k.word1 282 16
def Key.proto (k : Key) : Nat := field k.word1 274 8
def Key.src (k : Key) : Nat := field k.word1 242 32
def Key.dst (k : Key) : Nat := field k.word1 210 32
def Key.sport (k : Key) : Nat := field k.word1 194 16
def Key.dport (k : Key) : Nat := field k.word1 178 16
def Key.dscp (k : Key) : Nat := field k.word1 172 6
def Key.flags (k : Key) : Nat := field k.word1 156 16
def Key.ktype (k : Key) : Nat := field k.word1 132 4
def Key.tagged (k : Key) : Bool := k.flags.testBit 15
def Key.frag (k : Key) : Bool := k.flags.testBit 11
def Key.laterFrag (k : Key) : Bool := k.flags.testBit 10
def Key.isTcp (k : Key) : Bool := k.flags.testBit 7
def Key.isUdp (k : Key) : Bool := k.flags.testBit 6

/-- The full source and destination addresses (R143). -/
def Key.fullSrc (k : Key) : Nat := if k.two then k.src * 2 ^ 96 + field k.word2 224 96 else k.src
def Key.fullDst (k : Key) : Nat := if k.two then k.dst * 2 ^ 96 + field k.word2 128 96 else k.dst

/-- The flow hash H of an IP frame (R143). -/
def flowHash (seed : Nat) (k : Key) : Nat :=
  let n := if k.two then 16 else 4
  let sp := if k.laterFrag then 0 else k.sport
  let dp := if k.laterFrag then 0 else k.dport
  crcFrom crc32c (0xFFFFFFFF ^^^ seed)
    (toMsb 1 k.ingEp ++ toMsb 1 k.proto ++ toMsb n k.fullSrc ++ toMsb n k.fullDst ++ toMsb 2 sp ++ toMsb 2 dp)

/-- The symmetric hash H_sym (R147); `octets` are the frame's. -/
def symHash (k : Key) (octets : List Octet) : Nat :=
  if k.ktype = 1 ∨ k.ktype = 2 then
    let n := if k.two then 16 else 4
    let ports := (k.isTcp || k.isUdp) && !k.frag
    let sp := if ports then k.sport else 0
    let dp := if ports then k.dport else 0
    crc crc32c (toMsb n (min k.fullSrc k.fullDst) ++ toMsb n (max k.fullSrc k.fullDst) ++ toMsb 2 (min sp dp)
      ++ toMsb 2 (max sp dp) ++ toMsb 1 k.proto)
  else
    let da := beN octets k.l2 6
    let sa := beN octets (k.l2 + 6) 6
    crc crc32c (toMsb 6 (min da sa) ++ toMsb 6 (max da sa) ++ toMsb 2 k.etype)

end Sys2Proof.Machine
end

