-- ==== Sys2Proof/Machine/Classify.lean ====
section
/-! DEFINITION. The decision of a frame (R128 to R148, R264, R297, R299, R300): Legend and Contour searches, the merge, the flow
probe, the policer's colour, the queue, and the endpoints of the copies. -/
namespace Sys2Proof.Machine

/-- The listed entries of a table, as (index, value). -/
def State.listed (s : State) (u i : Nat) : List (Nat × Nat) :=
  s.tab.filterMap (fun e => if e.1.unit = u ∧ e.1.idx = i then some (e.1.entry, e.2) else none)

/-- The lowest index in a list. -/
def lowest : List Nat → Option Nat
  | [] => none
  | a :: t => some (t.foldl min a)

/-- Fields of a Legend entry (Table 5.6). -/
def legValue (e : Nat) : Nat := field e 0 320
def legMask (e : Nat) : Nat := field e 320 320
def legChain (e : Nat) : Bool := e.testBit 642
def legCurrent (e : Nat) : Bool := e.testBit 641
def legNext (e : Nat) : Bool := e.testBit 640

/-- Every key bit whose mask bit is 1 equals the value bit (R128). -/
def maskMatch (e word : Nat) : Bool := (word ^^^ legValue e) &&& legMask e = 0

/-- Legend entry `i` is the tail of a pair (R129). -/
def State.isTail (s : State) (i : Nat) : Bool := i % 2 = 1 && legChain (s.ent 0x006 0x6000 (i - 1))

/-- Legend entry `i`, with value `e`, matches a key (R128, R129). An entry whose shadow is lost is in no edition (R139). -/
def State.legendMatches (s : State) (k : Key) (i e : Nat) : Bool :=
  legCurrent e && !s.isTail i && !s.shadowBad.contains i
    && (if legChain e then k.two && maskMatch e k.word1 && maskMatch (s.ent 0x006 0x6000 (i + 1)) k.word2
        else maskMatch e k.word1)

/-- The candidate that matches with the lowest index (R128). -/
def State.legend (s : State) (k : Key) : Option Nat :=
  lowest ((s.listed 0x006 0x6000).filterMap (fun p => if s.legendMatches k p.1 p.2 then some p.1 else none))

/-- A field of the Contour menu as field A or field B, `none` where it is always satisfied (Table 5.10). -/
def menuField (k : Key) (code : Nat) (asB : Bool) : Option Nat :=
  match code with
  | 0x1 => some k.src
  | 0x2 => some k.dst
  | 0x3 => some k.sport
  | 0x4 => some k.dport
  | 0x5 => some k.len
  | 0x6 => some k.vid
  | 0x7 => some k.dscp
  | 0x8 => some (if asB then field k.word1 112 16 else field k.word1 96 32)
  | 0x9 => some (if asB then field k.word1 80 16 else field k.word1 64 32)
  | 0xA => some (if asB then field k.word1 48 16 else field k.word1 32 32)
  | 0xB => some (if asB then field k.word1 16 16 else field k.word1 0 32)
  | 0xC => some k.ingEp
  | 0xD => some k.proto
  | _ => none

/-- A field lies in a range, or is always satisfied (R140). -/
def inRange (v : Option Nat) (lo hi : Nat) : Bool :=
  match v with
  | some x => lo ≤ x && x ≤ hi
  | none => true

/-- Contour entry `i`, with value `e`, matches a key (R140, R149). -/
def State.contourMatches (s : State) (k : Key) (i e : Nat) : Bool :=
  e.testBit 1 && !s.eccBad.contains (false, i)
    && inRange (menuField k (field e 60 4) false) (field e 96 32) (field e 64 32)
    && inRange (menuField k (field e 56 4) true) (field e 176 16) (field e 160 16)

/-- The Contour result: the winning entry and TIE (R140). -/
def State.contour (s : State) (k : Key) : Option (Nat × Bool) :=
  let ms := (s.listed 0x007 0x6000).filter (fun p => s.contourMatches k p.1 p.2)
  let top := (ms.map (fun p => field p.2 48 8)).foldl max 0
  let best := (ms.filter (fun p => field p.2 48 8 = top)).map Prod.fst
  (lowest best).map (fun i => (i, 1 < best.length))

/-- Fields of an action (Table 5.7). -/
def actDest (a : Nat) : Nat := field a 61 3
def actTarget (a : Nat) : Nat := field a 53 8
def actDefer (a : Nat) : Bool := a.testBit 52
def actFlow (a : Nat) : Nat := field a 50 2
def actPolicer (a : Nat) : Nat := field a 39 11
def actQueue (a : Nat) : Nat := field a 28 11
def actSpan (a : Nat) : Nat := field a 24 4
def actClass (a : Nat) : Nat := field a 21 3
def actSetClass (a : Nat) : Bool := a.testBit 20
def actGuard (a : Nat) : Nat := field a 15 5
def actTstamp (a : Nat) : Nat := field a 13 2
def actMirrorEp (a : Nat) : Nat := field a 6 7
def actMirrorEn (a : Nat) : Bool := a.testBit 5
def actCount (a : Nat) : Bool := a.testBit 4

/-- The merge rule (Table 5.12): the deciding entry, and whether the Contour result carried TIE. -/
def State.merge (s : State) (k : Key) : Decider × Bool :=
  let c := s.contour k
  let tie := match c with | some (_, t) => t | none => false
  match s.legend k, c with
  | some i, some (j, _) => (if actDefer (s.ent 0x006 0x6002 i) then .contour j else .legend i, tie)
  | some i, none => (.legend i, tie)
  | none, some (j, _) => (.contour j, tie)
  | none, none => (.miss, tie)

/-- The action of the deciding entry, from the current bank. -/
def State.actionOf (s : State) : Decider → Nat
  | .legend i => s.ent 0x006 0x6002 i
  | .contour j => s.ent 0x007 0x6002 j
  | .miss => s.rd 0x006 0x1001 0
  | .transit => 0

/-- `legend.edition` (R134). -/
def State.edition (s : State) : Nat := s.rd 0x006 0x5000 0

/-- The buckets of a flow hash (R143). -/
def flowBuckets (b : Build) (h : Nat) : Nat × Nat :=
  let a := h % 2 ^ b.bucketBits
  let c := field h b.bucketBits b.bucketBits
  (a, if c = a then a ^^^ 1 else c)

/-- A way of the flow table is an odd way that an IPv6 pair occupies. -/
def State.pairOdd (s : State) (i : Nat) : Bool :=
  i % 2 = 1 && (s.ent 0x008 0x6000 (i - 1)).testBit 255 && (s.ent 0x008 0x6000 (i - 1)).testBit 254

/-- Way `i` holds the flow of a key (R143, Table 5.13). -/
def State.flowHolds (s : State) (k : Key) (i : Nat) : Bool :=
  let e := s.ent 0x008 0x6000 i
  let sp := if k.laterFrag then 0 else k.sport
  let dp := if k.laterFrag then 0 else k.dport
  e.testBit 255 && !s.pairOdd i && e.testBit 254 = k.two && field e 245 7 = k.ingEp && field e 237 8 = k.proto
    && field e 157 16 = sp && field e 141 16 = dp
    && (if k.two then s.ent 0x008 0x6000 (i + 1) = k.fullSrc * 2 ^ 128 + k.fullDst
        else field e 205 32 = k.src && field e 173 32 = k.dst)

/-- The ways of two buckets, A first. -/
def bucketWays (a b : Nat) : List Nat :=
  [4 * a, 4 * a + 1, 4 * a + 2, 4 * a + 3, 4 * b, 4 * b + 1, 4 * b + 2, 4 * b + 3]

/-- The flow probe (R143). -/
def State.flowProbe (s : State) (k : Key) (a b : Nat) : Option Nat :=
  if k.ktype = 1 ∨ k.ktype = 2 then (bucketWays a b).find? (fun i => s.flowHolds k i) else none

/-- A policer's level in 1/65,536 byte, held as its distance below the burst size. -/
def State.levelC (s : State) (n : Nat) : Int := (s.entField 0x008 0x6001 n 128 32 : Int) * 65536 - s.reg (.bucketC n)
def State.levelP (s : State) (n : Nat) : Int := (s.entField 0x008 0x6001 n 160 32 : Int) * 65536 - s.reg (.bucketP n)

/-- The colour of a frame of length `len`, entering yellow or green, at policer `n` (R148; the tests of RFC 2698 and
RFC 4115). 0 green, 1 yellow, 2 red. -/
def State.colourOf (s : State) (n len : Nat) (dei : Bool) : Nat :=
  let e := s.ent 0x008 0x6001 n
  let yellowIn := e.testBit 61 && dei
  let l : Int := len * 65536
  match field e 62 2 with
  | 1 => if s.levelP n < l then 2 else if yellowIn ∨ s.levelC n < l then 1 else 0
  | 2 => if !yellowIn ∧ l ≤ s.levelC n then 0 else if l ≤ s.levelP n then 1 else 2
  | _ => 0

/-- The colour action of a colour at policer `n` (Table 5.14). -/
def State.colourActOf (s : State) (n colour : Nat) : Nat :=
  field (s.ent 0x008 0x6001 n) (if colour = 0 then 59 else if colour = 1 then 57 else 55) 2

/-- The channel of a fabric link (R294): a lane with role FABRIC that is UP, with the fabric enabled; copies for it are fabric copies (R297). -/
def State.fabricCh (s : State) (ch : Nat) : Bool :=
  s.isChannel ch && ch % 4 = 0 && s.rd (lnUnit (laneOf ch)) 0x1005 0 = 1 && s.rd 0x00D 0x1000 0 = 1
    && s.rd (lnUnit (laneOf ch)) 0x5000 0 = 5

/-- The next-hop channel of a destination for a flow hash (R299), `none` where there is no valid route. -/
def State.nextHop (s : State) (dst fhash : Nat) : Option Nat :=
  let e := s.ent 0x00D 0x6001 dst
  let n := field e 60 3
  if dst = 0 ∨ e.testBit 63 = false ∨ n = 0 then none else some (field e (49 - 7 * (fhash % n)) 7)

/-- DST of a copy bound for a fabric channel (R297). -/
def State.fabricDst (s : State) (ch : Nat) : Nat :=
  let d := s.rd 0x00D 0x1005 (laneOf ch)
  if d = 0 then s.entField 0x00D 0x6000 (laneOf ch) 48 8 else d

/-- The copy bound for an endpoint: itself, or a fabric copy on its next hop; `none` where it has no route (R297). -/
def State.targetOf (s : State) (ep : Nat) (mirror : Bool) (fhash : Nat) : Option Target :=
  if s.fabricCh ep then
    if s.rd 0x00D 0x5002 0 = 0 then none
    else (s.nextHop (s.fabricDst ep) fhash).map (fun x => ⟨x, some (s.fabricDst ep), mirror⟩)
  else some ⟨ep, none, mirror⟩

/-- The copies dropped for want of a route (R297): one for each DST without a route that the endpoints name. -/
def State.noRoutes (s : State) (eps : List Nat) (fhash : Nat) : Nat :=
  ((eps.filter (fun e => (s.targetOf e false fhash).isNone)).map s.fabricDst).eraseDups.length

/-- The endpoints of an endpoint set, without the ingress endpoint (R133). -/
def State.setMembers (s : State) (i ing : Nat) : List Nat :=
  (List.range 67).filter (fun ep => (s.ent 0x006 0x6004 i).testBit ep && epPresent s.build ep && ep ≠ ing)

/-- Copies of one frame with the same DST are merged into one (R297). -/
def mergeDst : List Target → List Target
  | [] => []
  | t :: r => t :: (mergeDst r).filter (fun x => t.dst = none ∨ x.dst ≠ t.dst)

/-- The action of a host frame with DIRECT set (R236), from its descriptor's second word. -/
def directAction (a word1 : Nat) : Nat :=
  if word1.testBit 38 then
    setField (setField (setField (setField (setField a 61 3 1) 53 8 (field word1 31 7)) 20 1 1) 21 3 (field word1 28 3)) 5 1 0
  else a

/-- The decision of a classified frame on the state in force (R127, R142 to R148, R236, R264, R297). `len` is the length
that the policer tests. -/
def State.decideFrame (s : State) (f : Frame) (k : Key) (len : Nat) : Decision :=
  let ip : Bool := k.ktype = 1 ∨ k.ktype = 2
  let (d, tie) := s.merge k
  let a := match f.desc with
    | some t => directAction (s.actionOf d) t.word1
    | none => s.actionOf d
  let h := if ip then flowHash (s.rd 0x008 0x1001 0) k else 0
  let hs := symHash k f.octets
  let (ba, bb) := flowBuckets s.build h
  let hit := if actFlow a = 1 ∨ actFlow a = 2 then s.flowProbe k ba bb else none
  let pol := match hit with
    | some i => let e := s.ent 0x008 0x6000 i
                if e.testBit 252 || (e.testBit 253 && field e 7 16 = s.edition) then some e else none
    | none => none
  let policer := match pol with | some e => field e 130 11 | none => actPolicer a
  let queue := match pol with
    | some e => field e 119 11
    | none => actQueue a + field hs 8 11 % 2 ^ actSpan a
  let dei := k.tagged && (octet f.octets (k.l2 + 14)).testBit 4
  let colour := if policer = 0 then 0 else s.colourOf (policer - 1) len dei
  let act := if policer = 0 then 0 else s.colourActOf (policer - 1) colour
  let fh := field hs 24 8
  let eps := match actDest a with
    | 1 => [actTarget a]
    | 2 => s.setMembers (actTarget a) f.ing
    | _ => []
  let mir := if actMirrorEn a ∧ actMirrorEp a ≠ Config.hostEp then [actMirrorEp a] else []
  let ts := eps.map (fun e => s.targetOf e false fh) ++ mir.map (fun e => s.targetOf e true fh)
  let rings := (match actDest a with
      | 3 => [(actTarget a, false)]
      | 4 => [(s.ent 0x008 (0x6010 + actTarget a % 4) (hs % 256), false)]
      | _ => [])
    ++ (if actMirrorEn a ∧ actMirrorEp a = Config.hostEp then [(s.rd 0x006 0x1002 0, true)] else [])
  let prof := actGuard a
  ⟨d, a, tie, s.edition, h, hs, ba, bb, policer, queue, colour, act,
    if actSetClass a then actClass a else if k.tagged then k.pcp else 0,
    if 1 ≤ prof ∧ prof ≤ 16 then prof else 0,
    if 1 ≤ prof ∧ prof ≤ 16 then s.ent 0x00B 0x6000 (prof - 1) else 0,
    mergeDst (ts.filterMap id), rings, s.noRoutes (eps ++ mir) fh, false, []⟩

/-- Fields of a fabric header (Table 13.1), from the octets of a frame on a fabric link. -/
def fabType (o : List Octet) : Nat := octet o 0 % 16
def fabDst (o : List Octet) : Nat := octet o 1
def fabSrc (o : List Octet) : Nat := octet o 2
def fabClass (o : List Octet) : Nat := octet o 4 / 32
def fabLevel (o : List Octet) : Nat := octet o 4 / 8 % 4
def fabHop (o : List Octet) : Nat := octet o 5
def fabRef (o : List Octet) : Nat := octet o 6
def fabGen (o : List Octet) : Nat := be16 o 8
def fabHash (o : List Octet) : Nat := octet o 10

/-- The decision of a transit frame, from its header alone (R300). -/
def State.decideTransit (s : State) (f : Frame) : Decision :=
  let hop := s.nextHop (fabDst f.octets) (fabHash f.octets)
  ⟨.transit, 0, false, s.edition, 0, fabHash f.octets * 2 ^ 24, 0, 0, 0, 0, 0, 0, fabClass f.octets, 0, 0,
    (match hop with | some x => [⟨x, some (fabDst f.octets), (octet f.octets 7).testBit 7⟩] | none => []), [],
    (if hop.isNone then 1 else 0), false, []⟩

/-- A frame on a fabric link is transit: addressed to another device (Table 13.2). -/
def State.isTransit (s : State) (f : Frame) : Bool :=
  f.onFabric && fabType f.octets ≤ 2 && fabDst f.octets ≠ 0 && fabDst f.octets ≠ s.rd 0x00D 0x5002 0

/-- The frame's decision names a GUARDED profile with FAIL_ACT DROP (R271). -/
def guardDrops (f : Frame) : Bool :=
  match f.decision with
  | some d => d.profNo ≠ 0 && field d.profile 62 2 = 1 && !d.profile.testBit 57
  | none => false

/-- The decision of a frame and the state in which the free value it may need has been taken: while the length of a frame
is not known, the length its policer tests is free (log entry 9). -/
def State.decide (s : State) (f : Frame) (k : Key) : Decision × State :=
  if s.isTransit f then (s.decideTransit f, s)
  else if f.ended then (s.decideFrame f k f.len, s)
  else (s.decideFrame f k (Config.policedLength s.free).toNat, { s with free := s.free + 1 })

end Sys2Proof.Machine
end

