-- ==== Sys2Proof/Machine/Frames.lean ====
section
/-! DEFINITION. What frames hold and how they leave: buffer cells and accounts (R109 to R113, R151, R152), XOFF and the generated
pause messages (R113, R116, R117), the release of frames and copies, undo (R106, R107), withdrawal of choices (R176). -/
namespace Sys2Proof.Machine

/-- The bit of a statistics counter in `half_range` (Tables 17.2 and 17.3): its place in table order. -/
def statBit (u i : Nat) : Nat :=
  if i < 0x8010 then i - 0x8000 else i - 0x8010 + (if u < 0x540 then 11 else 3)

/-- A statistics counter plus `n`; a change of its bit 63 sets its bit in `half_range` and latches HALF_RANGE (R379). -/
def State.stat (s : State) (u i k n : Nat) : State :=
  let s1 := s.bump u i k n
  if (s.rd u i k).testBit 63 = (s1.rd u i k).testBit 63 then s1
  else (s1.wr u 0x5000 0 (setBit (s1.rd u 0x5000 0) (statBit u i) true)).latch u 16

/-- The size bucket of a length (Table 17.1). -/
def sizeBucket (n : Nat) : Nat :=
  if n ≤ 64 then 0 else if n ≤ 127 then 1 else if n ≤ 255 then 2 else if n ≤ 511 then 3 else if n ≤ 1023 then 4
  else if n ≤ 1518 then 5 else if n ≤ 2047 then 6 else if n ≤ 4095 then 7 else if n ≤ 9216 then 8 else 9

/-- The type of a frame by its destination address (R377): 0 unicast, 1 multicast, 2 broadcast. -/
def addrType (l : List Octet) : Nat :=
  if beN l 0 6 = 0xFFFFFFFFFFFF then 2 else if octet l 0 % 2 = 1 then 1 else 0

/-- A frame counted in a channel's block (R376, R377): `base` is 0x8000 for receive, 0x8010 for transmit; `ty` is 3 for
`fabric_ctrl`. -/
def State.statFrame (s : State) (u base len ty : Nat) (tagged : Bool) : State :=
  let s1 := (((s.stat u base 0 1).stat u (base + 1) 0 len).stat u (base + 2) (sizeBucket len) 1).stat u (base + 3 + ty) 0 1
  if tagged then s1.stat u (base + 7) 0 1 else s1

/-- A frame counted in an air link's block (R376): `base` is 0x8000 for receive, 0x8010 for transmit. -/
def State.statAir (s : State) (u base len : Nat) : State :=
  ((s.stat u base 0 1).stat u (base + 1) 0 len).stat u (base + 2) (sizeBucket len) 1

/-- The account sub-index of a channel's frame at its first cell (R109, R111): 0, or priority plus 1 in PFC mode. -/
def State.accountAt (s : State) (ch : Nat) (inner : List Octet) : Nat :=
  if s.rd (chUnit ch) 0x1010 0 = 2 then
    (if isTpid (be16 inner 12) then octet inner 14 / 32 else s.rd (chUnit ch) 0x1013 0) + 1
  else 0

/-- Cells charged to account `k` of channel `ch` (R111). -/
def State.occupancy (s : State) (ch k : Nat) : Nat :=
  ((s.frames.filter (fun f => f.ing = ch && f.account = some k)).map Frame.cells).sum

/-- Cells charged to the account of an endpoint that has one account: an air link or the host port (R152). -/
def State.epOccupancy (s : State) (ep : Nat) : Nat := ((s.frames.filter (fun f => f.ing = ep)).map Frame.cells).sum

/-- `buffer.free_cells` (Table 6.1). -/
def State.freeCells (s : State) : Nat := s.build.cells - (s.frames.map Frame.cells).sum - s.regN .atlasCells

/-- `buffer.stubs_free` (Table 6.1). -/
def State.stubsFree (s : State) : Nat := s.build.stubs - (s.frames.filter (fun f => f.stub.isSome)).length

/-- REFCOUNT of a template (R156). -/
def State.refCount (s : State) (t : Nat) : Nat := (s.frames.filter (fun f => f.stub.any (fun w => field w 119 9 = t))).length

/-- The account has headroom (R109). -/
def State.hasHeadroom (s : State) (ch k : Nat) : Bool :=
  match s.rd (chUnit ch) 0x1010 0 with
  | 1 => k = 0
  | 2 => 0 < k && (s.rd (chUnit ch) 0x1011 0).testBit (k - 1)
  | _ => false

/-- The limit of an account (R112). -/
def State.limitOf (s : State) (ch k : Nat) : Nat :=
  s.rd (chUnit ch) 0x1014 k + (if s.hasHeadroom ch k then s.rd (chUnit ch) 0x1015 k else 0)

/-- The high and low marks (R113). -/
def State.highMark (s : State) (ch k : Nat) : Nat := min (s.rd (chUnit ch) 0x1016 k) (s.rd (chUnit ch) 0x1014 k)
def State.lowMark (s : State) (ch k : Nat) : Nat := s.highMark ch k - s.rd (chUnit ch) 0x1017 k

/-- The bit of an account in `xoff_state` and `pause_active` (Table 4.3). -/
def accountBit (k : Nat) : Nat := if k = 0 then 8 else k - 1

def State.inXoff (s : State) (ch k : Nat) : Bool := (s.rd (chUnit ch) 0x5012 0).testBit (accountBit k)
def State.pauseActive (s : State) (ch k : Nat) : Bool := (s.rd (chUnit ch) 0x5013 0).testBit (accountBit k)

/-- The lane of a channel is UP (Table 3.8). -/
def State.laneUp (s : State) (lane : Nat) : Bool := s.rd (lnUnit lane) 0x5000 0 = 5
def State.chEnabled (s : State) (ch : Nat) : Bool := s.isChannel ch && s.rd (chUnit ch) 0x1000 0 = 1
def State.chUp (s : State) (ch : Nat) : Bool := s.chEnabled ch && s.laneUp (laneOf ch)

/-- The speed of a channel in units of 10 Mb/s, 0 for none (Table 3.6): 10M 1, 100M 10, 1G 100, 2.5G 250, 5G 500, 6.25G 625,
10G 1,000, 25G 2,500. -/
def speedOf (code : Nat) : Nat :=
  match code with
  | 1 => 1 | 2 => 10 | 3 => 100 | 4 => 250 | 5 => 500 | 6 => 625 | 7 => 1000 | 8 => 2500 | _ => 0

/-- `speed` of a channel: Table 3.6, by its lane's mode and replication. -/
def State.speedCode (s : State) (ch : Nat) : Nat :=
  if !s.chEnabled ch then 0
  else match s.rd (lnUnit (laneOf ch)) 0x1000 0 with
    | 1 => match s.rd (lnUnit (laneOf ch)) 0x1004 0 with | 1 => 2 | 2 => 1 | _ => 3
    | 2 => 4 | 3 => 5 | 4 => 7 | 5 => 8 | 6 => 4 | 7 => 6 | _ => 0

def State.speed (s : State) (ch : Nat) : Nat := speedOf (s.speedCode ch)

/-- A pause duration in ticks: ceil(t × 512 ÷ (R × 160 ns)), R the channel speed (R117). R × 160 ns is 1.6 bits for each
10 Mb/s. -/
def pauseTicks (t speed : Nat) : Nat := if speed = 0 then 0 else ceilDiv (t * 512 * 10) (16 * speed)

/-- The duration D of the messages the channel sends (R117). -/
def State.pauseD (s : State) (ch : Nat) : Nat := pauseTicks (s.rd (chUnit ch) 0x1012 0) (s.speed ch)

/-- An XOFF message of an account is queued: its refresh timer starts at the next boundary (R117), one tick more than its length
now. -/
def State.armRefresh (s : State) (ch k : Nat) : State :=
  if s.chUp ch then s.startTimer (.refresh ch k) (max 1 (4 * s.pauseD ch / 5) + 1) else s

/-- A pause message of channel `ch` becomes due: one generated frame waits for each channel; its contents are taken when it
starts (R116). -/
def State.queuePause (s : State) (ch : Nat) : State :=
  if s.genQ.contains (.pause ch) || !s.chUp ch then s else { s with genQ := s.genQ ++ [.pause ch] }

/-- The account has a message to send: XOFF, or the end of a pause that is active (R116). -/
def State.messageDue (s : State) (ch k : Nat) : Bool := s.reg (.pauseDue ch k) = 1

/-- XOFF entered or left where the occupancy of an account says so (R113, R116). -/
def State.checkXoff (s : State) (ch k : Nat) : State :=
  let occ := s.occupancy ch k
  let x := s.rd (chUnit ch) 0x5012 0
  if !s.hasHeadroom ch k then s
  else if !s.inXoff ch k ∧ s.highMark ch k ≤ occ ∧ s.lowMark ch k < occ then
    (((s.wr (chUnit ch) 0x5012 0 (setBit x (accountBit k) true)).setReg (.pauseDue ch k) 1).queuePause ch).armRefresh ch k
  else if s.inXoff ch k ∧ occ ≤ s.lowMark ch k then
    let s1 := (s.wr (chUnit ch) 0x5012 0 (setBit x (accountBit k) false)).stopTimer (.refresh ch k)
    if s.pauseActive ch k then (s1.setReg (.pauseDue ch k) 1).queuePause ch else s1.setReg (.pauseDue ch k) 0
  else s

/-- The occupancy of a frame's account has changed: the peak and XOFF follow (R109, R113). -/
def State.charged (s : State) (f : Frame) : State :=
  match f.account with
  | some k =>
    if s.isChannel f.ing then
      let s1 := s.wr (chUnit f.ing) 0x5011 k (max (s.rd (chUnit f.ing) 0x5011 k) (s.occupancy f.ing k))
      s1.checkXoff f.ing k
    else s
  | none => s

/-- The accounts that `pause_mode` gives a channel with flow control (R109). -/
def State.flowAccounts (s : State) (ch : Nat) : List Nat :=
  match s.rd (chUnit ch) 0x1010 0 with
  | 1 => [0]
  | 2 => [1, 2, 3, 4, 5, 6, 7, 8]
  | _ => []

/-- The copies of a frame. -/
def State.copiesOf (s : State) (id : Nat) : List Copy := s.copies.filter (fun c => c.frame = id)

/-- `legend.inflight` of a tag (R40): frames in flight under it, those held only for a fold resend apart. -/
def State.inflight (s : State) (t : Nat) : Nat :=
  (s.frames.filter (fun f => match f.tag with | some e => e % 2 = t | none => false)).length

/-- The drain of the old edition ends when no frame of its tag is in flight (Table 5.8, cause EDITION_STEADY). -/
def State.drainCheck (s : State) : State :=
  if s.rd 0x006 0x5001 0 = 2 ∧ s.inflight ((s.edition + 1) % 2) = 0 then (s.wr 0x006 0x5001 0 0).raise causeEditionSteady
  else s

/-- A flush-pending template whose REFCOUNT is 0 becomes not VALID (R158). VALUE octets 0–63, the flags in octets 64–71. -/
def State.templateCheck (s : State) (t : Nat) : State :=
  if (s.ent 0x009 0x6000 t).testBit 574 ∧ s.refCount t = 0 then
    s.setEnt 0x009 0x6000 t (setBit (setBit (s.ent 0x009 0x6000 t) 575 false) 574 false)
  else s

/-- An uncorrectable error of the buffer's memories is met (R154). -/
def State.bufferEcc (s : State) : State :=
  let (k, s1) := s.takeFree
  (((s1.bump 0x009 0x8006 0 1).latch 0x009 16).record 0x0602 0x009 [(4, (Config.cellNumber k).toNat)])

/-- Frames that satisfy a condition have an unreadable cell from here on. -/
def State.unreadable (s : State) (p : Frame → Bool) : State :=
  { s with frames := s.frames.map (fun f => if p f then { f with eccBad := true } else f) }

/-- The VALUE of template `t` proves unreadable (R158): the template alone is flushed, and the copies of the frames folded against it meet a cell
error. DEDUCED (log entry 84): the error is counted once, when it is met. -/
def State.templateBad (s : State) (t : Nat) : State :=
  let s1 := s.bufferEcc.unreadable (fun f => f.stub.any (fun w => field w 119 9 = t))
  (s1.setEnt 0x009 0x6000 t (setBit (s1.ent 0x009 0x6000 t) 574 true)).templateCheck t

/-- A frame's cells are read for a copy: whether one of them, or one met before, is unreadable, and the state after (R154, R158). -/
def State.readCells (s : State) (f : Frame) (x : CellRead) : Bool × State :=
  let s1 := if x.fixed = 0 then s else s.bump 0x009 0x8005 0 x.fixed
  let s2 := if x.bad then s1.bufferEcc.unreadable (fun g => g.id = f.id) else s1
  match f.stub with
  | some w => if x.template then (true, s2.templateBad (field w 119 9)) else (f.eccBad || x.bad, s2)
  | none => (f.eccBad || x.bad, s2)

/-- A frame leaves the device: its cells and its stub are freed, its charge is released, it leaves flight (R40, R111, R151, R157).
-/
def State.releaseFrame (s : State) (id : Nat) : State :=
  match s.frame? id with
  | none => s
  | some f =>
    let s1 := { s with
      frames := s.frames.filter (fun g => g.id ≠ id)
      copies := s.copies.filter (fun c => c.frame ≠ id)
      keyQ := s.keyQ.filter (· ≠ id)
      decQ := s.decQ.filter (· ≠ id)
      appQ := s.appQ.filter (· ≠ id)
      rxNow := s.rxNow.filter (fun p => p.2 ≠ id) }
    let s2 := match f.stub with | some w => s1.templateCheck (field w 119 9) | none => s1
    ((s2.charged f).drainCheck)

/-- A frame leaves flight under its edition (R40). -/
def State.leaveFlight (s : State) (id : Nat) : State :=
  State.drainCheck { s with frames := s.frames.map (fun g => if g.id = id then { g with tag := none } else g) }

/-- A committed frame whose effects are applied and that has no copy left is released. It leaves flight when its decision has been delivered and no
copy of it remains but those held for a resend (R40, R151, R164). -/
def State.settle (s : State) (id : Nat) : State :=
  match s.frame? id with
  | none => s
  | some f =>
    if !f.applied then
      if f.tag.isSome && f.decision.isSome && !s.decQ.contains id && (s.copiesOf id).all (fun c => c.state = .held) then s.leaveFlight id else s
    else
      let s1 := s.tsCheck f
      if (s1.copiesOf id).isEmpty then s1.releaseFrame id
      else if (s1.copiesOf id).all (fun c => c.state = .held) then s1.leaveFlight id
      else s1

/-- A copy removed. Copies are told apart by their frame, endpoint, queue and state. -/
def State.dropCopy (s : State) (c : Copy) : State := { s with copies := s.copies.erase c }

/-- A copy replaced. -/
def State.setCopy (s : State) (c d : Copy) : State :=
  { s with copies := s.copies.map (fun x => if x = c then d else x) }

/-- The copy that is being sent on an endpoint. -/
def State.sending (s : State) (ep : Nat) : Option Copy := s.copies.find? (fun c => c.ep = ep && c.state = .sending)

/-- The copy chosen at a level of an endpoint and not yet started. -/
def State.chosen (s : State) (ep level : Nat) : Option Copy :=
  s.copies.find? (fun c => c.ep = ep && c.level = level && c.state = .chosen)

/-- Copies chosen on an endpoint that satisfy a condition are withdrawn: they wait in their queues again, with no effect but the
count (R176). -/
def State.withdraw (s : State) (ep : Nat) (p : Copy → Bool) : State :=
  let n := (s.copies.filter (fun c => c.ep = ep && c.state = .chosen && p c)).length
  if n = 0 then s
  else
    State.bump { s with
      copies := s.copies.map (fun (c : Copy) => if c.ep = ep && c.state = .chosen && p c then { c with state := .queued } else c) }
      0x00A 0x8007 0 n

/-- A frame starts on a lane: the ACTIVITY LED goes low for 40 ms, unless it is low or has been high for less than 40 ms (R399). -/
def State.lit (s : State) (lane : Nat) : State :=
  if s.regN (.ledActive lane) = 0 then (s.setReg (.ledActive lane) 1).startTimer (.led lane) 250001 else s

/-- A buffer is kept by the device as a next buffer of its BQ, and its credit is returned (R106 step 3, R239). -/
def State.recycle (s : State) (b : BqBuffer) : State :=
  ({ s with bqBuffers := s.bqBuffers ++ [{ b with recycled := true }] }.unreserve (s.rd (bqUnit b.bq) 0x4003 0)).bump (bqUnit b.bq) 0x8008 0 1

/-- A host copy that has taken a buffer is written no further, and the buffer is kept (R106 step 3, R239). -/
def State.keepBuffer (s : State) (c : Copy) : State :=
  match c.buffer with
  | some b => (s.dropOps (fun p => p = .buffer c.frame b.bq c.mirror)).recycle b
  | none => s

/-- The channel counter of a failed frame (Table 4.1), or the lane's (R79). -/
def State.countFail (s : State) (ch account : Nat) (r : RxFail) : State :=
  let u := chUnit ch
  match r with
  | .overflow => s.bump (lnUnit (laneOf ch)) 0x8007 0 1
  | .symbol => s.bump u 0x8012 0 1
  | .oversize => s.bump u 0x8014 0 1
  | .runt => s.bump u 0x8013 0 1
  | .stomped => s.bump u 0x8011 0 1
  | .fcs => s.bump u 0x8010 0 1
  | .fabricHeader => (s.bump 0x00D 0x8000 0 1).latch 0x00D 18
  | .quota => (s.bump u 0x8017 account 1).latch u 17
  | .reassembly => s

/-- A copy in progress of an undone frame ends stomped: it keeps the octets that entered before the failure, without the frame's
own FCS where the failure is one of the FCS (R107). -/
def stompBody (f : Frame) (r : RxFail) : List Octet :=
  if r = .fcs ∨ r = .stomped then f.inner.take (f.inner.length - 4) else f.inner

/-- A frame that fails its commit point, or is dropped at quota, is undone (R106, Table 4.2). A channel's cut-through copies in
progress go on to their end, stomped (R107). -/
def State.undo (s : State) (id : Nat) (r : RxFail) : State :=
  match s.frame? id with
  | none => s
  | some f =>
    let cs := s.copiesOf id
    let live := (cs.filter (fun c => s.isChannel c.ep && (c.state = .sending || c.state = .suspended))).map
      (fun c => { c with ending := if c.ending = .down then .down else .stomped, body := some (stompBody f r) })
    let s1 := cs.foldl State.keepBuffer s
    let s2 := s1.releaseFrame id
    let s3 := { s2 with copies := s2.copies ++ live }
    if s.isChannel f.ing then
      let s4 := s3.countFail f.ing (f.account.getD 0) r
      if r = .quota then s4 else s4.stat (csUnit f.ing) 0x800A 0 f.octets.length
    else s3

/-- A hold of pause or PFC covers a class of a channel (R215, R216): hold 0 is the channel-wide one, hold c + 1 that of class c. -/
def State.holdOf (s : State) (ch hold : Nat) : Nat := s.holds.get (ch, hold) 0
def State.heldClass (s : State) (ch cls : Nat) : Bool := 0 < s.holdOf ch 0 || 0 < s.holdOf ch (cls + 1)

/-- A requester is in a quiet interval: QUIETING or GRANTED (Table 10.4). -/
def State.coexQuiet (s : State) (i : Nat) : Bool := s.rd 0x00F 0x5000 i = 1 || s.rd 0x00F 0x5000 i = 2

/-- A lane is silent for a requester: it is in the requester's sampled aggressor mask during a quiet interval (R257). -/
def State.quietLane (s : State) (lane : Nat) : Bool :=
  [0, 1, 2].any (fun i => s.coexQuiet i && (s.regN (.coexMask i)).testBit lane)

end Sys2Proof.Machine
end

