-- ==== Sys2Proof/Machine/Sched.lean ====
section
/-! DEFINITION. The scheduler (R170 to R192): queues and their heads, preemption levels, time gates and the fit test, fair queuing
tags, shapers, the choice, withdrawal, cutting and resuming frames (R204, R206). -/
namespace Sys2Proof.Machine

/-- Fields of a flow queue entry (Table 7.1). -/
def State.qCfg (s : State) (n : Nat) : Nat := s.ent 0x00A 0x6000 n
def qMode (e : Nat) : Nat := field e 62 2
def qEndpoint (e : Nat) : Nat := field e 55 7
def qClass (e : Nat) : Nat := field e 52 3
def qPref (e i : Nat) : Nat := field e (50 - 2 * i) 2
def qWeight (e : Nat) : Nat := field e 32 13
def qLifetime (e : Nat) : Nat := field e 0 32
def qRate (e : Nat) : Nat := field e 96 32
def qBurst (e : Nat) : Nat := field e 64 32
def qLimit (e : Nat) : Nat := field e 174 18
def qMarkLimit (e : Nat) : Nat := field e 156 18
def qServing (e : Nat) : Nat := field e 234 2

/-- The copy waits in queue `q`. -/
def inQueue (q : QueueRef) (c : Copy) : Bool := c.queue = q && (c.state = .queued || c.state = .chosen)

/-- The cells of a copy's frame. -/
def State.copyCells (s : State) (c : Copy) : Nat := match s.frame? c.frame with | some f => f.cells | none => 0

/-- DEPTH: the cells of every copy in the queue (R173). -/
def State.depth (s : State) (q : QueueRef) : Nat := ((s.copies.filter (inQueue q)).map s.copyCells).sum

/-- The queue holds a copy. -/
def State.waiting (s : State) (q : QueueRef) : Bool := s.copies.any (inQueue q)

/-- A queue is LINK_SET, or was before it was disabled with copies still in it (R175, R190). -/
def State.linkSet (s : State) (n : Nat) : Bool :=
  let e := s.qCfg n
  qMode e = 2 || (qMode e = 0 && qPref e 0 ≠ 3 && s.waiting (.flow n))

/-- The endpoint that a queue's copies wait for. -/
def State.queueHome (s : State) (n : Nat) : Nat :=
  let e := s.qCfg n
  if s.linkSet n then 0x40 + (if qServing e = 3 then qPref e 0 else qServing e) else qEndpoint e

/-- The flow queues that are not at their reset entry. -/
def State.listedQueues (s : State) : List Nat := (s.listed 0x00A 0x6000).map Prod.fst

/-- An endpoint is an air link. -/
def isAir (ep : Nat) : Bool := 0x40 ≤ ep && ep ≤ 0x42

/-- The air link of an endpoint is READY and enabled (R254, R255). -/
def State.airReady (s : State) (al : Nat) : Bool := s.rd (alUnit al) 0x1000 0 = 1 && s.rd (alUnit al) 0x5000 0 = 3

/-- The queues of an endpoint are held or parked (R191, R255). -/
def State.airHeld (s : State) (ep : Nat) : Bool :=
  isAir ep && (!s.airReady (ep - 0x40) || s.rd (alUnit (ep - 0x40)) 0x5001 0 = 1)

/-- The lane of the channel has role FABRIC (R91). -/
def State.fabricRole (s : State) (ch : Nat) : Bool := s.rd (lnUnit (laneOf ch)) 0x1005 0 = 1

/-- 802.3br runs on a channel (R202): enabled, mode 0x01 without replication or 0x02 to 0x07, role CHANNEL. -/
def State.mergeOn (s : State) (ch : Nat) : Bool :=
  let l := lnUnit (laneOf ch)
  s.isChannel ch && s.rd (chUnit ch) 0x1031 0 = 1 && s.rd l 0x1005 0 = 0
    && ((s.rd l 0x1000 0 = 1 && s.rd l 0x1004 0 = 0) || 2 ≤ s.rd l 0x1000 0)

/-- Fields of an endpoint entry (Table 7.3). -/
def State.epCfg (s : State) (ep : Nat) : Nat := s.ent 0x00A 0x6002 ep
def epExpress (e c : Nat) : Bool := e.testBit (41 + c)
def epLevel (e c : Nat) : Nat := field e (25 + 2 * c) 2
def epBaseWeight (e : Nat) : Nat := field e 8 13
def epCycle (e : Nat) : Nat := field e 96 32
def epBaseTime (e : Nat) : Nat := field e 128 80

/-- The preemption level of a class at an endpoint (R178): LEVELS on a fabric link; 1 express and 0 preemptable where 802.3br is
enabled; 0 elsewhere. -/
def State.levelOf (s : State) (ep cls : Nat) : Nat :=
  if s.isChannel ep ∧ s.fabricRole ep then epLevel (s.epCfg ep) cls
  else if s.mergeOn ep then (epExpress (s.epCfg ep) cls).toNat
  else 0

/-- Quiet stops level `level` on channel `ch` (R181, R257). -/
def State.quiet (s : State) (ch level : Nat) : Bool :=
  s.isChannel ch && s.quietLane (laneOf ch)
    && !(s.fabricRole ch && level = 2 && s.rd 0x00F 0x1004 0 = 1)

/-- 2^−38 ns in one CCLK of 0.625 ns. -/
def cclkUnit : Nat := 5 * 2 ^ 35

/-- The segments of a gate cycle in CCLK: start, end, gates (R180). -/
def gateSegs (cycle : Nat) : List Nat → Nat → List (Nat × Nat × Nat)
  | [], _ => []
  | [e], p => if p < cycle then [(p, cycle, field e 56 8)] else []
  | e :: t, p => if p < cycle then (p, min cycle (p + field e 0 32), field e 56 8) :: gateSegs cycle t (p + field e 0 32) else []

/-- Where an instant lies in a cycle, in 2^−38 ns. -/
def cyclePos (cfg t : Nat) : Nat :=
  (((t : Int) - (ofTime80 (epBaseTime cfg) : Int)) % ((epCycle cfg * cclkUnit : Nat) : Int)).toNat

/-- The entry in force at an instant, and its gates. -/
def gateEntry (cfg : Nat) (list : List Nat) (t : Nat) : Nat × Nat :=
  let p := cyclePos cfg t / cclkUnit
  let segs := gateSegs (epCycle cfg) list 0
  match segs.findIdx? (fun g => g.1 ≤ p && p < g.2.1) with
  | some i => (i, match segs[i]? with | some g => g.2.2 | none => 0xFF)
  | none => (0, 0xFF)

/-- The gate of class `c` at endpoint `ep` is open at an instant. -/
def State.gateOpen (s : State) (ep c t : Nat) : Bool :=
  match s.gateOper.find? ep with
  | none => true
  | some (cfg, list) => (gateEntry cfg list t).2.testBit c

/-- The time from an instant to the next closure of the gate of class `c`, in 2^−38 ns; `none` where it never closes (R180). -/
def State.gateClosure (s : State) (ep c t : Nat) : Option Nat :=
  match s.gateOper.find? ep with
  | none => none
  | some (cfg, list) =>
    let cyc := epCycle cfg
    let p := cyclePos cfg t
    let segs := gateSegs cyc list 0
    let two := segs ++ segs.map (fun g => (g.1 + cyc, g.2.1 + cyc, g.2.2))
    match two.find? (fun g => p < g.2.1 * cclkUnit && !g.2.2.testBit c) with
    | none => none
    | some g => some (g.1 * cclkUnit - p)

/-- The wire time of `l` octets at an endpoint in CCLK, rounded up (R180). -/
def State.wireCclk (s : State) (ep l : Nat) : Nat :=
  if isAir ep then ceilDiv (l * 128000) (s.rd (alUnit (ep - 0x40)) 0x1002 0 * 26625)
  else if s.speed ep = 0 then 0 else ceilDiv ((l + 20) * 1280) (s.speed ep)

/-- The length of a copy, `none` while its frame has not ended: unfolded, with the fabric header on a fabric link (R180, R199). -/
def State.copyLen (s : State) (c : Copy) : Option Nat :=
  match s.frame? c.frame with
  | some f => if f.ended then some (f.len + (if s.isChannel c.ep ∧ s.fabricRole c.ep then 12 else 0)) else none
  | none => none

def State.maxFrame (s : State) (ch : Nat) : Nat := s.rd (chUnit ch) 0x1001 0

/-- The length a copy is tested with (R180). -/
def State.testLen (s : State) (c : Copy) : Nat := (s.copyLen c).getD (s.maxFrame c.ep)

/-- The charge length of a length at an endpoint (R185). -/
def chargeOf (ep l : Nat) : Nat := if isAir ep then l else l + 20

/-- A frame may leave as a cut-through copy (R34, R105, R199, R271, R296, R300). -/
def State.mayCut (s : State) (f : Frame) (c : Copy) : Bool :=
  s.isChannel f.ing && s.isChannel c.ep && s.speed c.ep ≤ s.speed f.ing && f.use = .data && !f.ended
    && f.maxFrame + (if s.fabricRole c.ep && !f.onFabric then 12 else 0) ≤ s.maxFrame c.ep
    && (!f.onFabric || fabType f.octets = 0) && !guardDrops f

/-- A head copy is eligible (R174); no copy of a frame that its guard may drop leaves before its outcome is known (R271). -/
def State.headReady (s : State) (c : Copy) : Bool :=
  match s.frame? c.frame with
  | some f => (f.committed && (f.applied || !guardDrops f)) || s.mayCut f c
  | none => false

/-- The head copies of the queues at an endpoint, in the order of the queues' oldest copies. -/
def headsOf (ep : Nat) : List QueueRef → List Copy → List Copy
  | _, [] => []
  | seen, c :: t =>
    if c.ep = ep && (c.state = .queued || c.state = .chosen) then
      if seen.contains c.queue then headsOf ep seen t else c :: headsOf ep (c.queue :: seen) t
    else headsOf ep seen t

def State.heads (s : State) (ep : Nat) : List Copy := (headsOf ep [] s.copies).filter (fun c => c.state = .queued)

/-- RATE and BURST of a flow queue as in force `n` tick boundaries ahead, with those written in this tick (R175), in the place of the entry. -/
def State.qShape (s : State) (q n : Nat) : Nat :=
  let e := s.qCfg q
  if n = 0 then e else setField e 64 64 (s.rateWait.get q (field e 64 64))

/-- A shaper's credit at an instant `n` tick boundaries ahead (R176, R188). -/
def State.creditAt (s : State) (q n : Nat) : Int :=
  let e := s.qShape q n
  min ((qBurst e : Int) * 65536) (s.reg (.shaper q) + n * ((qRate e * 65536 / 50 : Nat) : Int))

/-- A hold of a class stands at an instant `n` tick boundaries ahead (R177). -/
def State.heldAt (s : State) (ch cls n : Nat) : Bool := n < s.holdOf ch 0 || n < s.holdOf ch (cls + 1)

/-- Tick boundaries at or before an instant `lead` CCLK ahead. -/
def State.boundariesIn (s : State) (lead : Nat) : Nat := (s.slot + lead) / 256

/-- The counter's value `lead` CCLK ahead. -/
def State.timeIn (s : State) (lead : Nat) : Nat := (s.time + s.gain lead) % timeWrap

/-- A head copy's queue is eligible for a start `lead` CCLK ahead (R177). -/
def State.eligible (s : State) (c : Copy) (lead : Nat) : Bool :=
  let n := s.boundariesIn lead
  let t := s.timeIn lead
  s.headReady c && !s.airHeld c.ep
    && (match c.queue with | .flow q => qRate (s.qShape q n) = 0 || 0 ≤ s.creditAt q n | _ => true)
    && !(s.isChannel c.ep && s.heldAt c.ep c.cls n)
    && !s.quiet c.ep (s.levelOf c.ep c.cls)
    && s.gateOpen c.ep c.cls t
    && (match s.gateClosure c.ep c.cls t with
        | none => true
        | some d => s.wireCclk c.ep (s.testLen c) * cclkUnit ≤ d)

/-- Tags are compared modulo 2^64 over half the range (R185). -/
def tagLt (a b : Nat) : Bool := a ≠ b && 2 ^ 63 ≤ (a + 2 ^ 64 - b) % 2 ^ 64
def tagMax (a b : Nat) : Nat := if tagLt a b then b else a

/-- The weight of a copy's queue (R171). -/
def State.weightOf (s : State) (c : Copy) : Nat :=
  match c.queue with
  | .flow q => qWeight (s.qCfg q)
  | _ => epBaseWeight (s.epCfg c.ep)

/-- The start tag and finish tag of a copy with charge length `l` (R185). -/
def State.tags (s : State) (c : Copy) (l : Nat) : Nat × Nat :=
  let st := tagMax (s.regN (.vtime c.ep c.cls)) (s.regN (.finish c.queue))
  (st, (st + ceilDiv (l * 65536) (s.weightOf c)) % 2 ^ 64)

/-- The charge length of a copy at its start (R185). -/
def State.charge (s : State) (c : Copy) : Nat := chargeOf c.ep (s.testLen c)

/-- The rank of a queue in the last tie of R178: flow queues by number, the base queue after them. -/
def queueRank : QueueRef → Nat
  | .flow n => n
  | _ => 4096

/-- Copy `a` wins over `b` within a class (R178). -/
def State.beats (s : State) (a b : Copy) : Bool :=
  let ta := s.tags a (s.charge a)
  let tb := s.tags b (s.charge b)
  tagLt ta.1 tb.1 || (ta.1 = tb.1 && (tagLt ta.2 tb.2 || (ta.2 = tb.2 && queueRank a.queue < queueRank b.queue)))

/-- The best of the candidates: the highest class, then R178's order. -/
def State.best (s : State) : List Copy → Option Copy
  | [] => none
  | a :: t =>
    match State.best s t with
    | none => some a
    | some b => if b.cls < a.cls || (a.cls = b.cls && !s.beats b a) then some a else some b

/-- The eligible heads of a level (R177, R178). -/
def State.candidates (s : State) (ep level lead : Nat) : List Copy :=
  (s.heads ep).filter (fun c => s.levelOf ep c.cls = level && s.eligible c lead)

/-- A counter of a flow queue's `queue_counters` entry plus `n` (Table 7.6): 0 TX_FRAMES, 1 TX_BYTES, 2 TAIL_DROP, 3
LIFETIME_DROP. -/
def State.countQueue (s : State) (q : QueueRef) (i n : Nat) : State :=
  match q with
  | .flow k => s.setEntField 0x00A 0x6001 k (64 * i) 64 ((s.entField 0x00A 0x6001 k (64 * i) 64 + n) % 2 ^ 64)
  | _ => s

/-- A count or latch that a frame has owed is made. -/
def State.pay (s : State) : Owed → State
  | .count u i k n => s.bump u i k n
  | .alarm u b => s.latch u b
  | .queue q col => s.countQueue (.flow q) col 1

/-- What a copy of a frame counts: at once where the frame has passed its commit point (R194), else with its held effects (R36). -/
def State.owe (s : State) (id : Nat) (l : List Owed) : State :=
  match s.frame? id with
  | some f => if f.committed then l.foldl State.pay s else s.setFrame { f with owed := f.owed ++ l }
  | none => l.foldl State.pay s

/-- The counts of a copy that has outlived LIFETIME (R192). -/
def lifetimeCounts (q : QueueRef) : List Owed :=
  (match q with | .flow n => [.queue n 3] | _ => []) ++ [.count 0x00A 0x8003 0 1, .alarm 0x00A 17]

/-- A copy leaves its queue without being sent, and its frame goes where no copy remains (R151). -/
def State.discardCopy (s : State) (c : Copy) : State := (s.dropCopy c).settle c.frame

/-- A copy longer than the egress `max_frame` (R199). -/
def State.oversize (s : State) (c : Copy) : Bool :=
  s.isChannel c.ep && (match s.copyLen c with | some l => s.maxFrame c.ep < l | none => false)

/-- A copy has outlived LIFETIME (R192): the ticks from its placement, of 160 ns, against microseconds. -/
def State.expired (s : State) (c : Copy) : Bool :=
  match c.queue with
  | .flow q => let l := qLifetime (s.qCfg q)
               l ≠ 0 && l * 1000 < (s.tick - c.placed) * 160
  | _ => false

/-- The choice of a level with the drops it makes: oversize heads (R199), expired heads (R192). -/
def State.choose : Nat → State → Nat → Nat → Nat → Option Copy × State
  | 0, s, _, _, _ => (none, s)
  | k + 1, s, ep, level, lead =>
    let cs := s.candidates ep level lead
    match cs.find? s.oversize with
    | some c => State.choose k ((s.owe c.frame [.count (chUnit ep) 0x8037 0 1]).discardCopy c) ep level lead
    | none =>
      match s.best cs with
      | none => (none, s)
      | some c =>
        if s.expired c then
          State.choose k ((s.owe c.frame (lifetimeCounts c.queue)).discardCopy c) ep level lead
        else (some c, s)

/-- The octets of a frame as a copy sends them, its own FCS left out. -/
def Frame.data (f : Frame) : List Octet := if f.ended then f.inner.take (f.inner.length - 4) else f.inner

/-- Octets written over a list at their positions. -/
def applyPatches (l : List Octet) (ps : List (Nat × List Octet)) : List Octet := ps.foldl (fun l p => patch l p.1 p.2) l

/-- The octets of a copy on the wire between its start octets and its end octets, as far as they have entered. -/
def State.wireOctets (s : State) (c : Copy) : List Octet :=
  let src := match c.body, s.frame? c.frame with
    | some b, _ => b
    | none, some f => f.data
    | none, none => []
  c.lead ++ (applyPatches src c.patches).drop c.skip

/-- The fewest frame octets of a fragment before its end octets (R204, R208). -/
def State.minFragment (s : State) (ch : Nat) : Nat :=
  if s.fabricRole ch then 60 else 64 * (1 + s.rd (chUnit ch) 0x1034 0) - 4

/-- The check nibble of R87 over four bits. -/
def checkNibble (d : Nat) : Nat :=
  let b (i : Nat) : Bool := d.testBit i
  ((b 3 != b 2) != b 1).toNat * 8 + ((b 3 != b 2) != b 0).toNat * 4 + ((b 3 != b 1) != b 0).toNat * 2
    + ((b 2 != b 1) != b 0).toNat

/-- The mask of a fragment's end octets: R208 on a fabric link; PRESUMED (log entry 5) 0x0000FFFF for the mCRC of Clause 99. -/
def State.fragMask (s : State) (ch level : Nat) : Nat := if s.fabricRole ch ∧ level = 1 then 0xFFFF0000 else 0x0000FFFF

/-- The SMD values and fragment counts of IEEE 802.3 Clause 99. PRESUMED (log entry 5). -/
def smdStart (n : Nat) : Nat := match n % 4 with | 0 => 0xE6 | 1 => 0x4C | 2 => 0x7F | _ => 0xB3
def smdCont (n : Nat) : Nat := match n % 4 with | 0 => 0x61 | 1 => 0x52 | 2 => 0x9E | _ => 0x2A
def fragCount (n : Nat) : Nat := smdStart n

/-- The frame count of an SMD-S, its start octets' octet 8. -/
def smdCountOf (o : Nat) : Option Nat := [0, 1, 2, 3].find? (fun n => smdStart n = o)
def smdContOf (o : Nat) : Option Nat := [0, 1, 2, 3].find? (fun n => smdCont n = o)

/-- The start octets of the unit a copy sends next (R196, Table 8.2): `final` where the unit ends the frame. -/
def State.unitStart (s : State) (c : Copy) (final : Bool) : List Octet :=
  if c.frags = 0 ∧ final then c.start
  else if s.fabricRole c.ep then
    let id := c.level * 4 + s.regN (.fcntTx c.ep c.level)
    patch c.start 6 (toMsb 1 (c.frags % 16 * 16 + checkNibble id) ++ toMsb 1 ((if c.frags = 0 then 0x3 else 0x6) * 16 + id))
  else if c.frags = 0 then c.start
  else
    patch c.start 6 (toMsb 1 (fragCount (c.frags + 3)) ++ toMsb 1 (smdCont ((smdCountOf (octet c.start 7)).getD 0)))

/-- The octets of a copy in progress that have been sent by now: those before its present unit, and of that what the line rate gives since it
started, behind its start octets (DEDUCED, log entry 10). -/
def State.sentBy (s : State) (c : Copy) : Nat := c.pos + ((s.now - c.since) * s.speed c.ep / 1280 - 8)

/-- A fragment of a copy has left (Table 8.3); for the copy of a frame that has been undone nothing is counted (R36, R106 step 6). -/
def State.fragmentSent (s : State) (c : Copy) : State :=
  if c.ending = .stomped then s else s.owe c.frame [.count (chUnit c.ep) 0x8038 0 1]

/-- A cut of the frame in progress at an endpoint for a level above it, at the first point where the fragment is long enough and enough of the
frame remains (R204, R206, R208); nothing happens while there is no such point. Of a frame that has not ended the end octets are among those that
have entered, or are still to come. -/
def State.cutFor (s : State) (ep level : Nat) : State :=
  match s.sending ep with
  | none => s
  | some c =>
    let fragments : Bool := s.isChannel ep && (s.fabricRole ep || (s.mergeOn ep && s.rd (chUnit ep) 0x5030 0 = 2))
    let ended : Bool := c.body.isSome || (match s.frame? c.frame with | some f => f.ended | none => true)
    let total := (s.wireOctets c).length + (if ended then 4 else 0)
    let at_ := max (c.pos + s.minFragment ep) (s.sentBy c)
    if !fragments || level ≤ c.level || c.ending = .down || total < at_ + 64 then s
    else
      let s2 := if c.frags = 0 ∧ s.fabricRole ep then s.setReg (.fcntTx ep c.level) ((s.reg (.fcntTx ep c.level) + 1) % 4) else s
      let sent := (s.wireOctets c).take at_
      let unit := s2.unitStart c false ++ sent.drop c.pos ++ toLsb 4 (crc crc32 sent ^^^ s.fragMask ep c.level)
      { (s2.setCopy c { c with pos := at_, frags := c.frags + 1, state := .suspended }).fragmentSent c with
        txOut := s2.txOut.set ep unit [] }

/-- The highest-level suspended copy of a channel. -/
def State.suspended (s : State) (ep : Nat) : Option Copy :=
  let cs := s.copies.filter (fun c => c.ep = ep && c.state = .suspended)
  match cs.find? (fun c => c.level = 1) with
  | some c => some c
  | none => cs.head?

/-- Another channel of a quartered lane has a frame on the wire: the lane carries whole frames and fragments in turn (R86). -/
def State.laneBusy (s : State) (ch : Nat) : Bool :=
  s.copies.any (fun c => c.state = .sending && s.isChannel c.ep && laneOf c.ep = laneOf ch)

/-- A generated frame waits for a channel. -/
def genFor (ch : Nat) : GenFrame → Bool
  | .pause c => c = ch
  | .pauseEnd c _ _ => c = ch
  | .install c _ => c = ch
  | .nak c _ _ _ _ => c = ch
  | .mPacket c _ => c = ch

/-- A generated frame that waits for a channel may start now: TEMPLATE_INSTALL and FOLD_NAK obey holds (R216). -/
def State.genReady (s : State) (ch : Nat) : Bool :=
  s.genQ.any (fun g => genFor ch g && (match g with | .install _ _ => !s.heldClass ch 7 | .nak _ _ _ _ _ => !s.heldClass ch 7 | _ => true))

/-- Something more urgent than level `level` waits for a channel: a generated frame that may start, a copy of a higher level that is chosen or
eligible (R118, R204, R206). -/
def State.urgent (s : State) (ep level : Nat) : Bool :=
  (s.genReady ep && !s.quiet ep (if s.fabricRole ep then 2 else 1))
    || s.copies.any (fun d => d.ep = ep && d.state = .chosen && level < d.level)
    || [1, 2].any (fun l => level < l && !(s.candidates ep l 0).isEmpty)

/-- The remainder of a suspended frame goes on where nothing more urgent waits and no hold stops it (R204, R206, R216); a lane with role FABRIC is idle while the fabric is not enabled (R294). Before a
coexistence grant remainders still complete, and a grant finds none (R211, R257). -/
def State.resume (s : State) (ep : Nat) : State :=
  match s.suspended ep with
  | none => s
  | some c =>
    if s.laneBusy ep || s.urgent ep c.level || s.heldClass ep c.cls || (s.fabricRole ep && s.rd 0x00D 0x1000 0 = 0) then s
    else s.setCopy c { c with state := .sending, since := s.now }

/-- Every suspended remainder that may go on does. -/
def State.resumeAll (s : State) : State :=
  ((s.copies.filter (fun c => c.state = .suspended)).map Copy.ep).eraseDups.foldl State.resume s

/-- SCHED_CHOICE (R176): one level of an endpoint's scheduler chooses its next copy for a start `lead` CCLK ahead; a frame of a
lower level in progress is cut for it (R204, R206). Where there is nothing to choose, a suspended remainder may go on. -/
def execSchedChoice (ep level lead : Nat) (s : State) : Host.Outcome State Fault Refusal :=
  if s.mainUp ∧ s.running ∧ !s.asked 3 ∧ (s.isChannel ep ∨ isAir ep) ∧ (s.chosen ep level).isNone then
    match s.choose (s.copies.length + 1) ep level lead with
    | (none, s1) => .next (s1.resume ep)
    | (some c, s1) => .next ((s1.setCopy c { c with state := .chosen, level := level }).cutFor ep level)
  else .next s

end Sys2Proof.Machine
end

