-- ==== Sys2Proof/Machine/Wire.lean ====
section
/-! DEFINITION. The transmit MAC (R87, R89, R196 to R199, R206 to R221, R160, R297, R300): the start octets, the fabric header and fold
body of a copy, its timestamp and one-step correction, its end. -/
namespace Sys2Proof.Machine

/-- The channel's lane is quartered (Table 3.2). -/
def State.quartered (s : State) (ch : Nat) : Bool :=
  let m := s.rd (lnUnit (laneOf ch)) 0x1000 0
  m = 6 || m = 7

/-- The conditions, but for the wire's, under which a chosen copy starts on a channel (R41, R118, R176, R206, R211, R216, R294). No frame passes a
suspended one of its level or a higher (R206). -/
def State.startOpen (s : State) (ch level : Nat) (c : Copy) : Bool :=
  !s.genReady ch && !(s.fabricRole ch && s.rd 0x00D 0x1000 0 = 0)
    && !s.heldClass ch c.cls && !s.quiet ch level && s.gateOpen ch c.cls s.time
    && !s.copies.any (fun d => d.ep = ch && d.state = .suspended && level ≤ d.level)
    && !s.copies.any (fun d => d.ep = ch && d.state = .chosen && level < d.level)

/-- A channel has a frame ready: a generated frame, or a chosen copy, that only the wire keeps from starting. -/
def State.frameReady (s : State) (ch : Nat) : Bool :=
  (s.genReady ch && !s.quiet ch (if s.fabricRole ch then 2 else 1))
    || s.copies.any (fun d => d.ep = ch && d.state = .chosen && s.startOpen ch d.level d)

/-- A channel of a quartered lane may begin a frame (R89): its credit is 0 or more and no channel that comes before it in the turn is
ready with credit. -/
def State.quarterTurnOf (s : State) (ch : Nat) : Bool :=
  let base := 4 * laneOf ch
  let last := s.regN (.quarterTurn (laneOf ch))
  let ready (c : Nat) : Bool := 0 ≤ s.reg (.quarterCredit c) && s.frameReady c
  0 ≤ s.reg (.quarterCredit ch)
    && (([1, 2, 3, 4].map (fun k => base + (last + k) % 4)).find? (fun c => c = ch || ready c)) = some ch

/-- The wire is free for a new frame of a channel. -/
def State.wireFree (s : State) (ch : Nat) : Bool := !s.laneBusy ch && (!s.quartered ch || s.quarterTurnOf ch)

/-- What beginning a unit of `l` octets takes of a quartered lane: the wire time and the turn (R89). -/
def State.chargeQuarter (s : State) (ch l : Nat) : State :=
  if s.quartered ch then
    (s.setReg (.quarterCredit ch) (s.reg (.quarterCredit ch) - (l + 20))).setReg (.quarterTurn (laneOf ch)) (ch % 4)
  else s

/-- What beginning a frame of `l` octets does on a quartered lane: SEQ counts it (R87, R89). -/
def State.beginQuarter (s : State) (ch l : Nat) : State :=
  if s.quartered ch then (s.chargeQuarter ch l).setReg (.quarterSeqTx ch) ((s.reg (.quarterSeqTx ch) + 1) % 4) else s

/-- The start octets of a unit on a channel, with `sfd` in octet 8 (R87, R196). -/
def State.startWith (s : State) (ch sfd : Nat) : List Octet :=
  if s.quartered ch then
    let d := ch % 4 * 4 + s.regN (.quarterSeqTx ch) % 4
    [0x55, 0x55, 0x55] ++ toMsb 1 (0xD0 + d) ++ toMsb 1 (0x50 + checkNibble d) ++ [0x55, 0x55] ++ toMsb 1 sfd
  else List.replicate 7 0x55 ++ toMsb 1 sfd

/-- The start octets of a frame on a channel (R196): `pre` for a preemptable frame on an ACTIVE merge sublayer. -/
def State.startOctets (s : State) (ch : Nat) (pre : Bool) : List Octet :=
  s.startWith ch (if pre then smdStart (s.regN (.fcntTx ch 0)) else 0xD5)

/-- A fabric header (Table 13.1) with its HCRC. -/
def fabHeader (type dst src ep cls level hop ref flags gen hash : Nat) : List Octet :=
  let l := toMsb 1 (0x10 + type) ++ toMsb 1 dst ++ toMsb 1 src ++ toMsb 1 ep ++ toMsb 1 (cls * 32 + level * 8) ++ toMsb 1 hop
    ++ toMsb 1 ref ++ toMsb 1 flags ++ toMsb 2 gen ++ toMsb 1 hash
  l ++ toMsb 1 (crc crc8 l)

/-- A fabric header with fields replaced and HCRC recomputed. -/
def reHeader (h : List Octet) (type hop level ref : Nat) : List Octet :=
  let l := patch (patch (patch (patch (h.take 11) 0 (toMsb 1 (0x10 + type))) 5 (toMsb 1 hop)) 4
    (toMsb 1 (octet h 4 / 32 * 32 + level * 8 + octet h 4 % 8))) 6 (toMsb 1 ref)
  l ++ toMsb 1 (crc crc8 l)

/-- The fabric header of a copy on a fabric link (R297, R300); `type` and `ref` of R160. A transit CONTROL frame stays one. A frame that
the device generated for the link carries its own, with the level of class 7. -/
def State.headerOf (s : State) (f : Frame) (c : Copy) (type ref : Nat) : List Octet :=
  let level := epLevel (s.epCfg c.ep) c.cls
  let own := s.rd 0x00D 0x5002 0
  match f.decision with
  | some d =>
    if d.decider = .transit then
      reHeader (f.octets.take 12) (if type = 0 ∧ fabType f.octets = 2 then 2 else type) (fabHop f.octets - 1) level ref
    else
      fabHeader type (c.dst.getD (s.fabricDst c.ep)) own f.ing c.cls level (s.rd 0x00D 0x1003 0) ref (c.mirror.toNat * 128 + c.marked.toNat * 64)
        (s.rd 0x00D 0x5005 0) (field d.hsym 24 8)
  | none =>
    if f.onFabric then reHeader (f.octets.take 12) (fabType f.octets) (fabHop f.octets) level 0
    else fabHeader 0 (c.dst.getD (s.fabricDst c.ep)) own 0x7F c.cls level (s.rd 0x00D 0x1003 0) 0 0 (s.rd 0x00D 0x5005 0) 0

/-- Ones' complement sum of 16-bit words, folded. -/
def onesFold (n : Nat) : Nat :=
  let a := n % 65536 + n / 65536
  let b := a % 65536 + a / 65536
  b % 65536 + b / 65536

/-- The sum of a string taken as 16-bit words, most significant octet first, an odd last octet padded with 0. -/
def wordSum : List Octet → Nat
  | [] => 0
  | [a] => a.toNat * 256
  | a :: b :: t => a.toNat * 256 + b.toNat + wordSum t

/-- The Internet checksum of a string. -/
def inetSum (l : List Octet) : Nat := 65535 - onesFold (wordSum l)

/-- The IPv4 header checksum of a header is correct. -/
def ipv4Good (l : List Octet) : Bool := onesFold (wordSum l) = 65535

/-- The position of the PTP message in a frame's octets (R221), `none` where it is not PTP. -/
def ptpAt (f : Frame) (k : Key) : Option Nat :=
  let at? : Option Nat :=
    if k.etype = 0x88F7 then some (k.l3 - k.l2)
    else if k.isUdp && k.dport = 319 then k.l4.map (fun p => p - k.l2 + 8) else none
  match at? with
  | some p => if k.l2 + p + 34 ≤ 128 ∧ p + 34 ≤ f.inner.length ∧ octet f.inner (p + 1) % 16 = 2 then some p else none
  | none => none

/-- The UDP checksum after octets of the segment have changed, in the manner of RFC 1624: the patch of it (R221). -/
def udpFix (f : Frame) (k : Key) (old new : List Octet) : List (Nat × List Octet) :=
  match k.l4 with
  | some p =>
    if k.isUdp then
      let q := p - k.l2 + 6
      let c := be16 f.inner q
      if c = 0 then []
      else
        let n := 65535 - onesFold (65535 - c + (65535 - onesFold (wordSum old)) + wordSum new)
        [(q, toMsb 2 (if n = 0 then 65535 else n))]
    else []
  | none => []

/-- The patches of a change of correctionField by `d` units of 2^−16 ns (R221). -/
def correction (f : Frame) (k : Key) (p : Nat) (d : Int) : List (Nat × List Octet) :=
  let old := (f.inner.drop (p + 8)).take 8
  let new := toMsb 8 (unsigned 64 ((ofMsb old : Int) + d))
  (p + 8, new) :: udpFix f k old new

/-- The patches of ORIGIN on a Sync message (R221); `t` is in 1/16 ns. -/
def originPatch (f : Frame) (k : Key) (p t : Nat) : List (Nat × List Octet) :=
  let old := (f.inner.drop (p + 8)).take 8 ++ (f.inner.drop (p + 34)).take 10
  let corr := toMsb 8 ((ofMsb (old.take 8) + t % 16 * 4096) % 2 ^ 64)
  let ns := t / 16
  let orig := toMsb 6 (ns / 1000000000) ++ toMsb 4 (ns % 1000000000)
  [(p + 8, corr), (p + 34, orig)] ++ udpFix f k old (corr ++ orig)

/-- 2^−38 ns in 1/16 ns. -/
def sixteenth : Nat := 2 ^ 34

/-- The instant of a crossing `ago` sixteenths of a nanosecond away, with the elapsed count then (R284, R285): receive instants lie in
the past, reduced by `rx_delay`; transmit instants ahead, increased by `tx_delay`. The elapsed count is held from an origin of its
own. -/
def State.instant (s : State) (d : Int) : Nat × Nat :=
  ((((s.time / sixteenth : Nat) : Int) + d) % ((timeWrap / sixteenth : Nat) : Int) |>.toNat,
   ((s.elapsed / sixteenth : Nat) + 2 ^ 40 + d : Int).toNat)

def State.rxInstant (s : State) (ch crossing : Nat) : Nat × Nat :=
  s.instant (-((crossing + s.rd (lnUnit (laneOf ch)) 0x1010 0 : Nat) : Int))
def State.txInstant (s : State) (ch crossing : Nat) : Nat × Nat :=
  s.instant ((crossing + s.rd (lnUnit (laneOf ch)) 0x1011 0 : Nat) : Int)

/-- A copy is timestamped (R219): its deciding action's TSTAMP is 0b01 or 0b10, or its descriptor asks. -/
def stamped (f : Frame) : Bool :=
  (match f.decision with | some d => actTstamp d.action = 1 || actTstamp d.action = 2 | none => false)
    || (match f.desc with | some t => t.word1.testBit 40 | none => false)

/-- One-step correction (R221): the patches, and whether the copy is counted in `tx_onestep_skipped`. -/
def oneStep (f : Frame) (tx : Nat × Nat) : List (Nat × List Octet) × Bool :=
  let want2 : Bool := match f.decision with | some d => actTstamp d.action = 2 | none => false
  let wantO : Bool := match f.desc with | some t => t.word1.testBit 39 | none => false
  match f.key with
  | none => ([], want2 || wantO)
  | some k =>
    match ptpAt f k with
    | none => ([], want2 || wantO)
    | some p =>
      if wantO then (if octet f.inner p % 16 = 0 then originPatch f k p tx.1 else [], false)
      else if want2 then
        match f.rxTime with
        | some rx => (correction f k p (((tx.2 : Int) - rx.2) * 4096), false)
        | none => ([], true)
      else ([], false)

/-- A send-cache slot of a channel (R159); a slot with no header octets is not valid and keeps its generation. -/
def State.foldSlot (s : State) (ch slot : Nat) (send : Bool) : Option FoldSlot :=
  s.folds.find? (fun f => f.ch = ch && f.slot = slot && f.send = send)

def State.setFoldSlot (s : State) (f : FoldSlot) : State :=
  { s with folds := f :: s.folds.filter (fun g => !(g.ch = f.ch && g.slot = f.slot && g.send = f.send)) }

/-- The frame that a FOLD_DATA frame unfolds to (R163): the header octets of the slot with the variable octets and the checksum written,
then the rest. `body` begins after the fabric header and has no FCS. -/
def unfold (sl : FoldSlot) (body : List Octet) : List Octet :=
  let h := patch (patch sl.header sl.pos0 ((body.drop 2).take 2)) sl.pos1 ((body.drop 4).take 2)
  let h1 := if sl.v4csum then
      let z := patch h (sl.v4off + 10) [0, 0]
      patch h (sl.v4off + 10) (toMsb 2 (inetSum ((z.drop sl.v4off).take (octet h sl.v4off % 16 * 4))))
    else h
  h1 ++ body.drop 6

/-- What a foldable frame would install (R160): HL, POS0, POS1, V4CSUM, V4OFF; `none` where it is not foldable. Positions are those
of the frame's octets. -/
def foldShape (f : Frame) (k : Key) : Option (Nat × Nat × Nat × Bool × Nat) :=
  match k.l4 with
  | none => none
  | some p =>
    let hl := p - k.l2 + 4
    let v4 : Bool := k.ktype = 1
    let l3 := k.l3 - k.l2
    if (k.isTcp || k.isUdp) && (v4 || k.ktype = 2) && !k.frag && hl ≤ 64 && 64 ≤ 12 + 6 + (f.inner.length - 4 - hl) + 4
      && (!v4 || ipv4Good ((f.inner.drop l3).take (octet f.inner l3 % 16 * 4))) then
      some (if v4 then (hl, l3 + 2, l3 + 4, true, l3) else (hl, l3 + 4, l3 + 2, false, 0))
    else none

/-- The slot's octets equal the frame's first HL octets outside the variable positions (R160). -/
def foldMatch (sl : FoldSlot) (l : List Octet) (hl pos0 pos1 : Nat) (v4 : Bool) (v4off : Nat) : Bool :=
  let free (i : Nat) : Bool :=
    i = pos0 || i = pos0 + 1 || i = pos1 || i = pos1 + 1 || (v4 && (i = v4off + 10 || i = v4off + 11))
  sl.header.length = hl && sl.pos0 = pos0 && sl.pos1 = pos1 && sl.v4csum = v4 && sl.v4off = v4off
    && (List.range hl).all (fun i => free i || octet sl.header i = octet l i)

/-- A template is installed in the send cache and TEMPLATE_INSTALL is queued (R160, R161); one that waits already will carry it. -/
def State.installSlot (s : State) (ch slot gen : Nat) (l : List Octet) (sh : Nat × Nat × Nat × Bool × Nat) : State :=
  let s1 := (s.setFoldSlot ⟨ch, slot, true, gen, sh.2.1, sh.2.2.1, sh.2.2.2.1, sh.2.2.2.2, l.take sh.1⟩).setReg (.sendMiss ch slot) 0
  if s1.genQ.contains (.install ch slot) then s1 else { s1 with genQ := s1.genQ ++ [.install ch slot] }

/-- The walk of a frame's key (R123). -/
def State.parseOf (s : State) (f : Frame) : ParseIn :=
  ⟨f.octets, f.ended, f.onFabric, f.ing, if s.isChannel f.ing then s.rd (chUnit f.ing) 0x1002 0 else 0,
   [1, 2, 3, 4].map (fun k => s.rd 0x006 0x1000 k), f.descLen⟩

/-- The key by which a copy is folded (R160): a transit frame, decided by its header, is walked as far as its octets have come. -/
def State.foldKey (s : State) (f : Frame) : Option Key := if s.isTransit f then some (s.parseOf f).parse else f.key

/-- A copy on a fabric link begins (R160, R161, R164): its lead octets, how many frame octets they stand for, its fold sequence, and the state
after the cache action. -/
def State.foldSend (s : State) (f : Frame) (c : Copy) : (List Octet × Nat × Option Nat) × State :=
  let plain := (s.headerOf f c 0 0, 0, none)
  let carriesData : Bool := match f.decision with | some _ => true | none => false
  match s.foldKey f with
  | none => (plain, s)
  | some k =>
    if s.rd (chUnit c.ep) 0x1020 0 ≠ 1 || !carriesData then (plain, s)
    else
      match foldShape f k with
      | none => (plain, s)
      | some sh =>
        let held := (s.copies.filter (fun d => d.ep = c.ep && d.state = .held && d.fseq.isSome)).length
        if 128 ≤ held then (plain, s)
        else
          let slot := symHash k f.octets % 256
          match s.foldSlot c.ep slot true with
          | none => (plain, s.installSlot c.ep slot 1 f.inner sh)
          | some sl =>
            if sl.header = [] then (plain, s.installSlot c.ep slot ((sl.gen + 1) % 256) f.inner sh)
            else if foldMatch sl f.inner sh.1 sh.2.1 sh.2.2.1 sh.2.2.2.1 sh.2.2.2.2 then
              if c.resend || s.genQ.contains (.install c.ep slot) then (plain, s)
              else
                let q := s.regN (.fseq c.ep)
                let body := toMsb 1 sl.gen ++ toMsb 1 q ++ (f.inner.drop sl.pos0).take 2 ++ (f.inner.drop sl.pos1).take 2
                ((s.headerOf f c 1 slot ++ body, sh.1, some q),
                 ((s.setReg (.fseq c.ep) ((q + 1) % 256)).setReg (.sendMiss c.ep slot) 0).owe c.frame [.count (chUnit c.ep) 0x8020 0 1])
            else
              let m := s.regN (.sendMiss c.ep slot) + 1
              if s.rd 0x009 0x1001 0 ≤ m then (plain, s.installSlot c.ep slot ((sl.gen + 1) % 256) f.inner sh)
              else (plain, s.setReg (.sendMiss c.ep slot) m)

/-- A copy starts (R176): the tags and debits of its queue (R185, R188). -/
def State.startTags (s : State) (c : Copy) : State :=
  let l := s.charge c
  let t := s.tags c l
  let s1 := (s.setReg (.vtime c.ep c.cls) t.1).setReg (.finish c.queue) t.2
  match c.queue with
  | .flow q => if qRate (s.qCfg q) = 0 then s1 else s1.setReg (.shaper q) (s1.reg (.shaper q) - l * 65536)
  | _ => s1

/-- A copy replaced by one that stands last in the list: the order in which copies have started. -/
def State.startCopy (s : State) (c d : Copy) : State := { s with copies := s.copies.erase c ++ [d] }

/-- A copy starts on a channel. -/
def State.startOnChannel (s : State) (f : Frame) (c : Copy) (level crossing : Nat) (ecc : CellRead) : State :=
  let pre : Bool := s.mergeOn c.ep && s.rd (chUnit c.ep) 0x5030 0 = 2 && level = 0
  let l := s.charge c
  let w := s.weightOf c
  let start := s.startOctets c.ep pre
  let s1 := (s.startTags c).beginQuarter c.ep (s.testLen c)
  let s2 := if pre then s1.setReg (.fcntTx c.ep 0) ((s1.reg (.fcntTx c.ep 0) + 1) % 4) else s1
  if !s.chUp c.ep then
    s2.startCopy c { c with state := .sending, ending := .down, charge := l, weight := w, start := start, cut := !f.committed, since := s.now }
  else
    let tx := s.txInstant c.ep crossing
    let one : List (Nat × List Octet) × Bool := if stamped f then oneStep f tx else ([], false)
    let s3 := if one.2 then s2.owe c.frame [.count (chUnit c.ep) 0x8045 0 1] else s2
    let fd : (List Octet × Nat × Option Nat) × State := if s.fabricRole c.ep then s3.foldSend f c else (([], 0, none), s3)
    let r := fd.2.readCells f ecc
    (r.2.lit (laneOf c.ep)).startCopy c { c with
      state := .sending
      ending := if r.1 then .ecc else .full
      charge := l
      weight := w
      start := start
      cut := !f.committed
      since := s.now
      pos := 0
      frags := 0
      lead := fd.1.1
      skip := fd.1.2.1
      fseq := fd.1.2.2
      patches := one.1
      txTime := if stamped f then some tx else none }

/-- A chosen copy starts on a channel (R176): the wire is free for it and nothing stops it. -/
def State.mayStart (s : State) (ch level : Nat) (c : Copy) : Bool := s.wireFree ch && s.startOpen ch level c

/-- The octets that wait in an air link's transmit FIFO (R252). -/
def State.airFifo (s : State) (ep : Nat) : Nat :=
  ((s.copies.filter (fun c => c.ep = ep && c.state = .sending)).map (fun c => (s.wireOctets c).length)).sum

/-- TX_FRAME_START (R176, R196): the copy chosen at a level of an endpoint starts; `crossing` is the time ahead, in 1/16 ns, at which
the first bit after the SFD crosses the lane interface. A frame of a lower level that could not be cut when the copy was chosen is cut where it
can be now (R204, R206). -/
def execTxFrameStart (ep level crossing : Nat) (ecc : CellRead) (s : State) : Host.Outcome State Fault Refusal := gathered s fun s =>
  match s.chosen ep level with
  | none => .next s
  | some c =>
    match s.frame? c.frame with
    | none => .next s
    | some f =>
      if !(s.mainUp && s.running) || s.asked 3 then .next s
      else if isAir ep then
        if s.airFifo ep < 8192 ∧ !s.asked 2 ∧ s.gateOpen ep c.cls s.time then
          .next ((s.startTags c).startCopy c { c with state := .sending, charge := s.charge c, weight := s.weightOf c })
        else .next s
      else
        let s1 := s.cutFor ep level
        if s1.mayStart ep level c then .next (s1.startOnChannel f c level crossing ecc) else .next s1

/-- A copy's charge is corrected at its end, where its length was not known at its start (R89, R185, R188); `sent` octets have left with their
FCS, and the charge is that of the copy unfolded. -/
def State.correctCharge (s : State) (c : Copy) (sent : Nat) : State :=
  let actual := chargeOf c.ep (sent + c.skip + (if s.isChannel c.ep ∧ s.fabricRole c.ep then 12 else 0) - c.lead.length)
  if actual = c.charge ∨ !c.cut then s
  else
    let d := ceilDiv (c.charge * 65536) c.weight - ceilDiv (actual * 65536) c.weight
    let s0 := if s.quartered c.ep then
        s.setReg (.quarterCredit c.ep) (min ((s.maxFrame c.ep : Int) + 20) (s.reg (.quarterCredit c.ep) + ((c.charge : Int) - actual)))
      else s
    let s1 := s0.setReg (.finish c.queue) ((s.regN (.finish c.queue) + 2 ^ 64 - d % 2 ^ 64) % 2 ^ 64 : Nat)
    match c.queue with
    | .flow q =>
      if qRate (s.qCfg q) = 0 then s1
      else s1.setReg (.shaper q) (min ((qBurst (s.qCfg q) : Int) * 65536) (s1.reg (.shaper q) + ((c.charge : Int) - actual) * 65536))
    | _ => s1

/-- A two-step record (R220, Table 8.6). -/
def State.txTsRecord (s : State) (ch : Nat) (f : Frame) (tx : Nat) : State :=
  let q := s.regN (.wseq ch)
  let p : Option Nat := match f.key with | some k => ptpAt f k | none => none
  let w : Nat := match p with
    | some p => octet f.inner p % 16 * 2 ^ 24 + octet f.inner (p + 4) * 2 ^ 16 + be16 f.inner (p + 30)
    | none => 0xFF * 2 ^ 24
  let e := extTime tx + q * 2 ^ 96 + w * 2 ^ 128 + f.ing * 2 ^ (160 + 25)
  ((s.setEnt (chUnit ch) 0x6030 (q % 64) e).setReg (.wseq ch) (((q + 1) % 2 ^ 32 : Nat) : Int)).raise (causeTxTs ch)

/-- The type of a frame by its octets from the destination address on, and whether it is tagged (R377). -/
def typeOf (l : List Octet) : Nat × Bool := (addrType l, isTpid (be16 l 12))

/-- The type and tagging of a frame for R377: the fabric's own frames have neither addresses nor a tag. -/
def sentType (f : Frame) : Nat × Bool := if f.onFabric ∧ 2 ≤ fabType f.octets then (3, false) else typeOf f.inner

/-- A copy of frame `f` has left a channel in full (R196, R376, Table 7.6): its counts, its two-step record, its hold (R164). -/
def State.endFull (s : State) (f : Frame) (c : Copy) : State :=
  let wire := s.wireOctets c
  let ch := c.ep
  let ty := sentType f
  let s1 := s.statFrame (csUnit ch) 0x8010 (wire.length + 4) ty.1 ty.2
  let s2 := (s1.countQueue c.queue 0 1).countQueue c.queue 1 f.len
  let two : Bool := f.desc.isNone && (match f.decision with | some d => actTstamp d.action = 1 | none => false)
  let s3 := match c.txTime with
    | some t => if two then s2.txTsRecord ch f t.1 else s2
    | none => s2
  let s3 := match f.desc, c.txTime with
    | some d, some t =>
      if d.word1.testBit 40 && !f.completed
          && !s3.copies.any (fun (x : Copy) => x.frame = f.id && s3.isChannel x.ep && x.ep < ch && x.state ≠ CopyState.held) then
        s3.txComplete f d 0 (some (ch, t.1))
      else s3
    | _, _ => s3
  match c.fseq with
  | some q =>
    (s3.setCopy c { c with state := .held }).startTimer (.foldHold ch q) (s3.rd (chUnit ch) 0x1021 0)
  | none => s3.dropCopy c

/-- TX_FRAME_END (R196): the last octet of the copy in progress on a channel is sent. -/
def State.txEnd (s : State) (c : Copy) : State :=
  let ch := c.ep
  let wire := s.wireOctets c
  let stomp : Bool := c.ending = .stomped || c.ending = .ecc
  let endOctets := if stomp then stompOctets wire else fcsOctets wire
  let s0 := s.correctCharge c (wire.length + 4)
  let s1 := { s0 with
    txOut := s.txOut.set ch (s.unitStart c true ++ wire.drop c.pos ++ endOctets) [] }
  let s2 := if 0 < c.frags then s1.fragmentSent c else s1
  match c.ending, s.frame? c.frame with
  | .down, _ => ((s0.bump (chUnit ch) 0x8000 0 1).dropCopy c).settle c.frame
  | .stomped, _ => ((if c.cut then s2.bump (chUnit ch) 0x8018 0 1 else s2).dropCopy c).settle c.frame
  | .ecc, _ => (s2.dropCopy c).settle c.frame
  | .full, some f => (s2.endFull f c).settle c.frame
  | .full, none => s2.dropCopy c

/-- A verify or respond mPacket leaves (R89, R203). It is no frame, and SEQ does not count it (R87). PRESUMED (log entry 5): SMD-V 0x07, SMD-R 0x19, 60 octets of 0 and an mCRC. -/
def State.putMPacket (s : State) (ch smd : Nat) : State :=
  let z : List Octet := List.replicate 60 0
  { s.chargeQuarter ch 64 with
    txOut := s.txOut.set ch (s.startWith ch smd ++ z ++ toLsb 4 (crc crc32 z ^^^ 0x0000FFFF)) [] }

/-- An mPacket may leave: the wire is free for it, and the channel is not quiet. -/
def State.mayPacket (s : State) (ch : Nat) : Bool := s.chUp ch && s.wireFree ch && !s.quiet ch 1

/-- A verify or respond mPacket is due: it leaves, or waits for the wire (R203). -/
def State.sendMPacket (s : State) (ch smd : Nat) : State :=
  if s.mayPacket ch then s.putMPacket ch smd else { s with genQ := s.genQ ++ [.mPacket ch smd] }

/-- The mPackets that wait leave as the wire lets them. -/
def State.mPackets (s : State) : State :=
  s.genQ.foldl (fun s g =>
    match g with
    | .mPacket ch smd => if s.mayPacket ch then State.putMPacket { s with genQ := s.genQ.erase g } ch smd else s
    | _ => s) s

end Sys2Proof.Machine
end

