-- ==== Sys2Proof/Machine/Pause.lean ====
section
/-! DEFINITION. Pause and PFC: the messages the device generates (R113 to R118), the frames it obeys and the holds they set (R213 to
R216), the watchdog (R217, R218). -/
namespace Sys2Proof.Machine

/-- The value of a hold set (R215): a hold begins when its counter leaves 0, and its length then counts from 0 (R217). -/
def State.setHold (s : State) (ch hold n : Nat) : State :=
  let s1 := if s.holdOf ch hold = 0 then s.setReg (.holdLen ch hold) 0 else s
  { s1 with holds := s1.holds.set (ch, hold) n 0 }

/-- A hold ends: transmission may go on (R215, R216). -/
def State.endHold (s : State) (ch hold : Nat) : State := (s.setHold ch hold 0).resume ch

/-- Every hold of a channel ends (R215, R217). -/
def State.endHolds (s : State) (ch : Nat) : State :=
  State.resume { s with holds := s.holds.filter (fun h => h.1.1 ≠ ch) } ch

/-- A frame obeyed with time `t` acts on a hold counter (R215): the classes it holds are withdrawn (R176). -/
def State.obey (s : State) (ch hold t : Nat) : State :=
  if t ≠ 0 then
    (s.setHold ch hold (pauseTicks t (s.speed ch) + 1)).withdraw ch (fun c => hold = 0 || c.cls + 1 = hold)
  else if s.holdOf ch hold ≠ 0 then (s.endHold ch hold).bump (chUnit ch) 0x8032 0 1
  else s.bump (chUnit ch) 0x8033 0 1

/-- A pause or PFC frame is well formed (R214). `l` runs from the destination address to the FCS. -/
def State.wellFormedPause (s : State) (ch : Nat) (l : List Octet) : Bool :=
  let da := beN l 0 6
  let own := s.rd (chUnit ch) 0x1002 0
  be16 l 12 = 0x8808 && l.length = 64 && (da = 0x0180C2000001 || (own ≠ 0 && da = own))

/-- The common part of R213, R214 and R218: `form` is the value of `tx_obey` under which `act` applies. -/
def State.pauseFrame (s : State) (ch : Nat) (l : List Octet) (form : Nat) (act : State → State) : State :=
  let u := chUnit ch
  if s.rd u 0x5032 0 = 1 ∧ s.build.hasWatchdog then s.bump u 0x8044 0 1
  else if !s.wellFormedPause ch l then s.bump u 0x8034 0 1
  else if s.rd u 0x1030 0 = form then act s
  else s.bump u 0x8035 0 1

/-- PAUSE_RX (R215): a received pause frame. -/
def execPauseRx (ch : Nat) (frame : List Octet) (s : State) : Host.Outcome State Fault Refusal :=
  if s.mainUp ∧ s.isChannel ch then
    .next (s.pauseFrame ch frame 1 (fun s =>
      let t := be16 frame 16
      let s1 := s.obey ch 0 t
      if t = 0 then s1 else s1.bump (chUnit ch) 0x8030 0 1))
  else .next s

/-- A PFC frame's effect on the eight class counters (R215). -/
def State.obeyPfc (s : State) (ch : Nat) (l : List Octet) : State :=
  let named := [0, 1, 2, 3, 4, 5, 6, 7].filter (fun p => (octet l 17).testBit p)
  let s1 := named.foldl (fun s p => s.obey ch (p + 1) (be16 l (18 + 2 * p))) s
  if named.any (fun p => be16 l (18 + 2 * p) ≠ 0) then s1.bump (chUnit ch) 0x8031 0 1 else s1

/-- PFC_RX (R215): a received PFC frame. -/
def execPfcRx (ch : Nat) (frame : List Octet) (s : State) : Host.Outcome State Fault Refusal :=
  if s.mainUp ∧ s.isChannel ch then .next (s.pauseFrame ch frame 2 (fun s => s.obeyPfc ch frame)) else .next s

/-- MAC_CONTROL_OTHER (R101): a MAC control frame with another opcode is discarded and counted. -/
def execMacControlOther (ch : Nat) (_frame : List Octet) (s : State) : Host.Outcome State Fault Refusal :=
  if s.mainUp ∧ s.isChannel ch then .next (s.bump (chUnit ch) 0x8016 0 1) else .next s

/-- PAUSE_HOLD_END (R215): a hold counter reaches 0. -/
def execPauseHoldEnd (ch hold : Nat) (s : State) : Host.Outcome State Fault Refusal :=
  if s.mainUp ∧ 0 < s.holdOf ch hold then .next (s.endHold ch hold) else .next s

/-- The length of a hold in ticks at the moment of a break: at least the limit (R217). -/
def State.breakLen (s : State) (ch hold : Nat) : Nat := max (s.regN (.holdLen ch hold)) (s.rd (chUnit ch) 0x1035 0 * 6250)

/-- The longest of a channel's holds in force, the lowest on a tie; hold 0 is the channel-wide one (R217). -/
def State.longestHold (s : State) (ch : Nat) : Nat :=
  let act := [1, 2, 3, 4, 5, 6, 7, 8, 0].filter (fun h => 0 < s.holdOf ch h)
  let top := (act.map (fun h => s.regN (.holdLen ch h))).foldl max 0
  (act.find? (fun h => s.regN (.holdLen ch h) = top)).getD 0

/-- The watchdog breaks the holds of a channel (R217). -/
def State.wdBreak (s : State) (ch : Nat) : State :=
  let u := chUnit ch
  let h := s.longestHold ch
  let s1 := ((s.bump u 0x8043 0 1).latch u 19).raise (causePauseWd ch)
  let s2 := s1.record 0x0402 u [(1, ch), (1, if h = 0 then 0xFF else h - 1), (4, s.breakLen ch h)]
  ((s2.wr u 0x5032 0 1).startTimer (.holdoff ch) (s.rd u 0x1036 0 * 6250)).endHolds ch

/-- The watchdog may break the channel: a hold is in force and the limit is not 0. -/
def State.wdArmed (s : State) (ch : Nat) : Bool :=
  s.build.hasWatchdog && s.isChannel ch && s.rd (chUnit ch) 0x1035 0 ≠ 0
    && [0, 1, 2, 3, 4, 5, 6, 7, 8].any (fun h => 0 < s.holdOf ch h)

/-- PAUSE_WD_BREAK (R217): a hold has lasted `pause_wd_limit`. -/
def execPauseWdBreak (ch : Nat) (s : State) : Host.Outcome State Fault Refusal :=
  if s.mainUp ∧ s.wdArmed ch then .next (s.wdBreak ch) else .next s

/-- HOLDOFF ends (R218). -/
def State.holdoffOver (s : State) (ch : Nat) : State := (s.stopTimer (.holdoff ch)).wr (chUnit ch) 0x5032 0 0

/-- HOLDOFF_END (R218). -/
def execHoldoffEnd (ch : Nat) (s : State) : Host.Outcome State Fault Refusal :=
  if s.mainUp ∧ s.build.hasWatchdog ∧ s.rd (chUnit ch) 0x5032 0 = 1 then .next (s.wake.holdoffOver ch) else .next s

/-- The refresh of an account in XOFF (R116, R117). -/
def State.refresh (s : State) (ch k : Nat) : State :=
  let s1 := s.stopTimer (.refresh ch k)
  if s.inXoff ch k ∧ s.chUp ch then ((s1.setReg (.pauseDue ch k) 1).queuePause ch).armRefresh ch k else s1

/-- PAUSE_REFRESH_EXPIRE (R117). -/
def execPauseRefreshExpire (ch acct : Nat) (s : State) : Host.Outcome State Fault Refusal :=
  if s.mainUp ∧ (s.timer (.refresh ch acct)).isSome then .next (s.wake.refresh ch acct) else .next s

/-- A pause of the partner has run out (R116). -/
def State.activeOver (s : State) (ch k : Nat) : State :=
  (s.stopTimer (.pauseActive ch k)).wr (chUnit ch) 0x5013 0 (setBit (s.rd (chUnit ch) 0x5013 0) (accountBit k) false)

/-- PAUSE_ACTIVE_EXPIRE (R116): D ticks have passed since the last message with a time began. -/
def execPauseActiveExpire (ch acct : Nat) (s : State) : Host.Outcome State Fault Refusal :=
  if s.mainUp ∧ s.isChannel ch ∧ s.pauseActive ch acct then .next (s.wake.activeOver ch acct) else .next s

/-- A generated MAC control frame without its FCS (Table 4.4): `msgs` are the accounts with their times. -/
def State.macControlFrame (s : State) (ch : Nat) (pfc : Bool) (msgs : List (Nat × Nat)) : List Octet :=
  let time (p : Nat) : Nat := match msgs.find? (fun m => m.1 = p + 1) with | some m => m.2 | none => 0
  let vec := (msgs.map (fun m => 2 ^ (m.1 - 1))).sum
  toMsb 6 0x0180C2000001 ++ toMsb 6 (s.rd (chUnit ch) 0x1002 0) ++ toMsb 2 0x8808
    ++ (if pfc then
          toMsb 2 0x0101 ++ toMsb 2 vec ++ [0, 1, 2, 3, 4, 5, 6, 7].flatMap (fun p => toMsb 2 (time p)) ++ List.replicate 26 0
        else toMsb 2 0x0001 ++ toMsb 2 (match msgs with | m :: _ => m.2 | [] => 0) ++ List.replicate 42 0)

/-- The messages an account owes when its frame starts (R116). -/
def State.messages (s : State) (ch : Nat) : List (Nat × Nat) :=
  (s.flowAccounts ch).filterMap (fun k =>
    if !s.messageDue ch k then none
    else if s.inXoff ch k then some (k, s.rd (chUnit ch) 0x1012 0)
    else if s.pauseActive ch k then some (k, 0)
    else none)

/-- A message has been sent (R116): `pause_active`, its timer and the counts of Table 4.7. -/
def State.messageSent (s : State) (ch : Nat) (m : Nat × Nat) : State :=
  let u := chUnit ch
  let s1 := s.setReg (.pauseDue ch m.1) 0
  if m.2 = 0 then (s1.activeOver ch m.1).bump u 0x801C m.1 1
  else
    ((s1.wr u 0x5013 0 (setBit (s1.rd u 0x5013 0) (accountBit m.1) true)).startTimer (.pauseActive ch m.1) (s.pauseD ch + 1)).bump
      u 0x801B m.1 1

/-- A generated frame of `l` octets without FCS leaves a channel: its start octets, on a fabric link a link-local header (log entry
12), its end, its counts (R118, R376). -/
def State.sendGenerated (s : State) (ch : Nat) (header : List Octet) (l : List Octet) (ty : Nat) : State :=
  let wire := (if s.fabricRole ch then header else []) ++ l
  let s1 := { s.beginQuarter ch (wire.length + 4) with
    txOut := s.txOut.set ch (s.startOctets ch false ++ wire ++ fcsOctets wire) [] }
  ((s1.statFrame (csUnit ch) 0x8010 (wire.length + 4) ty false).stat (csUnit ch) 0x8018 0 1).lit (laneOf ch)

/-- The fabric header of a pause or PFC frame on a fabric link: link-local, level 2 (R206). -/
def State.macControlHeader (s : State) : List Octet := fabHeader 0 0 (s.rd 0x00D 0x5002 0) 0x7F 7 2 1 0 0 (s.rd 0x00D 0x5005 0) 0

/-- The wire is free for a generated frame: a preemptable frame in progress is cut for it (R118, R161). A lane with role FABRIC sends idle only
while the fabric is not enabled (R294). -/
def State.clearFor (s : State) (ch : Nat) : Option State :=
  let level := if s.fabricRole ch then 2 else 1
  if !s.chUp ch || s.quiet ch level || (s.fabricRole ch && s.rd 0x00D 0x1000 0 = 0) then none
  else
    let s1 := s.cutFor ch level
    if s1.wireFree ch then some s1 else none

/-- The generated frame `g` leaves the queue. -/
def State.genDone (s : State) (g : GenFrame) : State := { s with genQ := s.genQ.erase g }

/-- The pause or PFC frame that waits for a channel starts (R116, R118): the messages of a mode left first (R115). A frame left with no
message is not sent. -/
def State.startPause (s : State) (ch : Nat) : State :=
  match s.genQ.find? (fun g => match g with | .pauseEnd c _ _ => c = ch | .pause c => c = ch | _ => false) with
  | some (.pauseEnd _ pfc accts) =>
    match s.clearFor ch with
    | none => s
    | some s1 =>
      let msgs := accts.map (fun k => (k, 0))
      let s2 := (s1.genDone (.pauseEnd ch pfc accts)).sendGenerated ch s.macControlHeader (s1.macControlFrame ch pfc msgs) 1
      (msgs.foldl (fun s m => s.messageSent ch m) s2).resume ch
  | some _ =>
    let msgs := s.messages ch
    let s0 := (s.flowAccounts ch).foldl
      (fun s k => if msgs.any (fun m => m.1 = k) then s else s.setReg (.pauseDue ch k) 0) (s.genDone (.pause ch))
    if msgs = [] then s0.resume ch
    else
      match s.clearFor ch with
      | none => s
      | some s1 =>
        let s2 := (s1.genDone (.pause ch)).sendGenerated ch s.macControlHeader
          (s1.macControlFrame ch (s.rd (chUnit ch) 0x1010 0 = 2) msgs) 1
        (msgs.foldl (fun s m => s.messageSent ch m) s2).resume ch
  | none => s

/-- PAUSE_GEN_START (R118): a generated pause or PFC frame starts on a channel. -/
def execPauseGenStart (ch : Nat) (s : State) : Host.Outcome State Fault Refusal :=
  if s.mainUp ∧ s.running ∧ !s.asked 5 ∧ s.isChannel ch then .next (s.startPause ch) else .next s

/-- What leaving UP does to a channel's flow control (R118, R215). -/
def State.pauseDown (s : State) (ch : Nat) : State :=
  let s1 := (List.range 9).foldl (fun s k => s.stopTimer (.refresh ch k)) s
  State.endHolds { s1 with genQ := s1.genQ.filter (fun g => !genFor ch g) } ch

/-- What entering UP does: every account in XOFF sends its message (R118). -/
def State.pauseUp (s : State) (ch : Nat) : State :=
  (s.flowAccounts ch).foldl (fun s k =>
    if s.inXoff ch k then ((s.setReg (.pauseDue ch k) 1).queuePause ch).armRefresh ch k
    else if s.messageDue ch k then s.queuePause ch else s) s

/-- A committed change of `pause_mode` (R115): what the old mode owes goes first, then the new mode's accounts by their occupancy. -/
def State.pauseModeChange (s : State) (ch old : Nat) : State :=
  let u := chUnit ch
  let act := (List.range 9).filter (fun k => s.pauseActive ch k)
  let s1 := (List.range 9).foldl (fun s k => (s.stopTimer (.refresh ch k)).setReg (.pauseDue ch k) 0) (s.wr u 0x5012 0 0)
  let s2 := if act = [] ∨ !s.chUp ch then s1 else { s1 with genQ := .pauseEnd ch (old = 2) act :: s1.genQ }
  (List.range 9).foldl (fun s k => s.checkXoff ch k) s2

/-- A committed change of quota, headroom or marks acts on the occupancy as it stands; an account that has lost its headroom leaves
XOFF (R113, R115). -/
def State.marksChange (s : State) (ch : Nat) : State :=
  (List.range 9).foldl (fun s k =>
    if s.inXoff ch k && !s.hasHeadroom ch k then
      let s1 := (s.wr (chUnit ch) 0x5012 0 (setBit (s.rd (chUnit ch) 0x5012 0) (accountBit k) false)).stopTimer (.refresh ch k)
      if s.pauseActive ch k then (s1.setReg (.pauseDue ch k) 1).queuePause ch else s1.setReg (.pauseDue ch k) 0
    else s.checkXoff ch k) s

end Sys2Proof.Machine
end

