-- ==== Sys2Proof/Machine/HostRx.lean ====
section
/-! DEFINITION. Host copies (R237 to R241, R246): the buffer a copy takes, its writes over MP, its completion. -/
namespace Sys2Proof.Machine

/-- The octets of a frame as the host gets them, with an FCS of its own once it has ended; before, those known not to be the FCS of
a fabric frame. -/
def Frame.whole (f : Frame) : List Octet :=
  if f.ended then f.data ++ fcsOctets f.data else if f.onFabric then f.inner.take (f.inner.length - 4) else f.inner

/-- The bursts of a write: they do not cross a 256-octet boundary (R246). -/
def bursts : Nat → Nat → List Octet → List (Nat × List Octet)
  | 0, _, _ => []
  | k + 1, addr, l =>
    if l = [] then []
    else
      let n := 256 - addr % 256
      (addr, l.take n) :: bursts k (addr + n) (l.drop n)

/-- The payload of a host copy that has entered and is not yet written is written to its buffer, within its size (R239, R240). -/
def State.hostWrites (s : State) (f : Frame) (c : Copy) (b : BqBuffer) : State :=
  let l := f.whole.drop c.pos
  let s1 := (bursts 70 (b.addr + c.pos) l).foldl
    (fun s w => s.mpIssue true w.1 w.2 (.buffer f.id b.bq c.mirror)) s
  s1.setCopy c { c with pos := c.pos + l.length }

/-- The next buffer of a BQ: recycled ones first (R239), none of an entry in error or that H has not passed. -/
def State.nextBuffer (s : State) (bq : Nat) : Option BqBuffer :=
  match s.bqBuffers.find? (fun b => b.bq = bq && b.recycled) with
  | some b => some b
  | none => s.bqBuffers.find? (fun b => b.bq = bq && !b.bad && b.ahead.isNone)

/-- The CQ of a BQ. -/
def State.cqOf (s : State) (u : Nat) : Nat := s.rd u 0x4003 0

/-- A copy may take a buffer (R238): the BQ runs, a buffer has been read, its CQ has a credit. -/
def State.bufferReady (s : State) (bq : Nat) : Bool :=
  s.ringState (bqUnit bq) = 1 && (s.nextBuffer bq).isSome && 0 < s.cqCredits (s.cqOf (bqUnit bq))

/-- A copy takes a buffer of its BQ and its credit is reserved (R238, R241): the copy as it then stands. -/
def State.takeBuffer (s : State) (c : Copy) (b : BqBuffer) : Copy × State :=
  let d := { c with state := .sending, buffer := some b, pos := 0, level := 0 }
  (d, (State.setCopy { s with bqBuffers := s.bqBuffers.erase b } c d).reserve (s.cqOf (bqUnit b.bq)))

/-- A write of the copy's payload is still on its way (Table 9.10). -/
def State.writesOut (s : State) (c : Copy) (bq : Nat) : Bool :=
  s.mpOps.any (fun o => o.purpose = .buffer c.frame bq c.mirror)

/-- The completion of a host copy (Table 9.6); the copy's `level` holds its status. -/
def State.rxEntry (s : State) (f : Frame) (c : Copy) (b : BqBuffer) : CqEntry :=
  let u := bqUnit b.bq
  let h := match f.decision with | some d => d.hsym | none => 0
  let flags := f.l3 * 2 ^ 61 + f.l4 * 2 ^ 58 + decisionFlags f.decision + c.mirror.toNat * 2 ^ 53 + f.guardMark.toNat * 2 ^ 51
  completionOf b.cookie f.len b.bq 1 c.level (b.pos % s.ringN u) f.ing c.cls h f.guardValue flags (f.rxTime.map Prod.fst)

/-- A host copy whose frame has been applied and whose writes are all answered completes (R241, Table 9.10). -/
def State.rxFinish (s : State) (c : Copy) : State :=
  match c.buffer, s.frame? c.frame with
  | some b, some f =>
    if f.applied && c.pos = f.whole.length && !s.writesOut c b.bq then
      (((s.cqReady (s.cqOf (bqUnit b.bq)) (s.rxEntry f c b))).dropCopy c).settle f.id
    else s
  | _, _ => s

/-- The host copies of a frame that are being written. -/
def State.hostSending (s : State) (id : Nat) : List Copy :=
  s.copies.filter (fun c => c.frame = id && c.ep = Config.hostEp && c.state = .sending)

/-- A buffer has proved too small for a copy (R238, R239): its writes stop, the copy is dropped, the buffer and the credit are kept, and the drop
is counted with the effects of its frame (R36). -/
def State.bufferSmall (s : State) (c : Copy) (b : BqBuffer) : State :=
  (((s.keepBuffer c).owe c.frame [.count (bqUnit b.bq) 0x8006 0 1]).dropCopy c).settle c.frame

/-- The early writes of a frame go on as its cells are linked (R239). -/
def State.earlyWrites (s : State) (id : Nat) : State :=
  (s.hostSending id).foldl (fun s c =>
    match c.buffer, s.frame? id with
    | some b, some f => if b.size < f.whole.length then s.bufferSmall c b else s.hostWrites f c b
    | _, _ => s) s

/-- The early write of a host copy at its decision (R239, R271). -/
def State.earlyWrite (s : State) (c : Copy) (bq : Nat) : State :=
  let inFlight := (s.copies.filter (fun d => d.queue = .bq bq && d.state = .sending
    && (match s.frame? d.frame with | some f => !f.committed | none => false))).length
  let alone : Bool := (s.copies.filter (inQueue (.bq bq))).length ≤ 1
  let uncommitted : Bool := match s.frame? c.frame with | some f => !f.committed && !guardDrops f | none => false
  if s.rd 0x00C 0x1002 0 = 1 && alone && uncommitted && s.bufferReady bq && inFlight < 4 then
    match s.nextBuffer bq with
    | some b => (s.takeBuffer c b).2.earlyWrites c.frame
    | none => s
  else s

end Sys2Proof.Machine
end

