-- ==== Sys2Proof/Machine/Rings.lean ====
section
/-! DEFINITION. Producer rings (R223 to R234, R238 to R245): doorbells, scans, descriptor and payload reads, run-ahead and its discard,
entries in error, the states of Table 9.8, stalls. -/
namespace Sys2Proof.Machine

/-- The producer rings of the build. -/
def State.ringList (s : State) : List Nat := List.range s.build.rings

/-- T, H and the position of the next descriptor read. -/
def State.ringT (s : State) (u : Nat) : Nat := s.rd u 0x5000 0
def State.ringH (s : State) (u : Nat) : Nat := s.rd u 0x5001 0
def State.ringF (s : State) (u : Nat) : Nat := s.rd u 0x5002 0

/-- The number of operations on MP with a purpose. -/
def State.opsOf (s : State) (p : MpPurpose) : Nat := (s.mpOps.filter (fun o => o.purpose = p)).length

/-- Reads on MP not yet answered (`host.mp_reads_outstanding`). -/
def State.readsOut (s : State) : Nat := (s.mpOps.filter (fun o => !o.write)).length

/-- A read may be issued (R246). -/
def State.mayRead (s : State) : Bool := s.readsOut < s.rd 0x00C 0x4001 0

/-- The frames of a TQ that have been started and are not committed. -/
def State.startedOf (s : State) (q : Nat) : Nat :=
  (s.frames.filter (fun f => !f.committed && (match f.desc with | some t => t.tq = q | none => false))).length

/-- The first position of a TQ whose frame has not been started. -/
def State.nextStart (s : State) (q : Nat) : Nat := s.advancePos (tqUnit q) (s.ringH (tqUnit q)) (s.startedOf q)

/-- A running TQ has a frame to start (R232). -/
def State.tqWork (s : State) (q : Nat) : Bool := s.ringState (tqUnit q) = 1 && s.nextStart q ≠ s.ringT (tqUnit q)

/-- A TQ may start a frame: it has work, and its CQ has a credit (R232, R242). -/
def State.tqLive (s : State) (q : Nat) : Bool := s.tqWork q && 0 < s.cqCredits (s.cqOf (tqUnit q))

/-- `priority` of a ring. -/
def State.ringPrio (s : State) (u : Nat) : Nat := s.rd u 0x4005 0

/-- The TQ whose frame starts next (R232): the highest priority with work, in turn after the last one served; a ring whose CQ has no
credit starts nothing (R242). -/
def State.tqTurnOf (s : State) : Option Nat :=
  let ready := s.ringList.filter s.tqLive
  let top := (ready.map (fun q => s.ringPrio (tqUnit q))).foldl max 0
  let best := ready.filter (fun q => s.ringPrio (tqUnit q) = top)
  let last := s.regN (.tqTurn top)
  match best.find? (fun q => last ≤ q) with
  | some q => some q
  | none => best.head?

/-- The entries read ahead of a TQ, in the order of their positions. -/
def State.aheadOf (s : State) (q : Nat) : List AheadEntry := s.ahead.filter (fun a => a.desc.tq = q)

/-- The entry of a TQ that is next to be started or to complete in error, once it has been read. -/
def State.aheadNext (s : State) (q : Nat) : Option AheadEntry := (s.aheadOf q).find? (fun a => a.desc.pos = s.nextStart q)

/-- An entry that has been read takes its place among those read ahead (R246: bursts return in any order). -/
def State.addAhead (s : State) (a : AheadEntry) : State :=
  let u := tqUnit a.desc.tq
  let after (x : AheadEntry) : Bool := x.desc.tq = a.desc.tq && s.posDiff u a.desc.pos (s.ringH u) < s.posDiff u x.desc.pos (s.ringH u)
  { s with ahead := s.ahead.filter (fun x => !after x) ++ [a] ++ s.ahead.filter after }

/-- The run-ahead of the TQs that satisfy a condition is discarded (R233): one discard event. -/
def State.discardAhead (s : State) (p : Nat → Bool) : State :=
  let gone : Bool := s.ahead.any (fun a => p a.desc.tq)
    || s.mpOps.any (fun o => match o.purpose with | .descRead .tq q => p q | .payload q _ => p q | _ => false)
  if !gone then s
  else
    let s1 := s.dropOps (fun o => match o with | .descRead .tq q => p q | .payload q _ => p q | _ => false)
    let s2 := { s1 with ahead := s1.ahead.filter (fun a => !p a.desc.tq) }
    let s3 := (s2.ringList.filter p).foldl (fun s q => s.wr (tqUnit q) 0x5002 0 (s.nextStart q)) s2
    s3.bump 0x00C 0x8003 0 1

/-- The words of a ring entry, most significant word last. -/
def entryWord (l : List Octet) (i : Nat) : Nat := ofLsb ((l.drop (8 * i)).take 8)

/-- The status of a TQ entry that cannot be sent (R230, Tables 9.4 and 9.7): 2 DESC_ERR, 1 LENGTH. -/
def tqEntryError (b : Build) (w1 w3 : Nat) : Option Nat :=
  let len := field w1 48 16
  let tags := field w1 46 2
  let dest := field w1 31 7
  let direct : Bool := w1.testBit 38
  if len < 14 ∨ 16348 < len ∨ tags = 3 ∨ (w1.testBit 39 ∧ !w1.testBit 40) ∨ field w1 0 28 ≠ 0 ∨ field w3 0 63 ≠ 0
      ∨ (direct ∧ !(epPresent b dest && dest ≠ Config.hostEp)) ∨ (!direct ∧ (dest ≠ 0 ∨ field w1 28 3 ≠ 0)) then some 2
  else if 16352 < len + 4 * tags + 4 ∨ (w1.testBit 43 ∧ len + 4 * tags < 60) then some 1
  else none

/-- A BQ entry is in error (R230, Table 9.5). -/
def bqEntryBad (w0 w1 w2 w3 : Nat) : Bool :=
  let size := field w1 48 16
  w0 % 64 ≠ 0 || size % 64 ≠ 0 || size < 64 || 16384 < size || field w1 0 48 ≠ 0 || field w2 32 32 ≠ 0 || field w3 0 63 ≠ 0

/-- H advances past an entry (R234, R240). -/
def State.passEntry (s : State) (u : Nat) : State := s.wr u 0x5001 0 (s.advancePos u (s.ringH u) 1)

/-- What a BQ has read or is reading beyond H is discarded (R233, Table 9.8). -/
def State.discardBq (s : State) (ring : Nat) : State :=
  let s1 := s.dropOps (fun p => p = MpPurpose.descRead .bq ring)
  { s1.wr (bqUnit ring) 0x5002 0 (s.ringH (bqUnit ring)) with bqBuffers := s1.bqBuffers.filter (fun b => !(b.bq = ring && b.ahead.isSome)) }

/-- A producer ring enters FAULT (Table 9.8). -/
def State.producerFault (s : State) (kind : RingKind) (ring pos counter : Nat) : State :=
  let u := ringUnit kind ring
  let s1 := match kind with
    | .tq => s.discardAhead (fun q => q = ring)
    | .bq => s.discardBq ring
  let s2 := s1.dropOps (fun p => p = MpPurpose.ringScan kind ring)
  ({ s2 with scans := s2.scans.set u 0 0 }.bump u counter 0 1).ringFault u pos

/-- TQ entries in error complete in position order, as credits allow, and a fault is entered when every entry before the faulting one has been
consumed (R230, R234, R241, Table 9.8). -/
def State.txErrors : Nat → State → Nat → State
  | 0, s, _ => s
  | k + 1, s, q =>
    match s.aheadNext q with
    | none => s
    | some a =>
      match a.failed with
      | none => s
      | some st =>
        if s.startedOf q ≠ 0 then s
        else if st = 0x100 then s.producerFault .tq q a.desc.pos 0x8005
        else if st = 0x101 then s.producerFault .tq q a.desc.pos 0x8004
        else if 0 < s.cqCredits (s.cqOf (tqUnit q)) then
          State.txErrors k ((State.errComplete { s with ahead := s.ahead.erase a } a.desc st).passEntry (tqUnit q)) q
        else s

/-- BQ entries in error complete as credits allow (R230, R241). -/
def State.rxErrors : Nat → State → Nat → State
  | 0, s, _ => s
  | k + 1, s, bq =>
    let u := bqUnit bq
    match s.bqBuffers.find? (fun b => b.bq = bq && b.bad && b.ahead.isNone) with
    | none => s
    | some b =>
      if 0 < s.cqCredits (s.cqOf u) then
        State.rxErrors k ((State.reserve { s with bqBuffers := s.bqBuffers.erase b } (s.cqOf u)).cqReady (s.cqOf u)
          (completionOf b.cookie 0 bq 1 2 (b.pos % s.ringN u) 0x7F 0 0 0 0 none)) bq
      else s

/-- The 64-octet aligned bursts that cover `n` octets from `addr` (R246): their addresses. -/
def readBursts : Nat → Nat → Nat → List Nat
  | 0, _, _ => []
  | k + 1, addr, stop => if addr < stop then addr :: readBursts k (addr - addr % 256 + 256) stop else []

/-- The payload reads of a descriptor are issued. -/
def State.issuePayload (s : State) (a : AheadEntry) : State :=
  let addr := a.desc.addr
  let s1 := { s with ahead := s.ahead.map (fun x => if x = a then { x with issued := true } else x) }
  (readBursts 66 (addr - addr % 64) (addr + field a.desc.word1 48 16)).foldl
    (fun s b => s.mpIssue false b [] (.payload a.desc.tq a.desc.pos)) s1

/-- The cells of a host frame of a descriptor. -/
def descCells (t : TxDesc) : Nat := ceilDiv (max 64 (field t.word1 48 16 + 4 * field t.word1 46 2 + 4)) 64

/-- The cells that the host account will hold once the frames being read are in (R152). -/
def State.hostCells (s : State) : Nat :=
  s.epOccupancy Config.hostEp + ((s.ahead.filter (fun a => a.issued && a.failed.isNone)).map (fun a => descCells a.desc)).sum

/-- The descriptors whose payload is read next: the frame that starts next and up to four following, in the order of R232 (R233). -/
def State.payloadOrder (s : State) : List AheadEntry :=
  let level (p : Nat) : List AheadEntry :=
    let best := s.ringList.filter (fun q => s.tqLive q && s.ringPrio (tqUnit q) = p)
    let last := s.regN (.tqTurn p)
    let turn := best.filter (fun q => last ≤ q) ++ best.filter (fun q => q < last)
    (List.range 5).flatMap (fun i => turn.filterMap (fun q => ((s.aheadOf q).filter (fun a => a.failed.isNone))[i]?))
  ([7, 6, 5, 4, 3, 2, 1, 0].flatMap level).take 5

/-- Payload reads as the order, the account and MP allow. -/
def State.pumpPayload (s : State) : State :=
  s.payloadOrder.foldl (fun s a =>
    if a.issued || !s.mayRead || s.rd 0x009 0x1002 0 < s.hostCells + descCells a.desc then s else s.issuePayload a) s

/-- A TQ whose run-ahead was discarded when a TQ of higher priority gained work reads it again when it is next due: when no such TQ may start a
frame (R233, R242). -/
def State.outranked (s : State) (q : Nat) : Bool :=
  s.regN (.aheadHeld q) = 1 && s.ringList.any (fun r => s.tqLive r && s.ringPrio (tqUnit q) < s.ringPrio (tqUnit r))

/-- Descriptor reads of a TQ (R232, R233, R242). -/
def State.fetchTq : Nat → State → Nat → State
  | 0, s, _ => s
  | k + 1, s, q =>
    let u := tqUnit q
    if s.ringState u = 1 && s.ringF u ≠ s.ringT u && (s.aheadOf q).length + s.opsOf (.descRead .tq q) < 33
        && 0 < s.cqCredits (s.cqOf u) && s.mayRead && !s.outranked q then
      State.fetchTq k (((s.setReg (.aheadHeld q) 0).mpIssue false (s.rd u 0x4000 0 + s.ringF u % s.ringN u * 32) [] (.descRead .tq q)).wr u 0x5002 0
        (s.advancePos u (s.ringF u) 1)) q
    else s

/-- Descriptor reads of a BQ: the device keeps up to four next buffers (DESIGN CHOICE, log entry 17). -/
def State.fetchBq : Nat → State → Nat → State
  | 0, s, _ => s
  | k + 1, s, b =>
    let u := bqUnit b
    if s.ringState u = 1 && s.ringF u ≠ s.ringT u && s.mayRead && 0 < s.cqCredits (s.cqOf u)
        && (s.bqBuffers.filter (fun x => x.bq = b)).length + s.opsOf (.descRead .bq b) < 4 then
      State.fetchBq k ((s.mpIssue false (s.rd u 0x4000 0 + s.ringF u % s.ringN u * 32) [] (.descRead .bq b)).wr u 0x5002 0
        (s.advancePos u (s.ringF u) 1)) b
    else s

/-- Fields of a scan job entry (Table 11.6). -/
def State.job (s : State) (j : Nat) : Nat := s.ent 0x00B 0x6002 j
def jobState (e : Nat) : Nat := field e 62 2
def jobOwner (e : Nat) : Bool := e.testBit 61
def jobSource (e : Nat) : Nat := field e 58 2
def jobPoly (e : Nat) : Nat := field e 56 2
def jobGuarded (e : Nat) : Bool := e.testBit 55
def jobResult (e : Nat) : Nat := field e 40 8
def jobEngine (e : Nat) : Nat := field e 32 2
def jobStart (e : Nat) : Nat := field e 64 64
def jobLength (e : Nat) : Nat := field e 160 32
def jobExpected (e : Nat) : Nat := field e 128 32
def jobValue (e : Nat) : Nat := field e 192 32

/-- A job entry with STATE, RESULT and ENGINE set. -/
def setJob (e st result engine : Nat) : Nat := setField (setField (setField e 62 2 st) 40 8 result) 32 2 engine
/-- DONE_OCTETS. -/
def jobDoneOctets (e : Nat) : Nat := field e 224 32
/-- The octets of the range that are still to come. -/
def jobLeft (e : Nat) : Nat := jobLength e - jobDoneOctets e

/-- Octets of a running job's range have been processed: VALUE and DONE_OCTETS follow (R275). -/
def State.jobTake (s : State) (j : Nat) (l : List Octet) : State :=
  let e := s.job j
  let m := crcOfPoly (jobPoly e)
  let r := crcRun m (s.regN (.jobCrc j)) l
  (s.setReg (.jobCrc j) (r : Int)).setEnt 0x00B 0x6002 j (setField (setField e 192 32 (crcFinish m r)) 224 32 (jobDoneOctets e + l.length))

/-- A running job that reads host memory issues its next burst (R274): one is outstanding for a job (DESIGN CHOICE, log entry 35). -/
def State.jobReads (s : State) (j : Nat) : State :=
  let e := s.job j
  if jobState e = 2 ∧ jobSource e = 0 ∧ jobLeft e ≠ 0 ∧ s.mayRead ∧ s.opsOf (.scan j) = 0 then
    s.mpIssue false ((jobStart e + jobDoneOctets e) / 64 * 64) [] (.scan j)
  else s

/-- A burst of a running job is in (R274): the octets of its range are computed, the others are not. -/
def State.jobBurst (s : State) (j addr : Nat) (octets : List Octet) : State :=
  let e := s.job j
  if jobState e = 2 ∧ jobSource e = 0 then s.jobTake j ((octets.drop (jobStart e + jobDoneOctets e - addr)).take (jobLeft e)) else s

/-- What the host port reads and completes of its own accord, after any change. It stops when it is asked in a handshake (R247). The reads of
scan jobs come after those of the rings (R274). -/
def State.pump (s : State) : State :=
  if s.asked 1 || !s.mainUp then s
  else
    let s1 := s.ringList.foldl (fun s q => State.fetchTq 33 (State.txErrors 33 s q) q) s
    [0, 1, 2, 3].foldl State.jobReads (s1.ringList.foldl (fun s b => State.fetchBq 4 (State.rxErrors 4 s b) b) s1).pumpPayload

/-- A TQ has read ahead, or is reading. -/
def State.hasAhead (s : State) (q : Nat) : Bool :=
  s.ahead.any (fun a => a.desc.tq = q) || s.mpOps.any (fun o => match o.purpose with | .descRead .tq r => r = q | .payload r _ => r = q | _ => false)

/-- A TQ has gained work (R233): the run-ahead of every TQ of lower priority is discarded, and what was discarded waits until it is next due. -/
def State.gainedWork (s : State) (q : Nat) : State :=
  let below (r : Nat) : Bool := r ≠ q && s.ringPrio (tqUnit r) < s.ringPrio (tqUnit q)
  (s.ringList.filter (fun r => below r && s.hasAhead r)).foldl (fun s r => s.setReg (.aheadHeld r) 1) (s.discardAhead below)

/-- Work of a ring changes from `had`. -/
def State.afterTail (s : State) (kind : RingKind) (ring : Nat) (had : Bool) : State :=
  match kind with
  | .tq => (if !had && s.tqWork ring then s.gainedWork ring else s).pump
  | .bq => s.pump

def State.hadWork (s : State) (kind : RingKind) (ring : Nat) : Bool :=
  match kind with | .tq => s.tqWork ring | .bq => false

/-- A doorbell access that fails (R226, R227, R229): `bad_doorbell` and BAD_DOORBELL. -/
def State.badDoorbell (s : State) (u : Nat) : State := (s.bump u 0x8002 0 1).latch u 16

/-- A refused position (R227, R229): also RING_ERR and a record of the ring unit, the value and the positions in force. -/
def State.refusedDoorbell (s : State) (u value a b : Nat) : State :=
  ((s.badDoorbell u).raise (causeRingErr u)).record 0x0901 u [(2, u), (8, value), (4, a), (4, b)]

/-- The bits of a doorbell value above a position of a ring are 0. -/
def State.positionBits (s : State) (u value : Nat) : Bool := value < 2 * s.ringN u

/-- A knock (R228). -/
def State.knock (s : State) (kind : RingKind) (ring : Nat) : State :=
  let u := ringUnit kind ring
  let m := s.scans.get u 0
  match s.ringState u with
  | 1 =>
    if m.testBit 1 then { s with scans := s.scans.set u (setBit m 0 true) 0 }
    else
      State.mpIssue { s with scans := s.scans.set u 2 0 } false (s.rd u 0x4000 0 + s.ringT u % s.ringN u * 32) [] (.ringScan kind ring)
  | 2 => { s with scans := s.scans.set u 1 0 }
  | _ => s

/-- A doorbell write in TAIL mode (R227). -/
def State.tailWrite (s : State) (kind : RingKind) (ring value : Nat) : State :=
  let u := ringUnit kind ring
  let a := s.posDiff u (s.ringT u) (s.ringH u)
  let b := s.posDiff u value (s.ringH u)
  if s.positionBits u value ∧ a ≤ b ∧ b ≤ s.ringN u then
    let had := s.hadWork kind ring
    let s1 := s.wr u 0x5000 0 value
    if s.ringState u = 1 then s1.afterTail kind ring had else s1
  else s.refusedDoorbell u value (s.ringT u) (s.ringH u)

/-- The ring exists on the build. -/
def State.ringThere (s : State) (ring : Nat) : Bool := ring < s.build.rings

/-- TAIL_DOORBELL (R226, R227): a doorbell write to a TQ or BQ; in SCAN mode it is a knock (R228). -/
def execTailDoorbell (kind : RingKind) (ring value : Nat) (width64 : Bool) (s : State) : Host.Outcome State Fault Refusal := gathered s fun s =>
  if s.mainUp then
    let s := s.wake
    let u := ringUnit kind ring
    if !s.ringThere ring then .next (s.bump 0x00C 0x8004 0 1)
    else if !width64 then .next (s.badDoorbell u)
    else if s.rd u 0x4002 0 = 1 then .next (s.knock kind ring)
    else .next (s.tailWrite kind ring value)
  else .next s

/-- SCAN_KNOCK (R228): a doorbell write to a ring in SCAN mode. -/
def execScanKnock (kind : RingKind) (ring : Nat) (width64 : Bool) (s : State) : Host.Outcome State Fault Refusal :=
  if s.mainUp then
    let s := s.wake
    let u := ringUnit kind ring
    if !s.ringThere ring then .next (s.bump 0x00C 0x8004 0 1)
    else if !width64 then .next (s.badDoorbell u)
    else if s.rd u 0x4002 0 = 1 then .next (s.knock kind ring)
    else .next s
  else .next s

/-- RING_SCAN_DONE (R228): the scan in progress has found `ready` entries ready and stops; a marked scan runs. -/
def execRingScanDone (kind : RingKind) (ring ready : Nat) (s : State) : Host.Outcome State Fault Refusal :=
  let u := ringUnit kind ring
  let m := s.scans.get u 0
  if s.mainUp ∧ s.ringThere ring ∧ m.testBit 1 ∧ s.ringState u = 1 then
    let n := min ready (s.ringN u - s.posDiff u (s.ringT u) (s.ringH u))
    let had := s.hadWork kind ring
    let s1 := { s with
      scans := s.scans.set u (m % 2) 0
      mpOps := s.mpOps.filter (fun o => o.purpose ≠ MpPurpose.ringScan kind ring) }
    let s2 := (s1.wr u 0x5000 0 (s1.advancePos u (s1.ringT u) n)).afterTail kind ring had
    .next (if m.testBit 0 then (State.knock { s2 with scans := s2.scans.set u 0 0 } kind ring) else s2)
  else .next s

/-- DOORBELL_ABSENT (R226): a write to a slot of a ring that the build lacks. -/
def execDoorbellAbsent (offset : Nat) (s : State) : Host.Outcome State Fault Refusal :=
  if s.mainUp ∧ 0x2000 ≤ offset ∧ offset < 0x2600 ∧ s.build.rings ≤ (offset - 0x2000) / 8 % 64 then
    .next (s.wake.bump 0x00C 0x8004 0 1)
  else .next s

/-- A mapped ring waits for a CQ's credit (R243). -/
def State.ringWaits (s : State) (cq : Nat) : Bool :=
  s.ringList.any (fun n => (s.cqOf (tqUnit n) = cq && s.tqWork n)
    || (s.cqOf (bqUnit n) = cq && s.ringState (bqUnit n) = 1 && s.copies.any (fun c => c.queue = .bq n && c.state = .queued)))

/-- A CQ is held for want of credit (R243). -/
def State.cqHeld (s : State) (cq : Nat) : Bool := s.cqCount cq = 0 && s.ringWaits cq

/-- The stall of a CQ ends where its condition no longer holds, and begins where it does (R243). -/
def State.stallCheck (s : State) (cq : Nat) : State :=
  let u := cqUnit cq
  if s.cqHeld cq then
    if s.regN (.stallReported cq) = 1 ∨ (s.timer (.cqStall cq)).isSome then s
    else (s.setReg (.stallTicks cq) 0).startTimer (.cqStall cq) (s.rd 0x00C 0x4002 0 * 6250)
  else
    let s1 := s.stopTimer (.cqStall cq)
    if s.regN (.stallReported cq) = 1 then
      ((s1.setReg (.stallReported cq) 0).record 0x0903 u [(4, s.regN (.stallTicks cq))]).setReg (.stallTicks cq) 0
    else s1

/-- A stall is reported (R243). -/
def State.stallReport (s : State) (cq : Nat) : State :=
  let u := cqUnit cq
  ((((s.stopTimer (.cqStall cq)).setReg (.stallReported cq) 1).raise (causeCqStall cq)).bump u 0x8009 0 1).record 0x0902 u []

/-- CQ_STALL_DETECT (R243). -/
def execCqStallDetect (cq : Nat) (s : State) : Host.Outcome State Fault Refusal :=
  if s.mainUp ∧ (s.timer (.cqStall cq)).isSome ∧ s.cqHeld cq then .next (s.wake.stallReport cq) else .next s

/-- CQ_HEAD_DOORBELL (R229): host software returns entries. -/
def execCqHeadDoorbell (ring value : Nat) (width64 : Bool) (s : State) : Host.Outcome State Fault Refusal := gathered s fun s =>
  if s.mainUp then
    let s := s.wake
    let u := cqUnit ring
    if !s.ringThere ring then .next (s.bump 0x00C 0x8004 0 1)
    else if !width64 then .next (s.badDoorbell u)
    else if s.positionBits u value ∧ s.posDiff u value (s.ringH u) ≤ s.posDiff u (s.ringT u) (s.ringH u) then
      let s1 := s.wr u 0x5001 0 value
      if s1.ringState u = 1 then .next (((State.cqFlush 65536 s1 ring).stallCheck ring).pump) else .next s1
    else .next (s.refusedDoorbell u value (s.ringT u) (s.ringH u))
  else .next s

/-- The position of a descriptor read of a ring, from its address: no entry of a ring is read twice at a time. -/
def State.readPos (s : State) (u addr : Nat) : Nat :=
  let n := s.ringN u
  s.advancePos u (s.ringH u) (((addr - s.rd u 0x4000 0) / 32 + n - s.ringH u % n) % n)

/-- A TQ entry that faults its ring when every entry before it has been consumed (Table 9.8). -/
def State.faultAhead (s : State) (ring pos st : Nat) : State := s.addAhead ⟨⟨ring, pos, 0, 0, 0⟩, false, [], some st⟩

/-- H passes the entries of a BQ that have been read, in their order (R240): a buffer is then the device's next, and an entry that faults does so
(Table 9.8). -/
def State.passBq : Nat → State → Nat → State
  | 0, s, _ => s
  | k + 1, s, ring =>
    let u := bqUnit ring
    match s.bqBuffers.find? (fun b => b.bq = ring && b.ahead.isSome && b.pos = s.ringH u) with
    | none => s
    | some b =>
      match b.ahead with
      | some (c + 1) => s.producerFault .bq ring b.pos (c + 1)
      | _ => State.passBq k (State.passEntry { s with bqBuffers := s.bqBuffers.erase b ++ [{ b with ahead := none }] } u) ring

/-- An entry of a BQ has been read, or has failed: it waits until H comes to it. -/
def State.bqEntry (s : State) (b : BqBuffer) : State := State.passBq 5 { s with bqBuffers := s.bqBuffers ++ [b] } b.bq

/-- A descriptor that has been read is checked (R225, R230, Table 9.8). `s` no longer holds its read, which was at `pos`. -/
def State.takeEntry (s : State) (kind : RingKind) (ring pos : Nat) (l : List Octet) : State :=
  let u := ringUnit kind ring
  let w (i : Nat) : Nat := entryWord l i
  let late : Bool := s.rd u 0x4002 0 = 0 && (w 3).testBit 63 ≠ (s.phaseAt u pos = 1)
  match kind with
  | .tq =>
    if late then s.faultAhead ring pos 0x100 else s.addAhead ⟨⟨ring, pos, w 1, w 2, w 0⟩, false, [], tqEntryError s.build (w 1) (w 3)⟩
  | .bq =>
    s.bqEntry ⟨ring, pos, w 0, field (w 1) 48 16, field (w 2) 0 32, false, bqEntryBad (w 0) (w 1) (w 2) (w 3), some (if late then 0x8005 else 0)⟩

/-- A descriptor read of a ring returns. -/
def State.descBack (s : State) (o : MpOp) (kind : RingKind) (ring : Nat) (l : List Octet) : State :=
  (State.takeEntry { s with mpOps := s.mpOps.erase o } kind ring (s.readPos (ringUnit kind ring) o.addr) l).pump

/-- DESC_READ_DONE (R230): the oldest descriptor read in flight of a ring returns its entry. -/
def execDescReadDone (kind : RingKind) (ring : Nat) (entry : List Octet) (s : State) : Host.Outcome State Fault Refusal := gathered s fun s =>
  match s.mpOps.find? (fun o => o.purpose = .descRead kind ring) with
  | some o => if s.mainUp then .next (s.descBack o kind ring entry) else .next s
  | none => .next s

/-- A descriptor read of a ring has failed on MP (Table 9.8). `s` no longer holds it. -/
def State.descFailed (s : State) (o : MpOp) (kind : RingKind) (ring : Nat) : State :=
  let pos := s.readPos (ringUnit kind ring) o.addr
  match kind with
  | .tq => s.faultAhead ring pos 0x101
  | .bq => s.bqEntry ⟨ring, pos, 0, 0, 0, false, false, some 0x8004⟩

/-- A payload burst of a descriptor has ended in error: its frame completes so (R234). -/
def State.payloadFailed (s : State) (q pos status : Nat) : State :=
  let s1 := s.dropOps (fun p => p = .payload q pos)
  State.pump { s1 with
    ahead := s1.ahead.map (fun a => if a.desc.tq = q ∧ a.desc.pos = pos then { a with failed := some status, parts := [] } else a) }

/-- A payload burst of a descriptor is in. -/
def State.payloadIn (s : State) (q pos addr : Nat) (l : List Octet) : State :=
  { s with
    ahead := s.ahead.map (fun a =>
      if a.desc.tq = q ∧ a.desc.pos = pos then { a with parts := a.parts ++ [(addr, l)] } else a) }

/-- The payload of a descriptor, from its bursts. -/
def payloadOf (a : AheadEntry) : List Octet :=
  let addr := a.desc.addr
  let l := (readBursts 66 (addr - addr % 64) (addr + field a.desc.word1 48 16)).flatMap
    (fun b => match a.parts.find? (fun p => p.1 = b) with | some p => p.2 | none => [])
  (l.drop (addr % 64)).take (field a.desc.word1 48 16)

/-- The payload of a descriptor is in. -/
def State.payloadDone (s : State) (a : AheadEntry) : Bool :=
  a.issued && a.failed.isNone && s.opsOf (.payload a.desc.tq a.desc.pos) = 0

/-- The BQ whose head copy takes a buffer next (R237, R238): the highest priority whose head has committed and may take one or be
dropped, in turn after the last one served. -/
def State.bqHead (s : State) (b : Nat) : Option Copy := s.copies.find? (fun c => c.queue = .bq b && c.state = .queued)

/-- The head copy of a BQ may move. -/
def State.bqReady (s : State) (b : Nat) : Bool :=
  match s.bqHead b with
  | none => false
  | some c =>
    (match s.frame? c.frame with | some f => f.committed && (f.applied || !guardDrops f) | none => false)
      && (s.ringState (bqUnit b) = 2 || s.ringState (bqUnit b) = 4 || s.bufferReady b)

def State.bqTurnOf (s : State) : Option Nat :=
  let ready := s.ringList.filter s.bqReady
  let top := (ready.map (fun b => s.ringPrio (bqUnit b))).foldl max 0
  let best := ready.filter (fun b => s.ringPrio (bqUnit b) = top)
  let last := s.regN (.bqTurn top)
  match best.find? (fun b => last ≤ b) with
  | some b => some b
  | none => best.head?

/-- The head copy of a BQ takes a buffer and is written, or is dropped (R238). -/
def State.bqTake (s : State) (bq : Nat) (c : Copy) (f : Frame) (ecc : CellRead) : State :=
  let u := bqUnit bq
  let s0 := s.setReg (.bqTurn (s.ringPrio u)) (((bq + 1) % s.build.rings : Nat) : Int)
  if s.ringState u ≠ 1 then ((s0.owe f.id [.count u 0x8007 0 1]).dropCopy c).settle f.id
  else
    match s.nextBuffer bq with
    | none => s
    | some b =>
      if b.size < f.whole.length then ((s0.owe f.id [.count u 0x8006 0 1]).dropCopy c).settle f.id
      else
        let t := s0.takeBuffer c b
        let r := t.2.readCells f ecc
        let d := { t.1 with level := if r.1 then 5 else 0 }
        ((r.2.setCopy t.1 d).hostWrites f d b).pump

/-- BQ_BUFFER_TAKE (R238): the copy at the head of a BQ's FIFO takes a buffer and a credit, and is written; `ecc` is
what the reads of its cells meet (R154). -/
def execBqBufferTake (bq : Nat) (ecc : CellRead) (s : State) : Host.Outcome State Fault Refusal := gathered s fun s =>
  if s.mainUp ∧ s.bqTurnOf = some bq then
    match s.bqHead bq with
    | none => .next s
    | some c =>
      match s.frame? c.frame with
      | none => .next s
      | some f => .next (s.bqTake bq c f ecc)
  else .next s

/-- CQ_DONE is raised, and count and timer restart (R244). -/
def State.cqDone (s : State) (cq : Nat) : State :=
  ((s.setReg (.cqUncovered cq) 0).stopTimer (.cqIrq cq)).raise (causeCqDone cq)

/-- The counts of a completion that is in memory (Table 9.9). -/
def State.completionCounts (s : State) (cq : Nat) (e : CqEntry) : State :=
  let status := e.w0 % 256
  let ring := field e.w0 10 6
  let u := if field e.w0 8 2 = 0 then tqUnit ring else bqUnit ring
  let len := field e.w0 16 16
  match status with
  | 0 => (((s.bump u 0x8000 0 1).bump u 0x8001 0 len).bump (cqUnit cq) 0x8000 0 1).bump (cqUnit cq) 0x8001 0 len
  | 1 => s.bump u 0x8003 0 1
  | 2 => s.bump u 0x8003 0 1
  | 3 => s.bump u 0x8004 0 1
  | 4 => s.bump u 0x8004 0 1
  | _ => s

/-- The write response of a completion arrives (R244). -/
def State.cqWritten (s : State) (cq : Nat) (e : CqEntry) : State :=
  let u := cqUnit cq
  let n := s.regN (.cqUncovered cq) + 1
  let s1 := (s.completionCounts cq e).setReg (.cqUncovered cq) n
  if s.rd u 0x4007 0 ≤ n then s1.cqDone cq
  else if n = 1 ∧ s.rd u 0x4008 0 ≠ 0 then s1.startTimer (.cqIrq cq) (s.rd u 0x4008 0)
  else s1

/-- CQ_IRQ_TIMER (R244): `irq_ticks` have passed since the first completion that CQ_DONE does not cover. -/
def execCqIrqTimer (cq : Nat) (s : State) : Host.Outcome State Fault Refusal :=
  if s.mainUp ∧ (s.timer (.cqIrq cq)).isSome then .next (s.wake.cqDone cq) else .next s

/-- A CQ write has failed (Table 9.8): the entry stays staged, and with it those written after it, in their order. -/
def State.cqFailed (s : State) (cq : Nat) (o : MpOp) : State :=
  let u := cqUnit cq
  let later := (s.mpOps.dropWhile (fun x => x ≠ o)).filterMap
    (fun x => match x.purpose with | .cqWrite c e => if c = cq then some e else none | _ => none)
  let after : List MpOp := s.mpOps.dropWhile (fun x => x ≠ o)
  let s1 := { s with
    mpOps := (s.mpOps.takeWhile (fun x => x ≠ o)) ++ (after.drop 1).filterMap (fun (x : MpOp) =>
      match x.purpose with
      | .cqWrite c _ => if c ≠ cq then some x else if x.tag = mpWaiting then none else some { x with purpose := .dropped }
      | _ => some x)
    cqStaged := later.map (fun e => (cq, e)) ++ s.cqStaged }
  let w := s1.advancePos u (s1.ringT u) (2 * s1.ringN u - later.length)
  ((s1.wr u 0x5000 0 w).bump u 0x8004 0 1).ringFault u w

/-- `start` of a ring (Table 9.8). -/
def State.ringStart (s : State) (u : Nat) : Abort × State :=
  match s.ringState u with
  | 2 =>
    let s1 := s.wr u 0x0002 0 1
    if 0x480 ≤ u then (.ok, (State.cqFlush 65536 s1 (u - 0x480)).pump)
    else
      let kind : RingKind := if u < 0x440 then .tq else .bq
      let ring := if u < 0x440 then u - 0x400 else u - 0x440
      let s2 := if s.scans.get u 0 % 2 = 1 then State.knock { s1 with scans := s1.scans.set u 0 0 } kind ring else s1
      (.ok, s2.afterTail kind ring false)
  | 1 => (.ok, s)
  | _ => (.modeForbids, s)

/-- `stop` of a ring (Table 9.8). A scan in progress is given up and stays pending (log entry 19). -/
def State.ringStop (s : State) (u : Nat) : Abort × State :=
  match s.ringState u with
  | 2 => (.ok, s)
  | 3 => (.modeForbids, s)
  | _ =>
    let s1 := s.wr u 0x0002 0 2
    if 0x480 ≤ u then (.ok, s1)
    else
      let kind : RingKind := if u < 0x440 then .tq else .bq
      let ring := if u < 0x440 then u - 0x400 else u - 0x440
      let s2 := match kind with
        | .tq => s1.discardAhead (fun q => q = ring)
        | .bq => s1.discardBq ring
      let s3 := s2.dropOps (fun p => p = MpPurpose.ringScan kind ring)
      (.ok, State.pump (if (s.scans.get u 0).testBit 1 then { s3 with scans := s3.scans.set u 1 0 } else s3))

/-- A ring's positions are 0 (R245). -/
def State.zeroPositions (s : State) (u : Nat) : State := ((s.wr u 0x5000 0 0).wr u 0x5001 0 0).wr u 0x5002 0 0

/-- `reset` of a ring (Table 9.8). -/
def State.ringReset (s : State) (u : Nat) : Abort × State :=
  if s.ringState u = 1 ∨ s.ringState u = 3 then (.modeForbids, s)
  else if 0x480 ≤ u then
    let cq := u - 0x480
    if s.stagedOf cq ≠ [] ∨ s.ringList.any (fun n =>
        (s.cqOf (tqUnit n) = cq && s.ringState (tqUnit n) ≠ 2) || (s.cqOf (bqUnit n) = cq && s.ringState (bqUnit n) ≠ 2)) then (.busy, s)
    else (.ok, (s.zeroPositions u).wr u 0x0002 0 2)
  else
    let bq := u - 0x440
    let s1 := if u < 0x440 then s else { s with bqBuffers := s.bqBuffers.filter (fun b => b.bq ≠ bq) }
    (.ok, (State.wr { s1 with scans := s1.scans.set u 0 0 } u 0x0002 0 2).zeroPositions u)

/-- A ring object written (R245, Table 9.9): those marked "while STOPPED" elsewhere end with MODE_FORBIDS; `base`, `size_log2` and
`mode` set every position to 0. -/
def State.ringObjWrite (s : State) (u i v : Nat) : Abort × State :=
  let st := s.ringState u
  if i ≤ 0x4004 then
    if st ≠ 2 then (.modeForbids, s)
    else
      let s1 := s.wr u i 0 v
      (.ok, if i ≤ 0x4002 then s1.zeroPositions u else s1)
  else if st = 3 then (.modeForbids, s)
  else (.ok, s.wr u i 0 v)

end Sys2Proof.Machine
end

