-- ==== Sys2Proof/Machine/Receive.lean ====
section
/-! DEFINITION. The receive MAC (R79, R88, R100 to R106, R109 to R113, R120 to R123, R205 to R210, R296, R298): the start of a frame,
its cells, its fragments, its commit point. -/
namespace Sys2Proof.Machine

/-- Frames of a lane reach its channels: the lane is UP and not in far-end loopback (Table 3.3). -/
def State.rxOpen (s : State) (lane : Nat) : Bool := s.laneUp lane && s.rd (lnUnit lane) 0x4000 0 ≠ 2

/-- What a quartered lane finds in octets 4 and 5 (R88). -/
inductive QuarterCheck where
  | bad
  | off (ch : Nat)
  | good (ch seq : Nat)
  deriving DecidableEq, Repr

/-- The check of octets 4 and 5 of a frame on a quartered lane (R88). -/
def State.quarterCheck (s : State) (lane : Nat) (start : List Octet) : QuarterCheck :=
  let a := octet start 3
  let b := octet start 4
  let d := a % 16
  if a / 16 ≠ 0xD ∨ b / 16 ≠ 0x5 ∨ b % 16 ≠ checkNibble d then .bad
  else
    let ch := 4 * lane + d / 4
    if s.chEnabled ch then .good ch (d % 4) else .off ch

/-- The SEQ of an accepted frame against the previous one of its channel (R88): `counts` is false for a continuation (R205). -/
def State.quarterSeq (s : State) (ch seq : Nat) (counts : Bool) : State :=
  if !counts then s
  else
    let last := s.regN (.quarterSeqRx ch)
    let s1 := s.setReg (.quarterSeqRx ch) (seq + 1)
    if last ≠ 0 ∧ last % 4 ≠ seq then s1.bump (lnUnit (laneOf ch)) 0x8009 0 1 else s1

/-- The channel a frame or fragment with these start octets is for; `none` where it is discarded (R88). -/
def State.channelOf (s : State) (ch : Nat) (start : List Octet) : Option Nat :=
  if s.quartered ch then (match s.quarterCheck (laneOf ch) start with | .good c _ => some c | _ => none)
  else if s.chEnabled ch then some ch else none

/-- How octets 7 and 8 open a unit on a channel. -/
inductive UnitStart where
  | whole
  | initial
  | continuation
  | bad
  deriving DecidableEq, Repr

/-- The rank 2 check of Table 4.1 (R100, R205, R207). -/
def State.unitKind (s : State) (ch : Nat) (start : List Octet) : UnitStart :=
  let o7 := octet start 6
  let o8 := octet start 7
  if s.fabricRole ch then
    if o7 = 0x55 ∧ o8 = 0xD5 then .whole else if o8 / 16 = 0x3 then .initial else if o8 / 16 = 0x6 then .continuation else .bad
  else if o8 = 0xD5 then .whole
  else if s.mergeOn ch ∧ (smdCountOf o8).isSome then .initial
  else if s.mergeOn ch ∧ (smdContOf o8).isSome then .continuation
  else if s.mergeOn ch ∧ (o8 = 0x07 ∨ o8 = 0x19) then .initial
  else .bad

/-- The SEQ test of R88 applies: not to a continuation fragment (R205), nor to a verify or respond mPacket. -/
def State.seqTested (s : State) (ch : Nat) (start : List Octet) : Bool :=
  s.unitKind ch start ≠ .continuation && !(s.mergeOn ch && (octet start 7 = 0x07 || octet start 7 = 0x19))

/-- The state after the checks of R88 on a frame or fragment with these start octets. -/
def State.deliverTo (s : State) (ch : Nat) (start : List Octet) : State :=
  let lane := laneOf ch
  if s.quartered ch then
    match s.quarterCheck lane start with
    | .bad => (s.bump (lnUnit lane) 0x8008 0 1).latch (lnUnit lane) 17
    | .off _ => s.bump (lnUnit lane) 0x800A 0 1
    | .good c seq => s.quarterSeq c seq (s.seqTested c start)
  else s

/-- The runs of the start octets in which a repetition differs are counted (R84). -/
def State.startCounts (s : State) (lane : Nat) (start : StartInput) : State :=
  if s.rd (lnUnit lane) 0x1004 0 = 0 then s else s.bump (lnUnit lane) 0x8006 0 start.replErrs

/-- The level of the unit that a fabric link receives from now on (R210). -/
def State.unitLevel (s : State) (ch : Nat) (level : Nat) : State := if s.fabricRole ch then s.setReg (.rxLevel ch) level else s

/-- A new frame of a channel; one that is reassembled is counted with its held effects (`mm_ass_ok`). -/
def State.newFrame (s : State) (ch : Nat) (time : Nat × Nat) (asm : Bool) : Frame :=
  ⟨s.regN .nextFrame, ch, [], s.fabricRole ch, s.maxFrame ch, none, false, false, false, .data, none, none, none, 0, none, some time,
   0, 0, none, false, false, none, false, 0, false, 0, asm, if asm then [.count (chUnit ch) 0x803A 0 1] else [], none, [], false⟩

/-- A frame enters the device. -/
def State.addFrame (s : State) (f : Frame) : State :=
  { s.setReg .nextFrame (s.reg .nextFrame + 1) with frames := s.frames ++ [f] }

/-- A frame in progress fails: it keeps the octets that entered before the failure, and is undone (R100, R106). -/
def State.failFrame (s : State) (f : Frame) (r : RxFail) (octets : List Octet) : State :=
  (s.setFrame { f with octets := octets }).undo f.id r

/-- A whole frame begins on a channel; it fails at once where a run of its start octets differs under replication (R84). -/
def State.wholeStart (s : State) (ch : Nat) (start : StartInput) (crossing : Nat) : State :=
  let f := s.newFrame ch (s.rxInstant ch crossing) false
  let s1 := (State.addFrame { s with rxNow := s.rxNow ++ [(ch, f.id)] } f).unitLevel ch 4
  if 0 < start.replErrs ∧ s.rd (lnUnit (laneOf ch)) 0x1004 0 ≠ 0 then s1.failFrame f .symbol [] else s1

/-- RX_FRAME_START (R100, R88): a frame or fragment begins on a lane; `start` are its eight start octets, which are checked and counted here,
`crossing` how long ago, in 1/16 ns, the first bit after its SFD crossed the lane interface (R285). The contents of a fragment come with its own
row. A frame that starts when the receive units have been asked to stop is discarded (Table 16.2). The start of every frame, or of its first fragment,
is the lane's activity, whatever becomes of it (R399). -/
def execRxFrameStart (ch : Nat) (start : StartInput) (crossing : Nat) (s : State) : Host.Outcome State Fault Refusal :=
  if s.mainUp ∧ s.isChannel ch ∧ s.rxOpen (laneOf ch) then
    let o := start.octets
    let s0 := s.wake
    let s := (if s0.unitKind ch o = .continuation then s0 else s0.lit (laneOf ch)).startCounts (laneOf ch) start
    let s1 := s.deliverTo ch o
    match s.channelOf ch o with
    | none => .next s1
    | some c =>
      match s1.unitKind c o with
      | .bad => .next (s1.bump (chUnit c) 0x8015 0 1)
      | .whole =>
        if s1.asked 4 then .next (s1.bump 0x001 0x8006 0 1)
        else if (s1.rxNow.find? c).isSome then .next s1
        else .next (s1.wholeStart c start crossing)
      | _ => .next (s1.unitLevel c (octet o 7 / 4 % 4 + 1))
  else .next s

/-- What a received fabric frame is (Table 13.2). -/
inductive FabFate where
  | disabled | consumed | ownControl | loop | stale | badDst | ownData | ownFold | hopExpired | transit | transitFold
  deriving DecidableEq, Repr

/-- The first matching row of Table 13.2, after R294's for a disabled fabric. -/
def State.fabFate (s : State) (o : List Octet) : FabFate :=
  let t := fabType o
  let own := s.rd 0x00D 0x5002 0
  if t = 3 ∨ t = 4 then (if fabDst o = 0 then .consumed else .badDst)
  else if s.rd 0x00D 0x1000 0 = 0 then .disabled
  else if t = 2 ∧ fabDst o = 0 then .consumed
  else if fabSrc o ≠ 0 ∧ fabSrc o = own then .loop
  else if own = 0 ∨ fabGen o ≠ s.rd 0x00D 0x5005 0 then .stale
  else if t ≠ 2 ∧ (fabDst o = 0 ∨ fabDst o = 0xFF) then .badDst
  else if fabDst o = own then (if t = 2 then .ownControl else if t = 1 then .ownFold else .ownData)
  else if fabHop o ≤ 1 then .hopExpired
  else if t = 1 then .transitFold
  else .transit

/-- Some key slot is installed (R69). -/
def State.anyKey (s : State) : Bool := s.keys ≠ []

/-- The position of the EtherType behind up to two tags (R72). -/
def etherPos (l : List Octet) : Nat :=
  if isTpid (be16 l 12) then (if isTpid (be16 l 16) then 20 else 16) else 12

/-- An object-access frame for the device (R69, R72). -/
def State.isAccess (s : State) (ch : Nat) (inner : List Octet) : Bool :=
  let own := s.rd (chUnit ch) 0x1002 0
  s.anyKey && (s.rd 0x012 0x1001 0).testBit ch && own ≠ 0 && beN inner 0 6 = own
    && be16 inner (etherPos inner) = s.rd 0x012 0x1000 0

/-- What a frame is for, from its first octets (R101, R72, R298). On a fabric link only a DATA frame has a source address before its type, and
while the fabric is not enabled all but TEMPLATE_INSTALL and FOLD_NAK is discarded (R294). -/
def State.useOf (s : State) (f : Frame) : FrameUse :=
  let inner := f.inner
  if be16 inner 12 = 0x8808 ∧ (!f.onFabric ∨ (fabType f.octets = 0 ∧ s.rd 0x00D 0x1000 0 = 1)) then .macControl
  else if f.onFabric then
    match s.fabFate f.octets with
    | .consumed => if fabType f.octets = 3 then .install else if fabType f.octets = 4 then .nak else .control
    | .ownControl => .control
    | .ownFold => .foldData
    | .transitFold => .foldData
    | .ownData => if s.isAccess f.ing inner then .access else .data
    | _ => .data
  else if s.isAccess f.ing inner then .access
  else .data

/-- A frame's key is wanted: it is classified or in transit (R298, R300). -/
def State.wantsKey (s : State) (f : Frame) : Bool :=
  f.use = .data && (!f.onFabric || s.fabFate f.octets = .ownData || s.fabFate f.octets = .transit)

/-- The key of a frame is complete, that of a transit frame with its first cell: it waits for its presentation (R33, R103, R300). -/
def State.parseFrame (s : State) (f : Frame) : State :=
  if f.key.isNone && (f.ended || 128 ≤ f.octets.length || (64 ≤ f.octets.length && s.isTransit f)) && s.wantsKey f then
    { s.setFrame { f with key := some (s.parseOf f).parse } with keyQ := s.keyQ ++ [f.id] }
  else s

/-- A reassembly context is discarded, and the frame that its cells have entered is undone (R205, R209). -/
def State.dropContext (s : State) (r : RxFail) (c : AsmCtx) : State :=
  match c.frame.bind s.frame? with
  | some f => s.failFrame f r c.octets
  | none => s

/-- The reassembly contexts of a channel that satisfy a condition are discarded (R209). -/
def State.dropContexts (s : State) (ch : Nat) (r : RxFail) (p : AsmCtx → Bool) : State :=
  (s.asm.filter (fun c => c.ch = ch && p c)).foldl (State.dropContext · r) { s with asm := s.asm.filter (fun c => !(c.ch = ch && p c)) }

/-- A counter of Table 8.3 with FRAG_ERR. -/
def State.fragErr (s : State) (ch i n : Nat) : State := if n = 0 then s else (s.bump (chUnit ch) i 0 n).latch (chUnit ch) 20

/-- A unit of a level arrives on a fabric link (Table 8.3): contexts above it are discarded. -/
def State.inversions (s : State) (ch level : Nat) : State :=
  let n := (s.asm.filter (fun c => c.ch = ch && level < c.level)).length
  (s.dropContexts ch .reassembly (fun c => level < c.level)).fragErr ch 0x8040 n

/-- A whole frame or an initial fragment finds the context of its level open. -/
def State.lostContext (s : State) (ch level : Nat) : State :=
  if s.asm.any (fun c => c.ch = ch && c.level = level) then
    (s.dropContexts ch .reassembly (fun c => c.level = level)).fragErr ch 0x803E 1
  else s

/-- The fabric header of a frame passes R296. -/
def headerGood (o : List Octet) : Bool :=
  octet o 11 = crc crc8 (o.take 11) && octet o 0 / 16 = 1 && fabType o ≤ 4 && fabLevel o ≠ 3

/-- A header with a non-zero RSVD bit (R296). -/
def headerRsvd (o : List Octet) : Bool :=
  octet o 3 / 128 ≠ 0 || octet o 4 % 8 ≠ 0 || octet o 7 % 64 ≠ 0

/-- The line rate of a lane in units of 10 Mb/s (Table 3.2, R84). -/
def State.laneRate (s : State) (lane : Nat) : Nat :=
  match s.rd (lnUnit lane) 0x1000 0 with
  | 1 => (match s.rd (lnUnit lane) 0x1004 0 with | 1 => 10 | 2 => 1 | _ => 100)
  | 2 => 250
  | 3 => 500
  | 4 => 1000
  | 6 => 1000
  | 5 => 2500
  | 7 => 2500
  | _ => 0

/-- The slots that `n` octets take on a lane. -/
def octetSlots (n rate : Nat) : Nat := if rate = 0 then 0 else ceilDiv (n * 1280) rate

/-- The first slot after `a` that an endpoint owns in the ingress calendar (R28, R103). -/
def State.nextOwned (s : State) (ep a : Nat) : Option Nat :=
  ((List.range 256).map (fun k => a + 1 + k)).find? (fun b => s.ent 0x000 0x6000 (b % 256) = ep)

/-- The cells that are still in a lane FIFO at a slot `t`: those of a channel leave it in order, one in each slot that it owns; `last` is the slot
in which its last one left. -/
def State.fifoAt (s : State) (t : Nat) (last : Map Nat Nat) : List FifoCell → List FifoCell
  | [] => []
  | c :: r =>
    match s.nextOwned c.ch (max (max c.slot (s.regN (.fifoSeen (laneOf c.ch)))) (last.get c.ch 0)) with
    | none => c :: State.fifoAt s t last r
    | some b => if t < b then c :: State.fifoAt s t (last.set c.ch b 0) r else State.fifoAt s t (last.set c.ch b 0) r

/-- The cells of a lane that leave its FIFO up to slot `t` have left it: the next leave in later slots (R31, R79). -/
def State.fifoTo (s : State) (lane t : Nat) : State :=
  { s.setReg (.fifoSeen lane) (max t (s.regN (.fifoSeen lane)) : Nat) with
    fifo := s.fifo.filter (fun c => laneOf c.ch ≠ lane) ++ s.fifoAt t [] (s.fifo.filter (fun c => laneOf c.ch = lane)) }

/-- The octets of a lane's cells. -/
def laneOctets (lane : Nat) (l : List FifoCell) : Nat := ((l.filter (fun c => laneOf c.ch = lane)).map FifoCell.octets).sum

/-- A cell of `n` octets asks for room in its lane's FIFO at its first octet (R79); `behind` octets have arrived after it. The octets of a lane
arrive one after another at its line rate, the last now (DEDUCED, log entry 82). Whether there is room, and the state after. -/
def State.giveRoom (s : State) (ch n behind : Nat) : Bool × State :=
  let lane := laneOf ch
  let rate := s.laneRate lane
  let done := max (s.now - octetSlots behind rate) (s.regN (.wireEnd lane) + octetSlots n rate)
  let s1 := if laneOctets lane s.fifo + n ≤ Config.laneFifoOctets then s else s.fifoTo lane (done - octetSlots n rate)
  let s2 := s1.setReg (.wireEnd lane) done
  if laneOctets lane s1.fifo + n ≤ Config.laneFifoOctets then (true, { s2 with fifo := s2.fifo ++ [FifoCell.mk ch n done] }) else (false, s2)

/-- The first octet of a cell that a symbol error touches, of any kind (R82, R84, Table 4.1 rank 3). -/
def State.symbolAt (s : State) (lane : Nat) (cell : CellInput) : Option Nat :=
  let repl := if s.rd (lnUnit lane) 0x1004 0 = 0 then [] else cell.replErrs
  let fec := if 0 < cell.fecBad ∧ s.rd (lnUnit lane) 0x1001 0 = 1 ∧ cell.errAt = none then [cell.octets.length] else []
  lowest (cell.errAt.toList ++ repl ++ fec)

/-- The failure of a cell that is detected first, with the octets of the cell that came before it (R79, R100, R82, R84, R296): `room` says whether
the lane FIFO has room for it. -/
def State.cellFailure (s : State) (f : Frame) (cell : CellInput) (room : Bool) : Option (RxFail × Nat) :=
  let n := f.octets.length
  let sym := s.symbolAt (laneOf f.ing) cell
  let all := f.octets ++ cell.octets
  let long : Option Nat := if f.maxFrame < all.length then some (f.maxFrame - n) else none
  let head : Option Nat := if f.onFabric && n < 12 && 12 ≤ all.length && !headerGood all then some (11 - n) else none
  if !room then some (.overflow, 0)
  else
    match sym, long, head with
    | none, none, none => none
    | some p, o, h =>
      if (match o with | some q => p ≤ q | none => true) && (match h with | some q => p ≤ q | none => true) then some (.symbol, p)
      else match o, h with
        | some q, none => some (.oversize, q)
        | some q, some r => if q ≤ r then some (.oversize, q) else some (.fabricHeader, r)
        | none, some r => some (.fabricHeader, r)
        | none, none => some (.symbol, p)
    | none, some q, some r => if q ≤ r then some (.oversize, q) else some (.fabricHeader, r)
    | none, some q, none => some (.oversize, q)
    | none, none, some r => some (.fabricHeader, r)

/-- The cells a frame holds with `n` octets without its fabric header (R151, R156). -/
def cellsFor (n : Nat) (stub : Bool) : Nat := ceilDiv n 64 - stub.toNat

/-- The account that a frame's first cell chooses (R109, R111): none for a MAC control frame. The body of a fabric frame other than DATA has no tag.
-/
def State.chooseAccount (s : State) (f : Frame) : Option Nat :=
  if f.use = .macControl then none else some (s.accountAt f.ing (if f.onFabric && fabType f.octets ≠ 0 then [] else f.inner))

/-- A frame's first cell is held in ingress staging, and is no cell of the buffer, until its decision is delivered (R156). -/
def State.inStaging (s : State) (f : Frame) : Bool :=
  (s.wantsKey f || f.use = .unfolded) && (f.decision.isNone || s.decQ.contains f.id)

/-- A frame's cells after a cell has come that is linked, or staged; `old` cells had come before. `none` where the account refuses one, under
the values of its slot (R111, R112, R156). -/
def State.admitCell (s : State) (f : Frame) (old : Nat) : Option Frame :=
  match f.account with
  | none => some f
  | some k =>
    let new := cellsFor f.inner.length false - old
    if new = 0 ∨ s.occupancy f.ing k + new ≤ s.limitOf f.ing k then
      some { f with cells := cellsFor f.inner.length (f.stub.isSome || s.inStaging f) }
    else none

/-- The codewords of a lane with RS-FEC that have been corrected and found uncorrectable are counted (R82). -/
def State.fecCounts (s : State) (lane good bad : Nat) : State :=
  if s.rd (lnUnit lane) 0x1001 0 = 1 then (s.bump (lnUnit lane) 0x8003 0 good).bump (lnUnit lane) 0x8004 0 bad else s

/-- The counts of Table 3.3 that a cell brings (R82, R84). -/
def State.cellCounts (s : State) (lane : Nat) (cell : CellInput) : State :=
  let u := lnUnit lane
  let s1 := s.fecCounts lane cell.fecCorrected cell.fecBad
  if s.rd u 0x1004 0 = 0 then s1 else s1.bump u 0x8006 0 cell.replErrs.length

/-- What a whole frame's header does to the contexts of its link when octet 12 is in (Table 8.3). -/
def State.headerSeen (s : State) (f : Frame) (before : Nat) : State :=
  if f.onFabric && before < 12 && 12 ≤ f.octets.length && !f.asm then
    let l := fabLevel f.octets
    let s1 := s.inversions f.ing l
    if l ≤ 1 then s1.lostContext f.ing l else s1
  else s

/-- A frame with the octets that a cell brings: its `max_frame` is that of its first cell (R93), and a header with RSVD bits owes its count (R296). -/
def State.withCell (s : State) (f : Frame) (octets : List Octet) : Frame :=
  let all := f.octets ++ octets
  { f with
    octets := all
    maxFrame := if f.octets = [] then s.maxFrame f.ing else f.maxFrame
    owed := if f.onFabric && f.octets.length < 12 && 12 ≤ all.length && headerRsvd all then f.owed ++ [.count 0x00D 0x8001 0 1] else f.owed }

/-- A cell of a frame in progress is received (R79, R100, R103, R111, R123); `behind` octets have arrived after it. -/
def State.takeCell (s : State) (f : Frame) (cell : CellInput) (behind : Nat) : State :=
  let (room, s0) := s.giveRoom f.ing cell.octets.length behind
  let fm := { f with maxFrame := (s0.withCell f []).maxFrame }
  match s0.cellFailure fm cell room with
  | some (r, p) =>
    let g := s0.withCell f (cell.octets.take p)
    (s0.headerSeen g f.octets.length).failFrame g r g.octets
  | none =>
    let f1 := { s0.withCell f cell.octets with ended := cell.last }
    let s1 := s0.headerSeen f1 f.octets.length
    let f2 := if f.octets = [] then { f1 with use := s1.useOf f1 } else f1
    let f3 := if f.octets = [] then { f2 with account := s1.chooseAccount f2 } else f2
    match s1.admitCell f3 (cellsFor f.inner.length false) with
    | none => s1.failFrame f3 .quota f.octets
    | some f4 =>
      let s2 := (s1.setFrame f4).charged f4
      let s3 := if f4.ended then { s2 with rxNow := s2.rxNow.filter (fun p => p.2 ≠ f.id) } else s2
      (s3.parseFrame f4).earlyWrites f.id

/-- What a cell tells of the unit in reception on a fabric link (R210): its level with octet 4 of the header, its end. -/
def State.cellLevel (s : State) (ch : Nat) (cell : CellInput) : State :=
  if cell.last then s.unitLevel ch 0
  else
    match (s.rxNow.find? ch).bind s.frame? with
    | some f => if f.octets.length < 5 ∧ 5 ≤ (f.octets ++ cell.octets).length then s.unitLevel ch (fabLevel (f.octets ++ cell.octets) + 1) else s
    | none => s

/-- RX_CELL (R103): a cell of the frame in progress on a channel. After a failure the rest of the frame is discarded; what the lane counts of it
it still counts (R82, R84). -/
def execRxCell (ch : Nat) (cell : CellInput) (s : State) : Host.Outcome State Fault Refusal := gathered s fun s =>
  if s.mainUp ∧ s.isChannel ch then
    let s1 := (s.cellCounts (laneOf ch) cell).cellLevel ch cell
    match (s.rxNow.find? ch).bind s.frame? with
    | none => .next s1
    | some f => .next (s1.takeCell f cell 0)
  else .next s

/-- The cells of an octet string. -/
def cellsOf : Nat → List Octet → List (List Octet)
  | 0, _ => []
  | k + 1, l => if l.length ≤ 64 then [l] else l.take 64 :: cellsOf k (l.drop 64)

/-- Cells of a frame that is being reassembled are received (R102, R103); `final` where they end it, `err` the position of the first octet that a
symbol error touches. -/
def State.feed (s : State) (id : Nat) (final : Bool) (err : Option Nat) : List (List Octet) → State
  | [] => s
  | c :: t =>
    match s.frame? id with
    | none => s
    | some f =>
      let here := err.filter (fun p => p < c.length)
      State.feed (s.takeCell f ⟨c, final && t.isEmpty, here, 0, 0, []⟩ (t.map List.length).sum) id final (err.map (fun p => p - c.length)) t

/-- The octets of a frame being reassembled that make no whole cell yet: they stand the checks of Table 4.1 as they come (R100, R102). -/
def State.tailCheck (s : State) (f : Frame) (p : List Octet) (err : Option Nat) : State :=
  let fm := { f with maxFrame := (s.withCell f []).maxFrame }
  match s.cellFailure fm ⟨p, false, err, 0, 0, []⟩ true with
  | some (r, q) => s.failFrame fm r (f.octets ++ p.take q)
  | none => s

/-- The octets of a context are handed on, in whole cells until the frame's end (R102, R103). A symbol error at octet `err` of the frame fails it
there. -/
def State.handOn (s : State) (c : AsmCtx) (final : Bool) (err : Option Nat) : State :=
  match c.frame.bind s.frame? with
  | none => s
  | some f =>
    let cells := cellsOf 300 (c.octets.drop f.octets.length)
    let s1 := s.feed f.id final (err.map (fun p => p - f.octets.length)) (if final then cells else cells.filter (fun l => l.length = 64))
    match s1.frame? f.id with
    | some g => if final then s1 else s1.tailCheck g (c.octets.drop g.octets.length) (err.map (fun p => p - g.octets.length))
    | none => s1

/-- A context replaced. -/
def State.setAsm (s : State) (c : AsmCtx) : State :=
  { s with asm := s.asm.filter (fun x => !(x.ch = c.ch && x.level = c.level)) ++ [c] }

/-- A fragment leaves its context open: its last four octets are the running CRC of the frame with the mask of its level (R204, R208). -/
def State.moreFollows (s : State) (c : AsmCtx) (e : List Octet) : Bool := e = toLsb 4 (crc crc32 c.octets ^^^ s.fragMask c.ch c.level)

/-- A fragment of a context ends with the four octets `e`; `c` holds the octets of the frame so far, and `err` is the position in the frame of a
symbol error in it. The context stays open, or the frame ends with `e` as its FCS, good or not (R102, R204, R208). -/
def State.fragEnd (s : State) (c : AsmCtx) (e : List Octet) (err : Option Nat) : State :=
  if s.moreFollows c e then
    let s1 := s.handOn c false err
    s1.setAsm { c with frame := if (c.frame.bind s1.frame?).isSome then c.frame else none, wait := 0 }
  else
    State.handOn { s with asm := s.asm.filter (fun x => !(x.ch = c.ch && x.level = c.level)) } { c with octets := c.octets ++ e } true err

/-- A context opens with an initial fragment: its frame enters the device, with the timestamp of that fragment (R121); `cut` where more follows. -/
def State.openAsm (s : State) (c : AsmCtx) (time : Nat × Nat) (cut : Bool) (e : List Octet) (err : Option Nat) : State :=
  let f := s.newFrame c.ch time cut
  (s.addFrame f).fragEnd { c with frame := some f.id } e err

/-- A fragment without its four end octets, those octets, and where a symbol error lies in it: with an uncorrectable codeword in its last octet,
where no octet is named (R82). -/
def fragBody (x : FragInput) : List Octet := x.octets.take (x.octets.length - 4)
def fragTail (x : FragInput) : List Octet := x.octets.drop (x.octets.length - 4)
def State.fragError (s : State) (ch before : Nat) (x : FragInput) : Option Nat :=
  (if x.errAt = none ∧ 0 < x.fecBad ∧ s.rd (lnUnit (laneOf ch)) 0x1001 0 = 1 then some (x.octets.length - 1) else x.errAt).map (before + ·)

/-- A fragment on a fabric link (R207 to R209, Table 8.3). -/
def State.fabricFragment (s : State) (ch : Nat) (start : List Octet) (x : FragInput) (time : Nat × Nat) : State :=
  let o8 := octet start 7
  let level := o8 / 4 % 4
  let fcnt := o8 % 4
  let fnum := octet start 6 / 16
  let s0 := s.bump (chUnit ch) 0x8039 0 1
  if 2 ≤ level ∨ octet start 6 % 16 ≠ checkNibble (o8 % 16) then s0.fragErr ch 0x8042 1
  else
    let s1 := s0.inversions ch level
    if o8 / 16 = 0x3 then
      (s1.lostContext ch level).openAsm ⟨ch, level, fcnt, 1, fabClass (fragBody x), fragBody x, none, 0⟩ time true (fragTail x) (s.fragError ch 0 x)
    else
      match s1.asm.find? (fun c => c.ch = ch && c.level = level) with
      | none => s1.fragErr ch 0x803F 1
      | some c =>
        if c.fcnt ≠ fcnt ∨ c.fnum ≠ fnum then s1.lostContext ch level
        else s1.fragEnd { c with fnum := (fnum + 1) % 16, octets := c.octets ++ fragBody x } (fragTail x) (s.fragError ch c.octets.length x)

/-- FABRIC_FRAGMENT_RX (R208, R209): a fragment on a fabric link. Its start octets have been checked and counted when it began
(RX_FRAME_START). -/
def execFabricFragmentRx (ch : Nat) (start : List Octet) (frag : FragInput) (crossing : Nat) (s : State) : Host.Outcome State Fault Refusal :=
  if s.mainUp ∧ s.isChannel ch ∧ s.rxOpen (laneOf ch) ∧ s.chEnabled ch ∧ s.fabricRole ch then
    let s := (s.fecCounts (laneOf ch) frag.fecCorrected frag.fecBad).unitLevel ch 0
    match s.unitKind ch start with
    | .initial => if s.asked 4 then .next (s.bump 0x001 0x8006 0 1) else .next (s.fabricFragment ch start frag (s.rxInstant ch crossing))
    | .continuation => .next (s.fabricFragment ch start frag (s.rxInstant ch crossing))
    | _ => .next s
  else .next s

/-- A reassembly of Clause 99 is rejected (R205): PRESUMED (log entry 5) an SMD error is a continuation with no frame being
assembled; any other is an assembly error. -/
def State.mergeReject (s : State) (ch : Nat) (smd : Bool) : State :=
  (s.dropContexts ch .reassembly (fun _ => true)).bump (chUnit ch) (if smd then 0x803C else 0x803B) 0 1

/-- A fragment of a preemptable frame on a standard channel (R205). A preemptable frame that comes whole is no fragment. -/
def State.mergeFragment (s : State) (ch : Nat) (start : List Octet) (x : FragInput) (time : Nat × Nat) : State :=
  let fresh : AsmCtx := ⟨ch, 0, (smdCountOf (octet start 7)).getD 0, 0, 0, fragBody x, none, 0⟩
  let cut := (smdCountOf (octet start 7)).isNone || s.moreFollows fresh (fragTail x)
  let s0 := if cut then s.bump (chUnit ch) 0x8039 0 1 else s
  match smdCountOf (octet start 7), smdContOf (octet start 7), s.asm.find? (fun c => c.ch = ch) with
  | some _, _, none => s0.openAsm fresh time cut (fragTail x) (s.fragError ch 0 x)
  | some _, _, some _ => (s0.mergeReject ch false).openAsm fresh time cut (fragTail x) (s.fragError ch 0 x)
  | none, some _, none => s0.mergeReject ch true
  | none, some n, some c =>
    if c.fcnt = n ∧ octet start 6 = fragCount c.fnum then
      s0.fragEnd { c with fnum := (c.fnum + 1) % 4, octets := c.octets ++ fragBody x } (fragTail x) (s.fragError ch c.octets.length x)
    else s0.mergeReject ch false
  | none, none, _ => s0

/-- MM_FRAGMENT_RX (R205): a fragment on a standard channel. Its start octets have been checked and counted when it began (RX_FRAME_START). -/
def execMmFragmentRx (ch : Nat) (start : List Octet) (frag : FragInput) (crossing : Nat) (s : State) : Host.Outcome State Fault Refusal :=
  if s.mainUp ∧ s.isChannel ch ∧ s.rxOpen (laneOf ch) ∧ !s.fabricRole ch then
    let s := s.fecCounts (laneOf ch) frag.fecCorrected frag.fecBad
    match s.channelOf ch start with
    | none => .next s
    | some c =>
      if s.unitKind c start = .bad then .next s
      else if s.asked 4 ∧ (smdCountOf (octet start 7)).isSome then .next (s.bump 0x001 0x8006 0 1)
      else .next (s.mergeFragment c start frag (s.rxInstant c crossing))
  else .next s

/-- FRAG_TIMEOUT (R210): the timer of an open context of a fabric link runs out, after 12,800 CCLK of counted time. -/
def execFragTimeout (ch level : Nat) (s : State) : Host.Outcome State Fault Refusal :=
  if s.mainUp ∧ s.isChannel ch ∧ s.fabricRole ch ∧ (s.asm.any (fun c => c.ch = ch && c.level = level && 12800 ≤ c.wait)) then
    .next ((s.dropContexts ch .reassembly (fun c => c.level = level)).fragErr ch 0x8041 1)
  else .next s

/-- L3_CSUM of a frame (Table 4.6). -/
def l3Status (f : Frame) (k : Key) : Nat :=
  if k.etype ≠ 0x0800 ∨ octet f.octets k.l3 / 16 ≠ 4 then 0
  else
    let o := f.octets
    let n := octet o k.l3 % 16 * 4
    let last := min 128 (o.length - 4)
    if n < 20 ∨ last < k.l3 + 20 ∨ last < k.l3 + n then 3
    else if ipv4Good ((o.drop k.l3).take n) then 1 else 2

/-- The TCP or UDP sum over the pseudo-header and a segment. -/
def l4Sum (k : Key) (seg : List Octet) : Nat :=
  let n := if k.two then 16 else 4
  wordSum (toMsb n k.fullSrc ++ toMsb n k.fullDst) + k.proto + seg.length + wordSum seg

/-- The length of the TCP or UDP segment that the IP header claims. -/
def segLen (o : List Octet) (k : Key) (p : Nat) : Nat :=
  if k.ktype = 2 then be16 o (k.l3 + 4) + k.l3 + 40 - p else be16 o (k.l3 + 2) + k.l3 - p

/-- L4_CSUM of a frame (Table 4.6). DESIGN CHOICE (log entry 107): of a header past octet 128, which the key does not reach, it is 0b000, or 0b100 for a
segment cut short. -/
def l4Status (f : Frame) (k : Key) (l3 : Nat) : Nat :=
  match k.l4 with
  | none => 0
  | some p =>
    let o := f.octets
    let n := segLen o k p
    if l3 = 3 ∨ k.frag ∨ !(k.proto = 6 || k.proto = 17) then 0
    else if o.length - 4 < p + n then 4
    else if !(k.isTcp || k.isUdp) then 0
    else
      if k.isUdp ∧ be16 o (p + 6) = 0 then 3
      else if onesFold (l4Sum k ((o.drop p).take n)) = 65535 then 1 else 2

/-- The length and FCS checks at a frame's end (Table 4.1 ranks 5 and 6). -/
def endFailure (f : Frame) : Option RxFail :=
  let d := f.octets.take (f.octets.length - 4)
  let e := f.octets.drop (f.octets.length - 4)
  if f.octets.length < 64 then some .runt
  else if e = fcsOctets d then none
  else if e = stompOctets d then some .stomped
  else some .fcs

/-- A frame has committed and its held effects wait (R35, R38). -/
def State.commitFrame (s : State) (f : Frame) : State :=
  { s.setFrame { f with committed := true } with appQ := s.appQ ++ [f.id] }

/-- A copy is on the wire of a channel, or has begun on it. -/
def State.begun (s : State) (c : Copy) : Bool := s.isChannel c.ep && (c.state = .sending || c.state = .suspended)

/-- A frame is given up at its commit point: its copies go but for those that have begun on a channel, buffers taken for them are kept (R106 step 3),
and only its statistics and `owed` are left to apply (R38). It leaves flight (R40). -/
def State.giveUp (s : State) (f : Frame) (use : FrameUse) (owed : List Owed) : State :=
  let s1 := (s.copiesOf f.id).foldl State.keepBuffer s
  State.drainCheck (State.commitFrame { s1 with
    copies := s1.copies.filter (fun c => c.frame ≠ f.id || s.begun c)
    keyQ := s1.keyQ.filter (· ≠ f.id)
    decQ := s1.decQ.filter (· ≠ f.id) } { f with use := use, decision := none, tag := none, owed := f.owed ++ owed })

/-- A discarded fabric frame's counter (Table 13.2). -/
def fabCounter : FabFate → Option Nat
  | .disabled => some 0x800D
  | .stale => some 0x8002
  | .hopExpired => some 0x8004
  | .loop => some 0x8005
  | .badDst => some 0x8006
  | _ => none

/-- Whether a frame is consumed as object access, by the station address in force at its commit point (R72, R93). -/
def State.accessNow (s : State) (f : Frame) : Bool :=
  s.isChannel f.ing && s.isAccess f.ing f.inner && (!f.onFabric || s.fabFate f.octets = .ownData)

/-- What a frame of a fabric link is at its commit point: the row of Table 13.2 by which its key was made stays (R38), and one without a key takes the
row of that moment. -/
def State.lateUse (s : State) (f : Frame) : Frame :=
  if f.onFabric ∧ f.key.isNone ∧ f.use ≠ .unfolded then { f with use := s.useOf f } else f

/-- The counter of a frame that is discarded at its commit point (Table 13.2, R294): while the fabric is not enabled every frame is but
TEMPLATE_INSTALL and FOLD_NAK, and else one without a key by its row. -/
def State.discardedAs (s : State) (f : Frame) : Option Nat :=
  if !f.onFabric || f.use = .install || f.use = .nak then none
  else if s.rd 0x00D 0x1000 0 = 0 then some 0x800D
  else if f.use = .data ∧ f.key.isNone then fabCounter (s.fabFate f.octets)
  else none

/-- A frame commits with its checksums verified (R120): those of a frame from the host port or in transit are not. -/
def State.commitSums (s : State) (f : Frame) (k : Key) : State :=
  let l3 := l3Status f k
  let skip : Bool := s.isTransit f || f.ing = Config.hostEp
  s.commitFrame { f with l3 := if skip then 0 else l3, l4 := if skip then 0 else l4Status f k l3 }

/-- A frame at its end, when its checks have passed (R35, R39, R72, R101, R298, R360). A frame that Table 13.2, R294 or CONFIGURE discards
goes on to its statistics and its count alone, which are made in its application slot (R38). -/
def State.passFrame (s : State) (f0 : Frame) : State :=
  let f := s.lateUse f0
  if f.use ≠ .macControl ∧ s.mode = 0 then s.giveUp f .discarded [.count 0x001 0x8007 0 1]
  else
    match s.discardedAs f with
    | some i => s.giveUp f .discarded [.count 0x00D i 0 1]
    | none =>
      if f.use = .data ∧ s.accessNow f then s.giveUp f .access []
      else
        let g := if f.use = .access ∧ !s.accessNow f then { f with use := .data } else f
        match g.key with
        | some k => s.commitSums g k
        | none => (s.commitFrame g).parseFrame { g with committed := true }

/-- A committed frame of a channel was found, at its commit point, to be one for the row that consumes it (R72, R93, R298); `octets` from its first
octet to its FCS. -/
def State.consumedAs (s : State) (ch : Nat) (use : FrameUse) (octets : List Octet) : Bool :=
  s.frames.any (fun f => f.ing = ch && f.use = use && f.committed && (if use = .access then f.inner = octets else f.octets = octets))

/-- The frame of an endpoint that has ended and awaits its commit point. -/
def State.atEnd (s : State) (ep : Nat) : Option Frame := s.frames.find? (fun f => f.ing = ep && f.ended && !f.committed)

/-- COMMIT_POINT (R35, R39): the frame of an endpoint that has ended passes or fails. The octets of a frame from the host port or an
air link have been checked by the row that brought them; the ring of a host frame moves past its entry (R234). -/
def execCommitPoint (ep : Nat) (s : State) : Host.Outcome State Fault Refusal := gathered s fun s =>
  match s.atEnd ep with
  | none => .next s
  | some f =>
    if !s.mainUp then .next s
    else if s.isChannel ep then
      match endFailure f with
      | some r => .next (s.undo f.id r)
      | none =>
        .next ((s.passFrame f).earlyWrites f.id)
    else
      match f.desc with
      | some t => .next ((s.passFrame f).passEntry (tqUnit t.tq)).pump
      | none => .next (s.passFrame f)

end Sys2Proof.Machine
end

