-- ==== Sys2Proof/Machine/Decide.lean ====
section
/-! DEFINITION. Presentation and delivery of decisions (R33, R38, R127, R149, R155, R156, R172, R173, R189, R239). -/
namespace Sys2Proof.Machine

/-- The entry that a way of the flow table belongs to is invalidated (R149): both ways of an IPv6 pair. -/
def State.flowVoid (s : State) (w : Nat) : State :=
  if s.pairOdd w then (s.setEnt 0x008 0x6000 (w - 1) 0).setEnt 0x008 0x6000 w 0
  else if (s.ent 0x008 0x6000 w).testBit 255 && (s.ent 0x008 0x6000 w).testBit 254 then
    (s.setEnt 0x008 0x6000 w 0).setEnt 0x008 0x6000 (w + 1) 0
  else s.setEnt 0x008 0x6000 w (setBit (s.ent 0x008 0x6000 w) 255 false)

/-- What the decision of a frame is if a Contour entry that its key matches, or a way that holds its flow, proves unreadable (R38, R149). -/
def State.alternatives (s : State) (f : Frame) (k : Key) (d : Decision) : List ((Bool × Nat) × Decision) :=
  if d.decider = .transit then []
  else
    ((s.listed 0x007 0x6000).filter (fun p => s.contourMatches k p.1 p.2)).map
        (fun p => ((true, p.1), (State.decide { s with eccBad := (false, p.1) :: s.eccBad } f k).1))
      ++ ((bucketWays d.bucketA d.bucketB).filter (fun i => s.flowHolds k i)).flatMap
        (fun i => let e := ((s.flowVoid i).decide f k).1
                  ((false, i), e) :: (if k.two then [((false, i + 1), e)] else []))

/-- The key of a frame as it is presented: OWN_DA by the station address then in force (R38; DEDUCED, log entry 93: R93 names the commit point, at
which no key can change any more). -/
def State.keyNow (s : State) (f : Frame) (k : Key) : Key :=
  if s.isChannel f.ing ∧ 14 ≤ f.inner.length then
    let own := s.rd (chUnit f.ing) 0x1002 0
    { k with word1 := setBit k.word1 156 (own ≠ 0 && beN f.inner 0 6 = own) }
  else k

/-- KEY_PRESENT (R33, R38): the oldest key is presented, unless its slot is taken, when it waits for the next; the decision is made under
the parameters in force, and the frame is in flight under the current edition (R40). -/
def execKeyPresent (s : State) : Host.Outcome State Fault Refusal :=
  match s.keyQ with
  | [] => .next s
  | id :: rest =>
    if !s.mainUp || s.slotTaken then .next s
    else
      let s0 := { s with keyQ := rest }
      match s0.frame? id with
      | none => .next s0
      | some f =>
        match f.key with
        | none => .next s0
        | some k0 =>
          let k := s0.keyNow f k0
          let (d, s1) := s0.decide f k
          let g := { f with key := some k, decision := some d, tag := some s.edition, alts := s0.alternatives f k d }
          .next { s1.setFrame g with decQ := s1.decQ ++ [id] }

/-- The endpoint that serves a flow queue: its own, its serving air link, or its PREF0 link (R190, R191). -/
def State.queueEp (s : State) (q : Nat) : Nat :=
  let e := s.qCfg q
  if qMode e = 2 then 0x40 + (if qServing e = 3 then qPref e 0 else qServing e) else qEndpoint e

/-- The queue for a copy bound for endpoint `x` (R172). -/
def State.queueFor (s : State) (d : Decision) (x : Nat) : QueueRef :=
  let e := s.qCfg d.queue
  if d.decider = .transit then .base x d.cls
  else if qMode e = 1 ∧ qEndpoint e = x then .flow d.queue
  else if qMode e = 2 ∧ isAir x ∧ (qPref e 0 = x - 0x40 ∨ qPref e 1 = x - 0x40 ∨ qPref e 2 = x - 0x40) then .flow d.queue
  else .base x d.cls

/-- A flow queue admits a copy (R173). -/
def State.admits (s : State) (q : QueueRef) (marked : Bool) : Bool :=
  match q with
  | .flow n => s.depth q < qLimit (s.qCfg n) && (!marked || s.depth q < qMarkLimit (s.qCfg n))
  | _ => true

/-- A new copy of a frame in a queue. -/
def State.newCopy (s : State) (id ep : Nat) (q : QueueRef) (cls : Nat) (marked mirror : Bool) (dst : Option Nat) : Copy :=
  ⟨id, ep, q, cls, 0, marked, mirror, dst, .queued, s.tick, false, 0, 0, 0, 0, 0, none, [], 0, [], [], .full, none, false, none, none, false⟩

/-- A copy placed at the tail of its queue. -/
def State.placeCopy (s : State) (c : Copy) : State := { s with copies := s.copies ++ [c] }

/-- A tail drop held to the commit point (R173). -/
def State.holdDrop (s : State) (id q : Nat) (marked : Bool) : State :=
  { s with
    frames := s.frames.map (fun f =>
      if f.id = id then
        { f with decision := f.decision.map (fun d => { d with tailDrops := d.tailDrops ++ [(q, marked)] }) }
      else f) }

/-- The copy of a decision for a target is placed or refused (R172, R173). -/
def State.place (s : State) (id : Nat) (d : Decision) (t : Target) : State :=
  let q := s.queueFor d t.ep
  let marked : Bool := d.colourAct = 1
  match q with
  | .flow n =>
    if s.admits q marked then s.placeCopy (s.newCopy id (s.queueEp n) q (qClass (s.qCfg n)) marked t.mirror t.dst)
    else s.holdDrop id n marked
  | _ => s.placeCopy (s.newCopy id t.ep q d.cls marked t.mirror t.dst)

/-- The copy of a decision for a BQ is placed, and may begin to be written (R237, R239). -/
def State.placeHost (s : State) (id : Nat) (d : Decision) (r : Nat × Bool) : State :=
  let c := s.newCopy id Config.hostEp (.bq r.1) d.cls (d.colourAct = 1) r.2 none
  (s.placeCopy c).earlyWrite c r.1

/-- The octet positions 0 to 63 at which a first cell differs from a template (R156). -/
def differing (l : List Octet) (value : Nat) : List Nat :=
  (List.range 64).filter (fun i => octet l i ≠ field value (8 * i) 8)

/-- The stub of a folded frame (Table 6.2): TEMPLATE, COUNT, and a pair of POS and VAL for each differing position. -/
def stubWord (t : Nat) (l : List Octet) (value : Nat) : Nat :=
  let ps := differing l value
  t * 2 ^ 119 + ps.length * 2 ^ 115
    + ((ps.zip (List.range 8)).map (fun p => (p.1 * 256 + octet l p.1) * 2 ^ (98 - 14 * p.2))).sum

/-- Fields of a template entry (Table 6.3). -/
def tplValid (e : Nat) : Bool := e.testBit 575
def tplFlush (e : Nat) : Bool := e.testBit 574
def tplMisses (e : Nat) : Nat := field e 536 8

/-- The template slot of a frame (R155). -/
def State.templateSlot (s : State) (d : Decision) : Nat := d.hash % 2 ^ s.build.templateBits

/-- A frame is eligible for folding at its decision (R155). -/
def State.foldEligible (s : State) (f : Frame) (d : Decision) : Bool :=
  s.rd 0x009 0x1000 0 = 1 && d.decider ≠ .transit && 65 ≤ f.len
    && (match f.key with | some k => k.ktype = 1 || k.ktype = 2 | none => false)

/-- The fold decision (R156): 0 not eligible, 1 folded, 2 not folded, 3 no stub free. DESIGN CHOICE (log entry 110): a template that is to be flushed
counts as one that does not fit. -/
def State.foldCode (s : State) (f : Frame) (d : Decision) : Nat :=
  if !s.foldEligible f d then 0
  else
    let e := s.ent 0x009 0x6000 (s.templateSlot d)
    if tplValid e && !tplFlush e && (differing f.inner e).length ≤ 8 then (if 0 < s.stubsFree then 1 else 3) else 2

/-- The fold decision takes effect: the first cell leaves staging as a stub, or is linked (R111, R151, R156). -/
def State.fold (s : State) (f : Frame) (d : Decision) : State :=
  let code := s.foldCode f d
  let t := s.templateSlot d
  let g := { f with fold := code, stub := if code = 1 then some (stubWord t f.inner (s.ent 0x009 0x6000 t)) else none,
                    cells := if f.account.isSome || !s.isChannel f.ing then cellsFor f.inner.length (code = 1) else f.cells }
  (s.setFrame g).charged g

/-- An action entry of the current bank cannot be read (R149); the rule gives its record no payload. -/
def State.actionLost (s : State) (contour : Bool) (i : Nat) : State :=
  let j := if contour then 0x10000 + i else i
  State.record ({ s with eccBad := (true, j) :: s.eccBad.erase (true, j) }.bump 0x006 0x8006 0 1) 0x0503 (if contour then 0x007 else 0x006) []

/-- What a read of the classifier's tables meets, whatever it was for (R149): a search, an action that does not decide, a read of the flow table at a
commit point or by the sweeper. -/
def State.eccTable (s : State) : EccFinding → State
  | .contourFixed => s.bump 0x007 0x8001 0 1
  | .contourBad e =>
    State.record ({ s with eccBad := (false, e) :: s.eccBad.erase (false, e) }.bump 0x007 0x8002 0 1) 0x0504 0x007 []
  | .flowFixed => s.bump 0x008 0x8003 0 1
  | .flowBad w => ((s.flowVoid w).bump 0x008 0x8004 0 1).record 0x0505 0x008 []
  | .templateFixed => s.bump 0x009 0x8005 0 1
  | .actionAt contour i => s.actionLost contour i
  | _ => s

/-- The effect of an uncorrectable or corrected error met by the search, or by the fold decision (R149, R150, R154, R158). -/
def State.eccFound (s : State) (f : Frame) (d : Decision) (ecc : EccFinding) : State :=
  match ecc with
  | .templateBad => if s.foldEligible f d ∧ tplValid (s.ent 0x009 0x6000 (s.templateSlot d)) then s.templateBad (s.templateSlot d) else s
  | .actionBad =>
    (match d.decider with
    | .legend i => s.actionLost false i
    | .contour i => s.actionLost true i
    | _ => s)
  | e => s.eccTable e

/-- The decision as the search's errors leave it (R149): an action that cannot be read drops the frame, and a Contour or flow entry that
cannot be read takes no part, on the state in which the key was presented (R38). -/
def afterEcc (f : Frame) (d : Decision) (ecc : EccFinding) : Decision :=
  let alt (x : Bool × Nat) : Decision := ((f.alts.find? (fun a => a.1 = x)).map Prod.snd).getD d
  match ecc with
  | .actionBad => (match d.decider with | .legend _ => { d with eccDrop := true } | .contour _ => { d with eccDrop := true } | _ => d)
  | .actionAt contour i => if d.decider = (if contour then Decider.contour i else .legend i) then { d with eccDrop := true } else d
  | .contourBad e => alt (true, e)
  | .flowBad w => alt (false, w)
  | _ => d

/-- DECISION_DELIVER (R127): the oldest decision reaches the buffer and the scheduler. With none waiting it brings what another read of the tables has
met: at a commit point, by the sweeper (R149; DESIGN CHOICE, log entry 95). -/
def execDecisionDeliver (ecc : EccFinding) (s : State) : Host.Outcome State Fault Refusal := gathered s fun s =>
  match s.decQ with
  | [] => .next (if s.mainUp then s.eccTable ecc else s)
  | id :: rest =>
    if !s.mainUp then .next s
    else
      let s0 := { s with decQ := rest }
      match s0.frame? id with
      | none => .next s0
      | some f =>
        match f.decision with
        | none => .next s0
        | some d0 =>
          let s1 := s0.eccFound f d0 ecc
          let d := afterEcc f d0 ecc
          let f1 := { f with decision := some d, alts := [] }
          let s2 := (s1.setFrame f1).fold f1 d
          let s3 := if d.eccDrop ∨ d.colourAct = 2 then s2
            else d.rings.foldl (fun s r => s.placeHost id d r) (d.targets.foldl (fun s t => s.place id d t) s2)
          .next (if (s3.copiesOf id).isEmpty then s3.leaveFlight id else s3)

end Sys2Proof.Machine
end

