-- ==== Sys2Proof/Machine/Apply.lean ====
section
/-! DEFINITION. The held effects of a committed frame (R36, R38): statistics, hits, flow entries (R144, R165), policer debits (R148),
drops, guard outcomes (R264 to R272), buffer templates (R158), transmit completions (R235). -/
namespace Sys2Proof.Machine

/-- The type and tag of a carried frame that is not known here. -/
def State.carriedFree (s : State) : (Nat × Bool) × State :=
  let (n, s1) := s.takeFree
  (((Config.carriedType n).toNat % 4 % 3, (Config.carriedType n).toNat.testBit 2), s1)

/-- The type and tagging under which a received frame is counted (R377): a FOLD_DATA frame by the frame it carries, which the slot of its template
tells; without one they are a free value (log entry 99). -/
def State.rxType (s : State) (f : Frame) : (Nat × Bool) × State :=
  if f.onFabric ∧ fabType f.octets = 1 then
    let body := (f.octets.drop 12).take (f.octets.length - 16)
    match s.foldSlot f.ing (fabRef f.octets) false with
    | some sl =>
      if sl.header ≠ [] ∧ sl.gen = octet body 0 then (typeOf (unfold sl body), s) else s.carriedFree
    | none => s.carriedFree
  else (sentType f, s)

/-- A received frame counted in its endpoint's block (R376, R377). A frame unfolded from a FOLD_DATA frame was counted with it. -/
def State.statRx (s : State) (f : Frame) : State :=
  if f.use = .unfolded then s
  else if s.isChannel f.ing then
    let u := csUnit f.ing
    let (ty, s0) := s.rxType f
    let s1 := s0.statFrame u 0x8000 f.octets.length ty.1 ty.2
    match f.use with
    | .macControl => s1.stat u 0x8008 0 1
    | .access => s1.stat u 0x8009 0 1
    | _ => s1
  else if isAir f.ing then s.statAir (asUnit (f.ing - 0x40)) 0x8000 f.octets.length
  else s

/-- The bad checksums of a received frame (Table 4.7). -/
def State.countSums (s : State) (f : Frame) : State :=
  if s.isChannel f.ing then
    let s1 := if f.l3 = 2 then s.bump (chUnit f.ing) 0x8019 0 1 else s
    if f.l4 = 2 then s1.bump (chUnit f.ing) 0x801A 0 1 else s1
  else s

/-- A hit counter plus 1 (R142). -/
def State.hit (s : State) (u i : Nat) : State := s.setEnt u 0x6003 i ((s.ent u 0x6003 i + 1) % 2 ^ 64)

/-- What the decision itself counts (R142, R140, R297, R300): a frame that a bad action drops has no hit (R149). -/
def State.countDecision (s : State) (d : Decision) : State :=
  let s1 := if d.noRoute = 0 then s else s.bump 0x00D 0x8003 0 d.noRoute
  if d.decider = .transit then s1.bump 0x00D 0x8007 0 1
  else
    let s2 := if d.tie then s1.bump 0x007 0x8000 0 1 else s1
    if d.eccDrop then s2
    else
      match d.decider with
      | .legend i => if actCount d.action then s2.hit 0x006 i else s2
      | .contour i => if actCount d.action then s2.hit 0x007 i else s2
      | .miss => s2.bump 0x006 0x8005 0 1
      | .transit => s2

/-- The age clock (R145). -/
def State.ageClock (s : State) : Nat := s.tick / 6250000 % 65536

/-- One step of a flow entry's LFSR, x^16 + x^14 + x^13 + x^11 + 1: the output bit and the next state. PRESUMED (log entry 16): the
Fibonacci form, which shifts towards bit 0 and outputs it. -/
def lfsrStep (l : Nat) : Nat × Nat :=
  let b (i : Nat) : Bool := l.testBit i
  (l % 2, l / 2 + (((b 0 != b 2) != b 3) != b 5).toNat * 2 ^ 15)

/-- `draw(k)` (R165): the next k output bits, the first the most significant (log entry 16). -/
def lfsrDraw : Nat → Nat → Nat → Nat × Nat
  | 0, acc, l => (acc, l)
  | k + 1, acc, l => lfsrDraw k (acc * 2 + (lfsrStep l).1) (lfsrStep l).2

/-- The halvings of R165: mantissa, exponent and LFSR. -/
def halve : Nat → Nat → Nat → Nat → Nat × Nat × Nat
  | 0, v, e, l => (v, e, l)
  | k + 1, v, e, l =>
    if v < 2 ^ 27 then (v, e, l)
    else if e = 31 then (2 ^ 27 - 1, e, l)
    else
      let r : Nat × Nat := if v % 2 = 1 then lfsrDraw 1 0 l else (0, l)
      halve k ((v + r.1) / 2) (e + 1) r.2

/-- BYTES and LFSR after a frame of `b` octets (R165). -/
def addBytes (bytes lfsr b : Nat) : Nat × Nat :=
  let e := bytes / 2 ^ 27
  let m := bytes % 2 ^ 27
  let q := b / 2 ^ e
  let r := b % 2 ^ e
  let dr : Nat × Nat := if 0 < e then lfsrDraw e 0 lfsr else (0, lfsr)
  let q1 := if 0 < e ∧ dr.1 < r then q + 1 else q
  let h := halve 33 (m + q1) e dr.2
  (h.2.1 * 2 ^ 27 + h.1, h.2.2)

/-- The flow entry of a committed frame is updated (R144). -/
def State.flowTouch (s : State) (d : Decision) (i len : Nat) : State :=
  let e := s.ent 0x008 0x6000 i
  let b := addBytes (field e 87 32) (field e 23 16) len
  let e1 := setField (setField (setField (setField e 55 32 (min 0xFFFFFFFF (field e 55 32 + 1))) 87 32 b.1) 23 16 b.2) 39 16 s.ageClock
  let e2 := if !e.testBit 252 ∧ field e 7 16 ≠ d.edition then
      setBit (setField (setField (setField e1 130 11 d.policer) 119 11 d.queue) 7 16 d.edition) 253 true
    else e1
  s.setEnt 0x008 0x6000 i e2

/-- The free ways of a bucket: single ways, or the even ways of free pairs (R144). -/
def State.freeWays (s : State) (bucket : Nat) (v6 : Bool) : List Nat :=
  let free (i : Nat) : Bool := !(s.ent 0x008 0x6000 i).testBit 255 && !s.pairOdd i
  if v6 then [4 * bucket, 4 * bucket + 2].filter (fun i => free i && free (i + 1))
  else [4 * bucket, 4 * bucket + 1, 4 * bucket + 2, 4 * bucket + 3].filter free

/-- A new flow entry (Table 5.13, R144). -/
def State.newFlow (s : State) (k : Key) (d : Decision) (len : Nat) : Nat :=
  let sp := if k.laterFrag then 0 else k.sport
  let dp := if k.laterFrag then 0 else k.dport
  2 ^ 255 + k.two.toNat * 2 ^ 254 + 2 ^ 253 + k.ingEp * 2 ^ 245 + k.proto * 2 ^ 237
    + (if k.two then 0 else k.src * 2 ^ 205 + k.dst * 2 ^ 173) + sp * 2 ^ 157 + dp * 2 ^ 141 + d.policer * 2 ^ 130 + d.queue * 2 ^ 119
    + len * 2 ^ 87 + 2 ^ 55 + s.ageClock * 2 ^ 39 + (d.hash % 2 ^ 16 ||| 1) * 2 ^ 23 + d.edition * 2 ^ 7

/-- A flow is learned, or finds no room (R144). Which of the free ways of its bucket it takes is a free value (log entry 14). -/
def State.learn (s : State) (k : Key) (d : Decision) (len : Nat) : State :=
  let a := s.freeWays d.bucketA k.two
  let b := s.freeWays d.bucketB k.two
  let ways := if a.length < b.length then b else a
  if ways = [] then s.bump 0x008 0x8001 0 1
  else
    let (n, s1) := s.takeFree
    let i := ways.getD ((Config.learnWay n).toNat % ways.length) 0
    let s2 := s1.setEnt 0x008 0x6000 i (s.newFlow k d len)
    let s3 := if k.two then s2.setEnt 0x008 0x6000 (i + 1) (k.fullSrc * 2 ^ 128 + k.fullDst) else s2
    s3.bump 0x008 0x8000 0 1

/-- The flow update at the commit point (R144). -/
def State.flowUpdate (s : State) (f : Frame) (k : Key) (d : Decision) : State :=
  if (actFlow d.action = 1 ∨ actFlow d.action = 2) ∧ (k.ktype = 1 ∨ k.ktype = 2) then
    match s.flowProbe k d.bucketA d.bucketB with
    | some i => s.flowTouch d i f.len
    | none => if actFlow d.action = 1 then s.learn k d f.len else s
  else s

/-- A bucket's distance below its burst grows by a debit. -/
def State.debit (s : State) (h : Hid) (len : Nat) : State := s.setReg h (s.reg h + len * 65536)

/-- The policer debit of a frame (R148). -/
def State.police (s : State) (d : Decision) (len : Nat) : State :=
  if d.policer = 0 then s
  else
    let n := d.policer - 1
    match field (s.ent 0x008 0x6001 n) 62 2, d.colour with
    | 1, 0 => (s.debit (.bucketC n) len).debit (.bucketP n) len
    | 1, 1 => s.debit (.bucketP n) len
    | 2, 0 => s.debit (.bucketC n) len
    | 2, 1 => s.debit (.bucketP n) len
    | _, _ => s

/-- The drops that the decision made (R173, R189). -/
def State.countDrops (s : State) (d : Decision) : State :=
  let s1 := d.tailDrops.foldl
    (fun s t => ((s.countQueue (.flow t.1) 2 1).bump 0x00A (if t.2 then 0x8001 else 0x8000) 0 1).latch 0x00A 18) s
  if d.colourAct = 2 then s1.bump 0x00A 0x8002 0 1 else s1

/-- Fields of a guard profile (Table 11.2). -/
def profClass (p : Nat) : Nat := field p 62 2
def profPoly (p : Nat) : Nat := field p 60 2
def profBase (p : Nat) : Nat := field p 58 2
def profRegOff (p : Nat) : Nat := field p 48 8
def profRegLen (p : Nat) : Nat := field p 40 8
def profChkOff (p : Nat) : Nat := field p 32 8
def profAliveOff (p : Nat) : Nat := field p 24 8
def profAliveW (p : Nat) : Nat := field p 22 2
def profStreamW (p : Nat) : Nat := field p 20 2
def profStreamOff (p : Nat) : Nat := field p 12 8

/-- The octets of a polynomial's check value. -/
def polyOctets (poly : Nat) : Nat := match poly with | 0 => 4 | 1 => 4 | 2 => 2 | _ => 1

/-- The octets of a stream identifier (Table 11.2): its STREAM_W. -/
def streamOctets (w : Nat) : Nat := if w = 1 then 1 else if w = 2 then 2 else 0

/-- The position of a profile's BASE, `none` where the L4 base is not valid (R266). -/
def guardBase (p : Nat) (k : Key) : Option Nat :=
  match profBase p with
  | 0 => some k.l2
  | 1 => some k.l3
  | _ => k.l4

/-- The field at an offset is readable (R266). -/
def guardReads (f : Frame) (base off n : Nat) : Bool := base + off + n ≤ 256 && base + off + n + 4 ≤ f.octets.length

/-- The base of a guarded frame with every field its profile uses readable, `none` for FORMAT (R266). `guarded` leaves the check region
alone for a DATA profile. -/
def guardAt (p : Nat) (f : Frame) (k : Key) (guarded : Bool) : Option Nat :=
  match guardBase p k with
  | none => none
  | some b =>
    if guardReads f b (profRegOff p) (profRegLen p)
        && (!guarded || (guardReads f b (profChkOff p) (polyOctets (profPoly p))
          && (profAliveW p = 0 || guardReads f b (profAliveOff p) 1)
          && (profStreamW p = 0 || guardReads f b (profStreamOff p) (streamOctets (profStreamW p))))) then some b
    else none

/-- The computed check value of a frame's region. -/
def guardCheck (p : Nat) (f : Frame) (b : Nat) : Nat :=
  crc (crcOfPoly (profPoly p)) ((f.octets.drop (b + profRegOff p)).take (profRegLen p))

/-- Fields of a stream entry (Table 11.3). -/
def strLast (e : Nat) : Nat := field e 24 8
def strSynced (e : Nat) : Bool := e.testBit 62

/-- The stream of a guarded frame (R268). -/
def State.streamOf (s : State) (prof ing id : Nat) : Option Nat :=
  lowest ((s.listed 0x00B 0x6001).filterMap (fun x =>
    if x.2.testBit 63 && field x.2 56 4 = prof && field x.2 49 7 = ing && field x.2 32 16 = id then some x.1 else none))

/-- A saturating count in a 32-bit field. -/
def satField (e lo : Nat) : Nat := setField e lo 32 (min 0xFFFFFFFF (field e lo 32 + 1))

/-- A guarded frame's outcome (Table 11.4): its code, the stream entry's new contents, whether it fails. -/
structure Outcome where
  code  : Nat
  entry : Nat
  fails : Bool
  deriving DecidableEq, Repr

/-- The outcome of a frame whose stream entry is `e` (Table 11.4). -/
def outcomeOf (e : Nat) (good : Bool) (aliveW a : Nat) : Outcome :=
  let m := if aliveW = 3 then 256 else 16
  let set (e code : Nat) : Nat := setField e 21 3 code
  let ok (e : Nat) : Nat := satField e 96
  let bad (e : Nat) : Nat := satField e 64
  if !good then ⟨2, set (bad e) 2, true⟩
  else if aliveW = 0 then ⟨0, set (ok e) 0, false⟩
  else if !strSynced e then ⟨1, set (setBit (setField (ok e) 24 8 a) 62 true) 1, false⟩
  else if a = strLast e then ⟨3, set (bad e) 3, true⟩
  else if a ≠ (strLast e + 1) % m then ⟨4, set (setField (bad e) 24 8 a) 4, true⟩
  else ⟨0, set (setField (ok e) 24 8 a) 0, false⟩

/-- The counter of an outcome (Table 11.8). -/
def outcomeCounter (code : Nat) : Nat :=
  match code with | 0 => 0x8000 | 1 => 0x8001 | 2 => 0x8002 | 3 => 0x8003 | 4 => 0x8004 | 5 => 0x8005 | _ => 0x8006

/-- A failing outcome's effects (R270, R271, Table 11.5). -/
def State.guardFail (s : State) (f : Frame) (d : Decision) (code stream sid received expected carried computed : Nat) : State :=
  let p := d.profNo - 1
  let s1 := (((s.bump 0x00B 0x8007 0 1).latch 0x00B 16).raise (causeGuardFail p)).record 0x0B01 0x00B
    [(1, p), (1, code), (1, f.ing), (1, 0), (2, stream), (2, sid), (1, received), (1, expected), (2, 0), (4, carried), (4, computed)]
  if d.profile.testBit 57 then
    (s1.bump 0x00B 0x8009 0 1).setFrame { f with guardMark := true }
  else
    State.bump { s1 with copies := s1.copies.filter (fun c => c.frame ≠ f.id) } 0x00B 0x8008 0 (s1.copiesOf f.id).length

/-- The guarded class (R266 to R271). -/
def State.guardFrame (s : State) (f : Frame) (k : Key) (d : Decision) : State :=
  let p := d.profile
  match guardAt p f k true with
  | none =>
    let (n, s1) := (s.bump 0x00B (outcomeCounter 6) 0 1).takeFree
    let v := (Config.guardFormat n).toNat
    s1.guardFail f d 6 0xFFFF 0 0 0 (v / 2 ^ 32) (v % 2 ^ 32)
  | some b =>
    let o := octet f.octets (b + profAliveOff p)
    let a := match profAliveW p with | 1 => o / 16 | 2 => o % 16 | 3 => o | _ => 0
    let sid := beN f.octets (b + profStreamOff p) (streamOctets (profStreamW p))
    let carried := beN f.octets (b + profChkOff p) (polyOctets (profPoly p))
    let computed := guardCheck p f b
    match s.streamOf (d.profNo - 1) f.ing sid with
    | none => (s.bump 0x00B (outcomeCounter 5) 0 1).guardFail f d 5 0xFFFF sid a 0 carried computed
    | some i =>
      let e := s.ent 0x00B 0x6001 i
      let r := outcomeOf e (carried = computed) (profAliveW p) a
      let s1 := (s.setEnt 0x00B 0x6001 i r.entry).bump 0x00B (outcomeCounter r.code) 0 1
      let expected := if strSynced e then (strLast e + 1) % (if profAliveW p = 3 then 256 else 16) else 0
      if r.fails then s1.guardFail f d r.code i sid a expected carried computed else s1

/-- The guard of a frame (R264, R272). -/
def State.guard (s : State) (f : Frame) (k : Key) (d : Decision) : State :=
  if d.profNo = 0 then s
  else
    match profClass d.profile with
    | 1 => s.guardFrame f k d
    | 2 =>
      let s1 := s.bump 0x00B 0x800A 0 1
      match guardAt d.profile f k false with
      | some b => s1.setFrame { f with guardValue := guardCheck d.profile f b }
      | none => s1.bump 0x00B 0x800B 0 1
    | _ => s.bump 0x00B 0x800C 0 1

/-- A frame's first cell becomes a template's VALUE (R158). -/
def State.installTemplate (s : State) (t : Nat) (f : Frame) : State :=
  (s.setEnt 0x009 0x6000 t (ofLsb (f.inner.take 64) + 2 ^ 575)).bump 0x009 0x8003 0 1

/-- The template of an eligible frame that was not folded, at its commit (R158): `stub` where it only lacked a stub. -/
def State.templateMiss (s : State) (t : Nat) (f : Frame) (stub : Bool) : State :=
  let e := s.ent 0x009 0x6000 t
  if !tplValid e then (if tplFlush e then s else s.installTemplate t f)
  else if !stub ∧ 8 < (differing f.inner e).length then
    let m := min 255 (tplMisses e + 1)
    if s.rd 0x009 0x1001 0 ≤ m ∧ s.refCount t = 0 then s.installTemplate t f
    else s.setEnt 0x009 0x6000 t (setField e 536 8 m)
  else s

/-- The template's part in a frame's commit (R158). -/
def State.templateUpdate (s : State) (f : Frame) (d : Decision) : State :=
  let t := s.templateSlot d
  match f.fold with
  | 1 => (s.setEnt 0x009 0x6000 t (setField (s.ent 0x009 0x6000 t) 536 8 0)).bump 0x009 0x8000 0 1
  | 2 => (s.bump 0x009 0x8001 0 1).templateMiss t f false
  | 3 => (s.bump 0x009 0x8002 0 1).templateMiss t f true
  | _ => s

/-- The transmit completion of a host frame whose TSTAMP is 0 (R235). -/
def State.completeTx (s : State) (id : Nat) : State :=
  match s.frame? id with
  | some f =>
    match f.desc with
    | some t => if t.word1.testBit 40 ∨ f.completed then s else s.txComplete f t 0 none
    | none => s
  | none => s

/-- The decision's held effects (R36, R38). -/
def State.applyDecision (s : State) (f : Frame) (d : Decision) : State :=
  let s1 := (s.countDecision d).countDrops d
  let s2 := if d.eccDrop ∨ d.decider = .transit then s1 else s1.police d f.len
  match f.key with
  | none => s2
  | some k =>
    if d.eccDrop ∨ d.decider = .transit then s2.templateUpdate f d
    else ((s2.flowUpdate f k d).guard f k d).templateUpdate f d

/-- A frame marked as applied. -/
def State.markApplied (s : State) (id : Nat) : State :=
  { s with frames := s.frames.map (fun g => if g.id = id then { g with applied := true } else g) }

/-- The held effects of one committed frame (R38). -/
def State.applyFrame (s : State) (f : Frame) : State :=
  let s1 := ((f.owed.foldl State.pay s).statRx f).countSums f
  let s2 := match f.decision with | some d => s1.applyDecision f d | none => s1
  let s3 := (s2.completeTx f.id).markApplied f.id
  ((s3.hostSending f.id).foldl State.rxFinish s3).settle f.id

/-- APPLY_HELD_EFFECTS (R38): the oldest committed frame comes to its application slot. Its decision has been delivered by then. -/
def execApplyHeldEffects (s : State) : Host.Outcome State Fault Refusal := gathered s fun s =>
  match s.appQ with
  | [] => .next s
  | id :: rest =>
    if !s.mainUp ∨ s.keyQ.contains id ∨ s.decQ.contains id then .next s
    else
      match s.frame? id with
      | none => .next { s with appQ := rest }
      | some f => .next (State.applyFrame { s with appQ := rest } f).pump

end Sys2Proof.Machine
end

