-- ==== Sys2Proof/Machine/HostTx.lean ====
section
/-! DEFINITION. Frames that the host submits (R200, R201, R232): tags, padding, checksums, FCS, and their start. -/
namespace Sys2Proof.Machine

/-- The tags of a descriptor, outermost first (R200 step 1). -/
def descTags (t : TxDesc) : List Octet :=
  let tag (b i : Nat) : List Octet := toMsb 2 (if t.word1.testBit b then 0x88A8 else 0x8100) ++ toMsb 2 (field t.word2 i 16)
  match field t.word1 46 2 with
  | 1 => tag 45 48
  | 2 => tag 45 48 ++ tag 44 32
  | _ => []

/-- The frame after tags and padding (R200 steps 1 and 2). -/
def descFrame (t : TxDesc) (payload : List Octet) : List Octet :=
  let l := payload.take 12 ++ descTags t ++ payload.drop 12
  if t.word1.testBit 43 then l else l ++ List.replicate (60 - l.length) 0

/-- A requested checksum may be written (R201): no fragment, and the IP length lies in the frame. -/
def insertable (l : List Octet) (k : Key) : Bool :=
  !k.frag && (k.ktype = 1 || k.ktype = 2)
    && k.l3 + (if k.ktype = 2 then be16 l (k.l3 + 4) + 40 else be16 l (k.l3 + 2)) ≤ l.length

/-- The IPv4 header checksum written (R201): the frame, and whether it was written. -/
def insertL3 (l : List Octet) (k : Key) : List Octet × Bool :=
  let n := octet l k.l3 % 16 * 4
  if insertable l k && k.ktype = 1 && 20 ≤ n && k.l3 + n ≤ 128 && k.l3 + n ≤ l.length then
    let z := patch l (k.l3 + 10) [0, 0]
    (patch l (k.l3 + 10) (toMsb 2 (inetSum ((z.drop k.l3).take n))), true)
  else (l, false)

/-- The TCP or UDP checksum written (R201): the frame, and whether it was written. -/
def insertL4 (l : List Octet) (k : Key) : List Octet × Bool :=
  match k.l4 with
  | none => (l, false)
  | some p =>
    let n := segLen l k p
    let need := if k.isTcp then 20 else 8
    if insertable l k && (k.isTcp || k.isUdp) && need ≤ n then
      let q := if k.isTcp then p + 16 else p + 6
      let z := patch l q [0, 0]
      let c := 65535 - onesFold (l4Sum k ((z.drop p).take n))
      (patch l q (toMsb 2 (if k.isUdp ∧ c = 0 then 65535 else c)), true)
    else (l, false)

/-- The checksums that a descriptor asks for (R200 step 3). The walk is that of a frame of the host port. -/
def State.checksums (s : State) (t : TxDesc) (l : List Octet) : List Octet × Bool × Bool :=
  let k := ParseIn.parse ⟨l, true, false, Config.hostEp, 0, [1, 2, 3, 4].map (fun k => s.rd 0x006 0x1000 k), some (field t.word1 48 16)⟩
  let a := if t.word1.testBit 42 then insertL3 l k else (l, false)
  let b := if t.word1.testBit 41 then insertL4 a.1 k else (a.1, false)
  (b.1, a.2, b.2)

/-- The frame of a descriptor as it enters the device (R200). -/
def State.hostFrame (s : State) (t : TxDesc) (payload : List Octet) : Frame :=
  let c := s.checksums t (descFrame t payload)
  let l := c.1 ++ fcsOctets c.1
  ⟨s.regN .nextFrame, Config.hostEp, l, false, 16352, none, true, false, false, .data, none, none, none, ceilDiv l.length 64 - 1, none, none,
   0, 0, some t, c.2.1, c.2.2, none, false, 0, false, 0, false, [], some (field t.word1 48 16), [], false⟩

/-- A host frame is started (R232, R241). -/
def State.startHost (s : State) (a : AheadEntry) : State :=
  let u := tqUnit a.desc.tq
  let f := s.hostFrame a.desc (payloadOf a)
  let s1 := ({ s with ahead := s.ahead.erase a }.setReg (.tqTurn (s.ringPrio u)) (((a.desc.tq + 1) % s.build.rings : Nat) : Int)).reserve
    (s.cqOf u)
  ((s1.addFrame f).parseFrame f).pump

/-- HOST_TX_FRAME (R232): the host port starts the next frame in its order, whose payload is in. -/
def execHostTxFrame (s : State) : Host.Outcome State Fault Refusal := gathered s fun s =>
  if s.mainUp ∧ s.running ∧ !s.asked 1 then
    match s.tqTurnOf with
    | none => .next s
    | some q =>
      match s.aheadNext q with
      | none => .next s
      | some a => if s.payloadDone a then .next (s.startHost a) else .next s
  else .next s

/-- TX_FRAME_END (R196): the last octet of the copy in progress on a channel is sent, and a suspended remainder goes on (R204). A
cut-through copy ends only when its frame has come to its commit point. The host port goes on where cells are free again (R152). -/
def execTxFrameEnd (ep : Nat) (s : State) : Host.Outcome State Fault Refusal := gathered s fun s =>
  match s.sending ep with
  | none => .next s
  | some c =>
    let known : Bool := match s.frame? c.frame with | some f => f.committed | none => true
    if s.mainUp ∧ s.isChannel ep ∧ known then .next ((s.txEnd c).mPackets.resume ep).pump else .next s

end Sys2Proof.Machine
end

