-- ==== Sys2Proof/Machine/Air.lean ====
section
/-! DEFINITION. Air links (R249 to R256) and radio coexistence (R257 to R261). -/
namespace Sys2Proof.Machine

/-- The air link is on and may take a frame from the radio (R251, R253, R256). A frame in progress when the unit is asked for an entry is still
taken: AL_RX_READY falls at its end. -/
def State.airOpen (s : State) (al : Nat) (n : Nat) : Bool :=
  s.mainUp && al < 3 && s.rd (alUnit al) 0x1000 0 = 1 && !s.asked 3 && !(s.asked 2 && s.regN (.alClosed al) = 1)
    && s.epOccupancy (0x40 + al) + ceilDiv (max 60 n + 4) 64 ≤ s.rd 0x009 0x1003 al

/-- A frame from the radio that has passed its checks, padded and with an FCS (R251). -/
def State.airFrame (s : State) (al : Nat) (octets : List Octet) : Frame :=
  let d := octets ++ List.replicate (60 - octets.length) 0
  let l := d ++ fcsOctets d
  ⟨s.regN .nextFrame, 0x40 + al, l, false, 16352, none, true, false, false, .data, none, none, none, ceilDiv l.length 64 - 1, none, none,
   0, 0, none, false, false, none, false, 0, false, 0, false, [], some octets.length, [], false⟩

/-- AL_RX_FRAME (R251): a frame from the radio ends with its LAST beat; `length` and `rsvd` come from its descriptor beat, `err` is
AL_RX_ERR. -/
def execAlRxFrame (al length : Nat) (rsvd : Bool) (octets : List Octet) (err : Bool) (s : State) : Host.Outcome State Fault Refusal :=
  if s.wake.airOpen al octets.length then
    let s := if s.asked 2 then s.wake.setReg (.alClosed al) 1 else s.wake
    let u := alUnit al
    let s1 := if rsvd then s.bump u 0x8002 0 1 else s
    if err then .next (s1.bump u 0x8000 0 1)
    else if length ≠ octets.length ∨ length < 14 ∨ 16348 < length then .next (s1.bump u 0x8001 0 1)
    else
      let f := s1.airFrame al octets
      .next ((s1.addFrame f).parseFrame f)
  else .next s

/-- The descriptor beat of a copy to the radio (Table 10.2). -/
def airBeat (f : Frame) (c : Copy) : List Octet :=
  let d := f.decision
  let q := match c.queue with | .flow n => n * 2 ^ 16 | _ => 2 ^ 71
  toLsb 32 (q + f.ing * 2 ^ 64 + (match d with | some d => d.hsym | none => 0) * 2 ^ 32 + c.mirror.toNat * 2 ^ 31 + c.marked.toNat * 2 ^ 30
    + c.cls * 2 ^ 27 + (f.len - 4))

/-- The LAST beat of a copy passes to the radio, with AL_TX_ERR where a cell could not be read (R252, R376). -/
def State.airEnd (s : State) (al : Nat) (c : Copy) (f : Frame) (ecc : CellRead) : State :=
  let u := alUnit al
  let s1 := ((s.statAir (asUnit al) 0x8010 f.len).countQueue c.queue 0 1).countQueue c.queue 1 f.len
  let r := s1.readCells f ecc
  let s2 := if r.1 then r.2.bump u 0x8003 0 1 else r.2
  let s3 := s2.setReg (.alTxErr al) r.1.toNat
  ((State.dropCopy { s3 with txOut := s3.txOut.set (0x40 + al) (airBeat f c ++ f.data) [] } c)).settle f.id

/-- AL_TX_FRAME_END (R252): the LAST beat of the oldest copy in the transmit FIFO passes; `ecc` is what the reads of
its cells have met (R154). AL_TX_VALID stays 0 while the link is not enabled (R253). -/
def execAlTxFrameEnd (al : Nat) (ecc : CellRead) (s : State) : Host.Outcome State Fault Refusal :=
  match s.sending (0x40 + al) with
  | none => .next s
  | some c =>
    match s.frame? c.frame with
    | none => .next s
    | some f => if s.mainUp ∧ al < 3 ∧ s.rd (alUnit al) 0x1000 0 = 1 then .next (s.airEnd al c f ecc).pump else .next s

/-- AL_TX_STALL (R252): AL_TX_READY has stayed low for `tx_stall_limit` with a beat waiting. The row is the moment at which the limit is reached,
which comes once per stall. -/
def execAlTxStall (al : Nat) (s : State) : Host.Outcome State Fault Refusal :=
  if s.mainUp ∧ al < 3 ∧ s.rd (alUnit al) 0x1000 0 = 1 ∧ (s.sending (0x40 + al)).isSome then
    let u := alUnit al
    .next (((s.bump u 0x8004 0 1).latch u 16).record 0x0A01 u [(1, al)])
  else .next s

/-- AL_STATE_CHANGE (R254): AL_STATE has held a value for `state_filter`; it is latched at the next boundary. -/
def execAlStateChange (al value : Nat) (s : State) : Host.Outcome State Fault Refusal :=
  if s.mainUp ∧ al < 3 ∧ value < 4 then .next (s.setReg (.alFiltered al) value) else .next s

/-- The flow queues of an air link (R255): FIXED queues on it, LINK_SET queues that it serves or holds, and those that drain. A queue at its
reset entry is none of them. -/
def State.queuesOf (s : State) (al : Nat) : List Nat :=
  s.listedQueues.filter (fun n => (qMode (s.qCfg n) ≠ 0 || s.waiting (.flow n)) && s.queueHome n = 0x40 + al)

/-- PARKED of a link's queues set or cleared (Table 7.1). -/
def State.setParked (s : State) (al : Nat) (v : Bool) : State :=
  (s.queuesOf al).foldl (fun s n => s.setEnt 0x00A 0x6000 n (setBit (s.qCfg n) 237 v)) s

/-- A link's queues are parked (R255). AL_PARKED is raised: its own source is a level, sampled at the boundary, and the source that it shares on
Tlafelu-8 takes it as an edge (R314). -/
def State.park (s : State) (al : Nat) : State :=
  let u := alUnit al
  if s.rd u 0x5001 0 = 1 then s
  else
    ((((s.wr u 0x5001 0 1).setParked al true).bump u 0x8005 0 1).raise (causeAlParked al)).record 0x0A02 u
      [(1, al), (1, s.rd u 0x5000 0), (4, s.regN (.sinceReady al))]

/-- A queue rejoins with the virtual time of its class and link (R186). -/
def State.rejoin (s : State) (q : QueueRef) (ep cls : Nat) : State := s.setReg (.finish q) (s.reg (.vtime ep cls))

/-- A link unparks (R255): PARKED clears and its queues rejoin. -/
def State.unpark (s : State) (al : Nat) : State :=
  let u := alUnit al
  if s.rd u 0x5001 0 = 0 then s
  else
    let s1 := (s.wr u 0x5001 0 0).setParked al false
    let s2 := (s1.queuesOf al).foldl (fun s n => s.rejoin (.flow n) (0x40 + al) (qClass (s.qCfg n))) s1
    (List.range 8).foldl (fun s c => s.rejoin (.base (0x40 + al) c) (0x40 + al) c) s2

/-- AL_HOLD_EXPIRE (R255). -/
def execAlHoldExpire (al : Nat) (s : State) : Host.Outcome State Fault Refusal :=
  if s.mainUp ∧ (s.timer (.alHold al)).isSome then .next ((s.wake.stopTimer (.alHold al)).park al) else .next s

/-- The filtered AL_STATE is latched at a boundary and acts on the link's queues (R254, R255). A link with `enable` at 0 is treated as OFF (R253):
one that is not enabled is parked at the first boundary (log entry 31). -/
def State.latchAir (s : State) (al : Nat) : State :=
  let u := alUnit al
  let old := s.rd u 0x5000 0
  let new := s.regN (.alFiltered al)
  let s1 := if new = old then s else (s.wr u 0x5000 0 new).bump u 0x8006 0 1
  if new = 0 ∨ s.rd u 0x1000 0 = 0 then
    (((s1.setReg (.sinceReady al) (min 0xFFFFFFFF (s.reg (.sinceReady al) + 1))).stopTimer (.alHold al)).park al)
  else if new = 3 then ((s1.setReg (.sinceReady al) 0).stopTimer (.alHold al)).unpark al
  else
    let s2 := s1.setReg (.sinceReady al) (min 0xFFFFFFFF (s.reg (.sinceReady al) + 1))
    if old = 3 then s2.startTimer (.alHold al) (s.rd u 0x1004 0 * 6250) else s2

/-- The lanes that are quiet (`coex.lanes_quiet`). -/
def State.lanesQuiet (s : State) : Nat :=
  ((List.range 16).filter (fun l => s.quietLane l)).foldl (fun a l => a + 2 ^ l) 0

/-- Choices that quiet stops are withdrawn, and the remainder of a frame that was cut for one goes on (R176, R257). -/
def State.withdrawQuiet (s : State) : State :=
  (List.range s.build.channels).foldl (fun s ch => (s.withdraw ch (fun c => s.quiet ch c.level)).resume ch) s

/-- COEX_REQ_RISE (R257): the filtered request rises, and the mask is sampled. -/
def execCoexReqRise (i : Nat) (s : State) : Host.Outcome State Fault Refusal :=
  if s.mainUp ∧ i < 3 ∧ s.rd 0x00F 0x5000 i = 0 then
    .next ((s.setReg (.coexMask i) (s.rd 0x00F 0x1000 i)).wr 0x00F 0x5000 i 1).withdrawQuiet
  else .next s

/-- A lane is at a frame boundary with nothing suspended, or is not UP (R258). -/
def State.laneIdle (s : State) (lane : Nat) : Bool :=
  !s.laneUp lane || !s.copies.any (fun c => s.isChannel c.ep && laneOf c.ep = lane && (c.state = .sending || c.state = .suspended))

/-- COEX_GRANT (R258): every lane in the sampled mask is idle; `late` where `max_grant_delay` has passed. -/
def execCoexGrant (i : Nat) (late : Bool) (s : State) : Host.Outcome State Fault Refusal :=
  if s.mainUp ∧ i < 3 ∧ s.rd 0x00F 0x5000 i = 1
      ∧ (List.range s.build.lanes).all (fun l => !(s.regN (.coexMask i)).testBit l || s.laneIdle l) then
    let s1 := ((s.wr 0x00F 0x5000 i 2).setReg (.coexGnt i) 1).bump 0x00F 0x8000 i 1
    .next (if late then s1.bump 0x00F 0x8001 i 1 else s1)
  else .next s

/-- COEX_REQ_FALL (R259, Table 10.3). -/
def execCoexReqFall (i : Nat) (s : State) : Host.Outcome State Fault Refusal :=
  if s.mainUp ∧ i < 3 then
    match s.rd 0x00F 0x5000 i with
    | 1 => .next ((s.wr 0x00F 0x5000 i 0).bump 0x00F 0x8003 i 1)
    | 2 => .next ((s.wr 0x00F 0x5000 i 0).setReg (.coexGnt i) 0)
    | 3 => .next (s.wr 0x00F 0x5000 i 0)
    | _ => .next s
  else .next s

/-- MAX_QUIET_EXPIRE (R259): `max_quiet` has passed since the grant. -/
def execMaxQuietExpire (i : Nat) (s : State) : Host.Outcome State Fault Refusal :=
  if s.mainUp ∧ i < 3 ∧ s.rd 0x00F 0x5000 i = 2 then
    .next (((((s.wr 0x00F 0x5000 i 3).setReg (.coexGnt i) 0).bump 0x00F 0x8002 i 1).raise (causeCoexExpired i)).record 0x0A03 0x00F
      [(1, i), (2, s.regN (.coexMask i))])
  else .next s

end Sys2Proof.Machine
end

