-- ==== Sys2Proof/Machine/Aes.lean ====
section
/-! DEFINITION. AES-128 and AES-CMAC (NIST SP 800-38B), with which object-access PDUs are tagged (R72). The cipher is FIPS 197's. -/
namespace Sys2Proof.Machine

/-- Multiplication by x in GF(2^8) with the polynomial 0x11B. -/
def xtime (a : Nat) : Nat := if a < 128 then 2 * a else (2 * a) ^^^ 0x11B

/-- Multiplication in GF(2^8): `n` bits of `b` are taken from the lowest on. -/
def gmul : Nat → Nat → Nat → Nat
  | 0, _, _ => 0
  | n + 1, a, b => (if b % 2 = 1 then a else 0) ^^^ gmul n (xtime a) (b / 2)

/-- The inverse in GF(2^8), 0 for 0: the 254th power. -/
def ginv (a : Nat) : Nat :=
  let sq (x : Nat) : Nat := gmul 8 x x
  let a2 := sq a
  let a4 := sq a2
  let a8 := sq a4
  let a16 := sq a8
  let a32 := sq a16
  let a64 := sq a32
  let a128 := sq a64
  gmul 8 a2 (gmul 8 a4 (gmul 8 a8 (gmul 8 a16 (gmul 8 a32 (gmul 8 a64 a128)))))

/-- An octet rotated left. -/
def rotl8 (a n : Nat) : Nat := (a * 2 ^ n) % 256 ||| a / 2 ^ (8 - n)

/-- The S-box by its definition: the inverse, then the affine map (FIPS 197, 5.1.1). -/
def sboxDef (a : Nat) : Nat :=
  let b := ginv a
  b ^^^ rotl8 b 1 ^^^ rotl8 b 2 ^^^ rotl8 b 3 ^^^ rotl8 b 4 ^^^ 0x63

/-- The S-box as its table, 32 values to a number, the first one least significant (FIPS 197, Figure 7). -/
def sboxTable : List Nat :=
  [0xC072A49CAFA2D4ADF04759FA7DC982CA76ABD7FE2B670130C56F6BF27B777C63,
    0x75B227EBE28012079A059618C323C7041531D871F1E5A534CCF73F362693FDB7,
    0xCF584C4A39BECB6A5BB1FC20ED00D153842FE329B3D63B52A05A6E1B1A2C8309,
    0xD2F3FF1021DAB6BCF5389D928F40A351A89F3C507F02F94585334D43FBAAEFD0,
    0xDB0B5EDE14B8EE4688902A22DC4F816073195D643D7EA7C41744975FEC130CCD,
    0x08AE7A65EAF4566CA94ED58D6D37C8E779E4959162ACD3C25C2406490A3A32E0,
    0x9E1DC186B95735610EF6034866B53E708A8BBD4B1F74DDE8C6B4A61C2E2578BA,
    0x16BB54B00F2D99416842E6BF0D89A18CDF2855CEE9871E9B948ED9691198F8E1]

/-- The S-box. It is `sboxDef` on every octet. -/
def sbox (a : Nat) : Nat := sboxTable.getD (a / 32) 0 / 2 ^ (8 * (a % 32)) % 256

/-- Octet-wise exclusive or. -/
def xorL (a b : List Nat) : List Nat := List.zipWith (· ^^^ ·) a b

/-- The round key after `k`; `rc` is the round constant. -/
def nextKey (k : List Nat) (rc : Nat) : List Nat :=
  let w (i : Nat) : List Nat := (k.drop (4 * i)).take 4
  let t := ((w 3).drop 1 ++ (w 3).take 1).map sbox
  let w0 := xorL (w 0) (xorL t [rc, 0, 0, 0])
  let w1 := xorL (w 1) w0
  let w2 := xorL (w 2) w1
  let w3 := xorL (w 3) w2
  w0 ++ w1 ++ w2 ++ w3

/-- ShiftRows on a state held column by column. -/
def shiftRows (s : List Nat) : List Nat := (List.range 16).map (fun i => s.getD ((i + 4 * (i % 4)) % 16) 0)

/-- MixColumns of one column. -/
def mixColumn (c : List Nat) : List Nat :=
  (List.range 4).map (fun i =>
    let g (j : Nat) : Nat := c.getD ((i + j) % 4) 0
    xtime (g 0) ^^^ (xtime (g 1) ^^^ g 1) ^^^ g 2 ^^^ g 3)

def mixColumns (s : List Nat) : List Nat := [0, 1, 2, 3].flatMap (fun i => mixColumn ((s.drop (4 * i)).take 4))

/-- The rounds left: `n` of them, the last without MixColumns. -/
def aesRounds : Nat → List Nat → List Nat → Nat → List Nat
  | 0, s, _, _ => s
  | n + 1, s, k, rc =>
    let k1 := nextKey k rc
    let t := shiftRows (s.map sbox)
    aesRounds n (xorL (if n = 0 then t else mixColumns t) k1) k1 (xtime rc)

/-- AES-128 of one block, most significant octet first. -/
def aes (key block : List Nat) : List Nat := aesRounds 10 (xorL block key) key 1

/-- A block doubled in GF(2^128) (SP 800-38B subkeys). -/
def double (b : List Nat) : List Nat :=
  let v := b.foldl (fun a o => a * 256 + o) 0
  let w := if v < 2 ^ 127 then 2 * v else (2 * v) % 2 ^ 128 ^^^ 0x87
  (toMsb 16 w).map (fun o => o.toNat)

/-- The chain over blocks: `k1` and `k2` are the subkeys of a full and of a short last block. -/
def cmacRun (key k1 k2 : List Nat) : Nat → List Nat → List Nat → List Nat
  | 0, c, _ => c
  | n + 1, c, m =>
    if m.length ≤ 16 then
      let last := if m.length = 16 then xorL m k1 else xorL (m ++ [0x80] ++ List.replicate (15 - m.length) 0) k2
      aes key (xorL c last)
    else cmacRun key k1 k2 n (aes key (xorL c (m.take 16))) (m.drop 16)

/-- AES-CMAC under a key given as a number of 128 bits. -/
def cmac (key : Nat) (m : List Octet) : List Nat :=
  let k := (toMsb 16 key).map (fun o => o.toNat)
  let l := aes k (List.replicate 16 0)
  let k1 := double l
  cmacRun k k1 (double k1) (m.length + 1) (List.replicate 16 0) (m.map (fun o => o.toNat))

/-- The TAG of a PDU: the first 64 bits of its CMAC (Table 2.12). -/
def pduTag (key : Nat) (m : List Octet) : List Octet := ((cmac key m).take 8).map (BitVec.ofNat 8)

end Sys2Proof.Machine
end

