-- ==== Sys2Proof/Machine/Link.lean ====
section
/-! DEFINITION. Preemption verify (R203) and header folding on fabric links at the receiver and in the generated frames (R158, R161 to
R164). -/
namespace Sys2Proof.Machine

/-- `preempt_status` (R203): a change is recorded. -/
def State.setPreempt (s : State) (ch v : Nat) : State :=
  let u := chUnit ch
  if s.rd u 0x5030 0 = v then s else (s.wr u 0x5030 0 v).record 0x0401 u []

/-- A verify mPacket is sent and `verify_time` runs. -/
def State.sendVerify (s : State) (ch : Nat) : State :=
  ((s.sendMPacket ch 0x07).setReg (.verifyCount ch) (s.reg (.verifyCount ch) + 1)).startTimer (.verify ch)
    (s.rd (chUnit ch) 0x1033 0 * 6250)

/-- A channel enters UP (R203). -/
def State.preemptUp (s : State) (ch : Nat) : State :=
  if s.mergeOn ch && s.rd (chUnit ch) 0x5030 0 = 0 then
    if s.rd (chUnit ch) 0x1032 0 = 1 then s.setPreempt ch 2
    else ((s.setPreempt ch 1).setReg (.verifyCount ch) 0).sendVerify ch
  else s

/-- A channel leaves UP, or `preempt_enable` is committed to 0 (R203). Fragments are sent only while the state is ACTIVE: a remainder that is
suspended then is given up (DEDUCED, log entry 81). -/
def State.preemptDown (s : State) (ch : Nat) : State :=
  let s1 := (s.stopTimer (.verify ch)).setPreempt ch 0
  (s1.copies.filter (fun c => c.ep = ch && c.state = .suspended && !s1.fabricRole ch)).foldl (fun s c => (s.dropCopy c).settle c.frame)
    { s1 with genQ := s1.genQ.filter (fun g => match g with | .mPacket c _ => c ≠ ch | _ => true) }

/-- VERIFY_RX (R203): an SMD-V mPacket is answered in every state while `preempt_enable` is 1. -/
def execVerifyRx (ch : Nat) (s : State) : Host.Outcome State Fault Refusal :=
  if s.mainUp ∧ s.chUp ch ∧ s.mergeOn ch then .next (s.sendMPacket ch 0x19) else .next s

/-- RESPOND_RX (R203): an SMD-R mPacket. -/
def execRespondRx (ch : Nat) (s : State) : Host.Outcome State Fault Refusal :=
  if s.mainUp ∧ s.chUp ch ∧ s.mergeOn ch ∧ s.rd (chUnit ch) 0x5030 0 = 1 then
    .next ((s.stopTimer (.verify ch)).setPreempt ch 2)
  else .next s

/-- `verify_time` expires (R203). -/
def State.verifyExpire (s : State) (ch : Nat) : State :=
  if s.rd (chUnit ch) 0x5030 0 ≠ 1 then s.stopTimer (.verify ch)
  else if s.regN (.verifyCount ch) < 3 then s.sendVerify ch
  else (((s.stopTimer (.verify ch)).bump (chUnit ch) 0x803D 0 1).latch (chUnit ch) 18).setPreempt ch 3

/-- VERIFY_TIME_EXPIRE (R203). -/
def execVerifyTimeExpire (ch : Nat) (s : State) : Host.Outcome State Fault Refusal :=
  if s.mainUp ∧ (s.timer (.verify ch)).isSome then .next (s.wake.verifyExpire ch) else .next s

/-- A channel is a fabric link (R294). -/
def State.fabricLink (s : State) (ch : Nat) : Bool := s.chUp ch && s.fabricRole ch && s.rd 0x00D 0x1000 0 = 1

/-- An unfolded frame is stored and its key built (R163). It has passed its commit point. DESIGN CHOICE (log entry 106): its account is chosen and its
cells are admitted anew, as of a frame that begins; the body as it came has been charged by its own octets. -/
def State.storeUnfolded (s : State) (ch : Nat) (header l : List Octet) (time : Nat × Nat) : State :=
  let f0 := s.newFrame ch time false
  let o := reHeader header 0 (fabHop header) (fabLevel header) 0 ++ l ++ fcsOctets l
  let f1 := { f0 with octets := o, onFabric := true, ended := true, use := .unfolded }
  let f2 := { f1 with account := s.chooseAccount f1 }
  match s.admitCell f2 0 with
  | none => (s.bump (chUnit ch) 0x8017 (f2.account.getD 0) 1).latch (chUnit ch) 17
  | some f3 =>
    let f4 := { f3 with key := some (s.parseOf f3).parse }
    let s1 := (s.addFrame f4).charged f4
    State.passFrame { s1 with keyQ := s1.keyQ ++ [f4.id] } f4

/-- FOLD_DATA_RX (R163): a FOLD_DATA frame has passed its commit point. `frame` runs from the fabric header to the FCS; `eccBad` where
the slot cannot be read. -/
def execFoldDataRx (ch : Nat) (frame : List Octet) (eccBad : Bool) (crossing : Nat) (s : State) : Host.Outcome State Fault Refusal :=
  if s.mainUp ∧ s.running ∧ s.fabricLink ch ∧ (s.fabFate frame = .ownFold ∨ s.fabFate frame = .transitFold ∨ s.consumedAs ch .foldData frame) then
    let body := (frame.drop 12).take (frame.length - 16)
    let slot := fabRef frame
    let gen := octet body 0
    let nak (r : Nat) : State :=
      let s1 := s.bump (chUnit ch) 0x8024 0 1
      { s1 with genQ := s1.genQ ++ [.nak ch slot gen (octet body 1) r] }
    if eccBad then .next (nak 3)
    else
      match s.foldSlot ch slot false with
      | none => .next (nak 1)
      | some sl =>
        if sl.header = [] then .next (nak 1)
        else if sl.gen ≠ gen then .next (nak 2)
        else .next ((s.bump (chUnit ch) 0x8021 0 1).storeUnfolded ch (frame.take 12) (unfold sl body) (s.rxInstant ch crossing))
  else .next s

/-- TEMPLATE_INSTALL_RX (R161, Table 6.4): an install has passed its commit point. -/
def execTemplateInstallRx (ch : Nat) (frame : List Octet) (s : State) : Host.Outcome State Fault Refusal :=
  let b := frame.drop 12
  let hl := octet b 1
  if s.mainUp ∧ s.running ∧ s.chUp ch ∧ s.fabricRole ch ∧ fabType frame = 3 ∧ fabDst frame = 0 ∧ 14 ≤ hl ∧ hl ≤ 64 then
    .next ((s.setFoldSlot ⟨ch, fabRef frame, false, octet b 0, octet b 2, octet b 3, (octet b 4).testBit 7, octet b 5, (b.drop 6).take hl⟩).bump
      (chUnit ch) 0x8023 0 1)
  else .next s

/-- FOLD_NAK_RX (R164): a held frame is resent once as DATA, and its slot becomes invalid; a NAK for no held frame is late. -/
def execFoldNakRx (ch : Nat) (frame : List Octet) (s : State) : Host.Outcome State Fault Refusal :=
  if s.mainUp ∧ s.running ∧ s.chUp ch ∧ s.fabricRole ch ∧ fabType frame = 4 ∧ fabDst frame = 0 then
    let q := octet frame 13
    let slot := fabRef frame
    match s.copies.find? (fun c => c.ep = ch && c.state = .held && c.fseq = some q) with
    | some c =>
      let s1 := match s.foldSlot ch slot true with
        | some sl => s.setFoldSlot { sl with header := [] }
        | none => s
      let d := { c with state := .queued, fseq := none, resend := true, lead := [], skip := 0, patches := [], pos := 0, frags := 0 }
      .next (((s1.stopTimer (.foldHold ch q)).startCopy c d).bump (chUnit ch) 0x8025 0 1)
    | none => .next ((s.bump (chUnit ch) 0x8026 0 1).record 0x0603 (chUnit ch) [(1, slot), (1, q)])
  else .next s

/-- The fabric header of a TEMPLATE_INSTALL or FOLD_NAK (R161, Table 13.1). -/
def State.foldHeader (s : State) (type slot : Nat) : List Octet :=
  fabHeader type 0 (s.rd 0x00D 0x5002 0) 0x7F 7 2 1 slot 0 (s.rd 0x00D 0x5005 0) 0

/-- A body filled to the 64-octet minimum. -/
def padBody (l : List Octet) : List Octet := l ++ List.replicate (48 - l.length) 0

/-- The body of a TEMPLATE_INSTALL (Table 6.4). -/
def installBody (sl : FoldSlot) : List Octet :=
  padBody (toMsb 1 sl.gen ++ toMsb 1 sl.header.length ++ toMsb 1 sl.pos0 ++ toMsb 1 sl.pos1 ++ toMsb 1 (sl.v4csum.toNat * 128)
    ++ toMsb 1 sl.v4off ++ sl.header)

/-- A fold frame that waits for a channel leaves (R161). -/
def State.sendFold (s : State) (ch : Nat) (g : GenFrame) : State :=
  if s.heldClass ch 7 then s
  else
    match s.clearFor ch with
    | none => s
    | some s1 =>
      let s2 := s1.genDone g
      match g with
      | .install _ slot =>
        match s.foldSlot ch slot true with
        | some sl =>
          if sl.header = [] then s2.resume ch
          else ((s2.sendGenerated ch (s.foldHeader 3 slot) (installBody sl) 3).bump (chUnit ch) 0x8022 0 1).resume ch
        | none => s2.resume ch
      | .nak _ slot gen fseq r =>
        (s2.sendGenerated ch (s.foldHeader 4 slot) (padBody (toMsb 1 gen ++ toMsb 1 fseq ++ toMsb 1 r)) 3).resume ch
      | _ => s

/-- TEMPLATE_INSTALL_TX (R161). -/
def execTemplateInstallTx (ch : Nat) (s : State) : Host.Outcome State Fault Refusal :=
  if s.mainUp ∧ s.running ∧ !s.asked 5 ∧ s.fabricLink ch then
    match s.genQ.find? (fun g => match g with | .install c _ => c = ch | _ => false) with
    | some g => .next (s.sendFold ch g)
    | none => .next s
  else .next s

/-- FOLD_NAK_TX (R163). -/
def execFoldNakTx (ch : Nat) (s : State) : Host.Outcome State Fault Refusal :=
  if s.mainUp ∧ s.running ∧ !s.asked 5 ∧ s.fabricLink ch then
    match s.genQ.find? (fun g => match g with | .nak c _ _ _ _ => c = ch | _ => false) with
    | some g => .next (s.sendFold ch g)
    | none => .next s
  else .next s

/-- The hold of a folded copy ends (R164): its cells are freed with its frame. -/
def State.foldRelease (s : State) (ch fseq : Nat) : State :=
  let s1 := s.stopTimer (.foldHold ch fseq)
  match s.copies.find? (fun c => c.ep = ch && c.state = .held && c.fseq = some fseq) with
  | some c => (s1.dropCopy c).settle c.frame
  | none => s1

/-- FOLD_HOLD_EXPIRE (R164). -/
def execFoldHoldExpire (ch fseq : Nat) (s : State) : Host.Outcome State Fault Refusal :=
  if s.mainUp ∧ (s.timer (.foldHold ch fseq)).isSome then .next (s.wake.foldRelease ch fseq).pump else .next s

/-- Every template is marked flush-pending; those without a stub become not VALID at once (R158). -/
def State.foldFlush (s : State) : State :=
  ((s.listed 0x009 0x6000).map Prod.fst).foldl
    (fun s t => (s.setEnt 0x009 0x6000 t (setBit (s.ent 0x009 0x6000 t) 574 true)).templateCheck t) s

end Sys2Proof.Machine
end

