-- ==== Sys2Proof/Machine/Interrupt.lean ====
section
/-! DEFINITION. The interrupt controller (R313 to R325): sources and their masks, delivery to the event queues, completion. -/
namespace Sys2Proof.Machine

/-- The unit of an event queue (Table 1.1). -/
def eqUnit (p : Nat) : Nat := 0x4C0 + p

/-- The condition of a level cause (Table 14.1). -/
def State.levelHolds (s : State) (cause : Nat) : Bool :=
  if causeKind cause = 0x9 then s.rd (alUnit (causeInst cause)) 0x5001 0 = 1
  else if causeKind cause = 0xC then s.rd 0x003 0x5002 0 = 1
  else s.regN .pfailLow = 1

/-- The level sources of the build. -/
def levelSources (b : Build) : List Nat := (List.range b.sources).filter (fun n => (levelCause? b n).isSome)

/-- A level source is sampled at the boundary (R317, Table 14.3). -/
def State.sampleLevel (s : State) (src : Nat) : State :=
  match levelCause? s.build src with
  | none => s
  | some c =>
    if s.levelHolds c then
      if s.srcState src = 0 then (s.setSrc src 1 1).setReg (.raiseTick src) s.tick32 else s
    else if s.srcState src = 1 then s.setSrc src 0 0 else s

/-- The causes latched on a shared source, lowest code first in the choice (R315). -/
def State.lowestLatch (s : State) (src : Nat) : Option Latch :=
  (s.latches.filter (fun l => l.src = src)).foldl
    (fun b l => match b with | some m => if l.cause < m.cause then some l else some m | none => some l) none

/-- A shared source is PENDING while a latch is set and it is not ACTIVE (R315): its state after its latches have changed. -/
def State.sharedState (s : State) (src : Nat) : State :=
  let any := s.latches.any (fun l => l.src = src)
  match s.srcState src, any with
  | 0, true => s.setSrc src 1 1
  | 1, false => s.setSrc src 0 0
  | 2, true => s.setSrc src 3 1
  | 3, false => s.setSrc src 2 0
  | _, _ => s

/-- The RING_ERR latches of rings whose `proc` has changed move to the source of the new processor (R315). -/
def State.moveLatches (s : State) : State :=
  let b := s.build
  let home (l : Latch) : Nat := if causeKind l.cause = 0x3 then sourceOf b l.cause (s.procOf (causeInst l.cause)) else l.src
  let moved := s.latches.filter (fun l => home l ≠ l.src)
  let s1 := { s with latches := s.latches.map (fun l => { l with src := home l }) }
  (moved.map Latch.src ++ moved.map home).foldl State.sharedState s1

/-- `threshold(p)` and `running(p)` (R319, R320). -/
def State.thresholdOf (s : State) (p : Nat) : Nat := s.regN (.threshold p)
def State.runningItem (s : State) (p : Nat) : Option StackItem := s.levels.find? (fun i => i.proc = p)
def State.running? (s : State) (p : Nat) : Nat := match s.runningItem p with | some i => i.prio | none => 0
def State.stackDepth (s : State) (p : Nat) : Nat := (s.levels.filter (fun i => i.proc = p)).length

/-- A source is a candidate of processor `p` (R319). -/
def State.isCandidate (s : State) (p src : Nat) : Bool :=
  src < s.build.sources && s.srcTarget src = p && s.srcState src = 1 && !s.srcMask src
    && s.thresholdOf p < s.srcPrio src && s.running? p < s.srcPrio src

/-- The candidate with the highest PRIO, the lowest source number among equals (R319). -/
def State.candidate (s : State) (p : Nat) : Option Nat :=
  (((s.listed 0x002 0x6000).map Prod.fst).filter (s.isCandidate p)).foldl
    (fun b x => match b with
      | some y => if s.srcPrio y < s.srcPrio x ∨ (s.srcPrio x = s.srcPrio y ∧ x < y) then some x else some y
      | none => some x) none

/-- EQp is enabled; it is full (R321). -/
def State.eqOn (s : State) (p : Nat) : Bool := s.rd (eqUnit p) 0x4002 0 = 1
def State.eqFull (s : State) (p : Nat) : Bool :=
  s.posDiff (eqUnit p) (s.rd (eqUnit p) 0x5000 0) (s.rd (eqUnit p) 0x5001 0) = s.ringN (eqUnit p)

/-- The address of position `x` of EQp: records of 16 octets (R321). -/
def State.eqAddr (s : State) (p x : Nat) : Nat := s.rd (eqUnit p) 0x4000 0 + x % s.ringN (eqUnit p) * 16

/-- A candidate of `p` is held for a full queue (R322). -/
def State.eqHeld (s : State) (p : Nat) : Bool := s.eqOn p && s.eqFull p && (s.candidate p).isSome

/-- The level of IRQ_NE follows EQp: it is high while the queue is enabled and W ≠ R, and it rises only once the record at R has been
written (R321). -/
def State.eqLine (s : State) (p : Nat) : State :=
  let u := eqUnit p
  let r := s.rd u 0x5001 0
  let a := s.eqAddr p r
  if s.eqOn p ∧ s.rd u 0x5000 0 ≠ r then
    if s.mpOps.any (fun o => o.purpose = MpPurpose.eqRecord p && o.addr = a) || s.eqRecords.any (fun x => x.1 = p && x.2.1 = a) then s
    else s.setReg (.irqNe p) 1
  else s.setReg (.irqNe p) 0

/-- An event record (Table 14.5). -/
def State.eventRecord (s : State) (p src cause tick count : Nat) : List Octet :=
  let u := eqUnit p
  let b := s.build
  let w0 := s.phaseAt u (s.rd u 0x5000 0) * 2 ^ 63 + s.srcPrio src * 2 ^ 56 + (sharedSource b src).toNat * 2 ^ 55
    + (!sharedSource b src && (levelCause? b src).isSome).toNat * 2 ^ 54 + src * 2 ^ 32 + tick
  toLsb 8 w0 ++ toLsb 8 (cause * 2 ^ 48 + count * 2 ^ 32 + s.tick32)

/-- A source after its record has been written (Table 14.3). -/
def State.afterRecord (s : State) (src cause : Nat) : State :=
  if sharedSource s.build src then
    State.sharedState { s.setSrc src 2 0 with latches := s.latches.filter (fun l => !(l.src = src && l.cause = cause)) } src
  else s.setSrc src 2 0

/-- A record is delivered to processor `p` (R319). -/
def State.deliverRecord (s : State) (p src : Nat) : State :=
  let u := eqUnit p
  let b := s.build
  let what : Nat × Nat × Nat :=
    if sharedSource b src then
      match s.lowestLatch src with
      | some l => (l.cause, l.tick, 1)
      | none => (0, 0, 1)
    else
      match levelCause? b src with
      | some c => (c, s.regN (.raiseTick src), 1)
      | none => (edgeCause b src, s.regN (.raiseTick src), s.srcCount src)
  let w := s.rd u 0x5000 0
  let s1 := s.mpIssue true (s.eqAddr p w) (s.eventRecord p src what.1 what.2.1 what.2.2) (.eqRecord p)
  let s2 := (s1.wr u 0x5000 0 (s.advancePos u w 1)).bump 0x002 0x8000 p 1
  State.afterRecord { s2 with levels := ⟨p, src, s.srcPrio src⟩ :: s2.levels } src what.1

/-- Records of EQp whose write has failed are written again, at the same positions (R322). -/
def State.eqRetry (s : State) (p : Nat) : State :=
  let mine := s.eqRecords.filter (fun x => x.1 = p)
  mine.foldl (fun s x => s.mpIssue true x.2.1 x.2.2 (.eqRecord p)) { s with eqRecords := s.eqRecords.filter (fun x => x.1 ≠ p) }

/-- A boundary at which a full queue holds a candidate is counted once (R322). -/
def State.countFull (s : State) (p : Nat) : State :=
  if s.regN (.eqCounted p) = s.tick + 1 then s else (s.bump 0x002 0x8002 p 1).setReg (.eqCounted p) (s.tick + 1 : Nat)

/-- What step 7 of a boundary does for processor `p` (R319, R322): a boundary at which a full queue holds a candidate is counted, also while
records are written again. -/
def State.deliver (s : State) (p : Nat) : State :=
  if s.regN (.eqWrite p) = 1 then (if s.eqHeld p then s.countFull p else s).eqRetry p
  else if !s.eqOn p then s
  else
    match s.candidate p with
    | none => s
    | some src => if s.eqFull p then s.countFull p else s.deliverRecord p src

/-- EVENT_DELIVERY (R319): processor `p` receives the record of its highest eligible source at step 7. -/
def execEventDelivery (proc : Nat) (s : State) : Host.Outcome State Fault Refusal := gathered s fun s =>
  if s.mainUp ∧ proc < 8 then .next (s.deliver proc) else .next s

/-- A write of an event record has been answered well (R321, R322). -/
def State.eqWritten (s : State) (p : Nat) : State :=
  let s1 := if s.eqRecords.any (fun x => x.1 = p) || s.mpOps.any (fun o => o.purpose = MpPurpose.eqRecord p) then s
    else s.setReg (.eqWrite p) 0
  s1.eqLine p

/-- A write of an event record has failed (R322). -/
def State.eqFailed (s : State) (p : Nat) (o : MpOp) : State :=
  let s1 := { s.setReg (.eqWrite p) 1 with eqRecords := s.eqRecords ++ [(p, o.addr, o.octets)] }
  ((s1.bump 0x002 0x8004 p 1).latch 0x002 18).record 0x0E02 0x002 []

/-- A mask or threshold write is applied (R316, R320). -/
def State.applyArb (s : State) (w : ArbWrite) : State :=
  match w with
  | .mask _ src v => s.setEntField 0x002 0x6000 src 54 1 v.toNat
  | .threshold p v => s.setReg (.threshold p) v
  | .source src target prio mask =>
    ((s.setEntField 0x002 0x6000 src 61 3 target).setEntField 0x002 0x6000 src 57 4 prio).setEntField 0x002 0x6000 src 54 1 mask.toNat

/-- The processor through whose block a write came. -/
def ArbWrite.proc? : ArbWrite → Option Nat
  | .mask p _ _ => some p
  | .threshold p _ => some p
  | .source _ _ _ _ => none

/-- The writes of the closing tick are applied in the order of their arrival (R320). -/
def State.applyArbs (s : State) : State := s.arbQ.foldl State.applyArb { s with arbQ := [] }

/-- Step 7 of a boundary (R315, R317, R319, R320). -/
def State.interruptStep (s : State) : State :=
  let s1 := s.applyArbs.moveLatches
  [0, 1, 2, 3, 4, 5, 6, 7].foldl State.deliver ((levelSources s.build).foldl State.sampleLevel s1)

/-- A stray is counted (R324, R325). -/
def State.strayCount (s : State) : State := (s.bump 0x002 0x8001 0 1).latch 0x002 16

/-- A head is checked and applied (R323, R229). -/
def State.eqHead (s : State) (p head : Nat) : State :=
  let u := eqUnit p
  let r := s.rd u 0x5001 0
  if head < 2 * s.ringN u ∧ s.posDiff u head r ≤ s.posDiff u (s.rd u 0x5000 0) r then (s.wr u 0x5001 0 head).eqLine p
  else s.bump 0x002 0x8003 p 1

/-- A source is completed on processor `p` (R324). -/
def State.completeSource (s : State) (p src : Nat) : State :=
  match s.levels.find? (fun i => i.proc = p && i.src = src) with
  | some i =>
    let s1 := { s with levels := s.levels.erase i }
    if s.srcState src = 3 then s1.setSrc src 1 (s.srcCount src) else s1.setSrc src 0 0
  | none => s.strayCount.record 0x0E01 0x002 [(2, src), (1, p)]

/-- The RSVD bits of a COMPLETE word: 63:45, 31:18, 15:9 but DEPTH (Table 14.7). -/
def completeRsvd (word : Nat) : Bool := field word 45 19 ≠ 0 || field word 18 14 ≠ 0 || field word 9 3 ≠ 0

/-- A COMPLETE word takes effect (R324, R325). -/
def State.completeTaken (s : State) (p word : Nat) : State :=
  if completeRsvd word then s.strayCount
  else
    let s1 := if word.testBit 17 then s.eqHead p (field word 32 13) else s
    if word.testBit 16 then s1.completeSource p (field word 0 9) else s1

/-- The changes that a word of a processor block asks of the arbiter (R320, Table 14.7): its mask, then its threshold. -/
def blockAsks (b : Build) (w : BlockWrite) : List ArbWrite :=
  if !w.control then []
  else
    (if w.word.testBit 31 ∧ field w.word 16 9 < b.sources then [.mask w.proc (field w.word 16 9) (w.word.testBit 30)] else [])
      ++ (if w.word.testBit 7 then [.threshold w.proc (field w.word 0 4)] else [])

/-- SP accepts a write to a block (R325): none before it is held off, and the arbiter, which takes 16 changes of a processor in a tick, has
room for it. -/
def State.blockFree (s : State) (w : BlockWrite) : Bool :=
  !s.blockWait.any (fun x => x.proc = w.proc)
    && (s.arbQ.filter (fun x => x.proc? = some w.proc)).length + (blockAsks s.build w).length ≤ 16

/-- An accepted word: of a control word MASK_SRC and MASK_VAL are kept, and its changes wait for the boundary (R320). -/
def State.blockTaken (s : State) (w : BlockWrite) : State :=
  if w.control then
    let s1 := (s.setReg (.maskSrc w.proc) (field w.word 16 9)).setReg (.maskVal w.proc) (field w.word 30 1)
    { s1 with arbQ := s1.arbQ ++ blockAsks s.build w }
  else s.completeTaken w.proc w.word

/-- A word reaches a block: it is taken, or held off. -/
def State.blockWrite (s : State) (w : BlockWrite) : State :=
  if s.blockFree w then s.blockTaken w else { s with blockWait := s.blockWait ++ [w] }

/-- The words that have been held off reach their blocks again, once the arbiter has room (R325). -/
def State.blockAccept (s : State) : State := s.blockWait.foldl State.blockWrite { s with blockWait := [] }

/-- A COMPLETE word is written (R325): one of another width is a stray. -/
def State.completeWord (s : State) (p word : Nat) (width64 : Bool) : State :=
  if width64 then s.blockWrite ⟨p, false, word⟩ else s.strayCount

/-- EQ_HEAD_RETURN (R323): a COMPLETE word with HEAD_VALID. The word is taken whole, its SOURCE too. -/
def execEqHeadReturn (proc word : Nat) (width64 : Bool) (s : State) : Host.Outcome State Fault Refusal :=
  if s.mainUp ∧ proc < 8 then .next (s.wake.completeWord proc word width64) else .next s

/-- SOURCE_COMPLETE (R324): a COMPLETE word with SRC_VALID. The word is taken whole, its HEAD too. -/
def execSourceComplete (proc word : Nat) (width64 : Bool) (s : State) : Host.Outcome State Fault Refusal :=
  if s.mainUp ∧ proc < 8 then .next (s.wake.completeWord proc word width64) else .next s

/-- The second word of a processor's block is written (R320, Table 14.7). -/
def State.controlWord (s : State) (p word : Nat) (width64 : Bool) : State :=
  if width64 then s.blockWrite ⟨p, true, word⟩ else s.strayCount

/-- MASK_WRITE (R320): a word with MASK_WR. The word is taken whole, its threshold too. -/
def execMaskWrite (proc word : Nat) (width64 : Bool) (s : State) : Host.Outcome State Fault Refusal :=
  if s.mainUp ∧ proc < 8 then .next (s.wake.controlWord proc word width64) else .next s

/-- THRESHOLD_WRITE (R320): a word with THR_WR. The word is taken whole, its mask too. -/
def execThresholdWrite (proc word : Nat) (width64 : Bool) (s : State) : Host.Outcome State Fault Refusal :=
  if s.mainUp ∧ proc < 8 then .next (s.wake.controlWord proc word width64) else .next s

/-- A write of an entry of `interrupt.sources` (R316): TARGET, PRIO and MASK wait for the boundary; the RSVD bits must be 0. -/
def State.sourceEntryWrite (s : State) (src v : Nat) : Abort × State :=
  if field v 48 2 ≠ 0 ∨ field v 0 32 ≠ 0 then (.range, s)
  else (.ok, { s with arbQ := s.arbQ ++ [.source src (field v 61 3) (field v 57 4) (v.testBit 54)] })

/-- A cause may be raised by `test_raise`: an edge or shared cause of the build (Table 14.9). -/
def testable (b : Build) (cause : Nat) : Bool :=
  causePresent b cause
    && (sharedSource b (sourceOf b cause 0) || (levelCause? b (sourceOf b cause 0)).isNone)

/-- The effect of `test_raise` (R313). -/
def State.testRaise (s : State) (cause : Nat) : Abort × State :=
  if cause < 0x10000 ∧ testable s.build cause then (.ok, s.raise cause) else (.range, s)

/-- The effect of a write of an event-queue object (Table 14.10). -/
def State.eqObjWrite (s : State) (p i v : Nat) : Abort × State :=
  let u := eqUnit p
  if i = 0x4002 then (.ok, (s.wr u 0x4002 0 v).eqLine p)
  else if s.eqOn p then (.modeForbids, s)
  else
    let s1 := ((s.wr u i 0 v).wr u 0x5000 0 0).wr u 0x5001 0 0
    (.ok, State.eqLine { s1.setReg (.eqWrite p) 0 with eqRecords := s1.eqRecords.filter (fun x => x.1 ≠ p) } p)

/-- A source that Snowdrop can watch: it carries POWER_FAIL, PPS_IN or LINK_CHANGE (Table 14.8). -/
def wakeCapable (b : Build) (src : Nat) : Bool :=
  src = perBuild b 0x2A 0x87 0x141 || src = perBuild b 0x27 0x7F 0x12F
    || (perBuild b 0x29 0x81 0x131 ≤ src && src < perBuild b 0x29 0x81 0x131 + perBuild b 1 b.lanes b.lanes)

/-- The entry of a source as it reads (Table 14.2). -/
def State.sourceEntry (s : State) (src : Nat) : Nat :=
  let b := s.build
  let shared := sharedSource b src
  let level := !shared && (levelCause? b src).isSome
  let line : Bool := if shared then s.latches.any (fun l => l.src = src)
    else match levelCause? b src with | some c => s.levelHolds c | none => false
  s.srcTarget src * 2 ^ 61 + s.srcPrio src * 2 ^ 57 + level.toNat * 2 ^ 56 + shared.toNat * 2 ^ 55 + (s.srcMask src).toNat * 2 ^ 54
    + (wakeCapable b src).toNat * 2 ^ 53 + s.srcState src * 2 ^ 51 + line.toNat * 2 ^ 50 + s.srcCount src * 2 ^ 32

end Sys2Proof.Machine
end

