-- ==== Sys2Proof/Machine/Flags.lean ====
section
/-! DEFINITION. The alarm flags (R21, R51): the live bits of every unit's `alarm_summary`, each by the rule of its own chapter, and how
they go upward. -/
namespace Sys2Proof.Machine

/-- Bits given as (bit, held) pairs. -/
def bitsOf (l : List (Nat × Bool)) : Nat := (l.filter Prod.snd).foldl (fun a p => a ||| 2 ^ p.1) 0

/-- `tx_hold` of a channel (Table 8.7): bit 8 the channel-wide hold, bits 7:0 the classes. -/
def State.txHold (s : State) (ch : Nat) : Nat :=
  bitsOf ((8, (0 < s.holdOf ch 0 : Bool)) :: (List.range 8).map (fun c => (c, (0 < s.holdOf ch (c + 1) : Bool))))

/-- `link_state` of a channel (Table 3.6): that of its lane while it is enabled. -/
def State.chLinkState (s : State) (ch : Nat) : Nat := if s.chEnabled ch then s.rd (lnUnit (laneOf ch)) 0x5000 0 else 0

/-- The Legend's FAULT (R139, R149): a shadow entry or an action that has an uncorrectable error and has not been rewritten. -/
def State.legendFault (s : State) : Bool := s.shadowBad ≠ [] || s.eccBad.any Prod.fst

/-- The live bits of a unit's alarms (R85, R110, R194, R222, R248, R279, R293, R312, R327, R357, R374, R393, Tables 3.6, 5.9, 10.5). -/
def State.liveAlarms (s : State) (u : Nat) : Nat :=
  match unitKind? s.build u with
  | none => 0
  | some .root => bitsOf [(16, s.regN .sdClkLost = 1)]
  | some .power => bitsOf [(0, s.rd 0x001 0x5003 0 = 4)]
  | some .interrupt => bitsOf [(17, [0, 1, 2, 3, 4, 5, 6, 7].any s.eqHeld)]
  | some .time => bitsOf [(0, s.rd 0x003 0x5002 0 = 1)]
  | some .fieldbook => bitsOf [(16, s.fbState % 4 ≠ 0)]
  | some .monument =>
    bitsOf [(0, s.regN .monFault = 1 || s.rd 0x005 0x5001 0 ≠ 2), (17, 7900 < s.rd 0x005 0x5005 0)]
  | some .legend => bitsOf [(0, s.legendFault), (18, s.rd 0x006 0x5001 0 = 2)]
  | some .contour => bitsOf [(0, s.eccBad.any (fun p => !p.1))]
  | some .graticule => bitsOf [(0, 2 ≤ s.rd 0x00D 0x5001 0 && s.rd 0x00D 0x5002 0 = 0)]
  | some .lane =>
    bitsOf [(0, s.rd u 0x1000 0 ≠ 0 && s.rd u 0x5000 0 ≠ 5), (16, s.regN (.hiBer (u - 0x100)) = 1)]
  | some .channel =>
    bitsOf [(0, s.chEnabled (u - 0x200) && s.chLinkState (u - 0x200) ≠ 5), (16, s.rd u 0x5012 0 ≠ 0), (21, s.txHold (u - 0x200) ≠ 0)]
  | some .airLink => bitsOf [(0, s.rd u 0x5001 0 = 1)]
  | some .tq => bitsOf [(0, s.ringState u = 4)]
  | some .bq => bitsOf [(0, s.ringState u = 4)]
  | some .cq => bitsOf [(0, s.ringState u = 4), (17, s.regN (.stallReported (u - 0x480)) = 1)]
  | _ => 0

/-- A unit's own alarms, latched and live (R51). -/
def State.ownAlarms (s : State) (u : Nat) : Nat := s.rd u 0x0005 0 ||| s.liveAlarms u

/-- `alarm_summary` of a local unit (R21): its own bits now, its children's as they stood at the last boundary. -/
def State.alarmSummary (s : State) (u : Nat) : Nat := s.ownAlarms u ||| s.regN (.childAlarms u)

/-- The reachable members of the ID table that are children of the graticule group, ascending (R310): none while the device has no ID or
is alone. -/
def State.members (s : State) : List Nat :=
  let own := s.rd 0x00D 0x5002 0
  if s.rd 0x00D 0x5001 0 < 2 ∨ own = 0 then []
  else (List.range 0xFF).filter (fun i => i = own || (0 < i && s.assigns.any (fun a => a.id = i && a.reachable)))

/-- The device summary (R310): the alarms of root without the fabric's. -/
def State.deviceSummary (s : State) : Nat :=
  ((childrenOf s.build 0).filter (· ≠ 0x00D)).foldl (fun a u => a ||| s.alarmSummary u) (s.ownAlarms 0)

/-- The ALARMS that a member has last announced (R310). -/
def State.memberAlarms (s : State) (id : Nat) : Nat :=
  match s.lsas.find? (fun l => s.assigns.any (fun a => a.serial = l.origin && a.id = id)) with
  | some l => l.alarms
  | none => 0

/-- What the children of a group give it at a boundary (R21, R310). -/
def State.childPart (s : State) (u : Nat) : Nat :=
  if u = 0x00D then
    s.members.foldl (fun a i => a ||| (if i = s.rd 0x00D 0x5002 0 then s.deviceSummary else s.memberAlarms i)) 0
  else (childrenOf s.build u).foldl (fun a c => a ||| s.alarmSummary c) 0

/-- The children's part of every group is recomputed, from the leaves upward (R21). -/
def State.recomputeAlarms (s : State) : State :=
  [0x00C, 0x011, 0x00D, 0x000].foldl (fun s u => s.setReg (.childAlarms u) (s.childPart u)) s

end Sys2Proof.Machine
end

