-- ==== Sys2Proof/Machine/Graticule.lean ====
section
/-! DEFINITION. The Graticule fabric (R294, R301 to R307, R311): CONTROL frames, neighbours, link state, routes, the root and the IDs.
-/
namespace Sys2Proof.Machine

/-- Own serial, role, ID, followed root, generation (Table 13.6). Roles: 0 DISABLED, 1 ALONE, 2 MEMBER, 3 ROOT. -/
def State.serial (s : State) : Nat := s.rd 0x00D 0x5000 0
def State.role (s : State) : Nat := s.rd 0x00D 0x5001 0
def State.ownId (s : State) : Nat := s.rd 0x00D 0x5002 0
def State.rootSerial (s : State) : Nat := s.rd 0x00D 0x5003 0
def State.rootGen (s : State) : Nat := s.rd 0x00D 0x5005 0
def State.ownPrio (s : State) : Nat := s.rd 0x00D 0x1001 0
def State.fabricOn (s : State) : Bool := s.rd 0x00D 0x1000 0 = 1

/-- The cells reserved in a configuration given by a reader of its objects: unit, index and sub-index (R114, R153). -/
def reservedSum (b : Build) (v : Nat → Nat → Nat → Nat) : Nat :=
  let channel (c : Nat) : Nat :=
    let u := chUnit c
    if v u 0x1000 0 ≠ 1 then 0
    else match v u 0x1010 0 with
      | 1 => v u 0x1014 0 + v u 0x1015 0
      | 2 => ((List.range 8).map (fun p => v u 0x1014 (p + 1) + if (v u 0x1011 0).testBit p then v u 0x1015 (p + 1) else 0)).sum
      | _ => v u 0x1014 0
  ((List.range b.channels).map channel).sum + v 0x009 0x1002 0
    + ([0, 1, 2].map (fun n => if v (alUnit n) 0x1000 0 = 1 then v 0x009 0x1003 n else 0)).sum + v 0x009 0x1004 0

/-- `buffer.unreserved_cells` (R153). -/
def State.unreserved (s : State) : Nat := s.build.cells - reservedSum s.build s.rd

/-- The limit of the internal account (R152). -/
def State.internalLimit (s : State) : Nat := s.rd 0x009 0x1004 0 + s.unreserved

/-- A frame that the device generates (R152, R301): it takes cells of the internal account. -/
def State.genFrame (s : State) (octets : List Octet) (onFabric : Bool) : Frame :=
  { s.newFrame 0 (0, 0) false with
    ing := Config.noEp, octets := octets, onFabric := onFabric, ended := true, committed := true, applied := true, use := .control
    cells := ceilDiv (octets.length - (if onFabric then 12 else 0)) 64, rxTime := none }

/-- A generated frame is queued in the base queue of class 7 of a channel, or is not generated at the limit of its account (R152,
R172). -/
def State.generate (s : State) (ch : Nat) (octets : List Octet) (onFabric : Bool) (dst : Option Nat := none) : State :=
  let f := s.genFrame octets onFabric
  if s.internalLimit < s.epOccupancy Config.noEp + f.cells then ((s.bump 0x009 0x8004 0 1).latch 0x009 17).record 0x0601 0x009 []
  else (s.addFrame f).placeCopy (s.newCopy f.id ch (.base ch 7) 7 false false dst)

/-- A CONTROL frame with a body is sent on a fabric link (R301). -/
def State.sendControl (s : State) (ch dst hop : Nat) (body : List Octet) : State :=
  if s.running && s.fabricLink ch then
    let l := padBody body
    s.generate ch (fabHeader 2 dst s.ownId 0x7F 7 0 hop 0 0 s.rootGen 0 ++ l ++ fcsOctets (fabHeader 2 dst s.ownId 0x7F 7 0 hop 0 0 s.rootGen 0 ++ l)) true
  else s

/-- A CONTROL body: its message, RSVD, BODY_LEN and fields (Table 13.3). -/
def controlBody (msg : Nat) (fields : List Octet) : List Octet := toMsb 1 msg ++ toMsb 1 0 ++ toMsb 2 fields.length ++ fields

/-- Fields of a neighbour entry (Table 13.7). -/
def State.nbState (s : State) (lane : Nat) : Nat := s.entField 0x00D 0x6000 lane 62 2
def State.nbSerial (s : State) (lane : Nat) : Nat := s.entField 0x00D 0x6000 lane 64 64
def State.nbRoot (s : State) (lane : Nat) : Nat := s.entField 0x00D 0x6000 lane 128 64
def State.nbId (s : State) (lane : Nat) : Nat := s.entField 0x00D 0x6000 lane 48 8
def State.nbPrio (s : State) (lane : Nat) : Nat := s.entField 0x00D 0x6000 lane 40 8
def State.nbRootPrio (s : State) (lane : Nat) : Nat := s.entField 0x00D 0x6000 lane 32 8

/-- The lanes with a TWO_WAY neighbour, and the fabric links, ascending. -/
def State.twoWay (s : State) : List Nat := (List.range s.build.lanes).filter (fun l => s.nbState l = 2)
def State.fabricLanes (s : State) : List Nat := (List.range s.build.lanes).filter (fun l => s.fabricLink (4 * l))

/-- A key beats another (R305): the lower priority, then the lower serial. -/
def keyBeats (a b : Nat × Nat) : Bool := a.1 < b.1 || (a.1 = b.1 && a.2 < b.2)
def State.ownKey (s : State) : Nat × Nat := (s.ownPrio, s.serial)

/-- The key of the root that the device follows; its own while it follows none. -/
def State.rootKey (s : State) : Nat × Nat := if s.role = 2 then (s.regN .rootPriority, s.rootSerial) else s.ownKey

/-- The body of the HELLO of a lane (Table 13.3). -/
def State.helloBody (s : State) (lane : Nat) : List Octet :=
  controlBody 1 (toMsb 8 s.serial ++ toMsb 1 s.ownPrio ++ toMsb 1 s.ownId ++ toMsb 8 s.rootKey.2 ++ toMsb 1 s.rootKey.1 ++ toMsb 1 lane
    ++ toMsb 8 (if s.nbState lane = 0 then 0 else s.nbSerial lane) ++ toMsb 2 s.rootGen ++ toMsb 1 s.role ++ toMsb 1 0)

/-- The body of an LSA. -/
def lsaBody (l : Lsa) : List Octet :=
  controlBody 2 (toMsb 8 l.origin ++ toMsb 1 l.id ++ toMsb 1 l.adj.length ++ toMsb 4 l.seq ++ toMsb 4 l.alarms
    ++ l.adj.flatMap (fun a => toMsb 8 a.1 ++ toMsb 1 a.2.1 ++ toMsb 1 a.2.2.1 ++ toMsb 2 a.2.2.2))

/-- An assignment entry (Table 13.8). -/
def assignOctets (a : Assign) : List Octet :=
  toMsb 8 a.serial ++ toMsb 1 (if a.duplicate then 0 else a.id) ++ toMsb 1 (a.reachable.toNat * 128 + a.duplicate.toNat * 64)

/-- The bodies of the chunks of an ASSIGN table, from chunk number `n` (Table 13.3). -/
def assignChunks (t : AssignTable) : Nat → Nat → List Assign → List (List Octet)
  | 0, _, _ => []
  | k + 1, n, l =>
    let rest := l.drop 64
    let here := l.take 64
    controlBody 3 (toMsb 8 t.root ++ toMsb 1 t.prio ++ toMsb 1 ((if rest = [] then 128 else 0) + n) ++ toMsb 4 t.seq ++ toMsb 2 t.gen
        ++ toMsb 2 here.length ++ here.flatMap assignOctets)
      :: (if rest = [] then [] else assignChunks t k (n + 1) rest)

/-- A link-local message is sent on a lane. -/
def State.sendLocal (s : State) (lane : Nat) (body : List Octet) : State := s.sendControl (4 * lane) 0 1 body

/-- An LSA is sent on TWO_WAY links, but for one lane. -/
def State.flood (s : State) (l : Lsa) (but : Option Nat) : State :=
  (s.twoWay.filter (fun x => some x ≠ but)).foldl (fun s x => s.sendLocal x (lsaBody l)) s

/-- The own LSA as it would now be built, under a sequence (R303, R312). -/
def State.buildLsa (s : State) (seq : Nat) : Lsa :=
  ⟨s.serial, if s.ownId = 0 then s.rd 0x00D 0x1002 0 else s.ownId, seq, s.deviceSummary,
   s.twoWay.map (fun l => (s.nbSerial l, s.nbId l, l, s.rd 0x00D 0x1004 l))⟩

/-- An LSA is held in place of the one of its origin. -/
def State.storeLsa (s : State) (l : Lsa) : State := { s with lsas := s.lsas.filter (fun x => x.origin ≠ l.origin) ++ [l] }

/-- The own LSA is flooded with the next sequence; its refresh runs anew (R303). -/
def State.floodOwn (s : State) : State :=
  let q := (s.regN .lsaSeq + 1) % 2 ^ 32
  let l := s.buildLsa q
  ((((s.setReg .lsaSeq (q : Nat)).setReg .lsaTick (s.tick + 1 : Nat)).storeLsa l).flood l none).startTimer .lsaRefresh 6250000

/-- A change of the own LSA floods it, at most once in 6,250 ticks (R303). -/
def State.lsaCheck (s : State) : State :=
  if !s.fabricOn then s
  else
    let now := s.buildLsa (s.regN .lsaSeq)
    match s.lsas.find? (fun l => l.origin = s.serial) with
    | some l =>
      if l = now then s
      else if s.tick + 1 < s.regN .lsaTick + 6250 then
        let left := s.regN .lsaTick + 6250 - (s.tick + 1)
        match s.timer .lsaRefresh with
        | some n => if n ≤ left then s else s.startTimer .lsaRefresh left
        | none => s.startTimer .lsaRefresh left
      else s.floodOwn
    | none => s.floodOwn

/-- Half-range comparison modulo 2^32 (R303, R307): `a` is newer than `b`. -/
def newer32 (a b : Nat) : Bool := a ≠ b && (a + 2 ^ 32 - b) % 2 ^ 32 < 2 ^ 31

/-- The directed edges that count: both ends list each other (R304). -/
def State.edges (s : State) : List (Nat × Nat × Nat) :=
  s.lsas.flatMap (fun l => (l.adj.filter (fun a => s.lsas.any (fun m => m.origin = a.1 && m.adj.any (fun x => x.1 = l.origin)))).map
    (fun a => (l.origin, a.1, a.2.2.2)))

/-- One round of relaxation of distances by serial. -/
def relax (es : List (Nat × Nat × Nat)) (d : List (Nat × Nat)) : List (Nat × Nat) :=
  es.foldl (fun d e =>
    match Map.find? d e.1 with
    | none => d
    | some x =>
      match Map.find? d e.2.1 with
      | none => (e.2.1, x + e.2.2) :: d
      | some y => if x + e.2.2 < y then (e.2.1, x + e.2.2) :: Map.erase d e.2.1 else d) d

/-- Shortest distances from a serial (R304). -/
def distances (es : List (Nat × Nat × Nat)) : Nat → List (Nat × Nat) → List (Nat × Nat)
  | 0, d => d
  | k + 1, d => distances es k (relax es d)

def State.distFrom (s : State) (src : Nat) : List (Nat × Nat) := distances s.edges (s.lsas.length + 1) [(src, 0)]

/-- The serials that can be reached (R304). -/
def State.reach (s : State) : List Nat := (s.distFrom s.serial).map Prod.fst

/-- The links of the device that count, with the neighbour and the cost. -/
def State.ownLinks (s : State) : List (Nat × Nat × Nat) :=
  match s.lsas.find? (fun l => l.origin = s.serial) with
  | some l =>
    (l.adj.filter (fun a => s.lsas.any (fun m => m.origin = a.1 && m.adj.any (fun x => x.1 = l.origin)))).map
      (fun a => (a.2.2.1, a.1, a.2.2.2))
  | none => []

/-- The route entry of a serial (R299, R304, Table 13.9): `from_` gives the distances from each link's neighbour. -/
def State.routeEntry (s : State) (from_ : List ((Nat × Nat × Nat) × List (Nat × Nat))) (serial : Nat) : Nat :=
  let via := from_.filterMap (fun p => (Map.find? p.2 serial).map (fun d => (p.1.1, p.1.2.2 + d)))
  match lowest (via.map Prod.snd) with
  | none => 0
  | some d =>
    if serial = s.serial then 0
    else
      let nh := ((via.filter (fun v => v.2 = d)).map (fun v => 4 * v.1)).take 4
      2 ^ 63 + nh.length * 2 ^ 60
        + ((nh.zip [49, 42, 35, 28]).map (fun p => p.1 * 2 ^ p.2)).sum + min 65535 d

/-- The whole table of routes is replaced (R304). -/
def State.setRoutes (s : State) : State :=
  let from_ := s.ownLinks.map (fun l => (l, s.distFrom l.2.1))
  let clear := (s.listed 0x00D 0x6001).foldl (fun s e => s.setEnt 0x00D 0x6001 e.1 0) s
  (s.assigns.filter (fun a => a.id ≠ 0 && !a.duplicate)).foldl (fun t a => t.setEnt 0x00D 0x6001 a.id (s.routeEntry from_ a.serial)) clear

/-- The own ID is set; a change is written to the field book (R307). -/
def State.setOwnId (s : State) (id : Nat) : State :=
  if s.ownId = id then s else (s.wr 0x00D 0x5002 0 id).record 0x0D04 0x00D [(1, id)]

/-- The ID that a table gives a serial. -/
def idIn (l : List Assign) (serial : Nat) : Nat :=
  match l.find? (fun a => a.serial = serial) with
  | some a => if a.duplicate then 0 else a.id
  | none => 0

/-- The table in force as it is sent (R306). -/
def State.tableInForce (s : State) (root prio : Nat) : AssignTable := ⟨root, prio, s.rd 0x00D 0x5006 0, s.rootGen, 0, s.assigns⟩

/-- The root sends its table on every TWO_WAY link (R306). -/
def State.sendAssign (s : State) : State :=
  let t := s.tableInForce s.serial s.ownPrio
  s.twoWay.foldl (fun s l => (assignChunks t 4 0 t.entries).foldl (fun s b => s.sendLocal l b) s)
    { s with assignHeld := some t }

/-- The lowest free ID of a table, and the one to reclaim when none is free: the unreachable one that has been so for longest (R306). -/
def freeId (l : List Assign) : Option Nat := lowest (((List.range 255).drop 1).filter (fun i => !l.any (fun a => a.id = i)))
def oldestGone (l : List Assign) : Option Assign :=
  (l.filter (fun a => !a.reachable && a.id ≠ 0)).foldl
    (fun b a => match b with | some x => if a.since < x.since then some a else some x | none => some a) none

/-- What the root gives IDs from: the table, the generation, and the serials in conflict with their holders. -/
structure IdWork where
  table : List Assign
  gen   : Nat
  clash : List (Nat × Nat)
  deriving DecidableEq, Repr

/-- An entry is put into the table in place of the serial's own, or behind the others. -/
def putAssign (l : List Assign) (a : Assign) : List Assign :=
  if l.any (fun x => x.serial = a.serial) then l.map (fun x => if x.serial = a.serial then a else x) else l ++ [a]

/-- The generation after `g`: modulo 2^16, skipping 0 (R306). -/
def nextGen (g : Nat) : Nat := if g = 65535 then 1 else g + 1

/-- The lowest free ID goes to a serial; when none is free, the ID unreachable for longest is reclaimed (R306). -/
def giveLowest (w : IdWork) (serial : Nat) : IdWork :=
  match freeId w.table with
  | some i => { w with table := putAssign w.table ⟨serial, i, true, false, 0⟩ }
  | none =>
    match oldestGone w.table with
    | some a =>
      { w with
        table := putAssign (w.table.filter (fun x => x.serial ≠ a.serial)) ⟨serial, a.id, true, false, 0⟩
        gen := nextGen w.gen }
    | none => w

/-- An ID is given to one reachable serial by the first rule of R306 that applies; `want` is the ID it reports. -/
def giveId (w : IdWork) (serial want : Nat) : IdWork :=
  let mine := w.table.find? (fun a => a.serial = serial)
  match mine with
  | some a =>
    if a.id ≠ 0 ∧ !a.duplicate then { w with table := putAssign w.table { a with reachable := true } }
    else if want ≠ 0 ∧ !w.table.any (fun x => x.id = want) then { w with table := putAssign w.table ⟨serial, want, true, false, 0⟩ }
    else
      match w.table.find? (fun x => x.id = want && want ≠ 0 && x.reachable) with
      | some x =>
        { w with table := putAssign w.table { a with id := 0, reachable := true, duplicate := true }, clash := w.clash ++ [(serial, x.serial)] }
      | none => giveLowest w serial
  | none =>
    match w.table.find? (fun x => x.id = want && want ≠ 0) with
    | none => if want ≠ 0 then { w with table := putAssign w.table ⟨serial, want, true, false, 0⟩ } else giveLowest w serial
    | some x =>
      if x.reachable then
        { w with table := putAssign w.table ⟨serial, 0, true, true, 0⟩, clash := w.clash ++ [(serial, x.serial)] }
      else giveLowest w serial

/-- A serial is in conflict with the holder of its ID (R306): one found already runs its 20 ms on. -/
def State.conflict (s : State) (c : Nat × Nat) : State :=
  if (s.timer (.duplicate c.1)).isSome then s
  else ((s.latch 0x00D 17).record 0x0D03 0x00D [(8, c.1), (8, c.2)]).startTimer (.duplicate c.1) 125000

/-- The root brings its table up to date (R306): reachability, IDs, conflicts, and sends it where it has changed. -/
def State.assignIds (s : State) (force : Bool) : State :=
  if s.role ≠ 3 then s
  else
    let r := s.reach
    let there (x : Nat) : Bool := x = s.serial || r.contains x
    let t0 := s.assigns.map (fun a =>
      if there a.serial then { a with reachable := true, since := 0 }
      else if a.reachable then { a with reachable := false, since := s.tick } else a)
    let others := (s.lsas.filter (fun l => l.origin ≠ s.serial && there l.origin)).map (fun l => (l.origin, l.id))
    let w := ((s.serial, s.rd 0x00D 0x1002 0) :: others).foldl (fun w p => giveId w p.1 p.2) (IdWork.mk t0 s.rootGen [])
    let s1 := w.clash.foldl (fun s c => s.conflict c) s
    let gone := (s.assigns.filter (fun a => a.duplicate && !w.table.any (fun x => x.serial = a.serial && x.duplicate))).map Assign.serial
    let s2 := gone.foldl (fun s x => s.stopTimer (.duplicate x)) s1
    let strip (l : List Assign) : List (List Octet) := l.map assignOctets
    if force ∨ strip w.table ≠ strip s.assigns ∨ w.gen ≠ s.rootGen then
      let s3 := ({ s2 with assigns := w.table }.wr 0x00D 0x5005 0 w.gen).wr 0x00D 0x5006 0 ((s.rd 0x00D 0x5006 0 + 1) % 2 ^ 32)
      let s4 := (s3.setOwnId (idIn w.table s.serial)).wr 0x00D 0x5004 0 (idIn w.table s.serial)
      s4.sendAssign
    else { s2 with assigns := w.table }

/-- A change of followed root or of role (R305): JOIN 0, BETTER_ROOT 1, ROOT_LOST 2, DEMOTE 3, ALONE 4. -/
def State.rootChange (s : State) (old cause : Nat) : State :=
  (((s.bump 0x00D 0x8009 0 1).latch 0x00D 16).raise causeFabricChange).record 0x0D02 0x00D [(8, old), (8, s.rootSerial), (1, cause)]

/-- The device follows a root (R305). -/
def State.follow (s : State) (key : Nat × Nat) (cause : Nat) : State :=
  let s1 := (((s.wr 0x00D 0x5001 0 2).wr 0x00D 0x5003 0 key.2).setReg .rootPriority (key.1 : Nat)).setReg .betterSeen 0
  (s1.wr 0x00D 0x5004 0 (idIn s.assigns key.2)).rootChange s.rootSerial cause

/-- The device enters ROOT (R305, R306): from the latest ASSIGN it holds, or from an empty table. -/
def State.becomeRoot (s : State) (cause : Nat) : State :=
  let t := match s.assignHeld with
    | some t => t
    | none => ⟨0, 0, 0, if s.serial % 65536 = 0 then 1 else s.serial % 65536, 0, []⟩
  let s1 := { ((s.wr 0x00D 0x5001 0 3).wr 0x00D 0x5003 0 s.serial).setReg .betterSeen 0 with assigns := t.entries }
  let s2 := (s1.wr 0x00D 0x5005 0 t.gen).wr 0x00D 0x5006 0 t.seq
  State.assignIds ((s2.rootChange s.rootSerial cause).startTimer .assignRefresh 6250000) true

/-- The device is ALONE (R305). -/
def State.becomeAlone (s : State) : State :=
  let old := s.rootSerial
  State.rootChange (((((s.wr 0x00D 0x5001 0 1).wr 0x00D 0x5003 0 0).wr 0x00D 0x5004 0 0).stopTimer .assignRefresh).setReg .betterSeen 0)
    old 4

/-- The root keys that TWO_WAY neighbours announce. -/
def State.announced (s : State) : List (Nat × Nat) := s.twoWay.map (fun l => (s.nbRootPrio l, s.nbRoot l))

/-- The best of a list of keys. -/
def bestKey (l : List (Nat × Nat)) : Option (Nat × Nat) :=
  l.foldl (fun b k => match b with | some x => if keyBeats k x then some k else some x | none => some k) none

/-- A serial is reachable as a root candidate (R305): a TWO_WAY neighbour, or by the link state. -/
def State.reachable (s : State) (x : Nat) : Bool := x = s.serial || s.twoWay.any (fun l => s.nbSerial l = x) || s.reach.contains x

/-- The first neighbour reaches TWO_WAY, or the last is lost (Table 13.5). A root candidate must be reachable (R305). -/
def State.roleByNeighbours (s : State) : State :=
  if s.role = 1 ∧ s.twoWay ≠ [] then
    match bestKey (s.announced.filter (fun k => s.reachable k.2)) with
    | some k => if keyBeats s.ownKey k then s.becomeRoot 0 else s.follow k 0
    | none => s.becomeRoot 0
  else if 2 ≤ s.role ∧ s.twoWay = [] then s.becomeAlone
  else s

/-- A HELLO of a TWO_WAY neighbour announces a better root than the current one (Table 13.5). -/
def State.betterRoot (s : State) (lane : Nat) : State :=
  let k := (s.nbRootPrio lane, s.nbRoot lane)
  if s.nbState lane ≠ 2 ∨ !keyBeats k s.rootKey ∨ !s.reachable k.2 then s
  else if s.role = 2 then s.follow k 1
  else if s.role = 3 then
    if s.regN .betterSeen + 1 < 3 then s.setReg .betterSeen (s.reg .betterSeen + 1)
    else State.stopTimer ((s.follow k 3).bump 0x00D 0x800A 0 1) .assignRefresh
  else s

/-- The followed root has become unreachable (Table 13.5): the best reachable key is followed. -/
def State.rootLost (s : State) : State :=
  let keys := (s.announced ++ s.twoWay.map (fun l => (s.nbPrio l, s.nbSerial l))).filter (fun k => s.reachable k.2 && k.2 ≠ s.rootSerial)
  match bestKey keys with
  | some k => if keyBeats k s.ownKey then s.follow k 2 else s.becomeRoot 2
  | none => s.becomeRoot 2

/-- The copies queued on a link since there were `m` go ahead of any other CONTROL frame that waits on it (R302). -/
def State.controlAhead (s : State) (ch m : Nat) : State :=
  let old := s.copies.take m
  let isControl (c : Copy) : Bool := c.ep = ch && c.state = CopyState.queued && c.queue = .base ch 7
    && (match s.frame? c.frame with | some f => f.ing = Config.noEp && f.onFabric && fabType f.octets = 2 | none => false)
  { s with copies := old.filter (fun (c : Copy) => !isControl c) ++ s.copies.drop m ++ old.filter isControl }

/-- What the device sends a neighbour that has become TWO_WAY (R302): its own LSA, every LSA and the latest ASSIGN it holds. Its own LSA goes
as it stands where it has been flooded less than 6,250 ticks ago (R303). -/
def State.exchange (s : State) (lane : Nat) : State :=
  let s1 := s.lsaCheck
  let s2 := if s1.reg .lsaSeq = s.reg .lsaSeq then
      (match s1.lsas.find? (fun l => l.origin = s.serial) with | some l => s1.sendLocal lane (lsaBody l) | none => s1)
    else s1
  let others := s2.lsas.filter (fun l => l.origin ≠ s.serial)
  let s3 := others.foldl (fun s l => s.sendLocal lane (lsaBody l)) s2
  let s4 := match s.assignHeld with
    | some t => (assignChunks t 4 0 t.entries).foldl (fun (s : State) b => s.sendLocal lane b) s3
    | none => s3
  s4.controlAhead (4 * lane) s.copies.length

/-- The neighbour state of a lane changes (R302): what every change to or from TWO_WAY does. -/
def State.setNeighbour (s : State) (lane new : Nat) : State :=
  let old := s.nbState lane
  let s1 := s.setEntField 0x00D 0x6000 lane 62 2 new
  if old = new ∨ (old ≠ 2 ∧ new ≠ 2) then s1
  else
    let s2 := (s1.raise causeFabricChange).record 0x0D01 0x00D [(1, lane), (8, s1.nbSerial lane), (1, old), (1, new)]
    if new = 2 then s2.exchange lane
    else ((s2.bump 0x00D 0x8008 0 1).latch 0x00D 19).lsaCheck

/-- The neighbour of a lane goes DOWN (Table 13.4). -/
def State.neighbourDown (s : State) (lane : Nat) : State :=
  if s.nbState lane = 0 then s else ((s.stopTimer (.dead lane)).setNeighbour lane 0).roleByNeighbours

/-- The HELLO's fields are recorded (Table 13.7). -/
def State.recordHello (s : State) (lane : Nat) (b : List Octet) : State :=
  let e := s.ent 0x00D 0x6000 lane
  let w := field e 62 2 * 2 ^ 62 + octet b 13 * 2 ^ 48 + octet b 12 * 2 ^ 40 + octet b 22 * 2 ^ 32 + octet b 23 % 16 * 2 ^ 28
  s.setEnt 0x00D 0x6000 lane (w + beN b 4 8 * 2 ^ 64 + beN b 14 8 * 2 ^ 128 + (field e 224 32 + 1) % 2 ^ 32 * 2 ^ 224)

/-- A HELLO of a fabric link (R302, Table 13.4, R305). -/
def State.hello (s : State) (lane : Nat) (b : List Octet) : State :=
  let st := s.nbState lane
  let other : Bool := s.nbSerial lane ≠ beN b 4 8
  let seen : Bool := beN b 24 8 = s.serial
  let s1 := (s.startTimer (.dead lane) 21875)
  let s2 :=
    if st = 0 then (s1.recordHello lane b).setNeighbour lane (if seen then 2 else 1)
    else if st = 1 then (s1.recordHello lane b).setNeighbour lane (if seen ∧ !other then 2 else 1)
    else if other then (s1.setNeighbour lane 1).recordHello lane b
    else if seen then s1.recordHello lane b
    else (s1.recordHello lane b).setNeighbour lane 1
  (s2.roleByNeighbours.betterRoot lane).lsaCheck

/-- The body of a CONTROL frame: `frame` runs from the fabric header to the FCS. -/
def controlOf (frame : List Octet) : List Octet := (frame.drop 12).take (frame.length - 16)

/-- A link-local CONTROL frame with message `msg` is taken; one with an unknown message is counted (R298, Table 13.3). -/
def State.takeControl (s : State) (ch : Nat) (frame : List Octet) (msg : Nat) (act : List Octet → State) : State :=
  let b := controlOf frame
  if !(s.mainUp && s.running && s.fabricLink ch) || fabType frame ≠ 2 || fabDst frame ≠ 0 then s
  else if octet b 0 = 0 ∨ 5 < octet b 0 then s.bump 0x00D 0x8001 0 1
  else if octet b 0 = msg then act b
  else s

/-- HELLO_RX (R302, R305): a HELLO has passed its commit point. -/
def execHelloRx (ch : Nat) (frame : List Octet) (s : State) : Host.Outcome State Fault Refusal := gathered s fun s =>
  .next (s.takeControl ch frame 1 (s.hello (laneOf ch)))

/-- The HELLOs of all fabric links are sent, and the timer runs anew (R302). -/
def State.helloTick (s : State) : State :=
  (s.fabricLanes.foldl (fun s l => s.sendLocal l (s.helloBody l)) s).startTimer .hello 6250

/-- HELLO_TIMER (R302). -/
def execHelloTimer (s : State) : Host.Outcome State Fault Refusal := gathered s fun s =>
  if s.mainUp ∧ (s.timer .hello).isSome then .next s.wake.helloTick else .next s

/-- DEAD_TIMER_EXPIRE (R302): no HELLO has come for 3.5 ms. -/
def execDeadTimerExpire (lane : Nat) (s : State) : Host.Outcome State Fault Refusal := gathered s fun s =>
  if s.mainUp ∧ (s.timer (.dead lane)).isSome then .next (s.wake.neighbourDown lane) else .next s

/-- The LSA of a body (Table 13.3). -/
def parseLsa (b : List Octet) : Lsa :=
  ⟨beN b 4 8, octet b 12, beN b 14 4, beN b 18 4,
   (List.range (min 16 (octet b 13))).map (fun k =>
     (beN b (22 + 12 * k) 8, octet b (30 + 12 * k), octet b (31 + 12 * k), be16 b (32 + 12 * k)))⟩

/-- An LSA arrives on a lane (R303). -/
def State.takeLsa (s : State) (lane : Nat) (l : Lsa) : State :=
  if l.origin = s.serial then
    if l.seq = s.regN .lsaSeq ∨ newer32 l.seq (s.regN .lsaSeq) then State.floodOwn (s.setReg .lsaSeq (l.seq : Nat)) else s
  else
    let known := s.lsas.find? (fun x => x.origin = l.origin)
    let isNew : Bool := match known with | some k => newer32 l.seq k.seq | none => true
    if isNew then ((s.storeLsa l).startTimer (.lsaAge l.origin) 18750000).flood l (some lane) else s

/-- LSA_RX (R303): an LSA has passed its commit point. -/
def execLsaRx (ch : Nat) (frame : List Octet) (s : State) : Host.Outcome State Fault Refusal := gathered s fun s =>
  .next (s.takeControl ch frame 2 (fun b => s.takeLsa (laneOf ch) (parseLsa b)))

/-- LSA_REFRESH (R303): the own LSA is flooded anew. -/
def execLsaRefresh (s : State) : Host.Outcome State Fault Refusal :=
  if s.mainUp ∧ s.fabricOn ∧ (s.timer .lsaRefresh).isSome then .next s.wake.floodOwn else .next s

/-- An LSA that has not been refreshed is removed (R303). -/
def State.ageOut (s : State) (origin : Nat) : State :=
  { s.stopTimer (.lsaAge origin) with lsas := s.lsas.filter (fun l => l.origin ≠ origin) }

/-- LSA_AGE_OUT (R303). -/
def execLsaAgeOut (origin : Nat) (s : State) : Host.Outcome State Fault Refusal := gathered s fun s =>
  if s.mainUp ∧ (s.timer (.lsaAge origin)).isSome then .next (s.wake.ageOut origin) else .next s

/-- The routes are computed anew, and what reachability brings about (R304, R305, R306). -/
def State.computeRoutes (s : State) : State :=
  let s1 := s.setRoutes
  if s1.role = 2 then
    if s1.reachable s1.rootSerial then s1 else s1.rootLost
  else s1.assignIds false

/-- ROUTE_COMPUTE (R304). -/
def execRouteCompute (s : State) : Host.Outcome State Fault Refusal := gathered s fun s =>
  if s.mainUp then .next s.computeRoutes else .next s

/-- The entries of an ASSIGN chunk (Tables 13.3, 13.8). -/
def parseAssigns (b : List Octet) : List Assign :=
  (List.range (min 64 (be16 b 20))).map (fun k =>
    let o := 22 + 10 * k
    ⟨beN b o 8, octet b (o + 8), (octet b (o + 9)).testBit 7, (octet b (o + 9)).testBit 6, 0⟩)

/-- A MEMBER adopts a table (R307): the ID, the generation and the table together. -/
def State.adopt (s : State) (t : AssignTable) : State :=
  let s1 := ({ s with assigns := t.entries }.wr 0x00D 0x5005 0 t.gen).wr 0x00D 0x5006 0 t.seq
  ((s1.setOwnId (idIn t.entries s.serial)).wr 0x00D 0x5004 0 (idIn t.entries t.root)).lsaCheck

/-- A table has arrived whole (R306, R307): it is held, and a MEMBER of its root adopts it. -/
def State.wholeTable (s : State) (t : AssignTable) : State :=
  let keep : Bool := match s.assignHeld with | some h => newer32 t.seq h.seq || h.root ≠ t.root | none => true
  let s1 := { s with assignBuf := none, assignHeld := if keep then some t else s.assignHeld }
  if s.role = 2 ∧ t.root = s.rootSerial ∧ (s.assigns = [] ∨ newer32 t.seq (s.rd 0x00D 0x5006 0)) then s1.adopt t else s1

/-- A chunk of an ASSIGN table (R307). A root ignores those of other roots. -/
def State.takeAssign (s : State) (b : List Octet) : State :=
  if s.role = 3 ∨ s.role = 0 then s
  else
    let n := octet b 13 % 128
    let here : AssignTable := ⟨beN b 4 8, octet b 12, beN b 14 4, be16 b 18, 1, parseAssigns b⟩
    let joined : Option AssignTable :=
      if n = 0 then some here
      else match s.assignBuf with
        | some t =>
          if t.root = here.root ∧ t.seq = here.seq ∧ t.chunk = n then some { t with chunk := n + 1, entries := t.entries ++ here.entries }
          else none
        | none => none
    match joined with
    | none => s
    | some t => if (octet b 13).testBit 7 then s.wholeTable t else { s with assignBuf := some t }

/-- ASSIGN_RX (R307): an ASSIGN chunk has passed its commit point. -/
def execAssignRx (ch : Nat) (frame : List Octet) (s : State) : Host.Outcome State Fault Refusal := gathered s fun s =>
  .next (s.takeControl ch frame 3 s.takeAssign)

/-- The root sends its whole table again (R306). -/
def State.assignTick (s : State) : State := s.sendAssign.startTimer .assignRefresh 6250000

/-- ASSIGN_REFRESH (R306). -/
def execAssignRefresh (s : State) : Host.Outcome State Fault Refusal := gathered s fun s =>
  if s.mainUp ∧ s.role = 3 ∧ (s.timer .assignRefresh).isSome then .next s.wake.assignTick else .next s

/-- A conflict has lasted 20 ms: the lowest free ID (R306 rule 3). -/
def State.renumber (s : State) (serial : Nat) : State :=
  let s1 := s.stopTimer (.duplicate serial)
  if s.role = 3 ∧ s.assigns.any (fun a => a.serial = serial && a.duplicate) then
    let w := giveLowest (IdWork.mk s.assigns s.rootGen []) serial
    State.assignIds ({ s1 with assigns := w.table }.bump 0x00D 0x800B 0 1 |>.wr 0x00D 0x5005 0 w.gen) true
  else s1

/-- DUPLICATE_RENUMBER (R306). -/
def execDuplicateRenumber (serial : Nat) (s : State) : Host.Outcome State Fault Refusal := gathered s fun s =>
  if s.mainUp ∧ (s.timer (.duplicate serial)).isSome then .next (s.wake.renumber serial) else .next s

/-- Every neighbour goes DOWN. -/
def State.allNeighboursDown (s : State) : State := (List.range s.build.lanes).foldl State.neighbourDown s

/-- The role becomes DISABLED, or ALONE from it: a change of role (R305). DESIGN CHOICE (log entry 86): its cause is ALONE. -/
def State.becomeDisabled (s : State) : State :=
  if s.role = 0 then s
  else
    State.rootChange (((((s.wr 0x00D 0x5001 0 0).wr 0x00D 0x5003 0 0).wr 0x00D 0x5004 0 0).stopTimer .assignRefresh).setReg .betterSeen 0)
      s.rootSerial 4

/-- `enable` has been committed (R294, R302, R305): 0 disables the fabric and loses every neighbour, and the device lists no adjacency, 1 starts the
hellos. -/
def State.fabricEnable (s : State) (on : Bool) : State :=
  if on then
    if s.role = 0 then ((((s.wr 0x00D 0x5001 0 1).rootChange 0 4).startTimer .hello 6250).startTimer .lsaRefresh 6250000) else s
  else
    let s1 := (((s.becomeDisabled).allNeighboursDown).stopTimer .hello).stopTimer .lsaRefresh
    { s1 with lsas := s1.lsas.filter (fun l => l.origin ≠ s1.serial) }

end Sys2Proof.Machine
end

