-- ==== Sys2Proof/Machine/Operands.lean ====
section
/-! DEFINITION. The operands of an access as they are carried: the object-access PDU (Table 2.12) in an Ethernet frame, in a relay
(Table 13.3), in the words of a mailbox (Tables 2.8, 2.9). -/
namespace Sys2Proof.Machine

/-- An access: the operation (1 READ, 2 WRITE, 3 EPOCH), the path as named, index, sub-index, and the octets written, most significant
first; `length` is what a READ asks for. -/
structure Request where
  op     : Nat
  path   : List Nat
  index  : Nat
  sub    : Nat
  length : Nat
  data   : List Octet
  deriving DecidableEq, Repr

/-- The PDU of an object-access frame: behind the EtherType, without the FCS (R72). -/
def pduOf (frame : List Octet) : List Octet := (frame.take (frame.length - 4)).drop (etherPos frame + 2)

/-- Fields of a PDU (Table 2.12). -/
def pduVer (p : List Octet) : Nat := octet p 0 / 16
def pduKind (p : List Octet) : Nat := octet p 0 % 16
def pduOp (p : List Octet) : Nat := octet p 1
def pduKey (p : List Octet) : Nat := octet p 2 % 8
def pduSeq (p : List Octet) : Nat := beN p 4 8
def pduLength (p : List Octet) : Nat := be16 p 16

/-- The DATA octets that a request carries: only a WRITE has any. -/
def pduDataLen (p : List Octet) : Nat := if pduOp p = 2 then pduLength p else 0

/-- The octets a request's TAG is taken over, and the TAG. -/
def pduTagged (p : List Octet) : List Octet := p.take (36 + pduDataLen p)
def pduTagOf (p : List Octet) : List Octet := (p.drop (36 + pduDataLen p)).take 8

/-- The elements of a PDU's path; `none` where PATH_LEN is not 1 to 8 (R43). -/
def pduPath (p : List Octet) : Option (List Nat) :=
  let n := octet p 3 % 16
  if 1 ≤ n ∧ n ≤ 8 then some ((List.range n).map (fun i => be16 p (20 + 2 * i) % 4096)) else none

/-- The access that a PDU asks for. A PATH_LEN out of range names no unit. DESIGN CHOICE (log entry 71): non-zero RSVD bits of the PDU (octets 2, 3
and 15, bits 15:12 of a path element) are ignored. -/
def pduRequest (p : List Octet) : Request :=
  ⟨pduOp p, (pduPath p).getD [], be16 p 12, octet p 14, pduLength p, (p.drop 36).take (pduDataLen p)⟩

/-- The head of a PDU, octets 0 to 35, for a request with a path: used in relays (Table 13.3). -/
def pduHead (op key seq index sub length : Nat) (path : List Nat) : List Octet :=
  toMsb 1 0x10 ++ toMsb 1 op ++ toMsb 1 key ++ toMsb 1 path.length ++ toMsb 8 seq ++ toMsb 2 index ++ toMsb 1 sub ++ toMsb 1 0
    ++ toMsb 2 length ++ toMsb 2 0 ++ (path ++ List.replicate (8 - path.length) 0).flatMap (toMsb 2)

/-- The response to a PDU, without TAG (R73): KIND RESPONSE and the request's OP, KEY, SEQ, INDEX, SUB and PATH. -/
def responsePdu (p : List Octet) (code : Nat) (data : List Octet) : List Octet :=
  toMsb 1 0x11 ++ toMsb 1 (pduOp p) ++ toMsb 1 (pduKey p) ++ toMsb 1 (octet p 3 % 16) ++ toMsb 8 (pduSeq p) ++ toMsb 2 (be16 p 12)
    ++ toMsb 1 (octet p 14) ++ toMsb 1 0 ++ toMsb 2 data.length ++ toMsb 2 code ++ (p.drop 20).take 16 ++ data

/-- The path of a mailbox (Tables 2.8, 2.9); `none` where PATH_LEN is not 1 to 8. DESIGN CHOICE (log entry 71): non-zero RSVD bits of the words are
dropped, bits 15:12 of a path element among them. -/
def mbPath (w : MbWords) : Option (List Nat) :=
  let n := field w.cmd 36 4
  if 1 ≤ n ∧ n ≤ 8 then
    some ((List.range n).map (fun i => if i < 4 then field w.pathA (16 * i) 12 else field w.pathB (16 * (i - 4)) 12))
  else none

/-- The data octets of a mailbox, byte 0 first. A LENGTH above 16, which inline data cannot carry, gives 17 octets: no object has that size, so
that check 8 of Table 2.4 ends the write with LENGTH. -/
def mbData (w : MbWords) : List Octet :=
  if field w.cmd 16 16 ≤ 16 then (toLsb 8 w.dataA ++ toLsb 8 w.dataB).take (field w.cmd 16 16) else List.replicate 17 0

end Sys2Proof.Machine
end

