-- ==== Sys2Proof/Machine/Answer.lean ====
section
/-! DEFINITION. How an access that has ended is answered (R62 to R64, R73, R74, R308): its mailbox, its response frame, its relay
response. -/
namespace Sys2Proof.Machine

/-- Mailbox `n` (Tables 2.8, 2.9). -/
def noMailbox : Mailbox := ⟨⟨0, 0, 0, 0, 0⟩, false, false, false, 0, 0⟩
def State.mailbox (s : State) (n : Nat) : Mailbox := s.mailboxes.get n noMailbox
def State.setMailbox (s : State) (n : Nat) (m : Mailbox) : State := { s with mailboxes := s.mailboxes.set n m noMailbox }

/-- A mailbox request has ended (R64): its code, and data byte 0 first. A READ clears the data words beyond what it returns. -/
def State.mailboxEnd (s : State) (n : Nat) (code : Abort) (data : List Octet) : State :=
  let m := s.mailbox n
  let read : Bool := field m.words.cmd 2 2 = 1
  let w := if read || data ≠ [] then { m.words with dataA := ofLsb (data.take 8), dataB := ofLsb ((data.drop 8).take 8) } else m.words
  s.setMailbox n { m with words := w, ready := true, abort := code.code }

/-- The response frame to an object-access request (R73): from the channel's station address to the request's source, with the
request's tags; tagged under the key of the request, which may have gone from its slot since; the TAG is all zero where there is none
(R74). -/
def State.responseFrame (s : State) (ch : Nat) (frame : List Octet) (code : Abort) (data : List Octet) (key : Option Nat) : List Octet :=
  let p := pduOf frame
  let r := responsePdu p code.code data
  let tag : List Octet := match key with | some k => pduTag k r | none => List.replicate 8 0
  let head := (frame.drop 6).take 6 ++ toMsb 6 (s.rd (chUnit ch) 0x1002 0) ++ (frame.drop 12).take (etherPos frame + 2 - 12)
  let l := head ++ r ++ tag
  l ++ List.replicate (60 - l.length) 0

/-- A response waits to leave on the channel its request came on (R73). -/
def State.respond (s : State) (ch : Nat) (frame : List Octet) (code : Abort) (data : List Octet) (key : Option Nat) : State :=
  { s with responses := s.responses ++ [⟨ch, s.responseFrame ch frame code data key⟩] }

/-- A RELAY_RSP for a member (R308, Table 13.3). -/
def State.relayResponse (s : State) (e : RelayExec) (agent : Nat) (code : Abort) (data : List Octet) : State :=
  match s.nextHop e.dst 0 with
  | some ch =>
    s.sendControl ch e.dst (s.rd 0x00D 0x1003 0)
      (controlBody 5 (toMsb 2 e.tag ++ toMsb 1 agent ++ toMsb 1 e.slot ++ responsePdu e.pdu code.code data))
  | none => s

/-- The atlas as an agent: H, with a slot that no processor has (R355). -/
def atlasAgent : Agent := ⟨.host, 64⟩

/-- A context as reset leaves it (Table 2.10). -/
def noCtx : DpCtx := ⟨1, List.replicate 8 0, none, 0, 0, 0, .ok, []⟩

/-- The context of a caller. -/
def State.ctx (s : State) (a : Agent) : DpCtx := s.dpCtx.get (a.kind, a.slot) noCtx
def State.setCtx (s : State) (a : Agent) (c : DpCtx) : State := { s with dpCtx := s.dpCtx.set (a.kind, a.slot) c noCtx }

/-- The first failure of a transfer is held (R67). -/
def State.dpHold (s : State) (a : Agent) (e : Abort) : State := s.setCtx a { s.ctx a with status := e }

/-- An access that was told no result at once has ended: its agent is told (R53, R64, R73, R308). -/
def State.finish (s : State) (a : Agent) (code : Abort) (data : List Octet := []) : State :=
  let s1 := s.complete a code data
  match a.kind with
  | .host => if a = atlasAgent then s1.setReg .atlasDone ((code.code + 1 : Nat) : Int) else if (s1.mailbox a.slot).busy ∧ !(s1.mailbox a.slot).ready then
      s1.mailboxEnd a.slot code (if code = .leaseHeld then (data.take 2).reverse ++ (data.drop 2).reverse else data)
    else s1
  | .manager =>
    match s1.accessQ with
    | r :: rest =>
      if r.started ∧ pduKey (pduOf r.frame) = a.slot then State.respond { s1 with accessQ := rest } r.ch r.frame code data (some r.key) else s1
    | [] => s1
  | .fabric =>
    match s1.relayExecs.find? (fun e => e.slot = a.slot) with
    | some e => State.relayResponse { s1 with relayExecs := s1.relayExecs.erase e } e 3 code data
    | none => s1

end Sys2Proof.Machine
end

