-- ==== Sys2Proof/Machine/Time.lean ====
section
/-! DEFINITION. The time base (R280 to R293) and the gate lists that follow it (R179 to R183). -/
namespace Sys2Proof.Machine

/-- The counter's fraction in 2^−16 ns (Table 12.3). -/
def timeFrac (t : Nat) : Nat := t % nsUnit / 2 ^ 22

/-- A TIME48 of an instant. -/
def time48Of (t : Nat) : Nat := t / nsUnit / 1000000000 % 2 ^ 32 * 2 ^ 16 + t / nsUnit % 1000000000 * 65536 / 1000000000

/-- TREF_CLK is lost (R282). -/
def State.trefGone (s : State) : State :=
  let s1 := (((s.wr 0x003 0x5002 0 1).bump 0x003 0x8001 0 1).latch 0x003 16).raise causeTrefLost
  (s1.setReg .trefTicks 0).record 0x0C01 0x003 []

/-- The time unit runs: the main domain is up, or the mode is SLEEP (R291). -/
def State.timeUp (s : State) : Bool := s.mainUp || (s.mode = 3 && s.regN .porstLow = 0)

/-- What the counter gains from edge to edge in SLEEP (R291): `increment` at each TREF_CLK edge, or `increment` × 5 ÷ 2 a period of OSC_CLK while
that is lost. -/
def State.sleepGain (s : State) : Nat := if s.rd 0x003 0x5002 0 = 1 then 160 * s.increment else 64 * s.increment

/-- `n` edges of TREF_CLK pass in SLEEP, or `n` periods of OSC_CLK of 20 ns while that is lost (R291): the value at the first edge is that of the edges,
so what had been interpolated at the entry is no part of its gain. -/
def State.sleepEdges (s : State) (n : Nat) : State :=
  let lost : Bool := s.rd 0x003 0x5002 0 = 1
  let d := ((n * s.sleepGain : Nat) : Int) - (if n = 0 then 0 else s.reg .edgeRest)
  let s1 := (s.setReg .paceHeld 0).setReg .edgeRest (if n = 0 then s.reg .edgeRest else 0)
  { s1.setReg .trefTicks (s.reg .trefTicks + (if lost then n / 8 else 0 : Nat)) with
    time := (s.time + d.toNat) % timeWrap, elapsed := s.elapsed + d.toNat }

/-- The time that has passed in SLEEP since its entry or the last event of the stay (R291). How much it is, is a free value (log entries 8, 79). -/
def State.sleepPasses (s : State) : State :=
  let (f, s0) := s.takeFree
  s0.sleepEdges (if s.rd 0x003 0x5002 0 = 1 then (Config.oscPeriods f).toNat else (Config.sleepEdges f).toNat)

/-- The first edge of SLEEP at which the counter has gained `d` (R291). -/
def State.sleepReach (s : State) (d : Int) : State :=
  if d ≤ 0 ∨ s.sleepGain = 0 then s else s.sleepEdges (ceilDiv (d + s.reg .edgeRest).toNat s.sleepGain)

/-- TREF_LOST (R282): TREF_CLK shows no edge for 32 CCLK. In SLEEP the loss goes to the Snowdrop ring, and is raised at the return
(R291). -/
def execTrefLost (s : State) : Host.Outcome State Fault Refusal :=
  if s.timeUp ∧ s.rd 0x003 0x5002 0 = 0 then
    if s.mainUp then .next s.trefGone
    else .next ((((s.sleepPasses.wr 0x003 0x5002 0 1).bump 0x003 0x8001 0 1).latch 0x003 16).setReg .trefTicks 0 |>.record 0x0C01 0x003 [])
  else .next s

/-- TREF_RESTORED (R282): 1,024 clean edges return the counter to TREF_CLK. The length of the loss saturates (R333). -/
def execTrefRestored (s : State) : Host.Outcome State Fault Refusal :=
  if s.timeUp ∧ s.rd 0x003 0x5002 0 = 1 then
    let s1 := if s.mainUp then s else s.sleepPasses
    .next (((s1.wr 0x003 0x5002 0 0).record 0x0C02 0x003 [(4, min 0xFFFFFFFF (s1.regN .trefTicks))]).setReg .trefTicks 0)
  else .next s

/-- The gate of a frame in progress at an endpoint has closed inside it: the frame is counted once (R181). -/
def State.overrunCheck (s : State) (ep : Nat) : State :=
  let hit (c : Copy) : Bool :=
    c.ep = ep && (c.state = .sending || c.state = .suspended) && !c.overrun && !s.gateOpen ep c.cls s.time
  let n := (s.copies.filter hit).length
  if n = 0 then s
  else
    (State.bump { s with copies := s.copies.map (fun (c : Copy) => if hit c then { c with overrun := true } else c) } 0x00A 0x8004 0 n).latch
      0x00A 16

/-- GATE_TRANSITION (R180, R181): the counter reaches an entry boundary of an operational list. -/
def execGateTransition (ep : Nat) (s : State) : Host.Outcome State Fault Refusal :=
  if s.mainUp ∧ (s.gateOper.find? ep).isSome then .next (s.overrunCheck ep) else .next s

/-- The configuration change time CT of an entry: the first BASE_TIME + N × CYCLE, N ≥ 0, at or after an instant (R182). -/
def changeTime (cfg now : Nat) : Nat :=
  let base := ofTime80 (epBaseTime cfg)
  let cyc := epCycle cfg * cclkUnit
  if now ≤ base then base else base + ceilDiv (now - base) cyc * cyc

/-- The entries of an endpoint's gate list that its LIST_LEN uses. -/
def State.gateList (s : State) (ep : Nat) : List Nat :=
  (List.range (field (s.epCfg ep) 49 9)).map (fun i => s.ent 0x00A (0x6100 + ep) i)

/-- A commit has changed an endpoint's entry or list (R179, R182): a list with GATE_EN 1 waits for CT; GATE_EN 0 opens every gate and
discards what waits. -/
def State.gateCommit (s : State) (ep : Nat) : State :=
  let cfg := s.epCfg ep
  if cfg.testBit 63 then
    { s with gatePend := s.gatePend.set ep (changeTime cfg s.time, cfg, s.gateList ep) (0, 0, []) }
  else { s with gatePend := s.gatePend.erase ep, gateOper := s.gateOper.erase ep }

/-- The pending configuration of an endpoint becomes operational (R182): choices that it makes ineligible are withdrawn (R176). -/
def State.gateSwitch (s : State) (ep ct cfg : Nat) (list : List Nat) : State :=
  let s1 := { s with gatePend := s.gatePend.erase ep, gateOper := s.gateOper.set ep (cfg, list) (0, []) }
  let s2 := s1.record 0x0701 0x00A [(1, ep), (6, time48Of ct)]
  (s2.withdraw ep (fun c => !s2.gateOpen ep c.cls s2.time)).overrunCheck ep

/-- GATE_CT_REACHED (R182, R288): the counter is at the CT of an endpoint or later. -/
def execGateCtReached (ep : Nat) (s : State) : Host.Outcome State Fault Refusal :=
  match s.gatePend.find? ep with
  | some (ct, cfg, list) => if s.mainUp ∧ ct ≤ s.time then .next (s.gateSwitch ep ct cfg list) else .next s
  | none => .next s

/-- The value that a step gives the counter (R283). -/
def State.steppedTo (s : State) : Agent × Bool × Int → Int
  | (_, true, v) => (ofTime80 v.toNat : Int)
  | (_, false, d) => (s.time : Int) + d * nsUnit

/-- A step of the counter takes effect and completes its command (R183, R283). An `adjust` that would fall below 0 ends with RANGE. -/
def State.applyStep (s : State) : State :=
  match s.timeStep with
  | none => s
  | some c =>
    let s0 := { s with timeStep := none }
    let v := s.steppedTo c
    if v < 0 then ((s0.latch 0x003 3).wr 0x003 0x7001 0 Abort.range.code).finish c.1 .range
    else
      let new := v.toNat % timeWrap
      let s1 := ((({ s0 with time := new }.setReg .ppsLast ((new : Int) - 1)).wr 0x003 0x5001 0 1).bump 0x003 0x8000 0 1)
      let s2 := (s1.record 0x0C03 0x003 [(6, time48Of s.time), (6, time48Of new)]).bump 0x00A 0x8005 0 1
      ((s2.gateOper.map Prod.fst).foldl State.overrunCheck s2).finish c.1 .ok

/-- TIME_STEP_APPLY (R283): slot 0 of the tick after a step command. -/
def execTimeStepApply (s : State) : Host.Outcome State Fault Refusal := gathered s fun s => if s.mainUp then .next s.applyStep else .next s

/-- The effect of `step_set` (R283); `none` where the command completes later. -/
def State.stepSet (s : State) (a : Agent) : Option Abort × State :=
  if s.timeStep.isSome then (some .busy, s) else (none, { s with timeStep := some (a, true, (s.rd 0x003 0x4001 0 : Int)) })

/-- The effect of `adjust` (R283). -/
def State.adjust (s : State) (a : Agent) (d : Int) : Option Abort × State :=
  if 2 ^ 40 < d.natAbs then (some .range, s)
  else if s.timeStep.isSome then (some .busy, s)
  else (none, { s with timeStep := some (a, false, d) })

/-- PPS_IN_EDGE (R289): a filtered rising edge captures the counter at the pin edge. -/
def execPpsInEdge (s : State) : Host.Outcome State Fault Refusal :=
  if s.mainUp then
    let back := s.gained (2 + s.rd 0x003 0x1000 0)
    let t := (s.time + timeWrap - back % timeWrap) % timeWrap
    let s1 := ((s.wr 0x003 0x5003 0 (toTime80 t)).wr 0x003 0x5003 1 (timeFrac t)).bump 0x003 0x8002 0 1
    .next ((s1.raise causePpsIn).startTimer .ppsIn 6875001)
  else .next s

/-- No PPS_IN edge has followed within 1.1 s (R289). -/
def State.ppsGone (s : State) : State :=
  (((s.stopTimer .ppsIn).bump 0x003 0x8003 0 1).latch 0x003 17).record 0x0C04 0x003 []

/-- PPS_IN_MISSING (R289). -/
def execPpsInMissing (s : State) : Host.Outcome State Fault Refusal :=
  if s.mainUp ∧ (s.timer .ppsIn).isSome then .next s.wake.ppsGone else .next s

/-- How far the counter is past the last whole second plus `pps_out_offset` (R290). -/
def State.ppsPast (s : State) : Int := ((s.time : Int) - signed 32 (s.rd 0x003 0x1003 0) * nsUnit) % (1000000000 * nsUnit : Nat)

/-- The counter has reached a whole second plus `pps_out_offset` since the last rise, or since the enable, offset or counter changed (R290). -/
def State.ppsDue (s : State) : Bool :=
  let gone : Int := if (s.time : Int) < s.reg .ppsLast then (s.time : Int) + timeWrap - s.reg .ppsLast else (s.time : Int) - s.reg .ppsLast
  s.ppsPast < gone

/-- The edge of SLEEP at which the counter reaches the next instant of PPS_OUT (R290, R291); awake the counter is where the slots have brought it. -/
def State.atPps (s : State) : State :=
  if s.mainUp ∨ s.ppsDue then s else s.sleepReach ((1000000000 * nsUnit : Nat) - s.ppsPast)

/-- The edge of SLEEP at which the pulse of PPS_OUT is to end. -/
def State.atPpsEnd (s : State) : State := if s.mainUp then s else s.sleepReach (s.reg .ppsEnd - s.elapsed)

/-- PPS_OUT_RISE (R290, R291): the counter reaches a whole second plus `pps_out_offset`; the pulse lasts `pps_out_width` microseconds of the
counter from there. -/
def execPpsOutRise (s : State) : Host.Outcome State Fault Refusal :=
  let s1 := s.atPps
  if s.timeUp ∧ s.rd 0x003 0x1001 0 = 1 ∧ s1.ppsDue then
    .next (((s1.setReg .ppsOut 1).setReg .ppsLast s1.time).setReg .ppsEnd
      ((s1.elapsed : Int) - s1.ppsPast + (s.rd 0x003 0x1002 0 * 1000 * nsUnit : Nat)))
  else .next s

/-- PPS_OUT_FALL (R290, R291): `pps_out_width` has passed since the rise. -/
def execPpsOutFall (s : State) : Host.Outcome State Fault Refusal :=
  let s1 := s.atPpsEnd
  if s.timeUp ∧ s.regN .ppsOut = 1 ∧ s.reg .ppsEnd ≤ s1.elapsed then .next (s1.setReg .ppsOut 0) else .next s

/-- A gate state entry as it reads (Table 7.5). -/
def State.gateState (s : State) (ep : Nat) : Nat :=
  let oper : Nat := match s.gateOper.find? ep with
    | some (cfg, list) =>
      let g := gateEntry cfg list s.time
      2 ^ 63 + g.1 * 2 ^ 54 + g.2 * 2 ^ 46
    | none => 0xFF * 2 ^ 46
  match s.gatePend.find? ep with
  | some (ct, _, _) => oper + 2 ^ 62 + ct / nsUnit % 2 ^ 64 * 2 ^ 64
  | none => oper

/-- `timers_used`: the gate timers of operational and pending lists (Table 7.6). -/
def State.timersUsed (s : State) : Nat :=
  (s.gateOper.map (fun p => field p.2.1 58 5) ++ s.gatePend.map (fun p => field p.2.2.1 58 5)).eraseDups.length

end Sys2Proof.Machine
end

