-- ==== Sys2Proof/Machine/Queues.lean ====
section
/-! DEFINITION. The scheduler at a tick boundary (R89, R148, R186, R188, R190) and the live writes of flow queues (R175). -/
namespace Sys2Proof.Machine

/-- The serving link of a LINK_SET entry: the first READY link in order of preference, 3 for none (R190). -/
def State.servingOf (s : State) (e : Nat) : Nat :=
  (([qPref e 0, qPref e 1, qPref e 2].filter (fun p => p ≠ 3)).find? s.airReady).getD 3

/-- SERVING of a queue as its MODE has it (Table 7.1). -/
def State.servingFor (s : State) (n : Nat) : Nat :=
  let e := s.qCfg n
  if s.linkSet n then s.servingOf e
  else if (qMode e = 1 || (qMode e = 0 && s.waiting (.flow n))) && isAir (qEndpoint e) then qEndpoint e - 0x40
  else 3

/-- PARKED of a queue as its link has it (R255). -/
def State.parkedOf (s : State) (ep : Nat) : Bool := isAir ep && s.rd (alUnit (ep - 0x40)) 0x5001 0 = 1

/-- SERVING and PARKED of a queue are set. -/
def State.setServing (s : State) (n : Nat) : State :=
  let s1 := s.setEntField 0x00A 0x6000 n 234 2 (s.servingFor n)
  s1.setEntField 0x00A 0x6000 n 237 1 (s1.parkedOf (s1.queueHome n)).toNat

/-- The serving link of a queue is computed again; a queue that changes its link moves whole (R186, R190). -/
def State.serveMove (s : State) (n : Nat) : State :=
  let old := s.queueHome n
  let s1 := s.setServing n
  let new := s1.queueHome n
  if !s.linkSet n ∨ new = old then s1
  else
    let s2 := { s1 with
      copies := s1.copies.map (fun (c : Copy) => if c.queue = QueueRef.flow n && c.state = CopyState.queued then { c with ep := new } else c) }
    (s2.bump 0x00A 0x8006 0 1).rejoin (.flow n) new (qClass (s2.qCfg n))

/-- Each serving link is computed again at a boundary (R190). -/
def State.linkMoves (s : State) : State := s.listedQueues.foldl State.serveMove s

/-- Queue `n` holds no copy and its finish tag is behind the virtual time: it is brought up (R186). -/
def State.tagVisit (s : State) (n : Nat) : State :=
  let ep := s.queueHome n
  let v := s.regN (.vtime ep (qClass (s.qCfg n)))
  if !s.waiting (.flow n) && tagLt (s.regN (.finish (.flow n))) v then s.setReg (.finish (.flow n)) v else s

/-- The scheduler visits 8 queue numbers at a boundary, in ascending order, and each once in 256 ticks; a number that the build does not have is
passed over (R186). -/
def State.tagVisits (s : State) : State :=
  let at_ := s.regN .tagVisit
  let s1 := (List.range 8).foldl (fun s i => if at_ + i < s.build.queues then s.tagVisit (at_ + i) else s) s
  s1.setReg .tagVisit (((at_ + 8) % 2048 : Nat) : Int)

/-- RATE and BURST written in the closing tick apply; the credit is capped at the new BURST (R175). An unshaped queue has no credit
(R188). -/
def State.applyRates (s : State) : State :=
  s.rateWait.foldl
    (fun s p =>
      let s1 := s.setEntField 0x00A 0x6000 p.1 64 64 p.2
      if qRate (s1.qCfg p.1) = 0 then s1.setReg (.shaper p.1) 0 else s1.setReg (.shaper p.1) (s1.creditAt p.1 0))
    { s with rateWait := [] }

/-- Each shaped queue gains the credit of `n` ticks, capped at BURST (R188). -/
def State.shaperTicks (s : State) (n : Nat) : State :=
  s.listedQueues.foldl (fun s q => if qRate (s.qCfg q) = 0 then s else s.setReg (.shaper q) (s.creditAt q n)) s

/-- What a bucket of `rate` kb/s gains in a tick, in 1/65,536 byte (R148): rate × 160 ns ÷ 8. -/
def bucketGain (rate : Nat) : Nat := rate * 65536 / 50000

/-- A bucket's distance below its burst size after `n` ticks (R148). -/
def State.bucketTicks (s : State) (h : Hid) (rate n : Nat) : State := s.setReg h (max 0 (s.reg h - n * bucketGain rate))

/-- Each policer bucket gains the credit of `n` ticks (R148). -/
def State.policerTicks (s : State) (n : Nat) : State :=
  (s.listed 0x008 0x6001).foldl
    (fun s p => (s.bucketTicks (.bucketC p.1) (field p.2 64 32) n).bucketTicks (.bucketP p.1) (field p.2 96 32) n) s

/-- Each enabled channel of a quartered lane gains its transmit credit (R89). -/
def State.quarterTicks (s : State) : State :=
  (List.range s.build.channels).foldl
    (fun s ch =>
      if s.quartered ch ∧ s.chEnabled ch then
        let gain : Int := if s.rd (lnUnit (laneOf ch)) 0x1000 0 = 6 then 50 else 125
        s.setReg (.quarterCredit ch) (min ((s.maxFrame ch + 20 : Nat) : Int) (s.reg (.quarterCredit ch) + gain))
      else s) s

/-- Step 6 of a boundary (R25, R89, R148, R188, R362): the credit of this tick, and after IDLE that of the ticks spent there. -/
def State.creditStep (s : State) : State :=
  let s1 := s.quarterTicks
  if s.mode = 2 then s1.setReg .idleDue (s1.reg .idleDue + 1)
  else
    let n := 1 + s1.regN .idleDue
    ((s1.shaperTicks n).policerTicks n).setReg .idleDue 0

/-- A queue's MODE forbids a write of `v` over `e` (R175). -/
def State.queueForbids (s : State) (n e v : Nat) : Bool :=
  ((qMode e ≠ 0 || s.waiting (.flow n))
      && (qClass e ≠ qClass v || qEndpoint e ≠ qEndpoint v || [0, 1, 2].any (fun i => qPref e i ≠ qPref v i)))
    || (qMode e = 1 && qMode v = 2) || (qMode e = 2 && qMode v = 1)

/-- A value is out of the range of a flow-queue entry (R175, Table 7.1). -/
def queueRange (b : Build) (v : Nat) : Bool :=
  let p := [qPref v 0, qPref v 1, qPref v 2]
  qMode v = 3
    || (qMode v = 1 && (p ≠ [3, 3, 3] || !epPresent b (qEndpoint v) || qEndpoint v = Config.hostEp))
    || (qMode v = 2 && (qEndpoint v ≠ 0 || qPref v 0 = 3 || (qPref v 1 = 3 && qPref v 2 ≠ 3)
          || (qPref v 1 ≠ 3 && qPref v 1 = qPref v 0) || (qPref v 2 ≠ 3 && (qPref v 2 = qPref v 0 || qPref v 2 = qPref v 1))))
    || v.testBit 45 || qWeight v = 0 || 4096 < qWeight v || 10000000 < qLifetime v || 100000000 < qRate v || 16777216 < qBurst v
    || qLimit v = 0 || b.cells < qLimit v || b.cells < qMarkLimit v || field v 128 28 ≠ 0 || field v 224 10 ≠ 0

/-- A write of a flow-queue entry (R175). RATE and BURST wait for the boundary; what the device keeps in octets 24 to 31 is not
written. -/
def State.queueEntryWrite (s : State) (n v : Nat) : Abort × State :=
  let e := s.qCfg n
  if s.queueForbids n e v then (.modeForbids, s)
  else if queueRange s.build v then (.range, s)
  else
    let w := setField (setField v 64 64 (field e 64 64)) 192 64 (field e 192 64)
    let s1 := s.setEnt 0x00A 0x6000 n w
    let s2 := { s1 with rateWait := if field v 64 64 = field e 64 64 then s1.rateWait.erase n else s1.rateWait.set n (field v 64 64) (2 ^ 64) }
    (.ok, s2.setServing n)

/-- A flow-queue entry as it reads (Table 7.1). -/
def State.queueEntry (s : State) (n : Nat) : Nat :=
  let e := s.qCfg n
  let e := setField e 64 64 (s.rateWait.get n (field e 64 64))
  let credit := if qRate e = 0 then 0 else unsigned 32 (s.reg (.shaper n) / 65536)
  let depth := s.depth (.flow n)
  setField (setField (setBit e 236 (qMode e = 0 && s.waiting (.flow n))) 192 32 credit) 238 18 depth

/-- `queues_enabled` (Table 7.6). -/
def State.queuesEnabled (s : State) : Nat := (s.listedQueues.filter (fun n => qMode (s.qCfg n) ≠ 0)).length

end Sys2Proof.Machine
end

