-- ==== Sys2Proof/Machine/Lanes.lean ====
section
/-! DEFINITION. The link state of the lanes (R83, R85, R93 to R99, Table 3.8) and what frames meet at its changes. -/
namespace Sys2Proof.Machine

/-- The inputs of Table 3.8, by their number in the payload of a LINK_STATE record. -/
inductive LinkInput where
  | disable | restart | sdHigh | sdLow | sync | syncLost | fd | noFd | syncTimeout | upHold | command
  deriving DecidableEq, Repr

def LinkInput.code : LinkInput → Nat
  | .disable => 0
  | .restart => 1
  | .sdHigh => 2
  | .sdLow => 3
  | .sync => 4
  | .syncLost => 5
  | .fd => 6
  | .noFd => 7
  | .syncTimeout => 8
  | .upHold => 9
  | .command => 10

/-- `link_state` of a lane. -/
def State.link (s : State) (lane : Nat) : Nat := s.rd (lnUnit lane) 0x5000 0

/-- `pcs_mode`. -/
def State.pcsMode (s : State) (lane : Nat) : Nat := s.rd (lnUnit lane) 0x1000 0

/-- LN_SD is high after the debounce, or is taken as high in near-end loopback; a lane whose clock is lost is treated as though it were
low (R94, R97, Table 3.3). -/
def State.sdHigh (s : State) (lane : Nat) : Bool :=
  s.regN (.clockLost lane) = 0 && (s.rd (lnUnit lane) 0x5002 0 = 1 || s.rd (lnUnit lane) 0x4000 0 = 1)

/-- The channels of a lane that the build has. -/
def State.laneChannels (s : State) (lane : Nat) : List Nat :=
  ([0, 1, 2, 3].map (4 * lane + ·)).filter s.isChannel

/-- A copy in progress stops at once and is counted (R99). What it has sent of its unit ends with an /E/ block or an error-propagation code group:
`txOut` holds those octets under the channel plus 0x100. -/
def State.cutDown (s : State) (c : Copy) : State :=
  let s1 := (s.bump (chUnit c.ep) 0x8000 0 1)
  let s2 := if c.state = .sending ∧ c.ending ≠ .down then
      { s1 with txOut := s1.txOut.set (c.ep + 0x100) (s.unitStart c true ++ ((s.wireOctets c).take (s.sentBy c)).drop c.pos) [] }
    else s1
  (s2.dropCopy c).settle c.frame

/-- What a channel has in reception fails (R99, R102): the frame in progress, and the frames being reassembled. -/
def State.rxBroken (s : State) (ch : Nat) : State :=
  let s1 := match s.rxNow.find? ch with
    | some id => s.undo id .symbol
    | none => s
  (s1.dropContexts ch .symbol (fun _ => true)).setReg (.rxLevel ch) 0

/-- What frames and protocols of a channel meet when it leaves UP (R88, R99, R118, R159, R203, R215). -/
def State.channelDown (s : State) (ch : Nat) : State :=
  let s2 := s.rxBroken ch
  let live := s2.copies.filter (fun c => c.ep = ch && (c.state = .sending || c.state = .suspended))
  let s3 := ((live.foldl State.cutDown s2).pauseDown ch).preemptDown ch
  { s3.setReg (.quarterSeqRx ch) 0 with folds := s3.folds.filter (fun f => f.ch ≠ ch) }

/-- What a channel does when it enters UP (R118, R203). -/
def State.channelUp (s : State) (ch : Nat) : State := if s.chEnabled ch then (s.pauseUp ch).preemptUp ch else s

/-- A lane leaves UP; `counts` is false for an entry into a low-power mode. -/
def State.leaveUp (s : State) (lane : Nat) (counts : Bool) : State :=
  let s0 := (s.laneChannels lane).foldl State.channelDown s
  let s1 := { s0 with fifo := s0.fifo.filter (fun c => laneOf c.ch ≠ lane) }
  (if counts then s1.bump (lnUnit lane) 0x8000 0 1 else s1).neighbourDown lane

/-- A lane changes its link state: the change is recorded and raised (R98, Table 14.1). -/
def State.setLink (s : State) (lane new : Nat) (input : LinkInput) : State :=
  let old := s.link lane
  if old = new then s
  else
    let s1 := ((s.wr (lnUnit lane) 0x5000 0 new).record 0x0301 (lnUnit lane) [(2, lnUnit lane), (1, old), (1, new), (1, input.code)]).raise
      (causeLinkChange lane)
    if old = 5 then s1.leaveUp lane true else if new = 5 then (s1.laneChannels lane).foldl State.channelUp s1 else s1

/-- `sync_timeout` starts: a tick timer (R25, R95). -/
def State.startSync (s : State) (lane : Nat) : State := s.startTimer (.syncTimeout lane) (s.rd (lnUnit lane) 0x1007 0 * 6250)

/-- The lane enters ACQUIRE, or stays in it: its PCS receiver starts afresh (R98). DESIGN CHOICE (log entry 103): that does not end the hi-BER condition,
which only HI_BER_END and the way to DOWN do. -/
def State.toAcquire (s : State) (lane : Nat) (input : LinkInput) : State :=
  (((s.stopTimer (.upHold lane)).setReg (.syncHeld lane) 0).setLink lane 2 input).startSync lane

/-- A lane in DOWN whose signal detect is high goes to ACQUIRE (R98). -/
def State.sdCheck (s : State) (lane : Nat) : State :=
  if s.link lane = 1 ∧ s.sdHigh lane then s.toAcquire lane .sdHigh else s

/-- The lane enters DOWN or DISABLED: its timers stop, its PCS receiver is held in reset. -/
def State.toDown (s : State) (lane new : Nat) (input : LinkInput) : State :=
  ((((s.stopTimer (.upHold lane)).stopTimer (.syncTimeout lane)).setReg (.hiBer lane) 0).setReg (.syncHeld lane) 0).setLink lane new input

/-- Signal detect is low, or is taken as low (Table 3.8). -/
def State.sdDown (s : State) (lane : Nat) : State := if 2 ≤ s.link lane then s.toDown lane 1 .sdLow else s

/-- The lane enters UP. -/
def State.upHoldOver (s : State) (lane : Nat) : State := (s.stopTimer (.upHold lane)).setLink lane 5 .upHold

/-- The lane enters CONFIRM; `up_hold` 0 takes it to UP at once (R98). -/
def State.toConfirm (s : State) (lane : Nat) (input : LinkInput) : State :=
  let s1 := (s.stopTimer (.syncTimeout lane)).setLink lane 4 input
  let hold := s.rd (lnUnit lane) 0x1008 0
  if hold = 0 then s1.upHoldOver lane else s1.startTimer (.upHold lane) (hold * 6250)

/-- A commit restarts a lane: DISABLED for mode 0x00, DOWN else, and on to ACQUIRE with the signal detect already high (R93, R98). The
clocks of a lane in mode 0x00 are not watched (R97). -/
def State.laneRestart (s : State) (lane : Nat) : State :=
  if s.pcsMode lane = 0 then (s.setReg (.clockLost lane) 0).toDown lane 0 .disable
  else (s.toDown lane 1 .restart).sdCheck lane

/-- The device has the lane, and its main domain runs. -/
def State.laneThere (s : State) (lane : Nat) : Bool := s.mainUp && lane < s.build.lanes

/-- SD_RISE (R94): LN_SD has held high. -/
def execSdRise (lane : Nat) (s : State) : Host.Outcome State Fault Refusal :=
  if s.laneThere lane ∧ s.regN (.clockLost lane) = 0 then .next ((s.wr (lnUnit lane) 0x5002 0 1).sdCheck lane) else .next s

/-- SD_FALL (R94): LN_SD has held low. Near-end loopback takes it as high. -/
def execSdFall (lane : Nat) (s : State) : Host.Outcome State Fault Refusal :=
  if s.laneThere lane then
    let s1 := s.wr (lnUnit lane) 0x5002 0 0
    .next (if s1.sdHigh lane then s1 else s1.sdDown lane)
  else .next s

/-- LANE_CLOCK_LOST (R97): the receive clock of a lane is lost, or its transmit clock (Table 3.1). -/
def execLaneClockLost (clock : LaneClock) (s : State) : Host.Outcome State Fault Refusal :=
  let m := s.regN (.clockLost clock.lane)
  if s.laneThere clock.lane ∧ s.pcsMode clock.lane ≠ 0 ∧ m.testBit clock.tx.toNat = false then
    let u := lnUnit clock.lane
    .next ((((((s.setReg (.clockLost clock.lane) (setBit m clock.tx.toNat true)).wr u 0x5002 0 0).bump u 0x8002 0 1).latch u 19)).sdDown
      clock.lane)
  else .next s

/-- LANE_CLOCK_RETURN (R97): once both clocks run the debounce starts again from low. -/
def execLaneClockReturn (clock : LaneClock) (s : State) : Host.Outcome State Fault Refusal :=
  let m := s.regN (.clockLost clock.lane)
  if s.laneThere clock.lane ∧ m.testBit clock.tx.toNat then
    .next ((s.setReg (.clockLost clock.lane) (setBit m clock.tx.toNat false)).sdCheck clock.lane)
  else .next s

/-- The base page that a lane advertises (R83). PRESUMED (log entry 5), the places of Clause 37: FD bit 5, HD bit 6, PS1 and PS2 bits 7 and 8, RF
bits 13:12, NP bit 15. -/
def State.basePage (s : State) (lane : Nat) : Nat := 2 ^ 5 + s.rd (lnUnit lane) 0x1003 0 % 4 * 2 ^ 7

/-- Clause 37 starts, or starts again: the lane advertises its base page (R83). DESIGN CHOICE (log entry 105): a committed change of `an_pause_adv` is
advertised from the next start on. -/
def State.negotiate (s : State) (lane : Nat) : State := (s.setReg (.anPage lane) (s.basePage lane)).startSync lane

/-- The receiver of a lane in ACQUIRE has sync (R98). -/
def State.synced (s : State) (lane : Nat) : State :=
  if s.rd (lnUnit lane) 0x1002 0 = 1 then (s.setLink lane 3 .sync).negotiate lane else s.toConfirm lane .sync

/-- SYNC_ACQUIRED (R98). While the hi-BER condition lasts, which counts as sync lost (R96), a lane stays in ACQUIRE: it goes on at its end. -/
def execSyncAcquired (lane : Nat) (s : State) : Host.Outcome State Fault Refusal :=
  if s.laneThere lane ∧ s.link lane = 2 then
    if s.regN (.hiBer lane) = 0 then .next (s.synced lane) else .next (s.setReg (.syncHeld lane) 1)
  else .next s

/-- The modes of Table 3.2 with 64b/66b coding (R96). -/
def State.is66 (s : State) (lane : Nat) : Bool := 3 ≤ s.pcsMode lane

/-- SYNC_LOST (R96, R98); `hiBer` where it is the entry into the hi-BER condition. -/
def execSyncLost (lane : Nat) (hiBer : Bool) (s : State) : Host.Outcome State Fault Refusal :=
  if s.laneThere lane ∧ 2 ≤ s.link lane then
    let s0 := if hiBer then s else s.setReg (.syncHeld lane) 0
    let s1 := if hiBer && s0.is66 lane && s0.regN (.hiBer lane) = 0 then (s0.setReg (.hiBer lane) 1).bump (lnUnit lane) 0x8005 0 1 else s0
    .next (if 3 ≤ s.link lane then s1.toAcquire lane .syncLost else s1)
  else .next s

/-- HI_BER_END (R96): a lane in ACQUIRE whose receiver has sync goes on. -/
def execHiBerEnd (lane : Nat) (s : State) : Host.Outcome State Fault Refusal :=
  if s.laneThere lane then
    let s1 := (s.setReg (.hiBer lane) 0).setReg (.syncHeld lane) 0
    .next (if s.link lane = 2 ∧ s.regN (.hiBer lane) = 1 ∧ s.regN (.syncHeld lane) = 1 then s1.synced lane else s1)
  else .next s

/-- AN_COMPLETE (R83, R98): `page` is the partner's base page; full duplex is its bit 5 (PRESUMED, log entry 5). -/
def execAnComplete (lane page : Nat) (s : State) : Host.Outcome State Fault Refusal :=
  if s.laneThere lane ∧ s.link lane = 3 then
    let s1 := s.wr (lnUnit lane) 0x5001 0 (page % 65536)
    if page.testBit 5 then .next (s1.toConfirm lane .fd)
    else .next ((s1.latch (lnUnit lane) 18).negotiate lane)
  else .next s

/-- `sync_timeout` runs out: counted, and it starts again (Table 3.8). -/
def State.syncExpire (s : State) (lane : Nat) : State :=
  let s1 := (s.bump (lnUnit lane) 0x8001 0 1).setReg (.syncHeld lane) 0
  if s.link lane = 3 then s1.negotiate lane else s1.startSync lane

/-- SYNC_TIMEOUT_EXPIRE (R98). -/
def execSyncTimeoutExpire (lane : Nat) (s : State) : Host.Outcome State Fault Refusal :=
  if s.mainUp ∧ (s.timer (.syncTimeout lane)).isSome then .next (s.wake.syncExpire lane) else .next s

/-- UP_HOLD_EXPIRE (R98). -/
def execUpHoldExpire (lane : Nat) (s : State) : Host.Outcome State Fault Refusal :=
  if s.mainUp ∧ (s.timer (.upHold lane)).isSome then .next (s.wake.upHoldOver lane) else .next s

/-- The effect of `link_restart` (R98). -/
def State.linkCommand (s : State) (lane : Nat) : State := if 2 ≤ s.link lane then s.toAcquire lane .command else s

/-- A write of `loopback` (Table 3.3): LN_SD is taken as high in near-end loopback, and as it is again after it. In far-end loopback nothing is
handed to the channels: DESIGN CHOICE (log entry 94), a frame in reception fails as where its lane leaves UP. -/
def State.loopbackWrite (s : State) (lane v : Nat) : State :=
  let s0 := if v = 2 then (s.laneChannels lane).foldl State.rxBroken s else s
  let s1 := s0.wr (lnUnit lane) 0x4000 0 v
  if s1.sdHigh lane then s1.sdCheck lane else s1.sdDown lane

/-- The ACTIVITY LED's interval ends (R399): after 40 ms low it is high for 40 ms at least. -/
def State.ledOver (s : State) (lane : Nat) : State :=
  if s.regN (.ledActive lane) = 1 then (s.setReg (.ledActive lane) 2).startTimer (.led lane) 250000
  else (s.stopTimer (.led lane)).setReg (.ledActive lane) 0

/-- LED_ACTIVITY_TIMER (R399). -/
def execLedActivityTimer (lane : Nat) (s : State) : Host.Outcome State Fault Refusal :=
  if s.mainUp ∧ (s.timer (.led lane)).isSome then .next (s.wake.ledOver lane) else .next s

end Sys2Proof.Machine
end

