-- ==== Sys2Proof/Machine/Scan.lean ====
section
/-! DEFINITION. The guard's stream entries as they are written (R268) and the scan engine (R273 to R277). -/
namespace Sys2Proof.Machine

/-- The width of a POLY in bits (Table 11.1). -/
def polyBits (p : Nat) : Nat := 8 * polyOctets p

/-- A host-owned job is DONE: SCAN_DONE, and with a result of 0x03 or above SCAN_FAIL, its count, its alarm and its record (R275). A
device-owned job tells its owner only (R277). -/
def State.jobTold (s : State) (j : Nat) : State :=
  let e := s.job j
  if jobOwner e then s
  else
    let s1 := (s.raise (causeScanDone j)).bump 0x00B 0x800D 0 1
    if jobResult e < 3 then s1
    else
      (((s1.raise (causeScanFail j)).bump 0x00B 0x800E 0 1).latch 0x00B 17).record 0x0B02 0x00B
        [(1, j), (1, jobSource e), (8, jobStart e), (4, jobLength e), (1, jobResult e), (4, jobValue e), (4, jobExpected e)]

/-- A job ends with a result (R275): VALUE and DONE_OCTETS stand as its octets have left them, and the data of a burst still to come is
dropped (R276). -/
def State.jobEnd (s : State) (j result : Nat) : State :=
  let s1 := s.dropOps (fun p => p = .scan j)
  State.jobTold { s1.setEnt 0x00B 0x6002 j (setJob (s.job j) 3 result 0) with jobQ := s.jobQ.filter (· ≠ j) } j

/-- A job whose source has delivered its whole range ends: a GUARDED one with MATCH or MISMATCH (R275). -/
def State.jobWhole (s : State) (j : Nat) : State :=
  let e := s.job j
  s.jobEnd j (if jobGuarded e then (if jobValue e = jobExpected e then 1 else 3) else 2)

/-- A job that is QUEUED or RUNNING ends with ABORTED (R276). -/
def State.jobAbort (s : State) (j : Nat) : State :=
  if jobState (s.job j) = 1 ∨ jobState (s.job j) = 2 then s.jobEnd j 8 else s

/-- Every job is aborted; device-owned ones with them where `all` (R276, R349). -/
def State.abortJobs (s : State) (all : Bool) : State :=
  [0, 1, 2, 3].foldl (fun s j => if all || !jobOwner (s.job j) then s.jobAbort j else s) s

/-- The effect of `scan_abort` (R276). -/
def State.scanAbort (s : State) (j : Nat) : Abort × State :=
  if 3 < j then (.range, s)
  else if jobState (s.job j) = 1 ∨ jobState (s.job j) = 2 then
    if jobOwner (s.job j) then (.busy, s) else (.ok, s.jobAbort j)
  else if jobOwner (s.job j) then (.busy, s)
  else (.ok, s)

/-- The lowest-numbered free engine, 1 to 3 (R273). -/
def State.freeEngine (s : State) : Option Nat :=
  [1, 2, 3].find? (fun n => !([0, 1, 2, 3].any (fun j => jobState (s.job j) = 2 && jobEngine (s.job j) = n)))

/-- A job starts on an engine (R273): its computation from the initial value of its POLY (Table 11.1). -/
def State.jobBegin (s : State) (j engine : Nat) : State :=
  (s.setEnt 0x00B 0x6002 j (setJob (s.job j) 2 0 engine)).setReg (.jobCrc j) ((crcOfPoly (jobPoly (s.job j))).init : Int)

/-- SCAN_JOB_START (R273): the first queued job starts on the lowest free engine, and one that reads host memory issues its first burst. -/
def execScanJobStart (s : State) : Host.Outcome State Fault Refusal := gathered s fun s =>
  match s.jobQ, s.freeEngine with
  | j :: rest, some n => if s.mainUp then .next (State.pump { s.jobBegin j n with jobQ := rest }) else .next s
  | _, _ => .next s

/-- The fields of a job entry are out of range (R273, Table 11.6). -/
def jobRange (v : Nat) : Bool :=
  jobSource v = 3 || field v 48 7 ≠ 0 || field v 34 6 ≠ 0 || field v 0 32 ≠ 0 || jobLength v = 0 || 2 ^ polyBits (jobPoly v) ≤ jobExpected v

/-- The source of a job is out of range, as checked at GO (R274): `density` is the discovered flash size, `table` what the check of a TABLE source
says. -/
def jobSourceBad (v density : Nat) (table : Abort) : Bool :=
  let start := jobStart v
  let len := jobLength v
  (jobSource v = 0 && 2 ^ 64 < start + len) || (jobSource v = 1 && (2 ^ 32 ≤ start || density < start + len))
    || (jobSource v = 2 && (2 ^ 60 ≤ start || table ≠ .ok))

/-- A write of a job entry whose TABLE source has been checked with `table` (R273, R274): one that is in use first, then its fields. -/
def State.jobWrite (s : State) (j v : Nat) (table : Abort) : Abort × State :=
  let e := s.job j
  if jobState e = 1 ∨ jobState e = 2 ∨ jobOwner e then (.busy, s)
  else if jobRange v then (.range, s)
  else if v.testBit 60 ∧ jobSourceBad v (s.rd 0x005 0x5002 0) table then (.range, s)
  else
    let go := v.testBit 60
    let w := setField (setField (setJob (setBit (setBit v 60 false) 61 false) (if go then 1 else 0) 0 0) 34 6 0) 192 64 0
    let s1 := s.setEnt 0x00B 0x6002 j w
    (.ok, if go then { s1.busyNow with jobQ := s1.jobQ ++ [j] } else s1)

/-- The entry that a job of the device itself takes (R277): the lowest that is IDLE or DONE and not held. -/
def State.freeJob (s : State) : Option Nat :=
  [0, 1, 2, 3].find? (fun j => !jobOwner (s.job j) && (jobState (s.job j) = 0 || jobState (s.job j) = 3))

/-- The entry of a job of the device itself: QUEUED, OWNER 1, the flash from `start` on under CRC-32C, GUARDED. -/
def deviceEntry (start len expected : Nat) : Nat :=
  1 * 2 ^ 62 + 2 ^ 61 + 1 * 2 ^ 58 + 1 * 2 ^ 56 + 2 ^ 55 + start * 2 ^ 64 + (len * 2 ^ 32 + expected) * 2 ^ 128

/-- A job of the device itself is queued, ahead of every queued host job (R277). -/
def State.submitJob (s : State) (j start len expected : Nat) : State :=
  { s.busyNow.setEnt 0x00B 0x6002 j (deviceEntry start len expected) with jobQ := j :: s.jobQ }

/-- The owner of a device job has acted on its result and releases the entry (R277). -/
def State.releaseJob (s : State) (j : Nat) : State := s.setEnt 0x00B 0x6002 j (setBit (s.job j) 61 false)

/-- A check of a mount (R345): one device job on a free engine, from its submission to its release, within the command that mounts. -/
def State.deviceCheck (s : State) (start expected : Nat) (octets : List Octet) : State :=
  match s.freeJob with
  | none => s
  | some j =>
    match s.freeEngine with
    | none => s
    | some n => ((((s.submitJob j start octets.length expected).jobBegin j n).jobTake j octets).jobWhole j).releaseJob j

/-- Another valid stream entry has the key of `v` (R268): VALID, PROFILE, ING_EP and STREAM_ID. -/
def State.streamTwin (s : State) (n v : Nat) : Bool :=
  (s.listed 0x00B 0x6001).any (fun p => p.1 ≠ n && p.2.testBit 63 && field p.2 32 16 = field v 32 16 && field p.2 49 11 = field v 49 11)

/-- The effect of a stream entry's write (R268): it is checked, and SYNCED, LAST, LAST_OUTCOME and the counts are reset. -/
def State.streamEntryWrite (s : State) (n v : Nat) : Abort × State :=
  if field v 60 2 ≠ 0 ∨ field v 48 1 ≠ 0 ∨ field v 0 21 ≠ 0 then (.range, s)
  else if !epPresent s.build (field v 49 7) then (.range, s)
  else if v.testBit 63 ∧ s.streamTwin n v then (.range, s)
  else (.ok, s.setEnt 0x00B 0x6001 n (setField (setField (setBit v 62 false) 21 11 0) 64 64 0))

/-- `streams_valid` (Table 11.8). -/
def State.streamsValid (s : State) : Nat := ((s.listed 0x00B 0x6001).filter (fun p => p.2.testBit 63)).length

end Sys2Proof.Machine
end

