-- ==== Sys2Proof/Machine/Flash.lean ====
section
/-! DEFINITION. The NOR flash as the block sees it through the NVM port (R338 to R344): a memory of octets, its erased value, its program
and erase, and the places of the Monument in it. -/
namespace Sys2Proof.Machine

/-- An erased octet of the flash: what an address that is not listed reads as (R344; log entry 22). -/
def Memory.erased : Octet := 0xFF

/-- The octet at an address. -/
def Memory.read (m : List Host.Cell) (a : Nat) : Octet :=
  match m with
  | [] => Memory.erased
  | c :: t => if c.1 = a then c.2 else if a < c.1 then Memory.erased else Memory.read t a

/-- An octet set. The list stays rising, and an erased octet is not listed. -/
def Memory.write (m : List Host.Cell) (a : Nat) (v : Octet) : List Host.Cell :=
  match m with
  | [] => if v = Memory.erased then [] else [(a, v)]
  | c :: t =>
    if c.1 < a then c :: Memory.write t a v
    else if c.1 = a then (if v = Memory.erased then t else (a, v) :: t)
    else if v = Memory.erased then c :: t
    else (a, v) :: c :: t

/-- The addresses of a list are above `lo`, strictly rising, and no octet is the erased one. -/
def Memory.rising : Nat → List Host.Cell → Bool
  | _, [] => true
  | lo, c :: t => (lo ≤ c.1 : Bool) && (c.2 ≠ Memory.erased : Bool) && Memory.rising (c.1 + 1) t

/-- The canonical form. -/
def Memory.wf (m : List Host.Cell) : Bool := Memory.rising 0 m

/-- Octets programmed from an address on: a program clears bits and sets none. -/
def Memory.program (m : List Host.Cell) (a : Nat) (l : List Octet) : List Host.Cell :=
  match l with
  | [] => m
  | o :: t => Memory.program (Memory.write m a (Memory.read m a &&& o)) (a + 1) t

/-- `n` octets from an address on erased. -/
def Memory.erase (m : List Host.Cell) (a n : Nat) : List Host.Cell := m.filter (fun c => (c.1 < a : Bool) || (a + n ≤ c.1 : Bool))

/-- `n` octets of the flash. -/
def State.flashRead (s : State) (a n : Nat) : List Octet := (List.range n).map (fun i => Memory.read s.flash (a + i))
def State.flashProgram (s : State) (a : Nat) (l : List Octet) : State := { s with flash := Memory.program s.flash a l }
def State.flashErase (s : State) (a n : Nat) : State := { s with flash := Memory.erase s.flash a n }
/-- The `n` octets from `a` on are erased. -/
def State.flashBlank (s : State) (a n : Nat) : Bool := s.flash.all (fun c => (c.1 < a : Bool) || (a + n ≤ c.1 : Bool))

/-- `monument.region_base`, in a 4 KiB sector (R342; log entry 20). -/
def regionBase : Nat := Config.regionSector.toNat * 4096
/-- The address of header slot `k` of copy `c`, 0 for A and 1 for B (R343). -/
def headerAddr (c k : Nat) : Nat := regionBase + 4096 * c + 64 * k
/-- The address of record slot `x` (R342). -/
def slotAddr (x : Nat) : Nat := regionBase + 8192 + 64 * x
def sectorAddr (sec : Nat) : Nat := regionBase + 8192 + 4096 * sec

/-- An octet string with its CRC-32C behind it. -/
def withCrc (l : List Octet) : List Octet := l ++ toMsb 4 (crc crc32c l)
/-- The last four octets are the CRC-32C of those before. -/
def crcGood (l : List Octet) : Bool := ofMsb (l.drop (l.length - 4)) = crc crc32c (l.take (l.length - 4))

/-- A header slot is valid (R343); a record slot is valid (R344). -/
def headerValid (l : List Octet) : Bool := beN l 0 4 = 0x4D4F4E31 && crcGood l
def recordValid (l : List Octet) : Bool := octet l 0 = 1 && crcGood l

/-- The newest valid slot of the header copies in `copies`, with the copy it is in (R343). -/
def State.newestHeader (s : State) (copies : List Nat) : Option (Nat × List Octet) :=
  (copies.flatMap (fun c => (List.range 64).map (fun k => (c, s.flashRead (headerAddr c k) 64)))).foldl
    (fun b h =>
      if !headerValid h.2 then b
      else match b with
        | some g => if newer32 (beN h.2 4 4) (beN g.2 4 4) then some h else some g
        | none => some h) none

/-- The header slot that an update writes (Table 15.5): HGEN + 1, BOOT_EPOCH, REC_SECTORS and the atlas area as they stand. -/
def State.headerSlot (s : State) : List Octet :=
  withCrc (toMsb 4 0x4D4F4E31 ++ toMsb 4 ((s.regN .hgen + 1) % 2 ^ 32) ++ toMsb 4 (s.rd 0x012 0x5001 0) ++ toMsb 2 (s.rd 0x005 0x5006 0)
    ++ toMsb 2 0 ++ toMsb 4 (if s.regN .atlasBase = 0 then 0xFFFFFFFF else s.regN .atlasBase - 1) ++ toMsb 4 (s.regN .atlasLimit)
    ++ toMsb 8 (s.rd 0x00D 0x5000 0) ++ List.replicate 28 0)

/-- The next free slot of copy A: the one after its last that is not erased; 64 for a full copy. -/
def State.headerFree (s : State) : Nat :=
  (List.range 64).foldl (fun n k => if s.flashBlank (headerAddr 0 k) 64 then n else k + 1) 0

/-- A header slot written into a copy, the copy erased first where it is full or the slot is not free. -/
def State.headerInto (s : State) (c k : Nat) (l : List Octet) (full : Bool) : State :=
  let s1 := if full || !s.flashBlank (headerAddr c k) 64 then s.flashErase (headerAddr c 0) 4096 else s
  s1.flashProgram (headerAddr c k) l

/-- A command that the port issues to the flash (R338, R340): it is an operation in progress, and breaks what IDLE asks for (R361). -/
def State.nvmCommand (s : State) (opcode : Nat) : State := s.busyNow.setReg .nvmOpcode (opcode : Int)

/-- A program or an erase behind its write enable (R338). PRESUMED (log entry 80): write enable is 0x06. -/
def State.nvmWrite (s : State) (opcode : Nat) : State := (s.nvmCommand 0x06).nvmCommand opcode

/-- The opcode of a page program (R338): 0x12 takes an address of 4 octets. -/
def State.programOpcode (s : State) : Nat := if s.regN .nvmAddressing = 1 then 0x12 else 0x02

/-- The opcode of a read in the read mode chosen, with 3-octet and with 4-octet addresses. PRESUMED (log entry 80): the spec names the modes, and
the opcodes are those that JESD216 flashes list for them. -/
def State.readOpcode (s : State) : Nat :=
  let long : Bool := s.regN .nvmAddressing = 1
  match s.rd 0x005 0x5003 0 with
  | 1 => if long then 0x3C else 0x3B
  | 2 => if long then 0xBC else 0xBB
  | 3 => if long then 0x6C else 0x6B
  | 4 => if long then 0xEC else 0xEB
  | _ => if long then 0x13 else 0x03

/-- A header update (R343): the next free slot of A, then the same slot of B. -/
def State.putHeader (s : State) : State :=
  let n := s.headerFree
  let k := n % 64
  let l := s.headerSlot
  let full : Bool := n = 64
  (((s.headerInto 0 k l full).headerInto 1 k l full).setReg .hgen (((s.regN .hgen + 1) % 2 ^ 32 : Nat) : Int)).nvmWrite s.programOpcode

/-- The operation that the port takes next (R341): a header update, an erase of the Monument's, then the others in their order. -/
def State.nextOp (s : State) : Option NvmOp :=
  match s.nvmQ.find? (fun o => o = .header) with
  | some o => some o
  | none =>
    match s.nvmQ.find? (fun o => match o with | .erase _ => true | .region _ _ _ _ _ => true | _ => false) with
    | some o => some o
    | none => s.nvmQ.head?

/-- A free port takes its next operation (R341), Monument programs first. -/
def State.portNext (s : State) : State :=
  let s := s.programStart
  if s.regN .nvmBegun = 1 ∨ s.regN .progCount ≠ 0 ∨ s.pfailFrozen then s
  else match s.nextOp with
    | none => s
    | some o => { s.setReg .nvmBegun 1 with nvmQ := o :: s.nvmQ.erase o }

/-- An operation is queued for the port. -/
def State.queueOp (s : State) (o : NvmOp) : State := State.portNext { s with nvmQ := s.nvmQ ++ [o] }

/-- The operation in progress has left the port, and those of `more` wait for it. -/
def State.portThen (s : State) (more : List NvmOp) : State := State.portNext { s.setReg .nvmBegun 0 with nvmQ := s.nvmQ.drop 1 ++ more }
def State.portDone (s : State) : State := s.portThen []

/-- The port does nothing, so a scan job may read (R274). -/
def State.portFree (s : State) : Bool := s.nvmQ = [] && s.regN .progCount = 0

/-- A header update waits for the port (R341). -/
def State.queueHeader (s : State) : State := if s.nvmQ.any (fun o => o = .header) then s else s.queueOp .header

/-- SCK is CCLK divided by the smallest even number of 16 or more that keeps within `mhz` MHz (R338). -/
def sckDivisor (mhz : Nat) : Nat := max 16 (2 * ceilDiv 800 mhz)

/-- The divisor in force: of `nvm_sck_max` (R338), of 25 MHz for the reading of SFDP (R339). -/
def State.nvmDivisor (s : State) : Nat := sckDivisor (if s.regN .nvmKnown = 0 then 25 else s.rd 0x005 0x1002 0)

end Sys2Proof.Machine
end

