-- ==== Sys2Proof/Machine/Monument.lean ====
section
/-! DEFINITION. The Monument (R339 to R348, R352, R356): discovery of the flash, mounting, the programs and erases of the NVM port, the
token bucket, and what the commands of the unit do. -/
namespace Sys2Proof.Machine

/-- `monument.nvm_state` (R339): 0 ABSENT, 1 DISCOVERING, 2 READY, 3 UNSUITED. -/
def State.nvmState (s : State) : Nat := s.rd 0x005 0x5001 0
def State.recSectors (s : State) : Nat := s.rd 0x005 0x5006 0
def State.headSlot (s : State) : Nat := s.rd 0x005 0x5007 0

/-- The NVM port works: the flash is READY, the main domain runs and no power-fail freeze holds. -/
def State.nvmOn (s : State) : Bool := s.mainUp && s.nvmState = 2 && !s.pfailFrozen

/-- The Monument may be mounted: the port works, or will with the restore that runs (R401). -/
def State.mayMount (s : State) : Bool := s.nvmOn || (s.restoring && s.nvmState = 2 && !s.pfailFrozen)

/-- The read modes that `nvm_io_max` allows, from the fastest on (R339, Table 15.11). -/
def modesAllowed (io : Nat) : List Nat := match io with | 0 => [] | 1 => [2, 1] | _ => [4, 3, 2, 1]

/-- The fastest read mode that the flash lists and `nvm_io_max` allows; 1-1-1 is always one (R339). -/
def readModeOf (modes io : Nat) : Nat := ((modesAllowed io).find? (fun m => modes.testBit m)).getD 0

/-- The addressing of a flash (R339): above 16 MiB 4-octet opcodes where they are listed, 4-octet mode otherwise. -/
def addressingOf (density : Nat) (addr4 : Bool) : Nat := if density ≤ 2 ^ 24 then 0 else if addr4 then 1 else 2

/-- Discovery begins with the reading of SFDP, in the first whole tick after a start (R339; DESIGN CHOICE, log entry 88). -/
def State.discoverStep (s : State) : State :=
  if s.regN .nvmKnown = 0 ∧ s.nvmState = 0 then (s.wr 0x005 0x5001 0 1).nvmCommand 0x5A else s

/-- What discovery leaves (R339). -/
def State.discovered (s : State) (f : SfdpResult) : State :=
  let s := (s.setReg .nvmKnown 1).nvmCommand 0x5A
  if !f.signature then s.wr 0x005 0x5001 0 0
  else if !f.erase4k ∨ f.density < regionBase + 66 * 4096 then s.wr 0x005 0x5001 0 3
  else
    let s1 := (((s.wr 0x005 0x5001 0 2).wr 0x005 0x5002 0 f.density).wr 0x005 0x5003 0
      (readModeOf f.readModes (s.rd 0x005 0x1001 0))).setReg .pageSize f.pageSize
    let s2 := ((s1.wr 0x005 0x5004 0 f.programMax).wr 0x005 0x5004 1 f.eraseMax).wr 0x005 0x5004 2 f.suspendMax
    let s3 := ((s2.setReg .nvmAddressing (addressingOf f.density f.addr4 : Nat)).setReg .eraseOpcode (f.eraseOpcode : Nat)).setReg .quadEnable
      (f.quadEnable : Nat)
    let s4 := (s3.setReg .programTyp (f.programTyp : Nat)).setReg .eraseTyp (f.eraseTyp : Nat)
    (s4.setReg .nvmSuspend (f.hasSuspend.toNat : Nat)).wr 0x005 0x5005 0
      ((if f.hasSuspend then f.suspendMax else f.eraseMax) + 3 * ceilDiv 256 f.pageSize * f.programMax)

/-- NVM_DISCOVERY (R339): it runs once after a start, in the restore or behind it (log entry 88). -/
def execNvmDiscovery (found : SfdpResult) (s : State) : Host.Outcome State Fault Refusal := gathered s fun s =>
  if (s.mainUp ∨ s.restoring) ∧ s.regN .nvmKnown = 0 then .next (s.discovered found) else .next s

/-- An operation is the Monument's own: not one of an access. -/
def NvmOp.own : NvmOp → Bool
  | .header => true
  | .erase _ => true
  | .region none _ _ _ _ => true
  | _ => false

/-- The Monument's own work is dropped; accesses still wait for the port. -/
def State.dropOwn (s : State) : State :=
  let begun : Bool := s.regN .nvmBegun = 1 && s.nvmQ.head?.any (fun o => !o.own)
  State.portNext { (s.setReg .progCount 0).setReg .nvmBegun (begun.toNat : Nat) with nvmQ := s.nvmQ.filter (fun o => !o.own) }

/-- A failed operation is counted; the third in a row puts the Monument in FAULT (R348): written, raised, and its work is dropped. -/
def State.monFail (s : State) (cls addr : Nat) : State :=
  let n := s.regN .nvmFails + 1
  let s1 := s.setReg .nvmFails (n : Int)
  if n < 3 ∨ s1.regN .monFault = 1 then s1
  else ((s1.setReg .monFault 1).dropOwn.record 0x0F15 0x005 [(1, cls), (4, addr % 2 ^ 32)]).raise causeMonumentEvent

/-- An NVM operation has ended well: the failures in a row end (R348). -/
def State.nvmGood (s : State) : State := s.setReg .nvmFails 0

/-- The erase of a record sector waits for the port, unless the sector is blank (R345, R346). -/
def State.queueErase (s : State) (sec : Nat) : State :=
  if s.flashBlank (sectorAddr sec) 4096 || s.nvmQ.any (fun o => o = .erase sec) then s else s.queueOp (.erase sec)

/-- The sector that holds the head (R345 step 2): the one whose slot 0 holds the highest valid MSEQ, the first where none does. -/
def State.headSector (s : State) (n : Nat) : Nat :=
  let best : Option (Nat × Nat) := (List.range n).foldl
    (fun b k =>
      let l := s.flashRead (slotAddr (64 * k)) 64
      if !recordValid l then b
      else match b with
        | some x => if x.2 < beN l 6 4 then some (k, beN l 6 4) else some x
        | none => some (k, beN l 6 4)) none
  match best with
  | some x => x.1
  | none => 0

/-- A slot of the flash is erased. -/
def State.slotBlank (s : State) (x : Nat) : Bool := s.flashBlank (slotAddr x) 64

/-- The slots of a sector that lie before its last slot that is not erased, that one included. -/
def State.usedSlots (s : State) (sec : Nat) : Nat := (List.range 64).foldl (fun n i => if s.slotBlank (64 * sec + i) then n else i + 1) 0

/-- Records still pending are moved to the slots from the head on, as far as two pages hold them; the rest is dropped. -/
def State.reslot (s : State) : State :=
  let head := s.headSlot
  let n := s.monSlots
  let moved := s.monQ.zipIdx.map (fun p => { p.1 with slot := (head + p.2) % n })
  let kept := moved.filter (fun m => (m.slot / 4 + n / 4 - head / 4) % (n / 4) ≤ 1)
  (({ s.setReg .progCount 0 with monQ := kept }.bump 0x005 0x8002 0 (moved.length - kept.length)).wr 0x005 0x500A 0 kept.length).portNext

/-- A slot of 64 octets whose last four are its CRC is checked by a job of the device (R277, R345). -/
def State.slotCheck (s : State) (a : Nat) : State :=
  let l := s.flashRead a 64
  s.deviceCheck a (beN l 60 4) (l.take 60)

/-- The jobs of a check of slots, one after the other. -/
def State.slotChecks (s : State) (l : List Nat) : State := l.foldl State.slotCheck s

/-- A job of the device can be made now: an entry and an engine are free (R273, R277). -/
def State.mayCheck (s : State) : Bool := s.freeJob.isSome && s.freeEngine.isSome

/-- The Snowdrop record `q` is offered to the Monument (R337, R346): its payload is P0, P1 and TIME. -/
def State.offerSd (s : State) (q : Nat) : State :=
  let l := toLsb 16 (s.ent 0x004 0x6002 (q % 256))
  let r := s.offer (be16 l 2) (be16 l 8 % 4096) ((l.drop 12).take 4 ++ (l.drop 4).take 4) .sd q (octet l 10) s.time48 false
  { r.2 with lastSd := r.2.lastSd.map (fun x => if x.seq = q then { x with taken := r.1 = Offered.taken } else x) }

/-- An event of the stay that has folded into a Snowdrop record of an earlier one is offered (R332). -/
def State.offerFolded (s : State) : State :=
  let x := s.regN .sdFolded
  let s1 := s.setReg .sdFolded 0
  if x = 0 then s1 else if 2 ^ 16 < x then s1.offerFold .sd (x - 2 ^ 16 - 1) else s1.offerSd (x - 1)

/-- The Snowdrop records from `first` up to `next` are offered (R337): the ring holds the last 256. -/
def State.offerStay (s : State) (first next : Nat) : State :=
  let n := (next + 65536 - first) % 65536
  ((List.range n).drop (n - 256)).foldl (fun s i => s.offerSd ((first + i) % 65536)) s.offerFolded

/-- What has waited for the mount is offered. -/
def State.offerWaiting (s : State) : State :=
  if s.regN .sdOffer = 0 then s else (s.offerStay (s.regN .sdOffer - 1) (s.regN .sdUntil)).setReg .sdOffer 0

/-- Steps 2 to 5 of a mount under a header in force (R345). -/
def State.mountRecords (s : State) (n : Nat) : State :=
  let sec := s.headSector n
  let used := s.usedSlots sec
  let slots := (List.range used).map (fun i => 64 * sec + i)
  let good := slots.filter (fun x => recordValid (s.flashRead (slotAddr x) 64))
  let partials := (slots.filter (fun x => !s.slotBlank x)).length - good.length
  let next : Nat := (good.map (fun x => beN (s.flashRead (slotAddr x) 64) 6 4 + 1)).foldl max 0 % 2 ^ 32
  let head := (64 * sec + used) % (64 * n)
  let s1 := (((s.wr 0x005 0x5006 0 n).wr 0x005 0x5007 0 head).wr 0x005 0x5008 0 next).bump 0x005 0x8005 0 partials
  let checked := (((List.range n).map (fun k => 64 * k) ++ slots).map slotAddr).filter (fun a => Memory.read s.flash a = 1)
  let s2 := (s1.slotChecks checked).reslot.queueErase ((sec + 1) % n)
  ((s2.record 0x0F10 0x005 [(4, head), (4, next), (4, s2.rd 0x012 0x5001 0), (4, partials)]).raise causeMonumentEvent).offerWaiting

/-- The fields of a header in force are taken (R343); at the first mount after a start BOOT_EPOCH is incremented and written (R71), and
an atlas that the header names is to be loaded (R355). -/
def State.takeHeader (s : State) (epoch base limit hgen : Nat) : State :=
  let s1 := ((s.setReg .hgen (hgen : Int)).setReg .atlasBase (if base = 0xFFFFFFFF then 0 else (base : Int) + 1)).setReg .atlasLimit (limit : Int)
  if s.rd 0x012 0x5001 0 ≠ 0 then s1
  else
    let s2 := (s1.wr 0x012 0x5001 0 ((epoch + 1) % 2 ^ 32)).queueHeader
    if base = 0xFFFFFFFF then s2 else s2.wr 0x005 0x500B 0 1

/-- The header slots whose CRC a mount checks (R343): those with MAGIC. -/
def State.headersToCheck (s : State) : List Nat :=
  ([0, 1].flatMap (fun c => (List.range 64).map (headerAddr c))).filter (fun a => beN (s.flashRead a 4) 0 4 = 0x4D4F4E31)

/-- A mount (R345): one that finds a blank region has it formatted first, with 64 record sectors. -/
def State.mount (s : State) : State :=
  let s := ((s.setReg .mountDue 0).slotChecks s.headersToCheck).nvmCommand s.readOpcode
  match s.newestHeader [0, 1] with
  | some h => (s.takeHeader (beN h.2 8 4) (beN h.2 16 4) (beN h.2 20 4) (beN h.2 4 4)).mountRecords (beN h.2 12 2)
  | none =>
    if !s.flashBlank regionBase 8192 then s.setReg .monFault 1
    else if s.nvmQ.any NvmOp.formats then s
    else s.queueOp (.region none 0 66 64 true)

/-- A mount is to be made: of a start, or for `monument.restart` while no job could be made; not while its format runs. -/
def State.mountPending (s : State) : Bool :=
  (s.rd 0x012 0x5001 0 = 0 && s.regN .monFault = 0 && !s.nvmQ.any NvmOp.formats) || s.regN .mountDue = 1

/-- MONUMENT_MOUNT (R345): the mount of a start. Its checks need a job entry and an engine (R277). -/
def execMonumentMount (s : State) : Host.Outcome State Fault Refusal := gathered s fun s =>
  if s.mayMount ∧ s.mountPending ∧ s.mayCheck then .next s.mount else .next s

/-- The effect of `monument.restart` (R348): the mount is made again, as soon as its checks can be made. -/
def State.monRestart (s : State) : State :=
  if s.nvmOn then
    let s1 := (s.setReg .monFault 0).setReg .nvmFails 0
    if s.mayCheck then s1.mount else s1.setReg .mountDue 1
  else s

/-- The head moves behind the slots of a program, and the following sector's erase starts with slot 0 (R346). -/
def State.headPast (s : State) (g : List MonPending) : State :=
  match g.getLast? with
  | some m =>
    let s1 := s.wr 0x005 0x5007 0 ((m.slot + 1) % s.monSlots)
    if g.any (fun x => x.slot % 64 = 0) then s1.queueErase ((m.slot / 64 + 1) % s.recSectors) else s1
  | none => s

/-- `pending` follows the queue (R346). -/
def State.monCount (s : State) : State := s.wr 0x005 0x500A 0 s.monQ.length

/-- The pending records of a page are programmed and read back well (R346). -/
def State.programGroup (s : State) (g : List MonPending) : State :=
  let s1 := g.foldl (fun s m => s.flashProgram (slotAddr m.slot) (withCrc m.octets)) s
  (State.monCount ({ s1 with monQ := s1.monQ.filter (fun m => !g.contains m) }.bump 0x005 0x8000 0 g.length |>.headPast g)).nvmWrite s.programOpcode

/-- A slot whose program has failed is partial (R348): FORMAT is not 0x01; what else it holds is a free value (log entry 21). -/
def State.spoilSlot (s : State) (x : Nat) : State :=
  let (f, s1) := s.takeFree
  s1.flashProgram (slotAddr x) (patch (toMsb 64 (Config.partialSlot f).toNat) 0 [0])

/-- A record whose program has failed is queued once more at the next free slot, or dropped (R348). -/
def State.retryRecord (s : State) (m : MonPending) : State :=
  let x := s.monFreeSlot
  if m.tries = 0 ∧ s.monAccepts x then { s with monQ := s.monQ ++ [{ m with slot := x, tries := 1 }] } else s.bump 0x005 0x8004 0 1

/-- A program or its read-back has failed (R348), an operation of class `cls`. -/
def State.programFailed (s : State) (g : List MonPending) (cls : Nat) : State :=
  let s1 := g.foldl (fun s m => s.spoilSlot m.slot) s
  let s2 := State.headPast { s1 with monQ := s1.monQ.filter (fun m => !g.contains m) } g
  let s3 := g.foldl State.retryRecord s2
  s3.monCount.monFail cls (match g with | m :: _ => slotAddr m.slot | [] => 0)

/-- The records of the program in progress (R346). -/
def State.progGroup (s : State) : List MonPending := s.monQ.take (s.regN .progCount)

/-- The program in progress has ended, and the port goes on (R341). -/
def State.programEnd (s : State) (ok : Bool) (cls : Nat) : State :=
  let g := s.progGroup
  let s1 := if ok then (s.programGroup g).nvmGood else s.programFailed g cls
  (s1.setReg .progCount 0).portNext

/-- MONUMENT_PROGRAM (R346): the slots of the program in progress are programmed and read back. -/
def execMonumentProgram (ok : Bool) (s : State) : Host.Outcome State Fault Refusal := gathered s fun s =>
  if s.nvmOn ∧ s.monUp ∧ s.progGroup ≠ [] then .next (s.programEnd ok 2) else .next s

/-- An operation has timed out (R340): the flash is reset, it is counted, latched, recorded. -/
def State.timedOut (s : State) (cls addr : Nat) : State :=
  (((s.nvmCommand 0x99).bump 0x005 0x8006 0 1).latch 0x005 19).record 0x0F14 0x005 [(1, cls), (4, addr % 2 ^ 32)]

/-- The token bucket gains one (R347). -/
def State.tokenGain (s : State) : State :=
  (s.wr 0x005 0x5009 0 (min 512 (s.rd 0x005 0x5009 0 + 1))).startTimer .token 12500000

/-- TOKEN_ACCRUE (R347). -/
def execTokenAccrue (s : State) : Host.Outcome State Fault Refusal := gathered s fun s => if (s.timer .token).isSome then .next s.wake.tokenGain else .next s

/-- The hour since the first drop ends (R347). -/
def State.hourOver (s : State) : State :=
  let n := min 0xFFFFFFFF (s.regN .hourDrops)
  let v := s.regN .hourSeverity
  let s1 := ((s.stopTimer .budgetHour).setReg .hourDrops 0).setReg .hourSeverity 0
  ((s1.record 0x0F11 0x005 [(4, n), (1, v)] true).raise causeMonumentEvent).latch 0x005 16

/-- BUDGET_HOUR_EXPIRE (R347). -/
def execBudgetHourExpire (s : State) : Host.Outcome State Fault Refusal := gathered s fun s =>
  if (s.timer .budgetHour).isSome then .next s.wake.hourOver else .next s

/-- The effect of `monument.format` (Table 15.11): the region is erased, a sector at a time as the port comes to it (R341), and a header with
HGEN + 1 is written. Without a READY flash there is nothing to erase. -/
def State.monFormat (s : State) (a : Agent) (n : Nat) : Option Abort × State :=
  if n < 8 ∨ 1024 < n then (some .range, s)
  else if s.pfailFrozen then (some .busy, s)
  else if !s.nvmOn then (some .ok, s)
  else (none, s.dropOwn.queueOp (.region (some a) 0 (2 + max n s.recSectors) n false))

/-- The agent whose write an operation is part of. -/
def NvmOp.writer : NvmOp → Option Agent
  | .image a _ _ => a
  | .area a _ => a
  | .region a _ _ _ _ => a
  | _ => none

/-- A write's access ends with its last operation. -/
def State.writerDone (s : State) (who : Option Agent) : State :=
  match who with
  | some a => if s.nvmQ.any (fun o => o.writer = some a) then s else s.finish a .ok
  | none => s

/-- Octets of the atlas area have been programmed. -/
def State.imageDone (s : State) (who : Option Agent) (x : Nat) (l : List Octet) : State :=
  ((s.portDone.flashProgram x l).nvmWrite s.programOpcode).writerDone who

/-- A step of a format has ended well: a sector is erased and the next is to be; behind the last a mount goes on with 64 record sectors (R345), a
`format` writes its header, which keeps BOOT_EPOCH and the atlas fields (Table 15.11). -/
def State.regionDone (s : State) (who : Option Agent) (k total n : Nat) (first : Bool) : State :=
  if k < total then
    let s1 := (s.flashErase (regionBase + 4096 * k) 4096).nvmWrite (s.regN .eraseOpcode)
    if first ∧ k + 1 = total then ((s1.portDone.takeHeader 0 0xFFFFFFFF 0 0).queueHeader).mountRecords n
    else s1.portThen [.region who (k + 1) total n first]
  else
    let s1 := { s.setReg .nvmBegun 0 with nvmQ := s.nvmQ.drop 1 }
    ((((s1.wr 0x005 0x5006 0 n).wr 0x005 0x5007 0 0).dropOwn).reslot.putHeader).writerDone who

/-- The program in progress that is none of records completes (R349); an erase does not. -/
def State.otherProgramEnds (s : State) : State :=
  if s.regN .nvmBegun = 0 ∨ s.regN .progCount ≠ 0 then s
  else match s.nvmQ.head? with
    | some .header => s.portDone.putHeader
    | some (.image who x l) => s.imageDone who x l
    | some (.region who k total n first) => if k < total then s else s.regionDone who k total n first
    | _ => s

/-- The effect of `atlas_set` (R356). -/
def State.atlasSet (s : State) (base limit : Nat) : Abort × State :=
  let clash : Bool := base < regionBase + (2 + s.recSectors) * 4096 && regionBase < base + limit
  if s.rd 0x005 0x5002 0 < base + limit ∨ clash then (.range, s)
  else (.ok, ((s.setReg .atlasBase ((base : Int) + 1)).setReg .atlasLimit (limit : Int)).queueHeader)

/-- The effect of `atlas_erase` (R356): the 4 KiB sectors of the area are erased one after the other, as the port comes to them (R341). -/
def State.atlasErase (s : State) (a : Agent) : Option Abort × State :=
  let base := s.regN .atlasBase - 1
  let lo := base / 4096
  let n := ceilDiv (base + s.regN .atlasLimit) 4096 - lo
  if s.pfailFrozen then (some .busy, s)
  else if s.regN .atlasBase = 0 ∨ !s.nvmOn ∨ n = 0 then (some .ok, s)
  else (none, (List.range n).foldl (fun s k => s.queueOp (.area (some a) ((lo + k) * 4096))) s)

/-- A write of octets into the flash waits for the port (R341); it joins one that waits for the octets before, within their page. -/
def State.queueImage (s : State) (a : Agent) (addr : Nat) (octets : List Octet) : State :=
  match s.nvmQ.getLast? with
  | some (.image (some b) x l) =>
    if b = a ∧ x + l.length = addr ∧ x / s.regN .pageSize = addr / s.regN .pageSize ∧ 1 < s.nvmQ.length then
      { s with nvmQ := s.nvmQ.dropLast ++ [.image (some a) x (l ++ octets)] }
    else s.queueOp (.image (some a) addr octets)
  | _ => s.queueOp (.image (some a) addr octets)

/-- A write of entry `e` of `atlas_image` (R356): the octets are to be programmed behind ATLAS_BASE, within the area. -/
def State.atlasWrite (s : State) (a : Agent) (e : Nat) (octets : List Octet) : Option Abort × State :=
  if s.regN .atlasBase = 0 ∨ s.regN .atlasLimit < 8 * e + 8 then (some .range, s)
  else if s.pfailFrozen then (some .busy, s)
  else if !s.nvmOn then (some .ok, s)
  else (none, s.queueImage a (s.regN .atlasBase - 1 + 8 * e) octets)

/-- An octet of the Monument's tables as a data-port read gives it (R352): a record slot's, the headers', the atlas area's. -/
def State.monOctet (s : State) (idx o : Nat) : Octet :=
  if idx = 0x6000 then Memory.read s.flash (slotAddr 0 + o)
  else if idx = 0x6002 then
    if s.regN .atlasBase = 0 ∨ s.regN .atlasLimit ≤ o then 0 else Memory.read s.flash (s.regN .atlasBase - 1 + o)
  else
    match s.newestHeader [0, 1] with
    | none => Memory.erased
    | some h =>
      if o < 64 then h.2.getD o 0
      else match s.newestHeader [1 - h.1] with
        | some g => g.2.getD (o - 64) 0
        | none => Memory.erased

end Sys2Proof.Machine
end

