-- ==== Sys2Proof/Machine/Freeze.lean ====
section
/-! DEFINITION. The freezes of the field book, for a reader (R335) and for power fail (R336, R349, R350), and how recording goes over to
Snowdrop and comes back (R337). -/
namespace Sys2Proof.Machine

/-- A bit of `fieldbook.state` set. -/
def State.setFb (s : State) (b : Nat) (v : Bool) : State := s.flushHeld.wr 0x004 0x5000 0 (setBit s.fbState b v)

/-- The fixed records of FB_GAP are counted anew: a freeze begins on a book that no freeze held. -/
def State.gapReset (s : State) : State := if s.fbState % 4 = 0 then (s.setReg .gapFirst 0).setReg .gapCount 0 else s

/-- The book has thawed: one FB_GAP covers the fixed records written since the freeze, if there are any (R335). -/
def State.gapRecord (s : State) : State :=
  if s.fbState % 4 ≠ 0 ∨ s.regN .gapCount = 0 then s
  else
    let first := s.regN .gapFirst - 1
    let last := (s.rd 0x004 0x5005 0 + 65535) % 65536
    let n := min 0xFFFFFFFF (s.regN .gapCount)
    ((s.setReg .gapFirst 0).setReg .gapCount 0).record 0x0F01 0x004 [(2, first), (2, last), (4, n)]

/-- FB_FREEZE (R335): `freeze_limit` starts, or starts again. -/
def State.freezeBook (s : State) : State :=
  ((s.gapReset.wr 0x004 0x4000 0 1).setFb 0 true).startTimer .freezeLimit (s.rd 0x004 0x1001 0 * 6250000)

/-- FB_THAW (R335): the reader's freeze ends. -/
def State.thawBook (s : State) : State :=
  let s1 := (s.wr 0x004 0x4000 0 0).stopTimer .freezeLimit
  if s.fbState.testBit 0 then (s1.setFb 0 false).gapRecord else s1

/-- `freeze_limit` reaches 0: the book thaws by itself (R334, R335). -/
def State.autoThaw (s : State) : State := (s.thawBook.bump 0x004 0x8004 0 1).raise causeFbEvent

/-- FREEZE_LIMIT_EXPIRE (R335). -/
def execFreezeLimitExpire (s : State) : Host.Outcome State Fault Refusal := gathered s fun s =>
  if (s.timer .freezeLimit).isSome then .next s.wake.autoThaw else .next s

/-- Every pending record is programmed, a page at a time (R349): there are at most 8. PFAIL_FALL commits them within the row (DEDUCED, log
entry 36). -/
def State.commitPending : Nat → State → State
  | 0, s => s
  | n + 1, s => if s.monQ = [] then s else State.commitPending n (s.programGroup s.pageGroup)

/-- Every data-port read of the flash is stopped and ends with BUSY (R349). -/
def State.stopReads (s : State) : State :=
  let begun : Bool := s.regN .nvmBegun = 1 && !s.nvmQ.head?.any NvmOp.reads
  let s1 := { s.setReg .nvmBegun (begun.toNat : Nat) with nvmQ := s.nvmQ.filter (fun o => !o.reads) }
  s.nvmQ.foldl (fun s o => match o with | .read a _ => (s.dpHold a .busy).finish a .busy | _ => s) s1

/-- The power-fail freeze and commit (R336, R349). -/
def State.pfailAct (s : State) : State :=
  let s1 := ((s.gapReset.setFb 1 true).setReg .freezeTick s.tick).record 0x0F12 0x005 [] true |>.flushHeld
  let s2 := (s1.otherProgramEnds.stopReads.abortJobs true).setReg .progCount 0
  let s3 := if s2.erasing then s2.setReg .eraseSuspended 1 else s2
  let s4 := if s3.monUp then (s3.commitPending 8).bump 0x005 0x8003 0 1 else s3
  s4.setReg .pfailDone 1

/-- PFAIL_FALL (R349): the filtered fall. In a low-power mode the main logic acts on it after the return. -/
def execPfailFall (s : State) : Host.Outcome State Fault Refusal := gathered s fun s =>
  if s.regN .pfailLow = 1 ∨ !s.snowdropUp then .next s
  else
    let s1 := s.wake.setReg .pfailLow 1
    .next (if s1.mainUp then s1.pfailAct else s1)

/-- Power has returned without loss (R350). -/
def State.pfailOver (s : State) : State :=
  if s.regN .pfailDone = 0 then s.setReg .pfailLow 0
  else
    let n := min 0xFFFFFFFF (s.tick - s.regN .freezeTick)
    let s1 := ((s.record 0x0F13 0x005 [(4, n)]).setReg .pfailLow 0).setReg .pfailDone 0
    (((s1.setFb 1 false).gapRecord).setReg .eraseSuspended 0).portNext

/-- PFAIL_RECOVER (R350): PFAIL_N has stayed high for `pfail_recover`. -/
def execPfailRecover (s : State) : Host.Outcome State Fault Refusal := gathered s fun s =>
  if s.regN .pfailLow = 1 ∧ s.snowdropUp then .next s.pfailOver else .next s

/-- The entries of a table at their reset values. -/
def State.clearTable (s : State) (u idx : Nat) : State := { s with tab := s.tab.filter (fun e => !(e.1.unit = u && e.1.idx = idx)) }

/-- The variable ring emptied: SEQ continues (R337). -/
def State.emptyVar (s : State) : State :=
  { (((s.clearTable 0x004 0x6000).wr 0x004 0x5003 0 0).wr 0x004 0x5004 0 0).wr 0x004 0x5002 0 (s.rd 0x004 0x5001 0) with lastVar := none }

/-- The fixed ring emptied: FSEQ continues (R337). -/
def State.emptyFixed (s : State) : State :=
  { (((s.clearTable 0x004 0x6001).setReg .fixedHeld 0).setReg .gapFirst 0).setReg .gapCount 0 with lastFixed := none }

/-- Recording goes over to Snowdrop (R337). -/
def State.bookSleep (s : State) (deep : Bool) : State :=
  let s1 := ((s.setFb 2 true).setReg .sdFirst 0).setReg .sdEvent 0
  if deep then s1.emptyVar.emptyFixed else s1

/-- The records of a stay, from FSEQ `first` on, are offered, or wait for the mount where the Monument is not up (R337, R345). -/
def State.stayOffers (s : State) (first : Nat) : State :=
  let next := s.rd 0x004 0x5006 0
  if !s.monUp then (s.setReg .sdOffer ((first : Int) + 1)).setReg .sdUntil (next : Int) else s.offerStay first next

/-- What the Snowdrop ring has taken outside a stay is offered (R328). -/
def State.bookOffers (s : State) : State :=
  if s.regN .sdFirst = 0 ∧ s.regN .sdFolded = 0 then s
  else
    let s1 := s.stayOffers (if s.regN .sdFirst = 0 then s.rd 0x004 0x5006 0 else s.regN .sdFirst - 1)
    let s2 := if s1.regN .sdEvent = 1 then s1.raise causeFbEvent else s1
    (s2.setReg .sdEvent 0).setReg .sdFirst 0

/-- Recording comes back at the end of a return (R334, R337): FB_SLEEP_SUMMARY with the mode of the stay and its SD_CLK periods, a free
value (log entry 8), then the records of the stay are offered. A stay without a record names the next FSEQ and the one before it. -/
def State.bookReturn (s : State) (mode : Nat) : State :=
  let next := s.rd 0x004 0x5006 0
  let first := if s.regN .sdFirst = 0 then next else s.regN .sdFirst - 1
  let (f, s1) := s.takeFree
  let s2 := s1.setFb 2 false
  let s3 := s2.record 0x0F02 0x004 [(1, mode), (2, first), (2, (next + 65535) % 65536), (4, (Config.sdPeriods f).toNat)] |>.flushHeld
  let s4 := if mode = 5 then s3.stayOffers first else s3.offerStay first next
  let s5 := if s4.regN .sdEvent = 1 then s4.raise causeFbEvent else s4
  (s5.setReg .sdEvent 0).setReg .sdFirst 0

end Sys2Proof.Machine
end

