-- ==== Sys2Proof/Machine/Tables.lean ====
section
/-! DEFINITION. The classifier's tables as they are written (R129 to R133, R138, R141, R143, R147, R148, R150), the editions (R134 to
R137), the survey (R139) and the flow sweeper (R145). -/
namespace Sys2Proof.Machine

/-- An agent as a number: 1 H, 2 M, 3 F in bits 15:8, its slot or processor below. -/
def agentNum (a : Agent) : Nat := (match a.kind with | .host => 1 | .manager => 2 | .fabric => 3) * 256 + a.slot % 256
/-- The agent of such a number. -/
def agentOf (c : Nat) : Agent := ⟨if c / 256 = 2 then .manager else if c / 256 = 3 then .fabric else .host, c % 256⟩

/-- A range of queues from `base` on, of 2^`span`, ends within the build's. -/
def spanGood (b : Build) (base span : Nat) : Bool := span ≤ 11 && base + 2 ^ span ≤ b.queues

/-- An action is in range (R132, Table 5.7); fields that it does not use are not checked. -/
def actionGood (b : Build) (a : Nat) : Bool :=
  let t := actTarget a
  actDest a ≤ 4 && actFlow a ≠ 3 && actTstamp a ≠ 3 && field a 0 4 = 0
    && (match actDest a with
        | 1 => t ≠ Config.hostEp && epPresent b t
        | 3 => t < b.rings
        | _ => true)
    && spanGood b (actQueue a) (actSpan a) && actGuard a ≤ 16 && actPolicer a ≤ b.policers
    && (!actMirrorEn a || epPresent b (actMirrorEp a))

/-- A Legend entry is in range (R129, Table 5.6). -/
def legendGood (i v : Nat) : Bool := field v 643 61 = 0 && field v 704 64 = 0 && !(i % 2 = 1 && legChain v)

/-- A menu code of field A, of field B (Table 5.10). -/
def menuGood (code : Nat) (asB : Bool) : Bool := code ≤ 13 && !(asB && (code = 1 || code = 2))

/-- A Contour entry is in range (R140, Table 5.11). -/
def contourGood (v : Nat) : Bool := menuGood (field v 60 4) false && menuGood (field v 56 4) true && field v 2 46 = 0 && field v 128 32 = 0

/-- The way `i` belongs to an even way that says V6 (log entry 23): it holds addresses and no other field. -/
def State.v6Odd (s : State) (i : Nat) : Bool := i % 2 = 1 && (s.ent 0x008 0x6000 (i - 1)).testBit 254

/-- The hash of the tuple that a flow entry's fields give (R143); `pair` is the odd way's content for an IPv6 entry. -/
def entryHash (seed e pair : Nat) : Nat :=
  let v6 := e.testBit 254
  let adr := if v6 then toMsb 32 pair else toMsb 4 (field e 205 32) ++ toMsb 4 (field e 173 32)
  crcFrom crc32c (0xFFFFFFFF ^^^ seed)
    (toMsb 1 (field e 245 7) ++ toMsb 1 (field e 237 8) ++ adr ++ toMsb 2 (field e 157 16) ++ toMsb 2 (field e 141 16))

/-- A flow entry is in range (R150, Table 5.13). DESIGN CHOICE (log entry 108): the bucket of an IPv6 entry is checked with the odd way as it stands in the
table at the access. -/
def State.flowGood (s : State) (i v : Nat) : Bool :=
  if s.v6Odd i then true
  else
    let b := flowBuckets s.build (entryHash (s.rd 0x008 0x1001 0) v (s.ent 0x008 0x6000 (i + 1)))
    field v 0 7 = 0 && !(v.testBit 254 && (i % 2 = 1 || field v 173 64 ≠ 0)) && field v 130 11 ≤ s.build.policers
      && field v 119 11 < s.build.queues && (!v.testBit 255 || i / 4 = b.1 || i / 4 = b.2)

/-- A policer entry is in range (R148, Table 5.14). -/
def policerGood (v : Nat) : Bool :=
  field v 62 2 ≠ 3 && field v 59 2 ≠ 3 && field v 57 2 ≠ 3 && field v 55 2 ≠ 3 && field v 0 55 = 0 && field v 64 32 ≤ 100000000
    && field v 96 32 ≤ 100000000 && field v 128 32 ≤ 16777216 && field v 160 32 ≤ 16777216
    && !(field v 62 2 = 1 && field v 96 32 < field v 64 32)

/-- The effect of a policer entry's write (R148): both levels are at their burst sizes. -/
def State.policerEntryWrite (s : State) (n v : Nat) : Abort × State :=
  if policerGood v then (.ok, ((s.setEnt 0x008 0x6001 n (v % 2 ^ 192)).setReg (.bucketC n) 0).setReg (.bucketP n) 0) else (.range, s)

/-- A policer entry as it reads, with its levels in whole bytes. -/
def State.policerEntry (s : State) (n : Nat) : Nat :=
  s.ent 0x008 0x6001 n + unsigned 32 (s.levelC n / 65536) * 2 ^ 192 + unsigned 32 (s.levelP n / 65536) * 2 ^ 224

/-- An endpoint set is in range (R133). -/
def endpointSetGood (b : Build) (v : Nat) : Bool :=
  field v 67 61 = 0 && (List.range 67).all (fun ep => !v.testBit ep || epPresent b ep)

/-- The table is one of those whose writes pass through the update queue (R138). -/
def queuedTable (u idx : Nat) : Bool :=
  (u = 6 && (idx = 0x6000 || idx = 0x6001)) || (u = 7 && (idx = 0x6000 || idx = 0x6001)) || (u = 8 && idx = 0x6000)

/-- A write to such a table is in range. -/
def State.updateGood (s : State) (u idx i v : Nat) : Bool :=
  if u = 8 then s.flowGood i v
  else if idx = 0x6001 then actionGood s.build v
  else if u = 6 then legendGood i v
  else contourGood v

/-- A write enters the update queue (R131, R138): its access waits for a commit that is ACCEPTED, or for its place. -/
def State.queueUpdate (s : State) (u idx i v : Nat) (a : Agent) : State :=
  let next : Bool := u ≠ 8 && s.rd 0x006 0x5001 0 = 1
  { s.busyNow with updateQ := s.updateQ ++ [⟨⟨u, idx, i⟩, v, a, if next then 1 else if 16 ≤ s.updateQ.length then 2 else 0⟩] }

/-- A Legend write would change what a current entry, or the tail of a current head, matches (R131). -/
def State.legendForbids (s : State) (i v : Nat) : Bool :=
  let e := s.ent 0x006 0x6000 i
  let head := s.ent 0x006 0x6000 (i - 1)
  let changes : Bool := field e 0 640 ≠ field v 0 640 || legChain e ≠ legChain v
  changes && (legCurrent e || (i % 2 = 1 && legChain head && legCurrent head))

/-- A Contour write would change a current entry (R141). -/
def State.contourForbids (s : State) (i v : Nat) : Bool :=
  let e := s.ent 0x007 0x6000 i
  e.testBit 1 && setField e 0 2 0 ≠ setField v 0 2 0

/-- A queued write is applied (R131, R138, R141). Rewriting what was unreadable ends its FAULT (R139, R149). -/
def State.applyUpdate (s : State) (w : TableUpdate) : Abort × State :=
  let i := w.addr.entry
  let v := w.value
  let u := w.addr.unit
  if u = 8 then (.ok, s.setEnt 0x008 0x6000 i v)
  else if w.addr.idx = 0x6001 then
    (.ok, { s.setEnt u 0x6001 i v with eccBad := s.eccBad.erase (true, if u = 6 then i else 0x10000 + i) })
  else if u = 6 then
    if s.legendForbids i v then (.modeForbids, s)
    else (.ok, { s.setEnt 0x006 0x6000 i (setBit v 641 (legCurrent (s.ent 0x006 0x6000 i))) with shadowBad := s.shadowBad.erase i })
  else if s.contourForbids i v then (.modeForbids, s)
  else (.ok, { s.setEnt 0x007 0x6000 i (setBit v 1 ((s.ent 0x007 0x6000 i).testBit 1)) with eccBad := s.eccBad.erase (false, i) })

/-- A queued write of a context's transfer is refused (R67): the first failure is held, and the transfer stands before that entry. -/
def State.holdStatus (s : State) (w : TableUpdate) (c : Abort) : State :=
  let size := match unitKind? s.build w.addr.unit with
    | some kd => match tableShape s.build kd w.addr.idx 0 with | some sh => sh.1 | none => 0
    | none => 0
  let back (d : DpCtx) : DpCtx :=
    if d.status = .ok ∧ d.target = some (w.addr.unit, w.addr.idx) then
      { d with status := c, offset := w.addr.entry * size, length := d.offset + d.length - w.addr.entry * size, gather := [] }
    else d
  { s with dpCtx := s.dpCtx.map (fun p => if p.1 = (w.agent.kind, w.agent.slot) then (p.1, back p.2) else p) }

/-- What becomes of the access that carried a write once it has been applied (R67, R131): refused, its later entries are not written. -/
def State.updateEnd (s : State) (w : TableUpdate) (c : Abort) : State :=
  if c ≠ .ok then
    let s1 := s.holdStatus w c
    if w.held = 1 then
      State.finish { s1 with updateQ := s1.updateQ.filter (fun x => !(x.held = 1 && x.agent = w.agent)) } w.agent c
    else s1
  else if w.held = 1 ∧ !s.updateQ.any (fun x => x.held = 1 && x.agent = w.agent) then s.finish w.agent .ok
  else s

/-- Writes have come within the 16 places of the queue: an access of which no write waits for that any more ends (R138). -/
def State.queuePlace (s : State) : State :=
  let came := (s.updateQ.take 16).filter (fun w => w.held = 2)
  let s1 := { s with updateQ := (s.updateQ.take 16).map (fun (w : TableUpdate) => if w.held = 2 then { w with held := 0 } else w) ++ s.updateQ.drop 16 }
  (came.map TableUpdate.agent).eraseDups.foldl
    (fun s a => if s.updateQ.any (fun x => x.held = 2 && x.agent = a) then s else s.finish a .ok) s1

/-- The classifier slot that runs may be taken (R32): it is one of 4k + 3 and not taken yet, the 64 of the tick are not used up, no key
waits. -/
def State.slotFree (s : State) : Bool :=
  s.mainUp && s.mode ≠ 2 && s.slot % 4 = 3 && !s.slotTaken && s.regN .slotsTaken < 64 && s.keyQ = []

/-- The slot is taken. -/
def State.takeSlot (s : State) : State := (s.setReg .slotsTaken (s.reg .slotsTaken + 1)).setReg .slotUsed ((s.now + 1 : Nat) : Int)

/-- The queued write that may be applied next, one of the 16 in the queue: a held one waits for the flip (Table 5.8). -/
def State.nextUpdate (s : State) : Option TableUpdate :=
  (s.updateQ.take 16).find? (fun w => !((w.held = 1 || w.held = 3) && s.rd 0x006 0x5001 0 = 1))

/-- A queued write leaves the queue and is applied. -/
def State.updateOne (s : State) (w : TableUpdate) : State :=
  let (c, s1) := State.applyUpdate { s with updateQ := s.updateQ.erase w } w
  (s1.updateEnd w c).queuePlace

/-- TABLE_UPDATE_APPLY (R138): a queued write is applied in a taken slot. A repair goes before it (R139). -/
def execTableUpdateApply (s : State) : Host.Outcome State Fault Refusal := gathered s fun s =>
  match s.nextUpdate with
  | some w => if s.slotFree ∧ s.repairQ = [] then .next ((s.takeSlot.bump 0x006 0x8004 0 1).updateOne w) else .next s
  | none => .next s

/-- A survey read has found a difference (R139): the entry awaits its rewrite. -/
def State.surveyDiffers (s : State) (i : Nat) : State :=
  ((State.bump { s with repairQ := s.repairQ ++ [i] } 0x006 0x8000 0 1).latch 0x006 16).record 0x0501 0x006 [(2, i)]

/-- A shadow entry cannot be read (R139): the entry leaves both editions. -/
def State.shadowErr (s : State) (i : Nat) : State :=
  let s1 := s.setEnt 0x006 0x6000 i (setField (s.ent 0x006 0x6000 i) 640 2 0)
  ((State.bump { s1 with shadowBad := i :: s1.shadowBad.erase i } 0x006 0x8001 0 1).latch 0x006 17).record 0x0502 0x006 []

/-- The survey reads an entry (R139). -/
def State.survey (s : State) (found : SurveyFinding) : State :=
  let i := s.rd 0x006 0x5003 0
  let j := i + 1
  let s1 := s.takeSlot.setReg .surveyUsed (s.reg .surveyUsed + 1)
  let s2 := if j < s.build.legendEntries then s1.wr 0x006 0x5003 0 j else (s1.wr 0x006 0x5003 0 0).bump 0x006 0x8002 0 1
  match found with
  | .equal => s2
  | .differs => s2.surveyDiffers i
  | .shadowFixed d => if d then s2.surveyDiffers i else s2
  | .shadowBad => s2.shadowErr i
  | .writtenSince => s2

/-- SURVEY_STEP (R139): within `survey_rate`, in the slots that repairs and updates leave. -/
def execSurveyStep (finding : SurveyFinding) (s : State) : Host.Outcome State Fault Refusal := gathered s fun s =>
  if s.slotFree ∧ s.repairQ = [] ∧ s.nextUpdate = none ∧ s.regN .surveyUsed < s.rd 0x006 0x1003 0 then .next (s.survey finding) else .next s

/-- SURVEY_REPAIR (R139): the entry is rewritten from the shadow, which is what State holds. -/
def execSurveyRepair (s : State) : Host.Outcome State Fault Refusal :=
  match s.repairQ with
  | _ :: rest => if s.slotFree then .next { s.takeSlot with repairQ := rest } else .next s
  | [] => .next s

/-- The effect of `edition_commit` (R135, Table 5.8); `none` while it waits for the flip. -/
def State.editionCommit (s : State) (a : Agent) : Option Abort × State :=
  match s.rd 0x006 0x5001 0 with
  | 0 => (none, (s.busyNow.wr 0x006 0x5001 0 1).setReg .editionAgent (agentNum a : Int))
  | 1 => (some .busy, s)
  | _ => (some .editionBusy, s.bump 0x006 0x8003 0 1)

/-- The current side of a table's membership set from its next side, or the reverse. -/
def State.copyMember (s : State) (u curBit nextBit : Nat) (back : Bool) : State :=
  (s.listed u 0x6000).foldl
    (fun s p => s.setEnt u 0x6000 p.1 (if back then setBit p.2 nextBit (p.2.testBit curBit) else setBit p.2 curBit (p.2.testBit nextBit))) s

/-- A bank of actions set equal to the other (R135, Table 5.8). -/
def State.copyBank (s : State) (u src dst : Nat) : State :=
  (s.listed u src).foldl (fun s p => s.setEnt u dst p.1 p.2) (s.clearTable u dst)

/-- The effect of `edition_discard` (Table 5.8). -/
def State.editionDiscard (s : State) : Abort × State :=
  if s.rd 0x006 0x5001 0 = 1 then (.busy, s)
  else (.ok, (((s.copyMember 0x006 641 640 true).copyMember 0x007 1 0 true).copyBank 0x006 0x6002 0x6001).copyBank 0x007 0x6002 0x6001)

/-- The flip (R135, Table 5.8). -/
def State.flip (s : State) : State :=
  if s.rd 0x006 0x5001 0 ≠ 1 then s
  else
    let s1 := (((s.copyMember 0x006 641 640 false).copyMember 0x007 1 0 false).copyBank 0x006 0x6001 0x6002).copyBank 0x007 0x6001 0x6002
    let s2 := (s1.wr 0x006 0x5000 0 ((s.edition + 1) % 65536)).finish (agentOf (s.regN .editionAgent)) .ok
    if 0 < s.inflight (s.edition % 2) then s2.wr 0x006 0x5001 0 2 else (s2.wr 0x006 0x5001 0 0).raise causeEditionSteady

/-- EDITION_FLIP (R135): step 5 of a boundary. -/
def execEditionFlip (s : State) : Host.Outcome State Fault Refusal := if s.mainUp then .next s.flip else .next s

/-- EDITION_DRAINED (R136): no frame of the old tag is in flight. -/
def execEditionDrained (s : State) : Host.Outcome State Fault Refusal := if s.mainUp then .next s.drainCheck else .next s

/-- A flow entry is removed, the odd way of an IPv6 pair with it. -/
def State.removeFlow (s : State) (i : Nat) : State :=
  let s1 := if (s.ent 0x008 0x6000 i).testBit 254 then s.setEnt 0x008 0x6000 (i + 1) 0 else s
  s1.setEnt 0x008 0x6000 i 0

/-- A visit of the sweeper to entry `i` (R145). -/
def State.sweepVisit (s : State) (i : Nat) : State :=
  let e := s.ent 0x008 0x6000 i
  let age := s.rd 0x008 0x1000 0
  if !e.testBit 255 ∨ s.pairOdd i ∨ e.testBit 252 then s
  else if age ≠ 0 ∧ age ≤ (s.ageClock + 65536 - field e 39 16) % 65536 then (s.removeFlow i).bump 0x008 0x8002 0 1
  else if field e 7 16 ≠ s.edition ∧ field e 7 16 ≠ (s.edition + 65535) % 65536 then s.setEnt 0x008 0x6000 i (setBit e 253 false)
  else s

/-- FLOW_SWEEP_VISIT (R145): the entries are visited in ascending order. -/
def execFlowSweepVisit (s : State) : Host.Outcome State Fault Refusal :=
  if s.mainUp ∧ s.mode ≠ 2 then
    .next ((s.sweepVisit (s.regN .sweep)).setReg .sweep (((s.regN .sweep + 1) % s.build.flowEntries : Nat) : Int))
  else .next s

/-- `flow.occupancy` (Table 5.16): an IPv6 pair counts 2. -/
def State.flowOccupancy (s : State) : Nat :=
  ((s.listed 0x008 0x6000).map (fun p => if p.2.testBit 255 && !s.pairOdd p.1 then (if p.2.testBit 254 then 2 else 1) else 0)).sum

end Sys2Proof.Machine
end

