-- ==== Sys2Proof/Machine/Read.lean ====
section
/-! DEFINITION. What an object reads as (R21, R28, R47, R50, R58, R153, R310, R352, R384): the objects that the device computes, and every
other one as it is held; the tables as the data port presents them. -/
namespace Sys2Proof.Machine

/-- `lease_holder` for an agent (Table 2.3): H carries no processor number. -/
def leaseCode (a : Agent) : Nat := if a.kind = .host then 0x0100 else agentNum a

/-- The lease that stands on a unit itself. -/
def State.leaseOn (s : State) (u : Nat) : Option Lease := s.leases.find? (fun l => l.unit = u)

/-- A local unit with its ancestors, nearest first. -/
def lineage (u : Nat) : List Nat := if u = 0 then [0] else if parentOf u = 0 then [u, 0] else [u, parentOf u, 0]

/-- The nearest lease on a unit or an ancestor (R58). -/
def State.effective (s : State) (u : Nat) : Option Lease := (lineage u).findSome? s.leaseOn

/-- `lease_holder` and `lease_remaining` (Table 2.3). -/
def State.leaseHolder (s : State) (u : Nat) : Nat := match s.effective u with | some l => leaseCode l.holder | none => 0
def State.leaseRemaining (s : State) (u : Nat) : Nat := match s.effective u with | some l => ceilDiv l.left 6250 | none => 0

/-- `speed` in a configuration given by a reader of its objects (Table 3.6). -/
def speedIn (v : Nat → Nat → Nat → Nat) (ch : Nat) : Nat :=
  if v (chUnit ch) 0x1000 0 ≠ 1 then 0
  else match v (lnUnit (laneOf ch)) 0x1000 0 with
    | 1 => match v (lnUnit (laneOf ch)) 0x1004 0 with | 1 => 2 | 2 => 1 | _ => 3
    | 2 => 4 | 3 => 5 | 4 => 7 | 5 => 8 | 6 => 4 | 7 => 6 | _ => 0

/-- The slot cost of a channel's speed (Table 1.5). -/
def speedCost (code : Nat) : Nat := match code with | 0 => 0 | 5 => 3 | 6 => 3 | 7 => 4 | 8 => 10 | _ => 1

/-- The slot cost of an endpoint, received (`tx` false) or sent, in such a configuration (R28). -/
def costIn (b : Build) (v : Nat → Nat → Nat → Nat) (tx : Bool) (ep : Nat) : Nat :=
  if ep < b.channels then speedCost (speedIn v ep)
  else if isAir ep then
    let u := alUnit (ep - 0x40)
    if v u 0x1000 0 = 1 then v u (if tx then 0x1002 else 0x1001) 0 else 0
  else if ep = Config.hostEp then v 0x00C (if tx then 0x1001 else 0x1000) 0
  else 0

/-- The endpoints of a build. -/
def endpoints (b : Build) : List Nat := List.range b.channels ++ [0x40, 0x41, 0x42, 0x43]

/-- The calendar slots that have an owner (Table 1.2). -/
def State.calendarUsed (s : State) (idx : Nat) : Nat := (s.listed 0x000 idx).length

/-- `unit_state` (Table 2.3): a ring's own, RETAINED in SLEEP and DEEP_SLEEP (R245), FAULT for a Monument in FAULT, otherwise by the mode. -/
def State.unitState (s : State) (u : Nat) : Nat :=
  match unitKind? s.build u with
  | some .tq => if 3 ≤ s.mode then 3 else s.ringState u
  | some .bq => if 3 ≤ s.mode then 3 else s.ringState u
  | some .cq => if 3 ≤ s.mode then 3 else s.ringState u
  | some .monument => if s.regN .monFault = 1 then 4 else if s.mode = 0 then 0 else if s.mode ≤ 2 then 1 else 3
  | _ => if s.mode = 0 then 0 else if s.mode ≤ 2 then 1 else 3

/-- The children of a unit (R20, R310). -/
def State.childList (s : State) (u : Nat) : List Nat := if u = 0x00D then s.members else childrenOf s.build u

/-- The key slots that hold a key (Table 2.11). -/
def State.keysInstalled (s : State) : Nat := bitsOf ((List.range 8).map (fun k => (k, (s.keys.find? k).isSome)))

/-- The valid templates (Table 6.1). -/
def State.templatesValid (s : State) : Nat := ((s.listed 0x009 0x6000).filter (fun p => tplValid p.2)).length

/-- An object of the common header. -/
def State.readHeader (s : State) (u i k : Nat) : Nat :=
  match i with
  | 0x0000 => match unitKind? s.build u with | some kd => unitType kd | none => 0
  | 0x0001 => Config.unitRev
  | 0x0002 => s.unitState u
  | 0x0003 => (s.childList u).length
  | 0x0005 => s.alarmSummary u
  | 0x0010 => s.leaseHolder u
  | 0x0011 => s.leaseRemaining u
  | _ => s.rd u i k

/-- An object of a unit that the device computes when it is read. -/
def State.readOwn (s : State) (kd : UnitKind) (u i k : Nat) : Nat :=
  match kd, i with
  | .root, 0x5000 => s.build.channels
  | .root, 0x5002 => s.calendarUsed 0x6000
  | .root, 0x5003 => s.calendarUsed 0x6001
  | .time, 0x5000 => if k = 0 then s.time80 else s.rd u i k
  | .monument, 0x5000 => regionBase
  | .legend, 0x5002 => s.inflight k
  | .flow, 0x5000 => s.flowOccupancy
  | .buffer, 0x5000 => s.freeCells
  | .buffer, 0x5001 => s.unreserved
  | .buffer, 0x5002 => s.stubsFree
  | .buffer, 0x5003 => s.templatesValid
  | .buffer, 0x5004 => s.epOccupancy Config.hostEp
  | .buffer, 0x5005 => s.epOccupancy (0x40 + k)
  | .sched, 0x5000 => s.timersUsed
  | .sched, 0x5001 => s.queuesEnabled
  | .guard, 0x5000 => s.streamsValid
  | .host, 0x5000 => (mpBusy s.mpOps false).length
  | .coex, 0x5001 => s.lanesQuiet
  | .interrupt, 0x5000 => s.running? k + 16 * s.stackDepth k
  | .access, 0x5000 => s.keysInstalled
  | .channel, 0x5000 => s.chLinkState (u - 0x200)
  | .channel, 0x5001 => s.speedCode (u - 0x200)
  | .channel, 0x5002 => costIn s.build s.rd false (u - 0x200)
  | .channel, 0x5010 => s.occupancy (u - 0x200) k
  | .channel, 0x5031 => s.txHold (u - 0x200)
  | .cq, 0x5003 => (s.stagedOf (u - 0x480)).length
  | .cq, 0x5004 => s.cqCount (u - 0x480)
  | _, _ => s.rd u i k

/-- The value of a scalar object as it reads (R47): an RWS object reads its value in force, a CMD object the code of its last execution.
-/
def State.readObj (s : State) (u i k : Nat) : Nat :=
  if i < 0x0100 then s.readHeader u i k
  else match unitKind? s.build u with
    | some kd => s.readOwn kd u i k
    | none => 0

/-- The octets of a scalar object, most significant first. -/
def State.readOctets (s : State) (u i k : Nat) (t : ObjType) : List Octet := toMsb t.size (s.readObj u i k)

/-- An entry of `pending` (Table 2.3), octet 0 least significant. DESIGN CHOICE (log entry 100): a write that the atlas has staged shows H with the
processor number 64, which no processor has. -/
def pendingEntry (w : StagedWrite) : Nat :=
  let a : Nat × Nat × Nat := match w.target with | .obj o => (o.unit, o.idx, o.sub) | .ent e => (e.unit, e.idx, 0)
  a.1 + a.2.1 * 2 ^ 16 + a.2.2 * 2 ^ 32 + (agentNum w.agent / 256) * 2 ^ 40 + (w.agent.slot % 256) * 2 ^ 48

/-- The unit of a pending write. -/
def StagedTarget.unit : StagedTarget → Nat
  | .obj o => o.unit
  | .ent e => e.unit

/-- The pending writes of a unit's subtree, in write order (R52). -/
def State.pendingOf (s : State) (u : Nat) : List StagedWrite := s.staged.filter (fun w => covers u w.target.unit)

/-- An entry of the assignment table (Table 13.8). -/
def assignEntry (a : Assign) : Nat := a.serial + a.id * 2 ^ 64 + (a.reachable.toNat * 128 + a.duplicate.toNat * 64) * 2 ^ 72

/-- A snapshot index entry (Table 17.5). -/
def snapIndex (c : ObjAddr × Nat × Nat) : Nat := c.1.unit * 2 ^ 48 + c.1.idx * 2 ^ 32 + c.1.sub * 2 ^ 24 + c.2.1 * 2 ^ 16

/-- A position of a snapshot slot (R384): its value, or its index entry. A slot that is CAPTURING holds its new contents from the latch on (R382,
R383). -/
def State.snapAt (s : State) (slot e : Nat) (index : Bool) : Nat :=
  match (s.snapBusy ++ s.snapDone).find? (fun x => x.slot = slot) with
  | some x => match x.values[e]? with
    | some c => if index then snapIndex c else c.2.2
    | none => 0
  | none => 0

/-- A table entry as it reads, octet 0 least significant. -/
def State.entryOf (s : State) (u i e : Nat) : Nat :=
  match i with
  | 0x0004 => (s.childList u).getD e 0
  | 0x0021 => match (s.pendingOf u)[e]? with | some w => pendingEntry w | none => 0
  | _ =>
    match unitKind? s.build u, i with
    | some .interrupt, 0x6000 => s.sourceEntry e
    | some .flow, 0x6001 => s.policerEntry e
    | some .buffer, 0x6000 => setField (s.ent u i e) 544 16 (s.refCount e)
    | some .sched, 0x6000 => s.queueEntry e
    | some .sched, 0x6003 => s.gateState e
    | some .graticule, 0x6002 => match s.assigns[e]? with | some a => assignEntry a | none => 0
    | some .stats, 0x6000 => s.snapAt 0 e false
    | some .stats, 0x6001 => s.snapAt 1 e false
    | some .stats, 0x6002 => s.snapAt 0 e true
    | some .stats, 0x6003 => s.snapAt 1 e true
    | _, _ => s.ent u i e

/-- The entry size and entry count of a table of a local unit; `none` for another object. -/
def State.shapeOf (s : State) (u i : Nat) : Option (Nat × Nat) :=
  if i = 0x0004 then some (2, (s.childList u).length)
  else if i = 0x0021 then some (8, (s.pendingOf u).length)
  else match unitKind? s.build u with
    | some kd => tableShape s.build kd i s.recSectors
    | none => none

/-- Octet `o` of a table (R67): the flash's for the Monument's (R352). DESIGN CHOICE (log entry 98): the octets of an entry of `children` and
`pending` go least significant first by every carrier; R46 orders the octets of values in frames and at the aperture, and a `dp_data` transfer is
octets. -/
def State.tableOctet (s : State) (u i size o : Nat) : Octet :=
  if u = 0x005 ∧ 0x6000 ≤ i then s.monOctet i o else BitVec.ofNat 8 (s.entryOf u i (o / size) / 2 ^ (8 * (o % size)))

/-- `n` octets of a table from offset `o`. -/
def State.tableOctets (s : State) (u i size o n : Nat) : List Octet := (List.range n).map (fun k => s.tableOctet u i size (o + k))

/-- The agents of a row include an agent (R48). -/
def permits : Agents → AgentKind → Bool
  | .hmf, _ => true
  | .hm, k => k ≠ .fabric
  | .h, k => k = .host

/-- The gate list of an endpoint that the build lacks does not exist (R179). -/
def noGateList (b : Build) (kd : UnitKind) (i : Nat) : Bool := kd = .sched && 0x6100 ≤ i && i ≤ 0x6142 && !epPresent b (i - 0x6100)

/-- Checks 2 to 4 of Table 2.4: the row of an object, or the code. A manager reaches no key but its own (R70). -/
def State.lookup (s : State) (a : Agent) (u i k : Nat) : Except Abort ObjRow :=
  match unitKind? s.build u with
  | none => .error .noUnit
  | some kd =>
    if !indexDefined s.build kd i || noGateList s.build kd i then .error .noObject
    else match rowAt s.build kd i k with
      | none => .error .noSubindex
      | some r =>
        if !permits r.agents a.kind ∨ (kd = .access ∧ i = 0x9000 ∧ a.kind = .manager ∧ k ≠ a.slot) then .error .notAuthorised
        else .ok r

/-- The commands that a group has only to forward them (R22): they are no objects of its own (R405, Tables 9.11 and 17.4). -/
def forwarded (u i : Nat) : Bool := (u = 0x00C && 0x7000 ≤ i && i ≤ 0x7002) || (u = 0x011 && i = 0x7000)

/-- Checks 2 to 4 of an access that is no command: what a group only forwards is not defined in it. -/
def State.lookupOwn (s : State) (a : Agent) (u i k : Nat) : Except Abort ObjRow :=
  if forwarded u i then .error .noObject else s.lookup a u i k

/-- The check of a TABLE source by Table 2.4 for a read by an agent, and of its range (R274). -/
def State.sourceCheck (s : State) (a : Agent) (v : Nat) : Abort :=
  let u := field v 112 12
  let i := field v 96 16
  match s.lookupOwn a u i 0 with
  | .error c => c
  | .ok _ =>
    match s.shapeOf u i with
    | some sh => if sh.1 * sh.2 < field v 64 32 + jobLength v then .range else .ok
    | none => .modeForbids

/-- The next `n` octets of a running job's range, of the flash or of a table: each as it stands now (R274). -/
def State.jobOctets (s : State) (j n : Nat) : List Octet :=
  let e := s.job j
  let m := min n (jobLeft e)
  if jobSource e = 1 then s.flashRead (jobStart e + jobDoneOctets e) m
  else match s.shapeOf (field e 112 12) (field e 96 16) with
    | some sh => s.tableOctets (field e 112 12) (field e 96 16) sh.1 (field e 64 32 + jobDoneOctets e) m
    | none => []

/-- A running job reads on, of the flash only while the port does nothing else (R274). -/
def State.jobRead (s : State) (j n : Nat) : State := s.jobTake j (s.jobOctets j n)

/-- A running job may read the flash or its table. -/
def State.jobReading (s : State) (j : Nat) : Bool :=
  jobState (s.job j) = 2 && (jobSource (s.job j) = 2 || (jobSource (s.job j) = 1 && s.nvmOn && s.portFree))

/-- What jobs have read of the flash and of tables within a tick: how much is a free value (R275, log entry 35). -/
def State.scanStep (s : State) : State :=
  ([0, 1, 2, 3].filter s.jobReading).foldl (fun s j => let (f, s1) := s.takeFree; s1.jobRead j (Config.scanOctets f).toNat) s

/-- The results with which a source can stop a job here (R274): an error of the memory port and a timeout end it by themselves. -/
def failResults (source : Nat) : List Nat := match source with | 0 => [] | 1 => [6] | _ => [9]

/-- A running job ends (R275): its whole range has been read, or its source stops it. -/
def State.jobDone (s : State) (j : Nat) (outcome : ScanOutcome) : State :=
  let e := s.job j
  match outcome with
  | .complete =>
    if jobSource e = 0 then (if jobLeft e = 0 then s.jobWhole j else s)
    else if s.jobReading j then (s.jobRead j (jobLeft e)).jobWhole j
    else s
  | .failed result n => if (failResults (jobSource e)).contains result && s.jobReading j then (s.jobRead j n).jobEnd j result else s

/-- SCAN_JOB_DONE (R275): a running job's source has delivered its range, or has stopped. -/
def execScanJobDone (job : Nat) (outcome : ScanOutcome) (s : State) : Host.Outcome State Fault Refusal :=
  if s.mainUp ∧ job < 4 ∧ jobState (s.job job) = 2 then .next (s.jobDone job outcome) else .next s

end Sys2Proof.Machine
end

