-- ==== Sys2Proof/Machine/Leases.lean ====
section
/-! DEFINITION. The control lease (R56 to R61, R409), and how a command of the graticule group gathers its children (R22, R309). -/
namespace Sys2Proof.Machine

/-- Two agents are one holder (R56, R58): every processor is H. -/
def sameAgent (a b : Agent) : Bool := leaseCode a = leaseCode b

/-- The agent's side is the preferred one (R57, R59). -/
def State.preferred (s : State) (a : Agent) : Bool :=
  if s.rd 0x000 0x4000 0 = 0 then a.kind = .host else a.kind ≠ .host

/-- The two agents are on different sides (R57). -/
def otherSide (a b : Agent) : Bool := (a.kind = .host : Bool) ≠ (b.kind = .host : Bool)

/-- `lease_time` in ticks (R57). -/
def State.leaseTicks (s : State) : Nat := s.rd 0x000 0x4001 0 * 6250000

/-- The leases that other agents hold on descendants of `u` (R58). -/
def State.leasesBelow (s : State) (a : Agent) (u : Nat) : List Lease :=
  s.leases.filter (fun l => l.unit ≠ u && covers u l.unit && !sameAgent l.holder a)

/-- The effective holder of `u` is `a` (R58). -/
def State.holdsLease (s : State) (a : Agent) (u : Nat) : Bool := match s.effective u with | some l => sameAgent l.holder a | none => false

/-- A write or command of `a` to `u` is allowed by the lease, the object not being exempt (R58). -/
def State.leaseAllows (s : State) (a : Agent) (u : Nat) : Bool :=
  s.holdsLease a u || ((s.effective u).isNone && s.leasesBelow a u = [])

/-- The conflicting leases of a claim of `u` by `a` (R59). -/
def State.conflicts (s : State) (a : Agent) (u : Nat) : List Lease :=
  (match s.effective u with | some l => if sameAgent l.holder a then [] else [l] | none => []) ++ s.leasesBelow a u

/-- The lease that makes an agent the effective holder of `u` starts its time again (R58, R59). -/
def State.renew (s : State) (u : Nat) : State :=
  match s.effective u with
  | some l => { s with leases := s.leases.map (fun (x : Lease) => if x.unit = l.unit then { x with left := s.leaseTicks } else x) }
  | none => s

/-- A pending write belongs to a commit that is CHECKING or ACCEPTED (R55, R60). -/
def State.inCommit (s : State) (t : StagedTarget) : Bool := s.commits.any (fun c => c.writes.any (fun w => w.target = t))

/-- The pending writes of a holder in a subtree are discarded; those of a running commit stay with it (R60). -/
def State.dropPending (s : State) (h : Agent) (u : Nat) : State :=
  let mine (w : StagedWrite) : Bool := sameAgent w.agent h && covers u w.target.unit
  { s with
    staged := s.staged.filter (fun w => !mine w || s.inCommit w.target)
    commits := s.commits.map (fun c => { c with orphans := c.orphans ++ (c.writes.filter mine).map StagedWrite.target }) }

/-- LEASE_CHANGED is latched on every unit of a subtree (R60). -/
def State.leaseChanged (s : State) (u : Nat) : State := (subtree s.build u).foldl (fun s x => s.latch x 2) s

/-- The record of a lease (R60): cause 0 PREEMPT, 1 CLAIM, 2 RELEASE, 3 EXPIRY. -/
def State.leaseRecord (s : State) (u old new cause : Nat) : State := s.record 0x0101 u [(2, u), (2, old), (2, new), (1, cause)]

/-- A lease ends (R60): for another holder, or for none. -/
def State.endLease (s : State) (l : Lease) (new cause : Nat) : State :=
  ((State.dropPending { s with leases := s.leases.filter (fun x => x.unit ≠ l.unit) } l.holder l.unit).leaseChanged l.unit).leaseRecord
    l.unit (leaseCode l.holder) new cause

/-- A lease of the claimant on a descendant ends, since it merges into its new one (R60). -/
def State.mergeLease (s : State) (l : Lease) : State := s.endLease l (leaseCode l.holder) 1

/-- The claimant holds `u` (Table 2.7): its own leases below merge. -/
def State.takeLease (s : State) (a : Agent) (u : Nat) : State :=
  let s1 := (s.leases.filter (fun l => covers u l.unit && sameAgent l.holder a)).foldl State.mergeLease s
  { s1 with leases := s1.leases ++ [⟨u, a, s1.leaseTicks⟩] }

/-- An allowed write or command counts (R58): it claims a free unit, or renews what makes its agent the holder. -/
def State.wrote (s : State) (a : Agent) (u : Nat) : State :=
  if s.holdsLease a u then s.renew u else (s.takeLease a u).leaseRecord u 0 (leaseCode a) 1

/-- A claim is decided against the leases as they stand (Table 2.7). -/
def State.claim (s : State) (a : Agent) (u : Nat) : Abort × State :=
  let cs := s.conflicts a u
  if s.holdsLease a u then (.ok, s.renew u)
  else if cs = [] then (.ok, (s.takeLease a u).leaseRecord u 0 (leaseCode a) 1)
  else if s.preferred a ∧ cs.all (fun l => otherSide a l.holder) then
    let old := s.leaseHolder u
    let s1 := (cs.foldl (fun s l => s.endLease l (leaseCode a) 0) s).takeLease a u
    (.ok, if cs.any (fun l => l.unit = u) then s1 else s1.leaseRecord u old (leaseCode a) 1)
  else (.leaseHeld, s)

/-- LEASE_RENEW (Table 2.7). -/
def State.leaseRenew (s : State) (a : Agent) (u : Nat) : Abort × State :=
  if s.holdsLease a u then (.ok, s.renew u) else (.leaseHeld, s)

/-- LEASE_RELEASE (Table 2.7). -/
def State.leaseRelease (s : State) (a : Agent) (u : Nat) : Abort × State :=
  if s.holdsLease a u then
    match s.leaseOn u with
    | some l => (.ok, s.endLease l 0 2)
    | none => (.ok, s)
  else if s.conflicts a u = [] then (.ok, s)
  else (.leaseHeld, s)

/-- Lease timers advance by a tick (R25 step 1), and those that reach 0 end (Table 2.7). -/
def State.leaseExpire (s : State) (l : Lease) : State := s.endLease l 0 3
def State.leaseStep (s : State) : State :=
  let s1 := { s with leases := s.leases.map (fun (l : Lease) => { l with left := l.left - 1 }) }
  (s1.leases.filter (fun (l : Lease) => l.left = 0)).foldl State.leaseExpire s1

/-- Where a claim stands in the order of one boundary (R409): the preferred side first, then by slot, M before F, then by unit. -/
def State.claimKey (s : State) (c : Claim) : Nat :=
  let slot := if c.agent.kind = .host then 0 else c.agent.slot
  (((if s.preferred c.agent then 0 else 1) * 256 + slot % 256) * 4 + agentNum c.agent / 256) * 4096 + c.unit

/-- A claim put in its place among ordered ones. -/
def State.insertClaim (s : State) (c : Claim) : List Claim → List Claim
  | [] => [c]
  | d :: t => if s.claimKey d ≤ s.claimKey c then d :: State.insertClaim s c t else c :: d :: t

/-- The claims of a boundary in their order (R409). -/
def State.orderedClaims (s : State) : List Claim := s.claims.foldl (fun l c => s.insertClaim c l) []

/-- A code of its last execution that a command object reads (Table 2.2). -/
def State.ran (s : State) (u i : Nat) (c : Abort) : State := s.wr u i 0 c.code

/-- A command refused sets ACCESS_REFUSED (R49). -/
def State.refusedAt (s : State) (u : Nat) (c : Abort) : State := if c = .ok then s else s.latch u 3

/-- The octets of a LEASE_HELD answer (R74): `lease_holder` and `lease_remaining` of the unit. -/
def State.leaseData (s : State) (u : Nat) : List Octet := toMsb 2 (s.leaseHolder u) ++ toMsb 4 (s.leaseRemaining u)

/-- The result of a commit or of a group command is held in the unit (R22, R54). -/
def State.unitResult (s : State) (u : Nat) (c : Abort) (unit idx sub : Nat) : State :=
  ((((s.wr u 0x0020 1 c.code).wr u 0x0020 2 unit).wr u 0x0020 3 idx).wr u 0x0020 4 sub).wr u 0x0020 5 s.tick32

/-- The group command of an agent that waits for a child. -/
def State.groupOf (s : State) (a : Agent) (child : Nat) : Option GroupCmd :=
  s.groupCmds.find? (fun g => sameAgent g.agent a && child ∈ g.left)

/-- The first child, in forwarding order, that did not return OK (R22). -/
def firstFailure (f : Option (Abort × Nat)) (c : Abort) (child : Nat) : Option (Abort × Nat) :=
  if c = .ok then f
  else match f with
    | some x => if x.2 < child then f else some (c, child)
    | none => some (c, child)

/-- The group command has all its children (R22). Where it was written to root, the group is root's failing child. A LEASE_HELD carries the
holder and time of the unit that it came from (R74). -/
def State.groupEnd (s : State) (g : GroupCmd) : State :=
  let c := g.first.getD (.ok, 0)
  let s1 := (s.unitResult 0x00D c.1 c.2 0 0).ran 0x00D g.index c.1
  (if g.unit = 0x00D then s1 else (s1.unitResult g.unit c.1 (if c.1 = .ok then 0 else 0x00D) 0 0).ran g.unit g.index c.1).finish g.agent c.1
    (if c.1 = .leaseHeld then g.reply else [])

/-- A child of a group command has completed (R22) with its code and the DATA of its answer. -/
def State.groupChild (s : State) (g : GroupCmd) (child : Nat) (c : Abort) (data : List Octet) : State :=
  let f := firstFailure g.first c child
  let h := { g with left := g.left.erase child, first := f, reply := if f = g.first then g.reply else data }
  let rest := s.groupCmds.erase g
  if h.left = [] then State.groupEnd { s with groupCmds := rest } h else { s with groupCmds := h :: rest }

/-- The manager whose group command an F claim of this device's own root serves (R309). -/
def State.claimGroup (s : State) (c : Claim) : Option GroupCmd :=
  if c.agent.kind = .fabric ∧ c.unit = 0 then s.groupOf ⟨.manager, c.agent.slot⟩ (s.rd 0x00D 0x5002 0) else none

/-- A claim completes (R409): its agent is told. -/
def State.claimTold (s : State) (c : Claim) (code : Abort) : State :=
  let s1 := (s.ran c.unit 0x0012 code).refusedAt c.unit code
  let d := if code = .leaseHeld then s.leaseData c.unit else []
  match s.claimGroup c with
  | some g => s1.groupChild g (s.rd 0x00D 0x5002 0) code d
  | none => s1.finish c.agent code d

/-- Claims already granted at this boundary conflict with a claim (R409). -/
def beaten (granted : List Claim) (c : Claim) : Bool :=
  granted.any (fun g => !sameAgent g.agent c.agent && (covers g.unit c.unit || covers c.unit g.unit))

/-- The claims are decided in their order. -/
def State.decideClaims : State → List Claim → List Claim → State
  | s, [], _ => s
  | s, c :: t, granted =>
    let r := if beaten granted c then (Abort.leaseHeld, s) else s.claim c.agent c.unit
    State.decideClaims (r.2.claimTold c r.1) t (if r.1 = .ok then c :: granted else granted)

/-- Every claim accepted during the tick is decided (R409). -/
def State.claimStep (s : State) : State := State.decideClaims { s with claims := [] } s.orderedClaims []

/-- LEASE_CLAIM_DECIDE (R409): at step 1 of the boundary. -/
def execLeaseClaimDecide (s : State) : Host.Outcome State Fault Refusal := gathered s fun s => if s.mainUp then .next s.claimStep else .next s

/-- LEASE_EXPIRY (R59, R60): the time of the lease on a unit reaches 0. -/
def execLeaseExpiry (unit : Nat) (s : State) : Host.Outcome State Fault Refusal := gathered s fun s =>
  match s.leaseOn unit with
  | some l => if s.mainUp then .next (s.leaseExpire l) else .next s
  | none => .next s

end Sys2Proof.Machine
end

