-- ==== Sys2Proof/Machine/Commit.lean ====
section
/-! DEFINITION. Staged configuration and COMMIT (R28 to R31, R52 to R55, R92, R93, R114, R115, R153, R182, R184, R398): the consistency
checks, the application at the boundary, the calendars. -/
namespace Sys2Proof.Machine

/-- Writes applied to a configuration, in write order. -/
def State.applyWrite (s : State) (w : StagedWrite) : State :=
  match w.target with
  | .obj a => s.wr a.unit a.idx a.sub w.value
  | .ent a => s.setEnt a.unit a.idx a.entry w.value
def State.applyWrites (s : State) (ws : List StagedWrite) : State := ws.foldl State.applyWrite s

/-- A scalar object as a target. -/
def objT (u i k : Nat) : StagedTarget := .obj ⟨u, i, k⟩
/-- A table entry as a target. -/
def entT (u i e : Nat) : StagedTarget := .ent ⟨u, i, e⟩

/-- The objects of a lane that take part in a row of Table 3.7, in a configuration (R54, R92). -/
def laneParts (c : State) (n : Nat) : List StagedTarget :=
  let u := lnUnit n
  let m := c.rd u 0x1000 0
  let mode := objT u 0x1000 0
  let rep := c.rd u 0x1004 0
  let en (ch : Nat) : Bool := c.rd (chUnit ch) 0x1000 0 = 1
  let quarter (q : Nat) : List StagedTarget :=
    if en (4 * n + q) && (m = 0 || (q ≠ 0 && m ≠ 6 && m ≠ 7)) then [objT (chUnit (4 * n + q)) 0x1000 0, mode] else []
  [0, 1, 2, 3].flatMap quarter
    ++ (if c.rd u 0x1001 0 = 1 ∧ m ≠ 5 ∧ m ≠ 7 then [objT u 0x1001 0, mode] else [])
    ++ (if c.rd u 0x1002 0 = 1 ∧ m ≠ 1 then [objT u 0x1002 0, mode] else [])
    ++ (if c.rd u 0x1002 0 = 1 ∧ rep ≠ 0 then [objT u 0x1002 0, objT u 0x1004 0] else [])
    ++ (if rep ≠ 0 ∧ m ≠ 1 then [objT u 0x1004 0, mode] else [])
    ++ (if c.rd u 0x1005 0 = 1 ∧ m ≠ 5 then [objT u 0x1005 0, mode] else [])
    ++ (if c.rd u 0x1005 0 = 1 ∧ !en (4 * n) then [objT u 0x1005 0, objT (chUnit (4 * n)) 0x1000 0] else [])

/-- The sum of slot costs of a direction in a configuration (R28). -/
def costSum (c : State) (tx : Bool) : Nat := ((endpoints c.build).map (costIn c.build c.rd tx)).sum

/-- The first write after which a direction's sum is higher than before it (R29). -/
def raises (tx : Bool) : State → List StagedWrite → Nat → Option (Nat × StagedTarget)
  | _, [], _ => none
  | c, w :: t, i =>
    let d := c.applyWrite w
    if costSum c tx < costSum d tx then some (i, w.target) else raises tx d t (i + 1)

/-- The offender of CALENDAR_FULL (R29), from the starting configuration. -/
def calendarOffender (c : State) (ws : List StagedWrite) : Option StagedTarget :=
  let full := c.applyWrites ws
  let of (tx : Bool) : Option (Nat × StagedTarget) := if 256 < costSum full tx then raises tx c ws 0 else none
  match of false, of true with
  | some a, some b => some (if b.1 < a.1 then b.2 else a.2)
  | some a, none => some a.2
  | none, some b => some b.2
  | none, none => none

/-- The `mf_slot` entries that take part in a PIN_CONFLICT (R398). -/
def pinParts (c : State) : List StagedTarget :=
  let v (k : Nat) : Nat := c.rd 0x000 0x1010 k
  let clash (a b : Nat) : Bool :=
    (v a).testBit 31 && (v b).testBit 31 && (field (v a) 28 3 = field (v b) 28 3
      || (field (v a) 24 4 = field (v b) 24 4 && field (v a) 0 16 = field (v b) 0 16))
  ((List.range 16).filter (fun a => (List.range 16).any (fun b => a ≠ b && clash a b))).map (objT 0x000 0x1010)

/-- The endpoints that have gates (R179). -/
def gateEndpoints (b : Build) : List Nat := List.range b.channels ++ [0x40, 0x41, 0x42]

/-- The entry of a gate list that R180 cuts at the cycle's end, and how long it lasts; `start` is its offset. -/
def cutEntry (c : State) (ep cycle : Nat) : List Nat → Nat → Option (Nat × Nat)
  | [], _ => none
  | k :: t, start =>
    let next := start + field (c.ent 0x00A (0x6100 + ep) k) 0 32
    if cycle ≤ start then none
    else if cycle < next then some (k, cycle - start)
    else cutEntry c ep cycle t next

/-- What takes part in a TIMER_CONFLICT at an endpoint (R184). -/
def timerParts (c : State) (ep : Nat) : List StagedTarget :=
  let e := c.epCfg ep
  let on (x : Nat) : Bool := (c.epCfg x).testBit 63
  let timer (x : Nat) : Nat := field (c.epCfg x) 58 5
  if !on ep then []
  else
    (if c.build.gateTimers ≤ timer ep || (gateEndpoints c.build).any (fun x => x ≠ ep && on x && timer x = timer ep) then
      [entT 0x00A 0x6002 ep] else [])
    ++ (match cutEntry c ep (epCycle e) (List.range (field e 49 9)) 0 with
        | some (k, len) =>
          if len < 52 then entT 0x00A 0x6002 ep :: (List.range (k + 1)).map (entT 0x00A (0x6100 + ep)) else []
        | none => [])

/-- The objects of a channel that contribute to the reserved sum (R114); one that adds nothing takes no part (R54). -/
def bufferParts (c : State) (ch : Nat) : List StagedTarget :=
  let u := chUnit ch
  let adds (l : List (Nat × Nat)) : List StagedTarget := (l.filter (fun p => c.rd u p.1 p.2 ≠ 0)).map (fun p => objT u p.1 p.2)
  let own : List StagedTarget :=
    match c.rd u 0x1010 0 with
    | 1 => adds [(0x1014, 0), (0x1015, 0)]
    | 2 =>
      let room := adds ((List.range 8).map (fun p => (0x1014, p + 1)))
      let head := adds (((List.range 8).filter (fun p => (c.rd u 0x1011 0).testBit p)).map (fun p => (0x1015, p + 1)))
      room ++ (if head = [] then [] else objT u 0x1011 0 :: head)
    | _ => adds [(0x1014, 0)]
  if c.rd u 0x1000 0 ≠ 1 ∨ own = [] then [] else objT u 0x1000 0 :: objT u 0x1010 0 :: own

/-- What takes part in a BUFFER_OVERCOMMIT (R114, R153). -/
def overcommitParts (c : State) : List StagedTarget :=
  if reservedSum c.build c.rd ≤ c.build.cells then []
  else
    (List.range c.build.channels).flatMap (bufferParts c) ++ [0x1002, 0x1004].flatMap (fun k => if c.rd 0x009 k 0 = 0 then [] else [objT 0x009 k 0])
      ++ ([0, 1, 2].filter (fun n => c.rd (alUnit n) 0x1000 0 = 1 && c.rd 0x009 0x1003 n ≠ 0)).flatMap (fun n => [objT 0x009 0x1003 n, objT (alUnit n) 0x1000 0])

/-- The first covered write that takes part (R54). -/
def firstIn (ws : List StagedWrite) (parts : List StagedTarget) : Option StagedTarget :=
  (ws.find? (fun w => parts.contains w.target)).map StagedWrite.target

/-- The consistency check (R53, R54, Table 2.5): `start` is the starting configuration, `ws` the covered writes. -/
def checkCommit (start : State) (ws : List StagedWrite) : Option (Abort × StagedTarget) :=
  let c := start.applyWrites ws
  match firstIn ws ((List.range c.build.lanes).flatMap (laneParts c)) with
  | some t => some (.laneModeConflict, t)
  | none => match calendarOffender start ws with
    | some t => some (.calendarFull, t)
    | none => match firstIn ws (pinParts c) with
      | some t => some (.pinConflict, t)
      | none => match firstIn ws ((gateEndpoints c.build).flatMap (timerParts c)) with
        | some t => some (.timerConflict, t)
        | none => (firstIn ws (overcommitParts c)).map (fun t => (Abort.bufferOvercommit, t))

/-- Two subtrees overlap (R55). -/
def overlap (a b : Nat) : Bool := covers a b || covers b a

/-- A write of an RWS object of `u` meets a commit that is CHECKING or ACCEPTED (R55). -/
def State.stageBusy (s : State) (u : Nat) : Bool := s.commits.any (fun c => covers c.unit u)

/-- An allowed write joins the pending set (R52). -/
def State.stage (s : State) (w : StagedWrite) : State :=
  if s.staged.any (fun x => x.target = w.target) then
    { s with staged := s.staged.map (fun x => if x.target = w.target then w else x) }
  else { s with staged := s.staged ++ [w] }

/-- The effect of COMMIT written to `u` (R53, R55); `none` while it is checked or waits for the boundary. DESIGN CHOICE (log entry 72): where no write
is pending there is nothing to check, and `commit_state` goes to ACCEPTED at once. -/
def State.commit (s : State) (u : Nat) (a : Agent) : Option Abort × State :=
  if s.commits.any (fun c => overlap c.unit u) then (some .busy, s)
  else
    let ws := s.pendingOf u
    (none, { s.busyNow.wr u 0x0020 0 (if ws = [] then 2 else 1) with commits := s.commits ++ [⟨u, a, ws = [], ws, []⟩] })

/-- The effect of DISCARD written to `u` (R55). -/
def State.discardSets (s : State) (u : Nat) : Abort × State :=
  if s.commits.any (fun c => overlap c.unit u) then (.busy, s)
  else (.ok, { s with staged := s.staged.filter (fun w => !covers u w.target.unit) })

/-- What the accepted commits will apply (R53, R55), in write order. -/
def State.acceptedWrites (s : State) : List StagedWrite :=
  s.staged.filter (fun w => s.commits.any (fun c => c.accepted && c.writes.any (fun x => x.target = w.target)))

/-- How an offending object is named (R54): a table entry by its table. -/
def StagedTarget.place : StagedTarget → Nat × Nat × Nat
  | .obj a => (a.unit, a.idx, a.sub)
  | .ent a => (a.unit, a.idx, 0)

/-- A check ends in refusal (R54, R60). -/
def State.commitRefused (s : State) (c : CommitOp) (code : Abort) (t : StagedTarget) : State :=
  let s1 := { s with
    commits := s.commits.erase c
    staged := s.staged.filter (fun w => !c.orphans.contains w.target) }
  let p := t.place
  ((((s1.wr c.unit 0x0020 0 0).unitResult c.unit code p.1 p.2.1 p.2.2).latch c.unit 1).ran c.unit 0x0030 code).finish c.agent code

/-- COMMIT_CHECK_DONE (R53, R54): the check of the commit on a unit ends. -/
def execCommitCheckDone (unit : Nat) (s : State) : Host.Outcome State Fault Refusal := gathered s fun s =>
  match s.commits.find? (fun c => c.unit = unit && !c.accepted) with
  | some c =>
    if s.mainUp then
      match checkCommit (s.applyWrites s.acceptedWrites) c.writes with
      | some (code, t) => .next (s.commitRefused c code t)
      | none =>
        .next { s.wr unit 0x0020 0 2 with commits := s.commits.map (fun x => if x = c then { x with accepted := true } else x) }
    else .next s
  | none => .next s

/-- The first free slot of a calendar at or after `from_`, wrapping (R30). -/
def freeSlot (cal : List Nat) (from_ : Nat) : Nat :=
  match (List.range 256).find? (fun d => cal.getD ((from_ + d) % 256) 0x7F = 0x7F) with
  | some d => (from_ + d) % 256
  | none => 0

/-- An endpoint of cost `n` takes its slots (R30). -/
def takeSlots (cal : List Nat) (ep n : Nat) : List Nat :=
  let phase := freeSlot cal 0
  (List.range n).foldl (fun cal k => cal.set (freeSlot cal ((phase + k * 256 / n) % 256)) ep) cal

/-- An endpoint put in its place by cost, largest first, equal costs by number (R30). -/
def insertCost (x : Nat × Nat) : List (Nat × Nat) → List (Nat × Nat)
  | [] => [x]
  | y :: t => if x.2 ≤ y.2 then y :: insertCost x t else x :: y :: t

/-- The calendar of a direction (R30). -/
def calendarOf (c : State) (tx : Bool) : List Nat :=
  let costs := (endpoints c.build).map (fun e => (e, costIn c.build c.rd tx e))
  (costs.foldl (fun l x => insertCost x l) []).foldl (fun cal x => if x.2 = 0 then cal else takeSlots cal x.1 x.2) (List.replicate 256 0x7F)

/-- The cells in the FIFOs of the lanes have left by the old calendar up to this slot (R31); those of a channel that owns no slot under the new
one are dropped (DESIGN CHOICE, log entry 111). -/
def State.fifoTurn (s : State) : State :=
  let s1 := (List.range s.build.lanes).foldl (fun s n => s.fifoTo n (s.now - 1)) s
  { s1 with fifo := s1.fifo.filter (fun x => costIn s.build s.rd false x.ch ≠ 0) }

/-- Both calendars are rebuilt (R30, R31). -/
def State.rebuild (s : State) : State :=
  let put (i : Nat) (s : State) (p : Nat × Nat) : State := s.setEnt 0x000 i p.2 p.1
  (calendarOf s true).zipIdx.foldl (put 0x6001) ((calendarOf s false).zipIdx.foldl (put 0x6000) s)

/-- A commit changes a slot cost. -/
def costsDiffer (a b : State) : Bool :=
  (endpoints a.build).any (fun e => costIn a.build a.rd false e ≠ costIn b.build b.rd false e || costIn a.build a.rd true e ≠ costIn b.build b.rd true e)

/-- An object has another value in the new configuration. -/
def differs (a b : State) (u i k : Nat) : Bool := a.rd u i k ≠ b.rd u i k

/-- A lane restarts (R93): its mode, RS-FEC, negotiation, replication, role or polarity has changed value. -/
def laneDiffers (a b : State) (n : Nat) : Bool := [0x1000, 0x1001, 0x1002, 0x1004, 0x1005, 0x1006].any (fun i => differs a b (lnUnit n) i 0)

/-- The accounts of a channel after a commit (R115), `old` holding the configuration before it. -/
def State.accountsCommit (old s : State) (ch : Nat) : State :=
  let u := chUnit ch
  if differs old s u 0x1010 0 then s.pauseModeChange ch (old.rd u 0x1010 0)
  else if differs old s u 0x1011 0 || [0x1014, 0x1015, 0x1016, 0x1017].any (fun i => (List.range 9).any (differs old s u i)) then
    s.marksChange ch
  else s

/-- The endpoints whose gate configuration a set writes (R182). -/
def gateEps (ws : List StagedWrite) : List Nat :=
  (ws.filterMap (fun w => match w.target with
    | .ent a => if a.unit = 0x00A ∧ a.idx = 0x6002 then some a.entry else if a.unit = 0x00A ∧ 0x6100 ≤ a.idx then some (a.idx - 0x6100) else none
    | .obj _ => none)).eraseDups

/-- The sets are applied, with what changes with them (R30, R93, R115, R182, R203, R253, R290, R294). DESIGN CHOICE (log entry
104): a quartered channel that is enabled again, or whose lane starts again, keeps the credit it had (R89). -/
def State.applySets (s : State) (ws : List StagedWrite) : State :=
  let new := s.applyWrites ws
  let lanes := (List.range s.build.lanes).filter (laneDiffers s new)
  let chans := List.range s.build.channels
  let en (c : Nat) : Bool := differs s new (chUnit c) 0x1000 0
  let s1 := (chans.filter (fun c => s.chUp c && (en c || lanes.contains (laneOf c)))).foldl State.channelDown s
  let s2 := lanes.foldl State.laneRestart (s1.applyWrites ws)
  let s3 := (chans.filter (fun c => en c && s2.chUp c)).foldl State.channelUp s2
  let s4 := chans.foldl (fun t c => State.accountsCommit s t c) s3
  let s5 := (chans.filter (fun c => differs s new (chUnit c) 0x1031 0 && new.rd (chUnit c) 0x1031 0 = 0)).foldl State.preemptDown s4
  let s6 := ([0, 1, 2].filter (fun n => differs s new (alUnit n) 0x1000 0 && new.rd (alUnit n) 0x1000 0 = 0)).foldl State.park s5
  let s7 := (gateEps ws).foldl State.gateCommit s6
  let s8 := if differs s new 0x00D 0x1000 0 then s7.fabricEnable (new.rd 0x00D 0x1000 0 = 1) else s7
  let s9 := if differs s new 0x003 0x1001 0 ∨ differs s new 0x003 0x1003 0 then s8.setReg .ppsLast s8.time else s8
  if costsDiffer s new then s9.fifoTurn.rebuild else s9

/-- A commit completes (R53 step 4). -/
def State.commitEnd (s : State) (c : CommitOp) : State :=
  (((s.wr c.unit 0x0020 0 0).unitResult c.unit .ok 0 0 0).ran c.unit 0x0030 .ok).finish c.agent .ok

/-- Every accepted set is applied, together (R53, R55). -/
def State.commitStep (s : State) : State :=
  let done := s.commits.filter CommitOp.accepted
  if done = [] then s
  else
    let ws := s.acceptedWrites
    let s1 := { s with commits := s.commits.filter (fun c => !c.accepted), staged := s.staged.filter (fun w => !ws.contains w) }
    done.foldl State.commitEnd (s1.applySets ws)

/-- COMMIT_APPLY (R53): step 4 of a boundary. -/
def execCommitApply (s : State) : Host.Outcome State Fault Refusal := gathered s fun s => if s.mainUp then .next s.commitStep else .next s

end Sys2Proof.Machine
end

