-- ==== Sys2Proof/Machine/Power.lean ====
section
/-! DEFINITION. Operating modes (R358 to R374): requests, the entry handshake and its rollback, IDLE, Primrose, the steps of a return,
Snowdrop's authority; and the resets of the block with them (R393 to R396). -/
namespace Sys2Proof.Machine

/-- Depth of a mode (R358). -/
def modeDepth (m : Nat) : Nat := if m ≤ 2 then 0 else m - 2

/-- The mode, as the main logic and Snowdrop hold it (R358, R372). -/
def State.setMode (s : State) (m : Nat) : State := (s.wr 0x001 0x5000 0 m).wr 0x001 0x5004 0 m

/-- `power.phase`. -/
def State.setPhase (s : State) (p : Nat) : State := s.wr 0x001 0x5001 0 p

/-- `power.pending`, 0xFF for none. -/
def State.slotMode (s : State) : Nat := s.rd 0x001 0x5002 0
def State.setSlot (s : State) (m : Nat) : State := s.wr 0x001 0x5002 0 m

/-- An ended transition (R373): 0 NONE, 1 DONE, 2 REFUSED, 3 ABORTED, 4 TIMEOUT, 5 OVERRIDDEN. -/
def State.lastResult (s : State) (code target unit reason : Nat) : State :=
  ((((s.wr 0x001 0x5003 0 code).wr 0x001 0x5003 1 target).wr 0x001 0x5003 2 unit).wr 0x001 0x5003 3 reason).wr 0x001 0x5003 4 s.tick32

/-- A result in RUN or CONFIGURE also raises POWER_RESULT (R373). -/
def State.powerResult (s : State) (code target unit reason : Nat) : State :=
  (s.lastResult code target unit reason).raise causePowerResult

/-- MODE_CHANGE (R373): cause 0 request, 1 idle, 2 wake, 3 override. -/
def State.modeRecord (s : State) (old new cause : Nat) : State := s.record 0x1001 0x001 [(1, old), (1, new), (1, cause)]

/-! ### The entry handshake (R363 to R366) -/

/-- The unit asked at an order of Table 16.2. -/
def askedUnit (n : Nat) : Nat := [0, 0x00C, 0x300, 0x00A, 0x200, 0x006, 0x009, 0x004, 0x005].getD n 0x005

/-- A copy that waits in an air link's transmit FIFO and has not begun: it stands behind another (R256). -/
def State.airBehind (s : State) (c : Copy) : Bool := isAir c.ep && c.state = .sending && s.sending c.ep ≠ some c

/-- Copies in the transmit FIFOs that have not begun return to the heads of their queues (R256). -/
def State.airReturn (s : State) : State :=
  { s with
    copies := (s.copies.filter s.airBehind).map (fun (c : Copy) => { c with state := CopyState.queued })
      ++ s.copies.filter (fun c => !s.airBehind c) }

/-- The unit of order `n` is asked and stops its work (R363, Table 16.2). -/
def State.ask (s : State) (n : Nat) : State :=
  let s1 := s.setReg .askOrder n
  match n with
  | 1 => s1.discardAhead (fun _ => true)
  | 2 => s1.airReturn
  | 3 => s1.startTimer .frameWait (Config.ticksOfUs (s.rd 0x001 0x1002 0))
  | 4 => s1.startTimer .frameWait (Config.ticksOfUs (s.rd 0x001 0x1002 0))
  | _ => s1.stopTimer .frameWait

/-- An entry begins (R363). -/
def State.startEntry (s : State) (t : Nat) : State :=
  ((([0, 1, 2].foldl (fun s n => s.setReg (.alClosed n) 0) s).setPhase 1).setReg .origin s.mode |>.setReg .target t).ask 1

/-- What the unit asked answers. -/
inductive EntryAnswer where
  | accept
  | refuse (reason : Nat)
  | wait
  deriving DecidableEq, Repr

/-- The channels named in `primrose_channels`. -/
def State.primroseOn (s : State) (ch : Nat) : Bool := s.isChannel ch && (s.rd 0x001 0x1004 0).testBit ch

/-- Every channel named in `primrose_channels` is on a lane in mode 0x01 or 0x02 (Table 16.2). -/
def State.primroseLanes (s : State) : Bool :=
  (List.range s.build.channels).all (fun ch => !s.primroseOn ch || s.pcsMode (laneOf ch) = 1 || s.pcsMode (laneOf ch) = 2)

/-- A frame is in progress or suspended on a channel (Table 16.2, order 3); one is being received or reassembled (order 4). -/
def State.egressBusy (s : State) : Bool := s.copies.any (fun c => s.isChannel c.ep && (c.state = .sending || c.state = .suspended))
/-- A frame is in progress on an air link, to the radio or from it (Table 16.2, order 2). -/
def State.airBusy (s : State) : Bool :=
  s.copies.any (fun c => isAir c.ep && c.state = .sending) || s.frames.any (fun f => isAir f.ing && !f.committed)
def State.ingressBusy (s : State) : Bool := s.asm ≠ [] || s.frames.any (fun f => s.isChannel f.ing && !f.committed)

/-- The frames still stored (Table 16.2, R364): those with a copy to be sent or held, with a decision to come, or in progress. -/
def State.storedFrames (s : State) : List Frame :=
  s.frames.filter (fun f => s.copies.any (fun c => c.frame = f.id) || s.keyQ.contains f.id || s.decQ.contains f.id || !f.committed)

/-- The answer of the unit asked (Table 16.2, R137, R247, R256, R337, R351); `late` once `frame_wait` has passed. -/
def State.entryAnswer (s : State) (late : Bool) : EntryAnswer :=
  match s.regN .askOrder with
  | 1 => if s.readsOut ≠ 0 then .refuse 1 else if s.cqStaged ≠ [] then .refuse 2 else .accept
  | 2 => if s.airBusy then .refuse 3 else .accept
  | 3 => if s.egressBusy then (if late then .refuse 4 else .wait) else .accept
  | 4 =>
    if s.ingressBusy then (if late then .refuse 5 else .wait)
    else if s.regN .target = 3 ∧ !s.primroseLanes then .refuse 6
    else .accept
  | 5 => if s.rd 0x006 0x5001 0 = 1 ∨ s.updateQ ≠ [] then .wait else .accept
  | 6 => if s.storedFrames.length ≤ s.rd 0x001 0x1003 0 then .accept else .refuse 7
  | 7 => .accept
  | 8 => if s.pfailFrozen then .refuse 9 else if s.monQ ≠ [] ∨ s.nvmQ.any (fun o => !o.reads) then .refuse 8
    else .accept
  | _ => .wait

/-- The units that have accepted are restarted (R365). -/
def State.rollback (s : State) : State :=
  (((s.setPhase 0).setReg .askOrder 0).stopTimer .frameWait).pump

/-- A request starts from a steady mode (R359): for the current mode it is done, from CONFIGURE to RUN it waits for the boundary, and
anything else passes the entry handshake. -/
def State.powerStart (s : State) (t : Nat) : State :=
  if t = s.mode then s.powerResult 1 t 0 0
  else if s.mode = 0 ∧ t = 1 then { s with modeWait := some 1 }
  else s.startEntry t

/-- The pending slot is acted on (R366). -/
def State.actPending (s : State) : State := if s.slotMode = 0xFF then s else (s.setSlot 0xFF).powerStart s.slotMode

/-- A refused entry (R365). -/
def State.entryRefused (s : State) (reason : Nat) : State :=
  let unit := askedUnit (s.regN .askOrder)
  let t := s.regN .target
  ((((s.rollback.bump 0x001 0x8003 0 1).latch 0x001 16).powerResult 2 t unit reason).record 0x1002 0x001 [(1, t), (2, unit), (1, reason)])

/-- An aborted entry (R366): the request in the pending slot starts; a wake input leaves nothing. -/
def State.entryAborted (s : State) : State :=
  let unit := askedUnit (s.regN .askOrder)
  let t := s.regN .target
  let s1 := ((s.rollback.setReg .wakeCause 0).bump 0x001 0x8004 0 1).powerResult 3 t unit 0
  (s1.record 0x1003 0x001 [(1, t), (2, unit), (1, s.slotMode)]).actPending

/-- A request or a wake input has asked for the entry to be given up (Table 16.3). -/
def State.abortWanted (s : State) : Bool := s.slotMode ≠ 0xFF || s.regN .wakeCause ≠ 0

/-! ### Completion of an entry (R364, R370) -/

/-- The held effects of a committed frame stand (R364): one whose key waits is decided, and one whose decision waits has its fold decision, for the
effects alone; no copy is placed any more. -/
def State.standEffects (s : State) (id : Nat) : State :=
  let apply (s : State) : State := match s.frame? id with | some f => s.applyFrame f | none => s
  match s.frame? id with
  | none => s
  | some f =>
    match f.key, f.decision with
    | some k0, none =>
      let k := s.keyNow f k0
      let (d, s1) := s.decide f k
      let g := { f with key := some k, decision := some d }
      apply (State.fold { s1.setFrame g with keyQ := s1.keyQ.erase id } g d)
    | _, some d => apply (if s.decQ.contains id then State.fold { s with decQ := s.decQ.erase id } f d else s)
    | none, none => s.applyFrame f

/-- A stored frame is discarded (R364). -/
def State.discardFrame (s : State) (id : Nat) : State :=
  match s.frame? id with
  | some f => (s.tsCheck f).releaseFrame id
  | none => s

/-- Every frame still stored is discarded, counted once in `sleep_discards` (R364 step 1). -/
def State.discardStored (s : State) : State :=
  let s1 := s.appQ.foldl State.standEffects { s with appQ := [] }
  let s2 := s1.copies.foldl State.keepBuffer { s1 with copies := [] }
  let s3 := (s2.frames.map Frame.id).foldl State.discardFrame s2
  { s3.bump 0x001 0x8006 0 s.storedFrames.length with frames := [], keyQ := [], decQ := [], appQ := [], rxNow := [], asm := [], fifo := [] }

/-- A lane carries a Primrose channel. -/
def State.primroseLane (s : State) (lane : Nat) : Bool := (s.laneChannels lane).any s.primroseOn

/-- A lane stops its PCS (R364 step 3): its `link_state` is DOWN, and nothing is counted. -/
def State.laneSleep (s : State) (lane : Nat) : State :=
  let s1 := (((s.stopTimer (.upHold lane)).stopTimer (.syncTimeout lane)).setReg (.hiBer lane) 0).setReg (.syncHeld lane) 0
  if s.link lane = 0 then s1
  else if s.link lane = 5 then (((s.laneChannels lane).foldl State.channelDown s1)).wr (lnUnit lane) 0x5000 0 1
  else s1.wr (lnUnit lane) 0x5000 0 1

/-- The lanes of a low-power mode (R364 step 3). -/
def State.lanesSleep (s : State) (t : Nat) : State :=
  ((List.range s.build.lanes).filter (fun n => !(t = 3 && s.primroseLane n))).foldl State.laneSleep s

/-- The fabric of a low-power mode (R311): every neighbour is DOWN and the role is ALONE; the ID and the table are kept. -/
def State.fabricSleep (s : State) : State :=
  let s1 := s.allNeighboursDown
  if 2 ≤ s1.role then s1.becomeAlone else s1

/-- Holds, suspended units and HOLDOFF are cleared on every channel, those of Primrose lanes with them (R222). -/
def State.holdsSleep (s : State) : State :=
  (List.range s.build.channels).foldl State.holdoffOver { s with holds := [], asm := [] }

/-- COEX_GNT is held at 1 (R261). -/
def State.grantsHeld (s : State) : State := [0, 1, 2].foldl (fun s i => s.setReg (.coexGnt i) 1) s

/-- COEX_GNT follows the requesters again (R258). -/
def State.grantsFollow (s : State) : State :=
  [0, 1, 2].foldl (fun s i => s.setReg (.coexGnt i) (if s.rd 0x00F 0x5000 i = 2 then 1 else 0)) s

/-- Templates, fold caches, and the tags of the scheduler are cleared (R158, R186). -/
def State.clearBuffers (s : State) : State :=
  let s1 := s.clearTable 0x009 0x6000
  { s1 with
    folds := []
    hid := s1.hid.filter (fun p => match p.1 with | .vtime _ _ => false | .finish _ => false | _ => true) }

/-- The request pins that stay high in a low-power mode (R364 step 4, Table 16.4). -/
def requestPins (m : Nat) : Nat := match m with | 3 => 12 | 4 => 8 | 5 => 0 | _ => 15

/-- The objects of the field book that SRST_N keeps (R337). -/
def bookObjects : List Nat := [0x5001, 0x5002, 0x5003, 0x5004, 0x5005, 0x5006]

/-- The machine with what a reset leaves (Table 18.4, R55, R70, R311, R337): what waits outside, the flash and the pins stay; the field
book stays where `book` is set, and the loss of SD_CLK is counted on from a tick count of 0. -/
def State.lost (s : State) (book : Bool) : State :=
  let s := s.flushHeld
  let s0 : State := { State.reset with
    pending := s.pending, evHold := s.evHold, build := s.build, flash := s.flash, free := s.free, result := s.result, obj := [],
    hid := s.hid.filter (fun p => match p.1 with
      | .pfailLow => true | .sdClkLost => true | .requests => true | .porstLow => true | .srstLow => true
      | .returnStep => true | .returnFrom => true | .srstPending => true
      | .fixedHeld => book | .sdHeld => book | .sdFirst => book | .sdFolded => book | .sdEvent => book | _ => false) }
  let s1 := (s0.wr 0x00D 0x5000 0 s.serial).setReg .sdLostTick (if s.regN .sdClkLost = 1 then s.reg .sdLostTick - s.tick else 0)
  if book then
    { bookObjects.foldl (fun t i => t.wr 0x004 i 0 (s.rd 0x004 i 0)) s1 with
      tab := s.tab.filter (fun e => e.1.unit = 0x004)
      lastFixed := s.lastFixed, lastSd := s.lastSd, lastVar := s.lastVar }
  else s1

/-- The main logic acts on a power-fail warning that has come meanwhile (R349). -/
def State.pfailResume (s : State) : State := if s.regN .pfailLow = 1 then s.pfailAct else s

/-- The copy into a slot is complete (R382): READY, and the command ends. -/
def State.snapReady (s : State) (x : Snapshot) : State :=
  State.finish { s.wr 0x011 0x5000 x.slot 2 with
    snapBusy := s.snapBusy.filter (fun y => y.slot ≠ x.slot)
    snapDone := s.snapDone ++ [x] } x.agent .ok

/-- The copies into snapshot slots complete before the stats group stops (R383). -/
def State.snapshotsEnd (s : State) : State := s.snapBusy.foldl State.snapReady s

/-- Steps 3 and 4 of R364 and what the mode keeps (R370), for SLEEP, DEEP_SLEEP or OFF. -/
def State.enterLow (s : State) (t result : Nat) : State :=
  if t = 5 then (((s.lost false).setMode 5).setReg .requests 0)
  else
    let s0 := s.ringList.foldl State.discardBq (s.discardAhead (fun _ => true))
    let s1 := (((s0.snapshotsEnd.abortJobs false).lanesSleep t).fabricSleep.clearBuffers.holdsSleep.grantsHeld).setReg .edgeRest s.interpolated
    let s2 := if t = 4 then s1.clearTable 0x008 0x6000 else s1
    let s3 := ({ s2 with genQ := [] }.modeRecord s.mode t (if result = 5 then 3 else 0)).bookSleep (t = 4)
    let s4 := ((s3.setMode t).setPhase 0).setReg .requests (requestPins t)
    ((s4.bump 0x001 0x8002 0 1).lastResult result t 0 0).setReg .askOrder 0

/-- The monument has accepted: the entry completes (R364). An entry into CONFIGURE waits for the boundary. -/
def State.completeEntry (s : State) : State :=
  let s1 := (s.stopTimer .frameWait).discardStored
  let t := s.regN .target
  if t = 0 then { s1.setReg .askOrder 9 with modeWait := some 0 } else s1.enterLow t 1

/-- An answer of the unit asked acts (R363, R365, R366). -/
def State.handshake (s : State) (late : Bool) : State :=
  if s.phase ≠ 1 then s
  else match s.entryAnswer late with
    | .wait => s
    | .refuse r => if s.abortWanted then s.entryAborted else s.entryRefused r
    | .accept =>
      if s.abortWanted then s.entryAborted
      else if s.regN .askOrder = 8 then s.completeEntry
      else s.ask (s.regN .askOrder + 1)

/-- HANDSHAKE_ANSWER (R363). -/
def execHandshakeAnswer (s : State) : Host.Outcome State Fault Refusal := gathered s fun s => if s.mainUp then .next (s.handshake false) else .next s

/-- FRAME_WAIT_EXPIRE (R363). -/
def execFrameWaitExpire (s : State) : Host.Outcome State Fault Refusal := gathered s fun s =>
  if s.mainUp ∧ (s.timer .frameWait).isSome then .next (s.handshake true) else .next s

/-! ### Requests (R359, R366) -/

/-- A request meets a handshake (Table 16.3). -/
def State.requestInEntry (s : State) (t : Nat) : State :=
  if s.abortWanted then s.setSlot t
  else if modeDepth (s.regN .target) < modeDepth t then
    if s.regN .askOrder = 9 then State.enterLow { s.setReg .target t with modeWait := none } t 1 else s.setReg .target t
  else if t = s.regN .target then s
  else s.setSlot t

/-- The effect of `power.request` (R359, R366). A request in an object-access frame waits until its response has left: it is the next
response to be queued. -/
def State.powerRequest (s : State) (t : Nat) (inFrame : Bool) : Abort × State :=
  if t = 2 ∨ 5 < t then (.range, s)
  else if s.regN .sdClkLost = 1 ∧ 3 ≤ t then (.modeForbids, s)
  else if s.phase = 1 then (.ok, s.requestInEntry t)
  else if s.phase ≠ 0 then (.ok, s.setSlot t)
  else match s.modeWait with
    | some m => (.ok, if m % 16 = t then s else s.setSlot t)
    | none =>
      if inFrame ∧ t ≠ s.mode then (.ok, s.setReg .requestHeld ((t : Int) + 1 + 16 * (s.responses.length + 1)))
      else (.ok, (s.setReg .requestHeld 0).powerStart t)

/-- A response is on its way as frame `id`: the request that waits for it is now tied to that frame (R359). -/
def State.responseLeft (s : State) (id : Nat) : State :=
  let h := s.regN .requestHeld
  if h = 0 ∨ 2 ^ 20 ≤ h then s
  else if 32 ≤ h then s.setReg .requestHeld ((h : Int) - 16)
  else s.setReg .requestHeld ((h % 16 + 2 ^ 20 * (id + 1) : Nat) : Int)

/-- At a boundary, the request whose response has left the device begins (R359). -/
def State.heldStep (s : State) : State :=
  let h := s.regN .requestHeld
  if h < 2 ^ 20 ∨ (s.frame? (h / 2 ^ 20 - 1)).isSome then s
  else
    let s1 := s.setReg .requestHeld 0
    let t := h % 16 - 1
    if s1.phase = 0 ∧ s1.modeWait = none then s1.powerStart t else s1.setSlot t

/-- A switch between CONFIGURE and RUN takes effect (R359, R372). -/
def State.applyMode (s : State) (x : Nat) : State :=
  let m := x % 16
  let forced : Bool := 16 ≤ x
  let s1 := ({ s with modeWait := none }.modeRecord s.mode m (if forced then 3 else 0)).setMode m
  ((((s1.setPhase 0).setReg .askOrder 0).setReg .wakeCause 0).powerResult (if forced then 5 else 1) m 0 0).pump.actPending

/-- What waits for the boundary is applied. -/
def State.modeStep (s : State) : State := match s.modeWait with | some x => s.applyMode x | none => s

/-- MODE_APPLY (R359): the boundary. -/
def execModeApply (s : State) : Host.Outcome State Fault Refusal := gathered s fun s => if s.mainUp then .next s.modeStep else .next s

/-! ### IDLE (R361, R362) -/

/-- A ring has nothing to do (R361). -/
def State.ringIdle (s : State) (u : Nat) : Bool := s.ringState u ≠ 1 || (s.posDiff u (s.ringT u) (s.ringH u) = 0 && s.scans.get u 0 = 0)

/-- The conditions of R361 hold. -/
def State.idleReady (s : State) : Bool :=
  s.mode = 1 && s.rd 0x001 0x1000 0 = 1
    && s.frames = [] && s.copies = [] && s.rxNow = [] && s.asm = [] && s.genQ = [] && s.responses = []
    && s.ringList.all (fun n => s.ringIdle (tqUnit n) && s.ringIdle (bqUnit n)) && s.mpOps = [] && s.cqStaged = []
    && s.commits = [] && s.rd 0x006 0x5001 0 = 0 && s.updateQ = []
    && [0, 1, 2, 3].all (fun j => jobState (s.job j) ≠ 1 && jobState (s.job j) ≠ 2) && s.nvmQ = [] && s.monQ = []
    && s.mailboxes.all (fun p => !p.2.busy) && s.accessQ = [] && !(s.regN .nvmKnown = 0 && s.nvmState = 1)
    && s.phase = 0 && s.modeWait = none && s.regN .requestHeld = 0

/-- What a frame or a memory operation since the last boundary would have changed. -/
def State.idleTrace (s : State) : Int := s.reg .nextFrame + s.reg .nextTag

/-- The boundaries at which the conditions have held in a row are counted, the one that opens the first whole tick of them included. -/
def State.idleCount (s : State) : State :=
  let s1 := if !s.idleReady then s.setReg .idleTicks 0
    else if s.reg .idleMark = s.idleTrace ∧ s.regN .idleBroken = 0 then s.setReg .idleTicks (s.reg .idleTicks + 1) else s.setReg .idleTicks 1
  (s1.setReg .idleMark s.idleTrace).setReg .idleBroken 0

/-- The device enters IDLE (R361). -/
def State.enterIdle (s : State) : State := ((s.wr 0x001 0x5000 0 2).bump 0x001 0x8000 0 1).setReg .idleTicks 0

/-- The conditions have held for `idle_after` whole ticks. -/
def State.idleDueNow (s : State) : Bool := s.idleReady && s.rd 0x001 0x1001 0 < s.regN .idleTicks

/-- IDLE_ENTER (R361): after step 7 of a boundary. -/
def execIdleEnter (s : State) : Host.Outcome State Fault Refusal := if s.mainUp ∧ s.idleDueNow then .next s.enterIdle else .next s

/-- IDLE_EXIT (R362). -/
def execIdleExit (s : State) : Host.Outcome State Fault Refusal := if s.mainUp then .next s.wake else .next s

/-! ### Wake inputs and Primrose (R326, R367, R371) -/

/-- The code of a wake input in `wake_cause` (Table 14.9). -/
def wakeCode : WakeIn → Nat
  | .source n => 0x1000 + n % 512
  | .wakeN => 0x2000
  | .primrose ch => 0x3000 + ch % 64

/-- An input is watched (R326): a selected source that can wake, WAKE_N, or in SLEEP the Primrose line of a channel; in OFF, WAKE_N. -/
def State.watched (s : State) (w : WakeIn) : Bool :=
  match w with
  | .wakeN => true
  | .source n => s.mode ≠ 5 && wakeCapable s.build n && (List.range 16).any (fun k => s.rd 0x002 0x1000 k = n)
  | .primrose ch => s.mode = 3 && s.primroseOn ch

/-- The step at which a return begins (R367, R369): 2 where OFF has left the core regulator on. -/
def State.returnStart (s : State) : Nat := if s.mode = 4 ∧ s.regN .returnFrom = 5 then 2 else 1

/-- A return begins (R367): the request pin of its first step rises. -/
def State.startReturn (s : State) (step from_ : Nat) : State :=
  (((s.setPhase 2).setReg .returnStep step).setReg .returnFrom from_).setReg .requests ((if step = 2 then s.regN .requests ||| 12 else s.regN .requests ||| 8 : Nat) : Int)

/-- The first input fires (R326, R367). -/
def State.wakeFires (s : State) (w : WakeIn) : State :=
  let s1 := (s.wr 0x002 0x5001 0 (wakeCode w)).setReg .wakeCause ((wakeCode w : Int) + 1)
  s1.startReturn s.returnStart (if s.mode = 4 ∧ s.regN .returnFrom = 5 then 5 else s.mode)

/-- WAKE_INPUT (R326, R366): in a low-power mode the first input starts the return; during a handshake it has the entry given up. During a return it
takes the pending slot from a request there, and asks for no mode of its own; an entry into CONFIGURE that has been accepted goes on (DESIGN CHOICE,
log entry 96). -/
def execWakeInput (input : WakeIn) (s : State) : Host.Outcome State Fault Refusal := gathered s fun s =>
  if s.regN .porstLow = 1 ∨ !s.watched input then .next s
  else if 3 ≤ s.mode ∧ s.phase = 0 then .next (s.wakeFires input)
  else if s.phase = 2 then .next (s.setSlot 0xFF)
  else if s.mainUp ∧ s.phase = 1 ∧ s.regN .askOrder ≠ 9 then .next (s.setReg .wakeCause ((wakeCode input : Int) + 1))
  else .next s

/-- Sixteen copies of the station address behind six octets of 0xFF (R371). -/
def magicPattern (addr : Nat) : List Octet := List.replicate 6 0xFF ++ (List.replicate 16 (toMsb 6 addr)).flatten

/-- The pattern stands in the frame at an octet from 12 on (R371). -/
def hasMagic (addr : Nat) (l : List Octet) : Bool :=
  addr ≠ 0 && (List.range l.length).any (fun k => 12 ≤ k && (l.drop k).take 102 = magicPattern addr)

/-- A pattern entry matches a frame (R371, Table 16.6): the octets that MASK selects, in frame order. -/
def primroseMatch (e : Nat) (l : List Octet) : Bool :=
  let sel := (List.range 128).filter (fun k => e.testBit (127 - k))
  e.testBit 191 && sel.all (fun k => k < l.length) && crc crc32c (sel.map (fun k => l.getD k 0)) = field e 128 32

/-- A frame on a Primrose channel wakes the device (R371). Its octets run to its last FCS octet (Table 0.4). -/
def State.primroseHit (s : State) (ch : Nat) (frame : List Octet) : Bool :=
  frame.drop (frame.length - 4) = fcsOctets (frame.take (frame.length - 4)) && 64 ≤ frame.length && frame.length ≤ s.maxFrame ch
    && ((s.rd 0x001 0x1005 0 = 1 && hasMagic (s.rd (chUnit ch) 0x1002 0) frame)
      || (List.range 16).any (fun k => primroseMatch (s.ent 0x001 0x6000 k) frame))

/-- PRIMROSE_FRAME (R371): every frame is discarded; the first match fires the line of its channel (R326), and MF's Primrose function is
high until the return ends (R399). -/
def execPrimroseFrame (ch : Nat) (frame : List Octet) (s : State) : Host.Outcome State Fault Refusal := gathered s fun s =>
  if s.regN .porstLow = 0 ∧ s.phase = 0 ∧ s.watched (.primrose ch) ∧ s.chUp ch ∧ s.primroseHit ch frame then
    .next (((s.bump 0x001 0x8009 0 1).setReg .primroseHigh 1).wakeFires (.primrose ch))
  else .next s

/-! ### The return (R367 to R369) -/

/-- A step has passed (Table 16.4): the next request rises, or the PLL is awaited (5), or the restore (6). -/
def State.stepPassed (s : State) : Nat → State
  | 1 => (s.setReg .returnStep 2).setReg .requests (s.regN .requests ||| 4 : Nat)
  | 2 => s.setReg .returnStep 5
  | 5 => (s.setReg .returnStep 3).setReg .requests (s.regN .requests ||| 2 : Nat)
  | 3 => (s.setReg .returnStep 4).setReg .requests (s.regN .requests ||| 1 : Nat)
  | _ => s.setReg .returnStep 6

/-- A return is at a step. -/
def State.atStep (s : State) (n : Nat) : Bool := s.regN .porstLow = 0 && s.phase = 2 && s.regN .returnStep = n

/-- RETURN_READY (R367): the filtered ready signal of a step. -/
def execReturnReady (step : Nat) (s : State) : Host.Outcome State Fault Refusal := gathered s fun s =>
  if 1 ≤ step ∧ step ≤ 4 ∧ s.atStep step then .next (s.stepPassed step) else .next s

/-- PLL_LOCK (R367). -/
def execPllLock (s : State) : Host.Outcome State Fault Refusal := gathered s fun s =>
  if s.atStep 5 then .next ((s.setReg .pllLost 0).stepPassed 5) else .next s

/-- A step has timed out (R369): the requests fall, and the record goes to the Snowdrop ring. From OFF, a later step leaves DEEP_SLEEP with
nothing retained; the core regulator stays on, since a later return runs from step 2 (log entry 25). -/
def State.stepTimedOut (s : State) : State :=
  let step := s.regN .returnStep
  let from_ := s.regN .returnFrom
  let m := if from_ = 5 then (if step = 1 then 5 else 4) else from_
  let s0 := ((((s.setPhase 0).setReg .returnStep 0).setReg .wakeCause 0).setReg .returnView 0).setMode m
  let s1 := if m = 5 then s0 else s0.grantsHeld
  let s2 := (s1.setReg .requests (requestPins m)).bump 0x001 0x8005 0 1
  (s2.lastResult 4 (if from_ = 5 then 0 else s.regN .origin) step 0).recordSd 0x1004 0x001 [(1, from_), (1, step)]

/-- RETURN_STEP_TIMEOUT (R369). -/
def execReturnStepTimeout (s : State) : Host.Outcome State Fault Refusal := gathered s fun s =>
  if s.regN .porstLow = 0 ∧ s.phase = 2 ∧ 1 ≤ s.regN .returnStep ∧ s.regN .returnStep ≤ 5 then .next s.stepTimedOut else .next s

/-- The cause that fired, as an ordinary cause (R326): a Primrose line and WAKE_N have none but WAKE. -/
def State.firingCause (s : State) : State :=
  let c := s.regN .wakeCause - 1
  if c / 0x1000 ≠ 1 then s
  else
    let n := c % 512
    match levelCause? s.build n with
    | some l => s.raise l
    | none =>
      if sharedSource s.build n then
        let (f, s1) := s.takeFree
        s1.raise (causeLinkChange (Config.wakeLane f).toNat)
      else s.raise (edgeCause s.build n)

/-- What every return by a wake ends with (R368): WAKE, the cause that fired, POWER_RESULT. -/
def State.wakeRaised (s : State) : State := (s.firingCause.raise causeWake).raise causePowerResult

/-- What comes back at the end of a return from SLEEP or DEEP_SLEEP (R195, R278, R291). -/
def State.restore (s : State) (m : Nat) : State :=
  let s1 := if m = 3 then s.sleepPasses else s.wr 0x003 0x5001 0 0
  let s2 := (s1.listed 0x00B 0x6001).foldl (fun s p => s.setEnt 0x00B 0x6001 p.1 (setBit p.2 62 false)) s1
  s2.listedQueues.foldl (fun s q => if qRate (s.qCfg q) = 0 then s else s.setReg (.shaper q) ((qBurst (s.qCfg q) : Int) * 65536)) s2

/-- The registers of a return are cleared. -/
def State.returnDone (s : State) : State :=
  (((((s.setPhase 0).setReg .returnStep 0).setReg .returnFrom 0).setReg .wakeCause 0).setReg .primroseHigh 0).setReg .returnView 0

/-- Slot 0 of a tick. -/
def State.slotZero (s : State) : State := { s with slot := 0 }

/-! ### Snowdrop's authority (R372) -/

/-- A settlement is counted, latched and recorded. -/
def State.settled (s : State) (main view : Nat) : State :=
  ((s.bump 0x001 0x8008 0 1).latch 0x001 17).record 0x1005 0x001 [(1, main), (1, view)]

/-- A forced entry (Table 16.7): the program in progress completes, frames are cut as where a channel goes down (R99), and the entry
completes. What the host port has read ahead is discarded with it (R245). -/
def State.forcedEntry (s : State) (view : Nat) : State :=
  let s1 := if s.nvmOn ∧ s.monUp ∧ s.progGroup ≠ [] then (s.programGroup s.progGroup).setReg .progCount 0 else s
  let s2 := ((List.range s.build.channels).filter s1.chUp).foldl State.channelDown s1
  (s2.setReg .origin (if s.mode = 0 then 0 else 1)).discardStored.enterLow view 5

/-- The mode in which a return ends (R368, R372): `o`, or RUN or CONFIGURE as Snowdrop's view says. -/
def State.returnMode (s : State) (o : Nat) : Nat :=
  match s.regN .returnView with
  | 1 => 0
  | 2 => 1
  | _ => o

/-- The result of a return, itself a transition (R373). -/
def State.returnResult (s : State) (m : Nat) : State :=
  s.lastResult (if s.regN .returnView = 0 then 1 else 5) (if 4 ≤ s.regN .returnView then s.regN .returnView - 1 else m) 0 0

/-- A return that Snowdrop's view ends in a low-power mode goes on to it (R372, Table 16.7). -/
def State.returnOn (s : State) (view : Nat) : State := if 4 ≤ view then s.forcedEntry (view - 1) else s

/-- The return from SLEEP or DEEP_SLEEP ends (R368), at slot 0 of a tick that does not count (R24). -/
def State.returnLow (s : State) : State :=
  let m := s.mode
  let o := s.returnMode (s.regN .origin)
  let s1 := (((s.restore m).slotZero.setMode o).setReg .requests 15).grantsFollow
  let s2 := ((s1.setFb 2 false).modeRecord m o 2).bookReturn m
  let s3 := s2.wakeRaised.returnResult o
  let s4 := if s3.rd 0x003 0x5002 0 = 1 then s3.raise causeTrefLost else s3
  let s5 := (List.range s.build.lanes).foldl State.sdCheck s4.returnDone
  (s5.returnOn (s.regN .returnView)).pfailResume.pump.actPending

/-- The return from OFF, from the detector's reset or from a PLL loss ends in CONFIGURE, the machine being as a reset leaves it; a return
by WAKE_N ends with what R368 lists. The Snowdrop records of a PLL loss are offered (R328). -/
def State.returnOff (s : State) : State :=
  let o := s.returnMode 0
  let s1 := (s.slotZero.setMode o).setReg .requests 15
  let s2 := if s.regN .wakeCause = 0 then s1.bookOffers else (((s1.modeRecord 5 o 2).bookReturn 5).wakeRaised).returnResult o
  (s2.returnDone.returnOn (s.regN .returnView)).pfailResume.actPending

/-- SRST_N has come before the return ended (R395): the main domain is reset now. -/
def State.lateReset (s : State) : State := if s.regN .srstPending = 1 then ((s.lost true).setReg .srstPending 0).returnDone else s

/-- RETURN_END (R368): the restore is over. -/
def execReturnEnd (s : State) : Host.Outcome State Fault Refusal := gathered s fun s =>
  if s.atStep 6 then .next (if s.regN .returnFrom = 5 then s.returnOff.lateReset else s.returnLow.lateReset) else .next s

/-- SNOWDROP_OVERRIDE (R372, Table 16.7): Snowdrop's view is `view`. At a return the view that differs from the mode retained, CONFIGURE where nothing
is retained, is the mode in which the return ends; IDLE is RUN to Snowdrop (DESIGN CHOICE, log entry 96). -/
def execSnowdropOverride (view : Nat) (s : State) : Host.Outcome State Fault Refusal := gathered s fun s =>
  if 5 < view ∨ s.regN .porstLow = 1 then .next s
  else if s.phase = 2 then
    let kept := if s.regN .returnFrom = 5 then 0 else s.regN .origin
    if view = 2 ∨ view = s.returnMode kept then .next s
    else .next ((s.settled kept view).setReg .returnView ((view : Int) + 1))
  else if !s.mainUp ∨ s.phase = 1 then .next s
  else if 3 ≤ view then .next ((s.settled s.mode view).forcedEntry view)
  else if view = 2 ∨ view = s.mode ∨ (s.mode = 2 ∧ view = 1) then .next s
  else .next { (s.settled s.mode view).wake.wr 0x001 0x5004 0 view with modeWait := some (16 + view) }

/-! ### Resets and clocks (R393 to R396, R401) -/

/-- PORST_ASSERT (R394): in every mode; the request pins are 0 while PORST_N is low (R388). -/
def execPorstAssert (s : State) : Host.Outcome State Fault Refusal := gathered s fun s =>
  let s1 := (((s.lost false).setMode 5).setReg .requests 0).setReg .porstLow 1
  .next ((((s1.returnDone).setReg .srstPending 0).setReg .srstLow 0).setReg .pllLost 0)

/-- PORST_RELEASE (R389, R394, R401): SERIAL_ID is sampled, and the return from OFF begins at step 1. -/
def execPorstRelease (serial : Nat) (s : State) : Host.Outcome State Fault Refusal := gathered s fun s =>
  if s.regN .porstLow = 1 then
    .next (((s.wr 0x00D 0x5000 0 (serial % 2 ^ 64)).setReg .porstLow 0).startReturn 1 5)
  else .next s

/-- SRST_ASSERT (R395). In a low-power mode it acts as a wake, and the main domain is reset when the return has ended. -/
def execSrstAssert (s : State) : Host.Outcome State Fault Refusal := gathered s fun s =>
  if s.regN .porstLow = 1 ∨ s.mode = 5 ∨ s.regN .srstLow = 1 then .next s
  else
    let s1 := s.setReg .srstLow 1
    if s.phase = 2 then .next (s1.setReg .srstPending 1)
    else if s.mode ≤ 2 then .next (s1.lost true)
    else .next ((s1.setReg .srstPending 1).startReturn s.returnStart (if s.regN .returnFrom = 5 then 5 else s.mode))

/-- SRST_RELEASE (R395): the main domain initialises, in CONFIGURE. -/
def execSrstRelease (s : State) : Host.Outcome State Fault Refusal := gathered s fun s =>
  if s.regN .srstLow = 1 then
    let s1 := s.setReg .srstLow 0
    .next (if s1.mainUp then s1.pfailResume else s1)
  else .next s

/-- SD_CLK_LOST (R393), with the main domain powered. -/
def execSdClkLost (s : State) : Host.Outcome State Fault Refusal :=
  if s.mainUp ∧ s.regN .sdClkLost = 0 then
    .next (((s.setReg .sdClkLost 1).setReg .sdLostTick s.tick).record 0x1201 0x000 [])
  else .next s

/-- SD_CLK_RESTORED (R393): recorded by the main domain while it runs. -/
def execSdClkRestored (s : State) : Host.Outcome State Fault Refusal :=
  if s.regN .sdClkLost = 1 ∧ !s.mainUp then .next (s.setReg .sdClkLost 0)
  else if s.regN .sdClkLost = 1 then
    .next ((s.setReg .sdClkLost 0).record 0x1202 0x000 [(4, min 0xFFFFFFFF ((s.tick : Int) - s.reg .sdLostTick).toNat)])
  else .next s

/-- PLL_LOCK_LOSS (R393): LOGIC_ISO_N falls; the record goes to the Snowdrop ring, the return runs from step 2, and what the restart of the
main domain leaves is as after SRST_N but for PLL_LOSS, which is latched. Snowdrop sees it wherever the PLL has locked: in every mode with CCLK, in
reset too, and in a return from its lock on. -/
def execPllLockLoss (s : State) : Host.Outcome State Fault Refusal := gathered s fun s =>
  if s.regN .porstLow = 0 ∧ ((s.mode ≤ 2 ∧ s.phase ≠ 2) ∨ (s.phase = 2 ∧ (s.regN .returnStep = 3 ∨ s.regN .returnStep = 4 ∨ s.regN .returnStep = 6))) then
    let s1 := ((s.recordSd 0x1203 0x000 [(1, s.mode)]).lost true).latch 0x000 17
    .next (((s1.setReg .pllLost 1).setReg .requests 14).startReturn 2 5)
  else .next s

end Sys2Proof.Machine
end

