-- ==== Sys2Proof/Machine/Stats.lean ====
section
/-! DEFINITION. Statistics: `clear` and snapshots (R379 to R384). -/
namespace Sys2Proof.Machine

/-- The channel or air link of a statistics block (Table 17.1). -/
def blockOwner (u : Nat) : Option Nat :=
  if 0x500 ≤ u ∧ u < 0x540 then some (u - 0x500 + 0x200) else if 0x540 ≤ u ∧ u < 0x543 then some (u - 0x540 + 0x300) else none

/-- The units that a snapshot of `u` covers, ascending (R381): its subtree, and the blocks of the channels and air links in it. -/
def coveredUnits (b : Build) (u : Nat) : List Nat :=
  (List.range 0x543).filter (fun x =>
    (unitKind? b x).isSome && (covers u x || (match blockOwner x with | some o => covers u o | none => false)))

/-- The counters of a unit, by index and sub-index: every object with an index from 0x8000 to 0x8FFF (R381). -/
def countersOf (b : Build) (u : Nat) : List (Nat × Nat) :=
  match unitKind? b u with
  | none => []
  | some k =>
    ((unitRows b k).filter (fun r => 0x8000 ≤ r.idxLo && r.idxLo < 0x9000)).flatMap (fun r =>
      (List.range (r.idxHi + 1 - r.idxLo)).flatMap (fun i => (List.range (r.subHi + 1 - r.subLo)).map (fun k => (r.idxLo + i, r.subLo + k))))

/-- The values a snapshot latches, in their order, each with its width in octets (R381, R384). -/
def State.counterValues (s : State) (u : Nat) : List (ObjAddr × Nat × Nat) :=
  (coveredUnits s.build u).flatMap (fun x =>
    (countersOf s.build x).map (fun c => (⟨x, c.1, c.2⟩, counterBits x c.1 / 8, s.rd x c.1 c.2)))

/-- A snapshot is being taken into a slot, or waits for the boundary. -/
def State.capturing (s : State) (slot : Nat) : Bool := s.snapWait.any (fun x => x.slot = slot) || s.snapBusy.any (fun x => x.slot = slot)

/-- The effect of `stats.snapshot` (R381); `none` while it is being taken. -/
def State.snapshot (s : State) (a : Agent) (u slot : Nat) : Option Abort × State :=
  if 1 < slot ∨ (unitKind? s.build u).isNone then (some .range, s)
  else if s.capturing slot then (some .busy, s)
  else (none, { s with snapWait := s.snapWait ++ [⟨slot, u, a, []⟩] })

/-- A slot takes a snapshot (R382): the values are those of the closing tick, and `snap_tick` will be the tick after it. -/
def State.latchSnap (s : State) (x : Snapshot) : State :=
  let vs := s.counterValues x.unit
  let s1 := (((s.wr 0x011 0x5000 x.slot 1).wr 0x011 0x5001 x.slot x.unit).wr 0x011 0x5002 x.slot ((s.tick + 1) % 2 ^ 32)).wr 0x011 0x5003 x.slot vs.length
  { s1.wr 0x011 0x5004 x.slot (leaseCode x.agent) with
    snapDone := s1.snapDone.filter (fun y => y.slot ≠ x.slot)
    snapBusy := s1.snapBusy ++ [{ x with values := vs }] }

/-- Every accepted snapshot latches, before the boundary counts anything (R382, R383). -/
def State.latchSnaps (s : State) : State := s.snapWait.foldl State.latchSnap { s with snapWait := [] }

/-- SNAPSHOT_LATCH (R382). -/
def execSnapshotLatch (s : State) : Host.Outcome State Fault Refusal := if s.mainUp then .next s.latchSnaps else .next s

/-- SNAPSHOT_DONE (R382). -/
def execSnapshotDone (slot : Nat) (s : State) : Host.Outcome State Fault Refusal :=
  match s.snapBusy.find? (fun x => x.slot = slot) with
  | some x => if s.mainUp then .next (s.snapReady x) else .next s
  | none => .next s

/-- A block is cleared (R379, R380): its counters are 0, every bit of `half_range` is set, and HALF_RANGE is latched. -/
def State.clearBlock (s : State) (u : Nat) : State :=
  let cs := countersOf s.build u
  let s1 := cs.foldl (fun s c => s.wr u c.1 c.2 0) s
  (s1.wr u 0x5000 0 (cs.foldl (fun a c => a ||| 2 ^ statBit u c.1) 0)).latch u 16

/-- The clears of the closing tick take effect, after its snapshots (R380, R383). -/
def State.clearBlocks (s : State) : State := s.clearWait.foldl State.clearBlock { s with clearWait := [] }

/-- STATS_CLEAR_APPLY (R380). -/
def execStatsClearApply (s : State) : Host.Outcome State Fault Refusal := if s.mainUp then .next s.clearBlocks else .next s

/-- The effect of `clear` on a block (R380). -/
def State.statsClear (s : State) (u : Nat) : State := { s with clearWait := s.clearWait ++ [u] }

end Sys2Proof.Machine
end

