-- ==== Sys2Proof/Machine/Resolve.lean ====
section
/-! DEFINITION. How an access finds its object (R43 to R49): the path, the row of the dictionary, the agent, the range of a value. -/
namespace Sys2Proof.Machine

/-- What a path names: a unit here, a unit of another member of the fabric with the rest of the path, or nothing; then the last unit that
exists. -/
inductive Place where
  | here (u : Nat)
  | member (id : Nat) (rest : List Nat)
  | absent (last : Nat)
  deriving DecidableEq, Repr

/-- A path is followed from a unit (R43, R44); `first` where the next element may name root itself. -/
def State.walk (s : State) : Nat → Bool → List Nat → Place
  | cur, _, [] => .here cur
  | cur, first, e :: t =>
    if cur = 0x00D then
      if !s.members.contains e then .absent 0x00D
      else if e = s.ownId then s.walk 0 true t
      else .member e t
    else if first && e = 0 then s.walk 0 false t
    else if (childrenOf s.build cur).contains e then s.walk e false t
    else .absent cur

/-- The place of a path of 1 to 8 elements (R43). -/
def State.resolvePath (s : State) (path : List Nat) : Place :=
  if path = [] ∨ 8 < path.length then .absent 0 else s.walk 0 true path

/-- A value of `root.mf_slot` is in range (Tables 18.6 and 18.7). -/
def mfSlotGood (b : Build) (v : Nat) : Bool :=
  let n := field v 0 16
  field v 16 8 = 0
    && (match field v 24 4 with
        | 0 => n = 0
        | 1 => field n 10 6 = 0 && (gateEndpoints b).contains (field n 3 7)
        | 2 => n = 0
        | 3 => n ≤ 2
        | 4 => field n 5 11 = 0 && field n 0 4 < b.lanes
        | _ => false)

/-- A value is in the range of its row (R46). -/
def rangeGood (b : Build) (v : Nat) : Range → Bool
  | .any => true
  | .between lo hi => lo ≤ v && v ≤ hi
  | .signedBetween lo hi => lo ≤ signed 32 v && signed 32 v ≤ hi
  | .cellsFrom lo => lo ≤ v && v ≤ b.cells
  | .rings => v < b.rings
  | .aligned64 => v % 64 = 0
  | .etherType => 0x0600 ≤ v && v ≤ 0xFFFF && v ≠ 0x8100 && v ≠ 0x88A8 && v ≠ 0x8808
  | .channelBits => v < 2 ^ b.channels
  | .laneBits => v < 2 ^ b.lanes
  | .unicast => !v.testBit 40
  | .userOffset => field v 10 6 = 0 && !v.testBit 7
  | .action => actionGood b v
  | .wakeSource => v = 0x1FF || wakeCapable b v
  | .primroseBits => v < 2 ^ b.channels && ((List.range 64).filter (fun i => v.testBit i)).length ≤ 8
  | .mfSlot => mfSlotGood b v
  | .dpTarget => (0x6000 ≤ v && v ≤ 0x6FFF) || v = 0x0004 || v = 0x0021

/-- A value has the range of its type and of its row (R46, Table 2.2). -/
def valueGood (b : Build) (r : ObjRow) (v : Nat) : Bool :=
  (r.type ≠ .time80 || v % 2 ^ 32 < 1000000000) && rangeGood b v r.range

/-- The octets that a write of an object carries (R46). -/
def ObjType.writeSize : ObjType → Nat
  | .cmd n => n
  | t => t.size

/-- How the octets of an object fall into fields, each sent least significant first by the mailbox and the aperture (R46, Table 2.2). -/
def fieldSizes : ObjType → Nat → List Nat
  | .time80, _ => [6, 4]
  | .cmd 3, _ => [2, 1]
  | .cmd 8, 0x7002 => [4, 4]
  | .octets n, _ => List.replicate n 1
  | t, _ => [t.writeSize]

/-- Octets with each field turned round. -/
def turnFields : List Nat → List Octet → List Octet
  | [], l => l
  | n :: t, l => (l.take n).reverse ++ turnFields t (l.drop n)

/-- What an access answers: its code, `none` where it completes later; the octets it returns, most significant first; the state. -/
structure Reply where
  code  : Option Abort
  data  : List Octet
  state : State
  deriving DecidableEq, Repr

/-- A write or command is refused (R49): nothing changes but ACCESS_REFUSED of the unit. -/
def State.refuse (s : State) (u : Nat) (c : Abort) : Reply :=
  ⟨some c, if c = .leaseHeld then s.leaseData u else [], s.refusedAt u c⟩

end Sys2Proof.Machine
end

