-- ==== Sys2Proof/Machine/Entries.lean ====
section
/-! DEFINITION. Writes of whole table entries (R67): each table by the rule of its own chapter. -/
namespace Sys2Proof.Machine

/-- A Primrose pattern is in range (Table 16.6). -/
def patternGood (v : Nat) : Bool := field v 160 31 = 0 && field v 192 64 = 0 && !(v.testBit 191 && field v 0 128 = 0)

/-- Two ranges of octets, each with its first and its length, share one. -/
def meets (a n b m : Nat) : Bool := 0 < n && 0 < m && a < b + m && b < a + n

/-- A guard profile is in range (R265). -/
def profileGood (v : Nat) : Bool :=
  let w := polyOctets (profPoly v)
  profClass v ≠ 3 && profStreamW v ≠ 3 && profBase v ≠ 3 && profRegLen v ≠ 0 && field v 0 12 = 0 && !v.testBit 56
    && profRegOff v + profRegLen v ≤ 256 && profChkOff v + w ≤ 256 && profStreamOff v + streamOctets (profStreamW v) ≤ 256
    && !(profClass v = 1 && (meets (profChkOff v) w (profRegOff v) (profRegLen v)
        || meets (profChkOff v) w (profAliveOff v) (if profAliveW v = 0 then 0 else 1)
        || meets (profChkOff v) w (profStreamOff v) (streamOctets (profStreamW v))))

/-- An endpoint entry is in range (R179, Table 7.3). -/
def epEntryGood (b : Build) (e v : Nat) : Bool :=
  if !epPresent b e then v = 0
  else
    field v 21 4 = 0 && field v 0 8 = 0 && field v 64 32 = 0 && field v 208 48 = 0 && 1 ≤ field v 49 9 && field v 49 9 ≤ 256
      && (List.range 8).all (fun c => field v (25 + 2 * c) 2 ≠ 3) && 1 ≤ field v 8 13 && field v 8 13 ≤ 4096 && 52 ≤ epCycle v
      && epCycle v ≤ 1600000000 && epBaseTime v % 2 ^ 32 < 1000000000

/-- A gate list entry is in range (Table 7.4). -/
def gateEntryGood (v : Nat) : Bool := field v 32 24 = 0 && 52 ≤ field v 0 32 && field v 0 32 ≤ 1600000000

/-- A staged entry joins the pending set, if its value is in range and no commit that runs holds its unit (R52, R55). -/
def State.stageEntry (s : State) (a : Agent) (u i e v : Nat) (good : Bool) : Abort × State :=
  if !good then (.range, s) else if s.stageBusy u then (.busy, s) else (.ok, s.stage ⟨.ent ⟨u, i, e⟩, v, a⟩)

/-- An entry that is written at once. -/
def State.plainEntry (s : State) (u i e v : Nat) (good : Bool) : Abort × State := if good then (.ok, s.setEnt u i e v) else (.range, s)

/-- The write of one whole entry of a table that may be written (R67): `none` where its access waits for it (R131, R138). -/
def State.entryWrite (s : State) (a : Agent) (u i e : Nat) (octets : List Octet) : Option Abort × State :=
  let v := ofLsb octets
  let told (r : Abort × State) : Option Abort × State := (some r.1, r.2)
  if queuedTable u i then
    if s.updateGood u i e v then
      let t := s.queueUpdate u i e v a
      (if t.updateQ.getLast?.any (fun w => w.held ≠ 0) then none else some .ok, t)
    else (some .range, s)
  else match unitKind? s.build u, i with
    | some .power, _ => told (s.stageEntry a u i e v (patternGood v))
    | some .interrupt, _ => told (s.sourceEntryWrite e v)
    | some .monument, _ => s.atlasWrite a e octets
    | some .legend, _ => told (s.plainEntry u i e v (endpointSetGood s.build v))
    | some .flow, 0x6001 => told (s.policerEntryWrite e v)
    | some .flow, _ => told (s.plainEntry u i e v (v < s.build.rings))
    | some .sched, 0x6000 => told (s.queueEntryWrite e v)
    | some .sched, 0x6002 => told (s.stageEntry a u i e v (epEntryGood s.build e v))
    | some .sched, _ => told (s.stageEntry a u i e v (gateEntryGood v))
    | some .guard, 0x6000 => told (s.stageEntry a u i e v (profileGood v))
    | some .guard, 0x6001 => told (s.streamEntryWrite e v)
    | some .guard, _ => told (s.jobWrite e v (s.sourceCheck a v))
    | _, _ => (some .readOnly, s)

/-- The atlas is LOADING or APPLYING: every other write ends with BUSY (R355). -/
def State.atlasBusy (s : State) : Bool := s.rd 0x005 0x500B 0 = 1 || s.rd 0x005 0x500B 0 = 2

end Sys2Proof.Machine
end

