-- ==== Sys2Proof/Machine/Dataport.lean ====
section
/-! DEFINITION. The data port (R65 to R68): one transfer context for each caller. -/
namespace Sys2Proof.Machine

/-- A context object as it reads (Table 2.10). -/
def State.ctxRead (s : State) (a : Agent) (i k : Nat) : Nat :=
  let c := s.ctx a
  match i with
  | 0x4000 => if k = 0 then c.pathLen else c.path.getD (k - 1) 0
  | 0x4001 => c.tIndex
  | 0x4002 => c.offset
  | 0x4003 => c.length
  | _ => c.status.code

/-- The size of an entry and of a whole table. -/
def State.tableSize (s : State) (t : Nat × Nat) : Nat × Nat :=
  match s.shapeOf t.1 t.2 with
  | some sh => (sh.1, sh.1 * sh.2)
  | none => (1, 0)

/-- The snapshot slot of a table of the statistics group is CAPTURING (R382): a `dp_target` that names it ends with BUSY (R383). -/
def State.slotBusy (s : State) (u i : Nat) : Bool := u = 0x011 && s.snapBusy.any (fun x => x.slot = i % 2)

/-- What a path and an index name as a data-port target (R66): checks 1 to 4, and a TABLE. A target in another member is not reached (log entry
26). -/
def State.dpResolve (s : State) (a : Agent) (path : List Nat) (i : Nat) : Except Abort Nat :=
  match s.resolvePath path with
  | .here u =>
    match s.lookupOwn a u i 0 with
    | .error c => .error c
    | .ok r => if r.type ≠ .table then .error .modeForbids else if s.slotBusy u i then .error .busy else .ok u
  | _ => .error .noUnit

/-- A `dp_target` write (R66). -/
def State.dpTarget (s : State) (a : Agent) (v : Nat) : Abort × State :=
  let c := s.ctx a
  match s.dpResolve a (c.path.take c.pathLen) v with
  | .error e => (e, s)
  | .ok u => (.ok, s.setCtx a { c with target := some (u, v), tIndex := v, offset := 0, length := 0, status := .ok, gather := [] })

/-- The check of `dp_offset` or `dp_length` (R66): `other` is the other one as held. -/
def State.dpPlace (s : State) (a : Agent) (v other : Nat) : Abort :=
  match (s.ctx a).target with
  | none => if v = 0 then .ok else .modeForbids
  | some t =>
    let z := s.tableSize t
    if v % z.1 ≠ 0 then .align else if z.2 < v + other ∨ 2 ^ 32 - 8 < v then .range else .ok

/-- A `dp_offset` write (R66). The part of an entry that has been gathered is dropped with it (log entry 27). -/
def State.dpOffset (s : State) (a : Agent) (v : Nat) : Abort × State :=
  let c := s.ctx a
  match s.dpPlace a v c.length with
  | .ok => (.ok, s.setCtx a { c with offset := v, gather := [] })
  | e => (e, s)

/-- A `dp_length` write (R66). -/
def State.dpLength (s : State) (a : Agent) (v : Nat) : Abort × State :=
  let c := s.ctx a
  match s.dpPlace a v c.offset with
  | .ok => (.ok, s.setCtx a { c with length := v })
  | e => (e, s)

/-- A `dp_path_len` or `dp_path` write (R66). -/
def State.dpPath (s : State) (a : Agent) (k v : Nat) : State :=
  let c := s.ctx a
  s.setCtx a (if k = 0 then { c with pathLen := v } else { c with path := c.path.set (k - 1) v })

/-- `dp_data` moves 8 to 1,024 octets, a multiple of 8 (Table 2.10). -/
def dpLengthGood (n : Nat) : Bool := 8 ≤ n && n ≤ 1024 && n % 8 = 0

/-- The Monument's tables wait for the NVM port, which a power-fail freeze holds (R341, R352). -/
def State.nvmHeld (s : State) (u : Nat) : Bool := u = 0x005 && s.pfailFrozen

/-- The row of a target. -/
def State.targetRow (s : State) (t : Nat × Nat) : Option ObjRow :=
  match unitKind? s.build t.1 with | some kd => rowAt s.build kd t.2 0 | none => none

/-- The checks of a `dp_data` read (R66, R67). A snapshot into a slot that is being read does not stop its reader (R383). -/
def State.dpReadCheck (s : State) (a : Agent) (n : Nat) : Abort :=
  let c := s.ctx a
  if c.status ≠ .ok then c.status
  else match c.target with
    | none => .modeForbids
    | some t =>
      if (s.targetRow t).any (fun r => r.access = .wo) then .writeOnly
      else if !dpLengthGood n then .length
      else if s.nvmHeld t.1 then .busy
      else .ok

/-- The octets of a `dp_data` read of `n` octets move (R67). A part of an entry that has been gathered is dropped as the offset moves on (log entry
27). -/
def State.dpDeliver (s : State) (a : Agent) (n : Nat) : Abort × List Octet × State :=
  let c := s.ctx a
  match s.dpReadCheck a n, c.target with
  | .ok, some t =>
    let m := min n c.length
    (.ok, s.tableOctets t.1 t.2 (s.tableSize t).1 c.offset m ++ List.replicate (n - m) 0,
      s.setCtx a { c with offset := c.offset + m, length := c.length - m, gather := if m = 0 then c.gather else [] })
  | e, _ => (e, [], s.dpHold a e)

/-- A target in the flash, behind the NVM port (R352). -/
def State.inFlash (s : State) (t : Nat × Nat) : Bool := t.1 = 0x005 && 0x6000 ≤ t.2 && s.nvmState = 2

/-- A `dp_data` read of `n` octets (R67): one of the flash waits for the port (R341). -/
def State.dpRead (s : State) (a : Agent) (n : Nat) : Option Abort × List Octet × State :=
  if s.dpReadCheck a n = .ok ∧ ((s.ctx a).target.any s.inFlash) then (none, [], s.queueOp (.read a n))
  else let r := s.dpDeliver a n; (some r.1, r.2)

/-- Whole entries are written in ascending order (R67), from entry `e` on: how it ended, the entry at which, whether the access waits. -/
def State.entriesWrite : Nat → State → Agent → Nat × Nat → Nat → Nat → List Octet → Bool → Option Abort × Nat × State
  | 0, s, _, _, _, e, _, wait => (if wait then none else some .ok, e, s)
  | n + 1, s, a, t, size, e, l, wait =>
    match s.entryWrite a t.1 t.2 e (l.take size) with
    | (none, s1) => State.entriesWrite n s1 a t size (e + 1) (l.drop size) true
    | (some .ok, s1) => State.entriesWrite n s1 a t size (e + 1) (l.drop size) wait
    | (some c, s1) => (some c, e, s1)

/-- An access ends with a refusal while entries it has queued before still wait: they are no longer its. -/
def State.releaseHeld (s : State) (a : Agent) : State :=
  { s with
    updateQ := s.updateQ.map (fun (w : TableUpdate) =>
      if w.agent = a ∧ w.held ≠ 0 then { w with held := if w.held = 2 then 0 else 3 } else w)
    nvmQ := s.nvmQ.map (NvmOp.disown a) }

/-- The octets of a write that belong to an entry whose earlier octets have not come, since a read has moved past them: they complete nothing (log
entry 27). -/
def DpCtx.lost (c : DpCtx) (size m : Nat) : Nat := if c.gather.length = c.offset % size then 0 else min m (size - c.offset % size)

/-- The octets of which a write of `m` octets makes entries, and the first entry of which they are. -/
def DpCtx.joined (c : DpCtx) (size m : Nat) (octets : List Octet) : List Octet × Nat :=
  let k := c.lost size m
  (c.gather ++ (octets.take m).drop k, (c.offset + k) / size)

/-- The unit's state forbids the first entry that a `dp_data` write would complete (check 6 of Table 2.4). -/
def State.firstForbids (s : State) (a : Agent) (c : DpCtx) (t : Nat × Nat) (octets : List Octet) : Bool :=
  let size := (s.tableSize t).1
  let p := c.joined size (min octets.length c.length) octets
  size ≤ p.1.length && (s.entryWrite a t.1 t.2 p.2 (p.1.take size)).1 = some .modeForbids

/-- The checks of a `dp_data` write before it moves anything (R66, R67); `boot` where the atlas makes it (R355). A unit state that forbids its
first entry comes before the lease and the length (checks 6 to 8 of Table 2.4). -/
def State.dpWriteCheck (s : State) (a : Agent) (boot : Bool) (octets : List Octet) : Abort :=
  let c := s.ctx a
  if c.status ≠ .ok then c.status
  else match c.target with
    | none => .modeForbids
    | some t =>
      if (s.targetRow t).any (fun r => r.access = .ro) then .readOnly
      else if s.firstForbids a c t octets then .modeForbids
      else if !boot && !s.leaseAllows a t.1 then .leaseHeld
      else if !dpLengthGood octets.length then .length
      else if !boot && s.atlasBusy then .busy
      else .ok

/-- The octets of a `dp_data` write move into the table (R67), the lease having been counted in `s` where `claims` is set (R58). -/
def State.dpMove (s : State) (a : Agent) (c : DpCtx) (t : Nat × Nat) (octets : List Octet) : Option Abort × Nat × State :=
  let size := (s.tableSize t).1
  let m := min octets.length c.length
  let p := c.joined size m octets
  let all := p.1
  let n := all.length / size
  match State.entriesWrite n s a t size p.2 all false with
  | (some .ok, e, s1) => (some .ok, e, s1.setCtx a { c with offset := c.offset + m, length := c.length - m, gather := all.drop (n * size) })
  | (none, e, s1) => (none, e, s1.setCtx a { c with offset := c.offset + m, length := c.length - m, gather := all.drop (n * size) })
  | (some x, e, s1) =>
    (some x, e, ((s1.setCtx a { c with offset := e * size, length := c.offset + c.length - e * size, gather := [], status := x }).releaseHeld a))

/-- A `dp_data` write (R67). A refused write sets ACCESS_REFUSED of the data port (log entry 62); one that writes an entry, or gathers octets for one,
counts as a write to its target (R58). DESIGN CHOICE (log entry 77): one that ends with LEASE_HELD returns no data (R67), where R74 gives other writes the holder and time. -/
def State.dpWrite (s : State) (a : Agent) (boot : Bool) (octets : List Octet) : Option Abort × State :=
  let c := s.ctx a
  match s.dpWriteCheck a boot octets, c.target with
  | .ok, some t =>
    match (if boot then s else s.wrote a t.1).dpMove a c t octets with
    | (some .ok, _, s1) => (some .ok, s1)
    | (none, _, s1) => (none, s1)
    | (some x, e, s1) =>
      (some x, (if e = (c.joined (s.tableSize t).1 (min octets.length c.length) octets).2 then (s.dpMove a c t octets).2.2 else s1).refusedAt 0x00E x)
  | x, _ => (some x, (s.dpHold a x).refusedAt 0x00E x)

/-- A window of the burst aperture (R68): the host's context of its processor. -/
def windowAgent (w : Nat) : Agent := ⟨.host, w⟩

/-- DP_APERTURE_READ (R68): a 64-bit read is one `dp_data` read of 8 octets; another width reads 0 and sets `dp_status` to ALIGN. What is
returned is in the completion, byte 0 first. -/
def execDpApertureRead (window width : Nat) (s : State) : Host.Outcome State Fault Refusal :=
  if !s.mainUp ∨ 8 ≤ window then .next s
  else
    let s := s.wake
    let a := windowAgent window
    if width ≠ 64 then .next ((s.dpHold a .align).complete a .align (List.replicate (width / 8) 0))
    else
      match s.dpRead a 8 with
      | (some .ok, l, s1) => .next (s1.complete a .ok l)
      | (some e, _, s1) => .next (s1.complete a e (List.replicate 8 0))
      | (none, _, s1) => .next { s1 with result := ⟨a, none, []⟩ }

/-- DP_APERTURE_WRITE (R68). DESIGN CHOICE (log entry 102): ALIGN for another width takes the place of a code that `dp_status` holds already, and such a
write sets no bit of 0x00E. -/
def execDpApertureWrite (window width word : Nat) (s : State) : Host.Outcome State Fault Refusal :=
  if !s.mainUp ∨ 8 ≤ window then .next s
  else
    let s := s.wake
    let a := windowAgent window
    if width ≠ 64 then .next ((s.dpHold a .align).complete a .align)
    else
      match s.dpWrite a false (toLsb 8 word) with
      | (some e, s1) => .next (s1.complete a e)
      | (none, s1) => .next { s1 with result := ⟨a, none, []⟩ }

end Sys2Proof.Machine
end

