-- ==== Sys2Proof/Machine/Relays.lean ====
section
/-! DEFINITION. Requests sent to other members of the fabric (R308 to R310), and the commands of the graticule group that its children
carry. -/
namespace Sys2Proof.Machine

/-- The device holds as many relays as it may (R308). -/
def State.relaysFull (s : State) : Bool := 8 ≤ s.relays.length

/-- A RELAY_REQ leaves for a member (R308, Table 13.3): its AGENT (1 H, 2 M, 3 F), its SLOT and the request's PDU without TAG. Where there is
no route it is lost, and its TIMEOUT follows. -/
def State.relaySend (s : State) (who : RelayFor) (dst agent slot : Nat) (pdu : List Octet) : State :=
  let tag := (s.regN .relayTag + 1) % 65536
  let s1 := { s.setReg .relayTag (tag : Nat) with relays := s.relays ++ [⟨tag, who⟩] }
  match s.nextHop dst 0 with
  | some ch => s1.sendControl ch dst (s.rd 0x00D 0x1003 0) (controlBody 4 (toMsb 2 tag ++ toMsb 1 agent ++ toMsb 1 slot ++ pdu))
  | none => s1

/-- A manager's request into member `id` leaves by the route of R308: at the root straight as F, elsewhere as M to the root. -/
def State.relayManager (s : State) (who : RelayFor) (id slot : Nat) (pdu : List Octet) : State :=
  if s.role = 3 then s.relaySend who id 3 slot pdu else s.relaySend who (s.rd 0x00D 0x5004 0) 2 slot pdu

/-- The request of a group command for a child leaves (R309, R310). -/
def State.groupSend (s : State) (g : GroupCmd) (child : Nat) : State :=
  let s1 := { s with groupCmds := s.groupCmds.map (fun (x : GroupCmd) =>
    if x.agent = g.agent ∧ x.unit = g.unit ∧ x.index = g.index then { x with wait := x.wait.erase child } else x) }
  s1.relayManager (.group g.agent child) child g.agent.slot
    (pduHead 2 g.agent.slot 0 g.index 0 g.data.length [0x00D, child] ++ g.data)

/-- Requests of group commands leave as relays come free, in forwarding order (R22). -/
def State.groupPump (s : State) : State :=
  s.groupCmds.foldl (fun s g => g.wait.foldl (fun s c => if s.relaysFull then s else s.groupSend g c) s) s

/-- A group command starts (R22): `first` is the failure of the child here, if any, with the DATA of its answer, and `here` says that this child
has not ended yet. -/
def State.groupStart (s : State) (a : Agent) (u i : Nat) (data : List Octet) (remote : List Nat) (here : Bool) (first : Option (Abort × Nat))
    (reply : List Octet) : State :=
  let g : GroupCmd := ⟨a, u, i, data, (if here then [s.ownId] else []) ++ remote, remote, first, reply⟩
  if g.left = [] then s.groupEnd g else State.groupPump { s with groupCmds := s.groupCmds ++ [g] }

/-- The children of the group in other members. -/
def State.remoteMembers (s : State) : List Nat := s.members.filter (fun i => i ≠ s.ownId)

/-- A lease command of a manager on 0x00D at the root (R309): forwarded to each child as F for its slot; the device itself is the child with
the own ID. -/
def State.groupLease (s : State) (a : Agent) (i : Nat) : State :=
  let f : Agent := ⟨.fabric, a.slot⟩
  let own := s.ownId
  let here := s.members.contains own
  if !here then s.groupStart a 0x00D i [] s.remoteMembers false none []
  else if i = 0x0012 then State.groupStart { s with claims := s.claims ++ [⟨0, f⟩] } a 0x00D i [] s.remoteMembers true none []
  else
    let r := if i = 0x0013 then s.leaseRenew f 0 else s.leaseRelease f 0
    ((r.2.ran 0 i r.1).refusedAt 0 r.1).groupStart a 0x00D i [] s.remoteMembers false (firstFailure none r.1 own) (s.leaseData 0)

/-- Latched alarm bits of units are cleared (R51); `half_range` of a statistics block goes with HALF_RANGE (R379). -/
def State.ackUnit (mask : Nat) (s : State) (u : Nat) : State :=
  let s1 := s.wr u 0x0005 0 (s.rd u 0x0005 0 - (s.rd u 0x0005 0 &&& mask))
  if (blockOwner u).isSome && mask.testBit 16 then s1.wr u 0x5000 0 0 else s1

end Sys2Proof.Machine
end

