-- ==== Sys2Proof/Machine/Objects.lean ====
section
/-! DEFINITION. Access to objects (R45 to R49, R51 to R61, R74, R355): what a read returns, the checks and the effect of a write or
command. -/
namespace Sys2Proof.Machine

/-- What becomes of a write or command that has passed the checks before it: it ends with a code, it completes later, or the unit refuses
it. -/
inductive Effect where
  | ends (c : Abort) (s : State)
  | waits (s : State)
  | refused (c : Abort) (s : State)
  deriving DecidableEq, Repr

/-- The state an effect leads to. -/
def Effect.state : Effect → State
  | .ends _ s => s
  | .waits s => s
  | .refused _ s => s

/-- An effect with something done behind it. -/
def Effect.after (e : Effect) (f : State → State) : Effect :=
  match e with
  | .ends c s => .ends c (f s)
  | .waits s => .waits (f s)
  | .refused c s => .refused c s

/-- The unit refuses with a code. -/
def Effect.refuses (e : Effect) (c : Abort) : Bool := match e with | .refused x _ => x = c | _ => false

/-- An operation that answers a code: OK, or a refusal. -/
def Effect.told (r : Abort × State) : Effect := if r.1 = .ok then .ends .ok r.2 else .refused r.1 r.2

/-- An operation that may complete later. -/
def Effect.later (r : Option Abort × State) : Effect := match r.1 with | some c => .told (c, r.2) | none => .waits r.2

/-- A command of a group is forwarded to children of this device, one after the other (R22). -/
def State.groupRun (s : State) (u i : Nat) (children : List Nat) (act : State → Nat → Abort × State) : Effect :=
  let r := children.foldl (fun (p : Option (Abort × Nat) × State) c =>
    let x := act p.2 c
    (firstFailure p.1 x.1 c, (x.2.ran c i x.1).refusedAt c x.1)) (none, s)
  let f := r.1.getD (.ok, 0)
  .ends f.1 (r.2.unitResult u f.1 f.2 0 0)

/-- A key is installed, or erased where it is 0 (R70): the slot's replay state starts again. -/
def State.installKey (s : State) (k v : Nat) : State :=
  { s.wr 0x012 0x5002 k (s.rd 0x012 0x5001 0 * 2 ^ 32) with keys := s.keys.set k v 0, replay := s.replay.filter (fun p => p.1 ≠ k) }

/-- `alarm_ack` (R22, R51, R310): this device's units of the subtree, and the other members as relays for a manager; host software is not
permitted in them, and the root acting for a manager reaches each of them itself. Every group in the subtree is itself a group whose command has
completed. -/
def State.alarmAck (s : State) (a : Agent) (u mask : Nat) : Effect :=
  let units := if u = 0x00D ∧ s.members.contains s.ownId then subtree s.build 0 else subtree s.build u
  let groups := units.filter (fun x => x ≠ 0x00D && childrenOf s.build x ≠ [])
  let s1 := groups.foldl (fun s x => s.unitResult x .ok 0 0 0) (units.foldl (State.ackUnit mask) s)
  let remote := if u = 0 ∨ u = 0x00D then s.remoteMembers else []
  match remote, a.kind with
  | c :: _, .host =>
    let s2 := s1.unitResult 0x00D .notAuthorised c 0 0
    .ends .notAuthorised (if u = 0 then s2.unitResult 0 .notAuthorised 0x00D 0 0 else s2)
  | _ :: _, .manager => .waits (s1.groupStart a u 0x0006 (toMsb 4 mask) remote false none [])
  | _, _ => .ends .ok (if u = 0 ∨ u = 0x00D then s1.unitResult 0x00D .ok 0 0 0 else s1)

/-- The three lease commands (R59, R309, R409). -/
def State.leaseCommand (s : State) (a : Agent) (u i : Nat) : Effect :=
  if u = 0x00D ∧ a.kind = .manager ∧ s.role = 3 then .waits (s.groupLease a i)
  else match i with
    | 0x0012 => .waits { s with claims := s.claims ++ [⟨u, a⟩] }
    | 0x0013 => .told (s.leaseRenew a u)
    | _ => .told (s.leaseRelease a u)

/-- A ring command. -/
def ringAct (i : Nat) (s : State) (u : Nat) : Abort × State :=
  match i with
  | 0x7000 => s.ringStart u
  | 0x7001 => s.ringStop u
  | _ => s.ringReset u

/-- The rings of the host group in forwarding order. -/
def ringUnits (b : Build) : List Nat := (childrenOf b 0x00C).filter (fun u => u < 0x4C0)

/-- A `clear` of a statistics block is accepted (R380). -/
def clearAct (s : State) (u : Nat) : Abort × State := (.ok, s.statsClear u)

/-- The effect of a command of a unit's own (0x7000 and above) with its argument. DESIGN CHOICE (log entry 73): `start`, `stop` and `reset` of the
host group go to its rings only, which define them, and not to the event queues among its children (R22). -/
def State.unitCommand (s : State) (a : Agent) (inFrame : Bool) (kd : UnitKind) (u i v : Nat) : Effect :=
  match kd, i with
  | .power, _ => .told (s.powerRequest v inFrame)
  | .interrupt, _ => .told (s.testRaise v)
  | .time, 0x7000 => .later (s.stepSet a)
  | .time, _ => .later (s.adjust a (signed 64 v))
  | .monument, 0x7000 => .ends .ok s.monRestart
  | .monument, 0x7001 => .later (s.monFormat a v)
  | .monument, 0x7002 => .told (s.atlasSet (v / 2 ^ 32) (v % 2 ^ 32))
  | .monument, _ => .later (s.atlasErase a)
  | .legend, 0x7001 => .later (s.editionCommit a)
  | .legend, _ => .told s.editionDiscard
  | .buffer, _ => .ends .ok s.foldFlush
  | .guard, _ => .told (s.scanAbort v)
  | .host, _ => s.groupRun u i (ringUnits s.build) (ringAct i)
  | .stats, 0x7000 => s.groupRun u i (childrenOf s.build 0x011) clearAct
  | .stats, _ => .later (s.snapshot a (v / 256) (v % 256))
  | .access, _ => if 7 < v then .refused .range s else .ends .ok (s.installKey v 0)
  | .lane, _ => .ends .ok (s.linkCommand (u - 0x100))
  | .chStats, _ => .told (clearAct s u)
  | .alStats, _ => .told (clearAct s u)
  | _, _ => .told (ringAct i s u)

/-- The effect of a command (R47). -/
def State.command (s : State) (a : Agent) (inFrame : Bool) (kd : UnitKind) (u i v : Nat) : Effect :=
  match i with
  | 0x0006 => s.alarmAck a u v
  | 0x0012 => s.leaseCommand a u i
  | 0x0013 => s.leaseCommand a u i
  | 0x0014 => s.leaseCommand a u i
  | 0x0030 => .later (s.commit u a)
  | 0x0031 => .told (s.discardSets u)
  | _ => s.unitCommand a inFrame kd u i v

/-- The effect of a live write of an object of a caller's own data-port context (R66). -/
def State.ctxWrite (s : State) (a : Agent) (i k v : Nat) : Effect :=
  match i with
  | 0x4000 => .ends .ok (s.dpPath a k v)
  | 0x4001 => .told (s.dpTarget a v)
  | 0x4002 => .told (s.dpOffset a v)
  | _ => .told (s.dpLength a v)

/-- The effect of a live write (R47): it is in force from the next slot. -/
def State.liveWrite (s : State) (a : Agent) (kd : UnitKind) (u i k v : Nat) : Effect :=
  match kd with
  | .lane => .ends .ok (s.loopbackWrite (u - 0x100) v)
  | .time => .ends .ok (if i = 0x4000 then (s.setReg .paceHeld (s.pace + 1 : Nat)).wr u i k v else s.wr u i k v)
  | .fieldbook => .ends .ok (if v = 1 then s.freezeBook else s.thawBook)
  | .host => .ends .ok (s.wr u i k v).pump
  | .tq => .told (s.ringObjWrite u i v)
  | .bq => .told (s.ringObjWrite u i v)
  | .cq => .told (s.ringObjWrite u i v)
  | .eq => .told (s.eqObjWrite (u - 0x4C0) i v)
  | .dataport => s.ctxWrite a i k v
  | _ => .ends .ok (s.wr u i k v)

/-- The effect of a write of a staged object (R52, R55, R389). -/
def State.stagedWrite (s : State) (a : Agent) (u i k v : Nat) : Effect :=
  if u = 0x00D ∧ i = 0x1000 ∧ v = 1 ∧ s.serial = 0 then .refused .range s
  else if s.stageBusy u then .refused .busy s
  else .ends .ok (s.stage ⟨.obj ⟨u, i, k⟩, v, a⟩)

/-- The effect of a write by the access mode of its row. -/
def State.effectOf (s : State) (a : Agent) (inFrame : Bool) (kd : UnitKind) (r : ObjRow) (u i k v : Nat) : Effect :=
  match r.access with
  | .rws => s.stagedWrite a u i k v
  | .rw => s.liveWrite a kd u i k v
  | .wo => .ends .ok (s.installKey k v)
  | .cmd => s.command a inFrame kd u i v
  | .ro => .refused .readOnly s

/-- Objects exempt from the lease (R61, R335, R381), and the lease commands, which act by R59 alone. -/
def exempt (kd : UnitKind) (i : Nat) : Bool :=
  i = 0x0006 || i = 0x0012 || i = 0x0013 || i = 0x0014 || (kd = .dataport && 0x4000 ≤ i) || (kd = .fieldbook && i = 0x4000)
    || (kd = .stats && i = 0x7001)

/-- The lease check of a write or command (R57, R58). -/
def State.leaseGood (s : State) (a : Agent) (kd : UnitKind) (u i : Nat) : Bool :=
  exempt kd i || (if kd = .root ∧ i = 0x4000 then s.holdsLease a 0 else s.leaseAllows a u)

/-- The code that a command object keeps of an execution (Table 2.2). A claim, a commit and a group command of the fabric put theirs when they
end. -/
def State.ranCode (s : State) (r : ObjRow) (u i : Nat) (c : Abort) : State := match r.access with | .cmd => s.ran u i c | _ => s

/-- An edition commit that the drain rule refuses has ended with its code (R135, Table 5.8). -/
def State.refusedCode (s : State) (u i : Nat) (c : Abort) : State := if c = .editionBusy then s.ran u i c else s

/-- What the sender of a write or command is told of its effect. -/
def Effect.reply (e : Effect) (r : ObjRow) (u i : Nat) : Reply :=
  match e with
  | .ends c t => ⟨some c, [], t.ranCode r u i c⟩
  | .waits t => ⟨none, [], if 0x7000 ≤ i then t.ranCode r u i .ok else t⟩
  | .refused c t => t.refuse u c

/-- A write of an object of this device with the octets of its value, most significant first, by an agent (Table 2.4). `boot` is the atlas,
which meets no lease and no BUSY (R355). A `dp_target` that does not resolve ends with the check that its target fails (R66). A COMMIT covers its writes
before the lease that it claims merges others of its agent, so that it keeps them (R60). -/
def State.writeHere (s : State) (a : Agent) (inFrame boot : Bool) (u i k : Nat) (d : List Octet) : Reply :=
  match s.lookup a u i k, unitKind? s.build u with
  | .ok r, some kd =>
    let v := ofMsb d
    let e := s.effectOf a inFrame kd r u i k v
    let s0 := if boot || exempt kd i then s else s.wrote a u
    if r.access = .ro then s.refuse u .readOnly
    else if r.type = .table then s.refuse u .modeForbids
    else if kd = .dataport ∧ i = 0x4004 then let w := s.dpWrite a boot d; ⟨w.1, [], w.2⟩
    else if kd = .dataport ∧ (e.refuses .noUnit ∨ e.refuses .noObject ∨ e.refuses .noSubindex ∨ e.refuses .notAuthorised) then
      e.reply r u i
    else if e.refuses .modeForbids then s.refuse u .modeForbids
    else if !boot && !s.leaseGood a kd u i then s.refuse u .leaseHeld
    else if d.length ≠ r.type.writeSize then s.refuse u .length
    else if e.refuses .align then s.refuse u .align
    else if !valueGood s.build r v then s.refuse u .range
    else
      match e with
      | .refused c t => (t.refusedCode u i c).refuse u c
      | _ =>
        if !boot && s.atlasBusy then s.refuse u .busy
        else if i = 0x0030 then (e.after (fun t => if boot then t else t.wrote a u)).reply r u i
        else (s0.effectOf a inFrame kd r u i k v).reply r u i
  | .error c, _ => s.refuse u c
  | .ok _, none => s.refuse u .noUnit

/-- What reading an object does (R109, R280). -/
def State.readEffect (s : State) (u i k : Nat) : State :=
  if u = 0x003 ∧ i = 0x5000 ∧ k = 0 then s.wr 0x003 0x5000 1 (timeFrac s.time)
  else if s.isChannel (u - 0x200) ∧ 0x200 ≤ u ∧ i = 0x5011 then s.wr u 0x5011 k (s.occupancy (u - 0x200) k)
  else s

/-- A read of an object of this device (Table 2.4). `asked` is the length that the request gives, checked where there is one (log entry 28).
-/
def State.readHere (s : State) (a : Agent) (u i k : Nat) (asked : Option Nat) : Reply :=
  match s.lookupOwn a u i k with
  | .error c => ⟨some c, [], s⟩
  | .ok r =>
    if r.access = .wo then ⟨some .writeOnly, [], s⟩
    else if r.type = .table then ⟨some .modeForbids, [], s⟩
    else if u = 0x00E ∧ i = 0x4004 then let w := s.dpRead a (asked.getD 8); ⟨w.1, w.2.1, w.2.2⟩
    else if asked.any (fun n => n ≠ r.type.size) then ⟨some .length, [], s⟩
    else if u = 0x00E ∧ 0x4000 ≤ i then ⟨some .ok, toMsb r.type.size (s.ctxRead a i k), s⟩
    else ⟨some .ok, s.readOctets u i k r.type, s.readEffect u i k⟩

/-- A write of this device's objects by path: what lies in another member is not here (R48, R49). DESIGN CHOICES (log entry 74): a host's write into
another member sets bit 3 of the graticule unit here; a request executed for another member whose path leads on into a third one is not
sent on and ends with NO_UNIT. -/
def State.writePath (s : State) (a : Agent) (inFrame : Bool) (path : List Nat) (i k : Nat) (d : List Octet) : Reply :=
  match s.resolvePath path with
  | .here u => s.writeHere a inFrame false u i k d
  | .absent u => s.refuse u .noUnit
  | .member _ _ => s.refuse 0x00D (if a.kind = .host then .notAuthorised else .noUnit)

/-- A read by path. -/
def State.readPath (s : State) (a : Agent) (path : List Nat) (i k : Nat) (asked : Option Nat) : Reply :=
  match s.resolvePath path with
  | .here u => s.readHere a u i k asked
  | _ => ⟨some .noUnit, [], s⟩

/-- A command of this block that is an access by an agent: it is told the outcome. -/
def State.told (s : State) (a : Agent) (f : State → Reply) : State :=
  s.together fun s =>
    let r := f { s with result := ⟨a, none, []⟩ }
    match r.code with
    | some c => r.state.complete a c r.data
    | none => r.state

/-- A write that is a row of its own: into another member it leaves as a relay of a manager (R75, R308). -/
def State.access (s : State) (a : Agent) (path : List Nat) (i k : Nat) (d : List Octet) : Host.Outcome State Fault Refusal :=
  if !s.mainUp then .next s
  else
    let s := if a.kind = .host then s.wake else s
    match s.resolvePath path, a.kind with
    | .member id _, .manager =>
      if s.relaysFull then .next (s.told a (fun s => s.refuse 0x00D .busy))
      else .next (State.relayManager { s with result := ⟨a, none, []⟩ } (.direct a) id a.slot (pduHead 2 a.slot 0 i k d.length path ++ d))
    | _, _ => .next (s.told a (fun s => s.writePath a false path i k d))

/-- The path of a unit of this device (Table 1.1). -/
def pathTo (u : Nat) : List Nat := if parentOf u = 0 then [u] else [parentOf u, u]

/-- A write of an object of a unit of this device. -/
def State.accessUnit (s : State) (a : Agent) (u i k : Nat) (d : List Octet) : Host.Outcome State Fault Refusal := s.access a (pathTo u) i k d

/-- A read of an object of a unit of this device. -/
def State.readUnit (s : State) (a : Agent) (u i k : Nat) (asked : Option Nat) : Host.Outcome State Fault Refusal :=
  if !s.mainUp then .next s
  else
    let s := if a.kind = .host then s.wake else s
    .next (s.told a (fun s => s.readPath a (pathTo u) i k asked))

/-- A write of whole entries of a table, made as one transfer of an agent (R66, R67): the target resolved and checked as a `dp_target`,
`dp_offset` and `dp_length` write would be, the octets as `dp_data` moves them. -/
def State.transfer (s : State) (a : Agent) (boot : Bool) (u i off : Nat) (octets : List Octet) : Option Abort × State :=
  match s.lookupOwn a u i 0 with
  | .error c => (some c, s.refusedAt 0x00E c)
  | .ok r =>
    if r.type ≠ .table then (some .modeForbids, s.refusedAt 0x00E .modeForbids)
    else if off % (s.tableSize (u, i)).1 ≠ 0 ∨ octets.length % (s.tableSize (u, i)).1 ≠ 0 then (some .align, s.refusedAt 0x00E .align)
    else if (s.tableSize (u, i)).2 < off + octets.length then (some .range, s.refusedAt 0x00E .range)
    else
      let c : DpCtx := { s.ctx a with target := some (u, i), tIndex := i, offset := off, length := octets.length, status := .ok, gather := [] }
      (s.setCtx a c).dpWrite a boot octets

/-- A table entry written as a row of its own: through the caller's data-port context. -/
def State.accessEntry (s : State) (a : Agent) (u i e : Nat) (octets : List Octet) : Host.Outcome State Fault Refusal :=
  if !s.mainUp then .next s
  else
    let s := if a.kind = .host then s.wake else s
    .next (s.told a (fun s =>
      let r := s.transfer a false u i (e * (s.tableSize (u, i)).1) octets
      ⟨r.1, [], r.2⟩))

end Sys2Proof.Machine
end

