-- ==== Sys2Proof/Machine/Mailbox.lean ====
section
/-! DEFINITION. The mailboxes of the host window (R62 to R64): a GO write, and the end of a request. -/
namespace Sys2Proof.Machine

/-- The fields of what an object of a unit of any build carries in a read, in a write (R46). -/
def fieldsOf (u i k : Nat) (read : Bool) : List Nat :=
  match unitKind? .tlafelu64 u with
  | some kd =>
    match rowAt .tlafelu64 kd i k with
    | some r => if read && r.access = .cmd then [2] else fieldSizes r.type i
    | none => []
  | none => []

/-- The unit that a path names in the member in which it ends. -/
def lastUnit (path : List Nat) : Nat := if path.length ≤ 2 ∧ path.head? = some 0x00D then 0 else path.getLast?.getD 0

/-- The octets an access returns, byte 0 first (R46): a read's by the object's fields. -/
def turnReply (path : List Nat) (i k : Nat) (read : Bool) (c : Abort) (d : List Octet) : List Octet :=
  if c = .leaseHeld then turnFields [2, 4] d
  else if read then turnFields (fieldsOf (lastUnit path) i k true) d
  else d

/-- The words of a mailbox as they are held: GO and the RSVD bits read 0 (Tables 2.8, 2.9). DESIGN CHOICE (log entry 71): RSVD bits written as 1
are dropped and refuse nothing. -/
def heldWords (w : MbWords) : MbWords :=
  let keep (v : Nat) : Nat := ((List.range 4).map (fun i => field v (16 * i) 12 * 2 ^ (16 * i))).sum
  ⟨field w.cmd 36 28 * 2 ^ 36 + field w.cmd 16 16 * 2 ^ 16 + field w.cmd 2 2 * 4, keep w.pathA, keep w.pathB, w.dataA % 2 ^ 64,
   w.dataB % 2 ^ 64⟩

/-- Fields of a sampled MB_CMD. -/
def mbIndex (w : MbWords) : Nat := field w.cmd 48 16
def mbSub (w : MbWords) : Nat := field w.cmd 40 8
def mbLength (w : MbWords) : Nat := field w.cmd 16 16
def mbOp (w : MbWords) : Nat := field w.cmd 2 2

/-- An access with an OP that does not exist ends with RANGE, behind checks 1 to 4 as far as they are made here (Tables 2.4, 2.8, 2.12). -/
def State.badOp (s : State) (a : Agent) (path : List Nat) (i k : Nat) : Reply :=
  match s.resolvePath path with
  | .here u => match s.lookupOwn a u i k with | .error c => ⟨some c, [], s⟩ | .ok _ => ⟨some .range, [], s⟩
  | .member _ _ => ⟨some .range, [], s⟩
  | .absent _ => ⟨some .noUnit, [], s⟩

/-- A mailbox write: the data bytes turned to most significant first by the fields of the object. -/
def State.mbWrite (s : State) (a : Agent) (path : List Nat) (w : MbWords) : Reply :=
  let d := match s.resolvePath path with
    | .here u => turnFields (fieldsOf u (mbIndex w) (mbSub w) false) (mbData w)
    | _ => mbData w
  s.writePath a false path (mbIndex w) (mbSub w) d

/-- A mailbox read. LENGTH is read by `dp_data` alone; above 16 it ends with LENGTH there (R62). -/
def State.mbRead (s : State) (a : Agent) (path : List Nat) (w : MbWords) : Reply :=
  s.readPath a path (mbIndex w) (mbSub w)
    (if s.resolvePath path = .here 0x00E ∧ mbIndex w = 0x4004 then some (if mbLength w ≤ 16 then mbLength w else 0) else none)

/-- The request of a mailbox is executed; `none` where it completes later. -/
def State.mbServe (s : State) (p : Nat) (w : MbWords) : Reply :=
  let a : Agent := ⟨.host, p⟩
  let path := (mbPath w).getD []
  match mbOp w with
  | 1 =>
    match s.resolvePath path with
    | .member id _ =>
      if s.relaysFull then ⟨some .busy, [], s⟩
      else ⟨none, [], s.relaySend (.mailbox p) id 1 0 (pduHead 1 0 0 (mbIndex w) (mbSub w) (mbLength w) path)⟩
    | _ => s.mbRead a path w
  | 2 => s.mbWrite a path w
  | _ => s.badOp a path (mbIndex w) (mbSub w)

/-- The request of a mailbox ends, if it still has one. -/
def State.mbTold (s : State) (p : Nat) (w : MbWords) (c : Abort) (d : List Octet) : State :=
  if (s.mailbox p).busy && !(s.mailbox p).ready then
    s.mailboxEnd p c (turnReply ((mbPath w).getD []) (mbIndex w) (mbSub w) (mbOp w = 1) c d)
  else s

/-- An accepted GO (R63): every word is sampled, and the request begins. -/
def State.mbGo (s : State) (p : Nat) (w : MbWords) : State :=
  let m := s.mailbox p
  let s1 := s.setMailbox p ⟨heldWords w, true, false, false, m.abort, 0⟩
  let r := State.mbServe { s1 with result := ⟨⟨.host, p⟩, none, []⟩ } p w
  match r.code with
  | some c => (r.state.complete ⟨.host, p⟩ c r.data).mbTold p w c r.data
  | none => r.state

/-- A write of MB_CMD, the other words written before it (R63): without GO the words are held; with GO while BUSY it is ignored and counted.
DESIGN CHOICE (log entry 101): the words written while BUSY are not held. -/
def State.mbCommand (s : State) (p : Nat) (w : MbWords) : State :=
  let m := s.mailbox p
  if m.busy then (if w.cmd.testBit 0 then s.setMailbox p { m with attempt := min 0xFFFF (m.attempt + 1) } else s)
  else if w.cmd.testBit 0 then s.busyNow.mbGo p w
  else s.setMailbox p { m with words := heldWords w }

/-- MAILBOX_READ (R62): a GO write whose OP is READ. What the words say decides. An access of another
width is ignored. -/
def execMailboxRead (proc : Nat) (access : MbAccess) (s : State) : Host.Outcome State Fault Refusal := gathered s fun s =>
  if s.mainUp ∧ proc < 8 then .next (if access.width64 then s.wake.mbCommand proc access.words else s.wake) else .next s

/-- MAILBOX_WRITE (R62): a GO write whose OP is WRITE. What the words say decides. An access of another
width is ignored. -/
def execMailboxWrite (proc : Nat) (access : MbAccess) (s : State) : Host.Outcome State Fault Refusal := gathered s fun s =>
  if s.mainUp ∧ proc < 8 then .next (if access.width64 then s.wake.mbCommand proc access.words else s.wake) else .next s

/-- MAILBOX_DONE (R64): a request that has ended is shown as DONE, and MAILBOX_DONE is raised. -/
def execMailboxDone (proc : Nat) (s : State) : Host.Outcome State Fault Refusal := gathered s fun s =>
  let m := s.mailbox proc
  if s.mainUp ∧ m.busy ∧ m.ready then
    .next ((s.setMailbox proc { m with busy := false, ready := false, done := true }).raise (causeMailbox proc))
  else .next s

end Sys2Proof.Machine
end

