-- ==== Sys2Proof/Machine/FieldNet.lean ====
section
/-! DEFINITION. The field network (R69 to R75) and the relays between members (R308): requests that come in object-access frames and in
RELAY_REQ, and their answers. -/
namespace Sys2Proof.Machine

/-- A request is executed at the unit its path names here (R47, R73, R308). -/
def State.request (s : State) (a : Agent) (inFrame : Bool) (q : Request) : Reply :=
  match q.op with
  | 1 => s.readPath a q.path q.index q.sub (some q.length)
  | 2 => s.writePath a inFrame q.path q.index q.sub q.data
  | _ => s.badOp a q.path q.index q.sub

/-- `seq_high` and `boot_epoch` (R71). -/
def State.seqHigh (s : State) (k : Nat) : Nat := s.rd 0x012 0x5002 k
def State.bootEpoch (s : State) : Nat := s.rd 0x012 0x5001 0

/-- The 12 octets of R74. -/
def State.epochData (s : State) (k : Nat) : List Octet := toMsb 4 s.bootEpoch ++ toMsb 8 (s.seqHigh k)

/-- A sequence is accepted (R71). -/
def State.fresh (s : State) (k q : Nat) : Bool :=
  q / 2 ^ 32 = s.bootEpoch && (s.seqHigh k < q || (s.seqHigh k ≤ q + 63 && !s.replay.contains (k, q)))

/-- An accepted sequence is noted (R71). -/
def State.noteSeq (s : State) (k q : Nat) : State :=
  let high := max (s.seqHigh k) q
  { s.wr 0x012 0x5002 k high with replay := (k, q) :: s.replay.filter (fun p => p.1 ≠ k || high ≤ p.2 + 63) }

/-- A request's TAG is right under its slot's key (R72, R74). -/
def State.tagGood (s : State) (p : List Octet) : Bool :=
  match s.keys.find? (pduKey p) with
  | some key => 44 + pduDataLen p ≤ p.length && pduTagOf p = pduTag key (pduTagged p)
  | none => false

/-- A request with a bad TAG (R74): at most one answer on a channel in a millisecond. -/
def State.tagFailed (s : State) (r : AccessReq) : State :=
  let s1 := s.bump 0x012 0x8001 0 1
  if (s.timer (.tagRate r.ch)).isSome then s1 else (s1.respond r.ch r.frame .tagMismatch [] none).startTimer (.tagRate r.ch) 6251

/-- The key of a slot. -/
def State.slotKey (s : State) (k : Nat) : Nat := s.keys.get k 0

/-- A request that has passed its checks is executed as M (R73), or leaves for another member (R75); `s` no longer holds it in its queue. DESIGN
CHOICES: `requests_ok` counts it here, where it was received, and not in the member that executes it; an EPOCH query is not counted (log
entry 75); with 8 relays outstanding it ends with BUSY (log entry 74). -/
def State.accessRun (s : State) (r : AccessReq) : State :=
  let p := pduOf r.frame
  let k := pduKey p
  let a : Agent := ⟨.manager, k⟩
  let q := pduRequest p
  let key := s.slotKey k
  let s0 := s.bump 0x012 0x8000 0 1
  match s0.resolvePath q.path with
  | .member id _ =>
    if s0.relaysFull then s0.respond r.ch r.frame .busy [] (some key) else s0.relayManager (.manager r.ch r.frame key) id k (pduTagged p)
  | _ =>
    let w := State.request { s0 with accessQ := { r with started := true, key := key } :: s0.accessQ, result := ⟨a, none, []⟩ } a true q
    match w.code with
    | some c => State.respond { w.state.complete a c w.data with accessQ := w.state.accessQ.drop 1 } r.ch r.frame c w.data (some key)
    | none => w.state

/-- The request at the head of the queue is served (R70 to R74). -/
def State.accessOne (s : State) (r : AccessReq) : State :=
  let p := pduOf r.frame
  let k := pduKey p
  if !s.tagGood p then s.tagFailed r
  else if pduOp p = 3 then s.respond r.ch r.frame .ok (s.epochData k) (some (s.slotKey k))
  else if !s.fresh k (pduSeq p) then (s.bump 0x012 0x8002 0 1).respond r.ch r.frame .replay (s.epochData k) (some (s.slotKey k))
  else (s.noteSeq k (pduSeq p)).accessRun r

/-- Requests are served in order, one after the other, until one has to wait (R73). -/
def State.accessServe : Nat → State → State
  | 0, s => s
  | n + 1, s =>
    match s.accessQ with
    | r :: t => if r.started then s else State.accessServe n (State.accessOne { s with accessQ := t } r)
    | [] => s

/-- An object-access frame has passed its commit point (R72, R73). -/
def State.accessFrame (s : State) (ch : Nat) (frame : List Octet) : State :=
  let p := pduOf frame
  if !(s.isChannel ch && (s.isAccess ch frame || s.consumedAs ch .access frame)) then s
  else if pduVer p ≠ 1 then s.bump 0x012 0x8001 0 1
  else if pduKind p ≠ 0 then s
  else if 8 ≤ s.accessQ.length then s.bump 0x012 0x8003 0 1
  else State.accessServe 9 { s.busyNow with accessQ := s.accessQ ++ [⟨ch, frame, false, 0⟩] }

/-- ACCESS_READ (R72). -/
def execAccessRead (ch : Nat) (frame : List Octet) (s : State) : Host.Outcome State Fault Refusal := gathered s fun s =>
  if s.mainUp ∧ s.running then .next (s.accessFrame ch frame) else .next s

/-- ACCESS_WRITE (R72). -/
def execAccessWrite (ch : Nat) (frame : List Octet) (s : State) : Host.Outcome State Fault Refusal := gathered s fun s =>
  if s.mainUp ∧ s.running then .next (s.accessFrame ch frame) else .next s

/-- ACCESS_EPOCH (R74). -/
def execAccessEpoch (ch : Nat) (frame : List Octet) (s : State) : Host.Outcome State Fault Refusal := gathered s fun s =>
  if s.mainUp ∧ s.running then .next (s.accessFrame ch frame) else .next s

/-- The oldest response leaves: the frame is made on its channel, unless that is down (R73, R99). Bound for a fabric link it is a fabric copy, with
FHASH 0: its next hop, or none (R297, R299). -/
def State.responseOut (s : State) (r : Response) : State :=
  let id := s.regN .nextFrame
  let s1 := match s.targetOf r.ch false 0 with
    | none => s.bump 0x00D 0x8003 0 1
    | some t => if s.chUp t.ep then s.generate t.ep (r.octets ++ fcsOctets r.octets) false t.dst else s
  s1.responseLeft id

/-- ACCESS_RESPONSE (R73). -/
def execAccessResponse (s : State) : Host.Outcome State Fault Refusal := gathered s fun s =>
  match s.responses with
  | r :: t => if s.mainUp ∧ s.running then .next (State.accessServe 9 (State.responseOut { s with responses := t } r)) else .next s
  | [] => .next s

/-! ### Relays (R75, R308) -/

/-- The answer to a relay reaches who waits for it. -/
def State.relayEnd (s : State) (r : Relay) (c : Abort) (d : List Octet) : State :=
  let s0 := { s with relays := s.relays.erase r }
  let s1 := match r.for? with
    | .manager ch frame key => s0.respond ch frame c d (some key)
    | .mailbox p => (s0.complete ⟨.host, p⟩ c d).mbTold p (s0.mailbox p).words c d
    | .member id tag pdu => s0.relayResponse ⟨pduKey pdu, id, tag, pdu⟩ 3 c d
    | .group a child => match s0.groupOf a child with | some g => s0.groupChild g child c d | none => s0
    | .direct a => s0.complete a c d
  State.accessServe 9 s1.groupPump

/-- A relay's 100 µs have passed (R75): TIMEOUT. The root only forgets a request that it had sent on for another member, whose own time ends
too. -/
def State.relayTimeout (s : State) (r : Relay) : State :=
  match r.for? with
  | .member _ _ _ => { s with relays := s.relays.erase r }
  | _ => (s.bump 0x012 0x8004 0 1).relayEnd r .timeout []

/-- ACCESS_RELAY_TIMEOUT (R64, R75). -/
def execAccessRelayTimeout (tag : Nat) (s : State) : Host.Outcome State Fault Refusal :=
  match s.relays.find? (fun r => r.tag = tag) with
  | some r => if s.mainUp then .next (s.relayTimeout r) else .next s
  | none => .next s

/-- A relayed request is executed as F for its slot (R308). -/
def State.relayFabric (s : State) (e : RelayExec) : State :=
  let a : Agent := ⟨.fabric, e.slot⟩
  let w := State.request { s with relayExecs := s.relayExecs ++ [e], result := ⟨a, none, []⟩ } a false (pduRequest e.pdu)
  match w.code with
  | some c => State.relayResponse { w.state.complete a c w.data with relayExecs := w.state.relayExecs.erase e } e 3 c w.data
  | none => w.state

/-- A host read from another member is executed as H (R308). LENGTH counts for `dp_data` alone, as in a mailbox. DESIGN CHOICE (log entry 76): it
has the number 0, and so reads the data-port context P0. -/
def State.relayHost (s : State) (e : RelayExec) : State :=
  let a : Agent := ⟨.host, 0⟩
  let q := pduRequest e.pdu
  let w := s.readPath a q.path q.index q.sub (if s.resolvePath q.path = .here 0x00E ∧ q.index = 0x4004 then some q.length else none)
  match w.code with
  | some c => (w.state.complete a c w.data).relayResponse e 1 c w.data
  | none => w.state

/-- A relay is not for this member (R308). -/
def State.relayRefused (s : State) : State := s.bump 0x00D 0x800C 0 1

/-- A RELAY_REQ for this member (R308). -/
def State.relayRequest (s : State) (agent : Nat) (e : RelayExec) : State :=
  match agent with
  | 1 => if pduOp e.pdu = 1 then s.relayHost e else s.relayRefused
  | 2 =>
    if s.role ≠ 3 then s.relayRefused
    else match s.resolvePath ((pduPath e.pdu).getD []) with
      | .member id _ =>
        if s.relaysFull then s.relayResponse e 3 .busy [] else s.relaySend (.member e.dst e.tag e.pdu) id 3 e.slot e.pdu
      | _ => s.relayFabric e
  | 3 => if s.role = 2 ∧ e.dst = s.rd 0x00D 0x5004 0 then s.relayFabric e else s.relayRefused
  | _ => s.relayRefused

/-- A CONTROL frame addressed to this member with message `msg` is taken (R298, R301); one that an earlier row of Table 13.2 discards is counted
at its commit point. -/
def State.takeRelay (s : State) (ch : Nat) (frame : List Octet) (msg : Nat) (act : List Octet → State) : State :=
  let b := controlOf frame
  if !(s.mainUp && s.running && s.fabricLink ch) || !(s.fabFate frame = .ownControl || s.consumedAs ch .control frame) then s
  else if octet b 0 = 0 ∨ 5 < octet b 0 then s.bump 0x00D 0x8001 0 1
  else if octet b 0 = msg then act b
  else s

/-- The PDU that a relay carries (Table 13.3). -/
def relayPdu (b : List Octet) : List Octet := (b.take (4 + be16 b 2)).drop 8

/-- RELAY_REQ_RX (R308). -/
def execRelayReqRx (ch : Nat) (frame : List Octet) (s : State) : Host.Outcome State Fault Refusal := gathered s fun s =>
  .next (s.takeRelay ch frame 4 (fun b => s.relayRequest (octet b 6) ⟨octet b 7 % 8, fabSrc frame, be16 b 4, relayPdu b⟩))

/-- A RELAY_RSP is matched to an outstanding relay; one that matches none is discarded (R308). -/
def State.relayAnswer (s : State) (b : List Octet) : State :=
  let p := relayPdu b
  match s.relays.find? (fun r => r.tag = be16 b 4) with
  | some r => s.relayEnd r (Abort.ofCode (be16 p 18)) ((p.drop 36).take (pduLength p))
  | none => s

/-- RELAY_RSP_RX (R308). -/
def execRelayRspRx (ch : Nat) (frame : List Octet) (s : State) : Host.Outcome State Fault Refusal := gathered s fun s =>
  .next (s.takeRelay ch frame 5 s.relayAnswer)

end Sys2Proof.Machine
end

