-- ==== Sys2Proof/Machine/Mp.lean ====
section
/-! DEFINITION. The memory port (R246, R390): what its beats, responses and timeouts do to the operation they answer. -/
namespace Sys2Proof.Machine

/-- A beat or response of no outstanding operation is discarded and counted (R246, R390). -/
def State.mpLate (s : State) : State := s.bump 0x00C 0x8002 0 1

/-- The outstanding operation of a direction with a tag. -/
def State.mpOp? (s : State) (write : Bool) (tag : Nat) : Option MpOp :=
  if tag = mpWaiting then none else s.mpOps.find? (fun o => o.write = write && o.tag = tag)

/-- The entries of a scan burst that are ready, from the first on (R225, R228): `pos` is the position of the first. -/
def State.readyRun : Nat → State → Nat → Nat → List Octet → Nat
  | 0, _, _, _, _ => 0
  | k + 1, s, u, pos, l =>
    if 32 ≤ l.length && (entryWord l 3).testBit 63 = (s.phaseAt u pos = 1) then
      State.readyRun k s u (s.advancePos u pos 1) (l.drop 32) + 1
    else 0

/-- A burst of a scan is in (R228): the scan goes on while every entry of it was ready and more may be outstanding; otherwise it stops. `s`
still holds the operation. -/
def State.scanBurst (s : State) (o : MpOp) (kind : RingKind) (ring : Nat) : Host.Outcome State Fault Refusal :=
  let u := ringUnit kind ring
  let n := s.ringN u
  let idx := (o.addr - s.rd u 0x4000 0) / 32
  let before := (idx + n - s.ringT u % n) % n
  let room := n - s.posDiff u (s.ringT u) (s.ringH u)
  let l := o.octets.drop (o.addr % 64)
  let held := min (l.length / 32) (min (n - idx) (room - before))
  let got := State.readyRun held s u (s.advancePos u (s.ringT u) before) l
  if got = held ∧ 0 < held ∧ before + held < room then
    .next (State.mpIssue { s with mpOps := s.mpOps.erase o } false (s.rd u 0x4000 0 + (idx + held) % n * 32) [] (.ringScan kind ring))
  else execRingScanDone kind ring (before + got) s

/-- The host copy of a frame that a write belongs to. -/
def State.bufferCopy (s : State) (frame bq : Nat) (mirror : Bool) : Option Copy :=
  s.copies.find? (fun c => c.frame = frame && c.mirror = mirror && (match c.buffer with | some b => b.bq = bq | none => false))

/-- A payload write of a host copy is answered: in error where `status` is not 0 (R241, Table 9.7). -/
def State.bufferAnswered (s : State) (frame bq : Nat) (mirror : Bool) (status : Nat) : State :=
  match s.bufferCopy frame bq mirror with
  | none => s
  | some c =>
    let d := if status = 0 then c else { c with level := status }
    (s.setCopy c d).rxFinish d

/-- A read or write has ended in error, `status` 3 on an MP error and 4 on a timeout (Table 9.7): what it was for fails. -/
def State.mpFailed (s : State) (o : MpOp) (status : Nat) : State :=
  let s1 := { s with mpOps := s.mpOps.erase o }
  match o.purpose with
  | .descRead kind ring => s1.descFailed o kind ring
  | .payload q pos => s1.payloadFailed q pos status
  | .cqWrite cq _ => s.cqFailed cq o
  | .buffer f bq mirror => s1.bufferAnswered f bq mirror status
  | .eqRecord p => s1.eqFailed p o
  | .ringScan kind ring => s1.producerFault kind ring (s1.ringT (ringUnit kind ring)) 0x8004
  | .scan j => s1.jobEnd j (status + 1)
  | .dropped => s1

/-- An error or a timeout is counted, MP_ERR is latched (R246, Table 9.9). -/
def State.mpCount (s : State) (timeout : Bool) : State := (s.bump 0x00C (if timeout then 0x8001 else 0x8000) 0 1).latch 0x00C 16

/-- The burst of a read is in. -/
def State.readDone (s : State) (o : MpOp) : Host.Outcome State Fault Refusal :=
  let s1 := { s with mpOps := s.mpOps.erase o }
  match o.purpose with
  | .descRead kind ring => .next (s.descBack o kind ring ((o.octets.drop (o.addr % 64)).take 32))
  | .payload q pos => .next (s1.payloadIn q pos o.addr o.octets).pump
  | .ringScan kind ring => s.scanBurst o kind ring
  | .scan j => .next (s1.jobBurst j o.addr o.octets).pump
  | _ => .next s1.pump

/-- MP_READ_RESPONSE (R246, R390): a beat of a read; MP_RD_ERR on any beat ends the operation. -/
def execMpReadResponse (tag : Nat) (data : List Octet) (last err : Bool) (s : State) : Host.Outcome State Fault Refusal := gathered s fun s =>
  if !s.mainUp then .next s
  else
    let s := s.mpSettle
    match s.mpOp? false tag with
    | none => .next s.mpLate
    | some o =>
      if err then .next ((s.mpCount false).mpFailed o 3).pump
      else
        let o1 := { o with octets := o.octets ++ data }
        let s1 := { s with mpOps := s.mpOps.map (fun x => if x = o then o1 else x) }
        if last then s1.readDone o1 else .next s1

/-- A write has been answered well. -/
def State.writeDone (s : State) (o : MpOp) : State :=
  let s1 := { s with mpOps := s.mpOps.erase o }
  match o.purpose with
  | .cqWrite cq e => s1.cqWritten cq e
  | .buffer f bq mirror => s1.bufferAnswered f bq mirror 0
  | .eqRecord p => s1.eqWritten p
  | _ => s1

/-- MP_WRITE_RESPONSE (R246, R390). -/
def execMpWriteResponse (tag : Nat) (err : Bool) (s : State) : Host.Outcome State Fault Refusal := gathered s fun s =>
  if !s.mainUp then .next s
  else
    let s := s.mpSettle
    match s.mpOp? true tag with
    | none => .next s.mpLate
    | some o => .next (State.pump (if err then (s.mpCount false).mpFailed o 3 else s.writeDone o))

/-- MP_OPERATION_TIMEOUT (R246): an outstanding operation is not answered within `mp_timeout`. -/
def execMpOperationTimeout (write : Bool) (tag : Nat) (s : State) : Host.Outcome State Fault Refusal := gathered s fun s =>
  if !s.mainUp then .next s
  else
    let s := s.mpSettle
    match s.mpOp? write tag with
    | none => .next s
    | some o => .next ((s.mpCount true).mpFailed o 4).pump

end Sys2Proof.Machine
end

