-- ==== Sys2Proof/Machine/Atlas.lean ====
section
/-! DEFINITION. The atlas (R353 to R355): its header and body checked, its entries applied as agent H without leases. -/
namespace Sys2Proof.Machine

/-- The atlas header in the flash (Table 15.8), its fields and its check (R355). -/
def State.atlasAt (s : State) : Nat := s.regN .atlasBase - 1
def State.atlasHeader (s : State) : List Octet := s.flashRead s.atlasAt 32
def atlasLen (h : List Octet) : Nat := beN h 8 4
def atlasCount (h : List Octet) : Nat := beN h 12 4
def atlasImage (h : List Octet) : Nat := beN h 20 8
def State.atlasHeaderGood (s : State) (h : List Octet) : Bool :=
  beN h 0 4 = 0x41544C31 && octet h 4 = 1 && crcGood h && octet h 7 = s.build.channels && atlasLen h % 4 = 0 && 4 ≤ atlasLen h
    && atlasLen h ≤ min (s.regN .atlasLimit - 32) 262144

/-- The body behind the header. -/
def State.atlasBody (s : State) : List Octet := s.flashRead (s.atlasAt + 32) (atlasLen s.atlasHeader)

/-- An entry of the body (Table 15.9), with the octets it takes. -/
structure AtlasEntry where
  table : Bool
  path  : List Nat
  idx   : Nat
  sub   : Nat
  off   : Nat
  data  : List Octet
  size  : Nat
  deriving DecidableEq, Repr

/-- The entry at the front of a body (R354): none where the body ends inside it or it is no entry (log entry 30). -/
def atlasParse (l : List Octet) : Option AtlasEntry :=
  let n := octet l 1
  let tbl : Bool := octet l 0 = 2
  let at_ := 8 + 2 * n + (if tbl then 4 else 0)
  let len := be16 l 6
  let size := ceilDiv (at_ + len) 4 * 4
  if l.length < size ∨ (octet l 0 ≠ 1 ∧ octet l 0 ≠ 2) ∨ n = 0 ∨ 8 < n ∨ octet l 5 ≠ 0 ∨ (tbl ∧ octet l 4 ≠ 0)
      ∨ ((l.take size).drop (at_ + len)).any (· ≠ 0) then none
  else some ⟨tbl, (List.range n).map (fun i => be16 l (8 + 2 * i)), be16 l 2, octet l 4, if tbl then beN l (8 + 2 * n) 4 else 0,
    (l.drop at_).take len, size⟩

/-- An entry is applied (R355): every check of Table 2.4 but the lease. -/
def State.atlasEffect (s : State) (e : AtlasEntry) : Reply :=
  match s.resolvePath e.path with
  | .here u =>
    if e.table then let r := s.transfer atlasAgent true u e.idx e.off e.data; ⟨r.1, [], r.2⟩
    else s.writeHere atlasAgent false true u e.idx e.sub e.data
  | .absent u => s.refuse u .noUnit
  | .member _ _ => s.refuse 0x00D (if e.table then .noUnit else .notAuthorised)

/-- The record and the event of an atlas (Table 15.3, R355). -/
def State.atlasTold (s : State) (code : Nat) : State :=
  (s.record code 0x005 [(8, atlasImage s.atlasHeader), (1, s.rd 0x005 0x500B 0), (4, s.rd 0x005 0x500B 2), (2, s.rd 0x005 0x500B 3)]).raise
    causeMonumentEvent

/-- The atlas has failed (R355, Table 15.11): `why` is 1 BAD_HEADER, 2 BAD_CRC, 3 ENTRY, 4 BAD_FORMAT. -/
def State.atlasFail (s : State) (why entry code : Nat) : State :=
  let s0 := s.setReg .atlasCells 0
  let s1 := (((s0.wr 0x005 0x500B 0 4).wr 0x005 0x500B 1 why).wr 0x005 0x500B 2 entry).wr 0x005 0x500B 3 code
  ({ s1 with staged := if why = 3 then [] else s1.staged }.latch 0x005 18).atlasTold 0x0F21

/-- Every entry has been applied: APPLIED, then RUN if the header asks for it (R355, R401). -/
def State.atlasApplied (s : State) : State :=
  let s1 := ((s.setReg .atlasCells 0).wr 0x005 0x500B 0 3).atlasTold 0x0F20
  if (octet s.atlasHeader 5).testBit 0 then (s1.powerRequest 1 false).2 else s1

/-- Entries are applied in order from number `n` at octet `pos`; one whose access completes later holds those behind it. -/
def State.atlasRun : Nat → State → List Octet → Nat → Nat → State
  | 0, s, _, _, _ => s
  | k + 1, s, l, pos, n =>
    if l = [] then (if n = atlasCount s.atlasHeader then s.atlasApplied else s.atlasFail 4 0 0)
    else match atlasParse l with
      | none => s.atlasFail 4 0 0
      | some e =>
        let r := (s.setReg .atlasDone 0).atlasEffect e
        match r.code with
        | some .ok => State.atlasRun k r.state (l.drop e.size) (pos + e.size) (n + 1)
        | some c => r.state.atlasFail 3 n c.code
        | none => (r.state.setReg .atlasPos ((pos + e.size : Nat) : Int)).setReg .atlasEntry (n : Int)

/-- The atlas header is checked, and the job that computes the CRC of the body is queued as soon as it has an entry (R277, R355); the body takes
buffer cells from then on. -/
def State.atlasStart (s : State) : State :=
  let h := s.atlasHeader
  if !s.atlasHeaderGood h then s.atlasFail 1 0 0
  else match s.freeJob with
    | none => s
    | some j =>
      let s1 := (s.submitJob j (s.atlasAt + 32) (atlasLen h) (beN h 16 4)).setReg .atlasJob ((j : Int) + 1)
      s1.setReg .atlasCells (ceilDiv (atlasLen h) 64 : Nat)

/-- The job has ended (R355): its entry is released, and on MATCH the entries are begun. With any other result nothing is applied and the failure
is BAD_CRC; where the scan itself has failed, `atlas_abort` shows its result (DESIGN CHOICE, log entry 89). -/
def State.atlasChecked (s : State) (j : Nat) : State :=
  if jobState (s.job j) ≠ 3 then s
  else
    let s1 := (s.releaseJob j).setReg .atlasJob 0
    if jobResult (s.job j) = 1 then State.atlasRun (s.atlasBody.length + 1) (s1.wr 0x005 0x500B 0 2) s.atlasBody 0 0
    else s1.atlasFail 2 0 (if jobResult (s.job j) = 3 then 0 else jobResult (s.job j))

/-- The atlas goes on (R355): its job has ended, or an entry that waited has. -/
def State.atlasResume (s : State) : State :=
  let pos := s.regN .atlasPos
  if s.rd 0x005 0x500B 0 = 1 ∧ s.regN .atlasJob ≠ 0 then s.atlasChecked (s.regN .atlasJob - 1)
  else if s.rd 0x005 0x500B 0 ≠ 2 ∨ pos = 0 ∨ s.regN .atlasDone = 0 then s
  else
    let c := Abort.ofCode (s.regN .atlasDone - 1)
    let s1 := (s.setReg .atlasPos 0).setReg .atlasDone 0
    if c ≠ .ok then s1.atlasFail 3 (s.regN .atlasEntry) c.code
    else
      let l := s.atlasBody.drop pos
      State.atlasRun (l.length + 1) s1 l pos (s.regN .atlasEntry + 1)

/-- ATLAS_APPLY (R355): after the mount of a start, the atlas that the header names is loaded and applied. -/
def execAtlasApply (s : State) : Host.Outcome State Fault Refusal := gathered s fun s =>
  if !s.nvmOn ∨ s.regN .atlasBase = 0 then .next s
  else if s.rd 0x005 0x500B 0 = 1 ∧ s.regN .atlasJob = 0 then .next s.atlasStart
  else .next s.atlasResume

end Sys2Proof.Machine
end

