-- ==== Sys2Proof/Machine/Port.lean ====
section
/-! DEFINITION. The NVM port (R340, R341): how its operations end, well or badly, and what a timeout ends. -/
namespace Sys2Proof.Machine

/-- The classes under which an operation can time out (Table 15.4): 0 a write enable or status poll, 1 a read, 2 a program, 3 an erase. -/
def NvmOp.classes : NvmOp → List Nat
  | .header => [2, 0, 3]
  | .erase _ => [3, 0]
  | .read _ _ => [1]
  | .image _ _ _ => [2, 0]
  | .area _ _ => [3, 0]
  | .region _ k total _ _ => if k < total then [3, 0] else [2, 0]

/-- The flash address of an operation. -/
def State.opAddr (s : State) : NvmOp → Nat
  | .header => headerAddr 0 (s.headerFree % 64)
  | .erase sec => sectorAddr sec
  | .read a _ => match (s.ctx a).target with | some t => if t.2 = 0x6000 then slotAddr 0 + (s.ctx a).offset else regionBase | none => regionBase
  | .image _ x _ => x
  | .area _ x => x
  | .region _ k total _ _ => if k < total then regionBase + 4096 * k else headerAddr 0 0

/-- A write's access ends with TIMEOUT; what it has still waiting goes on without it. -/
def State.writerFailed (s : State) (who : Option Agent) : State :=
  match who with
  | some a => State.finish { s with nvmQ := s.nvmQ.map (NvmOp.disown a) } a .timeout
  | none => s

/-- The operation in progress ends well. -/
def State.opDone (s : State) (o : NvmOp) : State :=
  let s0 := s.nvmGood
  match o with
  | .header => s0.portDone.putHeader
  | .erase sec => (s0.portDone.flashErase (sectorAddr sec) 4096).nvmWrite (s.regN .eraseOpcode)
  | .read a n => let r := (s0.portDone.nvmCommand s.readOpcode).dpDeliver a n; r.2.2.finish a r.1 r.2.1
  | .image who x l => s0.imageDone who x l
  | .area who x => ((s0.portDone.flashErase x 4096).nvmWrite (s.regN .eraseOpcode)).writerDone who
  | .region who k total n first => s0.regionDone who k total n first

/-- Octets that a failed program may have left: a free value (log entry 21). -/
def State.spoil (s : State) (x n : Nat) : State :=
  let (f, s1) := s.takeFree
  s1.flashProgram x ((List.range n).map (fun k => BitVec.ofNat 8 ((Config.partialSlot f).toNat / 2 ^ (8 * (k % 64)))))

/-- The operation in progress fails, under a class: the Monument's own is made again (R348), and an access ends with TIMEOUT (R76, Table
2.13). -/
def State.opFailed (s : State) (o : NvmOp) (cls : Nat) : State :=
  let addr := s.opAddr o
  match o with
  | .header => s.monFail cls addr
  | .erase _ => s.monFail cls addr
  | .read a _ => (((s.dpHold a .timeout).portDone).finish a .timeout).monFail cls addr
  | .image who x l => (((s.portDone).spoil x l.length).writerFailed who).monFail cls addr
  | .area who _ => ((s.portDone).writerFailed who).monFail cls addr
  | .region who _ _ _ _ => (s.writerFailed who).monFail cls addr

/-- The operation in progress, unless a program has suspended it (R341). -/
def State.portOp (s : State) : Option NvmOp := if s.regN .nvmBegun = 1 ∧ s.progGroup = [] then s.nvmQ.head? else none

/-- NVM_OPERATION_DONE (R341): the operation in progress ends, and the port takes its next. -/
def execNvmOperationDone (ok : Bool) (s : State) : Host.Outcome State Fault Refusal := gathered s fun s =>
  match s.portOp with
  | some o => if s.mayMount then .next (if ok then s.opDone o else s.opFailed o (o.classes.headD 0)) else .next s
  | none => .next s

/-- The scan job that is reading the flash (R274). -/
def State.nvmJob (s : State) : Option Nat := [0, 1, 2, 3].find? (fun j => jobState (s.job j) = 2 && jobSource (s.job j) = 1)

/-- A read of the flash outside `nvmQ` times out: of a scan job, which ends with NVM_TIMEOUT; of a mount; of the atlas header. -/
def State.readTimeout (s : State) : State :=
  match s.nvmJob with
  | some j => ((s.timedOut 1 (jobStart (s.job j) + jobDoneOctets (s.job j))).jobEnd j 7).monFail 1 (jobStart (s.job j) + jobDoneOctets (s.job j))
  | none =>
    if s.mountPending then (s.timedOut 1 regionBase).monFail 1 regionBase
    else if s.rd 0x005 0x500B 0 = 1 ∧ s.regN .atlasJob = 0 then ((s.timedOut 1 s.atlasAt).monFail 1 s.atlasAt).atlasFail 1 0 0
    else s

/-- Which of the commands of an operation has timed out is not stated by the row: a free value among their classes (log entry 92). -/
def State.pickClass (s : State) (l : List Nat) : Nat × State :=
  let (f, s1) := s.takeFree
  (l.getD ((Config.timedOutStage f).toNat % l.length) 0, s1)

/-- The program in progress has timed out (R340), or, where an erase stands behind it, the suspension of that erase (R341): the erase then is no
longer in progress. -/
def State.programTimeout (s : State) (m : MonPending) : State :=
  let (cls, s1) := s.pickClass (if s.regN .nvmBegun = 1 then [4, 2, 0, 1] else [2, 0, 1])
  if cls = 4 then
    let addr := (s1.nvmQ.head?.map s1.opAddr).getD 0
    ((s1.setReg .nvmBegun 0).timedOut 4 addr).monFail 4 addr
  else (s1.timedOut cls (slotAddr m.slot)).programEnd false cls

/-- NVM_TIMEOUT (R340): a command to the flash has timed out, and what it belongs to has failed: the discovery, which leaves ABSENT (R339);
the program in progress, or the suspension of the erase that it has met; the operation in progress; a read. -/
def execNvmTimeout (s : State) : Host.Outcome State Fault Refusal := gathered s fun s =>
  if !(s.mainUp || s.restoring) ∨ s.pfailFrozen then .next s
  else if s.regN .nvmKnown = 0 then .next (((s.setReg .nvmKnown 1).timedOut 0 0).wr 0x005 0x5001 0 0)
  else if s.nvmState ≠ 2 then .next s
  else match s.progGroup, s.portOp with
    | m :: _, _ => .next (s.programTimeout m)
    | [], some o => let p := s.pickClass o.classes; .next ((p.2.timedOut p.1 (s.opAddr o)).opFailed o p.1)
    | [], none => .next (if s.portFree then s.readTimeout else s)

end Sys2Proof.Machine
end

