-- ==== Sys2Proof/Machine/Boundary.lean ====
section
/-! DEFINITION. The tick boundary (R25, Table 1.3): its ordered work. -/
namespace Sys2Proof.Machine

/-- Counters of ticks spent in a state gain one for the closing tick (R410): XOFF, holds with their lengths (R217), IDLE, stalls (R243), a lost
TREF_CLK (R282). -/
def State.countXoff (s : State) (ch : Nat) : State :=
  if s.rd (chUnit ch) 0x5012 0 = 0 then s
  else (List.range 9).foldl (fun s k => if s.inXoff ch k then s.bump (chUnit ch) 0x801D k 1 else s) s
def State.countHold (s : State) (h : (Nat × Nat) × Nat) : State :=
  if h.2 = 0 then s
  else (s.bump (chUnit h.1.1) 0x8036 h.1.2 1).setReg (.holdLen h.1.1 h.1.2) (s.reg (.holdLen h.1.1 h.1.2) + 1)
def State.countStall (s : State) (cq : Nat) : State :=
  if s.regN (.stallReported cq) = 1 ∨ (s.timer (.cqStall cq)).isSome then s.setReg (.stallTicks cq) (s.reg (.stallTicks cq) + 1) else s
def State.countTicks (s : State) : State :=
  let s1 := s.holds.foldl State.countHold ((List.range s.build.channels).foldl State.countXoff s)
  let s2 := s1.ringList.foldl State.countStall (if s1.mode = 2 then s1.bump 0x001 0x8001 0 1 else s1)
  if s2.rd 0x003 0x5002 0 = 1 then s2.setReg .trefTicks (s2.reg .trefTicks + 1) else s2

/-- The age of each neighbour's last HELLO (Table 13.7), saturating. -/
def State.ageHello (s : State) (lane : Nat) : State :=
  if s.nbSerial lane = 0 then s
  else s.setEntField 0x00D 0x6000 lane 0 28 (min (2 ^ 28 - 1) (s.entField 0x00D 0x6000 lane 0 28 + 1))

/-- The timers whose expiry is work of step 3 (Table 1.3). -/
def TimerId.isWatch : TimerId → Bool
  | .cqStall _ => true
  | .alHold _ => true
  | _ => false

/-- What a tick timer that reaches 0 does, by the rule of its owner. -/
def State.fire (s : State) (t : TimerId) : State :=
  match t with
  | .syncTimeout lane => s.syncExpire lane
  | .upHold lane => s.upHoldOver lane
  | .verify ch => s.verifyExpire ch
  | .refresh ch k => s.refresh ch k
  | .pauseActive ch k => s.activeOver ch k
  | .holdoff ch => s.holdoffOver ch
  | .cqStall cq => if s.cqHeld cq then s.stallReport cq else s.stopTimer t
  | .cqIrq cq => s.cqDone cq
  | .alHold al => (s.stopTimer t).park al
  | .freezeLimit => s.autoThaw
  | .token => s.tokenGain
  | .budgetHour => s.hourOver
  | .foldHold ch q => s.foldRelease ch q
  | .dead lane => s.neighbourDown lane
  | .hello => s.helloTick
  | .lsaRefresh => if s.fabricOn then s.floodOwn else s.stopTimer t
  | .lsaAge origin => s.ageOut origin
  | .assignRefresh => if s.role = 3 then s.assignTick else s.stopTimer t
  | .duplicate serial => s.renumber serial
  | .tagRate _ => s.stopTimer t
  | .frameWait => s.handshake true
  | .led lane => s.ledOver lane
  | .ppsIn => s.ppsGone

/-- A timer that stands at 0 fires, and wakes the device from IDLE (R362). -/
def State.fireIf (s : State) (t : TimerId) : State := if s.timer t = some 0 then s.wake.fire t else s

/-- The timers that stand at 0. -/
def State.timersOut (s : State) (watch : Bool) : List TimerId :=
  (s.timers.filter (fun p => p.2 = 0 && p.1.isWatch = watch)).map Prod.fst

/-- Step 1: the count, the timers, the leases and the claims (R24, R25, R409). -/
def State.boundaryTimers (s : State) : State :=
  let s1 := { s.wr 0x000 0x5001 0 ((s.tick + 1) % 2 ^ 64) with slot := 0 }
  let s2 := { s1 with timers := s1.timers.map (fun (p : TimerId × Nat) => (p.1, p.2 - 1)) }
  let s3 := (s2.timersOut false).foldl State.fireIf s2
  let s4 := (if s3.leases.any (fun l => l.left ≤ 1) then s3.wake else s3).leaseStep
  s4.claimStep

/-- Step 2: a pause or PFC counter gains nothing and loses one; at 0 it releases its transmitter or class (R215). -/
def State.pauseTick (s : State) (h : (Nat × Nat) × Nat) : State :=
  if h.2 = 0 then s
  else if h.2 = 1 then s.endHold h.1.1 h.1.2
  else { s with holds := s.holds.set h.1 (h.2 - 1) 0 }
def State.pauseStep (s : State) : State := s.holds.foldl State.pauseTick s

/-- Step 3: the pause watchdog (R217), CQ stalls (R243), air-link holds (R255). -/
def State.wdCheck (s : State) (ch : Nat) : State :=
  if s.wdArmed ch ∧ [0, 1, 2, 3, 4, 5, 6, 7, 8].any
      (fun h => 0 < s.holdOf ch h && s.rd (chUnit ch) 0x1035 0 * 6250 ≤ s.regN (.holdLen ch h)) then s.wdBreak ch else s
def State.watchStep (s : State) : State :=
  let s1 := (List.range s.build.channels).foldl State.wdCheck s
  let s2 := (s1.timersOut true).foldl State.fireIf s1
  s2.ringList.foldl State.stallCheck s2

/-- The slot counts of the new tick (R11, R32, R139). -/
def State.newTick (s : State) : State := { (s.setReg .slotsTaken 0).setReg .surveyUsed 0 with slot := 0 }

/-- What is evaluated at the boundary for use from slot 0: the flow queues' links and tags (R186, R190), the air links (R254), the alarms and
what the fabric tells of them (R21, R303). -/
def State.sampleStep (s : State) : State :=
  let s1 := ([0, 1, 2].foldl State.latchAir s).linkMoves.tagVisits
  let s2 := (List.range s.build.lanes).foldl State.ageHello s1
  s2.recomputeAlarms.lsaCheck

/-- Requests and commands of managers go on (R22, R73, R359), and the atlas (R355); discovery of the flash begins after a start (R339). The host port
reads where cells have come free (R152). -/
def State.serveStep (s : State) : State := (State.accessServe 9 s.heldStep.groupPump).atlasResume.discoverStep.pump

/-- Entry into IDLE, after step 7 (R361). -/
def State.idleStep (s : State) : State :=
  let s1 := s.idleCount
  if s1.idleDueNow then s1.enterIdle else s1

/-- The boundary: the snapshots and clears of the closing tick (R383), then Table 1.3 in its order. What its steps before the delivery of
interrupts have raised is recorded before that, and what comes after it together again (R26, R328). Words that SP has held off are
taken in the new tick (R325). -/
def State.tickBoundary (s : State) : State :=
  let s0 := s.together fun s =>
    let s0 := ((s.advance (256 - s.slot)).latchSnaps.clearBlocks.countTicks).scanStep
    let s1 := s0.boundaryTimers.pauseStep.watchStep
    let s2 := s1.commitStep.applyRates.flip.modeStep
    s2.creditStep.mPackets.applyStep.sampleStep.serveStep
  s0.together fun s => s.interruptStep.newTick.blockAccept.idleStep

/-- TICK_BOUNDARY (R25). Without CCLK there is no tick (R24). -/
def execTickBoundary (s : State) : Host.Outcome State Fault Refusal := if s.mainUp then .next s.tickBoundary else .next s

end Sys2Proof.Machine
end

