-- ==== Sys2Proof/Machine/Commands.lean ====
section
/-! DEFINITION. The rows that are one access by an agent to one object (R45 to R60, R66 to R70 and the rules of the objects): each by the
one path of Objects.lean, with the object and the octets that its row names. -/
namespace Sys2Proof.Machine

/-- OBJECT_WRITE (R47): a write of an object with no row of its own. -/
def execObjectWrite (agent : Agent) (path : List Nat) (index sub : Nat) (data : List Octet) (s : State) : Host.Outcome State Fault Refusal :=
  s.access agent path index sub data

/-- STAGED_WRITE (R52): a write of an RWS object joins the pending set. -/
def execStagedWrite (agent : Agent) (path : List Nat) (index sub : Nat) (data : List Octet) (s : State) : Host.Outcome State Fault Refusal :=
  s.access agent path index sub data

/-- COMMIT (R53). -/
def execCommit (agent : Agent) (path : List Nat) (s : State) : Host.Outcome State Fault Refusal := s.access agent path 0x0030 0 []

/-- DISCARD (R55). -/
def execDiscard (agent : Agent) (path : List Nat) (s : State) : Host.Outcome State Fault Refusal := s.access agent path 0x0031 0 []

/-- LEASE_CLAIM (R59, R409): it is decided at the boundary. -/
def execLeaseClaim (agent : Agent) (path : List Nat) (s : State) : Host.Outcome State Fault Refusal := s.access agent path 0x0012 0 []

/-- LEASE_RENEW (R59). -/
def execLeaseRenew (agent : Agent) (path : List Nat) (s : State) : Host.Outcome State Fault Refusal := s.access agent path 0x0013 0 []

/-- LEASE_RELEASE (R59). -/
def execLeaseRelease (agent : Agent) (path : List Nat) (s : State) : Host.Outcome State Fault Refusal := s.access agent path 0x0014 0 []

/-- ALARM_ACK (R51). -/
def execAlarmAck (agent : Agent) (path : List Nat) (mask : Nat) (s : State) : Host.Outcome State Fault Refusal :=
  s.access agent path 0x0006 0 (toMsb 4 mask)

/-- LINK_RESTART (R98). -/
def execLinkRestart (agent : Agent) (lane : Nat) (s : State) : Host.Outcome State Fault Refusal := s.accessUnit agent (lnUnit lane) 0x7000 0 []

/-- DP_TARGET_WRITE (R66). -/
def execDpTargetWrite (agent : Agent) (value : Nat) (s : State) : Host.Outcome State Fault Refusal :=
  s.accessUnit agent 0x00E 0x4001 0 (toMsb 2 value)

/-- DP_OFFSET_WRITE (R66). -/
def execDpOffsetWrite (agent : Agent) (value : Nat) (s : State) : Host.Outcome State Fault Refusal :=
  s.accessUnit agent 0x00E 0x4002 0 (toMsb 4 value)

/-- DP_LENGTH_WRITE (R66). -/
def execDpLengthWrite (agent : Agent) (value : Nat) (s : State) : Host.Outcome State Fault Refusal :=
  s.accessUnit agent 0x00E 0x4003 0 (toMsb 4 value)

/-- DP_DATA_READ (R67). -/
def execDpDataRead (agent : Agent) (n : Nat) (s : State) : Host.Outcome State Fault Refusal := s.readUnit agent 0x00E 0x4004 0 (some n)

/-- DP_DATA_WRITE (R67). -/
def execDpDataWrite (agent : Agent) (octets : List Octet) (s : State) : Host.Outcome State Fault Refusal :=
  s.accessUnit agent 0x00E 0x4004 0 octets

/-- KEY_WRITE (R70). -/
def execKeyWrite (agent : Agent) (slot : Nat) (key : List Octet) (s : State) : Host.Outcome State Fault Refusal :=
  s.accessUnit agent 0x012 0x9000 slot key

/-- KEY_ERASE (R70). -/
def execKeyErase (agent : Agent) (slot : Nat) (s : State) : Host.Outcome State Fault Refusal :=
  s.accessUnit agent 0x012 0x7000 0 (toMsb 1 slot)

/-- EDITION_COMMIT (R135). -/
def execEditionCommit (agent : Agent) (s : State) : Host.Outcome State Fault Refusal := s.accessUnit agent 0x006 0x7001 0 []

/-- EDITION_DISCARD (R136, Table 5.8). -/
def execEditionDiscard (agent : Agent) (s : State) : Host.Outcome State Fault Refusal := s.accessUnit agent 0x006 0x7002 0 []

/-- POLICER_WRITE (R148). -/
def execPolicerWrite (agent : Agent) (entry : Nat) (octets : List Octet) (s : State) : Host.Outcome State Fault Refusal :=
  s.accessEntry agent 0x008 0x6001 entry octets

/-- FOLD_FLUSH (R158). -/
def execFoldFlush (agent : Agent) (s : State) : Host.Outcome State Fault Refusal := s.accessUnit agent 0x009 0x7000 0 []

/-- QUEUE_WRITE (R175). -/
def execQueueWrite (agent : Agent) (queue : Nat) (octets : List Octet) (s : State) : Host.Outcome State Fault Refusal :=
  s.accessEntry agent 0x00A 0x6000 queue octets

/-- RING_START (R245). -/
def execRingStart (agent : Agent) (unit : Nat) (s : State) : Host.Outcome State Fault Refusal := s.accessUnit agent unit 0x7000 0 []

/-- RING_STOP (R245). -/
def execRingStop (agent : Agent) (unit : Nat) (s : State) : Host.Outcome State Fault Refusal := s.accessUnit agent unit 0x7001 0 []

/-- RING_RESET (R245). -/
def execRingReset (agent : Agent) (unit : Nat) (s : State) : Host.Outcome State Fault Refusal := s.accessUnit agent unit 0x7002 0 []

/-- RING_CONFIG_WRITE (R245). -/
def execRingConfigWrite (agent : Agent) (unit index : Nat) (data : List Octet) (s : State) : Host.Outcome State Fault Refusal :=
  s.accessUnit agent unit index 0 data

/-- STREAM_WRITE (R268). -/
def execStreamWrite (agent : Agent) (entry : Nat) (octets : List Octet) (s : State) : Host.Outcome State Fault Refusal :=
  s.accessEntry agent 0x00B 0x6001 entry octets

/-- SCAN_JOB_STORE (R273): a job entry written with GO 0. -/
def execScanJobStore (agent : Agent) (job : Nat) (octets : List Octet) (s : State) : Host.Outcome State Fault Refusal :=
  if (ofLsb octets).testBit 60 then .next s else s.accessEntry agent 0x00B 0x6002 job octets

/-- SCAN_JOB_GO (R273): a job entry written with GO 1. -/
def execScanJobGo (agent : Agent) (job : Nat) (octets : List Octet) (s : State) : Host.Outcome State Fault Refusal :=
  if (ofLsb octets).testBit 60 then s.accessEntry agent 0x00B 0x6002 job octets else .next s

/-- SCAN_ABORT (R276). -/
def execScanAbort (agent : Agent) (job : Nat) (s : State) : Host.Outcome State Fault Refusal :=
  s.accessUnit agent 0x00B 0x7000 0 (toMsb 1 job)

/-- TIME_NOW_READ (R280). -/
def execTimeNowRead (agent : Agent) (s : State) : Host.Outcome State Fault Refusal := s.readUnit agent 0x003 0x5000 0 none

/-- INCREMENT_WRITE (R281). -/
def execIncrementWrite (agent : Agent) (data : List Octet) (s : State) : Host.Outcome State Fault Refusal :=
  s.accessUnit agent 0x003 0x4000 0 data

/-- STEP_SET (R283). -/
def execStepSet (agent : Agent) (s : State) : Host.Outcome State Fault Refusal := s.accessUnit agent 0x003 0x7000 0 []

/-- ADJUST (R283): by `d` nanoseconds, an I64. -/
def execAdjust (agent : Agent) (d : Int) (s : State) : Host.Outcome State Fault Refusal :=
  s.accessUnit agent 0x003 0x7001 0 (toMsb 8 (unsigned 64 d))

/-- SOURCE_WRITE (R316). -/
def execSourceWrite (agent : Agent) (source : Nat) (octets : List Octet) (s : State) : Host.Outcome State Fault Refusal :=
  s.accessEntry agent 0x002 0x6000 source octets

/-- TEST_RAISE (R313). -/
def execTestRaise (agent : Agent) (cause : Nat) (s : State) : Host.Outcome State Fault Refusal :=
  s.accessUnit agent 0x002 0x7000 0 (toMsb 2 cause)

/-- EQ_CONFIG_WRITE (R321). -/
def execEqConfigWrite (agent : Agent) (eq index : Nat) (data : List Octet) (s : State) : Host.Outcome State Fault Refusal :=
  s.accessUnit agent (eqUnit eq) index 0 data

/-- FB_FREEZE (R335). -/
def execFbFreeze (agent : Agent) (s : State) : Host.Outcome State Fault Refusal := s.accessUnit agent 0x004 0x4000 0 [1]

/-- FB_THAW (R335). -/
def execFbThaw (agent : Agent) (s : State) : Host.Outcome State Fault Refusal := s.accessUnit agent 0x004 0x4000 0 [0]

/-- MONUMENT_RESTART (R348). -/
def execMonumentRestart (agent : Agent) (s : State) : Host.Outcome State Fault Refusal := s.accessUnit agent 0x005 0x7000 0 []

/-- MONUMENT_FORMAT (R343). -/
def execMonumentFormat (agent : Agent) (sectors : Nat) (s : State) : Host.Outcome State Fault Refusal :=
  s.accessUnit agent 0x005 0x7001 0 (toMsb 2 sectors)

/-- ATLAS_SET (R356). -/
def execAtlasSet (agent : Agent) (base limit : Nat) (s : State) : Host.Outcome State Fault Refusal :=
  s.accessUnit agent 0x005 0x7002 0 (toMsb 4 base ++ toMsb 4 limit)

/-- ATLAS_ERASE (R356). -/
def execAtlasErase (agent : Agent) (s : State) : Host.Outcome State Fault Refusal := s.accessUnit agent 0x005 0x7003 0 []

/-- ATLAS_IMAGE_WRITE (R356): a `dp_data` write of a context whose target is `atlas_image`; where it is another, a transfer from the image's
first octet begins. -/
def execAtlasImageWrite (agent : Agent) (octets : List Octet) (s : State) : Host.Outcome State Fault Refusal :=
  if (s.ctx agent).target = some (0x005, 0x6002) then s.accessUnit agent 0x00E 0x4004 0 octets
  else s.accessEntry agent 0x005 0x6002 0 octets

/-- POWER_REQUEST (R359): `inFrame` where it came in an object-access frame. It wakes the device from IDLE (R362). -/
def execPowerRequest (agent : Agent) (target : Nat) (inFrame : Bool) (s : State) : Host.Outcome State Fault Refusal :=
  if !s.mainUp then .next s
  else
    let s := s.wake
    .next (s.told agent (fun s => s.writeHere agent inFrame false 0x001 0x7000 0 (toMsb 1 target)))

/-- STATS_CLEAR (R380). -/
def execStatsClear (agent : Agent) (unit : Nat) (s : State) : Host.Outcome State Fault Refusal := s.accessUnit agent unit 0x7000 0 []

/-- STATS_SNAPSHOT (R381). -/
def execStatsSnapshot (agent : Agent) (unit slot : Nat) (s : State) : Host.Outcome State Fault Refusal :=
  s.accessUnit agent 0x011 0x7001 0 (toMsb 2 unit ++ toMsb 1 slot)

/-- RX_PEAK_READ (R109). -/
def execRxPeakRead (agent : Agent) (ch sub : Nat) (s : State) : Host.Outcome State Fault Refusal :=
  s.readUnit agent (chUnit ch) 0x5011 sub none

end Sys2Proof.Machine
end

