-- ==== Sys2Proof/Machine/Dispatch.lean ====
section
/-! DEFINITION. One arm per command: a direct call of its meaning. -/
namespace Sys2Proof.Machine

/-- The effect of a command on everything but the queue. -/
def exec (i : Instr) (s : State) : Host.Outcome State Fault Refusal :=
  match i with
  | .tickBoundary => Sys2Proof.Machine.execTickBoundary s
  | .rxFrameStart ch start crossing => Sys2Proof.Machine.execRxFrameStart ch start crossing s
  | .rxCell ch cell => Sys2Proof.Machine.execRxCell ch cell s
  | .keyPresent => Sys2Proof.Machine.execKeyPresent s
  | .decisionDeliver ecc => Sys2Proof.Machine.execDecisionDeliver ecc s
  | .commitPoint ep => Sys2Proof.Machine.execCommitPoint ep s
  | .applyHeldEffects => Sys2Proof.Machine.execApplyHeldEffects s
  | .hostTxFrame => Sys2Proof.Machine.execHostTxFrame s
  | .alRxFrame al length rsvd octets err => Sys2Proof.Machine.execAlRxFrame al length rsvd octets err s
  | .schedChoice ep level lead => Sys2Proof.Machine.execSchedChoice ep level lead s
  | .txFrameStart ep level crossing ecc => Sys2Proof.Machine.execTxFrameStart ep level crossing ecc s
  | .txFrameEnd ep => Sys2Proof.Machine.execTxFrameEnd ep s
  | .alTxFrameEnd al ecc => Sys2Proof.Machine.execAlTxFrameEnd al ecc s
  | .macControlOther ch frame => Sys2Proof.Machine.execMacControlOther ch frame s
  | .pauseRx ch frame => Sys2Proof.Machine.execPauseRx ch frame s
  | .pfcRx ch frame => Sys2Proof.Machine.execPfcRx ch frame s
  | .pauseGenStart ch => Sys2Proof.Machine.execPauseGenStart ch s
  | .pauseRefreshExpire ch acct => Sys2Proof.Machine.execPauseRefreshExpire ch acct s
  | .pauseActiveExpire ch acct => Sys2Proof.Machine.execPauseActiveExpire ch acct s
  | .pauseHoldEnd ch hold => Sys2Proof.Machine.execPauseHoldEnd ch hold s
  | .pauseWdBreak ch => Sys2Proof.Machine.execPauseWdBreak ch s
  | .holdoffEnd ch => Sys2Proof.Machine.execHoldoffEnd ch s
  | .verifyRx ch => Sys2Proof.Machine.execVerifyRx ch s
  | .respondRx ch => Sys2Proof.Machine.execRespondRx ch s
  | .verifyTimeExpire ch => Sys2Proof.Machine.execVerifyTimeExpire ch s
  | .mmFragmentRx ch start octets crossing => Sys2Proof.Machine.execMmFragmentRx ch start octets crossing s
  | .fabricFragmentRx ch start octets crossing => Sys2Proof.Machine.execFabricFragmentRx ch start octets crossing s
  | .fragTimeout ch level => Sys2Proof.Machine.execFragTimeout ch level s
  | .sdRise lane => Sys2Proof.Machine.execSdRise lane s
  | .sdFall lane => Sys2Proof.Machine.execSdFall lane s
  | .laneClockLost clock => Sys2Proof.Machine.execLaneClockLost clock s
  | .laneClockReturn clock => Sys2Proof.Machine.execLaneClockReturn clock s
  | .syncAcquired lane => Sys2Proof.Machine.execSyncAcquired lane s
  | .syncLost lane hiBer => Sys2Proof.Machine.execSyncLost lane hiBer s
  | .anComplete lane page => Sys2Proof.Machine.execAnComplete lane page s
  | .syncTimeoutExpire lane => Sys2Proof.Machine.execSyncTimeoutExpire lane s
  | .upHoldExpire lane => Sys2Proof.Machine.execUpHoldExpire lane s
  | .linkRestart agent lane => Sys2Proof.Machine.execLinkRestart agent lane s
  | .objectWrite agent path index sub data => Sys2Proof.Machine.execObjectWrite agent path index sub data s
  | .stagedWrite agent path index sub data => Sys2Proof.Machine.execStagedWrite agent path index sub data s
  | .commit agent path => Sys2Proof.Machine.execCommit agent path s
  | .commitCheckDone unit => Sys2Proof.Machine.execCommitCheckDone unit s
  | .commitApply => Sys2Proof.Machine.execCommitApply s
  | .discard agent path => Sys2Proof.Machine.execDiscard agent path s
  | .leaseClaim agent path => Sys2Proof.Machine.execLeaseClaim agent path s
  | .leaseClaimDecide => Sys2Proof.Machine.execLeaseClaimDecide s
  | .leaseRenew agent path => Sys2Proof.Machine.execLeaseRenew agent path s
  | .leaseRelease agent path => Sys2Proof.Machine.execLeaseRelease agent path s
  | .leaseExpiry unit => Sys2Proof.Machine.execLeaseExpiry unit s
  | .alarmAck agent path mask => Sys2Proof.Machine.execAlarmAck agent path mask s
  | .mailboxRead proc access => Sys2Proof.Machine.execMailboxRead proc access s
  | .mailboxWrite proc access => Sys2Proof.Machine.execMailboxWrite proc access s
  | .mailboxDone proc => Sys2Proof.Machine.execMailboxDone proc s
  | .dpTargetWrite agent value => Sys2Proof.Machine.execDpTargetWrite agent value s
  | .dpOffsetWrite agent value => Sys2Proof.Machine.execDpOffsetWrite agent value s
  | .dpLengthWrite agent value => Sys2Proof.Machine.execDpLengthWrite agent value s
  | .dpDataRead agent n => Sys2Proof.Machine.execDpDataRead agent n s
  | .dpDataWrite agent octets => Sys2Proof.Machine.execDpDataWrite agent octets s
  | .dpApertureRead window width => Sys2Proof.Machine.execDpApertureRead window width s
  | .dpApertureWrite window width word => Sys2Proof.Machine.execDpApertureWrite window width word s
  | .accessRead ch frame => Sys2Proof.Machine.execAccessRead ch frame s
  | .accessWrite ch frame => Sys2Proof.Machine.execAccessWrite ch frame s
  | .accessEpoch ch frame => Sys2Proof.Machine.execAccessEpoch ch frame s
  | .accessResponse => Sys2Proof.Machine.execAccessResponse s
  | .accessRelayTimeout tag => Sys2Proof.Machine.execAccessRelayTimeout tag s
  | .keyWrite agent slot key => Sys2Proof.Machine.execKeyWrite agent slot key s
  | .keyErase agent slot => Sys2Proof.Machine.execKeyErase agent slot s
  | .tableUpdateApply => Sys2Proof.Machine.execTableUpdateApply s
  | .surveyStep finding => Sys2Proof.Machine.execSurveyStep finding s
  | .surveyRepair => Sys2Proof.Machine.execSurveyRepair s
  | .editionCommit agent => Sys2Proof.Machine.execEditionCommit agent s
  | .editionDiscard agent => Sys2Proof.Machine.execEditionDiscard agent s
  | .editionFlip => Sys2Proof.Machine.execEditionFlip s
  | .editionDrained => Sys2Proof.Machine.execEditionDrained s
  | .flowSweepVisit => Sys2Proof.Machine.execFlowSweepVisit s
  | .policerWrite agent entry octets => Sys2Proof.Machine.execPolicerWrite agent entry octets s
  | .foldFlush agent => Sys2Proof.Machine.execFoldFlush agent s
  | .foldDataRx ch frame eccBad crossing => Sys2Proof.Machine.execFoldDataRx ch frame eccBad crossing s
  | .templateInstallRx ch frame => Sys2Proof.Machine.execTemplateInstallRx ch frame s
  | .foldNakRx ch frame => Sys2Proof.Machine.execFoldNakRx ch frame s
  | .templateInstallTx ch => Sys2Proof.Machine.execTemplateInstallTx ch s
  | .foldNakTx ch => Sys2Proof.Machine.execFoldNakTx ch s
  | .foldHoldExpire ch fseq => Sys2Proof.Machine.execFoldHoldExpire ch fseq s
  | .queueWrite agent queue octets => Sys2Proof.Machine.execQueueWrite agent queue octets s
  | .gateTransition ep => Sys2Proof.Machine.execGateTransition ep s
  | .gateCtReached ep => Sys2Proof.Machine.execGateCtReached ep s
  | .tailDoorbell kind ring value width64 => Sys2Proof.Machine.execTailDoorbell kind ring value width64 s
  | .scanKnock kind ring width64 => Sys2Proof.Machine.execScanKnock kind ring width64 s
  | .ringScanDone kind ring ready => Sys2Proof.Machine.execRingScanDone kind ring ready s
  | .cqHeadDoorbell ring value width64 => Sys2Proof.Machine.execCqHeadDoorbell ring value width64 s
  | .doorbellAbsent offset => Sys2Proof.Machine.execDoorbellAbsent offset s
  | .descReadDone kind ring entry => Sys2Proof.Machine.execDescReadDone kind ring entry s
  | .mpReadResponse tag data last err => Sys2Proof.Machine.execMpReadResponse tag data last err s
  | .mpWriteResponse tag err => Sys2Proof.Machine.execMpWriteResponse tag err s
  | .mpOperationTimeout write tag => Sys2Proof.Machine.execMpOperationTimeout write tag s
  | .bqBufferTake bq ecc => Sys2Proof.Machine.execBqBufferTake bq ecc s
  | .cqStallDetect cq => Sys2Proof.Machine.execCqStallDetect cq s
  | .cqIrqTimer cq => Sys2Proof.Machine.execCqIrqTimer cq s
  | .ringStart agent unit => Sys2Proof.Machine.execRingStart agent unit s
  | .ringStop agent unit => Sys2Proof.Machine.execRingStop agent unit s
  | .ringReset agent unit => Sys2Proof.Machine.execRingReset agent unit s
  | .ringConfigWrite agent unit index data => Sys2Proof.Machine.execRingConfigWrite agent unit index data s
  | .alStateChange al value => Sys2Proof.Machine.execAlStateChange al value s
  | .alHoldExpire al => Sys2Proof.Machine.execAlHoldExpire al s
  | .alTxStall al => Sys2Proof.Machine.execAlTxStall al s
  | .coexReqRise q => Sys2Proof.Machine.execCoexReqRise q s
  | .coexGrant q late => Sys2Proof.Machine.execCoexGrant q late s
  | .coexReqFall q => Sys2Proof.Machine.execCoexReqFall q s
  | .maxQuietExpire q => Sys2Proof.Machine.execMaxQuietExpire q s
  | .streamWrite agent entry octets => Sys2Proof.Machine.execStreamWrite agent entry octets s
  | .scanJobStore agent job octets => Sys2Proof.Machine.execScanJobStore agent job octets s
  | .scanJobGo agent job octets => Sys2Proof.Machine.execScanJobGo agent job octets s
  | .scanJobStart => Sys2Proof.Machine.execScanJobStart s
  | .scanJobDone job outcome => Sys2Proof.Machine.execScanJobDone job outcome s
  | .scanAbort agent job => Sys2Proof.Machine.execScanAbort agent job s
  | .timeNowRead agent => Sys2Proof.Machine.execTimeNowRead agent s
  | .incrementWrite agent data => Sys2Proof.Machine.execIncrementWrite agent data s
  | .trefLost => Sys2Proof.Machine.execTrefLost s
  | .trefRestored => Sys2Proof.Machine.execTrefRestored s
  | .stepSet agent => Sys2Proof.Machine.execStepSet agent s
  | .adjust agent d => Sys2Proof.Machine.execAdjust agent d s
  | .timeStepApply => Sys2Proof.Machine.execTimeStepApply s
  | .ppsInEdge => Sys2Proof.Machine.execPpsInEdge s
  | .ppsInMissing => Sys2Proof.Machine.execPpsInMissing s
  | .ppsOutRise => Sys2Proof.Machine.execPpsOutRise s
  | .ppsOutFall => Sys2Proof.Machine.execPpsOutFall s
  | .helloTimer => Sys2Proof.Machine.execHelloTimer s
  | .helloRx ch frame => Sys2Proof.Machine.execHelloRx ch frame s
  | .deadTimerExpire lane => Sys2Proof.Machine.execDeadTimerExpire lane s
  | .lsaRx ch frame => Sys2Proof.Machine.execLsaRx ch frame s
  | .lsaRefresh => Sys2Proof.Machine.execLsaRefresh s
  | .lsaAgeOut origin => Sys2Proof.Machine.execLsaAgeOut origin s
  | .routeCompute => Sys2Proof.Machine.execRouteCompute s
  | .assignRx ch frame => Sys2Proof.Machine.execAssignRx ch frame s
  | .assignRefresh => Sys2Proof.Machine.execAssignRefresh s
  | .duplicateRenumber serial => Sys2Proof.Machine.execDuplicateRenumber serial s
  | .relayReqRx ch frame => Sys2Proof.Machine.execRelayReqRx ch frame s
  | .relayRspRx ch frame => Sys2Proof.Machine.execRelayRspRx ch frame s
  | .eventDelivery proc => Sys2Proof.Machine.execEventDelivery proc s
  | .eqHeadReturn proc word width64 => Sys2Proof.Machine.execEqHeadReturn proc word width64 s
  | .sourceComplete proc word width64 => Sys2Proof.Machine.execSourceComplete proc word width64 s
  | .maskWrite proc word width64 => Sys2Proof.Machine.execMaskWrite proc word width64 s
  | .thresholdWrite proc word width64 => Sys2Proof.Machine.execThresholdWrite proc word width64 s
  | .sourceWrite agent source octets => Sys2Proof.Machine.execSourceWrite agent source octets s
  | .testRaise agent cause => Sys2Proof.Machine.execTestRaise agent cause s
  | .eqConfigWrite agent eq index data => Sys2Proof.Machine.execEqConfigWrite agent eq index data s
  | .wakeInput input => Sys2Proof.Machine.execWakeInput input s
  | .fbFreeze agent => Sys2Proof.Machine.execFbFreeze agent s
  | .fbThaw agent => Sys2Proof.Machine.execFbThaw agent s
  | .freezeLimitExpire => Sys2Proof.Machine.execFreezeLimitExpire s
  | .pfailFall => Sys2Proof.Machine.execPfailFall s
  | .pfailRecover => Sys2Proof.Machine.execPfailRecover s
  | .nvmDiscovery found => Sys2Proof.Machine.execNvmDiscovery found s
  | .nvmOperationDone ok => Sys2Proof.Machine.execNvmOperationDone ok s
  | .nvmTimeout => Sys2Proof.Machine.execNvmTimeout s
  | .monumentMount => Sys2Proof.Machine.execMonumentMount s
  | .monumentProgram ok => Sys2Proof.Machine.execMonumentProgram ok s
  | .tokenAccrue => Sys2Proof.Machine.execTokenAccrue s
  | .budgetHourExpire => Sys2Proof.Machine.execBudgetHourExpire s
  | .monumentRestart agent => Sys2Proof.Machine.execMonumentRestart agent s
  | .monumentFormat agent sectors => Sys2Proof.Machine.execMonumentFormat agent sectors s
  | .atlasSet agent base limit => Sys2Proof.Machine.execAtlasSet agent base limit s
  | .atlasErase agent => Sys2Proof.Machine.execAtlasErase agent s
  | .atlasImageWrite agent octets => Sys2Proof.Machine.execAtlasImageWrite agent octets s
  | .atlasApply => Sys2Proof.Machine.execAtlasApply s
  | .powerRequest agent target inFrame => Sys2Proof.Machine.execPowerRequest agent target inFrame s
  | .modeApply => Sys2Proof.Machine.execModeApply s
  | .handshakeAnswer => Sys2Proof.Machine.execHandshakeAnswer s
  | .frameWaitExpire => Sys2Proof.Machine.execFrameWaitExpire s
  | .idleEnter => Sys2Proof.Machine.execIdleEnter s
  | .idleExit => Sys2Proof.Machine.execIdleExit s
  | .returnReady step => Sys2Proof.Machine.execReturnReady step s
  | .returnStepTimeout => Sys2Proof.Machine.execReturnStepTimeout s
  | .returnEnd => Sys2Proof.Machine.execReturnEnd s
  | .primroseFrame ch frame => Sys2Proof.Machine.execPrimroseFrame ch frame s
  | .snowdropOverride view => Sys2Proof.Machine.execSnowdropOverride view s
  | .statsClear agent unit => Sys2Proof.Machine.execStatsClear agent unit s
  | .statsClearApply => Sys2Proof.Machine.execStatsClearApply s
  | .statsSnapshot agent unit slot => Sys2Proof.Machine.execStatsSnapshot agent unit slot s
  | .snapshotLatch => Sys2Proof.Machine.execSnapshotLatch s
  | .snapshotDone slot => Sys2Proof.Machine.execSnapshotDone slot s
  | .rxPeakRead agent ch sub => Sys2Proof.Machine.execRxPeakRead agent ch sub s
  | .porstAssert => Sys2Proof.Machine.execPorstAssert s
  | .porstRelease serial => Sys2Proof.Machine.execPorstRelease serial s
  | .srstAssert => Sys2Proof.Machine.execSrstAssert s
  | .srstRelease => Sys2Proof.Machine.execSrstRelease s
  | .sdClkLost => Sys2Proof.Machine.execSdClkLost s
  | .sdClkRestored => Sys2Proof.Machine.execSdClkRestored s
  | .pllLockLoss => Sys2Proof.Machine.execPllLockLoss s
  | .ledActivityTimer lane => Sys2Proof.Machine.execLedActivityTimer lane s
  | .pllLock => Sys2Proof.Machine.execPllLock s
  | .hiBerEnd lane => Sys2Proof.Machine.execHiBerEnd lane s

end Sys2Proof.Machine
end

