-- ==== Sys2Proof/Machine/Pcs.lean ====
section
/-! DEFINITION. The bits of a lane on the line side of its code (R78, R84, Table 3.3): polarity, the replication of code groups, and what the
loopbacks put on LN_TXD. The encoding itself is that of the clauses of IEEE 802.3 that Table 3.2 names, which are no part of the spec; the rows of the
table carry decoded octets (log entry 13). -/
namespace Sys2Proof.Machine

/-- How often each code group is sent (R84): 10 times under `replication` 0x01, 100 under 0x02. -/
def runLength (replication : Nat) : Nat := match replication with | 1 => 10 | 2 => 100 | _ => 1

/-- Code groups as they are sent, each `n` times in succession (R84). -/
def sendRuns {α : Type} (n : Nat) (groups : List α) : List α := groups.flatMap (List.replicate n)

/-- One code group is taken from each run of `n`, with whether a repetition in it differs from the first (R84). -/
def takeRuns {α : Type} [DecidableEq α] (n : Nat) (line : List α) : List (α × Bool) :=
  (List.range (line.length / n)).filterMap (fun i =>
    match (line.drop (i * n)).take n with
    | g :: rest => some (g, rest.any (· ≠ g))
    | [] => none)

/-- The words of a lane under `polarity` (Table 3.3): bit 0 inverts the transmit bits, bit 1 the receive bits. -/
def invertWord (on : Bool) (w : BitVec 64) : BitVec 64 := if on then ~~~w else w
def State.sentWord (s : State) (lane : Nat) (w : BitVec 64) : BitVec 64 := invertWord ((s.rd (lnUnit lane) 0x1006 0).testBit 0) w
def State.takenWord (s : State) (lane : Nat) (w : BitVec 64) : BitVec 64 := invertWord ((s.rd (lnUnit lane) 0x1006 0).testBit 1) w

/-- The code groups that leave on LN_TXD for those `own` of the lane's channels and those `rx` received (R84, Table 3.3): near-end loopback sends idle,
far-end what has been received. -/
def State.lineGroups {α : Type} (s : State) (lane : Nat) (idle own rx : List α) : List α :=
  match s.rd (lnUnit lane) 0x4000 0 with
  | 1 => idle
  | 2 => rx
  | _ => sendRuns (runLength (s.rd (lnUnit lane) 0x1004 0)) own

/-- The code groups that reach the lane's receiver for those `own` it sends and those `rx` on LN_RXD: in near-end loopback its own (Table 3.3). -/
def State.receiverGroups {α : Type} (s : State) (lane : Nat) (own rx : List α) : List α :=
  if s.rd (lnUnit lane) 0x4000 0 = 1 then sendRuns (runLength (s.rd (lnUnit lane) 0x1004 0)) own else rx

end Sys2Proof.Machine
end

