-- ==== Sys2Proof/Machine/Window.lean ====
section
/-! DEFINITION. The host window as it reads (R62, R68, R226, R325, R391, R407, R408): what an SP read returns and does. The opcode table has no
row for a plain read of the window, so no command brings one (log entry 78); a narrow access of a doorbell slot or processor block comes with
the row of a write. -/
namespace Sys2Proof.Machine

/-- The identity words (Table 19.4), word 0 to 2. -/
def State.identityWord (s : State) (n : Nat) : Nat :=
  match n with
  | 0 => 0x4E4F5631 * 2 ^ 32 + 0x0E40 * 2 ^ 16 + s.build.channels * 2 ^ 8
  | 1 => s.serial
  | 2 => 0x0102
  | _ => 0

/-- A write to the identity words is ignored (R408). -/
def State.identityWrite (s : State) (_offset _size _value : Nat) : State := s

/-- A word of a mailbox (Tables 2.8, 2.9): GO and the RSVD bits read 0. -/
def State.mailboxWord (s : State) (p n : Nat) : Nat :=
  let m := s.mailbox p
  match n with
  | 0 => m.words.cmd
  | 1 => m.words.pathA
  | 2 => m.words.pathB
  | 3 => m.words.dataA
  | 4 => m.words.dataB
  | 5 => m.attempt * 2 ^ 32 + (if m.done then m.abort else 0) * 2 ^ 16 + m.done.toNat * 2 + m.busy.toNat
  | _ => 0

/-- A doorbell slot of a ring of the build (Tables 9.2, 9.3): the device's position above, the host's last accepted one below. -/
def State.doorbellWord (s : State) (page ring : Nat) : Nat :=
  match page with
  | 0 => s.ringH (tqUnit ring) * 2 ^ 32 + s.ringT (tqUnit ring)
  | 1 => s.ringH (bqUnit ring) * 2 ^ 32 + s.ringT (bqUnit ring)
  | _ => s.ringT (cqUnit ring) * 2 ^ 32 + s.ringH (cqUnit ring)

/-- The unit of a doorbell page's ring. -/
def doorbellUnit (page ring : Nat) : Nat := match page with | 0 => tqUnit ring | 1 => bqUnit ring | _ => cqUnit ring

/-- A word of a processor block (Table 14.7). -/
def State.blockWord (s : State) (p n : Nat) : Nat :=
  match n with
  | 0 =>
    s.rd (eqUnit p) 0x5001 0 * 2 ^ 32 + min 15 (s.stackDepth p) * 2 ^ 12
      + (match s.runningItem p with | some i => i.src | none => 0x1FF)
  | _ =>
    let src := s.regN (.maskSrc p)
    s.regN (.maskVal p) * 2 ^ 30 + (src < s.build.sources && s.srcMask src : Bool).toNat * 2 ^ 29 + src * 2 ^ 16 + s.thresholdOf p

/-- An offset is the slot of a doorbell that the build has (Tables 9.1, 19.3). -/
def State.doorbellAt (s : State) (offset : Nat) : Bool := 0x2000 ≤ offset && offset < 0x2600 && offset % 0x200 / 8 < s.build.rings

/-- A read of `size` octets at an offset of the SP window (Table 19.3): what it returns and the state behind it. An access that is not aligned to
its size, or at an offset that the map does not define, reads 0 (R391), one of another width than a block of 64-bit words takes is handled as its row
says (R68, R226, R325). Offsets have 14 bits (R407). A read of the flash through the aperture is not answered at once: it has
been queued for the port (R352). Without the main domain SP is not served. -/
def State.spRead (s0 : State) (address size : Nat) : Nat × State :=
  let offset := address % 0x4000
  if !s0.mainUp then (0, s0)
  else
    let s := s0.wake
    let wide : Bool := size = 8
    if !wide && 0x1000 ≤ offset && offset < 0x2000 then (0, s.dpHold (windowAgent ((offset - 0x1000) / 0x200)) .align)
    else if !wide && 0x3000 ≤ offset && offset < 0x3080 then (0, s.strayCount)
    else if !wide && s.doorbellAt offset then (0, s.badDoorbell (doorbellUnit ((offset - 0x2000) / 0x200) (offset % 0x200 / 8)))
    else if offset % size ≠ 0 then (0, s)
    else if offset < 0x18 then (field (s.identityWord (offset / 8)) (8 * (offset % 8)) (8 * size), s)
    else if 0x100 ≤ offset ∧ offset < 0x300 then
      (if wide then s.mailboxWord ((offset - 0x100) / 0x40) (offset % 0x40 / 8) else 0, s)
    else if 0x1000 ≤ offset ∧ offset < 0x2000 then
      match s.dpRead (windowAgent ((offset - 0x1000) / 0x200)) 8 with
      | (some .ok, l, s1) => (ofLsb l, s1)
      | (_, _, s1) => (0, s1)
    else if s.doorbellAt offset then (s.doorbellWord ((offset - 0x2000) / 0x200) (offset % 0x200 / 8), s)
    else if 0x3000 ≤ offset ∧ offset < 0x3080 then (s.blockWord ((offset - 0x3000) / 0x10) (offset % 0x10 / 8), s)
    else (0, s)

/-- A word of a mailbox is written (Tables 2.8, 2.9): PATH and DATA words are held while no request runs, MB_CMD starts one with the words that stand
before it (R63). -/
def State.mailboxWrite (s : State) (p n value : Nat) : State :=
  let m := s.mailbox p
  let w := m.words
  if n = 0 then s.mbCommand p { w with cmd := value }
  else if m.busy then s
  else match n with
    | 1 => s.setMailbox p { m with words := heldWords { w with pathA := value } }
    | 2 => s.setMailbox p { m with words := heldWords { w with pathB := value } }
    | 3 => s.setMailbox p { m with words := heldWords { w with dataA := value } }
    | 4 => s.setMailbox p { m with words := heldWords { w with dataB := value } }
    | _ => s

/-- A write of `size` octets at an offset of the SP window (Table 19.3), by the rule of its row: an access that is not aligned to its size writes
nothing, and an offset that the map does not define, the reserved ones and the identity words ignore it (R391, R407, R408). The ring, the window and
the processor's block follow from the offset alone. -/
def State.spWrite (s : State) (address size value : Nat) : Host.Outcome State Fault Refusal :=
  let offset := address % 0x4000
  let wide : Bool := size = 8
  let slot := offset % 0x200 / 8
  if !s.mainUp ∨ (wide && offset % 8 ≠ 0) then .next s
  else if offset < 0x18 then .next (s.wake.identityWrite offset size value)
  else if 0x100 ≤ offset ∧ offset < 0x300 then
    (if wide then gathered s fun s => .next (s.wake.mailboxWrite ((offset - 0x100) / 0x40) (offset % 0x40 / 8) value) else .next s.wake)
  else if 0x1000 ≤ offset ∧ offset < 0x2000 then execDpApertureWrite ((offset - 0x1000) / 0x200) (8 * size) value s
  else if 0x2000 ≤ offset ∧ offset < 0x2600 ∧ s.build.rings ≤ slot then execDoorbellAbsent (offset - offset % 8) s
  else if 0x2000 ≤ offset ∧ offset < 0x2200 then execTailDoorbell .tq slot value wide s
  else if 0x2200 ≤ offset ∧ offset < 0x2400 then execTailDoorbell .bq slot value wide s
  else if 0x2400 ≤ offset ∧ offset < 0x2600 then execCqHeadDoorbell slot value wide s
  else if 0x3000 ≤ offset ∧ offset < 0x3080 then
    let p := (offset - 0x3000) / 0x10
    .next (if offset % 0x10 / 8 = 0 then s.wake.completeWord p value wide else s.wake.controlWord p value wide)
  else .next s.wake

/-- The accesses that SP has taken and not answered: the words held off for the arbiter (R325), the reads that wait for the flash (R352). Every other
is answered with its effect, in the order of the requests (R391). -/
def State.spOutstanding (s : State) : Nat :=
  s.blockWait.length + (s.nvmQ.filter (fun o => match o with | .read a _ => a.kind = .host | _ => false)).length

/-- SP_REQ_READY (R391): at most 4 requests are outstanding, and none is accepted while the arbiter has no room. -/
def State.spReady (s : State) : Bool := s.mainUp && s.spOutstanding < 4 && s.blockWait = []

end Sys2Proof.Machine
end

