-- ==== Sys2Proof/Machine/Pins.lean ====
section
/-! DEFINITION. The output pins as the state drives them (R386 to R391, R397, R399). No command brings the level of an output; it follows the state.
An output whose domain has no power is undriven, `none`. The transmit octets of a lane stand in `State.txOut`; the waveform of the NVM pins and the
handshakes of MP, SP and the air links lie below the rows (log entry 80). -/
namespace Sys2Proof.Machine

/-- The level of a function of Table 18.7 in a mode in which it is powered. The delays of the mirrors lie within a tick (log entry 67). -/
def State.mfLevel (s : State) (func inst : Nat) : Bool :=
  let main : Bool := s.mode ≤ 2
  match func with
  | 0 => s.mode ≤ 3 && s.regN .ppsOut = 1
  | 1 => main && s.gateOpen (inst / 8) (inst % 8) s.time
  | 2 => s.mode = 3 && s.regN .primroseHigh = 1
  | 3 => s.regN (.coexGnt inst) = 1
  | 4 => main && s.laneUp (inst % 16) && !(inst.testBit 4 && s.regN (.ledActive (inst % 16)) = 1)
  | _ => false

/-- The enabled slot that names a pin (R397); a commit lets at most one name it (R398). -/
def State.mfSlotOf (s : State) (pin : Nat) : Option Nat :=
  ((List.range 16).map (s.rd 0x000 0x1010)).find? (fun v => v.testBit 31 && field v 28 3 = pin)

/-- MF_OE and MF_O of a pin (R397, R399): both 0 where no enabled slot names it, undriven (`none`) in OFF (R386). -/
def State.mfPin (s : State) (pin : Nat) : Option (Bool × Bool) :=
  if !s.snowdropUp then none
  else match s.mfSlotOf pin with
    | some v => some (true, s.mfLevel (field v 24 4) (field v 0 16))
    | none => some (false, false)

/-- An output of the main domain (Table 18.1). -/
def State.mainPin {α : Type} (s : State) (v : α) : Option α := if s.mainUp then some v else none

/-- An output of Snowdrop's domain (Table 18.1). -/
def State.snowdropPin {α : Type} (s : State) (v : α) : Option α := if s.snowdropUp then some v else none

/-- IRQ_NE of a processor and COEX_GNT of a requester (R258, R321): Snowdrop's outputs. -/
def State.irqPin (s : State) (p : Nat) : Option Bool := s.snowdropPin (s.regN (.irqNe p) = 1 : Bool)
def State.grantPin (s : State) (i : Nat) : Option Bool := s.snowdropPin (s.regN (.coexGnt i) = 1 : Bool)

/-- PPS_OUT keeps its power in SLEEP (R291). -/
def State.ppsPin (s : State) : Option Bool := if s.timeUp then some (s.regN .ppsOut = 1 : Bool) else none

/-- What leaves on a lane's transmit pins for a channel, as octets of its code (R84, Table 3.3): `rx` is what has been received on the lane, which
far-end loopback sends again. -/
def State.lanePin (s : State) (lane ch : Nat) (rx : List Octet) : Option (List Octet) := s.mainPin (s.lineGroups lane [] (s.txOut.get ch []) rx)

/-- PWR_REG_REQ, OSC_REQ, MEM_PWR_REQ and LOGIC_ISO_N, bits 3:0, have power in every mode; they are 0 while PORST_N is low (R388). -/
def State.requestPin (s : State) : Nat := if s.regN .porstLow = 1 then 0 else s.regN .requests

/-- NV_CS_N (R338, R349): low while an operation is in progress, held high in the freeze of a power fail. -/
def State.nvSelectPin (s : State) : Option Bool := s.mainPin (s.pfailFrozen || (s.regN .nvmBegun = 0 && s.regN .progCount = 0) : Bool)

/-- The clock periods of NV_SCK in CCLK, and the command that stands on NV_IO (R338). -/
def State.nvClockPin (s : State) : Option Nat := s.mainPin s.nvmDivisor
def State.nvCommandPin (s : State) : Option Nat := s.mainPin (s.regN .nvmOpcode)

/-- A request on MP (Table 18.2): MP_REQ_ADDR with bits 5:0 zero, MP_REQ_BEATS, the beats less one, MP_REQ_WRITE and MP_REQ_TAG. -/
structure MpRequest where
  addr  : Nat
  beats : Nat
  write : Bool
  tag   : Nat
  deriving DecidableEq, Repr

/-- The 64-octet beats that an operation touches. -/
def mpBeats (o : MpOp) : Nat := max 1 (ceilDiv (o.addr % 64 + o.octets.length) 64)

/-- The request of an operation that is outstanding (R246, R390). -/
def mpRequest (o : MpOp) : MpRequest := ⟨o.addr / 64 * 64, mpBeats o - 1, o.write, o.tag⟩

/-- A beat of write data (Table 18.2): MP_WD_DATA, MP_WD_STRB, a bit for each octet, and MP_WD_LAST. -/
structure MpWriteBeat where
  data   : List Octet
  strobe : List Bool
  last   : Bool
  deriving DecidableEq, Repr

/-- The beats of a write, in ascending order: BEATS + 1 of them, strobed where the write has an octet, LAST on the final one (R390). -/
def mpWriteBeats (o : MpOp) : List MpWriteBeat :=
  let at0 := o.addr / 64 * 64
  let inside (a : Nat) : Bool := o.addr ≤ a && a < o.addr + o.octets.length
  (List.range (mpBeats o)).map (fun b =>
    ⟨(List.range 64).map (fun i => if inside (at0 + 64 * b + i) then o.octets.getD (at0 + 64 * b + i - o.addr) 0 else 0),
     (List.range 64).map (fun i => inside (at0 + 64 * b + i)), b + 1 = mpBeats o⟩)

/-- The requests that stand on MP, oldest first. -/
def State.mpPins (s : State) : Option (List MpRequest) := s.mainPin ((s.mpOps.filter (fun o => o.tag ≠ mpWaiting)).map mpRequest)

/-- SP_REQ_READY (R391). -/
def State.spReadyPin (s : State) : Option Bool := s.mainPin s.spReady

/-- The test port with TEST_MODE tied low (R388): SCAN_OUT, BIST_DONE and BIST_FAIL are 0, and no command brings its inputs, which are ignored. -/
def State.scanOutPin (s : State) : Option (BitVec 32) := s.mainPin 0
def State.bistDonePin (s : State) : Option Bool := s.mainPin false
def State.bistFailPin (s : State) : Option Bool := s.mainPin false

end Sys2Proof.Machine
end

