-- ==== Sys2Proof/Safety.lean ====
section
/-! DEFINITION. What the claims call a good state: the block's stores are in their canonical form; and what they call unchanged. -/
namespace Sys2Proof.Machine

/-- A map lists no key twice, and no key at the value `d` that an unlisted key reads as. -/
def Map.tidy {κ ν : Type} [DecidableEq κ] [DecidableEq ν] (m : Map κ ν) (d : κ → ν) : Bool :=
  decide (m.map Prod.fst).Nodup && m.all (fun p => decide (p.2 ≠ d p.1))

/-- The object file lists no object twice and none at its reset value. -/
def State.objTidy (s : State) : Bool := s.obj.tidy (fun a => defaultOf s.build a.unit a.idx a.sub)

/-- The table entries: as the object file. -/
def State.tabTidy (s : State) : Bool := s.tab.tidy (fun a => tabDefault s.build a.unit a.idx a.entry)

/-- The registers without an object address: as the object file, with 0 for every one. -/
def State.hidTidy (s : State) : Bool := s.hid.tidy (fun _ => 0)

/-- The canonical form of the block's stores: object file, table entries, registers without an address, flash (addresses strictly rising, no
erased octet listed). -/
def State.canon (s : State) : Bool := s.objTidy && s.tabTidy && s.hidTidy && Memory.wf s.flash

/-- Registers that recording an event or raising a cause may change. -/
def Hid.ofEvents : Hid → Bool
  | .raiseTick _ => true
  | .fixedHeld => true
  | .gapFirst => true
  | .gapCount => true
  | .sdHeld => true
  | .sdFirst => true
  | .sdFolded => true
  | .sdEvent => true
  | .hourDrops => true
  | .hourSeverity => true
  | .progCount => true
  | _ => false

/-- Objects that recording an event may change: the indices and counters of the field book, and of the Monument the next sequence, the tokens,
the pending records and the two counters of dropped ones. -/
def eventObj (u i : Nat) : Bool :=
  (u = 0x004 && [0x5001, 0x5002, 0x5003, 0x5004, 0x5005, 0x5006, 0x8000, 0x8001, 0x8002, 0x8003].contains i)
    || (u = 0x005 && [0x5008, 0x5009, 0x500A, 0x8001, 0x8002].contains i)

/-- `t` is `s` but for what recording events (R328 to R334, R346, R347) and raising causes (R315, R318, R362) may change: objects of the field
book and of the Monument, the rings of the book, the sources, their latches and first raises, the Monument's page buffers and its drop hour,
the step from IDLE to RUN. -/
structure State.ButEvents (s t : State) : Prop where
  fields : t = { s with
    obj := t.obj, tab := t.tab, hid := t.hid, timers := t.timers, latches := t.latches, lastFixed := t.lastFixed, lastSd := t.lastSd
    lastVar := t.lastVar, evHold := t.evHold, monQ := t.monQ, free := t.free }
  objs   : ∀ u i k, eventObj u i = false → ¬(u = 0x001 ∧ i = 0x5000) → t.rd u i k = s.rd u i k
  ents   : ∀ u i e, u ≠ 0x002 → u ≠ 0x004 → t.ent u i e = s.ent u i e
  regs   : ∀ h, h.ofEvents = false → t.reg h = s.reg h
  timer  : ∀ x, x ≠ .budgetHour → t.timer x = s.timer x

/-- What an access of an agent first does: host software wakes the device from IDLE (R362). -/
def State.awake (s : State) (a : Agent) : State := if a.kind = .host then s.wake else s

/-- A write or command of agent `a` to object `i`, sub-index `k` of unit `u` of this device, named by `path`, with the octets `d`, passes the
checks that come before its effect (Table 2.4, R46, R57, R58, R355). -/
def State.grants (s : State) (a : Agent) (path : List Nat) (u i k : Nat) (d : List Octet) : Bool :=
  s.mainUp && !s.atlasBusy && (s.resolvePath path = Place.here u : Bool)
    && (match s.lookup a u i k, unitKind? s.build u with
        | .ok r, some kd => r.access ≠ .ro && r.type ≠ .table && s.leaseGood a kd u i && d.length = r.type.writeSize && valueGood s.build r (ofMsb d)
        | _, _ => false)

/-- A write of the whole entry `e` of table `i` of unit `u` by agent `a` passes the checks that come before it (Table 2.4, R58, R66, R67). -/
def State.grantsEntry (s : State) (a : Agent) (u i e : Nat) (octets : List Octet) : Bool :=
  s.mainUp && !s.atlasBusy && s.leaseAllows a u && dpLengthGood octets.length
    && octets.length = (s.tableSize (u, i)).1 && (e + 1) * octets.length ≤ (s.tableSize (u, i)).2
    && (match s.lookup a u i 0 with
        | .ok r => r.type = .table && r.access ≠ .ro
        | .error _ => false)

/-- An object-access frame has the same outcome by whichever of the three access commands it is brought. -/
def State.accessLeads (s : State) (ch : Nat) (frame : List Octet) (t : State) : Prop :=
  exec (.accessRead ch frame) s = .next t ∧ exec (.accessWrite ch frame) s = .next t ∧ exec (.accessEpoch ch frame) s = .next t

/-- Legend entry `i` is a candidate that matches a key (R128, R129, Table 5.6): a member of the current edition (bit 641), not the tail of a pair,
its shadow not lost (R139), every key bit under a mask bit equal to the value bit; the head of a pair (bit 642) only a key of two words, whose second
its tail matches. -/
def State.legendHit (s : State) (k : Key) (i : Nat) : Prop :=
  let e := s.ent 0x006 0x6000 i
  let tail := s.ent 0x006 0x6000 (i + 1)
  e.testBit 641 = true ∧ ¬(i % 2 = 1 ∧ (s.ent 0x006 0x6000 (i - 1)).testBit 642 = true) ∧ i ∉ s.shadowBad
    ∧ (∀ b, b < 320 → e.testBit (320 + b) = true → k.word1.testBit b = e.testBit b)
    ∧ (e.testBit 642 = true → k.two = true ∧ ∀ b, b < 320 → tail.testBit (320 + b) = true → k.word2.testBit b = tail.testBit b)

/-- Contour entry `i` matches a key (R140, Table 5.9): a member of the current edition, readable (R149), both its fields in their ranges. -/
def State.contourHit (s : State) (k : Key) (i : Nat) : Prop :=
  let e := s.ent 0x007 0x6000 i
  e.testBit 1 = true ∧ (false, i) ∉ s.eccBad
    ∧ (∀ x, menuField k (field e 60 4) false = some x → field e 96 32 ≤ x ∧ x ≤ field e 64 32)
    ∧ (∀ x, menuField k (field e 56 4) true = some x → field e 176 16 ≤ x ∧ x ≤ field e 160 16)

/-- The PRIORITY of Contour entry `i`. -/
def State.contourPrio (s : State) (i : Nat) : Nat := field (s.ent 0x007 0x6000 i) 48 8

/-- A device in RUN or CONFIGURE with nothing to do, whose tick count is `n`. -/
def State.quietAt (mode n : Nat) : State := (State.reset.wr 0x001 0x5000 0 mode).wr 0x000 0x5001 0 n

end Sys2Proof.Machine
end

