-- ==== Sys2Proof/Certificates/Slice0/Obligations.lean ====
section
/-! DEFINITION. The statements for the provers. Each says in its docstring what it formalises. -/
open Sys2Proof Sys2Proof.Machine

/-- For every command c, queue rest q and state s: a step of s with c at the front of the queue q is exec of c on s with the queue q.
(95_what_each_step_holds.md: what each step holds) -/
def Obligations.FrontCommandRunsAsExec : Prop :=
  ∀ (c : Instr) (q : List Instr) (s : State), step { s with pending := c :: q } = exec c { s with pending := q }

/-- The model's choice (log entry 2): a step on an empty queue, with the main domain running and a slot below 255, answers a state whose slot is
one more, whose time counter has gained the gain of one slot modulo its wrap, whose elapsed count has gained the same without a wrap, in
which the timer of every suspended reassembly context that counts has gained one, a new increment may have come into force at a TREF_CLK
edge, and nothing else differs. The gain of a slot is 5 times the increment in force, in units of 2^-38 ns, while TREF_CLK is lost; while it
is present the slots of a whole tick gain 1,280 times the increment (the nominal ratio, log entry 79). At slot 255, and where the main
domain does not run, the step answers the same state. (00_scope.md: R11, 12_time.md: R280 to R282, 08_transmit.md: R210) -/
def Obligations.EmptyQueuePassesOneSlot : Prop :=
  (∀ s : State, s.pending = [] →
    (s.mainUp = true → s.slot < 255 → ∃ t, step s = .next t
      ∧ t = { s with
          slot := s.slot + 1, time := (s.time + s.gain 1) % timeWrap, elapsed := s.elapsed + s.gain 1, hid := t.hid,
          asm := s.asm.map (fun c => { c with wait := c.wait + (if s.fragCounts c then 1 else 0) }) }
      ∧ ∀ h, h ≠ .paceHeld → t.reg h = s.reg h)
    ∧ (s.mainUp = false ∨ 255 ≤ s.slot → step s = .next s))
  ∧ (∀ s : State, s.rd 0x003 0x5002 0 = 1 → s.gain 1 = 5 * s.pace)
  ∧ (∀ s : State, s.rd 0x003 0x5002 0 = 0 → s.slot = 0 → s.regN .paceHeld = 0 → s.gain 256 = 1280 * s.increment)

/-- State.reset is in mode CONFIGURE, steady, with the main domain running, slot and tick count 0, an empty queue, no frame, no copy, no lease,
nothing staged, no key, no listed flash octet, no outstanding memory operation, no held event, all lanes and channels down. The reset values
that the spec does not state are the model's choice (log entry 3) and take no part here. (18_integration.md: R401, 16_power.md: Table 16.1,
02_object_dictionary.md: Table 2.6, 03_lanes_and_channels.md: Tables 3.3, 3.6, 05_legend_and_contour.md: Table 5.9) -/
def Obligations.ResetLeavesConfigure : Prop :=
  State.reset.mode = 0 ∧ State.reset.phase = 0 ∧ State.reset.mainUp = true ∧ State.reset.slot = 0 ∧ State.reset.tick = 0
    ∧ State.reset.pending = [] ∧ State.reset.frames = [] ∧ State.reset.copies = [] ∧ State.reset.leases = [] ∧ State.reset.staged = []
    ∧ State.reset.keys = [] ∧ State.reset.flash = [] ∧ State.reset.mpOps = [] ∧ State.reset.evHold = none
    ∧ (∀ lane, lane < 16 → State.reset.rd (lnUnit lane) 0x5000 0 = 0) ∧ (∀ ch, ch < 64 → State.reset.chUp ch = false)
    ∧ State.reset.rd 0x006 0x1003 0 = 1 ∧ State.reset.rd 0x000 0x4001 0 = 30
    ∧ (∀ ch, ch < 64 → State.reset.rd (chUnit ch) 0x1001 0 = 1522)

/-- The invariant of CanonicalStoresStayCanonical holds of State.reset: the object file, the table entries and the registers without an address
list no key twice and none at its reset value, and the flash lists rising addresses and no erased octet. (02_object_dictionary.md: R46, R47,
15_field_book_and_monument.md: R339) -/
def Obligations.ResetStoresAreCanonical : Prop :=
  State.reset.canon = true

/-- An invariant of the model's stores, over all states and all 192 commands: if the object file, the table entries and the registers without an
address list no key twice and none at its reset value, and the flash lists strictly rising addresses and no erased octet, then the same
holds of the state a step answers. Equal contents are then equal data. (02_object_dictionary.md: R46, R47, 15_field_book_and_monument.md:
R339 to R341, 95_what_each_step_holds.md: what each step holds) -/
def Obligations.CanonicalStoresStayCanonical : Prop :=
  ∀ s t : State, s.canon = true → step s = .next t → t.canon = true

/-- For every command and state: where exec answers a next state, the queue of commands and the build configuration are as before (R3: a build
is fixed at synthesis), and the count of free values taken has not gone down. The counter is a field of the model (log entry 7), no register
of the spec. (00_scope.md: R3, 95_what_each_step_holds.md: what each step holds) -/
def Obligations.NoCommandTouchesQueueOrBuild : Prop :=
  ∀ (c : Instr) (s t : State), exec c s = .next t → t.pending = s.pending ∧ t.build = s.build ∧ s.free ≤ t.free

/-- For every command and state exec answers a next state. The spec gives the block no stop: every failure it describes is an abort code, a
counter, an alarm or a record; an event that cannot come about in a state leaves it as it is. (02_object_dictionary.md: R49, R76,
95_what_each_step_holds.md: what each step holds) -/
def Obligations.EveryCommandAnswersANextState : Prop :=
  ∀ (c : Instr) (s : State), ∃ t, exec c s = .next t

/-- SD_RISE on a lane of the device in DOWN whose clock is there: sd_level is 1, the lane is in ACQUIRE, sync_timeout runs (its value in ms
times 6,250 ticks), and nothing else differs but the record and the interrupt of the change. SD_FALL on a lane in ACQUIRE, AUTONEG or
CONFIRM without near-end loopback: sd_level is 0, the lane is in DOWN, its timers stand, hi-BER is over. SD_FALL on a lane that is DISABLED
or DOWN only clears sd_level. A lane in UP without near-end loopback: SD_FALL takes it to DOWN with sd_level 0 and its timers stopped,
SYNC_LOST to ACQUIRE with sync_timeout running. Either way link_down is one more modulo its width, no copy of its channels is in progress or
suspended, no frame is being reassembled on them, and no cell of them is left in the FIFO. On such a lane without a fabric neighbour,
SD_FALL ends a single frame in reception, where nothing is being reassembled, as a frame with a symbol error, counted in rx_symbol_err; and
a single copy in progress, where nothing is received, counted in tx_down_drop. (03_lanes_and_channels.md: R94, R98, Table 3.8, R99,
04_receive.md: R106) -/
def Obligations.SignalDetectMovesLane : Prop :=
  (∀ (lane : Nat) (s : State), s.laneThere lane = true → s.regN (.clockLost lane) = 0 → s.link lane = 1 →
    ∃ t, exec (.sdRise lane) s = .next t
      ∧ (((((s.wr (lnUnit lane) 0x5002 0 1).stopTimer (.upHold lane)).setReg (.syncHeld lane) 0).wr (lnUnit lane) 0x5000 0 2).startTimer
          (.syncTimeout lane)
          (s.rd (lnUnit lane) 0x1007 0 * 6250)).ButEvents t)
  ∧ (∀ (lane : Nat) (s : State), s.laneThere lane = true → s.rd (lnUnit lane) 0x4000 0 ≠ 1 → 2 ≤ s.link lane → s.link lane ≤ 4 →
    ∃ t, exec (.sdFall lane) s = .next t
      ∧ ((((((s.wr (lnUnit lane) 0x5002 0 0).stopTimer (.upHold lane)).stopTimer (.syncTimeout lane)).setReg (.hiBer lane) 0).setReg
          (.syncHeld lane) 0).wr (lnUnit lane) 0x5000 0 1).ButEvents t)
  ∧ (∀ (lane : Nat) (s : State), s.laneThere lane = true → s.link lane ≤ 1 →
    exec (.sdFall lane) s = .next (s.wr (lnUnit lane) 0x5002 0 0))
  ∧ (∀ (lane : Nat) (s : State), s.laneThere lane = true → s.rd (lnUnit lane) 0x4000 0 ≠ 1 → s.link lane = 5 →
    (∃ t, exec (.sdFall lane) s = .next t ∧ t.link lane = 1 ∧ t.rd (lnUnit lane) 0x5002 0 = 0
      ∧ t.timer (.upHold lane) = none ∧ t.timer (.syncTimeout lane) = none
      ∧ t.rd (lnUnit lane) 0x8000 0 = (s.rd (lnUnit lane) 0x8000 0 + 1) % 2 ^ counterBits (lnUnit lane) 0x8000
      ∧ (∀ c ∈ t.copies, c.ep ∈ s.laneChannels lane → c.state ≠ .sending ∧ c.state ≠ .suspended)
      ∧ (∀ x ∈ t.asm, x.ch ∉ s.laneChannels lane) ∧ ∀ x ∈ t.fifo, laneOf x.ch ≠ lane)
    ∧ (∃ t, exec (.syncLost lane false) s = .next t ∧ t.link lane = 2 ∧ t.timer (.upHold lane) = none
      ∧ t.timer (.syncTimeout lane) = some (s.rd (lnUnit lane) 0x1007 0 * 6250)
      ∧ t.rd (lnUnit lane) 0x8000 0 = (s.rd (lnUnit lane) 0x8000 0 + 1) % 2 ^ counterBits (lnUnit lane) 0x8000
      ∧ (∀ c ∈ t.copies, c.ep ∈ s.laneChannels lane → c.state ≠ .sending ∧ c.state ≠ .suspended)
      ∧ (∀ x ∈ t.asm, x.ch ∉ s.laneChannels lane) ∧ ∀ x ∈ t.fifo, laneOf x.ch ≠ lane))
  ∧ (∀ (lane ch : Nat) (s : State), s.laneThere lane = true → s.rd (lnUnit lane) 0x4000 0 ≠ 1 → s.link lane = 5 → s.nbState lane = 0 →
      ch ∈ s.laneChannels lane → s.asm = [] →
    (∀ id f, s.rxNow = [(ch, id)] → s.frame? id = some f → f.ing = ch →
      ∃ t, exec (.sdFall lane) s = .next t ∧ t.frame? id = none ∧ t.rd (chUnit ch) 0x8012 0 = (s.rd (chUnit ch) 0x8012 0 + 1) % 2 ^ 64)
    ∧ (∀ c, s.rxNow = [] → s.copies = [c] → c.ep = ch → c.state = .sending →
      ∃ t, exec (.sdFall lane) s = .next t ∧ t.copies = [] ∧ t.rd (chUnit ch) 0x8000 0 = (s.rd (chUnit ch) 0x8000 0 + 1) % 2 ^ 64))

/-- SYNC_ACQUIRED in ACQUIRE without hi-BER: with an_enable 1 the lane is in AUTONEG, advertises its base page (places presumed, log entry 5)
and sync_timeout starts; with an_enable 0 and up_hold not 0 it is in CONFIRM, sync_timeout stops, up_hold runs. AN_COMPLETE in AUTONEG:
an_partner is the page; for a full-duplex page (bit 5: presumed, log entry 5) with up_hold not 0 the lane is in CONFIRM; for another alarm
18 is latched, the page is advertised again, sync_timeout starts again and the lane stays. SYNC_LOST in AUTONEG or CONFIRM without hi-BER:
the lane is in ACQUIRE and sync_timeout runs; in ACQUIRE, with the hi-BER condition entered on a 64b/66b lane, hi_ber is counted.
SYNC_ACQUIRED under hi-BER is held for HI_BER_END, which takes the lane on (log entry 37). (03_lanes_and_channels.md: R83, R95, R96, R98,
Table 3.8) -/
def Obligations.SyncAndAutonegMoveLane : Prop :=
  (∀ (lane : Nat) (s : State), s.laneThere lane = true → s.link lane = 2 → s.regN (.hiBer lane) = 0 → s.rd (lnUnit lane) 0x1002 0 = 1 →
    ∃ t, exec (.syncAcquired lane) s = .next t
      ∧ (((s.wr (lnUnit lane) 0x5000 0 3).setReg (.anPage lane) (s.basePage lane)).startTimer (.syncTimeout lane)
          (s.rd (lnUnit lane) 0x1007 0 * 6250)).ButEvents t)
  ∧ (∀ (lane : Nat) (s : State), s.laneThere lane = true → s.link lane = 2 → s.regN (.hiBer lane) = 0 →
      s.rd (lnUnit lane) 0x1002 0 ≠ 1 → s.rd (lnUnit lane) 0x1008 0 ≠ 0 →
    ∃ t, exec (.syncAcquired lane) s = .next t
      ∧ (((s.stopTimer (.syncTimeout lane)).wr (lnUnit lane) 0x5000 0 4).startTimer (.upHold lane)
          (s.rd (lnUnit lane) 0x1008 0 * 6250)).ButEvents t)
  ∧ (∀ (lane page : Nat) (s : State), s.laneThere lane = true → s.link lane = 3 → page.testBit 5 = true →
      s.rd (lnUnit lane) 0x1008 0 ≠ 0 →
    ∃ t, exec (.anComplete lane page) s = .next t
      ∧ ((((s.wr (lnUnit lane) 0x5001 0 (page % 65536)).stopTimer (.syncTimeout lane)).wr (lnUnit lane) 0x5000 0 4).startTimer (.upHold lane)
          (s.rd (lnUnit lane) 0x1008 0 * 6250)).ButEvents t)
  ∧ (∀ (lane page : Nat) (s : State), s.laneThere lane = true → s.link lane = 3 → page.testBit 5 = false →
    exec (.anComplete lane page) s = .next ((((s.wr (lnUnit lane) 0x5001 0 (page % 65536)).latch (lnUnit lane) 18).setReg (.anPage lane)
      (s.basePage lane)).startTimer (.syncTimeout lane) (s.rd (lnUnit lane) 0x1007 0 * 6250)))
  ∧ (∀ (lane : Nat) (s : State), s.laneThere lane = true → s.link lane = 3 ∨ s.link lane = 4 →
    ∃ t, exec (.syncLost lane false) s = .next t
      ∧ ((((s.stopTimer (.upHold lane)).setReg (.syncHeld lane) 0).wr (lnUnit lane) 0x5000 0 2).startTimer (.syncTimeout lane)
          (s.rd (lnUnit lane) 0x1007 0 * 6250)).ButEvents t)
  ∧ (∀ (lane : Nat) (s : State), s.laneThere lane = true → s.link lane = 2 → 3 ≤ s.pcsMode lane → s.regN (.hiBer lane) = 0 →
    exec (.syncLost lane true) s = .next ((s.setReg (.hiBer lane) 1).bump (lnUnit lane) 0x8005 0 1))
  ∧ (∀ (lane : Nat) (s : State), s.laneThere lane = true → s.link lane = 2 → s.regN (.hiBer lane) ≠ 0 →
    exec (.syncAcquired lane) s = .next (s.setReg (.syncHeld lane) 1))
  ∧ (∀ (lane : Nat) (s : State), s.laneThere lane = true → s.link lane = 2 → s.regN (.hiBer lane) = 1 → s.regN (.syncHeld lane) = 1 →
      s.rd (lnUnit lane) 0x1002 0 = 1 →
    ∃ t, exec (.hiBerEnd lane) s = .next t ∧ t.link lane = 3 ∧ t.regN (.hiBer lane) = 0 ∧ t.regN (.syncHeld lane) = 0
      ∧ t.timer (.syncTimeout lane) = some (s.rd (lnUnit lane) 0x1007 0 * 6250))

/-- SYNC_TIMEOUT_EXPIRE: sync_timeouts is one more, a sync held for the end of hi-BER is gone (the model's reading, log entry 37) and the timer
starts again, in AUTONEG with the page advertised again; but for the end of IDLE nothing else differs. UP_HOLD_EXPIRE in CONFIRM: the lane
is UP and up_hold stands. LANE_CLOCK_LOST on a lane with a PCS mode, not UP and with both clocks until now (tx: its transmit clock):
sd_level is 0, clock_lost is one more, alarm 19 is latched, and the lane, unless DISABLED, is DOWN. LANE_CLOCK_RETURN with sd_level 0: only
the loss is over. With the other clock still lost the return of one starts nothing. HI_BER_END where no sync is held (log entry 37): only
the condition is over. LED_ACTIVITY_TIMER: after the low interval a high one of 250,000 ticks follows, after that the timer stands; IDLE
ends. A pin of MF carries the function of the first enabled slot that names it; LANE_LED LINK is high while the lane is UP, ACTIVITY but for
its low interval. (03_lanes_and_channels.md: R94 to R98, Table 3.8, 18_integration.md: R399) -/
def Obligations.LaneTimersAndClockAct : Prop :=
  (∀ (lane : Nat) (s : State), s.mainUp = true → (s.timer (.syncTimeout lane)).isSome → s.link lane ≠ 3 →
    exec (.syncTimeoutExpire lane) s = .next (((s.wake.bump (lnUnit lane) 0x8001 0 1).setReg (.syncHeld lane) 0).startTimer (.syncTimeout lane)
      (s.rd (lnUnit lane) 0x1007 0 * 6250)))
  ∧ (∀ (lane : Nat) (s : State), s.mainUp = true → (s.timer (.syncTimeout lane)).isSome → s.link lane = 3 →
    exec (.syncTimeoutExpire lane) s = .next ((((s.wake.bump (lnUnit lane) 0x8001 0 1).setReg (.syncHeld lane) 0).setReg (.anPage lane)
      (s.basePage lane)).startTimer (.syncTimeout lane) (s.rd (lnUnit lane) 0x1007 0 * 6250)))
  ∧ (∀ (lane : Nat) (s : State), s.mainUp = true → (s.timer (.upHold lane)).isSome → s.link lane = 4 →
    ∃ t, exec (.upHoldExpire lane) s = .next t ∧ t.link lane = 5 ∧ t.timer (.upHold lane) = none ∧ t.copies = s.copies
      ∧ t.frames = s.frames ∧ (∀ l, l ≠ lane → t.link l = s.link l))
  ∧ (∀ (lane : Nat) (tx : Bool) (s : State), s.laneThere lane = true → s.pcsMode lane ≠ 0 → s.regN (.clockLost lane) = 0 → s.link lane ≤ 4 →
    ∃ t, exec (.laneClockLost ⟨lane, tx⟩) s = .next t ∧ t.regN (.clockLost lane) = (if tx then 2 else 1) ∧ t.rd (lnUnit lane) 0x5002 0 = 0
      ∧ t.rd (lnUnit lane) 0x8002 0 = (s.rd (lnUnit lane) 0x8002 0 + 1) % 2 ^ counterBits (lnUnit lane) 0x8002
      ∧ t.rd (lnUnit lane) 0x0005 0 = setBit (s.rd (lnUnit lane) 0x0005 0) 19 true ∧ t.link lane = min 1 (s.link lane))
  ∧ (∀ (lane : Nat) (tx : Bool) (s : State), s.laneThere lane = true → s.regN (.clockLost lane) = (if tx then 2 else 1) →
      s.rd (lnUnit lane) 0x5002 0 = 0 → s.rd (lnUnit lane) 0x4000 0 ≠ 1 →
    exec (.laneClockReturn ⟨lane, tx⟩) s = .next (s.setReg (.clockLost lane) 0))
  ∧ (∀ (lane : Nat) (tx : Bool) (s : State), s.laneThere lane = true → s.regN (.clockLost lane) = 3 →
    exec (.laneClockReturn ⟨lane, tx⟩) s = .next (s.setReg (.clockLost lane) (if tx then 1 else 2)))
  ∧ (∀ (lane : Nat) (s : State), s.laneThere lane = true → s.regN (.syncHeld lane) = 0 →
    exec (.hiBerEnd lane) s = .next ((s.setReg (.hiBer lane) 0).setReg (.syncHeld lane) 0))
  ∧ (∀ (lane : Nat) (s : State), s.mainUp = true → (s.timer (.led lane)).isSome →
    exec (.ledActivityTimer lane) s = .next (if s.regN (.ledActive lane) = 1
      then (s.wake.setReg (.ledActive lane) 2).startTimer (.led lane) 250000
      else (s.wake.stopTimer (.led lane)).setReg (.ledActive lane) 0))
  ∧ (∀ (pin k : Nat) (s : State), s.snowdropUp = true → k < 16 → (s.rd 0x000 0x1010 k).testBit 31 = true →
      field (s.rd 0x000 0x1010 k) 28 3 = pin →
      (∀ j < k, (s.rd 0x000 0x1010 j).testBit 31 = false ∨ field (s.rd 0x000 0x1010 j) 28 3 ≠ pin) →
    s.mfPin pin = some (true, s.mfLevel (field (s.rd 0x000 0x1010 k) 24 4) (field (s.rd 0x000 0x1010 k) 0 16)))
  ∧ (∀ (lane : Nat) (s : State), s.mode ≤ 2 → lane < 16 → s.mfLevel 4 lane = s.laneUp lane
    ∧ s.mfLevel 4 (16 + lane) = (s.laneUp lane && s.regN (.ledActive lane) ≠ 1))

/-- PAUSE_RX of a well-formed frame with a time t that is not 0 while tx_obey is pause and no holdoff runs: the channel-wide hold is t in ticks
plus 1, no copy of the channel stays chosen, rx_pause is one more, every other hold and every frame is as before. With time 0 and no hold
the frame only counts as an XON without effect; a malformed frame, one of the other form (a PAUSE under PFC, a PFC under PAUSE, either under
NONE) and one in a holdoff are each only counted. PFC_RX of a well-formed frame that names some class, every named class with a time that is
not 0: each named class has its time as hold, no other hold changes, rx_pfc is one more. MAC_CONTROL_OTHER only counts. (08_transmit.md:
R213 to R216, R218, 04_receive.md: R101, Table 4.7, 07_scheduling.md: R176) -/
def Obligations.PauseFramesSetHolds : Prop :=
  (∀ (ch : Nat) (l : List Octet) (s : State), s.mainUp = true → s.isChannel ch = true → s.wellFormedPause ch l = true →
      s.rd (chUnit ch) 0x1030 0 = 1 → s.rd (chUnit ch) 0x5032 0 ≠ 1 → be16 l 16 ≠ 0 →
    ∃ t, exec (.pauseRx ch l) s = .next t ∧ t.holdOf ch 0 = pauseTicks (be16 l 16) (s.speed ch) + 1
      ∧ (∀ c h, (c, h) ≠ (ch, 0) → t.holdOf c h = s.holdOf c h) ∧ (∀ c ∈ t.copies, c.ep = ch → c.state ≠ .chosen)
      ∧ t.rd (chUnit ch) 0x8030 0 = (s.rd (chUnit ch) 0x8030 0 + 1) % 2 ^ 64 ∧ t.frames = s.frames)
  ∧ (∀ (ch : Nat) (l : List Octet) (s : State), s.mainUp = true → s.isChannel ch = true → s.wellFormedPause ch l = true →
      s.rd (chUnit ch) 0x1030 0 = 1 → s.rd (chUnit ch) 0x5032 0 ≠ 1 → be16 l 16 = 0 → s.holdOf ch 0 = 0 →
    exec (.pauseRx ch l) s = .next (s.bump (chUnit ch) 0x8033 0 1))
  ∧ (∀ (ch : Nat) (l : List Octet) (s : State), s.mainUp = true → s.isChannel ch = true → s.rd (chUnit ch) 0x5032 0 ≠ 1 →
    (s.wellFormedPause ch l = false →
      exec (.pauseRx ch l) s = .next (s.bump (chUnit ch) 0x8034 0 1) ∧ exec (.pfcRx ch l) s = .next (s.bump (chUnit ch) 0x8034 0 1))
    ∧ (s.wellFormedPause ch l = true → s.rd (chUnit ch) 0x1030 0 = 0 →
      exec (.pauseRx ch l) s = .next (s.bump (chUnit ch) 0x8035 0 1) ∧ exec (.pfcRx ch l) s = .next (s.bump (chUnit ch) 0x8035 0 1))
    ∧ (s.wellFormedPause ch l = true → s.rd (chUnit ch) 0x1030 0 = 2 → exec (.pauseRx ch l) s = .next (s.bump (chUnit ch) 0x8035 0 1))
    ∧ (s.wellFormedPause ch l = true → s.rd (chUnit ch) 0x1030 0 = 1 → exec (.pfcRx ch l) s = .next (s.bump (chUnit ch) 0x8035 0 1)))
  ∧ (∀ (ch : Nat) (l : List Octet) (s : State), s.mainUp = true → s.isChannel ch = true → s.build.hasWatchdog = true →
      s.rd (chUnit ch) 0x5032 0 = 1 →
    exec (.pauseRx ch l) s = .next (s.bump (chUnit ch) 0x8044 0 1) ∧ exec (.pfcRx ch l) s = .next (s.bump (chUnit ch) 0x8044 0 1))
  ∧ (∀ (ch : Nat) (l : List Octet) (s : State), s.mainUp = true → s.isChannel ch = true → s.wellFormedPause ch l = true →
      s.rd (chUnit ch) 0x1030 0 = 2 → s.rd (chUnit ch) 0x5032 0 ≠ 1 → (∃ p, p < 8 ∧ (octet l 17).testBit p = true) →
      (∀ p, p < 8 → (octet l 17).testBit p = true → be16 l (18 + 2 * p) ≠ 0) →
    ∃ t, exec (.pfcRx ch l) s = .next t
      ∧ (∀ p, p < 8 → (octet l 17).testBit p = true → t.holdOf ch (p + 1) = pauseTicks (be16 l (18 + 2 * p)) (s.speed ch) + 1)
      ∧ (∀ c h, (∀ p, p < 8 → (octet l 17).testBit p = true → (c, h) ≠ (ch, p + 1)) → t.holdOf c h = s.holdOf c h)
      ∧ t.rd (chUnit ch) 0x8031 0 = (s.rd (chUnit ch) 0x8031 0 + 1) % 2 ^ 64 ∧ t.frames = s.frames)
  ∧ (∀ (ch : Nat) (l : List Octet) (s : State), s.mainUp = true → s.isChannel ch = true →
    exec (.macControlOther ch l) s = .next (s.bump (chUnit ch) 0x8016 0 1))

/-- PAUSE_HOLD_END of a hold in force: that hold is 0, every other hold, every object, register, timer and frame is as before (a suspended
remainder may go on). PAUSE_WD_BREAK where the watchdog of the channel is armed: no hold of the channel is left, every other channel keeps
its holds, pause_wd_breaks is one more, the channel is in HOLDOFF and its timer runs for pause_wd_holdoff. HOLDOFF_END: the channel leaves
HOLDOFF, its timer stands, nothing else differs, but that a timer that reaches 0 ends IDLE (R362). (08_transmit.md: R215 to R218,
16_power.md: R362) -/
def Obligations.HoldsEndAndBreak : Prop :=
  (∀ (ch hold : Nat) (s : State), s.mainUp = true → 0 < s.holdOf ch hold →
    ∃ t, exec (.pauseHoldEnd ch hold) s = .next t ∧ t.holdOf ch hold = 0 ∧ (∀ c h, (c, h) ≠ (ch, hold) → t.holdOf c h = s.holdOf c h)
      ∧ t.obj = s.obj ∧ t.hid = s.hid ∧ t.timers = s.timers ∧ t.frames = s.frames ∧ t.copies.length = s.copies.length)
  ∧ (∀ (ch : Nat) (s : State), s.mainUp = true → s.wdArmed ch = true →
    ∃ t, exec (.pauseWdBreak ch) s = .next t ∧ (∀ h, t.holdOf ch h = 0) ∧ (∀ c h, c ≠ ch → t.holdOf c h = s.holdOf c h)
      ∧ t.rd (chUnit ch) 0x8043 0 = (s.rd (chUnit ch) 0x8043 0 + 1) % 2 ^ 64 ∧ t.rd (chUnit ch) 0x5032 0 = 1
      ∧ t.timer (.holdoff ch) = some (s.rd (chUnit ch) 0x1036 0 * 6250)
      ∧ t.rd (chUnit ch) 0x0005 0 = setBit (s.rd (chUnit ch) 0x0005 0) 19 true ∧ t.frames = s.frames)
  ∧ (∀ (ch : Nat) (s : State), s.mainUp = true → s.build.hasWatchdog = true → s.rd (chUnit ch) 0x5032 0 = 1 →
    exec (.holdoffEnd ch) s = .next ((s.wake.stopTimer (.holdoff ch)).wr (chUnit ch) 0x5032 0 0))

/-- PAUSE_GEN_START in RUN on a standard channel in link-level pause mode whose account 0 is in XOFF and owes its message, with no copy of any
frame in the device, this pause the only frame that waits, and no quartered lane: the frame of Table 4.4 with pause_quanta and its FCS is on
the wire behind the start octets, the message is owed no more, pause_active has the account's bit and its timer runs for D, xoff_tx is one
more, and the wait is over. PAUSE_REFRESH_EXPIRE of an account still in XOFF on a channel that is UP with no frame waiting: the account owes
its message again, a frame waits, the refresh timer runs again; out of XOFF the timer only stands. PAUSE_ACTIVE_EXPIRE: the account's bit
and timer of pause_active go, nothing else differs. Either timer that reaches 0 ends IDLE (R362). (04_receive.md: R113, R116 to R118, Tables
4.3, 4.4, 4.7, 16_power.md: R362) -/
def Obligations.GeneratedPausesFollowXoff : Prop :=
  (∀ (ch : Nat) (s : State), s.mainUp = true → s.running = true → s.asked 5 = false → s.isChannel ch = true → s.chUp ch = true →
      s.genQ = [.pause ch] → s.rd (chUnit ch) 0x1010 0 = 1 → s.inXoff ch 0 = true → s.reg (.pauseDue ch 0) = 1 →
      s.rd (chUnit ch) 0x1012 0 ≠ 0 → s.copies = [] → s.quartered ch = false → s.quiet ch 1 = false → s.fabricRole ch = false →
    ∃ t, exec (.pauseGenStart ch) s = .next t ∧ t.genQ = [] ∧ t.reg (.pauseDue ch 0) = 0 ∧ t.pauseActive ch 0 = true
      ∧ t.timer (.pauseActive ch 0) = some (s.pauseD ch + 1)
      ∧ t.rd (chUnit ch) 0x801B 0 = (s.rd (chUnit ch) 0x801B 0 + 1) % 2 ^ 64
      ∧ t.txOut.find? ch = some (List.replicate 7 0x55 ++ [0xD5]
          ++ s.macControlFrame ch false [(0, s.rd (chUnit ch) 0x1012 0)]
          ++ fcsOctets (s.macControlFrame ch false [(0, s.rd (chUnit ch) 0x1012 0)])))
  ∧ (∀ (ch acct : Nat) (s : State), s.mainUp = true → (s.timer (.refresh ch acct)).isSome → s.inXoff ch acct = true → s.chUp ch = true →
      GenFrame.pause ch ∉ s.genQ →
    exec (.pauseRefreshExpire ch acct) s = .next (State.startTimer { (s.wake.stopTimer (.refresh ch acct)).setReg (.pauseDue ch acct) 1 with
        genQ := s.genQ ++ [.pause ch] } (.refresh ch acct) (max 1 (4 * s.pauseD ch / 5) + 1)))
  ∧ (∀ (ch acct : Nat) (s : State), s.mainUp = true → (s.timer (.refresh ch acct)).isSome → s.inXoff ch acct = false →
    exec (.pauseRefreshExpire ch acct) s = .next (s.wake.stopTimer (.refresh ch acct)))
  ∧ (∀ (ch acct : Nat) (s : State), s.mainUp = true → s.isChannel ch = true → s.pauseActive ch acct = true →
    exec (.pauseActiveExpire ch acct) s = .next ((s.wake.stopTimer (.pauseActive ch acct)).wr (chUnit ch) 0x5013 0
      (setBit (s.rd (chUnit ch) 0x5013 0) (accountBit acct) false)))

/-- On a channel that is UP with frame preemption enabled and whose wire is free: VERIFY_RX puts a respond mPacket (its form is presumed, log
entry 5) on the wire and changes nothing else; on a quartered lane its start octets carry the marker, the channel, the sequence and its
check of Table 3.4 its 84 octets are charged to the credit of the channel and the sequence, which counts frames, stays; where the wire is
not free it waits. RESPOND_RX while verifying makes preempt_status ACTIVE and stops verify_time. VERIFY_TIME_EXPIRE while verifying: with
fewer than three verify mPackets sent another leaves on a free wire and the time starts again; with three preempt_status is FAILED,
verify_fail is one more, alarm 18 is latched. Where nothing is being verified the timer only stands. A timer that reaches 0 ends IDLE
(R362). (08_transmit.md: R196, R203, 03_lanes_and_channels.md: R87, R89, Table 3.4, 16_power.md: R362) -/
def Obligations.PreemptVerifyRuns : Prop :=
  (∀ (ch : Nat) (s : State), s.mainUp = true → s.mergeOn ch = true → s.mayPacket ch = true → s.quartered ch = false →
    exec (.verifyRx ch) s = .next { s with
      txOut := s.txOut.set ch (List.replicate 7 0x55 ++ [0x19] ++ List.replicate 60 0
        ++ toLsb 4 (crc crc32 (List.replicate 60 0) ^^^ 0x0000FFFF)) [] })
  ∧ (∀ (ch : Nat) (s : State), s.mainUp = true → s.mergeOn ch = true → s.mayPacket ch = true → s.quartered ch = true →
    ∃ t, exec (.verifyRx ch) s = .next t
      ∧ (t.txOut.find? ch).map (fun l => l.take 8) = some ([0x55, 0x55, 0x55]
          ++ toMsb 1 (0xD0 + (ch % 4 * 4 + s.regN (.quarterSeqTx ch) % 4))
          ++ toMsb 1 (0x50 + checkNibble (ch % 4 * 4 + s.regN (.quarterSeqTx ch) % 4)) ++ [0x55, 0x55, 0x19])
      ∧ t.reg (.quarterCredit ch) = s.reg (.quarterCredit ch) - 84 ∧ t.reg (.quarterSeqTx ch) = s.reg (.quarterSeqTx ch) ∧ t.obj = s.obj ∧ t.copies = s.copies)
  ∧ (∀ (ch : Nat) (s : State), s.mainUp = true → s.chUp ch = true → s.mergeOn ch = true → s.mayPacket ch = false →
    exec (.verifyRx ch) s = .next { s with genQ := s.genQ ++ [.mPacket ch 0x19] })
  ∧ (∀ (ch : Nat) (s : State), s.mainUp = true → s.chUp ch = true → s.mergeOn ch = true → s.rd (chUnit ch) 0x5030 0 = 1 →
    ∃ t, exec (.respondRx ch) s = .next t ∧ ((s.stopTimer (.verify ch)).wr (chUnit ch) 0x5030 0 2).ButEvents t)
  ∧ (∀ (ch : Nat) (s : State), s.mainUp = true → (s.timer (.verify ch)).isSome → s.rd (chUnit ch) 0x5030 0 = 1 →
      s.regN (.verifyCount ch) < 3 → s.mayPacket ch = true →
    ∃ t, exec (.verifyTimeExpire ch) s = .next t ∧ t.reg (.verifyCount ch) = s.reg (.verifyCount ch) + 1
      ∧ t.timer (.verify ch) = some (s.rd (chUnit ch) 0x1033 0 * 6250) ∧ t.obj = s.wake.obj ∧ t.copies = s.copies
      ∧ (t.txOut.find? ch).map (fun l => octet l 7) = some 0x07)
  ∧ (∀ (ch : Nat) (s : State), s.mainUp = true → (s.timer (.verify ch)).isSome → s.rd (chUnit ch) 0x5030 0 = 1 →
      3 ≤ s.regN (.verifyCount ch) →
    ∃ t, exec (.verifyTimeExpire ch) s = .next t
      ∧ ((((s.stopTimer (.verify ch)).bump (chUnit ch) 0x803D 0 1).latch (chUnit ch) 18).wr (chUnit ch) 0x5030 0 3).ButEvents t)
  ∧ (∀ (ch : Nat) (s : State), s.mainUp = true → (s.timer (.verify ch)).isSome → s.rd (chUnit ch) 0x5030 0 ≠ 1 →
    exec (.verifyTimeExpire ch) s = .next (s.wake.stopTimer (.verify ch)))

/-- RX_FRAME_START on a channel that is enabled on a lane that is UP and not quartered, out of IDLE, with start octets that open a whole frame,
no run of which differs under replication, before the receive units are asked to stop and with no frame in progress there: a new frame with
no octets, of that ingress, with the receive timestamp, is the frame in progress of the channel, the lane shows activity, and every entry,
copy, context and object is as before but for what the start octets count. With runs that differ under replication: replication_err counts
them, rx_symbol_err is one more, and no frame is in progress. Start octets that open nothing count in rx_sfd_err, and on a quartered lane a
bad marker in quarter_hdr_err, and no frame begins. (04_receive.md: R100, R121, Table 4.1, 03_lanes_and_channels.md: R79, R84, R88, Table
3.3, 18_integration.md: R399) -/
def Obligations.FrameStartsOnChannel : Prop :=
  (∀ (ch : Nat) (start : StartInput) (crossing : Nat) (s : State), s.mainUp = true → s.isChannel ch = true → s.rxOpen (laneOf ch) = true →
      s.mode ≠ 2 → s.quartered ch = false → s.chEnabled ch = true → s.unitKind ch start.octets = .whole → s.asked 4 = false →
      s.rxNow.find? ch = none → start.replErrs = 0 ∨ s.rd (lnUnit (laneOf ch)) 0x1004 0 = 0 →
    ∃ t, exec (.rxFrameStart ch start crossing) s = .next t ∧ t.rxNow = s.rxNow ++ [(ch, s.regN .nextFrame)]
      ∧ t.frames = s.frames ++ [s.newFrame ch (s.rxInstant ch crossing) false] ∧ t.reg .nextFrame = s.reg .nextFrame + 1
      ∧ t.reg (.ledActive (laneOf ch)) ≠ 0
      ∧ t.obj = (s.startCounts (laneOf ch) start).obj ∧ t.tab = s.tab ∧ t.copies = s.copies ∧ t.asm = s.asm)
  ∧ (∀ (ch : Nat) (start : StartInput) (crossing : Nat) (s : State), s.mainUp = true → s.isChannel ch = true → s.rxOpen (laneOf ch) = true →
      s.mode ≠ 2 → s.quartered ch = false → s.chEnabled ch = true → s.unitKind ch start.octets = .whole → s.asked 4 = false →
      s.rxNow.find? ch = none → 0 < start.replErrs → s.rd (lnUnit (laneOf ch)) 0x1004 0 ≠ 0 → s.frame? (s.regN .nextFrame) = none →
    ∃ t, exec (.rxFrameStart ch start crossing) s = .next t ∧ t.rxNow.find? ch = none ∧ t.frames = s.frames
      ∧ t.rd (lnUnit (laneOf ch)) 0x8006 0 = (s.rd (lnUnit (laneOf ch)) 0x8006 0 + start.replErrs) % 2 ^ 64
      ∧ t.rd (chUnit ch) 0x8012 0 = (s.rd (chUnit ch) 0x8012 0 + 1) % 2 ^ 64)
  ∧ (∀ (ch : Nat) (start : StartInput) (crossing : Nat) (s : State), s.mainUp = true → s.isChannel ch = true →
      s.rxOpen (laneOf ch) = true → s.mode ≠ 2 → s.quartered ch = false → s.chEnabled ch = true → s.unitKind ch start.octets = .bad →
    exec (.rxFrameStart ch start crossing) s = .next (((s.lit (laneOf ch)).startCounts (laneOf ch) start).bump (chUnit ch) 0x8015 0 1))
  ∧ (∀ (ch : Nat) (start : StartInput) (crossing : Nat) (s : State), s.mainUp = true → s.isChannel ch = true →
      s.rxOpen (laneOf ch) = true → s.mode ≠ 2 → s.quartered ch = true → s.quarterCheck (laneOf ch) start.octets = .bad →
    ∃ t, exec (.rxFrameStart ch start crossing) s = .next t
      ∧ t.rd (lnUnit (laneOf ch)) 0x8008 0 = (s.rd (lnUnit (laneOf ch)) 0x8008 0 + 1) % 2 ^ 64
      ∧ t.rxNow = s.rxNow ∧ t.frames = s.frames ∧ t.copies = s.copies ∧ t.asm = s.asm)

/-- RX_CELL for a frame in progress that has octets, on a standard channel, with a cell in which nothing fails and for which its lane FIFO has
room, and no host copy of the frame in progress: the frame holds its old octets followed by the cell's and has ended if the cell is the
last; then no channel has it in progress any more. If the frame has an account and the cells it then needs keep the account within its
limit, the frame holds those cells, one fewer with a stub or while its first cell is staged, and the peak of the account has not fallen; the
copies are as before. That a first cell is in staging, and no cell of the buffer, until its decision is delivered, and when cells leave the
lane FIFO, are the model's reading (DEDUCED, log entries 83 and 82). (03_lanes_and_channels.md: R79, 04_receive.md: R100, R103, R109, R111,
R112, 06_buffer_and_folding.md: R151, R156) -/
def Obligations.CellJoinsItsFrame : Prop :=
  ∀ (ch id : Nat) (cell : CellInput) (f : Frame) (s : State), s.mainUp = true → s.isChannel ch = true → s.rxNow.find? ch = some id →
      s.frame? id = some f → f.ing = ch → f.octets ≠ [] → f.onFabric = false → (s.giveRoom ch cell.octets.length 0).1 = true →
      s.cellFailure f cell true = none → s.hostSending id = [] →
      (∀ k, f.account = some k → cellsFor (f.octets ++ cell.octets).length false = cellsFor f.octets.length false
        ∨ s.occupancy ch k + (cellsFor (f.octets ++ cell.octets).length false - cellsFor f.octets.length false) ≤ s.limitOf ch k) →
    ∃ t g, exec (.rxCell ch cell) s = .next t ∧ t.frame? id = some g ∧ g.octets = f.octets ++ cell.octets ∧ g.ended = cell.last
      ∧ g.ing = ch ∧ g.account = f.account ∧ t.copies = s.copies ∧ t.fifo = (s.giveRoom ch cell.octets.length 0).2.fifo
      ∧ (cell.last = true → ∀ p ∈ t.rxNow, p.2 ≠ id)
      ∧ (∀ k, f.account = some k → g.cells = cellsFor (f.octets ++ cell.octets).length (f.stub.isSome || s.inStaging f)
        ∧ s.rd (chUnit ch) 0x5011 k ≤ t.rd (chUnit ch) 0x5011 k)

/-- KEY_PRESENT with a key at the front in a slot that no update or survey has taken: the frame gets the decision of the classifier on its key
with OWN_DA by the station address now in force (DEDUCED, log entry 93) and the tag of the current edition, with the decisions that hold
where an entry it matches proves unreadable, and waits for delivery behind the others; no object, entry or copy changes. In a slot so taken
the key waits. DECISION_DELIVER without an error met, with folding off, of a decision whose targets all take base queues and that names no
ring: one copy for each target, in their order, stands behind the copies there were, each for the target's endpoint in the base queue of the
decision's class, and the frame waits no more. A decision that drops by colour or by an unreadable action places none. In a state whose
tables are in canonical form: the Legend result is the lowest index among the candidates of the current edition that match the key on every
masked bit, a pair on both words, and there is none exactly where no entry does. The Contour result is, of the entries whose two fields lie
in their ranges, one of highest PRIORITY, of these the lowest index, with TIE exactly where another shares the priority. KEY_PRESENT of a
frame that is not in transit, in a slot that is not taken: the decision is by Legend where it matches without DEFER or Contour does not
match, by Contour where it matches and Legend does not or defers, otherwise by miss_action; it carries the TIE of the Contour result,
whoever decides; the action of a frame without a host descriptor is that of the deciding entry in the current bank, or miss_action.
(01_architecture.md: R32, R33, R38, R40, 05_legend_and_contour.md: R127, R128, R129, R140, R142, Tables 5.6, 5.9, 5.12, 07_scheduling.md:
R172, 06_buffer_and_folding.md: R155, R156) -/
def Obligations.DecisionsAreMadeAndDelivered : Prop :=
  (∀ (id : Nat) (rest : List Nat) (f : Frame) (k : Key) (s : State), s.mainUp = true → s.slotTaken = false → s.keyQ = id :: rest →
      s.frame? id = some f → f.key = some k →
    ∃ t, exec .keyPresent s = .next t
      ∧ t.frame? id = some { f with
          key := some (s.keyNow f k), decision := some (State.decide { s with keyQ := rest } f (s.keyNow f k)).1, tag := some s.edition,
          alts := State.alternatives { s with keyQ := rest } f (s.keyNow f k) (State.decide { s with keyQ := rest } f (s.keyNow f k)).1 }
      ∧ t.keyQ = rest ∧ t.decQ = s.decQ ++ [id] ∧ t.obj = s.obj ∧ t.tab = s.tab ∧ t.copies = s.copies)
  ∧ (∀ s : State, s.mainUp = true → s.slotTaken = true → exec .keyPresent s = .next s)
  ∧ (∀ (id : Nat) (rest : List Nat) (f : Frame) (d : Decision) (s : State), s.mainUp = true → s.decQ = id :: rest → s.frame? id = some f →
      f.decision = some d → d.eccDrop = false → d.colourAct ≠ 2 → s.rd 0x009 0x1000 0 ≠ 1 → d.rings = [] →
      (∀ x ∈ d.targets, s.queueFor d x.ep = .base x.ep d.cls) →
    ∃ t, exec (.decisionDeliver .clean) s = .next t ∧ t.decQ = rest
      ∧ t.copies = s.copies ++ d.targets.map (fun x => s.newCopy id x.ep (.base x.ep d.cls) d.cls (d.colourAct = 1) x.mirror x.dst))
  ∧ (∀ (id : Nat) (rest : List Nat) (f : Frame) (d : Decision) (s : State), s.mainUp = true → s.decQ = id :: rest → s.frame? id = some f →
      f.decision = some d → d.eccDrop = true ∨ d.colourAct = 2 →
    ∃ t, exec (.decisionDeliver .clean) s = .next t ∧ t.decQ = rest ∧ t.copies = s.copies)
  ∧ (∀ (k : Key) (s : State), s.canon = true →
    (∀ i, s.legend k = some i → s.legendHit k i ∧ ∀ j, s.legendHit k j → i ≤ j)
    ∧ (s.legend k = none → ∀ j, ¬s.legendHit k j))
  ∧ (∀ (k : Key) (s : State), s.canon = true →
    (∀ i tie, s.contour k = some (i, tie) → s.contourHit k i ∧ (∀ j, s.contourHit k j → s.contourPrio j ≤ s.contourPrio i)
      ∧ (∀ j, s.contourHit k j → s.contourPrio j = s.contourPrio i → i ≤ j)
      ∧ (tie = true ↔ ∃ j, j ≠ i ∧ s.contourHit k j ∧ s.contourPrio j = s.contourPrio i))
    ∧ (s.contour k = none → ∀ j, ¬s.contourHit k j))
  ∧ (∀ (id : Nat) (rest : List Nat) (f : Frame) (k0 k : Key) (s : State), s.mainUp = true → s.slotTaken = false → s.keyQ = id :: rest →
      s.frame? id = some f → f.key = some k0 → s.isTransit f = false → k = s.keyNow f k0 →
    (∀ i, s.legend k = some i → (actDefer (s.ent 0x006 0x6002 i) = false ∨ s.contour k = none) →
      ∃ t g d, exec .keyPresent s = .next t ∧ t.frame? id = some g ∧ g.decision = some d ∧ d.decider = .legend i
        ∧ (f.desc = none → d.action = s.ent 0x006 0x6002 i) ∧ d.tie = (s.contour k).any Prod.snd)
    ∧ (∀ j tie, s.contour k = some (j, tie) → (s.legend k = none ∨ ∃ i, s.legend k = some i ∧ actDefer (s.ent 0x006 0x6002 i) = true) →
      ∃ t g d, exec .keyPresent s = .next t ∧ t.frame? id = some g ∧ g.decision = some d ∧ d.decider = .contour j
        ∧ (f.desc = none → d.action = s.ent 0x007 0x6002 j) ∧ d.tie = tie)
    ∧ (s.legend k = none → s.contour k = none →
      ∃ t g d, exec .keyPresent s = .next t ∧ t.frame? id = some g ∧ g.decision = some d ∧ d.decider = .miss
        ∧ (f.desc = none → d.action = s.rd 0x006 0x1001 0) ∧ d.tie = false))

/-- COMMIT_POINT in RUN for a frame of a standard channel with a good length and FCS, taken for object access exactly where it is that by the
station address now in force, and with no host copy in progress: it is committed and waits for its application slot behind the others. With
a bad FCS: the frame is gone, of its copies only ends on the wire are left, stomped, or cut already by a link down, rx_fcs_err is one more.
APPLY_HELD_EFFECTS for the oldest committed frame, with no key or decision of it waiting, of a channel, with nothing else owed, without a
host descriptor and without a decision or in transit: its receive frame counter is one more, and the frame is gone where no copy of it is
left, and is marked applied where some copy has yet to be sent and none is being written to a host buffer. (01_architecture.md: R35, R36,
R38, R39, 03_lanes_and_channels.md: R93, 04_receive.md: R106, R107, Table 4.1, 17_statistics.md: R376) -/
def Obligations.FramesCommitOrAreUndone : Prop :=
  (∀ (ep : Nat) (f : Frame) (s : State), s.mainUp = true → s.mode = 1 → s.isChannel ep = true → s.atEnd ep = some f →
      s.frame? f.id = some f → endFailure f = none → f.onFabric = false → s.accessNow f = decide (f.use = .access) →
      s.hostSending f.id = [] →
    ∃ t g, exec (.commitPoint ep) s = .next t ∧ t.frame? f.id = some g ∧ g.committed = true ∧ g.octets = f.octets
      ∧ g.decision = f.decision ∧ t.appQ = s.appQ ++ [f.id] ∧ t.copies = s.copies ∧ t.obj = s.obj)
  ∧ (∀ (ep : Nat) (f : Frame) (s : State), s.mainUp = true → s.isChannel ep = true → s.atEnd ep = some f → s.frame? f.id = some f →
      endFailure f = some .fcs →
    ∃ t, exec (.commitPoint ep) s = .next t ∧ t.frame? f.id = none ∧ (∀ c ∈ t.copies, c.frame = f.id → c.ending = .stomped ∨ c.ending = .down)
      ∧ f.id ∉ t.keyQ ∧ f.id ∉ t.decQ ∧ t.rd (chUnit ep) 0x8010 0 = (s.rd (chUnit ep) 0x8010 0 + 1) % 2 ^ 64)
  ∧ (∀ (id : Nat) (rest : List Nat) (f : Frame) (s : State), s.mainUp = true → s.appQ = id :: rest → id ∉ s.keyQ → id ∉ s.decQ →
      s.frame? id = some f → f.desc = none → f.use = .data → f.owed = [] → s.isChannel f.ing = true → f.fold = 0 →
      (∀ d, f.decision = some d → d.decider = .transit ∧ d.tailDrops = [] ∧ d.colourAct ≠ 2) →
      s.hostSending id = [] →
    (s.copiesOf id = [] → ∃ t, exec .applyHeldEffects s = .next t ∧ t.frame? id = none ∧ id ∉ t.appQ
      ∧ t.rd (csUnit f.ing) 0x8000 0 = (s.rd (csUnit f.ing) 0x8000 0 + 1) % 2 ^ 64)
    ∧ ((∃ c ∈ s.copiesOf id, c.state ≠ .held) → ∃ t g, exec .applyHeldEffects s = .next t ∧ t.frame? id = some g ∧ g.applied = true
      ∧ t.appQ = rest ∧ t.copies = s.copies
      ∧ t.rd (csUnit f.ing) 0x8000 0 = (s.rd (csUnit f.ing) 0x8000 0 + 1) % 2 ^ 64))

/-- MM_FRAGMENT_RX of a first fragment on an enabled, unquartered standard channel with 802.3br enabled and no context open, with an mCRC that
says that more follows (the codes are presumed, log entry 5): a context with its octets is open, its timer at 0, mm_frag_rx is one more;
with fewer than 64 octets, within max_frame, and no symbol error in them a new frame with the receive timestamp waits for its cells and no
copy changes. FABRIC_FRAGMENT_RX of an initial fragment of level 0 or 1 with a good check nibble on an enabled channel of a lane of role
FABRIC that has no context, with the end octets that say that more follows: the same for a context of its level, which keeps the class,
where the fabric header, if it is there, is good. FRAG_TIMEOUT of an open context whose timer has counted 12,800 CCLK: no context of that
level and link is left, the others stay, frag_timeout is one more, FRAG_ERR is latched, and the frame that the context had begun is gone.
(08_transmit.md: R204, R205, R207 to R210, Table 8.3, 04_receive.md: R102, R103, R121) -/
def Obligations.FragmentsOpenAndLoseContexts : Prop :=
  (∀ (ch crossing n : Nat) (start : List Octet) (x : FragInput) (s : State), s.mainUp = true → s.isChannel ch = true →
      s.rxOpen (laneOf ch) = true → s.fabricRole ch = false → s.quartered ch = false → s.chEnabled ch = true → s.mergeOn ch = true →
      s.asked 4 = false → smdCountOf (octet start 7) = some n → (∀ c ∈ s.asm, c.ch ≠ ch) →
      fragTail x = toLsb 4 (crc crc32 (fragBody x) ^^^ 0x0000FFFF) →
    ∃ t c, exec (.mmFragmentRx ch start x crossing) s = .next t ∧ t.asm = s.asm ++ [c] ∧ c.ch = ch ∧ c.level = 0 ∧ c.fcnt = n ∧ c.fnum = 0
      ∧ c.octets = fragBody x ∧ c.wait = 0 ∧ t.rd (chUnit ch) 0x8039 0 = (s.rd (chUnit ch) 0x8039 0 + 1) % 2 ^ 64
      ∧ ((fragBody x).length < 64 ∧ (fragBody x).length ≤ s.maxFrame ch ∧ s.fragError ch 0 x = none → c.frame = some (s.regN .nextFrame)
        ∧ t.frames = s.frames ++ [s.newFrame ch (s.rxInstant ch crossing) true] ∧ t.copies = s.copies))
  ∧ (∀ (ch crossing : Nat) (start : List Octet) (x : FragInput) (s : State), s.mainUp = true → s.isChannel ch = true →
      s.rxOpen (laneOf ch) = true → s.chEnabled ch = true → s.fabricRole ch = true → s.asked 4 = false → octet start 7 / 16 = 3 →
      octet start 7 / 4 % 4 < 2 → octet start 6 % 16 = checkNibble (octet start 7 % 16) → (∀ c ∈ s.asm, c.ch ≠ ch) →
      fragTail x = toLsb 4 (crc crc32 (fragBody x) ^^^ s.fragMask ch (octet start 7 / 4 % 4)) →
    ∃ t c, exec (.fabricFragmentRx ch start x crossing) s = .next t ∧ t.asm = s.asm ++ [c] ∧ c.ch = ch
      ∧ c.level = octet start 7 / 4 % 4 ∧ c.fcnt = octet start 7 % 4 ∧ c.fnum = 1 ∧ c.cls = fabClass (fragBody x)
      ∧ c.octets = fragBody x ∧ c.wait = 0 ∧ t.rd (chUnit ch) 0x8039 0 = (s.rd (chUnit ch) 0x8039 0 + 1) % 2 ^ 64
      ∧ ((fragBody x).length < 64 ∧ (fragBody x).length ≤ s.maxFrame ch ∧ s.fragError ch 0 x = none
          ∧ ((fragBody x).length < 12 ∨ headerGood (fragBody x) = true) → c.frame = some (s.regN .nextFrame)
        ∧ t.frames = s.frames ++ [s.newFrame ch (s.rxInstant ch crossing) true] ∧ t.copies = s.copies))
  ∧ (∀ (ch level : Nat) (s : State), s.mainUp = true → s.isChannel ch = true → s.fabricRole ch = true →
      (∃ c ∈ s.asm, c.ch = ch ∧ c.level = level ∧ 12800 ≤ c.wait) →
    ∃ t, exec (.fragTimeout ch level) s = .next t ∧ (∀ c, c ∈ t.asm ↔ c ∈ s.asm ∧ ¬(c.ch = ch ∧ c.level = level))
      ∧ t.rd (chUnit ch) 0x8041 0 = (s.rd (chUnit ch) 0x8041 0 + 1) % 2 ^ 64
      ∧ t.rd (chUnit ch) 0x0005 0 = setBit (s.rd (chUnit ch) 0x0005 0) 20 true
      ∧ (∀ c ∈ s.asm, c.ch = ch → c.level = level → ∀ k, c.frame = some k → t.frame? k = none)
      ∧ ((∀ c ∈ s.asm, c.ch = ch → c.level = level → c.frame = none) → t.frames = s.frames ∧ t.copies = s.copies))

/-- In RUN on a fabric link. TEMPLATE_INSTALL_RX with 14 to 64 header octets: the receive slot of its reference holds exactly what the frame
carries, install_rx is one more, nothing else differs. FOLD_DATA_RX for this device or in transit: with a readable valid slot of the same
generation and the cells of its account free, the frame that the slot unfolds to is stored, committed, with its key waiting, and fold_rx is
one more; with no valid slot (none, or one left without a header) a FOLD_NAK with reason 1 waits, with a valid one of another generation one
with reason 2, with an unreadable one one with reason 3, and fold_unfold_fail is one more, nothing else. That the unfolded frame chooses its
account and is admitted anew is the model's choice (log entry 106). FOLD_NAK_RX for no held frame only counts as late, with its record; for
a held copy that copy waits to be sent as DATA with no hold, its send slot is not valid, fold_resent is one more. FOLD_HOLD_EXPIRE with a
held copy of a frame without a host descriptor: a copy fewer, the hold stands. (06_buffer_and_folding.md: R158, R161, R163, R164, Tables
6.4, 6.5) -/
def Obligations.FoldFramesInstallAndUnfold : Prop :=
  (∀ (ch : Nat) (frame : List Octet) (s : State), s.mainUp = true → s.running = true → s.chUp ch = true → s.fabricRole ch = true →
      fabType frame = 3 → fabDst frame = 0 → 14 ≤ octet frame 13 → octet frame 13 ≤ 64 →
    exec (.templateInstallRx ch frame) s = .next ((s.setFoldSlot ⟨ch, fabRef frame, false, octet frame 12, octet frame 14, octet frame 15,
      (octet frame 16).testBit 7, octet frame 17, (frame.drop 18).take (octet frame 13)⟩).bump (chUnit ch) 0x8023 0 1))
  ∧ (∀ (ch crossing : Nat) (frame : List Octet) (sl : FoldSlot) (s : State), s.mainUp = true → s.running = true → s.fabricLink ch = true →
      s.fabFate frame = .ownFold ∨ s.fabFate frame = .transitFold → s.foldSlot ch (fabRef frame) false = some sl → sl.header ≠ [] →
      sl.gen = octet ((frame.drop 12).take (frame.length - 16)) 0 → s.rd (chUnit ch) 0x1010 0 = 0 → 12 ≤ frame.length →
      s.occupancy ch 0 + ceilDiv ((unfold sl ((frame.drop 12).take (frame.length - 16))).length + 4) 64 ≤ s.rd (chUnit ch) 0x1014 0 →
    ∃ t, exec (.foldDataRx ch frame false crossing) s = .next t
      ∧ (∃ g ∈ t.frames, g.ing = ch ∧ g.committed = true ∧ g.use = .unfolded ∧ g.key.isSome
        ∧ g.inner = unfold sl ((frame.drop 12).take (frame.length - 16)) ++ fcsOctets (unfold sl ((frame.drop 12).take (frame.length - 16))))
      ∧ t.keyQ = s.keyQ ++ [s.regN .nextFrame] ∧ t.appQ = s.appQ ++ [s.regN .nextFrame]
      ∧ t.rd (chUnit ch) 0x8021 0 = (s.rd (chUnit ch) 0x8021 0 + 1) % 2 ^ 64)
  ∧ (∀ (ch crossing : Nat) (frame : List Octet) (ecc : Bool) (s : State), s.mainUp = true → s.running = true → s.fabricLink ch = true →
      s.fabFate frame = .ownFold ∨ s.fabFate frame = .transitFold →
      ecc = true ∨ s.foldSlot ch (fabRef frame) false = none →
    exec (.foldDataRx ch frame ecc crossing) s = .next { s.bump (chUnit ch) 0x8024 0 1 with
      genQ := s.genQ ++ [.nak ch (fabRef frame) (octet ((frame.drop 12).take (frame.length - 16)) 0)
        (octet ((frame.drop 12).take (frame.length - 16)) 1) (if ecc then 3 else 1)] })
  ∧ (∀ (ch crossing : Nat) (frame : List Octet) (sl : FoldSlot) (s : State), s.mainUp = true → s.running = true → s.fabricLink ch = true →
      s.fabFate frame = .ownFold ∨ s.fabFate frame = .transitFold → s.foldSlot ch (fabRef frame) false = some sl →
      sl.header = [] ∨ sl.gen ≠ octet ((frame.drop 12).take (frame.length - 16)) 0 →
    exec (.foldDataRx ch frame false crossing) s = .next { s.bump (chUnit ch) 0x8024 0 1 with
      genQ := s.genQ ++ [.nak ch (fabRef frame) (octet ((frame.drop 12).take (frame.length - 16)) 0)
        (octet ((frame.drop 12).take (frame.length - 16)) 1) (if sl.header = [] then 1 else 2)] })
  ∧ (∀ (ch : Nat) (frame : List Octet) (s : State), s.mainUp = true → s.running = true → s.chUp ch = true → s.fabricRole ch = true →
      fabType frame = 4 → fabDst frame = 0 → (∀ c ∈ s.copies, c.ep = ch → c.fseq ≠ some (octet frame 13)) →
    ∃ t, exec (.foldNakRx ch frame) s = .next t ∧ (s.bump (chUnit ch) 0x8026 0 1).ButEvents t)
  ∧ (∀ (ch : Nat) (frame : List Octet) (c : Copy) (s : State), s.mainUp = true → s.running = true → s.chUp ch = true →
      s.fabricRole ch = true → fabType frame = 4 → fabDst frame = 0 →
      s.copies.find? (fun c => c.ep = ch && c.state = .held && c.fseq = some (octet frame 13)) = some c →
    ∃ t d, exec (.foldNakRx ch frame) s = .next t ∧ t.copies = s.copies.erase c ++ [d] ∧ d.frame = c.frame ∧ d.ep = ch
      ∧ d.state = .queued ∧ d.fseq = none ∧ d.resend = true ∧ t.timer (.foldHold ch (octet frame 13)) = none
      ∧ (∀ sl, t.foldSlot ch (fabRef frame) true = some sl → sl.header = [])
      ∧ t.rd (chUnit ch) 0x8025 0 = (s.rd (chUnit ch) 0x8025 0 + 1) % 2 ^ 64 ∧ t.frames = s.frames)
  ∧ (∀ (ch q : Nat) (c : Copy) (f : Frame) (s : State), s.mainUp = true → (s.timer (.foldHold ch q)).isSome →
      s.copies.find? (fun c => c.ep = ch && c.state = .held && c.fseq = some q) = some c → s.frame? c.frame = some f → f.desc = none →
    ∃ t, exec (.foldHoldExpire ch q) s = .next t ∧ t.timer (.foldHold ch q) = none ∧ t.copies.length < s.copies.length)

/-- SCHED_CHOICE in RUN for an endpoint with nothing chosen at the level and nothing being sent: if no candidate is oversize and the best one
has not expired, exactly that copy is marked as chosen at the level. TX_FRAME_START of the copy chosen at a level of a channel that is UP,
where nothing stops the start: the copy is last in order of start, it is being sent with the charge length and the weight of R185, the start
octets of R196, its end good, or stomped for an unreadable cell or template, and marked as started before its frame's commit if it was; with
no error met in a frame that has committed the frames are as before (one that has not may owe a count until its application slot, R36). On
an air link with room in its transmit FIFO and the gate of the class open the copy passes into it. (01_architecture.md: R36, R41,
07_scheduling.md: R176, R180, R185, R188, 08_transmit.md: R196, R199, 10_air_links.md: R252, 06_buffer_and_folding.md: R154) -/
def Obligations.CopiesAreChosenAndStart : Prop :=
  (∀ (ep level lead : Nat) (c : Copy) (s : State), s.mainUp = true → s.running = true → s.asked 3 = false →
      s.isChannel ep = true ∨ isAir ep = true → s.chosen ep level = none → s.sending ep = none →
      (s.candidates ep level lead).find? s.oversize = none → s.best (s.candidates ep level lead) = some c → s.expired c = false →
    exec (.schedChoice ep level lead) s = .next (s.setCopy c { c with state := .chosen, level := level }))
  ∧ (∀ (ep level crossing : Nat) (ecc : CellRead) (c : Copy) (f : Frame) (s : State), s.mainUp = true → s.running = true → s.asked 3 = false →
      isAir ep = false → s.chosen ep level = some c → s.frame? c.frame = some f → s.mayStart ep level c = true → s.chUp ep = true →
    ∃ t d, exec (.txFrameStart ep level crossing ecc) s = .next t ∧ t.copies = s.copies.erase c ++ [d] ∧ d.frame = c.frame ∧ d.ep = ep
      ∧ d.queue = c.queue ∧ d.level = level ∧ d.state = .sending ∧ d.charge = s.charge c ∧ d.weight = s.weightOf c
      ∧ d.cut = !f.committed ∧ d.since = s.now
      ∧ d.ending = (if f.eccBad || ecc.bad || (f.stub.isSome && ecc.template) then .ecc else .full)
      ∧ d.start = s.startOctets ep (s.mergeOn ep && s.rd (chUnit ep) 0x5030 0 = 2 && level = 0)
      ∧ t.reg (.vtime ep c.cls) = (s.tags c (s.charge c)).1 ∧ t.reg (.finish c.queue) = (s.tags c (s.charge c)).2
      ∧ (f.committed = true → ecc.bad = false → ecc.template = false → t.frames = s.frames))
  ∧ (∀ (ep level crossing : Nat) (ecc : CellRead) (c : Copy) (f : Frame) (s : State), s.mainUp = true → s.running = true → s.asked 3 = false →
      isAir ep = true → s.asked 2 = false → s.chosen ep level = some c → s.frame? c.frame = some f → s.airFifo ep < 8192 →
      s.gateOpen ep c.cls s.time = true →
    ∃ t, exec (.txFrameStart ep level crossing ecc) s = .next t
      ∧ t.copies = s.copies.erase c ++ [{ c with state := .sending, charge := s.charge c, weight := s.weightOf c }]
      ∧ t.reg (.vtime ep c.cls) = (s.tags c (s.charge c)).1 ∧ t.reg (.finish c.queue) = (s.tags c (s.charge c)).2
      ∧ t.frames = s.frames ∧ t.tab = s.tab)

/-- TX_FRAME_END for the copy being sent on a channel whose frame has committed and has no host descriptor, whose end is good and which asks for
no timestamp, with no verify or respond mPacket waiting: the last unit on the channel is the copy's remaining octets behind its start octets
and before their FCS, the transmit frame counter is one more. With a stomped end its octets leave with a stomped FCS and that counter is as
before. AL_TX_FRAME_END on an enabled link of a copy of a frame without a host descriptor: the descriptor beat and the frame's octets
without FCS pass to the radio, with AL_TX_ERR exactly where a cell or its template could not be read, and the link's transmit frame counter
is one more. (08_transmit.md: R196, 04_receive.md: R107, 06_buffer_and_folding.md: R154, 10_air_links.md: R252, Table 10.2,
17_statistics.md: R376) -/
def Obligations.CopiesEndOnTheWire : Prop :=
  (∀ (ep : Nat) (c : Copy) (f : Frame) (s : State), s.mainUp = true → s.isChannel ep = true → s.sending ep = some c →
      s.frame? c.frame = some f → f.committed = true → f.desc = none → (∀ smd, GenFrame.mPacket ep smd ∉ s.genQ) → c.ending = .full → c.txTime = none →
    ∃ t, exec (.txFrameEnd ep) s = .next t
      ∧ t.txOut.get ep [] = s.unitStart c true ++ (s.wireOctets c).drop c.pos ++ fcsOctets (s.wireOctets c)
      ∧ t.rd (csUnit ep) 0x8010 0 = (s.rd (csUnit ep) 0x8010 0 + 1) % 2 ^ 64)
  ∧ (∀ (ep : Nat) (c : Copy) (f : Frame) (s : State), s.mainUp = true → s.isChannel ep = true → s.sending ep = some c →
      s.frame? c.frame = some f → f.committed = true → f.desc = none → (∀ smd, GenFrame.mPacket ep smd ∉ s.genQ) → c.ending = .stomped →
    ∃ t, exec (.txFrameEnd ep) s = .next t
      ∧ t.txOut.get ep [] = s.unitStart c true ++ (s.wireOctets c).drop c.pos ++ stompOctets (s.wireOctets c)
      ∧ t.rd (csUnit ep) 0x8010 0 = s.rd (csUnit ep) 0x8010 0)
  ∧ (∀ (al : Nat) (ecc : CellRead) (c : Copy) (f : Frame) (s : State), s.mainUp = true → al < 3 → s.rd (alUnit al) 0x1000 0 = 1 →
      s.sending (0x40 + al) = some c → s.frame? c.frame = some f → f.desc = none →
    ∃ t, exec (.alTxFrameEnd al ecc) s = .next t ∧ t.txOut.get (0x40 + al) [] = airBeat f c ++ f.data
      ∧ t.rd (asUnit al) 0x8010 0 = (s.rd (asUnit al) 0x8010 0 + 1) % 2 ^ 64
      ∧ t.regN (.alTxErr al) = (f.eccBad || ecc.bad || (f.stub.isSome && ecc.template)).toNat)

/-- AL_RX_FRAME out of IDLE and with no entry that has asked the air links, on an enabled air link with room in its account: with a right length
and no error a frame of the octets, padded to 60 and with an FCS, of the link's endpoint, with its key waiting, is in the device, and no
object changes; an error counts in rx_err_flag alone, a wrong length in rx_len_err alone. AL_STATE_CHANGE only holds the value for the next
boundary. AL_HOLD_EXPIRE of a link not parked: its state is parked, parks is one more, its hold stands, and every queue of it is PARKED.
AL_TX_STALL of an enabled link with a copy being sent: tx_stalls is one more, alarm 16 is latched, and only the record follows.
(10_air_links.md: R251, R252, R254, R255, Tables 10.1, 10.5, 04_receive.md: R103) -/
def Obligations.AirLinksReceiveAndPark : Prop :=
  (∀ (al : Nat) (octets : List Octet) (s : State), s.mode ≠ 2 → s.asked 2 = false → s.airOpen al octets.length = true → 14 ≤ octets.length →
      octets.length ≤ 16348 →
    ∃ t g, exec (.alRxFrame al octets.length false octets false) s = .next t ∧ g ∈ t.frames ∧ g.ing = 0x40 + al ∧ g.ended = true
      ∧ g.octets = (octets ++ List.replicate (60 - octets.length) 0) ++ fcsOctets (octets ++ List.replicate (60 - octets.length) 0)
      ∧ g.key.isSome ∧ t.keyQ = s.keyQ ++ [s.regN .nextFrame] ∧ t.obj = s.obj ∧ t.copies = s.copies)
  ∧ (∀ (al n : Nat) (octets : List Octet) (s : State), s.mode ≠ 2 → s.asked 2 = false → s.airOpen al octets.length = true →
    exec (.alRxFrame al n false octets true) s = .next (s.bump (alUnit al) 0x8000 0 1)
    ∧ (n ≠ octets.length ∨ n < 14 ∨ 16348 < n →
      exec (.alRxFrame al n false octets false) s = .next (s.bump (alUnit al) 0x8001 0 1)))
  ∧ (∀ (al v : Nat) (s : State), s.mainUp = true → al < 3 → v < 4 →
    exec (.alStateChange al v) s = .next (s.setReg (.alFiltered al) v))
  ∧ (∀ (al : Nat) (s : State), s.mainUp = true → (s.timer (.alHold al)).isSome → s.rd (alUnit al) 0x5001 0 ≠ 1 →
    ∃ t, exec (.alHoldExpire al) s = .next t ∧ t.rd (alUnit al) 0x5001 0 = 1 ∧ t.timer (.alHold al) = none
      ∧ t.rd (alUnit al) 0x8005 0 = (s.rd (alUnit al) 0x8005 0 + 1) % 2 ^ counterBits (alUnit al) 0x8005
      ∧ (∀ n ∈ s.queuesOf al, (t.qCfg n).testBit 237 = true) ∧ (∀ n, n ∉ s.queuesOf al → t.qCfg n = s.qCfg n)
      ∧ t.copies = s.copies)
  ∧ (∀ (al : Nat) (c : Copy) (s : State), s.mainUp = true → al < 3 → s.rd (alUnit al) 0x1000 0 = 1 →
      s.sending (0x40 + al) = some c →
    ∃ t, exec (.alTxStall al) s = .next t
      ∧ ((s.bump (alUnit al) 0x8004 0 1).latch (alUnit al) 16).ButEvents t)

/-- COEX_REQ_RISE of an idle requester: its state is QUIETING, its aggressor mask is sampled, and no copy of a lane it now quiets stays chosen.
COEX_GRANT while quieting with every lane of the sampled mask idle: GRANTED, the grant pin is high, grants is one more, grant_late too if
max_grant_delay has passed, nothing else differs. COEX_REQ_FALL: from QUIETING to IDLE with req_abandoned one more, from GRANTED to IDLE
with the pin low, from EXPIRED to IDLE, nothing else differs. MAX_QUIET_EXPIRE while granted: EXPIRED, the pin is low, quiet_expired is one
more, and only the interrupt and the record follow. (10_air_links.md: R257 to R259, Tables 10.3, 10.4, 10.6, 07_scheduling.md: R176) -/
def Obligations.CoexistenceQuietsAndGrants : Prop :=
  (∀ (i : Nat) (s : State), s.mainUp = true → i < 3 → s.rd 0x00F 0x5000 i = 0 →
    ∃ t, exec (.coexReqRise i) s = .next t ∧ t.rd 0x00F 0x5000 i = 1 ∧ t.regN (.coexMask i) = s.rd 0x00F 0x1000 i
      ∧ (∀ j, j ≠ i → t.rd 0x00F 0x5000 j = s.rd 0x00F 0x5000 j) ∧ t.frames = s.frames
      ∧ (∀ c ∈ t.copies, s.isChannel c.ep = true → t.quiet c.ep c.level = true → c.state ≠ .chosen))
  ∧ (∀ (i : Nat) (late : Bool) (s : State), s.mainUp = true → i < 3 → s.rd 0x00F 0x5000 i = 1 →
      (∀ l, l < s.build.lanes → (s.regN (.coexMask i)).testBit l = true → s.laneIdle l = true) →
    exec (.coexGrant i late) s = .next (if late
      then (((s.wr 0x00F 0x5000 i 2).setReg (.coexGnt i) 1).bump 0x00F 0x8000 i 1).bump 0x00F 0x8001 i 1
      else ((s.wr 0x00F 0x5000 i 2).setReg (.coexGnt i) 1).bump 0x00F 0x8000 i 1))
  ∧ (∀ (i : Nat) (s : State), s.mainUp = true → i < 3 →
    (s.rd 0x00F 0x5000 i = 1 → exec (.coexReqFall i) s = .next ((s.wr 0x00F 0x5000 i 0).bump 0x00F 0x8003 i 1))
    ∧ (s.rd 0x00F 0x5000 i = 2 → exec (.coexReqFall i) s = .next ((s.wr 0x00F 0x5000 i 0).setReg (.coexGnt i) 0))
    ∧ (s.rd 0x00F 0x5000 i = 3 → exec (.coexReqFall i) s = .next (s.wr 0x00F 0x5000 i 0)))
  ∧ (∀ (i : Nat) (s : State), s.mainUp = true → i < 3 → s.rd 0x00F 0x5000 i = 2 →
    ∃ t, exec (.maxQuietExpire i) s = .next t
      ∧ (((s.wr 0x00F 0x5000 i 3).setReg (.coexGnt i) 0).bump 0x00F 0x8002 i 1).ButEvents t)

/-- In RUN on a fabric link that is UP, not quartered, not held for class 7, not quiet, with no copy in the device: TEMPLATE_INSTALL_TX of the
install that waits for a valid send slot puts the frame of Table 6.4 behind its fabric header on the wire, install_tx is one more and the
frame waits no more; FOLD_NAK_TX of the NAK that waits puts its frame with slot, generation, sequence and reason on the wire and it waits no
more. (06_buffer_and_folding.md: R161, R163, Tables 6.4, 6.5, 13_fabric.md: Table 13.1) -/
def Obligations.FoldFramesLeave : Prop :=
  (∀ (ch slot : Nat) (sl : FoldSlot) (s : State), s.mainUp = true → s.running = true → s.asked 5 = false → s.fabricLink ch = true →
      s.heldClass ch 7 = false → s.quiet ch 2 = false → s.quartered ch = false → s.copies = [] → s.genQ = [.install ch slot] →
      s.foldSlot ch slot true = some sl → sl.header ≠ [] →
    ∃ t, exec (.templateInstallTx ch) s = .next t ∧ t.genQ = []
      ∧ t.txOut.get ch [] = List.replicate 7 0x55 ++ [0xD5] ++ (s.foldHeader 3 slot ++ installBody sl)
          ++ fcsOctets (s.foldHeader 3 slot ++ installBody sl)
      ∧ t.rd (chUnit ch) 0x8022 0 = (s.rd (chUnit ch) 0x8022 0 + 1) % 2 ^ 64)
  ∧ (∀ (ch slot gen q r : Nat) (s : State), s.mainUp = true → s.running = true → s.asked 5 = false → s.fabricLink ch = true →
      s.heldClass ch 7 = false → s.quiet ch 2 = false → s.quartered ch = false → s.copies = [] → s.genQ = [.nak ch slot gen q r] →
    ∃ t, exec (.foldNakTx ch) s = .next t ∧ t.genQ = []
      ∧ t.txOut.get ch [] = List.replicate 7 0x55 ++ [0xD5]
          ++ (s.foldHeader 4 slot ++ padBody (toMsb 1 gen ++ toMsb 1 q ++ toMsb 1 r))
          ++ fcsOctets (s.foldHeader 4 slot ++ padBody (toMsb 1 gen ++ toMsb 1 q ++ toMsb 1 r)))

/-- TABLE_UPDATE_APPLY with a free slot, no repair waiting and no access held by a queued write: the next write leaves the queue, slots taken
and update_slots are one more. A flow entry or an action has the value written. A Legend entry that may be written keeps its membership of
the current edition whatever the value says; one whose write would change what a current entry matches is as before. A Contour entry that
may be written keeps its membership of the current edition; a write that would change more of a current one than its membership of the next
is not made (R141). Every other entry is as before. (05_legend_and_contour.md: R131, R132, R138, R141, Table 5.16) -/
def Obligations.QueuedTableWritesApply : Prop :=
  ∀ (w : TableUpdate) (s : State), s.nextUpdate = some w → s.slotFree = true → s.repairQ = [] → (∀ x ∈ s.updateQ, x.held = 0) →
    ∃ t, exec .tableUpdateApply s = .next t ∧ t.updateQ = s.updateQ.erase w
      ∧ t.reg .slotsTaken = s.reg .slotsTaken + 1 ∧ t.rd 0x006 0x8004 0 = (s.rd 0x006 0x8004 0 + 1) % 2 ^ 64
      ∧ (w.addr.unit = 8 → t.ent 0x008 0x6000 w.addr.entry = w.value)
      ∧ (w.addr.unit ≠ 8 → w.addr.idx = 0x6001 → t.ent w.addr.unit 0x6001 w.addr.entry = w.value)
      ∧ (w.addr.unit = 6 → w.addr.idx ≠ 0x6001 → t.ent 0x006 0x6000 w.addr.entry =
          if s.legendForbids w.addr.entry w.value then s.ent 0x006 0x6000 w.addr.entry
          else setBit w.value 641 (legCurrent (s.ent 0x006 0x6000 w.addr.entry)))
      ∧ (w.addr.unit = 7 → w.addr.idx ≠ 0x6001 → t.ent 0x007 0x6000 w.addr.entry =
          if s.contourForbids w.addr.entry w.value then s.ent 0x007 0x6000 w.addr.entry
          else setBit w.value 1 ((s.ent 0x007 0x6000 w.addr.entry).testBit 1))
      ∧ (∀ e, e ≠ w.addr.entry → t.ent 0x006 0x6000 e = s.ent 0x006 0x6000 e ∧ t.ent 0x007 0x6000 e = s.ent 0x007 0x6000 e
        ∧ t.ent 0x008 0x6000 e = s.ent 0x008 0x6000 e)

/-- SURVEY_STEP that finds the entry equal, with a free slot within survey_rate and nothing else to do: a slot and a survey slot are taken and
survey_position is the next entry; at the last entry it is 0 and survey_passes is one more; no table entry changes. A read that differs also
queues the entry for repair, counts survey_fixed and latches alarm 16, at the finding (DEDUCED, log entry 44). SURVEY_REPAIR takes a slot
and the oldest entry that waits. In a slot that is not one of 4k + 3, or that is taken, neither does anything. FLOW_SWEEP_VISIT out of IDLE:
the position is the next entry; an entry that is VALID, not an odd way of a pair, not pinned and at least as old as age_time is removed,
with its odd way, and counted; an entry that is not VALID stays. (05_legend_and_contour.md: R139, R145, Tables 5.9, 5.16,
01_architecture.md: R32) -/
def Obligations.SurveyAndSweeperAdvance : Prop :=
  (∀ s : State, s.slotFree = true → s.repairQ = [] → s.nextUpdate = none → s.regN .surveyUsed < s.rd 0x006 0x1003 0 →
    ∃ t, exec (.surveyStep .equal) s = .next t ∧ t.reg .slotsTaken = s.reg .slotsTaken + 1 ∧ t.reg .surveyUsed = s.reg .surveyUsed + 1
      ∧ (s.rd 0x006 0x5003 0 + 1 < s.build.legendEntries → t.rd 0x006 0x5003 0 = s.rd 0x006 0x5003 0 + 1
        ∧ t.rd 0x006 0x8002 0 = s.rd 0x006 0x8002 0)
      ∧ (s.build.legendEntries ≤ s.rd 0x006 0x5003 0 + 1 → t.rd 0x006 0x5003 0 = 0
        ∧ t.rd 0x006 0x8002 0 = (s.rd 0x006 0x8002 0 + 1) % 2 ^ 64)
      ∧ t.tab = s.tab ∧ t.repairQ = [])
  ∧ (∀ s : State, s.slotFree = true → s.repairQ = [] → s.nextUpdate = none → s.regN .surveyUsed < s.rd 0x006 0x1003 0 →
    ∃ t, exec (.surveyStep .differs) s = .next t ∧ t.repairQ = [s.rd 0x006 0x5003 0]
      ∧ t.rd 0x006 0x8000 0 = (s.rd 0x006 0x8000 0 + 1) % 2 ^ 64 ∧ t.rd 0x006 0x0005 0 = setBit (s.rd 0x006 0x0005 0) 16 true)
  ∧ (∀ (i : Nat) (rest : List Nat) (s : State), s.repairQ = i :: rest → s.slotFree = true →
    exec .surveyRepair s = .next { (s.setReg .slotsTaken (s.reg .slotsTaken + 1)).setReg .slotUsed ((s.now + 1 : Nat) : Int) with
      repairQ := rest })
  ∧ (∀ (f : SurveyFinding) (s : State), s.slot % 4 ≠ 3 ∨ s.slotTaken = true →
    exec (.surveyStep f) s = .next s ∧ exec .surveyRepair s = .next s)
  ∧ (∀ (s : State), s.mainUp = true → s.mode ≠ 2 →
    ((s.ent 0x008 0x6000 (s.regN .sweep)).testBit 255 = false →
      exec .flowSweepVisit s = .next (s.setReg .sweep (((s.regN .sweep + 1) % s.build.flowEntries : Nat) : Int)))
    ∧ ((s.ent 0x008 0x6000 (s.regN .sweep)).testBit 255 = true → s.pairOdd (s.regN .sweep) = false →
      (s.ent 0x008 0x6000 (s.regN .sweep)).testBit 252 = false → s.rd 0x008 0x1000 0 ≠ 0 →
      s.rd 0x008 0x1000 0 ≤ (s.ageClock + 65536 - field (s.ent 0x008 0x6000 (s.regN .sweep)) 39 16) % 65536 →
      ∃ t, exec .flowSweepVisit s = .next t ∧ t.ent 0x008 0x6000 (s.regN .sweep) = 0
        ∧ ((s.ent 0x008 0x6000 (s.regN .sweep)).testBit 254 = true → t.ent 0x008 0x6000 (s.regN .sweep + 1) = 0)
        ∧ t.rd 0x008 0x8002 0 = (s.rd 0x008 0x8002 0 + 1) % 2 ^ 64 ∧ t.reg .sweep = (((s.regN .sweep + 1) % s.build.flowEntries : Nat) : Int)
        ∧ (∀ e, e ≠ s.regN .sweep → e ≠ s.regN .sweep + 1 → t.ent 0x008 0x6000 e = s.ent 0x008 0x6000 e)))

/-- In canonical stores (the invariant of CanonicalStoresStayCanonical) with an edition committed and agent of host kind: after EDITION_FLIP the
edition is one more modulo 65,536; every Legend entry is a member of the current edition exactly where it was one of the next, every Contour
entry likewise, and every current action equals the next one; edition_state is DRAINING where a frame of the old tag is in flight, else
STEADY; the commit has completed with OK. EDITION_DRAINED while DRAINING with no frame of the old tag in flight: edition_state is STEADY and
only the interrupt follows. (05_legend_and_contour.md: R134 to R136, Table 5.8, 01_architecture.md: R40) -/
def Obligations.EditionFlipMakesNextCurrent : Prop :=
  (∀ s : State, s.canon = true → s.mainUp = true → s.rd 0x006 0x5001 0 = 1 → (agentOf (s.regN .editionAgent)).kind = .host →
    ∃ t, exec .editionFlip s = .next t ∧ t.rd 0x006 0x5000 0 = (s.edition + 1) % 65536
      ∧ (∀ e, (t.ent 0x006 0x6000 e).testBit 641 = (s.ent 0x006 0x6000 e).testBit 640)
      ∧ (∀ e, (t.ent 0x007 0x6000 e).testBit 1 = (s.ent 0x007 0x6000 e).testBit 0)
      ∧ (∀ e, t.ent 0x006 0x6002 e = s.ent 0x006 0x6001 e) ∧ (∀ e, t.ent 0x007 0x6002 e = s.ent 0x007 0x6001 e)
      ∧ t.rd 0x006 0x5001 0 = (if 0 < s.inflight (s.edition % 2) then 2 else 0)
      ∧ t.result = ⟨agentOf (s.regN .editionAgent), some .ok, []⟩)
  ∧ (∀ s : State, s.mainUp = true → s.rd 0x006 0x5001 0 = 2 → s.inflight ((s.edition + 1) % 2) = 0 →
    ∃ t, exec .editionDrained s = .next t ∧ (s.wr 0x006 0x5001 0 0).ButEvents t)

/-- TREF_LOST while the reference is there, in CONFIGURE, RUN, IDLE or SLEEP, completes: tref_state is LOST, tref_lost is one more, alarm 16 is
latched, the length of the loss starts at 0, no frame or copy changes; with the main domain running only interrupt and record follow.
TREF_RESTORED while it is lost completes: LOCKED again and the length is 0; with the main domain running only the record follows.
PPS_IN_EDGE with the main domain running completes: pps_in_time is the counter at the pin edge (less its gain in two slots and
pps_in_filter), pps_in_count is one more, the time-out of 1.1 s runs. PPS_IN_MISSING with the time-out running completes: it stands,
pps_in_missing is one more, alarm 17 is latched, only the record follows. PPS_OUT_RISE with the output enabled and the counter come to a
whole second plus pps_out_offset since the last rise completes: the pin is high, and the pulse ends pps_out_width microseconds after that
instant; in SLEEP the counter is taken to the first edge at which it is there (log entry 79). PPS_OUT_FALL with the pin high and that end
reached, in SLEEP at the first edge that reaches it, completes: the pin is low and nothing else differs. (12_time.md: R282, R289, R290,
R291, Table 12.3) -/
def Obligations.TimeReferenceAndPps : Prop :=
  (∀ s : State, s.timeUp = true → s.rd 0x003 0x5002 0 = 0 →
    ∃ t, exec .trefLost s = .next t ∧ t.rd 0x003 0x5002 0 = 1 ∧ t.rd 0x003 0x8001 0 = (s.rd 0x003 0x8001 0 + 1) % 2 ^ 64
      ∧ t.rd 0x003 0x0005 0 = setBit (s.rd 0x003 0x0005 0) 16 true ∧ t.reg .trefTicks = 0 ∧ t.frames = s.frames ∧ t.copies = s.copies
      ∧ (s.mainUp = true →
        ((((s.wr 0x003 0x5002 0 1).bump 0x003 0x8001 0 1).latch 0x003 16).setReg .trefTicks 0).ButEvents t))
  ∧ (∀ s : State, s.timeUp = true → s.rd 0x003 0x5002 0 = 1 →
    ∃ t, exec .trefRestored s = .next t ∧ t.rd 0x003 0x5002 0 = 0 ∧ t.reg .trefTicks = 0 ∧ t.frames = s.frames ∧ t.copies = s.copies
      ∧ (s.mainUp = true → ((s.wr 0x003 0x5002 0 0).setReg .trefTicks 0).ButEvents t))
  ∧ (∀ s : State, s.mainUp = true →
    ∃ t, exec .ppsInEdge s = .next t ∧ t.timer .ppsIn = some 6875001 ∧ t.rd 0x003 0x8002 0 = (s.rd 0x003 0x8002 0 + 1) % 2 ^ 64
      ∧ t.rd 0x003 0x5003 0 = toTime80 ((s.time + timeWrap - s.gained (2 + s.rd 0x003 0x1000 0) % timeWrap) % timeWrap)
      ∧ t.time = s.time ∧ t.frames = s.frames ∧ t.copies = s.copies)
  ∧ (∀ s : State, s.mainUp = true → (s.timer .ppsIn).isSome →
    ∃ t, exec .ppsInMissing s = .next t ∧ (((s.stopTimer .ppsIn).bump 0x003 0x8003 0 1).latch 0x003 17).ButEvents t)
  ∧ (∀ s : State, s.mainUp = true → s.rd 0x003 0x1001 0 = 1 → s.ppsDue = true →
    ∃ t, exec .ppsOutRise s = .next t ∧ t.reg .ppsOut = 1 ∧ t.reg .ppsLast = s.time
      ∧ t.reg .ppsEnd = (s.elapsed : Int) - s.ppsPast + (s.rd 0x003 0x1002 0 * 1000 * nsUnit : Nat)
      ∧ t = { s with hid := t.hid } ∧ (∀ h, h ≠ .ppsOut → h ≠ .ppsLast → h ≠ .ppsEnd → t.reg h = s.reg h))
  ∧ (∀ s : State, s.mainUp = false → s.timeUp = true → s.rd 0x003 0x1001 0 = 1 → s.atPps.ppsDue = true →
    ∃ t, exec .ppsOutRise s = .next t ∧ t.reg .ppsOut = 1 ∧ t.time = s.atPps.time ∧ t.elapsed = s.atPps.elapsed ∧ t.reg .ppsLast = t.time
      ∧ t.reg .ppsEnd = (t.elapsed : Int) - s.atPps.ppsPast + (s.rd 0x003 0x1002 0 * 1000 * nsUnit : Nat) ∧ t.obj = s.obj)
  ∧ (∀ s : State, s.mainUp = true → s.regN .ppsOut = 1 → s.reg .ppsEnd ≤ s.elapsed → exec .ppsOutFall s = .next (s.setReg .ppsOut 0))
  ∧ (∀ s : State, s.mainUp = false → s.timeUp = true → s.regN .ppsOut = 1 → s.reg .ppsEnd ≤ s.atPpsEnd.elapsed →
    exec .ppsOutFall s = .next (s.atPpsEnd.setReg .ppsOut 0))

/-- TICK_BOUNDARY with the main domain running answers a state at slot 0 with no slot of the new tick taken and no survey read made; where the
main domain does not run there is no tick and nothing changes. On one device where work of each step is due the boundary does it all:
tick_count is 8 after 7, the token timer has fired, a lease with one tick left is over, a claim holds, a pause with one tick left is over,
the accepted commit is applied, the mode and the step command have taken effect, the snapshot is latched and the clear applied.
TIME_STEP_APPLY for a step to a TIME80 by a processor: the counter has that value modulo its wrap, the step is no longer waiting, valid is
1, steps and gate_resync are one more, the command has completed with OK. For an adjustment that would fall below 0: the counter stays,
alarm 3 is latched, the command keeps and returns RANGE. GATE_CT_REACHED of a pending configuration whose time the counter has reached: it
is the operational one of its endpoint and pends no more, no copy of that endpoint stays chosen whose gate is closed, the gates of the other
endpoints are as before. GATE_TRANSITION of an endpoint with a list: the copies in progress there whose gate is closed and that have not
been counted are counted in gate_overrun and marked. On a device with nothing to do, in CONFIGURE and in RUN, a boundary moves tick_count,
whatever it is, by one modulo 2^64 and leaves no frame, copy or lease. (00_scope.md: R11, 01_architecture.md: R24, R25, Table 1.3,
07_scheduling.md: R176, R180 to R183, Table 7.6, 12_time.md: R283, Table 12.3) -/
def Obligations.StepsAndGatesTakeEffect : Prop :=
  (∀ s : State,
    (s.mainUp = true → ∃ t, exec .tickBoundary s = .next t ∧ t.slot = 0 ∧ t.reg .slotsTaken = 0 ∧ t.reg .surveyUsed = 0)
    ∧ (s.mainUp = false → exec .tickBoundary s = .next s))
  ∧ (∀ (h : Agent) (w : StagedWrite) (s : State), h = ⟨.host, 0⟩ → w = ⟨.obj ⟨0x003, 0x1001, 0⟩, 1, h⟩ →
      s = { (State.quietAt 0 7).startTimer .token 1 with
        leases := [⟨0x101, h, 1⟩], claims := [⟨0x102, h⟩], holds := [((0, 8), 1)], staged := [w], commits := [⟨0x003, h, true, [w], []⟩],
        modeWait := some 1, timeStep := some (h, true, 1000), snapWait := [⟨1, 0x500, h, []⟩], clearWait := [0x500] } →
    ∃ t, exec .tickBoundary s = .next t ∧ t.rd 0x000 0x5001 0 = 8 ∧ t.rd 0x005 0x5009 0 = min 512 (s.rd 0x005 0x5009 0 + 1)
      ∧ t.timer .token = some 12500000 ∧ t.leases = [⟨0x102, h, s.leaseTicks⟩] ∧ t.claims = [] ∧ t.holdOf 0 8 = 0
      ∧ t.rd 0x003 0x1001 0 = 1 ∧ t.staged = [] ∧ t.commits = [] ∧ t.mode = 1 ∧ t.modeWait = none ∧ t.timeStep = none
      ∧ t.rd 0x003 0x5001 0 = 1 ∧ t.snapWait = [] ∧ t.rd 0x011 0x5002 1 = 8 ∧ t.clearWait = [] ∧ (t.rd 0x500 0x0005 0).testBit 16 = true)
  ∧ (∀ (a : Agent) (v : Int) (s : State), s.mainUp = true → a.kind = .host → s.timeStep = some (a, true, v) →
    ∃ t, exec .timeStepApply s = .next t ∧ t.time = ofTime80 v.toNat % timeWrap ∧ t.timeStep = none ∧ t.rd 0x003 0x5001 0 = 1
      ∧ t.rd 0x003 0x8000 0 = (s.rd 0x003 0x8000 0 + 1) % 2 ^ 64 ∧ t.rd 0x00A 0x8005 0 = (s.rd 0x00A 0x8005 0 + 1) % 2 ^ 64
      ∧ t.result = ⟨a, some .ok, []⟩ ∧ t.frames = s.frames)
  ∧ (∀ (a : Agent) (d : Int) (s : State), s.mainUp = true → a.kind = .host → s.timeStep = some (a, false, d) →
      (s.time : Int) + d * nsUnit < 0 →
    ∃ t, exec .timeStepApply s = .next t ∧ t.time = s.time ∧ t.timeStep = none ∧ t.rd 0x003 0x7001 0 = 0x0301
      ∧ t.rd 0x003 0x0005 0 = setBit (s.rd 0x003 0x0005 0) 3 true ∧ t.result = ⟨a, some .range, []⟩)
  ∧ (∀ (ep ct cfg : Nat) (l : List Nat) (s : State), s.mainUp = true → s.gatePend.find? ep = some (ct, cfg, l) → ct ≤ s.time →
    ∃ t, exec (.gateCtReached ep) s = .next t ∧ t.gateOper.get ep (0, []) = (cfg, l) ∧ t.gatePend.find? ep = none
      ∧ (∀ e, e ≠ ep → t.gateOper.find? e = s.gateOper.find? e ∧ t.gatePend.find? e = s.gatePend.find? e)
      ∧ (∀ c ∈ t.copies, c.ep = ep → t.gateOpen ep c.cls t.time = false → c.state ≠ .chosen) ∧ t.time = s.time ∧ t.frames = s.frames)
  ∧ (∀ (ep : Nat) (s : State), s.mainUp = true → (s.gateOper.find? ep).isSome →
      (∃ c ∈ s.copies, c.ep = ep ∧ c.state = .sending ∧ c.overrun = false ∧ s.gateOpen ep c.cls s.time = false) →
    ∃ t, exec (.gateTransition ep) s = .next t
      ∧ t.rd 0x00A 0x8004 0 = (s.rd 0x00A 0x8004 0 + (s.copies.filter (fun c => c.ep = ep && (c.state = .sending || c.state = .suspended)
          && !c.overrun && !s.gateOpen ep c.cls s.time)).length) % 2 ^ 64
      ∧ (∀ c ∈ t.copies, c.ep = ep → c.state = .sending → s.gateOpen ep c.cls s.time = false → c.overrun = true)
      ∧ t.rd 0x00A 0x0005 0 = setBit (s.rd 0x00A 0x0005 0) 16 true ∧ t.frames = s.frames)
  ∧ (∀ mode n : Nat, mode ≤ 1 → n < 2 ^ 64 →
    ∃ t, exec .tickBoundary (State.quietAt mode n) = .next t ∧ t.rd 0x000 0x5001 0 = (n + 1) % 2 ^ 64 ∧ t.slot = 0 ∧ t.mode = mode
      ∧ t.frames = [] ∧ t.copies = [] ∧ t.leases = [])

/-- TAIL_DOORBELL on a TQ or BQ of the build in TAIL mode, 64 bits wide: a value below 2N between T and H plus N becomes T; on a STOPPED ring
that is all (and the wake from IDLE), on a running one the port may read ahead but no frame and no copy changes; any other value leaves T
and is counted in bad_doorbell with alarm 16, its interrupt and its record. A narrow write to any ring is counted in bad_doorbell with alarm
16; a ring that the build lacks is counted in doorbell_absent by every doorbell command. CQ_HEAD_DOORBELL with a value between R and W sets
R; any other leaves R and is refused likewise (R229). A read of 8 octets at an identity word of the host window, the main domain up, gives
the block and its number of channels, the serial, or the revision 0x0102, the device leaving IDLE for it; a write of any of them changes
nothing else. That such a read is a function beside the commands is the model's choice (log entry 78). (09_rings.md: R226, R227, R229, R242,
Tables 9.8, 9.9, 16_power.md: R362, 19_object_index.md: R407, R408, Table 19.4) -/
def Obligations.DoorbellsAreCheckedAndMoveTails : Prop :=
  (∀ (kind : RingKind) (ring value : Nat) (s : State), s.mainUp = true → s.ringThere ring = true → s.rd (ringUnit kind ring) 0x4002 0 ≠ 1 →
    (value < 2 * s.ringN (ringUnit kind ring) →
      s.posDiff (ringUnit kind ring) (s.ringT (ringUnit kind ring)) (s.ringH (ringUnit kind ring))
        ≤ s.posDiff (ringUnit kind ring) value (s.ringH (ringUnit kind ring)) →
      s.posDiff (ringUnit kind ring) value (s.ringH (ringUnit kind ring)) ≤ s.ringN (ringUnit kind ring) →
      (s.ringState (ringUnit kind ring) ≠ 1 →
        exec (.tailDoorbell kind ring value true) s = .next (s.wake.wr (ringUnit kind ring) 0x5000 0 value))
      ∧ (s.ringState (ringUnit kind ring) = 1 →
        ∃ t, exec (.tailDoorbell kind ring value true) s = .next t ∧ t.rd (ringUnit kind ring) 0x5000 0 = value
          ∧ t.frames = s.frames ∧ t.copies = s.copies))
    ∧ ((2 * s.ringN (ringUnit kind ring) ≤ value ∨ s.posDiff (ringUnit kind ring) value (s.ringH (ringUnit kind ring))
          < s.posDiff (ringUnit kind ring) (s.ringT (ringUnit kind ring)) (s.ringH (ringUnit kind ring))
        ∨ s.ringN (ringUnit kind ring) < s.posDiff (ringUnit kind ring) value (s.ringH (ringUnit kind ring))) →
      ∃ t, exec (.tailDoorbell kind ring value true) s = .next t
        ∧ ((s.wake.bump (ringUnit kind ring) 0x8002 0 1).latch (ringUnit kind ring) 16).ButEvents t))
  ∧ (∀ (kind : RingKind) (ring value : Nat) (s : State), s.mainUp = true → s.ringThere ring = true →
    exec (.tailDoorbell kind ring value false) s = .next ((s.wake.bump (ringUnit kind ring) 0x8002 0 1).latch (ringUnit kind ring) 16)
    ∧ exec (.scanKnock kind ring false) s = .next ((s.wake.bump (ringUnit kind ring) 0x8002 0 1).latch (ringUnit kind ring) 16)
    ∧ exec (.cqHeadDoorbell ring value false) s = .next ((s.wake.bump (cqUnit ring) 0x8002 0 1).latch (cqUnit ring) 16))
  ∧ (∀ (kind : RingKind) (ring value : Nat) (wide : Bool) (s : State), s.mainUp = true → s.ringThere ring = false →
    exec (.tailDoorbell kind ring value wide) s = .next (s.wake.bump 0x00C 0x8004 0 1)
    ∧ exec (.scanKnock kind ring wide) s = .next (s.wake.bump 0x00C 0x8004 0 1)
    ∧ exec (.cqHeadDoorbell ring value wide) s = .next (s.wake.bump 0x00C 0x8004 0 1))
  ∧ (∀ (offset : Nat) (s : State), s.mainUp = true → 0x2000 ≤ offset → offset < 0x2600 → s.build.rings ≤ (offset - 0x2000) / 8 % 64 →
    exec (.doorbellAbsent offset) s = .next (s.wake.bump 0x00C 0x8004 0 1))
  ∧ (∀ (ring value : Nat) (s : State), s.mainUp = true → s.ringThere ring = true → value < 2 * s.ringN (cqUnit ring) →
      s.posDiff (cqUnit ring) value (s.ringH (cqUnit ring)) ≤ s.posDiff (cqUnit ring) (s.ringT (cqUnit ring)) (s.ringH (cqUnit ring)) →
      (s.ringState (cqUnit ring) ≠ 1 → exec (.cqHeadDoorbell ring value true) s = .next (s.wake.wr (cqUnit ring) 0x5001 0 value))
      ∧ (s.ringState (cqUnit ring) = 1 → ∃ t, exec (.cqHeadDoorbell ring value true) s = .next t
        ∧ t.rd (cqUnit ring) 0x5001 0 = value ∧ t.frames = s.frames ∧ t.copies = s.copies))
  ∧ (∀ (ring value : Nat) (s : State), s.mainUp = true → s.ringThere ring = true →
      2 * s.ringN (cqUnit ring) ≤ value
        ∨ s.posDiff (cqUnit ring) (s.ringT (cqUnit ring)) (s.ringH (cqUnit ring)) < s.posDiff (cqUnit ring) value (s.ringH (cqUnit ring)) →
    ∃ t, exec (.cqHeadDoorbell ring value true) s = .next t
      ∧ ((s.wake.bump (cqUnit ring) 0x8002 0 1).latch (cqUnit ring) 16).ButEvents t)
  ∧ (∀ s : State, s.mainUp = true → s.spRead 0x0010 8 = (0x0102, s.wake) ∧ s.spRead 0x0008 8 = (s.serial % 2 ^ 64, s.wake)
      ∧ s.spRead 0x0000 8 = (0x4E4F56310E400000 + 256 * s.build.channels, s.wake))
  ∧ (∀ (n value : Nat) (s : State), s.mainUp = true → n < 3 → s.spWrite (8 * n) 8 value = .next s.wake)

/-- SCAN_KNOCK on a ring in SCAN mode: on a STOPPED ring a scan is left pending; on a running ring without a scan one read of the entry at T
goes out and a scan is in progress; on one with a scan in progress another is marked. RING_SCAN_DONE of a scan in progress on a running
ring, no other marked: T has moved by the entries found ready, at most those that fit behind H, the scan has ended and no read of it is
outstanding; no frame and no copy changes. (09_rings.md: R225, R228, Table 9.8) -/
def Obligations.ScansFindReadyEntries : Prop :=
  (∀ (kind : RingKind) (ring : Nat) (s : State), s.mainUp = true → s.ringThere ring = true → s.rd (ringUnit kind ring) 0x4002 0 = 1 →
    (s.ringState (ringUnit kind ring) = 2 →
      exec (.scanKnock kind ring true) s = .next { s.wake with scans := s.scans.set (ringUnit kind ring) 1 0 })
    ∧ (s.ringState (ringUnit kind ring) = 1 → (s.scans.get (ringUnit kind ring) 0).testBit 1 = true →
      exec (.scanKnock kind ring true) s
        = .next { s.wake with scans := s.scans.set (ringUnit kind ring) (setBit (s.scans.get (ringUnit kind ring) 0) 0 true) 0 })
    ∧ (s.ringState (ringUnit kind ring) = 1 → (s.scans.get (ringUnit kind ring) 0).testBit 1 = false →
      exec (.scanKnock kind ring true) s = .next (State.mpIssue { s.wake with scans := s.scans.set (ringUnit kind ring) 2 0 } false
        (s.rd (ringUnit kind ring) 0x4000 0 + s.ringT (ringUnit kind ring) % s.ringN (ringUnit kind ring) * 32) [] (.ringScan kind ring))))
  ∧ (∀ (kind : RingKind) (ring ready : Nat) (s : State), s.mainUp = true → s.ringThere ring = true →
      s.ringState (ringUnit kind ring) = 1 → s.scans.get (ringUnit kind ring) 0 = 2 →
    ∃ t, exec (.ringScanDone kind ring ready) s = .next t
      ∧ t.rd (ringUnit kind ring) 0x5000 0 = s.advancePos (ringUnit kind ring) (s.ringT (ringUnit kind ring))
          (min ready (s.ringN (ringUnit kind ring)
            - s.posDiff (ringUnit kind ring) (s.ringT (ringUnit kind ring)) (s.ringH (ringUnit kind ring))))
      ∧ t.scans.get (ringUnit kind ring) 0 = 0 ∧ (∀ o ∈ t.mpOps, o.purpose ≠ .ringScan kind ring)
      ∧ t.frames = s.frames ∧ t.copies = s.copies)

/-- DESC_READ_DONE for the oldest descriptor read in flight of a ring; its position follows from its address. A BQ entry of the right phase that
is the one at H, with none read ahead on its ring: H passes it, and one without error is the newest buffer of the device where no entry in
error is kept. A BQ entry of the right phase that is not the one at H, with none kept that is: H stays, and the entry waits for H. A TQ
entry of the right phase and without error, with no entry in error ahead of it on its ring: it is among the entries read ahead, with its
words and position. In TAIL mode, an entry whose phase bit does not fit its position: a BQ is in FAULT and phase_err is one more where that
entry is the one at H with none read ahead; a TQ likewise where that entry is next and no frame of the ring is in progress, while the port
is not asked to stop. In SCAN mode an entry is of the right phase whatever its bit says, since the scan has examined it (DEDUCED, log entry
41). No frame and no copy changes. (09_rings.md: R225, R230, R233, R240, R245, R246, Tables 9.4, 9.5, 9.8, 9.9) -/
def Obligations.DescriptorsAreReadAndChecked : Prop :=
  (∀ (ring : Nat) (l : List Octet) (o : MpOp) (s : State), s.mainUp = true → ring < s.build.rings →
      s.mpOps.find? (fun o => o.purpose = .descRead .bq ring) = some o →
      (s.rd (bqUnit ring) 0x4002 0 ≠ 0 ∨ (entryWord l 3).testBit 63 = (s.phaseAt (bqUnit ring) (s.readPos (bqUnit ring) o.addr) = 1)) →
      s.readPos (bqUnit ring) o.addr = s.ringH (bqUnit ring) → (∀ b ∈ s.bqBuffers, b.bq = ring → b.ahead = none) →
    ∃ t, exec (.descReadDone .bq ring l) s = .next t
      ∧ t.rd (bqUnit ring) 0x5001 0 = s.advancePos (bqUnit ring) (s.ringH (bqUnit ring)) 1 ∧ t.frames = s.frames ∧ t.copies = s.copies
      ∧ (bqEntryBad (entryWord l 0) (entryWord l 1) (entryWord l 2) (entryWord l 3) = false → (∀ b ∈ s.bqBuffers, b.bad = false) →
        t.bqBuffers = s.bqBuffers ++ [⟨ring, s.readPos (bqUnit ring) o.addr, entryWord l 0, field (entryWord l 1) 48 16,
          field (entryWord l 2) 0 32, false, false, none⟩]))
  ∧ (∀ (ring : Nat) (l : List Octet) (o : MpOp) (s : State), s.mainUp = true → ring < s.build.rings →
      s.mpOps.find? (fun o => o.purpose = .descRead .bq ring) = some o →
      (s.rd (bqUnit ring) 0x4002 0 ≠ 0 ∨ (entryWord l 3).testBit 63 = (s.phaseAt (bqUnit ring) (s.readPos (bqUnit ring) o.addr) = 1)) →
      s.readPos (bqUnit ring) o.addr ≠ s.ringH (bqUnit ring) →
      (∀ b ∈ s.bqBuffers, b.bq = ring → b.ahead.isSome → b.pos ≠ s.ringH (bqUnit ring)) →
    ∃ t, exec (.descReadDone .bq ring l) s = .next t ∧ t.rd (bqUnit ring) 0x5001 0 = s.ringH (bqUnit ring) ∧ t.frames = s.frames
      ∧ t.copies = s.copies ∧ (∃ b ∈ t.bqBuffers, b.bq = ring ∧ b.pos = s.readPos (bqUnit ring) o.addr ∧ b.addr = entryWord l 0 ∧ b.ahead = some 0))
  ∧ (∀ (ring : Nat) (l : List Octet) (o : MpOp) (s : State), s.mainUp = true → ring < s.build.rings →
      s.mpOps.find? (fun o => o.purpose = .descRead .tq ring) = some o → (∀ a ∈ s.ahead, a.desc.tq = ring → a.failed = none) →
      (s.rd (tqUnit ring) 0x4002 0 ≠ 0 ∨ (entryWord l 3).testBit 63 = (s.phaseAt (tqUnit ring) (s.readPos (tqUnit ring) o.addr) = 1)) →
      tqEntryError s.build (entryWord l 1) (entryWord l 3) = none →
    ∃ t, exec (.descReadDone .tq ring l) s = .next t
      ∧ (∃ a ∈ t.ahead, a.desc = ⟨ring, s.readPos (tqUnit ring) o.addr, entryWord l 1, entryWord l 2, entryWord l 0⟩ ∧ a.failed = none)
      ∧ t.frames = s.frames ∧ t.copies = s.copies)
  ∧ (∀ (ring : Nat) (l : List Octet) (o : MpOp) (s : State), s.mainUp = true → ring < s.build.rings →
      s.mpOps.find? (fun o => o.purpose = .descRead .bq ring) = some o → s.rd (bqUnit ring) 0x4002 0 = 0 →
      (entryWord l 3).testBit 63 ≠ (s.phaseAt (bqUnit ring) (s.readPos (bqUnit ring) o.addr) = 1) →
      s.readPos (bqUnit ring) o.addr = s.ringH (bqUnit ring) → (∀ b ∈ s.bqBuffers, b.bq = ring → b.ahead = none) →
    ∃ t, exec (.descReadDone .bq ring l) s = .next t ∧ t.rd (bqUnit ring) 0x0002 0 = 4
      ∧ t.rd (bqUnit ring) 0x8005 0 = (s.rd (bqUnit ring) 0x8005 0 + 1) % 2 ^ 64 ∧ t.frames = s.frames ∧ t.copies = s.copies)
  ∧ (∀ (ring : Nat) (l : List Octet) (o : MpOp) (s : State), s.mainUp = true → ring < s.build.rings → s.asked 1 = false →
      s.mpOps.find? (fun o => o.purpose = .descRead .tq ring) = some o → s.rd (tqUnit ring) 0x4002 0 = 0 →
      (∀ a ∈ s.ahead, a.desc.tq ≠ ring) → s.startedOf ring = 0 → s.readPos (tqUnit ring) o.addr = s.nextStart ring →
      (entryWord l 3).testBit 63 ≠ (s.phaseAt (tqUnit ring) (s.readPos (tqUnit ring) o.addr) = 1) →
    ∃ t, exec (.descReadDone .tq ring l) s = .next t ∧ t.rd (tqUnit ring) 0x0002 0 = 4
      ∧ t.rd (tqUnit ring) 0x8005 0 = (s.rd (tqUnit ring) 0x8005 0 + 1) % 2 ^ 64 ∧ t.frames = s.frames ∧ t.copies = s.copies)

/-- With no operation waiting for its place: a beat or a response of a tag that no operation of its direction carries is only counted in
mp_late, and a timeout of such a tag does nothing; a beat that is not the last and has no error is added to its read and changes nothing
else; an error of an outstanding read or write, or a timeout, adds one to mp_err or mp_timeout and latches alarm 16 of the host port. The
good response to a completion of status 0 adds one frame and its length to the counts of its CQ (that a completion counts on its CQ as well
as on its TQ or BQ is DEDUCED, log entry 39). (09_rings.md: R244, R246, Tables 9.7 to 9.9, 18_integration.md: R390) -/
def Obligations.MemoryPortAnswersEndOperations : Prop :=
  (∀ (tag : Nat) (l : List Octet) (last err : Bool) (s : State), s.mainUp = true → s.mpOps.any (fun o => o.tag = mpWaiting) = false →
      s.mpOp? false tag = none →
    exec (.mpReadResponse tag l last err) s = .next (s.bump 0x00C 0x8002 0 1) ∧ exec (.mpOperationTimeout false tag) s = .next s)
  ∧ (∀ (tag : Nat) (err : Bool) (s : State), s.mainUp = true → s.mpOps.any (fun o => o.tag = mpWaiting) = false →
      s.mpOp? true tag = none →
    exec (.mpWriteResponse tag err) s = .next (s.bump 0x00C 0x8002 0 1) ∧ exec (.mpOperationTimeout true tag) s = .next s)
  ∧ (∀ (tag : Nat) (l : List Octet) (o : MpOp) (s : State), s.mainUp = true → s.mpOps.any (fun o => o.tag = mpWaiting) = false →
      s.mpOp? false tag = some o →
    exec (.mpReadResponse tag l false false) s
      = .next { s with mpOps := s.mpOps.map (fun x => if x = o then { o with octets := o.octets ++ l } else x) })
  ∧ (∀ (tag : Nat) (l : List Octet) (last : Bool) (o : MpOp) (s : State), s.mainUp = true →
      s.mpOps.any (fun o => o.tag = mpWaiting) = false → s.mpOp? false tag = some o →
    ∃ t, exec (.mpReadResponse tag l last true) s = .next t ∧ t.rd 0x00C 0x8000 0 = (s.rd 0x00C 0x8000 0 + 1) % 2 ^ 64
      ∧ t.rd 0x00C 0x0005 0 = setBit (s.rd 0x00C 0x0005 0) 16 true)
  ∧ (∀ (tag : Nat) (o : MpOp) (s : State), s.mainUp = true →
      s.mpOps.any (fun o => o.tag = mpWaiting) = false → s.mpOp? true tag = some o →
    ∃ t, exec (.mpWriteResponse tag true) s = .next t ∧ t.rd 0x00C 0x8000 0 = (s.rd 0x00C 0x8000 0 + 1) % 2 ^ 64
      ∧ t.rd 0x00C 0x0005 0 = setBit (s.rd 0x00C 0x0005 0) 16 true)
  ∧ (∀ (write : Bool) (tag : Nat) (o : MpOp) (s : State), s.mainUp = true →
      s.mpOps.any (fun o => o.tag = mpWaiting) = false → s.mpOp? write tag = some o →
    ∃ t, exec (.mpOperationTimeout write tag) s = .next t ∧ t.rd 0x00C 0x8001 0 = (s.rd 0x00C 0x8001 0 + 1) % 2 ^ 64
      ∧ t.rd 0x00C 0x0005 0 = setBit (s.rd 0x00C 0x0005 0) 16 true)
  ∧ (∀ (tag cq : Nat) (e : CqEntry) (o : MpOp) (s : State), s.mainUp = true → s.mpOps.any (fun o => o.tag = mpWaiting) = false →
      s.mpOp? true tag = some o → o.purpose = .cqWrite cq e → e.w0 % 256 = 0 →
    ∃ t, exec (.mpWriteResponse tag false) s = .next t ∧ t.rd (cqUnit cq) 0x8000 0 = (s.rd (cqUnit cq) 0x8000 0 + 1) % 2 ^ 64
      ∧ t.rd (cqUnit cq) 0x8001 0 = (s.rd (cqUnit cq) 0x8001 0 + field e.w0 16 16) % 2 ^ 64 ∧ t.frames = s.frames ∧ t.copies = s.copies)

/-- CQ_IRQ_TIMER with the timer running: the count of uncovered completions is 0 and the timer stands, but for the raise of CQ_DONE nothing else
differs. CQ_STALL_DETECT of a CQ held for want of credit with its timer running: the timer stands, the stall is marked as reported, stalls
is one more, but for the interrupt and the record nothing else differs. Each does nothing where its timer does not run. (09_rings.md: R243,
R244, Table 9.9, 14_interrupts.md: R315) -/
def Obligations.CompletionTimersAndStalls : Prop :=
  (∀ (cq : Nat) (s : State), s.mainUp = true → (s.timer (.cqIrq cq)).isSome →
    ∃ t, exec (.cqIrqTimer cq) s = .next t ∧ ((s.setReg (.cqUncovered cq) 0).stopTimer (.cqIrq cq)).ButEvents t)
  ∧ (∀ (cq : Nat) (s : State), s.mainUp = true → (s.timer (.cqStall cq)).isSome → s.cqHeld cq = true →
    ∃ t, exec (.cqStallDetect cq) s = .next t
      ∧ (((s.stopTimer (.cqStall cq)).setReg (.stallReported cq) 1).bump (cqUnit cq) 0x8009 0 1).ButEvents t)
  ∧ (∀ (cq : Nat) (s : State), s.timer (.cqIrq cq) = none → exec (.cqIrqTimer cq) s = .next s)
  ∧ (∀ (cq : Nat) (s : State), s.timer (.cqStall cq) = none → exec (.cqStallDetect cq) s = .next s)

/-- HOST_TX_FRAME in RUN, the host port not asked to stop, for the TQ in turn the payload of whose next entry is in: one frame more has been
numbered, it holds the octets that the descriptor asks for of the payload, with tags, padding, checksums and FCS; no copy changes.
BQ_BUFFER_TAKE for the BQ in turn, running, whose next buffer is large enough for the frame at its head, with no buffer of an entry in error
kept: the copy is being written into that buffer, which the device no longer keeps, with the status of an unreadable cell where one is met,
and with no error met no frame changes. (09_rings.md: R232, R237 to R241, 08_transmit.md: R200, R201, 06_buffer_and_folding.md: R154) -/
def Obligations.HostFramesStartAndAreWritten : Prop :=
  (∀ (q : Nat) (a : AheadEntry) (s : State), s.mainUp = true → s.running = true → s.asked 1 = false →
      s.tqTurnOf = some q → s.aheadNext q = some a → s.payloadDone a = true →
    ∃ t f, exec .hostTxFrame s = .next t ∧ t.reg .nextFrame = s.reg .nextFrame + 1 ∧ f ∈ t.frames ∧ f.id = s.regN .nextFrame
      ∧ f.ing = Config.hostEp ∧ f.octets = (s.hostFrame a.desc (payloadOf a)).octets ∧ f.desc = some a.desc ∧ t.copies = s.copies)
  ∧ (∀ (bq : Nat) (ecc : CellRead) (c : Copy) (f : Frame) (b : BqBuffer) (s : State), s.mainUp = true → s.bqTurnOf = some bq → s.bqHead bq = some c →
      s.frame? c.frame = some f → s.ringState (bqUnit bq) = 1 → s.nextBuffer bq = some b → f.whole.length ≤ b.size → (∀ x ∈ s.bqBuffers, x.bad = false) →
    ∃ t d, exec (.bqBufferTake bq ecc) s = .next t ∧ d ∈ t.copies ∧ d.frame = c.frame ∧ d.ep = c.ep ∧ d.state = .sending
      ∧ d.buffer = some b ∧ d.level = (if f.eccBad || ecc.bad || (f.stub.isSome && ecc.template) then 5 else 0)
      ∧ t.bqBuffers = s.bqBuffers.erase b ∧ (ecc.bad = false → ecc.template = false → t.frames = s.frames))

/-- LEASE_CLAIM on a unit of this device (a group claim of a manager at the root apart) only joins the claims of the tick. LEASE_RENEW by the
effective holder starts that lease's time again and ends with OK; by any other agent it ends with LEASE_HELD, which tells the holder and the
time left. LEASE_RELEASE by the holder of the unit's own lease ends with OK: no lease is left on the unit, and of the pending writes of the
holder there only those of a running commit are left; on a unit that no one holds it ends with OK and changes no lease; otherwise with
LEASE_HELD. LEASE_CLAIM_DECIDE with one claim of the host: a claim by the holder renews; one without conflict takes the unit and merges the
claimant's leases below it; a preferred one takes it from every conflicting holder of the other side; any other ends with LEASE_HELD and
changes no lease. LEASE_EXPIRY ends the lease on the unit. (02_object_dictionary.md: R56 to R60, R74, R409, Table 2.7) -/
def Obligations.LeasesFollowTheirTable : Prop :=
  (∀ (a : Agent) (path : List Nat) (u : Nat) (s : State), s.grants a path u 0x0012 0 [] = true →
      ¬(u = 0x00D ∧ a.kind = .manager ∧ s.role = 3) →
    ∃ t, exec (.leaseClaim a path) s = .next t ∧ t.result = ⟨a, none, []⟩ ∧ t.claims = s.claims ++ [⟨u, a⟩] ∧ t.leases = s.leases)
  ∧ (∀ (a : Agent) (path : List Nat) (u : Nat) (s : State), s.grants a path u 0x0013 0 [] = true →
      ¬(u = 0x00D ∧ a.kind = .manager ∧ s.role = 3) →
    (s.holdsLease a u = true → ∃ t, exec (.leaseRenew a path) s = .next t ∧ t.result = ⟨a, some .ok, []⟩ ∧ t.leases = (s.renew u).leases)
    ∧ (s.holdsLease a u = false → ∃ t, exec (.leaseRenew a path) s = .next t ∧ t.result = ⟨a, some .leaseHeld, s.leaseData u⟩
      ∧ t.leases = s.leases))
  ∧ (∀ (a : Agent) (path : List Nat) (u : Nat) (s : State), s.grants a path u 0x0014 0 [] = true →
      ¬(u = 0x00D ∧ a.kind = .manager ∧ s.role = 3) →
    (s.holdsLease a u = true → (s.leaseOn u).isSome = true →
      ∃ t, exec (.leaseRelease a path) s = .next t ∧ t.result = ⟨a, some .ok, []⟩ ∧ t.leases = s.leases.filter (fun x => x.unit ≠ u)
        ∧ ∀ w ∈ t.staged, w ∈ s.staged ∧ (sameAgent w.agent a = true → covers u w.target.unit = true → s.inCommit w.target = true))
    ∧ (s.holdsLease a u = false → s.conflicts a u = [] →
      ∃ t, exec (.leaseRelease a path) s = .next t ∧ t.result = ⟨a, some .ok, []⟩ ∧ t.leases = s.leases)
    ∧ (s.holdsLease a u = false → s.conflicts a u ≠ [] →
      ∃ t, exec (.leaseRelease a path) s = .next t ∧ t.result = ⟨a, some .leaseHeld, s.leaseData u⟩ ∧ t.leases = s.leases))
  ∧ (∀ (c : Claim) (s : State), s.mainUp = true → s.claims = [c] → c.agent.kind = .host →
    (s.holdsLease c.agent c.unit = true → ∃ t, exec .leaseClaimDecide s = .next t ∧ t.claims = []
      ∧ t.result = ⟨c.agent, some .ok, []⟩ ∧ t.leases = (s.renew c.unit).leases)
    ∧ (s.holdsLease c.agent c.unit = false → s.conflicts c.agent c.unit = [] →
      ∃ t, exec .leaseClaimDecide s = .next t ∧ t.claims = [] ∧ t.result = ⟨c.agent, some .ok, []⟩
        ∧ t.leases = s.leases.filter (fun l => !(covers c.unit l.unit && sameAgent l.holder c.agent)) ++ [⟨c.unit, c.agent, s.leaseTicks⟩])
    ∧ (s.holdsLease c.agent c.unit = false → s.conflicts c.agent c.unit ≠ [] → s.preferred c.agent = true →
        (∀ l ∈ s.conflicts c.agent c.unit, otherSide c.agent l.holder = true) →
      ∃ t, exec .leaseClaimDecide s = .next t ∧ t.claims = [] ∧ t.result = ⟨c.agent, some .ok, []⟩
        ∧ t.leaseOn c.unit = some ⟨c.unit, c.agent, s.leaseTicks⟩ ∧ ∀ l ∈ s.conflicts c.agent c.unit, l ∉ t.leases)
    ∧ (s.holdsLease c.agent c.unit = false → s.conflicts c.agent c.unit ≠ [] →
        (s.preferred c.agent = false ∨ ∃ l ∈ s.conflicts c.agent c.unit, otherSide c.agent l.holder = false) →
      ∃ t, exec .leaseClaimDecide s = .next t ∧ t.claims = [] ∧ t.result = ⟨c.agent, some .leaseHeld, s.leaseData c.unit⟩
        ∧ t.leases = s.leases))
  ∧ (∀ (unit : Nat) (l : Lease) (s : State), s.mainUp = true → s.leaseOn unit = some l →
    ∃ t, exec (.leaseExpiry unit) s = .next t ∧ t.leases = s.leases.filter (fun x => x.unit ≠ unit)
      ∧ ∀ w ∈ t.staged, w ∈ s.staged ∧ (sameAgent w.agent l.holder = true → covers unit w.target.unit = true → s.inCommit w.target = true))

/-- STAGED_WRITE of an RWS object (enable of the fabric with serial 0 apart), no commit running on its unit: the value is in the pending set, in
its place by write order, the value in force is as before, and the access ends with OK. COMMIT that meets no running commit: it runs on the
pending set of the subtree, CHECKING, or ACCEPTED where the set is empty (the model's choice, log entry 72), does not end yet, and its
writes stay pending until it applies (the model's reading, log entry 50); one that meets a running commit ends with BUSY. DISCARD likewise
drops the pending set or ends with BUSY. COMMIT_CHECK_DONE: a set without a fault is ACCEPTED; a set with one leaves commit_state IDLE, its
code and offender in commit_result, and runs no more. COMMIT_APPLY without an accepted commit does nothing; with accepted sets that write
only objects of root and the groups but for enable of the fabric, every object has its new value, every accepted commit ends with OK and
IDLE, and runs no more. Of a running commit the writes whose lease has merged or ended may be noted anew. (02_object_dictionary.md: R52 to
R55, R60, Table 2.5, 01_architecture.md: R25, 18_integration.md: R389) -/
def Obligations.StagedWritesTakeEffectTogether : Prop :=
  (∀ (a : Agent) (path : List Nat) (u i k : Nat) (d : List Octet) (r : ObjRow) (s : State), s.grants a path u i k d = true →
      s.lookup a u i k = .ok r → r.access = .rws → ¬(u = 0x00D ∧ i = 0x1000 ∧ ofMsb d = 1 ∧ s.serial = 0) → s.stageBusy u = false →
    ∃ t, exec (.stagedWrite a path i k d) s = .next t ∧ t.result = ⟨a, some .ok, []⟩
      ∧ t.staged = ((s.wrote a u).stage ⟨.obj ⟨u, i, k⟩, ofMsb d, a⟩).staged ∧ t.rd u i k = s.rd u i k
      ∧ t.commits.map (fun c => { c with orphans := [] }) = s.commits.map (fun c => { c with orphans := [] }))
  ∧ (∀ (a : Agent) (path : List Nat) (u : Nat) (s : State), s.grants a path u 0x0030 0 [] = true →
    (s.commits.any (fun c => overlap c.unit u) = false →
      ∃ t, exec (.commit a path) s = .next t ∧ t.result = ⟨a, none, []⟩ ∧ t.staged = s.staged
        ∧ t.rd u 0x0020 0 = (if s.pendingOf u = [] then 2 else 1)
        ∧ t.commits.map (fun c => { c with orphans := [] })
          = s.commits.map (fun c => { c with orphans := [] }) ++ [⟨u, a, (s.pendingOf u).isEmpty, s.pendingOf u, []⟩])
    ∧ (s.commits.any (fun c => overlap c.unit u) = true →
      ∃ t, exec (.commit a path) s = .next t ∧ t.result = ⟨a, some .busy, []⟩ ∧ t.staged = s.staged ∧ t.commits = s.commits))
  ∧ (∀ (a : Agent) (path : List Nat) (u : Nat) (s : State), s.grants a path u 0x0031 0 [] = true →
    (s.commits.any (fun c => overlap c.unit u) = false →
      ∃ t, exec (.discard a path) s = .next t ∧ t.result = ⟨a, some .ok, []⟩
        ∧ t.commits.map (fun c => { c with orphans := [] }) = s.commits.map (fun c => { c with orphans := [] })
        ∧ t.staged = s.staged.filter (fun w => !covers u w.target.unit))
    ∧ (s.commits.any (fun c => overlap c.unit u) = true →
      ∃ t, exec (.discard a path) s = .next t ∧ t.result = ⟨a, some .busy, []⟩ ∧ t.staged = s.staged ∧ t.commits = s.commits))
  ∧ (∀ (unit : Nat) (c : CommitOp) (s : State), s.mainUp = true → s.commits.find? (fun c => c.unit = unit && !c.accepted) = some c →
    (checkCommit (s.applyWrites s.acceptedWrites) c.writes = none →
      exec (.commitCheckDone unit) s = .next { s.wr unit 0x0020 0 2 with
        commits := s.commits.map (fun x => if x = c then { x with accepted := true } else x) })
    ∧ (∀ code x, checkCommit (s.applyWrites s.acceptedWrites) c.writes = some (code, x) →
      ∃ t, exec (.commitCheckDone unit) s = .next t ∧ t.result = ⟨c.agent, some code, []⟩ ∧ t.commits = s.commits.erase c
        ∧ t.rd unit 0x0020 0 = 0 ∧ t.rd unit 0x0020 1 = code.code ∧ t.rd unit 0x0020 2 = x.place.1 ∧ t.rd unit 0x0020 3 = x.place.2.1
        ∧ t.rd unit 0x0020 4 = x.place.2.2 ∧ t.rd unit 0x0030 0 = code.code))
  ∧ (∀ s : State, s.mainUp = true → (∀ c ∈ s.commits, c.accepted = false) → exec .commitApply s = .next s)
  ∧ (∀ s : State, s.mainUp = true → (∃ c ∈ s.commits, c.accepted = true) →
      (∀ w ∈ s.acceptedWrites, ∃ u i k, w.target = .obj ⟨u, i, k⟩ ∧ u < 0x100 ∧ ¬(u = 0x00D ∧ i = 0x1000) ∧ 0x1000 ≤ i ∧ i < 0x2000) →
    ∃ t, exec .commitApply s = .next t ∧ t.commits = s.commits.filter (fun c => !c.accepted)
      ∧ (∀ c ∈ s.commits, c.accepted = true → t.rd c.unit 0x0020 0 = 0 ∧ t.rd c.unit 0x0020 1 = 0 ∧ t.rd c.unit 0x0030 0 = 0)
      ∧ (∀ w ∈ s.acceptedWrites, ∀ u i k, w.target = .obj ⟨u, i, k⟩ → (∀ x ∈ s.acceptedWrites, x.target = w.target → x = w) →
        t.rd u i k = w.value))

/-- A dp_target write that Table 2.4 and R66 allow sets the target with offset and length 0 and dp_status OK; one they refuse ends with its code
and leaves the context. dp_offset and dp_length take a value that R66 allows; dp_offset drops a part of an entry gathered before (the
model's reading, log entry 27). A dp_data read of an allowed length returns the octets of the target from the offset, padded with zeros
beyond dp_length, and moves the context by what it returned, a gathered part then being dropped (log entry 27); nothing else changes but the
wake. A read of a table in the flash does not end yet: it waits for the NVM port, through the aperture too. A dp_data write that is refused
ends with its code and no data, also for LEASE_HELD (DESIGN CHOICE, log entry 77), held in dp_status, with ACCESS_REFUSED of 0x00E latched
(the model's reading, log entry 62); one that completes no entry gathers its octets and changes no table; one that completes one endpoint
set writes it if it is in range, otherwise ends with RANGE, dp_status holding it, the table unchanged and the context at the start of that
entry. A 64-bit access of the burst aperture reads or writes 8 octets of its processor's context in the same way; one of another width reads
zeros and sets dp_status to ALIGN. (02_object_dictionary.md: R65 to R68, Table 2.10, 15_field_book_and_monument.md: R341, R352) -/
def Obligations.DataPortMovesWholeEntries : Prop :=
  (∀ (a : Agent) (v : Nat) (s : State), v < 2 ^ 16 → s.grants a (pathTo 0x00E) 0x00E 0x4001 0 (toMsb 2 v) = true →
    (∀ u, s.dpResolve a ((s.ctx a).path.take (s.ctx a).pathLen) v = .ok u →
      ∃ t, exec (.dpTargetWrite a v) s = .next t ∧ t.result = ⟨a, some .ok, []⟩ ∧ t.ctx a = { s.ctx a with
        target := some (u, v), tIndex := v, offset := 0, length := 0, status := .ok, gather := [] })
    ∧ (∀ e, s.dpResolve a ((s.ctx a).path.take (s.ctx a).pathLen) v = .error e →
      ∃ t, exec (.dpTargetWrite a v) s = .next t ∧ t.result.code = some e ∧ t.ctx a = s.ctx a))
  ∧ (∀ (a : Agent) (v : Nat) (s : State), v < 2 ^ 32 → s.grants a (pathTo 0x00E) 0x00E 0x4002 0 (toMsb 4 v) = true →
      s.dpPlace a v (s.ctx a).length = .ok →
    ∃ t, exec (.dpOffsetWrite a v) s = .next t ∧ t.result = ⟨a, some .ok, []⟩ ∧ t.ctx a = { s.ctx a with offset := v, gather := [] })
  ∧ (∀ (a : Agent) (v : Nat) (s : State), v < 2 ^ 32 → s.grants a (pathTo 0x00E) 0x00E 0x4003 0 (toMsb 4 v) = true →
      s.dpPlace a v (s.ctx a).offset = .ok →
    ∃ t, exec (.dpLengthWrite a v) s = .next t ∧ t.result = ⟨a, some .ok, []⟩ ∧ t.ctx a = { s.ctx a with length := v })
  ∧ (∀ (a : Agent) (n u i : Nat) (s : State), s.mainUp = true → s.dpReadCheck a n = .ok → (s.ctx a).target = some (u, i) →
      s.inFlash (u, i) = false →
    exec (.dpDataRead a n) s = .next { (s.awake a).setCtx a { s.ctx a with
          offset := (s.ctx a).offset + min n (s.ctx a).length, length := (s.ctx a).length - min n (s.ctx a).length,
          gather := if min n (s.ctx a).length = 0 then (s.ctx a).gather else [] } with
      result := ⟨a, some .ok, (s.awake a).tableOctets u i ((s.awake a).tableSize (u, i)).1 (s.ctx a).offset (min n (s.ctx a).length)
        ++ List.replicate (n - min n (s.ctx a).length) 0⟩ })
  ∧ (∀ (a : Agent) (n u i : Nat) (s : State), s.mainUp = true → s.dpReadCheck a n = .ok → (s.ctx a).target = some (u, i) →
      s.inFlash (u, i) = true →
    ∃ t, exec (.dpDataRead a n) s = .next t ∧ t.result = ⟨a, none, []⟩ ∧ .read a n ∈ t.nvmQ ∧ t.ctx a = s.ctx a ∧ t.flash = s.flash)
  ∧ (∀ (a : Agent) (octets : List Octet) (c : Abort) (s : State), s.mainUp = true → (s.awake a).dpWriteCheck a false octets = c → c ≠ .ok →
    exec (.dpDataWrite a octets) s = .next { ((s.awake a).dpHold a c).latch 0x00E 3 with result := ⟨a, some c, []⟩ })
  ∧ (∀ (a : Agent) (octets : List Octet) (u i : Nat) (s : State), s.mainUp = true → (s.awake a).dpWriteCheck a false octets = .ok →
      (s.ctx a).target = some (u, i) →
      ((s.ctx a).joined (s.tableSize (u, i)).1 (min octets.length (s.ctx a).length) octets).1.length < (s.tableSize (u, i)).1 →
    ∃ t, exec (.dpDataWrite a octets) s = .next t ∧ t.result = ⟨a, some .ok, []⟩
      ∧ (∀ v j e, v ≠ 0x002 → v ≠ 0x004 → t.ent v j e = s.ent v j e) ∧ t.ctx a = { s.ctx a with
        offset := (s.ctx a).offset + min octets.length (s.ctx a).length, length := (s.ctx a).length - min octets.length (s.ctx a).length,
        gather := ((s.ctx a).joined (s.tableSize (u, i)).1 (min octets.length (s.ctx a).length) octets).1 })
  ∧ (∀ (a : Agent) (octets l : List Octet) (e : Nat) (s : State), s.mainUp = true → (s.awake a).dpWriteCheck a false octets = .ok →
      (s.ctx a).target = some (0x006, 0x6004) → (s.ctx a).joined 16 (min octets.length (s.ctx a).length) octets = (l, e) →
      l.length = 16 → e < 256 →
    (endpointSetGood s.build (ofLsb l) = true → ∃ t, exec (.dpDataWrite a octets) s = .next t ∧ t.result = ⟨a, some .ok, []⟩
      ∧ t.ent 0x006 0x6004 e = ofLsb l ∧ (∀ x, x ≠ e → t.ent 0x006 0x6004 x = s.ent 0x006 0x6004 x) ∧ t.ctx a = { s.ctx a with
        offset := (s.ctx a).offset + min octets.length (s.ctx a).length, length := (s.ctx a).length - min octets.length (s.ctx a).length,
        gather := [] })
    ∧ (endpointSetGood s.build (ofLsb l) = false → ∃ t, exec (.dpDataWrite a octets) s = .next t ∧ t.result = ⟨a, some .range, []⟩
      ∧ (∀ x, t.ent 0x006 0x6004 x = s.ent 0x006 0x6004 x) ∧ t.rd 0x00E 0x0005 0 = s.rd 0x00E 0x0005 0 ||| 8
      ∧ t.ctx a = { s.ctx a with offset := 16 * e, length := (s.ctx a).offset + (s.ctx a).length - 16 * e, gather := [], status := .range }))
  ∧ (∀ (w width word : Nat) (s : State), s.mainUp = true → w < 8 → width ≠ 64 →
    exec (.dpApertureRead w width) s
      = .next ((s.wake.dpHold (windowAgent w) .align).complete (windowAgent w) .align (List.replicate (width / 8) 0))
    ∧ exec (.dpApertureWrite w width word) s = .next ((s.wake.dpHold (windowAgent w) .align).complete (windowAgent w) .align))
  ∧ (∀ (w u i : Nat) (s : State), s.mainUp = true → w < 8 → s.dpReadCheck (windowAgent w) 8 = .ok →
      (s.ctx (windowAgent w)).target = some (u, i) → s.inFlash (u, i) = false →
    ∃ t, exec (.dpApertureRead w 64) s = .next t ∧ t.obj = s.wake.obj ∧ t.tab = s.tab
      ∧ t.result = ⟨windowAgent w, some .ok, s.wake.tableOctets u i (s.wake.tableSize (u, i)).1 (s.ctx (windowAgent w)).offset
          (min 8 (s.ctx (windowAgent w)).length) ++ List.replicate (8 - min 8 (s.ctx (windowAgent w)).length) 0⟩)
  ∧ (∀ (w u i : Nat) (s : State), s.mainUp = true → w < 8 → s.dpReadCheck (windowAgent w) 8 = .ok →
      (s.ctx (windowAgent w)).target = some (u, i) → s.inFlash (u, i) = true →
    ∃ t, exec (.dpApertureRead w 64) s = .next t ∧ t.result = ⟨windowAgent w, none, []⟩ ∧ .read (windowAgent w) 8 ∈ t.nvmQ
      ∧ t.ctx (windowAgent w) = s.ctx (windowAgent w) ∧ t.flash = s.flash)
  ∧ (∀ (w word u i : Nat) (s : State), s.mainUp = true → w < 8 → s.wake.dpWriteCheck (windowAgent w) false (toLsb 8 word) = .ok →
      (s.ctx (windowAgent w)).target = some (u, i) →
      ((s.ctx (windowAgent w)).joined (s.tableSize (u, i)).1 (min 8 (s.ctx (windowAgent w)).length) (toLsb 8 word)).1.length
        < (s.tableSize (u, i)).1 →
    ∃ t, exec (.dpApertureWrite w 64 word) s = .next t ∧ t.result = ⟨windowAgent w, some .ok, []⟩
      ∧ (t.ctx (windowAgent w)).gather
        = ((s.ctx (windowAgent w)).joined (s.tableSize (u, i)).1 (min 8 (s.ctx (windowAgent w)).length) (toLsb 8 word)).1)

/-- A whole entry written by an agent whose write passes Table 2.4 and the lease ends with OK and: a policer entry in range is held and both its
levels are at their burst sizes; a flow-queue entry that its MODE allows and that is in range is held but for RATE and BURST, which wait for
the boundary, and SERVING is computed anew; a source entry with RSVD bits 0 asks for TARGET, PRIO and MASK at the next boundary; a stream
entry with RSVD bits 0, an endpoint of the build and a key of its own is held, out of sync, with its counts 0; octets of the atlas image
within its area wait for the NVM port to be programmed, the write not ending yet. A policer entry out of range ends with RANGE and leaves
its table. (02_object_dictionary.md: R66, R67, 05_legend_and_contour.md: R148, Table 5.14, 07_scheduling.md: R175, Table 7.1,
11_guard_units.md: R268, 14_interrupts.md: R316, Table 14.2, 15_field_book_and_monument.md: R356) -/
def Obligations.TableEntriesAreWritten : Prop :=
  (∀ (a : Agent) (e : Nat) (octets : List Octet) (s : State), s.grantsEntry a 0x008 0x6001 e octets = true →
    (policerGood (ofLsb octets) = true →
      ∃ t, exec (.policerWrite a e octets) s = .next t ∧ t.result = ⟨a, some .ok, []⟩ ∧ t.ent 0x008 0x6001 e = ofLsb octets % 2 ^ 192
        ∧ t.reg (.bucketC e) = 0 ∧ t.reg (.bucketP e) = 0 ∧ (∀ x, x ≠ e → t.ent 0x008 0x6001 x = s.ent 0x008 0x6001 x))
    ∧ (policerGood (ofLsb octets) = false →
      ∃ t, exec (.policerWrite a e octets) s = .next t ∧ t.result = ⟨a, some .range, []⟩
        ∧ (∀ x, t.ent 0x008 0x6001 x = s.ent 0x008 0x6001 x)))
  ∧ (∀ (a : Agent) (q : Nat) (octets : List Octet) (s : State), s.grantsEntry a 0x00A 0x6000 q octets = true →
      s.queueForbids q (s.qCfg q) (ofLsb octets) = false → queueRange s.build (ofLsb octets) = false →
    ∃ t, exec (.queueWrite a q octets) s = .next t ∧ t.result = ⟨a, some .ok, []⟩
      ∧ t.ent 0x00A 0x6000 q = ((s.setEnt 0x00A 0x6000 q (setField (setField (ofLsb octets) 64 64 (field (s.qCfg q) 64 64)) 192 64
          (field (s.qCfg q) 192 64))).setServing q).ent 0x00A 0x6000 q
      ∧ t.rateWait = (if field (ofLsb octets) 64 64 = field (s.qCfg q) 64 64 then s.rateWait.erase q
          else s.rateWait.set q (field (ofLsb octets) 64 64) (2 ^ 64)))
  ∧ (∀ (a : Agent) (src : Nat) (octets : List Octet) (s : State), s.grantsEntry a 0x002 0x6000 src octets = true →
      field (ofLsb octets) 48 2 = 0 → field (ofLsb octets) 0 32 = 0 →
    ∃ t, exec (.sourceWrite a src octets) s = .next t ∧ t.result = ⟨a, some .ok, []⟩
      ∧ t.arbQ = s.arbQ ++ [.source src (field (ofLsb octets) 61 3) (field (ofLsb octets) 57 4) ((ofLsb octets).testBit 54)])
  ∧ (∀ (a : Agent) (n : Nat) (octets : List Octet) (s : State), s.grantsEntry a 0x00B 0x6001 n octets = true →
      field (ofLsb octets) 60 2 = 0 → field (ofLsb octets) 48 1 = 0 → field (ofLsb octets) 0 21 = 0 →
      epPresent s.build (field (ofLsb octets) 49 7) = true → ((ofLsb octets).testBit 63 = true → s.streamTwin n (ofLsb octets) = false) →
    ∃ t, exec (.streamWrite a n octets) s = .next t ∧ t.result = ⟨a, some .ok, []⟩
      ∧ t.ent 0x00B 0x6001 n = setField (setField (setBit (ofLsb octets) 62 false) 21 11 0) 64 64 0)
  ∧ (∀ (a : Agent) (octets : List Octet) (s : State), (s.ctx a).target ≠ some (0x005, 0x6002) →
      s.grantsEntry a 0x005 0x6002 0 octets = true → octets.length = 8 → s.regN .atlasBase ≠ 0 → 8 ≤ s.regN .atlasLimit →
      s.nvmOn = true →
    ∃ t, exec (.atlasImageWrite a octets) s = .next t ∧ t.result = ⟨a, none, []⟩ ∧ t.flash = s.flash
      ∧ (∃ x l, .image (some a) x l ∈ t.nvmQ ∧ octets <:+ l)
      ∧ (s.nvmQ = [] → t.nvmQ = [.image (some a) (s.regN .atlasBase - 1) octets]))

/-- SCAN_JOB_STORE and SCAN_JOB_GO of an entry that is not in use, whose fields are in range: it is held IDLE with RESULT, VALUE and DONE_OCTETS
0; at GO its source too must be in range (of a table, of an agent that holds the lease and may read it), and it is QUEUED behind the others,
while a memory or flash source out of range ends with RANGE and the entry stays. One that is QUEUED, RUNNING or owned by the device ends
with BUSY and stays. SCAN_JOB_START gives the first queued job the lowest free engine, its computation at the initial value of its POLY.
SCAN_JOB_DONE of a running memory-port job whose bursts have all come, and of a job of a table, or of the flash while the NVM port is free,
which reads the rest of its range: DONE, the CRC of its octets in VALUE, RESULT by the comparison where it is GUARDED; of one whose source
stops it: DONE with that result, DONE_OCTETS as far as it has read, counted in scan_fail too. SCAN_ABORT of a queued or running host job:
DONE with ABORTED, queued no more. Of a host job each end is counted in scan_done. How far a job of the flash or a table had read before is
free (DESIGN CHOICE, log entry 35). (11_guard_units.md: R273 to R277, Tables 11.6, 11.8) -/
def Obligations.ScanJobsRunAndEnd : Prop :=
  (∀ (a : Agent) (j : Nat) (octets : List Octet) (s : State), s.grantsEntry a 0x00B 0x6002 j octets = true →
      jobState (s.job j) ≠ 1 → jobState (s.job j) ≠ 2 → jobOwner (s.job j) = false → jobRange (ofLsb octets) = false →
    ((ofLsb octets).testBit 60 = false → ∃ t, exec (.scanJobStore a j octets) s = .next t ∧ t.result = ⟨a, some .ok, []⟩
      ∧ t.job j = setField (setField (setJob (setBit (setBit (ofLsb octets) 60 false) 61 false) 0 0 0) 34 6 0) 192 64 0 ∧ t.jobQ = s.jobQ)
    ∧ ((ofLsb octets).testBit 60 = true → jobSourceBad (ofLsb octets) (s.rd 0x005 0x5002 0) .ok = true → jobSource (ofLsb octets) ≠ 2 →
      ∃ t, exec (.scanJobGo a j octets) s = .next t ∧ t.result = ⟨a, some .range, []⟩ ∧ t.job j = s.job j ∧ t.jobQ = s.jobQ)
    ∧ ((ofLsb octets).testBit 60 = true → jobSourceBad (ofLsb octets) (s.rd 0x005 0x5002 0) .ok = false →
        (jobSource (ofLsb octets) ≠ 2 ∨ (s.holdsLease a 0x00B = true ∧ s.sourceCheck a (ofLsb octets) = .ok)) →
      ∃ t, exec (.scanJobGo a j octets) s = .next t ∧ t.result = ⟨a, some .ok, []⟩
      ∧ t.job j = setField (setField (setJob (setBit (setBit (ofLsb octets) 60 false) 61 false) 1 0 0) 34 6 0) 192 64 0
      ∧ t.jobQ = s.jobQ ++ [j]))
  ∧ (∀ (a : Agent) (j : Nat) (octets : List Octet) (s : State), s.grantsEntry a 0x00B 0x6002 j octets = true →
      (jobState (s.job j) = 1 ∨ jobState (s.job j) = 2 ∨ jobOwner (s.job j) = true) →
    ((ofLsb octets).testBit 60 = false → ∃ t, exec (.scanJobStore a j octets) s = .next t ∧ t.result = ⟨a, some .busy, []⟩ ∧ t.job j = s.job j)
    ∧ ((ofLsb octets).testBit 60 = true → ∃ t, exec (.scanJobGo a j octets) s = .next t ∧ t.result = ⟨a, some .busy, []⟩ ∧ t.job j = s.job j))
  ∧ (∀ (j n : Nat) (rest : List Nat) (s : State), s.mainUp = true → s.jobQ = j :: rest → s.freeEngine = some n →
    ∃ t, exec .scanJobStart s = .next t ∧ t.job j = setJob (s.job j) 2 0 n ∧ t.jobQ = rest
      ∧ t.reg (.jobCrc j) = ((crcOfPoly (jobPoly (s.job j))).init : Int))
  ∧ (∀ (j : Nat) (s : State), s.mainUp = true → j < 4 → jobState (s.job j) = 2 → jobSource (s.job j) = 0 → jobLeft (s.job j) = 0 →
    ∃ t, exec (.scanJobDone j .complete) s = .next t ∧ jobState (t.job j) = 3 ∧ jobValue (t.job j) = jobValue (s.job j)
      ∧ jobResult (t.job j) = (if jobGuarded (s.job j) then (if jobValue (s.job j) = jobExpected (s.job j) then 1 else 3) else 2)
      ∧ j ∉ t.jobQ ∧ (jobOwner (s.job j) = false → t.rd 0x00B 0x800D 0 = (s.rd 0x00B 0x800D 0 + 1) % 2 ^ 64))
  ∧ (∀ (j : Nat) (s : State), s.mainUp = true → j < 4 → jobSource (s.job j) ≠ 0 → s.jobReading j = true →
    ∃ t, exec (.scanJobDone j .complete) s = .next t ∧ jobState (t.job j) = 3
      ∧ jobDoneOctets (t.job j) = (jobDoneOctets (s.job j) + (s.jobOctets j (jobLeft (s.job j))).length) % 2 ^ 32
      ∧ jobValue (t.job j) = crcFinish (crcOfPoly (jobPoly (s.job j)))
          (crcRun (crcOfPoly (jobPoly (s.job j))) (s.regN (.jobCrc j)) (s.jobOctets j (jobLeft (s.job j)))) % 2 ^ 32
      ∧ jobResult (t.job j) = (if jobGuarded (s.job j) then (if jobValue (t.job j) = jobExpected (s.job j) then 1 else 3) else 2)
      ∧ j ∉ t.jobQ ∧ (jobOwner (s.job j) = false → t.rd 0x00B 0x800D 0 = (s.rd 0x00B 0x800D 0 + 1) % 2 ^ 64))
  ∧ (∀ (j result n : Nat) (s : State), s.mainUp = true → j < 4 → result ∈ failResults (jobSource (s.job j)) → s.jobReading j = true →
    ∃ t, exec (.scanJobDone j (.failed result n)) s = .next t ∧ jobState (t.job j) = 3 ∧ jobResult (t.job j) = result ∧ j ∉ t.jobQ
      ∧ jobDoneOctets (t.job j) = (jobDoneOctets (s.job j) + (s.jobOctets j n).length) % 2 ^ 32
      ∧ (jobOwner (s.job j) = false → t.rd 0x00B 0x800E 0 = (s.rd 0x00B 0x800E 0 + 1) % 2 ^ 64
        ∧ t.rd 0x00B 0x800D 0 = (s.rd 0x00B 0x800D 0 + 1) % 2 ^ 64))
  ∧ (∀ (a : Agent) (j : Nat) (s : State), j < 4 → s.grants a (pathTo 0x00B) 0x00B 0x7000 0 (toMsb 1 j) = true →
      (jobState (s.job j) = 1 ∨ jobState (s.job j) = 2) → jobOwner (s.job j) = false →
    ∃ t, exec (.scanAbort a j) s = .next t ∧ t.result = ⟨a, some .ok, []⟩ ∧ jobState (t.job j) = 3 ∧ jobResult (t.job j) = 8
      ∧ j ∉ t.jobQ ∧ t.rd 0x00B 0x800D 0 = (s.rd 0x00B 0x800D 0 + 1) % 2 ^ 64)

/-- Written to a ring of this build by an agent that may: RING_START on a STOPPED ring with no faulty entry read ahead ends with OK and the ring
is RUNNING; on a ring in FAULT it ends with MODE_FORBIDS and the ring stays so. RING_STOP ends with OK and the ring is STOPPED. RING_RESET
of a STOPPED or FAULT producer ring, or of a CQ with nothing staged whose rings are all STOPPED, ends with OK: the ring is STOPPED and its
positions are 0, and a BQ has no buffer in the device. RING_CONFIG_WRITE of an object up to ext on a STOPPED ring ends with OK and the
object has the value, every position being 0 where it is base, size_log2 or mode; on a ring that is not STOPPED it ends with MODE_FORBIDS
and the object stays. The other ring objects take their value in any state but RETAINED. No frame and no copy changes. (09_rings.md: R245,
Tables 9.8, 9.9) -/
def Obligations.RingsStartStopAndReset : Prop :=
  (∀ (a : Agent) (u : Nat) (s : State), 0x400 ≤ u → u < 0x4C0 → s.grants a (pathTo u) u 0x7000 0 [] = true →
    (s.ringState u = 2 → (∀ o ∈ s.ahead, tqUnit o.desc.tq = u → o.failed = none) → ∃ t, exec (.ringStart a u) s = .next t ∧ t.result = ⟨a, some .ok, []⟩ ∧ t.rd u 0x0002 0 = 1
      ∧ t.frames = s.frames ∧ t.copies = s.copies)
    ∧ (s.ringState u = 4 → ∃ t, exec (.ringStart a u) s = .next t ∧ t.result = ⟨a, some .modeForbids, []⟩ ∧ t.rd u 0x0002 0 = s.rd u 0x0002 0))
  ∧ (∀ (a : Agent) (u : Nat) (s : State), 0x400 ≤ u → u < 0x4C0 → s.grants a (pathTo u) u 0x7001 0 [] = true →
      (s.ringState u = 1 ∨ s.ringState u = 2 ∨ s.ringState u = 4) →
    ∃ t, exec (.ringStop a u) s = .next t ∧ t.result = ⟨a, some .ok, []⟩ ∧ t.ringState u = 2 ∧ t.frames = s.frames ∧ t.copies = s.copies)
  ∧ (∀ (a : Agent) (u : Nat) (s : State), 0x400 ≤ u → u < 0x4C0 → s.grants a (pathTo u) u 0x7002 0 [] = true →
      (s.ringState u = 2 ∨ s.ringState u = 4) →
      (0x480 ≤ u → s.stagedOf (u - 0x480) = [] ∧ ∀ n < s.build.rings,
        (s.cqOf (tqUnit n) = u - 0x480 → s.ringState (tqUnit n) = 2) ∧ (s.cqOf (bqUnit n) = u - 0x480 → s.ringState (bqUnit n) = 2)) →
    ∃ t, exec (.ringReset a u) s = .next t ∧ t.result = ⟨a, some .ok, []⟩ ∧ t.ringState u = 2 ∧ t.rd u 0x5000 0 = 0 ∧ t.rd u 0x5001 0 = 0
      ∧ t.rd u 0x5002 0 = 0 ∧ (0x440 ≤ u → u < 0x480 → ∀ b ∈ t.bqBuffers, b.bq ≠ u - 0x440) ∧ t.frames = s.frames ∧ t.copies = s.copies)
  ∧ (∀ (a : Agent) (u i : Nat) (d : List Octet) (s : State), 0x400 ≤ u → u < 0x4C0 → 0x4000 ≤ i → i < 0x5000 →
      s.grants a (pathTo u) u i 0 d = true →
    (s.ringState u = 2 → ∃ t, exec (.ringConfigWrite a u i d) s = .next t ∧ t.result = ⟨a, some .ok, []⟩ ∧ t.rd u i 0 = ofMsb d
      ∧ (i ≤ 0x4002 → t.rd u 0x5000 0 = 0 ∧ t.rd u 0x5001 0 = 0 ∧ t.rd u 0x5002 0 = 0) ∧ t.frames = s.frames ∧ t.copies = s.copies)
    ∧ (s.ringState u ≠ 2 → i ≤ 0x4004 → ∃ t, exec (.ringConfigWrite a u i d) s = .next t ∧ t.result = ⟨a, some .modeForbids, []⟩
      ∧ t.rd u i 0 = s.rd u i 0)
    ∧ (s.ringState u ≠ 3 → 0x4004 < i → ∃ t, exec (.ringConfigWrite a u i d) s = .next t ∧ t.result = ⟨a, some .ok, []⟩
      ∧ t.rd u i 0 = ofMsb d))

/-- By an agent that may: OBJECT_WRITE of an RW object of a unit whose objects have no rule of their own, or of the host port, and
INCREMENT_WRITE: the object has the value, while the counter keeps the increment in force until the next TREF_CLK edge. EQ_CONFIG_WRITE of
enable takes it; of another object of a disabled event queue takes it and sets both positions to 0; of an enabled one ends with MODE_FORBIDS
and leaves it. KEY_WRITE: the slot holds the key and its replay state starts again from the epoch; KEY_ERASE: the slot holds none. ALARM_ACK
on this device's units alone: each unit of the subtree keeps of its latched alarms those that the mask does not name. Each ends with OK; no
frame and no copy changes, and of the pending writes only those go that the merging of the caller's own leases discards (R60).
(02_object_dictionary.md: R47, R51, R70, 12_time.md: R281, 14_interrupts.md: R321, 19_object_index.md: R405) -/
def Obligations.LiveWritesAreInForceAtOnce : Prop :=
  (∀ (a : Agent) (path : List Nat) (u i k : Nat) (d : List Octet) (r : ObjRow) (kd : UnitKind) (s : State),
      s.grants a path u i k d = true → s.lookup a u i k = .ok r → r.access = .rw → unitKind? s.build u = some kd → i < 0x5000 →
      kd ∉ [.lane, .fieldbook, .tq, .bq, .cq, .eq, .dataport] →
    ∃ t, exec (.objectWrite a path i k d) s = .next t ∧ t.result = ⟨a, some .ok, []⟩ ∧ t.rd u i k = ofMsb d
      ∧ t.frames = s.frames ∧ t.copies = s.copies ∧ t.staged = (s.wrote a u).staged)
  ∧ (∀ (a : Agent) (d : List Octet) (s : State), s.grants a (pathTo 0x003) 0x003 0x4000 0 d = true →
    ∃ t, exec (.incrementWrite a d) s = .next t ∧ t.result = ⟨a, some .ok, []⟩ ∧ t.increment = ofMsb d ∧ t.pace = s.pace
      ∧ t.time = s.time ∧ t.frames = s.frames ∧ t.copies = s.copies ∧ t.staged = (s.wrote a 0x003).staged)
  ∧ (∀ (a : Agent) (q i : Nat) (d : List Octet) (s : State), q < 8 → 0x4000 ≤ i → i < 0x5000 →
      s.grants a (pathTo (eqUnit q)) (eqUnit q) i 0 d = true →
    ((i = 0x4002 ∨ s.eqOn q = false) → ∃ t, exec (.eqConfigWrite a q i d) s = .next t ∧ t.result = ⟨a, some .ok, []⟩
      ∧ t.rd (eqUnit q) i 0 = ofMsb d ∧ (i ≠ 0x4002 → t.rd (eqUnit q) 0x5000 0 = 0 ∧ t.rd (eqUnit q) 0x5001 0 = 0)
      ∧ t.frames = s.frames ∧ t.copies = s.copies ∧ t.staged = (s.wrote a (eqUnit q)).staged)
    ∧ (i ≠ 0x4002 → s.eqOn q = true → ∃ t, exec (.eqConfigWrite a q i d) s = .next t ∧ t.result = ⟨a, some .modeForbids, []⟩
      ∧ t.rd (eqUnit q) i 0 = s.rd (eqUnit q) i 0))
  ∧ (∀ (a : Agent) (slot : Nat) (key : List Octet) (s : State), s.grants a (pathTo 0x012) 0x012 0x9000 slot key = true →
    ∃ t, exec (.keyWrite a slot key) s = .next t ∧ t.result = ⟨a, some .ok, []⟩ ∧ t.keys.get slot 0 = ofMsb key
      ∧ (∀ k, k ≠ slot → t.keys.get k 0 = s.keys.get k 0) ∧ t.rd 0x012 0x5002 slot = s.bootEpoch * 2 ^ 32
      ∧ (∀ p ∈ t.replay, p.1 ≠ slot) ∧ t.frames = s.frames ∧ t.copies = s.copies ∧ t.staged = (s.wrote a 0x012).staged)
  ∧ (∀ (a : Agent) (slot : Nat) (s : State), slot < 8 → s.grants a (pathTo 0x012) 0x012 0x7000 0 (toMsb 1 slot) = true →
    ∃ t, exec (.keyErase a slot) s = .next t ∧ t.result = ⟨a, some .ok, []⟩ ∧ t.keys.get slot 0 = 0
      ∧ (∀ k, k ≠ slot → t.keys.get k 0 = s.keys.get k 0) ∧ t.frames = s.frames ∧ t.copies = s.copies
      ∧ t.staged = (s.wrote a 0x012).staged)
  ∧ (∀ (a : Agent) (path : List Nat) (u mask : Nat) (s : State), mask < 2 ^ 32 → s.grants a path u 0x0006 0 (toMsb 4 mask) = true →
      u ≠ 0x00D → (u = 0 → s.remoteMembers = []) →
    ∃ t, exec (.alarmAck a path mask) s = .next t ∧ t.result = ⟨a, some .ok, []⟩
      ∧ (∀ x ∈ subtree s.build u, t.rd x 0x0005 0 = s.rd x 0x0005 0 - (s.rd x 0x0005 0 &&& mask))
      ∧ (∀ x, x ∉ subtree s.build u → t.rd x 0x0005 0 = s.rd x 0x0005 0) ∧ t.frames = s.frames ∧ t.copies = s.copies
      ∧ t.staged = s.staged)

/-- By an agent that may: LINK_RESTART takes a lane out of DISABLED and DOWN to ACQUIRE with sync_timeout running, and does nothing to another.
EDITION_COMMIT in STEADY makes the edition ACCEPTED and does not end yet, while one is ACCEPTED ends with BUSY, otherwise with EDITION_BUSY,
counted. EDITION_DISCARD ends with BUSY while one is ACCEPTED, otherwise makes the next banks of actions equal to the current ones.
FOLD_FLUSH: no template without a stub stays valid, every other is flush-pending. TEST_RAISE of an edge source of its own in IDLE makes it
PENDING; of a cause that cannot be raised ends with RANGE. STEP_SET and ADJUST within range wait for the boundary, meet BUSY while a step
waits, and ADJUST beyond 2^40 ns ends with RANGE. (03_lanes_and_channels.md: R98, Table 3.8, 05_legend_and_contour.md: R135, R136, Table
5.8, 06_buffer_and_folding.md: R158, 07_scheduling.md: R183, 12_time.md: R283, 14_interrupts.md: R313, Table 14.3) -/
def Obligations.UnitCommandsAct : Prop :=
  (∀ (a : Agent) (lane : Nat) (s : State), s.grants a (pathTo (lnUnit lane)) (lnUnit lane) 0x7000 0 [] = true → lane < s.build.lanes →
    (2 ≤ s.link lane → s.link lane ≤ 5 → ∃ t, exec (.linkRestart a lane) s = .next t ∧ t.result = ⟨a, some .ok, []⟩ ∧ t.link lane = 2
      ∧ t.timer (.upHold lane) = none ∧ t.timer (.syncTimeout lane) = some (s.rd (lnUnit lane) 0x1007 0 * 6250)
      ∧ (∀ l, l ≠ lane → t.link l = s.link l))
    ∧ (s.link lane ≤ 1 → ∃ t, exec (.linkRestart a lane) s = .next t ∧ t.result = ⟨a, some .ok, []⟩ ∧ t.link lane = s.link lane))
  ∧ (∀ (a : Agent) (s : State), s.grants a (pathTo 0x006) 0x006 0x7001 0 [] = true →
    (s.rd 0x006 0x5001 0 = 0 → ∃ t, exec (.editionCommit a) s = .next t ∧ t.result = ⟨a, none, []⟩ ∧ t.rd 0x006 0x5001 0 = 1
      ∧ t.edition = s.edition)
    ∧ (s.rd 0x006 0x5001 0 = 1 → ∃ t, exec (.editionCommit a) s = .next t ∧ t.result = ⟨a, some .busy, []⟩ ∧ t.rd 0x006 0x5001 0 = 1)
    ∧ (2 ≤ s.rd 0x006 0x5001 0 → ∃ t, exec (.editionCommit a) s = .next t ∧ t.result = ⟨a, some .editionBusy, []⟩
      ∧ t.rd 0x006 0x8003 0 = (s.rd 0x006 0x8003 0 + 1) % 2 ^ 64))
  ∧ (∀ (a : Agent) (s : State), s.grants a (pathTo 0x006) 0x006 0x7002 0 [] = true →
    (s.rd 0x006 0x5001 0 = 1 → ∃ t, exec (.editionDiscard a) s = .next t ∧ t.result = ⟨a, some .busy, []⟩
      ∧ ∀ e, t.ent 0x006 0x6001 e = s.ent 0x006 0x6001 e)
    ∧ (s.rd 0x006 0x5001 0 ≠ 1 → s.canon = true → ∃ t, exec (.editionDiscard a) s = .next t ∧ t.result = ⟨a, some .ok, []⟩
      ∧ (∀ e, t.ent 0x006 0x6001 e = s.ent 0x006 0x6002 e) ∧ (∀ e, t.ent 0x007 0x6001 e = s.ent 0x007 0x6002 e)))
  ∧ (∀ (a : Agent) (s : State), s.grants a (pathTo 0x009) 0x009 0x7000 0 [] = true →
    ∃ t, exec (.foldFlush a) s = .next t ∧ t.result = ⟨a, some .ok, []⟩
      ∧ (∀ e, s.refCount e = 0 → tplValid (t.ent 0x009 0x6000 e) = false)
      ∧ (∀ e, s.refCount e ≠ 0 → s.ent 0x009 0x6000 e ≠ 0 → tplFlush (t.ent 0x009 0x6000 e) = true))
  ∧ (∀ (a : Agent) (cause : Nat) (s : State), cause < 2 ^ 16 → s.grants a (pathTo 0x002) 0x002 0x7000 0 (toMsb 2 cause) = true →
    (testable s.build cause = true → sharedSource s.build (sourceOf s.build cause (s.procOf (causeInst cause))) = false →
        s.srcState (sourceOf s.build cause (s.procOf (causeInst cause))) = 0 →
      ∃ t, exec (.testRaise a cause) s = .next t ∧ t.result = ⟨a, some .ok, []⟩
        ∧ t.srcState (sourceOf s.build cause (s.procOf (causeInst cause))) = 1)
    ∧ (testable s.build cause = false → ∃ t, exec (.testRaise a cause) s = .next t ∧ t.result = ⟨a, some .range, []⟩ ∧ t.tab = s.tab))
  ∧ (∀ (a : Agent) (s : State), s.grants a (pathTo 0x003) 0x003 0x7000 0 [] = true →
    (s.timeStep = none → ∃ t, exec (.stepSet a) s = .next t ∧ t.result = ⟨a, none, []⟩
      ∧ t.timeStep = some (a, true, (s.rd 0x003 0x4001 0 : Int)) ∧ t.time = s.time)
    ∧ (s.timeStep.isSome = true → ∃ t, exec (.stepSet a) s = .next t ∧ t.result = ⟨a, some .busy, []⟩ ∧ t.timeStep = s.timeStep))
  ∧ (∀ (a : Agent) (d : Int) (s : State), -2 ^ 63 ≤ d → d < 2 ^ 63 →
      s.grants a (pathTo 0x003) 0x003 0x7001 0 (toMsb 8 (unsigned 64 d)) = true →
    (d.natAbs ≤ 2 ^ 40 → s.timeStep = none → ∃ t, exec (.adjust a d) s = .next t ∧ t.result = ⟨a, none, []⟩
      ∧ t.timeStep = some (a, false, d) ∧ t.time = s.time)
    ∧ (d.natAbs ≤ 2 ^ 40 → s.timeStep.isSome = true → ∃ t, exec (.adjust a d) s = .next t ∧ t.result = ⟨a, some .busy, []⟩
      ∧ t.timeStep = s.timeStep)
    ∧ (2 ^ 40 < d.natAbs → ∃ t, exec (.adjust a d) s = .next t ∧ t.result = ⟨a, some .range, []⟩ ∧ t.timeStep = s.timeStep))

/-- A write by an agent (but for the wake that an access of the host brings) that names no unit of this device ends with NO_UNIT, a row that
Table 2.4 refuses with that code, a read-only object with READ_ONLY, and a staged object with LEASE_HELD, LENGTH or RANGE in this order; of
the machine only ACCESS_REFUSED of the unit and the result told to the sender change. TIME_NOW_READ returns the counter as a TIME80 and
keeps its fraction for sub-index 1. RX_PEAK_READ returns the peak of an account and then sets it to the occupancy. (02_object_dictionary.md:
R43, R47 to R49, R58, R74, Table 2.4, 04_receive.md: R109, 12_time.md: R280, Table 12.3) -/
def Obligations.RefusedAccessesChangeNothingElse : Prop :=
  (∀ (a : Agent) (path : List Nat) (u i k : Nat) (d : List Octet) (s : State), s.mainUp = true → s.resolvePath path = .absent u →
    exec (.objectWrite a path i k d) s = .next { (s.awake a).latch u 3 with result := ⟨a, some .noUnit, []⟩ })
  ∧ (∀ (a : Agent) (path : List Nat) (u i k : Nat) (d : List Octet) (c : Abort) (s : State), s.mainUp = true → s.resolvePath path = .here u →
      s.lookup a u i k = .error c → c ≠ .ok → c ≠ .leaseHeld →
    exec (.objectWrite a path i k d) s = .next { (s.awake a).latch u 3 with result := ⟨a, some c, []⟩ })
  ∧ (∀ (a : Agent) (path : List Nat) (u i k : Nat) (d : List Octet) (r : ObjRow) (kd : UnitKind) (s : State), s.mainUp = true →
      s.resolvePath path = .here u → s.lookup a u i k = .ok r → unitKind? s.build u = some kd → r.access = .ro →
    exec (.objectWrite a path i k d) s = .next { (s.awake a).latch u 3 with result := ⟨a, some .readOnly, []⟩ })
  ∧ (∀ (a : Agent) (path : List Nat) (u i k : Nat) (d : List Octet) (r : ObjRow) (kd : UnitKind) (s : State), s.mainUp = true →
      s.resolvePath path = .here u → s.lookup a u i k = .ok r → unitKind? s.build u = some kd → r.access = .rws → r.type ≠ .table →
    (s.leaseGood a kd u i = false →
      exec (.stagedWrite a path i k d) s = .next { (s.awake a).latch u 3 with result := ⟨a, some .leaseHeld, s.leaseData u⟩ })
    ∧ (s.leaseGood a kd u i = true → d.length ≠ r.type.writeSize →
      exec (.stagedWrite a path i k d) s = .next { (s.awake a).latch u 3 with result := ⟨a, some .length, []⟩ })
    ∧ (s.leaseGood a kd u i = true → d.length = r.type.writeSize → valueGood s.build r (ofMsb d) = false →
      exec (.stagedWrite a path i k d) s = .next { (s.awake a).latch u 3 with result := ⟨a, some .range, []⟩ }))
  ∧ (∀ (a : Agent) (s : State), s.mainUp = true →
    exec (.timeNowRead a) s = .next { (s.awake a).wr 0x003 0x5000 1 (timeFrac s.time) with
      result := ⟨a, some .ok, toMsb 10 s.time80⟩ })
  ∧ (∀ (a : Agent) (ch k : Nat) (r : ObjRow) (s : State), s.mainUp = true → s.isChannel ch = true →
      s.lookup a (chUnit ch) 0x5011 k = .ok r →
    exec (.rxPeakRead a ch k) s = .next { (s.awake a).wr (chUnit ch) 0x5011 k (s.occupancy ch k) with
      result := ⟨a, some .ok, toMsb r.type.size (s.rd (chUnit ch) 0x5011 k)⟩ })

/-- A GO written to a mailbox that is BUSY only counts in ATTEMPT, up to 0xFFFF, for both mailbox commands. An access that is not 64 bits wide
is ignored. A GO on a mailbox that is not BUSY: a path to no unit ends the request with NO_UNIT; a READ of an ordinary object of this device
ends it with OK and the value in the data words, turned by its fields; a WRITE of a staged object that may be written ends it with OK and
joins the pending set. BUSY stays, the words are held as sampled, and the end waits to be shown (that the request ends within its GO is the
model's choice, log entry 60). MAILBOX_DONE of an ended request clears BUSY, sets DONE and raises its interrupt; of any other it does
nothing. (02_object_dictionary.md: R46, R62 to R64, Tables 2.8, 2.9) -/
def Obligations.MailboxesServeOneRequest : Prop :=
  (∀ (p : Nat) (w : MbWords) (s : State), s.mainUp = true → p < 8 → (s.mailbox p).busy = true → w.cmd.testBit 0 = true →
    exec (.mailboxRead p ⟨w, true⟩) s = .next (s.wake.setMailbox p { s.mailbox p with attempt := min 0xFFFF ((s.mailbox p).attempt + 1) })
    ∧ exec (.mailboxWrite p ⟨w, true⟩) s = .next (s.wake.setMailbox p { s.mailbox p with attempt := min 0xFFFF ((s.mailbox p).attempt + 1) }))
  ∧ (∀ (p : Nat) (w : MbWords) (s : State), s.mainUp = true → p < 8 →
    exec (.mailboxRead p ⟨w, false⟩) s = .next s.wake ∧ exec (.mailboxWrite p ⟨w, false⟩) s = .next s.wake)
  ∧ (∀ (p u : Nat) (w : MbWords) (s : State), s.mainUp = true → p < 8 → (s.mailbox p).busy = false → w.cmd.testBit 0 = true →
      mbOp w = 2 → s.resolvePath ((mbPath w).getD []) = .absent u →
    ∃ t, exec (.mailboxWrite p ⟨w, true⟩) s = .next t ∧ t.mailbox p = ⟨heldWords w, true, true, false, Abort.noUnit.code, 0⟩
      ∧ t.result = ⟨⟨.host, p⟩, some .noUnit, []⟩ ∧ t.staged = s.staged ∧ t.leases = s.leases)
  ∧ (∀ (p u : Nat) (w : MbWords) (r : ObjRow) (s : State), s.mainUp = true → p < 8 → (s.mailbox p).busy = false → w.cmd.testBit 0 = true →
      mbOp w = 1 → s.resolvePath ((mbPath w).getD []) = .here u → s.lookup ⟨.host, p⟩ u (mbIndex w) (mbSub w) = .ok r →
      r.access ≠ .wo → r.type ≠ .table → forwarded u (mbIndex w) = false → u ≠ 0x00E →
    ∃ t, exec (.mailboxRead p ⟨w, true⟩) s = .next t ∧ (t.mailbox p).busy = true ∧ (t.mailbox p).ready = true ∧ (t.mailbox p).abort = 0
      ∧ (t.mailbox p).words.cmd = (heldWords w).cmd ∧ (t.mailbox p).words.pathA = (heldWords w).pathA
      ∧ (t.mailbox p).words.pathB = (heldWords w).pathB
      ∧ (t.mailbox p).words.dataA = ofLsb ((turnReply ((mbPath w).getD []) (mbIndex w) (mbSub w) true .ok
          (s.wake.busyNow.readOctets u (mbIndex w) (mbSub w) r.type)).take 8)
      ∧ t.result = ⟨⟨.host, p⟩, some .ok, s.wake.busyNow.readOctets u (mbIndex w) (mbSub w) r.type⟩)
  ∧ (∀ (p u : Nat) (w : MbWords) (r : ObjRow) (s : State), s.mainUp = true → p < 8 → (s.mailbox p).busy = false → w.cmd.testBit 0 = true →
      mbOp w = 2 → s.resolvePath ((mbPath w).getD []) = .here u →
      s.grants ⟨.host, p⟩ ((mbPath w).getD []) u (mbIndex w) (mbSub w) (turnFields (fieldsOf u (mbIndex w) (mbSub w) false) (mbData w)) = true →
      s.lookup ⟨.host, p⟩ u (mbIndex w) (mbSub w) = .ok r → r.access = .rws → s.stageBusy u = false →
      ¬(u = 0x00D ∧ mbIndex w = 0x1000) →
    ∃ t, exec (.mailboxWrite p ⟨w, true⟩) s = .next t ∧ (t.mailbox p).busy = true ∧ (t.mailbox p).ready = true ∧ (t.mailbox p).abort = 0
      ∧ t.staged = ((s.wrote ⟨.host, p⟩ u).stage ⟨.obj ⟨u, mbIndex w, mbSub w⟩, ofMsb (turnFields (fieldsOf u (mbIndex w) (mbSub w) false) (mbData w)),
          ⟨.host, p⟩⟩).staged)
  ∧ (∀ (p : Nat) (s : State), s.mainUp = true → (s.mailbox p).busy = true → (s.mailbox p).ready = true →
    ∃ t, exec (.mailboxDone p) s = .next t
      ∧ (s.setMailbox p { s.mailbox p with busy := false, ready := false, done := true }).ButEvents t)
  ∧ (∀ (p : Nat) (s : State), ((s.mailbox p).busy = false ∨ (s.mailbox p).ready = false) → exec (.mailboxDone p) s = .next s)

/-- In RUN, for an object-access frame on its channel, whichever of the three access commands brings it: a wrong version is only counted in
tag_fail, another kind than a request does nothing, a ninth one is only counted, one behind a request in execution waits. At an empty queue:
a bad TAG is counted and answered with TAG_MISMATCH, at most once in a millisecond; an EPOCH is answered with the epoch data; a sequence
that is not fresh is counted and answered with REPLAY; a READ of an ordinary object is answered with OK and its value; a WRITE of a staged
object that may be written joins the pending set and is answered with OK; both are counted in requests_ok (log entry 75). ACCESS_RESPONSE
sends the oldest response as a generated frame on its channel, bound for a fabric link on its next hop, where that is up and the internal
account has room, drops it where it is down, and counts no_route where a fabric link has none. (02_object_dictionary.md: R69 to R74, Tables
2.11, 2.12, 06_buffer_and_folding.md: R152, 13_fabric.md: R297) -/
def Obligations.FieldRequestsAreCheckedAndAnswered : Prop :=
  (∀ (ch : Nat) (frame : List Octet) (s : State), s.mainUp = true → s.running = true → s.isChannel ch = true → s.isAccess ch frame = true →
    (pduVer (pduOf frame) ≠ 1 → s.accessLeads ch frame (s.bump 0x012 0x8001 0 1))
    ∧ (pduVer (pduOf frame) = 1 → pduKind (pduOf frame) ≠ 0 → s.accessLeads ch frame s)
    ∧ (pduVer (pduOf frame) = 1 → pduKind (pduOf frame) = 0 → 8 ≤ s.accessQ.length →
      s.accessLeads ch frame (s.bump 0x012 0x8003 0 1))
    ∧ (pduVer (pduOf frame) = 1 → pduKind (pduOf frame) = 0 → s.accessQ.length < 8 → (∃ r rest, s.accessQ = r :: rest ∧ r.started = true) →
      s.accessLeads ch frame { s.busyNow with accessQ := s.accessQ ++ [⟨ch, frame, false, 0⟩] }))
  ∧ (∀ (ch : Nat) (frame : List Octet) (s : State), s.mainUp = true → s.running = true → s.isChannel ch = true → s.isAccess ch frame = true →
      pduVer (pduOf frame) = 1 → pduKind (pduOf frame) = 0 → s.accessQ = [] →
    (s.tagGood (pduOf frame) = false → s.timer (.tagRate ch) = none → s.accessLeads ch frame
      (((s.busyNow.bump 0x012 0x8001 0 1).respond ch frame .tagMismatch [] none).startTimer (.tagRate ch) 6251))
    ∧ (s.tagGood (pduOf frame) = false → (s.timer (.tagRate ch)).isSome → s.accessLeads ch frame (s.busyNow.bump 0x012 0x8001 0 1))
    ∧ (s.tagGood (pduOf frame) = true → pduOp (pduOf frame) = 3 →
      exec (.accessEpoch ch frame) s = .next (s.busyNow.respond ch frame .ok (s.epochData (pduKey (pduOf frame))) (some (s.slotKey (pduKey (pduOf frame))))))
    ∧ (s.tagGood (pduOf frame) = true → pduOp (pduOf frame) ≠ 3 → s.fresh (pduKey (pduOf frame)) (pduSeq (pduOf frame)) = false →
      s.accessLeads ch frame
        ((s.busyNow.bump 0x012 0x8002 0 1).respond ch frame .replay (s.epochData (pduKey (pduOf frame))) (some (s.slotKey (pduKey (pduOf frame)))))))
  ∧ (∀ (ch u : Nat) (frame : List Octet) (r : ObjRow) (s : State), s.mainUp = true → s.running = true → s.isChannel ch = true →
      s.isAccess ch frame = true → pduVer (pduOf frame) = 1 → pduKind (pduOf frame) = 0 → s.accessQ = [] →
      s.tagGood (pduOf frame) = true → s.fresh (pduKey (pduOf frame)) (pduSeq (pduOf frame)) = true →
      s.resolvePath (pduRequest (pduOf frame)).path = .here u → u ≠ 0x00E →
    (pduOp (pduOf frame) = 1 →
        s.lookup ⟨.manager, pduKey (pduOf frame)⟩ u (pduRequest (pduOf frame)).index (pduRequest (pduOf frame)).sub = .ok r →
        r.access ≠ .wo → r.type ≠ .table → forwarded u (pduRequest (pduOf frame)).index = false → pduLength (pduOf frame) = r.type.size →
      ∃ t, exec (.accessRead ch frame) s = .next t ∧ t.accessQ = []
        ∧ t.responses = s.responses ++ [⟨ch, s.responseFrame ch frame .ok
          (((s.busyNow.noteSeq (pduKey (pduOf frame)) (pduSeq (pduOf frame))).bump 0x012 0x8000 0 1).readOctets u (pduRequest (pduOf frame)).index
            (pduRequest (pduOf frame)).sub r.type) (some (s.slotKey (pduKey (pduOf frame))))⟩]
        ∧ s.seqHigh (pduKey (pduOf frame)) ≤ t.seqHigh (pduKey (pduOf frame)) ∧ t.rd 0x012 0x8000 0 = (s.rd 0x012 0x8000 0 + 1) % 2 ^ 64)
    ∧ (pduOp (pduOf frame) = 2 →
        s.lookup ⟨.manager, pduKey (pduOf frame)⟩ u (pduRequest (pduOf frame)).index (pduRequest (pduOf frame)).sub = .ok r →
        r.access = .rws → s.grants ⟨.manager, pduKey (pduOf frame)⟩ (pduRequest (pduOf frame)).path u (pduRequest (pduOf frame)).index
          (pduRequest (pduOf frame)).sub (pduRequest (pduOf frame)).data = true → s.stageBusy u = false →
        ¬(u = 0x00D ∧ (pduRequest (pduOf frame)).index = 0x1000) →
      ∃ t, exec (.accessWrite ch frame) s = .next t ∧ t.accessQ = []
        ∧ t.responses = s.responses ++ [⟨ch, s.responseFrame ch frame .ok [] (some (s.slotKey (pduKey (pduOf frame))))⟩]
        ∧ t.rd 0x012 0x8000 0 = (s.rd 0x012 0x8000 0 + 1) % 2 ^ 64
        ∧ t.staged = ((s.wrote ⟨.manager, pduKey (pduOf frame)⟩ u).stage ⟨.obj ⟨u, (pduRequest (pduOf frame)).index, (pduRequest (pduOf frame)).sub⟩,
            ofMsb (pduRequest (pduOf frame)).data, ⟨.manager, pduKey (pduOf frame)⟩⟩).staged))
  ∧ (∀ (r : Response) (rest : List Response) (s : State), s.mainUp = true → s.running = true → s.responses = r :: rest → s.accessQ = [] →
    (∀ tg, s.targetOf r.ch false 0 = some tg → s.chUp tg.ep = false → s.regN .requestHeld = 0 →
      exec .accessResponse s = .next { s with responses := rest })
    ∧ (s.targetOf r.ch false 0 = none → s.regN .requestHeld = 0 →
      exec .accessResponse s = .next { s.bump 0x00D 0x8003 0 1 with responses := rest })
    ∧ (∀ tg, s.targetOf r.ch false 0 = some tg → s.chUp tg.ep = true →
        s.epOccupancy Config.noEp + ceilDiv (r.octets.length + 4) 64 ≤ s.internalLimit →
      ∃ t f, exec .accessResponse s = .next t ∧ t.responses = rest ∧ f ∈ t.frames ∧ f.id = s.regN .nextFrame
        ∧ f.octets = r.octets ++ fcsOctets r.octets ∧ ∃ c ∈ t.copies, c.frame = f.id ∧ c.ep = tg.ep ∧ c.dst = tg.dst))

/-- In RUN, for a CONTROL frame on a fabric link that Table 13.2 has this member consume as its own: an unknown message is only counted, by both
relay commands; RELAY_REQ with AGENT M on a member that is not the root, or with an AGENT that does not exist, is only counted; with AGENT H
and a READ of an ordinary object it is executed as the host and yields the value; with AGENT F, from the root to a MEMBER, a WRITE of a
staged object that may be written joins the pending set. RELAY_RSP of an outstanding relay for a manager, with no group command and no
request waiting: the relay ends and its answer is queued on the manager's channel; of no relay it does nothing. ACCESS_RELAY_TIMEOUT of a
manager's relay is counted and answered with TIMEOUT; of one sent on for another member it is only forgotten; of no relay it does nothing.
(02_object_dictionary.md: R75, 13_fabric.md: R298, R308, R309, Table 13.3) -/
def Obligations.RelaysAreAnsweredOrTimeOut : Prop :=
  (∀ (ch : Nat) (frame : List Octet) (s : State), s.mainUp = true → s.running = true → s.fabricLink ch = true → s.fabFate frame = .ownControl →
    ((octet (controlOf frame) 0 = 0 ∨ 5 < octet (controlOf frame) 0) →
      exec (.relayReqRx ch frame) s = .next (s.bump 0x00D 0x8001 0 1) ∧ exec (.relayRspRx ch frame) s = .next (s.bump 0x00D 0x8001 0 1))
    ∧ (octet (controlOf frame) 0 = 4 → ((octet (controlOf frame) 6 = 2 ∧ s.role ≠ 3) ∨ 3 < octet (controlOf frame) 6) →
      exec (.relayReqRx ch frame) s = .next (s.bump 0x00D 0x800C 0 1))
    ∧ (octet (controlOf frame) 0 = 5 → (∀ r ∈ s.relays, r.tag ≠ be16 (controlOf frame) 4) → exec (.relayRspRx ch frame) s = .next s))
  ∧ (∀ (ch u : Nat) (frame : List Octet) (q : Request) (r : ObjRow) (s : State), s.mainUp = true → s.running = true →
      s.fabricLink ch = true → s.fabFate frame = .ownControl → octet (controlOf frame) 0 = 4 →
      q = pduRequest (relayPdu (controlOf frame)) → s.resolvePath q.path = .here u → u ≠ 0x00E →
    (octet (controlOf frame) 6 = 1 → pduOp (relayPdu (controlOf frame)) = 1 → s.lookup ⟨.host, 0⟩ u q.index q.sub = .ok r →
        r.access ≠ .wo → r.type ≠ .table → forwarded u q.index = false →
      ∃ t, exec (.relayReqRx ch frame) s = .next t ∧ t.result = ⟨⟨.host, 0⟩, some .ok, s.readOctets u q.index q.sub r.type⟩)
    ∧ (octet (controlOf frame) 6 = 3 → pduOp (relayPdu (controlOf frame)) = 2 → s.role = 2 → fabSrc frame = s.rd 0x00D 0x5004 0 →
        s.lookup ⟨.fabric, octet (controlOf frame) 7 % 8⟩ u q.index q.sub = .ok r → r.access = .rws →
        s.grants ⟨.fabric, octet (controlOf frame) 7 % 8⟩ q.path u q.index q.sub q.data = true → s.stageBusy u = false →
        ¬(u = 0x00D ∧ q.index = 0x1000) →
      ∃ t, exec (.relayReqRx ch frame) s = .next t ∧ t.result = ⟨⟨.fabric, octet (controlOf frame) 7 % 8⟩, some .ok, []⟩
        ∧ t.staged = ((s.wrote ⟨.fabric, octet (controlOf frame) 7 % 8⟩ u).stage ⟨.obj ⟨u, q.index, q.sub⟩, ofMsb q.data, ⟨.fabric, octet (controlOf frame) 7 % 8⟩⟩).staged))
  ∧ (∀ (ch ch' key : Nat) (frame frame' : List Octet) (tag : Nat) (s : State), s.mainUp = true → s.running = true → s.fabricLink ch = true →
      s.fabFate frame = .ownControl → octet (controlOf frame) 0 = 5 → s.groupCmds = [] → s.accessQ = [] →
      s.relays.find? (fun r => r.tag = be16 (controlOf frame) 4) = some ⟨tag, .manager ch' frame' key⟩ →
    exec (.relayRspRx ch frame) s = .next (State.respond { s with relays := s.relays.erase ⟨tag, .manager ch' frame' key⟩ } ch' frame'
      (Abort.ofCode (be16 (relayPdu (controlOf frame)) 18))
      (((relayPdu (controlOf frame)).drop 36).take (pduLength (relayPdu (controlOf frame)))) (some key)))
  ∧ (∀ (tag ch key : Nat) (frame : List Octet) (s : State), s.mainUp = true → s.groupCmds = [] → s.accessQ = [] →
      s.relays.find? (fun r => r.tag = tag) = some ⟨tag, .manager ch frame key⟩ →
    exec (.accessRelayTimeout tag) s = .next (State.respond { s.bump 0x012 0x8004 0 1 with
      relays := s.relays.erase ⟨tag, .manager ch frame key⟩ } ch frame .timeout [] (some key)))
  ∧ (∀ (tag id ftag : Nat) (pdu : List Octet) (s : State), s.mainUp = true →
      s.relays.find? (fun r => r.tag = tag) = some ⟨tag, .member id ftag pdu⟩ →
    exec (.accessRelayTimeout tag) s = .next { s with relays := s.relays.erase ⟨tag, .member id ftag pdu⟩ })
  ∧ (∀ (tag : Nat) (s : State), (∀ r ∈ s.relays, r.tag ≠ tag) → exec (.accessRelayTimeout tag) s = .next s)

/-- HELLO_RX in RUN on a fabric link from a serial not known there: the neighbour is INIT, or TWO_WAY where the HELLO names this device, its
serial is recorded, its dead timer runs for 21,875 boundaries after this tick; HELLO_RX, LSA_RX and ASSIGN_RX of an unknown message only
count it. DEAD_TIMER_EXPIRE: the neighbour is DOWN; from TWO_WAY, neighbour_down is one more. HELLO_TIMER: the timer runs for 6,250 ticks;
with one fabric link and room in the internal account a HELLO with this device's body is made. LSA_RX: a first or newer LSA of another
device replaces the one of its origin and its age runs; where one other lane is TWO_WAY and its link has room, it is sent there; an older
one does nothing; one of the own serial with the own or a newer sequence brings the own LSA under the next sequence. LSA_REFRESH brings the
own LSA under the next sequence, sent on the one TWO_WAY lane where its link has room. LSA_AGE_OUT removes the LSAs of its origin and its
timer. (13_fabric.md: R301 to R303, Tables 13.3, 13.4, 13.7) -/
def Obligations.HellosMakeAndLoseNeighbours : Prop :=
  (∀ (ch : Nat) (frame : List Octet) (s : State), s.mainUp = true → s.running = true → s.fabricLink ch = true → fabType frame = 2 →
      fabDst frame = 0 → (octet (controlOf frame) 0 = 0 ∨ 5 < octet (controlOf frame) 0) →
    exec (.helloRx ch frame) s = .next (s.bump 0x00D 0x8001 0 1) ∧ exec (.lsaRx ch frame) s = .next (s.bump 0x00D 0x8001 0 1)
    ∧ exec (.assignRx ch frame) s = .next (s.bump 0x00D 0x8001 0 1))
  ∧ (∀ (ch : Nat) (frame : List Octet) (s : State), s.mainUp = true → s.running = true → s.fabricLink ch = true → fabType frame = 2 →
      fabDst frame = 0 → octet (controlOf frame) 0 = 1 → s.nbState (laneOf ch) = 0 →
    ∃ t, exec (.helloRx ch frame) s = .next t
      ∧ t.nbState (laneOf ch) = (if beN (controlOf frame) 24 8 = s.serial then 2 else 1)
      ∧ t.nbSerial (laneOf ch) = beN (controlOf frame) 4 8 ∧ t.timer (.dead (laneOf ch)) = some 21875)
  ∧ (∀ (lane : Nat) (s : State), s.mainUp = true → (s.timer (.dead lane)).isSome → s.nbState lane ≠ 0 →
    ∃ t, exec (.deadTimerExpire lane) s = .next t ∧ t.nbState lane = 0
      ∧ (s.nbState lane = 2 → t.rd 0x00D 0x8008 0 = (s.rd 0x00D 0x8008 0 + 1) % 2 ^ 64))
  ∧ (∀ s : State, s.mainUp = true → (s.timer .hello).isSome →
    (s.fabricLanes = [] → exec .helloTimer s = .next (s.wake.startTimer .hello 6250))
    ∧ (∀ lane, s.fabricLanes = [lane] → s.running = true → s.epOccupancy Config.noEp + 1 ≤ s.internalLimit →
      ∃ t f, exec .helloTimer s = .next t ∧ t.timer .hello = some 6250 ∧ f ∈ t.frames ∧ f.id = s.regN .nextFrame
        ∧ (f.octets.drop 12).take (s.helloBody lane).length = s.helloBody lane))
  ∧ (∀ (ch : Nat) (frame : List Octet) (l : Lsa) (s : State), s.mainUp = true → s.running = true → s.fabricLink ch = true →
      fabType frame = 2 → fabDst frame = 0 → octet (controlOf frame) 0 = 2 → l = parseLsa (controlOf frame) →
    (l.origin ≠ s.serial → (∀ x ∈ s.lsas, x.origin = l.origin → newer32 l.seq x.seq = true) →
      ∃ t, exec (.lsaRx ch frame) s = .next t ∧ t.lsas = s.lsas.filter (fun x => x.origin ≠ l.origin) ++ [l]
        ∧ t.timer (.lsaAge l.origin) = some 18750000)
    ∧ (∀ lane, l.origin ≠ s.serial → (∀ x ∈ s.lsas, x.origin = l.origin → newer32 l.seq x.seq = true) →
        s.twoWay.filter (fun x => some x ≠ some (laneOf ch)) = [lane] → s.fabricLink (4 * lane) = true →
        s.epOccupancy Config.noEp + 4 ≤ s.internalLimit →
      ∃ t f, exec (.lsaRx ch frame) s = .next t ∧ f ∈ t.frames ∧ f.id = s.regN .nextFrame
        ∧ (f.octets.drop 12).take (lsaBody l).length = lsaBody l ∧ ∃ c ∈ t.copies, c.frame = f.id ∧ c.ep = 4 * lane)
    ∧ (l.origin ≠ s.serial → (∃ x, s.lsas.find? (fun x => x.origin = l.origin) = some x ∧ newer32 l.seq x.seq = false) →
      exec (.lsaRx ch frame) s = .next s)
    ∧ (l.origin = s.serial → (l.seq = s.regN .lsaSeq ∨ newer32 l.seq (s.regN .lsaSeq) = true) →
      ∃ t, exec (.lsaRx ch frame) s = .next t ∧ t.reg .lsaSeq = ((l.seq + 1) % 2 ^ 32 : Nat)))
  ∧ (∀ s : State, s.mainUp = true → s.fabricOn = true → (s.timer .lsaRefresh).isSome →
    ∃ t, exec .lsaRefresh s = .next t ∧ t.reg .lsaSeq = ((s.regN .lsaSeq + 1) % 2 ^ 32 : Nat) ∧ t.timer .lsaRefresh = some 6250000
      ∧ ∃ l ∈ t.lsas, l.origin = s.serial ∧ l.seq = (s.regN .lsaSeq + 1) % 2 ^ 32)
  ∧ (∀ (lane : Nat) (s : State), s.mainUp = true → s.running = true → s.fabricOn = true → (s.timer .lsaRefresh).isSome → s.twoWay = [lane] →
      s.fabricLink (4 * lane) = true → s.epOccupancy Config.noEp + 4 ≤ s.internalLimit →
    ∃ t f, exec .lsaRefresh s = .next t ∧ f ∈ t.frames ∧ f.id = s.regN .nextFrame
      ∧ (f.octets.drop 12).take (lsaBody (s.buildLsa ((s.regN .lsaSeq + 1) % 2 ^ 32))).length
        = lsaBody (s.buildLsa ((s.regN .lsaSeq + 1) % 2 ^ 32))
      ∧ ∃ c ∈ t.copies, c.frame = f.id ∧ c.ep = 4 * lane)
  ∧ (∀ (origin : Nat) (s : State), s.mainUp = true → (s.timer (.lsaAge origin)).isSome →
    exec (.lsaAgeOut origin) s = .next { s.wake.stopTimer (.lsaAge origin) with lsas := s.lsas.filter (fun l => l.origin ≠ origin) })

/-- ROUTE_COMPUTE on a device that is not the root, with the fabric enabled or not, and whose root, if it is a MEMBER, is reachable: every
assigned ID that is the only entry of that ID has the route entry of its serial, every ID not assigned has none. ASSIGN_RX on a MEMBER of a
whole table in one chunk from its root, newer than the one in force or the first: the table, its generation, its sequence and the own ID are
in force together; a first chunk that is not the last is only gathered; a root ignores it. ASSIGN_REFRESH at the root: the timer runs for
6,250,000 ticks, the table stays, and is the latest held; a table of one chunk is sent on the one TWO_WAY lane where its link has room.
DUPLICATE_RENUMBER: the timer stands; where the root still has the conflict, renumbers is one more and the table's sequence has gone on by
one; elsewhere nothing else differs. (13_fabric.md: R304 to R307, Tables 13.3, 13.8, 13.9) -/
def Obligations.RoutesAndIdsFollowTheRoot : Prop :=
  (∀ s : State, s.mainUp = true → s.role ≠ 3 → (s.role = 2 → s.reachable s.rootSerial = true) →
    ∃ t, exec .routeCompute s = .next t
      ∧ (∀ a ∈ s.assigns, a.id ≠ 0 → a.duplicate = false → (∀ b ∈ s.assigns, b.id = a.id → b = a) →
        t.ent 0x00D 0x6001 a.id = s.routeEntry (s.ownLinks.map (fun l => (l, s.distFrom l.2.1))) a.serial)
      ∧ (∀ id, (∀ a ∈ s.assigns, a.id = id → a.id = 0 ∨ a.duplicate = true) → t.ent 0x00D 0x6001 id = 0)
      ∧ t.assigns = s.assigns ∧ t.role = s.role)
  ∧ (∀ (ch : Nat) (frame : List Octet) (s : State), s.mainUp = true → s.running = true → s.fabricLink ch = true → fabType frame = 2 →
      fabDst frame = 0 → octet (controlOf frame) 0 = 3 →
    (s.role = 2 → octet (controlOf frame) 13 = 128 → beN (controlOf frame) 4 8 = s.rootSerial →
        (s.assigns = [] ∨ newer32 (beN (controlOf frame) 14 4) (s.rd 0x00D 0x5006 0) = true) →
      ∃ t, exec (.assignRx ch frame) s = .next t ∧ t.assigns = parseAssigns (controlOf frame)
        ∧ t.rd 0x00D 0x5005 0 = be16 (controlOf frame) 18 ∧ t.rd 0x00D 0x5006 0 = beN (controlOf frame) 14 4
        ∧ t.ownId = idIn (parseAssigns (controlOf frame)) s.serial
        ∧ t.rd 0x00D 0x5004 0 = idIn (parseAssigns (controlOf frame)) s.rootSerial)
    ∧ (s.role = 1 ∨ s.role = 2 → octet (controlOf frame) 13 = 0 →
      exec (.assignRx ch frame) s = .next { s with assignBuf := some ⟨beN (controlOf frame) 4 8, octet (controlOf frame) 12,
        beN (controlOf frame) 14 4, be16 (controlOf frame) 18, 1, parseAssigns (controlOf frame)⟩ })
    ∧ (s.role = 3 → exec (.assignRx ch frame) s = .next s))
  ∧ (∀ s : State, s.mainUp = true → s.role = 3 → (s.timer .assignRefresh).isSome →
    ∃ t, exec .assignRefresh s = .next t ∧ t.timer .assignRefresh = some 6250000 ∧ t.assigns = s.assigns
      ∧ t.assignHeld = some (s.tableInForce s.serial s.ownPrio) ∧ t.role = 3)
  ∧ (∀ (lane : Nat) (b : List Octet) (s : State), s.mainUp = true → s.running = true → s.role = 3 → (s.timer .assignRefresh).isSome →
      s.twoWay = [lane] → s.fabricLink (4 * lane) = true → assignChunks (s.tableInForce s.serial s.ownPrio) 4 0 s.assigns = [b] →
      s.epOccupancy Config.noEp + 11 ≤ s.internalLimit →
    ∃ t f, exec .assignRefresh s = .next t ∧ f ∈ t.frames ∧ f.id = s.regN .nextFrame ∧ (f.octets.drop 12).take b.length = b
      ∧ ∃ c ∈ t.copies, c.frame = f.id ∧ c.ep = 4 * lane)
  ∧ (∀ (serial : Nat) (s : State), s.mainUp = true → (s.timer (.duplicate serial)).isSome →
    ((s.role ≠ 3 ∨ s.assigns.any (fun a => a.serial = serial && a.duplicate) = false) →
      exec (.duplicateRenumber serial) s = .next (s.wake.stopTimer (.duplicate serial)))
    ∧ (s.role = 3 → s.assigns.any (fun a => a.serial = serial && a.duplicate) = true →
      ∃ t, exec (.duplicateRenumber serial) s = .next t ∧ t.rd 0x00D 0x800B 0 = (s.rd 0x00D 0x800B 0 + 1) % 2 ^ 64
        ∧ t.rd 0x00D 0x5006 0 = (s.rd 0x00D 0x5006 0 + 1) % 2 ^ 32))

/-- EVENT_DELIVERY to processor p with no record to write again: with its queue disabled, or no candidate, nothing changes; with a full queue
the candidate is held, and the boundary counted once; else the candidate's record takes the position at W, W goes on by one, the source
stands on the processor's stack with its priority; a source of its own is ACTIVE, a shared one loses the latch delivered. While records are
written again the same count is made, and no other record is delivered. A COMPLETE word of another width than 64 bits, or with a RSVD bit,
is a stray without a record (the model's reading, log entry 52), whichever of the two commands brings it. With HEAD_VALID alone a good head
becomes R and a bad one is only counted; IRQ_NE is low where R has come to W. With SRC_VALID alone the source leaves the stack and is IDLE,
or PENDING with its count where it was ACTIVE_PENDING; one that is not on the stack is a stray with a record. A control word keeps MASK_SRC
and MASK_VAL; with MASK_WR, THR_WR or both the changes wait for the arbiter in this order; another width is a stray. A word for which the
arbiter has no room, or which comes behind one of its block that is held off, is held off (DESIGN CHOICE, log entry 91). (14_interrupts.md:
R315, R319 to R325, Tables 14.3, 14.5, 14.7) -/
def Obligations.EventQueuesDeliverAndComplete : Prop :=
  (∀ (p : Nat) (s : State), s.mainUp = true → p < 8 → s.regN (.eqWrite p) = 1 → s.eqHeld p = true →
    ∃ t, exec (.eventDelivery p) s = .next t ∧ t.rd 0x002 0x8002 p = (if s.regN (.eqCounted p) = s.tick + 1 then s.rd 0x002 0x8002 p else (s.rd 0x002 0x8002 p + 1) % 2 ^ 64)
      ∧ t.levels = s.levels
      ∧ ∀ x ∈ t.eqRecords, x ∈ s.eqRecords ∧ x.1 ≠ p)
  ∧ (∀ (p : Nat) (s : State), s.mainUp = true → p < 8 → s.regN (.eqWrite p) ≠ 1 →
    ((s.eqOn p = false ∨ s.candidate p = none) → exec (.eventDelivery p) s = .next s)
    ∧ (∀ src, s.eqOn p = true → s.candidate p = some src → s.eqFull p = true →
      exec (.eventDelivery p) s = .next (if s.regN (.eqCounted p) = s.tick + 1 then s
        else (s.bump 0x002 0x8002 p 1).setReg (.eqCounted p) (s.tick + 1 : Nat)))
    ∧ (∀ src, s.eqOn p = true → s.candidate p = some src → s.eqFull p = false →
      ∃ t, exec (.eventDelivery p) s = .next t ∧ t.levels = ⟨p, src, s.srcPrio src⟩ :: s.levels
        ∧ t.rd (eqUnit p) 0x5000 0 = s.advancePos (eqUnit p) (s.rd (eqUnit p) 0x5000 0) 1
        ∧ t.rd 0x002 0x8000 p = (s.rd 0x002 0x8000 p + 1) % 2 ^ 64
        ∧ (∃ o ∈ t.mpOps, o.purpose = .eqRecord p ∧ o.addr = s.eqAddr p (s.rd (eqUnit p) 0x5000 0) ∧ o.octets.length = 16)
        ∧ (sharedSource s.build src = false → t.srcState src = 2 ∧ t.latches = s.latches)
        ∧ (∀ l, sharedSource s.build src = true → s.lowestLatch src = some l →
            t.latches = s.latches.filter (fun x => !(x.src = src && x.cause = l.cause)))))
  ∧ (∀ (p word : Nat) (width64 : Bool) (s : State), s.mainUp = true → p < 8 →
      (width64 = false ∨ completeRsvd word = true ∧ s.wake.blockFree ⟨p, false, word⟩ = true) →
    exec (.eqHeadReturn p word width64) s = .next ((s.wake.bump 0x002 0x8001 0 1).latch 0x002 16)
    ∧ exec (.sourceComplete p word width64) s = .next ((s.wake.bump 0x002 0x8001 0 1).latch 0x002 16))
  ∧ (∀ (p word head : Nat) (s : State), s.mainUp = true → p < 8 → completeRsvd word = false → word.testBit 17 = true →
      s.wake.blockFree ⟨p, false, word⟩ = true → word.testBit 16 = false → head = field word 32 13 →
    (head < 2 * s.ringN (eqUnit p) →
        s.posDiff (eqUnit p) head (s.rd (eqUnit p) 0x5001 0) ≤ s.posDiff (eqUnit p) (s.rd (eqUnit p) 0x5000 0) (s.rd (eqUnit p) 0x5001 0) →
      ∃ t, exec (.eqHeadReturn p word true) s = .next t ∧ t.rd (eqUnit p) 0x5001 0 = head
        ∧ (s.rd (eqUnit p) 0x5000 0 = head → t.reg (.irqNe p) = 0))
    ∧ ((2 * s.ringN (eqUnit p) ≤ head ∨ s.posDiff (eqUnit p) (s.rd (eqUnit p) 0x5000 0) (s.rd (eqUnit p) 0x5001 0)
          < s.posDiff (eqUnit p) head (s.rd (eqUnit p) 0x5001 0)) →
      exec (.eqHeadReturn p word true) s = .next (s.wake.bump 0x002 0x8003 p 1)))
  ∧ (∀ (p word src : Nat) (s : State), s.mainUp = true → p < 8 → completeRsvd word = false → word.testBit 17 = false →
      s.wake.blockFree ⟨p, false, word⟩ = true → word.testBit 16 = true → src = field word 0 9 →
    (∀ i, s.levels.find? (fun i => i.proc = p && i.src = src) = some i →
      exec (.sourceComplete p word true) s = .next (State.setSrc { s.wake with levels := s.levels.erase i } src
        (if s.srcState src = 3 then 1 else 0) (if s.srcState src = 3 then s.srcCount src else 0)))
    ∧ ((∀ i ∈ s.levels, i.proc = p → i.src ≠ src) →
      ∃ t, exec (.sourceComplete p word true) s = .next t ∧ ((s.wake.bump 0x002 0x8001 0 1).latch 0x002 16).ButEvents t))
  ∧ (∀ (p word : Nat) (s : State), s.mainUp = true → p < 8 →
    (exec (.maskWrite p word false) s = .next ((s.wake.bump 0x002 0x8001 0 1).latch 0x002 16)
      ∧ exec (.thresholdWrite p word false) s = .next ((s.wake.bump 0x002 0x8001 0 1).latch 0x002 16))
    ∧ (word.testBit 31 = true → word.testBit 7 = false → field word 16 9 < s.build.sources → s.wake.blockFree ⟨p, true, word⟩ = true →
      exec (.maskWrite p word true) s = .next { (s.wake.setReg (.maskSrc p) (field word 16 9 : Nat)).setReg (.maskVal p) (field word 30 1 : Nat) with
        arbQ := s.arbQ ++ [.mask p (field word 16 9) (word.testBit 30)] })
    ∧ (word.testBit 31 = false → word.testBit 7 = true → s.wake.blockFree ⟨p, true, word⟩ = true →
      exec (.thresholdWrite p word true) s = .next { (s.wake.setReg (.maskSrc p) (field word 16 9 : Nat)).setReg (.maskVal p) (field word 30 1 : Nat) with
        arbQ := s.arbQ ++ [.threshold p (field word 0 4)] })
    ∧ (word.testBit 31 = true → word.testBit 7 = true → field word 16 9 < s.build.sources → s.wake.blockFree ⟨p, true, word⟩ = true →
      ∃ t, exec (.thresholdWrite p word true) s = .next t
        ∧ t.arbQ = s.arbQ ++ [.mask p (field word 16 9) (word.testBit 30), .threshold p (field word 0 4)])
    ∧ (s.wake.blockFree ⟨p, true, word⟩ = false →
      exec (.maskWrite p word true) s = .next { s.wake with blockWait := s.wake.blockWait ++ [⟨p, true, word⟩] }
      ∧ exec (.thresholdWrite p word true) s = .next { s.wake with blockWait := s.wake.blockWait ++ [⟨p, true, word⟩] }))

/-- FB_FREEZE by an agent that may: the reader's freeze holds, reader_freeze reads 1, freeze_limit runs, the access ends with OK; FB_THAW: the
freeze is over and the timer stands. FREEZE_LIMIT_EXPIRE thaws and is counted; with no timer running it does nothing. PFAIL_FALL with the
main logic up: the line is low, the power-fail freeze holds from this tick, and with a working Monument the commit is counted, which ends
within the command (the model's reading, log entry 36); a program of atlas octets in progress completes, an erase is suspended; in a
low-power mode only the line is noted; a second one does nothing. PFAIL_RECOVER ends the freeze where the main logic has acted on the fall,
else only raises the line. (15_field_book_and_monument.md: R334 to R336, R349, R350, Table 15.10) -/
def Obligations.FreezesHoldTheBook : Prop :=
  (∀ (a : Agent) (s : State), s.grants a (pathTo 0x004) 0x004 0x4000 0 [1] = true →
    ∃ t, exec (.fbFreeze a) s = .next t ∧ t.result = ⟨a, some .ok, []⟩ ∧ t.fbState.testBit 0 = true ∧ t.rd 0x004 0x4000 0 = 1
      ∧ t.timer .freezeLimit = some (s.rd 0x004 0x1001 0 * 6250000))
  ∧ (∀ (a : Agent) (s : State), s.grants a (pathTo 0x004) 0x004 0x4000 0 [0] = true →
    ∃ t, exec (.fbThaw a) s = .next t ∧ t.result = ⟨a, some .ok, []⟩ ∧ t.fbState.testBit 0 = false ∧ t.rd 0x004 0x4000 0 = 0
      ∧ t.timer .freezeLimit = none)
  ∧ (∀ s : State, (s.timer .freezeLimit = none → exec .freezeLimitExpire s = .next s)
    ∧ ((s.timer .freezeLimit).isSome = true → ∃ t, exec .freezeLimitExpire s = .next t ∧ t.fbState.testBit 0 = false
      ∧ t.timer .freezeLimit = none ∧ t.rd 0x004 0x8004 0 = (s.rd 0x004 0x8004 0 + 1) % 2 ^ 64))
  ∧ (∀ s : State, s.snowdropUp = true →
    (s.regN .pfailLow = 1 → exec .pfailFall s = .next s)
    ∧ (s.regN .pfailLow ≠ 1 → s.mainUp = false → exec .pfailFall s = .next (s.wake.setReg .pfailLow 1))
    ∧ (s.regN .pfailLow ≠ 1 → s.mainUp = true → ∃ t, exec .pfailFall s = .next t ∧ t.reg .pfailLow = 1 ∧ t.reg .pfailDone = 1
      ∧ t.fbState.testBit 1 = true ∧ t.reg .freezeTick = (s.tick : Nat)
      ∧ (s.monUp = true → t.rd 0x005 0x8003 0 = (s.rd 0x005 0x8003 0 + 1) % 2 ^ 64 ∧ t.monQ = []))
    ∧ (∀ x l, s.regN .pfailLow ≠ 1 → s.mainUp = true → s.monUp = false → s.regN .nvmBegun = 1 → s.regN .progCount = 0 →
        s.nvmQ.head? = some (.image none x l) →
      ∃ t, exec .pfailFall s = .next t ∧ t.flash = Memory.program s.flash x l ∧ t.reg .nvmBegun = 0)
    ∧ (∀ sec, s.regN .pfailLow ≠ 1 → s.mainUp = true → s.monUp = false → s.regN .nvmBegun = 1 → s.regN .progCount = 0 →
        s.nvmQ.head? = some (.erase sec) →
      ∃ t, exec .pfailFall s = .next t ∧ t.flash = s.flash ∧ t.reg .eraseSuspended = 1 ∧ t.reg .nvmBegun = 1)
    ∧ (s.regN .pfailLow = 1 → s.regN .pfailDone = 0 → exec .pfailRecover s = .next (s.setReg .pfailLow 0))
    ∧ (s.regN .pfailLow = 1 → s.regN .pfailDone ≠ 0 → ∃ t, exec .pfailRecover s = .next t ∧ t.reg .pfailLow = 0 ∧ t.reg .pfailDone = 0
      ∧ t.fbState.testBit 1 = false ∧ t.reg .eraseSuspended = 0))

/-- NVM_DISCOVERY of a start: no SFDP signature leaves ABSENT, a flash without a 4 KiB erase or too small UNSUITED, a good one READY with its
density, the fastest allowed read mode, page size, addressing, opcodes, times and pfail_budget. MONUMENT_MOUNT of a start, on a working port
with a job entry and an engine free: under a header in force REC_SECTORS and the head are its own, BOOT_EPOCH is one more than the header's,
a header update waits and its checks, one after the other (log entry 35), have left a device job released; over a blank region the format of
64 sectors waits for the port (sector by sector, log entries 53 and 87); a region neither blank nor with a header is a FAULT; with no entry
or engine free it waits. MONUMENT_PROGRAM that ends well: the records of the program in progress are in the flash with their CRC, pending no
more and counted; one that fails spoils the slots (with free octets, log entry 21). NVM_OPERATION_DONE that ends well takes the operation
out of the port: an erase erases its sector, a header update has the next slot of copy A hold the header, HGEN is one more, a data-port read
returns its octets, an atlas program or erase has changed the flash and, the last one of its access, ends it; a format erases its next
sector and behind the last writes the header, at a start takes epoch 1; one that ends badly ends an access with TIMEOUT (log entry 87) and
leaves the Monument's own to be made again; the third failure in a row stops the Monument. NVM_TIMEOUT is counted: a discovery leaves
ABSENT, the program or operation in progress or the suspension of an erase has failed, a scan job of the flash ends with NVM_TIMEOUT; where
nothing uses the flash it does nothing. TOKEN_ACCRUE adds a token up to 512; BUDGET_HOUR_EXPIRE ends the hour, its counts and latches
BUDGET. (15_field_book_and_monument.md: R339 to R348, R352, R356, Tables 15.4, 15.5, 15.11, 11_guard_units.md: R277) -/
def Obligations.MonumentMountsAndPrograms : Prop :=
  (∀ (f : SfdpResult) (s : State), s.mainUp = true → s.regN .nvmKnown = 0 →
    (f.signature = false → exec (.nvmDiscovery f) s = .next (((s.setReg .nvmKnown 1).nvmCommand 0x5A).wr 0x005 0x5001 0 0))
    ∧ (f.signature = true → (f.erase4k = false ∨ f.density < regionBase + 66 * 4096) →
      exec (.nvmDiscovery f) s = .next (((s.setReg .nvmKnown 1).nvmCommand 0x5A).wr 0x005 0x5001 0 3))
    ∧ (f.signature = true → f.erase4k = true → regionBase + 66 * 4096 ≤ f.density →
      ∃ t, exec (.nvmDiscovery f) s = .next t ∧ t.nvmState = 2 ∧ t.reg .nvmKnown = 1 ∧ t.rd 0x005 0x5002 0 = f.density
        ∧ t.rd 0x005 0x5003 0 = readModeOf f.readModes (s.rd 0x005 0x1001 0) ∧ t.reg .pageSize = (f.pageSize : Nat)
        ∧ t.rd 0x005 0x5004 0 = f.programMax ∧ t.rd 0x005 0x5004 1 = f.eraseMax ∧ t.rd 0x005 0x5004 2 = f.suspendMax
        ∧ t.reg .nvmAddressing = (addressingOf f.density f.addr4 : Nat) ∧ t.reg .eraseOpcode = (f.eraseOpcode : Nat)
        ∧ t.reg .quadEnable = (f.quadEnable : Nat) ∧ t.reg .programTyp = (f.programTyp : Nat) ∧ t.reg .eraseTyp = (f.eraseTyp : Nat) ∧ t.reg .nvmSuspend = (f.hasSuspend.toNat : Nat)
        ∧ t.rd 0x005 0x5005 0 = (if f.hasSuspend then f.suspendMax else f.eraseMax) + 3 * ceilDiv 256 f.pageSize * f.programMax))
  ∧ (∀ s : State, s.nvmOn = true → s.rd 0x012 0x5001 0 = 0 → s.regN .monFault = 0 → s.nvmQ.any NvmOp.formats = false →
    (s.mayCheck = false → exec .monumentMount s = .next s)
    ∧ (∀ h j, s.newestHeader [0, 1] = some h → s.freeJob = some j → s.freeEngine.isSome = true →
      ∃ t, exec .monumentMount s = .next t ∧ t.rd 0x012 0x5001 0 = (beN h.2 8 4 + 1) % 2 ^ 32 ∧ t.recSectors = beN h.2 12 2
        ∧ t.headSlot = (64 * s.headSector (beN h.2 12 2) + s.usedSlots (s.headSector (beN h.2 12 2))) % (64 * beN h.2 12 2)
        ∧ .header ∈ t.nvmQ ∧ t.reg .hgen = (beN h.2 4 4 : Nat)
        ∧ (beN h.2 16 4 ≠ 0xFFFFFFFF → t.rd 0x005 0x500B 0 = 1 ∧ t.reg .atlasBase = ((beN h.2 16 4 + 1 : Nat) : Int))
        ∧ jobState (t.job j) = 3 ∧ jobOwner (t.job j) = false ∧ jobSource (t.job j) = 1 ∧ jobLength (t.job j) = 60)
    ∧ (s.newestHeader [0, 1] = none → s.flashBlank regionBase 8192 = true → s.mayCheck = true →
      ∃ t, exec .monumentMount s = .next t ∧ t.rd 0x012 0x5001 0 = 0 ∧ .region none 0 66 64 true ∈ t.nvmQ ∧ t.flash = s.flash)
    ∧ (s.newestHeader [0, 1] = none → s.flashBlank regionBase 8192 = false → s.mayCheck = true →
      ∃ t, exec .monumentMount s = .next t ∧ t.reg .monFault = 1 ∧ t.flash = s.flash ∧ t.rd 0x012 0x5001 0 = 0))
  ∧ (∀ s : State, s.nvmOn = true → s.monUp = true → s.progGroup ≠ [] →
    (∃ t, exec (.monumentProgram true) s = .next t ∧ t.monQ = s.monQ.filter (fun m => !s.progGroup.contains m)
      ∧ t.flash = s.progGroup.foldl (fun f m => Memory.program f (slotAddr m.slot) (withCrc m.octets)) s.flash
      ∧ t.rd 0x005 0x8000 0 = (s.rd 0x005 0x8000 0 + s.progGroup.length) % 2 ^ 64 ∧ t.rd 0x005 0x500A 0 = t.monQ.length
      ∧ t.reg .nvmFails = 0)
    ∧ (s.canon = true → ∃ t, exec (.monumentProgram false) s = .next t ∧ t.rd 0x005 0x8000 0 = s.rd 0x005 0x8000 0
      ∧ t.reg .nvmFails = ((s.regN .nvmFails + 1 : Nat) : Int) ∧ ∀ m ∈ s.progGroup, Memory.read t.flash (slotAddr m.slot) = 0))
  ∧ (∀ (o : NvmOp) (s : State), s.nvmOn = true → s.portOp = some o →
    (∀ sec, o = .erase sec → ∃ t, exec (.nvmOperationDone true) s = .next t ∧ t.flash = Memory.erase s.flash (sectorAddr sec) 4096
      ∧ t.nvmQ.Perm (s.nvmQ.drop 1) ∧ t.reg .nvmFails = 0)
    ∧ (o = .header → s.canon = true → ∃ t, exec (.nvmOperationDone true) s = .next t ∧ t.nvmQ.Perm (s.nvmQ.drop 1)
      ∧ t.reg .hgen = (((s.regN .hgen + 1) % 2 ^ 32 : Nat) : Int) ∧ t.flashRead (headerAddr 0 (s.headerFree % 64)) 64 = s.headerSlot)
    ∧ (∀ (a : Agent) (n u i : Nat), o = .read a n → a.kind = .host → s.dpReadCheck a n = .ok → (s.ctx a).target = some (u, i) →
        s.inFlash (u, i) = true →
      ∃ t, exec (.nvmOperationDone true) s = .next t ∧ t.nvmQ.Perm (s.nvmQ.drop 1) ∧ t.flash = s.flash
        ∧ t.result = ⟨a, some .ok, s.tableOctets u i (s.tableSize (u, i)).1 (s.ctx a).offset (min n (s.ctx a).length)
            ++ List.replicate (n - min n (s.ctx a).length) 0⟩)
    ∧ (∀ (a : Agent) (x : Nat) (l : List Octet), o = .image (some a) x l → ∃ t, exec (.nvmOperationDone true) s = .next t
      ∧ t.flash = Memory.program s.flash x l ∧ t.nvmQ.Perm (s.nvmQ.drop 1)
      ∧ (a.kind = .host → (∀ p ∈ s.nvmQ.drop 1, p.writer ≠ some a) → t.result = ⟨a, some .ok, []⟩))
    ∧ (∀ (a : Agent) (x : Nat), o = .area (some a) x → ∃ t, exec (.nvmOperationDone true) s = .next t
      ∧ t.flash = Memory.erase s.flash x 4096 ∧ t.nvmQ.Perm (s.nvmQ.drop 1)
      ∧ (a.kind = .host → (∀ p ∈ s.nvmQ.drop 1, p.writer ≠ some a) → t.result = ⟨a, some .ok, []⟩))
    ∧ (∀ (who : Option Agent) (k total n : Nat) (first : Bool), o = .region who k total n first → k < total → (first && k + 1 = total) = false →
      ∃ t, exec (.nvmOperationDone true) s = .next t ∧ t.flash = Memory.erase s.flash (regionBase + 4096 * k) 4096
        ∧ t.nvmQ.Perm (s.nvmQ.drop 1 ++ [.region who (k + 1) total n first]) ∧ t.recSectors = s.recSectors)
    ∧ (∀ (who : Option Agent) (k n : Nat), o = .region who k (k + 1) n true → s.rd 0x012 0x5001 0 = 0 →
      ∃ t, exec (.nvmOperationDone true) s = .next t ∧ t.flash = Memory.erase s.flash (regionBase + 4096 * k) 4096
        ∧ t.rd 0x012 0x5001 0 = 1 ∧ t.recSectors = n ∧ t.reg .hgen = 0 ∧ t.reg .atlasBase = 0 ∧ .header ∈ t.nvmQ)
    ∧ (∀ (a : Agent) (k n : Nat) (first : Bool), o = .region (some a) k k n first → a.kind = .host →
        (∀ p ∈ s.nvmQ.drop 1, p.writer ≠ some a) →
      ∃ t, exec (.nvmOperationDone true) s = .next t ∧ t.result = ⟨a, some .ok, []⟩ ∧ t.recSectors = n ∧ t.headSlot = 0
        ∧ (∀ p ∈ t.nvmQ, p.own = false) ∧ t.reg .hgen = (((s.regN .hgen + 1) % 2 ^ 32 : Nat) : Int))
    ∧ (∀ a : Agent, a.kind = .host → (o.writer = some a ∨ ∃ n, o = .read a n) →
      ∃ t, exec (.nvmOperationDone false) s = .next t ∧ t.result = ⟨a, some .timeout, []⟩
        ∧ t.reg .nvmFails = ((s.regN .nvmFails + 1 : Nat) : Int))
    ∧ (o.own = true → s.regN .nvmFails < 2 →
      exec (.nvmOperationDone false) s = .next (s.setReg .nvmFails ((s.regN .nvmFails + 1 : Nat) : Int)))
    ∧ (2 ≤ s.regN .nvmFails → s.regN .monFault ≠ 1 → ∃ t, exec (.nvmOperationDone false) s = .next t ∧ t.reg .monFault = 1
      ∧ ∀ p ∈ t.nvmQ, p.own = false))
  ∧ (∀ s : State, s.mainUp = true → s.pfailFrozen = false →
    (s.regN .nvmKnown = 0 → ∃ t, exec .nvmTimeout s = .next t ∧ t.nvmState = 0 ∧ t.reg .nvmKnown = 1
      ∧ t.rd 0x005 0x8006 0 = (s.rd 0x005 0x8006 0 + 1) % 2 ^ 64)
    ∧ (∀ o, s.regN .nvmKnown ≠ 0 → s.nvmState = 2 → s.progGroup = [] → s.portOp = some o →
      ∃ t, exec .nvmTimeout s = .next t ∧ t.rd 0x005 0x8006 0 = (s.rd 0x005 0x8006 0 + 1) % 2 ^ 64
        ∧ t.reg .nvmFails = ((s.regN .nvmFails + 1 : Nat) : Int) ∧ (t.rd 0x005 0x0005 0).testBit 19 = true)
    ∧ (s.regN .nvmKnown ≠ 0 → s.nvmState = 2 → s.portFree = true → s.nvmJob = none → s.mountPending = false →
      (s.rd 0x005 0x500B 0 ≠ 1 ∨ s.regN .atlasJob ≠ 0) → exec .nvmTimeout s = .next s)
    ∧ (s.regN .nvmKnown ≠ 0 → s.nvmState = 2 → s.progGroup ≠ [] → s.regN .nvmBegun ≠ 1 → s.canon = true →
      ∃ t, exec .nvmTimeout s = .next t ∧ t.rd 0x005 0x8006 0 = (s.rd 0x005 0x8006 0 + 1) % 2 ^ 64
        ∧ t.reg .nvmFails = ((s.regN .nvmFails + 1 : Nat) : Int) ∧ ∀ m ∈ s.progGroup, Memory.read t.flash (slotAddr m.slot) = 0)
    ∧ (s.regN .nvmKnown ≠ 0 → s.nvmState = 2 → s.progGroup ≠ [] → s.regN .nvmBegun = 1 → s.canon = true →
      ∃ t, exec .nvmTimeout s = .next t ∧ t.rd 0x005 0x8006 0 = (s.rd 0x005 0x8006 0 + 1) % 2 ^ 64
        ∧ t.reg .nvmFails = ((s.regN .nvmFails + 1 : Nat) : Int)
        ∧ (t.flash = s.flash ∨ ∀ m ∈ s.progGroup, Memory.read t.flash (slotAddr m.slot) = 0))
    ∧ (∀ j, s.regN .nvmKnown ≠ 0 → s.nvmState = 2 → s.portFree = true → s.nvmJob = some j →
      ∃ t, exec .nvmTimeout s = .next t ∧ jobState (t.job j) = 3 ∧ jobResult (t.job j) = 7
        ∧ t.rd 0x005 0x8006 0 = (s.rd 0x005 0x8006 0 + 1) % 2 ^ 64))
  ∧ (∀ s : State, (s.timer .token).isSome = true →
    exec .tokenAccrue s = .next ((s.wake.wr 0x005 0x5009 0 (min 512 (s.rd 0x005 0x5009 0 + 1))).startTimer .token 12500000))
  ∧ (∀ s : State, (s.timer .budgetHour).isSome = true →
    ∃ t, exec .budgetHourExpire s = .next t ∧ t.timer .budgetHour = none ∧ t.reg .hourDrops = 0 ∧ t.reg .hourSeverity = 0
      ∧ (t.rd 0x005 0x0005 0).testBit 16 = true)

/-- By an agent that may: MONUMENT_RESTART ends with OK; on a working port over a blank region the Monument is out of FAULT and its format waits
for the port, or, while no job entry or engine is free, is to be mounted; without one the flash stays. MONUMENT_FORMAT of a working port,
with 8 to 1,024 sectors, does not end yet: the erase of the region, sector by sector (log entry 87), waits for the port, and nothing else of
the Monument's own does; during a power-fail freeze it ends with BUSY and without a flash does nothing; another number ends with RANGE.
ATLAS_SET within the flash and clear of the Monument's region: base and limit are in force and a header update waits; otherwise it ends with
RANGE. ATLAS_ERASE has the erase of each sector of the area wait for the port, not ending yet; during a power-fail freeze it ends with BUSY,
and without a flash or an area with OK (log entry 87). ATLAS_APPLY of a waiting atlas: a bad header fails it with its reason; a good one has
the CRC of its body computed by a device job ahead of all queued ones, as soon as an entry is free; until that has ended nothing happens;
with any other result than MATCH the atlas fails with BAD_CRC, atlas_abort showing the result of a scan that failed itself (the model's
choice, log entry 89); with MATCH, one staged entry and no RUN asked for, it is APPLIED and the value is in the pending set; either way the
job is released. On a port that does not work, or with no area, nothing happens. (15_field_book_and_monument.md: R343, R345, R348, R353 to
R356, Tables 15.8, 15.9, 15.11) -/
def Obligations.MonumentAndAtlasCommandsAct : Prop :=
  (∀ (a : Agent) (s : State), s.grants a (pathTo 0x005) 0x005 0x7000 0 [] = true →
    (s.nvmOn = false → ∃ t, exec (.monumentRestart a) s = .next t ∧ t.result = ⟨a, some .ok, []⟩ ∧ t.flash = s.flash
      ∧ t.reg .monFault = s.reg .monFault)
    ∧ (s.nvmOn = true → s.mayCheck = false → ∃ t, exec (.monumentRestart a) s = .next t ∧ t.result = ⟨a, some .ok, []⟩
      ∧ t.reg .monFault = 0 ∧ t.reg .mountDue = 1 ∧ t.flash = s.flash)
    ∧ (s.nvmOn = true → s.mayCheck = true → s.newestHeader [0, 1] = none → s.flashBlank regionBase 8192 = true →
        s.nvmQ.any NvmOp.formats = false →
      ∃ t, exec (.monumentRestart a) s = .next t ∧ t.result = ⟨a, some .ok, []⟩ ∧ t.reg .monFault = 0 ∧ t.reg .nvmFails = 0
        ∧ .region none 0 66 64 true ∈ t.nvmQ ∧ t.flash = s.flash))
  ∧ (∀ (a : Agent) (n : Nat) (s : State), n < 2 ^ 16 → s.grants a (pathTo 0x005) 0x005 0x7001 0 (toMsb 2 n) = true →
    ((n < 8 ∨ 1024 < n) → ∃ t, exec (.monumentFormat a n) s = .next t ∧ t.result = ⟨a, some .range, []⟩ ∧ t.flash = s.flash)
    ∧ (8 ≤ n → n ≤ 1024 → s.pfailFrozen = true →
      ∃ t, exec (.monumentFormat a n) s = .next t ∧ t.result = ⟨a, some .busy, []⟩ ∧ t.flash = s.flash)
    ∧ (8 ≤ n → n ≤ 1024 → s.pfailFrozen = false → s.nvmOn = false →
      ∃ t, exec (.monumentFormat a n) s = .next t ∧ t.result = ⟨a, some .ok, []⟩ ∧ t.flash = s.flash)
    ∧ (8 ≤ n → n ≤ 1024 → s.nvmOn = true →
      ∃ t, exec (.monumentFormat a n) s = .next t ∧ t.result = ⟨a, none, []⟩ ∧ t.flash = s.flash ∧ t.recSectors = s.recSectors
        ∧ .region (some a) 0 (2 + max n s.recSectors) n false ∈ t.nvmQ ∧ (∀ o ∈ t.nvmQ, o.own = false)))
  ∧ (∀ (a : Agent) (base limit : Nat) (s : State), base < 2 ^ 32 → limit < 2 ^ 32 →
      s.grants a (pathTo 0x005) 0x005 0x7002 0 (toMsb 4 base ++ toMsb 4 limit) = true →
    (base + limit ≤ s.rd 0x005 0x5002 0 → (regionBase + (2 + s.recSectors) * 4096 ≤ base ∨ base + limit ≤ regionBase) →
      ∃ t, exec (.atlasSet a base limit) s = .next t ∧ t.result = ⟨a, some .ok, []⟩ ∧ t.reg .atlasBase = ((base + 1 : Nat) : Int)
        ∧ t.reg .atlasLimit = (limit : Int) ∧ .header ∈ t.nvmQ ∧ t.flash = s.flash)
    ∧ ((s.rd 0x005 0x5002 0 < base + limit ∨ (base < regionBase + (2 + s.recSectors) * 4096 ∧ regionBase < base + limit)) →
      ∃ t, exec (.atlasSet a base limit) s = .next t ∧ t.result = ⟨a, some .range, []⟩ ∧ t.reg .atlasBase = s.reg .atlasBase
        ∧ t.nvmQ = s.nvmQ))
  ∧ (∀ (a : Agent) (s : State), s.grants a (pathTo 0x005) 0x005 0x7003 0 [] = true →
    (s.pfailFrozen = true → ∃ t, exec (.atlasErase a) s = .next t ∧ t.result = ⟨a, some .busy, []⟩ ∧ t.flash = s.flash)
    ∧ (s.pfailFrozen = false → (s.regN .atlasBase = 0 ∨ s.nvmOn = false) →
      ∃ t, exec (.atlasErase a) s = .next t ∧ t.result = ⟨a, some .ok, []⟩ ∧ t.flash = s.flash)
    ∧ (∀ n, s.regN .atlasBase ≠ 0 → s.nvmOn = true →
        n = ceilDiv (s.regN .atlasBase - 1 + s.regN .atlasLimit) 4096 - (s.regN .atlasBase - 1) / 4096 → n ≠ 0 →
      ∃ t, exec (.atlasErase a) s = .next t ∧ t.result = ⟨a, none, []⟩ ∧ t.flash = s.flash
        ∧ ∀ k, k < n → .area (some a) (((s.regN .atlasBase - 1) / 4096 + k) * 4096) ∈ t.nvmQ))
  ∧ (∀ s : State, (s.nvmOn = false ∨ s.regN .atlasBase = 0) → exec .atlasApply s = .next s)
  ∧ (∀ s : State, s.nvmOn = true → s.regN .atlasBase ≠ 0 → s.rd 0x005 0x500B 0 = 1 → s.regN .atlasJob = 0 →
    (s.atlasHeaderGood s.atlasHeader = false → ∃ t, exec .atlasApply s = .next t ∧ t.rd 0x005 0x500B 0 = 4 ∧ t.rd 0x005 0x500B 1 = 1
      ∧ (t.rd 0x005 0x0005 0).testBit 18 = true ∧ t.staged = s.staged)
    ∧ (s.atlasHeaderGood s.atlasHeader = true → s.freeJob = none → exec .atlasApply s = .next s)
    ∧ (∀ j, s.atlasHeaderGood s.atlasHeader = true → s.freeJob = some j → s.regN .atlasBase ≤ 2 ^ 32 →
      ∃ t, exec .atlasApply s = .next t ∧ t.jobQ = j :: s.jobQ ∧ jobState (t.job j) = 1 ∧ jobOwner (t.job j) = true
        ∧ jobGuarded (t.job j) = true ∧ jobSource (t.job j) = 1 ∧ jobStart (t.job j) = s.regN .atlasBase - 1 + 32
        ∧ jobLength (t.job j) = atlasLen s.atlasHeader ∧ jobExpected (t.job j) = beN s.atlasHeader 16 4
        ∧ t.reg .atlasJob = (j : Int) + 1 ∧ t.flash = s.flash))
  ∧ (∀ (j : Nat) (s : State), s.nvmOn = true → s.regN .atlasBase ≠ 0 → s.rd 0x005 0x500B 0 = 1 → s.regN .atlasJob = j + 1 →
    (jobState (s.job j) ≠ 3 → exec .atlasApply s = .next s)
    ∧ (jobState (s.job j) = 3 → jobResult (s.job j) ≠ 1 →
      ∃ t, exec .atlasApply s = .next t ∧ t.rd 0x005 0x500B 0 = 4 ∧ t.rd 0x005 0x500B 1 = 2
        ∧ t.rd 0x005 0x500B 3 = (if jobResult (s.job j) = 3 then 0 else jobResult (s.job j)) ∧ jobOwner (t.job j) = false
        ∧ (t.rd 0x005 0x0005 0).testBit 18 = true ∧ t.staged = s.staged ∧ t.reg .atlasJob = 0)
    ∧ (∀ (e : AtlasEntry) (u : Nat) (r : ObjRow), jobState (s.job j) = 3 → jobResult (s.job j) = 1 →
        atlasParse s.atlasBody = some e → e.size = s.atlasBody.length →
        atlasCount s.atlasHeader = 1 → e.table = false → s.resolvePath e.path = .here u → s.lookup atlasAgent u e.idx e.sub = .ok r →
        r.access = .rws → r.type ≠ .table → e.data.length = r.type.writeSize → valueGood s.build r (ofMsb e.data) = true →
        s.stageBusy u = false → ¬(u = 0x00D ∧ e.idx = 0x1000) → (octet s.atlasHeader 5).testBit 0 = false →
      ∃ t, exec .atlasApply s = .next t ∧ t.rd 0x005 0x500B 0 = 3 ∧ jobOwner (t.job j) = false
        ∧ t.staged = (s.stage ⟨.obj ⟨u, e.idx, e.sub⟩, ofMsb e.data, atlasAgent⟩).staged))

/-- POWER_REQUEST by an agent that may, the device leaving IDLE for it: an undefined code ends with RANGE, a low-power mode without SD_CLK with
MODE_FORBIDS. In a steady mode a request for the current mode is DONE; CONFIGURE to RUN waits for the boundary; any other begins an entry at
order 1; one in an object-access frame waits for its response. During an entry a deeper target takes the entry's place, the same one changes
nothing, any other waits in the pending slot. MODE_APPLY makes what waits the mode, with result DONE, or OVERRIDDEN where Snowdrop forced
it; with nothing waiting it does nothing. HANDSHAKE_ANSWER: a unit not ready leaves the entry as it is; one that accepts before order 8 has
the next asked; one that refuses ends the entry with REFUSED, its unit and reason; an entry that is to be given up is counted and the slot
emptied; acceptance at order 8 enters SLEEP, DEEP_SLEEP or OFF. FRAME_WAIT_EXPIRE with egress busy at order 3 refuses with reason 4,
otherwise the next is asked. IDLE is entered when due and left. That a rollback is complete at once and a request in a frame is held until
its response has left are the model's choices (log entries 57 and 58). (16_power.md: R359, R361 to R366, R373, Tables 16.2, 16.3, 16.8) -/
def Obligations.PowerRequestsPassTheHandshake : Prop :=
  (∀ (a : Agent) (x : Nat) (inFrame : Bool) (s : State), x < 256 → s.grants a (pathTo 0x001) 0x001 0x7000 0 (toMsb 1 x) = true →
    ((x = 2 ∨ 5 < x) → ∃ t, exec (.powerRequest a x inFrame) s = .next t ∧ t.result = ⟨a, some .range, []⟩ ∧ t.phase = s.phase
      ∧ t.modeWait = s.modeWait)
    ∧ (3 ≤ x → x ≤ 5 → s.regN .sdClkLost = 1 →
      ∃ t, exec (.powerRequest a x inFrame) s = .next t ∧ t.result = ⟨a, some .modeForbids, []⟩ ∧ t.phase = s.phase
        ∧ t.modeWait = s.modeWait)
    ∧ (x ≠ 2 → x ≤ 5 → s.regN .sdClkLost ≠ 1 → s.phase = 0 → s.modeWait = none →
      (x = s.wake.mode → ∃ t, exec (.powerRequest a x inFrame) s = .next t ∧ t.result = ⟨a, some .ok, []⟩ ∧ t.mode = x ∧ t.phase = 0
        ∧ t.rd 0x001 0x5003 0 = 1 ∧ t.rd 0x001 0x5003 1 = x)
      ∧ (x ≠ s.wake.mode → inFrame = false → s.wake.mode = 0 → x = 1 →
        ∃ t, exec (.powerRequest a x inFrame) s = .next t ∧ t.result = ⟨a, some .ok, []⟩ ∧ t.mode = 0 ∧ t.phase = 0 ∧ t.modeWait = some 1)
      ∧ (x ≠ s.wake.mode → inFrame = false → ¬(s.wake.mode = 0 ∧ x = 1) →
        ∃ t, exec (.powerRequest a x inFrame) s = .next t ∧ t.result = ⟨a, some .ok, []⟩ ∧ t.mode = s.wake.mode ∧ t.phase = 1
          ∧ t.reg .target = (x : Int) ∧ t.reg .askOrder = 1 ∧ t.reg .origin = (s.wake.mode : Int))
      ∧ (x ≠ s.wake.mode → inFrame = true →
        ∃ t, exec (.powerRequest a x inFrame) s = .next t ∧ t.result = ⟨a, some .ok, []⟩ ∧ t.mode = s.wake.mode ∧ t.phase = 0
          ∧ t.reg .requestHeld = (x : Int) + 1 + 16 * (s.responses.length + 1)))
    ∧ (x ≠ 2 → x ≤ 5 → s.regN .sdClkLost ≠ 1 → s.phase = 1 → s.abortWanted = false → s.regN .askOrder ≠ 9 →
      (modeDepth (s.regN .target) < modeDepth x → ∃ t, exec (.powerRequest a x inFrame) s = .next t ∧ t.result = ⟨a, some .ok, []⟩
        ∧ t.reg .target = (x : Int) ∧ t.slotMode = s.slotMode)
      ∧ (x = s.regN .target → ∃ t, exec (.powerRequest a x inFrame) s = .next t ∧ t.result = ⟨a, some .ok, []⟩
        ∧ t.reg .target = s.reg .target ∧ t.slotMode = s.slotMode)
      ∧ (modeDepth x ≤ modeDepth (s.regN .target) → x ≠ s.regN .target →
        ∃ t, exec (.powerRequest a x inFrame) s = .next t ∧ t.result = ⟨a, some .ok, []⟩ ∧ t.reg .target = s.reg .target ∧ t.slotMode = x)))
  ∧ (∀ s : State, (s.modeWait = none → exec .modeApply s = .next s)
    ∧ (∀ x, s.mainUp = true → s.modeWait = some x → x % 16 ≤ 1 → s.slotMode = 0xFF →
      ∃ t, exec .modeApply s = .next t ∧ t.mode = x % 16 ∧ t.rd 0x001 0x5004 0 = x % 16 ∧ t.phase = 0 ∧ t.modeWait = none
        ∧ t.rd 0x001 0x5003 0 = (if 16 ≤ x then 5 else 1) ∧ t.rd 0x001 0x5003 1 = x % 16))
  ∧ (∀ s : State, s.mainUp = true → s.phase = 1 →
    (s.entryAnswer false = .wait → exec .handshakeAnswer s = .next s)
    ∧ (s.entryAnswer false = .accept → s.abortWanted = false → s.regN .askOrder < 8 →
      exec .handshakeAnswer s = .next (s.ask (s.regN .askOrder + 1)))
    ∧ (∀ r, s.entryAnswer false = .refuse r → s.abortWanted = false → ∃ t, exec .handshakeAnswer s = .next t ∧ t.phase = 0
      ∧ t.rd 0x001 0x8003 0 = (s.rd 0x001 0x8003 0 + 1) % 2 ^ 64 ∧ t.rd 0x001 0x5003 0 = 2 ∧ t.rd 0x001 0x5003 1 = s.regN .target
      ∧ t.rd 0x001 0x5003 2 = askedUnit (s.regN .askOrder) ∧ t.rd 0x001 0x5003 3 = r)
    ∧ (s.entryAnswer false ≠ .wait → s.abortWanted = true → ∃ t, exec .handshakeAnswer s = .next t
      ∧ t.rd 0x001 0x8004 0 = (s.rd 0x001 0x8004 0 + 1) % 2 ^ 64 ∧ t.reg .wakeCause = 0 ∧ t.slotMode = 0xFF)
    ∧ (s.entryAnswer false = .accept → s.abortWanted = false → s.regN .askOrder = 8 → 3 ≤ s.regN .target → s.regN .target ≤ 5 →
      ∃ t, exec .handshakeAnswer s = .next t ∧ t.mode = s.regN .target ∧ t.phase = 0 ∧ t.reg .requests = (requestPins (s.regN .target) : Nat)
        ∧ (s.role ≤ 1 → s.twoWay = [] → t.frames = [] ∧ t.copies = [])))
  ∧ (∀ s : State, (s.timer .frameWait = none → exec .frameWaitExpire s = .next s)
    ∧ (s.mainUp = true → (s.timer .frameWait).isSome = true → s.phase = 1 → s.regN .askOrder = 3 → s.abortWanted = false →
      (s.egressBusy = true → ∃ t, exec .frameWaitExpire s = .next t ∧ t.phase = 0 ∧ t.rd 0x001 0x5003 0 = 2
        ∧ t.rd 0x001 0x5003 2 = 0x00A ∧ t.rd 0x001 0x5003 3 = 4)
      ∧ (s.egressBusy = false → exec .frameWaitExpire s = .next (s.ask 4))))
  ∧ (∀ s : State, s.mainUp = true →
    (s.idleDueNow = true → exec .idleEnter s = .next (((s.wr 0x001 0x5000 0 2).bump 0x001 0x8000 0 1).setReg .idleTicks 0))
    ∧ (s.idleDueNow = false → exec .idleEnter s = .next s)
    ∧ (s.mode = 2 → exec .idleExit s = .next (s.wr 0x001 0x5000 0 1))
    ∧ (s.mode ≠ 2 → exec .idleExit s = .next s))

/-- WAKE_INPUT of a watched input in a steady low-power mode starts the return: EXITING, its code in wake_cause, at step 1, or 2 where OFF has
left the core regulator on, PWR_REG_REQ (bit 3) high; before order 9 of an entry it is noted; in a return it empties the pending slot (log
entry 96); elsewhere, or not watched, it does nothing. PRIMROSE_FRAME that matches on a live Primrose channel is counted and starts the
return in the same way. RETURN_READY of the step in progress (log entry 70) raises the next request; PLL_LOCK at its step that of the logic;
of another step they do nothing. RETURN_STEP_TIMEOUT leaves the mode the return came from, from OFF after step 1 DEEP_SLEEP, where COEX_GNT
is held at 1, with result TIMEOUT and the step, counted. RETURN_END with no reset, no power failure and nothing pending: the mode of origin,
or CONFIGURE from OFF, with result DONE, or the mode that Snowdrop's view has named meanwhile, with OVERRIDDEN; steady, at slot 0, every
request high where it is no low-power one. SNOWDROP_OVERRIDE: in a return a view that differs from the mode kept, IDLE being RUN (log entry
96), is noted; from a steady mode a low-power view is entered at once, a shallow one waits for the boundary; each is counted; the same view
does nothing. (16_power.md: R367 to R369, R371, R372, Tables 16.4, 16.7, 16.8, 14_interrupts.md: R326) -/
def Obligations.WakesReturnStepByStep : Prop :=
  (∀ (w : WakeIn) (s : State), s.regN .porstLow ≠ 1 →
    (s.watched w = false → exec (.wakeInput w) s = .next s)
    ∧ (s.mainUp = true → s.phase ≠ 1 → exec (.wakeInput w) s = .next s)
    ∧ (s.watched w = true → 3 ≤ s.mode → s.phase = 0 → ∃ t, exec (.wakeInput w) s = .next t ∧ t.phase = 2 ∧ t.mode = s.mode
      ∧ t.rd 0x002 0x5001 0 = wakeCode w ∧ t.reg .returnStep = (if s.mode = 4 ∧ s.regN .returnFrom = 5 then 2 else 1)
      ∧ t.reg .returnFrom = (if s.mode = 4 ∧ s.regN .returnFrom = 5 then 5 else (s.mode : Int)) ∧ (t.regN .requests).testBit 3 = true)
    ∧ (s.watched w = true → s.phase = 2 → exec (.wakeInput w) s = .next (s.setSlot 0xFF))
    ∧ (s.watched w = true → s.mainUp = true → s.phase = 1 → s.regN .askOrder ≠ 9 →
      exec (.wakeInput w) s = .next (s.setReg .wakeCause ((wakeCode w : Int) + 1)))
    ∧ (s.watched w = true → s.mainUp = true → s.phase = 1 → s.regN .askOrder = 9 → exec (.wakeInput w) s = .next s))
  ∧ (∀ (ch : Nat) (frame : List Octet) (s : State), s.regN .porstLow = 0 → s.phase = 0 →
    (s.watched (.primrose ch) = true → s.chUp ch = true → s.primroseHit ch frame = true →
      ∃ t, exec (.primroseFrame ch frame) s = .next t ∧ t.phase = 2 ∧ t.rd 0x002 0x5001 0 = 0x3000 + ch % 64
        ∧ t.rd 0x001 0x8009 0 = (s.rd 0x001 0x8009 0 + 1) % 2 ^ 64 ∧ t.reg .primroseHigh = 1)
    ∧ ((s.watched (.primrose ch) = false ∨ s.chUp ch = false ∨ s.primroseHit ch frame = false) →
      exec (.primroseFrame ch frame) s = .next s))
  ∧ (∀ s : State,
    (s.atStep 1 = true → exec (.returnReady 1) s = .next ((s.setReg .returnStep 2).setReg .requests (s.regN .requests ||| 4 : Nat)))
    ∧ (s.atStep 2 = true → exec (.returnReady 2) s = .next (s.setReg .returnStep 5))
    ∧ (s.atStep 5 = true → exec .pllLock s
      = .next (((s.setReg .pllLost 0).setReg .returnStep 3).setReg .requests (s.regN .requests ||| 2 : Nat)))
    ∧ (s.atStep 3 = true → exec (.returnReady 3) s = .next ((s.setReg .returnStep 4).setReg .requests (s.regN .requests ||| 1 : Nat)))
    ∧ (s.atStep 4 = true → exec (.returnReady 4) s = .next (s.setReg .returnStep 6))
    ∧ (s.atStep 5 = false → exec .pllLock s = .next s)
    ∧ (∀ n, s.atStep n = false → exec (.returnReady n) s = .next s))
  ∧ (∀ (n m : Nat) (s : State), s.atStep n = true → 1 ≤ n → n ≤ 5 →
      m = (if s.regN .returnFrom = 5 then (if n = 1 then 5 else 4) else s.regN .returnFrom) →
    ∃ t, exec .returnStepTimeout s = .next t ∧ t.mode = m ∧ t.phase = 0 ∧ t.reg .returnStep = 0 ∧ t.reg .wakeCause = 0
      ∧ t.reg .requests = (requestPins m : Nat) ∧ t.rd 0x001 0x8005 0 = (s.rd 0x001 0x8005 0 + 1) % 2 ^ 64
      ∧ t.rd 0x001 0x5003 0 = 4 ∧ t.rd 0x001 0x5003 2 = n ∧ t.reg .returnView = 0 ∧ (m ≠ 5 → ∀ i, i < 3 → t.reg (.coexGnt i) = 1))
  ∧ (∀ s : State, s.atStep 6 = true →
    (s.regN .srstPending = 1 → ∃ t, exec .returnEnd s = .next t ∧ t.mode = 0 ∧ t.phase = 0 ∧ t.reg .srstPending = 0 ∧ t.frames = [])
    ∧ (s.regN .srstPending ≠ 1 → s.regN .pfailLow ≠ 1 → s.slotMode = 0xFF → s.regN .returnView = 0 →
      (s.regN .returnFrom = 5 → ∃ t, exec .returnEnd s = .next t ∧ t.mode = 0 ∧ t.phase = 0 ∧ t.slot = 0 ∧ t.reg .requests = 15
        ∧ t.reg .returnStep = 0 ∧ t.reg .wakeCause = 0 ∧ (s.regN .wakeCause ≠ 0 → t.rd 0x001 0x5003 0 = 1 ∧ t.rd 0x001 0x5003 1 = 0))
      ∧ (s.regN .returnFrom ≠ 5 → s.regN .origin ≤ 1 → ∃ t, exec .returnEnd s = .next t ∧ t.mode = s.regN .origin ∧ t.phase = 0
        ∧ t.slot = 0 ∧ t.reg .requests = 15 ∧ t.reg .returnStep = 0 ∧ t.reg .wakeCause = 0
        ∧ t.rd 0x001 0x5003 0 = 1 ∧ t.rd 0x001 0x5003 1 = s.regN .origin))
    ∧ (∀ v, s.regN .srstPending ≠ 1 → s.regN .pfailLow ≠ 1 → s.slotMode = 0xFF → s.regN .returnFrom ≠ 5 → s.regN .origin ≤ 1 →
        s.regN .returnView = v + 1 →
      (v ≤ 1 → ∃ t, exec .returnEnd s = .next t ∧ t.mode = v ∧ t.phase = 0 ∧ t.reg .requests = 15 ∧ t.reg .returnView = 0
        ∧ t.rd 0x001 0x5003 0 = 5 ∧ t.rd 0x001 0x5003 1 = v)
      ∧ (3 ≤ v → v ≤ 4 → ∃ t, exec .returnEnd s = .next t ∧ t.mode = v ∧ t.phase = 0 ∧ t.reg .requests = (requestPins v : Nat)
        ∧ t.rd 0x001 0x5003 0 = 5 ∧ t.rd 0x001 0x5003 1 = v)))
  ∧ (∀ (view : Nat) (s : State), view ≤ 5 → s.regN .porstLow ≠ 1 →
    (∀ m, s.phase = 2 → m = s.returnMode (if s.regN .returnFrom = 5 then 0 else s.regN .origin) →
      ((view = 2 ∨ view = m) → exec (.snowdropOverride view) s = .next s)
      ∧ (view ≠ 2 → view ≠ m → ∃ t, exec (.snowdropOverride view) s = .next t ∧ t.reg .returnView = (view : Int) + 1 ∧ t.phase = 2
        ∧ t.reg .origin = s.reg .origin ∧ t.rd 0x001 0x8008 0 = (s.rd 0x001 0x8008 0 + 1) % 2 ^ 64))
    ∧ (s.phase ≠ 2 → (s.mainUp = false ∨ s.phase = 1) → exec (.snowdropOverride view) s = .next s)
    ∧ (s.mainUp = true → s.phase = 0 → 3 ≤ view → ∃ t, exec (.snowdropOverride view) s = .next t ∧ t.mode = view ∧ t.phase = 0
      ∧ t.reg .requests = (requestPins view : Nat)
      ∧ (view ≤ 4 → t.rd 0x001 0x8008 0 = (s.rd 0x001 0x8008 0 + 1) % 2 ^ 64 ∧ t.rd 0x001 0x5003 0 = 5 ∧ t.rd 0x001 0x5003 1 = view
        ∧ t.reg .origin = (if s.mode = 0 then 0 else 1)))
    ∧ (s.mainUp = true → s.phase = 0 → view ≤ 2 → (view = 2 ∨ view = s.mode ∨ (s.mode = 2 ∧ view = 1)) →
      exec (.snowdropOverride view) s = .next s)
    ∧ (s.mainUp = true → s.phase = 0 → view ≤ 1 → view ≠ s.mode → ¬(s.mode = 2 ∧ view = 1) →
      ∃ t, exec (.snowdropOverride view) s = .next t ∧ t.modeWait = some (16 + view) ∧ t.rd 0x001 0x5004 0 = view
        ∧ t.rd 0x001 0x8008 0 = (s.rd 0x001 0x8008 0 + 1) % 2 ^ 64))

/-- PORST_ASSERT in every state: the mode is OFF (log entry 57), the request pins are 0, nothing is in progress, leased or keyed, every object
but the mode as Snowdrop holds it and the serial is at its reset value, the flash is kept. PORST_RELEASE: the return from OFF begins at step
1; while PORST_N is high it does nothing. SRST_ASSERT: in CONFIGURE, RUN or IDLE the main domain is as a reset leaves it, in CONFIGURE, with
the flash, the serial and the field book kept; in a low-power mode it starts the return and in a return it is noted; with PORST_N low, in
OFF or already low it does nothing. SRST_RELEASE with power good only raises the line. SD_CLK_LOST and SD_CLK_RESTORED note the loss and its
end with an event, once; without the main domain the end of a loss is only noted. PLL_LOCK_LOSS in a mode with CCLK, in reset too, or in a
return from its lock on: the main domain is reset, PLL_LOSS is latched, the return runs from step 2; elsewhere it does nothing.
(18_integration.md: R393 to R396, R401, Table 18.4, 16_power.md: R369) -/
def Obligations.ResetsAndClocksActAsStated : Prop :=
  (∀ s : State, ∃ t, exec .porstAssert s = .next t ∧ t.mode = 5 ∧ t.reg .requests = 0 ∧ t.reg .porstLow = 1 ∧ t.frames = [] ∧ t.copies = []
    ∧ t.leases = [] ∧ t.keys = [] ∧ t.staged = [] ∧ t.flash = s.flash ∧ t.serial = s.serial
    ∧ (∀ u i k, ¬(u = 0x001 ∧ (i = 0x5000 ∨ i = 0x5004)) → ¬(u = 0x00D ∧ i = 0x5000) → t.rd u i k = defaultOf s.build u i k))
  ∧ (∀ (serial : Nat) (s : State),
    (s.regN .porstLow = 1 → ∃ t, exec (.porstRelease serial) s = .next t ∧ t.serial = serial % 2 ^ 64 ∧ t.reg .porstLow = 0 ∧ t.phase = 2
      ∧ t.reg .returnStep = 1 ∧ t.reg .returnFrom = 5 ∧ (t.regN .requests).testBit 3 = true)
    ∧ (s.regN .porstLow ≠ 1 → exec (.porstRelease serial) s = .next s))
  ∧ (∀ s : State,
    ((s.regN .porstLow = 1 ∨ s.mode = 5 ∨ s.regN .srstLow = 1) → exec .srstAssert s = .next s)
    ∧ (s.regN .porstLow ≠ 1 → s.mode ≠ 5 → s.regN .srstLow ≠ 1 → s.phase = 2 →
      exec .srstAssert s = .next ((s.setReg .srstLow 1).setReg .srstPending 1))
    ∧ (s.regN .porstLow ≠ 1 → s.mode ≤ 2 → s.regN .srstLow ≠ 1 → s.phase ≠ 2 →
      ∃ t, exec .srstAssert s = .next t ∧ t.mode = 0 ∧ t.phase = 0 ∧ t.reg .srstLow = 1 ∧ t.frames = [] ∧ t.copies = [] ∧ t.leases = []
        ∧ t.flash = s.flash ∧ t.serial = s.serial
        ∧ (s.evHold = none → (∀ i ∈ bookObjects, t.rd 0x004 i 0 = s.rd 0x004 i 0) ∧ ∀ i e, t.ent 0x004 i e = s.ent 0x004 i e))
    ∧ (s.regN .porstLow ≠ 1 → (s.mode = 3 ∨ s.mode = 4) → s.regN .srstLow ≠ 1 → s.phase ≠ 2 →
      ∃ t, exec .srstAssert s = .next t ∧ t.mode = s.mode ∧ t.phase = 2 ∧ t.reg .srstLow = 1 ∧ t.reg .srstPending = 1)
    ∧ (s.regN .srstLow = 1 → s.regN .pfailLow ≠ 1 → exec .srstRelease s = .next (s.setReg .srstLow 0))
    ∧ (s.regN .srstLow ≠ 1 → exec .srstRelease s = .next s))
  ∧ (∀ s : State, s.mainUp = true →
    (s.regN .sdClkLost = 0 → ∃ t, exec .sdClkLost s = .next t
      ∧ ((s.setReg .sdClkLost 1).setReg .sdLostTick (s.tick : Nat)).ButEvents t)
    ∧ (s.regN .sdClkLost ≠ 0 → exec .sdClkLost s = .next s)
    ∧ (s.regN .sdClkLost = 1 → ∃ t, exec .sdClkRestored s = .next t ∧ (s.setReg .sdClkLost 0).ButEvents t)
    ∧ (s.regN .sdClkLost ≠ 1 → exec .sdClkRestored s = .next s))
  ∧ (∀ s : State, s.mainUp = false → s.regN .sdClkLost = 1 → exec .sdClkRestored s = .next (s.setReg .sdClkLost 0))
  ∧ (∀ s : State,
    ((s.regN .porstLow ≠ 0 ∨ (3 ≤ s.mode ∧ s.phase ≠ 2) ∨ (s.phase = 2 ∧ s.regN .returnStep ∉ [3, 4, 6])) →
      exec .pllLockLoss s = .next s)
    ∧ (s.regN .porstLow = 0 → ((s.mode ≤ 2 ∧ s.phase ≠ 2) ∨ (s.phase = 2 ∧ s.regN .returnStep ∈ [3, 4, 6])) → ∃ t, exec .pllLockLoss s = .next t ∧ t.phase = 2 ∧ t.reg .returnStep = 2 ∧ t.reg .returnFrom = 5
      ∧ t.reg .pllLost = 1 ∧ t.reg .requests = 14 ∧ (t.rd 0x000 0x0005 0).testBit 17 = true ∧ t.frames = [] ∧ t.flash = s.flash))

/-- STATS_CLEAR of a block by an agent that may ends with OK and waits; of the statistics group it waits for every block. STATS_CLEAR_APPLY of
one block: nothing waits, its counters are 0, half_range has the bit of each, HALF_RANGE is latched, no other unit changes. STATS_SNAPSHOT:
a slot above 1 or a unit that is not there ends with RANGE, a slot that is being taken, or waits to be, with BUSY (the model's reading, log
entry 54), any other waits and does not end yet. SNAPSHOT_LATCH of one: its slot is CAPTURING, with the unit, the tick after this one, the
number of counters and the agent, and holds the value of every counter of its units. SNAPSHOT_DONE makes it READY; of a slot that is not
being taken it does nothing. (17_statistics.md: R379 to R384, Tables 17.1, 17.4) -/
def Obligations.StatisticsClearAndSnapshot : Prop :=
  (∀ (a : Agent) (u : Nat) (s : State), s.grants a (pathTo u) u 0x7000 0 [] = true →
    ((unitKind? s.build u = some .chStats ∨ unitKind? s.build u = some .alStats) →
      ∃ t, exec (.statsClear a u) s = .next t ∧ t.result = ⟨a, some .ok, []⟩ ∧ t.clearWait = s.clearWait ++ [u])
    ∧ (u = 0x011 → ∃ t, exec (.statsClear a u) s = .next t ∧ t.result = ⟨a, some .ok, []⟩
      ∧ t.clearWait = s.clearWait ++ childrenOf s.build 0x011))
  ∧ (∀ s : State, s.mainUp = true →
    (s.clearWait = [] → exec .statsClearApply s = .next s)
    ∧ (∀ u, s.clearWait = [u] → ∃ t, exec .statsClearApply s = .next t ∧ t.clearWait = []
      ∧ (∀ c ∈ countersOf s.build u, t.rd u c.1 c.2 = 0)
      ∧ t.rd u 0x5000 0 = (countersOf s.build u).foldl (fun x c => x ||| 2 ^ statBit u c.1) 0
      ∧ (t.rd u 0x0005 0).testBit 16 = true ∧ ∀ v i k, v ≠ u → t.rd v i k = s.rd v i k))
  ∧ (∀ (a : Agent) (unit slot : Nat) (s : State), unit < 2 ^ 16 → slot < 2 ^ 8 →
      s.grants a (pathTo 0x011) 0x011 0x7001 0 (toMsb 2 unit ++ toMsb 1 slot) = true →
    ((1 < slot ∨ unitKind? s.build unit = none) →
      ∃ t, exec (.statsSnapshot a unit slot) s = .next t ∧ t.result = ⟨a, some .range, []⟩ ∧ t.snapWait = s.snapWait)
    ∧ (slot ≤ 1 → (unitKind? s.build unit).isSome = true → s.capturing slot = true →
      ∃ t, exec (.statsSnapshot a unit slot) s = .next t ∧ t.result = ⟨a, some .busy, []⟩ ∧ t.snapWait = s.snapWait)
    ∧ (slot ≤ 1 → (unitKind? s.build unit).isSome = true → s.capturing slot = false →
      ∃ t, exec (.statsSnapshot a unit slot) s = .next t ∧ t.result = ⟨a, none, []⟩ ∧ t.snapWait = s.snapWait ++ [⟨slot, unit, a, []⟩]))
  ∧ (∀ (x : Snapshot) (s : State), s.mainUp = true → s.snapWait = [x] →
    ∃ t, exec .snapshotLatch s = .next t ∧ t.snapWait = [] ∧ { x with values := s.counterValues x.unit } ∈ t.snapBusy
      ∧ t.rd 0x011 0x5000 x.slot = 1 ∧ t.rd 0x011 0x5001 x.slot = x.unit ∧ t.rd 0x011 0x5002 x.slot = (s.tick + 1) % 2 ^ 32
      ∧ t.rd 0x011 0x5003 x.slot = (s.counterValues x.unit).length ∧ t.rd 0x011 0x5004 x.slot = leaseCode x.agent
      ∧ ∀ u i k, u ≠ 0x011 → t.rd u i k = s.rd u i k)
  ∧ (∀ (slot : Nat) (s : State),
    (s.snapBusy.find? (fun x => x.slot = slot) = none → exec (.snapshotDone slot) s = .next s)
    ∧ (∀ x, s.mainUp = true → s.snapBusy.find? (fun x => x.slot = slot) = some x →
      ∃ t, exec (.snapshotDone slot) s = .next t ∧ t.rd 0x011 0x5000 slot = 2 ∧ x ∈ t.snapDone
        ∧ t.snapBusy = s.snapBusy.filter (fun y => y.slot ≠ slot)))

/-- In every state whose main domain runs, a mailbox that is not BUSY and is given a READ of unit_rev (index 0x0001, sub-index 0x00) of any unit
of the build by a path to it, ends the request with OK and the octets 1 and 2: the value 0x0102, bits 15:8 the major revision 1, bits 7:0
the minor revision 2. (18_integration.md: R400) -/
def Obligations.EveryUnitReadsItsRevision : Prop :=
  (∀ (p u : Nat) (w : MbWords) (s : State), s.mainUp = true → p < 8 → (s.mailbox p).busy = false → w.cmd.testBit 0 = true → mbOp w = 1 →
      (unitKind? s.build u).isSome = true → s.resolvePath ((mbPath w).getD []) = .here u → mbIndex w = 0x0001 → mbSub w = 0 →
    ∃ t, exec (.mailboxRead p ⟨w, true⟩) s = .next t ∧ t.result = ⟨⟨.host, p⟩, some .ok, [1, 2]⟩)

/-- PORST_RELEASE while PORST_N is low makes the 64 bits of SERIAL_ID the serial. A mailbox READ of graticule.serial (0x00D:0x5000.00) in a
running main domain ends with OK and the eight octets of the serial, most significant first. While the serial is 0, a write of 1 to
graticule.enable (0x00D:0x1000.00) that the checks before its effect allow ends with RANGE and no write joins the pending set, whichever of
the rows OBJECT_WRITE and STAGED_WRITE brings it. (18_integration.md: R389) -/
def Obligations.SerialIsSampledAndGuardsTheFabric : Prop :=
  (∀ (serial : Nat) (s : State), s.regN .porstLow = 1 →
    ∃ t, exec (.porstRelease serial) s = .next t ∧ t.serial = serial % 2 ^ 64)
  ∧ (∀ (p : Nat) (w : MbWords) (s : State), s.mainUp = true → p < 8 → (s.mailbox p).busy = false → w.cmd.testBit 0 = true → mbOp w = 1 →
      s.resolvePath ((mbPath w).getD []) = .here 0x00D → mbIndex w = 0x5000 → mbSub w = 0 →
    ∃ t, exec (.mailboxRead p ⟨w, true⟩) s = .next t ∧ t.result = ⟨⟨.host, p⟩, some .ok, toMsb 8 s.serial⟩)
  ∧ (∀ (a : Agent) (path : List Nat) (s : State), s.grants a path 0x00D 0x1000 0 [1] = true → s.serial = 0 →
    (∃ t, exec (.stagedWrite a path 0x1000 0 [1]) s = .next t ∧ t.result = ⟨a, some .range, []⟩ ∧ t.staged = s.staged)
    ∧ ∃ t, exec (.objectWrite a path 0x1000 0 [1]) s = .next t ∧ t.result = ⟨a, some .range, []⟩ ∧ t.staged = s.staged)
end

