-- ==== Sys2Proof/Laws/Aes.lean ====
section
/-! SUPPORT. The table of the S-box holds its definition's values. -/
namespace Sys2Proof.Machine

theorem sbox_eq_sboxDef : ∀ a < 256, sbox a = sboxDef a := by decide +kernel

end Sys2Proof.Machine
end

