-- ==== Sys2Proof/Laws/Map.lean ====
section
/-! SUPPORT. Laws of finite maps: what a key reads as after a set, and that a set or a filter keeps a map tidy. -/
namespace Sys2Proof.Machine.Map
variable {κ ν : Type} [DecidableEq κ]

@[simp] theorem find?_erase_self (m : Map κ ν) (x : κ) : find? (erase m x) x = none := by
  induction m with
  | nil => rfl
  | cons p t ih =>
    obtain ⟨k, v⟩ := p
    by_cases h : k = x
    · simp [erase, h, ih]
    · simp [erase, find?, h, ih]

theorem find?_erase_ne (m : Map κ ν) {x y : κ} (h : y ≠ x) : find? (erase m x) y = find? m y := by
  induction m with
  | nil => rfl
  | cons p t ih =>
    obtain ⟨k, v⟩ := p
    by_cases hk : k = x
    · subst hk
      simp [erase, find?, ih, Ne.symm h]
    · simp only [erase, hk, if_false, find?, ih]

@[simp] theorem get_set_self [DecidableEq ν] (m : Map κ ν) (x : κ) (v d : ν) : get (set m x v d) x d = v := by
  unfold get set
  split
  · simp_all
  · simp [find?]

theorem get_set_ne [DecidableEq ν] (m : Map κ ν) {x y : κ} (h : y ≠ x) (v d e : ν) : get (set m x v d) y e = get m y e := by
  unfold get set
  split
  · rw [find?_erase_ne m h]
  · simp only [find?, Ne.symm h, if_false, find?_erase_ne m h]

@[simp] theorem find?_set_ne [DecidableEq ν] (m : Map κ ν) {x y : κ} (h : y ≠ x) (v d : ν) : find? (set m x v d) y = find? m y := by
  unfold set
  split
  · rw [find?_erase_ne m h]
  · simp only [find?, Ne.symm h, if_false, find?_erase_ne m h]

/-- The map without a key is a part of the map. -/
theorem erase_sublist (m : Map κ ν) (x : κ) : (erase m x).Sublist m := by
  induction m with
  | nil => exact List.Sublist.refl _
  | cons p t ih =>
    obtain ⟨k, v⟩ := p
    by_cases h : k = x
    · simpa [erase, h] using ih.trans (List.sublist_cons_self _ _)
    · simpa [erase, h] using ih

theorem not_mem_erase (m : Map κ ν) (x : κ) (p : κ × ν) (h : p ∈ erase m x) : p.1 ≠ x := by
  induction m with
  | nil => cases h
  | cons q t ih =>
    obtain ⟨k, v⟩ := q
    by_cases hk : k = x
    · rw [erase, if_pos hk] at h
      exact ih h
    · rw [erase, if_neg hk] at h
      rcases List.mem_cons.mp h with rfl | h
      · exact hk
      · exact ih h

theorem tidy_iff [DecidableEq ν] (m : Map κ ν) (d : κ → ν) : m.tidy d = true ↔ (m.map Prod.fst).Nodup ∧ ∀ p ∈ m, p.2 ≠ d p.1 := by
  simp [tidy]

/-- A part of a tidy map is tidy. -/
theorem tidy_sublist [DecidableEq ν] {m n : Map κ ν} {d : κ → ν} (h : n.Sublist m) (hm : m.tidy d = true) : n.tidy d = true := by
  rw [tidy_iff] at *
  exact ⟨hm.1.sublist (h.map _), fun p hp => hm.2 p (h.subset hp)⟩

theorem tidy_filter [DecidableEq ν] {m : Map κ ν} {d : κ → ν} (p : κ × ν → Bool) (hm : m.tidy d = true) : (tidy (List.filter p m) d) = true :=
  tidy_sublist List.filter_sublist hm

/-- A set at the value that an unlisted key reads as keeps a map tidy. -/
theorem tidy_set [DecidableEq ν] {m : Map κ ν} {d : κ → ν} (x : κ) (v : ν) (hm : m.tidy d = true) : (m.set x v (d x)).tidy d = true := by
  unfold set
  split
  · exact tidy_sublist (erase_sublist m x) hm
  · next hv =>
    have he := (tidy_iff _ _).mp (tidy_sublist (erase_sublist m x) hm)
    rw [tidy_iff]
    refine ⟨?_, ?_⟩
    · simp only [List.map_cons, List.nodup_cons]
      refine ⟨?_, he.1⟩
      intro hx
      obtain ⟨p, hp, rfl⟩ := List.mem_map.mp hx
      exact not_mem_erase m _ p hp rfl
    · intro p hp
      rcases List.mem_cons.mp hp with rfl | hp
      · exact hv
      · exact he.2 p hp

end Sys2Proof.Machine.Map
end

