-- ==== Sys2Proof/Laws/State.lean ====
section
/-! SUPPORT. The laws of the basic operations over the state: what each field is after an update, and what an object, an entry, a register and
a timer read as. -/
namespace Sys2Proof.Machine

/-! ### wr -/

@[simp] theorem State.wr_pending (s : State) (u i k v : Nat) : (s.wr u i k v).pending = s.pending := rfl
@[simp] theorem State.wr_build (s : State) (u i k v : Nat) : (s.wr u i k v).build = s.build := rfl
@[simp] theorem State.wr_slot (s : State) (u i k v : Nat) : (s.wr u i k v).slot = s.slot := rfl
@[simp] theorem State.wr_tab (s : State) (u i k v : Nat) : (s.wr u i k v).tab = s.tab := rfl
@[simp] theorem State.wr_hid (s : State) (u i k v : Nat) : (s.wr u i k v).hid = s.hid := rfl
@[simp] theorem State.wr_timers (s : State) (u i k v : Nat) : (s.wr u i k v).timers = s.timers := rfl
@[simp] theorem State.wr_result (s : State) (u i k v : Nat) : (s.wr u i k v).result = s.result := rfl
@[simp] theorem State.wr_leases (s : State) (u i k v : Nat) : (s.wr u i k v).leases = s.leases := rfl
@[simp] theorem State.wr_claims (s : State) (u i k v : Nat) : (s.wr u i k v).claims = s.claims := rfl
@[simp] theorem State.wr_staged (s : State) (u i k v : Nat) : (s.wr u i k v).staged = s.staged := rfl
@[simp] theorem State.wr_commits (s : State) (u i k v : Nat) : (s.wr u i k v).commits = s.commits := rfl
@[simp] theorem State.wr_mailboxes (s : State) (u i k v : Nat) : (s.wr u i k v).mailboxes = s.mailboxes := rfl
@[simp] theorem State.wr_dpCtx (s : State) (u i k v : Nat) : (s.wr u i k v).dpCtx = s.dpCtx := rfl
@[simp] theorem State.wr_keys (s : State) (u i k v : Nat) : (s.wr u i k v).keys = s.keys := rfl
@[simp] theorem State.wr_replay (s : State) (u i k v : Nat) : (s.wr u i k v).replay = s.replay := rfl
@[simp] theorem State.wr_accessQ (s : State) (u i k v : Nat) : (s.wr u i k v).accessQ = s.accessQ := rfl
@[simp] theorem State.wr_responses (s : State) (u i k v : Nat) : (s.wr u i k v).responses = s.responses := rfl
@[simp] theorem State.wr_relays (s : State) (u i k v : Nat) : (s.wr u i k v).relays = s.relays := rfl
@[simp] theorem State.wr_relayExecs (s : State) (u i k v : Nat) : (s.wr u i k v).relayExecs = s.relayExecs := rfl
@[simp] theorem State.wr_groupCmds (s : State) (u i k v : Nat) : (s.wr u i k v).groupCmds = s.groupCmds := rfl
@[simp] theorem State.wr_frames (s : State) (u i k v : Nat) : (s.wr u i k v).frames = s.frames := rfl
@[simp] theorem State.wr_copies (s : State) (u i k v : Nat) : (s.wr u i k v).copies = s.copies := rfl
@[simp] theorem State.wr_keyQ (s : State) (u i k v : Nat) : (s.wr u i k v).keyQ = s.keyQ := rfl
@[simp] theorem State.wr_decQ (s : State) (u i k v : Nat) : (s.wr u i k v).decQ = s.decQ := rfl
@[simp] theorem State.wr_appQ (s : State) (u i k v : Nat) : (s.wr u i k v).appQ = s.appQ := rfl
@[simp] theorem State.wr_rxNow (s : State) (u i k v : Nat) : (s.wr u i k v).rxNow = s.rxNow := rfl
@[simp] theorem State.wr_asm (s : State) (u i k v : Nat) : (s.wr u i k v).asm = s.asm := rfl
@[simp] theorem State.wr_fifo (s : State) (u i k v : Nat) : (s.wr u i k v).fifo = s.fifo := rfl
@[simp] theorem State.wr_holds (s : State) (u i k v : Nat) : (s.wr u i k v).holds = s.holds := rfl
@[simp] theorem State.wr_genQ (s : State) (u i k v : Nat) : (s.wr u i k v).genQ = s.genQ := rfl
@[simp] theorem State.wr_folds (s : State) (u i k v : Nat) : (s.wr u i k v).folds = s.folds := rfl
@[simp] theorem State.wr_updateQ (s : State) (u i k v : Nat) : (s.wr u i k v).updateQ = s.updateQ := rfl
@[simp] theorem State.wr_repairQ (s : State) (u i k v : Nat) : (s.wr u i k v).repairQ = s.repairQ := rfl
@[simp] theorem State.wr_shadowBad (s : State) (u i k v : Nat) : (s.wr u i k v).shadowBad = s.shadowBad := rfl
@[simp] theorem State.wr_eccBad (s : State) (u i k v : Nat) : (s.wr u i k v).eccBad = s.eccBad := rfl
@[simp] theorem State.wr_gatePend (s : State) (u i k v : Nat) : (s.wr u i k v).gatePend = s.gatePend := rfl
@[simp] theorem State.wr_rateWait (s : State) (u i k v : Nat) : (s.wr u i k v).rateWait = s.rateWait := rfl
@[simp] theorem State.wr_gateOper (s : State) (u i k v : Nat) : (s.wr u i k v).gateOper = s.gateOper := rfl
@[simp] theorem State.wr_scans (s : State) (u i k v : Nat) : (s.wr u i k v).scans = s.scans := rfl
@[simp] theorem State.wr_ahead (s : State) (u i k v : Nat) : (s.wr u i k v).ahead = s.ahead := rfl
@[simp] theorem State.wr_mpOps (s : State) (u i k v : Nat) : (s.wr u i k v).mpOps = s.mpOps := rfl
@[simp] theorem State.wr_cqStaged (s : State) (u i k v : Nat) : (s.wr u i k v).cqStaged = s.cqStaged := rfl
@[simp] theorem State.wr_bqBuffers (s : State) (u i k v : Nat) : (s.wr u i k v).bqBuffers = s.bqBuffers := rfl
@[simp] theorem State.wr_jobQ (s : State) (u i k v : Nat) : (s.wr u i k v).jobQ = s.jobQ := rfl
@[simp] theorem State.wr_latches (s : State) (u i k v : Nat) : (s.wr u i k v).latches = s.latches := rfl
@[simp] theorem State.wr_arbQ (s : State) (u i k v : Nat) : (s.wr u i k v).arbQ = s.arbQ := rfl
@[simp] theorem State.wr_blockWait (s : State) (u i k v : Nat) : (s.wr u i k v).blockWait = s.blockWait := rfl
@[simp] theorem State.wr_levels (s : State) (u i k v : Nat) : (s.wr u i k v).levels = s.levels := rfl
@[simp] theorem State.wr_eqRecords (s : State) (u i k v : Nat) : (s.wr u i k v).eqRecords = s.eqRecords := rfl
@[simp] theorem State.wr_lastFixed (s : State) (u i k v : Nat) : (s.wr u i k v).lastFixed = s.lastFixed := rfl
@[simp] theorem State.wr_lastSd (s : State) (u i k v : Nat) : (s.wr u i k v).lastSd = s.lastSd := rfl
@[simp] theorem State.wr_lastVar (s : State) (u i k v : Nat) : (s.wr u i k v).lastVar = s.lastVar := rfl
@[simp] theorem State.wr_evHold (s : State) (u i k v : Nat) : (s.wr u i k v).evHold = s.evHold := rfl
@[simp] theorem State.wr_monQ (s : State) (u i k v : Nat) : (s.wr u i k v).monQ = s.monQ := rfl
@[simp] theorem State.wr_nvmQ (s : State) (u i k v : Nat) : (s.wr u i k v).nvmQ = s.nvmQ := rfl
@[simp] theorem State.wr_flash (s : State) (u i k v : Nat) : (s.wr u i k v).flash = s.flash := rfl
@[simp] theorem State.wr_free (s : State) (u i k v : Nat) : (s.wr u i k v).free = s.free := rfl
@[simp] theorem State.wr_time (s : State) (u i k v : Nat) : (s.wr u i k v).time = s.time := rfl
@[simp] theorem State.wr_elapsed (s : State) (u i k v : Nat) : (s.wr u i k v).elapsed = s.elapsed := rfl
@[simp] theorem State.wr_timeStep (s : State) (u i k v : Nat) : (s.wr u i k v).timeStep = s.timeStep := rfl
@[simp] theorem State.wr_lsas (s : State) (u i k v : Nat) : (s.wr u i k v).lsas = s.lsas := rfl
@[simp] theorem State.wr_assigns (s : State) (u i k v : Nat) : (s.wr u i k v).assigns = s.assigns := rfl
@[simp] theorem State.wr_assignBuf (s : State) (u i k v : Nat) : (s.wr u i k v).assignBuf = s.assignBuf := rfl
@[simp] theorem State.wr_assignHeld (s : State) (u i k v : Nat) : (s.wr u i k v).assignHeld = s.assignHeld := rfl
@[simp] theorem State.wr_snapWait (s : State) (u i k v : Nat) : (s.wr u i k v).snapWait = s.snapWait := rfl
@[simp] theorem State.wr_snapBusy (s : State) (u i k v : Nat) : (s.wr u i k v).snapBusy = s.snapBusy := rfl
@[simp] theorem State.wr_snapDone (s : State) (u i k v : Nat) : (s.wr u i k v).snapDone = s.snapDone := rfl
@[simp] theorem State.wr_clearWait (s : State) (u i k v : Nat) : (s.wr u i k v).clearWait = s.clearWait := rfl
@[simp] theorem State.wr_modeWait (s : State) (u i k v : Nat) : (s.wr u i k v).modeWait = s.modeWait := rfl
@[simp] theorem State.wr_txOut (s : State) (u i k v : Nat) : (s.wr u i k v).txOut = s.txOut := rfl

/-! ### setEnt -/

@[simp] theorem State.setEnt_pending (s : State) (u i e v : Nat) : (s.setEnt u i e v).pending = s.pending := rfl
@[simp] theorem State.setEnt_build (s : State) (u i e v : Nat) : (s.setEnt u i e v).build = s.build := rfl
@[simp] theorem State.setEnt_slot (s : State) (u i e v : Nat) : (s.setEnt u i e v).slot = s.slot := rfl
@[simp] theorem State.setEnt_obj (s : State) (u i e v : Nat) : (s.setEnt u i e v).obj = s.obj := rfl
@[simp] theorem State.setEnt_hid (s : State) (u i e v : Nat) : (s.setEnt u i e v).hid = s.hid := rfl
@[simp] theorem State.setEnt_timers (s : State) (u i e v : Nat) : (s.setEnt u i e v).timers = s.timers := rfl
@[simp] theorem State.setEnt_result (s : State) (u i e v : Nat) : (s.setEnt u i e v).result = s.result := rfl
@[simp] theorem State.setEnt_leases (s : State) (u i e v : Nat) : (s.setEnt u i e v).leases = s.leases := rfl
@[simp] theorem State.setEnt_claims (s : State) (u i e v : Nat) : (s.setEnt u i e v).claims = s.claims := rfl
@[simp] theorem State.setEnt_staged (s : State) (u i e v : Nat) : (s.setEnt u i e v).staged = s.staged := rfl
@[simp] theorem State.setEnt_commits (s : State) (u i e v : Nat) : (s.setEnt u i e v).commits = s.commits := rfl
@[simp] theorem State.setEnt_mailboxes (s : State) (u i e v : Nat) : (s.setEnt u i e v).mailboxes = s.mailboxes := rfl
@[simp] theorem State.setEnt_dpCtx (s : State) (u i e v : Nat) : (s.setEnt u i e v).dpCtx = s.dpCtx := rfl
@[simp] theorem State.setEnt_keys (s : State) (u i e v : Nat) : (s.setEnt u i e v).keys = s.keys := rfl
@[simp] theorem State.setEnt_replay (s : State) (u i e v : Nat) : (s.setEnt u i e v).replay = s.replay := rfl
@[simp] theorem State.setEnt_accessQ (s : State) (u i e v : Nat) : (s.setEnt u i e v).accessQ = s.accessQ := rfl
@[simp] theorem State.setEnt_responses (s : State) (u i e v : Nat) : (s.setEnt u i e v).responses = s.responses := rfl
@[simp] theorem State.setEnt_relays (s : State) (u i e v : Nat) : (s.setEnt u i e v).relays = s.relays := rfl
@[simp] theorem State.setEnt_relayExecs (s : State) (u i e v : Nat) : (s.setEnt u i e v).relayExecs = s.relayExecs := rfl
@[simp] theorem State.setEnt_groupCmds (s : State) (u i e v : Nat) : (s.setEnt u i e v).groupCmds = s.groupCmds := rfl
@[simp] theorem State.setEnt_frames (s : State) (u i e v : Nat) : (s.setEnt u i e v).frames = s.frames := rfl
@[simp] theorem State.setEnt_copies (s : State) (u i e v : Nat) : (s.setEnt u i e v).copies = s.copies := rfl
@[simp] theorem State.setEnt_keyQ (s : State) (u i e v : Nat) : (s.setEnt u i e v).keyQ = s.keyQ := rfl
@[simp] theorem State.setEnt_decQ (s : State) (u i e v : Nat) : (s.setEnt u i e v).decQ = s.decQ := rfl
@[simp] theorem State.setEnt_appQ (s : State) (u i e v : Nat) : (s.setEnt u i e v).appQ = s.appQ := rfl
@[simp] theorem State.setEnt_rxNow (s : State) (u i e v : Nat) : (s.setEnt u i e v).rxNow = s.rxNow := rfl
@[simp] theorem State.setEnt_asm (s : State) (u i e v : Nat) : (s.setEnt u i e v).asm = s.asm := rfl
@[simp] theorem State.setEnt_fifo (s : State) (u i e v : Nat) : (s.setEnt u i e v).fifo = s.fifo := rfl
@[simp] theorem State.setEnt_holds (s : State) (u i e v : Nat) : (s.setEnt u i e v).holds = s.holds := rfl
@[simp] theorem State.setEnt_genQ (s : State) (u i e v : Nat) : (s.setEnt u i e v).genQ = s.genQ := rfl
@[simp] theorem State.setEnt_folds (s : State) (u i e v : Nat) : (s.setEnt u i e v).folds = s.folds := rfl
@[simp] theorem State.setEnt_updateQ (s : State) (u i e v : Nat) : (s.setEnt u i e v).updateQ = s.updateQ := rfl
@[simp] theorem State.setEnt_repairQ (s : State) (u i e v : Nat) : (s.setEnt u i e v).repairQ = s.repairQ := rfl
@[simp] theorem State.setEnt_shadowBad (s : State) (u i e v : Nat) : (s.setEnt u i e v).shadowBad = s.shadowBad := rfl
@[simp] theorem State.setEnt_eccBad (s : State) (u i e v : Nat) : (s.setEnt u i e v).eccBad = s.eccBad := rfl
@[simp] theorem State.setEnt_gatePend (s : State) (u i e v : Nat) : (s.setEnt u i e v).gatePend = s.gatePend := rfl
@[simp] theorem State.setEnt_rateWait (s : State) (u i e v : Nat) : (s.setEnt u i e v).rateWait = s.rateWait := rfl
@[simp] theorem State.setEnt_gateOper (s : State) (u i e v : Nat) : (s.setEnt u i e v).gateOper = s.gateOper := rfl
@[simp] theorem State.setEnt_scans (s : State) (u i e v : Nat) : (s.setEnt u i e v).scans = s.scans := rfl
@[simp] theorem State.setEnt_ahead (s : State) (u i e v : Nat) : (s.setEnt u i e v).ahead = s.ahead := rfl
@[simp] theorem State.setEnt_mpOps (s : State) (u i e v : Nat) : (s.setEnt u i e v).mpOps = s.mpOps := rfl
@[simp] theorem State.setEnt_cqStaged (s : State) (u i e v : Nat) : (s.setEnt u i e v).cqStaged = s.cqStaged := rfl
@[simp] theorem State.setEnt_bqBuffers (s : State) (u i e v : Nat) : (s.setEnt u i e v).bqBuffers = s.bqBuffers := rfl
@[simp] theorem State.setEnt_jobQ (s : State) (u i e v : Nat) : (s.setEnt u i e v).jobQ = s.jobQ := rfl
@[simp] theorem State.setEnt_latches (s : State) (u i e v : Nat) : (s.setEnt u i e v).latches = s.latches := rfl
@[simp] theorem State.setEnt_arbQ (s : State) (u i e v : Nat) : (s.setEnt u i e v).arbQ = s.arbQ := rfl
@[simp] theorem State.setEnt_blockWait (s : State) (u i e v : Nat) : (s.setEnt u i e v).blockWait = s.blockWait := rfl
@[simp] theorem State.setEnt_levels (s : State) (u i e v : Nat) : (s.setEnt u i e v).levels = s.levels := rfl
@[simp] theorem State.setEnt_eqRecords (s : State) (u i e v : Nat) : (s.setEnt u i e v).eqRecords = s.eqRecords := rfl
@[simp] theorem State.setEnt_lastFixed (s : State) (u i e v : Nat) : (s.setEnt u i e v).lastFixed = s.lastFixed := rfl
@[simp] theorem State.setEnt_lastSd (s : State) (u i e v : Nat) : (s.setEnt u i e v).lastSd = s.lastSd := rfl
@[simp] theorem State.setEnt_lastVar (s : State) (u i e v : Nat) : (s.setEnt u i e v).lastVar = s.lastVar := rfl
@[simp] theorem State.setEnt_evHold (s : State) (u i e v : Nat) : (s.setEnt u i e v).evHold = s.evHold := rfl
@[simp] theorem State.setEnt_monQ (s : State) (u i e v : Nat) : (s.setEnt u i e v).monQ = s.monQ := rfl
@[simp] theorem State.setEnt_nvmQ (s : State) (u i e v : Nat) : (s.setEnt u i e v).nvmQ = s.nvmQ := rfl
@[simp] theorem State.setEnt_flash (s : State) (u i e v : Nat) : (s.setEnt u i e v).flash = s.flash := rfl
@[simp] theorem State.setEnt_free (s : State) (u i e v : Nat) : (s.setEnt u i e v).free = s.free := rfl
@[simp] theorem State.setEnt_time (s : State) (u i e v : Nat) : (s.setEnt u i e v).time = s.time := rfl
@[simp] theorem State.setEnt_elapsed (s : State) (u i e v : Nat) : (s.setEnt u i e v).elapsed = s.elapsed := rfl
@[simp] theorem State.setEnt_timeStep (s : State) (u i e v : Nat) : (s.setEnt u i e v).timeStep = s.timeStep := rfl
@[simp] theorem State.setEnt_lsas (s : State) (u i e v : Nat) : (s.setEnt u i e v).lsas = s.lsas := rfl
@[simp] theorem State.setEnt_assigns (s : State) (u i e v : Nat) : (s.setEnt u i e v).assigns = s.assigns := rfl
@[simp] theorem State.setEnt_assignBuf (s : State) (u i e v : Nat) : (s.setEnt u i e v).assignBuf = s.assignBuf := rfl
@[simp] theorem State.setEnt_assignHeld (s : State) (u i e v : Nat) : (s.setEnt u i e v).assignHeld = s.assignHeld := rfl
@[simp] theorem State.setEnt_snapWait (s : State) (u i e v : Nat) : (s.setEnt u i e v).snapWait = s.snapWait := rfl
@[simp] theorem State.setEnt_snapBusy (s : State) (u i e v : Nat) : (s.setEnt u i e v).snapBusy = s.snapBusy := rfl
@[simp] theorem State.setEnt_snapDone (s : State) (u i e v : Nat) : (s.setEnt u i e v).snapDone = s.snapDone := rfl
@[simp] theorem State.setEnt_clearWait (s : State) (u i e v : Nat) : (s.setEnt u i e v).clearWait = s.clearWait := rfl
@[simp] theorem State.setEnt_modeWait (s : State) (u i e v : Nat) : (s.setEnt u i e v).modeWait = s.modeWait := rfl
@[simp] theorem State.setEnt_txOut (s : State) (u i e v : Nat) : (s.setEnt u i e v).txOut = s.txOut := rfl

/-! ### setReg -/

@[simp] theorem State.setReg_pending (s : State) (h : Hid) (v : Int) : (s.setReg h v).pending = s.pending := rfl
@[simp] theorem State.setReg_build (s : State) (h : Hid) (v : Int) : (s.setReg h v).build = s.build := rfl
@[simp] theorem State.setReg_slot (s : State) (h : Hid) (v : Int) : (s.setReg h v).slot = s.slot := rfl
@[simp] theorem State.setReg_obj (s : State) (h : Hid) (v : Int) : (s.setReg h v).obj = s.obj := rfl
@[simp] theorem State.setReg_tab (s : State) (h : Hid) (v : Int) : (s.setReg h v).tab = s.tab := rfl
@[simp] theorem State.setReg_timers (s : State) (h : Hid) (v : Int) : (s.setReg h v).timers = s.timers := rfl
@[simp] theorem State.setReg_result (s : State) (h : Hid) (v : Int) : (s.setReg h v).result = s.result := rfl
@[simp] theorem State.setReg_leases (s : State) (h : Hid) (v : Int) : (s.setReg h v).leases = s.leases := rfl
@[simp] theorem State.setReg_claims (s : State) (h : Hid) (v : Int) : (s.setReg h v).claims = s.claims := rfl
@[simp] theorem State.setReg_staged (s : State) (h : Hid) (v : Int) : (s.setReg h v).staged = s.staged := rfl
@[simp] theorem State.setReg_commits (s : State) (h : Hid) (v : Int) : (s.setReg h v).commits = s.commits := rfl
@[simp] theorem State.setReg_mailboxes (s : State) (h : Hid) (v : Int) : (s.setReg h v).mailboxes = s.mailboxes := rfl
@[simp] theorem State.setReg_dpCtx (s : State) (h : Hid) (v : Int) : (s.setReg h v).dpCtx = s.dpCtx := rfl
@[simp] theorem State.setReg_keys (s : State) (h : Hid) (v : Int) : (s.setReg h v).keys = s.keys := rfl
@[simp] theorem State.setReg_replay (s : State) (h : Hid) (v : Int) : (s.setReg h v).replay = s.replay := rfl
@[simp] theorem State.setReg_accessQ (s : State) (h : Hid) (v : Int) : (s.setReg h v).accessQ = s.accessQ := rfl
@[simp] theorem State.setReg_responses (s : State) (h : Hid) (v : Int) : (s.setReg h v).responses = s.responses := rfl
@[simp] theorem State.setReg_relays (s : State) (h : Hid) (v : Int) : (s.setReg h v).relays = s.relays := rfl
@[simp] theorem State.setReg_relayExecs (s : State) (h : Hid) (v : Int) : (s.setReg h v).relayExecs = s.relayExecs := rfl
@[simp] theorem State.setReg_groupCmds (s : State) (h : Hid) (v : Int) : (s.setReg h v).groupCmds = s.groupCmds := rfl
@[simp] theorem State.setReg_frames (s : State) (h : Hid) (v : Int) : (s.setReg h v).frames = s.frames := rfl
@[simp] theorem State.setReg_copies (s : State) (h : Hid) (v : Int) : (s.setReg h v).copies = s.copies := rfl
@[simp] theorem State.setReg_keyQ (s : State) (h : Hid) (v : Int) : (s.setReg h v).keyQ = s.keyQ := rfl
@[simp] theorem State.setReg_decQ (s : State) (h : Hid) (v : Int) : (s.setReg h v).decQ = s.decQ := rfl
@[simp] theorem State.setReg_appQ (s : State) (h : Hid) (v : Int) : (s.setReg h v).appQ = s.appQ := rfl
@[simp] theorem State.setReg_rxNow (s : State) (h : Hid) (v : Int) : (s.setReg h v).rxNow = s.rxNow := rfl
@[simp] theorem State.setReg_asm (s : State) (h : Hid) (v : Int) : (s.setReg h v).asm = s.asm := rfl
@[simp] theorem State.setReg_fifo (s : State) (h : Hid) (v : Int) : (s.setReg h v).fifo = s.fifo := rfl
@[simp] theorem State.setReg_holds (s : State) (h : Hid) (v : Int) : (s.setReg h v).holds = s.holds := rfl
@[simp] theorem State.setReg_genQ (s : State) (h : Hid) (v : Int) : (s.setReg h v).genQ = s.genQ := rfl
@[simp] theorem State.setReg_folds (s : State) (h : Hid) (v : Int) : (s.setReg h v).folds = s.folds := rfl
@[simp] theorem State.setReg_updateQ (s : State) (h : Hid) (v : Int) : (s.setReg h v).updateQ = s.updateQ := rfl
@[simp] theorem State.setReg_repairQ (s : State) (h : Hid) (v : Int) : (s.setReg h v).repairQ = s.repairQ := rfl
@[simp] theorem State.setReg_shadowBad (s : State) (h : Hid) (v : Int) : (s.setReg h v).shadowBad = s.shadowBad := rfl
@[simp] theorem State.setReg_eccBad (s : State) (h : Hid) (v : Int) : (s.setReg h v).eccBad = s.eccBad := rfl
@[simp] theorem State.setReg_gatePend (s : State) (h : Hid) (v : Int) : (s.setReg h v).gatePend = s.gatePend := rfl
@[simp] theorem State.setReg_rateWait (s : State) (h : Hid) (v : Int) : (s.setReg h v).rateWait = s.rateWait := rfl
@[simp] theorem State.setReg_gateOper (s : State) (h : Hid) (v : Int) : (s.setReg h v).gateOper = s.gateOper := rfl
@[simp] theorem State.setReg_scans (s : State) (h : Hid) (v : Int) : (s.setReg h v).scans = s.scans := rfl
@[simp] theorem State.setReg_ahead (s : State) (h : Hid) (v : Int) : (s.setReg h v).ahead = s.ahead := rfl
@[simp] theorem State.setReg_mpOps (s : State) (h : Hid) (v : Int) : (s.setReg h v).mpOps = s.mpOps := rfl
@[simp] theorem State.setReg_cqStaged (s : State) (h : Hid) (v : Int) : (s.setReg h v).cqStaged = s.cqStaged := rfl
@[simp] theorem State.setReg_bqBuffers (s : State) (h : Hid) (v : Int) : (s.setReg h v).bqBuffers = s.bqBuffers := rfl
@[simp] theorem State.setReg_jobQ (s : State) (h : Hid) (v : Int) : (s.setReg h v).jobQ = s.jobQ := rfl
@[simp] theorem State.setReg_latches (s : State) (h : Hid) (v : Int) : (s.setReg h v).latches = s.latches := rfl
@[simp] theorem State.setReg_arbQ (s : State) (h : Hid) (v : Int) : (s.setReg h v).arbQ = s.arbQ := rfl
@[simp] theorem State.setReg_blockWait (s : State) (h : Hid) (v : Int) : (s.setReg h v).blockWait = s.blockWait := rfl
@[simp] theorem State.setReg_levels (s : State) (h : Hid) (v : Int) : (s.setReg h v).levels = s.levels := rfl
@[simp] theorem State.setReg_eqRecords (s : State) (h : Hid) (v : Int) : (s.setReg h v).eqRecords = s.eqRecords := rfl
@[simp] theorem State.setReg_lastFixed (s : State) (h : Hid) (v : Int) : (s.setReg h v).lastFixed = s.lastFixed := rfl
@[simp] theorem State.setReg_lastSd (s : State) (h : Hid) (v : Int) : (s.setReg h v).lastSd = s.lastSd := rfl
@[simp] theorem State.setReg_lastVar (s : State) (h : Hid) (v : Int) : (s.setReg h v).lastVar = s.lastVar := rfl
@[simp] theorem State.setReg_evHold (s : State) (h : Hid) (v : Int) : (s.setReg h v).evHold = s.evHold := rfl
@[simp] theorem State.setReg_monQ (s : State) (h : Hid) (v : Int) : (s.setReg h v).monQ = s.monQ := rfl
@[simp] theorem State.setReg_nvmQ (s : State) (h : Hid) (v : Int) : (s.setReg h v).nvmQ = s.nvmQ := rfl
@[simp] theorem State.setReg_flash (s : State) (h : Hid) (v : Int) : (s.setReg h v).flash = s.flash := rfl
@[simp] theorem State.setReg_free (s : State) (h : Hid) (v : Int) : (s.setReg h v).free = s.free := rfl
@[simp] theorem State.setReg_time (s : State) (h : Hid) (v : Int) : (s.setReg h v).time = s.time := rfl
@[simp] theorem State.setReg_elapsed (s : State) (h : Hid) (v : Int) : (s.setReg h v).elapsed = s.elapsed := rfl
@[simp] theorem State.setReg_timeStep (s : State) (h : Hid) (v : Int) : (s.setReg h v).timeStep = s.timeStep := rfl
@[simp] theorem State.setReg_lsas (s : State) (h : Hid) (v : Int) : (s.setReg h v).lsas = s.lsas := rfl
@[simp] theorem State.setReg_assigns (s : State) (h : Hid) (v : Int) : (s.setReg h v).assigns = s.assigns := rfl
@[simp] theorem State.setReg_assignBuf (s : State) (h : Hid) (v : Int) : (s.setReg h v).assignBuf = s.assignBuf := rfl
@[simp] theorem State.setReg_assignHeld (s : State) (h : Hid) (v : Int) : (s.setReg h v).assignHeld = s.assignHeld := rfl
@[simp] theorem State.setReg_snapWait (s : State) (h : Hid) (v : Int) : (s.setReg h v).snapWait = s.snapWait := rfl
@[simp] theorem State.setReg_snapBusy (s : State) (h : Hid) (v : Int) : (s.setReg h v).snapBusy = s.snapBusy := rfl
@[simp] theorem State.setReg_snapDone (s : State) (h : Hid) (v : Int) : (s.setReg h v).snapDone = s.snapDone := rfl
@[simp] theorem State.setReg_clearWait (s : State) (h : Hid) (v : Int) : (s.setReg h v).clearWait = s.clearWait := rfl
@[simp] theorem State.setReg_modeWait (s : State) (h : Hid) (v : Int) : (s.setReg h v).modeWait = s.modeWait := rfl
@[simp] theorem State.setReg_txOut (s : State) (h : Hid) (v : Int) : (s.setReg h v).txOut = s.txOut := rfl

/-! ### startTimer -/

@[simp] theorem State.startTimer_pending (s : State) (x : TimerId) (n : Nat) : (s.startTimer x n).pending = s.pending := rfl
@[simp] theorem State.startTimer_build (s : State) (x : TimerId) (n : Nat) : (s.startTimer x n).build = s.build := rfl
@[simp] theorem State.startTimer_slot (s : State) (x : TimerId) (n : Nat) : (s.startTimer x n).slot = s.slot := rfl
@[simp] theorem State.startTimer_obj (s : State) (x : TimerId) (n : Nat) : (s.startTimer x n).obj = s.obj := rfl
@[simp] theorem State.startTimer_tab (s : State) (x : TimerId) (n : Nat) : (s.startTimer x n).tab = s.tab := rfl
@[simp] theorem State.startTimer_hid (s : State) (x : TimerId) (n : Nat) : (s.startTimer x n).hid = s.hid := rfl
@[simp] theorem State.startTimer_result (s : State) (x : TimerId) (n : Nat) : (s.startTimer x n).result = s.result := rfl
@[simp] theorem State.startTimer_leases (s : State) (x : TimerId) (n : Nat) : (s.startTimer x n).leases = s.leases := rfl
@[simp] theorem State.startTimer_claims (s : State) (x : TimerId) (n : Nat) : (s.startTimer x n).claims = s.claims := rfl
@[simp] theorem State.startTimer_staged (s : State) (x : TimerId) (n : Nat) : (s.startTimer x n).staged = s.staged := rfl
@[simp] theorem State.startTimer_commits (s : State) (x : TimerId) (n : Nat) : (s.startTimer x n).commits = s.commits := rfl
@[simp] theorem State.startTimer_mailboxes (s : State) (x : TimerId) (n : Nat) : (s.startTimer x n).mailboxes = s.mailboxes := rfl
@[simp] theorem State.startTimer_dpCtx (s : State) (x : TimerId) (n : Nat) : (s.startTimer x n).dpCtx = s.dpCtx := rfl
@[simp] theorem State.startTimer_keys (s : State) (x : TimerId) (n : Nat) : (s.startTimer x n).keys = s.keys := rfl
@[simp] theorem State.startTimer_replay (s : State) (x : TimerId) (n : Nat) : (s.startTimer x n).replay = s.replay := rfl
@[simp] theorem State.startTimer_accessQ (s : State) (x : TimerId) (n : Nat) : (s.startTimer x n).accessQ = s.accessQ := rfl
@[simp] theorem State.startTimer_responses (s : State) (x : TimerId) (n : Nat) : (s.startTimer x n).responses = s.responses := rfl
@[simp] theorem State.startTimer_relays (s : State) (x : TimerId) (n : Nat) : (s.startTimer x n).relays = s.relays := rfl
@[simp] theorem State.startTimer_relayExecs (s : State) (x : TimerId) (n : Nat) : (s.startTimer x n).relayExecs = s.relayExecs := rfl
@[simp] theorem State.startTimer_groupCmds (s : State) (x : TimerId) (n : Nat) : (s.startTimer x n).groupCmds = s.groupCmds := rfl
@[simp] theorem State.startTimer_frames (s : State) (x : TimerId) (n : Nat) : (s.startTimer x n).frames = s.frames := rfl
@[simp] theorem State.startTimer_copies (s : State) (x : TimerId) (n : Nat) : (s.startTimer x n).copies = s.copies := rfl
@[simp] theorem State.startTimer_keyQ (s : State) (x : TimerId) (n : Nat) : (s.startTimer x n).keyQ = s.keyQ := rfl
@[simp] theorem State.startTimer_decQ (s : State) (x : TimerId) (n : Nat) : (s.startTimer x n).decQ = s.decQ := rfl
@[simp] theorem State.startTimer_appQ (s : State) (x : TimerId) (n : Nat) : (s.startTimer x n).appQ = s.appQ := rfl
@[simp] theorem State.startTimer_rxNow (s : State) (x : TimerId) (n : Nat) : (s.startTimer x n).rxNow = s.rxNow := rfl
@[simp] theorem State.startTimer_asm (s : State) (x : TimerId) (n : Nat) : (s.startTimer x n).asm = s.asm := rfl
@[simp] theorem State.startTimer_fifo (s : State) (x : TimerId) (n : Nat) : (s.startTimer x n).fifo = s.fifo := rfl
@[simp] theorem State.startTimer_holds (s : State) (x : TimerId) (n : Nat) : (s.startTimer x n).holds = s.holds := rfl
@[simp] theorem State.startTimer_genQ (s : State) (x : TimerId) (n : Nat) : (s.startTimer x n).genQ = s.genQ := rfl
@[simp] theorem State.startTimer_folds (s : State) (x : TimerId) (n : Nat) : (s.startTimer x n).folds = s.folds := rfl
@[simp] theorem State.startTimer_updateQ (s : State) (x : TimerId) (n : Nat) : (s.startTimer x n).updateQ = s.updateQ := rfl
@[simp] theorem State.startTimer_repairQ (s : State) (x : TimerId) (n : Nat) : (s.startTimer x n).repairQ = s.repairQ := rfl
@[simp] theorem State.startTimer_shadowBad (s : State) (x : TimerId) (n : Nat) : (s.startTimer x n).shadowBad = s.shadowBad := rfl
@[simp] theorem State.startTimer_eccBad (s : State) (x : TimerId) (n : Nat) : (s.startTimer x n).eccBad = s.eccBad := rfl
@[simp] theorem State.startTimer_gatePend (s : State) (x : TimerId) (n : Nat) : (s.startTimer x n).gatePend = s.gatePend := rfl
@[simp] theorem State.startTimer_rateWait (s : State) (x : TimerId) (n : Nat) : (s.startTimer x n).rateWait = s.rateWait := rfl
@[simp] theorem State.startTimer_gateOper (s : State) (x : TimerId) (n : Nat) : (s.startTimer x n).gateOper = s.gateOper := rfl
@[simp] theorem State.startTimer_scans (s : State) (x : TimerId) (n : Nat) : (s.startTimer x n).scans = s.scans := rfl
@[simp] theorem State.startTimer_ahead (s : State) (x : TimerId) (n : Nat) : (s.startTimer x n).ahead = s.ahead := rfl
@[simp] theorem State.startTimer_mpOps (s : State) (x : TimerId) (n : Nat) : (s.startTimer x n).mpOps = s.mpOps := rfl
@[simp] theorem State.startTimer_cqStaged (s : State) (x : TimerId) (n : Nat) : (s.startTimer x n).cqStaged = s.cqStaged := rfl
@[simp] theorem State.startTimer_bqBuffers (s : State) (x : TimerId) (n : Nat) : (s.startTimer x n).bqBuffers = s.bqBuffers := rfl
@[simp] theorem State.startTimer_jobQ (s : State) (x : TimerId) (n : Nat) : (s.startTimer x n).jobQ = s.jobQ := rfl
@[simp] theorem State.startTimer_latches (s : State) (x : TimerId) (n : Nat) : (s.startTimer x n).latches = s.latches := rfl
@[simp] theorem State.startTimer_arbQ (s : State) (x : TimerId) (n : Nat) : (s.startTimer x n).arbQ = s.arbQ := rfl
@[simp] theorem State.startTimer_blockWait (s : State) (x : TimerId) (n : Nat) : (s.startTimer x n).blockWait = s.blockWait := rfl
@[simp] theorem State.startTimer_levels (s : State) (x : TimerId) (n : Nat) : (s.startTimer x n).levels = s.levels := rfl
@[simp] theorem State.startTimer_eqRecords (s : State) (x : TimerId) (n : Nat) : (s.startTimer x n).eqRecords = s.eqRecords := rfl
@[simp] theorem State.startTimer_lastFixed (s : State) (x : TimerId) (n : Nat) : (s.startTimer x n).lastFixed = s.lastFixed := rfl
@[simp] theorem State.startTimer_lastSd (s : State) (x : TimerId) (n : Nat) : (s.startTimer x n).lastSd = s.lastSd := rfl
@[simp] theorem State.startTimer_lastVar (s : State) (x : TimerId) (n : Nat) : (s.startTimer x n).lastVar = s.lastVar := rfl
@[simp] theorem State.startTimer_evHold (s : State) (x : TimerId) (n : Nat) : (s.startTimer x n).evHold = s.evHold := rfl
@[simp] theorem State.startTimer_monQ (s : State) (x : TimerId) (n : Nat) : (s.startTimer x n).monQ = s.monQ := rfl
@[simp] theorem State.startTimer_nvmQ (s : State) (x : TimerId) (n : Nat) : (s.startTimer x n).nvmQ = s.nvmQ := rfl
@[simp] theorem State.startTimer_flash (s : State) (x : TimerId) (n : Nat) : (s.startTimer x n).flash = s.flash := rfl
@[simp] theorem State.startTimer_free (s : State) (x : TimerId) (n : Nat) : (s.startTimer x n).free = s.free := rfl
@[simp] theorem State.startTimer_time (s : State) (x : TimerId) (n : Nat) : (s.startTimer x n).time = s.time := rfl
@[simp] theorem State.startTimer_elapsed (s : State) (x : TimerId) (n : Nat) : (s.startTimer x n).elapsed = s.elapsed := rfl
@[simp] theorem State.startTimer_timeStep (s : State) (x : TimerId) (n : Nat) : (s.startTimer x n).timeStep = s.timeStep := rfl
@[simp] theorem State.startTimer_lsas (s : State) (x : TimerId) (n : Nat) : (s.startTimer x n).lsas = s.lsas := rfl
@[simp] theorem State.startTimer_assigns (s : State) (x : TimerId) (n : Nat) : (s.startTimer x n).assigns = s.assigns := rfl
@[simp] theorem State.startTimer_assignBuf (s : State) (x : TimerId) (n : Nat) : (s.startTimer x n).assignBuf = s.assignBuf := rfl
@[simp] theorem State.startTimer_assignHeld (s : State) (x : TimerId) (n : Nat) : (s.startTimer x n).assignHeld = s.assignHeld := rfl
@[simp] theorem State.startTimer_snapWait (s : State) (x : TimerId) (n : Nat) : (s.startTimer x n).snapWait = s.snapWait := rfl
@[simp] theorem State.startTimer_snapBusy (s : State) (x : TimerId) (n : Nat) : (s.startTimer x n).snapBusy = s.snapBusy := rfl
@[simp] theorem State.startTimer_snapDone (s : State) (x : TimerId) (n : Nat) : (s.startTimer x n).snapDone = s.snapDone := rfl
@[simp] theorem State.startTimer_clearWait (s : State) (x : TimerId) (n : Nat) : (s.startTimer x n).clearWait = s.clearWait := rfl
@[simp] theorem State.startTimer_modeWait (s : State) (x : TimerId) (n : Nat) : (s.startTimer x n).modeWait = s.modeWait := rfl
@[simp] theorem State.startTimer_txOut (s : State) (x : TimerId) (n : Nat) : (s.startTimer x n).txOut = s.txOut := rfl

/-! ### stopTimer -/

@[simp] theorem State.stopTimer_pending (s : State) (x : TimerId) : (s.stopTimer x).pending = s.pending := rfl
@[simp] theorem State.stopTimer_build (s : State) (x : TimerId) : (s.stopTimer x).build = s.build := rfl
@[simp] theorem State.stopTimer_slot (s : State) (x : TimerId) : (s.stopTimer x).slot = s.slot := rfl
@[simp] theorem State.stopTimer_obj (s : State) (x : TimerId) : (s.stopTimer x).obj = s.obj := rfl
@[simp] theorem State.stopTimer_tab (s : State) (x : TimerId) : (s.stopTimer x).tab = s.tab := rfl
@[simp] theorem State.stopTimer_hid (s : State) (x : TimerId) : (s.stopTimer x).hid = s.hid := rfl
@[simp] theorem State.stopTimer_result (s : State) (x : TimerId) : (s.stopTimer x).result = s.result := rfl
@[simp] theorem State.stopTimer_leases (s : State) (x : TimerId) : (s.stopTimer x).leases = s.leases := rfl
@[simp] theorem State.stopTimer_claims (s : State) (x : TimerId) : (s.stopTimer x).claims = s.claims := rfl
@[simp] theorem State.stopTimer_staged (s : State) (x : TimerId) : (s.stopTimer x).staged = s.staged := rfl
@[simp] theorem State.stopTimer_commits (s : State) (x : TimerId) : (s.stopTimer x).commits = s.commits := rfl
@[simp] theorem State.stopTimer_mailboxes (s : State) (x : TimerId) : (s.stopTimer x).mailboxes = s.mailboxes := rfl
@[simp] theorem State.stopTimer_dpCtx (s : State) (x : TimerId) : (s.stopTimer x).dpCtx = s.dpCtx := rfl
@[simp] theorem State.stopTimer_keys (s : State) (x : TimerId) : (s.stopTimer x).keys = s.keys := rfl
@[simp] theorem State.stopTimer_replay (s : State) (x : TimerId) : (s.stopTimer x).replay = s.replay := rfl
@[simp] theorem State.stopTimer_accessQ (s : State) (x : TimerId) : (s.stopTimer x).accessQ = s.accessQ := rfl
@[simp] theorem State.stopTimer_responses (s : State) (x : TimerId) : (s.stopTimer x).responses = s.responses := rfl
@[simp] theorem State.stopTimer_relays (s : State) (x : TimerId) : (s.stopTimer x).relays = s.relays := rfl
@[simp] theorem State.stopTimer_relayExecs (s : State) (x : TimerId) : (s.stopTimer x).relayExecs = s.relayExecs := rfl
@[simp] theorem State.stopTimer_groupCmds (s : State) (x : TimerId) : (s.stopTimer x).groupCmds = s.groupCmds := rfl
@[simp] theorem State.stopTimer_frames (s : State) (x : TimerId) : (s.stopTimer x).frames = s.frames := rfl
@[simp] theorem State.stopTimer_copies (s : State) (x : TimerId) : (s.stopTimer x).copies = s.copies := rfl
@[simp] theorem State.stopTimer_keyQ (s : State) (x : TimerId) : (s.stopTimer x).keyQ = s.keyQ := rfl
@[simp] theorem State.stopTimer_decQ (s : State) (x : TimerId) : (s.stopTimer x).decQ = s.decQ := rfl
@[simp] theorem State.stopTimer_appQ (s : State) (x : TimerId) : (s.stopTimer x).appQ = s.appQ := rfl
@[simp] theorem State.stopTimer_rxNow (s : State) (x : TimerId) : (s.stopTimer x).rxNow = s.rxNow := rfl
@[simp] theorem State.stopTimer_asm (s : State) (x : TimerId) : (s.stopTimer x).asm = s.asm := rfl
@[simp] theorem State.stopTimer_fifo (s : State) (x : TimerId) : (s.stopTimer x).fifo = s.fifo := rfl
@[simp] theorem State.stopTimer_holds (s : State) (x : TimerId) : (s.stopTimer x).holds = s.holds := rfl
@[simp] theorem State.stopTimer_genQ (s : State) (x : TimerId) : (s.stopTimer x).genQ = s.genQ := rfl
@[simp] theorem State.stopTimer_folds (s : State) (x : TimerId) : (s.stopTimer x).folds = s.folds := rfl
@[simp] theorem State.stopTimer_updateQ (s : State) (x : TimerId) : (s.stopTimer x).updateQ = s.updateQ := rfl
@[simp] theorem State.stopTimer_repairQ (s : State) (x : TimerId) : (s.stopTimer x).repairQ = s.repairQ := rfl
@[simp] theorem State.stopTimer_shadowBad (s : State) (x : TimerId) : (s.stopTimer x).shadowBad = s.shadowBad := rfl
@[simp] theorem State.stopTimer_eccBad (s : State) (x : TimerId) : (s.stopTimer x).eccBad = s.eccBad := rfl
@[simp] theorem State.stopTimer_gatePend (s : State) (x : TimerId) : (s.stopTimer x).gatePend = s.gatePend := rfl
@[simp] theorem State.stopTimer_rateWait (s : State) (x : TimerId) : (s.stopTimer x).rateWait = s.rateWait := rfl
@[simp] theorem State.stopTimer_gateOper (s : State) (x : TimerId) : (s.stopTimer x).gateOper = s.gateOper := rfl
@[simp] theorem State.stopTimer_scans (s : State) (x : TimerId) : (s.stopTimer x).scans = s.scans := rfl
@[simp] theorem State.stopTimer_ahead (s : State) (x : TimerId) : (s.stopTimer x).ahead = s.ahead := rfl
@[simp] theorem State.stopTimer_mpOps (s : State) (x : TimerId) : (s.stopTimer x).mpOps = s.mpOps := rfl
@[simp] theorem State.stopTimer_cqStaged (s : State) (x : TimerId) : (s.stopTimer x).cqStaged = s.cqStaged := rfl
@[simp] theorem State.stopTimer_bqBuffers (s : State) (x : TimerId) : (s.stopTimer x).bqBuffers = s.bqBuffers := rfl
@[simp] theorem State.stopTimer_jobQ (s : State) (x : TimerId) : (s.stopTimer x).jobQ = s.jobQ := rfl
@[simp] theorem State.stopTimer_latches (s : State) (x : TimerId) : (s.stopTimer x).latches = s.latches := rfl
@[simp] theorem State.stopTimer_arbQ (s : State) (x : TimerId) : (s.stopTimer x).arbQ = s.arbQ := rfl
@[simp] theorem State.stopTimer_blockWait (s : State) (x : TimerId) : (s.stopTimer x).blockWait = s.blockWait := rfl
@[simp] theorem State.stopTimer_levels (s : State) (x : TimerId) : (s.stopTimer x).levels = s.levels := rfl
@[simp] theorem State.stopTimer_eqRecords (s : State) (x : TimerId) : (s.stopTimer x).eqRecords = s.eqRecords := rfl
@[simp] theorem State.stopTimer_lastFixed (s : State) (x : TimerId) : (s.stopTimer x).lastFixed = s.lastFixed := rfl
@[simp] theorem State.stopTimer_lastSd (s : State) (x : TimerId) : (s.stopTimer x).lastSd = s.lastSd := rfl
@[simp] theorem State.stopTimer_lastVar (s : State) (x : TimerId) : (s.stopTimer x).lastVar = s.lastVar := rfl
@[simp] theorem State.stopTimer_evHold (s : State) (x : TimerId) : (s.stopTimer x).evHold = s.evHold := rfl
@[simp] theorem State.stopTimer_monQ (s : State) (x : TimerId) : (s.stopTimer x).monQ = s.monQ := rfl
@[simp] theorem State.stopTimer_nvmQ (s : State) (x : TimerId) : (s.stopTimer x).nvmQ = s.nvmQ := rfl
@[simp] theorem State.stopTimer_flash (s : State) (x : TimerId) : (s.stopTimer x).flash = s.flash := rfl
@[simp] theorem State.stopTimer_free (s : State) (x : TimerId) : (s.stopTimer x).free = s.free := rfl
@[simp] theorem State.stopTimer_time (s : State) (x : TimerId) : (s.stopTimer x).time = s.time := rfl
@[simp] theorem State.stopTimer_elapsed (s : State) (x : TimerId) : (s.stopTimer x).elapsed = s.elapsed := rfl
@[simp] theorem State.stopTimer_timeStep (s : State) (x : TimerId) : (s.stopTimer x).timeStep = s.timeStep := rfl
@[simp] theorem State.stopTimer_lsas (s : State) (x : TimerId) : (s.stopTimer x).lsas = s.lsas := rfl
@[simp] theorem State.stopTimer_assigns (s : State) (x : TimerId) : (s.stopTimer x).assigns = s.assigns := rfl
@[simp] theorem State.stopTimer_assignBuf (s : State) (x : TimerId) : (s.stopTimer x).assignBuf = s.assignBuf := rfl
@[simp] theorem State.stopTimer_assignHeld (s : State) (x : TimerId) : (s.stopTimer x).assignHeld = s.assignHeld := rfl
@[simp] theorem State.stopTimer_snapWait (s : State) (x : TimerId) : (s.stopTimer x).snapWait = s.snapWait := rfl
@[simp] theorem State.stopTimer_snapBusy (s : State) (x : TimerId) : (s.stopTimer x).snapBusy = s.snapBusy := rfl
@[simp] theorem State.stopTimer_snapDone (s : State) (x : TimerId) : (s.stopTimer x).snapDone = s.snapDone := rfl
@[simp] theorem State.stopTimer_clearWait (s : State) (x : TimerId) : (s.stopTimer x).clearWait = s.clearWait := rfl
@[simp] theorem State.stopTimer_modeWait (s : State) (x : TimerId) : (s.stopTimer x).modeWait = s.modeWait := rfl
@[simp] theorem State.stopTimer_txOut (s : State) (x : TimerId) : (s.stopTimer x).txOut = s.txOut := rfl

/-! ### bump -/

@[simp] theorem State.bump_pending (s : State) (u i k n : Nat) : (s.bump u i k n).pending = s.pending := rfl
@[simp] theorem State.bump_build (s : State) (u i k n : Nat) : (s.bump u i k n).build = s.build := rfl
@[simp] theorem State.bump_slot (s : State) (u i k n : Nat) : (s.bump u i k n).slot = s.slot := rfl
@[simp] theorem State.bump_tab (s : State) (u i k n : Nat) : (s.bump u i k n).tab = s.tab := rfl
@[simp] theorem State.bump_hid (s : State) (u i k n : Nat) : (s.bump u i k n).hid = s.hid := rfl
@[simp] theorem State.bump_timers (s : State) (u i k n : Nat) : (s.bump u i k n).timers = s.timers := rfl
@[simp] theorem State.bump_result (s : State) (u i k n : Nat) : (s.bump u i k n).result = s.result := rfl
@[simp] theorem State.bump_leases (s : State) (u i k n : Nat) : (s.bump u i k n).leases = s.leases := rfl
@[simp] theorem State.bump_claims (s : State) (u i k n : Nat) : (s.bump u i k n).claims = s.claims := rfl
@[simp] theorem State.bump_staged (s : State) (u i k n : Nat) : (s.bump u i k n).staged = s.staged := rfl
@[simp] theorem State.bump_commits (s : State) (u i k n : Nat) : (s.bump u i k n).commits = s.commits := rfl
@[simp] theorem State.bump_mailboxes (s : State) (u i k n : Nat) : (s.bump u i k n).mailboxes = s.mailboxes := rfl
@[simp] theorem State.bump_dpCtx (s : State) (u i k n : Nat) : (s.bump u i k n).dpCtx = s.dpCtx := rfl
@[simp] theorem State.bump_keys (s : State) (u i k n : Nat) : (s.bump u i k n).keys = s.keys := rfl
@[simp] theorem State.bump_replay (s : State) (u i k n : Nat) : (s.bump u i k n).replay = s.replay := rfl
@[simp] theorem State.bump_accessQ (s : State) (u i k n : Nat) : (s.bump u i k n).accessQ = s.accessQ := rfl
@[simp] theorem State.bump_responses (s : State) (u i k n : Nat) : (s.bump u i k n).responses = s.responses := rfl
@[simp] theorem State.bump_relays (s : State) (u i k n : Nat) : (s.bump u i k n).relays = s.relays := rfl
@[simp] theorem State.bump_relayExecs (s : State) (u i k n : Nat) : (s.bump u i k n).relayExecs = s.relayExecs := rfl
@[simp] theorem State.bump_groupCmds (s : State) (u i k n : Nat) : (s.bump u i k n).groupCmds = s.groupCmds := rfl
@[simp] theorem State.bump_frames (s : State) (u i k n : Nat) : (s.bump u i k n).frames = s.frames := rfl
@[simp] theorem State.bump_copies (s : State) (u i k n : Nat) : (s.bump u i k n).copies = s.copies := rfl
@[simp] theorem State.bump_keyQ (s : State) (u i k n : Nat) : (s.bump u i k n).keyQ = s.keyQ := rfl
@[simp] theorem State.bump_decQ (s : State) (u i k n : Nat) : (s.bump u i k n).decQ = s.decQ := rfl
@[simp] theorem State.bump_appQ (s : State) (u i k n : Nat) : (s.bump u i k n).appQ = s.appQ := rfl
@[simp] theorem State.bump_rxNow (s : State) (u i k n : Nat) : (s.bump u i k n).rxNow = s.rxNow := rfl
@[simp] theorem State.bump_asm (s : State) (u i k n : Nat) : (s.bump u i k n).asm = s.asm := rfl
@[simp] theorem State.bump_fifo (s : State) (u i k n : Nat) : (s.bump u i k n).fifo = s.fifo := rfl
@[simp] theorem State.bump_holds (s : State) (u i k n : Nat) : (s.bump u i k n).holds = s.holds := rfl
@[simp] theorem State.bump_genQ (s : State) (u i k n : Nat) : (s.bump u i k n).genQ = s.genQ := rfl
@[simp] theorem State.bump_folds (s : State) (u i k n : Nat) : (s.bump u i k n).folds = s.folds := rfl
@[simp] theorem State.bump_updateQ (s : State) (u i k n : Nat) : (s.bump u i k n).updateQ = s.updateQ := rfl
@[simp] theorem State.bump_repairQ (s : State) (u i k n : Nat) : (s.bump u i k n).repairQ = s.repairQ := rfl
@[simp] theorem State.bump_shadowBad (s : State) (u i k n : Nat) : (s.bump u i k n).shadowBad = s.shadowBad := rfl
@[simp] theorem State.bump_eccBad (s : State) (u i k n : Nat) : (s.bump u i k n).eccBad = s.eccBad := rfl
@[simp] theorem State.bump_gatePend (s : State) (u i k n : Nat) : (s.bump u i k n).gatePend = s.gatePend := rfl
@[simp] theorem State.bump_rateWait (s : State) (u i k n : Nat) : (s.bump u i k n).rateWait = s.rateWait := rfl
@[simp] theorem State.bump_gateOper (s : State) (u i k n : Nat) : (s.bump u i k n).gateOper = s.gateOper := rfl
@[simp] theorem State.bump_scans (s : State) (u i k n : Nat) : (s.bump u i k n).scans = s.scans := rfl
@[simp] theorem State.bump_ahead (s : State) (u i k n : Nat) : (s.bump u i k n).ahead = s.ahead := rfl
@[simp] theorem State.bump_mpOps (s : State) (u i k n : Nat) : (s.bump u i k n).mpOps = s.mpOps := rfl
@[simp] theorem State.bump_cqStaged (s : State) (u i k n : Nat) : (s.bump u i k n).cqStaged = s.cqStaged := rfl
@[simp] theorem State.bump_bqBuffers (s : State) (u i k n : Nat) : (s.bump u i k n).bqBuffers = s.bqBuffers := rfl
@[simp] theorem State.bump_jobQ (s : State) (u i k n : Nat) : (s.bump u i k n).jobQ = s.jobQ := rfl
@[simp] theorem State.bump_latches (s : State) (u i k n : Nat) : (s.bump u i k n).latches = s.latches := rfl
@[simp] theorem State.bump_arbQ (s : State) (u i k n : Nat) : (s.bump u i k n).arbQ = s.arbQ := rfl
@[simp] theorem State.bump_blockWait (s : State) (u i k n : Nat) : (s.bump u i k n).blockWait = s.blockWait := rfl
@[simp] theorem State.bump_levels (s : State) (u i k n : Nat) : (s.bump u i k n).levels = s.levels := rfl
@[simp] theorem State.bump_eqRecords (s : State) (u i k n : Nat) : (s.bump u i k n).eqRecords = s.eqRecords := rfl
@[simp] theorem State.bump_lastFixed (s : State) (u i k n : Nat) : (s.bump u i k n).lastFixed = s.lastFixed := rfl
@[simp] theorem State.bump_lastSd (s : State) (u i k n : Nat) : (s.bump u i k n).lastSd = s.lastSd := rfl
@[simp] theorem State.bump_lastVar (s : State) (u i k n : Nat) : (s.bump u i k n).lastVar = s.lastVar := rfl
@[simp] theorem State.bump_evHold (s : State) (u i k n : Nat) : (s.bump u i k n).evHold = s.evHold := rfl
@[simp] theorem State.bump_monQ (s : State) (u i k n : Nat) : (s.bump u i k n).monQ = s.monQ := rfl
@[simp] theorem State.bump_nvmQ (s : State) (u i k n : Nat) : (s.bump u i k n).nvmQ = s.nvmQ := rfl
@[simp] theorem State.bump_flash (s : State) (u i k n : Nat) : (s.bump u i k n).flash = s.flash := rfl
@[simp] theorem State.bump_free (s : State) (u i k n : Nat) : (s.bump u i k n).free = s.free := rfl
@[simp] theorem State.bump_time (s : State) (u i k n : Nat) : (s.bump u i k n).time = s.time := rfl
@[simp] theorem State.bump_elapsed (s : State) (u i k n : Nat) : (s.bump u i k n).elapsed = s.elapsed := rfl
@[simp] theorem State.bump_timeStep (s : State) (u i k n : Nat) : (s.bump u i k n).timeStep = s.timeStep := rfl
@[simp] theorem State.bump_lsas (s : State) (u i k n : Nat) : (s.bump u i k n).lsas = s.lsas := rfl
@[simp] theorem State.bump_assigns (s : State) (u i k n : Nat) : (s.bump u i k n).assigns = s.assigns := rfl
@[simp] theorem State.bump_assignBuf (s : State) (u i k n : Nat) : (s.bump u i k n).assignBuf = s.assignBuf := rfl
@[simp] theorem State.bump_assignHeld (s : State) (u i k n : Nat) : (s.bump u i k n).assignHeld = s.assignHeld := rfl
@[simp] theorem State.bump_snapWait (s : State) (u i k n : Nat) : (s.bump u i k n).snapWait = s.snapWait := rfl
@[simp] theorem State.bump_snapBusy (s : State) (u i k n : Nat) : (s.bump u i k n).snapBusy = s.snapBusy := rfl
@[simp] theorem State.bump_snapDone (s : State) (u i k n : Nat) : (s.bump u i k n).snapDone = s.snapDone := rfl
@[simp] theorem State.bump_clearWait (s : State) (u i k n : Nat) : (s.bump u i k n).clearWait = s.clearWait := rfl
@[simp] theorem State.bump_modeWait (s : State) (u i k n : Nat) : (s.bump u i k n).modeWait = s.modeWait := rfl
@[simp] theorem State.bump_txOut (s : State) (u i k n : Nat) : (s.bump u i k n).txOut = s.txOut := rfl

/-! ### latch -/

@[simp] theorem State.latch_pending (s : State) (u b : Nat) : (s.latch u b).pending = s.pending := rfl
@[simp] theorem State.latch_build (s : State) (u b : Nat) : (s.latch u b).build = s.build := rfl
@[simp] theorem State.latch_slot (s : State) (u b : Nat) : (s.latch u b).slot = s.slot := rfl
@[simp] theorem State.latch_tab (s : State) (u b : Nat) : (s.latch u b).tab = s.tab := rfl
@[simp] theorem State.latch_hid (s : State) (u b : Nat) : (s.latch u b).hid = s.hid := rfl
@[simp] theorem State.latch_timers (s : State) (u b : Nat) : (s.latch u b).timers = s.timers := rfl
@[simp] theorem State.latch_result (s : State) (u b : Nat) : (s.latch u b).result = s.result := rfl
@[simp] theorem State.latch_leases (s : State) (u b : Nat) : (s.latch u b).leases = s.leases := rfl
@[simp] theorem State.latch_claims (s : State) (u b : Nat) : (s.latch u b).claims = s.claims := rfl
@[simp] theorem State.latch_staged (s : State) (u b : Nat) : (s.latch u b).staged = s.staged := rfl
@[simp] theorem State.latch_commits (s : State) (u b : Nat) : (s.latch u b).commits = s.commits := rfl
@[simp] theorem State.latch_mailboxes (s : State) (u b : Nat) : (s.latch u b).mailboxes = s.mailboxes := rfl
@[simp] theorem State.latch_dpCtx (s : State) (u b : Nat) : (s.latch u b).dpCtx = s.dpCtx := rfl
@[simp] theorem State.latch_keys (s : State) (u b : Nat) : (s.latch u b).keys = s.keys := rfl
@[simp] theorem State.latch_replay (s : State) (u b : Nat) : (s.latch u b).replay = s.replay := rfl
@[simp] theorem State.latch_accessQ (s : State) (u b : Nat) : (s.latch u b).accessQ = s.accessQ := rfl
@[simp] theorem State.latch_responses (s : State) (u b : Nat) : (s.latch u b).responses = s.responses := rfl
@[simp] theorem State.latch_relays (s : State) (u b : Nat) : (s.latch u b).relays = s.relays := rfl
@[simp] theorem State.latch_relayExecs (s : State) (u b : Nat) : (s.latch u b).relayExecs = s.relayExecs := rfl
@[simp] theorem State.latch_groupCmds (s : State) (u b : Nat) : (s.latch u b).groupCmds = s.groupCmds := rfl
@[simp] theorem State.latch_frames (s : State) (u b : Nat) : (s.latch u b).frames = s.frames := rfl
@[simp] theorem State.latch_copies (s : State) (u b : Nat) : (s.latch u b).copies = s.copies := rfl
@[simp] theorem State.latch_keyQ (s : State) (u b : Nat) : (s.latch u b).keyQ = s.keyQ := rfl
@[simp] theorem State.latch_decQ (s : State) (u b : Nat) : (s.latch u b).decQ = s.decQ := rfl
@[simp] theorem State.latch_appQ (s : State) (u b : Nat) : (s.latch u b).appQ = s.appQ := rfl
@[simp] theorem State.latch_rxNow (s : State) (u b : Nat) : (s.latch u b).rxNow = s.rxNow := rfl
@[simp] theorem State.latch_asm (s : State) (u b : Nat) : (s.latch u b).asm = s.asm := rfl
@[simp] theorem State.latch_fifo (s : State) (u b : Nat) : (s.latch u b).fifo = s.fifo := rfl
@[simp] theorem State.latch_holds (s : State) (u b : Nat) : (s.latch u b).holds = s.holds := rfl
@[simp] theorem State.latch_genQ (s : State) (u b : Nat) : (s.latch u b).genQ = s.genQ := rfl
@[simp] theorem State.latch_folds (s : State) (u b : Nat) : (s.latch u b).folds = s.folds := rfl
@[simp] theorem State.latch_updateQ (s : State) (u b : Nat) : (s.latch u b).updateQ = s.updateQ := rfl
@[simp] theorem State.latch_repairQ (s : State) (u b : Nat) : (s.latch u b).repairQ = s.repairQ := rfl
@[simp] theorem State.latch_shadowBad (s : State) (u b : Nat) : (s.latch u b).shadowBad = s.shadowBad := rfl
@[simp] theorem State.latch_eccBad (s : State) (u b : Nat) : (s.latch u b).eccBad = s.eccBad := rfl
@[simp] theorem State.latch_gatePend (s : State) (u b : Nat) : (s.latch u b).gatePend = s.gatePend := rfl
@[simp] theorem State.latch_rateWait (s : State) (u b : Nat) : (s.latch u b).rateWait = s.rateWait := rfl
@[simp] theorem State.latch_gateOper (s : State) (u b : Nat) : (s.latch u b).gateOper = s.gateOper := rfl
@[simp] theorem State.latch_scans (s : State) (u b : Nat) : (s.latch u b).scans = s.scans := rfl
@[simp] theorem State.latch_ahead (s : State) (u b : Nat) : (s.latch u b).ahead = s.ahead := rfl
@[simp] theorem State.latch_mpOps (s : State) (u b : Nat) : (s.latch u b).mpOps = s.mpOps := rfl
@[simp] theorem State.latch_cqStaged (s : State) (u b : Nat) : (s.latch u b).cqStaged = s.cqStaged := rfl
@[simp] theorem State.latch_bqBuffers (s : State) (u b : Nat) : (s.latch u b).bqBuffers = s.bqBuffers := rfl
@[simp] theorem State.latch_jobQ (s : State) (u b : Nat) : (s.latch u b).jobQ = s.jobQ := rfl
@[simp] theorem State.latch_latches (s : State) (u b : Nat) : (s.latch u b).latches = s.latches := rfl
@[simp] theorem State.latch_arbQ (s : State) (u b : Nat) : (s.latch u b).arbQ = s.arbQ := rfl
@[simp] theorem State.latch_blockWait (s : State) (u b : Nat) : (s.latch u b).blockWait = s.blockWait := rfl
@[simp] theorem State.latch_levels (s : State) (u b : Nat) : (s.latch u b).levels = s.levels := rfl
@[simp] theorem State.latch_eqRecords (s : State) (u b : Nat) : (s.latch u b).eqRecords = s.eqRecords := rfl
@[simp] theorem State.latch_lastFixed (s : State) (u b : Nat) : (s.latch u b).lastFixed = s.lastFixed := rfl
@[simp] theorem State.latch_lastSd (s : State) (u b : Nat) : (s.latch u b).lastSd = s.lastSd := rfl
@[simp] theorem State.latch_lastVar (s : State) (u b : Nat) : (s.latch u b).lastVar = s.lastVar := rfl
@[simp] theorem State.latch_evHold (s : State) (u b : Nat) : (s.latch u b).evHold = s.evHold := rfl
@[simp] theorem State.latch_monQ (s : State) (u b : Nat) : (s.latch u b).monQ = s.monQ := rfl
@[simp] theorem State.latch_nvmQ (s : State) (u b : Nat) : (s.latch u b).nvmQ = s.nvmQ := rfl
@[simp] theorem State.latch_flash (s : State) (u b : Nat) : (s.latch u b).flash = s.flash := rfl
@[simp] theorem State.latch_free (s : State) (u b : Nat) : (s.latch u b).free = s.free := rfl
@[simp] theorem State.latch_time (s : State) (u b : Nat) : (s.latch u b).time = s.time := rfl
@[simp] theorem State.latch_elapsed (s : State) (u b : Nat) : (s.latch u b).elapsed = s.elapsed := rfl
@[simp] theorem State.latch_timeStep (s : State) (u b : Nat) : (s.latch u b).timeStep = s.timeStep := rfl
@[simp] theorem State.latch_lsas (s : State) (u b : Nat) : (s.latch u b).lsas = s.lsas := rfl
@[simp] theorem State.latch_assigns (s : State) (u b : Nat) : (s.latch u b).assigns = s.assigns := rfl
@[simp] theorem State.latch_assignBuf (s : State) (u b : Nat) : (s.latch u b).assignBuf = s.assignBuf := rfl
@[simp] theorem State.latch_assignHeld (s : State) (u b : Nat) : (s.latch u b).assignHeld = s.assignHeld := rfl
@[simp] theorem State.latch_snapWait (s : State) (u b : Nat) : (s.latch u b).snapWait = s.snapWait := rfl
@[simp] theorem State.latch_snapBusy (s : State) (u b : Nat) : (s.latch u b).snapBusy = s.snapBusy := rfl
@[simp] theorem State.latch_snapDone (s : State) (u b : Nat) : (s.latch u b).snapDone = s.snapDone := rfl
@[simp] theorem State.latch_clearWait (s : State) (u b : Nat) : (s.latch u b).clearWait = s.clearWait := rfl
@[simp] theorem State.latch_modeWait (s : State) (u b : Nat) : (s.latch u b).modeWait = s.modeWait := rfl
@[simp] theorem State.latch_txOut (s : State) (u b : Nat) : (s.latch u b).txOut = s.txOut := rfl

/-! ### complete -/

@[simp] theorem State.complete_pending (s : State) (a : Agent) (c : Abort) (d : List Octet) : (s.complete a c d).pending = s.pending := rfl
@[simp] theorem State.complete_build (s : State) (a : Agent) (c : Abort) (d : List Octet) : (s.complete a c d).build = s.build := rfl
@[simp] theorem State.complete_slot (s : State) (a : Agent) (c : Abort) (d : List Octet) : (s.complete a c d).slot = s.slot := rfl
@[simp] theorem State.complete_obj (s : State) (a : Agent) (c : Abort) (d : List Octet) : (s.complete a c d).obj = s.obj := rfl
@[simp] theorem State.complete_tab (s : State) (a : Agent) (c : Abort) (d : List Octet) : (s.complete a c d).tab = s.tab := rfl
@[simp] theorem State.complete_hid (s : State) (a : Agent) (c : Abort) (d : List Octet) : (s.complete a c d).hid = s.hid := rfl
@[simp] theorem State.complete_timers (s : State) (a : Agent) (c : Abort) (d : List Octet) : (s.complete a c d).timers = s.timers := rfl
@[simp] theorem State.complete_leases (s : State) (a : Agent) (c : Abort) (d : List Octet) : (s.complete a c d).leases = s.leases := rfl
@[simp] theorem State.complete_claims (s : State) (a : Agent) (c : Abort) (d : List Octet) : (s.complete a c d).claims = s.claims := rfl
@[simp] theorem State.complete_staged (s : State) (a : Agent) (c : Abort) (d : List Octet) : (s.complete a c d).staged = s.staged := rfl
@[simp] theorem State.complete_commits (s : State) (a : Agent) (c : Abort) (d : List Octet) : (s.complete a c d).commits = s.commits := rfl
@[simp] theorem State.complete_mailboxes (s : State) (a : Agent) (c : Abort) (d : List Octet) : (s.complete a c d).mailboxes = s.mailboxes := rfl
@[simp] theorem State.complete_dpCtx (s : State) (a : Agent) (c : Abort) (d : List Octet) : (s.complete a c d).dpCtx = s.dpCtx := rfl
@[simp] theorem State.complete_keys (s : State) (a : Agent) (c : Abort) (d : List Octet) : (s.complete a c d).keys = s.keys := rfl
@[simp] theorem State.complete_replay (s : State) (a : Agent) (c : Abort) (d : List Octet) : (s.complete a c d).replay = s.replay := rfl
@[simp] theorem State.complete_accessQ (s : State) (a : Agent) (c : Abort) (d : List Octet) : (s.complete a c d).accessQ = s.accessQ := rfl
@[simp] theorem State.complete_responses (s : State) (a : Agent) (c : Abort) (d : List Octet) : (s.complete a c d).responses = s.responses := rfl
@[simp] theorem State.complete_relays (s : State) (a : Agent) (c : Abort) (d : List Octet) : (s.complete a c d).relays = s.relays := rfl
@[simp] theorem State.complete_relayExecs (s : State) (a : Agent) (c : Abort) (d : List Octet) : (s.complete a c d).relayExecs = s.relayExecs := rfl
@[simp] theorem State.complete_groupCmds (s : State) (a : Agent) (c : Abort) (d : List Octet) : (s.complete a c d).groupCmds = s.groupCmds := rfl
@[simp] theorem State.complete_frames (s : State) (a : Agent) (c : Abort) (d : List Octet) : (s.complete a c d).frames = s.frames := rfl
@[simp] theorem State.complete_copies (s : State) (a : Agent) (c : Abort) (d : List Octet) : (s.complete a c d).copies = s.copies := rfl
@[simp] theorem State.complete_keyQ (s : State) (a : Agent) (c : Abort) (d : List Octet) : (s.complete a c d).keyQ = s.keyQ := rfl
@[simp] theorem State.complete_decQ (s : State) (a : Agent) (c : Abort) (d : List Octet) : (s.complete a c d).decQ = s.decQ := rfl
@[simp] theorem State.complete_appQ (s : State) (a : Agent) (c : Abort) (d : List Octet) : (s.complete a c d).appQ = s.appQ := rfl
@[simp] theorem State.complete_rxNow (s : State) (a : Agent) (c : Abort) (d : List Octet) : (s.complete a c d).rxNow = s.rxNow := rfl
@[simp] theorem State.complete_asm (s : State) (a : Agent) (c : Abort) (d : List Octet) : (s.complete a c d).asm = s.asm := rfl
@[simp] theorem State.complete_fifo (s : State) (a : Agent) (c : Abort) (d : List Octet) : (s.complete a c d).fifo = s.fifo := rfl
@[simp] theorem State.complete_holds (s : State) (a : Agent) (c : Abort) (d : List Octet) : (s.complete a c d).holds = s.holds := rfl
@[simp] theorem State.complete_genQ (s : State) (a : Agent) (c : Abort) (d : List Octet) : (s.complete a c d).genQ = s.genQ := rfl
@[simp] theorem State.complete_folds (s : State) (a : Agent) (c : Abort) (d : List Octet) : (s.complete a c d).folds = s.folds := rfl
@[simp] theorem State.complete_updateQ (s : State) (a : Agent) (c : Abort) (d : List Octet) : (s.complete a c d).updateQ = s.updateQ := rfl
@[simp] theorem State.complete_repairQ (s : State) (a : Agent) (c : Abort) (d : List Octet) : (s.complete a c d).repairQ = s.repairQ := rfl
@[simp] theorem State.complete_shadowBad (s : State) (a : Agent) (c : Abort) (d : List Octet) : (s.complete a c d).shadowBad = s.shadowBad := rfl
@[simp] theorem State.complete_eccBad (s : State) (a : Agent) (c : Abort) (d : List Octet) : (s.complete a c d).eccBad = s.eccBad := rfl
@[simp] theorem State.complete_gatePend (s : State) (a : Agent) (c : Abort) (d : List Octet) : (s.complete a c d).gatePend = s.gatePend := rfl
@[simp] theorem State.complete_rateWait (s : State) (a : Agent) (c : Abort) (d : List Octet) : (s.complete a c d).rateWait = s.rateWait := rfl
@[simp] theorem State.complete_gateOper (s : State) (a : Agent) (c : Abort) (d : List Octet) : (s.complete a c d).gateOper = s.gateOper := rfl
@[simp] theorem State.complete_scans (s : State) (a : Agent) (c : Abort) (d : List Octet) : (s.complete a c d).scans = s.scans := rfl
@[simp] theorem State.complete_ahead (s : State) (a : Agent) (c : Abort) (d : List Octet) : (s.complete a c d).ahead = s.ahead := rfl
@[simp] theorem State.complete_mpOps (s : State) (a : Agent) (c : Abort) (d : List Octet) : (s.complete a c d).mpOps = s.mpOps := rfl
@[simp] theorem State.complete_cqStaged (s : State) (a : Agent) (c : Abort) (d : List Octet) : (s.complete a c d).cqStaged = s.cqStaged := rfl
@[simp] theorem State.complete_bqBuffers (s : State) (a : Agent) (c : Abort) (d : List Octet) : (s.complete a c d).bqBuffers = s.bqBuffers := rfl
@[simp] theorem State.complete_jobQ (s : State) (a : Agent) (c : Abort) (d : List Octet) : (s.complete a c d).jobQ = s.jobQ := rfl
@[simp] theorem State.complete_latches (s : State) (a : Agent) (c : Abort) (d : List Octet) : (s.complete a c d).latches = s.latches := rfl
@[simp] theorem State.complete_arbQ (s : State) (a : Agent) (c : Abort) (d : List Octet) : (s.complete a c d).arbQ = s.arbQ := rfl
@[simp] theorem State.complete_blockWait (s : State) (a : Agent) (c : Abort) (d : List Octet) : (s.complete a c d).blockWait = s.blockWait := rfl
@[simp] theorem State.complete_levels (s : State) (a : Agent) (c : Abort) (d : List Octet) : (s.complete a c d).levels = s.levels := rfl
@[simp] theorem State.complete_eqRecords (s : State) (a : Agent) (c : Abort) (d : List Octet) : (s.complete a c d).eqRecords = s.eqRecords := rfl
@[simp] theorem State.complete_lastFixed (s : State) (a : Agent) (c : Abort) (d : List Octet) : (s.complete a c d).lastFixed = s.lastFixed := rfl
@[simp] theorem State.complete_lastSd (s : State) (a : Agent) (c : Abort) (d : List Octet) : (s.complete a c d).lastSd = s.lastSd := rfl
@[simp] theorem State.complete_lastVar (s : State) (a : Agent) (c : Abort) (d : List Octet) : (s.complete a c d).lastVar = s.lastVar := rfl
@[simp] theorem State.complete_evHold (s : State) (a : Agent) (c : Abort) (d : List Octet) : (s.complete a c d).evHold = s.evHold := rfl
@[simp] theorem State.complete_monQ (s : State) (a : Agent) (c : Abort) (d : List Octet) : (s.complete a c d).monQ = s.monQ := rfl
@[simp] theorem State.complete_nvmQ (s : State) (a : Agent) (c : Abort) (d : List Octet) : (s.complete a c d).nvmQ = s.nvmQ := rfl
@[simp] theorem State.complete_flash (s : State) (a : Agent) (c : Abort) (d : List Octet) : (s.complete a c d).flash = s.flash := rfl
@[simp] theorem State.complete_free (s : State) (a : Agent) (c : Abort) (d : List Octet) : (s.complete a c d).free = s.free := rfl
@[simp] theorem State.complete_time (s : State) (a : Agent) (c : Abort) (d : List Octet) : (s.complete a c d).time = s.time := rfl
@[simp] theorem State.complete_elapsed (s : State) (a : Agent) (c : Abort) (d : List Octet) : (s.complete a c d).elapsed = s.elapsed := rfl
@[simp] theorem State.complete_timeStep (s : State) (a : Agent) (c : Abort) (d : List Octet) : (s.complete a c d).timeStep = s.timeStep := rfl
@[simp] theorem State.complete_lsas (s : State) (a : Agent) (c : Abort) (d : List Octet) : (s.complete a c d).lsas = s.lsas := rfl
@[simp] theorem State.complete_assigns (s : State) (a : Agent) (c : Abort) (d : List Octet) : (s.complete a c d).assigns = s.assigns := rfl
@[simp] theorem State.complete_assignBuf (s : State) (a : Agent) (c : Abort) (d : List Octet) : (s.complete a c d).assignBuf = s.assignBuf := rfl
@[simp] theorem State.complete_assignHeld (s : State) (a : Agent) (c : Abort) (d : List Octet) : (s.complete a c d).assignHeld = s.assignHeld := rfl
@[simp] theorem State.complete_snapWait (s : State) (a : Agent) (c : Abort) (d : List Octet) : (s.complete a c d).snapWait = s.snapWait := rfl
@[simp] theorem State.complete_snapBusy (s : State) (a : Agent) (c : Abort) (d : List Octet) : (s.complete a c d).snapBusy = s.snapBusy := rfl
@[simp] theorem State.complete_snapDone (s : State) (a : Agent) (c : Abort) (d : List Octet) : (s.complete a c d).snapDone = s.snapDone := rfl
@[simp] theorem State.complete_clearWait (s : State) (a : Agent) (c : Abort) (d : List Octet) : (s.complete a c d).clearWait = s.clearWait := rfl
@[simp] theorem State.complete_modeWait (s : State) (a : Agent) (c : Abort) (d : List Octet) : (s.complete a c d).modeWait = s.modeWait := rfl
@[simp] theorem State.complete_txOut (s : State) (a : Agent) (c : Abort) (d : List Octet) : (s.complete a c d).txOut = s.txOut := rfl

/-! ### takeFree -/

@[simp] theorem State.takeFree_pending (s : State) : (s.takeFree.2).pending = s.pending := rfl
@[simp] theorem State.takeFree_build (s : State) : (s.takeFree.2).build = s.build := rfl
@[simp] theorem State.takeFree_slot (s : State) : (s.takeFree.2).slot = s.slot := rfl
@[simp] theorem State.takeFree_obj (s : State) : (s.takeFree.2).obj = s.obj := rfl
@[simp] theorem State.takeFree_tab (s : State) : (s.takeFree.2).tab = s.tab := rfl
@[simp] theorem State.takeFree_hid (s : State) : (s.takeFree.2).hid = s.hid := rfl
@[simp] theorem State.takeFree_timers (s : State) : (s.takeFree.2).timers = s.timers := rfl
@[simp] theorem State.takeFree_result (s : State) : (s.takeFree.2).result = s.result := rfl
@[simp] theorem State.takeFree_leases (s : State) : (s.takeFree.2).leases = s.leases := rfl
@[simp] theorem State.takeFree_claims (s : State) : (s.takeFree.2).claims = s.claims := rfl
@[simp] theorem State.takeFree_staged (s : State) : (s.takeFree.2).staged = s.staged := rfl
@[simp] theorem State.takeFree_commits (s : State) : (s.takeFree.2).commits = s.commits := rfl
@[simp] theorem State.takeFree_mailboxes (s : State) : (s.takeFree.2).mailboxes = s.mailboxes := rfl
@[simp] theorem State.takeFree_dpCtx (s : State) : (s.takeFree.2).dpCtx = s.dpCtx := rfl
@[simp] theorem State.takeFree_keys (s : State) : (s.takeFree.2).keys = s.keys := rfl
@[simp] theorem State.takeFree_replay (s : State) : (s.takeFree.2).replay = s.replay := rfl
@[simp] theorem State.takeFree_accessQ (s : State) : (s.takeFree.2).accessQ = s.accessQ := rfl
@[simp] theorem State.takeFree_responses (s : State) : (s.takeFree.2).responses = s.responses := rfl
@[simp] theorem State.takeFree_relays (s : State) : (s.takeFree.2).relays = s.relays := rfl
@[simp] theorem State.takeFree_relayExecs (s : State) : (s.takeFree.2).relayExecs = s.relayExecs := rfl
@[simp] theorem State.takeFree_groupCmds (s : State) : (s.takeFree.2).groupCmds = s.groupCmds := rfl
@[simp] theorem State.takeFree_frames (s : State) : (s.takeFree.2).frames = s.frames := rfl
@[simp] theorem State.takeFree_copies (s : State) : (s.takeFree.2).copies = s.copies := rfl
@[simp] theorem State.takeFree_keyQ (s : State) : (s.takeFree.2).keyQ = s.keyQ := rfl
@[simp] theorem State.takeFree_decQ (s : State) : (s.takeFree.2).decQ = s.decQ := rfl
@[simp] theorem State.takeFree_appQ (s : State) : (s.takeFree.2).appQ = s.appQ := rfl
@[simp] theorem State.takeFree_rxNow (s : State) : (s.takeFree.2).rxNow = s.rxNow := rfl
@[simp] theorem State.takeFree_asm (s : State) : (s.takeFree.2).asm = s.asm := rfl
@[simp] theorem State.takeFree_fifo (s : State) : (s.takeFree.2).fifo = s.fifo := rfl
@[simp] theorem State.takeFree_holds (s : State) : (s.takeFree.2).holds = s.holds := rfl
@[simp] theorem State.takeFree_genQ (s : State) : (s.takeFree.2).genQ = s.genQ := rfl
@[simp] theorem State.takeFree_folds (s : State) : (s.takeFree.2).folds = s.folds := rfl
@[simp] theorem State.takeFree_updateQ (s : State) : (s.takeFree.2).updateQ = s.updateQ := rfl
@[simp] theorem State.takeFree_repairQ (s : State) : (s.takeFree.2).repairQ = s.repairQ := rfl
@[simp] theorem State.takeFree_shadowBad (s : State) : (s.takeFree.2).shadowBad = s.shadowBad := rfl
@[simp] theorem State.takeFree_eccBad (s : State) : (s.takeFree.2).eccBad = s.eccBad := rfl
@[simp] theorem State.takeFree_gatePend (s : State) : (s.takeFree.2).gatePend = s.gatePend := rfl
@[simp] theorem State.takeFree_rateWait (s : State) : (s.takeFree.2).rateWait = s.rateWait := rfl
@[simp] theorem State.takeFree_gateOper (s : State) : (s.takeFree.2).gateOper = s.gateOper := rfl
@[simp] theorem State.takeFree_scans (s : State) : (s.takeFree.2).scans = s.scans := rfl
@[simp] theorem State.takeFree_ahead (s : State) : (s.takeFree.2).ahead = s.ahead := rfl
@[simp] theorem State.takeFree_mpOps (s : State) : (s.takeFree.2).mpOps = s.mpOps := rfl
@[simp] theorem State.takeFree_cqStaged (s : State) : (s.takeFree.2).cqStaged = s.cqStaged := rfl
@[simp] theorem State.takeFree_bqBuffers (s : State) : (s.takeFree.2).bqBuffers = s.bqBuffers := rfl
@[simp] theorem State.takeFree_jobQ (s : State) : (s.takeFree.2).jobQ = s.jobQ := rfl
@[simp] theorem State.takeFree_latches (s : State) : (s.takeFree.2).latches = s.latches := rfl
@[simp] theorem State.takeFree_arbQ (s : State) : (s.takeFree.2).arbQ = s.arbQ := rfl
@[simp] theorem State.takeFree_blockWait (s : State) : (s.takeFree.2).blockWait = s.blockWait := rfl
@[simp] theorem State.takeFree_levels (s : State) : (s.takeFree.2).levels = s.levels := rfl
@[simp] theorem State.takeFree_eqRecords (s : State) : (s.takeFree.2).eqRecords = s.eqRecords := rfl
@[simp] theorem State.takeFree_lastFixed (s : State) : (s.takeFree.2).lastFixed = s.lastFixed := rfl
@[simp] theorem State.takeFree_lastSd (s : State) : (s.takeFree.2).lastSd = s.lastSd := rfl
@[simp] theorem State.takeFree_lastVar (s : State) : (s.takeFree.2).lastVar = s.lastVar := rfl
@[simp] theorem State.takeFree_evHold (s : State) : (s.takeFree.2).evHold = s.evHold := rfl
@[simp] theorem State.takeFree_monQ (s : State) : (s.takeFree.2).monQ = s.monQ := rfl
@[simp] theorem State.takeFree_nvmQ (s : State) : (s.takeFree.2).nvmQ = s.nvmQ := rfl
@[simp] theorem State.takeFree_flash (s : State) : (s.takeFree.2).flash = s.flash := rfl
@[simp] theorem State.takeFree_time (s : State) : (s.takeFree.2).time = s.time := rfl
@[simp] theorem State.takeFree_elapsed (s : State) : (s.takeFree.2).elapsed = s.elapsed := rfl
@[simp] theorem State.takeFree_timeStep (s : State) : (s.takeFree.2).timeStep = s.timeStep := rfl
@[simp] theorem State.takeFree_lsas (s : State) : (s.takeFree.2).lsas = s.lsas := rfl
@[simp] theorem State.takeFree_assigns (s : State) : (s.takeFree.2).assigns = s.assigns := rfl
@[simp] theorem State.takeFree_assignBuf (s : State) : (s.takeFree.2).assignBuf = s.assignBuf := rfl
@[simp] theorem State.takeFree_assignHeld (s : State) : (s.takeFree.2).assignHeld = s.assignHeld := rfl
@[simp] theorem State.takeFree_snapWait (s : State) : (s.takeFree.2).snapWait = s.snapWait := rfl
@[simp] theorem State.takeFree_snapBusy (s : State) : (s.takeFree.2).snapBusy = s.snapBusy := rfl
@[simp] theorem State.takeFree_snapDone (s : State) : (s.takeFree.2).snapDone = s.snapDone := rfl
@[simp] theorem State.takeFree_clearWait (s : State) : (s.takeFree.2).clearWait = s.clearWait := rfl
@[simp] theorem State.takeFree_modeWait (s : State) : (s.takeFree.2).modeWait = s.modeWait := rfl
@[simp] theorem State.takeFree_txOut (s : State) : (s.takeFree.2).txOut = s.txOut := rfl

/-! ### setFrame -/

@[simp] theorem State.setFrame_pending (s : State) (f : Frame) : (s.setFrame f).pending = s.pending := rfl
@[simp] theorem State.setFrame_build (s : State) (f : Frame) : (s.setFrame f).build = s.build := rfl
@[simp] theorem State.setFrame_slot (s : State) (f : Frame) : (s.setFrame f).slot = s.slot := rfl
@[simp] theorem State.setFrame_obj (s : State) (f : Frame) : (s.setFrame f).obj = s.obj := rfl
@[simp] theorem State.setFrame_tab (s : State) (f : Frame) : (s.setFrame f).tab = s.tab := rfl
@[simp] theorem State.setFrame_hid (s : State) (f : Frame) : (s.setFrame f).hid = s.hid := rfl
@[simp] theorem State.setFrame_timers (s : State) (f : Frame) : (s.setFrame f).timers = s.timers := rfl
@[simp] theorem State.setFrame_result (s : State) (f : Frame) : (s.setFrame f).result = s.result := rfl
@[simp] theorem State.setFrame_leases (s : State) (f : Frame) : (s.setFrame f).leases = s.leases := rfl
@[simp] theorem State.setFrame_claims (s : State) (f : Frame) : (s.setFrame f).claims = s.claims := rfl
@[simp] theorem State.setFrame_staged (s : State) (f : Frame) : (s.setFrame f).staged = s.staged := rfl
@[simp] theorem State.setFrame_commits (s : State) (f : Frame) : (s.setFrame f).commits = s.commits := rfl
@[simp] theorem State.setFrame_mailboxes (s : State) (f : Frame) : (s.setFrame f).mailboxes = s.mailboxes := rfl
@[simp] theorem State.setFrame_dpCtx (s : State) (f : Frame) : (s.setFrame f).dpCtx = s.dpCtx := rfl
@[simp] theorem State.setFrame_keys (s : State) (f : Frame) : (s.setFrame f).keys = s.keys := rfl
@[simp] theorem State.setFrame_replay (s : State) (f : Frame) : (s.setFrame f).replay = s.replay := rfl
@[simp] theorem State.setFrame_accessQ (s : State) (f : Frame) : (s.setFrame f).accessQ = s.accessQ := rfl
@[simp] theorem State.setFrame_responses (s : State) (f : Frame) : (s.setFrame f).responses = s.responses := rfl
@[simp] theorem State.setFrame_relays (s : State) (f : Frame) : (s.setFrame f).relays = s.relays := rfl
@[simp] theorem State.setFrame_relayExecs (s : State) (f : Frame) : (s.setFrame f).relayExecs = s.relayExecs := rfl
@[simp] theorem State.setFrame_groupCmds (s : State) (f : Frame) : (s.setFrame f).groupCmds = s.groupCmds := rfl
@[simp] theorem State.setFrame_copies (s : State) (f : Frame) : (s.setFrame f).copies = s.copies := rfl
@[simp] theorem State.setFrame_keyQ (s : State) (f : Frame) : (s.setFrame f).keyQ = s.keyQ := rfl
@[simp] theorem State.setFrame_decQ (s : State) (f : Frame) : (s.setFrame f).decQ = s.decQ := rfl
@[simp] theorem State.setFrame_appQ (s : State) (f : Frame) : (s.setFrame f).appQ = s.appQ := rfl
@[simp] theorem State.setFrame_rxNow (s : State) (f : Frame) : (s.setFrame f).rxNow = s.rxNow := rfl
@[simp] theorem State.setFrame_asm (s : State) (f : Frame) : (s.setFrame f).asm = s.asm := rfl
@[simp] theorem State.setFrame_fifo (s : State) (f : Frame) : (s.setFrame f).fifo = s.fifo := rfl
@[simp] theorem State.setFrame_holds (s : State) (f : Frame) : (s.setFrame f).holds = s.holds := rfl
@[simp] theorem State.setFrame_genQ (s : State) (f : Frame) : (s.setFrame f).genQ = s.genQ := rfl
@[simp] theorem State.setFrame_folds (s : State) (f : Frame) : (s.setFrame f).folds = s.folds := rfl
@[simp] theorem State.setFrame_updateQ (s : State) (f : Frame) : (s.setFrame f).updateQ = s.updateQ := rfl
@[simp] theorem State.setFrame_repairQ (s : State) (f : Frame) : (s.setFrame f).repairQ = s.repairQ := rfl
@[simp] theorem State.setFrame_shadowBad (s : State) (f : Frame) : (s.setFrame f).shadowBad = s.shadowBad := rfl
@[simp] theorem State.setFrame_eccBad (s : State) (f : Frame) : (s.setFrame f).eccBad = s.eccBad := rfl
@[simp] theorem State.setFrame_gatePend (s : State) (f : Frame) : (s.setFrame f).gatePend = s.gatePend := rfl
@[simp] theorem State.setFrame_rateWait (s : State) (f : Frame) : (s.setFrame f).rateWait = s.rateWait := rfl
@[simp] theorem State.setFrame_gateOper (s : State) (f : Frame) : (s.setFrame f).gateOper = s.gateOper := rfl
@[simp] theorem State.setFrame_scans (s : State) (f : Frame) : (s.setFrame f).scans = s.scans := rfl
@[simp] theorem State.setFrame_ahead (s : State) (f : Frame) : (s.setFrame f).ahead = s.ahead := rfl
@[simp] theorem State.setFrame_mpOps (s : State) (f : Frame) : (s.setFrame f).mpOps = s.mpOps := rfl
@[simp] theorem State.setFrame_cqStaged (s : State) (f : Frame) : (s.setFrame f).cqStaged = s.cqStaged := rfl
@[simp] theorem State.setFrame_bqBuffers (s : State) (f : Frame) : (s.setFrame f).bqBuffers = s.bqBuffers := rfl
@[simp] theorem State.setFrame_jobQ (s : State) (f : Frame) : (s.setFrame f).jobQ = s.jobQ := rfl
@[simp] theorem State.setFrame_latches (s : State) (f : Frame) : (s.setFrame f).latches = s.latches := rfl
@[simp] theorem State.setFrame_arbQ (s : State) (f : Frame) : (s.setFrame f).arbQ = s.arbQ := rfl
@[simp] theorem State.setFrame_blockWait (s : State) (f : Frame) : (s.setFrame f).blockWait = s.blockWait := rfl
@[simp] theorem State.setFrame_levels (s : State) (f : Frame) : (s.setFrame f).levels = s.levels := rfl
@[simp] theorem State.setFrame_eqRecords (s : State) (f : Frame) : (s.setFrame f).eqRecords = s.eqRecords := rfl
@[simp] theorem State.setFrame_lastFixed (s : State) (f : Frame) : (s.setFrame f).lastFixed = s.lastFixed := rfl
@[simp] theorem State.setFrame_lastSd (s : State) (f : Frame) : (s.setFrame f).lastSd = s.lastSd := rfl
@[simp] theorem State.setFrame_lastVar (s : State) (f : Frame) : (s.setFrame f).lastVar = s.lastVar := rfl
@[simp] theorem State.setFrame_evHold (s : State) (f : Frame) : (s.setFrame f).evHold = s.evHold := rfl
@[simp] theorem State.setFrame_monQ (s : State) (f : Frame) : (s.setFrame f).monQ = s.monQ := rfl
@[simp] theorem State.setFrame_nvmQ (s : State) (f : Frame) : (s.setFrame f).nvmQ = s.nvmQ := rfl
@[simp] theorem State.setFrame_flash (s : State) (f : Frame) : (s.setFrame f).flash = s.flash := rfl
@[simp] theorem State.setFrame_free (s : State) (f : Frame) : (s.setFrame f).free = s.free := rfl
@[simp] theorem State.setFrame_time (s : State) (f : Frame) : (s.setFrame f).time = s.time := rfl
@[simp] theorem State.setFrame_elapsed (s : State) (f : Frame) : (s.setFrame f).elapsed = s.elapsed := rfl
@[simp] theorem State.setFrame_timeStep (s : State) (f : Frame) : (s.setFrame f).timeStep = s.timeStep := rfl
@[simp] theorem State.setFrame_lsas (s : State) (f : Frame) : (s.setFrame f).lsas = s.lsas := rfl
@[simp] theorem State.setFrame_assigns (s : State) (f : Frame) : (s.setFrame f).assigns = s.assigns := rfl
@[simp] theorem State.setFrame_assignBuf (s : State) (f : Frame) : (s.setFrame f).assignBuf = s.assignBuf := rfl
@[simp] theorem State.setFrame_assignHeld (s : State) (f : Frame) : (s.setFrame f).assignHeld = s.assignHeld := rfl
@[simp] theorem State.setFrame_snapWait (s : State) (f : Frame) : (s.setFrame f).snapWait = s.snapWait := rfl
@[simp] theorem State.setFrame_snapBusy (s : State) (f : Frame) : (s.setFrame f).snapBusy = s.snapBusy := rfl
@[simp] theorem State.setFrame_snapDone (s : State) (f : Frame) : (s.setFrame f).snapDone = s.snapDone := rfl
@[simp] theorem State.setFrame_clearWait (s : State) (f : Frame) : (s.setFrame f).clearWait = s.clearWait := rfl
@[simp] theorem State.setFrame_modeWait (s : State) (f : Frame) : (s.setFrame f).modeWait = s.modeWait := rfl
@[simp] theorem State.setFrame_txOut (s : State) (f : Frame) : (s.setFrame f).txOut = s.txOut := rfl

/-! ### Objects -/

theorem State.rd_wr (s : State) (u i k v x j l : Nat) :
    (s.wr u i k v).rd x j l = if x = u ∧ j = i ∧ l = k then v else s.rd x j l := by
  unfold State.rd State.wr
  split
  · next h =>
    obtain ⟨rfl, rfl, rfl⟩ := h
    exact Map.get_set_self _ _ _ _
  · next h =>
    exact Map.get_set_ne _ (by simpa [ObjAddr.mk.injEq] using h) _ _ _

@[simp] theorem State.rd_wr_self (s : State) (u i k v : Nat) : (s.wr u i k v).rd u i k = v := by simp [State.rd_wr]

theorem State.rd_wr_ne (s : State) {u i k x j l : Nat} (v : Nat) (h : ¬(x = u ∧ j = i ∧ l = k)) :
    (s.wr u i k v).rd x j l = s.rd x j l := by simp [State.rd_wr, h]

theorem State.rd_bump (s : State) (u i k n x j l : Nat) :
    (s.bump u i k n).rd x j l = if x = u ∧ j = i ∧ l = k then (s.rd u i k + n) % 2 ^ counterBits u i else s.rd x j l :=
  State.rd_wr _ _ _ _ _ _ _ _

@[simp] theorem State.rd_bump_self (s : State) (u i k n : Nat) :
    (s.bump u i k n).rd u i k = (s.rd u i k + n) % 2 ^ counterBits u i := by simp [State.rd_bump]

theorem State.rd_latch (s : State) (u b x j l : Nat) :
    (s.latch u b).rd x j l = if x = u ∧ j = 0x0005 ∧ l = 0 then setBit (s.rd u 0x0005 0) b true else s.rd x j l :=
  State.rd_wr _ _ _ _ _ _ _ _

@[simp] theorem State.rd_setEnt (s : State) (u i e v : Nat) (y j l : Nat) : (s.setEnt u i e v).rd y j l = s.rd y j l := rfl
@[simp] theorem State.rd_setReg (s : State) (h : Hid) (v : Int) (y j l : Nat) : (s.setReg h v).rd y j l = s.rd y j l := rfl
@[simp] theorem State.rd_startTimer (s : State) (x : TimerId) (n : Nat) (y j l : Nat) : (s.startTimer x n).rd y j l = s.rd y j l := rfl
@[simp] theorem State.rd_stopTimer (s : State) (x : TimerId) (y j l : Nat) : (s.stopTimer x).rd y j l = s.rd y j l := rfl
@[simp] theorem State.rd_complete (s : State) (a : Agent) (c : Abort) (d : List Octet) (y j l : Nat) : (s.complete a c d).rd y j l = s.rd y j l := rfl
@[simp] theorem State.rd_takeFree (s : State) (y j l : Nat) : (s.takeFree.2).rd y j l = s.rd y j l := rfl
@[simp] theorem State.rd_setFrame (s : State) (f : Frame) (y j l : Nat) : (s.setFrame f).rd y j l = s.rd y j l := rfl

/-! ### Entries -/

theorem State.ent_setEnt (s : State) (u i e v x j d : Nat) :
    (s.setEnt u i e v).ent x j d = if x = u ∧ j = i ∧ d = e then v else s.ent x j d := by
  unfold State.ent State.setEnt
  split
  · next h =>
    obtain ⟨rfl, rfl, rfl⟩ := h
    exact Map.get_set_self _ _ _ _
  · next h =>
    exact Map.get_set_ne _ (by simpa [EntAddr.mk.injEq] using h) _ _ _

@[simp] theorem State.ent_setEnt_self (s : State) (u i e v : Nat) : (s.setEnt u i e v).ent u i e = v := by simp [State.ent_setEnt]

@[simp] theorem State.ent_wr (s : State) (u i k v : Nat) (y j l : Nat) : (s.wr u i k v).ent y j l = s.ent y j l := rfl
@[simp] theorem State.ent_setReg (s : State) (h : Hid) (v : Int) (y j l : Nat) : (s.setReg h v).ent y j l = s.ent y j l := rfl
@[simp] theorem State.ent_startTimer (s : State) (x : TimerId) (n : Nat) (y j l : Nat) : (s.startTimer x n).ent y j l = s.ent y j l := rfl
@[simp] theorem State.ent_stopTimer (s : State) (x : TimerId) (y j l : Nat) : (s.stopTimer x).ent y j l = s.ent y j l := rfl
@[simp] theorem State.ent_bump (s : State) (u i k n : Nat) (y j l : Nat) : (s.bump u i k n).ent y j l = s.ent y j l := rfl
@[simp] theorem State.ent_latch (s : State) (u b : Nat) (y j l : Nat) : (s.latch u b).ent y j l = s.ent y j l := rfl
@[simp] theorem State.ent_complete (s : State) (a : Agent) (c : Abort) (d : List Octet) (y j l : Nat) : (s.complete a c d).ent y j l = s.ent y j l := rfl
@[simp] theorem State.ent_takeFree (s : State) (y j l : Nat) : (s.takeFree.2).ent y j l = s.ent y j l := rfl
@[simp] theorem State.ent_setFrame (s : State) (f : Frame) (y j l : Nat) : (s.setFrame f).ent y j l = s.ent y j l := rfl

/-! ### Registers -/

theorem State.reg_setReg (s : State) (h g : Hid) (v : Int) : (s.setReg h v).reg g = if g = h then v else s.reg g := by
  unfold State.reg State.setReg
  split
  · next e =>
    subst e
    exact Map.get_set_self _ _ _ _
  · next e => exact Map.get_set_ne _ e _ _ _

@[simp] theorem State.reg_setReg_self (s : State) (h : Hid) (v : Int) : (s.setReg h v).reg h = v := by simp [State.reg_setReg]

theorem State.regN_setReg (s : State) (h g : Hid) (v : Int) : (s.setReg h v).regN g = if g = h then v.toNat else s.regN g := by
  unfold State.regN
  rw [State.reg_setReg]
  split <;> rfl

@[simp] theorem State.reg_wr (s : State) (u i k v : Nat) (g : Hid) : (s.wr u i k v).reg g = s.reg g := rfl
@[simp] theorem State.regN_wr (s : State) (u i k v : Nat) (g : Hid) : (s.wr u i k v).regN g = s.regN g := rfl
@[simp] theorem State.reg_setEnt (s : State) (u i e v : Nat) (g : Hid) : (s.setEnt u i e v).reg g = s.reg g := rfl
@[simp] theorem State.regN_setEnt (s : State) (u i e v : Nat) (g : Hid) : (s.setEnt u i e v).regN g = s.regN g := rfl
@[simp] theorem State.reg_startTimer (s : State) (x : TimerId) (n : Nat) (g : Hid) : (s.startTimer x n).reg g = s.reg g := rfl
@[simp] theorem State.regN_startTimer (s : State) (x : TimerId) (n : Nat) (g : Hid) : (s.startTimer x n).regN g = s.regN g := rfl
@[simp] theorem State.reg_stopTimer (s : State) (x : TimerId) (g : Hid) : (s.stopTimer x).reg g = s.reg g := rfl
@[simp] theorem State.regN_stopTimer (s : State) (x : TimerId) (g : Hid) : (s.stopTimer x).regN g = s.regN g := rfl
@[simp] theorem State.reg_bump (s : State) (u i k n : Nat) (g : Hid) : (s.bump u i k n).reg g = s.reg g := rfl
@[simp] theorem State.regN_bump (s : State) (u i k n : Nat) (g : Hid) : (s.bump u i k n).regN g = s.regN g := rfl
@[simp] theorem State.reg_latch (s : State) (u b : Nat) (g : Hid) : (s.latch u b).reg g = s.reg g := rfl
@[simp] theorem State.regN_latch (s : State) (u b : Nat) (g : Hid) : (s.latch u b).regN g = s.regN g := rfl
@[simp] theorem State.reg_complete (s : State) (a : Agent) (c : Abort) (d : List Octet) (g : Hid) : (s.complete a c d).reg g = s.reg g := rfl
@[simp] theorem State.regN_complete (s : State) (a : Agent) (c : Abort) (d : List Octet) (g : Hid) : (s.complete a c d).regN g = s.regN g := rfl
@[simp] theorem State.reg_takeFree (s : State) (g : Hid) : (s.takeFree.2).reg g = s.reg g := rfl
@[simp] theorem State.regN_takeFree (s : State) (g : Hid) : (s.takeFree.2).regN g = s.regN g := rfl
@[simp] theorem State.reg_setFrame (s : State) (f : Frame) (g : Hid) : (s.setFrame f).reg g = s.reg g := rfl
@[simp] theorem State.regN_setFrame (s : State) (f : Frame) (g : Hid) : (s.setFrame f).regN g = s.regN g := rfl

/-! ### Timers -/

theorem State.timer_startTimer (s : State) (x y : TimerId) (n : Nat) :
    (s.startTimer x n).timer y = if y = x then some n else s.timer y := by
  unfold State.timer State.startTimer
  split
  · next e =>
    subst e
    simp [Map.find?]
  · next e => simp only [Map.find?, Ne.symm e, if_false, Map.find?_erase_ne _ e]

theorem State.timer_stopTimer (s : State) (x y : TimerId) : (s.stopTimer x).timer y = if y = x then none else s.timer y := by
  unfold State.timer State.stopTimer
  split
  · next e =>
    subst e
    exact Map.find?_erase_self _ _
  · next e => exact Map.find?_erase_ne _ e

@[simp] theorem State.timer_wr (s : State) (u i k v : Nat) (y : TimerId) : (s.wr u i k v).timer y = s.timer y := rfl
@[simp] theorem State.timer_setEnt (s : State) (u i e v : Nat) (y : TimerId) : (s.setEnt u i e v).timer y = s.timer y := rfl
@[simp] theorem State.timer_setReg (s : State) (h : Hid) (v : Int) (y : TimerId) : (s.setReg h v).timer y = s.timer y := rfl
@[simp] theorem State.timer_bump (s : State) (u i k n : Nat) (y : TimerId) : (s.bump u i k n).timer y = s.timer y := rfl
@[simp] theorem State.timer_latch (s : State) (u b : Nat) (y : TimerId) : (s.latch u b).timer y = s.timer y := rfl
@[simp] theorem State.timer_complete (s : State) (a : Agent) (c : Abort) (d : List Octet) (y : TimerId) : (s.complete a c d).timer y = s.timer y := rfl
@[simp] theorem State.timer_takeFree (s : State) (y : TimerId) : (s.takeFree.2).timer y = s.timer y := rfl
@[simp] theorem State.timer_setFrame (s : State) (f : Frame) (y : TimerId) : (s.setFrame f).timer y = s.timer y := rfl

end Sys2Proof.Machine
end

