-- ==== Sys2Proof/Laws/Events.lean ====
section
/-! SUPPORT. What recording an event and raising a cause leave as it is (State.ButEvents), once for every operation of FieldBook.lean and
Cause.lean; a command that gathers its events answers what its meaning answers, but for them. -/
namespace Sys2Proof.Machine
namespace State.ButEvents
variable {r s t : State}

theorem refl (s : State) : s.ButEvents s := ⟨rfl, fun _ _ _ _ _ => rfl, fun _ _ _ _ _ => rfl, fun _ _ => rfl, fun _ _ => rfl⟩

theorem trans (h : r.ButEvents s) (k : s.ButEvents t) : r.ButEvents t where
  fields := by
    have e := k.fields
    rw [h.fields] at e
    exact e
  objs u i j a b := (k.objs u i j a b).trans (h.objs u i j a b)
  ents u i e a b := (k.ents u i e a b).trans (h.ents u i e a b)
  regs x a := (k.regs x a).trans (h.regs x a)
  timer x a := (k.timer x a).trans (h.timer x a)

theorem of_snd {α : Type} {p : α × State} {a : α} (e : p = (a, t)) (h : r.ButEvents p.2) : r.ButEvents t := by
  rw [e] at h
  exact h

theorem wr (s : State) {u : Nat} (i k v : Nat) (hi : eventObj u i = true := by decide) : s.ButEvents (s.wr u i k v) where
  fields := rfl
  objs x j l a _ := State.rd_wr_ne s v (by rintro ⟨rfl, rfl, -⟩; simp [a] at hi)
  ents _ _ _ _ _ := rfl
  regs _ _ := rfl
  timer _ _ := rfl

theorem bump (s : State) {u : Nat} (i k n : Nat) (hi : eventObj u i = true := by decide) : s.ButEvents (s.bump u i k n) := wr s _ _ _ hi

theorem wake (s : State) : s.ButEvents s.wake := by
  unfold State.wake
  split
  · exact {
      fields := rfl
      objs := fun x j l _ c => State.rd_wr_ne s _ (fun h => c ⟨h.1, h.2.1⟩)
      ents := fun _ _ _ _ _ => rfl
      regs := fun _ _ => rfl
      timer := fun _ _ => rfl }
  · exact refl s

theorem setEnt (s : State) {u : Nat} (i e v : Nat) (hu : u = 0x002 ∨ u = 0x004) : s.ButEvents (s.setEnt u i e v) where
  fields := rfl
  objs _ _ _ _ _ := rfl
  ents x j l a b := by
    rw [State.ent_setEnt, if_neg]
    omega
  regs _ _ := rfl
  timer _ _ := rfl

theorem setReg (s : State) {h : Hid} (v : Int) (hh : h.ofEvents = true) : s.ButEvents (s.setReg h v) where
  fields := rfl
  objs _ _ _ _ _ := rfl
  ents _ _ _ _ _ := rfl
  regs x a := by
    rw [State.reg_setReg, if_neg]
    rintro rfl
    simp [a] at hh
  timer _ _ := rfl

theorem hour (s : State) (n : Nat) : s.ButEvents (s.startTimer .budgetHour n) where
  fields := rfl
  objs _ _ _ _ _ := rfl
  ents _ _ _ _ _ := rfl
  regs _ _ := rfl
  timer x a := by rw [State.timer_startTimer, if_neg a]

/-- A change of the other fields of the book. -/
theorem other (s : State) {a : List Latch} {b c : Option LastFixed} {d : Option LastVar} {e : Option (List HeldEvent)} {f : List MonPending}
    {g : Nat} :
    s.ButEvents { s with latches := a, lastFixed := b, lastSd := c, lastVar := d, evHold := e, monQ := f, free := g } :=
  ⟨rfl, fun _ _ _ _ _ => rfl, fun _ _ _ _ _ => rfl, fun _ _ => rfl, fun _ _ => rfl⟩

theorem foldl {α : Type} {f : State → α → State} (hf : ∀ (u : State) x, u.ButEvents (f u x)) (l : List α) (s : State) : s.ButEvents (l.foldl f s) := by
  induction l generalizing s with
  | nil => exact refl s
  | cons x l ih => exact (hf s x).trans (ih _)

/-- The same with a condition that chooses. -/
theorem ite {p : Prop} [Decidable p] (h : r.ButEvents s) (k : r.ButEvents t) : r.ButEvents (if p then s else t) := by
  split <;> assumption

theorem setSrc (s : State) (src st n : Nat) : s.ButEvents (s.setSrc src st n) :=
  (setEnt s _ _ _ (.inl rfl)).trans (setEnt _ _ _ _ (.inl rfl))

theorem raiseEdge (s : State) (src : Nat) : s.ButEvents (s.raiseEdge src) := by
  unfold State.raiseEdge
  split
  · exact (setSrc s _ _ _).trans (setReg _ _ rfl)
  · exact (setSrc s _ _ _).trans (setReg _ _ rfl)
  · exact setSrc s _ _ _

theorem raiseShared (s : State) (src c : Nat) : s.ButEvents (s.raiseShared src c) := by
  unfold State.raiseShared
  split
  · exact refl s
  · dsimp only
    split <;> exact (other s).trans (setSrc _ _ _ _)

theorem raise (s : State) (c : Nat) : s.ButEvents (s.raise c) := by
  unfold State.raise
  split
  · dsimp only
    split
    · exact (wake s).trans (raiseShared _ _ _)
    · split
      · exact wake s
      · exact (wake s).trans (raiseEdge _ _)
  · exact refl s

theorem ringWrite (s : State) (o : Nat) (l : List Octet) : s.ButEvents (s.ringWrite o l) :=
  foldl (fun u _ => setEnt u _ _ _ (.inr rfl)) _ s

theorem dropOldest (s : State) : s.ButEvents s.dropOldest :=
  ((wr s _ _ _).trans (wr _ _ _ _)).trans (bump _ _ _ _)

theorem makeRoom (k : Nat) (s : State) (a b n : Nat) : s.ButEvents (State.makeRoom k s a b n) := by
  induction k generalizing s with
  | zero => exact refl s
  | succ k ih =>
    unfold State.makeRoom
    dsimp only
    split
    · exact refl s
    · split
      · exact (dropOldest s).trans (ih _)
      · exact refl s

theorem budgetDrop (s : State) (v : Nat) : s.ButEvents (s.budgetDrop v) := by
  unfold State.budgetDrop
  refine .trans (bump (u := 0x005) s 0x8001 0 1) (.trans ?_ (.trans (setReg _ _ rfl) (setReg _ _ rfl)))
  split
  · exact refl _
  · exact hour _ _

theorem programStart (s : State) : s.ButEvents s.programStart := by
  unfold State.programStart
  exact .ite (refl s) (setReg s _ rfl)

theorem offer (s : State) (c u : Nat) (p : List Octet) (r : RingName) (q n t : Nat) (f : Bool) :
    s.ButEvents (s.offer c u p r q n t f).2 := by
  unfold State.offer
  dsimp only
  split
  · exact refl s
  · split
    · exact refl s
    · split
      · exact refl s
      · split
        · exact .ite (refl s) (bump s _ _ _)
        · split
          · exact budgetDrop s _
          · refine .trans ?_ (.trans (wr _ _ _ _) (.trans (other _) (.trans (wr _ _ _ _) (programStart _))))
            split
            · exact refl s
            · exact wr s _ _ _

theorem foldOffer (s : State) (c u : Nat) (p : List Octet) (r : RingName) (q n t : Nat) (f g : Bool) :
    s.ButEvents (s.foldOffer c u p r q n t f g).2 := by
  unfold State.foldOffer
  split
  · exact other s
  · exact offer s _ _ _ _ _ _ _ _

theorem fbEvent (s : State) (c : Nat) : s.ButEvents (s.fbEvent c) := by
  unfold State.fbEvent
  split
  · exact raise s _
  · exact refl s

theorem newVar (s : State) (c u : Nat) (p : List Octet) (n : Bool) : s.ButEvents (s.newVar c u p n) := by
  unfold State.newVar
  extract_lets +onlyGivenNames n1 next wraps at1 seq s1 s2 s3
  have h1 : s.ButEvents s1 := makeRoom 128 s _ _ _
  have h2 : s.ButEvents s2 := h1.trans (.ite ((wr s1 _ _ _).trans (wr _ _ _ _)) (refl s1))
  have h3 : s.ButEvents s3 := h2.trans (.ite (ringWrite s2 _ _) (refl s2))
  clear_value n1 next wraps at1 seq s1 s2 s3
  split
  next res s4 e =>
  have h4 : s.ButEvents s4 := h3.trans (of_snd e (offer s3 c u p .var seq 1 _ n))
  clear e
  extract_lets s5 s6
  have h5 : s.ButEvents s5 := h4.trans (ringWrite _ _ _)
  have h6 : s.ButEvents s6 := h5.trans ((wr _ _ _ _).trans ((wr _ _ _ _).trans (bump _ _ _ _)))
  exact h6.trans ((other _).trans (fbEvent _ _))

theorem recordVar (s : State) (c u : Nat) (p : List Octet) (n : Bool) : s.ButEvents (s.recordVar c u p n) := by
  unfold State.recordVar
  split
  · split
    · extract_lets +onlyGivenNames rep flags s1
      have h1 : s.ButEvents s1 := (ringWrite s _ _).trans (bump _ _ _ _)
      clear_value rep flags s1
      split
      next res s2 e => exact (h1.trans (of_snd e (foldOffer s1 _ _ _ _ _ _ _ _ _))).trans ((other _).trans (ringWrite _ _ _))
    · exact newVar s _ _ _ _
  · exact newVar s _ _ _ _

theorem newFixed (s : State) (c u : Nat) (v : List (Nat × Nat)) (n : Bool) (p0 p1 q : Nat) : s.ButEvents (s.newFixed c u v n p0 p1 q) := by
  unfold State.newFixed
  extract_lets +onlyGivenNames full s1 s2 s3 s4
  have h1 : s.ButEvents s1 := setEnt s _ _ _ (.inr rfl)
  have h2 : s.ButEvents s2 := h1.trans ((wr _ _ _ _).trans (bump _ _ _ _))
  have h3 : s.ButEvents s3 := h2.trans (.trans (.ite (setReg s2 _ rfl) (refl s2)) (setReg _ _ rfl))
  have h4 : s.ButEvents s4 := h3.trans (.ite (raise s3 _) (setReg s3 _ rfl))
  clear_value full s1 s2 s3 s4
  split
  next res s5 e => exact (h4.trans (of_snd e (offer s4 _ _ _ _ _ _ _ _))).trans ((other _).trans (fbEvent _ _))

theorem recordFixed (s : State) (c u : Nat) (v : List (Nat × Nat)) (n : Bool) : s.ButEvents (s.recordFixed c u v n) := by
  unfold State.recordFixed
  dsimp only
  split
  · split
    · generalize field (foldFixed _) 80 8 = n1
      exact ((setEnt s 0x6001 _ _ (.inr rfl)).trans (foldOffer _ c u (payloadOctets v) .fixed _ n1 _ n _)).trans (other _)
    · exact newFixed s _ _ _ _ _ _ _
  · exact newFixed s _ _ _ _ _ _ _

theorem newSd (s : State) (c u p0 p1 q : Nat) : s.ButEvents (s.newSd c u p0 p1 q) := by
  unfold State.newSd
  split
  next f s0 e =>
  extract_lets +onlyGivenNames s1 s2 s3 s4 s5
  have h1 : s.ButEvents s1 := .trans (of_snd e (other s)) (setEnt _ _ _ _ (.inr rfl))
  have h2 : s.ButEvents s2 := h1.trans (wr _ _ _ _)
  have h3 : s.ButEvents s3 := h2.trans (other _)
  have h4 : s.ButEvents s4 := h3.trans (.ite (setReg s3 _ rfl) (refl s3))
  have h5 : s.ButEvents s5 := h4.trans (setReg _ _ rfl)
  exact .ite (h5.trans (setReg _ _ rfl)) h5

theorem recordSd (s : State) (c u : Nat) (v : List (Nat × Nat)) : s.ButEvents (s.recordSd c u v) := by
  unfold State.recordSd
  dsimp only
  split
  · split
    · exact (setEnt s _ _ _ (.inr rfl)).trans (.ite (setReg _ _ rfl) (refl _))
    · exact newSd s _ _ _ _ _
  · exact newSd s _ _ _ _ _

theorem recordNow (s : State) (e : HeldEvent) : s.ButEvents (s.recordNow e) := by
  unfold State.recordNow
  split
  · exact recordSd s _ _ _
  · exact recordFixed s _ _ _ _
  · exact recordVar s _ _ _ _

theorem record (s : State) (c u : Nat) (v : List (Nat × Nat)) (n : Bool) : s.ButEvents (s.record c u v n) := by
  unfold State.record
  dsimp only
  split
  · exact other s
  · exact recordNow s _

theorem writeHeld (s : State) : s.ButEvents s.writeHeld := (other s).trans (foldl recordNow _ _)

theorem flushHeld (s : State) : s.ButEvents s.flushHeld := by
  unfold State.flushHeld
  split
  · exact (writeHeld s).trans (other _)
  · exact refl s

end State.ButEvents

/-- The state in which a command that gathers its events runs. -/
def State.holding (s : State) : State := match s.evHold with | some _ => s | none => { s with evHold := some [] }

/-- A command that gathers its events answers what its meaning answers, but for them. -/
theorem gathered_next {s u : State} {f : State → Host.Outcome State Fault Refusal} (h : f s.holding = .next u) :
    ∃ t, gathered s f = .next t ∧ u.ButEvents t := by
  unfold State.holding at h
  unfold gathered
  cases e : s.evHold with
  | some l =>
    simp only [e] at h ⊢
    exact ⟨u, h, .refl u⟩
  | none =>
    simp only [e] at h ⊢
    simp only [h]
    exact ⟨_, rfl, .writeHeld u⟩

theorem together_butEvents {s : State} {f : State → State} : (f s.holding).ButEvents (s.together f) := by
  cases e : s.evHold with
  | some l =>
    simp only [State.holding, State.together, e]
    exact .refl _
  | none =>
    simp only [State.holding, State.together, e]
    exact .writeHeld _

end Sys2Proof.Machine
end

