-- ==== Sys2Proof/Laws/Memory.lean ====
section
/-! SUPPORT. Laws of the flash memory: every operation keeps the canonical form, and what an address reads as after each. -/
namespace Sys2Proof.Machine

theorem Memory.rising_mono {a b : Nat} {m : List Host.Cell} (h : a ≤ b) (hm : Memory.rising b m = true) : Memory.rising a m = true := by
  cases m with
  | nil => rfl
  | cons c t =>
    simp only [Memory.rising, Bool.and_eq_true, decide_eq_true_eq] at hm ⊢
    exact ⟨⟨by omega, hm.1.2⟩, hm.2⟩

/-- A write at or above the bound keeps the form. -/
theorem Memory.rising_write {lo a : Nat} {m : List Host.Cell} (v : Octet) (ha : lo ≤ a) (hm : Memory.rising lo m = true) :
    Memory.rising lo (Memory.write m a v) = true := by
  induction m generalizing lo with
  | nil =>
    unfold Memory.write
    split
    · rfl
    · next hv => simp [Memory.rising, ha, hv]
  | cons c t ih =>
    simp only [Memory.rising, Bool.and_eq_true, decide_eq_true_eq] at hm
    unfold Memory.write
    split
    · next hlt =>
      simp only [Memory.rising, Bool.and_eq_true, decide_eq_true_eq]
      exact ⟨hm.1, ih (by omega) hm.2⟩
    · split
      · next heq =>
        split
        · exact Memory.rising_mono (by omega) hm.2
        · next hv =>
          simp only [Memory.rising, Bool.and_eq_true, decide_eq_true_eq]
          exact ⟨⟨ha, hv⟩, heq ▸ hm.2⟩
      · next hlt heq =>
        split
        · simp only [Memory.rising, Bool.and_eq_true, decide_eq_true_eq]
          exact hm
        · next hv =>
          simp only [Memory.rising, Bool.and_eq_true, decide_eq_true_eq]
          exact ⟨⟨ha, hv⟩, ⟨by omega, hm.1.2⟩, hm.2⟩

theorem Memory.wf_write {m : List Host.Cell} (a : Nat) (v : Octet) (hm : Memory.wf m = true) : Memory.wf (Memory.write m a v) = true :=
  Memory.rising_write v (Nat.zero_le a) hm

theorem Memory.wf_program {m : List Host.Cell} (a : Nat) (l : List Octet) (hm : Memory.wf m = true) :
    Memory.wf (Memory.program m a l) = true := by
  induction l generalizing m a with
  | nil => exact hm
  | cons o t ih => exact ih _ (Memory.wf_write _ _ hm)

theorem Memory.rising_filter {lo : Nat} {m : List Host.Cell} (p : Host.Cell → Bool) (hm : Memory.rising lo m = true) :
    Memory.rising lo (m.filter p) = true := by
  induction m generalizing lo with
  | nil => rfl
  | cons c t ih =>
    simp only [Memory.rising, Bool.and_eq_true, decide_eq_true_eq] at hm
    by_cases hp : p c = true
    · rw [List.filter_cons_of_pos hp]
      simp only [Memory.rising, Bool.and_eq_true, decide_eq_true_eq]
      exact ⟨hm.1, ih hm.2⟩
    · rw [List.filter_cons_of_neg hp]
      exact Memory.rising_mono (by omega) (ih hm.2)

theorem Memory.wf_erase {m : List Host.Cell} (a n : Nat) (hm : Memory.wf m = true) : Memory.wf (Memory.erase m a n) = true :=
  Memory.rising_filter _ hm

/-- Below the bound nothing is listed. -/
theorem Memory.read_below {lo a : Nat} {m : List Host.Cell} (ha : a < lo) (hm : Memory.rising lo m = true) :
    Memory.read m a = Memory.erased := by
  cases m with
  | nil => rfl
  | cons c t =>
    simp only [Memory.rising, Bool.and_eq_true, decide_eq_true_eq] at hm
    unfold Memory.read
    rw [if_neg (by omega), if_pos (by omega)]

/-- A read after a write gives the octet written. -/
theorem Memory.read_write_self {lo a : Nat} {m : List Host.Cell} (v : Octet) (hm : Memory.rising lo m = true) :
    Memory.read (Memory.write m a v) a = v := by
  induction m generalizing lo with
  | nil =>
    unfold Memory.write
    split
    · next hv => simp [Memory.read, hv]
    · simp [Memory.read]
  | cons c t ih =>
    simp only [Memory.rising, Bool.and_eq_true, decide_eq_true_eq] at hm
    unfold Memory.write
    split
    · next hlt =>
      unfold Memory.read
      rw [if_neg (by omega), if_neg (by omega)]
      exact ih hm.2
    · split
      · next heq =>
        split
        · next hv => rw [Memory.read_below (by omega) hm.2, hv]
        · simp [Memory.read]
      · next hlt heq =>
        split
        · next hv =>
          unfold Memory.read
          rw [if_neg heq, if_pos (by omega), hv]
        · simp [Memory.read]

/-- A write leaves every other address as it was. -/
theorem Memory.read_write_ne {lo a b : Nat} {m : List Host.Cell} (v : Octet) (hb : b ≠ a) (hm : Memory.rising lo m = true) :
    Memory.read (Memory.write m a v) b = Memory.read m b := by
  induction m generalizing lo with
  | nil =>
    unfold Memory.write
    split
    · rfl
    · simp only [Memory.read, Ne.symm hb, if_false, ite_self]
  | cons c t ih =>
    simp only [Memory.rising, Bool.and_eq_true, decide_eq_true_eq] at hm
    unfold Memory.write
    split
    · unfold Memory.read
      rw [ih hm.2]
    · split
      · next hlt heq =>
        split
        · conv_rhs => unfold Memory.read
          rw [if_neg (by omega)]
          split
          · exact Memory.read_below (by omega) hm.2
          · rfl
        · unfold Memory.read
          rw [if_neg (Ne.symm hb), if_neg (by omega : ¬ c.1 = b), heq]
      · next hlt heq =>
        split
        · rfl
        · conv_lhs => unfold Memory.read
          rw [if_neg (Ne.symm hb)]
          split
          · next hab =>
            conv_rhs => unfold Memory.read
            rw [if_neg (by omega), if_pos (by omega)]
          · rfl

/-- An erased address reads as erased, the others as before. -/
theorem Memory.read_erase {lo a n b : Nat} {m : List Host.Cell} (hm : Memory.rising lo m = true) :
    Memory.read (Memory.erase m a n) b = if a ≤ b ∧ b < a + n then Memory.erased else Memory.read m b := by
  induction m generalizing lo with
  | nil => simp [Memory.erase, Memory.read]
  | cons c t ih =>
    simp only [Memory.rising, Bool.and_eq_true, decide_eq_true_eq] at hm
    have h2 := ih hm.2
    unfold Memory.erase at h2 ⊢
    by_cases hp : (decide (c.1 < a) || decide (a + n ≤ c.1)) = true
    · rw [List.filter_cons_of_pos (p := fun c : Host.Cell => decide (c.1 < a) || decide (a + n ≤ c.1)) hp]
      unfold Memory.read
      simp only [Bool.or_eq_true, decide_eq_true_eq] at hp
      by_cases hc : c.1 = b
      · rw [if_pos hc, if_pos hc, if_neg (by omega)]
      · rw [if_neg hc, if_neg hc]
        by_cases hlt : b < c.1
        · rw [if_pos hlt, if_pos hlt, ite_self]
        · rw [if_neg hlt, if_neg hlt, h2]
    · rw [List.filter_cons_of_neg (p := fun c : Host.Cell => decide (c.1 < a) || decide (a + n ≤ c.1)) hp, h2]
      simp only [Bool.or_eq_true, decide_eq_true_eq, not_or, Nat.not_lt, Nat.not_le] at hp
      by_cases hin : a ≤ b ∧ b < a + n
      · rw [if_pos hin, if_pos hin]
      · rw [if_neg hin, if_neg hin]
        conv_rhs => unfold Memory.read
        rw [if_neg (by omega)]
        split
        · exact Memory.read_below (by omega) hm.2
        · rfl

end Sys2Proof.Machine
end

