-- ==== Sys2Proof/Laws/Keeps.lean ====
section
/-! SUPPORT. What no operation of the block changes, as one relation between the state before and the state after: the build, the queue of
commands, the canonical form of the stores; a free value is never taken twice. One lemma for each operation follows in the files Keeps*.lean.
-/
namespace Sys2Proof.Machine

/-- `t` has come from `s`: the build and the queue are the same, no free value's number has come back, and stores in canonical form have
stayed so. -/
structure Keeps (s t : State) : Prop where
  build   : t.build = s.build
  pending : t.pending = s.pending
  free    : s.free ≤ t.free
  canon   : s.canon = true → t.canon = true

theorem State.canon_iff (s : State) :
    s.canon = true ↔ s.objTidy = true ∧ s.tabTidy = true ∧ s.hidTidy = true ∧ Memory.wf s.flash = true := by
  simp [State.canon, and_assoc]

namespace Keeps
variable {r s t : State}

theorem refl (s : State) : Keeps s s := ⟨rfl, rfl, Nat.le_refl _, id⟩

theorem trans (h : Keeps r s) (k : Keeps s t) : Keeps r t :=
  ⟨k.build.trans h.build, k.pending.trans h.pending, Nat.le_trans h.free k.free, fun c => k.canon (h.canon c)⟩

/-- A change of other fields. -/
theorem other
    {slot_ : Nat} {timers_ : Map TimerId Nat} {result_ : Completion} {leases_ : List Lease} {claims_ : List Claim} {staged_ :
    List StagedWrite} {commits_ : List CommitOp} {mailboxes_ : Map Nat Mailbox} {dpCtx_ : Map (AgentKind × Nat) DpCtx} {keys_
    : Map Nat Nat} {replay_ : List (Nat × Nat)} {accessQ_ : List AccessReq} {responses_ : List Response} {relays_ : List
    Relay} {relayExecs_ : List RelayExec} {groupCmds_ : List GroupCmd} {frames_ : List Frame} {copies_ : List Copy} {keyQ_ :
    List Nat} {decQ_ : List Nat} {appQ_ : List Nat} {rxNow_ : Map Nat Nat} {asm_ : List AsmCtx} {fifo_ : List FifoCell}
    {holds_ : Map (Nat × Nat) Nat} {genQ_ : List GenFrame} {folds_ : List FoldSlot} {updateQ_ : List TableUpdate} {repairQ_ :
    List Nat} {shadowBad_ : List Nat} {eccBad_ : List (Bool × Nat)} {gatePend_ : Map Nat (Nat × Nat × List Nat)} {rateWait_ :
    Map Nat Nat} {gateOper_ : Map Nat (Nat × List Nat)} {scans_ : Map Nat Nat} {ahead_ : List AheadEntry} {mpOps_ : List MpOp}
    {cqStaged_ : List (Nat × CqEntry)} {bqBuffers_ : List BqBuffer} {jobQ_ : List Nat} {latches_ : List Latch} {arbQ_ : List
    ArbWrite} {blockWait_ : List BlockWrite} {levels_ : List StackItem} {eqRecords_ : List (Nat × Nat × List Octet)}
    {lastFixed_ : Option LastFixed} {lastSd_ : Option LastFixed} {lastVar_ : Option LastVar} {evHold_ : Option (List
    HeldEvent)} {monQ_ : List MonPending} {nvmQ_ : List NvmOp} {time_ : Nat} {elapsed_ : Nat} {timeStep_ : Option (Agent ×
    Bool × Int)} {lsas_ : List Lsa} {assigns_ : List Assign} {assignBuf_ : Option AssignTable} {assignHeld_ : Option
    AssignTable} {snapWait_ : List Snapshot} {snapBusy_ : List Snapshot} {snapDone_ : List Snapshot} {clearWait_ : List Nat}
    {modeWait_ : Option Nat} {txOut_ : Map Nat (List Octet)}
    (h : Keeps r s) : Keeps r (State.mk
      s.pending s.build slot_ s.obj s.tab s.hid timers_ result_ leases_ claims_ staged_ commits_ mailboxes_ dpCtx_ keys_
      replay_ accessQ_ responses_ relays_ relayExecs_ groupCmds_ frames_ copies_ keyQ_ decQ_ appQ_ rxNow_ asm_ fifo_ holds_
      genQ_ folds_ updateQ_ repairQ_ shadowBad_ eccBad_ gatePend_ rateWait_ gateOper_ scans_ ahead_ mpOps_ cqStaged_
      bqBuffers_ jobQ_ latches_ arbQ_ blockWait_ levels_ eqRecords_ lastFixed_ lastSd_ lastVar_ evHold_ monQ_ nvmQ_ s.flash
      s.free time_ elapsed_ timeStep_ lsas_ assigns_ assignBuf_ assignHeld_ snapWait_ snapBusy_ snapDone_ clearWait_ modeWait_
      txOut_) :=
  h.trans ⟨rfl, rfl, Nat.le_refl _, id⟩

/-- A condition that chooses. -/
theorem ite {p : Prop} [Decidable p] (h : Keeps r s) (k : Keeps r t) : Keeps r (if p then s else t) := by
  split <;> assumption

/-- An operation for each element of a list. -/
theorem foldl {α : Type} {f : State → α → State} {l : List α} (h : Keeps r s) (hf : ∀ u x, Keeps r u → Keeps r (f u x)) :
    Keeps r (l.foldl f s) := by
  induction l generalizing s with
  | nil => exact h
  | cons x l ih => exact ih (hf s x h)

/-- The same with a second result. -/
theorem foldl_snd {α β : Type} {f : β × State → α → β × State} {l : List α} {b : β} (h : Keeps r s)
    (hf : ∀ p x, Keeps r p.2 → Keeps r (f p x).2) : Keeps r (l.foldl f (b, s)).2 := by
  suffices ∀ p : β × State, Keeps r p.2 → Keeps r (l.foldl f p).2 from this (b, s) h
  induction l with
  | nil => exact fun _ h => h
  | cons x l ih => exact fun p h => ih _ (hf p x h)

theorem of_snd {α : Type} {p : α × State} {a : α} (e : p = (a, t)) (h : Keeps r p.2) : Keeps r t := by
  rw [e] at h
  exact h

theorem of_snd_snd {α β : Type} {p : α × β × State} {a : α} {b : β} (e : p = (a, b, t)) (h : Keeps r p.2.2) : Keeps r t := by
  rw [e] at h
  exact h

end Keeps

/-- An optional state keeps what is kept. -/
def KeepsSome (s : State) (o : Option State) : Prop := ∀ t, o = some t → Keeps s t

theorem Keeps.of_some {r t : State} {o : Option State} (e : o = some t) (h : KeepsSome r o) : Keeps r t := h t e

/-- A meaning keeps what is kept: its next state does. -/
def KeepsNext (s : State) (o : Host.Outcome State Fault Refusal) : Prop := ∀ t, o = .next t → Keeps s t

namespace KeepsNext
variable {s t : State}

theorem next (h : Keeps s t) : KeepsNext s (.next t) := by
  intro u e
  cases e
  exact h

theorem refused (x : Refusal) : KeepsNext s (.refused x) := by
  intro u e
  cases e

end KeepsNext
end Sys2Proof.Machine
end

