-- ==== Sys2Proof/Laws/KeepsOps.lean ====
section
/-! SUPPORT. What the operations of Ops.lean keep (Keeps.lean). -/
set_option linter.unusedTactic false
set_option linter.unreachableTactic false
namespace Sys2Proof.Machine

theorem State.wr_keeps {r_ : State} (s : State) (u i k v : Nat) (h_ : Keeps r_ s) : Keeps r_ (State.wr s u i k v) := by
  refine h_.trans ⟨rfl, rfl, Nat.le_refl _, fun c => ?_⟩
  rw [State.canon_iff] at c ⊢
  exact ⟨Map.tidy_set (d := fun a : ObjAddr => defaultOf s.build a.unit a.idx a.sub) ⟨u, i, k⟩ v c.1, c.2⟩

theorem State.setEnt_keeps {r_ : State} (s : State) (u i e v : Nat) (h_ : Keeps r_ s) : Keeps r_ (State.setEnt s u i e v) := by
  refine h_.trans ⟨rfl, rfl, Nat.le_refl _, fun c => ?_⟩
  rw [State.canon_iff] at c ⊢
  exact ⟨c.1, Map.tidy_set (d := fun a : EntAddr => tabDefault s.build a.unit a.idx a.entry) ⟨u, i, e⟩ v c.2.1, c.2.2⟩

theorem State.setEntField_keeps {r_ : State} (s : State) (u : Nat) (i : Nat) (e : Nat) (lo : Nat) (w : Nat) (v : Nat) (h_ : Keeps r_ s) : Keeps r_ (State.setEntField s u i e lo w v) := by
  unfold State.setEntField
  repeat' with_reducible first
    | assumption
    | exact Keeps.refl _
    | apply State.setEnt_keeps
    | apply Keeps.foldl
    | apply Keeps.foldl_snd
    | dsimp only
    | split
    | (refine Keeps.of_some (by assumption) ?_)
    | (refine Keeps.of_snd (by assumption) ?_)
    | (refine Keeps.of_snd_snd (by assumption) ?_)
    | (intro _ _ _; beta_reduce)
    | (fail_if_no_progress apply Keeps.other)
    | intro _

theorem State.setReg_keeps {r_ : State} (s : State) (h : Hid) (v : Int) (h_ : Keeps r_ s) : Keeps r_ (State.setReg s h v) := by
  refine h_.trans ⟨rfl, rfl, Nat.le_refl _, fun c => ?_⟩
  rw [State.canon_iff] at c ⊢
  exact ⟨c.1, c.2.1, Map.tidy_set (d := fun _ => 0) _ _ c.2.2.1, c.2.2.2⟩

theorem State.startTimer_keeps {r_ : State} (s : State) (t : TimerId) (n : Nat) (h_ : Keeps r_ s) : Keeps r_ (State.startTimer s t n) := by
  unfold State.startTimer
  repeat' with_reducible first
    | assumption
    | exact Keeps.refl _
    | apply Keeps.foldl
    | apply Keeps.foldl_snd
    | dsimp only
    | split
    | (refine Keeps.of_some (by assumption) ?_)
    | (refine Keeps.of_snd (by assumption) ?_)
    | (refine Keeps.of_snd_snd (by assumption) ?_)
    | (intro _ _ _; beta_reduce)
    | (fail_if_no_progress apply Keeps.other)
    | intro _

theorem State.stopTimer_keeps {r_ : State} (s : State) (t : TimerId) (h_ : Keeps r_ s) : Keeps r_ (State.stopTimer s t) := by
  unfold State.stopTimer
  repeat' with_reducible first
    | assumption
    | exact Keeps.refl _
    | apply Keeps.foldl
    | apply Keeps.foldl_snd
    | dsimp only
    | split
    | (refine Keeps.of_some (by assumption) ?_)
    | (refine Keeps.of_snd (by assumption) ?_)
    | (refine Keeps.of_snd_snd (by assumption) ?_)
    | (intro _ _ _; beta_reduce)
    | (fail_if_no_progress apply Keeps.other)
    | intro _

theorem State.bump_keeps {r_ : State} (s : State) (u : Nat) (i : Nat) (k : Nat) (n : Nat) (h_ : Keeps r_ s) : Keeps r_ (State.bump s u i k n) := by
  unfold State.bump
  repeat' with_reducible first
    | assumption
    | exact Keeps.refl _
    | apply State.wr_keeps
    | apply Keeps.foldl
    | apply Keeps.foldl_snd
    | dsimp only
    | split
    | (refine Keeps.of_some (by assumption) ?_)
    | (refine Keeps.of_snd (by assumption) ?_)
    | (refine Keeps.of_snd_snd (by assumption) ?_)
    | (intro _ _ _; beta_reduce)
    | (fail_if_no_progress apply Keeps.other)
    | intro _

theorem State.latch_keeps {r_ : State} (s : State) (u : Nat) (b : Nat) (h_ : Keeps r_ s) : Keeps r_ (State.latch s u b) := by
  unfold State.latch
  repeat' with_reducible first
    | assumption
    | exact Keeps.refl _
    | apply State.wr_keeps
    | apply Keeps.foldl
    | apply Keeps.foldl_snd
    | dsimp only
    | split
    | (refine Keeps.of_some (by assumption) ?_)
    | (refine Keeps.of_snd (by assumption) ?_)
    | (refine Keeps.of_snd_snd (by assumption) ?_)
    | (intro _ _ _; beta_reduce)
    | (fail_if_no_progress apply Keeps.other)
    | intro _

theorem State.takeFree_keeps {r_ : State} (s : State) (h_ : Keeps r_ s) : Keeps r_ (State.takeFree s).2 :=
  h_.trans ⟨rfl, rfl, Nat.le_succ _, id⟩

theorem State.complete_keeps {r_ : State} (s : State) (a : Agent) (c : Abort) (data : List Octet) (h_ : Keeps r_ s) : Keeps r_ (State.complete s a c data) := by
  unfold State.complete
  repeat' with_reducible first
    | assumption
    | exact Keeps.refl _
    | apply Keeps.foldl
    | apply Keeps.foldl_snd
    | dsimp only
    | split
    | (refine Keeps.of_some (by assumption) ?_)
    | (refine Keeps.of_snd (by assumption) ?_)
    | (refine Keeps.of_snd_snd (by assumption) ?_)
    | (intro _ _ _; beta_reduce)
    | (fail_if_no_progress apply Keeps.other)
    | intro _

theorem State.wake_keeps {r_ : State} (s : State) (h_ : Keeps r_ s) : Keeps r_ (State.wake s) := by
  unfold State.wake
  repeat' with_reducible first
    | assumption
    | exact Keeps.refl _
    | apply State.wr_keeps
    | apply Keeps.foldl
    | apply Keeps.foldl_snd
    | dsimp only
    | split
    | (refine Keeps.of_some (by assumption) ?_)
    | (refine Keeps.of_snd (by assumption) ?_)
    | (refine Keeps.of_snd_snd (by assumption) ?_)
    | (intro _ _ _; beta_reduce)
    | (fail_if_no_progress apply Keeps.other)
    | intro _

theorem State.busyNow_keeps {r_ : State} (s : State) (h_ : Keeps r_ s) : Keeps r_ (State.busyNow s) := by
  unfold State.busyNow
  repeat' with_reducible first
    | assumption
    | exact Keeps.refl _
    | apply State.setReg_keeps
    | apply Keeps.foldl
    | apply Keeps.foldl_snd
    | dsimp only
    | split
    | (refine Keeps.of_some (by assumption) ?_)
    | (refine Keeps.of_snd (by assumption) ?_)
    | (refine Keeps.of_snd_snd (by assumption) ?_)
    | (intro _ _ _; beta_reduce)
    | (fail_if_no_progress apply Keeps.other)
    | intro _

theorem State.advance_keeps {r_ : State} (s : State) (n : Nat) (h_ : Keeps r_ s) : Keeps r_ (State.advance s n) := by
  unfold State.advance
  extract_lets +onlyGivenNames s1_0
  have h_s1_0 : Keeps r_ s1_0 := by
    unfold s1_0
    repeat' with_reducible first
      | assumption
      | exact Keeps.refl _
      | apply State.setReg_keeps
      | apply Keeps.foldl
      | apply Keeps.foldl_snd
      | dsimp only
      | split
      | (refine Keeps.of_some (by assumption) ?_)
      | (refine Keeps.of_snd (by assumption) ?_)
      | (refine Keeps.of_snd_snd (by assumption) ?_)
      | (intro _ _ _; beta_reduce)
      | (fail_if_no_progress apply Keeps.other)
      | intro _
  clear_value s1_0
  repeat' with_reducible first
    | assumption
    | exact Keeps.refl _
    | apply State.setReg_keeps
    | apply Keeps.foldl
    | apply Keeps.foldl_snd
    | dsimp only
    | split
    | (refine Keeps.of_some (by assumption) ?_)
    | (refine Keeps.of_snd (by assumption) ?_)
    | (refine Keeps.of_snd_snd (by assumption) ?_)
    | (intro _ _ _; beta_reduce)
    | (fail_if_no_progress apply Keeps.other)
    | intro _

theorem slotPasses_keeps {r_ : State} (s : State) (h_ : Keeps r_ s) : Keeps r_ (slotPasses s) := by
  unfold slotPasses
  repeat' with_reducible first
    | assumption
    | exact Keeps.refl _
    | apply State.advance_keeps
    | apply Keeps.foldl
    | apply Keeps.foldl_snd
    | dsimp only
    | split
    | (refine Keeps.of_some (by assumption) ?_)
    | (refine Keeps.of_snd (by assumption) ?_)
    | (refine Keeps.of_snd_snd (by assumption) ?_)
    | (intro _ _ _; beta_reduce)
    | (fail_if_no_progress apply Keeps.other)
    | intro _

theorem State.setFrame_keeps {r_ : State} (s : State) (f : Frame) (h_ : Keeps r_ s) : Keeps r_ (State.setFrame s f) := by
  unfold State.setFrame
  repeat' with_reducible first
    | assumption
    | exact Keeps.refl _
    | apply Keeps.foldl
    | apply Keeps.foldl_snd
    | dsimp only
    | split
    | (refine Keeps.of_some (by assumption) ?_)
    | (refine Keeps.of_snd (by assumption) ?_)
    | (refine Keeps.of_snd_snd (by assumption) ?_)
    | (intro _ _ _; beta_reduce)
    | (fail_if_no_progress apply Keeps.other)
    | intro _

end Sys2Proof.Machine
end

