-- ==== Sys2Proof/Laws/KeepsCause.lean ====
section
/-! SUPPORT. What the operations of Cause.lean keep (Keeps.lean). -/
set_option linter.unusedTactic false
set_option linter.unreachableTactic false
namespace Sys2Proof.Machine

theorem State.setSrc_keeps {r_ : State} (s : State) (src : Nat) (st : Nat) (count : Nat) (h_ : Keeps r_ s) : Keeps r_ (State.setSrc s src st count) := by
  unfold State.setSrc
  repeat' with_reducible first
    | assumption
    | exact Keeps.refl _
    | apply State.setEntField_keeps
    | apply Keeps.foldl
    | apply Keeps.foldl_snd
    | dsimp only
    | split
    | (refine Keeps.of_some (by assumption) ?_)
    | (refine Keeps.of_snd (by assumption) ?_)
    | (refine Keeps.of_snd_snd (by assumption) ?_)
    | (intro _ _ _; beta_reduce)
    | (fail_if_no_progress apply Keeps.other)
    | intro _

theorem State.raiseEdge_keeps {r_ : State} (s : State) (src : Nat) (h_ : Keeps r_ s) : Keeps r_ (State.raiseEdge s src) := by
  unfold State.raiseEdge
  repeat' with_reducible first
    | assumption
    | exact Keeps.refl _
    | apply State.setReg_keeps
    | apply State.setSrc_keeps
    | apply Keeps.foldl
    | apply Keeps.foldl_snd
    | dsimp only
    | split
    | (refine Keeps.of_some (by assumption) ?_)
    | (refine Keeps.of_snd (by assumption) ?_)
    | (refine Keeps.of_snd_snd (by assumption) ?_)
    | (intro _ _ _; beta_reduce)
    | (fail_if_no_progress apply Keeps.other)
    | intro _

theorem State.raiseShared_keeps {r_ : State} (s : State) (src : Nat) (cause : Nat) (h_ : Keeps r_ s) : Keeps r_ (State.raiseShared s src cause) := by
  unfold State.raiseShared
  repeat' with_reducible first
    | assumption
    | exact Keeps.refl _
    | apply State.setSrc_keeps
    | apply Keeps.foldl
    | apply Keeps.foldl_snd
    | dsimp only
    | split
    | (refine Keeps.of_some (by assumption) ?_)
    | (refine Keeps.of_snd (by assumption) ?_)
    | (refine Keeps.of_snd_snd (by assumption) ?_)
    | (intro _ _ _; beta_reduce)
    | (fail_if_no_progress apply Keeps.other)
    | intro _

theorem State.raise_keeps {r_ : State} (s : State) (cause : Nat) (h_ : Keeps r_ s) : Keeps r_ (State.raise s cause) := by
  unfold State.raise
  repeat' with_reducible first
    | assumption
    | exact Keeps.refl _
    | apply State.wake_keeps
    | apply State.raiseEdge_keeps
    | apply State.raiseShared_keeps
    | apply Keeps.foldl
    | apply Keeps.foldl_snd
    | dsimp only
    | split
    | (refine Keeps.of_some (by assumption) ?_)
    | (refine Keeps.of_snd (by assumption) ?_)
    | (refine Keeps.of_snd_snd (by assumption) ?_)
    | (intro _ _ _; beta_reduce)
    | (fail_if_no_progress apply Keeps.other)
    | intro _

end Sys2Proof.Machine
end

