-- ==== Sys2Proof/Laws/KeepsFieldBook.lean ====
section
/-! SUPPORT. What the operations of FieldBook.lean keep (Keeps.lean). -/
set_option linter.unusedTactic false
set_option linter.unreachableTactic false
namespace Sys2Proof.Machine

theorem State.ringWrite_keeps {r_ : State} (s : State) (o : Nat) (l : List Octet) (h_ : Keeps r_ s) : Keeps r_ (State.ringWrite s o l) := by
  unfold State.ringWrite
  repeat' with_reducible first
    | assumption
    | exact Keeps.refl _
    | apply State.setEnt_keeps
    | apply Keeps.foldl
    | apply Keeps.foldl_snd
    | dsimp only
    | split
    | (refine Keeps.of_some (by assumption) ?_)
    | (refine Keeps.of_snd (by assumption) ?_)
    | (refine Keeps.of_snd_snd (by assumption) ?_)
    | (intro _ _ _; beta_reduce)
    | (fail_if_no_progress apply Keeps.other)
    | intro _

theorem State.dropOldest_keeps {r_ : State} (s : State) (h_ : Keeps r_ s) : Keeps r_ (State.dropOldest s) := by
  unfold State.dropOldest
  extract_lets +onlyGivenNames o_0 e_1 e_2
  try clear_value o_0
  try clear_value e_1
  try clear_value e_2
  repeat' with_reducible first
    | assumption
    | exact Keeps.refl _
    | apply State.wr_keeps
    | apply State.bump_keeps
    | apply Keeps.foldl
    | apply Keeps.foldl_snd
    | dsimp only
    | split
    | (refine Keeps.of_some (by assumption) ?_)
    | (refine Keeps.of_snd (by assumption) ?_)
    | (refine Keeps.of_snd_snd (by assumption) ?_)
    | (intro _ _ _; beta_reduce)
    | (fail_if_no_progress apply Keeps.other)
    | intro _

theorem State.makeRoom_keeps {r_ : State} (n : Nat) (s : State) (a b c : Nat) (h_ : Keeps r_ s) : Keeps r_ (State.makeRoom n s a b c) := by
  induction n generalizing s with
  | zero => exact h_
  | succ n ih =>
    unfold State.makeRoom
    repeat' with_reducible first
      | assumption
      | apply ih
      | apply State.dropOldest_keeps
      | apply State.wr_keeps
      | apply State.bump_keeps
      | dsimp only
      | split

theorem State.budgetDrop_keeps {r_ : State} (s : State) (sev : Nat) (h_ : Keeps r_ s) : Keeps r_ (State.budgetDrop s sev) := by
  unfold State.budgetDrop
  extract_lets +onlyGivenNames s_0 s_1
  have h_s_0 : Keeps r_ s_0 := by
    unfold s_0
    repeat' with_reducible first
      | assumption
      | exact Keeps.refl _
      | apply State.setReg_keeps
      | apply State.startTimer_keeps
      | apply State.bump_keeps
      | apply Keeps.foldl
      | apply Keeps.foldl_snd
      | dsimp only
      | split
      | (refine Keeps.of_some (by assumption) ?_)
      | (refine Keeps.of_snd (by assumption) ?_)
      | (refine Keeps.of_snd_snd (by assumption) ?_)
      | (intro _ _ _; beta_reduce)
      | (fail_if_no_progress apply Keeps.other)
      | intro _
  clear_value s_0
  have h_s_1 : Keeps r_ s_1 := by
    unfold s_1
    repeat' with_reducible first
      | assumption
      | exact Keeps.refl _
      | apply State.setReg_keeps
      | apply State.startTimer_keeps
      | apply State.bump_keeps
      | apply Keeps.foldl
      | apply Keeps.foldl_snd
      | dsimp only
      | split
      | (refine Keeps.of_some (by assumption) ?_)
      | (refine Keeps.of_snd (by assumption) ?_)
      | (refine Keeps.of_snd_snd (by assumption) ?_)
      | (intro _ _ _; beta_reduce)
      | (fail_if_no_progress apply Keeps.other)
      | intro _
  clear_value s_1
  repeat' with_reducible first
    | assumption
    | exact Keeps.refl _
    | apply State.setReg_keeps
    | apply State.startTimer_keeps
    | apply State.bump_keeps
    | apply Keeps.foldl
    | apply Keeps.foldl_snd
    | dsimp only
    | split
    | (refine Keeps.of_some (by assumption) ?_)
    | (refine Keeps.of_snd (by assumption) ?_)
    | (refine Keeps.of_snd_snd (by assumption) ?_)
    | (intro _ _ _; beta_reduce)
    | (fail_if_no_progress apply Keeps.other)
    | intro _

theorem State.programStart_keeps {r_ : State} (s : State) (h_ : Keeps r_ s) : Keeps r_ (State.programStart s) := by
  unfold State.programStart
  repeat' with_reducible first
    | assumption
    | exact Keeps.refl _
    | apply State.setReg_keeps
    | apply Keeps.foldl
    | apply Keeps.foldl_snd
    | dsimp only
    | split
    | (refine Keeps.of_some (by assumption) ?_)
    | (refine Keeps.of_snd (by assumption) ?_)
    | (refine Keeps.of_snd_snd (by assumption) ?_)
    | (intro _ _ _; beta_reduce)
    | (fail_if_no_progress apply Keeps.other)
    | intro _

theorem State.offer_keeps {r_ : State} (s : State) (code : Nat) (source : Nat) (payload : List Octet) (ring : RingName) (seq : Nat) (rep : Nat) (first : Nat) (free : Bool) (h_ : Keeps r_ s) : Keeps r_ (State.offer s code source payload ring seq rep first free).2 := by
  unfold State.offer
  extract_lets +onlyGivenNames sev_0
  try clear_value sev_0
  repeat' with_reducible first
    | assumption
    | exact Keeps.refl _
    | apply State.wr_keeps
    | apply State.bump_keeps
    | apply State.budgetDrop_keeps
    | apply State.programStart_keeps
    | apply Keeps.foldl
    | apply Keeps.foldl_snd
    | dsimp only
    | split
    | (refine Keeps.of_some (by assumption) ?_)
    | (refine Keeps.of_snd (by assumption) ?_)
    | (refine Keeps.of_snd_snd (by assumption) ?_)
    | (intro _ _ _; beta_reduce)
    | (fail_if_no_progress apply Keeps.other)
    | intro _

theorem State.offerFold_keeps {r_ : State} (s : State) (ring : RingName) (seq : Nat) (h_ : Keeps r_ s) : Keeps r_ (State.offerFold s ring seq) := by
  unfold State.offerFold
  repeat' with_reducible first
    | assumption
    | exact Keeps.refl _
    | apply Keeps.foldl
    | apply Keeps.foldl_snd
    | dsimp only
    | split
    | (refine Keeps.of_some (by assumption) ?_)
    | (refine Keeps.of_snd (by assumption) ?_)
    | (refine Keeps.of_snd_snd (by assumption) ?_)
    | (intro _ _ _; beta_reduce)
    | (fail_if_no_progress apply Keeps.other)
    | intro _

theorem State.foldOffer_keeps {r_ : State} (s : State) (code : Nat) (source : Nat) (payload : List Octet) (ring : RingName) (seq : Nat) (rep : Nat) (first : Nat) (free : Bool) (taken : Bool) (h_ : Keeps r_ s) : Keeps r_ (State.foldOffer s code source payload ring seq rep first free taken).2 := by
  unfold State.foldOffer
  repeat' with_reducible first
    | assumption
    | exact Keeps.refl _
    | apply State.offer_keeps
    | apply State.offerFold_keeps
    | apply Keeps.foldl
    | apply Keeps.foldl_snd
    | dsimp only
    | split
    | (refine Keeps.of_some (by assumption) ?_)
    | (refine Keeps.of_snd (by assumption) ?_)
    | (refine Keeps.of_snd_snd (by assumption) ?_)
    | (intro _ _ _; beta_reduce)
    | (fail_if_no_progress apply Keeps.other)
    | intro _

theorem State.fbEvent_keeps {r_ : State} (s : State) (code : Nat) (h_ : Keeps r_ s) : Keeps r_ (State.fbEvent s code) := by
  unfold State.fbEvent
  repeat' with_reducible first
    | assumption
    | exact Keeps.refl _
    | apply State.raise_keeps
    | apply Keeps.foldl
    | apply Keeps.foldl_snd
    | dsimp only
    | split
    | (refine Keeps.of_some (by assumption) ?_)
    | (refine Keeps.of_snd (by assumption) ?_)
    | (refine Keeps.of_snd_snd (by assumption) ?_)
    | (intro _ _ _; beta_reduce)
    | (fail_if_no_progress apply Keeps.other)
    | intro _

theorem State.newVar_keeps {r_ : State} (s : State) (code : Nat) (source : Nat) (payload : List Octet) (noToken : Bool) (h_ : Keeps r_ s) : Keeps r_ (State.newVar s code source payload noToken) := by
  unfold State.newVar
  extract_lets +onlyGivenNames n_0 next_1 wraps_2 at__3 seq_4 s1_5 s2_6 s3_7
  try clear_value n_0
  try clear_value next_1
  try clear_value wraps_2
  try clear_value at__3
  try clear_value seq_4
  have h_s1_5 : Keeps r_ s1_5 := by
    unfold s1_5
    repeat' with_reducible first
      | assumption
      | exact Keeps.refl _
      | apply State.wr_keeps
      | apply State.bump_keeps
      | apply State.ringWrite_keeps
      | apply State.makeRoom_keeps
      | apply State.offer_keeps
      | apply State.fbEvent_keeps
      | apply Keeps.foldl
      | apply Keeps.foldl_snd
      | dsimp only
      | split
      | (refine Keeps.of_some (by assumption) ?_)
      | (refine Keeps.of_snd (by assumption) ?_)
      | (refine Keeps.of_snd_snd (by assumption) ?_)
      | (intro _ _ _; beta_reduce)
      | (fail_if_no_progress apply Keeps.other)
      | intro _
  clear_value s1_5
  have h_s2_6 : Keeps r_ s2_6 := by
    unfold s2_6
    repeat' with_reducible first
      | assumption
      | exact Keeps.refl _
      | apply State.wr_keeps
      | apply State.bump_keeps
      | apply State.ringWrite_keeps
      | apply State.makeRoom_keeps
      | apply State.offer_keeps
      | apply State.fbEvent_keeps
      | apply Keeps.foldl
      | apply Keeps.foldl_snd
      | dsimp only
      | split
      | (refine Keeps.of_some (by assumption) ?_)
      | (refine Keeps.of_snd (by assumption) ?_)
      | (refine Keeps.of_snd_snd (by assumption) ?_)
      | (intro _ _ _; beta_reduce)
      | (fail_if_no_progress apply Keeps.other)
      | intro _
  clear_value s2_6
  have h_s3_7 : Keeps r_ s3_7 := by
    unfold s3_7
    repeat' with_reducible first
      | assumption
      | exact Keeps.refl _
      | apply State.wr_keeps
      | apply State.bump_keeps
      | apply State.ringWrite_keeps
      | apply State.makeRoom_keeps
      | apply State.offer_keeps
      | apply State.fbEvent_keeps
      | apply Keeps.foldl
      | apply Keeps.foldl_snd
      | dsimp only
      | split
      | (refine Keeps.of_some (by assumption) ?_)
      | (refine Keeps.of_snd (by assumption) ?_)
      | (refine Keeps.of_snd_snd (by assumption) ?_)
      | (intro _ _ _; beta_reduce)
      | (fail_if_no_progress apply Keeps.other)
      | intro _
  clear_value s3_7
  repeat' with_reducible first
    | assumption
    | exact Keeps.refl _
    | apply State.wr_keeps
    | apply State.bump_keeps
    | apply State.ringWrite_keeps
    | apply State.makeRoom_keeps
    | apply State.offer_keeps
    | apply State.fbEvent_keeps
    | apply Keeps.foldl
    | apply Keeps.foldl_snd
    | dsimp only
    | split
    | (refine Keeps.of_some (by assumption) ?_)
    | (refine Keeps.of_snd (by assumption) ?_)
    | (refine Keeps.of_snd_snd (by assumption) ?_)
    | (intro _ _ _; beta_reduce)
    | (fail_if_no_progress apply Keeps.other)
    | intro _

theorem State.recordVar_keeps {r_ : State} (s : State) (code : Nat) (source : Nat) (payload : List Octet) (noToken : Bool) (h_ : Keeps r_ s) : Keeps r_ (State.recordVar s code source payload noToken) := by
  unfold State.recordVar
  repeat' with_reducible first
    | assumption
    | exact Keeps.refl _
    | apply State.bump_keeps
    | apply State.ringWrite_keeps
    | apply State.foldOffer_keeps
    | apply State.newVar_keeps
    | apply Keeps.foldl
    | apply Keeps.foldl_snd
    | dsimp only
    | split
    | (refine Keeps.of_some (by assumption) ?_)
    | (refine Keeps.of_snd (by assumption) ?_)
    | (refine Keeps.of_snd_snd (by assumption) ?_)
    | (intro _ _ _; beta_reduce)
    | (fail_if_no_progress apply Keeps.other)
    | intro _

theorem State.newFixed_keeps {r_ : State} (s : State) (code : Nat) (source : Nat) (vals : List (Nat × Nat)) (noToken : Bool) (p0 : Nat) (p1 : Nat) (q : Nat) (h_ : Keeps r_ s) : Keeps r_ (State.newFixed s code source vals noToken p0 p1 q) := by
  unfold State.newFixed
  extract_lets +onlyGivenNames full_0 s_1 s_2 s_3 s_4
  try clear_value full_0
  have h_s_1 : Keeps r_ s_1 := by
    unfold s_1
    repeat' with_reducible first
      | assumption
      | exact Keeps.refl _
      | apply State.wr_keeps
      | apply State.setEnt_keeps
      | apply State.setReg_keeps
      | apply State.bump_keeps
      | apply State.raise_keeps
      | apply State.offer_keeps
      | apply State.fbEvent_keeps
      | apply Keeps.foldl
      | apply Keeps.foldl_snd
      | dsimp only
      | split
      | (refine Keeps.of_some (by assumption) ?_)
      | (refine Keeps.of_snd (by assumption) ?_)
      | (refine Keeps.of_snd_snd (by assumption) ?_)
      | (intro _ _ _; beta_reduce)
      | (fail_if_no_progress apply Keeps.other)
      | intro _
  clear_value s_1
  have h_s_2 : Keeps r_ s_2 := by
    unfold s_2
    repeat' with_reducible first
      | assumption
      | exact Keeps.refl _
      | apply State.wr_keeps
      | apply State.setEnt_keeps
      | apply State.setReg_keeps
      | apply State.bump_keeps
      | apply State.raise_keeps
      | apply State.offer_keeps
      | apply State.fbEvent_keeps
      | apply Keeps.foldl
      | apply Keeps.foldl_snd
      | dsimp only
      | split
      | (refine Keeps.of_some (by assumption) ?_)
      | (refine Keeps.of_snd (by assumption) ?_)
      | (refine Keeps.of_snd_snd (by assumption) ?_)
      | (intro _ _ _; beta_reduce)
      | (fail_if_no_progress apply Keeps.other)
      | intro _
  clear_value s_2
  have h_s_3 : Keeps r_ s_3 := by
    unfold s_3
    repeat' with_reducible first
      | assumption
      | exact Keeps.refl _
      | apply State.wr_keeps
      | apply State.setEnt_keeps
      | apply State.setReg_keeps
      | apply State.bump_keeps
      | apply State.raise_keeps
      | apply State.offer_keeps
      | apply State.fbEvent_keeps
      | apply Keeps.foldl
      | apply Keeps.foldl_snd
      | dsimp only
      | split
      | (refine Keeps.of_some (by assumption) ?_)
      | (refine Keeps.of_snd (by assumption) ?_)
      | (refine Keeps.of_snd_snd (by assumption) ?_)
      | (intro _ _ _; beta_reduce)
      | (fail_if_no_progress apply Keeps.other)
      | intro _
  clear_value s_3
  have h_s_4 : Keeps r_ s_4 := by
    unfold s_4
    repeat' with_reducible first
      | assumption
      | exact Keeps.refl _
      | apply State.wr_keeps
      | apply State.setEnt_keeps
      | apply State.setReg_keeps
      | apply State.bump_keeps
      | apply State.raise_keeps
      | apply State.offer_keeps
      | apply State.fbEvent_keeps
      | apply Keeps.foldl
      | apply Keeps.foldl_snd
      | dsimp only
      | split
      | (refine Keeps.of_some (by assumption) ?_)
      | (refine Keeps.of_snd (by assumption) ?_)
      | (refine Keeps.of_snd_snd (by assumption) ?_)
      | (intro _ _ _; beta_reduce)
      | (fail_if_no_progress apply Keeps.other)
      | intro _
  clear_value s_4
  repeat' with_reducible first
    | assumption
    | exact Keeps.refl _
    | apply State.wr_keeps
    | apply State.setEnt_keeps
    | apply State.setReg_keeps
    | apply State.bump_keeps
    | apply State.raise_keeps
    | apply State.offer_keeps
    | apply State.fbEvent_keeps
    | apply Keeps.foldl
    | apply Keeps.foldl_snd
    | dsimp only
    | split
    | (refine Keeps.of_some (by assumption) ?_)
    | (refine Keeps.of_snd (by assumption) ?_)
    | (refine Keeps.of_snd_snd (by assumption) ?_)
    | (intro _ _ _; beta_reduce)
    | (fail_if_no_progress apply Keeps.other)
    | intro _

theorem State.recordFixed_keeps {r_ : State} (s : State) (code : Nat) (source : Nat) (vals : List (Nat × Nat)) (noToken : Bool) (h_ : Keeps r_ s) : Keeps r_ (State.recordFixed s code source vals noToken) := by
  unfold State.recordFixed
  extract_lets +onlyGivenNames p0_0 p1_1 q_2
  try clear_value p0_0
  try clear_value p1_1
  try clear_value q_2
  repeat' with_reducible first
    | assumption
    | exact Keeps.refl _
    | apply State.setEnt_keeps
    | apply State.foldOffer_keeps
    | apply State.newFixed_keeps
    | apply Keeps.foldl
    | apply Keeps.foldl_snd
    | dsimp only
    | split
    | (refine Keeps.of_some (by assumption) ?_)
    | (refine Keeps.of_snd (by assumption) ?_)
    | (refine Keeps.of_snd_snd (by assumption) ?_)
    | (intro _ _ _; beta_reduce)
    | (fail_if_no_progress apply Keeps.other)
    | intro _

theorem State.newSd_keeps {r_ : State} (s : State) (code : Nat) (source : Nat) (p0 : Nat) (p1 : Nat) (q : Nat) (h_ : Keeps r_ s) : Keeps r_ (State.newSd s code source p0 p1 q) := by
  unfold State.newSd
  repeat' with_reducible first
    | assumption
    | exact Keeps.refl _
    | apply State.wr_keeps
    | apply State.setEnt_keeps
    | apply State.setReg_keeps
    | apply State.takeFree_keeps
    | apply Keeps.foldl
    | apply Keeps.foldl_snd
    | dsimp only
    | split
    | (refine Keeps.of_some (by assumption) ?_)
    | (refine Keeps.of_snd (by assumption) ?_)
    | (refine Keeps.of_snd_snd (by assumption) ?_)
    | (intro _ _ _; beta_reduce)
    | (fail_if_no_progress apply Keeps.other)
    | intro _

theorem State.recordSd_keeps {r_ : State} (s : State) (code : Nat) (source : Nat) (vals : List (Nat × Nat)) (h_ : Keeps r_ s) : Keeps r_ (State.recordSd s code source vals) := by
  unfold State.recordSd
  extract_lets +onlyGivenNames p0_0 p1_1 q_2
  try clear_value p0_0
  try clear_value p1_1
  try clear_value q_2
  repeat' with_reducible first
    | assumption
    | exact Keeps.refl _
    | apply State.setEnt_keeps
    | apply State.setReg_keeps
    | apply State.newSd_keeps
    | apply Keeps.foldl
    | apply Keeps.foldl_snd
    | dsimp only
    | split
    | (refine Keeps.of_some (by assumption) ?_)
    | (refine Keeps.of_snd (by assumption) ?_)
    | (refine Keeps.of_snd_snd (by assumption) ?_)
    | (intro _ _ _; beta_reduce)
    | (fail_if_no_progress apply Keeps.other)
    | intro _

theorem State.recordNow_keeps {r_ : State} (s : State) (e : HeldEvent) (h_ : Keeps r_ s) : Keeps r_ (State.recordNow s e) := by
  unfold State.recordNow
  repeat' with_reducible first
    | assumption
    | exact Keeps.refl _
    | apply State.recordVar_keeps
    | apply State.recordFixed_keeps
    | apply State.recordSd_keeps
    | apply Keeps.foldl
    | apply Keeps.foldl_snd
    | dsimp only
    | split
    | (refine Keeps.of_some (by assumption) ?_)
    | (refine Keeps.of_snd (by assumption) ?_)
    | (refine Keeps.of_snd_snd (by assumption) ?_)
    | (intro _ _ _; beta_reduce)
    | (fail_if_no_progress apply Keeps.other)
    | intro _

theorem State.record_keeps {r_ : State} (s : State) (code : Nat) (source : Nat) (vals : List (Nat × Nat)) (noToken : Bool) (h_ : Keeps r_ s) : Keeps r_ (State.record s code source vals noToken) := by
  unfold State.record
  extract_lets +onlyGivenNames e_0
  try clear_value e_0
  repeat' with_reducible first
    | assumption
    | exact Keeps.refl _
    | apply State.recordNow_keeps
    | apply Keeps.foldl
    | apply Keeps.foldl_snd
    | dsimp only
    | split
    | (refine Keeps.of_some (by assumption) ?_)
    | (refine Keeps.of_snd (by assumption) ?_)
    | (refine Keeps.of_snd_snd (by assumption) ?_)
    | (intro _ _ _; beta_reduce)
    | (fail_if_no_progress apply Keeps.other)
    | intro _

theorem State.writeHeld_keeps {r_ : State} (s : State) (h_ : Keeps r_ s) : Keeps r_ (State.writeHeld s) := by
  unfold State.writeHeld
  repeat' with_reducible first
    | assumption
    | exact Keeps.refl _
    | apply State.recordNow_keeps
    | apply Keeps.foldl
    | apply Keeps.foldl_snd
    | dsimp only
    | split
    | (refine Keeps.of_some (by assumption) ?_)
    | (refine Keeps.of_snd (by assumption) ?_)
    | (refine Keeps.of_snd_snd (by assumption) ?_)
    | (intro _ _ _; beta_reduce)
    | (fail_if_no_progress apply Keeps.other)
    | intro _

theorem State.flushHeld_keeps {r_ : State} (s : State) (h_ : Keeps r_ s) : Keeps r_ (State.flushHeld s) := by
  unfold State.flushHeld
  repeat' with_reducible first
    | assumption
    | exact Keeps.refl _
    | apply State.writeHeld_keeps
    | apply Keeps.foldl
    | apply Keeps.foldl_snd
    | dsimp only
    | split
    | (refine Keeps.of_some (by assumption) ?_)
    | (refine Keeps.of_snd (by assumption) ?_)
    | (refine Keeps.of_snd_snd (by assumption) ?_)
    | (intro _ _ _; beta_reduce)
    | (fail_if_no_progress apply Keeps.other)
    | intro _

theorem State.together_keeps {r_ : State} (s : State) (f : State → State) (h_ : Keeps r_ s) (hf : ∀ u, Keeps r_ u → Keeps r_ (f u)) :
    Keeps r_ (State.together s f) := by
  unfold State.together
  split
  · exact hf _ h_
  · exact State.writeHeld_keeps _ (hf _ (Keeps.other h_))

theorem gathered_keeps {r_ : State} (s : State) (f : State → Host.Outcome State Fault Refusal) (h_ : Keeps r_ s)
    (hf : ∀ u, Keeps r_ u → KeepsNext r_ (f u)) : KeepsNext r_ (gathered s f) := by
  unfold gathered
  split
  · exact hf s h_
  · have h := hf { s with evHold := some [] } (Keeps.other h_)
    intro t e
    split at e
    · next u hu =>
      cases e
      exact State.writeHeld_keeps _ (h u hu)
    · next hn => exact absurd e (hn t)

end Sys2Proof.Machine
end

