-- ==== Sys2Proof/Laws/KeepsCompletion.lean ====
section
/-! SUPPORT. What the operations of Completion.lean keep (Keeps.lean). -/
set_option linter.unusedTactic false
set_option linter.unreachableTactic false
namespace Sys2Proof.Machine

theorem State.reserve_keeps {r_ : State} (s : State) (cq : Nat) (h_ : Keeps r_ s) : Keeps r_ (State.reserve s cq) := by
  unfold State.reserve
  repeat' with_reducible first
    | assumption
    | exact Keeps.refl _
    | apply State.setReg_keeps
    | apply Keeps.foldl
    | apply Keeps.foldl_snd
    | dsimp only
    | split
    | (refine Keeps.of_some (by assumption) ?_)
    | (refine Keeps.of_snd (by assumption) ?_)
    | (refine Keeps.of_snd_snd (by assumption) ?_)
    | (intro _ _ _; beta_reduce)
    | (fail_if_no_progress apply Keeps.other)
    | intro _

theorem State.unreserve_keeps {r_ : State} (s : State) (cq : Nat) (h_ : Keeps r_ s) : Keeps r_ (State.unreserve s cq) := by
  unfold State.unreserve
  repeat' with_reducible first
    | assumption
    | exact Keeps.refl _
    | apply State.setReg_keeps
    | apply Keeps.foldl
    | apply Keeps.foldl_snd
    | dsimp only
    | split
    | (refine Keeps.of_some (by assumption) ?_)
    | (refine Keeps.of_snd (by assumption) ?_)
    | (refine Keeps.of_snd_snd (by assumption) ?_)
    | (intro _ _ _; beta_reduce)
    | (fail_if_no_progress apply Keeps.other)
    | intro _

theorem State.mpIssue_keeps {r_ : State} (s : State) (write : Bool) (addr : Nat) (octets : List Octet) (p : MpPurpose) (h_ : Keeps r_ s) : Keeps r_ (State.mpIssue s write addr octets p) := by
  unfold State.mpIssue
  extract_lets +onlyGivenNames waits_0 tag_1
  try clear_value waits_0
  try clear_value tag_1
  repeat' with_reducible first
    | assumption
    | exact Keeps.refl _
    | apply State.setReg_keeps
    | apply Keeps.foldl
    | apply Keeps.foldl_snd
    | dsimp only
    | split
    | (refine Keeps.of_some (by assumption) ?_)
    | (refine Keeps.of_snd (by assumption) ?_)
    | (refine Keeps.of_snd_snd (by assumption) ?_)
    | (intro _ _ _; beta_reduce)
    | (fail_if_no_progress apply Keeps.other)
    | intro _

theorem State.mpSettle_keeps {r_ : State} (s : State) (h_ : Keeps r_ s) : Keeps r_ (State.mpSettle s) := by
  unfold State.mpSettle
  repeat' with_reducible first
    | assumption
    | exact Keeps.refl _
    | apply Keeps.foldl
    | apply Keeps.foldl_snd
    | dsimp only
    | split
    | (refine Keeps.of_some (by assumption) ?_)
    | (refine Keeps.of_snd (by assumption) ?_)
    | (refine Keeps.of_snd_snd (by assumption) ?_)
    | (intro _ _ _; beta_reduce)
    | (fail_if_no_progress apply Keeps.other)
    | intro _

theorem State.dropOps_keeps {r_ : State} (s : State) (p : MpPurpose → Bool) (h_ : Keeps r_ s) : Keeps r_ (State.dropOps s p) := by
  unfold State.dropOps
  repeat' with_reducible first
    | assumption
    | exact Keeps.refl _
    | apply Keeps.foldl
    | apply Keeps.foldl_snd
    | dsimp only
    | split
    | (refine Keeps.of_some (by assumption) ?_)
    | (refine Keeps.of_snd (by assumption) ?_)
    | (refine Keeps.of_snd_snd (by assumption) ?_)
    | (intro _ _ _; beta_reduce)
    | (fail_if_no_progress apply Keeps.other)
    | intro _

theorem State.cqWriteNow_keeps {r_ : State} (s : State) (cq : Nat) (e : CqEntry) (h_ : Keeps r_ s) : Keeps r_ (State.cqWriteNow s cq e) := by
  unfold State.cqWriteNow
  extract_lets +onlyGivenNames u_0 w_1 size_2
  try clear_value u_0
  try clear_value size_2
  repeat' with_reducible first
    | assumption
    | exact Keeps.refl _
    | apply State.wr_keeps
    | apply State.mpIssue_keeps
    | apply Keeps.foldl
    | apply Keeps.foldl_snd
    | dsimp only
    | split
    | (refine Keeps.of_some (by assumption) ?_)
    | (refine Keeps.of_snd (by assumption) ?_)
    | (refine Keeps.of_snd_snd (by assumption) ?_)
    | (intro _ _ _; beta_reduce)
    | (fail_if_no_progress apply Keeps.other)
    | intro _

theorem State.cqFlush_keeps {r_ : State} (n : Nat) (s : State) (cq : Nat) (h_ : Keeps r_ s) : Keeps r_ (State.cqFlush n s cq) := by
  induction n generalizing s with
  | zero => exact h_
  | succ n_ ih =>
    unfold State.cqFlush
    repeat' with_reducible first
      | assumption
      | exact Keeps.refl _
      | apply ih
      | apply State.cqWriteNow_keeps
      | apply Keeps.foldl
      | apply Keeps.foldl_snd
      | dsimp only
      | split
      | (refine Keeps.of_some (by assumption) ?_)
      | (refine Keeps.of_snd (by assumption) ?_)
      | (refine Keeps.of_snd_snd (by assumption) ?_)
      | (intro _ _ _; beta_reduce)
      | (fail_if_no_progress apply Keeps.other)
      | intro _

theorem State.cqReady_keeps {r_ : State} (s : State) (cq : Nat) (e : CqEntry) (h_ : Keeps r_ s) : Keeps r_ (State.cqReady s cq e) := by
  unfold State.cqReady
  extract_lets +onlyGivenNames s1_0
  have h_s1_0 : Keeps r_ s1_0 := by
    unfold s1_0
    repeat' with_reducible first
      | assumption
      | exact Keeps.refl _
      | apply State.unreserve_keeps
      | apply State.cqWriteNow_keeps
      | apply Keeps.foldl
      | apply Keeps.foldl_snd
      | dsimp only
      | split
      | (refine Keeps.of_some (by assumption) ?_)
      | (refine Keeps.of_snd (by assumption) ?_)
      | (refine Keeps.of_snd_snd (by assumption) ?_)
      | (intro _ _ _; beta_reduce)
      | (fail_if_no_progress apply Keeps.other)
      | intro _
  clear_value s1_0
  repeat' with_reducible first
    | assumption
    | exact Keeps.refl _
    | apply State.unreserve_keeps
    | apply State.cqWriteNow_keeps
    | apply Keeps.foldl
    | apply Keeps.foldl_snd
    | dsimp only
    | split
    | (refine Keeps.of_some (by assumption) ?_)
    | (refine Keeps.of_snd (by assumption) ?_)
    | (refine Keeps.of_snd_snd (by assumption) ?_)
    | (intro _ _ _; beta_reduce)
    | (fail_if_no_progress apply Keeps.other)
    | intro _

theorem State.ringFault_keeps {r_ : State} (s : State) (u : Nat) (pos : Nat) (h_ : Keeps r_ s) : Keeps r_ (State.ringFault s u pos) := by
  unfold State.ringFault
  repeat' with_reducible first
    | assumption
    | exact Keeps.refl _
    | apply State.wr_keeps
    | apply State.raise_keeps
    | apply State.record_keeps
    | apply Keeps.foldl
    | apply Keeps.foldl_snd
    | dsimp only
    | split
    | (refine Keeps.of_some (by assumption) ?_)
    | (refine Keeps.of_snd (by assumption) ?_)
    | (refine Keeps.of_snd_snd (by assumption) ?_)
    | (intro _ _ _; beta_reduce)
    | (fail_if_no_progress apply Keeps.other)
    | intro _

theorem State.txComplete_keeps {r_ : State} (s : State) (f : Frame) (t : TxDesc) (status : Nat) (ts : Option (Nat × Nat)) (h_ : Keeps r_ s) : Keeps r_ (State.txComplete s f t status ts) := by
  unfold State.txComplete
  extract_lets +onlyGivenNames u_0 cls_1 flags_2 ep_3 e_4
  try clear_value u_0
  try clear_value cls_1
  try clear_value flags_2
  try clear_value ep_3
  try clear_value e_4
  repeat' with_reducible first
    | assumption
    | exact Keeps.refl _
    | apply State.setFrame_keeps
    | apply State.cqReady_keeps
    | apply Keeps.foldl
    | apply Keeps.foldl_snd
    | dsimp only
    | split
    | (refine Keeps.of_some (by assumption) ?_)
    | (refine Keeps.of_snd (by assumption) ?_)
    | (refine Keeps.of_snd_snd (by assumption) ?_)
    | (intro _ _ _; beta_reduce)
    | (fail_if_no_progress apply Keeps.other)
    | intro _

theorem State.errComplete_keeps {r_ : State} (s : State) (t : TxDesc) (status : Nat) (h_ : Keeps r_ s) : Keeps r_ (State.errComplete s t status) := by
  unfold State.errComplete
  extract_lets +onlyGivenNames u_0
  try clear_value u_0
  repeat' with_reducible first
    | assumption
    | exact Keeps.refl _
    | apply State.reserve_keeps
    | apply State.cqReady_keeps
    | apply Keeps.foldl
    | apply Keeps.foldl_snd
    | dsimp only
    | split
    | (refine Keeps.of_some (by assumption) ?_)
    | (refine Keeps.of_snd (by assumption) ?_)
    | (refine Keeps.of_snd_snd (by assumption) ?_)
    | (intro _ _ _; beta_reduce)
    | (fail_if_no_progress apply Keeps.other)
    | intro _

theorem State.tsCheck_keeps {r_ : State} (s : State) (f : Frame) (h_ : Keeps r_ s) : Keeps r_ (State.tsCheck s f) := by
  unfold State.tsCheck
  repeat' with_reducible first
    | assumption
    | exact Keeps.refl _
    | apply State.txComplete_keeps
    | apply Keeps.foldl
    | apply Keeps.foldl_snd
    | dsimp only
    | split
    | (refine Keeps.of_some (by assumption) ?_)
    | (refine Keeps.of_snd (by assumption) ?_)
    | (refine Keeps.of_snd_snd (by assumption) ?_)
    | (intro _ _ _; beta_reduce)
    | (fail_if_no_progress apply Keeps.other)
    | intro _

end Sys2Proof.Machine
end

