-- ==== Sys2Proof/Laws/KeepsClassify.lean ====
section
/-! SUPPORT. What the operations of Classify.lean keep (Keeps.lean). -/
set_option linter.unusedTactic false
set_option linter.unreachableTactic false
namespace Sys2Proof.Machine

theorem State.decide_keeps {r_ : State} (s : State) (f : Frame) (k : Key) (h_ : Keeps r_ s) : Keeps r_ (State.decide s f k).2 := by
  unfold State.decide
  repeat' with_reducible first
    | assumption
    | split
    | dsimp only
  exact h_.trans ⟨rfl, rfl, Nat.le_succ _, id⟩

end Sys2Proof.Machine
end

