-- ==== Sys2Proof/Laws/KeepsFrames.lean ====
section
/-! SUPPORT. What the operations of Frames.lean keep (Keeps.lean). -/
set_option linter.unusedTactic false
set_option linter.unreachableTactic false
namespace Sys2Proof.Machine

theorem State.stat_keeps {r_ : State} (s : State) (u : Nat) (i : Nat) (k : Nat) (n : Nat) (h_ : Keeps r_ s) : Keeps r_ (State.stat s u i k n) := by
  unfold State.stat
  extract_lets +onlyGivenNames s1_0
  have h_s1_0 : Keeps r_ s1_0 := by
    unfold s1_0
    repeat' with_reducible first
      | assumption
      | exact Keeps.refl _
      | apply State.wr_keeps
      | apply State.bump_keeps
      | apply State.latch_keeps
      | apply Keeps.foldl
      | apply Keeps.foldl_snd
      | dsimp only
      | split
      | (refine Keeps.of_some (by assumption) ?_)
      | (refine Keeps.of_snd (by assumption) ?_)
      | (refine Keeps.of_snd_snd (by assumption) ?_)
      | (intro _ _ _; beta_reduce)
      | (fail_if_no_progress apply Keeps.other)
      | intro _
  clear_value s1_0
  repeat' with_reducible first
    | assumption
    | exact Keeps.refl _
    | apply State.wr_keeps
    | apply State.bump_keeps
    | apply State.latch_keeps
    | apply Keeps.foldl
    | apply Keeps.foldl_snd
    | dsimp only
    | split
    | (refine Keeps.of_some (by assumption) ?_)
    | (refine Keeps.of_snd (by assumption) ?_)
    | (refine Keeps.of_snd_snd (by assumption) ?_)
    | (intro _ _ _; beta_reduce)
    | (fail_if_no_progress apply Keeps.other)
    | intro _

theorem State.statFrame_keeps {r_ : State} (s : State) (u : Nat) (base : Nat) (len : Nat) (ty : Nat) (tagged : Bool) (h_ : Keeps r_ s) : Keeps r_ (State.statFrame s u base len ty tagged) := by
  unfold State.statFrame
  extract_lets +onlyGivenNames s1_0
  have h_s1_0 : Keeps r_ s1_0 := by
    unfold s1_0
    repeat' with_reducible first
      | assumption
      | exact Keeps.refl _
      | apply State.stat_keeps
      | apply Keeps.foldl
      | apply Keeps.foldl_snd
      | dsimp only
      | split
      | (refine Keeps.of_some (by assumption) ?_)
      | (refine Keeps.of_snd (by assumption) ?_)
      | (refine Keeps.of_snd_snd (by assumption) ?_)
      | (intro _ _ _; beta_reduce)
      | (fail_if_no_progress apply Keeps.other)
      | intro _
  clear_value s1_0
  repeat' with_reducible first
    | assumption
    | exact Keeps.refl _
    | apply State.stat_keeps
    | apply Keeps.foldl
    | apply Keeps.foldl_snd
    | dsimp only
    | split
    | (refine Keeps.of_some (by assumption) ?_)
    | (refine Keeps.of_snd (by assumption) ?_)
    | (refine Keeps.of_snd_snd (by assumption) ?_)
    | (intro _ _ _; beta_reduce)
    | (fail_if_no_progress apply Keeps.other)
    | intro _

theorem State.statAir_keeps {r_ : State} (s : State) (u : Nat) (base : Nat) (len : Nat) (h_ : Keeps r_ s) : Keeps r_ (State.statAir s u base len) := by
  unfold State.statAir
  repeat' with_reducible first
    | assumption
    | exact Keeps.refl _
    | apply State.stat_keeps
    | apply Keeps.foldl
    | apply Keeps.foldl_snd
    | dsimp only
    | split
    | (refine Keeps.of_some (by assumption) ?_)
    | (refine Keeps.of_snd (by assumption) ?_)
    | (refine Keeps.of_snd_snd (by assumption) ?_)
    | (intro _ _ _; beta_reduce)
    | (fail_if_no_progress apply Keeps.other)
    | intro _

theorem State.armRefresh_keeps {r_ : State} (s : State) (ch : Nat) (k : Nat) (h_ : Keeps r_ s) : Keeps r_ (State.armRefresh s ch k) := by
  unfold State.armRefresh
  repeat' with_reducible first
    | assumption
    | exact Keeps.refl _
    | apply State.startTimer_keeps
    | apply Keeps.foldl
    | apply Keeps.foldl_snd
    | dsimp only
    | split
    | (refine Keeps.of_some (by assumption) ?_)
    | (refine Keeps.of_snd (by assumption) ?_)
    | (refine Keeps.of_snd_snd (by assumption) ?_)
    | (intro _ _ _; beta_reduce)
    | (fail_if_no_progress apply Keeps.other)
    | intro _

theorem State.queuePause_keeps {r_ : State} (s : State) (ch : Nat) (h_ : Keeps r_ s) : Keeps r_ (State.queuePause s ch) := by
  unfold State.queuePause
  repeat' with_reducible first
    | assumption
    | exact Keeps.refl _
    | apply Keeps.foldl
    | apply Keeps.foldl_snd
    | dsimp only
    | split
    | (refine Keeps.of_some (by assumption) ?_)
    | (refine Keeps.of_snd (by assumption) ?_)
    | (refine Keeps.of_snd_snd (by assumption) ?_)
    | (intro _ _ _; beta_reduce)
    | (fail_if_no_progress apply Keeps.other)
    | intro _

theorem State.checkXoff_keeps {r_ : State} (s : State) (ch : Nat) (k : Nat) (h_ : Keeps r_ s) : Keeps r_ (State.checkXoff s ch k) := by
  unfold State.checkXoff
  extract_lets +onlyGivenNames occ_0 x_1
  try clear_value occ_0
  repeat' with_reducible first
    | assumption
    | exact Keeps.refl _
    | apply State.wr_keeps
    | apply State.setReg_keeps
    | apply State.stopTimer_keeps
    | apply State.armRefresh_keeps
    | apply State.queuePause_keeps
    | apply Keeps.foldl
    | apply Keeps.foldl_snd
    | dsimp only
    | split
    | (refine Keeps.of_some (by assumption) ?_)
    | (refine Keeps.of_snd (by assumption) ?_)
    | (refine Keeps.of_snd_snd (by assumption) ?_)
    | (intro _ _ _; beta_reduce)
    | (fail_if_no_progress apply Keeps.other)
    | intro _

theorem State.charged_keeps {r_ : State} (s : State) (f : Frame) (h_ : Keeps r_ s) : Keeps r_ (State.charged s f) := by
  unfold State.charged
  repeat' with_reducible first
    | assumption
    | exact Keeps.refl _
    | apply State.wr_keeps
    | apply State.checkXoff_keeps
    | apply Keeps.foldl
    | apply Keeps.foldl_snd
    | dsimp only
    | split
    | (refine Keeps.of_some (by assumption) ?_)
    | (refine Keeps.of_snd (by assumption) ?_)
    | (refine Keeps.of_snd_snd (by assumption) ?_)
    | (intro _ _ _; beta_reduce)
    | (fail_if_no_progress apply Keeps.other)
    | intro _

theorem State.drainCheck_keeps {r_ : State} (s : State) (h_ : Keeps r_ s) : Keeps r_ (State.drainCheck s) := by
  unfold State.drainCheck
  repeat' with_reducible first
    | assumption
    | exact Keeps.refl _
    | apply State.wr_keeps
    | apply State.raise_keeps
    | apply Keeps.foldl
    | apply Keeps.foldl_snd
    | dsimp only
    | split
    | (refine Keeps.of_some (by assumption) ?_)
    | (refine Keeps.of_snd (by assumption) ?_)
    | (refine Keeps.of_snd_snd (by assumption) ?_)
    | (intro _ _ _; beta_reduce)
    | (fail_if_no_progress apply Keeps.other)
    | intro _

theorem State.templateCheck_keeps {r_ : State} (s : State) (t : Nat) (h_ : Keeps r_ s) : Keeps r_ (State.templateCheck s t) := by
  unfold State.templateCheck
  repeat' with_reducible first
    | assumption
    | exact Keeps.refl _
    | apply State.setEnt_keeps
    | apply Keeps.foldl
    | apply Keeps.foldl_snd
    | dsimp only
    | split
    | (refine Keeps.of_some (by assumption) ?_)
    | (refine Keeps.of_snd (by assumption) ?_)
    | (refine Keeps.of_snd_snd (by assumption) ?_)
    | (intro _ _ _; beta_reduce)
    | (fail_if_no_progress apply Keeps.other)
    | intro _

theorem State.bufferEcc_keeps {r_ : State} (s : State) (h_ : Keeps r_ s) : Keeps r_ (State.bufferEcc s) := by
  unfold State.bufferEcc
  repeat' with_reducible first
    | assumption
    | exact Keeps.refl _
    | apply State.bump_keeps
    | apply State.latch_keeps
    | apply State.takeFree_keeps
    | apply State.record_keeps
    | apply Keeps.foldl
    | apply Keeps.foldl_snd
    | dsimp only
    | split
    | (refine Keeps.of_some (by assumption) ?_)
    | (refine Keeps.of_snd (by assumption) ?_)
    | (refine Keeps.of_snd_snd (by assumption) ?_)
    | (intro _ _ _; beta_reduce)
    | (fail_if_no_progress apply Keeps.other)
    | intro _

theorem State.unreadable_keeps {r_ : State} (s : State) (p : Frame → Bool) (h_ : Keeps r_ s) : Keeps r_ (State.unreadable s p) := by
  unfold State.unreadable
  repeat' with_reducible first
    | assumption
    | exact Keeps.refl _
    | apply Keeps.foldl
    | apply Keeps.foldl_snd
    | dsimp only
    | split
    | (refine Keeps.of_some (by assumption) ?_)
    | (refine Keeps.of_snd (by assumption) ?_)
    | (refine Keeps.of_snd_snd (by assumption) ?_)
    | (intro _ _ _; beta_reduce)
    | (fail_if_no_progress apply Keeps.other)
    | intro _

theorem State.templateBad_keeps {r_ : State} (s : State) (t : Nat) (h_ : Keeps r_ s) : Keeps r_ (State.templateBad s t) := by
  unfold State.templateBad
  extract_lets +onlyGivenNames s1_0
  have h_s1_0 : Keeps r_ s1_0 := by
    unfold s1_0
    repeat' with_reducible first
      | assumption
      | exact Keeps.refl _
      | apply State.setEnt_keeps
      | apply State.templateCheck_keeps
      | apply State.bufferEcc_keeps
      | apply State.unreadable_keeps
      | apply Keeps.foldl
      | apply Keeps.foldl_snd
      | dsimp only
      | split
      | (refine Keeps.of_some (by assumption) ?_)
      | (refine Keeps.of_snd (by assumption) ?_)
      | (refine Keeps.of_snd_snd (by assumption) ?_)
      | (intro _ _ _; beta_reduce)
      | (fail_if_no_progress apply Keeps.other)
      | intro _
  clear_value s1_0
  repeat' with_reducible first
    | assumption
    | exact Keeps.refl _
    | apply State.setEnt_keeps
    | apply State.templateCheck_keeps
    | apply State.bufferEcc_keeps
    | apply State.unreadable_keeps
    | apply Keeps.foldl
    | apply Keeps.foldl_snd
    | dsimp only
    | split
    | (refine Keeps.of_some (by assumption) ?_)
    | (refine Keeps.of_snd (by assumption) ?_)
    | (refine Keeps.of_snd_snd (by assumption) ?_)
    | (intro _ _ _; beta_reduce)
    | (fail_if_no_progress apply Keeps.other)
    | intro _

theorem State.readCells_keeps {r_ : State} (s : State) (f : Frame) (x : CellRead) (h_ : Keeps r_ s) : Keeps r_ (State.readCells s f x).2 := by
  unfold State.readCells
  extract_lets +onlyGivenNames s1_0 s2_1
  have h_s1_0 : Keeps r_ s1_0 := by
    unfold s1_0
    repeat' with_reducible first
      | assumption
      | exact Keeps.refl _
      | apply State.bump_keeps
      | apply State.bufferEcc_keeps
      | apply State.unreadable_keeps
      | apply State.templateBad_keeps
      | apply Keeps.foldl
      | apply Keeps.foldl_snd
      | dsimp only
      | split
      | (refine Keeps.of_some (by assumption) ?_)
      | (refine Keeps.of_snd (by assumption) ?_)
      | (refine Keeps.of_snd_snd (by assumption) ?_)
      | (intro _ _ _; beta_reduce)
      | (fail_if_no_progress apply Keeps.other)
      | intro _
  clear_value s1_0
  have h_s2_1 : Keeps r_ s2_1 := by
    unfold s2_1
    repeat' with_reducible first
      | assumption
      | exact Keeps.refl _
      | apply State.bump_keeps
      | apply State.bufferEcc_keeps
      | apply State.unreadable_keeps
      | apply State.templateBad_keeps
      | apply Keeps.foldl
      | apply Keeps.foldl_snd
      | dsimp only
      | split
      | (refine Keeps.of_some (by assumption) ?_)
      | (refine Keeps.of_snd (by assumption) ?_)
      | (refine Keeps.of_snd_snd (by assumption) ?_)
      | (intro _ _ _; beta_reduce)
      | (fail_if_no_progress apply Keeps.other)
      | intro _
  clear_value s2_1
  repeat' with_reducible first
    | assumption
    | exact Keeps.refl _
    | apply State.bump_keeps
    | apply State.bufferEcc_keeps
    | apply State.unreadable_keeps
    | apply State.templateBad_keeps
    | apply Keeps.foldl
    | apply Keeps.foldl_snd
    | dsimp only
    | split
    | (refine Keeps.of_some (by assumption) ?_)
    | (refine Keeps.of_snd (by assumption) ?_)
    | (refine Keeps.of_snd_snd (by assumption) ?_)
    | (intro _ _ _; beta_reduce)
    | (fail_if_no_progress apply Keeps.other)
    | intro _

theorem State.releaseFrame_keeps {r_ : State} (s : State) (id : Nat) (h_ : Keeps r_ s) : Keeps r_ (State.releaseFrame s id) := by
  unfold State.releaseFrame
  repeat' with_reducible first
    | assumption
    | exact Keeps.refl _
    | apply State.charged_keeps
    | apply State.drainCheck_keeps
    | apply State.templateCheck_keeps
    | apply Keeps.foldl
    | apply Keeps.foldl_snd
    | dsimp only
    | split
    | (refine Keeps.of_some (by assumption) ?_)
    | (refine Keeps.of_snd (by assumption) ?_)
    | (refine Keeps.of_snd_snd (by assumption) ?_)
    | (intro _ _ _; beta_reduce)
    | (fail_if_no_progress apply Keeps.other)
    | intro _

theorem State.leaveFlight_keeps {r_ : State} (s : State) (id : Nat) (h_ : Keeps r_ s) : Keeps r_ (State.leaveFlight s id) := by
  unfold State.leaveFlight
  repeat' with_reducible first
    | assumption
    | exact Keeps.refl _
    | apply State.drainCheck_keeps
    | apply Keeps.foldl
    | apply Keeps.foldl_snd
    | dsimp only
    | split
    | (refine Keeps.of_some (by assumption) ?_)
    | (refine Keeps.of_snd (by assumption) ?_)
    | (refine Keeps.of_snd_snd (by assumption) ?_)
    | (intro _ _ _; beta_reduce)
    | (fail_if_no_progress apply Keeps.other)
    | intro _

theorem State.settle_keeps {r_ : State} (s : State) (id : Nat) (h_ : Keeps r_ s) : Keeps r_ (State.settle s id) := by
  unfold State.settle
  repeat' with_reducible first
    | assumption
    | exact Keeps.refl _
    | apply State.tsCheck_keeps
    | apply State.releaseFrame_keeps
    | apply State.leaveFlight_keeps
    | apply Keeps.foldl
    | apply Keeps.foldl_snd
    | dsimp only
    | split
    | (refine Keeps.of_some (by assumption) ?_)
    | (refine Keeps.of_snd (by assumption) ?_)
    | (refine Keeps.of_snd_snd (by assumption) ?_)
    | (intro _ _ _; beta_reduce)
    | (fail_if_no_progress apply Keeps.other)
    | intro _

theorem State.dropCopy_keeps {r_ : State} (s : State) (c : Copy) (h_ : Keeps r_ s) : Keeps r_ (State.dropCopy s c) := by
  unfold State.dropCopy
  repeat' with_reducible first
    | assumption
    | exact Keeps.refl _
    | apply Keeps.foldl
    | apply Keeps.foldl_snd
    | dsimp only
    | split
    | (refine Keeps.of_some (by assumption) ?_)
    | (refine Keeps.of_snd (by assumption) ?_)
    | (refine Keeps.of_snd_snd (by assumption) ?_)
    | (intro _ _ _; beta_reduce)
    | (fail_if_no_progress apply Keeps.other)
    | intro _

theorem State.setCopy_keeps {r_ : State} (s : State) (c : Copy) (d : Copy) (h_ : Keeps r_ s) : Keeps r_ (State.setCopy s c d) := by
  unfold State.setCopy
  repeat' with_reducible first
    | assumption
    | exact Keeps.refl _
    | apply Keeps.foldl
    | apply Keeps.foldl_snd
    | dsimp only
    | split
    | (refine Keeps.of_some (by assumption) ?_)
    | (refine Keeps.of_snd (by assumption) ?_)
    | (refine Keeps.of_snd_snd (by assumption) ?_)
    | (intro _ _ _; beta_reduce)
    | (fail_if_no_progress apply Keeps.other)
    | intro _

theorem State.withdraw_keeps {r_ : State} (s : State) (ep : Nat) (p : Copy → Bool) (h_ : Keeps r_ s) : Keeps r_ (State.withdraw s ep p) := by
  unfold State.withdraw
  extract_lets +onlyGivenNames n_0
  try clear_value n_0
  repeat' with_reducible first
    | assumption
    | exact Keeps.refl _
    | apply State.bump_keeps
    | apply Keeps.foldl
    | apply Keeps.foldl_snd
    | dsimp only
    | split
    | (refine Keeps.of_some (by assumption) ?_)
    | (refine Keeps.of_snd (by assumption) ?_)
    | (refine Keeps.of_snd_snd (by assumption) ?_)
    | (intro _ _ _; beta_reduce)
    | (fail_if_no_progress apply Keeps.other)
    | intro _

theorem State.lit_keeps {r_ : State} (s : State) (lane : Nat) (h_ : Keeps r_ s) : Keeps r_ (State.lit s lane) := by
  unfold State.lit
  repeat' with_reducible first
    | assumption
    | exact Keeps.refl _
    | apply State.setReg_keeps
    | apply State.startTimer_keeps
    | apply Keeps.foldl
    | apply Keeps.foldl_snd
    | dsimp only
    | split
    | (refine Keeps.of_some (by assumption) ?_)
    | (refine Keeps.of_snd (by assumption) ?_)
    | (refine Keeps.of_snd_snd (by assumption) ?_)
    | (intro _ _ _; beta_reduce)
    | (fail_if_no_progress apply Keeps.other)
    | intro _

theorem State.recycle_keeps {r_ : State} (s : State) (b : BqBuffer) (h_ : Keeps r_ s) : Keeps r_ (State.recycle s b) := by
  unfold State.recycle
  repeat' with_reducible first
    | assumption
    | exact Keeps.refl _
    | apply State.bump_keeps
    | apply State.unreserve_keeps
    | apply Keeps.foldl
    | apply Keeps.foldl_snd
    | dsimp only
    | split
    | (refine Keeps.of_some (by assumption) ?_)
    | (refine Keeps.of_snd (by assumption) ?_)
    | (refine Keeps.of_snd_snd (by assumption) ?_)
    | (intro _ _ _; beta_reduce)
    | (fail_if_no_progress apply Keeps.other)
    | intro _

theorem State.keepBuffer_keeps {r_ : State} (s : State) (c : Copy) (h_ : Keeps r_ s) : Keeps r_ (State.keepBuffer s c) := by
  unfold State.keepBuffer
  repeat' with_reducible first
    | assumption
    | exact Keeps.refl _
    | apply State.dropOps_keeps
    | apply State.recycle_keeps
    | apply Keeps.foldl
    | apply Keeps.foldl_snd
    | dsimp only
    | split
    | (refine Keeps.of_some (by assumption) ?_)
    | (refine Keeps.of_snd (by assumption) ?_)
    | (refine Keeps.of_snd_snd (by assumption) ?_)
    | (intro _ _ _; beta_reduce)
    | (fail_if_no_progress apply Keeps.other)
    | intro _

theorem State.countFail_keeps {r_ : State} (s : State) (ch : Nat) (account : Nat) (r : RxFail) (h_ : Keeps r_ s) : Keeps r_ (State.countFail s ch account r) := by
  unfold State.countFail
  extract_lets +onlyGivenNames u_0
  try clear_value u_0
  repeat' with_reducible first
    | assumption
    | exact Keeps.refl _
    | apply State.bump_keeps
    | apply State.latch_keeps
    | apply Keeps.foldl
    | apply Keeps.foldl_snd
    | dsimp only
    | split
    | (refine Keeps.of_some (by assumption) ?_)
    | (refine Keeps.of_snd (by assumption) ?_)
    | (refine Keeps.of_snd_snd (by assumption) ?_)
    | (intro _ _ _; beta_reduce)
    | (fail_if_no_progress apply Keeps.other)
    | intro _

theorem State.undo_keeps {r_ : State} (s : State) (id : Nat) (r : RxFail) (h_ : Keeps r_ s) : Keeps r_ (State.undo s id r) := by
  unfold State.undo
  repeat' with_reducible first
    | assumption
    | exact Keeps.refl _
    | apply State.stat_keeps
    | apply State.releaseFrame_keeps
    | apply State.keepBuffer_keeps
    | apply State.countFail_keeps
    | apply Keeps.foldl
    | apply Keeps.foldl_snd
    | dsimp only
    | split
    | (refine Keeps.of_some (by assumption) ?_)
    | (refine Keeps.of_snd (by assumption) ?_)
    | (refine Keeps.of_snd_snd (by assumption) ?_)
    | (intro _ _ _; beta_reduce)
    | (fail_if_no_progress apply Keeps.other)
    | intro _

end Sys2Proof.Machine
end

