-- ==== Sys2Proof/Laws/KeepsSched.lean ====
section
/-! SUPPORT. What the operations of Sched.lean keep (Keeps.lean). -/
set_option linter.unusedTactic false
set_option linter.unreachableTactic false
namespace Sys2Proof.Machine

theorem State.countQueue_keeps {r_ : State} (s : State) (q : QueueRef) (i : Nat) (n : Nat) (h_ : Keeps r_ s) : Keeps r_ (State.countQueue s q i n) := by
  unfold State.countQueue
  repeat' with_reducible first
    | assumption
    | exact Keeps.refl _
    | apply State.setEntField_keeps
    | apply Keeps.foldl
    | apply Keeps.foldl_snd
    | dsimp only
    | split
    | (refine Keeps.of_some (by assumption) ?_)
    | (refine Keeps.of_snd (by assumption) ?_)
    | (refine Keeps.of_snd_snd (by assumption) ?_)
    | (intro _ _ _; beta_reduce)
    | (fail_if_no_progress apply Keeps.other)
    | intro _

theorem State.pay_keeps {r_ : State} (s : State) (o : Owed) (h_ : Keeps r_ s) : Keeps r_ (State.pay s o) := by
  cases o <;> unfold State.pay <;> first | exact State.bump_keeps _ _ _ _ _ h_ | exact State.latch_keeps _ _ _ h_ | exact State.countQueue_keeps _ _ _ _ h_

theorem State.owe_keeps {r_ : State} (s : State) (id : Nat) (l : List Owed) (h_ : Keeps r_ s) : Keeps r_ (State.owe s id l) := by
  unfold State.owe
  repeat' with_reducible first
    | assumption
    | exact Keeps.refl _
    | apply State.setFrame_keeps
    | apply State.pay_keeps
    | apply Keeps.foldl
    | apply Keeps.foldl_snd
    | dsimp only
    | split
    | (refine Keeps.of_some (by assumption) ?_)
    | (refine Keeps.of_snd (by assumption) ?_)
    | (refine Keeps.of_snd_snd (by assumption) ?_)
    | (intro _ _ _; beta_reduce)
    | (fail_if_no_progress apply Keeps.other)
    | intro _

theorem State.discardCopy_keeps {r_ : State} (s : State) (c : Copy) (h_ : Keeps r_ s) : Keeps r_ (State.discardCopy s c) := by
  unfold State.discardCopy
  repeat' with_reducible first
    | assumption
    | exact Keeps.refl _
    | apply State.settle_keeps
    | apply State.dropCopy_keeps
    | apply Keeps.foldl
    | apply Keeps.foldl_snd
    | dsimp only
    | split
    | (refine Keeps.of_some (by assumption) ?_)
    | (refine Keeps.of_snd (by assumption) ?_)
    | (refine Keeps.of_snd_snd (by assumption) ?_)
    | (intro _ _ _; beta_reduce)
    | (fail_if_no_progress apply Keeps.other)
    | intro _

theorem State.choose_keeps {r_ : State} (n : Nat) (s : State) (ep level lead : Nat) (h_ : Keeps r_ s) : Keeps r_ (State.choose n s ep level lead).2 := by
  induction n generalizing s with
  | zero => exact h_
  | succ n_ ih =>
    unfold State.choose
    repeat' with_reducible first
      | assumption
      | exact Keeps.refl _
      | apply ih
      | apply State.owe_keeps
      | apply State.discardCopy_keeps
      | apply Keeps.foldl
      | apply Keeps.foldl_snd
      | dsimp only
      | split
      | (refine Keeps.of_some (by assumption) ?_)
      | (refine Keeps.of_snd (by assumption) ?_)
      | (refine Keeps.of_snd_snd (by assumption) ?_)
      | (intro _ _ _; beta_reduce)
      | (fail_if_no_progress apply Keeps.other)
      | intro _

theorem State.fragmentSent_keeps {r_ : State} (s : State) (c : Copy) (h_ : Keeps r_ s) : Keeps r_ (State.fragmentSent s c) := by
  unfold State.fragmentSent
  repeat' with_reducible first
    | assumption
    | exact Keeps.refl _
    | apply State.owe_keeps
    | apply Keeps.foldl
    | apply Keeps.foldl_snd
    | dsimp only
    | split
    | (refine Keeps.of_some (by assumption) ?_)
    | (refine Keeps.of_snd (by assumption) ?_)
    | (refine Keeps.of_snd_snd (by assumption) ?_)
    | (intro _ _ _; beta_reduce)
    | (fail_if_no_progress apply Keeps.other)
    | intro _

theorem State.cutFor_keeps {r_ : State} (s : State) (ep : Nat) (level : Nat) (h_ : Keeps r_ s) : Keeps r_ (State.cutFor s ep level) := by
  unfold State.cutFor
  repeat' with_reducible first
    | assumption
    | exact Keeps.refl _
    | apply State.setReg_keeps
    | apply State.setCopy_keeps
    | apply State.fragmentSent_keeps
    | apply Keeps.foldl
    | apply Keeps.foldl_snd
    | dsimp only
    | split
    | (refine Keeps.of_some (by assumption) ?_)
    | (refine Keeps.of_snd (by assumption) ?_)
    | (refine Keeps.of_snd_snd (by assumption) ?_)
    | (intro _ _ _; beta_reduce)
    | (fail_if_no_progress apply Keeps.other)
    | intro _

theorem State.resume_keeps {r_ : State} (s : State) (ep : Nat) (h_ : Keeps r_ s) : Keeps r_ (State.resume s ep) := by
  unfold State.resume
  repeat' with_reducible first
    | assumption
    | exact Keeps.refl _
    | apply State.setCopy_keeps
    | apply Keeps.foldl
    | apply Keeps.foldl_snd
    | dsimp only
    | split
    | (refine Keeps.of_some (by assumption) ?_)
    | (refine Keeps.of_snd (by assumption) ?_)
    | (refine Keeps.of_snd_snd (by assumption) ?_)
    | (intro _ _ _; beta_reduce)
    | (fail_if_no_progress apply Keeps.other)
    | intro _

theorem State.resumeAll_keeps {r_ : State} (s : State) (h_ : Keeps r_ s) : Keeps r_ (State.resumeAll s) := by
  unfold State.resumeAll
  repeat' with_reducible first
    | assumption
    | exact Keeps.refl _
    | apply State.resume_keeps
    | apply Keeps.foldl
    | apply Keeps.foldl_snd
    | dsimp only
    | split
    | (refine Keeps.of_some (by assumption) ?_)
    | (refine Keeps.of_snd (by assumption) ?_)
    | (refine Keeps.of_snd_snd (by assumption) ?_)
    | (intro _ _ _; beta_reduce)
    | (fail_if_no_progress apply Keeps.other)
    | intro _

theorem execSchedChoice_keeps {r_ : State} (ep : Nat) (level : Nat) (lead : Nat) (s : State) (h_ : Keeps r_ s) : KeepsNext r_ (execSchedChoice ep level lead s) := by
  unfold execSchedChoice
  repeat' with_reducible first
    | assumption
    | exact Keeps.refl _
    | apply KeepsNext.next
    | apply KeepsNext.refused
    | apply State.setCopy_keeps
    | apply State.choose_keeps
    | apply State.cutFor_keeps
    | apply State.resume_keeps
    | apply Keeps.foldl
    | apply Keeps.foldl_snd
    | dsimp only
    | split
    | (refine Keeps.of_some (by assumption) ?_)
    | (refine Keeps.of_snd (by assumption) ?_)
    | (refine Keeps.of_snd_snd (by assumption) ?_)
    | (intro _ _ _; beta_reduce)
    | (fail_if_no_progress apply Keeps.other)
    | intro _

end Sys2Proof.Machine
end

