-- ==== Sys2Proof/Laws/KeepsWire.lean ====
section
/-! SUPPORT. What the operations of Wire.lean keep (Keeps.lean). -/
set_option linter.unusedTactic false
set_option linter.unreachableTactic false
namespace Sys2Proof.Machine

theorem State.chargeQuarter_keeps {r_ : State} (s : State) (ch : Nat) (l : Nat) (h_ : Keeps r_ s) : Keeps r_ (State.chargeQuarter s ch l) := by
  unfold State.chargeQuarter
  repeat' with_reducible first
    | assumption
    | exact Keeps.refl _
    | apply State.setReg_keeps
    | apply Keeps.foldl
    | apply Keeps.foldl_snd
    | dsimp only
    | split
    | (refine Keeps.of_some (by assumption) ?_)
    | (refine Keeps.of_snd (by assumption) ?_)
    | (refine Keeps.of_snd_snd (by assumption) ?_)
    | (intro _ _ _; beta_reduce)
    | (fail_if_no_progress apply Keeps.other)
    | intro _

theorem State.beginQuarter_keeps {r_ : State} (s : State) (ch : Nat) (l : Nat) (h_ : Keeps r_ s) : Keeps r_ (State.beginQuarter s ch l) := by
  unfold State.beginQuarter
  repeat' with_reducible first
    | assumption
    | exact Keeps.refl _
    | apply State.setReg_keeps
    | apply State.chargeQuarter_keeps
    | apply Keeps.foldl
    | apply Keeps.foldl_snd
    | dsimp only
    | split
    | (refine Keeps.of_some (by assumption) ?_)
    | (refine Keeps.of_snd (by assumption) ?_)
    | (refine Keeps.of_snd_snd (by assumption) ?_)
    | (intro _ _ _; beta_reduce)
    | (fail_if_no_progress apply Keeps.other)
    | intro _

theorem State.setFoldSlot_keeps {r_ : State} (s : State) (f : FoldSlot) (h_ : Keeps r_ s) : Keeps r_ (State.setFoldSlot s f) := by
  unfold State.setFoldSlot
  repeat' with_reducible first
    | assumption
    | exact Keeps.refl _
    | apply Keeps.foldl
    | apply Keeps.foldl_snd
    | dsimp only
    | split
    | (refine Keeps.of_some (by assumption) ?_)
    | (refine Keeps.of_snd (by assumption) ?_)
    | (refine Keeps.of_snd_snd (by assumption) ?_)
    | (intro _ _ _; beta_reduce)
    | (fail_if_no_progress apply Keeps.other)
    | intro _

theorem State.installSlot_keeps {r_ : State} (s : State) (ch : Nat) (slot : Nat) (gen : Nat) (l : List Octet) (sh : Nat × Nat × Nat × Bool × Nat) (h_ : Keeps r_ s) : Keeps r_ (State.installSlot s ch slot gen l sh) := by
  unfold State.installSlot
  extract_lets +onlyGivenNames s1_0
  have h_s1_0 : Keeps r_ s1_0 := by
    unfold s1_0
    repeat' with_reducible first
      | assumption
      | exact Keeps.refl _
      | apply State.setReg_keeps
      | apply State.setFoldSlot_keeps
      | apply Keeps.foldl
      | apply Keeps.foldl_snd
      | dsimp only
      | split
      | (refine Keeps.of_some (by assumption) ?_)
      | (refine Keeps.of_snd (by assumption) ?_)
      | (refine Keeps.of_snd_snd (by assumption) ?_)
      | (intro _ _ _; beta_reduce)
      | (fail_if_no_progress apply Keeps.other)
      | intro _
  clear_value s1_0
  repeat' with_reducible first
    | assumption
    | exact Keeps.refl _
    | apply State.setReg_keeps
    | apply State.setFoldSlot_keeps
    | apply Keeps.foldl
    | apply Keeps.foldl_snd
    | dsimp only
    | split
    | (refine Keeps.of_some (by assumption) ?_)
    | (refine Keeps.of_snd (by assumption) ?_)
    | (refine Keeps.of_snd_snd (by assumption) ?_)
    | (intro _ _ _; beta_reduce)
    | (fail_if_no_progress apply Keeps.other)
    | intro _

theorem State.foldSend_keeps {r_ : State} (s : State) (f : Frame) (c : Copy) (h_ : Keeps r_ s) : Keeps r_ (State.foldSend s f c).2 := by
  unfold State.foldSend
  extract_lets +onlyGivenNames plain_0 carriesData_1
  try clear_value plain_0
  try clear_value carriesData_1
  repeat' with_reducible first
    | assumption
    | exact Keeps.refl _
    | apply State.setReg_keeps
    | apply State.owe_keeps
    | apply State.installSlot_keeps
    | apply Keeps.foldl
    | apply Keeps.foldl_snd
    | dsimp only
    | split
    | (refine Keeps.of_some (by assumption) ?_)
    | (refine Keeps.of_snd (by assumption) ?_)
    | (refine Keeps.of_snd_snd (by assumption) ?_)
    | (intro _ _ _; beta_reduce)
    | (fail_if_no_progress apply Keeps.other)
    | intro _

theorem State.startTags_keeps {r_ : State} (s : State) (c : Copy) (h_ : Keeps r_ s) : Keeps r_ (State.startTags s c) := by
  unfold State.startTags
  extract_lets +onlyGivenNames l_0 t_1 s1_2
  try clear_value l_0
  try clear_value t_1
  have h_s1_2 : Keeps r_ s1_2 := by
    unfold s1_2
    repeat' with_reducible first
      | assumption
      | exact Keeps.refl _
      | apply State.setReg_keeps
      | apply Keeps.foldl
      | apply Keeps.foldl_snd
      | dsimp only
      | split
      | (refine Keeps.of_some (by assumption) ?_)
      | (refine Keeps.of_snd (by assumption) ?_)
      | (refine Keeps.of_snd_snd (by assumption) ?_)
      | (intro _ _ _; beta_reduce)
      | (fail_if_no_progress apply Keeps.other)
      | intro _
  clear_value s1_2
  repeat' with_reducible first
    | assumption
    | exact Keeps.refl _
    | apply State.setReg_keeps
    | apply Keeps.foldl
    | apply Keeps.foldl_snd
    | dsimp only
    | split
    | (refine Keeps.of_some (by assumption) ?_)
    | (refine Keeps.of_snd (by assumption) ?_)
    | (refine Keeps.of_snd_snd (by assumption) ?_)
    | (intro _ _ _; beta_reduce)
    | (fail_if_no_progress apply Keeps.other)
    | intro _

theorem State.startCopy_keeps {r_ : State} (s : State) (c : Copy) (d : Copy) (h_ : Keeps r_ s) : Keeps r_ (State.startCopy s c d) := by
  unfold State.startCopy
  repeat' with_reducible first
    | assumption
    | exact Keeps.refl _
    | apply Keeps.foldl
    | apply Keeps.foldl_snd
    | dsimp only
    | split
    | (refine Keeps.of_some (by assumption) ?_)
    | (refine Keeps.of_snd (by assumption) ?_)
    | (refine Keeps.of_snd_snd (by assumption) ?_)
    | (intro _ _ _; beta_reduce)
    | (fail_if_no_progress apply Keeps.other)
    | intro _

theorem State.startOnChannel_keeps {r_ : State} (s : State) (f : Frame) (c : Copy) (level : Nat) (crossing : Nat) (ecc : CellRead) (h_ : Keeps r_ s) : Keeps r_ (State.startOnChannel s f c level crossing ecc) := by
  unfold State.startOnChannel
  extract_lets +onlyGivenNames pre_0 l_1 w_2 start_3 s1_4 s2_5
  try clear_value pre_0
  try clear_value l_1
  try clear_value start_3
  have h_s1_4 : Keeps r_ s1_4 := by
    unfold s1_4
    repeat' with_reducible first
      | assumption
      | exact Keeps.refl _
      | apply State.setReg_keeps
      | apply State.readCells_keeps
      | apply State.lit_keeps
      | apply State.owe_keeps
      | apply State.beginQuarter_keeps
      | apply State.foldSend_keeps
      | apply State.startTags_keeps
      | apply State.startCopy_keeps
      | apply Keeps.foldl
      | apply Keeps.foldl_snd
      | dsimp only
      | split
      | (refine Keeps.of_some (by assumption) ?_)
      | (refine Keeps.of_snd (by assumption) ?_)
      | (refine Keeps.of_snd_snd (by assumption) ?_)
      | (intro _ _ _; beta_reduce)
      | (fail_if_no_progress apply Keeps.other)
      | intro _
  clear_value s1_4
  have h_s2_5 : Keeps r_ s2_5 := by
    unfold s2_5
    repeat' with_reducible first
      | assumption
      | exact Keeps.refl _
      | apply State.setReg_keeps
      | apply State.readCells_keeps
      | apply State.lit_keeps
      | apply State.owe_keeps
      | apply State.beginQuarter_keeps
      | apply State.foldSend_keeps
      | apply State.startTags_keeps
      | apply State.startCopy_keeps
      | apply Keeps.foldl
      | apply Keeps.foldl_snd
      | dsimp only
      | split
      | (refine Keeps.of_some (by assumption) ?_)
      | (refine Keeps.of_snd (by assumption) ?_)
      | (refine Keeps.of_snd_snd (by assumption) ?_)
      | (intro _ _ _; beta_reduce)
      | (fail_if_no_progress apply Keeps.other)
      | intro _
  clear_value s2_5
  repeat' with_reducible first
    | assumption
    | exact Keeps.refl _
    | apply State.setReg_keeps
    | apply State.readCells_keeps
    | apply State.lit_keeps
    | apply State.owe_keeps
    | apply State.beginQuarter_keeps
    | apply State.foldSend_keeps
    | apply State.startTags_keeps
    | apply State.startCopy_keeps
    | apply Keeps.foldl
    | apply Keeps.foldl_snd
    | dsimp only
    | split
    | (refine Keeps.of_some (by assumption) ?_)
    | (refine Keeps.of_snd (by assumption) ?_)
    | (refine Keeps.of_snd_snd (by assumption) ?_)
    | (intro _ _ _; beta_reduce)
    | (fail_if_no_progress apply Keeps.other)
    | intro _

theorem execTxFrameStart_keeps {r_ : State} (ep : Nat) (level : Nat) (crossing : Nat) (ecc : CellRead) (s : State) (h_ : Keeps r_ s) : KeepsNext r_ (execTxFrameStart ep level crossing ecc s) := by
  unfold execTxFrameStart
  repeat' with_reducible first
    | assumption
    | exact Keeps.refl _
    | apply KeepsNext.next
    | apply KeepsNext.refused
    | apply gathered_keeps
    | apply State.cutFor_keeps
    | apply State.startTags_keeps
    | apply State.startCopy_keeps
    | apply State.startOnChannel_keeps
    | apply Keeps.foldl
    | apply Keeps.foldl_snd
    | dsimp only
    | split
    | (refine Keeps.of_some (by assumption) ?_)
    | (refine Keeps.of_snd (by assumption) ?_)
    | (refine Keeps.of_snd_snd (by assumption) ?_)
    | (intro _ _ _; beta_reduce)
    | (fail_if_no_progress apply Keeps.other)
    | intro _

theorem State.correctCharge_keeps {r_ : State} (s : State) (c : Copy) (sent : Nat) (h_ : Keeps r_ s) : Keeps r_ (State.correctCharge s c sent) := by
  unfold State.correctCharge
  extract_lets +onlyGivenNames actual_0
  try clear_value actual_0
  repeat' with_reducible first
    | assumption
    | exact Keeps.refl _
    | apply State.setReg_keeps
    | apply Keeps.foldl
    | apply Keeps.foldl_snd
    | dsimp only
    | split
    | (refine Keeps.of_some (by assumption) ?_)
    | (refine Keeps.of_snd (by assumption) ?_)
    | (refine Keeps.of_snd_snd (by assumption) ?_)
    | (intro _ _ _; beta_reduce)
    | (fail_if_no_progress apply Keeps.other)
    | intro _

theorem State.txTsRecord_keeps {r_ : State} (s : State) (ch : Nat) (f : Frame) (tx : Nat) (h_ : Keeps r_ s) : Keeps r_ (State.txTsRecord s ch f tx) := by
  unfold State.txTsRecord
  extract_lets +onlyGivenNames q_0 p_1 w_2 e_3
  try clear_value q_0
  try clear_value p_1
  try clear_value e_3
  repeat' with_reducible first
    | assumption
    | exact Keeps.refl _
    | apply State.setEnt_keeps
    | apply State.setReg_keeps
    | apply State.raise_keeps
    | apply Keeps.foldl
    | apply Keeps.foldl_snd
    | dsimp only
    | split
    | (refine Keeps.of_some (by assumption) ?_)
    | (refine Keeps.of_snd (by assumption) ?_)
    | (refine Keeps.of_snd_snd (by assumption) ?_)
    | (intro _ _ _; beta_reduce)
    | (fail_if_no_progress apply Keeps.other)
    | intro _

theorem State.endFull_keeps {r_ : State} (s : State) (f : Frame) (c : Copy) (h_ : Keeps r_ s) : Keeps r_ (State.endFull s f c) := by
  unfold State.endFull
  extract_lets +onlyGivenNames wire_0 ch_1 ty_2 s1_3 s2_4 two_5 s3_6 s3_7
  try clear_value wire_0
  try clear_value ch_1
  try clear_value ty_2
  try clear_value two_5
  have h_s1_3 : Keeps r_ s1_3 := by
    unfold s1_3
    repeat' with_reducible first
      | assumption
      | exact Keeps.refl _
      | apply State.startTimer_keeps
      | apply State.txComplete_keeps
      | apply State.statFrame_keeps
      | apply State.dropCopy_keeps
      | apply State.setCopy_keeps
      | apply State.countQueue_keeps
      | apply State.txTsRecord_keeps
      | apply Keeps.foldl
      | apply Keeps.foldl_snd
      | dsimp only
      | split
      | (refine Keeps.of_some (by assumption) ?_)
      | (refine Keeps.of_snd (by assumption) ?_)
      | (refine Keeps.of_snd_snd (by assumption) ?_)
      | (intro _ _ _; beta_reduce)
      | (fail_if_no_progress apply Keeps.other)
      | intro _
  clear_value s1_3
  have h_s2_4 : Keeps r_ s2_4 := by
    unfold s2_4
    repeat' with_reducible first
      | assumption
      | exact Keeps.refl _
      | apply State.startTimer_keeps
      | apply State.txComplete_keeps
      | apply State.statFrame_keeps
      | apply State.dropCopy_keeps
      | apply State.setCopy_keeps
      | apply State.countQueue_keeps
      | apply State.txTsRecord_keeps
      | apply Keeps.foldl
      | apply Keeps.foldl_snd
      | dsimp only
      | split
      | (refine Keeps.of_some (by assumption) ?_)
      | (refine Keeps.of_snd (by assumption) ?_)
      | (refine Keeps.of_snd_snd (by assumption) ?_)
      | (intro _ _ _; beta_reduce)
      | (fail_if_no_progress apply Keeps.other)
      | intro _
  clear_value s2_4
  have h_s3_6 : Keeps r_ s3_6 := by
    unfold s3_6
    repeat' with_reducible first
      | assumption
      | exact Keeps.refl _
      | apply State.startTimer_keeps
      | apply State.txComplete_keeps
      | apply State.statFrame_keeps
      | apply State.dropCopy_keeps
      | apply State.setCopy_keeps
      | apply State.countQueue_keeps
      | apply State.txTsRecord_keeps
      | apply Keeps.foldl
      | apply Keeps.foldl_snd
      | dsimp only
      | split
      | (refine Keeps.of_some (by assumption) ?_)
      | (refine Keeps.of_snd (by assumption) ?_)
      | (refine Keeps.of_snd_snd (by assumption) ?_)
      | (intro _ _ _; beta_reduce)
      | (fail_if_no_progress apply Keeps.other)
      | intro _
  clear_value s3_6
  have h_s3_7 : Keeps r_ s3_7 := by
    unfold s3_7
    repeat' with_reducible first
      | assumption
      | exact Keeps.refl _
      | apply State.startTimer_keeps
      | apply State.txComplete_keeps
      | apply State.statFrame_keeps
      | apply State.dropCopy_keeps
      | apply State.setCopy_keeps
      | apply State.countQueue_keeps
      | apply State.txTsRecord_keeps
      | apply Keeps.foldl
      | apply Keeps.foldl_snd
      | dsimp only
      | split
      | (refine Keeps.of_some (by assumption) ?_)
      | (refine Keeps.of_snd (by assumption) ?_)
      | (refine Keeps.of_snd_snd (by assumption) ?_)
      | (intro _ _ _; beta_reduce)
      | (fail_if_no_progress apply Keeps.other)
      | intro _
  clear_value s3_7
  repeat' with_reducible first
    | assumption
    | exact Keeps.refl _
    | apply State.startTimer_keeps
    | apply State.txComplete_keeps
    | apply State.statFrame_keeps
    | apply State.dropCopy_keeps
    | apply State.setCopy_keeps
    | apply State.countQueue_keeps
    | apply State.txTsRecord_keeps
    | apply Keeps.foldl
    | apply Keeps.foldl_snd
    | dsimp only
    | split
    | (refine Keeps.of_some (by assumption) ?_)
    | (refine Keeps.of_snd (by assumption) ?_)
    | (refine Keeps.of_snd_snd (by assumption) ?_)
    | (intro _ _ _; beta_reduce)
    | (fail_if_no_progress apply Keeps.other)
    | intro _

theorem State.txEnd_keeps {r_ : State} (s : State) (c : Copy) (h_ : Keeps r_ s) : Keeps r_ (State.txEnd s c) := by
  unfold State.txEnd
  extract_lets +onlyGivenNames ch_0 wire_1 stomp_2 endOctets_3 s0_4 s1_5 s2_6
  try clear_value ch_0
  try clear_value wire_1
  try clear_value stomp_2
  try clear_value endOctets_3
  have h_s0_4 : Keeps r_ s0_4 := by
    unfold s0_4
    repeat' with_reducible first
      | assumption
      | exact Keeps.refl _
      | apply State.bump_keeps
      | apply State.settle_keeps
      | apply State.dropCopy_keeps
      | apply State.fragmentSent_keeps
      | apply State.correctCharge_keeps
      | apply State.endFull_keeps
      | apply Keeps.foldl
      | apply Keeps.foldl_snd
      | dsimp only
      | split
      | (refine Keeps.of_some (by assumption) ?_)
      | (refine Keeps.of_snd (by assumption) ?_)
      | (refine Keeps.of_snd_snd (by assumption) ?_)
      | (intro _ _ _; beta_reduce)
      | (fail_if_no_progress apply Keeps.other)
      | intro _
  clear_value s0_4
  have h_s1_5 : Keeps r_ s1_5 := by
    unfold s1_5
    repeat' with_reducible first
      | assumption
      | exact Keeps.refl _
      | apply State.bump_keeps
      | apply State.settle_keeps
      | apply State.dropCopy_keeps
      | apply State.fragmentSent_keeps
      | apply State.correctCharge_keeps
      | apply State.endFull_keeps
      | apply Keeps.foldl
      | apply Keeps.foldl_snd
      | dsimp only
      | split
      | (refine Keeps.of_some (by assumption) ?_)
      | (refine Keeps.of_snd (by assumption) ?_)
      | (refine Keeps.of_snd_snd (by assumption) ?_)
      | (intro _ _ _; beta_reduce)
      | (fail_if_no_progress apply Keeps.other)
      | intro _
  clear_value s1_5
  have h_s2_6 : Keeps r_ s2_6 := by
    unfold s2_6
    repeat' with_reducible first
      | assumption
      | exact Keeps.refl _
      | apply State.bump_keeps
      | apply State.settle_keeps
      | apply State.dropCopy_keeps
      | apply State.fragmentSent_keeps
      | apply State.correctCharge_keeps
      | apply State.endFull_keeps
      | apply Keeps.foldl
      | apply Keeps.foldl_snd
      | dsimp only
      | split
      | (refine Keeps.of_some (by assumption) ?_)
      | (refine Keeps.of_snd (by assumption) ?_)
      | (refine Keeps.of_snd_snd (by assumption) ?_)
      | (intro _ _ _; beta_reduce)
      | (fail_if_no_progress apply Keeps.other)
      | intro _
  clear_value s2_6
  repeat' with_reducible first
    | assumption
    | exact Keeps.refl _
    | apply State.bump_keeps
    | apply State.settle_keeps
    | apply State.dropCopy_keeps
    | apply State.fragmentSent_keeps
    | apply State.correctCharge_keeps
    | apply State.endFull_keeps
    | apply Keeps.foldl
    | apply Keeps.foldl_snd
    | dsimp only
    | split
    | (refine Keeps.of_some (by assumption) ?_)
    | (refine Keeps.of_snd (by assumption) ?_)
    | (refine Keeps.of_snd_snd (by assumption) ?_)
    | (intro _ _ _; beta_reduce)
    | (fail_if_no_progress apply Keeps.other)
    | intro _

theorem State.putMPacket_keeps {r_ : State} (s : State) (ch : Nat) (smd : Nat) (h_ : Keeps r_ s) : Keeps r_ (State.putMPacket s ch smd) := by
  unfold State.putMPacket
  extract_lets +onlyGivenNames z_0
  try clear_value z_0
  repeat' with_reducible first
    | assumption
    | exact Keeps.refl _
    | apply State.chargeQuarter_keeps
    | apply Keeps.foldl
    | apply Keeps.foldl_snd
    | dsimp only
    | split
    | (refine Keeps.of_some (by assumption) ?_)
    | (refine Keeps.of_snd (by assumption) ?_)
    | (refine Keeps.of_snd_snd (by assumption) ?_)
    | (intro _ _ _; beta_reduce)
    | (fail_if_no_progress apply Keeps.other)
    | intro _

theorem State.sendMPacket_keeps {r_ : State} (s : State) (ch : Nat) (smd : Nat) (h_ : Keeps r_ s) : Keeps r_ (State.sendMPacket s ch smd) := by
  unfold State.sendMPacket
  repeat' with_reducible first
    | assumption
    | exact Keeps.refl _
    | apply State.putMPacket_keeps
    | apply Keeps.foldl
    | apply Keeps.foldl_snd
    | dsimp only
    | split
    | (refine Keeps.of_some (by assumption) ?_)
    | (refine Keeps.of_snd (by assumption) ?_)
    | (refine Keeps.of_snd_snd (by assumption) ?_)
    | (intro _ _ _; beta_reduce)
    | (fail_if_no_progress apply Keeps.other)
    | intro _

theorem State.mPackets_keeps {r_ : State} (s : State) (h_ : Keeps r_ s) : Keeps r_ (State.mPackets s) := by
  unfold State.mPackets
  repeat' with_reducible first
    | assumption
    | exact Keeps.refl _
    | apply State.putMPacket_keeps
    | apply Keeps.foldl
    | apply Keeps.foldl_snd
    | dsimp only
    | split
    | (refine Keeps.of_some (by assumption) ?_)
    | (refine Keeps.of_snd (by assumption) ?_)
    | (refine Keeps.of_snd_snd (by assumption) ?_)
    | (intro _ _ _; beta_reduce)
    | (fail_if_no_progress apply Keeps.other)
    | intro _

end Sys2Proof.Machine
end

