-- ==== Sys2Proof/Laws/KeepsPause.lean ====
section
/-! SUPPORT. What the operations of Pause.lean keep (Keeps.lean). -/
set_option linter.unusedTactic false
set_option linter.unreachableTactic false
namespace Sys2Proof.Machine

theorem State.setHold_keeps {r_ : State} (s : State) (ch : Nat) (hold : Nat) (n : Nat) (h_ : Keeps r_ s) : Keeps r_ (State.setHold s ch hold n) := by
  unfold State.setHold
  extract_lets +onlyGivenNames s1_0
  have h_s1_0 : Keeps r_ s1_0 := by
    unfold s1_0
    repeat' with_reducible first
      | assumption
      | exact Keeps.refl _
      | apply State.setReg_keeps
      | apply Keeps.foldl
      | apply Keeps.foldl_snd
      | dsimp only
      | split
      | (refine Keeps.of_some (by assumption) ?_)
      | (refine Keeps.of_snd (by assumption) ?_)
      | (refine Keeps.of_snd_snd (by assumption) ?_)
      | (intro _ _ _; beta_reduce)
      | (fail_if_no_progress apply Keeps.other)
      | intro _
  clear_value s1_0
  repeat' with_reducible first
    | assumption
    | exact Keeps.refl _
    | apply State.setReg_keeps
    | apply Keeps.foldl
    | apply Keeps.foldl_snd
    | dsimp only
    | split
    | (refine Keeps.of_some (by assumption) ?_)
    | (refine Keeps.of_snd (by assumption) ?_)
    | (refine Keeps.of_snd_snd (by assumption) ?_)
    | (intro _ _ _; beta_reduce)
    | (fail_if_no_progress apply Keeps.other)
    | intro _

theorem State.endHold_keeps {r_ : State} (s : State) (ch : Nat) (hold : Nat) (h_ : Keeps r_ s) : Keeps r_ (State.endHold s ch hold) := by
  unfold State.endHold
  repeat' with_reducible first
    | assumption
    | exact Keeps.refl _
    | apply State.resume_keeps
    | apply State.setHold_keeps
    | apply Keeps.foldl
    | apply Keeps.foldl_snd
    | dsimp only
    | split
    | (refine Keeps.of_some (by assumption) ?_)
    | (refine Keeps.of_snd (by assumption) ?_)
    | (refine Keeps.of_snd_snd (by assumption) ?_)
    | (intro _ _ _; beta_reduce)
    | (fail_if_no_progress apply Keeps.other)
    | intro _

theorem State.endHolds_keeps {r_ : State} (s : State) (ch : Nat) (h_ : Keeps r_ s) : Keeps r_ (State.endHolds s ch) := by
  unfold State.endHolds
  repeat' with_reducible first
    | assumption
    | exact Keeps.refl _
    | apply State.resume_keeps
    | apply Keeps.foldl
    | apply Keeps.foldl_snd
    | dsimp only
    | split
    | (refine Keeps.of_some (by assumption) ?_)
    | (refine Keeps.of_snd (by assumption) ?_)
    | (refine Keeps.of_snd_snd (by assumption) ?_)
    | (intro _ _ _; beta_reduce)
    | (fail_if_no_progress apply Keeps.other)
    | intro _

theorem State.obey_keeps {r_ : State} (s : State) (ch : Nat) (hold : Nat) (t : Nat) (h_ : Keeps r_ s) : Keeps r_ (State.obey s ch hold t) := by
  unfold State.obey
  repeat' with_reducible first
    | assumption
    | exact Keeps.refl _
    | apply State.bump_keeps
    | apply State.withdraw_keeps
    | apply State.setHold_keeps
    | apply State.endHold_keeps
    | apply Keeps.foldl
    | apply Keeps.foldl_snd
    | dsimp only
    | split
    | (refine Keeps.of_some (by assumption) ?_)
    | (refine Keeps.of_snd (by assumption) ?_)
    | (refine Keeps.of_snd_snd (by assumption) ?_)
    | (intro _ _ _; beta_reduce)
    | (fail_if_no_progress apply Keeps.other)
    | intro _

theorem State.pauseFrame_keeps {r_ : State} (s : State) (ch : Nat) (l : List Octet) (form : Nat) (act : State → State) (h_act : ∀ u_, Keeps r_ u_ → Keeps r_ (act u_)) (h_ : Keeps r_ s) : Keeps r_ (State.pauseFrame s ch l form act) := by
  unfold State.pauseFrame
  extract_lets +onlyGivenNames u_0
  try clear_value u_0
  repeat' with_reducible first
    | assumption
    | exact Keeps.refl _
    | apply h_act
    | apply State.bump_keeps
    | apply Keeps.foldl
    | apply Keeps.foldl_snd
    | dsimp only
    | split
    | (refine Keeps.of_some (by assumption) ?_)
    | (refine Keeps.of_snd (by assumption) ?_)
    | (refine Keeps.of_snd_snd (by assumption) ?_)
    | (intro _ _ _; beta_reduce)
    | (fail_if_no_progress apply Keeps.other)
    | intro _

theorem execPauseRx_keeps {r_ : State} (ch : Nat) (frame : List Octet) (s : State) (h_ : Keeps r_ s) : KeepsNext r_ (execPauseRx ch frame s) := by
  unfold execPauseRx
  repeat' with_reducible first
    | assumption
    | exact Keeps.refl _
    | apply KeepsNext.next
    | apply KeepsNext.refused
    | apply State.bump_keeps
    | apply State.obey_keeps
    | apply State.pauseFrame_keeps
    | apply Keeps.foldl
    | apply Keeps.foldl_snd
    | dsimp only
    | split
    | (refine Keeps.of_some (by assumption) ?_)
    | (refine Keeps.of_snd (by assumption) ?_)
    | (refine Keeps.of_snd_snd (by assumption) ?_)
    | (intro _ _ _; beta_reduce)
    | (fail_if_no_progress apply Keeps.other)
    | intro _

theorem State.obeyPfc_keeps {r_ : State} (s : State) (ch : Nat) (l : List Octet) (h_ : Keeps r_ s) : Keeps r_ (State.obeyPfc s ch l) := by
  unfold State.obeyPfc
  extract_lets +onlyGivenNames named_0 s1_1
  try clear_value named_0
  have h_s1_1 : Keeps r_ s1_1 := by
    unfold s1_1
    repeat' with_reducible first
      | assumption
      | exact Keeps.refl _
      | apply State.bump_keeps
      | apply State.obey_keeps
      | apply Keeps.foldl
      | apply Keeps.foldl_snd
      | dsimp only
      | split
      | (refine Keeps.of_some (by assumption) ?_)
      | (refine Keeps.of_snd (by assumption) ?_)
      | (refine Keeps.of_snd_snd (by assumption) ?_)
      | (intro _ _ _; beta_reduce)
      | (fail_if_no_progress apply Keeps.other)
      | intro _
  clear_value s1_1
  repeat' with_reducible first
    | assumption
    | exact Keeps.refl _
    | apply State.bump_keeps
    | apply State.obey_keeps
    | apply Keeps.foldl
    | apply Keeps.foldl_snd
    | dsimp only
    | split
    | (refine Keeps.of_some (by assumption) ?_)
    | (refine Keeps.of_snd (by assumption) ?_)
    | (refine Keeps.of_snd_snd (by assumption) ?_)
    | (intro _ _ _; beta_reduce)
    | (fail_if_no_progress apply Keeps.other)
    | intro _

theorem execPfcRx_keeps {r_ : State} (ch : Nat) (frame : List Octet) (s : State) (h_ : Keeps r_ s) : KeepsNext r_ (execPfcRx ch frame s) := by
  unfold execPfcRx
  repeat' with_reducible first
    | assumption
    | exact Keeps.refl _
    | apply KeepsNext.next
    | apply KeepsNext.refused
    | apply State.pauseFrame_keeps
    | apply State.obeyPfc_keeps
    | apply Keeps.foldl
    | apply Keeps.foldl_snd
    | dsimp only
    | split
    | (refine Keeps.of_some (by assumption) ?_)
    | (refine Keeps.of_snd (by assumption) ?_)
    | (refine Keeps.of_snd_snd (by assumption) ?_)
    | (intro _ _ _; beta_reduce)
    | (fail_if_no_progress apply Keeps.other)
    | intro _

theorem execMacControlOther_keeps {r_ : State} (ch : Nat) (_frame : List Octet) (s : State) (h_ : Keeps r_ s) : KeepsNext r_ (execMacControlOther ch _frame s) := by
  unfold execMacControlOther
  repeat' with_reducible first
    | assumption
    | exact Keeps.refl _
    | apply KeepsNext.next
    | apply KeepsNext.refused
    | apply State.bump_keeps
    | apply Keeps.foldl
    | apply Keeps.foldl_snd
    | dsimp only
    | split
    | (refine Keeps.of_some (by assumption) ?_)
    | (refine Keeps.of_snd (by assumption) ?_)
    | (refine Keeps.of_snd_snd (by assumption) ?_)
    | (intro _ _ _; beta_reduce)
    | (fail_if_no_progress apply Keeps.other)
    | intro _

theorem execPauseHoldEnd_keeps {r_ : State} (ch : Nat) (hold : Nat) (s : State) (h_ : Keeps r_ s) : KeepsNext r_ (execPauseHoldEnd ch hold s) := by
  unfold execPauseHoldEnd
  repeat' with_reducible first
    | assumption
    | exact Keeps.refl _
    | apply KeepsNext.next
    | apply KeepsNext.refused
    | apply State.endHold_keeps
    | apply Keeps.foldl
    | apply Keeps.foldl_snd
    | dsimp only
    | split
    | (refine Keeps.of_some (by assumption) ?_)
    | (refine Keeps.of_snd (by assumption) ?_)
    | (refine Keeps.of_snd_snd (by assumption) ?_)
    | (intro _ _ _; beta_reduce)
    | (fail_if_no_progress apply Keeps.other)
    | intro _

theorem State.wdBreak_keeps {r_ : State} (s : State) (ch : Nat) (h_ : Keeps r_ s) : Keeps r_ (State.wdBreak s ch) := by
  unfold State.wdBreak
  extract_lets +onlyGivenNames u_0 h_1 s1_2 s2_3
  try clear_value u_0
  try clear_value h_1
  have h_s1_2 : Keeps r_ s1_2 := by
    unfold s1_2
    repeat' with_reducible first
      | assumption
      | exact Keeps.refl _
      | apply State.wr_keeps
      | apply State.startTimer_keeps
      | apply State.bump_keeps
      | apply State.latch_keeps
      | apply State.raise_keeps
      | apply State.record_keeps
      | apply State.endHolds_keeps
      | apply Keeps.foldl
      | apply Keeps.foldl_snd
      | dsimp only
      | split
      | (refine Keeps.of_some (by assumption) ?_)
      | (refine Keeps.of_snd (by assumption) ?_)
      | (refine Keeps.of_snd_snd (by assumption) ?_)
      | (intro _ _ _; beta_reduce)
      | (fail_if_no_progress apply Keeps.other)
      | intro _
  clear_value s1_2
  have h_s2_3 : Keeps r_ s2_3 := by
    unfold s2_3
    repeat' with_reducible first
      | assumption
      | exact Keeps.refl _
      | apply State.wr_keeps
      | apply State.startTimer_keeps
      | apply State.bump_keeps
      | apply State.latch_keeps
      | apply State.raise_keeps
      | apply State.record_keeps
      | apply State.endHolds_keeps
      | apply Keeps.foldl
      | apply Keeps.foldl_snd
      | dsimp only
      | split
      | (refine Keeps.of_some (by assumption) ?_)
      | (refine Keeps.of_snd (by assumption) ?_)
      | (refine Keeps.of_snd_snd (by assumption) ?_)
      | (intro _ _ _; beta_reduce)
      | (fail_if_no_progress apply Keeps.other)
      | intro _
  clear_value s2_3
  repeat' with_reducible first
    | assumption
    | exact Keeps.refl _
    | apply State.wr_keeps
    | apply State.startTimer_keeps
    | apply State.bump_keeps
    | apply State.latch_keeps
    | apply State.raise_keeps
    | apply State.record_keeps
    | apply State.endHolds_keeps
    | apply Keeps.foldl
    | apply Keeps.foldl_snd
    | dsimp only
    | split
    | (refine Keeps.of_some (by assumption) ?_)
    | (refine Keeps.of_snd (by assumption) ?_)
    | (refine Keeps.of_snd_snd (by assumption) ?_)
    | (intro _ _ _; beta_reduce)
    | (fail_if_no_progress apply Keeps.other)
    | intro _

theorem execPauseWdBreak_keeps {r_ : State} (ch : Nat) (s : State) (h_ : Keeps r_ s) : KeepsNext r_ (execPauseWdBreak ch s) := by
  unfold execPauseWdBreak
  repeat' with_reducible first
    | assumption
    | exact Keeps.refl _
    | apply KeepsNext.next
    | apply KeepsNext.refused
    | apply State.wdBreak_keeps
    | apply Keeps.foldl
    | apply Keeps.foldl_snd
    | dsimp only
    | split
    | (refine Keeps.of_some (by assumption) ?_)
    | (refine Keeps.of_snd (by assumption) ?_)
    | (refine Keeps.of_snd_snd (by assumption) ?_)
    | (intro _ _ _; beta_reduce)
    | (fail_if_no_progress apply Keeps.other)
    | intro _

theorem State.holdoffOver_keeps {r_ : State} (s : State) (ch : Nat) (h_ : Keeps r_ s) : Keeps r_ (State.holdoffOver s ch) := by
  unfold State.holdoffOver
  repeat' with_reducible first
    | assumption
    | exact Keeps.refl _
    | apply State.wr_keeps
    | apply State.stopTimer_keeps
    | apply Keeps.foldl
    | apply Keeps.foldl_snd
    | dsimp only
    | split
    | (refine Keeps.of_some (by assumption) ?_)
    | (refine Keeps.of_snd (by assumption) ?_)
    | (refine Keeps.of_snd_snd (by assumption) ?_)
    | (intro _ _ _; beta_reduce)
    | (fail_if_no_progress apply Keeps.other)
    | intro _

theorem execHoldoffEnd_keeps {r_ : State} (ch : Nat) (s : State) (h_ : Keeps r_ s) : KeepsNext r_ (execHoldoffEnd ch s) := by
  unfold execHoldoffEnd
  repeat' with_reducible first
    | assumption
    | exact Keeps.refl _
    | apply KeepsNext.next
    | apply KeepsNext.refused
    | apply State.wake_keeps
    | apply State.holdoffOver_keeps
    | apply Keeps.foldl
    | apply Keeps.foldl_snd
    | dsimp only
    | split
    | (refine Keeps.of_some (by assumption) ?_)
    | (refine Keeps.of_snd (by assumption) ?_)
    | (refine Keeps.of_snd_snd (by assumption) ?_)
    | (intro _ _ _; beta_reduce)
    | (fail_if_no_progress apply Keeps.other)
    | intro _

theorem State.refresh_keeps {r_ : State} (s : State) (ch : Nat) (k : Nat) (h_ : Keeps r_ s) : Keeps r_ (State.refresh s ch k) := by
  unfold State.refresh
  extract_lets +onlyGivenNames s1_0
  have h_s1_0 : Keeps r_ s1_0 := by
    unfold s1_0
    repeat' with_reducible first
      | assumption
      | exact Keeps.refl _
      | apply State.setReg_keeps
      | apply State.stopTimer_keeps
      | apply State.armRefresh_keeps
      | apply State.queuePause_keeps
      | apply Keeps.foldl
      | apply Keeps.foldl_snd
      | dsimp only
      | split
      | (refine Keeps.of_some (by assumption) ?_)
      | (refine Keeps.of_snd (by assumption) ?_)
      | (refine Keeps.of_snd_snd (by assumption) ?_)
      | (intro _ _ _; beta_reduce)
      | (fail_if_no_progress apply Keeps.other)
      | intro _
  clear_value s1_0
  repeat' with_reducible first
    | assumption
    | exact Keeps.refl _
    | apply State.setReg_keeps
    | apply State.stopTimer_keeps
    | apply State.armRefresh_keeps
    | apply State.queuePause_keeps
    | apply Keeps.foldl
    | apply Keeps.foldl_snd
    | dsimp only
    | split
    | (refine Keeps.of_some (by assumption) ?_)
    | (refine Keeps.of_snd (by assumption) ?_)
    | (refine Keeps.of_snd_snd (by assumption) ?_)
    | (intro _ _ _; beta_reduce)
    | (fail_if_no_progress apply Keeps.other)
    | intro _

theorem execPauseRefreshExpire_keeps {r_ : State} (ch : Nat) (acct : Nat) (s : State) (h_ : Keeps r_ s) : KeepsNext r_ (execPauseRefreshExpire ch acct s) := by
  unfold execPauseRefreshExpire
  repeat' with_reducible first
    | assumption
    | exact Keeps.refl _
    | apply KeepsNext.next
    | apply KeepsNext.refused
    | apply State.wake_keeps
    | apply State.refresh_keeps
    | apply Keeps.foldl
    | apply Keeps.foldl_snd
    | dsimp only
    | split
    | (refine Keeps.of_some (by assumption) ?_)
    | (refine Keeps.of_snd (by assumption) ?_)
    | (refine Keeps.of_snd_snd (by assumption) ?_)
    | (intro _ _ _; beta_reduce)
    | (fail_if_no_progress apply Keeps.other)
    | intro _

theorem State.activeOver_keeps {r_ : State} (s : State) (ch : Nat) (k : Nat) (h_ : Keeps r_ s) : Keeps r_ (State.activeOver s ch k) := by
  unfold State.activeOver
  repeat' with_reducible first
    | assumption
    | exact Keeps.refl _
    | apply State.wr_keeps
    | apply State.stopTimer_keeps
    | apply Keeps.foldl
    | apply Keeps.foldl_snd
    | dsimp only
    | split
    | (refine Keeps.of_some (by assumption) ?_)
    | (refine Keeps.of_snd (by assumption) ?_)
    | (refine Keeps.of_snd_snd (by assumption) ?_)
    | (intro _ _ _; beta_reduce)
    | (fail_if_no_progress apply Keeps.other)
    | intro _

theorem execPauseActiveExpire_keeps {r_ : State} (ch : Nat) (acct : Nat) (s : State) (h_ : Keeps r_ s) : KeepsNext r_ (execPauseActiveExpire ch acct s) := by
  unfold execPauseActiveExpire
  repeat' with_reducible first
    | assumption
    | exact Keeps.refl _
    | apply KeepsNext.next
    | apply KeepsNext.refused
    | apply State.wake_keeps
    | apply State.activeOver_keeps
    | apply Keeps.foldl
    | apply Keeps.foldl_snd
    | dsimp only
    | split
    | (refine Keeps.of_some (by assumption) ?_)
    | (refine Keeps.of_snd (by assumption) ?_)
    | (refine Keeps.of_snd_snd (by assumption) ?_)
    | (intro _ _ _; beta_reduce)
    | (fail_if_no_progress apply Keeps.other)
    | intro _

theorem State.messageSent_keeps {r_ : State} (s : State) (ch : Nat) (m : Nat × Nat) (h_ : Keeps r_ s) : Keeps r_ (State.messageSent s ch m) := by
  unfold State.messageSent
  extract_lets +onlyGivenNames u_0 s1_1
  try clear_value u_0
  have h_s1_1 : Keeps r_ s1_1 := by
    unfold s1_1
    repeat' with_reducible first
      | assumption
      | exact Keeps.refl _
      | apply State.wr_keeps
      | apply State.setReg_keeps
      | apply State.startTimer_keeps
      | apply State.bump_keeps
      | apply State.activeOver_keeps
      | apply Keeps.foldl
      | apply Keeps.foldl_snd
      | dsimp only
      | split
      | (refine Keeps.of_some (by assumption) ?_)
      | (refine Keeps.of_snd (by assumption) ?_)
      | (refine Keeps.of_snd_snd (by assumption) ?_)
      | (intro _ _ _; beta_reduce)
      | (fail_if_no_progress apply Keeps.other)
      | intro _
  clear_value s1_1
  repeat' with_reducible first
    | assumption
    | exact Keeps.refl _
    | apply State.wr_keeps
    | apply State.setReg_keeps
    | apply State.startTimer_keeps
    | apply State.bump_keeps
    | apply State.activeOver_keeps
    | apply Keeps.foldl
    | apply Keeps.foldl_snd
    | dsimp only
    | split
    | (refine Keeps.of_some (by assumption) ?_)
    | (refine Keeps.of_snd (by assumption) ?_)
    | (refine Keeps.of_snd_snd (by assumption) ?_)
    | (intro _ _ _; beta_reduce)
    | (fail_if_no_progress apply Keeps.other)
    | intro _

theorem State.sendGenerated_keeps {r_ : State} (s : State) (ch : Nat) (header : List Octet) (l : List Octet) (ty : Nat) (h_ : Keeps r_ s) : Keeps r_ (State.sendGenerated s ch header l ty) := by
  unfold State.sendGenerated
  extract_lets +onlyGivenNames wire_0 s1_1
  try clear_value wire_0
  have h_s1_1 : Keeps r_ s1_1 := by
    unfold s1_1
    repeat' with_reducible first
      | assumption
      | exact Keeps.refl _
      | apply State.stat_keeps
      | apply State.statFrame_keeps
      | apply State.lit_keeps
      | apply State.beginQuarter_keeps
      | apply Keeps.foldl
      | apply Keeps.foldl_snd
      | dsimp only
      | split
      | (refine Keeps.of_some (by assumption) ?_)
      | (refine Keeps.of_snd (by assumption) ?_)
      | (refine Keeps.of_snd_snd (by assumption) ?_)
      | (intro _ _ _; beta_reduce)
      | (fail_if_no_progress apply Keeps.other)
      | intro _
  clear_value s1_1
  repeat' with_reducible first
    | assumption
    | exact Keeps.refl _
    | apply State.stat_keeps
    | apply State.statFrame_keeps
    | apply State.lit_keeps
    | apply State.beginQuarter_keeps
    | apply Keeps.foldl
    | apply Keeps.foldl_snd
    | dsimp only
    | split
    | (refine Keeps.of_some (by assumption) ?_)
    | (refine Keeps.of_snd (by assumption) ?_)
    | (refine Keeps.of_snd_snd (by assumption) ?_)
    | (intro _ _ _; beta_reduce)
    | (fail_if_no_progress apply Keeps.other)
    | intro _

theorem State.clearFor_keeps {r_ : State} (s : State) (ch : Nat) (h_ : Keeps r_ s) : KeepsSome r_ (State.clearFor s ch) := by
  intro t e
  unfold State.clearFor at e
  dsimp only at e
  generalize (if s.fabricRole ch = true then 2 else 1) = level at e
  split at e
  · cases e
  · split at e
    · cases e
      exact State.cutFor_keeps _ _ _ h_
    · cases e

theorem State.genDone_keeps {r_ : State} (s : State) (g : GenFrame) (h_ : Keeps r_ s) : Keeps r_ (State.genDone s g) := by
  unfold State.genDone
  repeat' with_reducible first
    | assumption
    | exact Keeps.refl _
    | apply Keeps.foldl
    | apply Keeps.foldl_snd
    | dsimp only
    | split
    | (refine Keeps.of_some (by assumption) ?_)
    | (refine Keeps.of_snd (by assumption) ?_)
    | (refine Keeps.of_snd_snd (by assumption) ?_)
    | (intro _ _ _; beta_reduce)
    | (fail_if_no_progress apply Keeps.other)
    | intro _

theorem State.startPause_keeps {r_ : State} (s : State) (ch : Nat) (h_ : Keeps r_ s) : Keeps r_ (State.startPause s ch) := by
  unfold State.startPause
  repeat' with_reducible first
    | assumption
    | exact Keeps.refl _
    | apply State.setReg_keeps
    | apply State.resume_keeps
    | apply State.messageSent_keeps
    | apply State.sendGenerated_keeps
    | apply State.clearFor_keeps
    | apply State.genDone_keeps
    | apply Keeps.foldl
    | apply Keeps.foldl_snd
    | dsimp only
    | split
    | (refine Keeps.of_some (by assumption) ?_)
    | (refine Keeps.of_snd (by assumption) ?_)
    | (refine Keeps.of_snd_snd (by assumption) ?_)
    | (intro _ _ _; beta_reduce)
    | (fail_if_no_progress apply Keeps.other)
    | intro _

theorem execPauseGenStart_keeps {r_ : State} (ch : Nat) (s : State) (h_ : Keeps r_ s) : KeepsNext r_ (execPauseGenStart ch s) := by
  unfold execPauseGenStart
  repeat' with_reducible first
    | assumption
    | exact Keeps.refl _
    | apply KeepsNext.next
    | apply KeepsNext.refused
    | apply State.startPause_keeps
    | apply Keeps.foldl
    | apply Keeps.foldl_snd
    | dsimp only
    | split
    | (refine Keeps.of_some (by assumption) ?_)
    | (refine Keeps.of_snd (by assumption) ?_)
    | (refine Keeps.of_snd_snd (by assumption) ?_)
    | (intro _ _ _; beta_reduce)
    | (fail_if_no_progress apply Keeps.other)
    | intro _

theorem State.pauseDown_keeps {r_ : State} (s : State) (ch : Nat) (h_ : Keeps r_ s) : Keeps r_ (State.pauseDown s ch) := by
  unfold State.pauseDown
  extract_lets +onlyGivenNames s1_0
  have h_s1_0 : Keeps r_ s1_0 := by
    unfold s1_0
    repeat' with_reducible first
      | assumption
      | exact Keeps.refl _
      | apply State.stopTimer_keeps
      | apply State.endHolds_keeps
      | apply State.refresh_keeps
      | apply Keeps.foldl
      | apply Keeps.foldl_snd
      | dsimp only
      | split
      | (refine Keeps.of_some (by assumption) ?_)
      | (refine Keeps.of_snd (by assumption) ?_)
      | (refine Keeps.of_snd_snd (by assumption) ?_)
      | (intro _ _ _; beta_reduce)
      | (fail_if_no_progress apply Keeps.other)
      | intro _
  clear_value s1_0
  repeat' with_reducible first
    | assumption
    | exact Keeps.refl _
    | apply State.stopTimer_keeps
    | apply State.endHolds_keeps
    | apply State.refresh_keeps
    | apply Keeps.foldl
    | apply Keeps.foldl_snd
    | dsimp only
    | split
    | (refine Keeps.of_some (by assumption) ?_)
    | (refine Keeps.of_snd (by assumption) ?_)
    | (refine Keeps.of_snd_snd (by assumption) ?_)
    | (intro _ _ _; beta_reduce)
    | (fail_if_no_progress apply Keeps.other)
    | intro _

theorem State.pauseUp_keeps {r_ : State} (s : State) (ch : Nat) (h_ : Keeps r_ s) : Keeps r_ (State.pauseUp s ch) := by
  unfold State.pauseUp
  repeat' with_reducible first
    | assumption
    | exact Keeps.refl _
    | apply State.setReg_keeps
    | apply State.armRefresh_keeps
    | apply State.queuePause_keeps
    | apply Keeps.foldl
    | apply Keeps.foldl_snd
    | dsimp only
    | split
    | (refine Keeps.of_some (by assumption) ?_)
    | (refine Keeps.of_snd (by assumption) ?_)
    | (refine Keeps.of_snd_snd (by assumption) ?_)
    | (intro _ _ _; beta_reduce)
    | (fail_if_no_progress apply Keeps.other)
    | intro _

theorem State.pauseModeChange_keeps {r_ : State} (s : State) (ch : Nat) (old : Nat) (h_ : Keeps r_ s) : Keeps r_ (State.pauseModeChange s ch old) := by
  unfold State.pauseModeChange
  extract_lets +onlyGivenNames u_0 act_1 s1_2 s2_3
  try clear_value u_0
  try clear_value act_1
  have h_s1_2 : Keeps r_ s1_2 := by
    unfold s1_2
    repeat' with_reducible first
      | assumption
      | exact Keeps.refl _
      | apply State.wr_keeps
      | apply State.setReg_keeps
      | apply State.stopTimer_keeps
      | apply State.checkXoff_keeps
      | apply State.refresh_keeps
      | apply Keeps.foldl
      | apply Keeps.foldl_snd
      | dsimp only
      | split
      | (refine Keeps.of_some (by assumption) ?_)
      | (refine Keeps.of_snd (by assumption) ?_)
      | (refine Keeps.of_snd_snd (by assumption) ?_)
      | (intro _ _ _; beta_reduce)
      | (fail_if_no_progress apply Keeps.other)
      | intro _
  clear_value s1_2
  have h_s2_3 : Keeps r_ s2_3 := by
    unfold s2_3
    repeat' with_reducible first
      | assumption
      | exact Keeps.refl _
      | apply State.wr_keeps
      | apply State.setReg_keeps
      | apply State.stopTimer_keeps
      | apply State.checkXoff_keeps
      | apply State.refresh_keeps
      | apply Keeps.foldl
      | apply Keeps.foldl_snd
      | dsimp only
      | split
      | (refine Keeps.of_some (by assumption) ?_)
      | (refine Keeps.of_snd (by assumption) ?_)
      | (refine Keeps.of_snd_snd (by assumption) ?_)
      | (intro _ _ _; beta_reduce)
      | (fail_if_no_progress apply Keeps.other)
      | intro _
  clear_value s2_3
  repeat' with_reducible first
    | assumption
    | exact Keeps.refl _
    | apply State.wr_keeps
    | apply State.setReg_keeps
    | apply State.stopTimer_keeps
    | apply State.checkXoff_keeps
    | apply State.refresh_keeps
    | apply Keeps.foldl
    | apply Keeps.foldl_snd
    | dsimp only
    | split
    | (refine Keeps.of_some (by assumption) ?_)
    | (refine Keeps.of_snd (by assumption) ?_)
    | (refine Keeps.of_snd_snd (by assumption) ?_)
    | (intro _ _ _; beta_reduce)
    | (fail_if_no_progress apply Keeps.other)
    | intro _

theorem State.marksChange_keeps {r_ : State} (s : State) (ch : Nat) (h_ : Keeps r_ s) : Keeps r_ (State.marksChange s ch) := by
  unfold State.marksChange
  repeat' with_reducible first
    | assumption
    | exact Keeps.refl _
    | apply State.wr_keeps
    | apply State.setReg_keeps
    | apply State.stopTimer_keeps
    | apply State.queuePause_keeps
    | apply State.checkXoff_keeps
    | apply State.refresh_keeps
    | apply Keeps.foldl
    | apply Keeps.foldl_snd
    | dsimp only
    | split
    | (refine Keeps.of_some (by assumption) ?_)
    | (refine Keeps.of_snd (by assumption) ?_)
    | (refine Keeps.of_snd_snd (by assumption) ?_)
    | (intro _ _ _; beta_reduce)
    | (fail_if_no_progress apply Keeps.other)
    | intro _

end Sys2Proof.Machine
end

