-- ==== Sys2Proof/Laws/KeepsHostRx.lean ====
section
/-! SUPPORT. What the operations of HostRx.lean keep (Keeps.lean). -/
set_option linter.unusedTactic false
set_option linter.unreachableTactic false
namespace Sys2Proof.Machine

theorem State.hostWrites_keeps {r_ : State} (s : State) (f : Frame) (c : Copy) (b : BqBuffer) (h_ : Keeps r_ s) : Keeps r_ (State.hostWrites s f c b) := by
  unfold State.hostWrites
  extract_lets +onlyGivenNames l_0 s1_1
  try clear_value l_0
  have h_s1_1 : Keeps r_ s1_1 := by
    unfold s1_1
    repeat' with_reducible first
      | assumption
      | exact Keeps.refl _
      | apply State.mpIssue_keeps
      | apply State.setCopy_keeps
      | apply Keeps.foldl
      | apply Keeps.foldl_snd
      | dsimp only
      | split
      | (refine Keeps.of_some (by assumption) ?_)
      | (refine Keeps.of_snd (by assumption) ?_)
      | (refine Keeps.of_snd_snd (by assumption) ?_)
      | (intro _ _ _; beta_reduce)
      | (fail_if_no_progress apply Keeps.other)
      | intro _
  clear_value s1_1
  repeat' with_reducible first
    | assumption
    | exact Keeps.refl _
    | apply State.mpIssue_keeps
    | apply State.setCopy_keeps
    | apply Keeps.foldl
    | apply Keeps.foldl_snd
    | dsimp only
    | split
    | (refine Keeps.of_some (by assumption) ?_)
    | (refine Keeps.of_snd (by assumption) ?_)
    | (refine Keeps.of_snd_snd (by assumption) ?_)
    | (intro _ _ _; beta_reduce)
    | (fail_if_no_progress apply Keeps.other)
    | intro _

theorem State.takeBuffer_keeps {r_ : State} (s : State) (c : Copy) (b : BqBuffer) (h_ : Keeps r_ s) : Keeps r_ (State.takeBuffer s c b).2 := by
  unfold State.takeBuffer
  extract_lets +onlyGivenNames d_0
  try clear_value d_0
  repeat' with_reducible first
    | assumption
    | exact Keeps.refl _
    | apply State.reserve_keeps
    | apply State.setCopy_keeps
    | apply Keeps.foldl
    | apply Keeps.foldl_snd
    | dsimp only
    | split
    | (refine Keeps.of_some (by assumption) ?_)
    | (refine Keeps.of_snd (by assumption) ?_)
    | (refine Keeps.of_snd_snd (by assumption) ?_)
    | (intro _ _ _; beta_reduce)
    | (fail_if_no_progress apply Keeps.other)
    | intro _

theorem State.rxFinish_keeps {r_ : State} (s : State) (c : Copy) (h_ : Keeps r_ s) : Keeps r_ (State.rxFinish s c) := by
  unfold State.rxFinish
  repeat' with_reducible first
    | assumption
    | exact Keeps.refl _
    | apply State.cqReady_keeps
    | apply State.settle_keeps
    | apply State.dropCopy_keeps
    | apply Keeps.foldl
    | apply Keeps.foldl_snd
    | dsimp only
    | split
    | (refine Keeps.of_some (by assumption) ?_)
    | (refine Keeps.of_snd (by assumption) ?_)
    | (refine Keeps.of_snd_snd (by assumption) ?_)
    | (intro _ _ _; beta_reduce)
    | (fail_if_no_progress apply Keeps.other)
    | intro _

theorem State.bufferSmall_keeps {r_ : State} (s : State) (c : Copy) (b : BqBuffer) (h_ : Keeps r_ s) : Keeps r_ (State.bufferSmall s c b) := by
  unfold State.bufferSmall
  repeat' with_reducible first
    | assumption
    | exact Keeps.refl _
    | apply State.settle_keeps
    | apply State.dropCopy_keeps
    | apply State.keepBuffer_keeps
    | apply State.owe_keeps
    | apply Keeps.foldl
    | apply Keeps.foldl_snd
    | dsimp only
    | split
    | (refine Keeps.of_some (by assumption) ?_)
    | (refine Keeps.of_snd (by assumption) ?_)
    | (refine Keeps.of_snd_snd (by assumption) ?_)
    | (intro _ _ _; beta_reduce)
    | (fail_if_no_progress apply Keeps.other)
    | intro _

theorem State.earlyWrites_keeps {r_ : State} (s : State) (id : Nat) (h_ : Keeps r_ s) : Keeps r_ (State.earlyWrites s id) := by
  unfold State.earlyWrites
  repeat' with_reducible first
    | assumption
    | exact Keeps.refl _
    | apply State.hostWrites_keeps
    | apply State.bufferSmall_keeps
    | apply Keeps.foldl
    | apply Keeps.foldl_snd
    | dsimp only
    | split
    | (refine Keeps.of_some (by assumption) ?_)
    | (refine Keeps.of_snd (by assumption) ?_)
    | (refine Keeps.of_snd_snd (by assumption) ?_)
    | (intro _ _ _; beta_reduce)
    | (fail_if_no_progress apply Keeps.other)
    | intro _

theorem State.earlyWrite_keeps {r_ : State} (s : State) (c : Copy) (bq : Nat) (h_ : Keeps r_ s) : Keeps r_ (State.earlyWrite s c bq) := by
  unfold State.earlyWrite
  extract_lets +onlyGivenNames inFlight_0 alone_1 uncommitted_2
  try clear_value inFlight_0
  try clear_value alone_1
  try clear_value uncommitted_2
  repeat' with_reducible first
    | assumption
    | exact Keeps.refl _
    | apply State.takeBuffer_keeps
    | apply State.earlyWrites_keeps
    | apply Keeps.foldl
    | apply Keeps.foldl_snd
    | dsimp only
    | split
    | (refine Keeps.of_some (by assumption) ?_)
    | (refine Keeps.of_snd (by assumption) ?_)
    | (refine Keeps.of_snd_snd (by assumption) ?_)
    | (intro _ _ _; beta_reduce)
    | (fail_if_no_progress apply Keeps.other)
    | intro _

end Sys2Proof.Machine
end

