-- ==== Sys2Proof/Laws/KeepsRings.lean ====
section
/-! SUPPORT. What the operations of Rings.lean keep (Keeps.lean). -/
set_option linter.unusedTactic false
set_option linter.unreachableTactic false
namespace Sys2Proof.Machine

theorem State.addAhead_keeps {r_ : State} (s : State) (a : AheadEntry) (h_ : Keeps r_ s) : Keeps r_ (State.addAhead s a) := by
  unfold State.addAhead
  repeat' with_reducible first
    | assumption
    | exact Keeps.refl _
    | apply Keeps.foldl
    | apply Keeps.foldl_snd
    | dsimp only
    | split
    | (refine Keeps.of_some (by assumption) ?_)
    | (refine Keeps.of_snd (by assumption) ?_)
    | (refine Keeps.of_snd_snd (by assumption) ?_)
    | (intro _ _ _; beta_reduce)
    | (fail_if_no_progress apply Keeps.other)
    | intro _

theorem State.discardAhead_keeps {r_ : State} (s : State) (p : Nat → Bool) (h_ : Keeps r_ s) : Keeps r_ (State.discardAhead s p) := by
  unfold State.discardAhead
  extract_lets +onlyGivenNames gone_0
  try clear_value gone_0
  repeat' with_reducible first
    | assumption
    | exact Keeps.refl _
    | apply State.wr_keeps
    | apply State.bump_keeps
    | apply State.dropOps_keeps
    | apply Keeps.foldl
    | apply Keeps.foldl_snd
    | dsimp only
    | split
    | (refine Keeps.of_some (by assumption) ?_)
    | (refine Keeps.of_snd (by assumption) ?_)
    | (refine Keeps.of_snd_snd (by assumption) ?_)
    | (intro _ _ _; beta_reduce)
    | (fail_if_no_progress apply Keeps.other)
    | intro _

theorem State.passEntry_keeps {r_ : State} (s : State) (u : Nat) (h_ : Keeps r_ s) : Keeps r_ (State.passEntry s u) := by
  unfold State.passEntry
  repeat' with_reducible first
    | assumption
    | exact Keeps.refl _
    | apply State.wr_keeps
    | apply Keeps.foldl
    | apply Keeps.foldl_snd
    | dsimp only
    | split
    | (refine Keeps.of_some (by assumption) ?_)
    | (refine Keeps.of_snd (by assumption) ?_)
    | (refine Keeps.of_snd_snd (by assumption) ?_)
    | (intro _ _ _; beta_reduce)
    | (fail_if_no_progress apply Keeps.other)
    | intro _

theorem State.discardBq_keeps {r_ : State} (s : State) (ring : Nat) (h_ : Keeps r_ s) : Keeps r_ (State.discardBq s ring) := by
  unfold State.discardBq
  extract_lets +onlyGivenNames s1_0
  have h_s1_0 : Keeps r_ s1_0 := by
    unfold s1_0
    repeat' with_reducible first
      | assumption
      | exact Keeps.refl _
      | apply State.wr_keeps
      | apply State.dropOps_keeps
      | apply Keeps.foldl
      | apply Keeps.foldl_snd
      | dsimp only
      | split
      | (refine Keeps.of_some (by assumption) ?_)
      | (refine Keeps.of_snd (by assumption) ?_)
      | (refine Keeps.of_snd_snd (by assumption) ?_)
      | (intro _ _ _; beta_reduce)
      | (fail_if_no_progress apply Keeps.other)
      | intro _
  clear_value s1_0
  repeat' with_reducible first
    | assumption
    | exact Keeps.refl _
    | apply State.wr_keeps
    | apply State.dropOps_keeps
    | apply Keeps.foldl
    | apply Keeps.foldl_snd
    | dsimp only
    | split
    | (refine Keeps.of_some (by assumption) ?_)
    | (refine Keeps.of_snd (by assumption) ?_)
    | (refine Keeps.of_snd_snd (by assumption) ?_)
    | (intro _ _ _; beta_reduce)
    | (fail_if_no_progress apply Keeps.other)
    | intro _

theorem State.producerFault_keeps {r_ : State} (s : State) (kind : RingKind) (ring : Nat) (pos : Nat) (counter : Nat) (h_ : Keeps r_ s) : Keeps r_ (State.producerFault s kind ring pos counter) := by
  unfold State.producerFault
  extract_lets +onlyGivenNames u_0 s1_1 s2_2
  try clear_value u_0
  have h_s1_1 : Keeps r_ s1_1 := by
    unfold s1_1
    repeat' with_reducible first
      | assumption
      | exact Keeps.refl _
      | apply State.bump_keeps
      | apply State.dropOps_keeps
      | apply State.ringFault_keeps
      | apply State.discardAhead_keeps
      | apply State.discardBq_keeps
      | apply Keeps.foldl
      | apply Keeps.foldl_snd
      | dsimp only
      | split
      | (refine Keeps.of_some (by assumption) ?_)
      | (refine Keeps.of_snd (by assumption) ?_)
      | (refine Keeps.of_snd_snd (by assumption) ?_)
      | (intro _ _ _; beta_reduce)
      | (fail_if_no_progress apply Keeps.other)
      | intro _
  clear_value s1_1
  have h_s2_2 : Keeps r_ s2_2 := by
    unfold s2_2
    repeat' with_reducible first
      | assumption
      | exact Keeps.refl _
      | apply State.bump_keeps
      | apply State.dropOps_keeps
      | apply State.ringFault_keeps
      | apply State.discardAhead_keeps
      | apply State.discardBq_keeps
      | apply Keeps.foldl
      | apply Keeps.foldl_snd
      | dsimp only
      | split
      | (refine Keeps.of_some (by assumption) ?_)
      | (refine Keeps.of_snd (by assumption) ?_)
      | (refine Keeps.of_snd_snd (by assumption) ?_)
      | (intro _ _ _; beta_reduce)
      | (fail_if_no_progress apply Keeps.other)
      | intro _
  clear_value s2_2
  repeat' with_reducible first
    | assumption
    | exact Keeps.refl _
    | apply State.bump_keeps
    | apply State.dropOps_keeps
    | apply State.ringFault_keeps
    | apply State.discardAhead_keeps
    | apply State.discardBq_keeps
    | apply Keeps.foldl
    | apply Keeps.foldl_snd
    | dsimp only
    | split
    | (refine Keeps.of_some (by assumption) ?_)
    | (refine Keeps.of_snd (by assumption) ?_)
    | (refine Keeps.of_snd_snd (by assumption) ?_)
    | (intro _ _ _; beta_reduce)
    | (fail_if_no_progress apply Keeps.other)
    | intro _

theorem State.txErrors_keeps {r_ : State} (n : Nat) (s : State) (q : Nat) (h_ : Keeps r_ s) : Keeps r_ (State.txErrors n s q) := by
  induction n generalizing s with
  | zero => exact h_
  | succ n_ ih =>
    unfold State.txErrors
    repeat' with_reducible first
      | assumption
      | exact Keeps.refl _
      | apply ih
      | apply State.errComplete_keeps
      | apply State.passEntry_keeps
      | apply State.producerFault_keeps
      | apply Keeps.foldl
      | apply Keeps.foldl_snd
      | dsimp only
      | split
      | (refine Keeps.of_some (by assumption) ?_)
      | (refine Keeps.of_snd (by assumption) ?_)
      | (refine Keeps.of_snd_snd (by assumption) ?_)
      | (intro _ _ _; beta_reduce)
      | (fail_if_no_progress apply Keeps.other)
      | intro _

theorem State.rxErrors_keeps {r_ : State} (n : Nat) (s : State) (q : Nat) (h_ : Keeps r_ s) : Keeps r_ (State.rxErrors n s q) := by
  induction n generalizing s with
  | zero => exact h_
  | succ n_ ih =>
    unfold State.rxErrors
    repeat' with_reducible first
      | assumption
      | exact Keeps.refl _
      | apply ih
      | apply State.reserve_keeps
      | apply State.cqReady_keeps
      | apply Keeps.foldl
      | apply Keeps.foldl_snd
      | dsimp only
      | split
      | (refine Keeps.of_some (by assumption) ?_)
      | (refine Keeps.of_snd (by assumption) ?_)
      | (refine Keeps.of_snd_snd (by assumption) ?_)
      | (intro _ _ _; beta_reduce)
      | (fail_if_no_progress apply Keeps.other)
      | intro _

theorem State.issuePayload_keeps {r_ : State} (s : State) (a : AheadEntry) (h_ : Keeps r_ s) : Keeps r_ (State.issuePayload s a) := by
  unfold State.issuePayload
  extract_lets +onlyGivenNames addr_0 s1_1
  try clear_value addr_0
  have h_s1_1 : Keeps r_ s1_1 := by
    unfold s1_1
    repeat' with_reducible first
      | assumption
      | exact Keeps.refl _
      | apply State.mpIssue_keeps
      | apply Keeps.foldl
      | apply Keeps.foldl_snd
      | dsimp only
      | split
      | (refine Keeps.of_some (by assumption) ?_)
      | (refine Keeps.of_snd (by assumption) ?_)
      | (refine Keeps.of_snd_snd (by assumption) ?_)
      | (intro _ _ _; beta_reduce)
      | (fail_if_no_progress apply Keeps.other)
      | intro _
  clear_value s1_1
  repeat' with_reducible first
    | assumption
    | exact Keeps.refl _
    | apply State.mpIssue_keeps
    | apply Keeps.foldl
    | apply Keeps.foldl_snd
    | dsimp only
    | split
    | (refine Keeps.of_some (by assumption) ?_)
    | (refine Keeps.of_snd (by assumption) ?_)
    | (refine Keeps.of_snd_snd (by assumption) ?_)
    | (intro _ _ _; beta_reduce)
    | (fail_if_no_progress apply Keeps.other)
    | intro _

theorem State.pumpPayload_keeps {r_ : State} (s : State) (h_ : Keeps r_ s) : Keeps r_ (State.pumpPayload s) := by
  unfold State.pumpPayload
  repeat' with_reducible first
    | assumption
    | exact Keeps.refl _
    | apply State.issuePayload_keeps
    | apply Keeps.foldl
    | apply Keeps.foldl_snd
    | dsimp only
    | split
    | (refine Keeps.of_some (by assumption) ?_)
    | (refine Keeps.of_snd (by assumption) ?_)
    | (refine Keeps.of_snd_snd (by assumption) ?_)
    | (intro _ _ _; beta_reduce)
    | (fail_if_no_progress apply Keeps.other)
    | intro _

theorem State.fetchTq_keeps {r_ : State} (n : Nat) (s : State) (q : Nat) (h_ : Keeps r_ s) : Keeps r_ (State.fetchTq n s q) := by
  induction n generalizing s with
  | zero => exact h_
  | succ n_ ih =>
    unfold State.fetchTq
    repeat' with_reducible first
      | assumption
      | exact Keeps.refl _
      | apply ih
      | apply State.wr_keeps
      | apply State.setReg_keeps
      | apply State.mpIssue_keeps
      | apply Keeps.foldl
      | apply Keeps.foldl_snd
      | dsimp only
      | split
      | (refine Keeps.of_some (by assumption) ?_)
      | (refine Keeps.of_snd (by assumption) ?_)
      | (refine Keeps.of_snd_snd (by assumption) ?_)
      | (intro _ _ _; beta_reduce)
      | (fail_if_no_progress apply Keeps.other)
      | intro _

theorem State.fetchBq_keeps {r_ : State} (n : Nat) (s : State) (q : Nat) (h_ : Keeps r_ s) : Keeps r_ (State.fetchBq n s q) := by
  induction n generalizing s with
  | zero => exact h_
  | succ n_ ih =>
    unfold State.fetchBq
    repeat' with_reducible first
      | assumption
      | exact Keeps.refl _
      | apply ih
      | apply State.wr_keeps
      | apply State.mpIssue_keeps
      | apply Keeps.foldl
      | apply Keeps.foldl_snd
      | dsimp only
      | split
      | (refine Keeps.of_some (by assumption) ?_)
      | (refine Keeps.of_snd (by assumption) ?_)
      | (refine Keeps.of_snd_snd (by assumption) ?_)
      | (intro _ _ _; beta_reduce)
      | (fail_if_no_progress apply Keeps.other)
      | intro _

theorem State.jobTake_keeps {r_ : State} (s : State) (j : Nat) (l : List Octet) (h_ : Keeps r_ s) : Keeps r_ (State.jobTake s j l) := by
  unfold State.jobTake
  extract_lets +onlyGivenNames e_0 m_1 r_2
  try clear_value e_0
  try clear_value m_1
  repeat' with_reducible first
    | assumption
    | exact Keeps.refl _
    | apply State.setEnt_keeps
    | apply State.setReg_keeps
    | apply Keeps.foldl
    | apply Keeps.foldl_snd
    | dsimp only
    | split
    | (refine Keeps.of_some (by assumption) ?_)
    | (refine Keeps.of_snd (by assumption) ?_)
    | (refine Keeps.of_snd_snd (by assumption) ?_)
    | (intro _ _ _; beta_reduce)
    | (fail_if_no_progress apply Keeps.other)
    | intro _

theorem State.jobReads_keeps {r_ : State} (s : State) (j : Nat) (h_ : Keeps r_ s) : Keeps r_ (State.jobReads s j) := by
  unfold State.jobReads
  extract_lets +onlyGivenNames e_0
  try clear_value e_0
  repeat' with_reducible first
    | assumption
    | exact Keeps.refl _
    | apply State.mpIssue_keeps
    | apply Keeps.foldl
    | apply Keeps.foldl_snd
    | dsimp only
    | split
    | (refine Keeps.of_some (by assumption) ?_)
    | (refine Keeps.of_snd (by assumption) ?_)
    | (refine Keeps.of_snd_snd (by assumption) ?_)
    | (intro _ _ _; beta_reduce)
    | (fail_if_no_progress apply Keeps.other)
    | intro _

theorem State.jobBurst_keeps {r_ : State} (s : State) (j : Nat) (addr : Nat) (octets : List Octet) (h_ : Keeps r_ s) : Keeps r_ (State.jobBurst s j addr octets) := by
  unfold State.jobBurst
  extract_lets +onlyGivenNames e_0
  try clear_value e_0
  repeat' with_reducible first
    | assumption
    | exact Keeps.refl _
    | apply State.jobTake_keeps
    | apply Keeps.foldl
    | apply Keeps.foldl_snd
    | dsimp only
    | split
    | (refine Keeps.of_some (by assumption) ?_)
    | (refine Keeps.of_snd (by assumption) ?_)
    | (refine Keeps.of_snd_snd (by assumption) ?_)
    | (intro _ _ _; beta_reduce)
    | (fail_if_no_progress apply Keeps.other)
    | intro _

theorem State.pump_keeps {r_ : State} (s : State) (h_ : Keeps r_ s) : Keeps r_ (State.pump s) := by
  unfold State.pump
  repeat' with_reducible first
    | assumption
    | exact Keeps.refl _
    | apply State.txErrors_keeps
    | apply State.rxErrors_keeps
    | apply State.pumpPayload_keeps
    | apply State.fetchTq_keeps
    | apply State.fetchBq_keeps
    | apply State.jobReads_keeps
    | apply Keeps.foldl
    | apply Keeps.foldl_snd
    | dsimp only
    | split
    | (refine Keeps.of_some (by assumption) ?_)
    | (refine Keeps.of_snd (by assumption) ?_)
    | (refine Keeps.of_snd_snd (by assumption) ?_)
    | (intro _ _ _; beta_reduce)
    | (fail_if_no_progress apply Keeps.other)
    | intro _

theorem State.gainedWork_keeps {r_ : State} (s : State) (q : Nat) (h_ : Keeps r_ s) : Keeps r_ (State.gainedWork s q) := by
  unfold State.gainedWork
  repeat' with_reducible first
    | assumption
    | exact Keeps.refl _
    | apply State.setReg_keeps
    | apply State.discardAhead_keeps
    | apply Keeps.foldl
    | apply Keeps.foldl_snd
    | dsimp only
    | split
    | (refine Keeps.of_some (by assumption) ?_)
    | (refine Keeps.of_snd (by assumption) ?_)
    | (refine Keeps.of_snd_snd (by assumption) ?_)
    | (intro _ _ _; beta_reduce)
    | (fail_if_no_progress apply Keeps.other)
    | intro _

theorem State.afterTail_keeps {r_ : State} (s : State) (kind : RingKind) (ring : Nat) (had : Bool) (h_ : Keeps r_ s) : Keeps r_ (State.afterTail s kind ring had) := by
  unfold State.afterTail
  repeat' with_reducible first
    | assumption
    | exact Keeps.refl _
    | apply State.pump_keeps
    | apply State.gainedWork_keeps
    | apply Keeps.foldl
    | apply Keeps.foldl_snd
    | dsimp only
    | split
    | (refine Keeps.of_some (by assumption) ?_)
    | (refine Keeps.of_snd (by assumption) ?_)
    | (refine Keeps.of_snd_snd (by assumption) ?_)
    | (intro _ _ _; beta_reduce)
    | (fail_if_no_progress apply Keeps.other)
    | intro _

theorem State.badDoorbell_keeps {r_ : State} (s : State) (u : Nat) (h_ : Keeps r_ s) : Keeps r_ (State.badDoorbell s u) := by
  unfold State.badDoorbell
  repeat' with_reducible first
    | assumption
    | exact Keeps.refl _
    | apply State.bump_keeps
    | apply State.latch_keeps
    | apply Keeps.foldl
    | apply Keeps.foldl_snd
    | dsimp only
    | split
    | (refine Keeps.of_some (by assumption) ?_)
    | (refine Keeps.of_snd (by assumption) ?_)
    | (refine Keeps.of_snd_snd (by assumption) ?_)
    | (intro _ _ _; beta_reduce)
    | (fail_if_no_progress apply Keeps.other)
    | intro _

theorem State.refusedDoorbell_keeps {r_ : State} (s : State) (u : Nat) (value : Nat) (a : Nat) (b : Nat) (h_ : Keeps r_ s) : Keeps r_ (State.refusedDoorbell s u value a b) := by
  unfold State.refusedDoorbell
  repeat' with_reducible first
    | assumption
    | exact Keeps.refl _
    | apply State.raise_keeps
    | apply State.record_keeps
    | apply State.badDoorbell_keeps
    | apply Keeps.foldl
    | apply Keeps.foldl_snd
    | dsimp only
    | split
    | (refine Keeps.of_some (by assumption) ?_)
    | (refine Keeps.of_snd (by assumption) ?_)
    | (refine Keeps.of_snd_snd (by assumption) ?_)
    | (intro _ _ _; beta_reduce)
    | (fail_if_no_progress apply Keeps.other)
    | intro _

theorem State.knock_keeps {r_ : State} (s : State) (kind : RingKind) (ring : Nat) (h_ : Keeps r_ s) : Keeps r_ (State.knock s kind ring) := by
  unfold State.knock
  extract_lets +onlyGivenNames u_0 m_1
  try clear_value u_0
  try clear_value m_1
  repeat' with_reducible first
    | assumption
    | exact Keeps.refl _
    | apply State.mpIssue_keeps
    | apply Keeps.foldl
    | apply Keeps.foldl_snd
    | dsimp only
    | split
    | (refine Keeps.of_some (by assumption) ?_)
    | (refine Keeps.of_snd (by assumption) ?_)
    | (refine Keeps.of_snd_snd (by assumption) ?_)
    | (intro _ _ _; beta_reduce)
    | (fail_if_no_progress apply Keeps.other)
    | intro _

theorem State.tailWrite_keeps {r_ : State} (s : State) (kind : RingKind) (ring : Nat) (value : Nat) (h_ : Keeps r_ s) : Keeps r_ (State.tailWrite s kind ring value) := by
  unfold State.tailWrite
  extract_lets +onlyGivenNames u_0 a_1 b_2
  try clear_value u_0
  try clear_value a_1
  try clear_value b_2
  repeat' with_reducible first
    | assumption
    | exact Keeps.refl _
    | apply State.wr_keeps
    | apply State.afterTail_keeps
    | apply State.refusedDoorbell_keeps
    | apply Keeps.foldl
    | apply Keeps.foldl_snd
    | dsimp only
    | split
    | (refine Keeps.of_some (by assumption) ?_)
    | (refine Keeps.of_snd (by assumption) ?_)
    | (refine Keeps.of_snd_snd (by assumption) ?_)
    | (intro _ _ _; beta_reduce)
    | (fail_if_no_progress apply Keeps.other)
    | intro _

theorem execTailDoorbell_keeps {r_ : State} (kind : RingKind) (ring : Nat) (value : Nat) (width64 : Bool) (s : State) (h_ : Keeps r_ s) : KeepsNext r_ (execTailDoorbell kind ring value width64 s) := by
  unfold execTailDoorbell
  repeat' with_reducible first
    | assumption
    | exact Keeps.refl _
    | apply KeepsNext.next
    | apply KeepsNext.refused
    | apply State.bump_keeps
    | apply State.wake_keeps
    | apply gathered_keeps
    | apply State.badDoorbell_keeps
    | apply State.knock_keeps
    | apply State.tailWrite_keeps
    | apply Keeps.foldl
    | apply Keeps.foldl_snd
    | dsimp only
    | split
    | (refine Keeps.of_some (by assumption) ?_)
    | (refine Keeps.of_snd (by assumption) ?_)
    | (refine Keeps.of_snd_snd (by assumption) ?_)
    | (intro _ _ _; beta_reduce)
    | (fail_if_no_progress apply Keeps.other)
    | intro _

theorem execScanKnock_keeps {r_ : State} (kind : RingKind) (ring : Nat) (width64 : Bool) (s : State) (h_ : Keeps r_ s) : KeepsNext r_ (execScanKnock kind ring width64 s) := by
  unfold execScanKnock
  repeat' with_reducible first
    | assumption
    | exact Keeps.refl _
    | apply KeepsNext.next
    | apply KeepsNext.refused
    | apply State.bump_keeps
    | apply State.wake_keeps
    | apply State.badDoorbell_keeps
    | apply State.knock_keeps
    | apply Keeps.foldl
    | apply Keeps.foldl_snd
    | dsimp only
    | split
    | (refine Keeps.of_some (by assumption) ?_)
    | (refine Keeps.of_snd (by assumption) ?_)
    | (refine Keeps.of_snd_snd (by assumption) ?_)
    | (intro _ _ _; beta_reduce)
    | (fail_if_no_progress apply Keeps.other)
    | intro _

theorem execRingScanDone_keeps {r_ : State} (kind : RingKind) (ring : Nat) (ready : Nat) (s : State) (h_ : Keeps r_ s) : KeepsNext r_ (execRingScanDone kind ring ready s) := by
  unfold execRingScanDone
  extract_lets +onlyGivenNames u_0 m_1
  try clear_value u_0
  try clear_value m_1
  repeat' with_reducible first
    | assumption
    | exact Keeps.refl _
    | apply KeepsNext.next
    | apply KeepsNext.refused
    | apply State.wr_keeps
    | apply State.afterTail_keeps
    | apply State.knock_keeps
    | apply Keeps.foldl
    | apply Keeps.foldl_snd
    | dsimp only
    | split
    | (refine Keeps.of_some (by assumption) ?_)
    | (refine Keeps.of_snd (by assumption) ?_)
    | (refine Keeps.of_snd_snd (by assumption) ?_)
    | (intro _ _ _; beta_reduce)
    | (fail_if_no_progress apply Keeps.other)
    | intro _

theorem execDoorbellAbsent_keeps {r_ : State} (offset : Nat) (s : State) (h_ : Keeps r_ s) : KeepsNext r_ (execDoorbellAbsent offset s) := by
  unfold execDoorbellAbsent
  repeat' with_reducible first
    | assumption
    | exact Keeps.refl _
    | apply KeepsNext.next
    | apply KeepsNext.refused
    | apply State.bump_keeps
    | apply State.wake_keeps
    | apply Keeps.foldl
    | apply Keeps.foldl_snd
    | dsimp only
    | split
    | (refine Keeps.of_some (by assumption) ?_)
    | (refine Keeps.of_snd (by assumption) ?_)
    | (refine Keeps.of_snd_snd (by assumption) ?_)
    | (intro _ _ _; beta_reduce)
    | (fail_if_no_progress apply Keeps.other)
    | intro _

theorem State.stallCheck_keeps {r_ : State} (s : State) (cq : Nat) (h_ : Keeps r_ s) : Keeps r_ (State.stallCheck s cq) := by
  unfold State.stallCheck
  extract_lets +onlyGivenNames u_0
  try clear_value u_0
  repeat' with_reducible first
    | assumption
    | exact Keeps.refl _
    | apply State.setReg_keeps
    | apply State.startTimer_keeps
    | apply State.stopTimer_keeps
    | apply State.record_keeps
    | apply Keeps.foldl
    | apply Keeps.foldl_snd
    | dsimp only
    | split
    | (refine Keeps.of_some (by assumption) ?_)
    | (refine Keeps.of_snd (by assumption) ?_)
    | (refine Keeps.of_snd_snd (by assumption) ?_)
    | (intro _ _ _; beta_reduce)
    | (fail_if_no_progress apply Keeps.other)
    | intro _

theorem State.stallReport_keeps {r_ : State} (s : State) (cq : Nat) (h_ : Keeps r_ s) : Keeps r_ (State.stallReport s cq) := by
  unfold State.stallReport
  extract_lets +onlyGivenNames u_0
  try clear_value u_0
  repeat' with_reducible first
    | assumption
    | exact Keeps.refl _
    | apply State.setReg_keeps
    | apply State.stopTimer_keeps
    | apply State.bump_keeps
    | apply State.raise_keeps
    | apply State.record_keeps
    | apply Keeps.foldl
    | apply Keeps.foldl_snd
    | dsimp only
    | split
    | (refine Keeps.of_some (by assumption) ?_)
    | (refine Keeps.of_snd (by assumption) ?_)
    | (refine Keeps.of_snd_snd (by assumption) ?_)
    | (intro _ _ _; beta_reduce)
    | (fail_if_no_progress apply Keeps.other)
    | intro _

theorem execCqStallDetect_keeps {r_ : State} (cq : Nat) (s : State) (h_ : Keeps r_ s) : KeepsNext r_ (execCqStallDetect cq s) := by
  unfold execCqStallDetect
  repeat' with_reducible first
    | assumption
    | exact Keeps.refl _
    | apply KeepsNext.next
    | apply KeepsNext.refused
    | apply State.wake_keeps
    | apply State.stallReport_keeps
    | apply Keeps.foldl
    | apply Keeps.foldl_snd
    | dsimp only
    | split
    | (refine Keeps.of_some (by assumption) ?_)
    | (refine Keeps.of_snd (by assumption) ?_)
    | (refine Keeps.of_snd_snd (by assumption) ?_)
    | (intro _ _ _; beta_reduce)
    | (fail_if_no_progress apply Keeps.other)
    | intro _

theorem execCqHeadDoorbell_keeps {r_ : State} (ring : Nat) (value : Nat) (width64 : Bool) (s : State) (h_ : Keeps r_ s) : KeepsNext r_ (execCqHeadDoorbell ring value width64 s) := by
  unfold execCqHeadDoorbell
  repeat' with_reducible first
    | assumption
    | exact Keeps.refl _
    | apply KeepsNext.next
    | apply KeepsNext.refused
    | apply State.wr_keeps
    | apply State.bump_keeps
    | apply State.wake_keeps
    | apply gathered_keeps
    | apply State.cqFlush_keeps
    | apply State.pump_keeps
    | apply State.badDoorbell_keeps
    | apply State.refusedDoorbell_keeps
    | apply State.stallCheck_keeps
    | apply Keeps.foldl
    | apply Keeps.foldl_snd
    | dsimp only
    | split
    | (refine Keeps.of_some (by assumption) ?_)
    | (refine Keeps.of_snd (by assumption) ?_)
    | (refine Keeps.of_snd_snd (by assumption) ?_)
    | (intro _ _ _; beta_reduce)
    | (fail_if_no_progress apply Keeps.other)
    | intro _

theorem State.faultAhead_keeps {r_ : State} (s : State) (ring : Nat) (pos : Nat) (st : Nat) (h_ : Keeps r_ s) : Keeps r_ (State.faultAhead s ring pos st) := by
  unfold State.faultAhead
  repeat' with_reducible first
    | assumption
    | exact Keeps.refl _
    | apply State.addAhead_keeps
    | apply Keeps.foldl
    | apply Keeps.foldl_snd
    | dsimp only
    | split
    | (refine Keeps.of_some (by assumption) ?_)
    | (refine Keeps.of_snd (by assumption) ?_)
    | (refine Keeps.of_snd_snd (by assumption) ?_)
    | (intro _ _ _; beta_reduce)
    | (fail_if_no_progress apply Keeps.other)
    | intro _

theorem State.passBq_keeps {r_ : State} (n : Nat) (s : State) (q : Nat) (h_ : Keeps r_ s) : Keeps r_ (State.passBq n s q) := by
  induction n generalizing s with
  | zero => exact h_
  | succ n_ ih =>
    unfold State.passBq
    repeat' with_reducible first
      | assumption
      | exact Keeps.refl _
      | apply ih
      | apply State.passEntry_keeps
      | apply State.producerFault_keeps
      | apply Keeps.foldl
      | apply Keeps.foldl_snd
      | dsimp only
      | split
      | (refine Keeps.of_some (by assumption) ?_)
      | (refine Keeps.of_snd (by assumption) ?_)
      | (refine Keeps.of_snd_snd (by assumption) ?_)
      | (intro _ _ _; beta_reduce)
      | (fail_if_no_progress apply Keeps.other)
      | intro _

theorem State.bqEntry_keeps {r_ : State} (s : State) (b : BqBuffer) (h_ : Keeps r_ s) : Keeps r_ (State.bqEntry s b) := by
  unfold State.bqEntry
  repeat' with_reducible first
    | assumption
    | exact Keeps.refl _
    | apply State.passBq_keeps
    | apply Keeps.foldl
    | apply Keeps.foldl_snd
    | dsimp only
    | split
    | (refine Keeps.of_some (by assumption) ?_)
    | (refine Keeps.of_snd (by assumption) ?_)
    | (refine Keeps.of_snd_snd (by assumption) ?_)
    | (intro _ _ _; beta_reduce)
    | (fail_if_no_progress apply Keeps.other)
    | intro _

theorem State.takeEntry_keeps {r_ : State} (s : State) (kind : RingKind) (ring : Nat) (pos : Nat) (l : List Octet) (h_ : Keeps r_ s) : Keeps r_ (State.takeEntry s kind ring pos l) := by
  unfold State.takeEntry
  repeat' with_reducible first
    | assumption
    | exact Keeps.refl _
    | apply State.addAhead_keeps
    | apply State.faultAhead_keeps
    | apply State.bqEntry_keeps
    | apply Keeps.foldl
    | apply Keeps.foldl_snd
    | dsimp only
    | split
    | (refine Keeps.of_some (by assumption) ?_)
    | (refine Keeps.of_snd (by assumption) ?_)
    | (refine Keeps.of_snd_snd (by assumption) ?_)
    | (intro _ _ _; beta_reduce)
    | (fail_if_no_progress apply Keeps.other)
    | intro _

theorem State.descBack_keeps {r_ : State} (s : State) (o : MpOp) (kind : RingKind) (ring : Nat) (l : List Octet) (h_ : Keeps r_ s) : Keeps r_ (State.descBack s o kind ring l) := by
  unfold State.descBack
  repeat' with_reducible first
    | assumption
    | exact Keeps.refl _
    | apply State.pump_keeps
    | apply State.takeEntry_keeps
    | apply Keeps.foldl
    | apply Keeps.foldl_snd
    | dsimp only
    | split
    | (refine Keeps.of_some (by assumption) ?_)
    | (refine Keeps.of_snd (by assumption) ?_)
    | (refine Keeps.of_snd_snd (by assumption) ?_)
    | (intro _ _ _; beta_reduce)
    | (fail_if_no_progress apply Keeps.other)
    | intro _

theorem execDescReadDone_keeps {r_ : State} (kind : RingKind) (ring : Nat) (entry : List Octet) (s : State) (h_ : Keeps r_ s) : KeepsNext r_ (execDescReadDone kind ring entry s) := by
  unfold execDescReadDone
  repeat' with_reducible first
    | assumption
    | exact Keeps.refl _
    | apply KeepsNext.next
    | apply KeepsNext.refused
    | apply gathered_keeps
    | apply State.descBack_keeps
    | apply Keeps.foldl
    | apply Keeps.foldl_snd
    | dsimp only
    | split
    | (refine Keeps.of_some (by assumption) ?_)
    | (refine Keeps.of_snd (by assumption) ?_)
    | (refine Keeps.of_snd_snd (by assumption) ?_)
    | (intro _ _ _; beta_reduce)
    | (fail_if_no_progress apply Keeps.other)
    | intro _

theorem State.descFailed_keeps {r_ : State} (s : State) (o : MpOp) (kind : RingKind) (ring : Nat) (h_ : Keeps r_ s) : Keeps r_ (State.descFailed s o kind ring) := by
  unfold State.descFailed
  extract_lets +onlyGivenNames pos_0
  try clear_value pos_0
  repeat' with_reducible first
    | assumption
    | exact Keeps.refl _
    | apply State.faultAhead_keeps
    | apply State.bqEntry_keeps
    | apply Keeps.foldl
    | apply Keeps.foldl_snd
    | dsimp only
    | split
    | (refine Keeps.of_some (by assumption) ?_)
    | (refine Keeps.of_snd (by assumption) ?_)
    | (refine Keeps.of_snd_snd (by assumption) ?_)
    | (intro _ _ _; beta_reduce)
    | (fail_if_no_progress apply Keeps.other)
    | intro _

theorem State.payloadFailed_keeps {r_ : State} (s : State) (q : Nat) (pos : Nat) (status : Nat) (h_ : Keeps r_ s) : Keeps r_ (State.payloadFailed s q pos status) := by
  unfold State.payloadFailed
  extract_lets +onlyGivenNames s1_0
  have h_s1_0 : Keeps r_ s1_0 := by
    unfold s1_0
    repeat' with_reducible first
      | assumption
      | exact Keeps.refl _
      | apply State.dropOps_keeps
      | apply State.pump_keeps
      | apply Keeps.foldl
      | apply Keeps.foldl_snd
      | dsimp only
      | split
      | (refine Keeps.of_some (by assumption) ?_)
      | (refine Keeps.of_snd (by assumption) ?_)
      | (refine Keeps.of_snd_snd (by assumption) ?_)
      | (intro _ _ _; beta_reduce)
      | (fail_if_no_progress apply Keeps.other)
      | intro _
  clear_value s1_0
  repeat' with_reducible first
    | assumption
    | exact Keeps.refl _
    | apply State.dropOps_keeps
    | apply State.pump_keeps
    | apply Keeps.foldl
    | apply Keeps.foldl_snd
    | dsimp only
    | split
    | (refine Keeps.of_some (by assumption) ?_)
    | (refine Keeps.of_snd (by assumption) ?_)
    | (refine Keeps.of_snd_snd (by assumption) ?_)
    | (intro _ _ _; beta_reduce)
    | (fail_if_no_progress apply Keeps.other)
    | intro _

theorem State.payloadIn_keeps {r_ : State} (s : State) (q : Nat) (pos : Nat) (addr : Nat) (l : List Octet) (h_ : Keeps r_ s) : Keeps r_ (State.payloadIn s q pos addr l) := by
  unfold State.payloadIn
  repeat' with_reducible first
    | assumption
    | exact Keeps.refl _
    | apply Keeps.foldl
    | apply Keeps.foldl_snd
    | dsimp only
    | split
    | (refine Keeps.of_some (by assumption) ?_)
    | (refine Keeps.of_snd (by assumption) ?_)
    | (refine Keeps.of_snd_snd (by assumption) ?_)
    | (intro _ _ _; beta_reduce)
    | (fail_if_no_progress apply Keeps.other)
    | intro _

theorem State.bqTake_keeps {r_ : State} (s : State) (bq : Nat) (c : Copy) (f : Frame) (ecc : CellRead) (h_ : Keeps r_ s) : Keeps r_ (State.bqTake s bq c f ecc) := by
  unfold State.bqTake
  extract_lets +onlyGivenNames u_0 s0_1
  try clear_value u_0
  have h_s0_1 : Keeps r_ s0_1 := by
    unfold s0_1
    repeat' with_reducible first
      | assumption
      | exact Keeps.refl _
      | apply State.setReg_keeps
      | apply State.readCells_keeps
      | apply State.settle_keeps
      | apply State.dropCopy_keeps
      | apply State.setCopy_keeps
      | apply State.owe_keeps
      | apply State.hostWrites_keeps
      | apply State.takeBuffer_keeps
      | apply State.pump_keeps
      | apply Keeps.foldl
      | apply Keeps.foldl_snd
      | dsimp only
      | split
      | (refine Keeps.of_some (by assumption) ?_)
      | (refine Keeps.of_snd (by assumption) ?_)
      | (refine Keeps.of_snd_snd (by assumption) ?_)
      | (intro _ _ _; beta_reduce)
      | (fail_if_no_progress apply Keeps.other)
      | intro _
  clear_value s0_1
  repeat' with_reducible first
    | assumption
    | exact Keeps.refl _
    | apply State.setReg_keeps
    | apply State.readCells_keeps
    | apply State.settle_keeps
    | apply State.dropCopy_keeps
    | apply State.setCopy_keeps
    | apply State.owe_keeps
    | apply State.hostWrites_keeps
    | apply State.takeBuffer_keeps
    | apply State.pump_keeps
    | apply Keeps.foldl
    | apply Keeps.foldl_snd
    | dsimp only
    | split
    | (refine Keeps.of_some (by assumption) ?_)
    | (refine Keeps.of_snd (by assumption) ?_)
    | (refine Keeps.of_snd_snd (by assumption) ?_)
    | (intro _ _ _; beta_reduce)
    | (fail_if_no_progress apply Keeps.other)
    | intro _

theorem execBqBufferTake_keeps {r_ : State} (bq : Nat) (ecc : CellRead) (s : State) (h_ : Keeps r_ s) : KeepsNext r_ (execBqBufferTake bq ecc s) := by
  unfold execBqBufferTake
  repeat' with_reducible first
    | assumption
    | exact Keeps.refl _
    | apply KeepsNext.next
    | apply KeepsNext.refused
    | apply gathered_keeps
    | apply State.bqTake_keeps
    | apply Keeps.foldl
    | apply Keeps.foldl_snd
    | dsimp only
    | split
    | (refine Keeps.of_some (by assumption) ?_)
    | (refine Keeps.of_snd (by assumption) ?_)
    | (refine Keeps.of_snd_snd (by assumption) ?_)
    | (intro _ _ _; beta_reduce)
    | (fail_if_no_progress apply Keeps.other)
    | intro _

theorem State.cqDone_keeps {r_ : State} (s : State) (cq : Nat) (h_ : Keeps r_ s) : Keeps r_ (State.cqDone s cq) := by
  unfold State.cqDone
  repeat' with_reducible first
    | assumption
    | exact Keeps.refl _
    | apply State.setReg_keeps
    | apply State.stopTimer_keeps
    | apply State.raise_keeps
    | apply Keeps.foldl
    | apply Keeps.foldl_snd
    | dsimp only
    | split
    | (refine Keeps.of_some (by assumption) ?_)
    | (refine Keeps.of_snd (by assumption) ?_)
    | (refine Keeps.of_snd_snd (by assumption) ?_)
    | (intro _ _ _; beta_reduce)
    | (fail_if_no_progress apply Keeps.other)
    | intro _

theorem State.completionCounts_keeps {r_ : State} (s : State) (cq : Nat) (e : CqEntry) (h_ : Keeps r_ s) : Keeps r_ (State.completionCounts s cq e) := by
  unfold State.completionCounts
  extract_lets +onlyGivenNames status_0 ring_1 u_2 len_3
  try clear_value status_0
  try clear_value ring_1
  try clear_value u_2
  try clear_value len_3
  repeat' with_reducible first
    | assumption
    | exact Keeps.refl _
    | apply State.bump_keeps
    | apply Keeps.foldl
    | apply Keeps.foldl_snd
    | dsimp only
    | split
    | (refine Keeps.of_some (by assumption) ?_)
    | (refine Keeps.of_snd (by assumption) ?_)
    | (refine Keeps.of_snd_snd (by assumption) ?_)
    | (intro _ _ _; beta_reduce)
    | (fail_if_no_progress apply Keeps.other)
    | intro _

theorem State.cqWritten_keeps {r_ : State} (s : State) (cq : Nat) (e : CqEntry) (h_ : Keeps r_ s) : Keeps r_ (State.cqWritten s cq e) := by
  unfold State.cqWritten
  extract_lets +onlyGivenNames u_0 n_1 s1_2
  try clear_value u_0
  try clear_value n_1
  have h_s1_2 : Keeps r_ s1_2 := by
    unfold s1_2
    repeat' with_reducible first
      | assumption
      | exact Keeps.refl _
      | apply State.setReg_keeps
      | apply State.startTimer_keeps
      | apply State.cqDone_keeps
      | apply State.completionCounts_keeps
      | apply Keeps.foldl
      | apply Keeps.foldl_snd
      | dsimp only
      | split
      | (refine Keeps.of_some (by assumption) ?_)
      | (refine Keeps.of_snd (by assumption) ?_)
      | (refine Keeps.of_snd_snd (by assumption) ?_)
      | (intro _ _ _; beta_reduce)
      | (fail_if_no_progress apply Keeps.other)
      | intro _
  clear_value s1_2
  repeat' with_reducible first
    | assumption
    | exact Keeps.refl _
    | apply State.setReg_keeps
    | apply State.startTimer_keeps
    | apply State.cqDone_keeps
    | apply State.completionCounts_keeps
    | apply Keeps.foldl
    | apply Keeps.foldl_snd
    | dsimp only
    | split
    | (refine Keeps.of_some (by assumption) ?_)
    | (refine Keeps.of_snd (by assumption) ?_)
    | (refine Keeps.of_snd_snd (by assumption) ?_)
    | (intro _ _ _; beta_reduce)
    | (fail_if_no_progress apply Keeps.other)
    | intro _

theorem execCqIrqTimer_keeps {r_ : State} (cq : Nat) (s : State) (h_ : Keeps r_ s) : KeepsNext r_ (execCqIrqTimer cq s) := by
  unfold execCqIrqTimer
  repeat' with_reducible first
    | assumption
    | exact Keeps.refl _
    | apply KeepsNext.next
    | apply KeepsNext.refused
    | apply State.wake_keeps
    | apply State.cqDone_keeps
    | apply Keeps.foldl
    | apply Keeps.foldl_snd
    | dsimp only
    | split
    | (refine Keeps.of_some (by assumption) ?_)
    | (refine Keeps.of_snd (by assumption) ?_)
    | (refine Keeps.of_snd_snd (by assumption) ?_)
    | (intro _ _ _; beta_reduce)
    | (fail_if_no_progress apply Keeps.other)
    | intro _

theorem State.cqFailed_keeps {r_ : State} (s : State) (cq : Nat) (o : MpOp) (h_ : Keeps r_ s) : Keeps r_ (State.cqFailed s cq o) := by
  unfold State.cqFailed
  extract_lets +onlyGivenNames u_0 later_1 after_2 s1_3 w_4
  try clear_value u_0
  try clear_value later_1
  try clear_value after_2
  have h_s1_3 : Keeps r_ s1_3 := by
    unfold s1_3
    repeat' with_reducible first
      | assumption
      | exact Keeps.refl _
      | apply State.wr_keeps
      | apply State.bump_keeps
      | apply State.ringFault_keeps
      | apply Keeps.foldl
      | apply Keeps.foldl_snd
      | dsimp only
      | split
      | (refine Keeps.of_some (by assumption) ?_)
      | (refine Keeps.of_snd (by assumption) ?_)
      | (refine Keeps.of_snd_snd (by assumption) ?_)
      | (intro _ _ _; beta_reduce)
      | (fail_if_no_progress apply Keeps.other)
      | intro _
  clear_value s1_3
  repeat' with_reducible first
    | assumption
    | exact Keeps.refl _
    | apply State.wr_keeps
    | apply State.bump_keeps
    | apply State.ringFault_keeps
    | apply Keeps.foldl
    | apply Keeps.foldl_snd
    | dsimp only
    | split
    | (refine Keeps.of_some (by assumption) ?_)
    | (refine Keeps.of_snd (by assumption) ?_)
    | (refine Keeps.of_snd_snd (by assumption) ?_)
    | (intro _ _ _; beta_reduce)
    | (fail_if_no_progress apply Keeps.other)
    | intro _

theorem State.ringStart_keeps {r_ : State} (s : State) (u : Nat) (h_ : Keeps r_ s) : Keeps r_ (State.ringStart s u).2 := by
  unfold State.ringStart
  repeat' with_reducible first
    | assumption
    | exact Keeps.refl _
    | apply State.wr_keeps
    | apply State.cqFlush_keeps
    | apply State.pump_keeps
    | apply State.afterTail_keeps
    | apply State.knock_keeps
    | apply Keeps.foldl
    | apply Keeps.foldl_snd
    | dsimp only
    | split
    | (refine Keeps.of_some (by assumption) ?_)
    | (refine Keeps.of_snd (by assumption) ?_)
    | (refine Keeps.of_snd_snd (by assumption) ?_)
    | (intro _ _ _; beta_reduce)
    | (fail_if_no_progress apply Keeps.other)
    | intro _

theorem State.ringStop_keeps {r_ : State} (s : State) (u : Nat) (h_ : Keeps r_ s) : Keeps r_ (State.ringStop s u).2 := by
  unfold State.ringStop
  repeat' with_reducible first
    | assumption
    | exact Keeps.refl _
    | apply State.wr_keeps
    | apply State.dropOps_keeps
    | apply State.discardAhead_keeps
    | apply State.discardBq_keeps
    | apply State.pump_keeps
    | apply Keeps.foldl
    | apply Keeps.foldl_snd
    | dsimp only
    | split
    | (refine Keeps.of_some (by assumption) ?_)
    | (refine Keeps.of_snd (by assumption) ?_)
    | (refine Keeps.of_snd_snd (by assumption) ?_)
    | (intro _ _ _; beta_reduce)
    | (fail_if_no_progress apply Keeps.other)
    | intro _

theorem State.zeroPositions_keeps {r_ : State} (s : State) (u : Nat) (h_ : Keeps r_ s) : Keeps r_ (State.zeroPositions s u) := by
  unfold State.zeroPositions
  repeat' with_reducible first
    | assumption
    | exact Keeps.refl _
    | apply State.wr_keeps
    | apply Keeps.foldl
    | apply Keeps.foldl_snd
    | dsimp only
    | split
    | (refine Keeps.of_some (by assumption) ?_)
    | (refine Keeps.of_snd (by assumption) ?_)
    | (refine Keeps.of_snd_snd (by assumption) ?_)
    | (intro _ _ _; beta_reduce)
    | (fail_if_no_progress apply Keeps.other)
    | intro _

theorem State.ringReset_keeps {r_ : State} (s : State) (u : Nat) (h_ : Keeps r_ s) : Keeps r_ (State.ringReset s u).2 := by
  unfold State.ringReset
  repeat' with_reducible first
    | assumption
    | exact Keeps.refl _
    | apply State.wr_keeps
    | apply State.zeroPositions_keeps
    | apply Keeps.foldl
    | apply Keeps.foldl_snd
    | dsimp only
    | split
    | (refine Keeps.of_some (by assumption) ?_)
    | (refine Keeps.of_snd (by assumption) ?_)
    | (refine Keeps.of_snd_snd (by assumption) ?_)
    | (intro _ _ _; beta_reduce)
    | (fail_if_no_progress apply Keeps.other)
    | intro _

theorem State.ringObjWrite_keeps {r_ : State} (s : State) (u : Nat) (i : Nat) (v : Nat) (h_ : Keeps r_ s) : Keeps r_ (State.ringObjWrite s u i v).2 := by
  unfold State.ringObjWrite
  extract_lets +onlyGivenNames st_0
  try clear_value st_0
  repeat' with_reducible first
    | assumption
    | exact Keeps.refl _
    | apply State.wr_keeps
    | apply State.zeroPositions_keeps
    | apply Keeps.foldl
    | apply Keeps.foldl_snd
    | dsimp only
    | split
    | (refine Keeps.of_some (by assumption) ?_)
    | (refine Keeps.of_snd (by assumption) ?_)
    | (refine Keeps.of_snd_snd (by assumption) ?_)
    | (intro _ _ _; beta_reduce)
    | (fail_if_no_progress apply Keeps.other)
    | intro _

end Sys2Proof.Machine
end

