-- ==== Sys2Proof/Laws/KeepsReceive.lean ====
section
/-! SUPPORT. What the operations of Receive.lean keep (Keeps.lean). -/
set_option linter.unusedTactic false
set_option linter.unreachableTactic false
namespace Sys2Proof.Machine

theorem State.quarterSeq_keeps {r_ : State} (s : State) (ch : Nat) (seq : Nat) (counts : Bool) (h_ : Keeps r_ s) : Keeps r_ (State.quarterSeq s ch seq counts) := by
  unfold State.quarterSeq
  repeat' with_reducible first
    | assumption
    | exact Keeps.refl _
    | apply State.setReg_keeps
    | apply State.bump_keeps
    | apply Keeps.foldl
    | apply Keeps.foldl_snd
    | dsimp only
    | split
    | (refine Keeps.of_some (by assumption) ?_)
    | (refine Keeps.of_snd (by assumption) ?_)
    | (refine Keeps.of_snd_snd (by assumption) ?_)
    | (intro _ _ _; beta_reduce)
    | (fail_if_no_progress apply Keeps.other)
    | intro _

theorem State.deliverTo_keeps {r_ : State} (s : State) (ch : Nat) (start : List Octet) (h_ : Keeps r_ s) : Keeps r_ (State.deliverTo s ch start) := by
  unfold State.deliverTo
  extract_lets +onlyGivenNames lane_0
  try clear_value lane_0
  repeat' with_reducible first
    | assumption
    | exact Keeps.refl _
    | apply State.bump_keeps
    | apply State.latch_keeps
    | apply State.quarterSeq_keeps
    | apply Keeps.foldl
    | apply Keeps.foldl_snd
    | dsimp only
    | split
    | (refine Keeps.of_some (by assumption) ?_)
    | (refine Keeps.of_snd (by assumption) ?_)
    | (refine Keeps.of_snd_snd (by assumption) ?_)
    | (intro _ _ _; beta_reduce)
    | (fail_if_no_progress apply Keeps.other)
    | intro _

theorem State.startCounts_keeps {r_ : State} (s : State) (lane : Nat) (start : StartInput) (h_ : Keeps r_ s) : Keeps r_ (State.startCounts s lane start) := by
  unfold State.startCounts
  repeat' with_reducible first
    | assumption
    | exact Keeps.refl _
    | apply State.bump_keeps
    | apply Keeps.foldl
    | apply Keeps.foldl_snd
    | dsimp only
    | split
    | (refine Keeps.of_some (by assumption) ?_)
    | (refine Keeps.of_snd (by assumption) ?_)
    | (refine Keeps.of_snd_snd (by assumption) ?_)
    | (intro _ _ _; beta_reduce)
    | (fail_if_no_progress apply Keeps.other)
    | intro _

theorem State.unitLevel_keeps {r_ : State} (s : State) (ch : Nat) (level : Nat) (h_ : Keeps r_ s) : Keeps r_ (State.unitLevel s ch level) := by
  unfold State.unitLevel
  repeat' with_reducible first
    | assumption
    | exact Keeps.refl _
    | apply State.setReg_keeps
    | apply Keeps.foldl
    | apply Keeps.foldl_snd
    | dsimp only
    | split
    | (refine Keeps.of_some (by assumption) ?_)
    | (refine Keeps.of_snd (by assumption) ?_)
    | (refine Keeps.of_snd_snd (by assumption) ?_)
    | (intro _ _ _; beta_reduce)
    | (fail_if_no_progress apply Keeps.other)
    | intro _

theorem State.addFrame_keeps {r_ : State} (s : State) (f : Frame) (h_ : Keeps r_ s) : Keeps r_ (State.addFrame s f) := by
  unfold State.addFrame
  repeat' with_reducible first
    | assumption
    | exact Keeps.refl _
    | apply State.setReg_keeps
    | apply Keeps.foldl
    | apply Keeps.foldl_snd
    | dsimp only
    | split
    | (refine Keeps.of_some (by assumption) ?_)
    | (refine Keeps.of_snd (by assumption) ?_)
    | (refine Keeps.of_snd_snd (by assumption) ?_)
    | (intro _ _ _; beta_reduce)
    | (fail_if_no_progress apply Keeps.other)
    | intro _

theorem State.failFrame_keeps {r_ : State} (s : State) (f : Frame) (r : RxFail) (octets : List Octet) (h_ : Keeps r_ s) : Keeps r_ (State.failFrame s f r octets) := by
  unfold State.failFrame
  repeat' with_reducible first
    | assumption
    | exact Keeps.refl _
    | apply State.setFrame_keeps
    | apply State.undo_keeps
    | apply Keeps.foldl
    | apply Keeps.foldl_snd
    | dsimp only
    | split
    | (refine Keeps.of_some (by assumption) ?_)
    | (refine Keeps.of_snd (by assumption) ?_)
    | (refine Keeps.of_snd_snd (by assumption) ?_)
    | (intro _ _ _; beta_reduce)
    | (fail_if_no_progress apply Keeps.other)
    | intro _

theorem State.wholeStart_keeps {r_ : State} (s : State) (ch : Nat) (start : StartInput) (crossing : Nat) (h_ : Keeps r_ s) : Keeps r_ (State.wholeStart s ch start crossing) := by
  unfold State.wholeStart
  extract_lets +onlyGivenNames f_0 s1_1
  try clear_value f_0
  have h_s1_1 : Keeps r_ s1_1 := by
    unfold s1_1
    repeat' with_reducible first
      | assumption
      | exact Keeps.refl _
      | apply State.unitLevel_keeps
      | apply State.addFrame_keeps
      | apply State.failFrame_keeps
      | apply Keeps.foldl
      | apply Keeps.foldl_snd
      | dsimp only
      | split
      | (refine Keeps.of_some (by assumption) ?_)
      | (refine Keeps.of_snd (by assumption) ?_)
      | (refine Keeps.of_snd_snd (by assumption) ?_)
      | (intro _ _ _; beta_reduce)
      | (fail_if_no_progress apply Keeps.other)
      | intro _
  clear_value s1_1
  repeat' with_reducible first
    | assumption
    | exact Keeps.refl _
    | apply State.unitLevel_keeps
    | apply State.addFrame_keeps
    | apply State.failFrame_keeps
    | apply Keeps.foldl
    | apply Keeps.foldl_snd
    | dsimp only
    | split
    | (refine Keeps.of_some (by assumption) ?_)
    | (refine Keeps.of_snd (by assumption) ?_)
    | (refine Keeps.of_snd_snd (by assumption) ?_)
    | (intro _ _ _; beta_reduce)
    | (fail_if_no_progress apply Keeps.other)
    | intro _

theorem execRxFrameStart_keeps {r_ : State} (ch : Nat) (start : StartInput) (crossing : Nat) (s : State) (h_ : Keeps r_ s) : KeepsNext r_ (execRxFrameStart ch start crossing s) := by
  unfold execRxFrameStart
  repeat' with_reducible first
    | assumption
    | exact Keeps.refl _
    | apply KeepsNext.next
    | apply KeepsNext.refused
    | apply State.bump_keeps
    | apply State.wake_keeps
    | apply State.lit_keeps
    | apply State.deliverTo_keeps
    | apply State.startCounts_keeps
    | apply State.unitLevel_keeps
    | apply State.wholeStart_keeps
    | apply Keeps.foldl
    | apply Keeps.foldl_snd
    | dsimp only
    | split
    | (refine Keeps.of_some (by assumption) ?_)
    | (refine Keeps.of_snd (by assumption) ?_)
    | (refine Keeps.of_snd_snd (by assumption) ?_)
    | (intro _ _ _; beta_reduce)
    | (fail_if_no_progress apply Keeps.other)
    | intro _

theorem State.parseFrame_keeps {r_ : State} (s : State) (f : Frame) (h_ : Keeps r_ s) : Keeps r_ (State.parseFrame s f) := by
  unfold State.parseFrame
  repeat' with_reducible first
    | assumption
    | exact Keeps.refl _
    | apply State.setFrame_keeps
    | apply Keeps.foldl
    | apply Keeps.foldl_snd
    | dsimp only
    | split
    | (refine Keeps.of_some (by assumption) ?_)
    | (refine Keeps.of_snd (by assumption) ?_)
    | (refine Keeps.of_snd_snd (by assumption) ?_)
    | (intro _ _ _; beta_reduce)
    | (fail_if_no_progress apply Keeps.other)
    | intro _

theorem State.dropContext_keeps {r_ : State} (s : State) (r : RxFail) (c : AsmCtx) (h_ : Keeps r_ s) : Keeps r_ (State.dropContext s r c) := by
  unfold State.dropContext
  repeat' with_reducible first
    | assumption
    | exact Keeps.refl _
    | apply State.failFrame_keeps
    | apply Keeps.foldl
    | apply Keeps.foldl_snd
    | dsimp only
    | split
    | (refine Keeps.of_some (by assumption) ?_)
    | (refine Keeps.of_snd (by assumption) ?_)
    | (refine Keeps.of_snd_snd (by assumption) ?_)
    | (intro _ _ _; beta_reduce)
    | (fail_if_no_progress apply Keeps.other)
    | intro _

theorem State.dropContexts_keeps {r_ : State} (s : State) (ch : Nat) (r : RxFail) (p : AsmCtx → Bool) (h_ : Keeps r_ s) : Keeps r_ (State.dropContexts s ch r p) := by
  unfold State.dropContexts
  repeat' with_reducible first
    | assumption
    | exact Keeps.refl _
    | apply State.dropContext_keeps
    | apply Keeps.foldl
    | apply Keeps.foldl_snd
    | dsimp only
    | split
    | (refine Keeps.of_some (by assumption) ?_)
    | (refine Keeps.of_snd (by assumption) ?_)
    | (refine Keeps.of_snd_snd (by assumption) ?_)
    | (intro _ _ _; beta_reduce)
    | (fail_if_no_progress apply Keeps.other)
    | intro _

theorem State.fragErr_keeps {r_ : State} (s : State) (ch : Nat) (i : Nat) (n : Nat) (h_ : Keeps r_ s) : Keeps r_ (State.fragErr s ch i n) := by
  unfold State.fragErr
  repeat' with_reducible first
    | assumption
    | exact Keeps.refl _
    | apply State.bump_keeps
    | apply State.latch_keeps
    | apply Keeps.foldl
    | apply Keeps.foldl_snd
    | dsimp only
    | split
    | (refine Keeps.of_some (by assumption) ?_)
    | (refine Keeps.of_snd (by assumption) ?_)
    | (refine Keeps.of_snd_snd (by assumption) ?_)
    | (intro _ _ _; beta_reduce)
    | (fail_if_no_progress apply Keeps.other)
    | intro _

theorem State.inversions_keeps {r_ : State} (s : State) (ch : Nat) (level : Nat) (h_ : Keeps r_ s) : Keeps r_ (State.inversions s ch level) := by
  unfold State.inversions
  extract_lets +onlyGivenNames n_0
  try clear_value n_0
  repeat' with_reducible first
    | assumption
    | exact Keeps.refl _
    | apply State.dropContexts_keeps
    | apply State.fragErr_keeps
    | apply Keeps.foldl
    | apply Keeps.foldl_snd
    | dsimp only
    | split
    | (refine Keeps.of_some (by assumption) ?_)
    | (refine Keeps.of_snd (by assumption) ?_)
    | (refine Keeps.of_snd_snd (by assumption) ?_)
    | (intro _ _ _; beta_reduce)
    | (fail_if_no_progress apply Keeps.other)
    | intro _

theorem State.lostContext_keeps {r_ : State} (s : State) (ch : Nat) (level : Nat) (h_ : Keeps r_ s) : Keeps r_ (State.lostContext s ch level) := by
  unfold State.lostContext
  repeat' with_reducible first
    | assumption
    | exact Keeps.refl _
    | apply State.dropContexts_keeps
    | apply State.fragErr_keeps
    | apply Keeps.foldl
    | apply Keeps.foldl_snd
    | dsimp only
    | split
    | (refine Keeps.of_some (by assumption) ?_)
    | (refine Keeps.of_snd (by assumption) ?_)
    | (refine Keeps.of_snd_snd (by assumption) ?_)
    | (intro _ _ _; beta_reduce)
    | (fail_if_no_progress apply Keeps.other)
    | intro _

theorem State.fifoTo_keeps {r_ : State} (s : State) (lane : Nat) (t : Nat) (h_ : Keeps r_ s) : Keeps r_ (State.fifoTo s lane t) := by
  unfold State.fifoTo
  repeat' with_reducible first
    | assumption
    | exact Keeps.refl _
    | apply State.setReg_keeps
    | apply Keeps.foldl
    | apply Keeps.foldl_snd
    | dsimp only
    | split
    | (refine Keeps.of_some (by assumption) ?_)
    | (refine Keeps.of_snd (by assumption) ?_)
    | (refine Keeps.of_snd_snd (by assumption) ?_)
    | (intro _ _ _; beta_reduce)
    | (fail_if_no_progress apply Keeps.other)
    | intro _

theorem State.giveRoom_keeps {r_ : State} (s : State) (ch : Nat) (n : Nat) (behind : Nat) (h_ : Keeps r_ s) : Keeps r_ (State.giveRoom s ch n behind).2 := by
  unfold State.giveRoom
  extract_lets +onlyGivenNames lane_0 rate_1 done_2 s1_3 s2_4
  try clear_value lane_0
  try clear_value rate_1
  try clear_value done_2
  have h_s1_3 : Keeps r_ s1_3 := by
    unfold s1_3
    repeat' with_reducible first
      | assumption
      | exact Keeps.refl _
      | apply State.setReg_keeps
      | apply State.fifoTo_keeps
      | apply Keeps.foldl
      | apply Keeps.foldl_snd
      | dsimp only
      | split
      | (refine Keeps.of_some (by assumption) ?_)
      | (refine Keeps.of_snd (by assumption) ?_)
      | (refine Keeps.of_snd_snd (by assumption) ?_)
      | (intro _ _ _; beta_reduce)
      | (fail_if_no_progress apply Keeps.other)
      | intro _
  clear_value s1_3
  have h_s2_4 : Keeps r_ s2_4 := by
    unfold s2_4
    repeat' with_reducible first
      | assumption
      | exact Keeps.refl _
      | apply State.setReg_keeps
      | apply State.fifoTo_keeps
      | apply Keeps.foldl
      | apply Keeps.foldl_snd
      | dsimp only
      | split
      | (refine Keeps.of_some (by assumption) ?_)
      | (refine Keeps.of_snd (by assumption) ?_)
      | (refine Keeps.of_snd_snd (by assumption) ?_)
      | (intro _ _ _; beta_reduce)
      | (fail_if_no_progress apply Keeps.other)
      | intro _
  clear_value s2_4
  repeat' with_reducible first
    | assumption
    | exact Keeps.refl _
    | apply State.setReg_keeps
    | apply State.fifoTo_keeps
    | apply Keeps.foldl
    | apply Keeps.foldl_snd
    | dsimp only
    | split
    | (refine Keeps.of_some (by assumption) ?_)
    | (refine Keeps.of_snd (by assumption) ?_)
    | (refine Keeps.of_snd_snd (by assumption) ?_)
    | (intro _ _ _; beta_reduce)
    | (fail_if_no_progress apply Keeps.other)
    | intro _

theorem State.fecCounts_keeps {r_ : State} (s : State) (lane : Nat) (good : Nat) (bad : Nat) (h_ : Keeps r_ s) : Keeps r_ (State.fecCounts s lane good bad) := by
  unfold State.fecCounts
  repeat' with_reducible first
    | assumption
    | exact Keeps.refl _
    | apply State.bump_keeps
    | apply Keeps.foldl
    | apply Keeps.foldl_snd
    | dsimp only
    | split
    | (refine Keeps.of_some (by assumption) ?_)
    | (refine Keeps.of_snd (by assumption) ?_)
    | (refine Keeps.of_snd_snd (by assumption) ?_)
    | (intro _ _ _; beta_reduce)
    | (fail_if_no_progress apply Keeps.other)
    | intro _

theorem State.cellCounts_keeps {r_ : State} (s : State) (lane : Nat) (cell : CellInput) (h_ : Keeps r_ s) : Keeps r_ (State.cellCounts s lane cell) := by
  unfold State.cellCounts
  extract_lets +onlyGivenNames u_0 s1_1
  try clear_value u_0
  have h_s1_1 : Keeps r_ s1_1 := by
    unfold s1_1
    repeat' with_reducible first
      | assumption
      | exact Keeps.refl _
      | apply State.bump_keeps
      | apply State.fecCounts_keeps
      | apply Keeps.foldl
      | apply Keeps.foldl_snd
      | dsimp only
      | split
      | (refine Keeps.of_some (by assumption) ?_)
      | (refine Keeps.of_snd (by assumption) ?_)
      | (refine Keeps.of_snd_snd (by assumption) ?_)
      | (intro _ _ _; beta_reduce)
      | (fail_if_no_progress apply Keeps.other)
      | intro _
  clear_value s1_1
  repeat' with_reducible first
    | assumption
    | exact Keeps.refl _
    | apply State.bump_keeps
    | apply State.fecCounts_keeps
    | apply Keeps.foldl
    | apply Keeps.foldl_snd
    | dsimp only
    | split
    | (refine Keeps.of_some (by assumption) ?_)
    | (refine Keeps.of_snd (by assumption) ?_)
    | (refine Keeps.of_snd_snd (by assumption) ?_)
    | (intro _ _ _; beta_reduce)
    | (fail_if_no_progress apply Keeps.other)
    | intro _

theorem State.headerSeen_keeps {r_ : State} (s : State) (f : Frame) (before : Nat) (h_ : Keeps r_ s) : Keeps r_ (State.headerSeen s f before) := by
  unfold State.headerSeen
  repeat' with_reducible first
    | assumption
    | exact Keeps.refl _
    | apply State.inversions_keeps
    | apply State.lostContext_keeps
    | apply Keeps.foldl
    | apply Keeps.foldl_snd
    | dsimp only
    | split
    | (refine Keeps.of_some (by assumption) ?_)
    | (refine Keeps.of_snd (by assumption) ?_)
    | (refine Keeps.of_snd_snd (by assumption) ?_)
    | (intro _ _ _; beta_reduce)
    | (fail_if_no_progress apply Keeps.other)
    | intro _

theorem State.takeCell_keeps {r_ : State} (s : State) (f : Frame) (cell : CellInput) (behind : Nat) (h_ : Keeps r_ s) : Keeps r_ (State.takeCell s f cell behind) := by
  unfold State.takeCell
  repeat' with_reducible first
    | assumption
    | exact Keeps.refl _
    | apply State.setFrame_keeps
    | apply State.charged_keeps
    | apply State.earlyWrites_keeps
    | apply State.failFrame_keeps
    | apply State.parseFrame_keeps
    | apply State.giveRoom_keeps
    | apply State.headerSeen_keeps
    | apply Keeps.foldl
    | apply Keeps.foldl_snd
    | dsimp only
    | split
    | (refine Keeps.of_some (by assumption) ?_)
    | (refine Keeps.of_snd (by assumption) ?_)
    | (refine Keeps.of_snd_snd (by assumption) ?_)
    | (intro _ _ _; beta_reduce)
    | (fail_if_no_progress apply Keeps.other)
    | intro _

theorem State.cellLevel_keeps {r_ : State} (s : State) (ch : Nat) (cell : CellInput) (h_ : Keeps r_ s) : Keeps r_ (State.cellLevel s ch cell) := by
  unfold State.cellLevel
  repeat' with_reducible first
    | assumption
    | exact Keeps.refl _
    | apply State.unitLevel_keeps
    | apply Keeps.foldl
    | apply Keeps.foldl_snd
    | dsimp only
    | split
    | (refine Keeps.of_some (by assumption) ?_)
    | (refine Keeps.of_snd (by assumption) ?_)
    | (refine Keeps.of_snd_snd (by assumption) ?_)
    | (intro _ _ _; beta_reduce)
    | (fail_if_no_progress apply Keeps.other)
    | intro _

theorem execRxCell_keeps {r_ : State} (ch : Nat) (cell : CellInput) (s : State) (h_ : Keeps r_ s) : KeepsNext r_ (execRxCell ch cell s) := by
  unfold execRxCell
  repeat' with_reducible first
    | assumption
    | exact Keeps.refl _
    | apply KeepsNext.next
    | apply KeepsNext.refused
    | apply gathered_keeps
    | apply State.cellCounts_keeps
    | apply State.takeCell_keeps
    | apply State.cellLevel_keeps
    | apply Keeps.foldl
    | apply Keeps.foldl_snd
    | dsimp only
    | split
    | (refine Keeps.of_some (by assumption) ?_)
    | (refine Keeps.of_snd (by assumption) ?_)
    | (refine Keeps.of_snd_snd (by assumption) ?_)
    | (intro _ _ _; beta_reduce)
    | (fail_if_no_progress apply Keeps.other)
    | intro _

theorem State.feed_keeps {r_ : State} (s : State) (id : Nat) (final : Bool) (err : Option Nat) (l : List (List Octet)) (h_ : Keeps r_ s) : Keeps r_ (State.feed s id final err l) := by
  induction l generalizing s err with
  | nil => exact h_
  | cons x_ t_ ih =>
    unfold State.feed
    repeat' with_reducible first
      | assumption
      | exact Keeps.refl _
      | apply ih
      | apply State.takeCell_keeps
      | apply Keeps.foldl
      | apply Keeps.foldl_snd
      | dsimp only
      | split
      | (refine Keeps.of_some (by assumption) ?_)
      | (refine Keeps.of_snd (by assumption) ?_)
      | (refine Keeps.of_snd_snd (by assumption) ?_)
      | (intro _ _ _; beta_reduce)
      | (fail_if_no_progress apply Keeps.other)
      | intro _

theorem State.tailCheck_keeps {r_ : State} (s : State) (f : Frame) (p : List Octet) (err : Option Nat) (h_ : Keeps r_ s) : Keeps r_ (State.tailCheck s f p err) := by
  unfold State.tailCheck
  extract_lets +onlyGivenNames fm_0
  try clear_value fm_0
  repeat' with_reducible first
    | assumption
    | exact Keeps.refl _
    | apply State.failFrame_keeps
    | apply Keeps.foldl
    | apply Keeps.foldl_snd
    | dsimp only
    | split
    | (refine Keeps.of_some (by assumption) ?_)
    | (refine Keeps.of_snd (by assumption) ?_)
    | (refine Keeps.of_snd_snd (by assumption) ?_)
    | (intro _ _ _; beta_reduce)
    | (fail_if_no_progress apply Keeps.other)
    | intro _

theorem State.handOn_keeps {r_ : State} (s : State) (c : AsmCtx) (final : Bool) (err : Option Nat) (h_ : Keeps r_ s) : Keeps r_ (State.handOn s c final err) := by
  unfold State.handOn
  repeat' with_reducible first
    | assumption
    | exact Keeps.refl _
    | apply State.feed_keeps
    | apply State.tailCheck_keeps
    | apply Keeps.foldl
    | apply Keeps.foldl_snd
    | dsimp only
    | split
    | (refine Keeps.of_some (by assumption) ?_)
    | (refine Keeps.of_snd (by assumption) ?_)
    | (refine Keeps.of_snd_snd (by assumption) ?_)
    | (intro _ _ _; beta_reduce)
    | (fail_if_no_progress apply Keeps.other)
    | intro _

theorem State.setAsm_keeps {r_ : State} (s : State) (c : AsmCtx) (h_ : Keeps r_ s) : Keeps r_ (State.setAsm s c) := by
  unfold State.setAsm
  repeat' with_reducible first
    | assumption
    | exact Keeps.refl _
    | apply Keeps.foldl
    | apply Keeps.foldl_snd
    | dsimp only
    | split
    | (refine Keeps.of_some (by assumption) ?_)
    | (refine Keeps.of_snd (by assumption) ?_)
    | (refine Keeps.of_snd_snd (by assumption) ?_)
    | (intro _ _ _; beta_reduce)
    | (fail_if_no_progress apply Keeps.other)
    | intro _

theorem State.fragEnd_keeps {r_ : State} (s : State) (c : AsmCtx) (e : List Octet) (err : Option Nat) (h_ : Keeps r_ s) : Keeps r_ (State.fragEnd s c e err) := by
  unfold State.fragEnd
  repeat' with_reducible first
    | assumption
    | exact Keeps.refl _
    | apply State.handOn_keeps
    | apply State.setAsm_keeps
    | apply Keeps.foldl
    | apply Keeps.foldl_snd
    | dsimp only
    | split
    | (refine Keeps.of_some (by assumption) ?_)
    | (refine Keeps.of_snd (by assumption) ?_)
    | (refine Keeps.of_snd_snd (by assumption) ?_)
    | (intro _ _ _; beta_reduce)
    | (fail_if_no_progress apply Keeps.other)
    | intro _

theorem State.openAsm_keeps {r_ : State} (s : State) (c : AsmCtx) (time : Nat × Nat) (cut : Bool) (e : List Octet) (err : Option Nat) (h_ : Keeps r_ s) : Keeps r_ (State.openAsm s c time cut e err) := by
  unfold State.openAsm
  extract_lets +onlyGivenNames f_0
  try clear_value f_0
  repeat' with_reducible first
    | assumption
    | exact Keeps.refl _
    | apply State.addFrame_keeps
    | apply State.fragEnd_keeps
    | apply Keeps.foldl
    | apply Keeps.foldl_snd
    | dsimp only
    | split
    | (refine Keeps.of_some (by assumption) ?_)
    | (refine Keeps.of_snd (by assumption) ?_)
    | (refine Keeps.of_snd_snd (by assumption) ?_)
    | (intro _ _ _; beta_reduce)
    | (fail_if_no_progress apply Keeps.other)
    | intro _

theorem State.fabricFragment_keeps {r_ : State} (s : State) (ch : Nat) (start : List Octet) (x : FragInput) (time : Nat × Nat) (h_ : Keeps r_ s) : Keeps r_ (State.fabricFragment s ch start x time) := by
  unfold State.fabricFragment
  extract_lets +onlyGivenNames o8_0 level_1 fcnt_2 fnum_3 s0_4
  try clear_value o8_0
  try clear_value level_1
  try clear_value fcnt_2
  try clear_value fnum_3
  have h_s0_4 : Keeps r_ s0_4 := by
    unfold s0_4
    repeat' with_reducible first
      | assumption
      | exact Keeps.refl _
      | apply State.bump_keeps
      | apply State.fragErr_keeps
      | apply State.inversions_keeps
      | apply State.lostContext_keeps
      | apply State.fragEnd_keeps
      | apply State.openAsm_keeps
      | apply Keeps.foldl
      | apply Keeps.foldl_snd
      | dsimp only
      | split
      | (refine Keeps.of_some (by assumption) ?_)
      | (refine Keeps.of_snd (by assumption) ?_)
      | (refine Keeps.of_snd_snd (by assumption) ?_)
      | (intro _ _ _; beta_reduce)
      | (fail_if_no_progress apply Keeps.other)
      | intro _
  clear_value s0_4
  repeat' with_reducible first
    | assumption
    | exact Keeps.refl _
    | apply State.bump_keeps
    | apply State.fragErr_keeps
    | apply State.inversions_keeps
    | apply State.lostContext_keeps
    | apply State.fragEnd_keeps
    | apply State.openAsm_keeps
    | apply Keeps.foldl
    | apply Keeps.foldl_snd
    | dsimp only
    | split
    | (refine Keeps.of_some (by assumption) ?_)
    | (refine Keeps.of_snd (by assumption) ?_)
    | (refine Keeps.of_snd_snd (by assumption) ?_)
    | (intro _ _ _; beta_reduce)
    | (fail_if_no_progress apply Keeps.other)
    | intro _

theorem execFabricFragmentRx_keeps {r_ : State} (ch : Nat) (start : List Octet) (frag : FragInput) (crossing : Nat) (s : State) (h_ : Keeps r_ s) : KeepsNext r_ (execFabricFragmentRx ch start frag crossing s) := by
  unfold execFabricFragmentRx
  repeat' with_reducible first
    | assumption
    | exact Keeps.refl _
    | apply KeepsNext.next
    | apply KeepsNext.refused
    | apply State.bump_keeps
    | apply State.unitLevel_keeps
    | apply State.fecCounts_keeps
    | apply State.fabricFragment_keeps
    | apply Keeps.foldl
    | apply Keeps.foldl_snd
    | dsimp only
    | split
    | (refine Keeps.of_some (by assumption) ?_)
    | (refine Keeps.of_snd (by assumption) ?_)
    | (refine Keeps.of_snd_snd (by assumption) ?_)
    | (intro _ _ _; beta_reduce)
    | (fail_if_no_progress apply Keeps.other)
    | intro _

theorem State.mergeReject_keeps {r_ : State} (s : State) (ch : Nat) (smd : Bool) (h_ : Keeps r_ s) : Keeps r_ (State.mergeReject s ch smd) := by
  unfold State.mergeReject
  repeat' with_reducible first
    | assumption
    | exact Keeps.refl _
    | apply State.bump_keeps
    | apply State.dropContexts_keeps
    | apply Keeps.foldl
    | apply Keeps.foldl_snd
    | dsimp only
    | split
    | (refine Keeps.of_some (by assumption) ?_)
    | (refine Keeps.of_snd (by assumption) ?_)
    | (refine Keeps.of_snd_snd (by assumption) ?_)
    | (intro _ _ _; beta_reduce)
    | (fail_if_no_progress apply Keeps.other)
    | intro _

theorem State.mergeFragment_keeps {r_ : State} (s : State) (ch : Nat) (start : List Octet) (x : FragInput) (time : Nat × Nat) (h_ : Keeps r_ s) : Keeps r_ (State.mergeFragment s ch start x time) := by
  unfold State.mergeFragment
  extract_lets +onlyGivenNames fresh_0 cut_1 s0_2
  try clear_value fresh_0
  try clear_value cut_1
  have h_s0_2 : Keeps r_ s0_2 := by
    unfold s0_2
    repeat' with_reducible first
      | assumption
      | exact Keeps.refl _
      | apply State.bump_keeps
      | apply State.fragEnd_keeps
      | apply State.openAsm_keeps
      | apply State.mergeReject_keeps
      | apply Keeps.foldl
      | apply Keeps.foldl_snd
      | dsimp only
      | split
      | (refine Keeps.of_some (by assumption) ?_)
      | (refine Keeps.of_snd (by assumption) ?_)
      | (refine Keeps.of_snd_snd (by assumption) ?_)
      | (intro _ _ _; beta_reduce)
      | (fail_if_no_progress apply Keeps.other)
      | intro _
  clear_value s0_2
  repeat' with_reducible first
    | assumption
    | exact Keeps.refl _
    | apply State.bump_keeps
    | apply State.fragEnd_keeps
    | apply State.openAsm_keeps
    | apply State.mergeReject_keeps
    | apply Keeps.foldl
    | apply Keeps.foldl_snd
    | dsimp only
    | split
    | (refine Keeps.of_some (by assumption) ?_)
    | (refine Keeps.of_snd (by assumption) ?_)
    | (refine Keeps.of_snd_snd (by assumption) ?_)
    | (intro _ _ _; beta_reduce)
    | (fail_if_no_progress apply Keeps.other)
    | intro _

theorem execMmFragmentRx_keeps {r_ : State} (ch : Nat) (start : List Octet) (frag : FragInput) (crossing : Nat) (s : State) (h_ : Keeps r_ s) : KeepsNext r_ (execMmFragmentRx ch start frag crossing s) := by
  unfold execMmFragmentRx
  repeat' with_reducible first
    | assumption
    | exact Keeps.refl _
    | apply KeepsNext.next
    | apply KeepsNext.refused
    | apply State.bump_keeps
    | apply State.fecCounts_keeps
    | apply State.mergeFragment_keeps
    | apply Keeps.foldl
    | apply Keeps.foldl_snd
    | dsimp only
    | split
    | (refine Keeps.of_some (by assumption) ?_)
    | (refine Keeps.of_snd (by assumption) ?_)
    | (refine Keeps.of_snd_snd (by assumption) ?_)
    | (intro _ _ _; beta_reduce)
    | (fail_if_no_progress apply Keeps.other)
    | intro _

theorem execFragTimeout_keeps {r_ : State} (ch : Nat) (level : Nat) (s : State) (h_ : Keeps r_ s) : KeepsNext r_ (execFragTimeout ch level s) := by
  unfold execFragTimeout
  repeat' with_reducible first
    | assumption
    | exact Keeps.refl _
    | apply KeepsNext.next
    | apply KeepsNext.refused
    | apply State.dropContexts_keeps
    | apply State.fragErr_keeps
    | apply Keeps.foldl
    | apply Keeps.foldl_snd
    | dsimp only
    | split
    | (refine Keeps.of_some (by assumption) ?_)
    | (refine Keeps.of_snd (by assumption) ?_)
    | (refine Keeps.of_snd_snd (by assumption) ?_)
    | (intro _ _ _; beta_reduce)
    | (fail_if_no_progress apply Keeps.other)
    | intro _

theorem State.commitFrame_keeps {r_ : State} (s : State) (f : Frame) (h_ : Keeps r_ s) : Keeps r_ (State.commitFrame s f) := by
  unfold State.commitFrame
  repeat' with_reducible first
    | assumption
    | exact Keeps.refl _
    | apply State.setFrame_keeps
    | apply Keeps.foldl
    | apply Keeps.foldl_snd
    | dsimp only
    | split
    | (refine Keeps.of_some (by assumption) ?_)
    | (refine Keeps.of_snd (by assumption) ?_)
    | (refine Keeps.of_snd_snd (by assumption) ?_)
    | (intro _ _ _; beta_reduce)
    | (fail_if_no_progress apply Keeps.other)
    | intro _

theorem State.giveUp_keeps {r_ : State} (s : State) (f : Frame) (use : FrameUse) (owed : List Owed) (h_ : Keeps r_ s) : Keeps r_ (State.giveUp s f use owed) := by
  unfold State.giveUp
  extract_lets +onlyGivenNames s1_0
  have h_s1_0 : Keeps r_ s1_0 := by
    unfold s1_0
    repeat' with_reducible first
      | assumption
      | exact Keeps.refl _
      | apply State.drainCheck_keeps
      | apply State.keepBuffer_keeps
      | apply State.commitFrame_keeps
      | apply Keeps.foldl
      | apply Keeps.foldl_snd
      | dsimp only
      | split
      | (refine Keeps.of_some (by assumption) ?_)
      | (refine Keeps.of_snd (by assumption) ?_)
      | (refine Keeps.of_snd_snd (by assumption) ?_)
      | (intro _ _ _; beta_reduce)
      | (fail_if_no_progress apply Keeps.other)
      | intro _
  clear_value s1_0
  repeat' with_reducible first
    | assumption
    | exact Keeps.refl _
    | apply State.drainCheck_keeps
    | apply State.keepBuffer_keeps
    | apply State.commitFrame_keeps
    | apply Keeps.foldl
    | apply Keeps.foldl_snd
    | dsimp only
    | split
    | (refine Keeps.of_some (by assumption) ?_)
    | (refine Keeps.of_snd (by assumption) ?_)
    | (refine Keeps.of_snd_snd (by assumption) ?_)
    | (intro _ _ _; beta_reduce)
    | (fail_if_no_progress apply Keeps.other)
    | intro _

theorem State.commitSums_keeps {r_ : State} (s : State) (f : Frame) (k : Key) (h_ : Keeps r_ s) : Keeps r_ (State.commitSums s f k) := by
  unfold State.commitSums
  extract_lets +onlyGivenNames l3_0 skip_1
  try clear_value l3_0
  try clear_value skip_1
  repeat' with_reducible first
    | assumption
    | exact Keeps.refl _
    | apply State.commitFrame_keeps
    | apply Keeps.foldl
    | apply Keeps.foldl_snd
    | dsimp only
    | split
    | (refine Keeps.of_some (by assumption) ?_)
    | (refine Keeps.of_snd (by assumption) ?_)
    | (refine Keeps.of_snd_snd (by assumption) ?_)
    | (intro _ _ _; beta_reduce)
    | (fail_if_no_progress apply Keeps.other)
    | intro _

theorem State.passFrame_keeps {r_ : State} (s : State) (f0 : Frame) (h_ : Keeps r_ s) : Keeps r_ (State.passFrame s f0) := by
  unfold State.passFrame
  extract_lets +onlyGivenNames f_0
  try clear_value f_0
  repeat' with_reducible first
    | assumption
    | exact Keeps.refl _
    | apply State.parseFrame_keeps
    | apply State.commitFrame_keeps
    | apply State.giveUp_keeps
    | apply State.commitSums_keeps
    | apply Keeps.foldl
    | apply Keeps.foldl_snd
    | dsimp only
    | split
    | (refine Keeps.of_some (by assumption) ?_)
    | (refine Keeps.of_snd (by assumption) ?_)
    | (refine Keeps.of_snd_snd (by assumption) ?_)
    | (intro _ _ _; beta_reduce)
    | (fail_if_no_progress apply Keeps.other)
    | intro _

theorem execCommitPoint_keeps {r_ : State} (ep : Nat) (s : State) (h_ : Keeps r_ s) : KeepsNext r_ (execCommitPoint ep s) := by
  unfold execCommitPoint
  repeat' with_reducible first
    | assumption
    | exact Keeps.refl _
    | apply KeepsNext.next
    | apply KeepsNext.refused
    | apply gathered_keeps
    | apply State.undo_keeps
    | apply State.earlyWrites_keeps
    | apply State.passEntry_keeps
    | apply State.pump_keeps
    | apply State.passFrame_keeps
    | apply Keeps.foldl
    | apply Keeps.foldl_snd
    | dsimp only
    | split
    | (refine Keeps.of_some (by assumption) ?_)
    | (refine Keeps.of_snd (by assumption) ?_)
    | (refine Keeps.of_snd_snd (by assumption) ?_)
    | (intro _ _ _; beta_reduce)
    | (fail_if_no_progress apply Keeps.other)
    | intro _

end Sys2Proof.Machine
end

