-- ==== Sys2Proof/Laws/KeepsDecide.lean ====
section
/-! SUPPORT. What the operations of Decide.lean keep (Keeps.lean). -/
set_option linter.unusedTactic false
set_option linter.unreachableTactic false
namespace Sys2Proof.Machine

theorem State.flowVoid_keeps {r_ : State} (s : State) (w : Nat) (h_ : Keeps r_ s) : Keeps r_ (State.flowVoid s w) := by
  unfold State.flowVoid
  repeat' with_reducible first
    | assumption
    | exact Keeps.refl _
    | apply State.setEnt_keeps
    | apply Keeps.foldl
    | apply Keeps.foldl_snd
    | dsimp only
    | split
    | (refine Keeps.of_some (by assumption) ?_)
    | (refine Keeps.of_snd (by assumption) ?_)
    | (refine Keeps.of_snd_snd (by assumption) ?_)
    | (intro _ _ _; beta_reduce)
    | (fail_if_no_progress apply Keeps.other)
    | intro _

theorem execKeyPresent_keeps {r_ : State} (s : State) (h_ : Keeps r_ s) : KeepsNext r_ (execKeyPresent s) := by
  unfold execKeyPresent
  repeat' with_reducible first
    | assumption
    | exact Keeps.refl _
    | apply KeepsNext.next
    | apply KeepsNext.refused
    | apply State.setFrame_keeps
    | apply State.decide_keeps
    | apply Keeps.foldl
    | apply Keeps.foldl_snd
    | dsimp only
    | split
    | (refine Keeps.of_some (by assumption) ?_)
    | (refine Keeps.of_snd (by assumption) ?_)
    | (refine Keeps.of_snd_snd (by assumption) ?_)
    | (intro _ _ _; beta_reduce)
    | (fail_if_no_progress apply Keeps.other)
    | intro _

theorem State.placeCopy_keeps {r_ : State} (s : State) (c : Copy) (h_ : Keeps r_ s) : Keeps r_ (State.placeCopy s c) := by
  unfold State.placeCopy
  repeat' with_reducible first
    | assumption
    | exact Keeps.refl _
    | apply Keeps.foldl
    | apply Keeps.foldl_snd
    | dsimp only
    | split
    | (refine Keeps.of_some (by assumption) ?_)
    | (refine Keeps.of_snd (by assumption) ?_)
    | (refine Keeps.of_snd_snd (by assumption) ?_)
    | (intro _ _ _; beta_reduce)
    | (fail_if_no_progress apply Keeps.other)
    | intro _

theorem State.holdDrop_keeps {r_ : State} (s : State) (id : Nat) (q : Nat) (marked : Bool) (h_ : Keeps r_ s) : Keeps r_ (State.holdDrop s id q marked) := by
  unfold State.holdDrop
  repeat' with_reducible first
    | assumption
    | exact Keeps.refl _
    | apply Keeps.foldl
    | apply Keeps.foldl_snd
    | dsimp only
    | split
    | (refine Keeps.of_some (by assumption) ?_)
    | (refine Keeps.of_snd (by assumption) ?_)
    | (refine Keeps.of_snd_snd (by assumption) ?_)
    | (intro _ _ _; beta_reduce)
    | (fail_if_no_progress apply Keeps.other)
    | intro _

theorem State.place_keeps {r_ : State} (s : State) (id : Nat) (d : Decision) (t : Target) (h_ : Keeps r_ s) : Keeps r_ (State.place s id d t) := by
  unfold State.place
  extract_lets +onlyGivenNames q_0 marked_1
  try clear_value q_0
  try clear_value marked_1
  repeat' with_reducible first
    | assumption
    | exact Keeps.refl _
    | apply State.placeCopy_keeps
    | apply State.holdDrop_keeps
    | apply Keeps.foldl
    | apply Keeps.foldl_snd
    | dsimp only
    | split
    | (refine Keeps.of_some (by assumption) ?_)
    | (refine Keeps.of_snd (by assumption) ?_)
    | (refine Keeps.of_snd_snd (by assumption) ?_)
    | (intro _ _ _; beta_reduce)
    | (fail_if_no_progress apply Keeps.other)
    | intro _

theorem State.placeHost_keeps {r_ : State} (s : State) (id : Nat) (d : Decision) (r : Nat × Bool) (h_ : Keeps r_ s) : Keeps r_ (State.placeHost s id d r) := by
  unfold State.placeHost
  extract_lets +onlyGivenNames c_0
  try clear_value c_0
  repeat' with_reducible first
    | assumption
    | exact Keeps.refl _
    | apply State.earlyWrite_keeps
    | apply State.placeCopy_keeps
    | apply Keeps.foldl
    | apply Keeps.foldl_snd
    | dsimp only
    | split
    | (refine Keeps.of_some (by assumption) ?_)
    | (refine Keeps.of_snd (by assumption) ?_)
    | (refine Keeps.of_snd_snd (by assumption) ?_)
    | (intro _ _ _; beta_reduce)
    | (fail_if_no_progress apply Keeps.other)
    | intro _

theorem State.fold_keeps {r_ : State} (s : State) (f : Frame) (d : Decision) (h_ : Keeps r_ s) : Keeps r_ (State.fold s f d) := by
  unfold State.fold
  extract_lets +onlyGivenNames code_0 t_1 g_2
  try clear_value code_0
  try clear_value t_1
  try clear_value g_2
  repeat' with_reducible first
    | assumption
    | exact Keeps.refl _
    | apply State.setFrame_keeps
    | apply State.charged_keeps
    | apply Keeps.foldl
    | apply Keeps.foldl_snd
    | dsimp only
    | split
    | (refine Keeps.of_some (by assumption) ?_)
    | (refine Keeps.of_snd (by assumption) ?_)
    | (refine Keeps.of_snd_snd (by assumption) ?_)
    | (intro _ _ _; beta_reduce)
    | (fail_if_no_progress apply Keeps.other)
    | intro _

theorem State.actionLost_keeps {r_ : State} (s : State) (contour : Bool) (i : Nat) (h_ : Keeps r_ s) : Keeps r_ (State.actionLost s contour i) := by
  unfold State.actionLost
  extract_lets +onlyGivenNames j_0
  try clear_value j_0
  repeat' with_reducible first
    | assumption
    | exact Keeps.refl _
    | apply State.bump_keeps
    | apply State.record_keeps
    | apply Keeps.foldl
    | apply Keeps.foldl_snd
    | dsimp only
    | split
    | (refine Keeps.of_some (by assumption) ?_)
    | (refine Keeps.of_snd (by assumption) ?_)
    | (refine Keeps.of_snd_snd (by assumption) ?_)
    | (intro _ _ _; beta_reduce)
    | (fail_if_no_progress apply Keeps.other)
    | intro _

theorem State.eccTable_keeps {r_ : State} (s : State) (e : EccFinding) (h_ : Keeps r_ s) : Keeps r_ (State.eccTable s e) := by
  unfold State.eccTable
  repeat' with_reducible first
    | assumption
    | exact Keeps.refl _
    | apply State.bump_keeps
    | apply State.record_keeps
    | apply State.flowVoid_keeps
    | apply State.actionLost_keeps
    | apply Keeps.foldl
    | apply Keeps.foldl_snd
    | dsimp only
    | split
    | (refine Keeps.of_some (by assumption) ?_)
    | (refine Keeps.of_snd (by assumption) ?_)
    | (refine Keeps.of_snd_snd (by assumption) ?_)
    | (intro _ _ _; beta_reduce)
    | (fail_if_no_progress apply Keeps.other)
    | intro _

theorem State.eccFound_keeps {r_ : State} (s : State) (f : Frame) (d : Decision) (e : EccFinding) (h_ : Keeps r_ s) : Keeps r_ (State.eccFound s f d e) := by
  unfold State.eccFound
  repeat' with_reducible first
    | assumption
    | exact Keeps.refl _
    | apply State.templateBad_keeps
    | apply State.actionLost_keeps
    | apply State.eccTable_keeps
    | apply Keeps.foldl
    | apply Keeps.foldl_snd
    | dsimp only
    | split
    | (refine Keeps.of_some (by assumption) ?_)
    | (refine Keeps.of_snd (by assumption) ?_)
    | (refine Keeps.of_snd_snd (by assumption) ?_)
    | (intro _ _ _; beta_reduce)
    | (fail_if_no_progress apply Keeps.other)
    | intro _

theorem execDecisionDeliver_keeps {r_ : State} (ecc : EccFinding) (s : State) (h_ : Keeps r_ s) : KeepsNext r_ (execDecisionDeliver ecc s) := by
  unfold execDecisionDeliver
  repeat' with_reducible first
    | assumption
    | exact Keeps.refl _
    | apply KeepsNext.next
    | apply KeepsNext.refused
    | apply State.setFrame_keeps
    | apply gathered_keeps
    | apply State.leaveFlight_keeps
    | apply State.place_keeps
    | apply State.placeHost_keeps
    | apply State.fold_keeps
    | apply State.eccTable_keeps
    | apply State.eccFound_keeps
    | apply Keeps.foldl
    | apply Keeps.foldl_snd
    | dsimp only
    | split
    | (refine Keeps.of_some (by assumption) ?_)
    | (refine Keeps.of_snd (by assumption) ?_)
    | (refine Keeps.of_snd_snd (by assumption) ?_)
    | (intro _ _ _; beta_reduce)
    | (fail_if_no_progress apply Keeps.other)
    | intro _

end Sys2Proof.Machine
end

