-- ==== Sys2Proof/Laws/KeepsApply.lean ====
section
/-! SUPPORT. What the operations of Apply.lean keep (Keeps.lean). -/
set_option linter.unusedTactic false
set_option linter.unreachableTactic false
namespace Sys2Proof.Machine

theorem State.carriedFree_keeps {r_ : State} (s : State) (h_ : Keeps r_ s) : Keeps r_ (State.carriedFree s).2 := by
  unfold State.carriedFree
  repeat' with_reducible first
    | assumption
    | exact Keeps.refl _
    | apply State.takeFree_keeps
    | apply Keeps.foldl
    | apply Keeps.foldl_snd
    | dsimp only
    | split
    | (refine Keeps.of_some (by assumption) ?_)
    | (refine Keeps.of_snd (by assumption) ?_)
    | (refine Keeps.of_snd_snd (by assumption) ?_)
    | (intro _ _ _; beta_reduce)
    | (fail_if_no_progress apply Keeps.other)
    | intro _

theorem State.rxType_keeps {r_ : State} (s : State) (f : Frame) (h_ : Keeps r_ s) : Keeps r_ (State.rxType s f).2 := by
  unfold State.rxType
  repeat' with_reducible first
    | assumption
    | exact Keeps.refl _
    | apply State.carriedFree_keeps
    | apply Keeps.foldl
    | apply Keeps.foldl_snd
    | dsimp only
    | split
    | (refine Keeps.of_some (by assumption) ?_)
    | (refine Keeps.of_snd (by assumption) ?_)
    | (refine Keeps.of_snd_snd (by assumption) ?_)
    | (intro _ _ _; beta_reduce)
    | (fail_if_no_progress apply Keeps.other)
    | intro _

theorem State.statRx_keeps {r_ : State} (s : State) (f : Frame) (h_ : Keeps r_ s) : Keeps r_ (State.statRx s f) := by
  unfold State.statRx
  repeat' with_reducible first
    | assumption
    | exact Keeps.refl _
    | apply State.stat_keeps
    | apply State.statFrame_keeps
    | apply State.statAir_keeps
    | apply State.rxType_keeps
    | apply Keeps.foldl
    | apply Keeps.foldl_snd
    | dsimp only
    | split
    | (refine Keeps.of_some (by assumption) ?_)
    | (refine Keeps.of_snd (by assumption) ?_)
    | (refine Keeps.of_snd_snd (by assumption) ?_)
    | (intro _ _ _; beta_reduce)
    | (fail_if_no_progress apply Keeps.other)
    | intro _

theorem State.countSums_keeps {r_ : State} (s : State) (f : Frame) (h_ : Keeps r_ s) : Keeps r_ (State.countSums s f) := by
  unfold State.countSums
  repeat' with_reducible first
    | assumption
    | exact Keeps.refl _
    | apply State.bump_keeps
    | apply Keeps.foldl
    | apply Keeps.foldl_snd
    | dsimp only
    | split
    | (refine Keeps.of_some (by assumption) ?_)
    | (refine Keeps.of_snd (by assumption) ?_)
    | (refine Keeps.of_snd_snd (by assumption) ?_)
    | (intro _ _ _; beta_reduce)
    | (fail_if_no_progress apply Keeps.other)
    | intro _

theorem State.hit_keeps {r_ : State} (s : State) (u : Nat) (i : Nat) (h_ : Keeps r_ s) : Keeps r_ (State.hit s u i) := by
  unfold State.hit
  repeat' with_reducible first
    | assumption
    | exact Keeps.refl _
    | apply State.setEnt_keeps
    | apply Keeps.foldl
    | apply Keeps.foldl_snd
    | dsimp only
    | split
    | (refine Keeps.of_some (by assumption) ?_)
    | (refine Keeps.of_snd (by assumption) ?_)
    | (refine Keeps.of_snd_snd (by assumption) ?_)
    | (intro _ _ _; beta_reduce)
    | (fail_if_no_progress apply Keeps.other)
    | intro _

theorem State.countDecision_keeps {r_ : State} (s : State) (d : Decision) (h_ : Keeps r_ s) : Keeps r_ (State.countDecision s d) := by
  unfold State.countDecision
  extract_lets +onlyGivenNames s1_0
  have h_s1_0 : Keeps r_ s1_0 := by
    unfold s1_0
    repeat' with_reducible first
      | assumption
      | exact Keeps.refl _
      | apply State.bump_keeps
      | apply State.hit_keeps
      | apply Keeps.foldl
      | apply Keeps.foldl_snd
      | dsimp only
      | split
      | (refine Keeps.of_some (by assumption) ?_)
      | (refine Keeps.of_snd (by assumption) ?_)
      | (refine Keeps.of_snd_snd (by assumption) ?_)
      | (intro _ _ _; beta_reduce)
      | (fail_if_no_progress apply Keeps.other)
      | intro _
  clear_value s1_0
  repeat' with_reducible first
    | assumption
    | exact Keeps.refl _
    | apply State.bump_keeps
    | apply State.hit_keeps
    | apply Keeps.foldl
    | apply Keeps.foldl_snd
    | dsimp only
    | split
    | (refine Keeps.of_some (by assumption) ?_)
    | (refine Keeps.of_snd (by assumption) ?_)
    | (refine Keeps.of_snd_snd (by assumption) ?_)
    | (intro _ _ _; beta_reduce)
    | (fail_if_no_progress apply Keeps.other)
    | intro _

theorem State.flowTouch_keeps {r_ : State} (s : State) (d : Decision) (i : Nat) (len : Nat) (h_ : Keeps r_ s) : Keeps r_ (State.flowTouch s d i len) := by
  unfold State.flowTouch
  extract_lets +onlyGivenNames e_0 b_1 e1_2 e2_3
  try clear_value e_0
  try clear_value b_1
  try clear_value e1_2
  try clear_value e2_3
  repeat' with_reducible first
    | assumption
    | exact Keeps.refl _
    | apply State.setEnt_keeps
    | apply Keeps.foldl
    | apply Keeps.foldl_snd
    | dsimp only
    | split
    | (refine Keeps.of_some (by assumption) ?_)
    | (refine Keeps.of_snd (by assumption) ?_)
    | (refine Keeps.of_snd_snd (by assumption) ?_)
    | (intro _ _ _; beta_reduce)
    | (fail_if_no_progress apply Keeps.other)
    | intro _

theorem State.learn_keeps {r_ : State} (s : State) (k : Key) (d : Decision) (len : Nat) (h_ : Keeps r_ s) : Keeps r_ (State.learn s k d len) := by
  unfold State.learn
  extract_lets +onlyGivenNames a_0 b_1 ways_2
  try clear_value a_0
  try clear_value b_1
  try clear_value ways_2
  repeat' with_reducible first
    | assumption
    | exact Keeps.refl _
    | apply State.setEnt_keeps
    | apply State.bump_keeps
    | apply State.takeFree_keeps
    | apply Keeps.foldl
    | apply Keeps.foldl_snd
    | dsimp only
    | split
    | (refine Keeps.of_some (by assumption) ?_)
    | (refine Keeps.of_snd (by assumption) ?_)
    | (refine Keeps.of_snd_snd (by assumption) ?_)
    | (intro _ _ _; beta_reduce)
    | (fail_if_no_progress apply Keeps.other)
    | intro _

theorem State.flowUpdate_keeps {r_ : State} (s : State) (f : Frame) (k : Key) (d : Decision) (h_ : Keeps r_ s) : Keeps r_ (State.flowUpdate s f k d) := by
  unfold State.flowUpdate
  repeat' with_reducible first
    | assumption
    | exact Keeps.refl _
    | apply State.flowTouch_keeps
    | apply State.learn_keeps
    | apply Keeps.foldl
    | apply Keeps.foldl_snd
    | dsimp only
    | split
    | (refine Keeps.of_some (by assumption) ?_)
    | (refine Keeps.of_snd (by assumption) ?_)
    | (refine Keeps.of_snd_snd (by assumption) ?_)
    | (intro _ _ _; beta_reduce)
    | (fail_if_no_progress apply Keeps.other)
    | intro _

theorem State.debit_keeps {r_ : State} (s : State) (h : Hid) (len : Nat) (h_ : Keeps r_ s) : Keeps r_ (State.debit s h len) := by
  unfold State.debit
  repeat' with_reducible first
    | assumption
    | exact Keeps.refl _
    | apply State.setReg_keeps
    | apply Keeps.foldl
    | apply Keeps.foldl_snd
    | dsimp only
    | split
    | (refine Keeps.of_some (by assumption) ?_)
    | (refine Keeps.of_snd (by assumption) ?_)
    | (refine Keeps.of_snd_snd (by assumption) ?_)
    | (intro _ _ _; beta_reduce)
    | (fail_if_no_progress apply Keeps.other)
    | intro _

theorem State.police_keeps {r_ : State} (s : State) (d : Decision) (len : Nat) (h_ : Keeps r_ s) : Keeps r_ (State.police s d len) := by
  unfold State.police
  repeat' with_reducible first
    | assumption
    | exact Keeps.refl _
    | apply State.debit_keeps
    | apply Keeps.foldl
    | apply Keeps.foldl_snd
    | dsimp only
    | split
    | (refine Keeps.of_some (by assumption) ?_)
    | (refine Keeps.of_snd (by assumption) ?_)
    | (refine Keeps.of_snd_snd (by assumption) ?_)
    | (intro _ _ _; beta_reduce)
    | (fail_if_no_progress apply Keeps.other)
    | intro _

theorem State.countDrops_keeps {r_ : State} (s : State) (d : Decision) (h_ : Keeps r_ s) : Keeps r_ (State.countDrops s d) := by
  unfold State.countDrops
  extract_lets +onlyGivenNames s1_0
  have h_s1_0 : Keeps r_ s1_0 := by
    unfold s1_0
    repeat' with_reducible first
      | assumption
      | exact Keeps.refl _
      | apply State.bump_keeps
      | apply State.latch_keeps
      | apply State.countQueue_keeps
      | apply Keeps.foldl
      | apply Keeps.foldl_snd
      | dsimp only
      | split
      | (refine Keeps.of_some (by assumption) ?_)
      | (refine Keeps.of_snd (by assumption) ?_)
      | (refine Keeps.of_snd_snd (by assumption) ?_)
      | (intro _ _ _; beta_reduce)
      | (fail_if_no_progress apply Keeps.other)
      | intro _
  clear_value s1_0
  repeat' with_reducible first
    | assumption
    | exact Keeps.refl _
    | apply State.bump_keeps
    | apply State.latch_keeps
    | apply State.countQueue_keeps
    | apply Keeps.foldl
    | apply Keeps.foldl_snd
    | dsimp only
    | split
    | (refine Keeps.of_some (by assumption) ?_)
    | (refine Keeps.of_snd (by assumption) ?_)
    | (refine Keeps.of_snd_snd (by assumption) ?_)
    | (intro _ _ _; beta_reduce)
    | (fail_if_no_progress apply Keeps.other)
    | intro _

theorem State.guardFail_keeps {r_ : State} (s : State) (f : Frame) (d : Decision) (code : Nat) (stream : Nat) (sid : Nat) (received : Nat) (expected : Nat) (carried : Nat) (computed : Nat) (h_ : Keeps r_ s) : Keeps r_ (State.guardFail s f d code stream sid received expected carried computed) := by
  unfold State.guardFail
  extract_lets +onlyGivenNames p_0 s1_1
  try clear_value p_0
  have h_s1_1 : Keeps r_ s1_1 := by
    unfold s1_1
    repeat' with_reducible first
      | assumption
      | exact Keeps.refl _
      | apply State.bump_keeps
      | apply State.latch_keeps
      | apply State.setFrame_keeps
      | apply State.raise_keeps
      | apply State.record_keeps
      | apply Keeps.foldl
      | apply Keeps.foldl_snd
      | dsimp only
      | split
      | (refine Keeps.of_some (by assumption) ?_)
      | (refine Keeps.of_snd (by assumption) ?_)
      | (refine Keeps.of_snd_snd (by assumption) ?_)
      | (intro _ _ _; beta_reduce)
      | (fail_if_no_progress apply Keeps.other)
      | intro _
  clear_value s1_1
  repeat' with_reducible first
    | assumption
    | exact Keeps.refl _
    | apply State.bump_keeps
    | apply State.latch_keeps
    | apply State.setFrame_keeps
    | apply State.raise_keeps
    | apply State.record_keeps
    | apply Keeps.foldl
    | apply Keeps.foldl_snd
    | dsimp only
    | split
    | (refine Keeps.of_some (by assumption) ?_)
    | (refine Keeps.of_snd (by assumption) ?_)
    | (refine Keeps.of_snd_snd (by assumption) ?_)
    | (intro _ _ _; beta_reduce)
    | (fail_if_no_progress apply Keeps.other)
    | intro _

theorem State.guardFrame_keeps {r_ : State} (s : State) (f : Frame) (k : Key) (d : Decision) (h_ : Keeps r_ s) : Keeps r_ (State.guardFrame s f k d) := by
  unfold State.guardFrame
  extract_lets +onlyGivenNames p_0
  try clear_value p_0
  repeat' with_reducible first
    | assumption
    | exact Keeps.refl _
    | apply State.setEnt_keeps
    | apply State.bump_keeps
    | apply State.takeFree_keeps
    | apply State.guardFail_keeps
    | apply Keeps.foldl
    | apply Keeps.foldl_snd
    | dsimp only
    | split
    | (refine Keeps.of_some (by assumption) ?_)
    | (refine Keeps.of_snd (by assumption) ?_)
    | (refine Keeps.of_snd_snd (by assumption) ?_)
    | (intro _ _ _; beta_reduce)
    | (fail_if_no_progress apply Keeps.other)
    | intro _

theorem State.guard_keeps {r_ : State} (s : State) (f : Frame) (k : Key) (d : Decision) (h_ : Keeps r_ s) : Keeps r_ (State.guard s f k d) := by
  unfold State.guard
  repeat' with_reducible first
    | assumption
    | exact Keeps.refl _
    | apply State.bump_keeps
    | apply State.setFrame_keeps
    | apply State.guardFrame_keeps
    | apply Keeps.foldl
    | apply Keeps.foldl_snd
    | dsimp only
    | split
    | (refine Keeps.of_some (by assumption) ?_)
    | (refine Keeps.of_snd (by assumption) ?_)
    | (refine Keeps.of_snd_snd (by assumption) ?_)
    | (intro _ _ _; beta_reduce)
    | (fail_if_no_progress apply Keeps.other)
    | intro _

theorem State.installTemplate_keeps {r_ : State} (s : State) (t : Nat) (f : Frame) (h_ : Keeps r_ s) : Keeps r_ (State.installTemplate s t f) := by
  unfold State.installTemplate
  repeat' with_reducible first
    | assumption
    | exact Keeps.refl _
    | apply State.setEnt_keeps
    | apply State.bump_keeps
    | apply Keeps.foldl
    | apply Keeps.foldl_snd
    | dsimp only
    | split
    | (refine Keeps.of_some (by assumption) ?_)
    | (refine Keeps.of_snd (by assumption) ?_)
    | (refine Keeps.of_snd_snd (by assumption) ?_)
    | (intro _ _ _; beta_reduce)
    | (fail_if_no_progress apply Keeps.other)
    | intro _

theorem State.templateMiss_keeps {r_ : State} (s : State) (t : Nat) (f : Frame) (stub : Bool) (h_ : Keeps r_ s) : Keeps r_ (State.templateMiss s t f stub) := by
  unfold State.templateMiss
  extract_lets +onlyGivenNames e_0
  try clear_value e_0
  repeat' with_reducible first
    | assumption
    | exact Keeps.refl _
    | apply State.setEnt_keeps
    | apply State.installTemplate_keeps
    | apply Keeps.foldl
    | apply Keeps.foldl_snd
    | dsimp only
    | split
    | (refine Keeps.of_some (by assumption) ?_)
    | (refine Keeps.of_snd (by assumption) ?_)
    | (refine Keeps.of_snd_snd (by assumption) ?_)
    | (intro _ _ _; beta_reduce)
    | (fail_if_no_progress apply Keeps.other)
    | intro _

theorem State.templateUpdate_keeps {r_ : State} (s : State) (f : Frame) (d : Decision) (h_ : Keeps r_ s) : Keeps r_ (State.templateUpdate s f d) := by
  unfold State.templateUpdate
  extract_lets +onlyGivenNames t_0
  try clear_value t_0
  repeat' with_reducible first
    | assumption
    | exact Keeps.refl _
    | apply State.setEnt_keeps
    | apply State.bump_keeps
    | apply State.fold_keeps
    | apply State.templateMiss_keeps
    | apply Keeps.foldl
    | apply Keeps.foldl_snd
    | dsimp only
    | split
    | (refine Keeps.of_some (by assumption) ?_)
    | (refine Keeps.of_snd (by assumption) ?_)
    | (refine Keeps.of_snd_snd (by assumption) ?_)
    | (intro _ _ _; beta_reduce)
    | (fail_if_no_progress apply Keeps.other)
    | intro _

theorem State.completeTx_keeps {r_ : State} (s : State) (id : Nat) (h_ : Keeps r_ s) : Keeps r_ (State.completeTx s id) := by
  unfold State.completeTx
  repeat' with_reducible first
    | assumption
    | exact Keeps.refl _
    | apply State.txComplete_keeps
    | apply Keeps.foldl
    | apply Keeps.foldl_snd
    | dsimp only
    | split
    | (refine Keeps.of_some (by assumption) ?_)
    | (refine Keeps.of_snd (by assumption) ?_)
    | (refine Keeps.of_snd_snd (by assumption) ?_)
    | (intro _ _ _; beta_reduce)
    | (fail_if_no_progress apply Keeps.other)
    | intro _

theorem State.applyDecision_keeps {r_ : State} (s : State) (f : Frame) (d : Decision) (h_ : Keeps r_ s) : Keeps r_ (State.applyDecision s f d) := by
  unfold State.applyDecision
  extract_lets +onlyGivenNames s1_0 s2_1
  have h_s1_0 : Keeps r_ s1_0 := by
    unfold s1_0
    repeat' with_reducible first
      | assumption
      | exact Keeps.refl _
      | apply State.countDecision_keeps
      | apply State.flowUpdate_keeps
      | apply State.police_keeps
      | apply State.countDrops_keeps
      | apply State.guard_keeps
      | apply State.templateUpdate_keeps
      | apply Keeps.foldl
      | apply Keeps.foldl_snd
      | dsimp only
      | split
      | (refine Keeps.of_some (by assumption) ?_)
      | (refine Keeps.of_snd (by assumption) ?_)
      | (refine Keeps.of_snd_snd (by assumption) ?_)
      | (intro _ _ _; beta_reduce)
      | (fail_if_no_progress apply Keeps.other)
      | intro _
  clear_value s1_0
  have h_s2_1 : Keeps r_ s2_1 := by
    unfold s2_1
    repeat' with_reducible first
      | assumption
      | exact Keeps.refl _
      | apply State.countDecision_keeps
      | apply State.flowUpdate_keeps
      | apply State.police_keeps
      | apply State.countDrops_keeps
      | apply State.guard_keeps
      | apply State.templateUpdate_keeps
      | apply Keeps.foldl
      | apply Keeps.foldl_snd
      | dsimp only
      | split
      | (refine Keeps.of_some (by assumption) ?_)
      | (refine Keeps.of_snd (by assumption) ?_)
      | (refine Keeps.of_snd_snd (by assumption) ?_)
      | (intro _ _ _; beta_reduce)
      | (fail_if_no_progress apply Keeps.other)
      | intro _
  clear_value s2_1
  repeat' with_reducible first
    | assumption
    | exact Keeps.refl _
    | apply State.countDecision_keeps
    | apply State.flowUpdate_keeps
    | apply State.police_keeps
    | apply State.countDrops_keeps
    | apply State.guard_keeps
    | apply State.templateUpdate_keeps
    | apply Keeps.foldl
    | apply Keeps.foldl_snd
    | dsimp only
    | split
    | (refine Keeps.of_some (by assumption) ?_)
    | (refine Keeps.of_snd (by assumption) ?_)
    | (refine Keeps.of_snd_snd (by assumption) ?_)
    | (intro _ _ _; beta_reduce)
    | (fail_if_no_progress apply Keeps.other)
    | intro _

theorem State.markApplied_keeps {r_ : State} (s : State) (id : Nat) (h_ : Keeps r_ s) : Keeps r_ (State.markApplied s id) := by
  unfold State.markApplied
  repeat' with_reducible first
    | assumption
    | exact Keeps.refl _
    | apply Keeps.foldl
    | apply Keeps.foldl_snd
    | dsimp only
    | split
    | (refine Keeps.of_some (by assumption) ?_)
    | (refine Keeps.of_snd (by assumption) ?_)
    | (refine Keeps.of_snd_snd (by assumption) ?_)
    | (intro _ _ _; beta_reduce)
    | (fail_if_no_progress apply Keeps.other)
    | intro _

theorem State.applyFrame_keeps {r_ : State} (s : State) (f : Frame) (h_ : Keeps r_ s) : Keeps r_ (State.applyFrame s f) := by
  unfold State.applyFrame
  extract_lets +onlyGivenNames s1_0 s2_1 s3_2
  have h_s1_0 : Keeps r_ s1_0 := by
    unfold s1_0
    repeat' with_reducible first
      | assumption
      | exact Keeps.refl _
      | apply State.settle_keeps
      | apply State.pay_keeps
      | apply State.rxFinish_keeps
      | apply State.statRx_keeps
      | apply State.countSums_keeps
      | apply State.completeTx_keeps
      | apply State.applyDecision_keeps
      | apply State.markApplied_keeps
      | apply Keeps.foldl
      | apply Keeps.foldl_snd
      | dsimp only
      | split
      | (refine Keeps.of_some (by assumption) ?_)
      | (refine Keeps.of_snd (by assumption) ?_)
      | (refine Keeps.of_snd_snd (by assumption) ?_)
      | (intro _ _ _; beta_reduce)
      | (fail_if_no_progress apply Keeps.other)
      | intro _
  clear_value s1_0
  have h_s2_1 : Keeps r_ s2_1 := by
    unfold s2_1
    repeat' with_reducible first
      | assumption
      | exact Keeps.refl _
      | apply State.settle_keeps
      | apply State.pay_keeps
      | apply State.rxFinish_keeps
      | apply State.statRx_keeps
      | apply State.countSums_keeps
      | apply State.completeTx_keeps
      | apply State.applyDecision_keeps
      | apply State.markApplied_keeps
      | apply Keeps.foldl
      | apply Keeps.foldl_snd
      | dsimp only
      | split
      | (refine Keeps.of_some (by assumption) ?_)
      | (refine Keeps.of_snd (by assumption) ?_)
      | (refine Keeps.of_snd_snd (by assumption) ?_)
      | (intro _ _ _; beta_reduce)
      | (fail_if_no_progress apply Keeps.other)
      | intro _
  clear_value s2_1
  have h_s3_2 : Keeps r_ s3_2 := by
    unfold s3_2
    repeat' with_reducible first
      | assumption
      | exact Keeps.refl _
      | apply State.settle_keeps
      | apply State.pay_keeps
      | apply State.rxFinish_keeps
      | apply State.statRx_keeps
      | apply State.countSums_keeps
      | apply State.completeTx_keeps
      | apply State.applyDecision_keeps
      | apply State.markApplied_keeps
      | apply Keeps.foldl
      | apply Keeps.foldl_snd
      | dsimp only
      | split
      | (refine Keeps.of_some (by assumption) ?_)
      | (refine Keeps.of_snd (by assumption) ?_)
      | (refine Keeps.of_snd_snd (by assumption) ?_)
      | (intro _ _ _; beta_reduce)
      | (fail_if_no_progress apply Keeps.other)
      | intro _
  clear_value s3_2
  repeat' with_reducible first
    | assumption
    | exact Keeps.refl _
    | apply State.settle_keeps
    | apply State.pay_keeps
    | apply State.rxFinish_keeps
    | apply State.statRx_keeps
    | apply State.countSums_keeps
    | apply State.completeTx_keeps
    | apply State.applyDecision_keeps
    | apply State.markApplied_keeps
    | apply Keeps.foldl
    | apply Keeps.foldl_snd
    | dsimp only
    | split
    | (refine Keeps.of_some (by assumption) ?_)
    | (refine Keeps.of_snd (by assumption) ?_)
    | (refine Keeps.of_snd_snd (by assumption) ?_)
    | (intro _ _ _; beta_reduce)
    | (fail_if_no_progress apply Keeps.other)
    | intro _

theorem execApplyHeldEffects_keeps {r_ : State} (s : State) (h_ : Keeps r_ s) : KeepsNext r_ (execApplyHeldEffects s) := by
  unfold execApplyHeldEffects
  repeat' with_reducible first
    | assumption
    | exact Keeps.refl _
    | apply KeepsNext.next
    | apply KeepsNext.refused
    | apply gathered_keeps
    | apply State.pump_keeps
    | apply State.applyFrame_keeps
    | apply Keeps.foldl
    | apply Keeps.foldl_snd
    | dsimp only
    | split
    | (refine Keeps.of_some (by assumption) ?_)
    | (refine Keeps.of_snd (by assumption) ?_)
    | (refine Keeps.of_snd_snd (by assumption) ?_)
    | (intro _ _ _; beta_reduce)
    | (fail_if_no_progress apply Keeps.other)
    | intro _

end Sys2Proof.Machine
end

