-- ==== Sys2Proof/Laws/KeepsHostTx.lean ====
section
/-! SUPPORT. What the operations of HostTx.lean keep (Keeps.lean). -/
set_option linter.unusedTactic false
set_option linter.unreachableTactic false
namespace Sys2Proof.Machine

theorem State.startHost_keeps {r_ : State} (s : State) (a : AheadEntry) (h_ : Keeps r_ s) : Keeps r_ (State.startHost s a) := by
  unfold State.startHost
  extract_lets +onlyGivenNames u_0 f_1 s1_2
  try clear_value u_0
  try clear_value f_1
  have h_s1_2 : Keeps r_ s1_2 := by
    unfold s1_2
    repeat' with_reducible first
      | assumption
      | exact Keeps.refl _
      | apply State.setReg_keeps
      | apply State.reserve_keeps
      | apply State.pump_keeps
      | apply State.addFrame_keeps
      | apply State.parseFrame_keeps
      | apply Keeps.foldl
      | apply Keeps.foldl_snd
      | dsimp only
      | split
      | (refine Keeps.of_some (by assumption) ?_)
      | (refine Keeps.of_snd (by assumption) ?_)
      | (refine Keeps.of_snd_snd (by assumption) ?_)
      | (intro _ _ _; beta_reduce)
      | (fail_if_no_progress apply Keeps.other)
      | intro _
  clear_value s1_2
  repeat' with_reducible first
    | assumption
    | exact Keeps.refl _
    | apply State.setReg_keeps
    | apply State.reserve_keeps
    | apply State.pump_keeps
    | apply State.addFrame_keeps
    | apply State.parseFrame_keeps
    | apply Keeps.foldl
    | apply Keeps.foldl_snd
    | dsimp only
    | split
    | (refine Keeps.of_some (by assumption) ?_)
    | (refine Keeps.of_snd (by assumption) ?_)
    | (refine Keeps.of_snd_snd (by assumption) ?_)
    | (intro _ _ _; beta_reduce)
    | (fail_if_no_progress apply Keeps.other)
    | intro _

theorem execHostTxFrame_keeps {r_ : State} (s : State) (h_ : Keeps r_ s) : KeepsNext r_ (execHostTxFrame s) := by
  unfold execHostTxFrame
  repeat' with_reducible first
    | assumption
    | exact Keeps.refl _
    | apply KeepsNext.next
    | apply KeepsNext.refused
    | apply gathered_keeps
    | apply State.startHost_keeps
    | apply Keeps.foldl
    | apply Keeps.foldl_snd
    | dsimp only
    | split
    | (refine Keeps.of_some (by assumption) ?_)
    | (refine Keeps.of_snd (by assumption) ?_)
    | (refine Keeps.of_snd_snd (by assumption) ?_)
    | (intro _ _ _; beta_reduce)
    | (fail_if_no_progress apply Keeps.other)
    | intro _

theorem execTxFrameEnd_keeps {r_ : State} (ep : Nat) (s : State) (h_ : Keeps r_ s) : KeepsNext r_ (execTxFrameEnd ep s) := by
  unfold execTxFrameEnd
  repeat' with_reducible first
    | assumption
    | exact Keeps.refl _
    | apply KeepsNext.next
    | apply KeepsNext.refused
    | apply gathered_keeps
    | apply State.resume_keeps
    | apply State.txEnd_keeps
    | apply State.mPackets_keeps
    | apply State.pump_keeps
    | apply Keeps.foldl
    | apply Keeps.foldl_snd
    | dsimp only
    | split
    | (refine Keeps.of_some (by assumption) ?_)
    | (refine Keeps.of_snd (by assumption) ?_)
    | (refine Keeps.of_snd_snd (by assumption) ?_)
    | (intro _ _ _; beta_reduce)
    | (fail_if_no_progress apply Keeps.other)
    | intro _

end Sys2Proof.Machine
end

