-- ==== Sys2Proof/Laws/KeepsAir.lean ====
section
/-! SUPPORT. What the operations of Air.lean keep (Keeps.lean). -/
set_option linter.unusedTactic false
set_option linter.unreachableTactic false
namespace Sys2Proof.Machine

theorem execAlRxFrame_keeps {r_ : State} (al : Nat) (length : Nat) (rsvd : Bool) (octets : List Octet) (err : Bool) (s : State) (h_ : Keeps r_ s) : KeepsNext r_ (execAlRxFrame al length rsvd octets err s) := by
  unfold execAlRxFrame
  repeat' with_reducible first
    | assumption
    | exact Keeps.refl _
    | apply KeepsNext.next
    | apply KeepsNext.refused
    | apply State.setReg_keeps
    | apply State.bump_keeps
    | apply State.wake_keeps
    | apply State.addFrame_keeps
    | apply State.parseFrame_keeps
    | apply Keeps.foldl
    | apply Keeps.foldl_snd
    | dsimp only
    | split
    | (refine Keeps.of_some (by assumption) ?_)
    | (refine Keeps.of_snd (by assumption) ?_)
    | (refine Keeps.of_snd_snd (by assumption) ?_)
    | (intro _ _ _; beta_reduce)
    | (fail_if_no_progress apply Keeps.other)
    | intro _

theorem State.airEnd_keeps {r_ : State} (s : State) (al : Nat) (c : Copy) (f : Frame) (ecc : CellRead) (h_ : Keeps r_ s) : Keeps r_ (State.airEnd s al c f ecc) := by
  unfold State.airEnd
  extract_lets +onlyGivenNames u_0 s1_1 r_2 s2_3 s3_4
  try clear_value u_0
  have h_s1_1 : Keeps r_ s1_1 := by
    unfold s1_1
    repeat' with_reducible first
      | assumption
      | exact Keeps.refl _
      | apply State.setReg_keeps
      | apply State.bump_keeps
      | apply State.statAir_keeps
      | apply State.readCells_keeps
      | apply State.settle_keeps
      | apply State.dropCopy_keeps
      | apply State.countQueue_keeps
      | apply Keeps.foldl
      | apply Keeps.foldl_snd
      | dsimp only
      | split
      | (refine Keeps.of_some (by assumption) ?_)
      | (refine Keeps.of_snd (by assumption) ?_)
      | (refine Keeps.of_snd_snd (by assumption) ?_)
      | (intro _ _ _; beta_reduce)
      | (fail_if_no_progress apply Keeps.other)
      | intro _
  clear_value s1_1
  have h_s2_3 : Keeps r_ s2_3 := by
    unfold s2_3
    repeat' with_reducible first
      | assumption
      | exact Keeps.refl _
      | apply State.setReg_keeps
      | apply State.bump_keeps
      | apply State.statAir_keeps
      | apply State.readCells_keeps
      | apply State.settle_keeps
      | apply State.dropCopy_keeps
      | apply State.countQueue_keeps
      | apply Keeps.foldl
      | apply Keeps.foldl_snd
      | dsimp only
      | split
      | (refine Keeps.of_some (by assumption) ?_)
      | (refine Keeps.of_snd (by assumption) ?_)
      | (refine Keeps.of_snd_snd (by assumption) ?_)
      | (intro _ _ _; beta_reduce)
      | (fail_if_no_progress apply Keeps.other)
      | intro _
  clear_value s2_3
  have h_s3_4 : Keeps r_ s3_4 := by
    unfold s3_4
    repeat' with_reducible first
      | assumption
      | exact Keeps.refl _
      | apply State.setReg_keeps
      | apply State.bump_keeps
      | apply State.statAir_keeps
      | apply State.readCells_keeps
      | apply State.settle_keeps
      | apply State.dropCopy_keeps
      | apply State.countQueue_keeps
      | apply Keeps.foldl
      | apply Keeps.foldl_snd
      | dsimp only
      | split
      | (refine Keeps.of_some (by assumption) ?_)
      | (refine Keeps.of_snd (by assumption) ?_)
      | (refine Keeps.of_snd_snd (by assumption) ?_)
      | (intro _ _ _; beta_reduce)
      | (fail_if_no_progress apply Keeps.other)
      | intro _
  clear_value s3_4
  repeat' with_reducible first
    | assumption
    | exact Keeps.refl _
    | apply State.setReg_keeps
    | apply State.bump_keeps
    | apply State.statAir_keeps
    | apply State.readCells_keeps
    | apply State.settle_keeps
    | apply State.dropCopy_keeps
    | apply State.countQueue_keeps
    | apply Keeps.foldl
    | apply Keeps.foldl_snd
    | dsimp only
    | split
    | (refine Keeps.of_some (by assumption) ?_)
    | (refine Keeps.of_snd (by assumption) ?_)
    | (refine Keeps.of_snd_snd (by assumption) ?_)
    | (intro _ _ _; beta_reduce)
    | (fail_if_no_progress apply Keeps.other)
    | intro _

theorem execAlTxFrameEnd_keeps {r_ : State} (al : Nat) (ecc : CellRead) (s : State) (h_ : Keeps r_ s) : KeepsNext r_ (execAlTxFrameEnd al ecc s) := by
  unfold execAlTxFrameEnd
  repeat' with_reducible first
    | assumption
    | exact Keeps.refl _
    | apply KeepsNext.next
    | apply KeepsNext.refused
    | apply State.pump_keeps
    | apply State.airEnd_keeps
    | apply Keeps.foldl
    | apply Keeps.foldl_snd
    | dsimp only
    | split
    | (refine Keeps.of_some (by assumption) ?_)
    | (refine Keeps.of_snd (by assumption) ?_)
    | (refine Keeps.of_snd_snd (by assumption) ?_)
    | (intro _ _ _; beta_reduce)
    | (fail_if_no_progress apply Keeps.other)
    | intro _

theorem execAlTxStall_keeps {r_ : State} (al : Nat) (s : State) (h_ : Keeps r_ s) : KeepsNext r_ (execAlTxStall al s) := by
  unfold execAlTxStall
  repeat' with_reducible first
    | assumption
    | exact Keeps.refl _
    | apply KeepsNext.next
    | apply KeepsNext.refused
    | apply State.bump_keeps
    | apply State.latch_keeps
    | apply State.record_keeps
    | apply Keeps.foldl
    | apply Keeps.foldl_snd
    | dsimp only
    | split
    | (refine Keeps.of_some (by assumption) ?_)
    | (refine Keeps.of_snd (by assumption) ?_)
    | (refine Keeps.of_snd_snd (by assumption) ?_)
    | (intro _ _ _; beta_reduce)
    | (fail_if_no_progress apply Keeps.other)
    | intro _

theorem execAlStateChange_keeps {r_ : State} (al : Nat) (value : Nat) (s : State) (h_ : Keeps r_ s) : KeepsNext r_ (execAlStateChange al value s) := by
  unfold execAlStateChange
  repeat' with_reducible first
    | assumption
    | exact Keeps.refl _
    | apply KeepsNext.next
    | apply KeepsNext.refused
    | apply State.setReg_keeps
    | apply Keeps.foldl
    | apply Keeps.foldl_snd
    | dsimp only
    | split
    | (refine Keeps.of_some (by assumption) ?_)
    | (refine Keeps.of_snd (by assumption) ?_)
    | (refine Keeps.of_snd_snd (by assumption) ?_)
    | (intro _ _ _; beta_reduce)
    | (fail_if_no_progress apply Keeps.other)
    | intro _

theorem State.setParked_keeps {r_ : State} (s : State) (al : Nat) (v : Bool) (h_ : Keeps r_ s) : Keeps r_ (State.setParked s al v) := by
  unfold State.setParked
  repeat' with_reducible first
    | assumption
    | exact Keeps.refl _
    | apply State.setEnt_keeps
    | apply Keeps.foldl
    | apply Keeps.foldl_snd
    | dsimp only
    | split
    | (refine Keeps.of_some (by assumption) ?_)
    | (refine Keeps.of_snd (by assumption) ?_)
    | (refine Keeps.of_snd_snd (by assumption) ?_)
    | (intro _ _ _; beta_reduce)
    | (fail_if_no_progress apply Keeps.other)
    | intro _

theorem State.park_keeps {r_ : State} (s : State) (al : Nat) (h_ : Keeps r_ s) : Keeps r_ (State.park s al) := by
  unfold State.park
  extract_lets +onlyGivenNames u_0
  try clear_value u_0
  repeat' with_reducible first
    | assumption
    | exact Keeps.refl _
    | apply State.wr_keeps
    | apply State.bump_keeps
    | apply State.raise_keeps
    | apply State.record_keeps
    | apply State.setParked_keeps
    | apply Keeps.foldl
    | apply Keeps.foldl_snd
    | dsimp only
    | split
    | (refine Keeps.of_some (by assumption) ?_)
    | (refine Keeps.of_snd (by assumption) ?_)
    | (refine Keeps.of_snd_snd (by assumption) ?_)
    | (intro _ _ _; beta_reduce)
    | (fail_if_no_progress apply Keeps.other)
    | intro _

theorem State.rejoin_keeps {r_ : State} (s : State) (q : QueueRef) (ep : Nat) (cls : Nat) (h_ : Keeps r_ s) : Keeps r_ (State.rejoin s q ep cls) := by
  unfold State.rejoin
  repeat' with_reducible first
    | assumption
    | exact Keeps.refl _
    | apply State.setReg_keeps
    | apply Keeps.foldl
    | apply Keeps.foldl_snd
    | dsimp only
    | split
    | (refine Keeps.of_some (by assumption) ?_)
    | (refine Keeps.of_snd (by assumption) ?_)
    | (refine Keeps.of_snd_snd (by assumption) ?_)
    | (intro _ _ _; beta_reduce)
    | (fail_if_no_progress apply Keeps.other)
    | intro _

theorem State.unpark_keeps {r_ : State} (s : State) (al : Nat) (h_ : Keeps r_ s) : Keeps r_ (State.unpark s al) := by
  unfold State.unpark
  extract_lets +onlyGivenNames u_0
  try clear_value u_0
  repeat' with_reducible first
    | assumption
    | exact Keeps.refl _
    | apply State.wr_keeps
    | apply State.setParked_keeps
    | apply State.rejoin_keeps
    | apply Keeps.foldl
    | apply Keeps.foldl_snd
    | dsimp only
    | split
    | (refine Keeps.of_some (by assumption) ?_)
    | (refine Keeps.of_snd (by assumption) ?_)
    | (refine Keeps.of_snd_snd (by assumption) ?_)
    | (intro _ _ _; beta_reduce)
    | (fail_if_no_progress apply Keeps.other)
    | intro _

theorem execAlHoldExpire_keeps {r_ : State} (al : Nat) (s : State) (h_ : Keeps r_ s) : KeepsNext r_ (execAlHoldExpire al s) := by
  unfold execAlHoldExpire
  repeat' with_reducible first
    | assumption
    | exact Keeps.refl _
    | apply KeepsNext.next
    | apply KeepsNext.refused
    | apply State.stopTimer_keeps
    | apply State.wake_keeps
    | apply State.park_keeps
    | apply Keeps.foldl
    | apply Keeps.foldl_snd
    | dsimp only
    | split
    | (refine Keeps.of_some (by assumption) ?_)
    | (refine Keeps.of_snd (by assumption) ?_)
    | (refine Keeps.of_snd_snd (by assumption) ?_)
    | (intro _ _ _; beta_reduce)
    | (fail_if_no_progress apply Keeps.other)
    | intro _

theorem State.latchAir_keeps {r_ : State} (s : State) (al : Nat) (h_ : Keeps r_ s) : Keeps r_ (State.latchAir s al) := by
  unfold State.latchAir
  extract_lets +onlyGivenNames u_0 old_1 new_2 s1_3
  try clear_value u_0
  try clear_value old_1
  try clear_value new_2
  have h_s1_3 : Keeps r_ s1_3 := by
    unfold s1_3
    repeat' with_reducible first
      | assumption
      | exact Keeps.refl _
      | apply State.wr_keeps
      | apply State.setReg_keeps
      | apply State.startTimer_keeps
      | apply State.stopTimer_keeps
      | apply State.bump_keeps
      | apply State.park_keeps
      | apply State.unpark_keeps
      | apply Keeps.foldl
      | apply Keeps.foldl_snd
      | dsimp only
      | split
      | (refine Keeps.of_some (by assumption) ?_)
      | (refine Keeps.of_snd (by assumption) ?_)
      | (refine Keeps.of_snd_snd (by assumption) ?_)
      | (intro _ _ _; beta_reduce)
      | (fail_if_no_progress apply Keeps.other)
      | intro _
  clear_value s1_3
  repeat' with_reducible first
    | assumption
    | exact Keeps.refl _
    | apply State.wr_keeps
    | apply State.setReg_keeps
    | apply State.startTimer_keeps
    | apply State.stopTimer_keeps
    | apply State.bump_keeps
    | apply State.park_keeps
    | apply State.unpark_keeps
    | apply Keeps.foldl
    | apply Keeps.foldl_snd
    | dsimp only
    | split
    | (refine Keeps.of_some (by assumption) ?_)
    | (refine Keeps.of_snd (by assumption) ?_)
    | (refine Keeps.of_snd_snd (by assumption) ?_)
    | (intro _ _ _; beta_reduce)
    | (fail_if_no_progress apply Keeps.other)
    | intro _

theorem State.withdrawQuiet_keeps {r_ : State} (s : State) (h_ : Keeps r_ s) : Keeps r_ (State.withdrawQuiet s) := by
  unfold State.withdrawQuiet
  repeat' with_reducible first
    | assumption
    | exact Keeps.refl _
    | apply State.withdraw_keeps
    | apply State.resume_keeps
    | apply Keeps.foldl
    | apply Keeps.foldl_snd
    | dsimp only
    | split
    | (refine Keeps.of_some (by assumption) ?_)
    | (refine Keeps.of_snd (by assumption) ?_)
    | (refine Keeps.of_snd_snd (by assumption) ?_)
    | (intro _ _ _; beta_reduce)
    | (fail_if_no_progress apply Keeps.other)
    | intro _

theorem execCoexReqRise_keeps {r_ : State} (i : Nat) (s : State) (h_ : Keeps r_ s) : KeepsNext r_ (execCoexReqRise i s) := by
  unfold execCoexReqRise
  repeat' with_reducible first
    | assumption
    | exact Keeps.refl _
    | apply KeepsNext.next
    | apply KeepsNext.refused
    | apply State.wr_keeps
    | apply State.setReg_keeps
    | apply State.withdrawQuiet_keeps
    | apply Keeps.foldl
    | apply Keeps.foldl_snd
    | dsimp only
    | split
    | (refine Keeps.of_some (by assumption) ?_)
    | (refine Keeps.of_snd (by assumption) ?_)
    | (refine Keeps.of_snd_snd (by assumption) ?_)
    | (intro _ _ _; beta_reduce)
    | (fail_if_no_progress apply Keeps.other)
    | intro _

theorem execCoexGrant_keeps {r_ : State} (i : Nat) (late : Bool) (s : State) (h_ : Keeps r_ s) : KeepsNext r_ (execCoexGrant i late s) := by
  unfold execCoexGrant
  repeat' with_reducible first
    | assumption
    | exact Keeps.refl _
    | apply KeepsNext.next
    | apply KeepsNext.refused
    | apply State.wr_keeps
    | apply State.setReg_keeps
    | apply State.bump_keeps
    | apply Keeps.foldl
    | apply Keeps.foldl_snd
    | dsimp only
    | split
    | (refine Keeps.of_some (by assumption) ?_)
    | (refine Keeps.of_snd (by assumption) ?_)
    | (refine Keeps.of_snd_snd (by assumption) ?_)
    | (intro _ _ _; beta_reduce)
    | (fail_if_no_progress apply Keeps.other)
    | intro _

theorem execCoexReqFall_keeps {r_ : State} (i : Nat) (s : State) (h_ : Keeps r_ s) : KeepsNext r_ (execCoexReqFall i s) := by
  unfold execCoexReqFall
  repeat' with_reducible first
    | assumption
    | exact Keeps.refl _
    | apply KeepsNext.next
    | apply KeepsNext.refused
    | apply State.wr_keeps
    | apply State.setReg_keeps
    | apply State.bump_keeps
    | apply Keeps.foldl
    | apply Keeps.foldl_snd
    | dsimp only
    | split
    | (refine Keeps.of_some (by assumption) ?_)
    | (refine Keeps.of_snd (by assumption) ?_)
    | (refine Keeps.of_snd_snd (by assumption) ?_)
    | (intro _ _ _; beta_reduce)
    | (fail_if_no_progress apply Keeps.other)
    | intro _

theorem execMaxQuietExpire_keeps {r_ : State} (i : Nat) (s : State) (h_ : Keeps r_ s) : KeepsNext r_ (execMaxQuietExpire i s) := by
  unfold execMaxQuietExpire
  repeat' with_reducible first
    | assumption
    | exact Keeps.refl _
    | apply KeepsNext.next
    | apply KeepsNext.refused
    | apply State.wr_keeps
    | apply State.setReg_keeps
    | apply State.bump_keeps
    | apply State.raise_keeps
    | apply State.record_keeps
    | apply Keeps.foldl
    | apply Keeps.foldl_snd
    | dsimp only
    | split
    | (refine Keeps.of_some (by assumption) ?_)
    | (refine Keeps.of_snd (by assumption) ?_)
    | (refine Keeps.of_snd_snd (by assumption) ?_)
    | (intro _ _ _; beta_reduce)
    | (fail_if_no_progress apply Keeps.other)
    | intro _

end Sys2Proof.Machine
end

