-- ==== Sys2Proof/Laws/KeepsLink.lean ====
section
/-! SUPPORT. What the operations of Link.lean keep (Keeps.lean). -/
set_option linter.unusedTactic false
set_option linter.unreachableTactic false
namespace Sys2Proof.Machine

theorem State.setPreempt_keeps {r_ : State} (s : State) (ch : Nat) (v : Nat) (h_ : Keeps r_ s) : Keeps r_ (State.setPreempt s ch v) := by
  unfold State.setPreempt
  extract_lets +onlyGivenNames u_0
  try clear_value u_0
  repeat' with_reducible first
    | assumption
    | exact Keeps.refl _
    | apply State.wr_keeps
    | apply State.record_keeps
    | apply Keeps.foldl
    | apply Keeps.foldl_snd
    | dsimp only
    | split
    | (refine Keeps.of_some (by assumption) ?_)
    | (refine Keeps.of_snd (by assumption) ?_)
    | (refine Keeps.of_snd_snd (by assumption) ?_)
    | (intro _ _ _; beta_reduce)
    | (fail_if_no_progress apply Keeps.other)
    | intro _

theorem State.sendVerify_keeps {r_ : State} (s : State) (ch : Nat) (h_ : Keeps r_ s) : Keeps r_ (State.sendVerify s ch) := by
  unfold State.sendVerify
  repeat' with_reducible first
    | assumption
    | exact Keeps.refl _
    | apply State.setReg_keeps
    | apply State.startTimer_keeps
    | apply State.sendMPacket_keeps
    | apply Keeps.foldl
    | apply Keeps.foldl_snd
    | dsimp only
    | split
    | (refine Keeps.of_some (by assumption) ?_)
    | (refine Keeps.of_snd (by assumption) ?_)
    | (refine Keeps.of_snd_snd (by assumption) ?_)
    | (intro _ _ _; beta_reduce)
    | (fail_if_no_progress apply Keeps.other)
    | intro _

theorem State.preemptUp_keeps {r_ : State} (s : State) (ch : Nat) (h_ : Keeps r_ s) : Keeps r_ (State.preemptUp s ch) := by
  unfold State.preemptUp
  repeat' with_reducible first
    | assumption
    | exact Keeps.refl _
    | apply State.setReg_keeps
    | apply State.setPreempt_keeps
    | apply State.sendVerify_keeps
    | apply Keeps.foldl
    | apply Keeps.foldl_snd
    | dsimp only
    | split
    | (refine Keeps.of_some (by assumption) ?_)
    | (refine Keeps.of_snd (by assumption) ?_)
    | (refine Keeps.of_snd_snd (by assumption) ?_)
    | (intro _ _ _; beta_reduce)
    | (fail_if_no_progress apply Keeps.other)
    | intro _

theorem State.preemptDown_keeps {r_ : State} (s : State) (ch : Nat) (h_ : Keeps r_ s) : Keeps r_ (State.preemptDown s ch) := by
  unfold State.preemptDown
  extract_lets +onlyGivenNames s1_0
  have h_s1_0 : Keeps r_ s1_0 := by
    unfold s1_0
    repeat' with_reducible first
      | assumption
      | exact Keeps.refl _
      | apply State.stopTimer_keeps
      | apply State.settle_keeps
      | apply State.dropCopy_keeps
      | apply State.setPreempt_keeps
      | apply Keeps.foldl
      | apply Keeps.foldl_snd
      | dsimp only
      | split
      | (refine Keeps.of_some (by assumption) ?_)
      | (refine Keeps.of_snd (by assumption) ?_)
      | (refine Keeps.of_snd_snd (by assumption) ?_)
      | (intro _ _ _; beta_reduce)
      | (fail_if_no_progress apply Keeps.other)
      | intro _
  clear_value s1_0
  repeat' with_reducible first
    | assumption
    | exact Keeps.refl _
    | apply State.stopTimer_keeps
    | apply State.settle_keeps
    | apply State.dropCopy_keeps
    | apply State.setPreempt_keeps
    | apply Keeps.foldl
    | apply Keeps.foldl_snd
    | dsimp only
    | split
    | (refine Keeps.of_some (by assumption) ?_)
    | (refine Keeps.of_snd (by assumption) ?_)
    | (refine Keeps.of_snd_snd (by assumption) ?_)
    | (intro _ _ _; beta_reduce)
    | (fail_if_no_progress apply Keeps.other)
    | intro _

theorem execVerifyRx_keeps {r_ : State} (ch : Nat) (s : State) (h_ : Keeps r_ s) : KeepsNext r_ (execVerifyRx ch s) := by
  unfold execVerifyRx
  repeat' with_reducible first
    | assumption
    | exact Keeps.refl _
    | apply KeepsNext.next
    | apply KeepsNext.refused
    | apply State.sendMPacket_keeps
    | apply Keeps.foldl
    | apply Keeps.foldl_snd
    | dsimp only
    | split
    | (refine Keeps.of_some (by assumption) ?_)
    | (refine Keeps.of_snd (by assumption) ?_)
    | (refine Keeps.of_snd_snd (by assumption) ?_)
    | (intro _ _ _; beta_reduce)
    | (fail_if_no_progress apply Keeps.other)
    | intro _

theorem execRespondRx_keeps {r_ : State} (ch : Nat) (s : State) (h_ : Keeps r_ s) : KeepsNext r_ (execRespondRx ch s) := by
  unfold execRespondRx
  repeat' with_reducible first
    | assumption
    | exact Keeps.refl _
    | apply KeepsNext.next
    | apply KeepsNext.refused
    | apply State.stopTimer_keeps
    | apply State.setPreempt_keeps
    | apply Keeps.foldl
    | apply Keeps.foldl_snd
    | dsimp only
    | split
    | (refine Keeps.of_some (by assumption) ?_)
    | (refine Keeps.of_snd (by assumption) ?_)
    | (refine Keeps.of_snd_snd (by assumption) ?_)
    | (intro _ _ _; beta_reduce)
    | (fail_if_no_progress apply Keeps.other)
    | intro _

theorem State.verifyExpire_keeps {r_ : State} (s : State) (ch : Nat) (h_ : Keeps r_ s) : Keeps r_ (State.verifyExpire s ch) := by
  unfold State.verifyExpire
  repeat' with_reducible first
    | assumption
    | exact Keeps.refl _
    | apply State.stopTimer_keeps
    | apply State.bump_keeps
    | apply State.latch_keeps
    | apply State.setPreempt_keeps
    | apply State.sendVerify_keeps
    | apply Keeps.foldl
    | apply Keeps.foldl_snd
    | dsimp only
    | split
    | (refine Keeps.of_some (by assumption) ?_)
    | (refine Keeps.of_snd (by assumption) ?_)
    | (refine Keeps.of_snd_snd (by assumption) ?_)
    | (intro _ _ _; beta_reduce)
    | (fail_if_no_progress apply Keeps.other)
    | intro _

theorem execVerifyTimeExpire_keeps {r_ : State} (ch : Nat) (s : State) (h_ : Keeps r_ s) : KeepsNext r_ (execVerifyTimeExpire ch s) := by
  unfold execVerifyTimeExpire
  repeat' with_reducible first
    | assumption
    | exact Keeps.refl _
    | apply KeepsNext.next
    | apply KeepsNext.refused
    | apply State.wake_keeps
    | apply State.verifyExpire_keeps
    | apply Keeps.foldl
    | apply Keeps.foldl_snd
    | dsimp only
    | split
    | (refine Keeps.of_some (by assumption) ?_)
    | (refine Keeps.of_snd (by assumption) ?_)
    | (refine Keeps.of_snd_snd (by assumption) ?_)
    | (intro _ _ _; beta_reduce)
    | (fail_if_no_progress apply Keeps.other)
    | intro _

theorem State.storeUnfolded_keeps {r_ : State} (s : State) (ch : Nat) (header : List Octet) (l : List Octet) (time : Nat × Nat) (h_ : Keeps r_ s) : Keeps r_ (State.storeUnfolded s ch header l time) := by
  unfold State.storeUnfolded
  extract_lets +onlyGivenNames f0_0 o_1 f1_2 f2_3
  try clear_value f0_0
  try clear_value o_1
  try clear_value f1_2
  try clear_value f2_3
  repeat' with_reducible first
    | assumption
    | exact Keeps.refl _
    | apply State.bump_keeps
    | apply State.latch_keeps
    | apply State.charged_keeps
    | apply State.addFrame_keeps
    | apply State.passFrame_keeps
    | apply Keeps.foldl
    | apply Keeps.foldl_snd
    | dsimp only
    | split
    | (refine Keeps.of_some (by assumption) ?_)
    | (refine Keeps.of_snd (by assumption) ?_)
    | (refine Keeps.of_snd_snd (by assumption) ?_)
    | (intro _ _ _; beta_reduce)
    | (fail_if_no_progress apply Keeps.other)
    | intro _

theorem execFoldDataRx_keeps {r_ : State} (ch : Nat) (frame : List Octet) (eccBad : Bool) (crossing : Nat) (s : State) (h_ : Keeps r_ s) : KeepsNext r_ (execFoldDataRx ch frame eccBad crossing s) := by
  unfold execFoldDataRx
  repeat' with_reducible first
    | assumption
    | exact Keeps.refl _
    | apply KeepsNext.next
    | apply KeepsNext.refused
    | apply State.bump_keeps
    | apply State.storeUnfolded_keeps
    | apply Keeps.foldl
    | apply Keeps.foldl_snd
    | dsimp only
    | split
    | (refine Keeps.of_some (by assumption) ?_)
    | (refine Keeps.of_snd (by assumption) ?_)
    | (refine Keeps.of_snd_snd (by assumption) ?_)
    | (intro _ _ _; beta_reduce)
    | (fail_if_no_progress apply Keeps.other)
    | intro _

theorem execTemplateInstallRx_keeps {r_ : State} (ch : Nat) (frame : List Octet) (s : State) (h_ : Keeps r_ s) : KeepsNext r_ (execTemplateInstallRx ch frame s) := by
  unfold execTemplateInstallRx
  extract_lets +onlyGivenNames b_0 hl_1
  try clear_value b_0
  try clear_value hl_1
  repeat' with_reducible first
    | assumption
    | exact Keeps.refl _
    | apply KeepsNext.next
    | apply KeepsNext.refused
    | apply State.bump_keeps
    | apply State.setFoldSlot_keeps
    | apply Keeps.foldl
    | apply Keeps.foldl_snd
    | dsimp only
    | split
    | (refine Keeps.of_some (by assumption) ?_)
    | (refine Keeps.of_snd (by assumption) ?_)
    | (refine Keeps.of_snd_snd (by assumption) ?_)
    | (intro _ _ _; beta_reduce)
    | (fail_if_no_progress apply Keeps.other)
    | intro _

theorem execFoldNakRx_keeps {r_ : State} (ch : Nat) (frame : List Octet) (s : State) (h_ : Keeps r_ s) : KeepsNext r_ (execFoldNakRx ch frame s) := by
  unfold execFoldNakRx
  repeat' with_reducible first
    | assumption
    | exact Keeps.refl _
    | apply KeepsNext.next
    | apply KeepsNext.refused
    | apply State.stopTimer_keeps
    | apply State.bump_keeps
    | apply State.record_keeps
    | apply State.setFoldSlot_keeps
    | apply State.startCopy_keeps
    | apply Keeps.foldl
    | apply Keeps.foldl_snd
    | dsimp only
    | split
    | (refine Keeps.of_some (by assumption) ?_)
    | (refine Keeps.of_snd (by assumption) ?_)
    | (refine Keeps.of_snd_snd (by assumption) ?_)
    | (intro _ _ _; beta_reduce)
    | (fail_if_no_progress apply Keeps.other)
    | intro _

theorem State.sendFold_keeps {r_ : State} (s : State) (ch : Nat) (g : GenFrame) (h_ : Keeps r_ s) : Keeps r_ (State.sendFold s ch g) := by
  unfold State.sendFold
  repeat' with_reducible first
    | assumption
    | exact Keeps.refl _
    | apply State.bump_keeps
    | apply State.resume_keeps
    | apply State.sendGenerated_keeps
    | apply State.clearFor_keeps
    | apply State.genDone_keeps
    | apply Keeps.foldl
    | apply Keeps.foldl_snd
    | dsimp only
    | split
    | (refine Keeps.of_some (by assumption) ?_)
    | (refine Keeps.of_snd (by assumption) ?_)
    | (refine Keeps.of_snd_snd (by assumption) ?_)
    | (intro _ _ _; beta_reduce)
    | (fail_if_no_progress apply Keeps.other)
    | intro _

theorem execTemplateInstallTx_keeps {r_ : State} (ch : Nat) (s : State) (h_ : Keeps r_ s) : KeepsNext r_ (execTemplateInstallTx ch s) := by
  unfold execTemplateInstallTx
  repeat' with_reducible first
    | assumption
    | exact Keeps.refl _
    | apply KeepsNext.next
    | apply KeepsNext.refused
    | apply State.sendFold_keeps
    | apply Keeps.foldl
    | apply Keeps.foldl_snd
    | dsimp only
    | split
    | (refine Keeps.of_some (by assumption) ?_)
    | (refine Keeps.of_snd (by assumption) ?_)
    | (refine Keeps.of_snd_snd (by assumption) ?_)
    | (intro _ _ _; beta_reduce)
    | (fail_if_no_progress apply Keeps.other)
    | intro _

theorem execFoldNakTx_keeps {r_ : State} (ch : Nat) (s : State) (h_ : Keeps r_ s) : KeepsNext r_ (execFoldNakTx ch s) := by
  unfold execFoldNakTx
  repeat' with_reducible first
    | assumption
    | exact Keeps.refl _
    | apply KeepsNext.next
    | apply KeepsNext.refused
    | apply State.sendFold_keeps
    | apply Keeps.foldl
    | apply Keeps.foldl_snd
    | dsimp only
    | split
    | (refine Keeps.of_some (by assumption) ?_)
    | (refine Keeps.of_snd (by assumption) ?_)
    | (refine Keeps.of_snd_snd (by assumption) ?_)
    | (intro _ _ _; beta_reduce)
    | (fail_if_no_progress apply Keeps.other)
    | intro _

theorem State.foldRelease_keeps {r_ : State} (s : State) (ch : Nat) (fseq : Nat) (h_ : Keeps r_ s) : Keeps r_ (State.foldRelease s ch fseq) := by
  unfold State.foldRelease
  extract_lets +onlyGivenNames s1_0
  have h_s1_0 : Keeps r_ s1_0 := by
    unfold s1_0
    repeat' with_reducible first
      | assumption
      | exact Keeps.refl _
      | apply State.stopTimer_keeps
      | apply State.settle_keeps
      | apply State.dropCopy_keeps
      | apply Keeps.foldl
      | apply Keeps.foldl_snd
      | dsimp only
      | split
      | (refine Keeps.of_some (by assumption) ?_)
      | (refine Keeps.of_snd (by assumption) ?_)
      | (refine Keeps.of_snd_snd (by assumption) ?_)
      | (intro _ _ _; beta_reduce)
      | (fail_if_no_progress apply Keeps.other)
      | intro _
  clear_value s1_0
  repeat' with_reducible first
    | assumption
    | exact Keeps.refl _
    | apply State.stopTimer_keeps
    | apply State.settle_keeps
    | apply State.dropCopy_keeps
    | apply Keeps.foldl
    | apply Keeps.foldl_snd
    | dsimp only
    | split
    | (refine Keeps.of_some (by assumption) ?_)
    | (refine Keeps.of_snd (by assumption) ?_)
    | (refine Keeps.of_snd_snd (by assumption) ?_)
    | (intro _ _ _; beta_reduce)
    | (fail_if_no_progress apply Keeps.other)
    | intro _

theorem execFoldHoldExpire_keeps {r_ : State} (ch : Nat) (fseq : Nat) (s : State) (h_ : Keeps r_ s) : KeepsNext r_ (execFoldHoldExpire ch fseq s) := by
  unfold execFoldHoldExpire
  repeat' with_reducible first
    | assumption
    | exact Keeps.refl _
    | apply KeepsNext.next
    | apply KeepsNext.refused
    | apply State.wake_keeps
    | apply State.pump_keeps
    | apply State.foldRelease_keeps
    | apply Keeps.foldl
    | apply Keeps.foldl_snd
    | dsimp only
    | split
    | (refine Keeps.of_some (by assumption) ?_)
    | (refine Keeps.of_snd (by assumption) ?_)
    | (refine Keeps.of_snd_snd (by assumption) ?_)
    | (intro _ _ _; beta_reduce)
    | (fail_if_no_progress apply Keeps.other)
    | intro _

theorem State.foldFlush_keeps {r_ : State} (s : State) (h_ : Keeps r_ s) : Keeps r_ (State.foldFlush s) := by
  unfold State.foldFlush
  repeat' with_reducible first
    | assumption
    | exact Keeps.refl _
    | apply State.setEnt_keeps
    | apply State.templateCheck_keeps
    | apply Keeps.foldl
    | apply Keeps.foldl_snd
    | dsimp only
    | split
    | (refine Keeps.of_some (by assumption) ?_)
    | (refine Keeps.of_snd (by assumption) ?_)
    | (refine Keeps.of_snd_snd (by assumption) ?_)
    | (intro _ _ _; beta_reduce)
    | (fail_if_no_progress apply Keeps.other)
    | intro _

end Sys2Proof.Machine
end

