-- ==== Sys2Proof/Laws/KeepsInterrupt.lean ====
section
/-! SUPPORT. What the operations of Interrupt.lean keep (Keeps.lean). -/
set_option linter.unusedTactic false
set_option linter.unreachableTactic false
namespace Sys2Proof.Machine

theorem State.sampleLevel_keeps {r_ : State} (s : State) (src : Nat) (h_ : Keeps r_ s) : Keeps r_ (State.sampleLevel s src) := by
  unfold State.sampleLevel
  repeat' with_reducible first
    | assumption
    | exact Keeps.refl _
    | apply State.setReg_keeps
    | apply State.setSrc_keeps
    | apply Keeps.foldl
    | apply Keeps.foldl_snd
    | dsimp only
    | split
    | (refine Keeps.of_some (by assumption) ?_)
    | (refine Keeps.of_snd (by assumption) ?_)
    | (refine Keeps.of_snd_snd (by assumption) ?_)
    | (intro _ _ _; beta_reduce)
    | (fail_if_no_progress apply Keeps.other)
    | intro _

theorem State.sharedState_keeps {r_ : State} (s : State) (src : Nat) (h_ : Keeps r_ s) : Keeps r_ (State.sharedState s src) := by
  unfold State.sharedState
  extract_lets +onlyGivenNames any_0
  try clear_value any_0
  repeat' with_reducible first
    | assumption
    | exact Keeps.refl _
    | apply State.setSrc_keeps
    | apply Keeps.foldl
    | apply Keeps.foldl_snd
    | dsimp only
    | split
    | (refine Keeps.of_some (by assumption) ?_)
    | (refine Keeps.of_snd (by assumption) ?_)
    | (refine Keeps.of_snd_snd (by assumption) ?_)
    | (intro _ _ _; beta_reduce)
    | (fail_if_no_progress apply Keeps.other)
    | intro _

theorem State.moveLatches_keeps {r_ : State} (s : State) (h_ : Keeps r_ s) : Keeps r_ (State.moveLatches s) := by
  unfold State.moveLatches
  repeat' with_reducible first
    | assumption
    | exact Keeps.refl _
    | apply State.sharedState_keeps
    | apply Keeps.foldl
    | apply Keeps.foldl_snd
    | dsimp only
    | split
    | (refine Keeps.of_some (by assumption) ?_)
    | (refine Keeps.of_snd (by assumption) ?_)
    | (refine Keeps.of_snd_snd (by assumption) ?_)
    | (intro _ _ _; beta_reduce)
    | (fail_if_no_progress apply Keeps.other)
    | intro _

theorem State.eqLine_keeps {r_ : State} (s : State) (p : Nat) (h_ : Keeps r_ s) : Keeps r_ (State.eqLine s p) := by
  unfold State.eqLine
  extract_lets +onlyGivenNames u_0 r_1 a_2
  try clear_value u_0
  try clear_value a_2
  repeat' with_reducible first
    | assumption
    | exact Keeps.refl _
    | apply State.setReg_keeps
    | apply Keeps.foldl
    | apply Keeps.foldl_snd
    | dsimp only
    | split
    | (refine Keeps.of_some (by assumption) ?_)
    | (refine Keeps.of_snd (by assumption) ?_)
    | (refine Keeps.of_snd_snd (by assumption) ?_)
    | (intro _ _ _; beta_reduce)
    | (fail_if_no_progress apply Keeps.other)
    | intro _

theorem State.afterRecord_keeps {r_ : State} (s : State) (src : Nat) (cause : Nat) (h_ : Keeps r_ s) : Keeps r_ (State.afterRecord s src cause) := by
  unfold State.afterRecord
  repeat' with_reducible first
    | assumption
    | exact Keeps.refl _
    | apply State.setSrc_keeps
    | apply State.sharedState_keeps
    | apply Keeps.foldl
    | apply Keeps.foldl_snd
    | dsimp only
    | split
    | (refine Keeps.of_some (by assumption) ?_)
    | (refine Keeps.of_snd (by assumption) ?_)
    | (refine Keeps.of_snd_snd (by assumption) ?_)
    | (intro _ _ _; beta_reduce)
    | (fail_if_no_progress apply Keeps.other)
    | intro _

theorem State.deliverRecord_keeps {r_ : State} (s : State) (p : Nat) (src : Nat) (h_ : Keeps r_ s) : Keeps r_ (State.deliverRecord s p src) := by
  unfold State.deliverRecord
  extract_lets +onlyGivenNames u_0 b_1 what_2 w_3 s1_4 s2_5
  try clear_value u_0
  try clear_value b_1
  try clear_value what_2
  have h_s1_4 : Keeps r_ s1_4 := by
    unfold s1_4
    repeat' with_reducible first
      | assumption
      | exact Keeps.refl _
      | apply State.wr_keeps
      | apply State.bump_keeps
      | apply State.mpIssue_keeps
      | apply State.afterRecord_keeps
      | apply Keeps.foldl
      | apply Keeps.foldl_snd
      | dsimp only
      | split
      | (refine Keeps.of_some (by assumption) ?_)
      | (refine Keeps.of_snd (by assumption) ?_)
      | (refine Keeps.of_snd_snd (by assumption) ?_)
      | (intro _ _ _; beta_reduce)
      | (fail_if_no_progress apply Keeps.other)
      | intro _
  clear_value s1_4
  have h_s2_5 : Keeps r_ s2_5 := by
    unfold s2_5
    repeat' with_reducible first
      | assumption
      | exact Keeps.refl _
      | apply State.wr_keeps
      | apply State.bump_keeps
      | apply State.mpIssue_keeps
      | apply State.afterRecord_keeps
      | apply Keeps.foldl
      | apply Keeps.foldl_snd
      | dsimp only
      | split
      | (refine Keeps.of_some (by assumption) ?_)
      | (refine Keeps.of_snd (by assumption) ?_)
      | (refine Keeps.of_snd_snd (by assumption) ?_)
      | (intro _ _ _; beta_reduce)
      | (fail_if_no_progress apply Keeps.other)
      | intro _
  clear_value s2_5
  repeat' with_reducible first
    | assumption
    | exact Keeps.refl _
    | apply State.wr_keeps
    | apply State.bump_keeps
    | apply State.mpIssue_keeps
    | apply State.afterRecord_keeps
    | apply Keeps.foldl
    | apply Keeps.foldl_snd
    | dsimp only
    | split
    | (refine Keeps.of_some (by assumption) ?_)
    | (refine Keeps.of_snd (by assumption) ?_)
    | (refine Keeps.of_snd_snd (by assumption) ?_)
    | (intro _ _ _; beta_reduce)
    | (fail_if_no_progress apply Keeps.other)
    | intro _

theorem State.eqRetry_keeps {r_ : State} (s : State) (p : Nat) (h_ : Keeps r_ s) : Keeps r_ (State.eqRetry s p) := by
  unfold State.eqRetry
  extract_lets +onlyGivenNames mine_0
  try clear_value mine_0
  repeat' with_reducible first
    | assumption
    | exact Keeps.refl _
    | apply State.mpIssue_keeps
    | apply Keeps.foldl
    | apply Keeps.foldl_snd
    | dsimp only
    | split
    | (refine Keeps.of_some (by assumption) ?_)
    | (refine Keeps.of_snd (by assumption) ?_)
    | (refine Keeps.of_snd_snd (by assumption) ?_)
    | (intro _ _ _; beta_reduce)
    | (fail_if_no_progress apply Keeps.other)
    | intro _

theorem State.countFull_keeps {r_ : State} (s : State) (p : Nat) (h_ : Keeps r_ s) : Keeps r_ (State.countFull s p) := by
  unfold State.countFull
  repeat' with_reducible first
    | assumption
    | exact Keeps.refl _
    | apply State.setReg_keeps
    | apply State.bump_keeps
    | apply Keeps.foldl
    | apply Keeps.foldl_snd
    | dsimp only
    | split
    | (refine Keeps.of_some (by assumption) ?_)
    | (refine Keeps.of_snd (by assumption) ?_)
    | (refine Keeps.of_snd_snd (by assumption) ?_)
    | (intro _ _ _; beta_reduce)
    | (fail_if_no_progress apply Keeps.other)
    | intro _

theorem State.deliver_keeps {r_ : State} (s : State) (p : Nat) (h_ : Keeps r_ s) : Keeps r_ (State.deliver s p) := by
  unfold State.deliver
  repeat' with_reducible first
    | assumption
    | exact Keeps.refl _
    | apply State.deliverRecord_keeps
    | apply State.eqRetry_keeps
    | apply State.countFull_keeps
    | apply Keeps.foldl
    | apply Keeps.foldl_snd
    | dsimp only
    | split
    | (refine Keeps.of_some (by assumption) ?_)
    | (refine Keeps.of_snd (by assumption) ?_)
    | (refine Keeps.of_snd_snd (by assumption) ?_)
    | (intro _ _ _; beta_reduce)
    | (fail_if_no_progress apply Keeps.other)
    | intro _

theorem execEventDelivery_keeps {r_ : State} (proc : Nat) (s : State) (h_ : Keeps r_ s) : KeepsNext r_ (execEventDelivery proc s) := by
  unfold execEventDelivery
  repeat' with_reducible first
    | assumption
    | exact Keeps.refl _
    | apply KeepsNext.next
    | apply KeepsNext.refused
    | apply gathered_keeps
    | apply State.deliver_keeps
    | apply Keeps.foldl
    | apply Keeps.foldl_snd
    | dsimp only
    | split
    | (refine Keeps.of_some (by assumption) ?_)
    | (refine Keeps.of_snd (by assumption) ?_)
    | (refine Keeps.of_snd_snd (by assumption) ?_)
    | (intro _ _ _; beta_reduce)
    | (fail_if_no_progress apply Keeps.other)
    | intro _

theorem State.eqWritten_keeps {r_ : State} (s : State) (p : Nat) (h_ : Keeps r_ s) : Keeps r_ (State.eqWritten s p) := by
  unfold State.eqWritten
  extract_lets +onlyGivenNames s1_0
  have h_s1_0 : Keeps r_ s1_0 := by
    unfold s1_0
    repeat' with_reducible first
      | assumption
      | exact Keeps.refl _
      | apply State.setReg_keeps
      | apply State.eqLine_keeps
      | apply Keeps.foldl
      | apply Keeps.foldl_snd
      | dsimp only
      | split
      | (refine Keeps.of_some (by assumption) ?_)
      | (refine Keeps.of_snd (by assumption) ?_)
      | (refine Keeps.of_snd_snd (by assumption) ?_)
      | (intro _ _ _; beta_reduce)
      | (fail_if_no_progress apply Keeps.other)
      | intro _
  clear_value s1_0
  repeat' with_reducible first
    | assumption
    | exact Keeps.refl _
    | apply State.setReg_keeps
    | apply State.eqLine_keeps
    | apply Keeps.foldl
    | apply Keeps.foldl_snd
    | dsimp only
    | split
    | (refine Keeps.of_some (by assumption) ?_)
    | (refine Keeps.of_snd (by assumption) ?_)
    | (refine Keeps.of_snd_snd (by assumption) ?_)
    | (intro _ _ _; beta_reduce)
    | (fail_if_no_progress apply Keeps.other)
    | intro _

theorem State.eqFailed_keeps {r_ : State} (s : State) (p : Nat) (o : MpOp) (h_ : Keeps r_ s) : Keeps r_ (State.eqFailed s p o) := by
  unfold State.eqFailed
  extract_lets +onlyGivenNames s1_0
  have h_s1_0 : Keeps r_ s1_0 := by
    unfold s1_0
    repeat' with_reducible first
      | assumption
      | exact Keeps.refl _
      | apply State.setReg_keeps
      | apply State.bump_keeps
      | apply State.latch_keeps
      | apply State.record_keeps
      | apply Keeps.foldl
      | apply Keeps.foldl_snd
      | dsimp only
      | split
      | (refine Keeps.of_some (by assumption) ?_)
      | (refine Keeps.of_snd (by assumption) ?_)
      | (refine Keeps.of_snd_snd (by assumption) ?_)
      | (intro _ _ _; beta_reduce)
      | (fail_if_no_progress apply Keeps.other)
      | intro _
  clear_value s1_0
  repeat' with_reducible first
    | assumption
    | exact Keeps.refl _
    | apply State.setReg_keeps
    | apply State.bump_keeps
    | apply State.latch_keeps
    | apply State.record_keeps
    | apply Keeps.foldl
    | apply Keeps.foldl_snd
    | dsimp only
    | split
    | (refine Keeps.of_some (by assumption) ?_)
    | (refine Keeps.of_snd (by assumption) ?_)
    | (refine Keeps.of_snd_snd (by assumption) ?_)
    | (intro _ _ _; beta_reduce)
    | (fail_if_no_progress apply Keeps.other)
    | intro _

theorem State.applyArb_keeps {r_ : State} (s : State) (w : ArbWrite) (h_ : Keeps r_ s) : Keeps r_ (State.applyArb s w) := by
  unfold State.applyArb
  repeat' with_reducible first
    | assumption
    | exact Keeps.refl _
    | apply State.setEntField_keeps
    | apply State.setReg_keeps
    | apply Keeps.foldl
    | apply Keeps.foldl_snd
    | dsimp only
    | split
    | (refine Keeps.of_some (by assumption) ?_)
    | (refine Keeps.of_snd (by assumption) ?_)
    | (refine Keeps.of_snd_snd (by assumption) ?_)
    | (intro _ _ _; beta_reduce)
    | (fail_if_no_progress apply Keeps.other)
    | intro _

theorem State.applyArbs_keeps {r_ : State} (s : State) (h_ : Keeps r_ s) : Keeps r_ (State.applyArbs s) := by
  unfold State.applyArbs
  repeat' with_reducible first
    | assumption
    | exact Keeps.refl _
    | apply State.applyArb_keeps
    | apply Keeps.foldl
    | apply Keeps.foldl_snd
    | dsimp only
    | split
    | (refine Keeps.of_some (by assumption) ?_)
    | (refine Keeps.of_snd (by assumption) ?_)
    | (refine Keeps.of_snd_snd (by assumption) ?_)
    | (intro _ _ _; beta_reduce)
    | (fail_if_no_progress apply Keeps.other)
    | intro _

theorem State.interruptStep_keeps {r_ : State} (s : State) (h_ : Keeps r_ s) : Keeps r_ (State.interruptStep s) := by
  unfold State.interruptStep
  extract_lets +onlyGivenNames s1_0
  have h_s1_0 : Keeps r_ s1_0 := by
    unfold s1_0
    repeat' with_reducible first
      | assumption
      | exact Keeps.refl _
      | apply State.sampleLevel_keeps
      | apply State.moveLatches_keeps
      | apply State.deliver_keeps
      | apply State.applyArbs_keeps
      | apply Keeps.foldl
      | apply Keeps.foldl_snd
      | dsimp only
      | split
      | (refine Keeps.of_some (by assumption) ?_)
      | (refine Keeps.of_snd (by assumption) ?_)
      | (refine Keeps.of_snd_snd (by assumption) ?_)
      | (intro _ _ _; beta_reduce)
      | (fail_if_no_progress apply Keeps.other)
      | intro _
  clear_value s1_0
  repeat' with_reducible first
    | assumption
    | exact Keeps.refl _
    | apply State.sampleLevel_keeps
    | apply State.moveLatches_keeps
    | apply State.deliver_keeps
    | apply State.applyArbs_keeps
    | apply Keeps.foldl
    | apply Keeps.foldl_snd
    | dsimp only
    | split
    | (refine Keeps.of_some (by assumption) ?_)
    | (refine Keeps.of_snd (by assumption) ?_)
    | (refine Keeps.of_snd_snd (by assumption) ?_)
    | (intro _ _ _; beta_reduce)
    | (fail_if_no_progress apply Keeps.other)
    | intro _

theorem State.strayCount_keeps {r_ : State} (s : State) (h_ : Keeps r_ s) : Keeps r_ (State.strayCount s) := by
  unfold State.strayCount
  repeat' with_reducible first
    | assumption
    | exact Keeps.refl _
    | apply State.bump_keeps
    | apply State.latch_keeps
    | apply Keeps.foldl
    | apply Keeps.foldl_snd
    | dsimp only
    | split
    | (refine Keeps.of_some (by assumption) ?_)
    | (refine Keeps.of_snd (by assumption) ?_)
    | (refine Keeps.of_snd_snd (by assumption) ?_)
    | (intro _ _ _; beta_reduce)
    | (fail_if_no_progress apply Keeps.other)
    | intro _

theorem State.eqHead_keeps {r_ : State} (s : State) (p : Nat) (head : Nat) (h_ : Keeps r_ s) : Keeps r_ (State.eqHead s p head) := by
  unfold State.eqHead
  extract_lets +onlyGivenNames u_0 r_1
  try clear_value u_0
  repeat' with_reducible first
    | assumption
    | exact Keeps.refl _
    | apply State.wr_keeps
    | apply State.bump_keeps
    | apply State.eqLine_keeps
    | apply Keeps.foldl
    | apply Keeps.foldl_snd
    | dsimp only
    | split
    | (refine Keeps.of_some (by assumption) ?_)
    | (refine Keeps.of_snd (by assumption) ?_)
    | (refine Keeps.of_snd_snd (by assumption) ?_)
    | (intro _ _ _; beta_reduce)
    | (fail_if_no_progress apply Keeps.other)
    | intro _

theorem State.completeSource_keeps {r_ : State} (s : State) (p : Nat) (src : Nat) (h_ : Keeps r_ s) : Keeps r_ (State.completeSource s p src) := by
  unfold State.completeSource
  repeat' with_reducible first
    | assumption
    | exact Keeps.refl _
    | apply State.setSrc_keeps
    | apply State.record_keeps
    | apply State.strayCount_keeps
    | apply Keeps.foldl
    | apply Keeps.foldl_snd
    | dsimp only
    | split
    | (refine Keeps.of_some (by assumption) ?_)
    | (refine Keeps.of_snd (by assumption) ?_)
    | (refine Keeps.of_snd_snd (by assumption) ?_)
    | (intro _ _ _; beta_reduce)
    | (fail_if_no_progress apply Keeps.other)
    | intro _

theorem State.completeTaken_keeps {r_ : State} (s : State) (p : Nat) (word : Nat) (h_ : Keeps r_ s) : Keeps r_ (State.completeTaken s p word) := by
  unfold State.completeTaken
  repeat' with_reducible first
    | assumption
    | exact Keeps.refl _
    | apply State.strayCount_keeps
    | apply State.eqHead_keeps
    | apply State.completeSource_keeps
    | apply Keeps.foldl
    | apply Keeps.foldl_snd
    | dsimp only
    | split
    | (refine Keeps.of_some (by assumption) ?_)
    | (refine Keeps.of_snd (by assumption) ?_)
    | (refine Keeps.of_snd_snd (by assumption) ?_)
    | (intro _ _ _; beta_reduce)
    | (fail_if_no_progress apply Keeps.other)
    | intro _

theorem State.blockTaken_keeps {r_ : State} (s : State) (w : BlockWrite) (h_ : Keeps r_ s) : Keeps r_ (State.blockTaken s w) := by
  unfold State.blockTaken
  repeat' with_reducible first
    | assumption
    | exact Keeps.refl _
    | apply State.setReg_keeps
    | apply State.completeTaken_keeps
    | apply Keeps.foldl
    | apply Keeps.foldl_snd
    | dsimp only
    | split
    | (refine Keeps.of_some (by assumption) ?_)
    | (refine Keeps.of_snd (by assumption) ?_)
    | (refine Keeps.of_snd_snd (by assumption) ?_)
    | (intro _ _ _; beta_reduce)
    | (fail_if_no_progress apply Keeps.other)
    | intro _

theorem State.blockWrite_keeps {r_ : State} (s : State) (w : BlockWrite) (h_ : Keeps r_ s) : Keeps r_ (State.blockWrite s w) := by
  unfold State.blockWrite
  repeat' with_reducible first
    | assumption
    | exact Keeps.refl _
    | apply State.blockTaken_keeps
    | apply Keeps.foldl
    | apply Keeps.foldl_snd
    | dsimp only
    | split
    | (refine Keeps.of_some (by assumption) ?_)
    | (refine Keeps.of_snd (by assumption) ?_)
    | (refine Keeps.of_snd_snd (by assumption) ?_)
    | (intro _ _ _; beta_reduce)
    | (fail_if_no_progress apply Keeps.other)
    | intro _

theorem State.blockAccept_keeps {r_ : State} (s : State) (h_ : Keeps r_ s) : Keeps r_ (State.blockAccept s) := by
  unfold State.blockAccept
  repeat' with_reducible first
    | assumption
    | exact Keeps.refl _
    | apply State.blockWrite_keeps
    | apply Keeps.foldl
    | apply Keeps.foldl_snd
    | dsimp only
    | split
    | (refine Keeps.of_some (by assumption) ?_)
    | (refine Keeps.of_snd (by assumption) ?_)
    | (refine Keeps.of_snd_snd (by assumption) ?_)
    | (intro _ _ _; beta_reduce)
    | (fail_if_no_progress apply Keeps.other)
    | intro _

theorem State.completeWord_keeps {r_ : State} (s : State) (p : Nat) (word : Nat) (width64 : Bool) (h_ : Keeps r_ s) : Keeps r_ (State.completeWord s p word width64) := by
  unfold State.completeWord
  repeat' with_reducible first
    | assumption
    | exact Keeps.refl _
    | apply State.strayCount_keeps
    | apply State.blockWrite_keeps
    | apply Keeps.foldl
    | apply Keeps.foldl_snd
    | dsimp only
    | split
    | (refine Keeps.of_some (by assumption) ?_)
    | (refine Keeps.of_snd (by assumption) ?_)
    | (refine Keeps.of_snd_snd (by assumption) ?_)
    | (intro _ _ _; beta_reduce)
    | (fail_if_no_progress apply Keeps.other)
    | intro _

theorem execEqHeadReturn_keeps {r_ : State} (proc : Nat) (word : Nat) (width64 : Bool) (s : State) (h_ : Keeps r_ s) : KeepsNext r_ (execEqHeadReturn proc word width64 s) := by
  unfold execEqHeadReturn
  repeat' with_reducible first
    | assumption
    | exact Keeps.refl _
    | apply KeepsNext.next
    | apply KeepsNext.refused
    | apply State.wake_keeps
    | apply State.completeWord_keeps
    | apply Keeps.foldl
    | apply Keeps.foldl_snd
    | dsimp only
    | split
    | (refine Keeps.of_some (by assumption) ?_)
    | (refine Keeps.of_snd (by assumption) ?_)
    | (refine Keeps.of_snd_snd (by assumption) ?_)
    | (intro _ _ _; beta_reduce)
    | (fail_if_no_progress apply Keeps.other)
    | intro _

theorem execSourceComplete_keeps {r_ : State} (proc : Nat) (word : Nat) (width64 : Bool) (s : State) (h_ : Keeps r_ s) : KeepsNext r_ (execSourceComplete proc word width64 s) := by
  unfold execSourceComplete
  repeat' with_reducible first
    | assumption
    | exact Keeps.refl _
    | apply KeepsNext.next
    | apply KeepsNext.refused
    | apply State.wake_keeps
    | apply State.completeWord_keeps
    | apply Keeps.foldl
    | apply Keeps.foldl_snd
    | dsimp only
    | split
    | (refine Keeps.of_some (by assumption) ?_)
    | (refine Keeps.of_snd (by assumption) ?_)
    | (refine Keeps.of_snd_snd (by assumption) ?_)
    | (intro _ _ _; beta_reduce)
    | (fail_if_no_progress apply Keeps.other)
    | intro _

theorem State.controlWord_keeps {r_ : State} (s : State) (p : Nat) (word : Nat) (width64 : Bool) (h_ : Keeps r_ s) : Keeps r_ (State.controlWord s p word width64) := by
  unfold State.controlWord
  repeat' with_reducible first
    | assumption
    | exact Keeps.refl _
    | apply State.strayCount_keeps
    | apply State.blockWrite_keeps
    | apply Keeps.foldl
    | apply Keeps.foldl_snd
    | dsimp only
    | split
    | (refine Keeps.of_some (by assumption) ?_)
    | (refine Keeps.of_snd (by assumption) ?_)
    | (refine Keeps.of_snd_snd (by assumption) ?_)
    | (intro _ _ _; beta_reduce)
    | (fail_if_no_progress apply Keeps.other)
    | intro _

theorem execMaskWrite_keeps {r_ : State} (proc : Nat) (word : Nat) (width64 : Bool) (s : State) (h_ : Keeps r_ s) : KeepsNext r_ (execMaskWrite proc word width64 s) := by
  unfold execMaskWrite
  repeat' with_reducible first
    | assumption
    | exact Keeps.refl _
    | apply KeepsNext.next
    | apply KeepsNext.refused
    | apply State.wake_keeps
    | apply State.controlWord_keeps
    | apply Keeps.foldl
    | apply Keeps.foldl_snd
    | dsimp only
    | split
    | (refine Keeps.of_some (by assumption) ?_)
    | (refine Keeps.of_snd (by assumption) ?_)
    | (refine Keeps.of_snd_snd (by assumption) ?_)
    | (intro _ _ _; beta_reduce)
    | (fail_if_no_progress apply Keeps.other)
    | intro _

theorem execThresholdWrite_keeps {r_ : State} (proc : Nat) (word : Nat) (width64 : Bool) (s : State) (h_ : Keeps r_ s) : KeepsNext r_ (execThresholdWrite proc word width64 s) := by
  unfold execThresholdWrite
  repeat' with_reducible first
    | assumption
    | exact Keeps.refl _
    | apply KeepsNext.next
    | apply KeepsNext.refused
    | apply State.wake_keeps
    | apply State.controlWord_keeps
    | apply Keeps.foldl
    | apply Keeps.foldl_snd
    | dsimp only
    | split
    | (refine Keeps.of_some (by assumption) ?_)
    | (refine Keeps.of_snd (by assumption) ?_)
    | (refine Keeps.of_snd_snd (by assumption) ?_)
    | (intro _ _ _; beta_reduce)
    | (fail_if_no_progress apply Keeps.other)
    | intro _

theorem State.sourceEntryWrite_keeps {r_ : State} (s : State) (src : Nat) (v : Nat) (h_ : Keeps r_ s) : Keeps r_ (State.sourceEntryWrite s src v).2 := by
  unfold State.sourceEntryWrite
  repeat' with_reducible first
    | assumption
    | exact Keeps.refl _
    | apply Keeps.foldl
    | apply Keeps.foldl_snd
    | dsimp only
    | split
    | (refine Keeps.of_some (by assumption) ?_)
    | (refine Keeps.of_snd (by assumption) ?_)
    | (refine Keeps.of_snd_snd (by assumption) ?_)
    | (intro _ _ _; beta_reduce)
    | (fail_if_no_progress apply Keeps.other)
    | intro _

theorem State.testRaise_keeps {r_ : State} (s : State) (cause : Nat) (h_ : Keeps r_ s) : Keeps r_ (State.testRaise s cause).2 := by
  unfold State.testRaise
  repeat' with_reducible first
    | assumption
    | exact Keeps.refl _
    | apply State.raise_keeps
    | apply Keeps.foldl
    | apply Keeps.foldl_snd
    | dsimp only
    | split
    | (refine Keeps.of_some (by assumption) ?_)
    | (refine Keeps.of_snd (by assumption) ?_)
    | (refine Keeps.of_snd_snd (by assumption) ?_)
    | (intro _ _ _; beta_reduce)
    | (fail_if_no_progress apply Keeps.other)
    | intro _

theorem State.eqObjWrite_keeps {r_ : State} (s : State) (p : Nat) (i : Nat) (v : Nat) (h_ : Keeps r_ s) : Keeps r_ (State.eqObjWrite s p i v).2 := by
  unfold State.eqObjWrite
  extract_lets +onlyGivenNames u_0
  try clear_value u_0
  repeat' with_reducible first
    | assumption
    | exact Keeps.refl _
    | apply State.wr_keeps
    | apply State.setReg_keeps
    | apply State.eqLine_keeps
    | apply Keeps.foldl
    | apply Keeps.foldl_snd
    | dsimp only
    | split
    | (refine Keeps.of_some (by assumption) ?_)
    | (refine Keeps.of_snd (by assumption) ?_)
    | (refine Keeps.of_snd_snd (by assumption) ?_)
    | (intro _ _ _; beta_reduce)
    | (fail_if_no_progress apply Keeps.other)
    | intro _

end Sys2Proof.Machine
end

