-- ==== Sys2Proof/Laws/KeepsFlags.lean ====
section
/-! SUPPORT. What the operations of Flags.lean keep (Keeps.lean). -/
set_option linter.unusedTactic false
set_option linter.unreachableTactic false
namespace Sys2Proof.Machine

theorem State.recomputeAlarms_keeps {r_ : State} (s : State) (h_ : Keeps r_ s) : Keeps r_ (State.recomputeAlarms s) := by
  unfold State.recomputeAlarms
  repeat' with_reducible first
    | assumption
    | exact Keeps.refl _
    | apply State.setReg_keeps
    | apply Keeps.foldl
    | apply Keeps.foldl_snd
    | dsimp only
    | split
    | (refine Keeps.of_some (by assumption) ?_)
    | (refine Keeps.of_snd (by assumption) ?_)
    | (refine Keeps.of_snd_snd (by assumption) ?_)
    | (intro _ _ _; beta_reduce)
    | (fail_if_no_progress apply Keeps.other)
    | intro _

end Sys2Proof.Machine
end

