-- ==== Sys2Proof/Laws/KeepsGraticule.lean ====
section
/-! SUPPORT. What the operations of Graticule.lean keep (Keeps.lean). -/
set_option linter.unusedTactic false
set_option linter.unreachableTactic false
namespace Sys2Proof.Machine

theorem State.generate_keeps {r_ : State} (s : State) (ch : Nat) (octets : List Octet) (onFabric : Bool) (dst : Option Nat) (h_ : Keeps r_ s) : Keeps r_ (State.generate s ch octets onFabric dst) := by
  unfold State.generate
  extract_lets +onlyGivenNames f_0
  try clear_value f_0
  repeat' with_reducible first
    | assumption
    | exact Keeps.refl _
    | apply State.bump_keeps
    | apply State.latch_keeps
    | apply State.record_keeps
    | apply State.addFrame_keeps
    | apply State.placeCopy_keeps
    | apply Keeps.foldl
    | apply Keeps.foldl_snd
    | dsimp only
    | split
    | (refine Keeps.of_some (by assumption) ?_)
    | (refine Keeps.of_snd (by assumption) ?_)
    | (refine Keeps.of_snd_snd (by assumption) ?_)
    | (intro _ _ _; beta_reduce)
    | (fail_if_no_progress apply Keeps.other)
    | intro _

theorem State.sendControl_keeps {r_ : State} (s : State) (ch : Nat) (dst : Nat) (hop : Nat) (body : List Octet) (h_ : Keeps r_ s) : Keeps r_ (State.sendControl s ch dst hop body) := by
  unfold State.sendControl
  repeat' with_reducible first
    | assumption
    | exact Keeps.refl _
    | apply State.generate_keeps
    | apply Keeps.foldl
    | apply Keeps.foldl_snd
    | dsimp only
    | split
    | (refine Keeps.of_some (by assumption) ?_)
    | (refine Keeps.of_snd (by assumption) ?_)
    | (refine Keeps.of_snd_snd (by assumption) ?_)
    | (intro _ _ _; beta_reduce)
    | (fail_if_no_progress apply Keeps.other)
    | intro _

theorem State.sendLocal_keeps {r_ : State} (s : State) (lane : Nat) (body : List Octet) (h_ : Keeps r_ s) : Keeps r_ (State.sendLocal s lane body) := by
  unfold State.sendLocal
  repeat' with_reducible first
    | assumption
    | exact Keeps.refl _
    | apply State.sendControl_keeps
    | apply Keeps.foldl
    | apply Keeps.foldl_snd
    | dsimp only
    | split
    | (refine Keeps.of_some (by assumption) ?_)
    | (refine Keeps.of_snd (by assumption) ?_)
    | (refine Keeps.of_snd_snd (by assumption) ?_)
    | (intro _ _ _; beta_reduce)
    | (fail_if_no_progress apply Keeps.other)
    | intro _

theorem State.flood_keeps {r_ : State} (s : State) (l : Lsa) (but : Option Nat) (h_ : Keeps r_ s) : Keeps r_ (State.flood s l but) := by
  unfold State.flood
  repeat' with_reducible first
    | assumption
    | exact Keeps.refl _
    | apply State.sendLocal_keeps
    | apply Keeps.foldl
    | apply Keeps.foldl_snd
    | dsimp only
    | split
    | (refine Keeps.of_some (by assumption) ?_)
    | (refine Keeps.of_snd (by assumption) ?_)
    | (refine Keeps.of_snd_snd (by assumption) ?_)
    | (intro _ _ _; beta_reduce)
    | (fail_if_no_progress apply Keeps.other)
    | intro _

theorem State.storeLsa_keeps {r_ : State} (s : State) (l : Lsa) (h_ : Keeps r_ s) : Keeps r_ (State.storeLsa s l) := by
  unfold State.storeLsa
  repeat' with_reducible first
    | assumption
    | exact Keeps.refl _
    | apply Keeps.foldl
    | apply Keeps.foldl_snd
    | dsimp only
    | split
    | (refine Keeps.of_some (by assumption) ?_)
    | (refine Keeps.of_snd (by assumption) ?_)
    | (refine Keeps.of_snd_snd (by assumption) ?_)
    | (intro _ _ _; beta_reduce)
    | (fail_if_no_progress apply Keeps.other)
    | intro _

theorem State.floodOwn_keeps {r_ : State} (s : State) (h_ : Keeps r_ s) : Keeps r_ (State.floodOwn s) := by
  unfold State.floodOwn
  extract_lets +onlyGivenNames q_0 l_1
  try clear_value q_0
  try clear_value l_1
  repeat' with_reducible first
    | assumption
    | exact Keeps.refl _
    | apply State.setReg_keeps
    | apply State.startTimer_keeps
    | apply State.flood_keeps
    | apply State.storeLsa_keeps
    | apply Keeps.foldl
    | apply Keeps.foldl_snd
    | dsimp only
    | split
    | (refine Keeps.of_some (by assumption) ?_)
    | (refine Keeps.of_snd (by assumption) ?_)
    | (refine Keeps.of_snd_snd (by assumption) ?_)
    | (intro _ _ _; beta_reduce)
    | (fail_if_no_progress apply Keeps.other)
    | intro _

theorem State.lsaCheck_keeps {r_ : State} (s : State) (h_ : Keeps r_ s) : Keeps r_ (State.lsaCheck s) := by
  unfold State.lsaCheck
  repeat' with_reducible first
    | assumption
    | exact Keeps.refl _
    | apply State.startTimer_keeps
    | apply State.floodOwn_keeps
    | apply Keeps.foldl
    | apply Keeps.foldl_snd
    | dsimp only
    | split
    | (refine Keeps.of_some (by assumption) ?_)
    | (refine Keeps.of_snd (by assumption) ?_)
    | (refine Keeps.of_snd_snd (by assumption) ?_)
    | (intro _ _ _; beta_reduce)
    | (fail_if_no_progress apply Keeps.other)
    | intro _

theorem State.setRoutes_keeps {r_ : State} (s : State) (h_ : Keeps r_ s) : Keeps r_ (State.setRoutes s) := by
  unfold State.setRoutes
  extract_lets +onlyGivenNames from__0 clear_1
  try clear_value from__0
  have h_clear_1 : Keeps r_ clear_1 := by
    unfold clear_1
    repeat' with_reducible first
      | assumption
      | exact Keeps.refl _
      | apply State.setEnt_keeps
      | apply Keeps.foldl
      | apply Keeps.foldl_snd
      | dsimp only
      | split
      | (refine Keeps.of_some (by assumption) ?_)
      | (refine Keeps.of_snd (by assumption) ?_)
      | (refine Keeps.of_snd_snd (by assumption) ?_)
      | (intro _ _ _; beta_reduce)
      | (fail_if_no_progress apply Keeps.other)
      | intro _
  clear_value clear_1
  repeat' with_reducible first
    | assumption
    | exact Keeps.refl _
    | apply State.setEnt_keeps
    | apply Keeps.foldl
    | apply Keeps.foldl_snd
    | dsimp only
    | split
    | (refine Keeps.of_some (by assumption) ?_)
    | (refine Keeps.of_snd (by assumption) ?_)
    | (refine Keeps.of_snd_snd (by assumption) ?_)
    | (intro _ _ _; beta_reduce)
    | (fail_if_no_progress apply Keeps.other)
    | intro _

theorem State.setOwnId_keeps {r_ : State} (s : State) (id : Nat) (h_ : Keeps r_ s) : Keeps r_ (State.setOwnId s id) := by
  unfold State.setOwnId
  repeat' with_reducible first
    | assumption
    | exact Keeps.refl _
    | apply State.wr_keeps
    | apply State.record_keeps
    | apply Keeps.foldl
    | apply Keeps.foldl_snd
    | dsimp only
    | split
    | (refine Keeps.of_some (by assumption) ?_)
    | (refine Keeps.of_snd (by assumption) ?_)
    | (refine Keeps.of_snd_snd (by assumption) ?_)
    | (intro _ _ _; beta_reduce)
    | (fail_if_no_progress apply Keeps.other)
    | intro _

theorem State.sendAssign_keeps {r_ : State} (s : State) (h_ : Keeps r_ s) : Keeps r_ (State.sendAssign s) := by
  unfold State.sendAssign
  extract_lets +onlyGivenNames t_0
  try clear_value t_0
  repeat' with_reducible first
    | assumption
    | exact Keeps.refl _
    | apply State.sendLocal_keeps
    | apply Keeps.foldl
    | apply Keeps.foldl_snd
    | dsimp only
    | split
    | (refine Keeps.of_some (by assumption) ?_)
    | (refine Keeps.of_snd (by assumption) ?_)
    | (refine Keeps.of_snd_snd (by assumption) ?_)
    | (intro _ _ _; beta_reduce)
    | (fail_if_no_progress apply Keeps.other)
    | intro _

theorem State.conflict_keeps {r_ : State} (s : State) (c : Nat × Nat) (h_ : Keeps r_ s) : Keeps r_ (State.conflict s c) := by
  unfold State.conflict
  repeat' with_reducible first
    | assumption
    | exact Keeps.refl _
    | apply State.startTimer_keeps
    | apply State.latch_keeps
    | apply State.record_keeps
    | apply Keeps.foldl
    | apply Keeps.foldl_snd
    | dsimp only
    | split
    | (refine Keeps.of_some (by assumption) ?_)
    | (refine Keeps.of_snd (by assumption) ?_)
    | (refine Keeps.of_snd_snd (by assumption) ?_)
    | (intro _ _ _; beta_reduce)
    | (fail_if_no_progress apply Keeps.other)
    | intro _

theorem State.assignIds_keeps {r_ : State} (s : State) (force : Bool) (h_ : Keeps r_ s) : Keeps r_ (State.assignIds s force) := by
  unfold State.assignIds
  repeat' with_reducible first
    | assumption
    | exact Keeps.refl _
    | apply State.wr_keeps
    | apply State.stopTimer_keeps
    | apply State.setOwnId_keeps
    | apply State.sendAssign_keeps
    | apply State.conflict_keeps
    | apply Keeps.foldl
    | apply Keeps.foldl_snd
    | dsimp only
    | split
    | (refine Keeps.of_some (by assumption) ?_)
    | (refine Keeps.of_snd (by assumption) ?_)
    | (refine Keeps.of_snd_snd (by assumption) ?_)
    | (intro _ _ _; beta_reduce)
    | (fail_if_no_progress apply Keeps.other)
    | intro _

theorem State.rootChange_keeps {r_ : State} (s : State) (old : Nat) (cause : Nat) (h_ : Keeps r_ s) : Keeps r_ (State.rootChange s old cause) := by
  unfold State.rootChange
  repeat' with_reducible first
    | assumption
    | exact Keeps.refl _
    | apply State.bump_keeps
    | apply State.latch_keeps
    | apply State.raise_keeps
    | apply State.record_keeps
    | apply Keeps.foldl
    | apply Keeps.foldl_snd
    | dsimp only
    | split
    | (refine Keeps.of_some (by assumption) ?_)
    | (refine Keeps.of_snd (by assumption) ?_)
    | (refine Keeps.of_snd_snd (by assumption) ?_)
    | (intro _ _ _; beta_reduce)
    | (fail_if_no_progress apply Keeps.other)
    | intro _

theorem State.follow_keeps {r_ : State} (s : State) (key : Nat × Nat) (cause : Nat) (h_ : Keeps r_ s) : Keeps r_ (State.follow s key cause) := by
  unfold State.follow
  extract_lets +onlyGivenNames s1_0
  have h_s1_0 : Keeps r_ s1_0 := by
    unfold s1_0
    repeat' with_reducible first
      | assumption
      | exact Keeps.refl _
      | apply State.wr_keeps
      | apply State.setReg_keeps
      | apply State.rootChange_keeps
      | apply Keeps.foldl
      | apply Keeps.foldl_snd
      | dsimp only
      | split
      | (refine Keeps.of_some (by assumption) ?_)
      | (refine Keeps.of_snd (by assumption) ?_)
      | (refine Keeps.of_snd_snd (by assumption) ?_)
      | (intro _ _ _; beta_reduce)
      | (fail_if_no_progress apply Keeps.other)
      | intro _
  clear_value s1_0
  repeat' with_reducible first
    | assumption
    | exact Keeps.refl _
    | apply State.wr_keeps
    | apply State.setReg_keeps
    | apply State.rootChange_keeps
    | apply Keeps.foldl
    | apply Keeps.foldl_snd
    | dsimp only
    | split
    | (refine Keeps.of_some (by assumption) ?_)
    | (refine Keeps.of_snd (by assumption) ?_)
    | (refine Keeps.of_snd_snd (by assumption) ?_)
    | (intro _ _ _; beta_reduce)
    | (fail_if_no_progress apply Keeps.other)
    | intro _

theorem State.becomeRoot_keeps {r_ : State} (s : State) (cause : Nat) (h_ : Keeps r_ s) : Keeps r_ (State.becomeRoot s cause) := by
  unfold State.becomeRoot
  extract_lets +onlyGivenNames t_0 s1_1 s2_2
  try clear_value t_0
  have h_s1_1 : Keeps r_ s1_1 := by
    unfold s1_1
    repeat' with_reducible first
      | assumption
      | exact Keeps.refl _
      | apply State.wr_keeps
      | apply State.setReg_keeps
      | apply State.startTimer_keeps
      | apply State.assignIds_keeps
      | apply State.rootChange_keeps
      | apply Keeps.foldl
      | apply Keeps.foldl_snd
      | dsimp only
      | split
      | (refine Keeps.of_some (by assumption) ?_)
      | (refine Keeps.of_snd (by assumption) ?_)
      | (refine Keeps.of_snd_snd (by assumption) ?_)
      | (intro _ _ _; beta_reduce)
      | (fail_if_no_progress apply Keeps.other)
      | intro _
  clear_value s1_1
  have h_s2_2 : Keeps r_ s2_2 := by
    unfold s2_2
    repeat' with_reducible first
      | assumption
      | exact Keeps.refl _
      | apply State.wr_keeps
      | apply State.setReg_keeps
      | apply State.startTimer_keeps
      | apply State.assignIds_keeps
      | apply State.rootChange_keeps
      | apply Keeps.foldl
      | apply Keeps.foldl_snd
      | dsimp only
      | split
      | (refine Keeps.of_some (by assumption) ?_)
      | (refine Keeps.of_snd (by assumption) ?_)
      | (refine Keeps.of_snd_snd (by assumption) ?_)
      | (intro _ _ _; beta_reduce)
      | (fail_if_no_progress apply Keeps.other)
      | intro _
  clear_value s2_2
  repeat' with_reducible first
    | assumption
    | exact Keeps.refl _
    | apply State.wr_keeps
    | apply State.setReg_keeps
    | apply State.startTimer_keeps
    | apply State.assignIds_keeps
    | apply State.rootChange_keeps
    | apply Keeps.foldl
    | apply Keeps.foldl_snd
    | dsimp only
    | split
    | (refine Keeps.of_some (by assumption) ?_)
    | (refine Keeps.of_snd (by assumption) ?_)
    | (refine Keeps.of_snd_snd (by assumption) ?_)
    | (intro _ _ _; beta_reduce)
    | (fail_if_no_progress apply Keeps.other)
    | intro _

theorem State.becomeAlone_keeps {r_ : State} (s : State) (h_ : Keeps r_ s) : Keeps r_ (State.becomeAlone s) := by
  unfold State.becomeAlone
  extract_lets +onlyGivenNames old_0
  try clear_value old_0
  repeat' with_reducible first
    | assumption
    | exact Keeps.refl _
    | apply State.wr_keeps
    | apply State.setReg_keeps
    | apply State.stopTimer_keeps
    | apply State.rootChange_keeps
    | apply Keeps.foldl
    | apply Keeps.foldl_snd
    | dsimp only
    | split
    | (refine Keeps.of_some (by assumption) ?_)
    | (refine Keeps.of_snd (by assumption) ?_)
    | (refine Keeps.of_snd_snd (by assumption) ?_)
    | (intro _ _ _; beta_reduce)
    | (fail_if_no_progress apply Keeps.other)
    | intro _

theorem State.roleByNeighbours_keeps {r_ : State} (s : State) (h_ : Keeps r_ s) : Keeps r_ (State.roleByNeighbours s) := by
  unfold State.roleByNeighbours
  repeat' with_reducible first
    | assumption
    | exact Keeps.refl _
    | apply State.follow_keeps
    | apply State.becomeRoot_keeps
    | apply State.becomeAlone_keeps
    | apply Keeps.foldl
    | apply Keeps.foldl_snd
    | dsimp only
    | split
    | (refine Keeps.of_some (by assumption) ?_)
    | (refine Keeps.of_snd (by assumption) ?_)
    | (refine Keeps.of_snd_snd (by assumption) ?_)
    | (intro _ _ _; beta_reduce)
    | (fail_if_no_progress apply Keeps.other)
    | intro _

theorem State.betterRoot_keeps {r_ : State} (s : State) (lane : Nat) (h_ : Keeps r_ s) : Keeps r_ (State.betterRoot s lane) := by
  unfold State.betterRoot
  extract_lets +onlyGivenNames k_0
  try clear_value k_0
  repeat' with_reducible first
    | assumption
    | exact Keeps.refl _
    | apply State.setReg_keeps
    | apply State.stopTimer_keeps
    | apply State.bump_keeps
    | apply State.follow_keeps
    | apply Keeps.foldl
    | apply Keeps.foldl_snd
    | dsimp only
    | split
    | (refine Keeps.of_some (by assumption) ?_)
    | (refine Keeps.of_snd (by assumption) ?_)
    | (refine Keeps.of_snd_snd (by assumption) ?_)
    | (intro _ _ _; beta_reduce)
    | (fail_if_no_progress apply Keeps.other)
    | intro _

theorem State.rootLost_keeps {r_ : State} (s : State) (h_ : Keeps r_ s) : Keeps r_ (State.rootLost s) := by
  unfold State.rootLost
  extract_lets +onlyGivenNames keys_0
  try clear_value keys_0
  repeat' with_reducible first
    | assumption
    | exact Keeps.refl _
    | apply State.follow_keeps
    | apply State.becomeRoot_keeps
    | apply Keeps.foldl
    | apply Keeps.foldl_snd
    | dsimp only
    | split
    | (refine Keeps.of_some (by assumption) ?_)
    | (refine Keeps.of_snd (by assumption) ?_)
    | (refine Keeps.of_snd_snd (by assumption) ?_)
    | (intro _ _ _; beta_reduce)
    | (fail_if_no_progress apply Keeps.other)
    | intro _

theorem State.controlAhead_keeps {r_ : State} (s : State) (ch : Nat) (m : Nat) (h_ : Keeps r_ s) : Keeps r_ (State.controlAhead s ch m) := by
  unfold State.controlAhead
  repeat' with_reducible first
    | assumption
    | exact Keeps.refl _
    | apply Keeps.foldl
    | apply Keeps.foldl_snd
    | dsimp only
    | split
    | (refine Keeps.of_some (by assumption) ?_)
    | (refine Keeps.of_snd (by assumption) ?_)
    | (refine Keeps.of_snd_snd (by assumption) ?_)
    | (intro _ _ _; beta_reduce)
    | (fail_if_no_progress apply Keeps.other)
    | intro _

theorem State.exchange_keeps {r_ : State} (s : State) (lane : Nat) (h_ : Keeps r_ s) : Keeps r_ (State.exchange s lane) := by
  unfold State.exchange
  extract_lets +onlyGivenNames s1_0 s2_1 others_2 s3_3 s4_4
  try clear_value others_2
  have h_s1_0 : Keeps r_ s1_0 := by
    unfold s1_0
    repeat' with_reducible first
      | assumption
      | exact Keeps.refl _
      | apply State.sendLocal_keeps
      | apply State.lsaCheck_keeps
      | apply State.controlAhead_keeps
      | apply Keeps.foldl
      | apply Keeps.foldl_snd
      | dsimp only
      | split
      | (refine Keeps.of_some (by assumption) ?_)
      | (refine Keeps.of_snd (by assumption) ?_)
      | (refine Keeps.of_snd_snd (by assumption) ?_)
      | (intro _ _ _; beta_reduce)
      | (fail_if_no_progress apply Keeps.other)
      | intro _
  clear_value s1_0
  have h_s2_1 : Keeps r_ s2_1 := by
    unfold s2_1
    repeat' with_reducible first
      | assumption
      | exact Keeps.refl _
      | apply State.sendLocal_keeps
      | apply State.lsaCheck_keeps
      | apply State.controlAhead_keeps
      | apply Keeps.foldl
      | apply Keeps.foldl_snd
      | dsimp only
      | split
      | (refine Keeps.of_some (by assumption) ?_)
      | (refine Keeps.of_snd (by assumption) ?_)
      | (refine Keeps.of_snd_snd (by assumption) ?_)
      | (intro _ _ _; beta_reduce)
      | (fail_if_no_progress apply Keeps.other)
      | intro _
  clear_value s2_1
  have h_s3_3 : Keeps r_ s3_3 := by
    unfold s3_3
    repeat' with_reducible first
      | assumption
      | exact Keeps.refl _
      | apply State.sendLocal_keeps
      | apply State.lsaCheck_keeps
      | apply State.controlAhead_keeps
      | apply Keeps.foldl
      | apply Keeps.foldl_snd
      | dsimp only
      | split
      | (refine Keeps.of_some (by assumption) ?_)
      | (refine Keeps.of_snd (by assumption) ?_)
      | (refine Keeps.of_snd_snd (by assumption) ?_)
      | (intro _ _ _; beta_reduce)
      | (fail_if_no_progress apply Keeps.other)
      | intro _
  clear_value s3_3
  have h_s4_4 : Keeps r_ s4_4 := by
    unfold s4_4
    repeat' with_reducible first
      | assumption
      | exact Keeps.refl _
      | apply State.sendLocal_keeps
      | apply State.lsaCheck_keeps
      | apply State.controlAhead_keeps
      | apply Keeps.foldl
      | apply Keeps.foldl_snd
      | dsimp only
      | split
      | (refine Keeps.of_some (by assumption) ?_)
      | (refine Keeps.of_snd (by assumption) ?_)
      | (refine Keeps.of_snd_snd (by assumption) ?_)
      | (intro _ _ _; beta_reduce)
      | (fail_if_no_progress apply Keeps.other)
      | intro _
  clear_value s4_4
  repeat' with_reducible first
    | assumption
    | exact Keeps.refl _
    | apply State.sendLocal_keeps
    | apply State.lsaCheck_keeps
    | apply State.controlAhead_keeps
    | apply Keeps.foldl
    | apply Keeps.foldl_snd
    | dsimp only
    | split
    | (refine Keeps.of_some (by assumption) ?_)
    | (refine Keeps.of_snd (by assumption) ?_)
    | (refine Keeps.of_snd_snd (by assumption) ?_)
    | (intro _ _ _; beta_reduce)
    | (fail_if_no_progress apply Keeps.other)
    | intro _

theorem State.setNeighbour_keeps {r_ : State} (s : State) (lane : Nat) (new : Nat) (h_ : Keeps r_ s) : Keeps r_ (State.setNeighbour s lane new) := by
  unfold State.setNeighbour
  extract_lets +onlyGivenNames old_0 s1_1
  try clear_value old_0
  have h_s1_1 : Keeps r_ s1_1 := by
    unfold s1_1
    repeat' with_reducible first
      | assumption
      | exact Keeps.refl _
      | apply State.setEntField_keeps
      | apply State.bump_keeps
      | apply State.latch_keeps
      | apply State.raise_keeps
      | apply State.record_keeps
      | apply State.lsaCheck_keeps
      | apply State.exchange_keeps
      | apply Keeps.foldl
      | apply Keeps.foldl_snd
      | dsimp only
      | split
      | (refine Keeps.of_some (by assumption) ?_)
      | (refine Keeps.of_snd (by assumption) ?_)
      | (refine Keeps.of_snd_snd (by assumption) ?_)
      | (intro _ _ _; beta_reduce)
      | (fail_if_no_progress apply Keeps.other)
      | intro _
  clear_value s1_1
  repeat' with_reducible first
    | assumption
    | exact Keeps.refl _
    | apply State.setEntField_keeps
    | apply State.bump_keeps
    | apply State.latch_keeps
    | apply State.raise_keeps
    | apply State.record_keeps
    | apply State.lsaCheck_keeps
    | apply State.exchange_keeps
    | apply Keeps.foldl
    | apply Keeps.foldl_snd
    | dsimp only
    | split
    | (refine Keeps.of_some (by assumption) ?_)
    | (refine Keeps.of_snd (by assumption) ?_)
    | (refine Keeps.of_snd_snd (by assumption) ?_)
    | (intro _ _ _; beta_reduce)
    | (fail_if_no_progress apply Keeps.other)
    | intro _

theorem State.neighbourDown_keeps {r_ : State} (s : State) (lane : Nat) (h_ : Keeps r_ s) : Keeps r_ (State.neighbourDown s lane) := by
  unfold State.neighbourDown
  repeat' with_reducible first
    | assumption
    | exact Keeps.refl _
    | apply State.stopTimer_keeps
    | apply State.roleByNeighbours_keeps
    | apply State.setNeighbour_keeps
    | apply Keeps.foldl
    | apply Keeps.foldl_snd
    | dsimp only
    | split
    | (refine Keeps.of_some (by assumption) ?_)
    | (refine Keeps.of_snd (by assumption) ?_)
    | (refine Keeps.of_snd_snd (by assumption) ?_)
    | (intro _ _ _; beta_reduce)
    | (fail_if_no_progress apply Keeps.other)
    | intro _

theorem State.recordHello_keeps {r_ : State} (s : State) (lane : Nat) (b : List Octet) (h_ : Keeps r_ s) : Keeps r_ (State.recordHello s lane b) := by
  unfold State.recordHello
  extract_lets +onlyGivenNames e_0 w_1
  try clear_value e_0
  repeat' with_reducible first
    | assumption
    | exact Keeps.refl _
    | apply State.setEnt_keeps
    | apply Keeps.foldl
    | apply Keeps.foldl_snd
    | dsimp only
    | split
    | (refine Keeps.of_some (by assumption) ?_)
    | (refine Keeps.of_snd (by assumption) ?_)
    | (refine Keeps.of_snd_snd (by assumption) ?_)
    | (intro _ _ _; beta_reduce)
    | (fail_if_no_progress apply Keeps.other)
    | intro _

theorem State.hello_keeps {r_ : State} (s : State) (lane : Nat) (b : List Octet) (h_ : Keeps r_ s) : Keeps r_ (State.hello s lane b) := by
  unfold State.hello
  extract_lets +onlyGivenNames st_0 other_1 seen_2 s1_3 s2_4
  try clear_value st_0
  try clear_value other_1
  try clear_value seen_2
  have h_s1_3 : Keeps r_ s1_3 := by
    unfold s1_3
    repeat' with_reducible first
      | assumption
      | exact Keeps.refl _
      | apply State.startTimer_keeps
      | apply State.lsaCheck_keeps
      | apply State.roleByNeighbours_keeps
      | apply State.betterRoot_keeps
      | apply State.setNeighbour_keeps
      | apply State.recordHello_keeps
      | apply Keeps.foldl
      | apply Keeps.foldl_snd
      | dsimp only
      | split
      | (refine Keeps.of_some (by assumption) ?_)
      | (refine Keeps.of_snd (by assumption) ?_)
      | (refine Keeps.of_snd_snd (by assumption) ?_)
      | (intro _ _ _; beta_reduce)
      | (fail_if_no_progress apply Keeps.other)
      | intro _
  clear_value s1_3
  have h_s2_4 : Keeps r_ s2_4 := by
    unfold s2_4
    repeat' with_reducible first
      | assumption
      | exact Keeps.refl _
      | apply State.startTimer_keeps
      | apply State.lsaCheck_keeps
      | apply State.roleByNeighbours_keeps
      | apply State.betterRoot_keeps
      | apply State.setNeighbour_keeps
      | apply State.recordHello_keeps
      | apply Keeps.foldl
      | apply Keeps.foldl_snd
      | dsimp only
      | split
      | (refine Keeps.of_some (by assumption) ?_)
      | (refine Keeps.of_snd (by assumption) ?_)
      | (refine Keeps.of_snd_snd (by assumption) ?_)
      | (intro _ _ _; beta_reduce)
      | (fail_if_no_progress apply Keeps.other)
      | intro _
  clear_value s2_4
  repeat' with_reducible first
    | assumption
    | exact Keeps.refl _
    | apply State.startTimer_keeps
    | apply State.lsaCheck_keeps
    | apply State.roleByNeighbours_keeps
    | apply State.betterRoot_keeps
    | apply State.setNeighbour_keeps
    | apply State.recordHello_keeps
    | apply Keeps.foldl
    | apply Keeps.foldl_snd
    | dsimp only
    | split
    | (refine Keeps.of_some (by assumption) ?_)
    | (refine Keeps.of_snd (by assumption) ?_)
    | (refine Keeps.of_snd_snd (by assumption) ?_)
    | (intro _ _ _; beta_reduce)
    | (fail_if_no_progress apply Keeps.other)
    | intro _

theorem State.takeControl_keeps {r_ : State} (s : State) (ch : Nat) (frame : List Octet) (msg : Nat) (act : List Octet → State) (h_act : ∀ l_, Keeps r_ (act l_)) (h_ : Keeps r_ s) : Keeps r_ (State.takeControl s ch frame msg act) := by
  unfold State.takeControl
  extract_lets +onlyGivenNames b_0
  try clear_value b_0
  repeat' with_reducible first
    | assumption
    | exact Keeps.refl _
    | apply h_act
    | apply State.bump_keeps
    | apply Keeps.foldl
    | apply Keeps.foldl_snd
    | dsimp only
    | split
    | (refine Keeps.of_some (by assumption) ?_)
    | (refine Keeps.of_snd (by assumption) ?_)
    | (refine Keeps.of_snd_snd (by assumption) ?_)
    | (intro _ _ _; beta_reduce)
    | (fail_if_no_progress apply Keeps.other)
    | intro _

theorem execHelloRx_keeps {r_ : State} (ch : Nat) (frame : List Octet) (s : State) (h_ : Keeps r_ s) : KeepsNext r_ (execHelloRx ch frame s) := by
  unfold execHelloRx
  repeat' with_reducible first
    | assumption
    | exact Keeps.refl _
    | apply KeepsNext.next
    | apply KeepsNext.refused
    | apply gathered_keeps
    | apply State.hello_keeps
    | apply State.takeControl_keeps
    | apply Keeps.foldl
    | apply Keeps.foldl_snd
    | dsimp only
    | split
    | (refine Keeps.of_some (by assumption) ?_)
    | (refine Keeps.of_snd (by assumption) ?_)
    | (refine Keeps.of_snd_snd (by assumption) ?_)
    | (intro _ _ _; beta_reduce)
    | (fail_if_no_progress apply Keeps.other)
    | intro _

theorem State.helloTick_keeps {r_ : State} (s : State) (h_ : Keeps r_ s) : Keeps r_ (State.helloTick s) := by
  unfold State.helloTick
  repeat' with_reducible first
    | assumption
    | exact Keeps.refl _
    | apply State.startTimer_keeps
    | apply State.sendLocal_keeps
    | apply State.hello_keeps
    | apply Keeps.foldl
    | apply Keeps.foldl_snd
    | dsimp only
    | split
    | (refine Keeps.of_some (by assumption) ?_)
    | (refine Keeps.of_snd (by assumption) ?_)
    | (refine Keeps.of_snd_snd (by assumption) ?_)
    | (intro _ _ _; beta_reduce)
    | (fail_if_no_progress apply Keeps.other)
    | intro _

theorem execHelloTimer_keeps {r_ : State} (s : State) (h_ : Keeps r_ s) : KeepsNext r_ (execHelloTimer s) := by
  unfold execHelloTimer
  repeat' with_reducible first
    | assumption
    | exact Keeps.refl _
    | apply KeepsNext.next
    | apply KeepsNext.refused
    | apply State.wake_keeps
    | apply gathered_keeps
    | apply State.hello_keeps
    | apply State.helloTick_keeps
    | apply Keeps.foldl
    | apply Keeps.foldl_snd
    | dsimp only
    | split
    | (refine Keeps.of_some (by assumption) ?_)
    | (refine Keeps.of_snd (by assumption) ?_)
    | (refine Keeps.of_snd_snd (by assumption) ?_)
    | (intro _ _ _; beta_reduce)
    | (fail_if_no_progress apply Keeps.other)
    | intro _

theorem execDeadTimerExpire_keeps {r_ : State} (lane : Nat) (s : State) (h_ : Keeps r_ s) : KeepsNext r_ (execDeadTimerExpire lane s) := by
  unfold execDeadTimerExpire
  repeat' with_reducible first
    | assumption
    | exact Keeps.refl _
    | apply KeepsNext.next
    | apply KeepsNext.refused
    | apply State.wake_keeps
    | apply gathered_keeps
    | apply State.neighbourDown_keeps
    | apply Keeps.foldl
    | apply Keeps.foldl_snd
    | dsimp only
    | split
    | (refine Keeps.of_some (by assumption) ?_)
    | (refine Keeps.of_snd (by assumption) ?_)
    | (refine Keeps.of_snd_snd (by assumption) ?_)
    | (intro _ _ _; beta_reduce)
    | (fail_if_no_progress apply Keeps.other)
    | intro _

theorem State.takeLsa_keeps {r_ : State} (s : State) (lane : Nat) (l : Lsa) (h_ : Keeps r_ s) : Keeps r_ (State.takeLsa s lane l) := by
  unfold State.takeLsa
  repeat' with_reducible first
    | assumption
    | exact Keeps.refl _
    | apply State.setReg_keeps
    | apply State.startTimer_keeps
    | apply State.flood_keeps
    | apply State.storeLsa_keeps
    | apply State.floodOwn_keeps
    | apply Keeps.foldl
    | apply Keeps.foldl_snd
    | dsimp only
    | split
    | (refine Keeps.of_some (by assumption) ?_)
    | (refine Keeps.of_snd (by assumption) ?_)
    | (refine Keeps.of_snd_snd (by assumption) ?_)
    | (intro _ _ _; beta_reduce)
    | (fail_if_no_progress apply Keeps.other)
    | intro _

theorem execLsaRx_keeps {r_ : State} (ch : Nat) (frame : List Octet) (s : State) (h_ : Keeps r_ s) : KeepsNext r_ (execLsaRx ch frame s) := by
  unfold execLsaRx
  repeat' with_reducible first
    | assumption
    | exact Keeps.refl _
    | apply KeepsNext.next
    | apply KeepsNext.refused
    | apply gathered_keeps
    | apply State.takeControl_keeps
    | apply State.takeLsa_keeps
    | apply Keeps.foldl
    | apply Keeps.foldl_snd
    | dsimp only
    | split
    | (refine Keeps.of_some (by assumption) ?_)
    | (refine Keeps.of_snd (by assumption) ?_)
    | (refine Keeps.of_snd_snd (by assumption) ?_)
    | (intro _ _ _; beta_reduce)
    | (fail_if_no_progress apply Keeps.other)
    | intro _

theorem execLsaRefresh_keeps {r_ : State} (s : State) (h_ : Keeps r_ s) : KeepsNext r_ (execLsaRefresh s) := by
  unfold execLsaRefresh
  repeat' with_reducible first
    | assumption
    | exact Keeps.refl _
    | apply KeepsNext.next
    | apply KeepsNext.refused
    | apply State.wake_keeps
    | apply State.floodOwn_keeps
    | apply Keeps.foldl
    | apply Keeps.foldl_snd
    | dsimp only
    | split
    | (refine Keeps.of_some (by assumption) ?_)
    | (refine Keeps.of_snd (by assumption) ?_)
    | (refine Keeps.of_snd_snd (by assumption) ?_)
    | (intro _ _ _; beta_reduce)
    | (fail_if_no_progress apply Keeps.other)
    | intro _

theorem State.ageOut_keeps {r_ : State} (s : State) (origin : Nat) (h_ : Keeps r_ s) : Keeps r_ (State.ageOut s origin) := by
  unfold State.ageOut
  repeat' with_reducible first
    | assumption
    | exact Keeps.refl _
    | apply State.stopTimer_keeps
    | apply Keeps.foldl
    | apply Keeps.foldl_snd
    | dsimp only
    | split
    | (refine Keeps.of_some (by assumption) ?_)
    | (refine Keeps.of_snd (by assumption) ?_)
    | (refine Keeps.of_snd_snd (by assumption) ?_)
    | (intro _ _ _; beta_reduce)
    | (fail_if_no_progress apply Keeps.other)
    | intro _

theorem execLsaAgeOut_keeps {r_ : State} (origin : Nat) (s : State) (h_ : Keeps r_ s) : KeepsNext r_ (execLsaAgeOut origin s) := by
  unfold execLsaAgeOut
  repeat' with_reducible first
    | assumption
    | exact Keeps.refl _
    | apply KeepsNext.next
    | apply KeepsNext.refused
    | apply State.wake_keeps
    | apply gathered_keeps
    | apply State.ageOut_keeps
    | apply Keeps.foldl
    | apply Keeps.foldl_snd
    | dsimp only
    | split
    | (refine Keeps.of_some (by assumption) ?_)
    | (refine Keeps.of_snd (by assumption) ?_)
    | (refine Keeps.of_snd_snd (by assumption) ?_)
    | (intro _ _ _; beta_reduce)
    | (fail_if_no_progress apply Keeps.other)
    | intro _

theorem State.computeRoutes_keeps {r_ : State} (s : State) (h_ : Keeps r_ s) : Keeps r_ (State.computeRoutes s) := by
  unfold State.computeRoutes
  extract_lets +onlyGivenNames s1_0
  have h_s1_0 : Keeps r_ s1_0 := by
    unfold s1_0
    repeat' with_reducible first
      | assumption
      | exact Keeps.refl _
      | apply State.setRoutes_keeps
      | apply State.assignIds_keeps
      | apply State.rootLost_keeps
      | apply Keeps.foldl
      | apply Keeps.foldl_snd
      | dsimp only
      | split
      | (refine Keeps.of_some (by assumption) ?_)
      | (refine Keeps.of_snd (by assumption) ?_)
      | (refine Keeps.of_snd_snd (by assumption) ?_)
      | (intro _ _ _; beta_reduce)
      | (fail_if_no_progress apply Keeps.other)
      | intro _
  clear_value s1_0
  repeat' with_reducible first
    | assumption
    | exact Keeps.refl _
    | apply State.setRoutes_keeps
    | apply State.assignIds_keeps
    | apply State.rootLost_keeps
    | apply Keeps.foldl
    | apply Keeps.foldl_snd
    | dsimp only
    | split
    | (refine Keeps.of_some (by assumption) ?_)
    | (refine Keeps.of_snd (by assumption) ?_)
    | (refine Keeps.of_snd_snd (by assumption) ?_)
    | (intro _ _ _; beta_reduce)
    | (fail_if_no_progress apply Keeps.other)
    | intro _

theorem execRouteCompute_keeps {r_ : State} (s : State) (h_ : Keeps r_ s) : KeepsNext r_ (execRouteCompute s) := by
  unfold execRouteCompute
  repeat' with_reducible first
    | assumption
    | exact Keeps.refl _
    | apply KeepsNext.next
    | apply KeepsNext.refused
    | apply gathered_keeps
    | apply State.computeRoutes_keeps
    | apply Keeps.foldl
    | apply Keeps.foldl_snd
    | dsimp only
    | split
    | (refine Keeps.of_some (by assumption) ?_)
    | (refine Keeps.of_snd (by assumption) ?_)
    | (refine Keeps.of_snd_snd (by assumption) ?_)
    | (intro _ _ _; beta_reduce)
    | (fail_if_no_progress apply Keeps.other)
    | intro _

theorem State.adopt_keeps {r_ : State} (s : State) (t : AssignTable) (h_ : Keeps r_ s) : Keeps r_ (State.adopt s t) := by
  unfold State.adopt
  extract_lets +onlyGivenNames s1_0
  have h_s1_0 : Keeps r_ s1_0 := by
    unfold s1_0
    repeat' with_reducible first
      | assumption
      | exact Keeps.refl _
      | apply State.wr_keeps
      | apply State.lsaCheck_keeps
      | apply State.setOwnId_keeps
      | apply Keeps.foldl
      | apply Keeps.foldl_snd
      | dsimp only
      | split
      | (refine Keeps.of_some (by assumption) ?_)
      | (refine Keeps.of_snd (by assumption) ?_)
      | (refine Keeps.of_snd_snd (by assumption) ?_)
      | (intro _ _ _; beta_reduce)
      | (fail_if_no_progress apply Keeps.other)
      | intro _
  clear_value s1_0
  repeat' with_reducible first
    | assumption
    | exact Keeps.refl _
    | apply State.wr_keeps
    | apply State.lsaCheck_keeps
    | apply State.setOwnId_keeps
    | apply Keeps.foldl
    | apply Keeps.foldl_snd
    | dsimp only
    | split
    | (refine Keeps.of_some (by assumption) ?_)
    | (refine Keeps.of_snd (by assumption) ?_)
    | (refine Keeps.of_snd_snd (by assumption) ?_)
    | (intro _ _ _; beta_reduce)
    | (fail_if_no_progress apply Keeps.other)
    | intro _

theorem State.wholeTable_keeps {r_ : State} (s : State) (t : AssignTable) (h_ : Keeps r_ s) : Keeps r_ (State.wholeTable s t) := by
  unfold State.wholeTable
  extract_lets +onlyGivenNames keep_0 s1_1
  try clear_value keep_0
  have h_s1_1 : Keeps r_ s1_1 := by
    unfold s1_1
    repeat' with_reducible first
      | assumption
      | exact Keeps.refl _
      | apply State.adopt_keeps
      | apply Keeps.foldl
      | apply Keeps.foldl_snd
      | dsimp only
      | split
      | (refine Keeps.of_some (by assumption) ?_)
      | (refine Keeps.of_snd (by assumption) ?_)
      | (refine Keeps.of_snd_snd (by assumption) ?_)
      | (intro _ _ _; beta_reduce)
      | (fail_if_no_progress apply Keeps.other)
      | intro _
  clear_value s1_1
  repeat' with_reducible first
    | assumption
    | exact Keeps.refl _
    | apply State.adopt_keeps
    | apply Keeps.foldl
    | apply Keeps.foldl_snd
    | dsimp only
    | split
    | (refine Keeps.of_some (by assumption) ?_)
    | (refine Keeps.of_snd (by assumption) ?_)
    | (refine Keeps.of_snd_snd (by assumption) ?_)
    | (intro _ _ _; beta_reduce)
    | (fail_if_no_progress apply Keeps.other)
    | intro _

theorem State.takeAssign_keeps {r_ : State} (s : State) (b : List Octet) (h_ : Keeps r_ s) : Keeps r_ (State.takeAssign s b) := by
  unfold State.takeAssign
  repeat' with_reducible first
    | assumption
    | exact Keeps.refl _
    | apply State.wholeTable_keeps
    | apply Keeps.foldl
    | apply Keeps.foldl_snd
    | dsimp only
    | split
    | (refine Keeps.of_some (by assumption) ?_)
    | (refine Keeps.of_snd (by assumption) ?_)
    | (refine Keeps.of_snd_snd (by assumption) ?_)
    | (intro _ _ _; beta_reduce)
    | (fail_if_no_progress apply Keeps.other)
    | intro _

theorem execAssignRx_keeps {r_ : State} (ch : Nat) (frame : List Octet) (s : State) (h_ : Keeps r_ s) : KeepsNext r_ (execAssignRx ch frame s) := by
  unfold execAssignRx
  repeat' with_reducible first
    | assumption
    | exact Keeps.refl _
    | apply KeepsNext.next
    | apply KeepsNext.refused
    | apply gathered_keeps
    | apply State.takeControl_keeps
    | apply State.takeAssign_keeps
    | apply Keeps.foldl
    | apply Keeps.foldl_snd
    | dsimp only
    | split
    | (refine Keeps.of_some (by assumption) ?_)
    | (refine Keeps.of_snd (by assumption) ?_)
    | (refine Keeps.of_snd_snd (by assumption) ?_)
    | (intro _ _ _; beta_reduce)
    | (fail_if_no_progress apply Keeps.other)
    | intro _

theorem State.assignTick_keeps {r_ : State} (s : State) (h_ : Keeps r_ s) : Keeps r_ (State.assignTick s) := by
  unfold State.assignTick
  repeat' with_reducible first
    | assumption
    | exact Keeps.refl _
    | apply State.startTimer_keeps
    | apply State.sendAssign_keeps
    | apply Keeps.foldl
    | apply Keeps.foldl_snd
    | dsimp only
    | split
    | (refine Keeps.of_some (by assumption) ?_)
    | (refine Keeps.of_snd (by assumption) ?_)
    | (refine Keeps.of_snd_snd (by assumption) ?_)
    | (intro _ _ _; beta_reduce)
    | (fail_if_no_progress apply Keeps.other)
    | intro _

theorem execAssignRefresh_keeps {r_ : State} (s : State) (h_ : Keeps r_ s) : KeepsNext r_ (execAssignRefresh s) := by
  unfold execAssignRefresh
  repeat' with_reducible first
    | assumption
    | exact Keeps.refl _
    | apply KeepsNext.next
    | apply KeepsNext.refused
    | apply State.wake_keeps
    | apply gathered_keeps
    | apply State.assignTick_keeps
    | apply Keeps.foldl
    | apply Keeps.foldl_snd
    | dsimp only
    | split
    | (refine Keeps.of_some (by assumption) ?_)
    | (refine Keeps.of_snd (by assumption) ?_)
    | (refine Keeps.of_snd_snd (by assumption) ?_)
    | (intro _ _ _; beta_reduce)
    | (fail_if_no_progress apply Keeps.other)
    | intro _

theorem State.renumber_keeps {r_ : State} (s : State) (serial : Nat) (h_ : Keeps r_ s) : Keeps r_ (State.renumber s serial) := by
  unfold State.renumber
  extract_lets +onlyGivenNames s1_0
  have h_s1_0 : Keeps r_ s1_0 := by
    unfold s1_0
    repeat' with_reducible first
      | assumption
      | exact Keeps.refl _
      | apply State.wr_keeps
      | apply State.stopTimer_keeps
      | apply State.bump_keeps
      | apply State.assignIds_keeps
      | apply Keeps.foldl
      | apply Keeps.foldl_snd
      | dsimp only
      | split
      | (refine Keeps.of_some (by assumption) ?_)
      | (refine Keeps.of_snd (by assumption) ?_)
      | (refine Keeps.of_snd_snd (by assumption) ?_)
      | (intro _ _ _; beta_reduce)
      | (fail_if_no_progress apply Keeps.other)
      | intro _
  clear_value s1_0
  repeat' with_reducible first
    | assumption
    | exact Keeps.refl _
    | apply State.wr_keeps
    | apply State.stopTimer_keeps
    | apply State.bump_keeps
    | apply State.assignIds_keeps
    | apply Keeps.foldl
    | apply Keeps.foldl_snd
    | dsimp only
    | split
    | (refine Keeps.of_some (by assumption) ?_)
    | (refine Keeps.of_snd (by assumption) ?_)
    | (refine Keeps.of_snd_snd (by assumption) ?_)
    | (intro _ _ _; beta_reduce)
    | (fail_if_no_progress apply Keeps.other)
    | intro _

theorem execDuplicateRenumber_keeps {r_ : State} (serial : Nat) (s : State) (h_ : Keeps r_ s) : KeepsNext r_ (execDuplicateRenumber serial s) := by
  unfold execDuplicateRenumber
  repeat' with_reducible first
    | assumption
    | exact Keeps.refl _
    | apply KeepsNext.next
    | apply KeepsNext.refused
    | apply State.wake_keeps
    | apply gathered_keeps
    | apply State.renumber_keeps
    | apply Keeps.foldl
    | apply Keeps.foldl_snd
    | dsimp only
    | split
    | (refine Keeps.of_some (by assumption) ?_)
    | (refine Keeps.of_snd (by assumption) ?_)
    | (refine Keeps.of_snd_snd (by assumption) ?_)
    | (intro _ _ _; beta_reduce)
    | (fail_if_no_progress apply Keeps.other)
    | intro _

theorem State.allNeighboursDown_keeps {r_ : State} (s : State) (h_ : Keeps r_ s) : Keeps r_ (State.allNeighboursDown s) := by
  unfold State.allNeighboursDown
  repeat' with_reducible first
    | assumption
    | exact Keeps.refl _
    | apply State.neighbourDown_keeps
    | apply Keeps.foldl
    | apply Keeps.foldl_snd
    | dsimp only
    | split
    | (refine Keeps.of_some (by assumption) ?_)
    | (refine Keeps.of_snd (by assumption) ?_)
    | (refine Keeps.of_snd_snd (by assumption) ?_)
    | (intro _ _ _; beta_reduce)
    | (fail_if_no_progress apply Keeps.other)
    | intro _

theorem State.becomeDisabled_keeps {r_ : State} (s : State) (h_ : Keeps r_ s) : Keeps r_ (State.becomeDisabled s) := by
  unfold State.becomeDisabled
  repeat' with_reducible first
    | assumption
    | exact Keeps.refl _
    | apply State.wr_keeps
    | apply State.setReg_keeps
    | apply State.stopTimer_keeps
    | apply State.rootChange_keeps
    | apply Keeps.foldl
    | apply Keeps.foldl_snd
    | dsimp only
    | split
    | (refine Keeps.of_some (by assumption) ?_)
    | (refine Keeps.of_snd (by assumption) ?_)
    | (refine Keeps.of_snd_snd (by assumption) ?_)
    | (intro _ _ _; beta_reduce)
    | (fail_if_no_progress apply Keeps.other)
    | intro _

theorem State.fabricEnable_keeps {r_ : State} (s : State) (on : Bool) (h_ : Keeps r_ s) : Keeps r_ (State.fabricEnable s on) := by
  unfold State.fabricEnable
  repeat' with_reducible first
    | assumption
    | exact Keeps.refl _
    | apply State.wr_keeps
    | apply State.startTimer_keeps
    | apply State.stopTimer_keeps
    | apply State.rootChange_keeps
    | apply State.hello_keeps
    | apply State.allNeighboursDown_keeps
    | apply State.becomeDisabled_keeps
    | apply Keeps.foldl
    | apply Keeps.foldl_snd
    | dsimp only
    | split
    | (refine Keeps.of_some (by assumption) ?_)
    | (refine Keeps.of_snd (by assumption) ?_)
    | (refine Keeps.of_snd_snd (by assumption) ?_)
    | (intro _ _ _; beta_reduce)
    | (fail_if_no_progress apply Keeps.other)
    | intro _

end Sys2Proof.Machine
end

