-- ==== Sys2Proof/Laws/KeepsAnswer.lean ====
section
/-! SUPPORT. What the operations of Answer.lean keep (Keeps.lean). -/
set_option linter.unusedTactic false
set_option linter.unreachableTactic false
namespace Sys2Proof.Machine

theorem State.setMailbox_keeps {r_ : State} (s : State) (n : Nat) (m : Mailbox) (h_ : Keeps r_ s) : Keeps r_ (State.setMailbox s n m) := by
  unfold State.setMailbox
  repeat' with_reducible first
    | assumption
    | exact Keeps.refl _
    | apply Keeps.foldl
    | apply Keeps.foldl_snd
    | dsimp only
    | split
    | (refine Keeps.of_some (by assumption) ?_)
    | (refine Keeps.of_snd (by assumption) ?_)
    | (refine Keeps.of_snd_snd (by assumption) ?_)
    | (intro _ _ _; beta_reduce)
    | (fail_if_no_progress apply Keeps.other)
    | intro _

theorem State.mailboxEnd_keeps {r_ : State} (s : State) (n : Nat) (code : Abort) (data : List Octet) (h_ : Keeps r_ s) : Keeps r_ (State.mailboxEnd s n code data) := by
  unfold State.mailboxEnd
  extract_lets +onlyGivenNames m_0 read_1 w_2
  try clear_value m_0
  try clear_value read_1
  repeat' with_reducible first
    | assumption
    | exact Keeps.refl _
    | apply State.setMailbox_keeps
    | apply Keeps.foldl
    | apply Keeps.foldl_snd
    | dsimp only
    | split
    | (refine Keeps.of_some (by assumption) ?_)
    | (refine Keeps.of_snd (by assumption) ?_)
    | (refine Keeps.of_snd_snd (by assumption) ?_)
    | (intro _ _ _; beta_reduce)
    | (fail_if_no_progress apply Keeps.other)
    | intro _

theorem State.respond_keeps {r_ : State} (s : State) (ch : Nat) (frame : List Octet) (code : Abort) (data : List Octet) (key : Option Nat) (h_ : Keeps r_ s) : Keeps r_ (State.respond s ch frame code data key) := by
  unfold State.respond
  repeat' with_reducible first
    | assumption
    | exact Keeps.refl _
    | apply Keeps.foldl
    | apply Keeps.foldl_snd
    | dsimp only
    | split
    | (refine Keeps.of_some (by assumption) ?_)
    | (refine Keeps.of_snd (by assumption) ?_)
    | (refine Keeps.of_snd_snd (by assumption) ?_)
    | (intro _ _ _; beta_reduce)
    | (fail_if_no_progress apply Keeps.other)
    | intro _

theorem State.relayResponse_keeps {r_ : State} (s : State) (e : RelayExec) (agent : Nat) (code : Abort) (data : List Octet) (h_ : Keeps r_ s) : Keeps r_ (State.relayResponse s e agent code data) := by
  unfold State.relayResponse
  repeat' with_reducible first
    | assumption
    | exact Keeps.refl _
    | apply State.sendControl_keeps
    | apply Keeps.foldl
    | apply Keeps.foldl_snd
    | dsimp only
    | split
    | (refine Keeps.of_some (by assumption) ?_)
    | (refine Keeps.of_snd (by assumption) ?_)
    | (refine Keeps.of_snd_snd (by assumption) ?_)
    | (intro _ _ _; beta_reduce)
    | (fail_if_no_progress apply Keeps.other)
    | intro _

theorem State.setCtx_keeps {r_ : State} (s : State) (a : Agent) (c : DpCtx) (h_ : Keeps r_ s) : Keeps r_ (State.setCtx s a c) := by
  unfold State.setCtx
  repeat' with_reducible first
    | assumption
    | exact Keeps.refl _
    | apply Keeps.foldl
    | apply Keeps.foldl_snd
    | dsimp only
    | split
    | (refine Keeps.of_some (by assumption) ?_)
    | (refine Keeps.of_snd (by assumption) ?_)
    | (refine Keeps.of_snd_snd (by assumption) ?_)
    | (intro _ _ _; beta_reduce)
    | (fail_if_no_progress apply Keeps.other)
    | intro _

theorem State.dpHold_keeps {r_ : State} (s : State) (a : Agent) (e : Abort) (h_ : Keeps r_ s) : Keeps r_ (State.dpHold s a e) := by
  unfold State.dpHold
  repeat' with_reducible first
    | assumption
    | exact Keeps.refl _
    | apply State.setCtx_keeps
    | apply Keeps.foldl
    | apply Keeps.foldl_snd
    | dsimp only
    | split
    | (refine Keeps.of_some (by assumption) ?_)
    | (refine Keeps.of_snd (by assumption) ?_)
    | (refine Keeps.of_snd_snd (by assumption) ?_)
    | (intro _ _ _; beta_reduce)
    | (fail_if_no_progress apply Keeps.other)
    | intro _

theorem State.finish_keeps {r_ : State} (s : State) (a : Agent) (code : Abort) (data : List Octet) (h_ : Keeps r_ s) : Keeps r_ (State.finish s a code data) := by
  unfold State.finish
  extract_lets +onlyGivenNames s1_0
  have h_s1_0 : Keeps r_ s1_0 := by
    unfold s1_0
    repeat' with_reducible first
      | assumption
      | exact Keeps.refl _
      | apply State.setReg_keeps
      | apply State.complete_keeps
      | apply State.mailboxEnd_keeps
      | apply State.respond_keeps
      | apply State.relayResponse_keeps
      | apply Keeps.foldl
      | apply Keeps.foldl_snd
      | dsimp only
      | split
      | (refine Keeps.of_some (by assumption) ?_)
      | (refine Keeps.of_snd (by assumption) ?_)
      | (refine Keeps.of_snd_snd (by assumption) ?_)
      | (intro _ _ _; beta_reduce)
      | (fail_if_no_progress apply Keeps.other)
      | intro _
  clear_value s1_0
  repeat' with_reducible first
    | assumption
    | exact Keeps.refl _
    | apply State.setReg_keeps
    | apply State.complete_keeps
    | apply State.mailboxEnd_keeps
    | apply State.respond_keeps
    | apply State.relayResponse_keeps
    | apply Keeps.foldl
    | apply Keeps.foldl_snd
    | dsimp only
    | split
    | (refine Keeps.of_some (by assumption) ?_)
    | (refine Keeps.of_snd (by assumption) ?_)
    | (refine Keeps.of_snd_snd (by assumption) ?_)
    | (intro _ _ _; beta_reduce)
    | (fail_if_no_progress apply Keeps.other)
    | intro _

end Sys2Proof.Machine
end

