-- ==== Sys2Proof/Laws/KeepsTime.lean ====
section
/-! SUPPORT. What the operations of Time.lean keep (Keeps.lean). -/
set_option linter.unusedTactic false
set_option linter.unreachableTactic false
namespace Sys2Proof.Machine

theorem State.trefGone_keeps {r_ : State} (s : State) (h_ : Keeps r_ s) : Keeps r_ (State.trefGone s) := by
  unfold State.trefGone
  extract_lets +onlyGivenNames s1_0
  have h_s1_0 : Keeps r_ s1_0 := by
    unfold s1_0
    repeat' with_reducible first
      | assumption
      | exact Keeps.refl _
      | apply State.wr_keeps
      | apply State.setReg_keeps
      | apply State.bump_keeps
      | apply State.latch_keeps
      | apply State.raise_keeps
      | apply State.record_keeps
      | apply Keeps.foldl
      | apply Keeps.foldl_snd
      | dsimp only
      | split
      | (refine Keeps.of_some (by assumption) ?_)
      | (refine Keeps.of_snd (by assumption) ?_)
      | (refine Keeps.of_snd_snd (by assumption) ?_)
      | (intro _ _ _; beta_reduce)
      | (fail_if_no_progress apply Keeps.other)
      | intro _
  clear_value s1_0
  repeat' with_reducible first
    | assumption
    | exact Keeps.refl _
    | apply State.wr_keeps
    | apply State.setReg_keeps
    | apply State.bump_keeps
    | apply State.latch_keeps
    | apply State.raise_keeps
    | apply State.record_keeps
    | apply Keeps.foldl
    | apply Keeps.foldl_snd
    | dsimp only
    | split
    | (refine Keeps.of_some (by assumption) ?_)
    | (refine Keeps.of_snd (by assumption) ?_)
    | (refine Keeps.of_snd_snd (by assumption) ?_)
    | (intro _ _ _; beta_reduce)
    | (fail_if_no_progress apply Keeps.other)
    | intro _

theorem State.sleepEdges_keeps {r_ : State} (s : State) (n : Nat) (h_ : Keeps r_ s) : Keeps r_ (State.sleepEdges s n) := by
  unfold State.sleepEdges
  extract_lets +onlyGivenNames lost_0 d_1 s1_2
  try clear_value lost_0
  try clear_value d_1
  have h_s1_2 : Keeps r_ s1_2 := by
    unfold s1_2
    repeat' with_reducible first
      | assumption
      | exact Keeps.refl _
      | apply State.setReg_keeps
      | apply Keeps.foldl
      | apply Keeps.foldl_snd
      | dsimp only
      | split
      | (refine Keeps.of_some (by assumption) ?_)
      | (refine Keeps.of_snd (by assumption) ?_)
      | (refine Keeps.of_snd_snd (by assumption) ?_)
      | (intro _ _ _; beta_reduce)
      | (fail_if_no_progress apply Keeps.other)
      | intro _
  clear_value s1_2
  repeat' with_reducible first
    | assumption
    | exact Keeps.refl _
    | apply State.setReg_keeps
    | apply Keeps.foldl
    | apply Keeps.foldl_snd
    | dsimp only
    | split
    | (refine Keeps.of_some (by assumption) ?_)
    | (refine Keeps.of_snd (by assumption) ?_)
    | (refine Keeps.of_snd_snd (by assumption) ?_)
    | (intro _ _ _; beta_reduce)
    | (fail_if_no_progress apply Keeps.other)
    | intro _

theorem State.sleepPasses_keeps {r_ : State} (s : State) (h_ : Keeps r_ s) : Keeps r_ (State.sleepPasses s) := by
  unfold State.sleepPasses
  repeat' with_reducible first
    | assumption
    | exact Keeps.refl _
    | apply State.takeFree_keeps
    | apply State.sleepEdges_keeps
    | apply Keeps.foldl
    | apply Keeps.foldl_snd
    | dsimp only
    | split
    | (refine Keeps.of_some (by assumption) ?_)
    | (refine Keeps.of_snd (by assumption) ?_)
    | (refine Keeps.of_snd_snd (by assumption) ?_)
    | (intro _ _ _; beta_reduce)
    | (fail_if_no_progress apply Keeps.other)
    | intro _

theorem State.sleepReach_keeps {r_ : State} (s : State) (d : Int) (h_ : Keeps r_ s) : Keeps r_ (State.sleepReach s d) := by
  unfold State.sleepReach
  repeat' with_reducible first
    | assumption
    | exact Keeps.refl _
    | apply State.sleepEdges_keeps
    | apply Keeps.foldl
    | apply Keeps.foldl_snd
    | dsimp only
    | split
    | (refine Keeps.of_some (by assumption) ?_)
    | (refine Keeps.of_snd (by assumption) ?_)
    | (refine Keeps.of_snd_snd (by assumption) ?_)
    | (intro _ _ _; beta_reduce)
    | (fail_if_no_progress apply Keeps.other)
    | intro _

theorem execTrefLost_keeps {r_ : State} (s : State) (h_ : Keeps r_ s) : KeepsNext r_ (execTrefLost s) := by
  unfold execTrefLost
  repeat' with_reducible first
    | assumption
    | exact Keeps.refl _
    | apply KeepsNext.next
    | apply KeepsNext.refused
    | apply State.wr_keeps
    | apply State.setReg_keeps
    | apply State.bump_keeps
    | apply State.latch_keeps
    | apply State.record_keeps
    | apply State.trefGone_keeps
    | apply State.sleepPasses_keeps
    | apply Keeps.foldl
    | apply Keeps.foldl_snd
    | dsimp only
    | split
    | (refine Keeps.of_some (by assumption) ?_)
    | (refine Keeps.of_snd (by assumption) ?_)
    | (refine Keeps.of_snd_snd (by assumption) ?_)
    | (intro _ _ _; beta_reduce)
    | (fail_if_no_progress apply Keeps.other)
    | intro _

theorem execTrefRestored_keeps {r_ : State} (s : State) (h_ : Keeps r_ s) : KeepsNext r_ (execTrefRestored s) := by
  unfold execTrefRestored
  repeat' with_reducible first
    | assumption
    | exact Keeps.refl _
    | apply KeepsNext.next
    | apply KeepsNext.refused
    | apply State.wr_keeps
    | apply State.setReg_keeps
    | apply State.record_keeps
    | apply State.sleepPasses_keeps
    | apply Keeps.foldl
    | apply Keeps.foldl_snd
    | dsimp only
    | split
    | (refine Keeps.of_some (by assumption) ?_)
    | (refine Keeps.of_snd (by assumption) ?_)
    | (refine Keeps.of_snd_snd (by assumption) ?_)
    | (intro _ _ _; beta_reduce)
    | (fail_if_no_progress apply Keeps.other)
    | intro _

theorem State.overrunCheck_keeps {r_ : State} (s : State) (ep : Nat) (h_ : Keeps r_ s) : Keeps r_ (State.overrunCheck s ep) := by
  unfold State.overrunCheck
  repeat' with_reducible first
    | assumption
    | exact Keeps.refl _
    | apply State.bump_keeps
    | apply State.latch_keeps
    | apply State.hit_keeps
    | apply Keeps.foldl
    | apply Keeps.foldl_snd
    | dsimp only
    | split
    | (refine Keeps.of_some (by assumption) ?_)
    | (refine Keeps.of_snd (by assumption) ?_)
    | (refine Keeps.of_snd_snd (by assumption) ?_)
    | (intro _ _ _; beta_reduce)
    | (fail_if_no_progress apply Keeps.other)
    | intro _

theorem execGateTransition_keeps {r_ : State} (ep : Nat) (s : State) (h_ : Keeps r_ s) : KeepsNext r_ (execGateTransition ep s) := by
  unfold execGateTransition
  repeat' with_reducible first
    | assumption
    | exact Keeps.refl _
    | apply KeepsNext.next
    | apply KeepsNext.refused
    | apply State.overrunCheck_keeps
    | apply Keeps.foldl
    | apply Keeps.foldl_snd
    | dsimp only
    | split
    | (refine Keeps.of_some (by assumption) ?_)
    | (refine Keeps.of_snd (by assumption) ?_)
    | (refine Keeps.of_snd_snd (by assumption) ?_)
    | (intro _ _ _; beta_reduce)
    | (fail_if_no_progress apply Keeps.other)
    | intro _

theorem State.gateCommit_keeps {r_ : State} (s : State) (ep : Nat) (h_ : Keeps r_ s) : Keeps r_ (State.gateCommit s ep) := by
  unfold State.gateCommit
  extract_lets +onlyGivenNames cfg_0
  try clear_value cfg_0
  repeat' with_reducible first
    | assumption
    | exact Keeps.refl _
    | apply Keeps.foldl
    | apply Keeps.foldl_snd
    | dsimp only
    | split
    | (refine Keeps.of_some (by assumption) ?_)
    | (refine Keeps.of_snd (by assumption) ?_)
    | (refine Keeps.of_snd_snd (by assumption) ?_)
    | (intro _ _ _; beta_reduce)
    | (fail_if_no_progress apply Keeps.other)
    | intro _

theorem State.gateSwitch_keeps {r_ : State} (s : State) (ep : Nat) (ct : Nat) (cfg : Nat) (list : List Nat) (h_ : Keeps r_ s) : Keeps r_ (State.gateSwitch s ep ct cfg list) := by
  unfold State.gateSwitch
  extract_lets +onlyGivenNames s1_0 s2_1
  have h_s1_0 : Keeps r_ s1_0 := by
    unfold s1_0
    repeat' with_reducible first
      | assumption
      | exact Keeps.refl _
      | apply State.record_keeps
      | apply State.withdraw_keeps
      | apply State.overrunCheck_keeps
      | apply Keeps.foldl
      | apply Keeps.foldl_snd
      | dsimp only
      | split
      | (refine Keeps.of_some (by assumption) ?_)
      | (refine Keeps.of_snd (by assumption) ?_)
      | (refine Keeps.of_snd_snd (by assumption) ?_)
      | (intro _ _ _; beta_reduce)
      | (fail_if_no_progress apply Keeps.other)
      | intro _
  clear_value s1_0
  have h_s2_1 : Keeps r_ s2_1 := by
    unfold s2_1
    repeat' with_reducible first
      | assumption
      | exact Keeps.refl _
      | apply State.record_keeps
      | apply State.withdraw_keeps
      | apply State.overrunCheck_keeps
      | apply Keeps.foldl
      | apply Keeps.foldl_snd
      | dsimp only
      | split
      | (refine Keeps.of_some (by assumption) ?_)
      | (refine Keeps.of_snd (by assumption) ?_)
      | (refine Keeps.of_snd_snd (by assumption) ?_)
      | (intro _ _ _; beta_reduce)
      | (fail_if_no_progress apply Keeps.other)
      | intro _
  clear_value s2_1
  repeat' with_reducible first
    | assumption
    | exact Keeps.refl _
    | apply State.record_keeps
    | apply State.withdraw_keeps
    | apply State.overrunCheck_keeps
    | apply Keeps.foldl
    | apply Keeps.foldl_snd
    | dsimp only
    | split
    | (refine Keeps.of_some (by assumption) ?_)
    | (refine Keeps.of_snd (by assumption) ?_)
    | (refine Keeps.of_snd_snd (by assumption) ?_)
    | (intro _ _ _; beta_reduce)
    | (fail_if_no_progress apply Keeps.other)
    | intro _

theorem execGateCtReached_keeps {r_ : State} (ep : Nat) (s : State) (h_ : Keeps r_ s) : KeepsNext r_ (execGateCtReached ep s) := by
  unfold execGateCtReached
  repeat' with_reducible first
    | assumption
    | exact Keeps.refl _
    | apply KeepsNext.next
    | apply KeepsNext.refused
    | apply State.gateSwitch_keeps
    | apply Keeps.foldl
    | apply Keeps.foldl_snd
    | dsimp only
    | split
    | (refine Keeps.of_some (by assumption) ?_)
    | (refine Keeps.of_snd (by assumption) ?_)
    | (refine Keeps.of_snd_snd (by assumption) ?_)
    | (intro _ _ _; beta_reduce)
    | (fail_if_no_progress apply Keeps.other)
    | intro _

theorem State.applyStep_keeps {r_ : State} (s : State) (h_ : Keeps r_ s) : Keeps r_ (State.applyStep s) := by
  unfold State.applyStep
  repeat' with_reducible first
    | assumption
    | exact Keeps.refl _
    | apply State.wr_keeps
    | apply State.setReg_keeps
    | apply State.bump_keeps
    | apply State.latch_keeps
    | apply State.record_keeps
    | apply State.finish_keeps
    | apply State.overrunCheck_keeps
    | apply Keeps.foldl
    | apply Keeps.foldl_snd
    | dsimp only
    | split
    | (refine Keeps.of_some (by assumption) ?_)
    | (refine Keeps.of_snd (by assumption) ?_)
    | (refine Keeps.of_snd_snd (by assumption) ?_)
    | (intro _ _ _; beta_reduce)
    | (fail_if_no_progress apply Keeps.other)
    | intro _

theorem execTimeStepApply_keeps {r_ : State} (s : State) (h_ : Keeps r_ s) : KeepsNext r_ (execTimeStepApply s) := by
  unfold execTimeStepApply
  repeat' with_reducible first
    | assumption
    | exact Keeps.refl _
    | apply KeepsNext.next
    | apply KeepsNext.refused
    | apply gathered_keeps
    | apply State.applyStep_keeps
    | apply Keeps.foldl
    | apply Keeps.foldl_snd
    | dsimp only
    | split
    | (refine Keeps.of_some (by assumption) ?_)
    | (refine Keeps.of_snd (by assumption) ?_)
    | (refine Keeps.of_snd_snd (by assumption) ?_)
    | (intro _ _ _; beta_reduce)
    | (fail_if_no_progress apply Keeps.other)
    | intro _

theorem State.stepSet_keeps {r_ : State} (s : State) (a : Agent) (h_ : Keeps r_ s) : Keeps r_ (State.stepSet s a).2 := by
  unfold State.stepSet
  repeat' with_reducible first
    | assumption
    | exact Keeps.refl _
    | apply Keeps.foldl
    | apply Keeps.foldl_snd
    | dsimp only
    | split
    | (refine Keeps.of_some (by assumption) ?_)
    | (refine Keeps.of_snd (by assumption) ?_)
    | (refine Keeps.of_snd_snd (by assumption) ?_)
    | (intro _ _ _; beta_reduce)
    | (fail_if_no_progress apply Keeps.other)
    | intro _

theorem State.adjust_keeps {r_ : State} (s : State) (a : Agent) (d : Int) (h_ : Keeps r_ s) : Keeps r_ (State.adjust s a d).2 := by
  unfold State.adjust
  repeat' with_reducible first
    | assumption
    | exact Keeps.refl _
    | apply Keeps.foldl
    | apply Keeps.foldl_snd
    | dsimp only
    | split
    | (refine Keeps.of_some (by assumption) ?_)
    | (refine Keeps.of_snd (by assumption) ?_)
    | (refine Keeps.of_snd_snd (by assumption) ?_)
    | (intro _ _ _; beta_reduce)
    | (fail_if_no_progress apply Keeps.other)
    | intro _

theorem execPpsInEdge_keeps {r_ : State} (s : State) (h_ : Keeps r_ s) : KeepsNext r_ (execPpsInEdge s) := by
  unfold execPpsInEdge
  repeat' with_reducible first
    | assumption
    | exact Keeps.refl _
    | apply KeepsNext.next
    | apply KeepsNext.refused
    | apply State.wr_keeps
    | apply State.startTimer_keeps
    | apply State.bump_keeps
    | apply State.raise_keeps
    | apply Keeps.foldl
    | apply Keeps.foldl_snd
    | dsimp only
    | split
    | (refine Keeps.of_some (by assumption) ?_)
    | (refine Keeps.of_snd (by assumption) ?_)
    | (refine Keeps.of_snd_snd (by assumption) ?_)
    | (intro _ _ _; beta_reduce)
    | (fail_if_no_progress apply Keeps.other)
    | intro _

theorem State.ppsGone_keeps {r_ : State} (s : State) (h_ : Keeps r_ s) : Keeps r_ (State.ppsGone s) := by
  unfold State.ppsGone
  repeat' with_reducible first
    | assumption
    | exact Keeps.refl _
    | apply State.stopTimer_keeps
    | apply State.bump_keeps
    | apply State.latch_keeps
    | apply State.record_keeps
    | apply Keeps.foldl
    | apply Keeps.foldl_snd
    | dsimp only
    | split
    | (refine Keeps.of_some (by assumption) ?_)
    | (refine Keeps.of_snd (by assumption) ?_)
    | (refine Keeps.of_snd_snd (by assumption) ?_)
    | (intro _ _ _; beta_reduce)
    | (fail_if_no_progress apply Keeps.other)
    | intro _

theorem execPpsInMissing_keeps {r_ : State} (s : State) (h_ : Keeps r_ s) : KeepsNext r_ (execPpsInMissing s) := by
  unfold execPpsInMissing
  repeat' with_reducible first
    | assumption
    | exact Keeps.refl _
    | apply KeepsNext.next
    | apply KeepsNext.refused
    | apply State.wake_keeps
    | apply State.ppsGone_keeps
    | apply Keeps.foldl
    | apply Keeps.foldl_snd
    | dsimp only
    | split
    | (refine Keeps.of_some (by assumption) ?_)
    | (refine Keeps.of_snd (by assumption) ?_)
    | (refine Keeps.of_snd_snd (by assumption) ?_)
    | (intro _ _ _; beta_reduce)
    | (fail_if_no_progress apply Keeps.other)
    | intro _

theorem State.atPps_keeps {r_ : State} (s : State) (h_ : Keeps r_ s) : Keeps r_ (State.atPps s) := by
  unfold State.atPps
  repeat' with_reducible first
    | assumption
    | exact Keeps.refl _
    | apply State.sleepReach_keeps
    | apply Keeps.foldl
    | apply Keeps.foldl_snd
    | dsimp only
    | split
    | (refine Keeps.of_some (by assumption) ?_)
    | (refine Keeps.of_snd (by assumption) ?_)
    | (refine Keeps.of_snd_snd (by assumption) ?_)
    | (intro _ _ _; beta_reduce)
    | (fail_if_no_progress apply Keeps.other)
    | intro _

theorem State.atPpsEnd_keeps {r_ : State} (s : State) (h_ : Keeps r_ s) : Keeps r_ (State.atPpsEnd s) := by
  unfold State.atPpsEnd
  repeat' with_reducible first
    | assumption
    | exact Keeps.refl _
    | apply State.sleepReach_keeps
    | apply Keeps.foldl
    | apply Keeps.foldl_snd
    | dsimp only
    | split
    | (refine Keeps.of_some (by assumption) ?_)
    | (refine Keeps.of_snd (by assumption) ?_)
    | (refine Keeps.of_snd_snd (by assumption) ?_)
    | (intro _ _ _; beta_reduce)
    | (fail_if_no_progress apply Keeps.other)
    | intro _

theorem execPpsOutRise_keeps {r_ : State} (s : State) (h_ : Keeps r_ s) : KeepsNext r_ (execPpsOutRise s) := by
  unfold execPpsOutRise
  extract_lets +onlyGivenNames s1_0
  have h_s1_0 : Keeps r_ s1_0 := by
    unfold s1_0
    repeat' with_reducible first
      | assumption
      | exact Keeps.refl _
      | apply KeepsNext.next
      | apply KeepsNext.refused
      | apply State.setReg_keeps
      | apply State.atPps_keeps
      | apply Keeps.foldl
      | apply Keeps.foldl_snd
      | dsimp only
      | split
      | (refine Keeps.of_some (by assumption) ?_)
      | (refine Keeps.of_snd (by assumption) ?_)
      | (refine Keeps.of_snd_snd (by assumption) ?_)
      | (intro _ _ _; beta_reduce)
      | (fail_if_no_progress apply Keeps.other)
      | intro _
  clear_value s1_0
  repeat' with_reducible first
    | assumption
    | exact Keeps.refl _
    | apply KeepsNext.next
    | apply KeepsNext.refused
    | apply State.setReg_keeps
    | apply State.atPps_keeps
    | apply Keeps.foldl
    | apply Keeps.foldl_snd
    | dsimp only
    | split
    | (refine Keeps.of_some (by assumption) ?_)
    | (refine Keeps.of_snd (by assumption) ?_)
    | (refine Keeps.of_snd_snd (by assumption) ?_)
    | (intro _ _ _; beta_reduce)
    | (fail_if_no_progress apply Keeps.other)
    | intro _

theorem execPpsOutFall_keeps {r_ : State} (s : State) (h_ : Keeps r_ s) : KeepsNext r_ (execPpsOutFall s) := by
  unfold execPpsOutFall
  extract_lets +onlyGivenNames s1_0
  have h_s1_0 : Keeps r_ s1_0 := by
    unfold s1_0
    repeat' with_reducible first
      | assumption
      | exact Keeps.refl _
      | apply KeepsNext.next
      | apply KeepsNext.refused
      | apply State.setReg_keeps
      | apply State.atPpsEnd_keeps
      | apply Keeps.foldl
      | apply Keeps.foldl_snd
      | dsimp only
      | split
      | (refine Keeps.of_some (by assumption) ?_)
      | (refine Keeps.of_snd (by assumption) ?_)
      | (refine Keeps.of_snd_snd (by assumption) ?_)
      | (intro _ _ _; beta_reduce)
      | (fail_if_no_progress apply Keeps.other)
      | intro _
  clear_value s1_0
  repeat' with_reducible first
    | assumption
    | exact Keeps.refl _
    | apply KeepsNext.next
    | apply KeepsNext.refused
    | apply State.setReg_keeps
    | apply State.atPpsEnd_keeps
    | apply Keeps.foldl
    | apply Keeps.foldl_snd
    | dsimp only
    | split
    | (refine Keeps.of_some (by assumption) ?_)
    | (refine Keeps.of_snd (by assumption) ?_)
    | (refine Keeps.of_snd_snd (by assumption) ?_)
    | (intro _ _ _; beta_reduce)
    | (fail_if_no_progress apply Keeps.other)
    | intro _

end Sys2Proof.Machine
end

