-- ==== Sys2Proof/Laws/KeepsLanes.lean ====
section
/-! SUPPORT. What the operations of Lanes.lean keep (Keeps.lean). -/
set_option linter.unusedTactic false
set_option linter.unreachableTactic false
namespace Sys2Proof.Machine

theorem State.cutDown_keeps {r_ : State} (s : State) (c : Copy) (h_ : Keeps r_ s) : Keeps r_ (State.cutDown s c) := by
  unfold State.cutDown
  extract_lets +onlyGivenNames s1_0 s2_1
  have h_s1_0 : Keeps r_ s1_0 := by
    unfold s1_0
    repeat' with_reducible first
      | assumption
      | exact Keeps.refl _
      | apply State.bump_keeps
      | apply State.settle_keeps
      | apply State.dropCopy_keeps
      | apply Keeps.foldl
      | apply Keeps.foldl_snd
      | dsimp only
      | split
      | (refine Keeps.of_some (by assumption) ?_)
      | (refine Keeps.of_snd (by assumption) ?_)
      | (refine Keeps.of_snd_snd (by assumption) ?_)
      | (intro _ _ _; beta_reduce)
      | (fail_if_no_progress apply Keeps.other)
      | intro _
  clear_value s1_0
  have h_s2_1 : Keeps r_ s2_1 := by
    unfold s2_1
    repeat' with_reducible first
      | assumption
      | exact Keeps.refl _
      | apply State.bump_keeps
      | apply State.settle_keeps
      | apply State.dropCopy_keeps
      | apply Keeps.foldl
      | apply Keeps.foldl_snd
      | dsimp only
      | split
      | (refine Keeps.of_some (by assumption) ?_)
      | (refine Keeps.of_snd (by assumption) ?_)
      | (refine Keeps.of_snd_snd (by assumption) ?_)
      | (intro _ _ _; beta_reduce)
      | (fail_if_no_progress apply Keeps.other)
      | intro _
  clear_value s2_1
  repeat' with_reducible first
    | assumption
    | exact Keeps.refl _
    | apply State.bump_keeps
    | apply State.settle_keeps
    | apply State.dropCopy_keeps
    | apply Keeps.foldl
    | apply Keeps.foldl_snd
    | dsimp only
    | split
    | (refine Keeps.of_some (by assumption) ?_)
    | (refine Keeps.of_snd (by assumption) ?_)
    | (refine Keeps.of_snd_snd (by assumption) ?_)
    | (intro _ _ _; beta_reduce)
    | (fail_if_no_progress apply Keeps.other)
    | intro _

theorem State.rxBroken_keeps {r_ : State} (s : State) (ch : Nat) (h_ : Keeps r_ s) : Keeps r_ (State.rxBroken s ch) := by
  unfold State.rxBroken
  extract_lets +onlyGivenNames s1_0
  have h_s1_0 : Keeps r_ s1_0 := by
    unfold s1_0
    repeat' with_reducible first
      | assumption
      | exact Keeps.refl _
      | apply State.setReg_keeps
      | apply State.undo_keeps
      | apply State.dropContexts_keeps
      | apply Keeps.foldl
      | apply Keeps.foldl_snd
      | dsimp only
      | split
      | (refine Keeps.of_some (by assumption) ?_)
      | (refine Keeps.of_snd (by assumption) ?_)
      | (refine Keeps.of_snd_snd (by assumption) ?_)
      | (intro _ _ _; beta_reduce)
      | (fail_if_no_progress apply Keeps.other)
      | intro _
  clear_value s1_0
  repeat' with_reducible first
    | assumption
    | exact Keeps.refl _
    | apply State.setReg_keeps
    | apply State.undo_keeps
    | apply State.dropContexts_keeps
    | apply Keeps.foldl
    | apply Keeps.foldl_snd
    | dsimp only
    | split
    | (refine Keeps.of_some (by assumption) ?_)
    | (refine Keeps.of_snd (by assumption) ?_)
    | (refine Keeps.of_snd_snd (by assumption) ?_)
    | (intro _ _ _; beta_reduce)
    | (fail_if_no_progress apply Keeps.other)
    | intro _

theorem State.channelDown_keeps {r_ : State} (s : State) (ch : Nat) (h_ : Keeps r_ s) : Keeps r_ (State.channelDown s ch) := by
  unfold State.channelDown
  extract_lets +onlyGivenNames s2_0 live_1 s3_2
  try clear_value live_1
  have h_s2_0 : Keeps r_ s2_0 := by
    unfold s2_0
    repeat' with_reducible first
      | assumption
      | exact Keeps.refl _
      | apply State.setReg_keeps
      | apply State.pauseDown_keeps
      | apply State.preemptDown_keeps
      | apply State.cutDown_keeps
      | apply State.rxBroken_keeps
      | apply Keeps.foldl
      | apply Keeps.foldl_snd
      | dsimp only
      | split
      | (refine Keeps.of_some (by assumption) ?_)
      | (refine Keeps.of_snd (by assumption) ?_)
      | (refine Keeps.of_snd_snd (by assumption) ?_)
      | (intro _ _ _; beta_reduce)
      | (fail_if_no_progress apply Keeps.other)
      | intro _
  clear_value s2_0
  have h_s3_2 : Keeps r_ s3_2 := by
    unfold s3_2
    repeat' with_reducible first
      | assumption
      | exact Keeps.refl _
      | apply State.setReg_keeps
      | apply State.pauseDown_keeps
      | apply State.preemptDown_keeps
      | apply State.cutDown_keeps
      | apply State.rxBroken_keeps
      | apply Keeps.foldl
      | apply Keeps.foldl_snd
      | dsimp only
      | split
      | (refine Keeps.of_some (by assumption) ?_)
      | (refine Keeps.of_snd (by assumption) ?_)
      | (refine Keeps.of_snd_snd (by assumption) ?_)
      | (intro _ _ _; beta_reduce)
      | (fail_if_no_progress apply Keeps.other)
      | intro _
  clear_value s3_2
  repeat' with_reducible first
    | assumption
    | exact Keeps.refl _
    | apply State.setReg_keeps
    | apply State.pauseDown_keeps
    | apply State.preemptDown_keeps
    | apply State.cutDown_keeps
    | apply State.rxBroken_keeps
    | apply Keeps.foldl
    | apply Keeps.foldl_snd
    | dsimp only
    | split
    | (refine Keeps.of_some (by assumption) ?_)
    | (refine Keeps.of_snd (by assumption) ?_)
    | (refine Keeps.of_snd_snd (by assumption) ?_)
    | (intro _ _ _; beta_reduce)
    | (fail_if_no_progress apply Keeps.other)
    | intro _

theorem State.channelUp_keeps {r_ : State} (s : State) (ch : Nat) (h_ : Keeps r_ s) : Keeps r_ (State.channelUp s ch) := by
  unfold State.channelUp
  repeat' with_reducible first
    | assumption
    | exact Keeps.refl _
    | apply State.pauseUp_keeps
    | apply State.preemptUp_keeps
    | apply Keeps.foldl
    | apply Keeps.foldl_snd
    | dsimp only
    | split
    | (refine Keeps.of_some (by assumption) ?_)
    | (refine Keeps.of_snd (by assumption) ?_)
    | (refine Keeps.of_snd_snd (by assumption) ?_)
    | (intro _ _ _; beta_reduce)
    | (fail_if_no_progress apply Keeps.other)
    | intro _

theorem State.leaveUp_keeps {r_ : State} (s : State) (lane : Nat) (counts : Bool) (h_ : Keeps r_ s) : Keeps r_ (State.leaveUp s lane counts) := by
  unfold State.leaveUp
  extract_lets +onlyGivenNames s0_0 s1_1
  have h_s0_0 : Keeps r_ s0_0 := by
    unfold s0_0
    repeat' with_reducible first
      | assumption
      | exact Keeps.refl _
      | apply State.bump_keeps
      | apply State.neighbourDown_keeps
      | apply State.channelDown_keeps
      | apply Keeps.foldl
      | apply Keeps.foldl_snd
      | dsimp only
      | split
      | (refine Keeps.of_some (by assumption) ?_)
      | (refine Keeps.of_snd (by assumption) ?_)
      | (refine Keeps.of_snd_snd (by assumption) ?_)
      | (intro _ _ _; beta_reduce)
      | (fail_if_no_progress apply Keeps.other)
      | intro _
  clear_value s0_0
  have h_s1_1 : Keeps r_ s1_1 := by
    unfold s1_1
    repeat' with_reducible first
      | assumption
      | exact Keeps.refl _
      | apply State.bump_keeps
      | apply State.neighbourDown_keeps
      | apply State.channelDown_keeps
      | apply Keeps.foldl
      | apply Keeps.foldl_snd
      | dsimp only
      | split
      | (refine Keeps.of_some (by assumption) ?_)
      | (refine Keeps.of_snd (by assumption) ?_)
      | (refine Keeps.of_snd_snd (by assumption) ?_)
      | (intro _ _ _; beta_reduce)
      | (fail_if_no_progress apply Keeps.other)
      | intro _
  clear_value s1_1
  repeat' with_reducible first
    | assumption
    | exact Keeps.refl _
    | apply State.bump_keeps
    | apply State.neighbourDown_keeps
    | apply State.channelDown_keeps
    | apply Keeps.foldl
    | apply Keeps.foldl_snd
    | dsimp only
    | split
    | (refine Keeps.of_some (by assumption) ?_)
    | (refine Keeps.of_snd (by assumption) ?_)
    | (refine Keeps.of_snd_snd (by assumption) ?_)
    | (intro _ _ _; beta_reduce)
    | (fail_if_no_progress apply Keeps.other)
    | intro _

theorem State.setLink_keeps {r_ : State} (s : State) (lane : Nat) (new : Nat) (input : LinkInput) (h_ : Keeps r_ s) : Keeps r_ (State.setLink s lane new input) := by
  unfold State.setLink
  extract_lets +onlyGivenNames old_0
  try clear_value old_0
  repeat' with_reducible first
    | assumption
    | exact Keeps.refl _
    | apply State.wr_keeps
    | apply State.raise_keeps
    | apply State.record_keeps
    | apply State.channelUp_keeps
    | apply State.leaveUp_keeps
    | apply Keeps.foldl
    | apply Keeps.foldl_snd
    | dsimp only
    | split
    | (refine Keeps.of_some (by assumption) ?_)
    | (refine Keeps.of_snd (by assumption) ?_)
    | (refine Keeps.of_snd_snd (by assumption) ?_)
    | (intro _ _ _; beta_reduce)
    | (fail_if_no_progress apply Keeps.other)
    | intro _

theorem State.startSync_keeps {r_ : State} (s : State) (lane : Nat) (h_ : Keeps r_ s) : Keeps r_ (State.startSync s lane) := by
  unfold State.startSync
  repeat' with_reducible first
    | assumption
    | exact Keeps.refl _
    | apply State.startTimer_keeps
    | apply Keeps.foldl
    | apply Keeps.foldl_snd
    | dsimp only
    | split
    | (refine Keeps.of_some (by assumption) ?_)
    | (refine Keeps.of_snd (by assumption) ?_)
    | (refine Keeps.of_snd_snd (by assumption) ?_)
    | (intro _ _ _; beta_reduce)
    | (fail_if_no_progress apply Keeps.other)
    | intro _

theorem State.toAcquire_keeps {r_ : State} (s : State) (lane : Nat) (input : LinkInput) (h_ : Keeps r_ s) : Keeps r_ (State.toAcquire s lane input) := by
  unfold State.toAcquire
  repeat' with_reducible first
    | assumption
    | exact Keeps.refl _
    | apply State.setReg_keeps
    | apply State.stopTimer_keeps
    | apply State.setLink_keeps
    | apply State.startSync_keeps
    | apply Keeps.foldl
    | apply Keeps.foldl_snd
    | dsimp only
    | split
    | (refine Keeps.of_some (by assumption) ?_)
    | (refine Keeps.of_snd (by assumption) ?_)
    | (refine Keeps.of_snd_snd (by assumption) ?_)
    | (intro _ _ _; beta_reduce)
    | (fail_if_no_progress apply Keeps.other)
    | intro _

theorem State.sdCheck_keeps {r_ : State} (s : State) (lane : Nat) (h_ : Keeps r_ s) : Keeps r_ (State.sdCheck s lane) := by
  unfold State.sdCheck
  repeat' with_reducible first
    | assumption
    | exact Keeps.refl _
    | apply State.toAcquire_keeps
    | apply Keeps.foldl
    | apply Keeps.foldl_snd
    | dsimp only
    | split
    | (refine Keeps.of_some (by assumption) ?_)
    | (refine Keeps.of_snd (by assumption) ?_)
    | (refine Keeps.of_snd_snd (by assumption) ?_)
    | (intro _ _ _; beta_reduce)
    | (fail_if_no_progress apply Keeps.other)
    | intro _

theorem State.toDown_keeps {r_ : State} (s : State) (lane : Nat) (new : Nat) (input : LinkInput) (h_ : Keeps r_ s) : Keeps r_ (State.toDown s lane new input) := by
  unfold State.toDown
  repeat' with_reducible first
    | assumption
    | exact Keeps.refl _
    | apply State.setReg_keeps
    | apply State.stopTimer_keeps
    | apply State.setLink_keeps
    | apply Keeps.foldl
    | apply Keeps.foldl_snd
    | dsimp only
    | split
    | (refine Keeps.of_some (by assumption) ?_)
    | (refine Keeps.of_snd (by assumption) ?_)
    | (refine Keeps.of_snd_snd (by assumption) ?_)
    | (intro _ _ _; beta_reduce)
    | (fail_if_no_progress apply Keeps.other)
    | intro _

theorem State.sdDown_keeps {r_ : State} (s : State) (lane : Nat) (h_ : Keeps r_ s) : Keeps r_ (State.sdDown s lane) := by
  unfold State.sdDown
  repeat' with_reducible first
    | assumption
    | exact Keeps.refl _
    | apply State.toDown_keeps
    | apply Keeps.foldl
    | apply Keeps.foldl_snd
    | dsimp only
    | split
    | (refine Keeps.of_some (by assumption) ?_)
    | (refine Keeps.of_snd (by assumption) ?_)
    | (refine Keeps.of_snd_snd (by assumption) ?_)
    | (intro _ _ _; beta_reduce)
    | (fail_if_no_progress apply Keeps.other)
    | intro _

theorem State.upHoldOver_keeps {r_ : State} (s : State) (lane : Nat) (h_ : Keeps r_ s) : Keeps r_ (State.upHoldOver s lane) := by
  unfold State.upHoldOver
  repeat' with_reducible first
    | assumption
    | exact Keeps.refl _
    | apply State.stopTimer_keeps
    | apply State.setLink_keeps
    | apply Keeps.foldl
    | apply Keeps.foldl_snd
    | dsimp only
    | split
    | (refine Keeps.of_some (by assumption) ?_)
    | (refine Keeps.of_snd (by assumption) ?_)
    | (refine Keeps.of_snd_snd (by assumption) ?_)
    | (intro _ _ _; beta_reduce)
    | (fail_if_no_progress apply Keeps.other)
    | intro _

theorem State.toConfirm_keeps {r_ : State} (s : State) (lane : Nat) (input : LinkInput) (h_ : Keeps r_ s) : Keeps r_ (State.toConfirm s lane input) := by
  unfold State.toConfirm
  extract_lets +onlyGivenNames s1_0 hold_1
  try clear_value hold_1
  have h_s1_0 : Keeps r_ s1_0 := by
    unfold s1_0
    repeat' with_reducible first
      | assumption
      | exact Keeps.refl _
      | apply State.startTimer_keeps
      | apply State.stopTimer_keeps
      | apply State.setLink_keeps
      | apply State.upHoldOver_keeps
      | apply Keeps.foldl
      | apply Keeps.foldl_snd
      | dsimp only
      | split
      | (refine Keeps.of_some (by assumption) ?_)
      | (refine Keeps.of_snd (by assumption) ?_)
      | (refine Keeps.of_snd_snd (by assumption) ?_)
      | (intro _ _ _; beta_reduce)
      | (fail_if_no_progress apply Keeps.other)
      | intro _
  clear_value s1_0
  repeat' with_reducible first
    | assumption
    | exact Keeps.refl _
    | apply State.startTimer_keeps
    | apply State.stopTimer_keeps
    | apply State.setLink_keeps
    | apply State.upHoldOver_keeps
    | apply Keeps.foldl
    | apply Keeps.foldl_snd
    | dsimp only
    | split
    | (refine Keeps.of_some (by assumption) ?_)
    | (refine Keeps.of_snd (by assumption) ?_)
    | (refine Keeps.of_snd_snd (by assumption) ?_)
    | (intro _ _ _; beta_reduce)
    | (fail_if_no_progress apply Keeps.other)
    | intro _

theorem State.laneRestart_keeps {r_ : State} (s : State) (lane : Nat) (h_ : Keeps r_ s) : Keeps r_ (State.laneRestart s lane) := by
  unfold State.laneRestart
  repeat' with_reducible first
    | assumption
    | exact Keeps.refl _
    | apply State.setReg_keeps
    | apply State.sdCheck_keeps
    | apply State.toDown_keeps
    | apply Keeps.foldl
    | apply Keeps.foldl_snd
    | dsimp only
    | split
    | (refine Keeps.of_some (by assumption) ?_)
    | (refine Keeps.of_snd (by assumption) ?_)
    | (refine Keeps.of_snd_snd (by assumption) ?_)
    | (intro _ _ _; beta_reduce)
    | (fail_if_no_progress apply Keeps.other)
    | intro _

theorem execSdRise_keeps {r_ : State} (lane : Nat) (s : State) (h_ : Keeps r_ s) : KeepsNext r_ (execSdRise lane s) := by
  unfold execSdRise
  repeat' with_reducible first
    | assumption
    | exact Keeps.refl _
    | apply KeepsNext.next
    | apply KeepsNext.refused
    | apply State.wr_keeps
    | apply State.sdCheck_keeps
    | apply Keeps.foldl
    | apply Keeps.foldl_snd
    | dsimp only
    | split
    | (refine Keeps.of_some (by assumption) ?_)
    | (refine Keeps.of_snd (by assumption) ?_)
    | (refine Keeps.of_snd_snd (by assumption) ?_)
    | (intro _ _ _; beta_reduce)
    | (fail_if_no_progress apply Keeps.other)
    | intro _

theorem execSdFall_keeps {r_ : State} (lane : Nat) (s : State) (h_ : Keeps r_ s) : KeepsNext r_ (execSdFall lane s) := by
  unfold execSdFall
  repeat' with_reducible first
    | assumption
    | exact Keeps.refl _
    | apply KeepsNext.next
    | apply KeepsNext.refused
    | apply State.wr_keeps
    | apply State.sdDown_keeps
    | apply Keeps.foldl
    | apply Keeps.foldl_snd
    | dsimp only
    | split
    | (refine Keeps.of_some (by assumption) ?_)
    | (refine Keeps.of_snd (by assumption) ?_)
    | (refine Keeps.of_snd_snd (by assumption) ?_)
    | (intro _ _ _; beta_reduce)
    | (fail_if_no_progress apply Keeps.other)
    | intro _

theorem execLaneClockLost_keeps {r_ : State} (clock : LaneClock) (s : State) (h_ : Keeps r_ s) : KeepsNext r_ (execLaneClockLost clock s) := by
  unfold execLaneClockLost
  extract_lets +onlyGivenNames m_0
  try clear_value m_0
  repeat' with_reducible first
    | assumption
    | exact Keeps.refl _
    | apply KeepsNext.next
    | apply KeepsNext.refused
    | apply State.wr_keeps
    | apply State.setReg_keeps
    | apply State.bump_keeps
    | apply State.latch_keeps
    | apply State.sdDown_keeps
    | apply Keeps.foldl
    | apply Keeps.foldl_snd
    | dsimp only
    | split
    | (refine Keeps.of_some (by assumption) ?_)
    | (refine Keeps.of_snd (by assumption) ?_)
    | (refine Keeps.of_snd_snd (by assumption) ?_)
    | (intro _ _ _; beta_reduce)
    | (fail_if_no_progress apply Keeps.other)
    | intro _

theorem execLaneClockReturn_keeps {r_ : State} (clock : LaneClock) (s : State) (h_ : Keeps r_ s) : KeepsNext r_ (execLaneClockReturn clock s) := by
  unfold execLaneClockReturn
  extract_lets +onlyGivenNames m_0
  try clear_value m_0
  repeat' with_reducible first
    | assumption
    | exact Keeps.refl _
    | apply KeepsNext.next
    | apply KeepsNext.refused
    | apply State.setReg_keeps
    | apply State.sdCheck_keeps
    | apply Keeps.foldl
    | apply Keeps.foldl_snd
    | dsimp only
    | split
    | (refine Keeps.of_some (by assumption) ?_)
    | (refine Keeps.of_snd (by assumption) ?_)
    | (refine Keeps.of_snd_snd (by assumption) ?_)
    | (intro _ _ _; beta_reduce)
    | (fail_if_no_progress apply Keeps.other)
    | intro _

theorem State.negotiate_keeps {r_ : State} (s : State) (lane : Nat) (h_ : Keeps r_ s) : Keeps r_ (State.negotiate s lane) := by
  unfold State.negotiate
  repeat' with_reducible first
    | assumption
    | exact Keeps.refl _
    | apply State.setReg_keeps
    | apply State.startSync_keeps
    | apply Keeps.foldl
    | apply Keeps.foldl_snd
    | dsimp only
    | split
    | (refine Keeps.of_some (by assumption) ?_)
    | (refine Keeps.of_snd (by assumption) ?_)
    | (refine Keeps.of_snd_snd (by assumption) ?_)
    | (intro _ _ _; beta_reduce)
    | (fail_if_no_progress apply Keeps.other)
    | intro _

theorem State.synced_keeps {r_ : State} (s : State) (lane : Nat) (h_ : Keeps r_ s) : Keeps r_ (State.synced s lane) := by
  unfold State.synced
  repeat' with_reducible first
    | assumption
    | exact Keeps.refl _
    | apply State.setLink_keeps
    | apply State.toConfirm_keeps
    | apply State.negotiate_keeps
    | apply Keeps.foldl
    | apply Keeps.foldl_snd
    | dsimp only
    | split
    | (refine Keeps.of_some (by assumption) ?_)
    | (refine Keeps.of_snd (by assumption) ?_)
    | (refine Keeps.of_snd_snd (by assumption) ?_)
    | (intro _ _ _; beta_reduce)
    | (fail_if_no_progress apply Keeps.other)
    | intro _

theorem execSyncAcquired_keeps {r_ : State} (lane : Nat) (s : State) (h_ : Keeps r_ s) : KeepsNext r_ (execSyncAcquired lane s) := by
  unfold execSyncAcquired
  repeat' with_reducible first
    | assumption
    | exact Keeps.refl _
    | apply KeepsNext.next
    | apply KeepsNext.refused
    | apply State.setReg_keeps
    | apply State.synced_keeps
    | apply Keeps.foldl
    | apply Keeps.foldl_snd
    | dsimp only
    | split
    | (refine Keeps.of_some (by assumption) ?_)
    | (refine Keeps.of_snd (by assumption) ?_)
    | (refine Keeps.of_snd_snd (by assumption) ?_)
    | (intro _ _ _; beta_reduce)
    | (fail_if_no_progress apply Keeps.other)
    | intro _

theorem execSyncLost_keeps {r_ : State} (lane : Nat) (hiBer : Bool) (s : State) (h_ : Keeps r_ s) : KeepsNext r_ (execSyncLost lane hiBer s) := by
  unfold execSyncLost
  repeat' with_reducible first
    | assumption
    | exact Keeps.refl _
    | apply KeepsNext.next
    | apply KeepsNext.refused
    | apply State.setReg_keeps
    | apply State.bump_keeps
    | apply State.toAcquire_keeps
    | apply Keeps.foldl
    | apply Keeps.foldl_snd
    | dsimp only
    | split
    | (refine Keeps.of_some (by assumption) ?_)
    | (refine Keeps.of_snd (by assumption) ?_)
    | (refine Keeps.of_snd_snd (by assumption) ?_)
    | (intro _ _ _; beta_reduce)
    | (fail_if_no_progress apply Keeps.other)
    | intro _

theorem execHiBerEnd_keeps {r_ : State} (lane : Nat) (s : State) (h_ : Keeps r_ s) : KeepsNext r_ (execHiBerEnd lane s) := by
  unfold execHiBerEnd
  repeat' with_reducible first
    | assumption
    | exact Keeps.refl _
    | apply KeepsNext.next
    | apply KeepsNext.refused
    | apply State.setReg_keeps
    | apply State.synced_keeps
    | apply Keeps.foldl
    | apply Keeps.foldl_snd
    | dsimp only
    | split
    | (refine Keeps.of_some (by assumption) ?_)
    | (refine Keeps.of_snd (by assumption) ?_)
    | (refine Keeps.of_snd_snd (by assumption) ?_)
    | (intro _ _ _; beta_reduce)
    | (fail_if_no_progress apply Keeps.other)
    | intro _

theorem execAnComplete_keeps {r_ : State} (lane : Nat) (page : Nat) (s : State) (h_ : Keeps r_ s) : KeepsNext r_ (execAnComplete lane page s) := by
  unfold execAnComplete
  repeat' with_reducible first
    | assumption
    | exact Keeps.refl _
    | apply KeepsNext.next
    | apply KeepsNext.refused
    | apply State.wr_keeps
    | apply State.latch_keeps
    | apply State.toConfirm_keeps
    | apply State.negotiate_keeps
    | apply Keeps.foldl
    | apply Keeps.foldl_snd
    | dsimp only
    | split
    | (refine Keeps.of_some (by assumption) ?_)
    | (refine Keeps.of_snd (by assumption) ?_)
    | (refine Keeps.of_snd_snd (by assumption) ?_)
    | (intro _ _ _; beta_reduce)
    | (fail_if_no_progress apply Keeps.other)
    | intro _

theorem State.syncExpire_keeps {r_ : State} (s : State) (lane : Nat) (h_ : Keeps r_ s) : Keeps r_ (State.syncExpire s lane) := by
  unfold State.syncExpire
  extract_lets +onlyGivenNames s1_0
  have h_s1_0 : Keeps r_ s1_0 := by
    unfold s1_0
    repeat' with_reducible first
      | assumption
      | exact Keeps.refl _
      | apply State.setReg_keeps
      | apply State.bump_keeps
      | apply State.startSync_keeps
      | apply State.negotiate_keeps
      | apply Keeps.foldl
      | apply Keeps.foldl_snd
      | dsimp only
      | split
      | (refine Keeps.of_some (by assumption) ?_)
      | (refine Keeps.of_snd (by assumption) ?_)
      | (refine Keeps.of_snd_snd (by assumption) ?_)
      | (intro _ _ _; beta_reduce)
      | (fail_if_no_progress apply Keeps.other)
      | intro _
  clear_value s1_0
  repeat' with_reducible first
    | assumption
    | exact Keeps.refl _
    | apply State.setReg_keeps
    | apply State.bump_keeps
    | apply State.startSync_keeps
    | apply State.negotiate_keeps
    | apply Keeps.foldl
    | apply Keeps.foldl_snd
    | dsimp only
    | split
    | (refine Keeps.of_some (by assumption) ?_)
    | (refine Keeps.of_snd (by assumption) ?_)
    | (refine Keeps.of_snd_snd (by assumption) ?_)
    | (intro _ _ _; beta_reduce)
    | (fail_if_no_progress apply Keeps.other)
    | intro _

theorem execSyncTimeoutExpire_keeps {r_ : State} (lane : Nat) (s : State) (h_ : Keeps r_ s) : KeepsNext r_ (execSyncTimeoutExpire lane s) := by
  unfold execSyncTimeoutExpire
  repeat' with_reducible first
    | assumption
    | exact Keeps.refl _
    | apply KeepsNext.next
    | apply KeepsNext.refused
    | apply State.wake_keeps
    | apply State.syncExpire_keeps
    | apply Keeps.foldl
    | apply Keeps.foldl_snd
    | dsimp only
    | split
    | (refine Keeps.of_some (by assumption) ?_)
    | (refine Keeps.of_snd (by assumption) ?_)
    | (refine Keeps.of_snd_snd (by assumption) ?_)
    | (intro _ _ _; beta_reduce)
    | (fail_if_no_progress apply Keeps.other)
    | intro _

theorem execUpHoldExpire_keeps {r_ : State} (lane : Nat) (s : State) (h_ : Keeps r_ s) : KeepsNext r_ (execUpHoldExpire lane s) := by
  unfold execUpHoldExpire
  repeat' with_reducible first
    | assumption
    | exact Keeps.refl _
    | apply KeepsNext.next
    | apply KeepsNext.refused
    | apply State.wake_keeps
    | apply State.upHoldOver_keeps
    | apply Keeps.foldl
    | apply Keeps.foldl_snd
    | dsimp only
    | split
    | (refine Keeps.of_some (by assumption) ?_)
    | (refine Keeps.of_snd (by assumption) ?_)
    | (refine Keeps.of_snd_snd (by assumption) ?_)
    | (intro _ _ _; beta_reduce)
    | (fail_if_no_progress apply Keeps.other)
    | intro _

theorem State.linkCommand_keeps {r_ : State} (s : State) (lane : Nat) (h_ : Keeps r_ s) : Keeps r_ (State.linkCommand s lane) := by
  unfold State.linkCommand
  repeat' with_reducible first
    | assumption
    | exact Keeps.refl _
    | apply State.toAcquire_keeps
    | apply Keeps.foldl
    | apply Keeps.foldl_snd
    | dsimp only
    | split
    | (refine Keeps.of_some (by assumption) ?_)
    | (refine Keeps.of_snd (by assumption) ?_)
    | (refine Keeps.of_snd_snd (by assumption) ?_)
    | (intro _ _ _; beta_reduce)
    | (fail_if_no_progress apply Keeps.other)
    | intro _

theorem State.loopbackWrite_keeps {r_ : State} (s : State) (lane : Nat) (v : Nat) (h_ : Keeps r_ s) : Keeps r_ (State.loopbackWrite s lane v) := by
  unfold State.loopbackWrite
  extract_lets +onlyGivenNames s0_0 s1_1
  have h_s0_0 : Keeps r_ s0_0 := by
    unfold s0_0
    repeat' with_reducible first
      | assumption
      | exact Keeps.refl _
      | apply State.wr_keeps
      | apply State.rxBroken_keeps
      | apply State.sdCheck_keeps
      | apply State.sdDown_keeps
      | apply Keeps.foldl
      | apply Keeps.foldl_snd
      | dsimp only
      | split
      | (refine Keeps.of_some (by assumption) ?_)
      | (refine Keeps.of_snd (by assumption) ?_)
      | (refine Keeps.of_snd_snd (by assumption) ?_)
      | (intro _ _ _; beta_reduce)
      | (fail_if_no_progress apply Keeps.other)
      | intro _
  clear_value s0_0
  have h_s1_1 : Keeps r_ s1_1 := by
    unfold s1_1
    repeat' with_reducible first
      | assumption
      | exact Keeps.refl _
      | apply State.wr_keeps
      | apply State.rxBroken_keeps
      | apply State.sdCheck_keeps
      | apply State.sdDown_keeps
      | apply Keeps.foldl
      | apply Keeps.foldl_snd
      | dsimp only
      | split
      | (refine Keeps.of_some (by assumption) ?_)
      | (refine Keeps.of_snd (by assumption) ?_)
      | (refine Keeps.of_snd_snd (by assumption) ?_)
      | (intro _ _ _; beta_reduce)
      | (fail_if_no_progress apply Keeps.other)
      | intro _
  clear_value s1_1
  repeat' with_reducible first
    | assumption
    | exact Keeps.refl _
    | apply State.wr_keeps
    | apply State.rxBroken_keeps
    | apply State.sdCheck_keeps
    | apply State.sdDown_keeps
    | apply Keeps.foldl
    | apply Keeps.foldl_snd
    | dsimp only
    | split
    | (refine Keeps.of_some (by assumption) ?_)
    | (refine Keeps.of_snd (by assumption) ?_)
    | (refine Keeps.of_snd_snd (by assumption) ?_)
    | (intro _ _ _; beta_reduce)
    | (fail_if_no_progress apply Keeps.other)
    | intro _

theorem State.ledOver_keeps {r_ : State} (s : State) (lane : Nat) (h_ : Keeps r_ s) : Keeps r_ (State.ledOver s lane) := by
  unfold State.ledOver
  repeat' with_reducible first
    | assumption
    | exact Keeps.refl _
    | apply State.setReg_keeps
    | apply State.startTimer_keeps
    | apply State.stopTimer_keeps
    | apply Keeps.foldl
    | apply Keeps.foldl_snd
    | dsimp only
    | split
    | (refine Keeps.of_some (by assumption) ?_)
    | (refine Keeps.of_snd (by assumption) ?_)
    | (refine Keeps.of_snd_snd (by assumption) ?_)
    | (intro _ _ _; beta_reduce)
    | (fail_if_no_progress apply Keeps.other)
    | intro _

theorem execLedActivityTimer_keeps {r_ : State} (lane : Nat) (s : State) (h_ : Keeps r_ s) : KeepsNext r_ (execLedActivityTimer lane s) := by
  unfold execLedActivityTimer
  repeat' with_reducible first
    | assumption
    | exact Keeps.refl _
    | apply KeepsNext.next
    | apply KeepsNext.refused
    | apply State.wake_keeps
    | apply State.ledOver_keeps
    | apply Keeps.foldl
    | apply Keeps.foldl_snd
    | dsimp only
    | split
    | (refine Keeps.of_some (by assumption) ?_)
    | (refine Keeps.of_snd (by assumption) ?_)
    | (refine Keeps.of_snd_snd (by assumption) ?_)
    | (intro _ _ _; beta_reduce)
    | (fail_if_no_progress apply Keeps.other)
    | intro _

end Sys2Proof.Machine
end

