-- ==== Sys2Proof/Laws/KeepsScan.lean ====
section
/-! SUPPORT. What the operations of Scan.lean keep (Keeps.lean). -/
set_option linter.unusedTactic false
set_option linter.unreachableTactic false
namespace Sys2Proof.Machine

theorem State.jobTold_keeps {r_ : State} (s : State) (j : Nat) (h_ : Keeps r_ s) : Keeps r_ (State.jobTold s j) := by
  unfold State.jobTold
  extract_lets +onlyGivenNames e_0
  try clear_value e_0
  repeat' with_reducible first
    | assumption
    | exact Keeps.refl _
    | apply State.bump_keeps
    | apply State.latch_keeps
    | apply State.raise_keeps
    | apply State.record_keeps
    | apply Keeps.foldl
    | apply Keeps.foldl_snd
    | dsimp only
    | split
    | (refine Keeps.of_some (by assumption) ?_)
    | (refine Keeps.of_snd (by assumption) ?_)
    | (refine Keeps.of_snd_snd (by assumption) ?_)
    | (intro _ _ _; beta_reduce)
    | (fail_if_no_progress apply Keeps.other)
    | intro _

theorem State.jobEnd_keeps {r_ : State} (s : State) (j : Nat) (result : Nat) (h_ : Keeps r_ s) : Keeps r_ (State.jobEnd s j result) := by
  unfold State.jobEnd
  extract_lets +onlyGivenNames s1_0
  have h_s1_0 : Keeps r_ s1_0 := by
    unfold s1_0
    repeat' with_reducible first
      | assumption
      | exact Keeps.refl _
      | apply State.setEnt_keeps
      | apply State.dropOps_keeps
      | apply State.jobTold_keeps
      | apply Keeps.foldl
      | apply Keeps.foldl_snd
      | dsimp only
      | split
      | (refine Keeps.of_some (by assumption) ?_)
      | (refine Keeps.of_snd (by assumption) ?_)
      | (refine Keeps.of_snd_snd (by assumption) ?_)
      | (intro _ _ _; beta_reduce)
      | (fail_if_no_progress apply Keeps.other)
      | intro _
  clear_value s1_0
  repeat' with_reducible first
    | assumption
    | exact Keeps.refl _
    | apply State.setEnt_keeps
    | apply State.dropOps_keeps
    | apply State.jobTold_keeps
    | apply Keeps.foldl
    | apply Keeps.foldl_snd
    | dsimp only
    | split
    | (refine Keeps.of_some (by assumption) ?_)
    | (refine Keeps.of_snd (by assumption) ?_)
    | (refine Keeps.of_snd_snd (by assumption) ?_)
    | (intro _ _ _; beta_reduce)
    | (fail_if_no_progress apply Keeps.other)
    | intro _

theorem State.jobWhole_keeps {r_ : State} (s : State) (j : Nat) (h_ : Keeps r_ s) : Keeps r_ (State.jobWhole s j) := by
  unfold State.jobWhole
  extract_lets +onlyGivenNames e_0
  try clear_value e_0
  repeat' with_reducible first
    | assumption
    | exact Keeps.refl _
    | apply State.jobEnd_keeps
    | apply Keeps.foldl
    | apply Keeps.foldl_snd
    | dsimp only
    | split
    | (refine Keeps.of_some (by assumption) ?_)
    | (refine Keeps.of_snd (by assumption) ?_)
    | (refine Keeps.of_snd_snd (by assumption) ?_)
    | (intro _ _ _; beta_reduce)
    | (fail_if_no_progress apply Keeps.other)
    | intro _

theorem State.jobAbort_keeps {r_ : State} (s : State) (j : Nat) (h_ : Keeps r_ s) : Keeps r_ (State.jobAbort s j) := by
  unfold State.jobAbort
  repeat' with_reducible first
    | assumption
    | exact Keeps.refl _
    | apply State.jobEnd_keeps
    | apply Keeps.foldl
    | apply Keeps.foldl_snd
    | dsimp only
    | split
    | (refine Keeps.of_some (by assumption) ?_)
    | (refine Keeps.of_snd (by assumption) ?_)
    | (refine Keeps.of_snd_snd (by assumption) ?_)
    | (intro _ _ _; beta_reduce)
    | (fail_if_no_progress apply Keeps.other)
    | intro _

theorem State.abortJobs_keeps {r_ : State} (s : State) (all : Bool) (h_ : Keeps r_ s) : Keeps r_ (State.abortJobs s all) := by
  unfold State.abortJobs
  repeat' with_reducible first
    | assumption
    | exact Keeps.refl _
    | apply State.jobAbort_keeps
    | apply Keeps.foldl
    | apply Keeps.foldl_snd
    | dsimp only
    | split
    | (refine Keeps.of_some (by assumption) ?_)
    | (refine Keeps.of_snd (by assumption) ?_)
    | (refine Keeps.of_snd_snd (by assumption) ?_)
    | (intro _ _ _; beta_reduce)
    | (fail_if_no_progress apply Keeps.other)
    | intro _

theorem State.scanAbort_keeps {r_ : State} (s : State) (j : Nat) (h_ : Keeps r_ s) : Keeps r_ (State.scanAbort s j).2 := by
  unfold State.scanAbort
  repeat' with_reducible first
    | assumption
    | exact Keeps.refl _
    | apply State.jobAbort_keeps
    | apply Keeps.foldl
    | apply Keeps.foldl_snd
    | dsimp only
    | split
    | (refine Keeps.of_some (by assumption) ?_)
    | (refine Keeps.of_snd (by assumption) ?_)
    | (refine Keeps.of_snd_snd (by assumption) ?_)
    | (intro _ _ _; beta_reduce)
    | (fail_if_no_progress apply Keeps.other)
    | intro _

theorem State.jobBegin_keeps {r_ : State} (s : State) (j : Nat) (engine : Nat) (h_ : Keeps r_ s) : Keeps r_ (State.jobBegin s j engine) := by
  unfold State.jobBegin
  repeat' with_reducible first
    | assumption
    | exact Keeps.refl _
    | apply State.setEnt_keeps
    | apply State.setReg_keeps
    | apply Keeps.foldl
    | apply Keeps.foldl_snd
    | dsimp only
    | split
    | (refine Keeps.of_some (by assumption) ?_)
    | (refine Keeps.of_snd (by assumption) ?_)
    | (refine Keeps.of_snd_snd (by assumption) ?_)
    | (intro _ _ _; beta_reduce)
    | (fail_if_no_progress apply Keeps.other)
    | intro _

theorem execScanJobStart_keeps {r_ : State} (s : State) (h_ : Keeps r_ s) : KeepsNext r_ (execScanJobStart s) := by
  unfold execScanJobStart
  repeat' with_reducible first
    | assumption
    | exact Keeps.refl _
    | apply KeepsNext.next
    | apply KeepsNext.refused
    | apply gathered_keeps
    | apply State.pump_keeps
    | apply State.jobBegin_keeps
    | apply Keeps.foldl
    | apply Keeps.foldl_snd
    | dsimp only
    | split
    | (refine Keeps.of_some (by assumption) ?_)
    | (refine Keeps.of_snd (by assumption) ?_)
    | (refine Keeps.of_snd_snd (by assumption) ?_)
    | (intro _ _ _; beta_reduce)
    | (fail_if_no_progress apply Keeps.other)
    | intro _

theorem State.jobWrite_keeps {r_ : State} (s : State) (j : Nat) (v : Nat) (table : Abort) (h_ : Keeps r_ s) : Keeps r_ (State.jobWrite s j v table).2 := by
  unfold State.jobWrite
  extract_lets +onlyGivenNames e_0
  try clear_value e_0
  repeat' with_reducible first
    | assumption
    | exact Keeps.refl _
    | apply State.setEnt_keeps
    | apply State.busyNow_keeps
    | apply Keeps.foldl
    | apply Keeps.foldl_snd
    | dsimp only
    | split
    | (refine Keeps.of_some (by assumption) ?_)
    | (refine Keeps.of_snd (by assumption) ?_)
    | (refine Keeps.of_snd_snd (by assumption) ?_)
    | (intro _ _ _; beta_reduce)
    | (fail_if_no_progress apply Keeps.other)
    | intro _

theorem State.submitJob_keeps {r_ : State} (s : State) (j : Nat) (start : Nat) (len : Nat) (expected : Nat) (h_ : Keeps r_ s) : Keeps r_ (State.submitJob s j start len expected) := by
  unfold State.submitJob
  repeat' with_reducible first
    | assumption
    | exact Keeps.refl _
    | apply State.setEnt_keeps
    | apply State.busyNow_keeps
    | apply Keeps.foldl
    | apply Keeps.foldl_snd
    | dsimp only
    | split
    | (refine Keeps.of_some (by assumption) ?_)
    | (refine Keeps.of_snd (by assumption) ?_)
    | (refine Keeps.of_snd_snd (by assumption) ?_)
    | (intro _ _ _; beta_reduce)
    | (fail_if_no_progress apply Keeps.other)
    | intro _

theorem State.releaseJob_keeps {r_ : State} (s : State) (j : Nat) (h_ : Keeps r_ s) : Keeps r_ (State.releaseJob s j) := by
  unfold State.releaseJob
  repeat' with_reducible first
    | assumption
    | exact Keeps.refl _
    | apply State.setEnt_keeps
    | apply Keeps.foldl
    | apply Keeps.foldl_snd
    | dsimp only
    | split
    | (refine Keeps.of_some (by assumption) ?_)
    | (refine Keeps.of_snd (by assumption) ?_)
    | (refine Keeps.of_snd_snd (by assumption) ?_)
    | (intro _ _ _; beta_reduce)
    | (fail_if_no_progress apply Keeps.other)
    | intro _

theorem State.deviceCheck_keeps {r_ : State} (s : State) (start : Nat) (expected : Nat) (octets : List Octet) (h_ : Keeps r_ s) : Keeps r_ (State.deviceCheck s start expected octets) := by
  unfold State.deviceCheck
  repeat' with_reducible first
    | assumption
    | exact Keeps.refl _
    | apply State.jobTake_keeps
    | apply State.jobWhole_keeps
    | apply State.jobBegin_keeps
    | apply State.submitJob_keeps
    | apply State.releaseJob_keeps
    | apply Keeps.foldl
    | apply Keeps.foldl_snd
    | dsimp only
    | split
    | (refine Keeps.of_some (by assumption) ?_)
    | (refine Keeps.of_snd (by assumption) ?_)
    | (refine Keeps.of_snd_snd (by assumption) ?_)
    | (intro _ _ _; beta_reduce)
    | (fail_if_no_progress apply Keeps.other)
    | intro _

theorem State.streamEntryWrite_keeps {r_ : State} (s : State) (n : Nat) (v : Nat) (h_ : Keeps r_ s) : Keeps r_ (State.streamEntryWrite s n v).2 := by
  unfold State.streamEntryWrite
  repeat' with_reducible first
    | assumption
    | exact Keeps.refl _
    | apply State.setEnt_keeps
    | apply Keeps.foldl
    | apply Keeps.foldl_snd
    | dsimp only
    | split
    | (refine Keeps.of_some (by assumption) ?_)
    | (refine Keeps.of_snd (by assumption) ?_)
    | (refine Keeps.of_snd_snd (by assumption) ?_)
    | (intro _ _ _; beta_reduce)
    | (fail_if_no_progress apply Keeps.other)
    | intro _

end Sys2Proof.Machine
end

