-- ==== Sys2Proof/Laws/KeepsFlash.lean ====
section
/-! SUPPORT. What the operations of Flash.lean keep (Keeps.lean). -/
set_option linter.unusedTactic false
set_option linter.unreachableTactic false
namespace Sys2Proof.Machine

theorem State.flashProgram_keeps {r_ : State} (s : State) (a : Nat) (l : List Octet) (h_ : Keeps r_ s) : Keeps r_ (State.flashProgram s a l) := by
  refine h_.trans ⟨rfl, rfl, Nat.le_refl _, fun c => ?_⟩
  rw [State.canon_iff] at c ⊢
  exact ⟨c.1, c.2.1, c.2.2.1, Memory.wf_program a l c.2.2.2⟩

theorem State.flashErase_keeps {r_ : State} (s : State) (a n : Nat) (h_ : Keeps r_ s) : Keeps r_ (State.flashErase s a n) := by
  refine h_.trans ⟨rfl, rfl, Nat.le_refl _, fun c => ?_⟩
  rw [State.canon_iff] at c ⊢
  exact ⟨c.1, c.2.1, c.2.2.1, Memory.wf_erase a n c.2.2.2⟩

theorem State.headerInto_keeps {r_ : State} (s : State) (c : Nat) (k : Nat) (l : List Octet) (full : Bool) (h_ : Keeps r_ s) : Keeps r_ (State.headerInto s c k l full) := by
  unfold State.headerInto
  extract_lets +onlyGivenNames s1_0
  have h_s1_0 : Keeps r_ s1_0 := by
    unfold s1_0
    repeat' with_reducible first
      | assumption
      | exact Keeps.refl _
      | apply State.flashProgram_keeps
      | apply State.flashErase_keeps
      | apply Keeps.foldl
      | apply Keeps.foldl_snd
      | dsimp only
      | split
      | (refine Keeps.of_some (by assumption) ?_)
      | (refine Keeps.of_snd (by assumption) ?_)
      | (refine Keeps.of_snd_snd (by assumption) ?_)
      | (intro _ _ _; beta_reduce)
      | (fail_if_no_progress apply Keeps.other)
      | intro _
  clear_value s1_0
  repeat' with_reducible first
    | assumption
    | exact Keeps.refl _
    | apply State.flashProgram_keeps
    | apply State.flashErase_keeps
    | apply Keeps.foldl
    | apply Keeps.foldl_snd
    | dsimp only
    | split
    | (refine Keeps.of_some (by assumption) ?_)
    | (refine Keeps.of_snd (by assumption) ?_)
    | (refine Keeps.of_snd_snd (by assumption) ?_)
    | (intro _ _ _; beta_reduce)
    | (fail_if_no_progress apply Keeps.other)
    | intro _

theorem State.nvmCommand_keeps {r_ : State} (s : State) (opcode : Nat) (h_ : Keeps r_ s) : Keeps r_ (State.nvmCommand s opcode) := by
  unfold State.nvmCommand
  repeat' with_reducible first
    | assumption
    | exact Keeps.refl _
    | apply State.setReg_keeps
    | apply State.busyNow_keeps
    | apply Keeps.foldl
    | apply Keeps.foldl_snd
    | dsimp only
    | split
    | (refine Keeps.of_some (by assumption) ?_)
    | (refine Keeps.of_snd (by assumption) ?_)
    | (refine Keeps.of_snd_snd (by assumption) ?_)
    | (intro _ _ _; beta_reduce)
    | (fail_if_no_progress apply Keeps.other)
    | intro _

theorem State.nvmWrite_keeps {r_ : State} (s : State) (opcode : Nat) (h_ : Keeps r_ s) : Keeps r_ (State.nvmWrite s opcode) := by
  unfold State.nvmWrite
  repeat' with_reducible first
    | assumption
    | exact Keeps.refl _
    | apply State.nvmCommand_keeps
    | apply Keeps.foldl
    | apply Keeps.foldl_snd
    | dsimp only
    | split
    | (refine Keeps.of_some (by assumption) ?_)
    | (refine Keeps.of_snd (by assumption) ?_)
    | (refine Keeps.of_snd_snd (by assumption) ?_)
    | (intro _ _ _; beta_reduce)
    | (fail_if_no_progress apply Keeps.other)
    | intro _

theorem State.putHeader_keeps {r_ : State} (s : State) (h_ : Keeps r_ s) : Keeps r_ (State.putHeader s) := by
  unfold State.putHeader
  extract_lets +onlyGivenNames n_0 k_1 l_2 full_3
  try clear_value n_0
  try clear_value k_1
  try clear_value l_2
  try clear_value full_3
  repeat' with_reducible first
    | assumption
    | exact Keeps.refl _
    | apply State.setReg_keeps
    | apply State.headerInto_keeps
    | apply State.nvmWrite_keeps
    | apply Keeps.foldl
    | apply Keeps.foldl_snd
    | dsimp only
    | split
    | (refine Keeps.of_some (by assumption) ?_)
    | (refine Keeps.of_snd (by assumption) ?_)
    | (refine Keeps.of_snd_snd (by assumption) ?_)
    | (intro _ _ _; beta_reduce)
    | (fail_if_no_progress apply Keeps.other)
    | intro _

theorem State.portNext_keeps {r_ : State} (s : State) (h_ : Keeps r_ s) : Keeps r_ (State.portNext s) := by
  unfold State.portNext
  extract_lets +onlyGivenNames s_0
  have h_s_0 : Keeps r_ s_0 := by
    unfold s_0
    repeat' with_reducible first
      | assumption
      | exact Keeps.refl _
      | apply State.setReg_keeps
      | apply State.programStart_keeps
      | apply Keeps.foldl
      | apply Keeps.foldl_snd
      | dsimp only
      | split
      | (refine Keeps.of_some (by assumption) ?_)
      | (refine Keeps.of_snd (by assumption) ?_)
      | (refine Keeps.of_snd_snd (by assumption) ?_)
      | (intro _ _ _; beta_reduce)
      | (fail_if_no_progress apply Keeps.other)
      | intro _
  clear_value s_0
  repeat' with_reducible first
    | assumption
    | exact Keeps.refl _
    | apply State.setReg_keeps
    | apply State.programStart_keeps
    | apply Keeps.foldl
    | apply Keeps.foldl_snd
    | dsimp only
    | split
    | (refine Keeps.of_some (by assumption) ?_)
    | (refine Keeps.of_snd (by assumption) ?_)
    | (refine Keeps.of_snd_snd (by assumption) ?_)
    | (intro _ _ _; beta_reduce)
    | (fail_if_no_progress apply Keeps.other)
    | intro _

theorem State.queueOp_keeps {r_ : State} (s : State) (o : NvmOp) (h_ : Keeps r_ s) : Keeps r_ (State.queueOp s o) := by
  unfold State.queueOp
  repeat' with_reducible first
    | assumption
    | exact Keeps.refl _
    | apply State.portNext_keeps
    | apply Keeps.foldl
    | apply Keeps.foldl_snd
    | dsimp only
    | split
    | (refine Keeps.of_some (by assumption) ?_)
    | (refine Keeps.of_snd (by assumption) ?_)
    | (refine Keeps.of_snd_snd (by assumption) ?_)
    | (intro _ _ _; beta_reduce)
    | (fail_if_no_progress apply Keeps.other)
    | intro _

theorem State.portThen_keeps {r_ : State} (s : State) (more : List NvmOp) (h_ : Keeps r_ s) : Keeps r_ (State.portThen s more) := by
  unfold State.portThen
  repeat' with_reducible first
    | assumption
    | exact Keeps.refl _
    | apply State.setReg_keeps
    | apply State.portNext_keeps
    | apply Keeps.foldl
    | apply Keeps.foldl_snd
    | dsimp only
    | split
    | (refine Keeps.of_some (by assumption) ?_)
    | (refine Keeps.of_snd (by assumption) ?_)
    | (refine Keeps.of_snd_snd (by assumption) ?_)
    | (intro _ _ _; beta_reduce)
    | (fail_if_no_progress apply Keeps.other)
    | intro _

theorem State.portDone_keeps {r_ : State} (s : State) (h_ : Keeps r_ s) : Keeps r_ (State.portDone s) := by
  unfold State.portDone
  repeat' with_reducible first
    | assumption
    | exact Keeps.refl _
    | apply State.portThen_keeps
    | apply Keeps.foldl
    | apply Keeps.foldl_snd
    | dsimp only
    | split
    | (refine Keeps.of_some (by assumption) ?_)
    | (refine Keeps.of_snd (by assumption) ?_)
    | (refine Keeps.of_snd_snd (by assumption) ?_)
    | (intro _ _ _; beta_reduce)
    | (fail_if_no_progress apply Keeps.other)
    | intro _

theorem State.queueHeader_keeps {r_ : State} (s : State) (h_ : Keeps r_ s) : Keeps r_ (State.queueHeader s) := by
  unfold State.queueHeader
  repeat' with_reducible first
    | assumption
    | exact Keeps.refl _
    | apply State.queueOp_keeps
    | apply Keeps.foldl
    | apply Keeps.foldl_snd
    | dsimp only
    | split
    | (refine Keeps.of_some (by assumption) ?_)
    | (refine Keeps.of_snd (by assumption) ?_)
    | (refine Keeps.of_snd_snd (by assumption) ?_)
    | (intro _ _ _; beta_reduce)
    | (fail_if_no_progress apply Keeps.other)
    | intro _

end Sys2Proof.Machine
end

