-- ==== Sys2Proof/Laws/KeepsMonument.lean ====
section
/-! SUPPORT. What the operations of Monument.lean keep (Keeps.lean). -/
set_option linter.unusedTactic false
set_option linter.unreachableTactic false
namespace Sys2Proof.Machine

theorem State.discoverStep_keeps {r_ : State} (s : State) (h_ : Keeps r_ s) : Keeps r_ (State.discoverStep s) := by
  unfold State.discoverStep
  repeat' with_reducible first
    | assumption
    | exact Keeps.refl _
    | apply State.wr_keeps
    | apply State.nvmCommand_keeps
    | apply Keeps.foldl
    | apply Keeps.foldl_snd
    | dsimp only
    | split
    | (refine Keeps.of_some (by assumption) ?_)
    | (refine Keeps.of_snd (by assumption) ?_)
    | (refine Keeps.of_snd_snd (by assumption) ?_)
    | (intro _ _ _; beta_reduce)
    | (fail_if_no_progress apply Keeps.other)
    | intro _

theorem State.discovered_keeps {r_ : State} (s : State) (f : SfdpResult) (h_ : Keeps r_ s) : Keeps r_ (State.discovered s f) := by
  unfold State.discovered
  extract_lets +onlyGivenNames s_0
  have h_s_0 : Keeps r_ s_0 := by
    unfold s_0
    repeat' with_reducible first
      | assumption
      | exact Keeps.refl _
      | apply State.wr_keeps
      | apply State.setReg_keeps
      | apply State.nvmCommand_keeps
      | apply Keeps.foldl
      | apply Keeps.foldl_snd
      | dsimp only
      | split
      | (refine Keeps.of_some (by assumption) ?_)
      | (refine Keeps.of_snd (by assumption) ?_)
      | (refine Keeps.of_snd_snd (by assumption) ?_)
      | (intro _ _ _; beta_reduce)
      | (fail_if_no_progress apply Keeps.other)
      | intro _
  clear_value s_0
  repeat' with_reducible first
    | assumption
    | exact Keeps.refl _
    | apply State.wr_keeps
    | apply State.setReg_keeps
    | apply State.nvmCommand_keeps
    | apply Keeps.foldl
    | apply Keeps.foldl_snd
    | dsimp only
    | split
    | (refine Keeps.of_some (by assumption) ?_)
    | (refine Keeps.of_snd (by assumption) ?_)
    | (refine Keeps.of_snd_snd (by assumption) ?_)
    | (intro _ _ _; beta_reduce)
    | (fail_if_no_progress apply Keeps.other)
    | intro _

theorem execNvmDiscovery_keeps {r_ : State} (found : SfdpResult) (s : State) (h_ : Keeps r_ s) : KeepsNext r_ (execNvmDiscovery found s) := by
  unfold execNvmDiscovery
  repeat' with_reducible first
    | assumption
    | exact Keeps.refl _
    | apply KeepsNext.next
    | apply KeepsNext.refused
    | apply gathered_keeps
    | apply State.discovered_keeps
    | apply Keeps.foldl
    | apply Keeps.foldl_snd
    | dsimp only
    | split
    | (refine Keeps.of_some (by assumption) ?_)
    | (refine Keeps.of_snd (by assumption) ?_)
    | (refine Keeps.of_snd_snd (by assumption) ?_)
    | (intro _ _ _; beta_reduce)
    | (fail_if_no_progress apply Keeps.other)
    | intro _

theorem State.dropOwn_keeps {r_ : State} (s : State) (h_ : Keeps r_ s) : Keeps r_ (State.dropOwn s) := by
  unfold State.dropOwn
  extract_lets +onlyGivenNames begun_0
  try clear_value begun_0
  repeat' with_reducible first
    | assumption
    | exact Keeps.refl _
    | apply State.setReg_keeps
    | apply State.portNext_keeps
    | apply Keeps.foldl
    | apply Keeps.foldl_snd
    | dsimp only
    | split
    | (refine Keeps.of_some (by assumption) ?_)
    | (refine Keeps.of_snd (by assumption) ?_)
    | (refine Keeps.of_snd_snd (by assumption) ?_)
    | (intro _ _ _; beta_reduce)
    | (fail_if_no_progress apply Keeps.other)
    | intro _

theorem State.monFail_keeps {r_ : State} (s : State) (cls : Nat) (addr : Nat) (h_ : Keeps r_ s) : Keeps r_ (State.monFail s cls addr) := by
  unfold State.monFail
  extract_lets +onlyGivenNames n_0 s1_1
  try clear_value n_0
  have h_s1_1 : Keeps r_ s1_1 := by
    unfold s1_1
    repeat' with_reducible first
      | assumption
      | exact Keeps.refl _
      | apply State.setReg_keeps
      | apply State.raise_keeps
      | apply State.record_keeps
      | apply State.dropOwn_keeps
      | apply Keeps.foldl
      | apply Keeps.foldl_snd
      | dsimp only
      | split
      | (refine Keeps.of_some (by assumption) ?_)
      | (refine Keeps.of_snd (by assumption) ?_)
      | (refine Keeps.of_snd_snd (by assumption) ?_)
      | (intro _ _ _; beta_reduce)
      | (fail_if_no_progress apply Keeps.other)
      | intro _
  clear_value s1_1
  repeat' with_reducible first
    | assumption
    | exact Keeps.refl _
    | apply State.setReg_keeps
    | apply State.raise_keeps
    | apply State.record_keeps
    | apply State.dropOwn_keeps
    | apply Keeps.foldl
    | apply Keeps.foldl_snd
    | dsimp only
    | split
    | (refine Keeps.of_some (by assumption) ?_)
    | (refine Keeps.of_snd (by assumption) ?_)
    | (refine Keeps.of_snd_snd (by assumption) ?_)
    | (intro _ _ _; beta_reduce)
    | (fail_if_no_progress apply Keeps.other)
    | intro _

theorem State.nvmGood_keeps {r_ : State} (s : State) (h_ : Keeps r_ s) : Keeps r_ (State.nvmGood s) := by
  unfold State.nvmGood
  repeat' with_reducible first
    | assumption
    | exact Keeps.refl _
    | apply State.setReg_keeps
    | apply Keeps.foldl
    | apply Keeps.foldl_snd
    | dsimp only
    | split
    | (refine Keeps.of_some (by assumption) ?_)
    | (refine Keeps.of_snd (by assumption) ?_)
    | (refine Keeps.of_snd_snd (by assumption) ?_)
    | (intro _ _ _; beta_reduce)
    | (fail_if_no_progress apply Keeps.other)
    | intro _

theorem State.queueErase_keeps {r_ : State} (s : State) (sec : Nat) (h_ : Keeps r_ s) : Keeps r_ (State.queueErase s sec) := by
  unfold State.queueErase
  repeat' with_reducible first
    | assumption
    | exact Keeps.refl _
    | apply State.queueOp_keeps
    | apply Keeps.foldl
    | apply Keeps.foldl_snd
    | dsimp only
    | split
    | (refine Keeps.of_some (by assumption) ?_)
    | (refine Keeps.of_snd (by assumption) ?_)
    | (refine Keeps.of_snd_snd (by assumption) ?_)
    | (intro _ _ _; beta_reduce)
    | (fail_if_no_progress apply Keeps.other)
    | intro _

theorem State.reslot_keeps {r_ : State} (s : State) (h_ : Keeps r_ s) : Keeps r_ (State.reslot s) := by
  unfold State.reslot
  extract_lets +onlyGivenNames head_0 n_1 moved_2 kept_3
  try clear_value head_0
  try clear_value n_1
  try clear_value moved_2
  try clear_value kept_3
  repeat' with_reducible first
    | assumption
    | exact Keeps.refl _
    | apply State.wr_keeps
    | apply State.setReg_keeps
    | apply State.bump_keeps
    | apply State.portNext_keeps
    | apply Keeps.foldl
    | apply Keeps.foldl_snd
    | dsimp only
    | split
    | (refine Keeps.of_some (by assumption) ?_)
    | (refine Keeps.of_snd (by assumption) ?_)
    | (refine Keeps.of_snd_snd (by assumption) ?_)
    | (intro _ _ _; beta_reduce)
    | (fail_if_no_progress apply Keeps.other)
    | intro _

theorem State.slotCheck_keeps {r_ : State} (s : State) (a : Nat) (h_ : Keeps r_ s) : Keeps r_ (State.slotCheck s a) := by
  unfold State.slotCheck
  extract_lets +onlyGivenNames l_0
  try clear_value l_0
  repeat' with_reducible first
    | assumption
    | exact Keeps.refl _
    | apply State.deviceCheck_keeps
    | apply Keeps.foldl
    | apply Keeps.foldl_snd
    | dsimp only
    | split
    | (refine Keeps.of_some (by assumption) ?_)
    | (refine Keeps.of_snd (by assumption) ?_)
    | (refine Keeps.of_snd_snd (by assumption) ?_)
    | (intro _ _ _; beta_reduce)
    | (fail_if_no_progress apply Keeps.other)
    | intro _

theorem State.slotChecks_keeps {r_ : State} (s : State) (l : List Nat) (h_ : Keeps r_ s) : Keeps r_ (State.slotChecks s l) := by
  unfold State.slotChecks
  repeat' with_reducible first
    | assumption
    | exact Keeps.refl _
    | apply State.slotCheck_keeps
    | apply Keeps.foldl
    | apply Keeps.foldl_snd
    | dsimp only
    | split
    | (refine Keeps.of_some (by assumption) ?_)
    | (refine Keeps.of_snd (by assumption) ?_)
    | (refine Keeps.of_snd_snd (by assumption) ?_)
    | (intro _ _ _; beta_reduce)
    | (fail_if_no_progress apply Keeps.other)
    | intro _

theorem State.offerSd_keeps {r_ : State} (s : State) (q : Nat) (h_ : Keeps r_ s) : Keeps r_ (State.offerSd s q) := by
  unfold State.offerSd
  extract_lets +onlyGivenNames l_0 r_1
  try clear_value l_0
  repeat' with_reducible first
    | assumption
    | exact Keeps.refl _
    | apply State.offer_keeps
    | apply Keeps.foldl
    | apply Keeps.foldl_snd
    | dsimp only
    | split
    | (refine Keeps.of_some (by assumption) ?_)
    | (refine Keeps.of_snd (by assumption) ?_)
    | (refine Keeps.of_snd_snd (by assumption) ?_)
    | (intro _ _ _; beta_reduce)
    | (fail_if_no_progress apply Keeps.other)
    | intro _

theorem State.offerFolded_keeps {r_ : State} (s : State) (h_ : Keeps r_ s) : Keeps r_ (State.offerFolded s) := by
  unfold State.offerFolded
  extract_lets +onlyGivenNames x_0 s1_1
  have h_s1_1 : Keeps r_ s1_1 := by
    unfold s1_1
    repeat' with_reducible first
      | assumption
      | exact Keeps.refl _
      | apply State.setReg_keeps
      | apply State.offerFold_keeps
      | apply State.offerSd_keeps
      | apply Keeps.foldl
      | apply Keeps.foldl_snd
      | dsimp only
      | split
      | (refine Keeps.of_some (by assumption) ?_)
      | (refine Keeps.of_snd (by assumption) ?_)
      | (refine Keeps.of_snd_snd (by assumption) ?_)
      | (intro _ _ _; beta_reduce)
      | (fail_if_no_progress apply Keeps.other)
      | intro _
  clear_value s1_1
  repeat' with_reducible first
    | assumption
    | exact Keeps.refl _
    | apply State.setReg_keeps
    | apply State.offerFold_keeps
    | apply State.offerSd_keeps
    | apply Keeps.foldl
    | apply Keeps.foldl_snd
    | dsimp only
    | split
    | (refine Keeps.of_some (by assumption) ?_)
    | (refine Keeps.of_snd (by assumption) ?_)
    | (refine Keeps.of_snd_snd (by assumption) ?_)
    | (intro _ _ _; beta_reduce)
    | (fail_if_no_progress apply Keeps.other)
    | intro _

theorem State.offerStay_keeps {r_ : State} (s : State) (first : Nat) (next : Nat) (h_ : Keeps r_ s) : Keeps r_ (State.offerStay s first next) := by
  unfold State.offerStay
  extract_lets +onlyGivenNames n_0
  try clear_value n_0
  repeat' with_reducible first
    | assumption
    | exact Keeps.refl _
    | apply State.offerSd_keeps
    | apply State.offerFolded_keeps
    | apply Keeps.foldl
    | apply Keeps.foldl_snd
    | dsimp only
    | split
    | (refine Keeps.of_some (by assumption) ?_)
    | (refine Keeps.of_snd (by assumption) ?_)
    | (refine Keeps.of_snd_snd (by assumption) ?_)
    | (intro _ _ _; beta_reduce)
    | (fail_if_no_progress apply Keeps.other)
    | intro _

theorem State.offerWaiting_keeps {r_ : State} (s : State) (h_ : Keeps r_ s) : Keeps r_ (State.offerWaiting s) := by
  unfold State.offerWaiting
  repeat' with_reducible first
    | assumption
    | exact Keeps.refl _
    | apply State.setReg_keeps
    | apply State.offerStay_keeps
    | apply Keeps.foldl
    | apply Keeps.foldl_snd
    | dsimp only
    | split
    | (refine Keeps.of_some (by assumption) ?_)
    | (refine Keeps.of_snd (by assumption) ?_)
    | (refine Keeps.of_snd_snd (by assumption) ?_)
    | (intro _ _ _; beta_reduce)
    | (fail_if_no_progress apply Keeps.other)
    | intro _

theorem State.mountRecords_keeps {r_ : State} (s : State) (n : Nat) (h_ : Keeps r_ s) : Keeps r_ (State.mountRecords s n) := by
  unfold State.mountRecords
  extract_lets +onlyGivenNames sec_0 used_1 slots_2 good_3 partials_4 next_5 head_6 s1_7 checked_8 s2_9
  try clear_value sec_0
  try clear_value used_1
  try clear_value slots_2
  try clear_value good_3
  try clear_value partials_4
  try clear_value next_5
  try clear_value head_6
  try clear_value checked_8
  have h_s1_7 : Keeps r_ s1_7 := by
    unfold s1_7
    repeat' with_reducible first
      | assumption
      | exact Keeps.refl _
      | apply State.wr_keeps
      | apply State.bump_keeps
      | apply State.raise_keeps
      | apply State.record_keeps
      | apply State.queueErase_keeps
      | apply State.reslot_keeps
      | apply State.slotChecks_keeps
      | apply State.offerWaiting_keeps
      | apply Keeps.foldl
      | apply Keeps.foldl_snd
      | dsimp only
      | split
      | (refine Keeps.of_some (by assumption) ?_)
      | (refine Keeps.of_snd (by assumption) ?_)
      | (refine Keeps.of_snd_snd (by assumption) ?_)
      | (intro _ _ _; beta_reduce)
      | (fail_if_no_progress apply Keeps.other)
      | intro _
  clear_value s1_7
  have h_s2_9 : Keeps r_ s2_9 := by
    unfold s2_9
    repeat' with_reducible first
      | assumption
      | exact Keeps.refl _
      | apply State.wr_keeps
      | apply State.bump_keeps
      | apply State.raise_keeps
      | apply State.record_keeps
      | apply State.queueErase_keeps
      | apply State.reslot_keeps
      | apply State.slotChecks_keeps
      | apply State.offerWaiting_keeps
      | apply Keeps.foldl
      | apply Keeps.foldl_snd
      | dsimp only
      | split
      | (refine Keeps.of_some (by assumption) ?_)
      | (refine Keeps.of_snd (by assumption) ?_)
      | (refine Keeps.of_snd_snd (by assumption) ?_)
      | (intro _ _ _; beta_reduce)
      | (fail_if_no_progress apply Keeps.other)
      | intro _
  clear_value s2_9
  repeat' with_reducible first
    | assumption
    | exact Keeps.refl _
    | apply State.wr_keeps
    | apply State.bump_keeps
    | apply State.raise_keeps
    | apply State.record_keeps
    | apply State.queueErase_keeps
    | apply State.reslot_keeps
    | apply State.slotChecks_keeps
    | apply State.offerWaiting_keeps
    | apply Keeps.foldl
    | apply Keeps.foldl_snd
    | dsimp only
    | split
    | (refine Keeps.of_some (by assumption) ?_)
    | (refine Keeps.of_snd (by assumption) ?_)
    | (refine Keeps.of_snd_snd (by assumption) ?_)
    | (intro _ _ _; beta_reduce)
    | (fail_if_no_progress apply Keeps.other)
    | intro _

theorem State.takeHeader_keeps {r_ : State} (s : State) (epoch : Nat) (base : Nat) (limit : Nat) (hgen : Nat) (h_ : Keeps r_ s) : Keeps r_ (State.takeHeader s epoch base limit hgen) := by
  unfold State.takeHeader
  extract_lets +onlyGivenNames s1_0
  have h_s1_0 : Keeps r_ s1_0 := by
    unfold s1_0
    repeat' with_reducible first
      | assumption
      | exact Keeps.refl _
      | apply State.wr_keeps
      | apply State.setReg_keeps
      | apply State.queueHeader_keeps
      | apply Keeps.foldl
      | apply Keeps.foldl_snd
      | dsimp only
      | split
      | (refine Keeps.of_some (by assumption) ?_)
      | (refine Keeps.of_snd (by assumption) ?_)
      | (refine Keeps.of_snd_snd (by assumption) ?_)
      | (intro _ _ _; beta_reduce)
      | (fail_if_no_progress apply Keeps.other)
      | intro _
  clear_value s1_0
  repeat' with_reducible first
    | assumption
    | exact Keeps.refl _
    | apply State.wr_keeps
    | apply State.setReg_keeps
    | apply State.queueHeader_keeps
    | apply Keeps.foldl
    | apply Keeps.foldl_snd
    | dsimp only
    | split
    | (refine Keeps.of_some (by assumption) ?_)
    | (refine Keeps.of_snd (by assumption) ?_)
    | (refine Keeps.of_snd_snd (by assumption) ?_)
    | (intro _ _ _; beta_reduce)
    | (fail_if_no_progress apply Keeps.other)
    | intro _

theorem State.mount_keeps {r_ : State} (s : State) (h_ : Keeps r_ s) : Keeps r_ (State.mount s) := by
  unfold State.mount
  extract_lets +onlyGivenNames s_0
  have h_s_0 : Keeps r_ s_0 := by
    unfold s_0
    repeat' with_reducible first
      | assumption
      | exact Keeps.refl _
      | apply State.setReg_keeps
      | apply State.nvmCommand_keeps
      | apply State.queueOp_keeps
      | apply State.slotChecks_keeps
      | apply State.mountRecords_keeps
      | apply State.takeHeader_keeps
      | apply Keeps.foldl
      | apply Keeps.foldl_snd
      | dsimp only
      | split
      | (refine Keeps.of_some (by assumption) ?_)
      | (refine Keeps.of_snd (by assumption) ?_)
      | (refine Keeps.of_snd_snd (by assumption) ?_)
      | (intro _ _ _; beta_reduce)
      | (fail_if_no_progress apply Keeps.other)
      | intro _
  clear_value s_0
  repeat' with_reducible first
    | assumption
    | exact Keeps.refl _
    | apply State.setReg_keeps
    | apply State.nvmCommand_keeps
    | apply State.queueOp_keeps
    | apply State.slotChecks_keeps
    | apply State.mountRecords_keeps
    | apply State.takeHeader_keeps
    | apply Keeps.foldl
    | apply Keeps.foldl_snd
    | dsimp only
    | split
    | (refine Keeps.of_some (by assumption) ?_)
    | (refine Keeps.of_snd (by assumption) ?_)
    | (refine Keeps.of_snd_snd (by assumption) ?_)
    | (intro _ _ _; beta_reduce)
    | (fail_if_no_progress apply Keeps.other)
    | intro _

theorem execMonumentMount_keeps {r_ : State} (s : State) (h_ : Keeps r_ s) : KeepsNext r_ (execMonumentMount s) := by
  unfold execMonumentMount
  repeat' with_reducible first
    | assumption
    | exact Keeps.refl _
    | apply KeepsNext.next
    | apply KeepsNext.refused
    | apply gathered_keeps
    | apply State.mount_keeps
    | apply Keeps.foldl
    | apply Keeps.foldl_snd
    | dsimp only
    | split
    | (refine Keeps.of_some (by assumption) ?_)
    | (refine Keeps.of_snd (by assumption) ?_)
    | (refine Keeps.of_snd_snd (by assumption) ?_)
    | (intro _ _ _; beta_reduce)
    | (fail_if_no_progress apply Keeps.other)
    | intro _

theorem State.monRestart_keeps {r_ : State} (s : State) (h_ : Keeps r_ s) : Keeps r_ (State.monRestart s) := by
  unfold State.monRestart
  repeat' with_reducible first
    | assumption
    | exact Keeps.refl _
    | apply State.setReg_keeps
    | apply State.mount_keeps
    | apply Keeps.foldl
    | apply Keeps.foldl_snd
    | dsimp only
    | split
    | (refine Keeps.of_some (by assumption) ?_)
    | (refine Keeps.of_snd (by assumption) ?_)
    | (refine Keeps.of_snd_snd (by assumption) ?_)
    | (intro _ _ _; beta_reduce)
    | (fail_if_no_progress apply Keeps.other)
    | intro _

theorem State.headPast_keeps {r_ : State} (s : State) (g : List MonPending) (h_ : Keeps r_ s) : Keeps r_ (State.headPast s g) := by
  unfold State.headPast
  repeat' with_reducible first
    | assumption
    | exact Keeps.refl _
    | apply State.wr_keeps
    | apply State.queueErase_keeps
    | apply Keeps.foldl
    | apply Keeps.foldl_snd
    | dsimp only
    | split
    | (refine Keeps.of_some (by assumption) ?_)
    | (refine Keeps.of_snd (by assumption) ?_)
    | (refine Keeps.of_snd_snd (by assumption) ?_)
    | (intro _ _ _; beta_reduce)
    | (fail_if_no_progress apply Keeps.other)
    | intro _

theorem State.monCount_keeps {r_ : State} (s : State) (h_ : Keeps r_ s) : Keeps r_ (State.monCount s) := by
  unfold State.monCount
  repeat' with_reducible first
    | assumption
    | exact Keeps.refl _
    | apply State.wr_keeps
    | apply Keeps.foldl
    | apply Keeps.foldl_snd
    | dsimp only
    | split
    | (refine Keeps.of_some (by assumption) ?_)
    | (refine Keeps.of_snd (by assumption) ?_)
    | (refine Keeps.of_snd_snd (by assumption) ?_)
    | (intro _ _ _; beta_reduce)
    | (fail_if_no_progress apply Keeps.other)
    | intro _

theorem State.programGroup_keeps {r_ : State} (s : State) (g : List MonPending) (h_ : Keeps r_ s) : Keeps r_ (State.programGroup s g) := by
  unfold State.programGroup
  extract_lets +onlyGivenNames s1_0
  have h_s1_0 : Keeps r_ s1_0 := by
    unfold s1_0
    repeat' with_reducible first
      | assumption
      | exact Keeps.refl _
      | apply State.bump_keeps
      | apply State.flashProgram_keeps
      | apply State.nvmWrite_keeps
      | apply State.headPast_keeps
      | apply State.monCount_keeps
      | apply Keeps.foldl
      | apply Keeps.foldl_snd
      | dsimp only
      | split
      | (refine Keeps.of_some (by assumption) ?_)
      | (refine Keeps.of_snd (by assumption) ?_)
      | (refine Keeps.of_snd_snd (by assumption) ?_)
      | (intro _ _ _; beta_reduce)
      | (fail_if_no_progress apply Keeps.other)
      | intro _
  clear_value s1_0
  repeat' with_reducible first
    | assumption
    | exact Keeps.refl _
    | apply State.bump_keeps
    | apply State.flashProgram_keeps
    | apply State.nvmWrite_keeps
    | apply State.headPast_keeps
    | apply State.monCount_keeps
    | apply Keeps.foldl
    | apply Keeps.foldl_snd
    | dsimp only
    | split
    | (refine Keeps.of_some (by assumption) ?_)
    | (refine Keeps.of_snd (by assumption) ?_)
    | (refine Keeps.of_snd_snd (by assumption) ?_)
    | (intro _ _ _; beta_reduce)
    | (fail_if_no_progress apply Keeps.other)
    | intro _

theorem State.spoilSlot_keeps {r_ : State} (s : State) (x : Nat) (h_ : Keeps r_ s) : Keeps r_ (State.spoilSlot s x) := by
  unfold State.spoilSlot
  repeat' with_reducible first
    | assumption
    | exact Keeps.refl _
    | apply State.takeFree_keeps
    | apply State.flashProgram_keeps
    | apply Keeps.foldl
    | apply Keeps.foldl_snd
    | dsimp only
    | split
    | (refine Keeps.of_some (by assumption) ?_)
    | (refine Keeps.of_snd (by assumption) ?_)
    | (refine Keeps.of_snd_snd (by assumption) ?_)
    | (intro _ _ _; beta_reduce)
    | (fail_if_no_progress apply Keeps.other)
    | intro _

theorem State.retryRecord_keeps {r_ : State} (s : State) (m : MonPending) (h_ : Keeps r_ s) : Keeps r_ (State.retryRecord s m) := by
  unfold State.retryRecord
  extract_lets +onlyGivenNames x_0
  repeat' with_reducible first
    | assumption
    | exact Keeps.refl _
    | apply State.bump_keeps
    | apply Keeps.foldl
    | apply Keeps.foldl_snd
    | dsimp only
    | split
    | (refine Keeps.of_some (by assumption) ?_)
    | (refine Keeps.of_snd (by assumption) ?_)
    | (refine Keeps.of_snd_snd (by assumption) ?_)
    | (intro _ _ _; beta_reduce)
    | (fail_if_no_progress apply Keeps.other)
    | intro _

theorem State.programFailed_keeps {r_ : State} (s : State) (g : List MonPending) (cls : Nat) (h_ : Keeps r_ s) : Keeps r_ (State.programFailed s g cls) := by
  unfold State.programFailed
  extract_lets +onlyGivenNames s1_0 s2_1 s3_2
  have h_s1_0 : Keeps r_ s1_0 := by
    unfold s1_0
    repeat' with_reducible first
      | assumption
      | exact Keeps.refl _
      | apply State.monFail_keeps
      | apply State.headPast_keeps
      | apply State.monCount_keeps
      | apply State.spoilSlot_keeps
      | apply State.retryRecord_keeps
      | apply Keeps.foldl
      | apply Keeps.foldl_snd
      | dsimp only
      | split
      | (refine Keeps.of_some (by assumption) ?_)
      | (refine Keeps.of_snd (by assumption) ?_)
      | (refine Keeps.of_snd_snd (by assumption) ?_)
      | (intro _ _ _; beta_reduce)
      | (fail_if_no_progress apply Keeps.other)
      | intro _
  clear_value s1_0
  have h_s2_1 : Keeps r_ s2_1 := by
    unfold s2_1
    repeat' with_reducible first
      | assumption
      | exact Keeps.refl _
      | apply State.monFail_keeps
      | apply State.headPast_keeps
      | apply State.monCount_keeps
      | apply State.spoilSlot_keeps
      | apply State.retryRecord_keeps
      | apply Keeps.foldl
      | apply Keeps.foldl_snd
      | dsimp only
      | split
      | (refine Keeps.of_some (by assumption) ?_)
      | (refine Keeps.of_snd (by assumption) ?_)
      | (refine Keeps.of_snd_snd (by assumption) ?_)
      | (intro _ _ _; beta_reduce)
      | (fail_if_no_progress apply Keeps.other)
      | intro _
  clear_value s2_1
  have h_s3_2 : Keeps r_ s3_2 := by
    unfold s3_2
    repeat' with_reducible first
      | assumption
      | exact Keeps.refl _
      | apply State.monFail_keeps
      | apply State.headPast_keeps
      | apply State.monCount_keeps
      | apply State.spoilSlot_keeps
      | apply State.retryRecord_keeps
      | apply Keeps.foldl
      | apply Keeps.foldl_snd
      | dsimp only
      | split
      | (refine Keeps.of_some (by assumption) ?_)
      | (refine Keeps.of_snd (by assumption) ?_)
      | (refine Keeps.of_snd_snd (by assumption) ?_)
      | (intro _ _ _; beta_reduce)
      | (fail_if_no_progress apply Keeps.other)
      | intro _
  clear_value s3_2
  repeat' with_reducible first
    | assumption
    | exact Keeps.refl _
    | apply State.monFail_keeps
    | apply State.headPast_keeps
    | apply State.monCount_keeps
    | apply State.spoilSlot_keeps
    | apply State.retryRecord_keeps
    | apply Keeps.foldl
    | apply Keeps.foldl_snd
    | dsimp only
    | split
    | (refine Keeps.of_some (by assumption) ?_)
    | (refine Keeps.of_snd (by assumption) ?_)
    | (refine Keeps.of_snd_snd (by assumption) ?_)
    | (intro _ _ _; beta_reduce)
    | (fail_if_no_progress apply Keeps.other)
    | intro _

theorem State.programEnd_keeps {r_ : State} (s : State) (ok : Bool) (cls : Nat) (h_ : Keeps r_ s) : Keeps r_ (State.programEnd s ok cls) := by
  unfold State.programEnd
  extract_lets +onlyGivenNames g_0 s1_1
  try clear_value g_0
  have h_s1_1 : Keeps r_ s1_1 := by
    unfold s1_1
    repeat' with_reducible first
      | assumption
      | exact Keeps.refl _
      | apply State.setReg_keeps
      | apply State.portNext_keeps
      | apply State.nvmGood_keeps
      | apply State.programGroup_keeps
      | apply State.programFailed_keeps
      | apply Keeps.foldl
      | apply Keeps.foldl_snd
      | dsimp only
      | split
      | (refine Keeps.of_some (by assumption) ?_)
      | (refine Keeps.of_snd (by assumption) ?_)
      | (refine Keeps.of_snd_snd (by assumption) ?_)
      | (intro _ _ _; beta_reduce)
      | (fail_if_no_progress apply Keeps.other)
      | intro _
  clear_value s1_1
  repeat' with_reducible first
    | assumption
    | exact Keeps.refl _
    | apply State.setReg_keeps
    | apply State.portNext_keeps
    | apply State.nvmGood_keeps
    | apply State.programGroup_keeps
    | apply State.programFailed_keeps
    | apply Keeps.foldl
    | apply Keeps.foldl_snd
    | dsimp only
    | split
    | (refine Keeps.of_some (by assumption) ?_)
    | (refine Keeps.of_snd (by assumption) ?_)
    | (refine Keeps.of_snd_snd (by assumption) ?_)
    | (intro _ _ _; beta_reduce)
    | (fail_if_no_progress apply Keeps.other)
    | intro _

theorem execMonumentProgram_keeps {r_ : State} (ok : Bool) (s : State) (h_ : Keeps r_ s) : KeepsNext r_ (execMonumentProgram ok s) := by
  unfold execMonumentProgram
  repeat' with_reducible first
    | assumption
    | exact Keeps.refl _
    | apply KeepsNext.next
    | apply KeepsNext.refused
    | apply gathered_keeps
    | apply State.programEnd_keeps
    | apply Keeps.foldl
    | apply Keeps.foldl_snd
    | dsimp only
    | split
    | (refine Keeps.of_some (by assumption) ?_)
    | (refine Keeps.of_snd (by assumption) ?_)
    | (refine Keeps.of_snd_snd (by assumption) ?_)
    | (intro _ _ _; beta_reduce)
    | (fail_if_no_progress apply Keeps.other)
    | intro _

theorem State.timedOut_keeps {r_ : State} (s : State) (cls : Nat) (addr : Nat) (h_ : Keeps r_ s) : Keeps r_ (State.timedOut s cls addr) := by
  unfold State.timedOut
  repeat' with_reducible first
    | assumption
    | exact Keeps.refl _
    | apply State.bump_keeps
    | apply State.latch_keeps
    | apply State.record_keeps
    | apply State.nvmCommand_keeps
    | apply Keeps.foldl
    | apply Keeps.foldl_snd
    | dsimp only
    | split
    | (refine Keeps.of_some (by assumption) ?_)
    | (refine Keeps.of_snd (by assumption) ?_)
    | (refine Keeps.of_snd_snd (by assumption) ?_)
    | (intro _ _ _; beta_reduce)
    | (fail_if_no_progress apply Keeps.other)
    | intro _

theorem State.tokenGain_keeps {r_ : State} (s : State) (h_ : Keeps r_ s) : Keeps r_ (State.tokenGain s) := by
  unfold State.tokenGain
  repeat' with_reducible first
    | assumption
    | exact Keeps.refl _
    | apply State.wr_keeps
    | apply State.startTimer_keeps
    | apply Keeps.foldl
    | apply Keeps.foldl_snd
    | dsimp only
    | split
    | (refine Keeps.of_some (by assumption) ?_)
    | (refine Keeps.of_snd (by assumption) ?_)
    | (refine Keeps.of_snd_snd (by assumption) ?_)
    | (intro _ _ _; beta_reduce)
    | (fail_if_no_progress apply Keeps.other)
    | intro _

theorem execTokenAccrue_keeps {r_ : State} (s : State) (h_ : Keeps r_ s) : KeepsNext r_ (execTokenAccrue s) := by
  unfold execTokenAccrue
  repeat' with_reducible first
    | assumption
    | exact Keeps.refl _
    | apply KeepsNext.next
    | apply KeepsNext.refused
    | apply State.wake_keeps
    | apply gathered_keeps
    | apply State.tokenGain_keeps
    | apply Keeps.foldl
    | apply Keeps.foldl_snd
    | dsimp only
    | split
    | (refine Keeps.of_some (by assumption) ?_)
    | (refine Keeps.of_snd (by assumption) ?_)
    | (refine Keeps.of_snd_snd (by assumption) ?_)
    | (intro _ _ _; beta_reduce)
    | (fail_if_no_progress apply Keeps.other)
    | intro _

theorem State.hourOver_keeps {r_ : State} (s : State) (h_ : Keeps r_ s) : Keeps r_ (State.hourOver s) := by
  unfold State.hourOver
  extract_lets +onlyGivenNames n_0 v_1 s1_2
  try clear_value n_0
  try clear_value v_1
  have h_s1_2 : Keeps r_ s1_2 := by
    unfold s1_2
    repeat' with_reducible first
      | assumption
      | exact Keeps.refl _
      | apply State.setReg_keeps
      | apply State.stopTimer_keeps
      | apply State.latch_keeps
      | apply State.raise_keeps
      | apply State.record_keeps
      | apply Keeps.foldl
      | apply Keeps.foldl_snd
      | dsimp only
      | split
      | (refine Keeps.of_some (by assumption) ?_)
      | (refine Keeps.of_snd (by assumption) ?_)
      | (refine Keeps.of_snd_snd (by assumption) ?_)
      | (intro _ _ _; beta_reduce)
      | (fail_if_no_progress apply Keeps.other)
      | intro _
  clear_value s1_2
  repeat' with_reducible first
    | assumption
    | exact Keeps.refl _
    | apply State.setReg_keeps
    | apply State.stopTimer_keeps
    | apply State.latch_keeps
    | apply State.raise_keeps
    | apply State.record_keeps
    | apply Keeps.foldl
    | apply Keeps.foldl_snd
    | dsimp only
    | split
    | (refine Keeps.of_some (by assumption) ?_)
    | (refine Keeps.of_snd (by assumption) ?_)
    | (refine Keeps.of_snd_snd (by assumption) ?_)
    | (intro _ _ _; beta_reduce)
    | (fail_if_no_progress apply Keeps.other)
    | intro _

theorem execBudgetHourExpire_keeps {r_ : State} (s : State) (h_ : Keeps r_ s) : KeepsNext r_ (execBudgetHourExpire s) := by
  unfold execBudgetHourExpire
  repeat' with_reducible first
    | assumption
    | exact Keeps.refl _
    | apply KeepsNext.next
    | apply KeepsNext.refused
    | apply State.wake_keeps
    | apply gathered_keeps
    | apply State.hourOver_keeps
    | apply Keeps.foldl
    | apply Keeps.foldl_snd
    | dsimp only
    | split
    | (refine Keeps.of_some (by assumption) ?_)
    | (refine Keeps.of_snd (by assumption) ?_)
    | (refine Keeps.of_snd_snd (by assumption) ?_)
    | (intro _ _ _; beta_reduce)
    | (fail_if_no_progress apply Keeps.other)
    | intro _

theorem State.monFormat_keeps {r_ : State} (s : State) (a : Agent) (n : Nat) (h_ : Keeps r_ s) : Keeps r_ (State.monFormat s a n).2 := by
  unfold State.monFormat
  repeat' with_reducible first
    | assumption
    | exact Keeps.refl _
    | apply State.queueOp_keeps
    | apply State.dropOwn_keeps
    | apply Keeps.foldl
    | apply Keeps.foldl_snd
    | dsimp only
    | split
    | (refine Keeps.of_some (by assumption) ?_)
    | (refine Keeps.of_snd (by assumption) ?_)
    | (refine Keeps.of_snd_snd (by assumption) ?_)
    | (intro _ _ _; beta_reduce)
    | (fail_if_no_progress apply Keeps.other)
    | intro _

theorem State.writerDone_keeps {r_ : State} (s : State) (who : Option Agent) (h_ : Keeps r_ s) : Keeps r_ (State.writerDone s who) := by
  unfold State.writerDone
  repeat' with_reducible first
    | assumption
    | exact Keeps.refl _
    | apply State.finish_keeps
    | apply Keeps.foldl
    | apply Keeps.foldl_snd
    | dsimp only
    | split
    | (refine Keeps.of_some (by assumption) ?_)
    | (refine Keeps.of_snd (by assumption) ?_)
    | (refine Keeps.of_snd_snd (by assumption) ?_)
    | (intro _ _ _; beta_reduce)
    | (fail_if_no_progress apply Keeps.other)
    | intro _

theorem State.imageDone_keeps {r_ : State} (s : State) (who : Option Agent) (x : Nat) (l : List Octet) (h_ : Keeps r_ s) : Keeps r_ (State.imageDone s who x l) := by
  unfold State.imageDone
  repeat' with_reducible first
    | assumption
    | exact Keeps.refl _
    | apply State.flashProgram_keeps
    | apply State.nvmWrite_keeps
    | apply State.portDone_keeps
    | apply State.writerDone_keeps
    | apply Keeps.foldl
    | apply Keeps.foldl_snd
    | dsimp only
    | split
    | (refine Keeps.of_some (by assumption) ?_)
    | (refine Keeps.of_snd (by assumption) ?_)
    | (refine Keeps.of_snd_snd (by assumption) ?_)
    | (intro _ _ _; beta_reduce)
    | (fail_if_no_progress apply Keeps.other)
    | intro _

theorem State.regionDone_keeps {r_ : State} (s : State) (who : Option Agent) (k : Nat) (total : Nat) (n : Nat) (first : Bool) (h_ : Keeps r_ s) : Keeps r_ (State.regionDone s who k total n first) := by
  unfold State.regionDone
  repeat' with_reducible first
    | assumption
    | exact Keeps.refl _
    | apply State.wr_keeps
    | apply State.setReg_keeps
    | apply State.flashErase_keeps
    | apply State.nvmWrite_keeps
    | apply State.putHeader_keeps
    | apply State.portThen_keeps
    | apply State.portDone_keeps
    | apply State.queueHeader_keeps
    | apply State.dropOwn_keeps
    | apply State.reslot_keeps
    | apply State.mountRecords_keeps
    | apply State.takeHeader_keeps
    | apply State.writerDone_keeps
    | apply Keeps.foldl
    | apply Keeps.foldl_snd
    | dsimp only
    | split
    | (refine Keeps.of_some (by assumption) ?_)
    | (refine Keeps.of_snd (by assumption) ?_)
    | (refine Keeps.of_snd_snd (by assumption) ?_)
    | (intro _ _ _; beta_reduce)
    | (fail_if_no_progress apply Keeps.other)
    | intro _

theorem State.otherProgramEnds_keeps {r_ : State} (s : State) (h_ : Keeps r_ s) : Keeps r_ (State.otherProgramEnds s) := by
  unfold State.otherProgramEnds
  repeat' with_reducible first
    | assumption
    | exact Keeps.refl _
    | apply State.putHeader_keeps
    | apply State.portDone_keeps
    | apply State.imageDone_keeps
    | apply State.regionDone_keeps
    | apply Keeps.foldl
    | apply Keeps.foldl_snd
    | dsimp only
    | split
    | (refine Keeps.of_some (by assumption) ?_)
    | (refine Keeps.of_snd (by assumption) ?_)
    | (refine Keeps.of_snd_snd (by assumption) ?_)
    | (intro _ _ _; beta_reduce)
    | (fail_if_no_progress apply Keeps.other)
    | intro _

theorem State.atlasSet_keeps {r_ : State} (s : State) (base : Nat) (limit : Nat) (h_ : Keeps r_ s) : Keeps r_ (State.atlasSet s base limit).2 := by
  unfold State.atlasSet
  extract_lets +onlyGivenNames clash_0
  try clear_value clash_0
  repeat' with_reducible first
    | assumption
    | exact Keeps.refl _
    | apply State.setReg_keeps
    | apply State.queueHeader_keeps
    | apply Keeps.foldl
    | apply Keeps.foldl_snd
    | dsimp only
    | split
    | (refine Keeps.of_some (by assumption) ?_)
    | (refine Keeps.of_snd (by assumption) ?_)
    | (refine Keeps.of_snd_snd (by assumption) ?_)
    | (intro _ _ _; beta_reduce)
    | (fail_if_no_progress apply Keeps.other)
    | intro _

theorem State.atlasErase_keeps {r_ : State} (s : State) (a : Agent) (h_ : Keeps r_ s) : Keeps r_ (State.atlasErase s a).2 := by
  unfold State.atlasErase
  extract_lets +onlyGivenNames base_0 lo_1 n_2
  try clear_value base_0
  try clear_value lo_1
  try clear_value n_2
  repeat' with_reducible first
    | assumption
    | exact Keeps.refl _
    | apply State.queueOp_keeps
    | apply Keeps.foldl
    | apply Keeps.foldl_snd
    | dsimp only
    | split
    | (refine Keeps.of_some (by assumption) ?_)
    | (refine Keeps.of_snd (by assumption) ?_)
    | (refine Keeps.of_snd_snd (by assumption) ?_)
    | (intro _ _ _; beta_reduce)
    | (fail_if_no_progress apply Keeps.other)
    | intro _

theorem State.queueImage_keeps {r_ : State} (s : State) (a : Agent) (addr : Nat) (octets : List Octet) (h_ : Keeps r_ s) : Keeps r_ (State.queueImage s a addr octets) := by
  unfold State.queueImage
  repeat' with_reducible first
    | assumption
    | exact Keeps.refl _
    | apply State.queueOp_keeps
    | apply Keeps.foldl
    | apply Keeps.foldl_snd
    | dsimp only
    | split
    | (refine Keeps.of_some (by assumption) ?_)
    | (refine Keeps.of_snd (by assumption) ?_)
    | (refine Keeps.of_snd_snd (by assumption) ?_)
    | (intro _ _ _; beta_reduce)
    | (fail_if_no_progress apply Keeps.other)
    | intro _

theorem State.atlasWrite_keeps {r_ : State} (s : State) (a : Agent) (e : Nat) (octets : List Octet) (h_ : Keeps r_ s) : Keeps r_ (State.atlasWrite s a e octets).2 := by
  unfold State.atlasWrite
  repeat' with_reducible first
    | assumption
    | exact Keeps.refl _
    | apply State.queueImage_keeps
    | apply Keeps.foldl
    | apply Keeps.foldl_snd
    | dsimp only
    | split
    | (refine Keeps.of_some (by assumption) ?_)
    | (refine Keeps.of_snd (by assumption) ?_)
    | (refine Keeps.of_snd_snd (by assumption) ?_)
    | (intro _ _ _; beta_reduce)
    | (fail_if_no_progress apply Keeps.other)
    | intro _

end Sys2Proof.Machine
end

