-- ==== Sys2Proof/Laws/KeepsFreeze.lean ====
section
/-! SUPPORT. What the operations of Freeze.lean keep (Keeps.lean). -/
set_option linter.unusedTactic false
set_option linter.unreachableTactic false
namespace Sys2Proof.Machine

theorem State.setFb_keeps {r_ : State} (s : State) (b : Nat) (v : Bool) (h_ : Keeps r_ s) : Keeps r_ (State.setFb s b v) := by
  unfold State.setFb
  repeat' with_reducible first
    | assumption
    | exact Keeps.refl _
    | apply State.wr_keeps
    | apply State.flushHeld_keeps
    | apply Keeps.foldl
    | apply Keeps.foldl_snd
    | dsimp only
    | split
    | (refine Keeps.of_some (by assumption) ?_)
    | (refine Keeps.of_snd (by assumption) ?_)
    | (refine Keeps.of_snd_snd (by assumption) ?_)
    | (intro _ _ _; beta_reduce)
    | (fail_if_no_progress apply Keeps.other)
    | intro _

theorem State.gapReset_keeps {r_ : State} (s : State) (h_ : Keeps r_ s) : Keeps r_ (State.gapReset s) := by
  unfold State.gapReset
  repeat' with_reducible first
    | assumption
    | exact Keeps.refl _
    | apply State.setReg_keeps
    | apply Keeps.foldl
    | apply Keeps.foldl_snd
    | dsimp only
    | split
    | (refine Keeps.of_some (by assumption) ?_)
    | (refine Keeps.of_snd (by assumption) ?_)
    | (refine Keeps.of_snd_snd (by assumption) ?_)
    | (intro _ _ _; beta_reduce)
    | (fail_if_no_progress apply Keeps.other)
    | intro _

theorem State.gapRecord_keeps {r_ : State} (s : State) (h_ : Keeps r_ s) : Keeps r_ (State.gapRecord s) := by
  unfold State.gapRecord
  repeat' with_reducible first
    | assumption
    | exact Keeps.refl _
    | apply State.setReg_keeps
    | apply State.record_keeps
    | apply Keeps.foldl
    | apply Keeps.foldl_snd
    | dsimp only
    | split
    | (refine Keeps.of_some (by assumption) ?_)
    | (refine Keeps.of_snd (by assumption) ?_)
    | (refine Keeps.of_snd_snd (by assumption) ?_)
    | (intro _ _ _; beta_reduce)
    | (fail_if_no_progress apply Keeps.other)
    | intro _

theorem State.freezeBook_keeps {r_ : State} (s : State) (h_ : Keeps r_ s) : Keeps r_ (State.freezeBook s) := by
  unfold State.freezeBook
  repeat' with_reducible first
    | assumption
    | exact Keeps.refl _
    | apply State.wr_keeps
    | apply State.startTimer_keeps
    | apply State.setFb_keeps
    | apply State.gapReset_keeps
    | apply Keeps.foldl
    | apply Keeps.foldl_snd
    | dsimp only
    | split
    | (refine Keeps.of_some (by assumption) ?_)
    | (refine Keeps.of_snd (by assumption) ?_)
    | (refine Keeps.of_snd_snd (by assumption) ?_)
    | (intro _ _ _; beta_reduce)
    | (fail_if_no_progress apply Keeps.other)
    | intro _

theorem State.thawBook_keeps {r_ : State} (s : State) (h_ : Keeps r_ s) : Keeps r_ (State.thawBook s) := by
  unfold State.thawBook
  extract_lets +onlyGivenNames s1_0
  have h_s1_0 : Keeps r_ s1_0 := by
    unfold s1_0
    repeat' with_reducible first
      | assumption
      | exact Keeps.refl _
      | apply State.wr_keeps
      | apply State.stopTimer_keeps
      | apply State.setFb_keeps
      | apply State.gapRecord_keeps
      | apply Keeps.foldl
      | apply Keeps.foldl_snd
      | dsimp only
      | split
      | (refine Keeps.of_some (by assumption) ?_)
      | (refine Keeps.of_snd (by assumption) ?_)
      | (refine Keeps.of_snd_snd (by assumption) ?_)
      | (intro _ _ _; beta_reduce)
      | (fail_if_no_progress apply Keeps.other)
      | intro _
  clear_value s1_0
  repeat' with_reducible first
    | assumption
    | exact Keeps.refl _
    | apply State.wr_keeps
    | apply State.stopTimer_keeps
    | apply State.setFb_keeps
    | apply State.gapRecord_keeps
    | apply Keeps.foldl
    | apply Keeps.foldl_snd
    | dsimp only
    | split
    | (refine Keeps.of_some (by assumption) ?_)
    | (refine Keeps.of_snd (by assumption) ?_)
    | (refine Keeps.of_snd_snd (by assumption) ?_)
    | (intro _ _ _; beta_reduce)
    | (fail_if_no_progress apply Keeps.other)
    | intro _

theorem State.autoThaw_keeps {r_ : State} (s : State) (h_ : Keeps r_ s) : Keeps r_ (State.autoThaw s) := by
  unfold State.autoThaw
  repeat' with_reducible first
    | assumption
    | exact Keeps.refl _
    | apply State.bump_keeps
    | apply State.raise_keeps
    | apply State.thawBook_keeps
    | apply Keeps.foldl
    | apply Keeps.foldl_snd
    | dsimp only
    | split
    | (refine Keeps.of_some (by assumption) ?_)
    | (refine Keeps.of_snd (by assumption) ?_)
    | (refine Keeps.of_snd_snd (by assumption) ?_)
    | (intro _ _ _; beta_reduce)
    | (fail_if_no_progress apply Keeps.other)
    | intro _

theorem execFreezeLimitExpire_keeps {r_ : State} (s : State) (h_ : Keeps r_ s) : KeepsNext r_ (execFreezeLimitExpire s) := by
  unfold execFreezeLimitExpire
  repeat' with_reducible first
    | assumption
    | exact Keeps.refl _
    | apply KeepsNext.next
    | apply KeepsNext.refused
    | apply State.wake_keeps
    | apply gathered_keeps
    | apply State.autoThaw_keeps
    | apply Keeps.foldl
    | apply Keeps.foldl_snd
    | dsimp only
    | split
    | (refine Keeps.of_some (by assumption) ?_)
    | (refine Keeps.of_snd (by assumption) ?_)
    | (refine Keeps.of_snd_snd (by assumption) ?_)
    | (intro _ _ _; beta_reduce)
    | (fail_if_no_progress apply Keeps.other)
    | intro _

theorem State.commitPending_keeps {r_ : State} (n : Nat) (s : State) (h_ : Keeps r_ s) : Keeps r_ (State.commitPending n s) := by
  induction n generalizing s with
  | zero => exact h_
  | succ n_ ih =>
    unfold State.commitPending
    repeat' with_reducible first
      | assumption
      | exact Keeps.refl _
      | apply ih
      | apply State.programGroup_keeps
      | apply Keeps.foldl
      | apply Keeps.foldl_snd
      | dsimp only
      | split
      | (refine Keeps.of_some (by assumption) ?_)
      | (refine Keeps.of_snd (by assumption) ?_)
      | (refine Keeps.of_snd_snd (by assumption) ?_)
      | (intro _ _ _; beta_reduce)
      | (fail_if_no_progress apply Keeps.other)
      | intro _

theorem State.stopReads_keeps {r_ : State} (s : State) (h_ : Keeps r_ s) : Keeps r_ (State.stopReads s) := by
  unfold State.stopReads
  extract_lets +onlyGivenNames begun_0 s1_1
  try clear_value begun_0
  have h_s1_1 : Keeps r_ s1_1 := by
    unfold s1_1
    repeat' with_reducible first
      | assumption
      | exact Keeps.refl _
      | apply State.setReg_keeps
      | apply State.dpHold_keeps
      | apply State.finish_keeps
      | apply Keeps.foldl
      | apply Keeps.foldl_snd
      | dsimp only
      | split
      | (refine Keeps.of_some (by assumption) ?_)
      | (refine Keeps.of_snd (by assumption) ?_)
      | (refine Keeps.of_snd_snd (by assumption) ?_)
      | (intro _ _ _; beta_reduce)
      | (fail_if_no_progress apply Keeps.other)
      | intro _
  clear_value s1_1
  repeat' with_reducible first
    | assumption
    | exact Keeps.refl _
    | apply State.setReg_keeps
    | apply State.dpHold_keeps
    | apply State.finish_keeps
    | apply Keeps.foldl
    | apply Keeps.foldl_snd
    | dsimp only
    | split
    | (refine Keeps.of_some (by assumption) ?_)
    | (refine Keeps.of_snd (by assumption) ?_)
    | (refine Keeps.of_snd_snd (by assumption) ?_)
    | (intro _ _ _; beta_reduce)
    | (fail_if_no_progress apply Keeps.other)
    | intro _

theorem State.pfailAct_keeps {r_ : State} (s : State) (h_ : Keeps r_ s) : Keeps r_ (State.pfailAct s) := by
  unfold State.pfailAct
  extract_lets +onlyGivenNames s1_0 s2_1 s3_2 s4_3
  have h_s1_0 : Keeps r_ s1_0 := by
    unfold s1_0
    repeat' with_reducible first
      | assumption
      | exact Keeps.refl _
      | apply State.setReg_keeps
      | apply State.bump_keeps
      | apply State.record_keeps
      | apply State.flushHeld_keeps
      | apply State.abortJobs_keeps
      | apply State.otherProgramEnds_keeps
      | apply State.setFb_keeps
      | apply State.gapReset_keeps
      | apply State.commitPending_keeps
      | apply State.stopReads_keeps
      | apply Keeps.foldl
      | apply Keeps.foldl_snd
      | dsimp only
      | split
      | (refine Keeps.of_some (by assumption) ?_)
      | (refine Keeps.of_snd (by assumption) ?_)
      | (refine Keeps.of_snd_snd (by assumption) ?_)
      | (intro _ _ _; beta_reduce)
      | (fail_if_no_progress apply Keeps.other)
      | intro _
  clear_value s1_0
  have h_s2_1 : Keeps r_ s2_1 := by
    unfold s2_1
    repeat' with_reducible first
      | assumption
      | exact Keeps.refl _
      | apply State.setReg_keeps
      | apply State.bump_keeps
      | apply State.record_keeps
      | apply State.flushHeld_keeps
      | apply State.abortJobs_keeps
      | apply State.otherProgramEnds_keeps
      | apply State.setFb_keeps
      | apply State.gapReset_keeps
      | apply State.commitPending_keeps
      | apply State.stopReads_keeps
      | apply Keeps.foldl
      | apply Keeps.foldl_snd
      | dsimp only
      | split
      | (refine Keeps.of_some (by assumption) ?_)
      | (refine Keeps.of_snd (by assumption) ?_)
      | (refine Keeps.of_snd_snd (by assumption) ?_)
      | (intro _ _ _; beta_reduce)
      | (fail_if_no_progress apply Keeps.other)
      | intro _
  clear_value s2_1
  have h_s3_2 : Keeps r_ s3_2 := by
    unfold s3_2
    repeat' with_reducible first
      | assumption
      | exact Keeps.refl _
      | apply State.setReg_keeps
      | apply State.bump_keeps
      | apply State.record_keeps
      | apply State.flushHeld_keeps
      | apply State.abortJobs_keeps
      | apply State.otherProgramEnds_keeps
      | apply State.setFb_keeps
      | apply State.gapReset_keeps
      | apply State.commitPending_keeps
      | apply State.stopReads_keeps
      | apply Keeps.foldl
      | apply Keeps.foldl_snd
      | dsimp only
      | split
      | (refine Keeps.of_some (by assumption) ?_)
      | (refine Keeps.of_snd (by assumption) ?_)
      | (refine Keeps.of_snd_snd (by assumption) ?_)
      | (intro _ _ _; beta_reduce)
      | (fail_if_no_progress apply Keeps.other)
      | intro _
  clear_value s3_2
  have h_s4_3 : Keeps r_ s4_3 := by
    unfold s4_3
    repeat' with_reducible first
      | assumption
      | exact Keeps.refl _
      | apply State.setReg_keeps
      | apply State.bump_keeps
      | apply State.record_keeps
      | apply State.flushHeld_keeps
      | apply State.abortJobs_keeps
      | apply State.otherProgramEnds_keeps
      | apply State.setFb_keeps
      | apply State.gapReset_keeps
      | apply State.commitPending_keeps
      | apply State.stopReads_keeps
      | apply Keeps.foldl
      | apply Keeps.foldl_snd
      | dsimp only
      | split
      | (refine Keeps.of_some (by assumption) ?_)
      | (refine Keeps.of_snd (by assumption) ?_)
      | (refine Keeps.of_snd_snd (by assumption) ?_)
      | (intro _ _ _; beta_reduce)
      | (fail_if_no_progress apply Keeps.other)
      | intro _
  clear_value s4_3
  repeat' with_reducible first
    | assumption
    | exact Keeps.refl _
    | apply State.setReg_keeps
    | apply State.bump_keeps
    | apply State.record_keeps
    | apply State.flushHeld_keeps
    | apply State.abortJobs_keeps
    | apply State.otherProgramEnds_keeps
    | apply State.setFb_keeps
    | apply State.gapReset_keeps
    | apply State.commitPending_keeps
    | apply State.stopReads_keeps
    | apply Keeps.foldl
    | apply Keeps.foldl_snd
    | dsimp only
    | split
    | (refine Keeps.of_some (by assumption) ?_)
    | (refine Keeps.of_snd (by assumption) ?_)
    | (refine Keeps.of_snd_snd (by assumption) ?_)
    | (intro _ _ _; beta_reduce)
    | (fail_if_no_progress apply Keeps.other)
    | intro _

theorem execPfailFall_keeps {r_ : State} (s : State) (h_ : Keeps r_ s) : KeepsNext r_ (execPfailFall s) := by
  unfold execPfailFall
  repeat' with_reducible first
    | assumption
    | exact Keeps.refl _
    | apply KeepsNext.next
    | apply KeepsNext.refused
    | apply State.setReg_keeps
    | apply State.wake_keeps
    | apply gathered_keeps
    | apply State.pfailAct_keeps
    | apply Keeps.foldl
    | apply Keeps.foldl_snd
    | dsimp only
    | split
    | (refine Keeps.of_some (by assumption) ?_)
    | (refine Keeps.of_snd (by assumption) ?_)
    | (refine Keeps.of_snd_snd (by assumption) ?_)
    | (intro _ _ _; beta_reduce)
    | (fail_if_no_progress apply Keeps.other)
    | intro _

theorem State.pfailOver_keeps {r_ : State} (s : State) (h_ : Keeps r_ s) : Keeps r_ (State.pfailOver s) := by
  unfold State.pfailOver
  repeat' with_reducible first
    | assumption
    | exact Keeps.refl _
    | apply State.setReg_keeps
    | apply State.record_keeps
    | apply State.portNext_keeps
    | apply State.setFb_keeps
    | apply State.gapRecord_keeps
    | apply Keeps.foldl
    | apply Keeps.foldl_snd
    | dsimp only
    | split
    | (refine Keeps.of_some (by assumption) ?_)
    | (refine Keeps.of_snd (by assumption) ?_)
    | (refine Keeps.of_snd_snd (by assumption) ?_)
    | (intro _ _ _; beta_reduce)
    | (fail_if_no_progress apply Keeps.other)
    | intro _

theorem execPfailRecover_keeps {r_ : State} (s : State) (h_ : Keeps r_ s) : KeepsNext r_ (execPfailRecover s) := by
  unfold execPfailRecover
  repeat' with_reducible first
    | assumption
    | exact Keeps.refl _
    | apply KeepsNext.next
    | apply KeepsNext.refused
    | apply gathered_keeps
    | apply State.pfailOver_keeps
    | apply Keeps.foldl
    | apply Keeps.foldl_snd
    | dsimp only
    | split
    | (refine Keeps.of_some (by assumption) ?_)
    | (refine Keeps.of_snd (by assumption) ?_)
    | (refine Keeps.of_snd_snd (by assumption) ?_)
    | (intro _ _ _; beta_reduce)
    | (fail_if_no_progress apply Keeps.other)
    | intro _

theorem State.clearTable_keeps {r_ : State} (s : State) (u idx : Nat) (h_ : Keeps r_ s) : Keeps r_ (State.clearTable s u idx) := by
  refine h_.trans ⟨rfl, rfl, Nat.le_refl _, fun c => ?_⟩
  rw [State.canon_iff] at c ⊢
  exact ⟨c.1, Map.tidy_filter _ c.2.1, c.2.2⟩

theorem State.emptyVar_keeps {r_ : State} (s : State) (h_ : Keeps r_ s) : Keeps r_ (State.emptyVar s) := by
  unfold State.emptyVar
  repeat' with_reducible first
    | assumption
    | exact Keeps.refl _
    | apply State.wr_keeps
    | apply State.clearTable_keeps
    | apply Keeps.foldl
    | apply Keeps.foldl_snd
    | dsimp only
    | split
    | (refine Keeps.of_some (by assumption) ?_)
    | (refine Keeps.of_snd (by assumption) ?_)
    | (refine Keeps.of_snd_snd (by assumption) ?_)
    | (intro _ _ _; beta_reduce)
    | (fail_if_no_progress apply Keeps.other)
    | intro _

theorem State.emptyFixed_keeps {r_ : State} (s : State) (h_ : Keeps r_ s) : Keeps r_ (State.emptyFixed s) := by
  unfold State.emptyFixed
  repeat' with_reducible first
    | assumption
    | exact Keeps.refl _
    | apply State.setReg_keeps
    | apply State.clearTable_keeps
    | apply Keeps.foldl
    | apply Keeps.foldl_snd
    | dsimp only
    | split
    | (refine Keeps.of_some (by assumption) ?_)
    | (refine Keeps.of_snd (by assumption) ?_)
    | (refine Keeps.of_snd_snd (by assumption) ?_)
    | (intro _ _ _; beta_reduce)
    | (fail_if_no_progress apply Keeps.other)
    | intro _

theorem State.bookSleep_keeps {r_ : State} (s : State) (deep : Bool) (h_ : Keeps r_ s) : Keeps r_ (State.bookSleep s deep) := by
  unfold State.bookSleep
  extract_lets +onlyGivenNames s1_0
  have h_s1_0 : Keeps r_ s1_0 := by
    unfold s1_0
    repeat' with_reducible first
      | assumption
      | exact Keeps.refl _
      | apply State.setReg_keeps
      | apply State.setFb_keeps
      | apply State.emptyVar_keeps
      | apply State.emptyFixed_keeps
      | apply Keeps.foldl
      | apply Keeps.foldl_snd
      | dsimp only
      | split
      | (refine Keeps.of_some (by assumption) ?_)
      | (refine Keeps.of_snd (by assumption) ?_)
      | (refine Keeps.of_snd_snd (by assumption) ?_)
      | (intro _ _ _; beta_reduce)
      | (fail_if_no_progress apply Keeps.other)
      | intro _
  clear_value s1_0
  repeat' with_reducible first
    | assumption
    | exact Keeps.refl _
    | apply State.setReg_keeps
    | apply State.setFb_keeps
    | apply State.emptyVar_keeps
    | apply State.emptyFixed_keeps
    | apply Keeps.foldl
    | apply Keeps.foldl_snd
    | dsimp only
    | split
    | (refine Keeps.of_some (by assumption) ?_)
    | (refine Keeps.of_snd (by assumption) ?_)
    | (refine Keeps.of_snd_snd (by assumption) ?_)
    | (intro _ _ _; beta_reduce)
    | (fail_if_no_progress apply Keeps.other)
    | intro _

theorem State.stayOffers_keeps {r_ : State} (s : State) (first : Nat) (h_ : Keeps r_ s) : Keeps r_ (State.stayOffers s first) := by
  unfold State.stayOffers
  extract_lets +onlyGivenNames next_0
  try clear_value next_0
  repeat' with_reducible first
    | assumption
    | exact Keeps.refl _
    | apply State.setReg_keeps
    | apply State.offerStay_keeps
    | apply Keeps.foldl
    | apply Keeps.foldl_snd
    | dsimp only
    | split
    | (refine Keeps.of_some (by assumption) ?_)
    | (refine Keeps.of_snd (by assumption) ?_)
    | (refine Keeps.of_snd_snd (by assumption) ?_)
    | (intro _ _ _; beta_reduce)
    | (fail_if_no_progress apply Keeps.other)
    | intro _

theorem State.bookOffers_keeps {r_ : State} (s : State) (h_ : Keeps r_ s) : Keeps r_ (State.bookOffers s) := by
  unfold State.bookOffers
  repeat' with_reducible first
    | assumption
    | exact Keeps.refl _
    | apply State.setReg_keeps
    | apply State.raise_keeps
    | apply State.stayOffers_keeps
    | apply Keeps.foldl
    | apply Keeps.foldl_snd
    | dsimp only
    | split
    | (refine Keeps.of_some (by assumption) ?_)
    | (refine Keeps.of_snd (by assumption) ?_)
    | (refine Keeps.of_snd_snd (by assumption) ?_)
    | (intro _ _ _; beta_reduce)
    | (fail_if_no_progress apply Keeps.other)
    | intro _

theorem State.bookReturn_keeps {r_ : State} (s : State) (mode : Nat) (h_ : Keeps r_ s) : Keeps r_ (State.bookReturn s mode) := by
  unfold State.bookReturn
  extract_lets +onlyGivenNames next_0 first_1
  try clear_value next_0
  try clear_value first_1
  repeat' with_reducible first
    | assumption
    | exact Keeps.refl _
    | apply State.setReg_keeps
    | apply State.takeFree_keeps
    | apply State.raise_keeps
    | apply State.record_keeps
    | apply State.flushHeld_keeps
    | apply State.offerStay_keeps
    | apply State.setFb_keeps
    | apply State.stayOffers_keeps
    | apply Keeps.foldl
    | apply Keeps.foldl_snd
    | dsimp only
    | split
    | (refine Keeps.of_some (by assumption) ?_)
    | (refine Keeps.of_snd (by assumption) ?_)
    | (refine Keeps.of_snd_snd (by assumption) ?_)
    | (intro _ _ _; beta_reduce)
    | (fail_if_no_progress apply Keeps.other)
    | intro _

end Sys2Proof.Machine
end

