-- ==== Sys2Proof/Laws/KeepsRead.lean ====
section
/-! SUPPORT. What the operations of Read.lean keep (Keeps.lean). -/
set_option linter.unusedTactic false
set_option linter.unreachableTactic false
namespace Sys2Proof.Machine

theorem State.jobRead_keeps {r_ : State} (s : State) (j : Nat) (n : Nat) (h_ : Keeps r_ s) : Keeps r_ (State.jobRead s j n) := by
  unfold State.jobRead
  repeat' with_reducible first
    | assumption
    | exact Keeps.refl _
    | apply State.jobTake_keeps
    | apply Keeps.foldl
    | apply Keeps.foldl_snd
    | dsimp only
    | split
    | (refine Keeps.of_some (by assumption) ?_)
    | (refine Keeps.of_snd (by assumption) ?_)
    | (refine Keeps.of_snd_snd (by assumption) ?_)
    | (intro _ _ _; beta_reduce)
    | (fail_if_no_progress apply Keeps.other)
    | intro _

theorem State.scanStep_keeps {r_ : State} (s : State) (h_ : Keeps r_ s) : Keeps r_ (State.scanStep s) := by
  unfold State.scanStep
  repeat' with_reducible first
    | assumption
    | exact Keeps.refl _
    | apply State.takeFree_keeps
    | apply State.jobRead_keeps
    | apply Keeps.foldl
    | apply Keeps.foldl_snd
    | dsimp only
    | split
    | (refine Keeps.of_some (by assumption) ?_)
    | (refine Keeps.of_snd (by assumption) ?_)
    | (refine Keeps.of_snd_snd (by assumption) ?_)
    | (intro _ _ _; beta_reduce)
    | (fail_if_no_progress apply Keeps.other)
    | intro _

theorem State.jobDone_keeps {r_ : State} (s : State) (j : Nat) (outcome : ScanOutcome) (h_ : Keeps r_ s) : Keeps r_ (State.jobDone s j outcome) := by
  unfold State.jobDone
  extract_lets +onlyGivenNames e_0
  try clear_value e_0
  repeat' with_reducible first
    | assumption
    | exact Keeps.refl _
    | apply State.complete_keeps
    | apply State.jobEnd_keeps
    | apply State.jobWhole_keeps
    | apply State.jobRead_keeps
    | apply Keeps.foldl
    | apply Keeps.foldl_snd
    | dsimp only
    | split
    | (refine Keeps.of_some (by assumption) ?_)
    | (refine Keeps.of_snd (by assumption) ?_)
    | (refine Keeps.of_snd_snd (by assumption) ?_)
    | (intro _ _ _; beta_reduce)
    | (fail_if_no_progress apply Keeps.other)
    | intro _

theorem execScanJobDone_keeps {r_ : State} (job : Nat) (outcome : ScanOutcome) (s : State) (h_ : Keeps r_ s) : KeepsNext r_ (execScanJobDone job outcome s) := by
  unfold execScanJobDone
  repeat' with_reducible first
    | assumption
    | exact Keeps.refl _
    | apply KeepsNext.next
    | apply KeepsNext.refused
    | apply State.jobDone_keeps
    | apply Keeps.foldl
    | apply Keeps.foldl_snd
    | dsimp only
    | split
    | (refine Keeps.of_some (by assumption) ?_)
    | (refine Keeps.of_snd (by assumption) ?_)
    | (refine Keeps.of_snd_snd (by assumption) ?_)
    | (intro _ _ _; beta_reduce)
    | (fail_if_no_progress apply Keeps.other)
    | intro _

end Sys2Proof.Machine
end

