-- ==== Sys2Proof/Laws/KeepsLeases.lean ====
section
/-! SUPPORT. What the operations of Leases.lean keep (Keeps.lean). -/
set_option linter.unusedTactic false
set_option linter.unreachableTactic false
namespace Sys2Proof.Machine

theorem State.renew_keeps {r_ : State} (s : State) (u : Nat) (h_ : Keeps r_ s) : Keeps r_ (State.renew s u) := by
  unfold State.renew
  repeat' with_reducible first
    | assumption
    | exact Keeps.refl _
    | apply Keeps.foldl
    | apply Keeps.foldl_snd
    | dsimp only
    | split
    | (refine Keeps.of_some (by assumption) ?_)
    | (refine Keeps.of_snd (by assumption) ?_)
    | (refine Keeps.of_snd_snd (by assumption) ?_)
    | (intro _ _ _; beta_reduce)
    | (fail_if_no_progress apply Keeps.other)
    | intro _

theorem State.dropPending_keeps {r_ : State} (s : State) (h : Agent) (u : Nat) (h_ : Keeps r_ s) : Keeps r_ (State.dropPending s h u) := by
  unfold State.dropPending
  repeat' with_reducible first
    | assumption
    | exact Keeps.refl _
    | apply Keeps.foldl
    | apply Keeps.foldl_snd
    | dsimp only
    | split
    | (refine Keeps.of_some (by assumption) ?_)
    | (refine Keeps.of_snd (by assumption) ?_)
    | (refine Keeps.of_snd_snd (by assumption) ?_)
    | (intro _ _ _; beta_reduce)
    | (fail_if_no_progress apply Keeps.other)
    | intro _

theorem State.leaseChanged_keeps {r_ : State} (s : State) (u : Nat) (h_ : Keeps r_ s) : Keeps r_ (State.leaseChanged s u) := by
  unfold State.leaseChanged
  repeat' with_reducible first
    | assumption
    | exact Keeps.refl _
    | apply State.latch_keeps
    | apply Keeps.foldl
    | apply Keeps.foldl_snd
    | dsimp only
    | split
    | (refine Keeps.of_some (by assumption) ?_)
    | (refine Keeps.of_snd (by assumption) ?_)
    | (refine Keeps.of_snd_snd (by assumption) ?_)
    | (intro _ _ _; beta_reduce)
    | (fail_if_no_progress apply Keeps.other)
    | intro _

theorem State.leaseRecord_keeps {r_ : State} (s : State) (u : Nat) (old : Nat) (new : Nat) (cause : Nat) (h_ : Keeps r_ s) : Keeps r_ (State.leaseRecord s u old new cause) := by
  unfold State.leaseRecord
  repeat' with_reducible first
    | assumption
    | exact Keeps.refl _
    | apply State.record_keeps
    | apply Keeps.foldl
    | apply Keeps.foldl_snd
    | dsimp only
    | split
    | (refine Keeps.of_some (by assumption) ?_)
    | (refine Keeps.of_snd (by assumption) ?_)
    | (refine Keeps.of_snd_snd (by assumption) ?_)
    | (intro _ _ _; beta_reduce)
    | (fail_if_no_progress apply Keeps.other)
    | intro _

theorem State.endLease_keeps {r_ : State} (s : State) (l : Lease) (new : Nat) (cause : Nat) (h_ : Keeps r_ s) : Keeps r_ (State.endLease s l new cause) := by
  unfold State.endLease
  repeat' with_reducible first
    | assumption
    | exact Keeps.refl _
    | apply State.dropPending_keeps
    | apply State.leaseChanged_keeps
    | apply State.leaseRecord_keeps
    | apply Keeps.foldl
    | apply Keeps.foldl_snd
    | dsimp only
    | split
    | (refine Keeps.of_some (by assumption) ?_)
    | (refine Keeps.of_snd (by assumption) ?_)
    | (refine Keeps.of_snd_snd (by assumption) ?_)
    | (intro _ _ _; beta_reduce)
    | (fail_if_no_progress apply Keeps.other)
    | intro _

theorem State.mergeLease_keeps {r_ : State} (s : State) (l : Lease) (h_ : Keeps r_ s) : Keeps r_ (State.mergeLease s l) := by
  unfold State.mergeLease
  repeat' with_reducible first
    | assumption
    | exact Keeps.refl _
    | apply State.endLease_keeps
    | apply Keeps.foldl
    | apply Keeps.foldl_snd
    | dsimp only
    | split
    | (refine Keeps.of_some (by assumption) ?_)
    | (refine Keeps.of_snd (by assumption) ?_)
    | (refine Keeps.of_snd_snd (by assumption) ?_)
    | (intro _ _ _; beta_reduce)
    | (fail_if_no_progress apply Keeps.other)
    | intro _

theorem State.takeLease_keeps {r_ : State} (s : State) (a : Agent) (u : Nat) (h_ : Keeps r_ s) : Keeps r_ (State.takeLease s a u) := by
  unfold State.takeLease
  extract_lets +onlyGivenNames s1_0
  have h_s1_0 : Keeps r_ s1_0 := by
    unfold s1_0
    repeat' with_reducible first
      | assumption
      | exact Keeps.refl _
      | apply State.mergeLease_keeps
      | apply Keeps.foldl
      | apply Keeps.foldl_snd
      | dsimp only
      | split
      | (refine Keeps.of_some (by assumption) ?_)
      | (refine Keeps.of_snd (by assumption) ?_)
      | (refine Keeps.of_snd_snd (by assumption) ?_)
      | (intro _ _ _; beta_reduce)
      | (fail_if_no_progress apply Keeps.other)
      | intro _
  clear_value s1_0
  repeat' with_reducible first
    | assumption
    | exact Keeps.refl _
    | apply State.mergeLease_keeps
    | apply Keeps.foldl
    | apply Keeps.foldl_snd
    | dsimp only
    | split
    | (refine Keeps.of_some (by assumption) ?_)
    | (refine Keeps.of_snd (by assumption) ?_)
    | (refine Keeps.of_snd_snd (by assumption) ?_)
    | (intro _ _ _; beta_reduce)
    | (fail_if_no_progress apply Keeps.other)
    | intro _

theorem State.wrote_keeps {r_ : State} (s : State) (a : Agent) (u : Nat) (h_ : Keeps r_ s) : Keeps r_ (State.wrote s a u) := by
  unfold State.wrote
  repeat' with_reducible first
    | assumption
    | exact Keeps.refl _
    | apply State.renew_keeps
    | apply State.leaseRecord_keeps
    | apply State.takeLease_keeps
    | apply Keeps.foldl
    | apply Keeps.foldl_snd
    | dsimp only
    | split
    | (refine Keeps.of_some (by assumption) ?_)
    | (refine Keeps.of_snd (by assumption) ?_)
    | (refine Keeps.of_snd_snd (by assumption) ?_)
    | (intro _ _ _; beta_reduce)
    | (fail_if_no_progress apply Keeps.other)
    | intro _

theorem State.claim_keeps {r_ : State} (s : State) (a : Agent) (u : Nat) (h_ : Keeps r_ s) : Keeps r_ (State.claim s a u).2 := by
  unfold State.claim
  extract_lets +onlyGivenNames cs_0
  try clear_value cs_0
  repeat' with_reducible first
    | assumption
    | exact Keeps.refl _
    | apply State.renew_keeps
    | apply State.leaseRecord_keeps
    | apply State.endLease_keeps
    | apply State.takeLease_keeps
    | apply Keeps.foldl
    | apply Keeps.foldl_snd
    | dsimp only
    | split
    | (refine Keeps.of_some (by assumption) ?_)
    | (refine Keeps.of_snd (by assumption) ?_)
    | (refine Keeps.of_snd_snd (by assumption) ?_)
    | (intro _ _ _; beta_reduce)
    | (fail_if_no_progress apply Keeps.other)
    | intro _

theorem State.leaseRenew_keeps {r_ : State} (s : State) (a : Agent) (u : Nat) (h_ : Keeps r_ s) : Keeps r_ (State.leaseRenew s a u).2 := by
  unfold State.leaseRenew
  repeat' with_reducible first
    | assumption
    | exact Keeps.refl _
    | apply State.renew_keeps
    | apply Keeps.foldl
    | apply Keeps.foldl_snd
    | dsimp only
    | split
    | (refine Keeps.of_some (by assumption) ?_)
    | (refine Keeps.of_snd (by assumption) ?_)
    | (refine Keeps.of_snd_snd (by assumption) ?_)
    | (intro _ _ _; beta_reduce)
    | (fail_if_no_progress apply Keeps.other)
    | intro _

theorem State.leaseRelease_keeps {r_ : State} (s : State) (a : Agent) (u : Nat) (h_ : Keeps r_ s) : Keeps r_ (State.leaseRelease s a u).2 := by
  unfold State.leaseRelease
  repeat' with_reducible first
    | assumption
    | exact Keeps.refl _
    | apply State.endLease_keeps
    | apply Keeps.foldl
    | apply Keeps.foldl_snd
    | dsimp only
    | split
    | (refine Keeps.of_some (by assumption) ?_)
    | (refine Keeps.of_snd (by assumption) ?_)
    | (refine Keeps.of_snd_snd (by assumption) ?_)
    | (intro _ _ _; beta_reduce)
    | (fail_if_no_progress apply Keeps.other)
    | intro _

theorem State.leaseExpire_keeps {r_ : State} (s : State) (l : Lease) (h_ : Keeps r_ s) : Keeps r_ (State.leaseExpire s l) := by
  unfold State.leaseExpire
  repeat' with_reducible first
    | assumption
    | exact Keeps.refl _
    | apply State.endLease_keeps
    | apply Keeps.foldl
    | apply Keeps.foldl_snd
    | dsimp only
    | split
    | (refine Keeps.of_some (by assumption) ?_)
    | (refine Keeps.of_snd (by assumption) ?_)
    | (refine Keeps.of_snd_snd (by assumption) ?_)
    | (intro _ _ _; beta_reduce)
    | (fail_if_no_progress apply Keeps.other)
    | intro _

theorem State.leaseStep_keeps {r_ : State} (s : State) (h_ : Keeps r_ s) : Keeps r_ (State.leaseStep s) := by
  unfold State.leaseStep
  extract_lets +onlyGivenNames s1_0
  have h_s1_0 : Keeps r_ s1_0 := by
    unfold s1_0
    repeat' with_reducible first
      | assumption
      | exact Keeps.refl _
      | apply State.leaseExpire_keeps
      | apply Keeps.foldl
      | apply Keeps.foldl_snd
      | dsimp only
      | split
      | (refine Keeps.of_some (by assumption) ?_)
      | (refine Keeps.of_snd (by assumption) ?_)
      | (refine Keeps.of_snd_snd (by assumption) ?_)
      | (intro _ _ _; beta_reduce)
      | (fail_if_no_progress apply Keeps.other)
      | intro _
  clear_value s1_0
  repeat' with_reducible first
    | assumption
    | exact Keeps.refl _
    | apply State.leaseExpire_keeps
    | apply Keeps.foldl
    | apply Keeps.foldl_snd
    | dsimp only
    | split
    | (refine Keeps.of_some (by assumption) ?_)
    | (refine Keeps.of_snd (by assumption) ?_)
    | (refine Keeps.of_snd_snd (by assumption) ?_)
    | (intro _ _ _; beta_reduce)
    | (fail_if_no_progress apply Keeps.other)
    | intro _

theorem State.ran_keeps {r_ : State} (s : State) (u : Nat) (i : Nat) (c : Abort) (h_ : Keeps r_ s) : Keeps r_ (State.ran s u i c) := by
  unfold State.ran
  repeat' with_reducible first
    | assumption
    | exact Keeps.refl _
    | apply State.wr_keeps
    | apply Keeps.foldl
    | apply Keeps.foldl_snd
    | dsimp only
    | split
    | (refine Keeps.of_some (by assumption) ?_)
    | (refine Keeps.of_snd (by assumption) ?_)
    | (refine Keeps.of_snd_snd (by assumption) ?_)
    | (intro _ _ _; beta_reduce)
    | (fail_if_no_progress apply Keeps.other)
    | intro _

theorem State.refusedAt_keeps {r_ : State} (s : State) (u : Nat) (c : Abort) (h_ : Keeps r_ s) : Keeps r_ (State.refusedAt s u c) := by
  unfold State.refusedAt
  repeat' with_reducible first
    | assumption
    | exact Keeps.refl _
    | apply State.latch_keeps
    | apply Keeps.foldl
    | apply Keeps.foldl_snd
    | dsimp only
    | split
    | (refine Keeps.of_some (by assumption) ?_)
    | (refine Keeps.of_snd (by assumption) ?_)
    | (refine Keeps.of_snd_snd (by assumption) ?_)
    | (intro _ _ _; beta_reduce)
    | (fail_if_no_progress apply Keeps.other)
    | intro _

theorem State.unitResult_keeps {r_ : State} (s : State) (u : Nat) (c : Abort) (unit : Nat) (idx : Nat) (sub : Nat) (h_ : Keeps r_ s) : Keeps r_ (State.unitResult s u c unit idx sub) := by
  unfold State.unitResult
  repeat' with_reducible first
    | assumption
    | exact Keeps.refl _
    | apply State.wr_keeps
    | apply Keeps.foldl
    | apply Keeps.foldl_snd
    | dsimp only
    | split
    | (refine Keeps.of_some (by assumption) ?_)
    | (refine Keeps.of_snd (by assumption) ?_)
    | (refine Keeps.of_snd_snd (by assumption) ?_)
    | (intro _ _ _; beta_reduce)
    | (fail_if_no_progress apply Keeps.other)
    | intro _

theorem State.groupEnd_keeps {r_ : State} (s : State) (g : GroupCmd) (h_ : Keeps r_ s) : Keeps r_ (State.groupEnd s g) := by
  unfold State.groupEnd
  extract_lets +onlyGivenNames c_0 s1_1
  try clear_value c_0
  have h_s1_1 : Keeps r_ s1_1 := by
    unfold s1_1
    repeat' with_reducible first
      | assumption
      | exact Keeps.refl _
      | apply State.finish_keeps
      | apply State.ran_keeps
      | apply State.unitResult_keeps
      | apply Keeps.foldl
      | apply Keeps.foldl_snd
      | dsimp only
      | split
      | (refine Keeps.of_some (by assumption) ?_)
      | (refine Keeps.of_snd (by assumption) ?_)
      | (refine Keeps.of_snd_snd (by assumption) ?_)
      | (intro _ _ _; beta_reduce)
      | (fail_if_no_progress apply Keeps.other)
      | intro _
  clear_value s1_1
  repeat' with_reducible first
    | assumption
    | exact Keeps.refl _
    | apply State.finish_keeps
    | apply State.ran_keeps
    | apply State.unitResult_keeps
    | apply Keeps.foldl
    | apply Keeps.foldl_snd
    | dsimp only
    | split
    | (refine Keeps.of_some (by assumption) ?_)
    | (refine Keeps.of_snd (by assumption) ?_)
    | (refine Keeps.of_snd_snd (by assumption) ?_)
    | (intro _ _ _; beta_reduce)
    | (fail_if_no_progress apply Keeps.other)
    | intro _

theorem State.groupChild_keeps {r_ : State} (s : State) (g : GroupCmd) (child : Nat) (c : Abort) (data : List Octet) (h_ : Keeps r_ s) : Keeps r_ (State.groupChild s g child c data) := by
  unfold State.groupChild
  extract_lets +onlyGivenNames f_0 h_1 rest_2
  try clear_value f_0
  try clear_value h_1
  try clear_value rest_2
  repeat' with_reducible first
    | assumption
    | exact Keeps.refl _
    | apply State.groupEnd_keeps
    | apply Keeps.foldl
    | apply Keeps.foldl_snd
    | dsimp only
    | split
    | (refine Keeps.of_some (by assumption) ?_)
    | (refine Keeps.of_snd (by assumption) ?_)
    | (refine Keeps.of_snd_snd (by assumption) ?_)
    | (intro _ _ _; beta_reduce)
    | (fail_if_no_progress apply Keeps.other)
    | intro _

theorem State.claimTold_keeps {r_ : State} (s : State) (c : Claim) (code : Abort) (h_ : Keeps r_ s) : Keeps r_ (State.claimTold s c code) := by
  unfold State.claimTold
  extract_lets +onlyGivenNames s1_0 d_1
  try clear_value d_1
  have h_s1_0 : Keeps r_ s1_0 := by
    unfold s1_0
    repeat' with_reducible first
      | assumption
      | exact Keeps.refl _
      | apply State.finish_keeps
      | apply State.ran_keeps
      | apply State.refusedAt_keeps
      | apply State.groupChild_keeps
      | apply Keeps.foldl
      | apply Keeps.foldl_snd
      | dsimp only
      | split
      | (refine Keeps.of_some (by assumption) ?_)
      | (refine Keeps.of_snd (by assumption) ?_)
      | (refine Keeps.of_snd_snd (by assumption) ?_)
      | (intro _ _ _; beta_reduce)
      | (fail_if_no_progress apply Keeps.other)
      | intro _
  clear_value s1_0
  repeat' with_reducible first
    | assumption
    | exact Keeps.refl _
    | apply State.finish_keeps
    | apply State.ran_keeps
    | apply State.refusedAt_keeps
    | apply State.groupChild_keeps
    | apply Keeps.foldl
    | apply Keeps.foldl_snd
    | dsimp only
    | split
    | (refine Keeps.of_some (by assumption) ?_)
    | (refine Keeps.of_snd (by assumption) ?_)
    | (refine Keeps.of_snd_snd (by assumption) ?_)
    | (intro _ _ _; beta_reduce)
    | (fail_if_no_progress apply Keeps.other)
    | intro _

theorem State.decideClaims_keeps {r_ : State} (s : State) (l g : List Claim) (h_ : Keeps r_ s) : Keeps r_ (State.decideClaims s l g) := by
  induction l generalizing s g with
  | nil => exact h_
  | cons x_ t_ ih =>
    unfold State.decideClaims
    repeat' with_reducible first
      | assumption
      | exact Keeps.refl _
      | apply ih
      | apply State.claim_keeps
      | apply State.claimTold_keeps
      | apply Keeps.foldl
      | apply Keeps.foldl_snd
      | dsimp only
      | split
      | (refine Keeps.of_some (by assumption) ?_)
      | (refine Keeps.of_snd (by assumption) ?_)
      | (refine Keeps.of_snd_snd (by assumption) ?_)
      | (intro _ _ _; beta_reduce)
      | (fail_if_no_progress apply Keeps.other)
      | intro _

theorem State.claimStep_keeps {r_ : State} (s : State) (h_ : Keeps r_ s) : Keeps r_ (State.claimStep s) := by
  unfold State.claimStep
  repeat' with_reducible first
    | assumption
    | exact Keeps.refl _
    | apply State.decideClaims_keeps
    | apply Keeps.foldl
    | apply Keeps.foldl_snd
    | dsimp only
    | split
    | (refine Keeps.of_some (by assumption) ?_)
    | (refine Keeps.of_snd (by assumption) ?_)
    | (refine Keeps.of_snd_snd (by assumption) ?_)
    | (intro _ _ _; beta_reduce)
    | (fail_if_no_progress apply Keeps.other)
    | intro _

theorem execLeaseClaimDecide_keeps {r_ : State} (s : State) (h_ : Keeps r_ s) : KeepsNext r_ (execLeaseClaimDecide s) := by
  unfold execLeaseClaimDecide
  repeat' with_reducible first
    | assumption
    | exact Keeps.refl _
    | apply KeepsNext.next
    | apply KeepsNext.refused
    | apply gathered_keeps
    | apply State.claimStep_keeps
    | apply Keeps.foldl
    | apply Keeps.foldl_snd
    | dsimp only
    | split
    | (refine Keeps.of_some (by assumption) ?_)
    | (refine Keeps.of_snd (by assumption) ?_)
    | (refine Keeps.of_snd_snd (by assumption) ?_)
    | (intro _ _ _; beta_reduce)
    | (fail_if_no_progress apply Keeps.other)
    | intro _

theorem execLeaseExpiry_keeps {r_ : State} (unit : Nat) (s : State) (h_ : Keeps r_ s) : KeepsNext r_ (execLeaseExpiry unit s) := by
  unfold execLeaseExpiry
  repeat' with_reducible first
    | assumption
    | exact Keeps.refl _
    | apply KeepsNext.next
    | apply KeepsNext.refused
    | apply gathered_keeps
    | apply State.leaseExpire_keeps
    | apply Keeps.foldl
    | apply Keeps.foldl_snd
    | dsimp only
    | split
    | (refine Keeps.of_some (by assumption) ?_)
    | (refine Keeps.of_snd (by assumption) ?_)
    | (refine Keeps.of_snd_snd (by assumption) ?_)
    | (intro _ _ _; beta_reduce)
    | (fail_if_no_progress apply Keeps.other)
    | intro _

end Sys2Proof.Machine
end

