-- ==== Sys2Proof/Laws/KeepsCommit.lean ====
section
/-! SUPPORT. What the operations of Commit.lean keep (Keeps.lean). -/
set_option linter.unusedTactic false
set_option linter.unreachableTactic false
namespace Sys2Proof.Machine

theorem State.applyWrite_keeps {r_ : State} (s : State) (w : StagedWrite) (h_ : Keeps r_ s) : Keeps r_ (State.applyWrite s w) := by
  unfold State.applyWrite
  repeat' with_reducible first
    | assumption
    | exact Keeps.refl _
    | apply State.wr_keeps
    | apply State.setEnt_keeps
    | apply Keeps.foldl
    | apply Keeps.foldl_snd
    | dsimp only
    | split
    | (refine Keeps.of_some (by assumption) ?_)
    | (refine Keeps.of_snd (by assumption) ?_)
    | (refine Keeps.of_snd_snd (by assumption) ?_)
    | (intro _ _ _; beta_reduce)
    | (fail_if_no_progress apply Keeps.other)
    | intro _

theorem State.applyWrites_keeps {r_ : State} (s : State) (ws : List StagedWrite) (h_ : Keeps r_ s) : Keeps r_ (State.applyWrites s ws) := by
  unfold State.applyWrites
  repeat' with_reducible first
    | assumption
    | exact Keeps.refl _
    | apply State.applyWrite_keeps
    | apply Keeps.foldl
    | apply Keeps.foldl_snd
    | dsimp only
    | split
    | (refine Keeps.of_some (by assumption) ?_)
    | (refine Keeps.of_snd (by assumption) ?_)
    | (refine Keeps.of_snd_snd (by assumption) ?_)
    | (intro _ _ _; beta_reduce)
    | (fail_if_no_progress apply Keeps.other)
    | intro _

theorem State.stage_keeps {r_ : State} (s : State) (w : StagedWrite) (h_ : Keeps r_ s) : Keeps r_ (State.stage s w) := by
  unfold State.stage
  repeat' with_reducible first
    | assumption
    | exact Keeps.refl _
    | apply Keeps.foldl
    | apply Keeps.foldl_snd
    | dsimp only
    | split
    | (refine Keeps.of_some (by assumption) ?_)
    | (refine Keeps.of_snd (by assumption) ?_)
    | (refine Keeps.of_snd_snd (by assumption) ?_)
    | (intro _ _ _; beta_reduce)
    | (fail_if_no_progress apply Keeps.other)
    | intro _

theorem State.commit_keeps {r_ : State} (s : State) (u : Nat) (a : Agent) (h_ : Keeps r_ s) : Keeps r_ (State.commit s u a).2 := by
  unfold State.commit
  repeat' with_reducible first
    | assumption
    | exact Keeps.refl _
    | apply State.wr_keeps
    | apply State.busyNow_keeps
    | apply Keeps.foldl
    | apply Keeps.foldl_snd
    | dsimp only
    | split
    | (refine Keeps.of_some (by assumption) ?_)
    | (refine Keeps.of_snd (by assumption) ?_)
    | (refine Keeps.of_snd_snd (by assumption) ?_)
    | (intro _ _ _; beta_reduce)
    | (fail_if_no_progress apply Keeps.other)
    | intro _

theorem State.discardSets_keeps {r_ : State} (s : State) (u : Nat) (h_ : Keeps r_ s) : Keeps r_ (State.discardSets s u).2 := by
  unfold State.discardSets
  repeat' with_reducible first
    | assumption
    | exact Keeps.refl _
    | apply Keeps.foldl
    | apply Keeps.foldl_snd
    | dsimp only
    | split
    | (refine Keeps.of_some (by assumption) ?_)
    | (refine Keeps.of_snd (by assumption) ?_)
    | (refine Keeps.of_snd_snd (by assumption) ?_)
    | (intro _ _ _; beta_reduce)
    | (fail_if_no_progress apply Keeps.other)
    | intro _

theorem State.commitRefused_keeps {r_ : State} (s : State) (c : CommitOp) (code : Abort) (t : StagedTarget) (h_ : Keeps r_ s) : Keeps r_ (State.commitRefused s c code t) := by
  unfold State.commitRefused
  extract_lets +onlyGivenNames s1_0 p_1
  try clear_value p_1
  have h_s1_0 : Keeps r_ s1_0 := by
    unfold s1_0
    repeat' with_reducible first
      | assumption
      | exact Keeps.refl _
      | apply State.wr_keeps
      | apply State.latch_keeps
      | apply State.place_keeps
      | apply State.finish_keeps
      | apply State.ran_keeps
      | apply State.unitResult_keeps
      | apply Keeps.foldl
      | apply Keeps.foldl_snd
      | dsimp only
      | split
      | (refine Keeps.of_some (by assumption) ?_)
      | (refine Keeps.of_snd (by assumption) ?_)
      | (refine Keeps.of_snd_snd (by assumption) ?_)
      | (intro _ _ _; beta_reduce)
      | (fail_if_no_progress apply Keeps.other)
      | intro _
  clear_value s1_0
  repeat' with_reducible first
    | assumption
    | exact Keeps.refl _
    | apply State.wr_keeps
    | apply State.latch_keeps
    | apply State.place_keeps
    | apply State.finish_keeps
    | apply State.ran_keeps
    | apply State.unitResult_keeps
    | apply Keeps.foldl
    | apply Keeps.foldl_snd
    | dsimp only
    | split
    | (refine Keeps.of_some (by assumption) ?_)
    | (refine Keeps.of_snd (by assumption) ?_)
    | (refine Keeps.of_snd_snd (by assumption) ?_)
    | (intro _ _ _; beta_reduce)
    | (fail_if_no_progress apply Keeps.other)
    | intro _

theorem execCommitCheckDone_keeps {r_ : State} (unit : Nat) (s : State) (h_ : Keeps r_ s) : KeepsNext r_ (execCommitCheckDone unit s) := by
  unfold execCommitCheckDone
  repeat' with_reducible first
    | assumption
    | exact Keeps.refl _
    | apply KeepsNext.next
    | apply KeepsNext.refused
    | apply State.wr_keeps
    | apply gathered_keeps
    | apply State.applyWrites_keeps
    | apply State.commitRefused_keeps
    | apply Keeps.foldl
    | apply Keeps.foldl_snd
    | dsimp only
    | split
    | (refine Keeps.of_some (by assumption) ?_)
    | (refine Keeps.of_snd (by assumption) ?_)
    | (refine Keeps.of_snd_snd (by assumption) ?_)
    | (intro _ _ _; beta_reduce)
    | (fail_if_no_progress apply Keeps.other)
    | intro _

theorem State.fifoTurn_keeps {r_ : State} (s : State) (h_ : Keeps r_ s) : Keeps r_ (State.fifoTurn s) := by
  unfold State.fifoTurn
  extract_lets +onlyGivenNames s1_0
  have h_s1_0 : Keeps r_ s1_0 := by
    unfold s1_0
    repeat' with_reducible first
      | assumption
      | exact Keeps.refl _
      | apply State.fifoTo_keeps
      | apply Keeps.foldl
      | apply Keeps.foldl_snd
      | dsimp only
      | split
      | (refine Keeps.of_some (by assumption) ?_)
      | (refine Keeps.of_snd (by assumption) ?_)
      | (refine Keeps.of_snd_snd (by assumption) ?_)
      | (intro _ _ _; beta_reduce)
      | (fail_if_no_progress apply Keeps.other)
      | intro _
  clear_value s1_0
  repeat' with_reducible first
    | assumption
    | exact Keeps.refl _
    | apply State.fifoTo_keeps
    | apply Keeps.foldl
    | apply Keeps.foldl_snd
    | dsimp only
    | split
    | (refine Keeps.of_some (by assumption) ?_)
    | (refine Keeps.of_snd (by assumption) ?_)
    | (refine Keeps.of_snd_snd (by assumption) ?_)
    | (intro _ _ _; beta_reduce)
    | (fail_if_no_progress apply Keeps.other)
    | intro _

theorem State.rebuild_keeps {r_ : State} (s : State) (h_ : Keeps r_ s) : Keeps r_ (State.rebuild s) := by
  unfold State.rebuild
  repeat' with_reducible first
    | assumption
    | exact Keeps.refl _
    | apply State.setEnt_keeps
    | apply Keeps.foldl
    | apply Keeps.foldl_snd
    | dsimp only
    | split
    | (refine Keeps.of_some (by assumption) ?_)
    | (refine Keeps.of_snd (by assumption) ?_)
    | (refine Keeps.of_snd_snd (by assumption) ?_)
    | (intro _ _ _; beta_reduce)
    | (fail_if_no_progress apply Keeps.other)
    | intro _

theorem State.accountsCommit_keeps {r_ : State} (old : State) (s : State) (ch : Nat) (h_ : Keeps r_ s) : Keeps r_ (State.accountsCommit old s ch) := by
  unfold State.accountsCommit
  extract_lets +onlyGivenNames u_0
  try clear_value u_0
  repeat' with_reducible first
    | assumption
    | exact Keeps.refl _
    | apply State.pauseModeChange_keeps
    | apply State.marksChange_keeps
    | apply Keeps.foldl
    | apply Keeps.foldl_snd
    | dsimp only
    | split
    | (refine Keeps.of_some (by assumption) ?_)
    | (refine Keeps.of_snd (by assumption) ?_)
    | (refine Keeps.of_snd_snd (by assumption) ?_)
    | (intro _ _ _; beta_reduce)
    | (fail_if_no_progress apply Keeps.other)
    | intro _

theorem State.applySets_keeps {r_ : State} (s : State) (ws : List StagedWrite) (h_ : Keeps r_ s) : Keeps r_ (State.applySets s ws) := by
  unfold State.applySets
  repeat' with_reducible first
    | assumption
    | exact Keeps.refl _
    | apply State.setReg_keeps
    | apply State.park_keeps
    | apply State.preemptDown_keeps
    | apply State.fabricEnable_keeps
    | apply State.gateCommit_keeps
    | apply State.channelDown_keeps
    | apply State.channelUp_keeps
    | apply State.laneRestart_keeps
    | apply State.applyWrites_keeps
    | apply State.fifoTurn_keeps
    | apply State.rebuild_keeps
    | apply State.accountsCommit_keeps
    | apply Keeps.foldl
    | apply Keeps.foldl_snd
    | dsimp only
    | split
    | (refine Keeps.of_some (by assumption) ?_)
    | (refine Keeps.of_snd (by assumption) ?_)
    | (refine Keeps.of_snd_snd (by assumption) ?_)
    | (intro _ _ _; beta_reduce)
    | (fail_if_no_progress apply Keeps.other)
    | intro _

theorem State.commitEnd_keeps {r_ : State} (s : State) (c : CommitOp) (h_ : Keeps r_ s) : Keeps r_ (State.commitEnd s c) := by
  unfold State.commitEnd
  repeat' with_reducible first
    | assumption
    | exact Keeps.refl _
    | apply State.wr_keeps
    | apply State.finish_keeps
    | apply State.ran_keeps
    | apply State.unitResult_keeps
    | apply Keeps.foldl
    | apply Keeps.foldl_snd
    | dsimp only
    | split
    | (refine Keeps.of_some (by assumption) ?_)
    | (refine Keeps.of_snd (by assumption) ?_)
    | (refine Keeps.of_snd_snd (by assumption) ?_)
    | (intro _ _ _; beta_reduce)
    | (fail_if_no_progress apply Keeps.other)
    | intro _

theorem State.commitStep_keeps {r_ : State} (s : State) (h_ : Keeps r_ s) : Keeps r_ (State.commitStep s) := by
  unfold State.commitStep
  extract_lets +onlyGivenNames done_0
  try clear_value done_0
  repeat' with_reducible first
    | assumption
    | exact Keeps.refl _
    | apply State.applySets_keeps
    | apply State.commitEnd_keeps
    | apply Keeps.foldl
    | apply Keeps.foldl_snd
    | dsimp only
    | split
    | (refine Keeps.of_some (by assumption) ?_)
    | (refine Keeps.of_snd (by assumption) ?_)
    | (refine Keeps.of_snd_snd (by assumption) ?_)
    | (intro _ _ _; beta_reduce)
    | (fail_if_no_progress apply Keeps.other)
    | intro _

theorem execCommitApply_keeps {r_ : State} (s : State) (h_ : Keeps r_ s) : KeepsNext r_ (execCommitApply s) := by
  unfold execCommitApply
  repeat' with_reducible first
    | assumption
    | exact Keeps.refl _
    | apply KeepsNext.next
    | apply KeepsNext.refused
    | apply gathered_keeps
    | apply State.commitStep_keeps
    | apply Keeps.foldl
    | apply Keeps.foldl_snd
    | dsimp only
    | split
    | (refine Keeps.of_some (by assumption) ?_)
    | (refine Keeps.of_snd (by assumption) ?_)
    | (refine Keeps.of_snd_snd (by assumption) ?_)
    | (intro _ _ _; beta_reduce)
    | (fail_if_no_progress apply Keeps.other)
    | intro _

end Sys2Proof.Machine
end

