-- ==== Sys2Proof/Laws/KeepsPower.lean ====
section
/-! SUPPORT. What the operations of Power.lean keep (Keeps.lean). -/
set_option linter.unusedTactic false
set_option linter.unreachableTactic false
namespace Sys2Proof.Machine

theorem State.setMode_keeps {r_ : State} (s : State) (m : Nat) (h_ : Keeps r_ s) : Keeps r_ (State.setMode s m) := by
  unfold State.setMode
  repeat' with_reducible first
    | assumption
    | exact Keeps.refl _
    | apply State.wr_keeps
    | apply Keeps.foldl
    | apply Keeps.foldl_snd
    | dsimp only
    | split
    | (refine Keeps.of_some (by assumption) ?_)
    | (refine Keeps.of_snd (by assumption) ?_)
    | (refine Keeps.of_snd_snd (by assumption) ?_)
    | (intro _ _ _; beta_reduce)
    | (fail_if_no_progress apply Keeps.other)
    | intro _

theorem State.setPhase_keeps {r_ : State} (s : State) (p : Nat) (h_ : Keeps r_ s) : Keeps r_ (State.setPhase s p) := by
  unfold State.setPhase
  repeat' with_reducible first
    | assumption
    | exact Keeps.refl _
    | apply State.wr_keeps
    | apply Keeps.foldl
    | apply Keeps.foldl_snd
    | dsimp only
    | split
    | (refine Keeps.of_some (by assumption) ?_)
    | (refine Keeps.of_snd (by assumption) ?_)
    | (refine Keeps.of_snd_snd (by assumption) ?_)
    | (intro _ _ _; beta_reduce)
    | (fail_if_no_progress apply Keeps.other)
    | intro _

theorem State.setSlot_keeps {r_ : State} (s : State) (m : Nat) (h_ : Keeps r_ s) : Keeps r_ (State.setSlot s m) := by
  unfold State.setSlot
  repeat' with_reducible first
    | assumption
    | exact Keeps.refl _
    | apply State.wr_keeps
    | apply Keeps.foldl
    | apply Keeps.foldl_snd
    | dsimp only
    | split
    | (refine Keeps.of_some (by assumption) ?_)
    | (refine Keeps.of_snd (by assumption) ?_)
    | (refine Keeps.of_snd_snd (by assumption) ?_)
    | (intro _ _ _; beta_reduce)
    | (fail_if_no_progress apply Keeps.other)
    | intro _

theorem State.lastResult_keeps {r_ : State} (s : State) (code : Nat) (target : Nat) (unit : Nat) (reason : Nat) (h_ : Keeps r_ s) : Keeps r_ (State.lastResult s code target unit reason) := by
  unfold State.lastResult
  repeat' with_reducible first
    | assumption
    | exact Keeps.refl _
    | apply State.wr_keeps
    | apply Keeps.foldl
    | apply Keeps.foldl_snd
    | dsimp only
    | split
    | (refine Keeps.of_some (by assumption) ?_)
    | (refine Keeps.of_snd (by assumption) ?_)
    | (refine Keeps.of_snd_snd (by assumption) ?_)
    | (intro _ _ _; beta_reduce)
    | (fail_if_no_progress apply Keeps.other)
    | intro _

theorem State.powerResult_keeps {r_ : State} (s : State) (code : Nat) (target : Nat) (unit : Nat) (reason : Nat) (h_ : Keeps r_ s) : Keeps r_ (State.powerResult s code target unit reason) := by
  unfold State.powerResult
  repeat' with_reducible first
    | assumption
    | exact Keeps.refl _
    | apply State.raise_keeps
    | apply State.lastResult_keeps
    | apply Keeps.foldl
    | apply Keeps.foldl_snd
    | dsimp only
    | split
    | (refine Keeps.of_some (by assumption) ?_)
    | (refine Keeps.of_snd (by assumption) ?_)
    | (refine Keeps.of_snd_snd (by assumption) ?_)
    | (intro _ _ _; beta_reduce)
    | (fail_if_no_progress apply Keeps.other)
    | intro _

theorem State.modeRecord_keeps {r_ : State} (s : State) (old : Nat) (new : Nat) (cause : Nat) (h_ : Keeps r_ s) : Keeps r_ (State.modeRecord s old new cause) := by
  unfold State.modeRecord
  repeat' with_reducible first
    | assumption
    | exact Keeps.refl _
    | apply State.record_keeps
    | apply Keeps.foldl
    | apply Keeps.foldl_snd
    | dsimp only
    | split
    | (refine Keeps.of_some (by assumption) ?_)
    | (refine Keeps.of_snd (by assumption) ?_)
    | (refine Keeps.of_snd_snd (by assumption) ?_)
    | (intro _ _ _; beta_reduce)
    | (fail_if_no_progress apply Keeps.other)
    | intro _

theorem State.airReturn_keeps {r_ : State} (s : State) (h_ : Keeps r_ s) : Keeps r_ (State.airReturn s) := by
  unfold State.airReturn
  repeat' with_reducible first
    | assumption
    | exact Keeps.refl _
    | apply Keeps.foldl
    | apply Keeps.foldl_snd
    | dsimp only
    | split
    | (refine Keeps.of_some (by assumption) ?_)
    | (refine Keeps.of_snd (by assumption) ?_)
    | (refine Keeps.of_snd_snd (by assumption) ?_)
    | (intro _ _ _; beta_reduce)
    | (fail_if_no_progress apply Keeps.other)
    | intro _

theorem State.ask_keeps {r_ : State} (s : State) (n : Nat) (h_ : Keeps r_ s) : Keeps r_ (State.ask s n) := by
  unfold State.ask
  extract_lets +onlyGivenNames s1_0
  have h_s1_0 : Keeps r_ s1_0 := by
    unfold s1_0
    repeat' with_reducible first
      | assumption
      | exact Keeps.refl _
      | apply State.setReg_keeps
      | apply State.startTimer_keeps
      | apply State.stopTimer_keeps
      | apply State.discardAhead_keeps
      | apply State.airReturn_keeps
      | apply Keeps.foldl
      | apply Keeps.foldl_snd
      | dsimp only
      | split
      | (refine Keeps.of_some (by assumption) ?_)
      | (refine Keeps.of_snd (by assumption) ?_)
      | (refine Keeps.of_snd_snd (by assumption) ?_)
      | (intro _ _ _; beta_reduce)
      | (fail_if_no_progress apply Keeps.other)
      | intro _
  clear_value s1_0
  repeat' with_reducible first
    | assumption
    | exact Keeps.refl _
    | apply State.setReg_keeps
    | apply State.startTimer_keeps
    | apply State.stopTimer_keeps
    | apply State.discardAhead_keeps
    | apply State.airReturn_keeps
    | apply Keeps.foldl
    | apply Keeps.foldl_snd
    | dsimp only
    | split
    | (refine Keeps.of_some (by assumption) ?_)
    | (refine Keeps.of_snd (by assumption) ?_)
    | (refine Keeps.of_snd_snd (by assumption) ?_)
    | (intro _ _ _; beta_reduce)
    | (fail_if_no_progress apply Keeps.other)
    | intro _

theorem State.startEntry_keeps {r_ : State} (s : State) (t : Nat) (h_ : Keeps r_ s) : Keeps r_ (State.startEntry s t) := by
  unfold State.startEntry
  repeat' with_reducible first
    | assumption
    | exact Keeps.refl _
    | apply State.setReg_keeps
    | apply State.setPhase_keeps
    | apply State.ask_keeps
    | apply Keeps.foldl
    | apply Keeps.foldl_snd
    | dsimp only
    | split
    | (refine Keeps.of_some (by assumption) ?_)
    | (refine Keeps.of_snd (by assumption) ?_)
    | (refine Keeps.of_snd_snd (by assumption) ?_)
    | (intro _ _ _; beta_reduce)
    | (fail_if_no_progress apply Keeps.other)
    | intro _

theorem State.rollback_keeps {r_ : State} (s : State) (h_ : Keeps r_ s) : Keeps r_ (State.rollback s) := by
  unfold State.rollback
  repeat' with_reducible first
    | assumption
    | exact Keeps.refl _
    | apply State.setReg_keeps
    | apply State.stopTimer_keeps
    | apply State.pump_keeps
    | apply State.setPhase_keeps
    | apply Keeps.foldl
    | apply Keeps.foldl_snd
    | dsimp only
    | split
    | (refine Keeps.of_some (by assumption) ?_)
    | (refine Keeps.of_snd (by assumption) ?_)
    | (refine Keeps.of_snd_snd (by assumption) ?_)
    | (intro _ _ _; beta_reduce)
    | (fail_if_no_progress apply Keeps.other)
    | intro _

theorem State.powerStart_keeps {r_ : State} (s : State) (t : Nat) (h_ : Keeps r_ s) : Keeps r_ (State.powerStart s t) := by
  unfold State.powerStart
  repeat' with_reducible first
    | assumption
    | exact Keeps.refl _
    | apply State.powerResult_keeps
    | apply State.startEntry_keeps
    | apply Keeps.foldl
    | apply Keeps.foldl_snd
    | dsimp only
    | split
    | (refine Keeps.of_some (by assumption) ?_)
    | (refine Keeps.of_snd (by assumption) ?_)
    | (refine Keeps.of_snd_snd (by assumption) ?_)
    | (intro _ _ _; beta_reduce)
    | (fail_if_no_progress apply Keeps.other)
    | intro _

theorem State.actPending_keeps {r_ : State} (s : State) (h_ : Keeps r_ s) : Keeps r_ (State.actPending s) := by
  unfold State.actPending
  repeat' with_reducible first
    | assumption
    | exact Keeps.refl _
    | apply State.setSlot_keeps
    | apply State.powerStart_keeps
    | apply Keeps.foldl
    | apply Keeps.foldl_snd
    | dsimp only
    | split
    | (refine Keeps.of_some (by assumption) ?_)
    | (refine Keeps.of_snd (by assumption) ?_)
    | (refine Keeps.of_snd_snd (by assumption) ?_)
    | (intro _ _ _; beta_reduce)
    | (fail_if_no_progress apply Keeps.other)
    | intro _

theorem State.entryRefused_keeps {r_ : State} (s : State) (reason : Nat) (h_ : Keeps r_ s) : Keeps r_ (State.entryRefused s reason) := by
  unfold State.entryRefused
  extract_lets +onlyGivenNames unit_0 t_1
  try clear_value unit_0
  try clear_value t_1
  repeat' with_reducible first
    | assumption
    | exact Keeps.refl _
    | apply State.bump_keeps
    | apply State.latch_keeps
    | apply State.record_keeps
    | apply State.powerResult_keeps
    | apply State.rollback_keeps
    | apply Keeps.foldl
    | apply Keeps.foldl_snd
    | dsimp only
    | split
    | (refine Keeps.of_some (by assumption) ?_)
    | (refine Keeps.of_snd (by assumption) ?_)
    | (refine Keeps.of_snd_snd (by assumption) ?_)
    | (intro _ _ _; beta_reduce)
    | (fail_if_no_progress apply Keeps.other)
    | intro _

theorem State.entryAborted_keeps {r_ : State} (s : State) (h_ : Keeps r_ s) : Keeps r_ (State.entryAborted s) := by
  unfold State.entryAborted
  extract_lets +onlyGivenNames unit_0 t_1 s1_2
  try clear_value unit_0
  try clear_value t_1
  have h_s1_2 : Keeps r_ s1_2 := by
    unfold s1_2
    repeat' with_reducible first
      | assumption
      | exact Keeps.refl _
      | apply State.setReg_keeps
      | apply State.bump_keeps
      | apply State.record_keeps
      | apply State.powerResult_keeps
      | apply State.rollback_keeps
      | apply State.actPending_keeps
      | apply Keeps.foldl
      | apply Keeps.foldl_snd
      | dsimp only
      | split
      | (refine Keeps.of_some (by assumption) ?_)
      | (refine Keeps.of_snd (by assumption) ?_)
      | (refine Keeps.of_snd_snd (by assumption) ?_)
      | (intro _ _ _; beta_reduce)
      | (fail_if_no_progress apply Keeps.other)
      | intro _
  clear_value s1_2
  repeat' with_reducible first
    | assumption
    | exact Keeps.refl _
    | apply State.setReg_keeps
    | apply State.bump_keeps
    | apply State.record_keeps
    | apply State.powerResult_keeps
    | apply State.rollback_keeps
    | apply State.actPending_keeps
    | apply Keeps.foldl
    | apply Keeps.foldl_snd
    | dsimp only
    | split
    | (refine Keeps.of_some (by assumption) ?_)
    | (refine Keeps.of_snd (by assumption) ?_)
    | (refine Keeps.of_snd_snd (by assumption) ?_)
    | (intro _ _ _; beta_reduce)
    | (fail_if_no_progress apply Keeps.other)
    | intro _

theorem State.standEffects_keeps {r_ : State} (s : State) (id : Nat) (h_ : Keeps r_ s) : Keeps r_ (State.standEffects s id) := by
  unfold State.standEffects
  repeat' with_reducible first
    | assumption
    | exact Keeps.refl _
    | apply State.setFrame_keeps
    | apply State.decide_keeps
    | apply State.fold_keeps
    | apply State.applyFrame_keeps
    | apply Keeps.foldl
    | apply Keeps.foldl_snd
    | dsimp only
    | split
    | (refine Keeps.of_some (by assumption) ?_)
    | (refine Keeps.of_snd (by assumption) ?_)
    | (refine Keeps.of_snd_snd (by assumption) ?_)
    | (intro _ _ _; beta_reduce)
    | (fail_if_no_progress apply Keeps.other)
    | intro _

theorem State.discardFrame_keeps {r_ : State} (s : State) (id : Nat) (h_ : Keeps r_ s) : Keeps r_ (State.discardFrame s id) := by
  unfold State.discardFrame
  repeat' with_reducible first
    | assumption
    | exact Keeps.refl _
    | apply State.tsCheck_keeps
    | apply State.releaseFrame_keeps
    | apply Keeps.foldl
    | apply Keeps.foldl_snd
    | dsimp only
    | split
    | (refine Keeps.of_some (by assumption) ?_)
    | (refine Keeps.of_snd (by assumption) ?_)
    | (refine Keeps.of_snd_snd (by assumption) ?_)
    | (intro _ _ _; beta_reduce)
    | (fail_if_no_progress apply Keeps.other)
    | intro _

theorem State.discardStored_keeps {r_ : State} (s : State) (h_ : Keeps r_ s) : Keeps r_ (State.discardStored s) := by
  unfold State.discardStored
  extract_lets +onlyGivenNames s1_0 s2_1 s3_2
  have h_s1_0 : Keeps r_ s1_0 := by
    unfold s1_0
    repeat' with_reducible first
      | assumption
      | exact Keeps.refl _
      | apply State.bump_keeps
      | apply State.keepBuffer_keeps
      | apply State.standEffects_keeps
      | apply State.discardFrame_keeps
      | apply Keeps.foldl
      | apply Keeps.foldl_snd
      | dsimp only
      | split
      | (refine Keeps.of_some (by assumption) ?_)
      | (refine Keeps.of_snd (by assumption) ?_)
      | (refine Keeps.of_snd_snd (by assumption) ?_)
      | (intro _ _ _; beta_reduce)
      | (fail_if_no_progress apply Keeps.other)
      | intro _
  clear_value s1_0
  have h_s2_1 : Keeps r_ s2_1 := by
    unfold s2_1
    repeat' with_reducible first
      | assumption
      | exact Keeps.refl _
      | apply State.bump_keeps
      | apply State.keepBuffer_keeps
      | apply State.standEffects_keeps
      | apply State.discardFrame_keeps
      | apply Keeps.foldl
      | apply Keeps.foldl_snd
      | dsimp only
      | split
      | (refine Keeps.of_some (by assumption) ?_)
      | (refine Keeps.of_snd (by assumption) ?_)
      | (refine Keeps.of_snd_snd (by assumption) ?_)
      | (intro _ _ _; beta_reduce)
      | (fail_if_no_progress apply Keeps.other)
      | intro _
  clear_value s2_1
  have h_s3_2 : Keeps r_ s3_2 := by
    unfold s3_2
    repeat' with_reducible first
      | assumption
      | exact Keeps.refl _
      | apply State.bump_keeps
      | apply State.keepBuffer_keeps
      | apply State.standEffects_keeps
      | apply State.discardFrame_keeps
      | apply Keeps.foldl
      | apply Keeps.foldl_snd
      | dsimp only
      | split
      | (refine Keeps.of_some (by assumption) ?_)
      | (refine Keeps.of_snd (by assumption) ?_)
      | (refine Keeps.of_snd_snd (by assumption) ?_)
      | (intro _ _ _; beta_reduce)
      | (fail_if_no_progress apply Keeps.other)
      | intro _
  clear_value s3_2
  repeat' with_reducible first
    | assumption
    | exact Keeps.refl _
    | apply State.bump_keeps
    | apply State.keepBuffer_keeps
    | apply State.standEffects_keeps
    | apply State.discardFrame_keeps
    | apply Keeps.foldl
    | apply Keeps.foldl_snd
    | dsimp only
    | split
    | (refine Keeps.of_some (by assumption) ?_)
    | (refine Keeps.of_snd (by assumption) ?_)
    | (refine Keeps.of_snd_snd (by assumption) ?_)
    | (intro _ _ _; beta_reduce)
    | (fail_if_no_progress apply Keeps.other)
    | intro _

theorem State.laneSleep_keeps {r_ : State} (s : State) (lane : Nat) (h_ : Keeps r_ s) : Keeps r_ (State.laneSleep s lane) := by
  unfold State.laneSleep
  extract_lets +onlyGivenNames s1_0
  have h_s1_0 : Keeps r_ s1_0 := by
    unfold s1_0
    repeat' with_reducible first
      | assumption
      | exact Keeps.refl _
      | apply State.wr_keeps
      | apply State.setReg_keeps
      | apply State.stopTimer_keeps
      | apply State.channelDown_keeps
      | apply Keeps.foldl
      | apply Keeps.foldl_snd
      | dsimp only
      | split
      | (refine Keeps.of_some (by assumption) ?_)
      | (refine Keeps.of_snd (by assumption) ?_)
      | (refine Keeps.of_snd_snd (by assumption) ?_)
      | (intro _ _ _; beta_reduce)
      | (fail_if_no_progress apply Keeps.other)
      | intro _
  clear_value s1_0
  repeat' with_reducible first
    | assumption
    | exact Keeps.refl _
    | apply State.wr_keeps
    | apply State.setReg_keeps
    | apply State.stopTimer_keeps
    | apply State.channelDown_keeps
    | apply Keeps.foldl
    | apply Keeps.foldl_snd
    | dsimp only
    | split
    | (refine Keeps.of_some (by assumption) ?_)
    | (refine Keeps.of_snd (by assumption) ?_)
    | (refine Keeps.of_snd_snd (by assumption) ?_)
    | (intro _ _ _; beta_reduce)
    | (fail_if_no_progress apply Keeps.other)
    | intro _

theorem State.lanesSleep_keeps {r_ : State} (s : State) (t : Nat) (h_ : Keeps r_ s) : Keeps r_ (State.lanesSleep s t) := by
  unfold State.lanesSleep
  repeat' with_reducible first
    | assumption
    | exact Keeps.refl _
    | apply State.laneSleep_keeps
    | apply Keeps.foldl
    | apply Keeps.foldl_snd
    | dsimp only
    | split
    | (refine Keeps.of_some (by assumption) ?_)
    | (refine Keeps.of_snd (by assumption) ?_)
    | (refine Keeps.of_snd_snd (by assumption) ?_)
    | (intro _ _ _; beta_reduce)
    | (fail_if_no_progress apply Keeps.other)
    | intro _

theorem State.fabricSleep_keeps {r_ : State} (s : State) (h_ : Keeps r_ s) : Keeps r_ (State.fabricSleep s) := by
  unfold State.fabricSleep
  extract_lets +onlyGivenNames s1_0
  have h_s1_0 : Keeps r_ s1_0 := by
    unfold s1_0
    repeat' with_reducible first
      | assumption
      | exact Keeps.refl _
      | apply State.becomeAlone_keeps
      | apply State.allNeighboursDown_keeps
      | apply Keeps.foldl
      | apply Keeps.foldl_snd
      | dsimp only
      | split
      | (refine Keeps.of_some (by assumption) ?_)
      | (refine Keeps.of_snd (by assumption) ?_)
      | (refine Keeps.of_snd_snd (by assumption) ?_)
      | (intro _ _ _; beta_reduce)
      | (fail_if_no_progress apply Keeps.other)
      | intro _
  clear_value s1_0
  repeat' with_reducible first
    | assumption
    | exact Keeps.refl _
    | apply State.becomeAlone_keeps
    | apply State.allNeighboursDown_keeps
    | apply Keeps.foldl
    | apply Keeps.foldl_snd
    | dsimp only
    | split
    | (refine Keeps.of_some (by assumption) ?_)
    | (refine Keeps.of_snd (by assumption) ?_)
    | (refine Keeps.of_snd_snd (by assumption) ?_)
    | (intro _ _ _; beta_reduce)
    | (fail_if_no_progress apply Keeps.other)
    | intro _

theorem State.holdsSleep_keeps {r_ : State} (s : State) (h_ : Keeps r_ s) : Keeps r_ (State.holdsSleep s) := by
  unfold State.holdsSleep
  repeat' with_reducible first
    | assumption
    | exact Keeps.refl _
    | apply State.holdoffOver_keeps
    | apply Keeps.foldl
    | apply Keeps.foldl_snd
    | dsimp only
    | split
    | (refine Keeps.of_some (by assumption) ?_)
    | (refine Keeps.of_snd (by assumption) ?_)
    | (refine Keeps.of_snd_snd (by assumption) ?_)
    | (intro _ _ _; beta_reduce)
    | (fail_if_no_progress apply Keeps.other)
    | intro _

theorem State.grantsHeld_keeps {r_ : State} (s : State) (h_ : Keeps r_ s) : Keeps r_ (State.grantsHeld s) := by
  unfold State.grantsHeld
  repeat' with_reducible first
    | assumption
    | exact Keeps.refl _
    | apply State.setReg_keeps
    | apply Keeps.foldl
    | apply Keeps.foldl_snd
    | dsimp only
    | split
    | (refine Keeps.of_some (by assumption) ?_)
    | (refine Keeps.of_snd (by assumption) ?_)
    | (refine Keeps.of_snd_snd (by assumption) ?_)
    | (intro _ _ _; beta_reduce)
    | (fail_if_no_progress apply Keeps.other)
    | intro _

theorem State.grantsFollow_keeps {r_ : State} (s : State) (h_ : Keeps r_ s) : Keeps r_ (State.grantsFollow s) := by
  unfold State.grantsFollow
  repeat' with_reducible first
    | assumption
    | exact Keeps.refl _
    | apply State.setReg_keeps
    | apply Keeps.foldl
    | apply Keeps.foldl_snd
    | dsimp only
    | split
    | (refine Keeps.of_some (by assumption) ?_)
    | (refine Keeps.of_snd (by assumption) ?_)
    | (refine Keeps.of_snd_snd (by assumption) ?_)
    | (intro _ _ _; beta_reduce)
    | (fail_if_no_progress apply Keeps.other)
    | intro _

theorem State.clearBuffers_keeps {r_ : State} (s : State) (h_ : Keeps r_ s) : Keeps r_ (State.clearBuffers s) := by
  unfold State.clearBuffers
  refine (State.clearTable_keeps s 0x009 0x6000 h_).trans ⟨rfl, rfl, Nat.le_refl _, fun c => ?_⟩
  rw [State.canon_iff] at c ⊢
  exact ⟨c.1, c.2.1, Map.tidy_filter _ c.2.2.1, c.2.2.2⟩

theorem State.lost_keeps {r_ : State} (s : State) (book : Bool) (h_ : Keeps r_ s) : Keeps r_ (State.lost s book) := by
  have h1 : Keeps r_ s.flushHeld := State.flushHeld_keeps _ h_
  unfold State.lost
  generalize s.flushHeld = t at h1 ⊢
  dsimp only
  generalize hg : (fun p : Hid × Int => _) = g
  have h2 : Keeps r_ { State.reset with
      pending := t.pending, evHold := t.evHold, build := t.build, flash := t.flash, free := t.free, result := t.result, obj := []
      hid := t.hid.filter g } := by
    refine h1.trans ⟨rfl, rfl, Nat.le_refl _, fun c => ?_⟩
    rw [State.canon_iff] at c ⊢
    exact ⟨rfl, rfl, Map.tidy_filter (m := t.hid) (d := fun _ => 0) g c.2.2.1, c.2.2.2⟩
  have h3 := State.setReg_keeps _ .sdLostTick (if t.regN .sdClkLost = 1 then t.reg .sdLostTick - t.tick else 0)
    (State.wr_keeps _ 0x00D 0x5000 0 t.serial h2)
  split
  · have h4 := Keeps.foldl (l := bookObjects) (f := fun (u : State) i => u.wr 0x004 i 0 (t.rd 0x004 i 0)) h3
      fun u x hu => State.wr_keeps _ _ _ _ _ hu
    refine ⟨h4.build, h4.pending, h4.free, fun c => ?_⟩
    have c1 := (State.canon_iff _).mp (h1.canon c)
    have c4 := (State.canon_iff _).mp (h4.canon c)
    rw [State.canon_iff]
    refine ⟨c4.1, ?_, c4.2.2⟩
    have hb := h4.build.trans h1.build.symm
    have h5 := Map.tidy_filter (fun e => e.1.unit = 0x004) c1.2.1
    rw [← hb] at h5
    exact h5
  · exact h3

theorem State.pfailResume_keeps {r_ : State} (s : State) (h_ : Keeps r_ s) : Keeps r_ (State.pfailResume s) := by
  unfold State.pfailResume
  repeat' with_reducible first
    | assumption
    | exact Keeps.refl _
    | apply State.pfailAct_keeps
    | apply Keeps.foldl
    | apply Keeps.foldl_snd
    | dsimp only
    | split
    | (refine Keeps.of_some (by assumption) ?_)
    | (refine Keeps.of_snd (by assumption) ?_)
    | (refine Keeps.of_snd_snd (by assumption) ?_)
    | (intro _ _ _; beta_reduce)
    | (fail_if_no_progress apply Keeps.other)
    | intro _

theorem State.snapReady_keeps {r_ : State} (s : State) (x : Snapshot) (h_ : Keeps r_ s) : Keeps r_ (State.snapReady s x) := by
  unfold State.snapReady
  repeat' with_reducible first
    | assumption
    | exact Keeps.refl _
    | apply State.wr_keeps
    | apply State.finish_keeps
    | apply Keeps.foldl
    | apply Keeps.foldl_snd
    | dsimp only
    | split
    | (refine Keeps.of_some (by assumption) ?_)
    | (refine Keeps.of_snd (by assumption) ?_)
    | (refine Keeps.of_snd_snd (by assumption) ?_)
    | (intro _ _ _; beta_reduce)
    | (fail_if_no_progress apply Keeps.other)
    | intro _

theorem State.snapshotsEnd_keeps {r_ : State} (s : State) (h_ : Keeps r_ s) : Keeps r_ (State.snapshotsEnd s) := by
  unfold State.snapshotsEnd
  repeat' with_reducible first
    | assumption
    | exact Keeps.refl _
    | apply State.snapReady_keeps
    | apply Keeps.foldl
    | apply Keeps.foldl_snd
    | dsimp only
    | split
    | (refine Keeps.of_some (by assumption) ?_)
    | (refine Keeps.of_snd (by assumption) ?_)
    | (refine Keeps.of_snd_snd (by assumption) ?_)
    | (intro _ _ _; beta_reduce)
    | (fail_if_no_progress apply Keeps.other)
    | intro _

theorem State.enterLow_keeps {r_ : State} (s : State) (t : Nat) (result : Nat) (h_ : Keeps r_ s) : Keeps r_ (State.enterLow s t result) := by
  unfold State.enterLow
  repeat' with_reducible first
    | assumption
    | exact Keeps.refl _
    | apply State.setReg_keeps
    | apply State.bump_keeps
    | apply State.discardAhead_keeps
    | apply State.discardBq_keeps
    | apply State.abortJobs_keeps
    | apply State.clearTable_keeps
    | apply State.bookSleep_keeps
    | apply State.setMode_keeps
    | apply State.setPhase_keeps
    | apply State.lastResult_keeps
    | apply State.modeRecord_keeps
    | apply State.lanesSleep_keeps
    | apply State.fabricSleep_keeps
    | apply State.holdsSleep_keeps
    | apply State.grantsHeld_keeps
    | apply State.clearBuffers_keeps
    | apply State.lost_keeps
    | apply State.snapshotsEnd_keeps
    | apply Keeps.foldl
    | apply Keeps.foldl_snd
    | dsimp only
    | split
    | (refine Keeps.of_some (by assumption) ?_)
    | (refine Keeps.of_snd (by assumption) ?_)
    | (refine Keeps.of_snd_snd (by assumption) ?_)
    | (intro _ _ _; beta_reduce)
    | (fail_if_no_progress apply Keeps.other)
    | intro _

theorem State.completeEntry_keeps {r_ : State} (s : State) (h_ : Keeps r_ s) : Keeps r_ (State.completeEntry s) := by
  unfold State.completeEntry
  extract_lets +onlyGivenNames s1_0 t_1
  try clear_value t_1
  have h_s1_0 : Keeps r_ s1_0 := by
    unfold s1_0
    repeat' with_reducible first
      | assumption
      | exact Keeps.refl _
      | apply State.setReg_keeps
      | apply State.stopTimer_keeps
      | apply State.discardStored_keeps
      | apply State.enterLow_keeps
      | apply Keeps.foldl
      | apply Keeps.foldl_snd
      | dsimp only
      | split
      | (refine Keeps.of_some (by assumption) ?_)
      | (refine Keeps.of_snd (by assumption) ?_)
      | (refine Keeps.of_snd_snd (by assumption) ?_)
      | (intro _ _ _; beta_reduce)
      | (fail_if_no_progress apply Keeps.other)
      | intro _
  clear_value s1_0
  repeat' with_reducible first
    | assumption
    | exact Keeps.refl _
    | apply State.setReg_keeps
    | apply State.stopTimer_keeps
    | apply State.discardStored_keeps
    | apply State.enterLow_keeps
    | apply Keeps.foldl
    | apply Keeps.foldl_snd
    | dsimp only
    | split
    | (refine Keeps.of_some (by assumption) ?_)
    | (refine Keeps.of_snd (by assumption) ?_)
    | (refine Keeps.of_snd_snd (by assumption) ?_)
    | (intro _ _ _; beta_reduce)
    | (fail_if_no_progress apply Keeps.other)
    | intro _

theorem State.handshake_keeps {r_ : State} (s : State) (late : Bool) (h_ : Keeps r_ s) : Keeps r_ (State.handshake s late) := by
  unfold State.handshake
  repeat' with_reducible first
    | assumption
    | exact Keeps.refl _
    | apply State.ask_keeps
    | apply State.entryRefused_keeps
    | apply State.entryAborted_keeps
    | apply State.completeEntry_keeps
    | apply Keeps.foldl
    | apply Keeps.foldl_snd
    | dsimp only
    | split
    | (refine Keeps.of_some (by assumption) ?_)
    | (refine Keeps.of_snd (by assumption) ?_)
    | (refine Keeps.of_snd_snd (by assumption) ?_)
    | (intro _ _ _; beta_reduce)
    | (fail_if_no_progress apply Keeps.other)
    | intro _

theorem execHandshakeAnswer_keeps {r_ : State} (s : State) (h_ : Keeps r_ s) : KeepsNext r_ (execHandshakeAnswer s) := by
  unfold execHandshakeAnswer
  repeat' with_reducible first
    | assumption
    | exact Keeps.refl _
    | apply KeepsNext.next
    | apply KeepsNext.refused
    | apply gathered_keeps
    | apply State.handshake_keeps
    | apply Keeps.foldl
    | apply Keeps.foldl_snd
    | dsimp only
    | split
    | (refine Keeps.of_some (by assumption) ?_)
    | (refine Keeps.of_snd (by assumption) ?_)
    | (refine Keeps.of_snd_snd (by assumption) ?_)
    | (intro _ _ _; beta_reduce)
    | (fail_if_no_progress apply Keeps.other)
    | intro _

theorem execFrameWaitExpire_keeps {r_ : State} (s : State) (h_ : Keeps r_ s) : KeepsNext r_ (execFrameWaitExpire s) := by
  unfold execFrameWaitExpire
  repeat' with_reducible first
    | assumption
    | exact Keeps.refl _
    | apply KeepsNext.next
    | apply KeepsNext.refused
    | apply gathered_keeps
    | apply State.handshake_keeps
    | apply Keeps.foldl
    | apply Keeps.foldl_snd
    | dsimp only
    | split
    | (refine Keeps.of_some (by assumption) ?_)
    | (refine Keeps.of_snd (by assumption) ?_)
    | (refine Keeps.of_snd_snd (by assumption) ?_)
    | (intro _ _ _; beta_reduce)
    | (fail_if_no_progress apply Keeps.other)
    | intro _

theorem State.requestInEntry_keeps {r_ : State} (s : State) (t : Nat) (h_ : Keeps r_ s) : Keeps r_ (State.requestInEntry s t) := by
  unfold State.requestInEntry
  repeat' with_reducible first
    | assumption
    | exact Keeps.refl _
    | apply State.setReg_keeps
    | apply State.setSlot_keeps
    | apply State.enterLow_keeps
    | apply Keeps.foldl
    | apply Keeps.foldl_snd
    | dsimp only
    | split
    | (refine Keeps.of_some (by assumption) ?_)
    | (refine Keeps.of_snd (by assumption) ?_)
    | (refine Keeps.of_snd_snd (by assumption) ?_)
    | (intro _ _ _; beta_reduce)
    | (fail_if_no_progress apply Keeps.other)
    | intro _

theorem State.powerRequest_keeps {r_ : State} (s : State) (t : Nat) (inFrame : Bool) (h_ : Keeps r_ s) : Keeps r_ (State.powerRequest s t inFrame).2 := by
  unfold State.powerRequest
  repeat' with_reducible first
    | assumption
    | exact Keeps.refl _
    | apply State.setReg_keeps
    | apply State.setSlot_keeps
    | apply State.powerStart_keeps
    | apply State.requestInEntry_keeps
    | apply Keeps.foldl
    | apply Keeps.foldl_snd
    | dsimp only
    | split
    | (refine Keeps.of_some (by assumption) ?_)
    | (refine Keeps.of_snd (by assumption) ?_)
    | (refine Keeps.of_snd_snd (by assumption) ?_)
    | (intro _ _ _; beta_reduce)
    | (fail_if_no_progress apply Keeps.other)
    | intro _

theorem State.responseLeft_keeps {r_ : State} (s : State) (id : Nat) (h_ : Keeps r_ s) : Keeps r_ (State.responseLeft s id) := by
  unfold State.responseLeft
  extract_lets +onlyGivenNames h_0
  try clear_value h_0
  repeat' with_reducible first
    | assumption
    | exact Keeps.refl _
    | apply State.setReg_keeps
    | apply Keeps.foldl
    | apply Keeps.foldl_snd
    | dsimp only
    | split
    | (refine Keeps.of_some (by assumption) ?_)
    | (refine Keeps.of_snd (by assumption) ?_)
    | (refine Keeps.of_snd_snd (by assumption) ?_)
    | (intro _ _ _; beta_reduce)
    | (fail_if_no_progress apply Keeps.other)
    | intro _

theorem State.heldStep_keeps {r_ : State} (s : State) (h_ : Keeps r_ s) : Keeps r_ (State.heldStep s) := by
  unfold State.heldStep
  extract_lets +onlyGivenNames h_0
  try clear_value h_0
  repeat' with_reducible first
    | assumption
    | exact Keeps.refl _
    | apply State.setReg_keeps
    | apply State.setSlot_keeps
    | apply State.powerStart_keeps
    | apply Keeps.foldl
    | apply Keeps.foldl_snd
    | dsimp only
    | split
    | (refine Keeps.of_some (by assumption) ?_)
    | (refine Keeps.of_snd (by assumption) ?_)
    | (refine Keeps.of_snd_snd (by assumption) ?_)
    | (intro _ _ _; beta_reduce)
    | (fail_if_no_progress apply Keeps.other)
    | intro _

theorem State.applyMode_keeps {r_ : State} (s : State) (x : Nat) (h_ : Keeps r_ s) : Keeps r_ (State.applyMode s x) := by
  unfold State.applyMode
  extract_lets +onlyGivenNames m_0 forced_1 s1_2
  try clear_value m_0
  try clear_value forced_1
  have h_s1_2 : Keeps r_ s1_2 := by
    unfold s1_2
    repeat' with_reducible first
      | assumption
      | exact Keeps.refl _
      | apply State.setReg_keeps
      | apply State.pump_keeps
      | apply State.setMode_keeps
      | apply State.setPhase_keeps
      | apply State.powerResult_keeps
      | apply State.modeRecord_keeps
      | apply State.actPending_keeps
      | apply Keeps.foldl
      | apply Keeps.foldl_snd
      | dsimp only
      | split
      | (refine Keeps.of_some (by assumption) ?_)
      | (refine Keeps.of_snd (by assumption) ?_)
      | (refine Keeps.of_snd_snd (by assumption) ?_)
      | (intro _ _ _; beta_reduce)
      | (fail_if_no_progress apply Keeps.other)
      | intro _
  clear_value s1_2
  repeat' with_reducible first
    | assumption
    | exact Keeps.refl _
    | apply State.setReg_keeps
    | apply State.pump_keeps
    | apply State.setMode_keeps
    | apply State.setPhase_keeps
    | apply State.powerResult_keeps
    | apply State.modeRecord_keeps
    | apply State.actPending_keeps
    | apply Keeps.foldl
    | apply Keeps.foldl_snd
    | dsimp only
    | split
    | (refine Keeps.of_some (by assumption) ?_)
    | (refine Keeps.of_snd (by assumption) ?_)
    | (refine Keeps.of_snd_snd (by assumption) ?_)
    | (intro _ _ _; beta_reduce)
    | (fail_if_no_progress apply Keeps.other)
    | intro _

theorem State.modeStep_keeps {r_ : State} (s : State) (h_ : Keeps r_ s) : Keeps r_ (State.modeStep s) := by
  unfold State.modeStep
  repeat' with_reducible first
    | assumption
    | exact Keeps.refl _
    | apply State.applyMode_keeps
    | apply Keeps.foldl
    | apply Keeps.foldl_snd
    | dsimp only
    | split
    | (refine Keeps.of_some (by assumption) ?_)
    | (refine Keeps.of_snd (by assumption) ?_)
    | (refine Keeps.of_snd_snd (by assumption) ?_)
    | (intro _ _ _; beta_reduce)
    | (fail_if_no_progress apply Keeps.other)
    | intro _

theorem execModeApply_keeps {r_ : State} (s : State) (h_ : Keeps r_ s) : KeepsNext r_ (execModeApply s) := by
  unfold execModeApply
  repeat' with_reducible first
    | assumption
    | exact Keeps.refl _
    | apply KeepsNext.next
    | apply KeepsNext.refused
    | apply gathered_keeps
    | apply State.modeStep_keeps
    | apply Keeps.foldl
    | apply Keeps.foldl_snd
    | dsimp only
    | split
    | (refine Keeps.of_some (by assumption) ?_)
    | (refine Keeps.of_snd (by assumption) ?_)
    | (refine Keeps.of_snd_snd (by assumption) ?_)
    | (intro _ _ _; beta_reduce)
    | (fail_if_no_progress apply Keeps.other)
    | intro _

theorem State.idleCount_keeps {r_ : State} (s : State) (h_ : Keeps r_ s) : Keeps r_ (State.idleCount s) := by
  unfold State.idleCount
  extract_lets +onlyGivenNames s1_0
  have h_s1_0 : Keeps r_ s1_0 := by
    unfold s1_0
    repeat' with_reducible first
      | assumption
      | exact Keeps.refl _
      | apply State.setReg_keeps
      | apply Keeps.foldl
      | apply Keeps.foldl_snd
      | dsimp only
      | split
      | (refine Keeps.of_some (by assumption) ?_)
      | (refine Keeps.of_snd (by assumption) ?_)
      | (refine Keeps.of_snd_snd (by assumption) ?_)
      | (intro _ _ _; beta_reduce)
      | (fail_if_no_progress apply Keeps.other)
      | intro _
  clear_value s1_0
  repeat' with_reducible first
    | assumption
    | exact Keeps.refl _
    | apply State.setReg_keeps
    | apply Keeps.foldl
    | apply Keeps.foldl_snd
    | dsimp only
    | split
    | (refine Keeps.of_some (by assumption) ?_)
    | (refine Keeps.of_snd (by assumption) ?_)
    | (refine Keeps.of_snd_snd (by assumption) ?_)
    | (intro _ _ _; beta_reduce)
    | (fail_if_no_progress apply Keeps.other)
    | intro _

theorem State.enterIdle_keeps {r_ : State} (s : State) (h_ : Keeps r_ s) : Keeps r_ (State.enterIdle s) := by
  unfold State.enterIdle
  repeat' with_reducible first
    | assumption
    | exact Keeps.refl _
    | apply State.wr_keeps
    | apply State.setReg_keeps
    | apply State.bump_keeps
    | apply Keeps.foldl
    | apply Keeps.foldl_snd
    | dsimp only
    | split
    | (refine Keeps.of_some (by assumption) ?_)
    | (refine Keeps.of_snd (by assumption) ?_)
    | (refine Keeps.of_snd_snd (by assumption) ?_)
    | (intro _ _ _; beta_reduce)
    | (fail_if_no_progress apply Keeps.other)
    | intro _

theorem execIdleEnter_keeps {r_ : State} (s : State) (h_ : Keeps r_ s) : KeepsNext r_ (execIdleEnter s) := by
  unfold execIdleEnter
  repeat' with_reducible first
    | assumption
    | exact Keeps.refl _
    | apply KeepsNext.next
    | apply KeepsNext.refused
    | apply State.enterIdle_keeps
    | apply Keeps.foldl
    | apply Keeps.foldl_snd
    | dsimp only
    | split
    | (refine Keeps.of_some (by assumption) ?_)
    | (refine Keeps.of_snd (by assumption) ?_)
    | (refine Keeps.of_snd_snd (by assumption) ?_)
    | (intro _ _ _; beta_reduce)
    | (fail_if_no_progress apply Keeps.other)
    | intro _

theorem execIdleExit_keeps {r_ : State} (s : State) (h_ : Keeps r_ s) : KeepsNext r_ (execIdleExit s) := by
  unfold execIdleExit
  repeat' with_reducible first
    | assumption
    | exact Keeps.refl _
    | apply KeepsNext.next
    | apply KeepsNext.refused
    | apply State.wake_keeps
    | apply Keeps.foldl
    | apply Keeps.foldl_snd
    | dsimp only
    | split
    | (refine Keeps.of_some (by assumption) ?_)
    | (refine Keeps.of_snd (by assumption) ?_)
    | (refine Keeps.of_snd_snd (by assumption) ?_)
    | (intro _ _ _; beta_reduce)
    | (fail_if_no_progress apply Keeps.other)
    | intro _

theorem State.startReturn_keeps {r_ : State} (s : State) (step : Nat) (from_ : Nat) (h_ : Keeps r_ s) : Keeps r_ (State.startReturn s step from_) := by
  unfold State.startReturn
  repeat' with_reducible first
    | assumption
    | exact Keeps.refl _
    | apply State.setReg_keeps
    | apply State.setPhase_keeps
    | apply Keeps.foldl
    | apply Keeps.foldl_snd
    | dsimp only
    | split
    | (refine Keeps.of_some (by assumption) ?_)
    | (refine Keeps.of_snd (by assumption) ?_)
    | (refine Keeps.of_snd_snd (by assumption) ?_)
    | (intro _ _ _; beta_reduce)
    | (fail_if_no_progress apply Keeps.other)
    | intro _

theorem State.wakeFires_keeps {r_ : State} (s : State) (w : WakeIn) (h_ : Keeps r_ s) : Keeps r_ (State.wakeFires s w) := by
  unfold State.wakeFires
  extract_lets +onlyGivenNames s1_0
  have h_s1_0 : Keeps r_ s1_0 := by
    unfold s1_0
    repeat' with_reducible first
      | assumption
      | exact Keeps.refl _
      | apply State.wr_keeps
      | apply State.setReg_keeps
      | apply State.startReturn_keeps
      | apply Keeps.foldl
      | apply Keeps.foldl_snd
      | dsimp only
      | split
      | (refine Keeps.of_some (by assumption) ?_)
      | (refine Keeps.of_snd (by assumption) ?_)
      | (refine Keeps.of_snd_snd (by assumption) ?_)
      | (intro _ _ _; beta_reduce)
      | (fail_if_no_progress apply Keeps.other)
      | intro _
  clear_value s1_0
  repeat' with_reducible first
    | assumption
    | exact Keeps.refl _
    | apply State.wr_keeps
    | apply State.setReg_keeps
    | apply State.startReturn_keeps
    | apply Keeps.foldl
    | apply Keeps.foldl_snd
    | dsimp only
    | split
    | (refine Keeps.of_some (by assumption) ?_)
    | (refine Keeps.of_snd (by assumption) ?_)
    | (refine Keeps.of_snd_snd (by assumption) ?_)
    | (intro _ _ _; beta_reduce)
    | (fail_if_no_progress apply Keeps.other)
    | intro _

theorem execWakeInput_keeps {r_ : State} (input : WakeIn) (s : State) (h_ : Keeps r_ s) : KeepsNext r_ (execWakeInput input s) := by
  unfold execWakeInput
  repeat' with_reducible first
    | assumption
    | exact Keeps.refl _
    | apply KeepsNext.next
    | apply KeepsNext.refused
    | apply State.setReg_keeps
    | apply gathered_keeps
    | apply State.setSlot_keeps
    | apply State.wakeFires_keeps
    | apply Keeps.foldl
    | apply Keeps.foldl_snd
    | dsimp only
    | split
    | (refine Keeps.of_some (by assumption) ?_)
    | (refine Keeps.of_snd (by assumption) ?_)
    | (refine Keeps.of_snd_snd (by assumption) ?_)
    | (intro _ _ _; beta_reduce)
    | (fail_if_no_progress apply Keeps.other)
    | intro _

theorem execPrimroseFrame_keeps {r_ : State} (ch : Nat) (frame : List Octet) (s : State) (h_ : Keeps r_ s) : KeepsNext r_ (execPrimroseFrame ch frame s) := by
  unfold execPrimroseFrame
  repeat' with_reducible first
    | assumption
    | exact Keeps.refl _
    | apply KeepsNext.next
    | apply KeepsNext.refused
    | apply State.setReg_keeps
    | apply State.bump_keeps
    | apply gathered_keeps
    | apply State.wakeFires_keeps
    | apply Keeps.foldl
    | apply Keeps.foldl_snd
    | dsimp only
    | split
    | (refine Keeps.of_some (by assumption) ?_)
    | (refine Keeps.of_snd (by assumption) ?_)
    | (refine Keeps.of_snd_snd (by assumption) ?_)
    | (intro _ _ _; beta_reduce)
    | (fail_if_no_progress apply Keeps.other)
    | intro _

theorem State.stepPassed_keeps {r_ : State} (s : State) (n : Nat) (h_ : Keeps r_ s) : Keeps r_ (State.stepPassed s n) := by
  unfold State.stepPassed
  repeat' with_reducible first
    | assumption
    | exact Keeps.refl _
    | apply State.setReg_keeps
    | apply Keeps.foldl
    | apply Keeps.foldl_snd
    | dsimp only
    | split
    | (refine Keeps.of_some (by assumption) ?_)
    | (refine Keeps.of_snd (by assumption) ?_)
    | (refine Keeps.of_snd_snd (by assumption) ?_)
    | (intro _ _ _; beta_reduce)
    | (fail_if_no_progress apply Keeps.other)
    | intro _

theorem execReturnReady_keeps {r_ : State} (step : Nat) (s : State) (h_ : Keeps r_ s) : KeepsNext r_ (execReturnReady step s) := by
  unfold execReturnReady
  repeat' with_reducible first
    | assumption
    | exact Keeps.refl _
    | apply KeepsNext.next
    | apply KeepsNext.refused
    | apply gathered_keeps
    | apply State.stepPassed_keeps
    | apply Keeps.foldl
    | apply Keeps.foldl_snd
    | dsimp only
    | split
    | (refine Keeps.of_some (by assumption) ?_)
    | (refine Keeps.of_snd (by assumption) ?_)
    | (refine Keeps.of_snd_snd (by assumption) ?_)
    | (intro _ _ _; beta_reduce)
    | (fail_if_no_progress apply Keeps.other)
    | intro _

theorem execPllLock_keeps {r_ : State} (s : State) (h_ : Keeps r_ s) : KeepsNext r_ (execPllLock s) := by
  unfold execPllLock
  repeat' with_reducible first
    | assumption
    | exact Keeps.refl _
    | apply KeepsNext.next
    | apply KeepsNext.refused
    | apply State.setReg_keeps
    | apply gathered_keeps
    | apply State.stepPassed_keeps
    | apply Keeps.foldl
    | apply Keeps.foldl_snd
    | dsimp only
    | split
    | (refine Keeps.of_some (by assumption) ?_)
    | (refine Keeps.of_snd (by assumption) ?_)
    | (refine Keeps.of_snd_snd (by assumption) ?_)
    | (intro _ _ _; beta_reduce)
    | (fail_if_no_progress apply Keeps.other)
    | intro _

theorem State.stepTimedOut_keeps {r_ : State} (s : State) (h_ : Keeps r_ s) : Keeps r_ (State.stepTimedOut s) := by
  unfold State.stepTimedOut
  extract_lets +onlyGivenNames step_0 from__1 m_2 s0_3 s1_4 s2_5
  try clear_value step_0
  try clear_value from__1
  try clear_value m_2
  have h_s0_3 : Keeps r_ s0_3 := by
    unfold s0_3
    repeat' with_reducible first
      | assumption
      | exact Keeps.refl _
      | apply State.setReg_keeps
      | apply State.bump_keeps
      | apply State.recordSd_keeps
      | apply State.setMode_keeps
      | apply State.setPhase_keeps
      | apply State.lastResult_keeps
      | apply State.grantsHeld_keeps
      | apply Keeps.foldl
      | apply Keeps.foldl_snd
      | dsimp only
      | split
      | (refine Keeps.of_some (by assumption) ?_)
      | (refine Keeps.of_snd (by assumption) ?_)
      | (refine Keeps.of_snd_snd (by assumption) ?_)
      | (intro _ _ _; beta_reduce)
      | (fail_if_no_progress apply Keeps.other)
      | intro _
  clear_value s0_3
  have h_s1_4 : Keeps r_ s1_4 := by
    unfold s1_4
    repeat' with_reducible first
      | assumption
      | exact Keeps.refl _
      | apply State.setReg_keeps
      | apply State.bump_keeps
      | apply State.recordSd_keeps
      | apply State.setMode_keeps
      | apply State.setPhase_keeps
      | apply State.lastResult_keeps
      | apply State.grantsHeld_keeps
      | apply Keeps.foldl
      | apply Keeps.foldl_snd
      | dsimp only
      | split
      | (refine Keeps.of_some (by assumption) ?_)
      | (refine Keeps.of_snd (by assumption) ?_)
      | (refine Keeps.of_snd_snd (by assumption) ?_)
      | (intro _ _ _; beta_reduce)
      | (fail_if_no_progress apply Keeps.other)
      | intro _
  clear_value s1_4
  have h_s2_5 : Keeps r_ s2_5 := by
    unfold s2_5
    repeat' with_reducible first
      | assumption
      | exact Keeps.refl _
      | apply State.setReg_keeps
      | apply State.bump_keeps
      | apply State.recordSd_keeps
      | apply State.setMode_keeps
      | apply State.setPhase_keeps
      | apply State.lastResult_keeps
      | apply State.grantsHeld_keeps
      | apply Keeps.foldl
      | apply Keeps.foldl_snd
      | dsimp only
      | split
      | (refine Keeps.of_some (by assumption) ?_)
      | (refine Keeps.of_snd (by assumption) ?_)
      | (refine Keeps.of_snd_snd (by assumption) ?_)
      | (intro _ _ _; beta_reduce)
      | (fail_if_no_progress apply Keeps.other)
      | intro _
  clear_value s2_5
  repeat' with_reducible first
    | assumption
    | exact Keeps.refl _
    | apply State.setReg_keeps
    | apply State.bump_keeps
    | apply State.recordSd_keeps
    | apply State.setMode_keeps
    | apply State.setPhase_keeps
    | apply State.lastResult_keeps
    | apply State.grantsHeld_keeps
    | apply Keeps.foldl
    | apply Keeps.foldl_snd
    | dsimp only
    | split
    | (refine Keeps.of_some (by assumption) ?_)
    | (refine Keeps.of_snd (by assumption) ?_)
    | (refine Keeps.of_snd_snd (by assumption) ?_)
    | (intro _ _ _; beta_reduce)
    | (fail_if_no_progress apply Keeps.other)
    | intro _

theorem execReturnStepTimeout_keeps {r_ : State} (s : State) (h_ : Keeps r_ s) : KeepsNext r_ (execReturnStepTimeout s) := by
  unfold execReturnStepTimeout
  repeat' with_reducible first
    | assumption
    | exact Keeps.refl _
    | apply KeepsNext.next
    | apply KeepsNext.refused
    | apply gathered_keeps
    | apply State.stepTimedOut_keeps
    | apply Keeps.foldl
    | apply Keeps.foldl_snd
    | dsimp only
    | split
    | (refine Keeps.of_some (by assumption) ?_)
    | (refine Keeps.of_snd (by assumption) ?_)
    | (refine Keeps.of_snd_snd (by assumption) ?_)
    | (intro _ _ _; beta_reduce)
    | (fail_if_no_progress apply Keeps.other)
    | intro _

theorem State.firingCause_keeps {r_ : State} (s : State) (h_ : Keeps r_ s) : Keeps r_ (State.firingCause s) := by
  unfold State.firingCause
  extract_lets +onlyGivenNames c_0
  try clear_value c_0
  repeat' with_reducible first
    | assumption
    | exact Keeps.refl _
    | apply State.takeFree_keeps
    | apply State.raise_keeps
    | apply Keeps.foldl
    | apply Keeps.foldl_snd
    | dsimp only
    | split
    | (refine Keeps.of_some (by assumption) ?_)
    | (refine Keeps.of_snd (by assumption) ?_)
    | (refine Keeps.of_snd_snd (by assumption) ?_)
    | (intro _ _ _; beta_reduce)
    | (fail_if_no_progress apply Keeps.other)
    | intro _

theorem State.wakeRaised_keeps {r_ : State} (s : State) (h_ : Keeps r_ s) : Keeps r_ (State.wakeRaised s) := by
  unfold State.wakeRaised
  repeat' with_reducible first
    | assumption
    | exact Keeps.refl _
    | apply State.raise_keeps
    | apply State.firingCause_keeps
    | apply Keeps.foldl
    | apply Keeps.foldl_snd
    | dsimp only
    | split
    | (refine Keeps.of_some (by assumption) ?_)
    | (refine Keeps.of_snd (by assumption) ?_)
    | (refine Keeps.of_snd_snd (by assumption) ?_)
    | (intro _ _ _; beta_reduce)
    | (fail_if_no_progress apply Keeps.other)
    | intro _

theorem State.restore_keeps {r_ : State} (s : State) (m : Nat) (h_ : Keeps r_ s) : Keeps r_ (State.restore s m) := by
  unfold State.restore
  extract_lets +onlyGivenNames s1_0 s2_1
  have h_s1_0 : Keeps r_ s1_0 := by
    unfold s1_0
    repeat' with_reducible first
      | assumption
      | exact Keeps.refl _
      | apply State.wr_keeps
      | apply State.setEnt_keeps
      | apply State.setReg_keeps
      | apply State.sleepPasses_keeps
      | apply Keeps.foldl
      | apply Keeps.foldl_snd
      | dsimp only
      | split
      | (refine Keeps.of_some (by assumption) ?_)
      | (refine Keeps.of_snd (by assumption) ?_)
      | (refine Keeps.of_snd_snd (by assumption) ?_)
      | (intro _ _ _; beta_reduce)
      | (fail_if_no_progress apply Keeps.other)
      | intro _
  clear_value s1_0
  have h_s2_1 : Keeps r_ s2_1 := by
    unfold s2_1
    repeat' with_reducible first
      | assumption
      | exact Keeps.refl _
      | apply State.wr_keeps
      | apply State.setEnt_keeps
      | apply State.setReg_keeps
      | apply State.sleepPasses_keeps
      | apply Keeps.foldl
      | apply Keeps.foldl_snd
      | dsimp only
      | split
      | (refine Keeps.of_some (by assumption) ?_)
      | (refine Keeps.of_snd (by assumption) ?_)
      | (refine Keeps.of_snd_snd (by assumption) ?_)
      | (intro _ _ _; beta_reduce)
      | (fail_if_no_progress apply Keeps.other)
      | intro _
  clear_value s2_1
  repeat' with_reducible first
    | assumption
    | exact Keeps.refl _
    | apply State.wr_keeps
    | apply State.setEnt_keeps
    | apply State.setReg_keeps
    | apply State.sleepPasses_keeps
    | apply Keeps.foldl
    | apply Keeps.foldl_snd
    | dsimp only
    | split
    | (refine Keeps.of_some (by assumption) ?_)
    | (refine Keeps.of_snd (by assumption) ?_)
    | (refine Keeps.of_snd_snd (by assumption) ?_)
    | (intro _ _ _; beta_reduce)
    | (fail_if_no_progress apply Keeps.other)
    | intro _

theorem State.returnDone_keeps {r_ : State} (s : State) (h_ : Keeps r_ s) : Keeps r_ (State.returnDone s) := by
  unfold State.returnDone
  repeat' with_reducible first
    | assumption
    | exact Keeps.refl _
    | apply State.setReg_keeps
    | apply State.setPhase_keeps
    | apply Keeps.foldl
    | apply Keeps.foldl_snd
    | dsimp only
    | split
    | (refine Keeps.of_some (by assumption) ?_)
    | (refine Keeps.of_snd (by assumption) ?_)
    | (refine Keeps.of_snd_snd (by assumption) ?_)
    | (intro _ _ _; beta_reduce)
    | (fail_if_no_progress apply Keeps.other)
    | intro _

theorem State.slotZero_keeps {r_ : State} (s : State) (h_ : Keeps r_ s) : Keeps r_ (State.slotZero s) := by
  unfold State.slotZero
  repeat' with_reducible first
    | assumption
    | exact Keeps.refl _
    | apply Keeps.foldl
    | apply Keeps.foldl_snd
    | dsimp only
    | split
    | (refine Keeps.of_some (by assumption) ?_)
    | (refine Keeps.of_snd (by assumption) ?_)
    | (refine Keeps.of_snd_snd (by assumption) ?_)
    | (intro _ _ _; beta_reduce)
    | (fail_if_no_progress apply Keeps.other)
    | intro _

theorem State.settled_keeps {r_ : State} (s : State) (main : Nat) (view : Nat) (h_ : Keeps r_ s) : Keeps r_ (State.settled s main view) := by
  unfold State.settled
  repeat' with_reducible first
    | assumption
    | exact Keeps.refl _
    | apply State.bump_keeps
    | apply State.latch_keeps
    | apply State.record_keeps
    | apply Keeps.foldl
    | apply Keeps.foldl_snd
    | dsimp only
    | split
    | (refine Keeps.of_some (by assumption) ?_)
    | (refine Keeps.of_snd (by assumption) ?_)
    | (refine Keeps.of_snd_snd (by assumption) ?_)
    | (intro _ _ _; beta_reduce)
    | (fail_if_no_progress apply Keeps.other)
    | intro _

theorem State.forcedEntry_keeps {r_ : State} (s : State) (view : Nat) (h_ : Keeps r_ s) : Keeps r_ (State.forcedEntry s view) := by
  unfold State.forcedEntry
  extract_lets +onlyGivenNames s1_0 s2_1
  have h_s1_0 : Keeps r_ s1_0 := by
    unfold s1_0
    repeat' with_reducible first
      | assumption
      | exact Keeps.refl _
      | apply State.setReg_keeps
      | apply State.channelDown_keeps
      | apply State.programGroup_keeps
      | apply State.discardStored_keeps
      | apply State.enterLow_keeps
      | apply Keeps.foldl
      | apply Keeps.foldl_snd
      | dsimp only
      | split
      | (refine Keeps.of_some (by assumption) ?_)
      | (refine Keeps.of_snd (by assumption) ?_)
      | (refine Keeps.of_snd_snd (by assumption) ?_)
      | (intro _ _ _; beta_reduce)
      | (fail_if_no_progress apply Keeps.other)
      | intro _
  clear_value s1_0
  have h_s2_1 : Keeps r_ s2_1 := by
    unfold s2_1
    repeat' with_reducible first
      | assumption
      | exact Keeps.refl _
      | apply State.setReg_keeps
      | apply State.channelDown_keeps
      | apply State.programGroup_keeps
      | apply State.discardStored_keeps
      | apply State.enterLow_keeps
      | apply Keeps.foldl
      | apply Keeps.foldl_snd
      | dsimp only
      | split
      | (refine Keeps.of_some (by assumption) ?_)
      | (refine Keeps.of_snd (by assumption) ?_)
      | (refine Keeps.of_snd_snd (by assumption) ?_)
      | (intro _ _ _; beta_reduce)
      | (fail_if_no_progress apply Keeps.other)
      | intro _
  clear_value s2_1
  repeat' with_reducible first
    | assumption
    | exact Keeps.refl _
    | apply State.setReg_keeps
    | apply State.channelDown_keeps
    | apply State.programGroup_keeps
    | apply State.discardStored_keeps
    | apply State.enterLow_keeps
    | apply Keeps.foldl
    | apply Keeps.foldl_snd
    | dsimp only
    | split
    | (refine Keeps.of_some (by assumption) ?_)
    | (refine Keeps.of_snd (by assumption) ?_)
    | (refine Keeps.of_snd_snd (by assumption) ?_)
    | (intro _ _ _; beta_reduce)
    | (fail_if_no_progress apply Keeps.other)
    | intro _

theorem State.returnResult_keeps {r_ : State} (s : State) (m : Nat) (h_ : Keeps r_ s) : Keeps r_ (State.returnResult s m) := by
  unfold State.returnResult
  repeat' with_reducible first
    | assumption
    | exact Keeps.refl _
    | apply State.lastResult_keeps
    | apply Keeps.foldl
    | apply Keeps.foldl_snd
    | dsimp only
    | split
    | (refine Keeps.of_some (by assumption) ?_)
    | (refine Keeps.of_snd (by assumption) ?_)
    | (refine Keeps.of_snd_snd (by assumption) ?_)
    | (intro _ _ _; beta_reduce)
    | (fail_if_no_progress apply Keeps.other)
    | intro _

theorem State.returnOn_keeps {r_ : State} (s : State) (view : Nat) (h_ : Keeps r_ s) : Keeps r_ (State.returnOn s view) := by
  unfold State.returnOn
  repeat' with_reducible first
    | assumption
    | exact Keeps.refl _
    | apply State.forcedEntry_keeps
    | apply Keeps.foldl
    | apply Keeps.foldl_snd
    | dsimp only
    | split
    | (refine Keeps.of_some (by assumption) ?_)
    | (refine Keeps.of_snd (by assumption) ?_)
    | (refine Keeps.of_snd_snd (by assumption) ?_)
    | (intro _ _ _; beta_reduce)
    | (fail_if_no_progress apply Keeps.other)
    | intro _

theorem State.returnLow_keeps {r_ : State} (s : State) (h_ : Keeps r_ s) : Keeps r_ (State.returnLow s) := by
  unfold State.returnLow
  extract_lets +onlyGivenNames m_0 o_1 s1_2 s2_3 s3_4 s4_5 s5_6
  have h_s1_2 : Keeps r_ s1_2 := by
    unfold s1_2
    repeat' with_reducible first
      | assumption
      | exact Keeps.refl _
      | apply State.setReg_keeps
      | apply State.raise_keeps
      | apply State.pump_keeps
      | apply State.sdCheck_keeps
      | apply State.setFb_keeps
      | apply State.bookReturn_keeps
      | apply State.setMode_keeps
      | apply State.modeRecord_keeps
      | apply State.actPending_keeps
      | apply State.grantsFollow_keeps
      | apply State.pfailResume_keeps
      | apply State.wakeRaised_keeps
      | apply State.restore_keeps
      | apply State.returnDone_keeps
      | apply State.slotZero_keeps
      | apply State.returnResult_keeps
      | apply State.returnOn_keeps
      | apply Keeps.foldl
      | apply Keeps.foldl_snd
      | dsimp only
      | split
      | (refine Keeps.of_some (by assumption) ?_)
      | (refine Keeps.of_snd (by assumption) ?_)
      | (refine Keeps.of_snd_snd (by assumption) ?_)
      | (intro _ _ _; beta_reduce)
      | (fail_if_no_progress apply Keeps.other)
      | intro _
  clear_value s1_2
  have h_s2_3 : Keeps r_ s2_3 := by
    unfold s2_3
    repeat' with_reducible first
      | assumption
      | exact Keeps.refl _
      | apply State.setReg_keeps
      | apply State.raise_keeps
      | apply State.pump_keeps
      | apply State.sdCheck_keeps
      | apply State.setFb_keeps
      | apply State.bookReturn_keeps
      | apply State.setMode_keeps
      | apply State.modeRecord_keeps
      | apply State.actPending_keeps
      | apply State.grantsFollow_keeps
      | apply State.pfailResume_keeps
      | apply State.wakeRaised_keeps
      | apply State.restore_keeps
      | apply State.returnDone_keeps
      | apply State.slotZero_keeps
      | apply State.returnResult_keeps
      | apply State.returnOn_keeps
      | apply Keeps.foldl
      | apply Keeps.foldl_snd
      | dsimp only
      | split
      | (refine Keeps.of_some (by assumption) ?_)
      | (refine Keeps.of_snd (by assumption) ?_)
      | (refine Keeps.of_snd_snd (by assumption) ?_)
      | (intro _ _ _; beta_reduce)
      | (fail_if_no_progress apply Keeps.other)
      | intro _
  clear_value s2_3
  have h_s3_4 : Keeps r_ s3_4 := by
    unfold s3_4
    repeat' with_reducible first
      | assumption
      | exact Keeps.refl _
      | apply State.setReg_keeps
      | apply State.raise_keeps
      | apply State.pump_keeps
      | apply State.sdCheck_keeps
      | apply State.setFb_keeps
      | apply State.bookReturn_keeps
      | apply State.setMode_keeps
      | apply State.modeRecord_keeps
      | apply State.actPending_keeps
      | apply State.grantsFollow_keeps
      | apply State.pfailResume_keeps
      | apply State.wakeRaised_keeps
      | apply State.restore_keeps
      | apply State.returnDone_keeps
      | apply State.slotZero_keeps
      | apply State.returnResult_keeps
      | apply State.returnOn_keeps
      | apply Keeps.foldl
      | apply Keeps.foldl_snd
      | dsimp only
      | split
      | (refine Keeps.of_some (by assumption) ?_)
      | (refine Keeps.of_snd (by assumption) ?_)
      | (refine Keeps.of_snd_snd (by assumption) ?_)
      | (intro _ _ _; beta_reduce)
      | (fail_if_no_progress apply Keeps.other)
      | intro _
  clear_value s3_4
  have h_s4_5 : Keeps r_ s4_5 := by
    unfold s4_5
    repeat' with_reducible first
      | assumption
      | exact Keeps.refl _
      | apply State.setReg_keeps
      | apply State.raise_keeps
      | apply State.pump_keeps
      | apply State.sdCheck_keeps
      | apply State.setFb_keeps
      | apply State.bookReturn_keeps
      | apply State.setMode_keeps
      | apply State.modeRecord_keeps
      | apply State.actPending_keeps
      | apply State.grantsFollow_keeps
      | apply State.pfailResume_keeps
      | apply State.wakeRaised_keeps
      | apply State.restore_keeps
      | apply State.returnDone_keeps
      | apply State.slotZero_keeps
      | apply State.returnResult_keeps
      | apply State.returnOn_keeps
      | apply Keeps.foldl
      | apply Keeps.foldl_snd
      | dsimp only
      | split
      | (refine Keeps.of_some (by assumption) ?_)
      | (refine Keeps.of_snd (by assumption) ?_)
      | (refine Keeps.of_snd_snd (by assumption) ?_)
      | (intro _ _ _; beta_reduce)
      | (fail_if_no_progress apply Keeps.other)
      | intro _
  clear_value s4_5
  have h_s5_6 : Keeps r_ s5_6 := by
    unfold s5_6
    repeat' with_reducible first
      | assumption
      | exact Keeps.refl _
      | apply State.setReg_keeps
      | apply State.raise_keeps
      | apply State.pump_keeps
      | apply State.sdCheck_keeps
      | apply State.setFb_keeps
      | apply State.bookReturn_keeps
      | apply State.setMode_keeps
      | apply State.modeRecord_keeps
      | apply State.actPending_keeps
      | apply State.grantsFollow_keeps
      | apply State.pfailResume_keeps
      | apply State.wakeRaised_keeps
      | apply State.restore_keeps
      | apply State.returnDone_keeps
      | apply State.slotZero_keeps
      | apply State.returnResult_keeps
      | apply State.returnOn_keeps
      | apply Keeps.foldl
      | apply Keeps.foldl_snd
      | dsimp only
      | split
      | (refine Keeps.of_some (by assumption) ?_)
      | (refine Keeps.of_snd (by assumption) ?_)
      | (refine Keeps.of_snd_snd (by assumption) ?_)
      | (intro _ _ _; beta_reduce)
      | (fail_if_no_progress apply Keeps.other)
      | intro _
  clear_value s5_6
  repeat' with_reducible first
    | assumption
    | exact Keeps.refl _
    | apply State.setReg_keeps
    | apply State.raise_keeps
    | apply State.pump_keeps
    | apply State.sdCheck_keeps
    | apply State.setFb_keeps
    | apply State.bookReturn_keeps
    | apply State.setMode_keeps
    | apply State.modeRecord_keeps
    | apply State.actPending_keeps
    | apply State.grantsFollow_keeps
    | apply State.pfailResume_keeps
    | apply State.wakeRaised_keeps
    | apply State.restore_keeps
    | apply State.returnDone_keeps
    | apply State.slotZero_keeps
    | apply State.returnResult_keeps
    | apply State.returnOn_keeps
    | apply Keeps.foldl
    | apply Keeps.foldl_snd
    | dsimp only
    | split
    | (refine Keeps.of_some (by assumption) ?_)
    | (refine Keeps.of_snd (by assumption) ?_)
    | (refine Keeps.of_snd_snd (by assumption) ?_)
    | (intro _ _ _; beta_reduce)
    | (fail_if_no_progress apply Keeps.other)
    | intro _

theorem State.returnOff_keeps {r_ : State} (s : State) (h_ : Keeps r_ s) : Keeps r_ (State.returnOff s) := by
  unfold State.returnOff
  extract_lets +onlyGivenNames o_0 s1_1 s2_2
  try clear_value o_0
  have h_s1_1 : Keeps r_ s1_1 := by
    unfold s1_1
    repeat' with_reducible first
      | assumption
      | exact Keeps.refl _
      | apply State.setReg_keeps
      | apply State.bookOffers_keeps
      | apply State.bookReturn_keeps
      | apply State.setMode_keeps
      | apply State.modeRecord_keeps
      | apply State.actPending_keeps
      | apply State.pfailResume_keeps
      | apply State.wakeRaised_keeps
      | apply State.returnDone_keeps
      | apply State.slotZero_keeps
      | apply State.returnResult_keeps
      | apply State.returnOn_keeps
      | apply Keeps.foldl
      | apply Keeps.foldl_snd
      | dsimp only
      | split
      | (refine Keeps.of_some (by assumption) ?_)
      | (refine Keeps.of_snd (by assumption) ?_)
      | (refine Keeps.of_snd_snd (by assumption) ?_)
      | (intro _ _ _; beta_reduce)
      | (fail_if_no_progress apply Keeps.other)
      | intro _
  clear_value s1_1
  have h_s2_2 : Keeps r_ s2_2 := by
    unfold s2_2
    repeat' with_reducible first
      | assumption
      | exact Keeps.refl _
      | apply State.setReg_keeps
      | apply State.bookOffers_keeps
      | apply State.bookReturn_keeps
      | apply State.setMode_keeps
      | apply State.modeRecord_keeps
      | apply State.actPending_keeps
      | apply State.pfailResume_keeps
      | apply State.wakeRaised_keeps
      | apply State.returnDone_keeps
      | apply State.slotZero_keeps
      | apply State.returnResult_keeps
      | apply State.returnOn_keeps
      | apply Keeps.foldl
      | apply Keeps.foldl_snd
      | dsimp only
      | split
      | (refine Keeps.of_some (by assumption) ?_)
      | (refine Keeps.of_snd (by assumption) ?_)
      | (refine Keeps.of_snd_snd (by assumption) ?_)
      | (intro _ _ _; beta_reduce)
      | (fail_if_no_progress apply Keeps.other)
      | intro _
  clear_value s2_2
  repeat' with_reducible first
    | assumption
    | exact Keeps.refl _
    | apply State.setReg_keeps
    | apply State.bookOffers_keeps
    | apply State.bookReturn_keeps
    | apply State.setMode_keeps
    | apply State.modeRecord_keeps
    | apply State.actPending_keeps
    | apply State.pfailResume_keeps
    | apply State.wakeRaised_keeps
    | apply State.returnDone_keeps
    | apply State.slotZero_keeps
    | apply State.returnResult_keeps
    | apply State.returnOn_keeps
    | apply Keeps.foldl
    | apply Keeps.foldl_snd
    | dsimp only
    | split
    | (refine Keeps.of_some (by assumption) ?_)
    | (refine Keeps.of_snd (by assumption) ?_)
    | (refine Keeps.of_snd_snd (by assumption) ?_)
    | (intro _ _ _; beta_reduce)
    | (fail_if_no_progress apply Keeps.other)
    | intro _

theorem State.lateReset_keeps {r_ : State} (s : State) (h_ : Keeps r_ s) : Keeps r_ (State.lateReset s) := by
  unfold State.lateReset
  repeat' with_reducible first
    | assumption
    | exact Keeps.refl _
    | apply State.setReg_keeps
    | apply State.lost_keeps
    | apply State.returnDone_keeps
    | apply Keeps.foldl
    | apply Keeps.foldl_snd
    | dsimp only
    | split
    | (refine Keeps.of_some (by assumption) ?_)
    | (refine Keeps.of_snd (by assumption) ?_)
    | (refine Keeps.of_snd_snd (by assumption) ?_)
    | (intro _ _ _; beta_reduce)
    | (fail_if_no_progress apply Keeps.other)
    | intro _

theorem execReturnEnd_keeps {r_ : State} (s : State) (h_ : Keeps r_ s) : KeepsNext r_ (execReturnEnd s) := by
  unfold execReturnEnd
  repeat' with_reducible first
    | assumption
    | exact Keeps.refl _
    | apply KeepsNext.next
    | apply KeepsNext.refused
    | apply gathered_keeps
    | apply State.returnLow_keeps
    | apply State.returnOff_keeps
    | apply State.lateReset_keeps
    | apply Keeps.foldl
    | apply Keeps.foldl_snd
    | dsimp only
    | split
    | (refine Keeps.of_some (by assumption) ?_)
    | (refine Keeps.of_snd (by assumption) ?_)
    | (refine Keeps.of_snd_snd (by assumption) ?_)
    | (intro _ _ _; beta_reduce)
    | (fail_if_no_progress apply Keeps.other)
    | intro _

theorem execSnowdropOverride_keeps {r_ : State} (view : Nat) (s : State) (h_ : Keeps r_ s) : KeepsNext r_ (execSnowdropOverride view s) := by
  unfold execSnowdropOverride
  repeat' with_reducible first
    | assumption
    | exact Keeps.refl _
    | apply KeepsNext.next
    | apply KeepsNext.refused
    | apply State.wr_keeps
    | apply State.setReg_keeps
    | apply State.wake_keeps
    | apply gathered_keeps
    | apply State.settled_keeps
    | apply State.forcedEntry_keeps
    | apply Keeps.foldl
    | apply Keeps.foldl_snd
    | dsimp only
    | split
    | (refine Keeps.of_some (by assumption) ?_)
    | (refine Keeps.of_snd (by assumption) ?_)
    | (refine Keeps.of_snd_snd (by assumption) ?_)
    | (intro _ _ _; beta_reduce)
    | (fail_if_no_progress apply Keeps.other)
    | intro _

theorem execPorstAssert_keeps {r_ : State} (s : State) (h_ : Keeps r_ s) : KeepsNext r_ (execPorstAssert s) := by
  unfold execPorstAssert
  repeat' with_reducible first
    | assumption
    | exact Keeps.refl _
    | apply KeepsNext.next
    | apply KeepsNext.refused
    | apply State.setReg_keeps
    | apply gathered_keeps
    | apply State.setMode_keeps
    | apply State.lost_keeps
    | apply State.returnDone_keeps
    | apply Keeps.foldl
    | apply Keeps.foldl_snd
    | dsimp only
    | split
    | (refine Keeps.of_some (by assumption) ?_)
    | (refine Keeps.of_snd (by assumption) ?_)
    | (refine Keeps.of_snd_snd (by assumption) ?_)
    | (intro _ _ _; beta_reduce)
    | (fail_if_no_progress apply Keeps.other)
    | intro _

theorem execPorstRelease_keeps {r_ : State} (serial : Nat) (s : State) (h_ : Keeps r_ s) : KeepsNext r_ (execPorstRelease serial s) := by
  unfold execPorstRelease
  repeat' with_reducible first
    | assumption
    | exact Keeps.refl _
    | apply KeepsNext.next
    | apply KeepsNext.refused
    | apply State.wr_keeps
    | apply State.setReg_keeps
    | apply gathered_keeps
    | apply State.startReturn_keeps
    | apply Keeps.foldl
    | apply Keeps.foldl_snd
    | dsimp only
    | split
    | (refine Keeps.of_some (by assumption) ?_)
    | (refine Keeps.of_snd (by assumption) ?_)
    | (refine Keeps.of_snd_snd (by assumption) ?_)
    | (intro _ _ _; beta_reduce)
    | (fail_if_no_progress apply Keeps.other)
    | intro _

theorem execSrstAssert_keeps {r_ : State} (s : State) (h_ : Keeps r_ s) : KeepsNext r_ (execSrstAssert s) := by
  unfold execSrstAssert
  repeat' with_reducible first
    | assumption
    | exact Keeps.refl _
    | apply KeepsNext.next
    | apply KeepsNext.refused
    | apply State.setReg_keeps
    | apply gathered_keeps
    | apply State.lost_keeps
    | apply State.startReturn_keeps
    | apply Keeps.foldl
    | apply Keeps.foldl_snd
    | dsimp only
    | split
    | (refine Keeps.of_some (by assumption) ?_)
    | (refine Keeps.of_snd (by assumption) ?_)
    | (refine Keeps.of_snd_snd (by assumption) ?_)
    | (intro _ _ _; beta_reduce)
    | (fail_if_no_progress apply Keeps.other)
    | intro _

theorem execSrstRelease_keeps {r_ : State} (s : State) (h_ : Keeps r_ s) : KeepsNext r_ (execSrstRelease s) := by
  unfold execSrstRelease
  repeat' with_reducible first
    | assumption
    | exact Keeps.refl _
    | apply KeepsNext.next
    | apply KeepsNext.refused
    | apply State.setReg_keeps
    | apply gathered_keeps
    | apply State.pfailResume_keeps
    | apply Keeps.foldl
    | apply Keeps.foldl_snd
    | dsimp only
    | split
    | (refine Keeps.of_some (by assumption) ?_)
    | (refine Keeps.of_snd (by assumption) ?_)
    | (refine Keeps.of_snd_snd (by assumption) ?_)
    | (intro _ _ _; beta_reduce)
    | (fail_if_no_progress apply Keeps.other)
    | intro _

theorem execSdClkLost_keeps {r_ : State} (s : State) (h_ : Keeps r_ s) : KeepsNext r_ (execSdClkLost s) := by
  unfold execSdClkLost
  repeat' with_reducible first
    | assumption
    | exact Keeps.refl _
    | apply KeepsNext.next
    | apply KeepsNext.refused
    | apply State.setReg_keeps
    | apply State.record_keeps
    | apply Keeps.foldl
    | apply Keeps.foldl_snd
    | dsimp only
    | split
    | (refine Keeps.of_some (by assumption) ?_)
    | (refine Keeps.of_snd (by assumption) ?_)
    | (refine Keeps.of_snd_snd (by assumption) ?_)
    | (intro _ _ _; beta_reduce)
    | (fail_if_no_progress apply Keeps.other)
    | intro _

theorem execSdClkRestored_keeps {r_ : State} (s : State) (h_ : Keeps r_ s) : KeepsNext r_ (execSdClkRestored s) := by
  unfold execSdClkRestored
  repeat' with_reducible first
    | assumption
    | exact Keeps.refl _
    | apply KeepsNext.next
    | apply KeepsNext.refused
    | apply State.setReg_keeps
    | apply State.record_keeps
    | apply Keeps.foldl
    | apply Keeps.foldl_snd
    | dsimp only
    | split
    | (refine Keeps.of_some (by assumption) ?_)
    | (refine Keeps.of_snd (by assumption) ?_)
    | (refine Keeps.of_snd_snd (by assumption) ?_)
    | (intro _ _ _; beta_reduce)
    | (fail_if_no_progress apply Keeps.other)
    | intro _

theorem execPllLockLoss_keeps {r_ : State} (s : State) (h_ : Keeps r_ s) : KeepsNext r_ (execPllLockLoss s) := by
  unfold execPllLockLoss
  repeat' with_reducible first
    | assumption
    | exact Keeps.refl _
    | apply KeepsNext.next
    | apply KeepsNext.refused
    | apply State.setReg_keeps
    | apply State.latch_keeps
    | apply State.recordSd_keeps
    | apply gathered_keeps
    | apply State.lost_keeps
    | apply State.startReturn_keeps
    | apply Keeps.foldl
    | apply Keeps.foldl_snd
    | dsimp only
    | split
    | (refine Keeps.of_some (by assumption) ?_)
    | (refine Keeps.of_snd (by assumption) ?_)
    | (refine Keeps.of_snd_snd (by assumption) ?_)
    | (intro _ _ _; beta_reduce)
    | (fail_if_no_progress apply Keeps.other)
    | intro _

end Sys2Proof.Machine
end

