-- ==== Sys2Proof/Laws/KeepsResolve.lean ====
section
/-! SUPPORT. What the operations of Resolve.lean keep (Keeps.lean). -/
set_option linter.unusedTactic false
set_option linter.unreachableTactic false
namespace Sys2Proof.Machine

theorem State.refuse_keeps {r_ : State} (s : State) (u : Nat) (c : Abort) (h_ : Keeps r_ s) : Keeps r_ (State.refuse s u c).state := by
  unfold State.refuse
  repeat' with_reducible first
    | assumption
    | exact Keeps.refl _
    | apply State.refusedAt_keeps
    | apply Keeps.foldl
    | apply Keeps.foldl_snd
    | dsimp only
    | split
    | (refine Keeps.of_some (by assumption) ?_)
    | (refine Keeps.of_snd (by assumption) ?_)
    | (refine Keeps.of_snd_snd (by assumption) ?_)
    | (intro _ _ _; beta_reduce)
    | (fail_if_no_progress apply Keeps.other)
    | intro _

end Sys2Proof.Machine
end

