-- ==== Sys2Proof/Laws/KeepsEntries.lean ====
section
/-! SUPPORT. What the operations of Entries.lean keep (Keeps.lean). -/
set_option linter.unusedTactic false
set_option linter.unreachableTactic false
namespace Sys2Proof.Machine

theorem State.stageEntry_keeps {r_ : State} (s : State) (a : Agent) (u : Nat) (i : Nat) (e : Nat) (v : Nat) (good : Bool) (h_ : Keeps r_ s) : Keeps r_ (State.stageEntry s a u i e v good).2 := by
  unfold State.stageEntry
  repeat' with_reducible first
    | assumption
    | exact Keeps.refl _
    | apply State.stage_keeps
    | apply Keeps.foldl
    | apply Keeps.foldl_snd
    | dsimp only
    | split
    | (refine Keeps.of_some (by assumption) ?_)
    | (refine Keeps.of_snd (by assumption) ?_)
    | (refine Keeps.of_snd_snd (by assumption) ?_)
    | (intro _ _ _; beta_reduce)
    | (fail_if_no_progress apply Keeps.other)
    | intro _

theorem State.plainEntry_keeps {r_ : State} (s : State) (u : Nat) (i : Nat) (e : Nat) (v : Nat) (good : Bool) (h_ : Keeps r_ s) : Keeps r_ (State.plainEntry s u i e v good).2 := by
  unfold State.plainEntry
  repeat' with_reducible first
    | assumption
    | exact Keeps.refl _
    | apply State.setEnt_keeps
    | apply Keeps.foldl
    | apply Keeps.foldl_snd
    | dsimp only
    | split
    | (refine Keeps.of_some (by assumption) ?_)
    | (refine Keeps.of_snd (by assumption) ?_)
    | (refine Keeps.of_snd_snd (by assumption) ?_)
    | (intro _ _ _; beta_reduce)
    | (fail_if_no_progress apply Keeps.other)
    | intro _

theorem State.entryWrite_keeps {r_ : State} (s : State) (a : Agent) (u : Nat) (i : Nat) (e : Nat) (octets : List Octet) (h_ : Keeps r_ s) : Keeps r_ (State.entryWrite s a u i e octets).2 := by
  unfold State.entryWrite
  repeat' with_reducible first
    | assumption
    | exact Keeps.refl _
    | apply State.guard_keeps
    | apply State.sourceEntryWrite_keeps
    | apply State.queueEntryWrite_keeps
    | apply State.jobWrite_keeps
    | apply State.streamEntryWrite_keeps
    | apply State.atlasWrite_keeps
    | apply State.policerEntryWrite_keeps
    | apply State.queueUpdate_keeps
    | apply State.stageEntry_keeps
    | apply State.plainEntry_keeps
    | apply Keeps.foldl
    | apply Keeps.foldl_snd
    | dsimp only
    | split
    | (refine Keeps.of_some (by assumption) ?_)
    | (refine Keeps.of_snd (by assumption) ?_)
    | (refine Keeps.of_snd_snd (by assumption) ?_)
    | (intro _ _ _; beta_reduce)
    | (fail_if_no_progress apply Keeps.other)
    | intro _

end Sys2Proof.Machine
end

