-- ==== Sys2Proof/Laws/KeepsDataport.lean ====
section
/-! SUPPORT. What the operations of Dataport.lean keep (Keeps.lean). -/
set_option linter.unusedTactic false
set_option linter.unreachableTactic false
namespace Sys2Proof.Machine

theorem State.dpTarget_keeps {r_ : State} (s : State) (a : Agent) (v : Nat) (h_ : Keeps r_ s) : Keeps r_ (State.dpTarget s a v).2 := by
  unfold State.dpTarget
  extract_lets +onlyGivenNames c_0
  try clear_value c_0
  repeat' with_reducible first
    | assumption
    | exact Keeps.refl _
    | apply State.setCtx_keeps
    | apply Keeps.foldl
    | apply Keeps.foldl_snd
    | dsimp only
    | split
    | (refine Keeps.of_some (by assumption) ?_)
    | (refine Keeps.of_snd (by assumption) ?_)
    | (refine Keeps.of_snd_snd (by assumption) ?_)
    | (intro _ _ _; beta_reduce)
    | (fail_if_no_progress apply Keeps.other)
    | intro _

theorem State.dpOffset_keeps {r_ : State} (s : State) (a : Agent) (v : Nat) (h_ : Keeps r_ s) : Keeps r_ (State.dpOffset s a v).2 := by
  unfold State.dpOffset
  extract_lets +onlyGivenNames c_0
  try clear_value c_0
  repeat' with_reducible first
    | assumption
    | exact Keeps.refl _
    | apply State.setCtx_keeps
    | apply Keeps.foldl
    | apply Keeps.foldl_snd
    | dsimp only
    | split
    | (refine Keeps.of_some (by assumption) ?_)
    | (refine Keeps.of_snd (by assumption) ?_)
    | (refine Keeps.of_snd_snd (by assumption) ?_)
    | (intro _ _ _; beta_reduce)
    | (fail_if_no_progress apply Keeps.other)
    | intro _

theorem State.dpLength_keeps {r_ : State} (s : State) (a : Agent) (v : Nat) (h_ : Keeps r_ s) : Keeps r_ (State.dpLength s a v).2 := by
  unfold State.dpLength
  extract_lets +onlyGivenNames c_0
  try clear_value c_0
  repeat' with_reducible first
    | assumption
    | exact Keeps.refl _
    | apply State.setCtx_keeps
    | apply Keeps.foldl
    | apply Keeps.foldl_snd
    | dsimp only
    | split
    | (refine Keeps.of_some (by assumption) ?_)
    | (refine Keeps.of_snd (by assumption) ?_)
    | (refine Keeps.of_snd_snd (by assumption) ?_)
    | (intro _ _ _; beta_reduce)
    | (fail_if_no_progress apply Keeps.other)
    | intro _

theorem State.dpPath_keeps {r_ : State} (s : State) (a : Agent) (k : Nat) (v : Nat) (h_ : Keeps r_ s) : Keeps r_ (State.dpPath s a k v) := by
  unfold State.dpPath
  extract_lets +onlyGivenNames c_0
  try clear_value c_0
  repeat' with_reducible first
    | assumption
    | exact Keeps.refl _
    | apply State.setCtx_keeps
    | apply Keeps.foldl
    | apply Keeps.foldl_snd
    | dsimp only
    | split
    | (refine Keeps.of_some (by assumption) ?_)
    | (refine Keeps.of_snd (by assumption) ?_)
    | (refine Keeps.of_snd_snd (by assumption) ?_)
    | (intro _ _ _; beta_reduce)
    | (fail_if_no_progress apply Keeps.other)
    | intro _

theorem State.dpDeliver_keeps {r_ : State} (s : State) (a : Agent) (n : Nat) (h_ : Keeps r_ s) : Keeps r_ (State.dpDeliver s a n).2.2 := by
  unfold State.dpDeliver
  extract_lets +onlyGivenNames c_0
  try clear_value c_0
  repeat' with_reducible first
    | assumption
    | exact Keeps.refl _
    | apply State.setCtx_keeps
    | apply State.dpHold_keeps
    | apply Keeps.foldl
    | apply Keeps.foldl_snd
    | dsimp only
    | split
    | (refine Keeps.of_some (by assumption) ?_)
    | (refine Keeps.of_snd (by assumption) ?_)
    | (refine Keeps.of_snd_snd (by assumption) ?_)
    | (intro _ _ _; beta_reduce)
    | (fail_if_no_progress apply Keeps.other)
    | intro _

theorem State.dpRead_keeps {r_ : State} (s : State) (a : Agent) (n : Nat) (h_ : Keeps r_ s) : Keeps r_ (State.dpRead s a n).2.2 := by
  unfold State.dpRead
  repeat' with_reducible first
    | assumption
    | exact Keeps.refl _
    | apply State.queueOp_keeps
    | apply State.dpDeliver_keeps
    | apply Keeps.foldl
    | apply Keeps.foldl_snd
    | dsimp only
    | split
    | (refine Keeps.of_some (by assumption) ?_)
    | (refine Keeps.of_snd (by assumption) ?_)
    | (refine Keeps.of_snd_snd (by assumption) ?_)
    | (intro _ _ _; beta_reduce)
    | (fail_if_no_progress apply Keeps.other)
    | intro _

theorem State.entriesWrite_keeps {r_ : State} (n : Nat) (s : State) (a : Agent) (t : Nat × Nat) (size e : Nat) (l : List Octet) (w : Bool) (h_ : Keeps r_ s) : Keeps r_ (State.entriesWrite n s a t size e l w).2.2 := by
  induction n generalizing s e l w with
  | zero => exact h_
  | succ n_ ih =>
    unfold State.entriesWrite
    repeat' with_reducible first
      | assumption
      | exact Keeps.refl _
      | apply ih
      | apply State.entryWrite_keeps
      | apply Keeps.foldl
      | apply Keeps.foldl_snd
      | dsimp only
      | split
      | (refine Keeps.of_some (by assumption) ?_)
      | (refine Keeps.of_snd (by assumption) ?_)
      | (refine Keeps.of_snd_snd (by assumption) ?_)
      | (intro _ _ _; beta_reduce)
      | (fail_if_no_progress apply Keeps.other)
      | intro _

theorem State.releaseHeld_keeps {r_ : State} (s : State) (a : Agent) (h_ : Keeps r_ s) : Keeps r_ (State.releaseHeld s a) := by
  unfold State.releaseHeld
  repeat' with_reducible first
    | assumption
    | exact Keeps.refl _
    | apply Keeps.foldl
    | apply Keeps.foldl_snd
    | dsimp only
    | split
    | (refine Keeps.of_some (by assumption) ?_)
    | (refine Keeps.of_snd (by assumption) ?_)
    | (refine Keeps.of_snd_snd (by assumption) ?_)
    | (intro _ _ _; beta_reduce)
    | (fail_if_no_progress apply Keeps.other)
    | intro _

theorem State.dpMove_keeps {r_ : State} (s : State) (a : Agent) (c : DpCtx) (t : Nat × Nat) (octets : List Octet) (h_ : Keeps r_ s) : Keeps r_ (State.dpMove s a c t octets).2.2 := by
  unfold State.dpMove
  extract_lets +onlyGivenNames size_0 m_1 p_2 all_3 n_4
  try clear_value size_0
  try clear_value m_1
  try clear_value p_2
  try clear_value all_3
  try clear_value n_4
  repeat' with_reducible first
    | assumption
    | exact Keeps.refl _
    | apply State.setCtx_keeps
    | apply State.entriesWrite_keeps
    | apply State.releaseHeld_keeps
    | apply Keeps.foldl
    | apply Keeps.foldl_snd
    | dsimp only
    | split
    | (refine Keeps.of_some (by assumption) ?_)
    | (refine Keeps.of_snd (by assumption) ?_)
    | (refine Keeps.of_snd_snd (by assumption) ?_)
    | (intro _ _ _; beta_reduce)
    | (fail_if_no_progress apply Keeps.other)
    | intro _

theorem State.dpWrite_keeps {r_ : State} (s : State) (a : Agent) (boot : Bool) (octets : List Octet) (h_ : Keeps r_ s) : Keeps r_ (State.dpWrite s a boot octets).2 := by
  unfold State.dpWrite
  extract_lets +onlyGivenNames c_0
  try clear_value c_0
  repeat' with_reducible first
    | assumption
    | exact Keeps.refl _
    | apply State.dpHold_keeps
    | apply State.wrote_keeps
    | apply State.refusedAt_keeps
    | apply State.dpMove_keeps
    | apply Keeps.foldl
    | apply Keeps.foldl_snd
    | dsimp only
    | split
    | (refine Keeps.of_some (by assumption) ?_)
    | (refine Keeps.of_snd (by assumption) ?_)
    | (refine Keeps.of_snd_snd (by assumption) ?_)
    | (intro _ _ _; beta_reduce)
    | (fail_if_no_progress apply Keeps.other)
    | intro _

theorem execDpApertureRead_keeps {r_ : State} (window : Nat) (width : Nat) (s : State) (h_ : Keeps r_ s) : KeepsNext r_ (execDpApertureRead window width s) := by
  unfold execDpApertureRead
  repeat' with_reducible first
    | assumption
    | exact Keeps.refl _
    | apply KeepsNext.next
    | apply KeepsNext.refused
    | apply State.complete_keeps
    | apply State.wake_keeps
    | apply State.dpHold_keeps
    | apply State.dpRead_keeps
    | apply Keeps.foldl
    | apply Keeps.foldl_snd
    | dsimp only
    | split
    | (refine Keeps.of_some (by assumption) ?_)
    | (refine Keeps.of_snd (by assumption) ?_)
    | (refine Keeps.of_snd_snd (by assumption) ?_)
    | (intro _ _ _; beta_reduce)
    | (fail_if_no_progress apply Keeps.other)
    | intro _

theorem execDpApertureWrite_keeps {r_ : State} (window : Nat) (width : Nat) (word : Nat) (s : State) (h_ : Keeps r_ s) : KeepsNext r_ (execDpApertureWrite window width word s) := by
  unfold execDpApertureWrite
  repeat' with_reducible first
    | assumption
    | exact Keeps.refl _
    | apply KeepsNext.next
    | apply KeepsNext.refused
    | apply State.complete_keeps
    | apply State.wake_keeps
    | apply State.dpHold_keeps
    | apply State.dpWrite_keeps
    | apply Keeps.foldl
    | apply Keeps.foldl_snd
    | dsimp only
    | split
    | (refine Keeps.of_some (by assumption) ?_)
    | (refine Keeps.of_snd (by assumption) ?_)
    | (refine Keeps.of_snd_snd (by assumption) ?_)
    | (intro _ _ _; beta_reduce)
    | (fail_if_no_progress apply Keeps.other)
    | intro _

end Sys2Proof.Machine
end

