-- ==== Sys2Proof/Laws/KeepsRelays.lean ====
section
/-! SUPPORT. What the operations of Relays.lean keep (Keeps.lean). -/
set_option linter.unusedTactic false
set_option linter.unreachableTactic false
namespace Sys2Proof.Machine

theorem State.relaySend_keeps {r_ : State} (s : State) (who : RelayFor) (dst : Nat) (agent : Nat) (slot : Nat) (pdu : List Octet) (h_ : Keeps r_ s) : Keeps r_ (State.relaySend s who dst agent slot pdu) := by
  unfold State.relaySend
  extract_lets +onlyGivenNames tag_0 s1_1
  try clear_value tag_0
  have h_s1_1 : Keeps r_ s1_1 := by
    unfold s1_1
    repeat' with_reducible first
      | assumption
      | exact Keeps.refl _
      | apply State.setReg_keeps
      | apply State.sendControl_keeps
      | apply Keeps.foldl
      | apply Keeps.foldl_snd
      | dsimp only
      | split
      | (refine Keeps.of_some (by assumption) ?_)
      | (refine Keeps.of_snd (by assumption) ?_)
      | (refine Keeps.of_snd_snd (by assumption) ?_)
      | (intro _ _ _; beta_reduce)
      | (fail_if_no_progress apply Keeps.other)
      | intro _
  clear_value s1_1
  repeat' with_reducible first
    | assumption
    | exact Keeps.refl _
    | apply State.setReg_keeps
    | apply State.sendControl_keeps
    | apply Keeps.foldl
    | apply Keeps.foldl_snd
    | dsimp only
    | split
    | (refine Keeps.of_some (by assumption) ?_)
    | (refine Keeps.of_snd (by assumption) ?_)
    | (refine Keeps.of_snd_snd (by assumption) ?_)
    | (intro _ _ _; beta_reduce)
    | (fail_if_no_progress apply Keeps.other)
    | intro _

theorem State.relayManager_keeps {r_ : State} (s : State) (who : RelayFor) (id : Nat) (slot : Nat) (pdu : List Octet) (h_ : Keeps r_ s) : Keeps r_ (State.relayManager s who id slot pdu) := by
  unfold State.relayManager
  repeat' with_reducible first
    | assumption
    | exact Keeps.refl _
    | apply State.relaySend_keeps
    | apply Keeps.foldl
    | apply Keeps.foldl_snd
    | dsimp only
    | split
    | (refine Keeps.of_some (by assumption) ?_)
    | (refine Keeps.of_snd (by assumption) ?_)
    | (refine Keeps.of_snd_snd (by assumption) ?_)
    | (intro _ _ _; beta_reduce)
    | (fail_if_no_progress apply Keeps.other)
    | intro _

theorem State.groupSend_keeps {r_ : State} (s : State) (g : GroupCmd) (child : Nat) (h_ : Keeps r_ s) : Keeps r_ (State.groupSend s g child) := by
  unfold State.groupSend
  extract_lets +onlyGivenNames s1_0
  have h_s1_0 : Keeps r_ s1_0 := by
    unfold s1_0
    repeat' with_reducible first
      | assumption
      | exact Keeps.refl _
      | apply State.relayManager_keeps
      | apply Keeps.foldl
      | apply Keeps.foldl_snd
      | dsimp only
      | split
      | (refine Keeps.of_some (by assumption) ?_)
      | (refine Keeps.of_snd (by assumption) ?_)
      | (refine Keeps.of_snd_snd (by assumption) ?_)
      | (intro _ _ _; beta_reduce)
      | (fail_if_no_progress apply Keeps.other)
      | intro _
  clear_value s1_0
  repeat' with_reducible first
    | assumption
    | exact Keeps.refl _
    | apply State.relayManager_keeps
    | apply Keeps.foldl
    | apply Keeps.foldl_snd
    | dsimp only
    | split
    | (refine Keeps.of_some (by assumption) ?_)
    | (refine Keeps.of_snd (by assumption) ?_)
    | (refine Keeps.of_snd_snd (by assumption) ?_)
    | (intro _ _ _; beta_reduce)
    | (fail_if_no_progress apply Keeps.other)
    | intro _

theorem State.groupPump_keeps {r_ : State} (s : State) (h_ : Keeps r_ s) : Keeps r_ (State.groupPump s) := by
  unfold State.groupPump
  repeat' with_reducible first
    | assumption
    | exact Keeps.refl _
    | apply State.groupSend_keeps
    | apply Keeps.foldl
    | apply Keeps.foldl_snd
    | dsimp only
    | split
    | (refine Keeps.of_some (by assumption) ?_)
    | (refine Keeps.of_snd (by assumption) ?_)
    | (refine Keeps.of_snd_snd (by assumption) ?_)
    | (intro _ _ _; beta_reduce)
    | (fail_if_no_progress apply Keeps.other)
    | intro _

theorem State.groupStart_keeps {r_ : State} (s : State) (a : Agent) (u : Nat) (i : Nat) (data : List Octet) (remote : List Nat) (here : Bool) (first : Option (Abort × Nat)) (reply : List Octet) (h_ : Keeps r_ s) : Keeps r_ (State.groupStart s a u i data remote here first reply) := by
  unfold State.groupStart
  extract_lets +onlyGivenNames g_0
  try clear_value g_0
  repeat' with_reducible first
    | assumption
    | exact Keeps.refl _
    | apply State.groupEnd_keeps
    | apply State.groupPump_keeps
    | apply Keeps.foldl
    | apply Keeps.foldl_snd
    | dsimp only
    | split
    | (refine Keeps.of_some (by assumption) ?_)
    | (refine Keeps.of_snd (by assumption) ?_)
    | (refine Keeps.of_snd_snd (by assumption) ?_)
    | (intro _ _ _; beta_reduce)
    | (fail_if_no_progress apply Keeps.other)
    | intro _

theorem State.groupLease_keeps {r_ : State} (s : State) (a : Agent) (i : Nat) (h_ : Keeps r_ s) : Keeps r_ (State.groupLease s a i) := by
  unfold State.groupLease
  extract_lets +onlyGivenNames f_0 own_1 here_2
  try clear_value f_0
  try clear_value own_1
  try clear_value here_2
  repeat' with_reducible first
    | assumption
    | exact Keeps.refl _
    | apply State.leaseRenew_keeps
    | apply State.leaseRelease_keeps
    | apply State.ran_keeps
    | apply State.refusedAt_keeps
    | apply State.groupStart_keeps
    | apply Keeps.foldl
    | apply Keeps.foldl_snd
    | dsimp only
    | split
    | (refine Keeps.of_some (by assumption) ?_)
    | (refine Keeps.of_snd (by assumption) ?_)
    | (refine Keeps.of_snd_snd (by assumption) ?_)
    | (intro _ _ _; beta_reduce)
    | (fail_if_no_progress apply Keeps.other)
    | intro _

theorem State.ackUnit_keeps {r_ : State} (mask : Nat) (s : State) (u : Nat) (h_ : Keeps r_ s) : Keeps r_ (State.ackUnit mask s u) := by
  unfold State.ackUnit
  extract_lets +onlyGivenNames s1_0
  have h_s1_0 : Keeps r_ s1_0 := by
    unfold s1_0
    repeat' with_reducible first
      | assumption
      | exact Keeps.refl _
      | apply State.wr_keeps
      | apply Keeps.foldl
      | apply Keeps.foldl_snd
      | dsimp only
      | split
      | (refine Keeps.of_some (by assumption) ?_)
      | (refine Keeps.of_snd (by assumption) ?_)
      | (refine Keeps.of_snd_snd (by assumption) ?_)
      | (intro _ _ _; beta_reduce)
      | (fail_if_no_progress apply Keeps.other)
      | intro _
  clear_value s1_0
  repeat' with_reducible first
    | assumption
    | exact Keeps.refl _
    | apply State.wr_keeps
    | apply Keeps.foldl
    | apply Keeps.foldl_snd
    | dsimp only
    | split
    | (refine Keeps.of_some (by assumption) ?_)
    | (refine Keeps.of_snd (by assumption) ?_)
    | (refine Keeps.of_snd_snd (by assumption) ?_)
    | (intro _ _ _; beta_reduce)
    | (fail_if_no_progress apply Keeps.other)
    | intro _

end Sys2Proof.Machine
end

