-- ==== Sys2Proof/Laws/KeepsObjects.lean ====
section
/-! SUPPORT. What the operations of Objects.lean keep (Keeps.lean). -/
set_option linter.unusedTactic false
set_option linter.unreachableTactic false
namespace Sys2Proof.Machine

theorem Effect.ends_keeps {r_ s : State} (c : Abort) (h_ : Keeps r_ s) : Keeps r_ (Effect.ends c s).state := h_
theorem Effect.waits_keeps {r_ s : State} (h_ : Keeps r_ s) : Keeps r_ (Effect.waits s).state := h_
theorem Effect.refused_keeps {r_ s : State} (c : Abort) (h_ : Keeps r_ s) : Keeps r_ (Effect.refused c s).state := h_

theorem Effect.after_keeps {r_ : State} (e : Effect) (f : State → State) (h_ : Keeps r_ e.state) (hf : ∀ u, Keeps r_ u → Keeps r_ (f u)) :
    Keeps r_ (Effect.after e f).state := by
  cases e with
  | ends c t => exact hf _ h_
  | waits t => exact hf _ h_
  | refused c t => exact h_

theorem Effect.told_keeps {r_ : State} (p : Abort × State) (h_ : Keeps r_ p.2) : Keeps r_ (Effect.told p).state := by
  unfold Effect.told
  split <;> exact h_

theorem Effect.later_keeps {r_ : State} (p : Option Abort × State) (h_ : Keeps r_ p.2) : Keeps r_ (Effect.later p).state := by
  unfold Effect.later
  split
  · exact Effect.told_keeps _ h_
  · exact h_

theorem State.groupRun_keeps {r_ : State} (s : State) (u i : Nat) (children : List Nat) (act : State → Nat → Abort × State) (h_ : Keeps r_ s)
    (h_act : ∀ u_ n_, Keeps r_ u_ → Keeps r_ (act u_ n_).2) : Keeps r_ (State.groupRun s u i children act).state := by
  unfold State.groupRun
  exact State.unitResult_keeps _ _ _ _ _ _ (Keeps.foldl_snd h_ fun p x hp =>
    State.refusedAt_keeps _ _ _ (State.ran_keeps _ _ _ _ (h_act _ _ hp)))

theorem State.installKey_keeps {r_ : State} (s : State) (k : Nat) (v : Nat) (h_ : Keeps r_ s) : Keeps r_ (State.installKey s k v) := by
  unfold State.installKey
  repeat' with_reducible first
    | assumption
    | exact Keeps.refl _
    | apply State.wr_keeps
    | apply Keeps.foldl
    | apply Keeps.foldl_snd
    | dsimp only
    | split
    | (refine Keeps.of_some (by assumption) ?_)
    | (refine Keeps.of_snd (by assumption) ?_)
    | (refine Keeps.of_snd_snd (by assumption) ?_)
    | (intro _ _ _; beta_reduce)
    | (fail_if_no_progress apply Keeps.other)
    | intro _

theorem State.alarmAck_keeps {r_ : State} (s : State) (a : Agent) (u : Nat) (mask : Nat) (h_ : Keeps r_ s) : Keeps r_ (State.alarmAck s a u mask).state := by
  unfold State.alarmAck
  extract_lets +onlyGivenNames units_0 groups_1 s1_2 remote_3
  try clear_value units_0
  try clear_value groups_1
  try clear_value remote_3
  have h_s1_2 : Keeps r_ s1_2 := by
    unfold s1_2
    repeat' with_reducible first
      | assumption
      | exact Keeps.refl _
      | apply State.unitResult_keeps
      | apply State.groupStart_keeps
      | apply State.ackUnit_keeps
      | apply Effect.ends_keeps
      | apply Effect.waits_keeps
      | apply Keeps.foldl
      | apply Keeps.foldl_snd
      | dsimp only
      | split
      | (refine Keeps.of_some (by assumption) ?_)
      | (refine Keeps.of_snd (by assumption) ?_)
      | (refine Keeps.of_snd_snd (by assumption) ?_)
      | (intro _ _ _; beta_reduce)
      | (fail_if_no_progress apply Keeps.other)
      | intro _
  clear_value s1_2
  repeat' with_reducible first
    | assumption
    | exact Keeps.refl _
    | apply State.unitResult_keeps
    | apply State.groupStart_keeps
    | apply State.ackUnit_keeps
    | apply Effect.ends_keeps
    | apply Effect.waits_keeps
    | apply Keeps.foldl
    | apply Keeps.foldl_snd
    | dsimp only
    | split
    | (refine Keeps.of_some (by assumption) ?_)
    | (refine Keeps.of_snd (by assumption) ?_)
    | (refine Keeps.of_snd_snd (by assumption) ?_)
    | (intro _ _ _; beta_reduce)
    | (fail_if_no_progress apply Keeps.other)
    | intro _

theorem State.leaseCommand_keeps {r_ : State} (s : State) (a : Agent) (u : Nat) (i : Nat) (h_ : Keeps r_ s) : Keeps r_ (State.leaseCommand s a u i).state := by
  unfold State.leaseCommand
  repeat' with_reducible first
    | assumption
    | exact Keeps.refl _
    | apply State.leaseRenew_keeps
    | apply State.leaseRelease_keeps
    | apply State.groupLease_keeps
    | apply Effect.waits_keeps
    | apply Effect.told_keeps
    | apply Keeps.foldl
    | apply Keeps.foldl_snd
    | dsimp only
    | split
    | (refine Keeps.of_some (by assumption) ?_)
    | (refine Keeps.of_snd (by assumption) ?_)
    | (refine Keeps.of_snd_snd (by assumption) ?_)
    | (intro _ _ _; beta_reduce)
    | (fail_if_no_progress apply Keeps.other)
    | intro _

theorem ringAct_keeps {r_ : State} (i : Nat) (s : State) (u : Nat) (h_ : Keeps r_ s) : Keeps r_ (ringAct i s u).2 := by
  unfold ringAct
  repeat' with_reducible first
    | assumption
    | exact Keeps.refl _
    | apply State.ringStart_keeps
    | apply State.ringStop_keeps
    | apply State.ringReset_keeps
    | apply Keeps.foldl
    | apply Keeps.foldl_snd
    | dsimp only
    | split
    | (refine Keeps.of_some (by assumption) ?_)
    | (refine Keeps.of_snd (by assumption) ?_)
    | (refine Keeps.of_snd_snd (by assumption) ?_)
    | (intro _ _ _; beta_reduce)
    | (fail_if_no_progress apply Keeps.other)
    | intro _

theorem clearAct_keeps {r_ : State} (s : State) (u : Nat) (h_ : Keeps r_ s) : Keeps r_ (clearAct s u).2 := by
  unfold clearAct
  repeat' with_reducible first
    | assumption
    | exact Keeps.refl _
    | apply State.statsClear_keeps
    | apply Keeps.foldl
    | apply Keeps.foldl_snd
    | dsimp only
    | split
    | (refine Keeps.of_some (by assumption) ?_)
    | (refine Keeps.of_snd (by assumption) ?_)
    | (refine Keeps.of_snd_snd (by assumption) ?_)
    | (intro _ _ _; beta_reduce)
    | (fail_if_no_progress apply Keeps.other)
    | intro _

theorem State.unitCommand_keeps {r_ : State} (s : State) (a : Agent) (inFrame : Bool) (kd : UnitKind) (u : Nat) (i : Nat) (v : Nat) (h_ : Keeps r_ s) : Keeps r_ (State.unitCommand s a inFrame kd u i v).state := by
  unfold State.unitCommand
  repeat' with_reducible first
    | assumption
    | exact Keeps.refl _
    | apply State.guard_keeps
    | apply State.foldFlush_keeps
    | apply State.testRaise_keeps
    | apply State.stepSet_keeps
    | apply State.adjust_keeps
    | apply State.linkCommand_keeps
    | apply State.scanAbort_keeps
    | apply State.monRestart_keeps
    | apply State.monFormat_keeps
    | apply State.atlasSet_keeps
    | apply State.atlasErase_keeps
    | apply State.editionCommit_keeps
    | apply State.editionDiscard_keeps
    | apply State.powerRequest_keeps
    | apply State.snapshot_keeps
    | apply Effect.ends_keeps
    | apply Effect.refused_keeps
    | apply Effect.told_keeps
    | apply Effect.later_keeps
    | apply State.groupRun_keeps
    | apply State.installKey_keeps
    | apply ringAct_keeps
    | apply clearAct_keeps
    | apply Keeps.foldl
    | apply Keeps.foldl_snd
    | dsimp only
    | split
    | (refine Keeps.of_some (by assumption) ?_)
    | (refine Keeps.of_snd (by assumption) ?_)
    | (refine Keeps.of_snd_snd (by assumption) ?_)
    | (intro _ _ _; beta_reduce)
    | (fail_if_no_progress apply Keeps.other)
    | intro _

theorem State.command_keeps {r_ : State} (s : State) (a : Agent) (inFrame : Bool) (kd : UnitKind) (u : Nat) (i : Nat) (v : Nat) (h_ : Keeps r_ s) : Keeps r_ (State.command s a inFrame kd u i v).state := by
  unfold State.command
  repeat' with_reducible first
    | assumption
    | exact Keeps.refl _
    | apply State.commit_keeps
    | apply State.discardSets_keeps
    | apply Effect.told_keeps
    | apply Effect.later_keeps
    | apply State.alarmAck_keeps
    | apply State.leaseCommand_keeps
    | apply State.unitCommand_keeps
    | apply Keeps.foldl
    | apply Keeps.foldl_snd
    | dsimp only
    | split
    | (refine Keeps.of_some (by assumption) ?_)
    | (refine Keeps.of_snd (by assumption) ?_)
    | (refine Keeps.of_snd_snd (by assumption) ?_)
    | (intro _ _ _; beta_reduce)
    | (fail_if_no_progress apply Keeps.other)
    | intro _

theorem State.ctxWrite_keeps {r_ : State} (s : State) (a : Agent) (i : Nat) (k : Nat) (v : Nat) (h_ : Keeps r_ s) : Keeps r_ (State.ctxWrite s a i k v).state := by
  unfold State.ctxWrite
  repeat' with_reducible first
    | assumption
    | exact Keeps.refl _
    | apply State.dpTarget_keeps
    | apply State.dpOffset_keeps
    | apply State.dpLength_keeps
    | apply State.dpPath_keeps
    | apply Effect.ends_keeps
    | apply Effect.told_keeps
    | apply Keeps.foldl
    | apply Keeps.foldl_snd
    | dsimp only
    | split
    | (refine Keeps.of_some (by assumption) ?_)
    | (refine Keeps.of_snd (by assumption) ?_)
    | (refine Keeps.of_snd_snd (by assumption) ?_)
    | (intro _ _ _; beta_reduce)
    | (fail_if_no_progress apply Keeps.other)
    | intro _

theorem State.liveWrite_keeps {r_ : State} (s : State) (a : Agent) (kd : UnitKind) (u : Nat) (i : Nat) (k : Nat) (v : Nat) (h_ : Keeps r_ s) : Keeps r_ (State.liveWrite s a kd u i k v).state := by
  unfold State.liveWrite
  repeat' with_reducible first
    | assumption
    | exact Keeps.refl _
    | apply State.wr_keeps
    | apply State.setReg_keeps
    | apply State.pump_keeps
    | apply State.ringObjWrite_keeps
    | apply State.eqObjWrite_keeps
    | apply State.loopbackWrite_keeps
    | apply State.freezeBook_keeps
    | apply State.thawBook_keeps
    | apply Effect.ends_keeps
    | apply Effect.told_keeps
    | apply State.ctxWrite_keeps
    | apply Keeps.foldl
    | apply Keeps.foldl_snd
    | dsimp only
    | split
    | (refine Keeps.of_some (by assumption) ?_)
    | (refine Keeps.of_snd (by assumption) ?_)
    | (refine Keeps.of_snd_snd (by assumption) ?_)
    | (intro _ _ _; beta_reduce)
    | (fail_if_no_progress apply Keeps.other)
    | intro _

theorem State.stagedWrite_keeps {r_ : State} (s : State) (a : Agent) (u : Nat) (i : Nat) (k : Nat) (v : Nat) (h_ : Keeps r_ s) : Keeps r_ (State.stagedWrite s a u i k v).state := by
  unfold State.stagedWrite
  repeat' with_reducible first
    | assumption
    | exact Keeps.refl _
    | apply State.stage_keeps
    | apply Effect.ends_keeps
    | apply Effect.refused_keeps
    | apply Keeps.foldl
    | apply Keeps.foldl_snd
    | dsimp only
    | split
    | (refine Keeps.of_some (by assumption) ?_)
    | (refine Keeps.of_snd (by assumption) ?_)
    | (refine Keeps.of_snd_snd (by assumption) ?_)
    | (intro _ _ _; beta_reduce)
    | (fail_if_no_progress apply Keeps.other)
    | intro _

theorem State.effectOf_keeps {r_ : State} (s : State) (a : Agent) (inFrame : Bool) (kd : UnitKind) (r : ObjRow) (u : Nat) (i : Nat) (k : Nat) (v : Nat) (h_ : Keeps r_ s) : Keeps r_ (State.effectOf s a inFrame kd r u i k v).state := by
  unfold State.effectOf
  repeat' with_reducible first
    | assumption
    | exact Keeps.refl _
    | apply Effect.ends_keeps
    | apply Effect.refused_keeps
    | apply State.installKey_keeps
    | apply State.command_keeps
    | apply State.liveWrite_keeps
    | apply State.stagedWrite_keeps
    | apply Keeps.foldl
    | apply Keeps.foldl_snd
    | dsimp only
    | split
    | (refine Keeps.of_some (by assumption) ?_)
    | (refine Keeps.of_snd (by assumption) ?_)
    | (refine Keeps.of_snd_snd (by assumption) ?_)
    | (intro _ _ _; beta_reduce)
    | (fail_if_no_progress apply Keeps.other)
    | intro _

theorem State.ranCode_keeps {r_ : State} (s : State) (r : ObjRow) (u : Nat) (i : Nat) (c : Abort) (h_ : Keeps r_ s) : Keeps r_ (State.ranCode s r u i c) := by
  unfold State.ranCode
  repeat' with_reducible first
    | assumption
    | exact Keeps.refl _
    | apply State.ran_keeps
    | apply Keeps.foldl
    | apply Keeps.foldl_snd
    | dsimp only
    | split
    | (refine Keeps.of_some (by assumption) ?_)
    | (refine Keeps.of_snd (by assumption) ?_)
    | (refine Keeps.of_snd_snd (by assumption) ?_)
    | (intro _ _ _; beta_reduce)
    | (fail_if_no_progress apply Keeps.other)
    | intro _

theorem State.refusedCode_keeps {r_ : State} (s : State) (u : Nat) (i : Nat) (c : Abort) (h_ : Keeps r_ s) : Keeps r_ (State.refusedCode s u i c) := by
  unfold State.refusedCode
  repeat' with_reducible first
    | assumption
    | exact Keeps.refl _
    | apply State.ran_keeps
    | apply Keeps.foldl
    | apply Keeps.foldl_snd
    | dsimp only
    | split
    | (refine Keeps.of_some (by assumption) ?_)
    | (refine Keeps.of_snd (by assumption) ?_)
    | (refine Keeps.of_snd_snd (by assumption) ?_)
    | (intro _ _ _; beta_reduce)
    | (fail_if_no_progress apply Keeps.other)
    | intro _

theorem Effect.reply_keeps {r_ : State} (e : Effect) (r : ObjRow) (u i : Nat) (h_ : Keeps r_ e.state) : Keeps r_ (Effect.reply e r u i).state := by
  cases e with
  | ends c t => exact State.ranCode_keeps _ _ _ _ _ h_
  | waits t =>
    show Keeps r_ (if _ then _ else _)
    exact Keeps.ite (State.ranCode_keeps _ _ _ _ _ h_) h_
  | refused c t => exact State.refuse_keeps _ _ _ h_

theorem State.writeHere_keeps {r_ : State} (s : State) (a : Agent) (inFrame boot : Bool) (u i k : Nat) (d : List Octet) (h_ : Keeps r_ s) :
    Keeps r_ (State.writeHere s a inFrame boot u i k d).state := by
  have hr : ∀ c, Keeps r_ (s.refuse u c).state := fun c => State.refuse_keeps _ _ _ h_
  unfold State.writeHere
  split
  · next r kd _ _ =>
    extract_lets +onlyGivenNames v e s0
    have he : Keeps r_ e.state := State.effectOf_keeps _ _ _ _ _ _ _ _ _ h_
    have h0 : Keeps r_ s0 := by
      show Keeps r_ (if _ then _ else _)
      exact Keeps.ite h_ (State.wrote_keeps _ _ _ h_)
    clear_value e s0
    repeat' with_reducible first
      | (refine iteInduction (motive := fun x : Reply => Keeps r_ x.state) (fun _ => ?_) (fun _ => ?_))
      | apply hr
      | assumption
      | apply State.dpWrite_keeps
      | apply Effect.reply_keeps
      | (refine Effect.after_keeps _ _ he fun u_ h_u => Keeps.ite h_u (State.wrote_keeps _ _ _ h_u))
      | exact he
      | apply State.effectOf_keeps
      | apply State.refuse_keeps
      | apply State.refusedCode_keeps
      | split
      | dsimp only
    exact he
  · exact hr _
  · exact hr _

theorem State.readEffect_keeps {r_ : State} (s : State) (u : Nat) (i : Nat) (k : Nat) (h_ : Keeps r_ s) : Keeps r_ (State.readEffect s u i k) := by
  unfold State.readEffect
  repeat' with_reducible first
    | assumption
    | exact Keeps.refl _
    | apply State.wr_keeps
    | apply Keeps.foldl
    | apply Keeps.foldl_snd
    | dsimp only
    | split
    | (refine Keeps.of_some (by assumption) ?_)
    | (refine Keeps.of_snd (by assumption) ?_)
    | (refine Keeps.of_snd_snd (by assumption) ?_)
    | (intro _ _ _; beta_reduce)
    | (fail_if_no_progress apply Keeps.other)
    | intro _

theorem State.readHere_keeps {r_ : State} (s : State) (a : Agent) (u : Nat) (i : Nat) (k : Nat) (asked : Option Nat) (h_ : Keeps r_ s) : Keeps r_ (State.readHere s a u i k asked).state := by
  unfold State.readHere
  repeat' with_reducible first
    | assumption
    | exact Keeps.refl _
    | apply State.dpRead_keeps
    | apply State.readEffect_keeps
    | apply Keeps.foldl
    | apply Keeps.foldl_snd
    | dsimp only
    | split
    | (refine Keeps.of_some (by assumption) ?_)
    | (refine Keeps.of_snd (by assumption) ?_)
    | (refine Keeps.of_snd_snd (by assumption) ?_)
    | (intro _ _ _; beta_reduce)
    | (fail_if_no_progress apply Keeps.other)
    | intro _

theorem State.writePath_keeps {r_ : State} (s : State) (a : Agent) (inFrame : Bool) (path : List Nat) (i : Nat) (k : Nat) (d : List Octet) (h_ : Keeps r_ s) : Keeps r_ (State.writePath s a inFrame path i k d).state := by
  unfold State.writePath
  repeat' with_reducible first
    | assumption
    | exact Keeps.refl _
    | apply State.refuse_keeps
    | apply State.writeHere_keeps
    | apply Keeps.foldl
    | apply Keeps.foldl_snd
    | dsimp only
    | split
    | (refine Keeps.of_some (by assumption) ?_)
    | (refine Keeps.of_snd (by assumption) ?_)
    | (refine Keeps.of_snd_snd (by assumption) ?_)
    | (intro _ _ _; beta_reduce)
    | (fail_if_no_progress apply Keeps.other)
    | intro _

theorem State.readPath_keeps {r_ : State} (s : State) (a : Agent) (path : List Nat) (i : Nat) (k : Nat) (asked : Option Nat) (h_ : Keeps r_ s) : Keeps r_ (State.readPath s a path i k asked).state := by
  unfold State.readPath
  repeat' with_reducible first
    | assumption
    | exact Keeps.refl _
    | apply State.readHere_keeps
    | apply Keeps.foldl
    | apply Keeps.foldl_snd
    | dsimp only
    | split
    | (refine Keeps.of_some (by assumption) ?_)
    | (refine Keeps.of_snd (by assumption) ?_)
    | (refine Keeps.of_snd_snd (by assumption) ?_)
    | (intro _ _ _; beta_reduce)
    | (fail_if_no_progress apply Keeps.other)
    | intro _

theorem State.told_keeps {r_ : State} (s : State) (a : Agent) (f : State → Reply) (h_f : ∀ u_, Keeps r_ u_ → Keeps r_ (f u_).state) (h_ : Keeps r_ s) : Keeps r_ (State.told s a f) := by
  unfold State.told
  repeat' with_reducible first
    | assumption
    | exact Keeps.refl _
    | apply h_f
    | apply State.complete_keeps
    | apply State.together_keeps
    | apply Effect.state_keeps
    | apply Keeps.foldl
    | apply Keeps.foldl_snd
    | dsimp only
    | split
    | (refine Keeps.of_some (by assumption) ?_)
    | (refine Keeps.of_snd (by assumption) ?_)
    | (refine Keeps.of_snd_snd (by assumption) ?_)
    | (intro _ _ _; beta_reduce)
    | (fail_if_no_progress apply Keeps.other)
    | intro _

theorem State.access_keeps {r_ : State} (s : State) (a : Agent) (path : List Nat) (i : Nat) (k : Nat) (d : List Octet) (h_ : Keeps r_ s) : KeepsNext r_ (State.access s a path i k d) := by
  unfold State.access
  repeat' with_reducible first
    | assumption
    | exact Keeps.refl _
    | apply KeepsNext.next
    | apply KeepsNext.refused
    | apply State.wake_keeps
    | apply State.refuse_keeps
    | apply State.relayManager_keeps
    | apply Effect.told_keeps
    | apply State.writePath_keeps
    | apply State.told_keeps
    | apply Keeps.foldl
    | apply Keeps.foldl_snd
    | dsimp only
    | split
    | (refine Keeps.of_some (by assumption) ?_)
    | (refine Keeps.of_snd (by assumption) ?_)
    | (refine Keeps.of_snd_snd (by assumption) ?_)
    | (intro _ _ _; beta_reduce)
    | (fail_if_no_progress apply Keeps.other)
    | intro _

theorem State.accessUnit_keeps {r_ : State} (s : State) (a : Agent) (u : Nat) (i : Nat) (k : Nat) (d : List Octet) (h_ : Keeps r_ s) : KeepsNext r_ (State.accessUnit s a u i k d) := by
  unfold State.accessUnit
  repeat' with_reducible first
    | assumption
    | exact Keeps.refl _
    | apply KeepsNext.next
    | apply KeepsNext.refused
    | apply State.access_keeps
    | apply Keeps.foldl
    | apply Keeps.foldl_snd
    | dsimp only
    | split
    | (refine Keeps.of_some (by assumption) ?_)
    | (refine Keeps.of_snd (by assumption) ?_)
    | (refine Keeps.of_snd_snd (by assumption) ?_)
    | (intro _ _ _; beta_reduce)
    | (fail_if_no_progress apply Keeps.other)
    | intro _

theorem State.readUnit_keeps {r_ : State} (s : State) (a : Agent) (u : Nat) (i : Nat) (k : Nat) (asked : Option Nat) (h_ : Keeps r_ s) : KeepsNext r_ (State.readUnit s a u i k asked) := by
  unfold State.readUnit
  repeat' with_reducible first
    | assumption
    | exact Keeps.refl _
    | apply KeepsNext.next
    | apply KeepsNext.refused
    | apply State.wake_keeps
    | apply Effect.told_keeps
    | apply State.readPath_keeps
    | apply State.told_keeps
    | apply Keeps.foldl
    | apply Keeps.foldl_snd
    | dsimp only
    | split
    | (refine Keeps.of_some (by assumption) ?_)
    | (refine Keeps.of_snd (by assumption) ?_)
    | (refine Keeps.of_snd_snd (by assumption) ?_)
    | (intro _ _ _; beta_reduce)
    | (fail_if_no_progress apply Keeps.other)
    | intro _

theorem State.transfer_keeps {r_ : State} (s : State) (a : Agent) (boot : Bool) (u : Nat) (i : Nat) (off : Nat) (octets : List Octet) (h_ : Keeps r_ s) : Keeps r_ (State.transfer s a boot u i off octets).2 := by
  unfold State.transfer
  repeat' with_reducible first
    | assumption
    | exact Keeps.refl _
    | apply State.setCtx_keeps
    | apply State.refusedAt_keeps
    | apply State.dpWrite_keeps
    | apply Keeps.foldl
    | apply Keeps.foldl_snd
    | dsimp only
    | split
    | (refine Keeps.of_some (by assumption) ?_)
    | (refine Keeps.of_snd (by assumption) ?_)
    | (refine Keeps.of_snd_snd (by assumption) ?_)
    | (intro _ _ _; beta_reduce)
    | (fail_if_no_progress apply Keeps.other)
    | intro _

theorem State.accessEntry_keeps {r_ : State} (s : State) (a : Agent) (u : Nat) (i : Nat) (e : Nat) (octets : List Octet) (h_ : Keeps r_ s) : KeepsNext r_ (State.accessEntry s a u i e octets) := by
  unfold State.accessEntry
  repeat' with_reducible first
    | assumption
    | exact Keeps.refl _
    | apply KeepsNext.next
    | apply KeepsNext.refused
    | apply State.wake_keeps
    | apply Effect.told_keeps
    | apply State.told_keeps
    | apply State.transfer_keeps
    | apply Keeps.foldl
    | apply Keeps.foldl_snd
    | dsimp only
    | split
    | (refine Keeps.of_some (by assumption) ?_)
    | (refine Keeps.of_snd (by assumption) ?_)
    | (refine Keeps.of_snd_snd (by assumption) ?_)
    | (intro _ _ _; beta_reduce)
    | (fail_if_no_progress apply Keeps.other)
    | intro _

end Sys2Proof.Machine
end

