-- ==== Sys2Proof/Laws/KeepsMailbox.lean ====
section
/-! SUPPORT. What the operations of Mailbox.lean keep (Keeps.lean). -/
set_option linter.unusedTactic false
set_option linter.unreachableTactic false
namespace Sys2Proof.Machine

theorem State.badOp_keeps {r_ : State} (s : State) (a : Agent) (path : List Nat) (i : Nat) (k : Nat) (h_ : Keeps r_ s) : Keeps r_ (State.badOp s a path i k).state := by
  unfold State.badOp
  repeat' with_reducible first
    | assumption
    | exact Keeps.refl _
    | apply Keeps.foldl
    | apply Keeps.foldl_snd
    | dsimp only
    | split
    | (refine Keeps.of_some (by assumption) ?_)
    | (refine Keeps.of_snd (by assumption) ?_)
    | (refine Keeps.of_snd_snd (by assumption) ?_)
    | (intro _ _ _; beta_reduce)
    | (fail_if_no_progress apply Keeps.other)
    | intro _

theorem State.mbWrite_keeps {r_ : State} (s : State) (a : Agent) (path : List Nat) (w : MbWords) (h_ : Keeps r_ s) : Keeps r_ (State.mbWrite s a path w).state := by
  unfold State.mbWrite
  extract_lets +onlyGivenNames d_0
  try clear_value d_0
  repeat' with_reducible first
    | assumption
    | exact Keeps.refl _
    | apply State.writePath_keeps
    | apply Keeps.foldl
    | apply Keeps.foldl_snd
    | dsimp only
    | split
    | (refine Keeps.of_some (by assumption) ?_)
    | (refine Keeps.of_snd (by assumption) ?_)
    | (refine Keeps.of_snd_snd (by assumption) ?_)
    | (intro _ _ _; beta_reduce)
    | (fail_if_no_progress apply Keeps.other)
    | intro _

theorem State.mbRead_keeps {r_ : State} (s : State) (a : Agent) (path : List Nat) (w : MbWords) (h_ : Keeps r_ s) : Keeps r_ (State.mbRead s a path w).state := by
  unfold State.mbRead
  repeat' with_reducible first
    | assumption
    | exact Keeps.refl _
    | apply State.readPath_keeps
    | apply Keeps.foldl
    | apply Keeps.foldl_snd
    | dsimp only
    | split
    | (refine Keeps.of_some (by assumption) ?_)
    | (refine Keeps.of_snd (by assumption) ?_)
    | (refine Keeps.of_snd_snd (by assumption) ?_)
    | (intro _ _ _; beta_reduce)
    | (fail_if_no_progress apply Keeps.other)
    | intro _

theorem State.mbServe_keeps {r_ : State} (s : State) (p : Nat) (w : MbWords) (h_ : Keeps r_ s) : Keeps r_ (State.mbServe s p w).state := by
  unfold State.mbServe
  extract_lets +onlyGivenNames a_0 path_1
  try clear_value a_0
  try clear_value path_1
  repeat' with_reducible first
    | assumption
    | exact Keeps.refl _
    | apply State.relaySend_keeps
    | apply State.badOp_keeps
    | apply State.mbWrite_keeps
    | apply State.mbRead_keeps
    | apply Keeps.foldl
    | apply Keeps.foldl_snd
    | dsimp only
    | split
    | (refine Keeps.of_some (by assumption) ?_)
    | (refine Keeps.of_snd (by assumption) ?_)
    | (refine Keeps.of_snd_snd (by assumption) ?_)
    | (intro _ _ _; beta_reduce)
    | (fail_if_no_progress apply Keeps.other)
    | intro _

theorem State.mbTold_keeps {r_ : State} (s : State) (p : Nat) (w : MbWords) (c : Abort) (d : List Octet) (h_ : Keeps r_ s) : Keeps r_ (State.mbTold s p w c d) := by
  unfold State.mbTold
  repeat' with_reducible first
    | assumption
    | exact Keeps.refl _
    | apply State.mailboxEnd_keeps
    | apply Keeps.foldl
    | apply Keeps.foldl_snd
    | dsimp only
    | split
    | (refine Keeps.of_some (by assumption) ?_)
    | (refine Keeps.of_snd (by assumption) ?_)
    | (refine Keeps.of_snd_snd (by assumption) ?_)
    | (intro _ _ _; beta_reduce)
    | (fail_if_no_progress apply Keeps.other)
    | intro _

theorem State.mbGo_keeps {r_ : State} (s : State) (p : Nat) (w : MbWords) (h_ : Keeps r_ s) : Keeps r_ (State.mbGo s p w) := by
  unfold State.mbGo
  extract_lets +onlyGivenNames m_0 s1_1 r_2
  try clear_value m_0
  have h_s1_1 : Keeps r_ s1_1 := by
    unfold s1_1
    repeat' with_reducible first
      | assumption
      | exact Keeps.refl _
      | apply State.complete_keeps
      | apply State.setMailbox_keeps
      | apply Effect.state_keeps
      | apply State.mbServe_keeps
      | apply State.mbTold_keeps
      | apply Keeps.foldl
      | apply Keeps.foldl_snd
      | dsimp only
      | split
      | (refine Keeps.of_some (by assumption) ?_)
      | (refine Keeps.of_snd (by assumption) ?_)
      | (refine Keeps.of_snd_snd (by assumption) ?_)
      | (intro _ _ _; beta_reduce)
      | (fail_if_no_progress apply Keeps.other)
      | intro _
  clear_value s1_1
  repeat' with_reducible first
    | assumption
    | exact Keeps.refl _
    | apply State.complete_keeps
    | apply State.setMailbox_keeps
    | apply Effect.state_keeps
    | apply State.mbServe_keeps
    | apply State.mbTold_keeps
    | apply Keeps.foldl
    | apply Keeps.foldl_snd
    | dsimp only
    | split
    | (refine Keeps.of_some (by assumption) ?_)
    | (refine Keeps.of_snd (by assumption) ?_)
    | (refine Keeps.of_snd_snd (by assumption) ?_)
    | (intro _ _ _; beta_reduce)
    | (fail_if_no_progress apply Keeps.other)
    | intro _

theorem State.mbCommand_keeps {r_ : State} (s : State) (p : Nat) (w : MbWords) (h_ : Keeps r_ s) : Keeps r_ (State.mbCommand s p w) := by
  unfold State.mbCommand
  extract_lets +onlyGivenNames m_0
  try clear_value m_0
  repeat' with_reducible first
    | assumption
    | exact Keeps.refl _
    | apply State.busyNow_keeps
    | apply State.setMailbox_keeps
    | apply State.mbGo_keeps
    | apply Keeps.foldl
    | apply Keeps.foldl_snd
    | dsimp only
    | split
    | (refine Keeps.of_some (by assumption) ?_)
    | (refine Keeps.of_snd (by assumption) ?_)
    | (refine Keeps.of_snd_snd (by assumption) ?_)
    | (intro _ _ _; beta_reduce)
    | (fail_if_no_progress apply Keeps.other)
    | intro _

theorem execMailboxRead_keeps {r_ : State} (proc : Nat) (access : MbAccess) (s : State) (h_ : Keeps r_ s) : KeepsNext r_ (execMailboxRead proc access s) := by
  unfold execMailboxRead
  repeat' with_reducible first
    | assumption
    | exact Keeps.refl _
    | apply KeepsNext.next
    | apply KeepsNext.refused
    | apply State.wake_keeps
    | apply gathered_keeps
    | apply State.access_keeps
    | apply State.mbCommand_keeps
    | apply Keeps.foldl
    | apply Keeps.foldl_snd
    | dsimp only
    | split
    | (refine Keeps.of_some (by assumption) ?_)
    | (refine Keeps.of_snd (by assumption) ?_)
    | (refine Keeps.of_snd_snd (by assumption) ?_)
    | (intro _ _ _; beta_reduce)
    | (fail_if_no_progress apply Keeps.other)
    | intro _

theorem execMailboxWrite_keeps {r_ : State} (proc : Nat) (access : MbAccess) (s : State) (h_ : Keeps r_ s) : KeepsNext r_ (execMailboxWrite proc access s) := by
  unfold execMailboxWrite
  repeat' with_reducible first
    | assumption
    | exact Keeps.refl _
    | apply KeepsNext.next
    | apply KeepsNext.refused
    | apply State.wake_keeps
    | apply gathered_keeps
    | apply State.access_keeps
    | apply State.mbCommand_keeps
    | apply Keeps.foldl
    | apply Keeps.foldl_snd
    | dsimp only
    | split
    | (refine Keeps.of_some (by assumption) ?_)
    | (refine Keeps.of_snd (by assumption) ?_)
    | (refine Keeps.of_snd_snd (by assumption) ?_)
    | (intro _ _ _; beta_reduce)
    | (fail_if_no_progress apply Keeps.other)
    | intro _

theorem execMailboxDone_keeps {r_ : State} (proc : Nat) (s : State) (h_ : Keeps r_ s) : KeepsNext r_ (execMailboxDone proc s) := by
  unfold execMailboxDone
  repeat' with_reducible first
    | assumption
    | exact Keeps.refl _
    | apply KeepsNext.next
    | apply KeepsNext.refused
    | apply State.raise_keeps
    | apply gathered_keeps
    | apply State.setMailbox_keeps
    | apply Keeps.foldl
    | apply Keeps.foldl_snd
    | dsimp only
    | split
    | (refine Keeps.of_some (by assumption) ?_)
    | (refine Keeps.of_snd (by assumption) ?_)
    | (refine Keeps.of_snd_snd (by assumption) ?_)
    | (intro _ _ _; beta_reduce)
    | (fail_if_no_progress apply Keeps.other)
    | intro _

end Sys2Proof.Machine
end

