-- ==== Sys2Proof/Laws/KeepsFieldNet.lean ====
section
/-! SUPPORT. What the operations of FieldNet.lean keep (Keeps.lean). -/
set_option linter.unusedTactic false
set_option linter.unreachableTactic false
namespace Sys2Proof.Machine

theorem State.request_keeps {r_ : State} (s : State) (a : Agent) (inFrame : Bool) (q : Request) (h_ : Keeps r_ s) : Keeps r_ (State.request s a inFrame q).state := by
  unfold State.request
  repeat' with_reducible first
    | assumption
    | exact Keeps.refl _
    | apply State.writePath_keeps
    | apply State.readPath_keeps
    | apply State.badOp_keeps
    | apply Keeps.foldl
    | apply Keeps.foldl_snd
    | dsimp only
    | split
    | (refine Keeps.of_some (by assumption) ?_)
    | (refine Keeps.of_snd (by assumption) ?_)
    | (refine Keeps.of_snd_snd (by assumption) ?_)
    | (intro _ _ _; beta_reduce)
    | (fail_if_no_progress apply Keeps.other)
    | intro _

theorem State.noteSeq_keeps {r_ : State} (s : State) (k : Nat) (q : Nat) (h_ : Keeps r_ s) : Keeps r_ (State.noteSeq s k q) := by
  unfold State.noteSeq
  extract_lets +onlyGivenNames high_0
  try clear_value high_0
  repeat' with_reducible first
    | assumption
    | exact Keeps.refl _
    | apply State.wr_keeps
    | apply Keeps.foldl
    | apply Keeps.foldl_snd
    | dsimp only
    | split
    | (refine Keeps.of_some (by assumption) ?_)
    | (refine Keeps.of_snd (by assumption) ?_)
    | (refine Keeps.of_snd_snd (by assumption) ?_)
    | (intro _ _ _; beta_reduce)
    | (fail_if_no_progress apply Keeps.other)
    | intro _

theorem State.tagFailed_keeps {r_ : State} (s : State) (r : AccessReq) (h_ : Keeps r_ s) : Keeps r_ (State.tagFailed s r) := by
  unfold State.tagFailed
  extract_lets +onlyGivenNames s1_0
  have h_s1_0 : Keeps r_ s1_0 := by
    unfold s1_0
    repeat' with_reducible first
      | assumption
      | exact Keeps.refl _
      | apply State.startTimer_keeps
      | apply State.bump_keeps
      | apply State.respond_keeps
      | apply Keeps.foldl
      | apply Keeps.foldl_snd
      | dsimp only
      | split
      | (refine Keeps.of_some (by assumption) ?_)
      | (refine Keeps.of_snd (by assumption) ?_)
      | (refine Keeps.of_snd_snd (by assumption) ?_)
      | (intro _ _ _; beta_reduce)
      | (fail_if_no_progress apply Keeps.other)
      | intro _
  clear_value s1_0
  repeat' with_reducible first
    | assumption
    | exact Keeps.refl _
    | apply State.startTimer_keeps
    | apply State.bump_keeps
    | apply State.respond_keeps
    | apply Keeps.foldl
    | apply Keeps.foldl_snd
    | dsimp only
    | split
    | (refine Keeps.of_some (by assumption) ?_)
    | (refine Keeps.of_snd (by assumption) ?_)
    | (refine Keeps.of_snd_snd (by assumption) ?_)
    | (intro _ _ _; beta_reduce)
    | (fail_if_no_progress apply Keeps.other)
    | intro _

theorem State.accessRun_keeps {r_ : State} (s : State) (r : AccessReq) (h_ : Keeps r_ s) : Keeps r_ (State.accessRun s r) := by
  unfold State.accessRun
  extract_lets +onlyGivenNames p_0 k_1 a_2 q_3 key_4 s0_5
  try clear_value p_0
  try clear_value k_1
  try clear_value a_2
  try clear_value q_3
  try clear_value key_4
  have h_s0_5 : Keeps r_ s0_5 := by
    unfold s0_5
    repeat' with_reducible first
      | assumption
      | exact Keeps.refl _
      | apply State.bump_keeps
      | apply State.complete_keeps
      | apply State.respond_keeps
      | apply State.relayManager_keeps
      | apply Effect.state_keeps
      | apply State.request_keeps
      | apply Keeps.foldl
      | apply Keeps.foldl_snd
      | dsimp only
      | split
      | (refine Keeps.of_some (by assumption) ?_)
      | (refine Keeps.of_snd (by assumption) ?_)
      | (refine Keeps.of_snd_snd (by assumption) ?_)
      | (intro _ _ _; beta_reduce)
      | (fail_if_no_progress apply Keeps.other)
      | intro _
  clear_value s0_5
  repeat' with_reducible first
    | assumption
    | exact Keeps.refl _
    | apply State.bump_keeps
    | apply State.complete_keeps
    | apply State.respond_keeps
    | apply State.relayManager_keeps
    | apply Effect.state_keeps
    | apply State.request_keeps
    | apply Keeps.foldl
    | apply Keeps.foldl_snd
    | dsimp only
    | split
    | (refine Keeps.of_some (by assumption) ?_)
    | (refine Keeps.of_snd (by assumption) ?_)
    | (refine Keeps.of_snd_snd (by assumption) ?_)
    | (intro _ _ _; beta_reduce)
    | (fail_if_no_progress apply Keeps.other)
    | intro _

theorem State.accessOne_keeps {r_ : State} (s : State) (r : AccessReq) (h_ : Keeps r_ s) : Keeps r_ (State.accessOne s r) := by
  unfold State.accessOne
  extract_lets +onlyGivenNames p_0 k_1
  try clear_value p_0
  try clear_value k_1
  repeat' with_reducible first
    | assumption
    | exact Keeps.refl _
    | apply State.bump_keeps
    | apply State.respond_keeps
    | apply State.noteSeq_keeps
    | apply State.tagFailed_keeps
    | apply State.accessRun_keeps
    | apply Keeps.foldl
    | apply Keeps.foldl_snd
    | dsimp only
    | split
    | (refine Keeps.of_some (by assumption) ?_)
    | (refine Keeps.of_snd (by assumption) ?_)
    | (refine Keeps.of_snd_snd (by assumption) ?_)
    | (intro _ _ _; beta_reduce)
    | (fail_if_no_progress apply Keeps.other)
    | intro _

theorem State.accessServe_keeps {r_ : State} (n : Nat) (s : State) (h_ : Keeps r_ s) : Keeps r_ (State.accessServe n s) := by
  induction n generalizing s with
  | zero => exact h_
  | succ n_ ih =>
    unfold State.accessServe
    repeat' with_reducible first
      | assumption
      | exact Keeps.refl _
      | apply ih
      | apply State.accessOne_keeps
      | apply Keeps.foldl
      | apply Keeps.foldl_snd
      | dsimp only
      | split
      | (refine Keeps.of_some (by assumption) ?_)
      | (refine Keeps.of_snd (by assumption) ?_)
      | (refine Keeps.of_snd_snd (by assumption) ?_)
      | (intro _ _ _; beta_reduce)
      | (fail_if_no_progress apply Keeps.other)
      | intro _

theorem State.accessFrame_keeps {r_ : State} (s : State) (ch : Nat) (frame : List Octet) (h_ : Keeps r_ s) : Keeps r_ (State.accessFrame s ch frame) := by
  unfold State.accessFrame
  extract_lets +onlyGivenNames p_0
  try clear_value p_0
  repeat' with_reducible first
    | assumption
    | exact Keeps.refl _
    | apply State.bump_keeps
    | apply State.busyNow_keeps
    | apply State.access_keeps
    | apply State.accessServe_keeps
    | apply Keeps.foldl
    | apply Keeps.foldl_snd
    | dsimp only
    | split
    | (refine Keeps.of_some (by assumption) ?_)
    | (refine Keeps.of_snd (by assumption) ?_)
    | (refine Keeps.of_snd_snd (by assumption) ?_)
    | (intro _ _ _; beta_reduce)
    | (fail_if_no_progress apply Keeps.other)
    | intro _

theorem execAccessRead_keeps {r_ : State} (ch : Nat) (frame : List Octet) (s : State) (h_ : Keeps r_ s) : KeepsNext r_ (execAccessRead ch frame s) := by
  unfold execAccessRead
  repeat' with_reducible first
    | assumption
    | exact Keeps.refl _
    | apply KeepsNext.next
    | apply KeepsNext.refused
    | apply gathered_keeps
    | apply State.accessFrame_keeps
    | apply Keeps.foldl
    | apply Keeps.foldl_snd
    | dsimp only
    | split
    | (refine Keeps.of_some (by assumption) ?_)
    | (refine Keeps.of_snd (by assumption) ?_)
    | (refine Keeps.of_snd_snd (by assumption) ?_)
    | (intro _ _ _; beta_reduce)
    | (fail_if_no_progress apply Keeps.other)
    | intro _

theorem execAccessWrite_keeps {r_ : State} (ch : Nat) (frame : List Octet) (s : State) (h_ : Keeps r_ s) : KeepsNext r_ (execAccessWrite ch frame s) := by
  unfold execAccessWrite
  repeat' with_reducible first
    | assumption
    | exact Keeps.refl _
    | apply KeepsNext.next
    | apply KeepsNext.refused
    | apply gathered_keeps
    | apply State.accessFrame_keeps
    | apply Keeps.foldl
    | apply Keeps.foldl_snd
    | dsimp only
    | split
    | (refine Keeps.of_some (by assumption) ?_)
    | (refine Keeps.of_snd (by assumption) ?_)
    | (refine Keeps.of_snd_snd (by assumption) ?_)
    | (intro _ _ _; beta_reduce)
    | (fail_if_no_progress apply Keeps.other)
    | intro _

theorem execAccessEpoch_keeps {r_ : State} (ch : Nat) (frame : List Octet) (s : State) (h_ : Keeps r_ s) : KeepsNext r_ (execAccessEpoch ch frame s) := by
  unfold execAccessEpoch
  repeat' with_reducible first
    | assumption
    | exact Keeps.refl _
    | apply KeepsNext.next
    | apply KeepsNext.refused
    | apply gathered_keeps
    | apply State.accessFrame_keeps
    | apply Keeps.foldl
    | apply Keeps.foldl_snd
    | dsimp only
    | split
    | (refine Keeps.of_some (by assumption) ?_)
    | (refine Keeps.of_snd (by assumption) ?_)
    | (refine Keeps.of_snd_snd (by assumption) ?_)
    | (intro _ _ _; beta_reduce)
    | (fail_if_no_progress apply Keeps.other)
    | intro _

theorem State.responseOut_keeps {r_ : State} (s : State) (r : Response) (h_ : Keeps r_ s) : Keeps r_ (State.responseOut s r) := by
  unfold State.responseOut
  extract_lets +onlyGivenNames id_0 s1_1
  try clear_value id_0
  have h_s1_1 : Keeps r_ s1_1 := by
    unfold s1_1
    repeat' with_reducible first
      | assumption
      | exact Keeps.refl _
      | apply State.bump_keeps
      | apply State.generate_keeps
      | apply State.responseLeft_keeps
      | apply Keeps.foldl
      | apply Keeps.foldl_snd
      | dsimp only
      | split
      | (refine Keeps.of_some (by assumption) ?_)
      | (refine Keeps.of_snd (by assumption) ?_)
      | (refine Keeps.of_snd_snd (by assumption) ?_)
      | (intro _ _ _; beta_reduce)
      | (fail_if_no_progress apply Keeps.other)
      | intro _
  clear_value s1_1
  repeat' with_reducible first
    | assumption
    | exact Keeps.refl _
    | apply State.bump_keeps
    | apply State.generate_keeps
    | apply State.responseLeft_keeps
    | apply Keeps.foldl
    | apply Keeps.foldl_snd
    | dsimp only
    | split
    | (refine Keeps.of_some (by assumption) ?_)
    | (refine Keeps.of_snd (by assumption) ?_)
    | (refine Keeps.of_snd_snd (by assumption) ?_)
    | (intro _ _ _; beta_reduce)
    | (fail_if_no_progress apply Keeps.other)
    | intro _

theorem execAccessResponse_keeps {r_ : State} (s : State) (h_ : Keeps r_ s) : KeepsNext r_ (execAccessResponse s) := by
  unfold execAccessResponse
  repeat' with_reducible first
    | assumption
    | exact Keeps.refl _
    | apply KeepsNext.next
    | apply KeepsNext.refused
    | apply gathered_keeps
    | apply State.accessServe_keeps
    | apply State.responseOut_keeps
    | apply Keeps.foldl
    | apply Keeps.foldl_snd
    | dsimp only
    | split
    | (refine Keeps.of_some (by assumption) ?_)
    | (refine Keeps.of_snd (by assumption) ?_)
    | (refine Keeps.of_snd_snd (by assumption) ?_)
    | (intro _ _ _; beta_reduce)
    | (fail_if_no_progress apply Keeps.other)
    | intro _

theorem State.relayEnd_keeps {r_ : State} (s : State) (r : Relay) (c : Abort) (d : List Octet) (h_ : Keeps r_ s) : Keeps r_ (State.relayEnd s r c d) := by
  unfold State.relayEnd
  extract_lets +onlyGivenNames s0_0 s1_1
  have h_s0_0 : Keeps r_ s0_0 := by
    unfold s0_0
    repeat' with_reducible first
      | assumption
      | exact Keeps.refl _
      | apply State.complete_keeps
      | apply State.respond_keeps
      | apply State.relayResponse_keeps
      | apply State.groupChild_keeps
      | apply State.groupPump_keeps
      | apply State.mbTold_keeps
      | apply State.accessServe_keeps
      | apply Keeps.foldl
      | apply Keeps.foldl_snd
      | dsimp only
      | split
      | (refine Keeps.of_some (by assumption) ?_)
      | (refine Keeps.of_snd (by assumption) ?_)
      | (refine Keeps.of_snd_snd (by assumption) ?_)
      | (intro _ _ _; beta_reduce)
      | (fail_if_no_progress apply Keeps.other)
      | intro _
  clear_value s0_0
  have h_s1_1 : Keeps r_ s1_1 := by
    unfold s1_1
    repeat' with_reducible first
      | assumption
      | exact Keeps.refl _
      | apply State.complete_keeps
      | apply State.respond_keeps
      | apply State.relayResponse_keeps
      | apply State.groupChild_keeps
      | apply State.groupPump_keeps
      | apply State.mbTold_keeps
      | apply State.accessServe_keeps
      | apply Keeps.foldl
      | apply Keeps.foldl_snd
      | dsimp only
      | split
      | (refine Keeps.of_some (by assumption) ?_)
      | (refine Keeps.of_snd (by assumption) ?_)
      | (refine Keeps.of_snd_snd (by assumption) ?_)
      | (intro _ _ _; beta_reduce)
      | (fail_if_no_progress apply Keeps.other)
      | intro _
  clear_value s1_1
  repeat' with_reducible first
    | assumption
    | exact Keeps.refl _
    | apply State.complete_keeps
    | apply State.respond_keeps
    | apply State.relayResponse_keeps
    | apply State.groupChild_keeps
    | apply State.groupPump_keeps
    | apply State.mbTold_keeps
    | apply State.accessServe_keeps
    | apply Keeps.foldl
    | apply Keeps.foldl_snd
    | dsimp only
    | split
    | (refine Keeps.of_some (by assumption) ?_)
    | (refine Keeps.of_snd (by assumption) ?_)
    | (refine Keeps.of_snd_snd (by assumption) ?_)
    | (intro _ _ _; beta_reduce)
    | (fail_if_no_progress apply Keeps.other)
    | intro _

theorem State.relayTimeout_keeps {r_ : State} (s : State) (r : Relay) (h_ : Keeps r_ s) : Keeps r_ (State.relayTimeout s r) := by
  unfold State.relayTimeout
  repeat' with_reducible first
    | assumption
    | exact Keeps.refl _
    | apply State.bump_keeps
    | apply State.relayEnd_keeps
    | apply Keeps.foldl
    | apply Keeps.foldl_snd
    | dsimp only
    | split
    | (refine Keeps.of_some (by assumption) ?_)
    | (refine Keeps.of_snd (by assumption) ?_)
    | (refine Keeps.of_snd_snd (by assumption) ?_)
    | (intro _ _ _; beta_reduce)
    | (fail_if_no_progress apply Keeps.other)
    | intro _

theorem execAccessRelayTimeout_keeps {r_ : State} (tag : Nat) (s : State) (h_ : Keeps r_ s) : KeepsNext r_ (execAccessRelayTimeout tag s) := by
  unfold execAccessRelayTimeout
  repeat' with_reducible first
    | assumption
    | exact Keeps.refl _
    | apply KeepsNext.next
    | apply KeepsNext.refused
    | apply State.relayTimeout_keeps
    | apply Keeps.foldl
    | apply Keeps.foldl_snd
    | dsimp only
    | split
    | (refine Keeps.of_some (by assumption) ?_)
    | (refine Keeps.of_snd (by assumption) ?_)
    | (refine Keeps.of_snd_snd (by assumption) ?_)
    | (intro _ _ _; beta_reduce)
    | (fail_if_no_progress apply Keeps.other)
    | intro _

theorem State.relayFabric_keeps {r_ : State} (s : State) (e : RelayExec) (h_ : Keeps r_ s) : Keeps r_ (State.relayFabric s e) := by
  unfold State.relayFabric
  extract_lets +onlyGivenNames a_0 w_1
  try clear_value a_0
  repeat' with_reducible first
    | assumption
    | exact Keeps.refl _
    | apply State.complete_keeps
    | apply State.relayResponse_keeps
    | apply Effect.state_keeps
    | apply State.request_keeps
    | apply Keeps.foldl
    | apply Keeps.foldl_snd
    | dsimp only
    | split
    | (refine Keeps.of_some (by assumption) ?_)
    | (refine Keeps.of_snd (by assumption) ?_)
    | (refine Keeps.of_snd_snd (by assumption) ?_)
    | (intro _ _ _; beta_reduce)
    | (fail_if_no_progress apply Keeps.other)
    | intro _

theorem State.relayHost_keeps {r_ : State} (s : State) (e : RelayExec) (h_ : Keeps r_ s) : Keeps r_ (State.relayHost s e) := by
  unfold State.relayHost
  extract_lets +onlyGivenNames a_0 q_1 w_2
  try clear_value a_0
  try clear_value q_1
  repeat' with_reducible first
    | assumption
    | exact Keeps.refl _
    | apply State.complete_keeps
    | apply State.relayResponse_keeps
    | apply Effect.state_keeps
    | apply State.readPath_keeps
    | apply Keeps.foldl
    | apply Keeps.foldl_snd
    | dsimp only
    | split
    | (refine Keeps.of_some (by assumption) ?_)
    | (refine Keeps.of_snd (by assumption) ?_)
    | (refine Keeps.of_snd_snd (by assumption) ?_)
    | (intro _ _ _; beta_reduce)
    | (fail_if_no_progress apply Keeps.other)
    | intro _

theorem State.relayRefused_keeps {r_ : State} (s : State) (h_ : Keeps r_ s) : Keeps r_ (State.relayRefused s) := by
  unfold State.relayRefused
  repeat' with_reducible first
    | assumption
    | exact Keeps.refl _
    | apply State.bump_keeps
    | apply Keeps.foldl
    | apply Keeps.foldl_snd
    | dsimp only
    | split
    | (refine Keeps.of_some (by assumption) ?_)
    | (refine Keeps.of_snd (by assumption) ?_)
    | (refine Keeps.of_snd_snd (by assumption) ?_)
    | (intro _ _ _; beta_reduce)
    | (fail_if_no_progress apply Keeps.other)
    | intro _

theorem State.relayRequest_keeps {r_ : State} (s : State) (agent : Nat) (e : RelayExec) (h_ : Keeps r_ s) : Keeps r_ (State.relayRequest s agent e) := by
  unfold State.relayRequest
  repeat' with_reducible first
    | assumption
    | exact Keeps.refl _
    | apply State.relayResponse_keeps
    | apply State.relaySend_keeps
    | apply State.relayFabric_keeps
    | apply State.relayHost_keeps
    | apply State.relayRefused_keeps
    | apply Keeps.foldl
    | apply Keeps.foldl_snd
    | dsimp only
    | split
    | (refine Keeps.of_some (by assumption) ?_)
    | (refine Keeps.of_snd (by assumption) ?_)
    | (refine Keeps.of_snd_snd (by assumption) ?_)
    | (intro _ _ _; beta_reduce)
    | (fail_if_no_progress apply Keeps.other)
    | intro _

theorem State.takeRelay_keeps {r_ : State} (s : State) (ch : Nat) (frame : List Octet) (msg : Nat) (act : List Octet → State) (h_act : ∀ l_, Keeps r_ (act l_)) (h_ : Keeps r_ s) : Keeps r_ (State.takeRelay s ch frame msg act) := by
  unfold State.takeRelay
  extract_lets +onlyGivenNames b_0
  try clear_value b_0
  repeat' with_reducible first
    | assumption
    | exact Keeps.refl _
    | apply h_act
    | apply State.bump_keeps
    | apply Keeps.foldl
    | apply Keeps.foldl_snd
    | dsimp only
    | split
    | (refine Keeps.of_some (by assumption) ?_)
    | (refine Keeps.of_snd (by assumption) ?_)
    | (refine Keeps.of_snd_snd (by assumption) ?_)
    | (intro _ _ _; beta_reduce)
    | (fail_if_no_progress apply Keeps.other)
    | intro _

theorem execRelayReqRx_keeps {r_ : State} (ch : Nat) (frame : List Octet) (s : State) (h_ : Keeps r_ s) : KeepsNext r_ (execRelayReqRx ch frame s) := by
  unfold execRelayReqRx
  repeat' with_reducible first
    | assumption
    | exact Keeps.refl _
    | apply KeepsNext.next
    | apply KeepsNext.refused
    | apply gathered_keeps
    | apply State.relayRequest_keeps
    | apply State.takeRelay_keeps
    | apply Keeps.foldl
    | apply Keeps.foldl_snd
    | dsimp only
    | split
    | (refine Keeps.of_some (by assumption) ?_)
    | (refine Keeps.of_snd (by assumption) ?_)
    | (refine Keeps.of_snd_snd (by assumption) ?_)
    | (intro _ _ _; beta_reduce)
    | (fail_if_no_progress apply Keeps.other)
    | intro _

theorem State.relayAnswer_keeps {r_ : State} (s : State) (b : List Octet) (h_ : Keeps r_ s) : Keeps r_ (State.relayAnswer s b) := by
  unfold State.relayAnswer
  extract_lets +onlyGivenNames p_0
  try clear_value p_0
  repeat' with_reducible first
    | assumption
    | exact Keeps.refl _
    | apply State.relayEnd_keeps
    | apply Keeps.foldl
    | apply Keeps.foldl_snd
    | dsimp only
    | split
    | (refine Keeps.of_some (by assumption) ?_)
    | (refine Keeps.of_snd (by assumption) ?_)
    | (refine Keeps.of_snd_snd (by assumption) ?_)
    | (intro _ _ _; beta_reduce)
    | (fail_if_no_progress apply Keeps.other)
    | intro _

theorem execRelayRspRx_keeps {r_ : State} (ch : Nat) (frame : List Octet) (s : State) (h_ : Keeps r_ s) : KeepsNext r_ (execRelayRspRx ch frame s) := by
  unfold execRelayRspRx
  repeat' with_reducible first
    | assumption
    | exact Keeps.refl _
    | apply KeepsNext.next
    | apply KeepsNext.refused
    | apply gathered_keeps
    | apply State.takeRelay_keeps
    | apply State.relayAnswer_keeps
    | apply Keeps.foldl
    | apply Keeps.foldl_snd
    | dsimp only
    | split
    | (refine Keeps.of_some (by assumption) ?_)
    | (refine Keeps.of_snd (by assumption) ?_)
    | (refine Keeps.of_snd_snd (by assumption) ?_)
    | (intro _ _ _; beta_reduce)
    | (fail_if_no_progress apply Keeps.other)
    | intro _

end Sys2Proof.Machine
end

