-- ==== Sys2Proof/Laws/KeepsMp.lean ====
section
/-! SUPPORT. What the operations of Mp.lean keep (Keeps.lean). -/
set_option linter.unusedTactic false
set_option linter.unreachableTactic false
namespace Sys2Proof.Machine

theorem State.mpLate_keeps {r_ : State} (s : State) (h_ : Keeps r_ s) : Keeps r_ (State.mpLate s) := by
  unfold State.mpLate
  repeat' with_reducible first
    | assumption
    | exact Keeps.refl _
    | apply State.bump_keeps
    | apply Keeps.foldl
    | apply Keeps.foldl_snd
    | dsimp only
    | split
    | (refine Keeps.of_some (by assumption) ?_)
    | (refine Keeps.of_snd (by assumption) ?_)
    | (refine Keeps.of_snd_snd (by assumption) ?_)
    | (intro _ _ _; beta_reduce)
    | (fail_if_no_progress apply Keeps.other)
    | intro _

theorem State.scanBurst_keeps {r_ : State} (s : State) (o : MpOp) (kind : RingKind) (ring : Nat) (h_ : Keeps r_ s) : KeepsNext r_ (State.scanBurst s o kind ring) := by
  unfold State.scanBurst
  extract_lets +onlyGivenNames u_0 n_1 idx_2 before_3 room_4 l_5 held_6 got_7
  try clear_value u_0
  try clear_value n_1
  try clear_value idx_2
  try clear_value before_3
  try clear_value room_4
  try clear_value l_5
  try clear_value held_6
  try clear_value got_7
  repeat' with_reducible first
    | assumption
    | exact Keeps.refl _
    | apply KeepsNext.next
    | apply KeepsNext.refused
    | apply State.mpIssue_keeps
    | apply execRingScanDone_keeps
    | apply Keeps.foldl
    | apply Keeps.foldl_snd
    | dsimp only
    | split
    | (refine Keeps.of_some (by assumption) ?_)
    | (refine Keeps.of_snd (by assumption) ?_)
    | (refine Keeps.of_snd_snd (by assumption) ?_)
    | (intro _ _ _; beta_reduce)
    | (fail_if_no_progress apply Keeps.other)
    | intro _

theorem State.bufferAnswered_keeps {r_ : State} (s : State) (frame : Nat) (bq : Nat) (mirror : Bool) (status : Nat) (h_ : Keeps r_ s) : Keeps r_ (State.bufferAnswered s frame bq mirror status) := by
  unfold State.bufferAnswered
  repeat' with_reducible first
    | assumption
    | exact Keeps.refl _
    | apply State.setCopy_keeps
    | apply State.rxFinish_keeps
    | apply Keeps.foldl
    | apply Keeps.foldl_snd
    | dsimp only
    | split
    | (refine Keeps.of_some (by assumption) ?_)
    | (refine Keeps.of_snd (by assumption) ?_)
    | (refine Keeps.of_snd_snd (by assumption) ?_)
    | (intro _ _ _; beta_reduce)
    | (fail_if_no_progress apply Keeps.other)
    | intro _

theorem State.mpFailed_keeps {r_ : State} (s : State) (o : MpOp) (status : Nat) (h_ : Keeps r_ s) : Keeps r_ (State.mpFailed s o status) := by
  unfold State.mpFailed
  extract_lets +onlyGivenNames s1_0
  have h_s1_0 : Keeps r_ s1_0 := by
    unfold s1_0
    repeat' with_reducible first
      | assumption
      | exact Keeps.refl _
      | apply State.producerFault_keeps
      | apply State.descFailed_keeps
      | apply State.payloadFailed_keeps
      | apply State.cqFailed_keeps
      | apply State.eqFailed_keeps
      | apply State.jobEnd_keeps
      | apply State.bufferAnswered_keeps
      | apply Keeps.foldl
      | apply Keeps.foldl_snd
      | dsimp only
      | split
      | (refine Keeps.of_some (by assumption) ?_)
      | (refine Keeps.of_snd (by assumption) ?_)
      | (refine Keeps.of_snd_snd (by assumption) ?_)
      | (intro _ _ _; beta_reduce)
      | (fail_if_no_progress apply Keeps.other)
      | intro _
  clear_value s1_0
  repeat' with_reducible first
    | assumption
    | exact Keeps.refl _
    | apply State.producerFault_keeps
    | apply State.descFailed_keeps
    | apply State.payloadFailed_keeps
    | apply State.cqFailed_keeps
    | apply State.eqFailed_keeps
    | apply State.jobEnd_keeps
    | apply State.bufferAnswered_keeps
    | apply Keeps.foldl
    | apply Keeps.foldl_snd
    | dsimp only
    | split
    | (refine Keeps.of_some (by assumption) ?_)
    | (refine Keeps.of_snd (by assumption) ?_)
    | (refine Keeps.of_snd_snd (by assumption) ?_)
    | (intro _ _ _; beta_reduce)
    | (fail_if_no_progress apply Keeps.other)
    | intro _

theorem State.mpCount_keeps {r_ : State} (s : State) (timeout : Bool) (h_ : Keeps r_ s) : Keeps r_ (State.mpCount s timeout) := by
  unfold State.mpCount
  repeat' with_reducible first
    | assumption
    | exact Keeps.refl _
    | apply State.bump_keeps
    | apply State.latch_keeps
    | apply Keeps.foldl
    | apply Keeps.foldl_snd
    | dsimp only
    | split
    | (refine Keeps.of_some (by assumption) ?_)
    | (refine Keeps.of_snd (by assumption) ?_)
    | (refine Keeps.of_snd_snd (by assumption) ?_)
    | (intro _ _ _; beta_reduce)
    | (fail_if_no_progress apply Keeps.other)
    | intro _

theorem State.readDone_keeps {r_ : State} (s : State) (o : MpOp) (h_ : Keeps r_ s) : KeepsNext r_ (State.readDone s o) := by
  unfold State.readDone
  extract_lets +onlyGivenNames s1_0
  have h_s1_0 : Keeps r_ s1_0 := by
    unfold s1_0
    repeat' with_reducible first
      | assumption
      | exact Keeps.refl _
      | apply KeepsNext.next
      | apply KeepsNext.refused
      | apply State.jobBurst_keeps
      | apply State.pump_keeps
      | apply State.descBack_keeps
      | apply State.payloadIn_keeps
      | apply State.scanBurst_keeps
      | apply Keeps.foldl
      | apply Keeps.foldl_snd
      | dsimp only
      | split
      | (refine Keeps.of_some (by assumption) ?_)
      | (refine Keeps.of_snd (by assumption) ?_)
      | (refine Keeps.of_snd_snd (by assumption) ?_)
      | (intro _ _ _; beta_reduce)
      | (fail_if_no_progress apply Keeps.other)
      | intro _
  clear_value s1_0
  repeat' with_reducible first
    | assumption
    | exact Keeps.refl _
    | apply KeepsNext.next
    | apply KeepsNext.refused
    | apply State.jobBurst_keeps
    | apply State.pump_keeps
    | apply State.descBack_keeps
    | apply State.payloadIn_keeps
    | apply State.scanBurst_keeps
    | apply Keeps.foldl
    | apply Keeps.foldl_snd
    | dsimp only
    | split
    | (refine Keeps.of_some (by assumption) ?_)
    | (refine Keeps.of_snd (by assumption) ?_)
    | (refine Keeps.of_snd_snd (by assumption) ?_)
    | (intro _ _ _; beta_reduce)
    | (fail_if_no_progress apply Keeps.other)
    | intro _

theorem execMpReadResponse_keeps {r_ : State} (tag : Nat) (data : List Octet) (last : Bool) (err : Bool) (s : State) (h_ : Keeps r_ s) : KeepsNext r_ (execMpReadResponse tag data last err s) := by
  unfold execMpReadResponse
  repeat' with_reducible first
    | assumption
    | exact Keeps.refl _
    | apply KeepsNext.next
    | apply KeepsNext.refused
    | apply gathered_keeps
    | apply State.mpSettle_keeps
    | apply State.pump_keeps
    | apply State.mpLate_keeps
    | apply State.mpFailed_keeps
    | apply State.mpCount_keeps
    | apply State.readDone_keeps
    | apply Keeps.foldl
    | apply Keeps.foldl_snd
    | dsimp only
    | split
    | (refine Keeps.of_some (by assumption) ?_)
    | (refine Keeps.of_snd (by assumption) ?_)
    | (refine Keeps.of_snd_snd (by assumption) ?_)
    | (intro _ _ _; beta_reduce)
    | (fail_if_no_progress apply Keeps.other)
    | intro _

theorem State.writeDone_keeps {r_ : State} (s : State) (o : MpOp) (h_ : Keeps r_ s) : Keeps r_ (State.writeDone s o) := by
  unfold State.writeDone
  extract_lets +onlyGivenNames s1_0
  have h_s1_0 : Keeps r_ s1_0 := by
    unfold s1_0
    repeat' with_reducible first
      | assumption
      | exact Keeps.refl _
      | apply State.cqWritten_keeps
      | apply State.eqWritten_keeps
      | apply State.bufferAnswered_keeps
      | apply Keeps.foldl
      | apply Keeps.foldl_snd
      | dsimp only
      | split
      | (refine Keeps.of_some (by assumption) ?_)
      | (refine Keeps.of_snd (by assumption) ?_)
      | (refine Keeps.of_snd_snd (by assumption) ?_)
      | (intro _ _ _; beta_reduce)
      | (fail_if_no_progress apply Keeps.other)
      | intro _
  clear_value s1_0
  repeat' with_reducible first
    | assumption
    | exact Keeps.refl _
    | apply State.cqWritten_keeps
    | apply State.eqWritten_keeps
    | apply State.bufferAnswered_keeps
    | apply Keeps.foldl
    | apply Keeps.foldl_snd
    | dsimp only
    | split
    | (refine Keeps.of_some (by assumption) ?_)
    | (refine Keeps.of_snd (by assumption) ?_)
    | (refine Keeps.of_snd_snd (by assumption) ?_)
    | (intro _ _ _; beta_reduce)
    | (fail_if_no_progress apply Keeps.other)
    | intro _

theorem execMpWriteResponse_keeps {r_ : State} (tag : Nat) (err : Bool) (s : State) (h_ : Keeps r_ s) : KeepsNext r_ (execMpWriteResponse tag err s) := by
  unfold execMpWriteResponse
  repeat' with_reducible first
    | assumption
    | exact Keeps.refl _
    | apply KeepsNext.next
    | apply KeepsNext.refused
    | apply gathered_keeps
    | apply State.mpSettle_keeps
    | apply State.pump_keeps
    | apply State.mpLate_keeps
    | apply State.mpFailed_keeps
    | apply State.mpCount_keeps
    | apply State.writeDone_keeps
    | apply Keeps.foldl
    | apply Keeps.foldl_snd
    | dsimp only
    | split
    | (refine Keeps.of_some (by assumption) ?_)
    | (refine Keeps.of_snd (by assumption) ?_)
    | (refine Keeps.of_snd_snd (by assumption) ?_)
    | (intro _ _ _; beta_reduce)
    | (fail_if_no_progress apply Keeps.other)
    | intro _

theorem execMpOperationTimeout_keeps {r_ : State} (write : Bool) (tag : Nat) (s : State) (h_ : Keeps r_ s) : KeepsNext r_ (execMpOperationTimeout write tag s) := by
  unfold execMpOperationTimeout
  repeat' with_reducible first
    | assumption
    | exact Keeps.refl _
    | apply KeepsNext.next
    | apply KeepsNext.refused
    | apply gathered_keeps
    | apply State.mpSettle_keeps
    | apply State.pump_keeps
    | apply State.mpFailed_keeps
    | apply State.mpCount_keeps
    | apply Keeps.foldl
    | apply Keeps.foldl_snd
    | dsimp only
    | split
    | (refine Keeps.of_some (by assumption) ?_)
    | (refine Keeps.of_snd (by assumption) ?_)
    | (refine Keeps.of_snd_snd (by assumption) ?_)
    | (intro _ _ _; beta_reduce)
    | (fail_if_no_progress apply Keeps.other)
    | intro _

end Sys2Proof.Machine
end

