-- ==== Sys2Proof/Laws/KeepsAtlas.lean ====
section
/-! SUPPORT. What the operations of Atlas.lean keep (Keeps.lean). -/
set_option linter.unusedTactic false
set_option linter.unreachableTactic false
namespace Sys2Proof.Machine

theorem State.atlasEffect_keeps {r_ : State} (s : State) (e : AtlasEntry) (h_ : Keeps r_ s) : Keeps r_ (State.atlasEffect s e).state := by
  unfold State.atlasEffect
  repeat' with_reducible first
    | assumption
    | exact Keeps.refl _
    | apply State.refuse_keeps
    | apply State.writeHere_keeps
    | apply State.transfer_keeps
    | apply Keeps.foldl
    | apply Keeps.foldl_snd
    | dsimp only
    | split
    | (refine Keeps.of_some (by assumption) ?_)
    | (refine Keeps.of_snd (by assumption) ?_)
    | (refine Keeps.of_snd_snd (by assumption) ?_)
    | (intro _ _ _; beta_reduce)
    | (fail_if_no_progress apply Keeps.other)
    | intro _

theorem State.atlasTold_keeps {r_ : State} (s : State) (code : Nat) (h_ : Keeps r_ s) : Keeps r_ (State.atlasTold s code) := by
  unfold State.atlasTold
  repeat' with_reducible first
    | assumption
    | exact Keeps.refl _
    | apply State.raise_keeps
    | apply State.record_keeps
    | apply Keeps.foldl
    | apply Keeps.foldl_snd
    | dsimp only
    | split
    | (refine Keeps.of_some (by assumption) ?_)
    | (refine Keeps.of_snd (by assumption) ?_)
    | (refine Keeps.of_snd_snd (by assumption) ?_)
    | (intro _ _ _; beta_reduce)
    | (fail_if_no_progress apply Keeps.other)
    | intro _

theorem State.atlasFail_keeps {r_ : State} (s : State) (why : Nat) (entry : Nat) (code : Nat) (h_ : Keeps r_ s) : Keeps r_ (State.atlasFail s why entry code) := by
  unfold State.atlasFail
  extract_lets +onlyGivenNames s0_0 s1_1
  have h_s0_0 : Keeps r_ s0_0 := by
    unfold s0_0
    repeat' with_reducible first
      | assumption
      | exact Keeps.refl _
      | apply State.wr_keeps
      | apply State.setReg_keeps
      | apply State.latch_keeps
      | apply State.atlasTold_keeps
      | apply Keeps.foldl
      | apply Keeps.foldl_snd
      | dsimp only
      | split
      | (refine Keeps.of_some (by assumption) ?_)
      | (refine Keeps.of_snd (by assumption) ?_)
      | (refine Keeps.of_snd_snd (by assumption) ?_)
      | (intro _ _ _; beta_reduce)
      | (fail_if_no_progress apply Keeps.other)
      | intro _
  clear_value s0_0
  have h_s1_1 : Keeps r_ s1_1 := by
    unfold s1_1
    repeat' with_reducible first
      | assumption
      | exact Keeps.refl _
      | apply State.wr_keeps
      | apply State.setReg_keeps
      | apply State.latch_keeps
      | apply State.atlasTold_keeps
      | apply Keeps.foldl
      | apply Keeps.foldl_snd
      | dsimp only
      | split
      | (refine Keeps.of_some (by assumption) ?_)
      | (refine Keeps.of_snd (by assumption) ?_)
      | (refine Keeps.of_snd_snd (by assumption) ?_)
      | (intro _ _ _; beta_reduce)
      | (fail_if_no_progress apply Keeps.other)
      | intro _
  clear_value s1_1
  repeat' with_reducible first
    | assumption
    | exact Keeps.refl _
    | apply State.wr_keeps
    | apply State.setReg_keeps
    | apply State.latch_keeps
    | apply State.atlasTold_keeps
    | apply Keeps.foldl
    | apply Keeps.foldl_snd
    | dsimp only
    | split
    | (refine Keeps.of_some (by assumption) ?_)
    | (refine Keeps.of_snd (by assumption) ?_)
    | (refine Keeps.of_snd_snd (by assumption) ?_)
    | (intro _ _ _; beta_reduce)
    | (fail_if_no_progress apply Keeps.other)
    | intro _

theorem State.atlasApplied_keeps {r_ : State} (s : State) (h_ : Keeps r_ s) : Keeps r_ (State.atlasApplied s) := by
  unfold State.atlasApplied
  extract_lets +onlyGivenNames s1_0
  have h_s1_0 : Keeps r_ s1_0 := by
    unfold s1_0
    repeat' with_reducible first
      | assumption
      | exact Keeps.refl _
      | apply State.wr_keeps
      | apply State.setReg_keeps
      | apply State.powerRequest_keeps
      | apply State.atlasTold_keeps
      | apply Keeps.foldl
      | apply Keeps.foldl_snd
      | dsimp only
      | split
      | (refine Keeps.of_some (by assumption) ?_)
      | (refine Keeps.of_snd (by assumption) ?_)
      | (refine Keeps.of_snd_snd (by assumption) ?_)
      | (intro _ _ _; beta_reduce)
      | (fail_if_no_progress apply Keeps.other)
      | intro _
  clear_value s1_0
  repeat' with_reducible first
    | assumption
    | exact Keeps.refl _
    | apply State.wr_keeps
    | apply State.setReg_keeps
    | apply State.powerRequest_keeps
    | apply State.atlasTold_keeps
    | apply Keeps.foldl
    | apply Keeps.foldl_snd
    | dsimp only
    | split
    | (refine Keeps.of_some (by assumption) ?_)
    | (refine Keeps.of_snd (by assumption) ?_)
    | (refine Keeps.of_snd_snd (by assumption) ?_)
    | (intro _ _ _; beta_reduce)
    | (fail_if_no_progress apply Keeps.other)
    | intro _

theorem State.atlasRun_keeps {r_ : State} (n : Nat) (s : State) (l : List Octet) (pos m : Nat) (h_ : Keeps r_ s) : Keeps r_ (State.atlasRun n s l pos m) := by
  induction n generalizing s l pos m with
  | zero => exact h_
  | succ n_ ih =>
    unfold State.atlasRun
    repeat' with_reducible first
      | assumption
      | exact Keeps.refl _
      | apply ih
      | apply State.setReg_keeps
      | apply Effect.state_keeps
      | apply State.atlasEffect_keeps
      | apply State.atlasFail_keeps
      | apply State.atlasApplied_keeps
      | apply Keeps.foldl
      | apply Keeps.foldl_snd
      | dsimp only
      | split
      | (refine Keeps.of_some (by assumption) ?_)
      | (refine Keeps.of_snd (by assumption) ?_)
      | (refine Keeps.of_snd_snd (by assumption) ?_)
      | (intro _ _ _; beta_reduce)
      | (fail_if_no_progress apply Keeps.other)
      | intro _

theorem State.atlasStart_keeps {r_ : State} (s : State) (h_ : Keeps r_ s) : Keeps r_ (State.atlasStart s) := by
  unfold State.atlasStart
  extract_lets +onlyGivenNames h_0
  try clear_value h_0
  repeat' with_reducible first
    | assumption
    | exact Keeps.refl _
    | apply State.setReg_keeps
    | apply State.submitJob_keeps
    | apply State.atlasFail_keeps
    | apply Keeps.foldl
    | apply Keeps.foldl_snd
    | dsimp only
    | split
    | (refine Keeps.of_some (by assumption) ?_)
    | (refine Keeps.of_snd (by assumption) ?_)
    | (refine Keeps.of_snd_snd (by assumption) ?_)
    | (intro _ _ _; beta_reduce)
    | (fail_if_no_progress apply Keeps.other)
    | intro _

theorem State.atlasChecked_keeps {r_ : State} (s : State) (j : Nat) (h_ : Keeps r_ s) : Keeps r_ (State.atlasChecked s j) := by
  unfold State.atlasChecked
  repeat' with_reducible first
    | assumption
    | exact Keeps.refl _
    | apply State.wr_keeps
    | apply State.setReg_keeps
    | apply State.releaseJob_keeps
    | apply State.atlasFail_keeps
    | apply State.atlasRun_keeps
    | apply Keeps.foldl
    | apply Keeps.foldl_snd
    | dsimp only
    | split
    | (refine Keeps.of_some (by assumption) ?_)
    | (refine Keeps.of_snd (by assumption) ?_)
    | (refine Keeps.of_snd_snd (by assumption) ?_)
    | (intro _ _ _; beta_reduce)
    | (fail_if_no_progress apply Keeps.other)
    | intro _

theorem State.atlasResume_keeps {r_ : State} (s : State) (h_ : Keeps r_ s) : Keeps r_ (State.atlasResume s) := by
  unfold State.atlasResume
  extract_lets +onlyGivenNames pos_0
  try clear_value pos_0
  repeat' with_reducible first
    | assumption
    | exact Keeps.refl _
    | apply State.setReg_keeps
    | apply State.atlasFail_keeps
    | apply State.atlasRun_keeps
    | apply State.atlasChecked_keeps
    | apply Keeps.foldl
    | apply Keeps.foldl_snd
    | dsimp only
    | split
    | (refine Keeps.of_some (by assumption) ?_)
    | (refine Keeps.of_snd (by assumption) ?_)
    | (refine Keeps.of_snd_snd (by assumption) ?_)
    | (intro _ _ _; beta_reduce)
    | (fail_if_no_progress apply Keeps.other)
    | intro _

theorem execAtlasApply_keeps {r_ : State} (s : State) (h_ : Keeps r_ s) : KeepsNext r_ (execAtlasApply s) := by
  unfold execAtlasApply
  repeat' with_reducible first
    | assumption
    | exact Keeps.refl _
    | apply KeepsNext.next
    | apply KeepsNext.refused
    | apply gathered_keeps
    | apply State.atlasStart_keeps
    | apply State.atlasResume_keeps
    | apply Keeps.foldl
    | apply Keeps.foldl_snd
    | dsimp only
    | split
    | (refine Keeps.of_some (by assumption) ?_)
    | (refine Keeps.of_snd (by assumption) ?_)
    | (refine Keeps.of_snd_snd (by assumption) ?_)
    | (intro _ _ _; beta_reduce)
    | (fail_if_no_progress apply Keeps.other)
    | intro _

end Sys2Proof.Machine
end

