-- ==== Sys2Proof/Laws/KeepsPort.lean ====
section
/-! SUPPORT. What the operations of Port.lean keep (Keeps.lean). -/
set_option linter.unusedTactic false
set_option linter.unreachableTactic false
namespace Sys2Proof.Machine

theorem State.writerFailed_keeps {r_ : State} (s : State) (who : Option Agent) (h_ : Keeps r_ s) : Keeps r_ (State.writerFailed s who) := by
  unfold State.writerFailed
  repeat' with_reducible first
    | assumption
    | exact Keeps.refl _
    | apply State.finish_keeps
    | apply Keeps.foldl
    | apply Keeps.foldl_snd
    | dsimp only
    | split
    | (refine Keeps.of_some (by assumption) ?_)
    | (refine Keeps.of_snd (by assumption) ?_)
    | (refine Keeps.of_snd_snd (by assumption) ?_)
    | (intro _ _ _; beta_reduce)
    | (fail_if_no_progress apply Keeps.other)
    | intro _

theorem State.opDone_keeps {r_ : State} (s : State) (o : NvmOp) (h_ : Keeps r_ s) : Keeps r_ (State.opDone s o) := by
  unfold State.opDone
  extract_lets +onlyGivenNames s0_0
  have h_s0_0 : Keeps r_ s0_0 := by
    unfold s0_0
    repeat' with_reducible first
      | assumption
      | exact Keeps.refl _
      | apply State.finish_keeps
      | apply State.flashErase_keeps
      | apply State.nvmCommand_keeps
      | apply State.nvmWrite_keeps
      | apply State.putHeader_keeps
      | apply State.portDone_keeps
      | apply State.nvmGood_keeps
      | apply State.writerDone_keeps
      | apply State.imageDone_keeps
      | apply State.regionDone_keeps
      | apply State.dpDeliver_keeps
      | apply Keeps.foldl
      | apply Keeps.foldl_snd
      | dsimp only
      | split
      | (refine Keeps.of_some (by assumption) ?_)
      | (refine Keeps.of_snd (by assumption) ?_)
      | (refine Keeps.of_snd_snd (by assumption) ?_)
      | (intro _ _ _; beta_reduce)
      | (fail_if_no_progress apply Keeps.other)
      | intro _
  clear_value s0_0
  repeat' with_reducible first
    | assumption
    | exact Keeps.refl _
    | apply State.finish_keeps
    | apply State.flashErase_keeps
    | apply State.nvmCommand_keeps
    | apply State.nvmWrite_keeps
    | apply State.putHeader_keeps
    | apply State.portDone_keeps
    | apply State.nvmGood_keeps
    | apply State.writerDone_keeps
    | apply State.imageDone_keeps
    | apply State.regionDone_keeps
    | apply State.dpDeliver_keeps
    | apply Keeps.foldl
    | apply Keeps.foldl_snd
    | dsimp only
    | split
    | (refine Keeps.of_some (by assumption) ?_)
    | (refine Keeps.of_snd (by assumption) ?_)
    | (refine Keeps.of_snd_snd (by assumption) ?_)
    | (intro _ _ _; beta_reduce)
    | (fail_if_no_progress apply Keeps.other)
    | intro _

theorem State.spoil_keeps {r_ : State} (s : State) (x : Nat) (n : Nat) (h_ : Keeps r_ s) : Keeps r_ (State.spoil s x n) := by
  unfold State.spoil
  repeat' with_reducible first
    | assumption
    | exact Keeps.refl _
    | apply State.takeFree_keeps
    | apply State.flashProgram_keeps
    | apply Keeps.foldl
    | apply Keeps.foldl_snd
    | dsimp only
    | split
    | (refine Keeps.of_some (by assumption) ?_)
    | (refine Keeps.of_snd (by assumption) ?_)
    | (refine Keeps.of_snd_snd (by assumption) ?_)
    | (intro _ _ _; beta_reduce)
    | (fail_if_no_progress apply Keeps.other)
    | intro _

theorem State.opFailed_keeps {r_ : State} (s : State) (o : NvmOp) (cls : Nat) (h_ : Keeps r_ s) : Keeps r_ (State.opFailed s o cls) := by
  unfold State.opFailed
  extract_lets +onlyGivenNames addr_0
  try clear_value addr_0
  repeat' with_reducible first
    | assumption
    | exact Keeps.refl _
    | apply State.dpHold_keeps
    | apply State.finish_keeps
    | apply State.portDone_keeps
    | apply State.monFail_keeps
    | apply State.writerFailed_keeps
    | apply State.spoil_keeps
    | apply Keeps.foldl
    | apply Keeps.foldl_snd
    | dsimp only
    | split
    | (refine Keeps.of_some (by assumption) ?_)
    | (refine Keeps.of_snd (by assumption) ?_)
    | (refine Keeps.of_snd_snd (by assumption) ?_)
    | (intro _ _ _; beta_reduce)
    | (fail_if_no_progress apply Keeps.other)
    | intro _

theorem execNvmOperationDone_keeps {r_ : State} (ok : Bool) (s : State) (h_ : Keeps r_ s) : KeepsNext r_ (execNvmOperationDone ok s) := by
  unfold execNvmOperationDone
  repeat' with_reducible first
    | assumption
    | exact Keeps.refl _
    | apply KeepsNext.next
    | apply KeepsNext.refused
    | apply gathered_keeps
    | apply State.opDone_keeps
    | apply State.opFailed_keeps
    | apply Keeps.foldl
    | apply Keeps.foldl_snd
    | dsimp only
    | split
    | (refine Keeps.of_some (by assumption) ?_)
    | (refine Keeps.of_snd (by assumption) ?_)
    | (refine Keeps.of_snd_snd (by assumption) ?_)
    | (intro _ _ _; beta_reduce)
    | (fail_if_no_progress apply Keeps.other)
    | intro _

theorem State.readTimeout_keeps {r_ : State} (s : State) (h_ : Keeps r_ s) : Keeps r_ (State.readTimeout s) := by
  unfold State.readTimeout
  repeat' with_reducible first
    | assumption
    | exact Keeps.refl _
    | apply State.jobEnd_keeps
    | apply State.monFail_keeps
    | apply State.timedOut_keeps
    | apply State.atlasFail_keeps
    | apply Keeps.foldl
    | apply Keeps.foldl_snd
    | dsimp only
    | split
    | (refine Keeps.of_some (by assumption) ?_)
    | (refine Keeps.of_snd (by assumption) ?_)
    | (refine Keeps.of_snd_snd (by assumption) ?_)
    | (intro _ _ _; beta_reduce)
    | (fail_if_no_progress apply Keeps.other)
    | intro _

theorem State.pickClass_keeps {r_ : State} (s : State) (l : List Nat) (h_ : Keeps r_ s) : Keeps r_ (State.pickClass s l).2 := by
  unfold State.pickClass
  repeat' with_reducible first
    | assumption
    | exact Keeps.refl _
    | apply State.takeFree_keeps
    | apply Keeps.foldl
    | apply Keeps.foldl_snd
    | dsimp only
    | split
    | (refine Keeps.of_some (by assumption) ?_)
    | (refine Keeps.of_snd (by assumption) ?_)
    | (refine Keeps.of_snd_snd (by assumption) ?_)
    | (intro _ _ _; beta_reduce)
    | (fail_if_no_progress apply Keeps.other)
    | intro _

theorem State.programTimeout_keeps {r_ : State} (s : State) (m : MonPending) (h_ : Keeps r_ s) : Keeps r_ (State.programTimeout s m) := by
  unfold State.programTimeout
  repeat' with_reducible first
    | assumption
    | exact Keeps.refl _
    | apply State.setReg_keeps
    | apply State.monFail_keeps
    | apply State.programEnd_keeps
    | apply State.timedOut_keeps
    | apply State.pickClass_keeps
    | apply Keeps.foldl
    | apply Keeps.foldl_snd
    | dsimp only
    | split
    | (refine Keeps.of_some (by assumption) ?_)
    | (refine Keeps.of_snd (by assumption) ?_)
    | (refine Keeps.of_snd_snd (by assumption) ?_)
    | (intro _ _ _; beta_reduce)
    | (fail_if_no_progress apply Keeps.other)
    | intro _

theorem execNvmTimeout_keeps {r_ : State} (s : State) (h_ : Keeps r_ s) : KeepsNext r_ (execNvmTimeout s) := by
  unfold execNvmTimeout
  repeat' with_reducible first
    | assumption
    | exact Keeps.refl _
    | apply KeepsNext.next
    | apply KeepsNext.refused
    | apply State.wr_keeps
    | apply State.setReg_keeps
    | apply gathered_keeps
    | apply State.timedOut_keeps
    | apply State.opFailed_keeps
    | apply State.readTimeout_keeps
    | apply State.pickClass_keeps
    | apply State.programTimeout_keeps
    | apply Keeps.foldl
    | apply Keeps.foldl_snd
    | dsimp only
    | split
    | (refine Keeps.of_some (by assumption) ?_)
    | (refine Keeps.of_snd (by assumption) ?_)
    | (refine Keeps.of_snd_snd (by assumption) ?_)
    | (intro _ _ _; beta_reduce)
    | (fail_if_no_progress apply Keeps.other)
    | intro _

end Sys2Proof.Machine
end

