-- ==== Sys2Proof/Laws/KeepsBoundary.lean ====
section
/-! SUPPORT. What the operations of Boundary.lean keep (Keeps.lean). -/
set_option linter.unusedTactic false
set_option linter.unreachableTactic false
namespace Sys2Proof.Machine

theorem State.countXoff_keeps {r_ : State} (s : State) (ch : Nat) (h_ : Keeps r_ s) : Keeps r_ (State.countXoff s ch) := by
  unfold State.countXoff
  repeat' with_reducible first
    | assumption
    | exact Keeps.refl _
    | apply State.bump_keeps
    | apply Keeps.foldl
    | apply Keeps.foldl_snd
    | dsimp only
    | split
    | (refine Keeps.of_some (by assumption) ?_)
    | (refine Keeps.of_snd (by assumption) ?_)
    | (refine Keeps.of_snd_snd (by assumption) ?_)
    | (intro _ _ _; beta_reduce)
    | (fail_if_no_progress apply Keeps.other)
    | intro _

theorem State.countHold_keeps {r_ : State} (s : State) (h : (Nat × Nat) × Nat) (h_ : Keeps r_ s) : Keeps r_ (State.countHold s h) := by
  unfold State.countHold
  repeat' with_reducible first
    | assumption
    | exact Keeps.refl _
    | apply State.setReg_keeps
    | apply State.bump_keeps
    | apply Keeps.foldl
    | apply Keeps.foldl_snd
    | dsimp only
    | split
    | (refine Keeps.of_some (by assumption) ?_)
    | (refine Keeps.of_snd (by assumption) ?_)
    | (refine Keeps.of_snd_snd (by assumption) ?_)
    | (intro _ _ _; beta_reduce)
    | (fail_if_no_progress apply Keeps.other)
    | intro _

theorem State.countStall_keeps {r_ : State} (s : State) (cq : Nat) (h_ : Keeps r_ s) : Keeps r_ (State.countStall s cq) := by
  unfold State.countStall
  repeat' with_reducible first
    | assumption
    | exact Keeps.refl _
    | apply State.setReg_keeps
    | apply Keeps.foldl
    | apply Keeps.foldl_snd
    | dsimp only
    | split
    | (refine Keeps.of_some (by assumption) ?_)
    | (refine Keeps.of_snd (by assumption) ?_)
    | (refine Keeps.of_snd_snd (by assumption) ?_)
    | (intro _ _ _; beta_reduce)
    | (fail_if_no_progress apply Keeps.other)
    | intro _

theorem State.countTicks_keeps {r_ : State} (s : State) (h_ : Keeps r_ s) : Keeps r_ (State.countTicks s) := by
  unfold State.countTicks
  extract_lets +onlyGivenNames s1_0 s2_1
  have h_s1_0 : Keeps r_ s1_0 := by
    unfold s1_0
    repeat' with_reducible first
      | assumption
      | exact Keeps.refl _
      | apply State.setReg_keeps
      | apply State.bump_keeps
      | apply State.countXoff_keeps
      | apply State.countHold_keeps
      | apply State.countStall_keeps
      | apply Keeps.foldl
      | apply Keeps.foldl_snd
      | dsimp only
      | split
      | (refine Keeps.of_some (by assumption) ?_)
      | (refine Keeps.of_snd (by assumption) ?_)
      | (refine Keeps.of_snd_snd (by assumption) ?_)
      | (intro _ _ _; beta_reduce)
      | (fail_if_no_progress apply Keeps.other)
      | intro _
  clear_value s1_0
  have h_s2_1 : Keeps r_ s2_1 := by
    unfold s2_1
    repeat' with_reducible first
      | assumption
      | exact Keeps.refl _
      | apply State.setReg_keeps
      | apply State.bump_keeps
      | apply State.countXoff_keeps
      | apply State.countHold_keeps
      | apply State.countStall_keeps
      | apply Keeps.foldl
      | apply Keeps.foldl_snd
      | dsimp only
      | split
      | (refine Keeps.of_some (by assumption) ?_)
      | (refine Keeps.of_snd (by assumption) ?_)
      | (refine Keeps.of_snd_snd (by assumption) ?_)
      | (intro _ _ _; beta_reduce)
      | (fail_if_no_progress apply Keeps.other)
      | intro _
  clear_value s2_1
  repeat' with_reducible first
    | assumption
    | exact Keeps.refl _
    | apply State.setReg_keeps
    | apply State.bump_keeps
    | apply State.countXoff_keeps
    | apply State.countHold_keeps
    | apply State.countStall_keeps
    | apply Keeps.foldl
    | apply Keeps.foldl_snd
    | dsimp only
    | split
    | (refine Keeps.of_some (by assumption) ?_)
    | (refine Keeps.of_snd (by assumption) ?_)
    | (refine Keeps.of_snd_snd (by assumption) ?_)
    | (intro _ _ _; beta_reduce)
    | (fail_if_no_progress apply Keeps.other)
    | intro _

theorem State.ageHello_keeps {r_ : State} (s : State) (lane : Nat) (h_ : Keeps r_ s) : Keeps r_ (State.ageHello s lane) := by
  unfold State.ageHello
  repeat' with_reducible first
    | assumption
    | exact Keeps.refl _
    | apply State.setEntField_keeps
    | apply Keeps.foldl
    | apply Keeps.foldl_snd
    | dsimp only
    | split
    | (refine Keeps.of_some (by assumption) ?_)
    | (refine Keeps.of_snd (by assumption) ?_)
    | (refine Keeps.of_snd_snd (by assumption) ?_)
    | (intro _ _ _; beta_reduce)
    | (fail_if_no_progress apply Keeps.other)
    | intro _

theorem State.fire_keeps {r_ : State} (s : State) (t : TimerId) (h_ : Keeps r_ s) : Keeps r_ (State.fire s t) := by
  unfold State.fire
  repeat' with_reducible first
    | assumption
    | exact Keeps.refl _
    | apply State.stopTimer_keeps
    | apply State.holdoffOver_keeps
    | apply State.refresh_keeps
    | apply State.activeOver_keeps
    | apply State.stallReport_keeps
    | apply State.cqDone_keeps
    | apply State.park_keeps
    | apply State.verifyExpire_keeps
    | apply State.foldRelease_keeps
    | apply State.floodOwn_keeps
    | apply State.neighbourDown_keeps
    | apply State.hello_keeps
    | apply State.helloTick_keeps
    | apply State.ageOut_keeps
    | apply State.assignTick_keeps
    | apply State.renumber_keeps
    | apply State.ppsGone_keeps
    | apply State.upHoldOver_keeps
    | apply State.syncExpire_keeps
    | apply State.ledOver_keeps
    | apply State.tokenGain_keeps
    | apply State.hourOver_keeps
    | apply State.autoThaw_keeps
    | apply State.handshake_keeps
    | apply Keeps.foldl
    | apply Keeps.foldl_snd
    | dsimp only
    | split
    | (refine Keeps.of_some (by assumption) ?_)
    | (refine Keeps.of_snd (by assumption) ?_)
    | (refine Keeps.of_snd_snd (by assumption) ?_)
    | (intro _ _ _; beta_reduce)
    | (fail_if_no_progress apply Keeps.other)
    | intro _

theorem State.fireIf_keeps {r_ : State} (s : State) (t : TimerId) (h_ : Keeps r_ s) : Keeps r_ (State.fireIf s t) := by
  unfold State.fireIf
  repeat' with_reducible first
    | assumption
    | exact Keeps.refl _
    | apply State.wake_keeps
    | apply State.fire_keeps
    | apply Keeps.foldl
    | apply Keeps.foldl_snd
    | dsimp only
    | split
    | (refine Keeps.of_some (by assumption) ?_)
    | (refine Keeps.of_snd (by assumption) ?_)
    | (refine Keeps.of_snd_snd (by assumption) ?_)
    | (intro _ _ _; beta_reduce)
    | (fail_if_no_progress apply Keeps.other)
    | intro _

theorem State.boundaryTimers_keeps {r_ : State} (s : State) (h_ : Keeps r_ s) : Keeps r_ (State.boundaryTimers s) := by
  unfold State.boundaryTimers
  extract_lets +onlyGivenNames s1_0 s2_1 s3_2 s4_3
  have h_s1_0 : Keeps r_ s1_0 := by
    unfold s1_0
    repeat' with_reducible first
      | assumption
      | exact Keeps.refl _
      | apply State.wr_keeps
      | apply State.wake_keeps
      | apply State.leaseStep_keeps
      | apply State.claimStep_keeps
      | apply State.fireIf_keeps
      | apply Keeps.foldl
      | apply Keeps.foldl_snd
      | dsimp only
      | split
      | (refine Keeps.of_some (by assumption) ?_)
      | (refine Keeps.of_snd (by assumption) ?_)
      | (refine Keeps.of_snd_snd (by assumption) ?_)
      | (intro _ _ _; beta_reduce)
      | (fail_if_no_progress apply Keeps.other)
      | intro _
  clear_value s1_0
  have h_s2_1 : Keeps r_ s2_1 := by
    unfold s2_1
    repeat' with_reducible first
      | assumption
      | exact Keeps.refl _
      | apply State.wr_keeps
      | apply State.wake_keeps
      | apply State.leaseStep_keeps
      | apply State.claimStep_keeps
      | apply State.fireIf_keeps
      | apply Keeps.foldl
      | apply Keeps.foldl_snd
      | dsimp only
      | split
      | (refine Keeps.of_some (by assumption) ?_)
      | (refine Keeps.of_snd (by assumption) ?_)
      | (refine Keeps.of_snd_snd (by assumption) ?_)
      | (intro _ _ _; beta_reduce)
      | (fail_if_no_progress apply Keeps.other)
      | intro _
  clear_value s2_1
  have h_s3_2 : Keeps r_ s3_2 := by
    unfold s3_2
    repeat' with_reducible first
      | assumption
      | exact Keeps.refl _
      | apply State.wr_keeps
      | apply State.wake_keeps
      | apply State.leaseStep_keeps
      | apply State.claimStep_keeps
      | apply State.fireIf_keeps
      | apply Keeps.foldl
      | apply Keeps.foldl_snd
      | dsimp only
      | split
      | (refine Keeps.of_some (by assumption) ?_)
      | (refine Keeps.of_snd (by assumption) ?_)
      | (refine Keeps.of_snd_snd (by assumption) ?_)
      | (intro _ _ _; beta_reduce)
      | (fail_if_no_progress apply Keeps.other)
      | intro _
  clear_value s3_2
  have h_s4_3 : Keeps r_ s4_3 := by
    unfold s4_3
    repeat' with_reducible first
      | assumption
      | exact Keeps.refl _
      | apply State.wr_keeps
      | apply State.wake_keeps
      | apply State.leaseStep_keeps
      | apply State.claimStep_keeps
      | apply State.fireIf_keeps
      | apply Keeps.foldl
      | apply Keeps.foldl_snd
      | dsimp only
      | split
      | (refine Keeps.of_some (by assumption) ?_)
      | (refine Keeps.of_snd (by assumption) ?_)
      | (refine Keeps.of_snd_snd (by assumption) ?_)
      | (intro _ _ _; beta_reduce)
      | (fail_if_no_progress apply Keeps.other)
      | intro _
  clear_value s4_3
  repeat' with_reducible first
    | assumption
    | exact Keeps.refl _
    | apply State.wr_keeps
    | apply State.wake_keeps
    | apply State.leaseStep_keeps
    | apply State.claimStep_keeps
    | apply State.fireIf_keeps
    | apply Keeps.foldl
    | apply Keeps.foldl_snd
    | dsimp only
    | split
    | (refine Keeps.of_some (by assumption) ?_)
    | (refine Keeps.of_snd (by assumption) ?_)
    | (refine Keeps.of_snd_snd (by assumption) ?_)
    | (intro _ _ _; beta_reduce)
    | (fail_if_no_progress apply Keeps.other)
    | intro _

theorem State.pauseTick_keeps {r_ : State} (s : State) (h : (Nat × Nat) × Nat) (h_ : Keeps r_ s) : Keeps r_ (State.pauseTick s h) := by
  unfold State.pauseTick
  repeat' with_reducible first
    | assumption
    | exact Keeps.refl _
    | apply State.endHold_keeps
    | apply Keeps.foldl
    | apply Keeps.foldl_snd
    | dsimp only
    | split
    | (refine Keeps.of_some (by assumption) ?_)
    | (refine Keeps.of_snd (by assumption) ?_)
    | (refine Keeps.of_snd_snd (by assumption) ?_)
    | (intro _ _ _; beta_reduce)
    | (fail_if_no_progress apply Keeps.other)
    | intro _

theorem State.pauseStep_keeps {r_ : State} (s : State) (h_ : Keeps r_ s) : Keeps r_ (State.pauseStep s) := by
  unfold State.pauseStep
  repeat' with_reducible first
    | assumption
    | exact Keeps.refl _
    | apply State.pauseTick_keeps
    | apply Keeps.foldl
    | apply Keeps.foldl_snd
    | dsimp only
    | split
    | (refine Keeps.of_some (by assumption) ?_)
    | (refine Keeps.of_snd (by assumption) ?_)
    | (refine Keeps.of_snd_snd (by assumption) ?_)
    | (intro _ _ _; beta_reduce)
    | (fail_if_no_progress apply Keeps.other)
    | intro _

theorem State.wdCheck_keeps {r_ : State} (s : State) (ch : Nat) (h_ : Keeps r_ s) : Keeps r_ (State.wdCheck s ch) := by
  unfold State.wdCheck
  repeat' with_reducible first
    | assumption
    | exact Keeps.refl _
    | apply State.wdBreak_keeps
    | apply Keeps.foldl
    | apply Keeps.foldl_snd
    | dsimp only
    | split
    | (refine Keeps.of_some (by assumption) ?_)
    | (refine Keeps.of_snd (by assumption) ?_)
    | (refine Keeps.of_snd_snd (by assumption) ?_)
    | (intro _ _ _; beta_reduce)
    | (fail_if_no_progress apply Keeps.other)
    | intro _

theorem State.watchStep_keeps {r_ : State} (s : State) (h_ : Keeps r_ s) : Keeps r_ (State.watchStep s) := by
  unfold State.watchStep
  extract_lets +onlyGivenNames s1_0 s2_1
  have h_s1_0 : Keeps r_ s1_0 := by
    unfold s1_0
    repeat' with_reducible first
      | assumption
      | exact Keeps.refl _
      | apply State.stallCheck_keeps
      | apply State.fireIf_keeps
      | apply State.wdCheck_keeps
      | apply Keeps.foldl
      | apply Keeps.foldl_snd
      | dsimp only
      | split
      | (refine Keeps.of_some (by assumption) ?_)
      | (refine Keeps.of_snd (by assumption) ?_)
      | (refine Keeps.of_snd_snd (by assumption) ?_)
      | (intro _ _ _; beta_reduce)
      | (fail_if_no_progress apply Keeps.other)
      | intro _
  clear_value s1_0
  have h_s2_1 : Keeps r_ s2_1 := by
    unfold s2_1
    repeat' with_reducible first
      | assumption
      | exact Keeps.refl _
      | apply State.stallCheck_keeps
      | apply State.fireIf_keeps
      | apply State.wdCheck_keeps
      | apply Keeps.foldl
      | apply Keeps.foldl_snd
      | dsimp only
      | split
      | (refine Keeps.of_some (by assumption) ?_)
      | (refine Keeps.of_snd (by assumption) ?_)
      | (refine Keeps.of_snd_snd (by assumption) ?_)
      | (intro _ _ _; beta_reduce)
      | (fail_if_no_progress apply Keeps.other)
      | intro _
  clear_value s2_1
  repeat' with_reducible first
    | assumption
    | exact Keeps.refl _
    | apply State.stallCheck_keeps
    | apply State.fireIf_keeps
    | apply State.wdCheck_keeps
    | apply Keeps.foldl
    | apply Keeps.foldl_snd
    | dsimp only
    | split
    | (refine Keeps.of_some (by assumption) ?_)
    | (refine Keeps.of_snd (by assumption) ?_)
    | (refine Keeps.of_snd_snd (by assumption) ?_)
    | (intro _ _ _; beta_reduce)
    | (fail_if_no_progress apply Keeps.other)
    | intro _

theorem State.newTick_keeps {r_ : State} (s : State) (h_ : Keeps r_ s) : Keeps r_ (State.newTick s) := by
  unfold State.newTick
  repeat' with_reducible first
    | assumption
    | exact Keeps.refl _
    | apply State.setReg_keeps
    | apply Keeps.foldl
    | apply Keeps.foldl_snd
    | dsimp only
    | split
    | (refine Keeps.of_some (by assumption) ?_)
    | (refine Keeps.of_snd (by assumption) ?_)
    | (refine Keeps.of_snd_snd (by assumption) ?_)
    | (intro _ _ _; beta_reduce)
    | (fail_if_no_progress apply Keeps.other)
    | intro _

theorem State.sampleStep_keeps {r_ : State} (s : State) (h_ : Keeps r_ s) : Keeps r_ (State.sampleStep s) := by
  unfold State.sampleStep
  extract_lets +onlyGivenNames s1_0 s2_1
  have h_s1_0 : Keeps r_ s1_0 := by
    unfold s1_0
    repeat' with_reducible first
      | assumption
      | exact Keeps.refl _
      | apply State.latchAir_keeps
      | apply State.recomputeAlarms_keeps
      | apply State.lsaCheck_keeps
      | apply State.linkMoves_keeps
      | apply State.tagVisits_keeps
      | apply State.ageHello_keeps
      | apply Keeps.foldl
      | apply Keeps.foldl_snd
      | dsimp only
      | split
      | (refine Keeps.of_some (by assumption) ?_)
      | (refine Keeps.of_snd (by assumption) ?_)
      | (refine Keeps.of_snd_snd (by assumption) ?_)
      | (intro _ _ _; beta_reduce)
      | (fail_if_no_progress apply Keeps.other)
      | intro _
  clear_value s1_0
  have h_s2_1 : Keeps r_ s2_1 := by
    unfold s2_1
    repeat' with_reducible first
      | assumption
      | exact Keeps.refl _
      | apply State.latchAir_keeps
      | apply State.recomputeAlarms_keeps
      | apply State.lsaCheck_keeps
      | apply State.linkMoves_keeps
      | apply State.tagVisits_keeps
      | apply State.ageHello_keeps
      | apply Keeps.foldl
      | apply Keeps.foldl_snd
      | dsimp only
      | split
      | (refine Keeps.of_some (by assumption) ?_)
      | (refine Keeps.of_snd (by assumption) ?_)
      | (refine Keeps.of_snd_snd (by assumption) ?_)
      | (intro _ _ _; beta_reduce)
      | (fail_if_no_progress apply Keeps.other)
      | intro _
  clear_value s2_1
  repeat' with_reducible first
    | assumption
    | exact Keeps.refl _
    | apply State.latchAir_keeps
    | apply State.recomputeAlarms_keeps
    | apply State.lsaCheck_keeps
    | apply State.linkMoves_keeps
    | apply State.tagVisits_keeps
    | apply State.ageHello_keeps
    | apply Keeps.foldl
    | apply Keeps.foldl_snd
    | dsimp only
    | split
    | (refine Keeps.of_some (by assumption) ?_)
    | (refine Keeps.of_snd (by assumption) ?_)
    | (refine Keeps.of_snd_snd (by assumption) ?_)
    | (intro _ _ _; beta_reduce)
    | (fail_if_no_progress apply Keeps.other)
    | intro _

theorem State.serveStep_keeps {r_ : State} (s : State) (h_ : Keeps r_ s) : Keeps r_ (State.serveStep s) := by
  unfold State.serveStep
  repeat' with_reducible first
    | assumption
    | exact Keeps.refl _
    | apply State.pump_keeps
    | apply State.discoverStep_keeps
    | apply State.heldStep_keeps
    | apply State.groupPump_keeps
    | apply State.accessServe_keeps
    | apply State.atlasResume_keeps
    | apply Keeps.foldl
    | apply Keeps.foldl_snd
    | dsimp only
    | split
    | (refine Keeps.of_some (by assumption) ?_)
    | (refine Keeps.of_snd (by assumption) ?_)
    | (refine Keeps.of_snd_snd (by assumption) ?_)
    | (intro _ _ _; beta_reduce)
    | (fail_if_no_progress apply Keeps.other)
    | intro _

theorem State.idleStep_keeps {r_ : State} (s : State) (h_ : Keeps r_ s) : Keeps r_ (State.idleStep s) := by
  unfold State.idleStep
  extract_lets +onlyGivenNames s1_0
  have h_s1_0 : Keeps r_ s1_0 := by
    unfold s1_0
    repeat' with_reducible first
      | assumption
      | exact Keeps.refl _
      | apply State.idleCount_keeps
      | apply State.enterIdle_keeps
      | apply Keeps.foldl
      | apply Keeps.foldl_snd
      | dsimp only
      | split
      | (refine Keeps.of_some (by assumption) ?_)
      | (refine Keeps.of_snd (by assumption) ?_)
      | (refine Keeps.of_snd_snd (by assumption) ?_)
      | (intro _ _ _; beta_reduce)
      | (fail_if_no_progress apply Keeps.other)
      | intro _
  clear_value s1_0
  repeat' with_reducible first
    | assumption
    | exact Keeps.refl _
    | apply State.idleCount_keeps
    | apply State.enterIdle_keeps
    | apply Keeps.foldl
    | apply Keeps.foldl_snd
    | dsimp only
    | split
    | (refine Keeps.of_some (by assumption) ?_)
    | (refine Keeps.of_snd (by assumption) ?_)
    | (refine Keeps.of_snd_snd (by assumption) ?_)
    | (intro _ _ _; beta_reduce)
    | (fail_if_no_progress apply Keeps.other)
    | intro _

theorem State.tickBoundary_keeps {r_ : State} (s : State) (h_ : Keeps r_ s) : Keeps r_ (State.tickBoundary s) := by
  unfold State.tickBoundary
  extract_lets +onlyGivenNames s0_0
  have h_s0_0 : Keeps r_ s0_0 := by
    unfold s0_0
    repeat' with_reducible first
      | assumption
      | exact Keeps.refl _
      | apply State.advance_keeps
      | apply State.together_keeps
      | apply State.mPackets_keeps
      | apply State.interruptStep_keeps
      | apply State.blockAccept_keeps
      | apply State.applyStep_keeps
      | apply State.applyRates_keeps
      | apply State.creditStep_keeps
      | apply State.flip_keeps
      | apply State.scanStep_keeps
      | apply State.commitStep_keeps
      | apply State.modeStep_keeps
      | apply State.latchSnaps_keeps
      | apply State.clearBlocks_keeps
      | apply State.countTicks_keeps
      | apply State.boundaryTimers_keeps
      | apply State.pauseStep_keeps
      | apply State.watchStep_keeps
      | apply State.newTick_keeps
      | apply State.sampleStep_keeps
      | apply State.serveStep_keeps
      | apply State.idleStep_keeps
      | apply Keeps.foldl
      | apply Keeps.foldl_snd
      | dsimp only
      | split
      | (refine Keeps.of_some (by assumption) ?_)
      | (refine Keeps.of_snd (by assumption) ?_)
      | (refine Keeps.of_snd_snd (by assumption) ?_)
      | (intro _ _ _; beta_reduce)
      | (fail_if_no_progress apply Keeps.other)
      | intro _
  clear_value s0_0
  repeat' with_reducible first
    | assumption
    | exact Keeps.refl _
    | apply State.advance_keeps
    | apply State.together_keeps
    | apply State.mPackets_keeps
    | apply State.interruptStep_keeps
    | apply State.blockAccept_keeps
    | apply State.applyStep_keeps
    | apply State.applyRates_keeps
    | apply State.creditStep_keeps
    | apply State.flip_keeps
    | apply State.scanStep_keeps
    | apply State.commitStep_keeps
    | apply State.modeStep_keeps
    | apply State.latchSnaps_keeps
    | apply State.clearBlocks_keeps
    | apply State.countTicks_keeps
    | apply State.boundaryTimers_keeps
    | apply State.pauseStep_keeps
    | apply State.watchStep_keeps
    | apply State.newTick_keeps
    | apply State.sampleStep_keeps
    | apply State.serveStep_keeps
    | apply State.idleStep_keeps
    | apply Keeps.foldl
    | apply Keeps.foldl_snd
    | dsimp only
    | split
    | (refine Keeps.of_some (by assumption) ?_)
    | (refine Keeps.of_snd (by assumption) ?_)
    | (refine Keeps.of_snd_snd (by assumption) ?_)
    | (intro _ _ _; beta_reduce)
    | (fail_if_no_progress apply Keeps.other)
    | intro _

theorem execTickBoundary_keeps {r_ : State} (s : State) (h_ : Keeps r_ s) : KeepsNext r_ (execTickBoundary s) := by
  unfold execTickBoundary
  repeat' with_reducible first
    | assumption
    | exact Keeps.refl _
    | apply KeepsNext.next
    | apply KeepsNext.refused
    | apply State.tickBoundary_keeps
    | apply Keeps.foldl
    | apply Keeps.foldl_snd
    | dsimp only
    | split
    | (refine Keeps.of_some (by assumption) ?_)
    | (refine Keeps.of_snd (by assumption) ?_)
    | (refine Keeps.of_snd_snd (by assumption) ?_)
    | (intro _ _ _; beta_reduce)
    | (fail_if_no_progress apply Keeps.other)
    | intro _

end Sys2Proof.Machine
end

