-- ==== Sys2Proof/WellFormed.lean ====
section
/-! DEFINITION. The operands a command can carry on a build: the numbers of channels, lanes, rings and the like exist, widths fit. Every
meaning is total, so a command that is not well formed also has one; what it does follows the rule for an unknown number. -/
namespace Sys2Proof

/-- An agent of Table 0.3: eight processors, eight manager slots. -/
def Agent.good (a : Agent) : Bool := a.slot < 8

/-- An object address (R43): 1 to 8 elements of 16 bits, a 16-bit index, an 8-bit sub-index. -/
def pathGood (p : List Nat) : Bool := p ≠ [] && p.length ≤ 8 && p.all (· < 65536)
def addressGood (p : List Nat) (i k : Nat) : Bool := pathGood p && i < 65536 && k < 256

/-- A received cell (R103): 1 to 64 octets; only a last cell is short; an error lies in it. -/
def CellInput.good (c : CellInput) : Bool :=
  1 ≤ c.octets.length && c.octets.length ≤ 64 && (c.last || c.octets.length = 64)
    && c.errAt.all (· < c.octets.length) && c.replErrs.all (· < c.octets.length)

/-- A received fragment (R102): it fits a frame, and an error lies in it. -/
def FragInput.good (f : FragInput) : Bool := f.octets.length ≤ 16383 && f.errAt.all (· < f.octets.length)

/-- Eight start octets: preamble and frame delimiter (R100). -/
def startGood (l : List Octet) : Bool := l.length = 8

/-- A frame from its destination address to its FCS: 64 octets at least (R100), 16,383 at most (Table 0.4). -/
def wireFrameGood (l : List Octet) : Bool := 64 ≤ l.length && l.length ≤ 16383

/-- What `dp_data` moves (Table 2.10). -/
def dpOctetsGood (l : List Octet) : Bool := 8 ≤ l.length && l.length ≤ 1024 && l.length % 8 = 0

/-- The words of a mailbox (Table 2.8): 64 bits each. -/
def MbWords.good (w : MbWords) : Bool :=
  w.cmd < 2 ^ 64 && w.pathA < 2 ^ 64 && w.pathB < 2 ^ 64 && w.dataA < 2 ^ 64 && w.dataB < 2 ^ 64

/-- An endpoint of the build (Table 1.4). -/
def endpointGood (b : Build) (ep : Nat) : Bool := ep < b.channels || (0x40 ≤ ep && ep ≤ 0x43)

/-- A ring unit of the build (Table 1.1). -/
def ringUnitGood (b : Build) (u : Nat) : Bool := 0x400 ≤ u && u < 0x4C0 && u % 64 < b.rings

/-- The operands of a command are those the build has. -/
def Instr.wf (b : Build) : Instr → Bool
  | .tickBoundary => true
  | .rxFrameStart ch start _ => ch < b.channels && startGood start.octets
  | .rxCell ch cell => ch < b.channels && cell.good
  | .keyPresent => true
  | .decisionDeliver ecc =>
    (match ecc with
    | .contourBad e => e < b.contourEntries
    | .flowBad w => w < b.flowEntries
    | .actionAt c i => i < (if c then b.contourEntries else b.legendEntries)
    | _ => true)
  | .commitPoint ep => endpointGood b ep
  | .applyHeldEffects => true
  | .hostTxFrame => true
  | .alRxFrame al length _ octets _ => al < 3 && length < 65536 && octets.length ≤ 16384
  | .schedChoice ep level _ => endpointGood b ep && level < 4
  | .txFrameStart ep level _ _ => endpointGood b ep && level < 4
  | .txFrameEnd ep => endpointGood b ep
  | .alTxFrameEnd al _ => al < 3
  | .macControlOther ch frame => ch < b.channels && wireFrameGood frame
  | .pauseRx ch frame => ch < b.channels && wireFrameGood frame
  | .pfcRx ch frame => ch < b.channels && wireFrameGood frame
  | .pauseGenStart ch => ch < b.channels
  | .pauseRefreshExpire ch acct => ch < b.channels && acct < 9
  | .pauseActiveExpire ch acct => ch < b.channels && acct < 9
  | .pauseHoldEnd ch hold => ch < b.channels && hold < 9
  | .pauseWdBreak ch => ch < b.channels
  | .holdoffEnd ch => ch < b.channels
  | .verifyRx ch => ch < b.channels
  | .respondRx ch => ch < b.channels
  | .verifyTimeExpire ch => ch < b.channels
  | .mmFragmentRx ch start frag _ => ch < b.channels && startGood start && frag.good
  | .fabricFragmentRx ch start frag _ => ch < b.channels && startGood start && frag.good
  | .fragTimeout ch level => ch < b.channels && level < 4
  | .sdRise lane => lane < b.lanes
  | .sdFall lane => lane < b.lanes
  | .laneClockLost clock => clock.lane < b.lanes
  | .laneClockReturn clock => clock.lane < b.lanes
  | .syncAcquired lane => lane < b.lanes
  | .syncLost lane _ => lane < b.lanes
  | .anComplete lane page => lane < b.lanes && page < 65536
  | .syncTimeoutExpire lane => lane < b.lanes
  | .upHoldExpire lane => lane < b.lanes
  | .linkRestart agent lane => agent.good && lane < b.lanes
  | .objectWrite agent path index sub data => agent.good && addressGood path index sub && data.length ≤ 1024
  | .stagedWrite agent path index sub data => agent.good && addressGood path index sub && data.length ≤ 1024
  | .commit agent path => agent.good && pathGood path
  | .commitCheckDone unit => unit < 65536
  | .commitApply => true
  | .discard agent path => agent.good && pathGood path
  | .leaseClaim agent path => agent.good && pathGood path
  | .leaseClaimDecide => true
  | .leaseRenew agent path => agent.good && pathGood path
  | .leaseRelease agent path => agent.good && pathGood path
  | .leaseExpiry unit => unit < 65536
  | .alarmAck agent path mask => agent.good && pathGood path && mask < 2 ^ 32
  | .mailboxRead proc access => proc < 8 && access.words.good
  | .mailboxWrite proc access => proc < 8 && access.words.good
  | .mailboxDone proc => proc < 8
  | .dpTargetWrite agent value => agent.good && value < 65536
  | .dpOffsetWrite agent value => agent.good && value < 2 ^ 32
  | .dpLengthWrite agent value => agent.good && value < 2 ^ 32
  | .dpDataRead agent n => agent.good && n ≤ 1024
  | .dpDataWrite agent octets => agent.good && octets.length ≤ 1024
  | .dpApertureRead window width => window < 8 && [8, 16, 32, 64].contains width
  | .dpApertureWrite window width word => window < 8 && [8, 16, 32, 64].contains width && word < 2 ^ 64
  | .accessRead ch frame => ch < b.channels && wireFrameGood frame
  | .accessWrite ch frame => ch < b.channels && wireFrameGood frame
  | .accessEpoch ch frame => ch < b.channels && wireFrameGood frame
  | .accessResponse => true
  | .accessRelayTimeout tag => tag < 65536
  | .keyWrite agent slot key => agent.good && slot < 8 && key.length = 16
  | .keyErase agent slot => agent.good && slot < 256
  | .tableUpdateApply => true
  | .surveyStep _ => true
  | .surveyRepair => true
  | .editionCommit agent => agent.good
  | .editionDiscard agent => agent.good
  | .editionFlip => true
  | .editionDrained => true
  | .flowSweepVisit => true
  | .policerWrite agent entry octets => agent.good && entry < 65536 && dpOctetsGood octets
  | .foldFlush agent => agent.good
  | .foldDataRx ch frame _ _ => ch < b.channels && wireFrameGood frame
  | .templateInstallRx ch frame => ch < b.channels && wireFrameGood frame
  | .foldNakRx ch frame => ch < b.channels && wireFrameGood frame
  | .templateInstallTx ch => ch < b.channels
  | .foldNakTx ch => ch < b.channels
  | .foldHoldExpire ch fseq => ch < b.channels && fseq < 256
  | .queueWrite agent queue octets => agent.good && queue < b.queues && dpOctetsGood octets
  | .gateTransition ep => endpointGood b ep
  | .gateCtReached ep => endpointGood b ep
  | .tailDoorbell _ ring value _ => ring < 64 && value < 2 ^ 64
  | .scanKnock _ ring _ => ring < 64
  | .ringScanDone _ ring ready => ring < b.rings && ready ≤ 65536
  | .cqHeadDoorbell ring value _ => ring < 64 && value < 2 ^ 64
  | .doorbellAbsent offset => 0x2000 ≤ offset && offset < 0x2600 && offset % 8 = 0
  | .descReadDone _ ring entry => ring < b.rings && entry.length = 32
  | .mpReadResponse tag data _ _ => tag < 256 && data.length = 64
  | .mpWriteResponse tag _ => tag < 64
  | .mpOperationTimeout write tag => tag < if write then 64 else 256
  | .bqBufferTake bq _ => bq < b.rings
  | .cqStallDetect cq => cq < b.rings
  | .cqIrqTimer cq => cq < b.rings
  | .ringStart agent unit => agent.good && ringUnitGood b unit
  | .ringStop agent unit => agent.good && ringUnitGood b unit
  | .ringReset agent unit => agent.good && ringUnitGood b unit
  | .ringConfigWrite agent unit index data => agent.good && ringUnitGood b unit && index < 65536 && data.length ≤ 8
  | .alStateChange al value => al < 3 && value < 4
  | .alHoldExpire al => al < 3
  | .alTxStall al => al < 3
  | .coexReqRise i => i < 3
  | .coexGrant i _ => i < 3
  | .coexReqFall i => i < 3
  | .maxQuietExpire i => i < 3
  | .streamWrite agent entry octets => agent.good && entry < 65536 && dpOctetsGood octets
  | .scanJobStore agent job octets => agent.good && job < 4 && octets.length = 32
  | .scanJobGo agent job octets => agent.good && job < 4 && octets.length = 32
  | .scanJobStart => true
  | .scanJobDone job _ => job < 4
  | .scanAbort agent job => agent.good && job < 256
  | .timeNowRead agent => agent.good
  | .incrementWrite agent data => agent.good && data.length = 8
  | .trefLost => true
  | .trefRestored => true
  | .stepSet agent => agent.good
  | .adjust agent d => agent.good && -(2 ^ 63) ≤ d && d < 2 ^ 63
  | .timeStepApply => true
  | .ppsInEdge => true
  | .ppsInMissing => true
  | .ppsOutRise => true
  | .ppsOutFall => true
  | .helloTimer => true
  | .helloRx ch frame => ch < b.channels && wireFrameGood frame
  | .deadTimerExpire lane => lane < b.lanes
  | .lsaRx ch frame => ch < b.channels && wireFrameGood frame
  | .lsaRefresh => true
  | .lsaAgeOut origin => origin < 2 ^ 64
  | .routeCompute => true
  | .assignRx ch frame => ch < b.channels && wireFrameGood frame
  | .assignRefresh => true
  | .duplicateRenumber serial => serial < 2 ^ 64
  | .relayReqRx ch frame => ch < b.channels && wireFrameGood frame
  | .relayRspRx ch frame => ch < b.channels && wireFrameGood frame
  | .eventDelivery proc => proc < 8
  | .eqHeadReturn proc word _ => proc < 8 && word < 2 ^ 64
  | .sourceComplete proc word _ => proc < 8 && word < 2 ^ 64
  | .maskWrite proc word _ => proc < 8 && word < 2 ^ 64
  | .thresholdWrite proc word _ => proc < 8 && word < 2 ^ 64
  | .sourceWrite agent source octets => agent.good && source < b.sources && octets.length = 8
  | .testRaise agent cause => agent.good && cause < 65536
  | .eqConfigWrite agent eq index data => agent.good && eq < 8 && index < 65536 && data.length ≤ 8
  | .wakeInput input => match input with | .source n => n < 512 | .primrose ch => ch < b.channels | .wakeN => true
  | .fbFreeze agent => agent.good
  | .fbThaw agent => agent.good
  | .freezeLimitExpire => true
  | .pfailFall => true
  | .pfailRecover => true
  | .nvmDiscovery found => found.density < 2 ^ 32 && found.eraseOpcode < 256 && found.readModes < 32 && found.quadEnable < 8
  | .nvmOperationDone _ => true
  | .nvmTimeout => true
  | .monumentMount => true
  | .monumentProgram _ => true
  | .tokenAccrue => true
  | .budgetHourExpire => true
  | .monumentRestart agent => agent.good
  | .monumentFormat agent sectors => agent.good && sectors < 65536
  | .atlasSet agent base limit => agent.good && base < 2 ^ 32 && limit < 2 ^ 32
  | .atlasErase agent => agent.good
  | .atlasImageWrite agent octets => agent.good && dpOctetsGood octets
  | .atlasApply => true
  | .powerRequest agent target _ => agent.good && target < 256
  | .modeApply => true
  | .handshakeAnswer => true
  | .frameWaitExpire => true
  | .idleEnter => true
  | .idleExit => true
  | .returnReady step => 1 ≤ step && step ≤ 6
  | .returnStepTimeout => true
  | .returnEnd => true
  | .primroseFrame ch frame => ch < b.channels && frame.length ≤ 16383
  | .snowdropOverride view => view < 256
  | .statsClear agent unit => agent.good && unit < 65536
  | .statsClearApply => true
  | .statsSnapshot agent unit slot => agent.good && unit < 65536 && slot < 256
  | .snapshotLatch => true
  | .snapshotDone slot => slot < 2
  | .rxPeakRead agent ch sub => agent.good && ch < b.channels && sub < 256
  | .porstAssert => true
  | .porstRelease serial => serial < 2 ^ 64
  | .srstAssert => true
  | .srstRelease => true
  | .sdClkLost => true
  | .sdClkRestored => true
  | .pllLockLoss => true
  | .ledActivityTimer lane => lane < b.lanes
  | .pllLock => true
  | .hiBerEnd lane => lane < b.lanes

end Sys2Proof
end

