-- ==== Sys2Proof/Tests/Slice0.lean ====
section
/-! SUPPORT. Tests: an ill-formed command for each check of well-formedness; single steps whose results are worked out from the rules;
for every statement with hypotheses, states and operands that meet them, clause by clause. -/
namespace Sys2Proof.Tests
set_option Elab.async false
set_option maxRecDepth 100000
open Sys2Proof.Machine

/-! ### States and operands that the tests share -/

/-- Host software of processor 0. -/
def host : Agent := ⟨.host, 0⟩
/-- The device after reset, in RUN. -/
def run : State := State.reset.wr 0x001 0x5000 0 1
/-- Lane 0 in 10GBASE-R, UP, its channel 0 enabled. -/
def up : State := ((run.wr 0x100 0x1000 0 3).wr 0x100 0x5000 0 5).wr 0x200 0x1000 0 1
/-- The same with lane 0 a fabric link. -/
def fab : State := ((up.wr 0x100 0x1005 0 1).wr 0x00D 0x1000 0 1).wr 0x00D 0x5001 0 1
/-- A frame with number `id`, from endpoint `ing`. -/
def fr (id ing : Nat) (octets : List Octet) : Frame := { run.newFrame ing (0, 0) false with id := id, octets := octets }
/-- A copy of frame `id` for endpoint `ep`. -/
def cp (id ep : Nat) : Copy := run.newCopy id ep (.base ep 0) 0 false false none
/-- 60 octets of zeros with their FCS. -/
def whole : List Octet := List.replicate 60 0 ++ fcsOctets (List.replicate 60 0)
/-- A pause frame with time `t`, its FCS octets left 0. -/
def pauseOctets (op t : Nat) : List Octet := toMsb 6 0x0180C2000001 ++ toMsb 6 0 ++ toMsb 2 0x8808 ++ toMsb 2 op ++ toMsb 2 t ++ List.replicate 46 0

/-- A decision to send to the endpoints `l`. -/
def dec (l : List Target) : Decision := ⟨.miss, 0, false, 1, 0, 0, 0, 0, 0, 0, 0, 0, 0, 0, 0, l, [], 0, false, []⟩
/-- Start octets with octet 8 `d`. -/
def start8 (d : Octet) : List Octet := List.replicate 7 0x55 ++ [d]
/-- Octets with an mCRC of mask `m`. -/
def mcrc (m : Nat) : List Octet := List.replicate 64 0 ++ toLsb 4 (crc crc32 (List.replicate 64 0) ^^^ m)
/-- A fabric frame of type `t` to `dst` with a body, FCS octets 0. -/
def fabFrame (t dst : Nat) (body : List Octet) : List Octet :=
  fabHeader t dst 0 0x7F 7 0 1 0 0 0 0 ++ body ++ List.replicate 48 0 ++ [0, 0, 0, 0]
/-- The device with one frame, and with one copy of it. -/
def with1 (s : State) (f : Frame) : State := { s.setReg .nextFrame 9 with frames := [f] }
def copy1 (s : State) (f : Frame) (c : Copy) : State := { with1 s f with copies := [c] }
/-- A committed frame of channel 0 whose octets are whole. -/
def stored : Frame := { fr 1 0 whole with ended := true, committed := true, cells := 1 }
/-- A receive template slot. -/
def slot0 : FoldSlot := ⟨0, 0, false, 0, 0, 2, false, 0, List.replicate 14 1⟩

/-- TQ0, BQ0 and CQ0 running with 64 entries. -/
def rings : State :=
  ((((up.wr 0x400 0x0002 0 1).wr 0x440 0x0002 0 1).wr 0x480 0x0002 0 1).wr 0x400 0x4001 0 6).wr 0x480 0x4001 0 6 |>.wr 0x440 0x4001 0 6
/-- An operation outstanding on MP. -/
def op (write : Bool) (tag : Nat) (p : MpPurpose) : MpOp := ⟨write, tag, 0, [], p⟩

/-- The dictionary row of object `i` sub-index `k` of unit `u`, for the host. -/
def rowOf (u i k : Nat) : ObjRow := match run.lookup host u i k with | .ok r => r | .error _ => ⟨0, 0, 0, 0, .table, .ro, .h, .num 0, .any⟩
/-- Manager 1. -/
def man : Agent := ⟨.manager, 1⟩
/-- A lease of `u` held by `a`, with its whole time left, and a state with it. -/
def lease (u : Nat) (a : Agent) : Lease := ⟨u, a, 100⟩
def leased (s : State) (u : Nat) (a : Agent) : State := { s with leases := [lease u a] }
/-- A claim that waits. -/
def claim (u : Nat) (a : Agent) (s : State) : State := { s with claims := [⟨u, a⟩] }
/-- A staged write of `lease_time`-like object `i` of channel 0, and a commit of it. -/
def wr1 (i v : Nat) : StagedWrite := ⟨.obj ⟨0x200, i, 0⟩, v, host⟩
def com (ok : Bool) (w : StagedWrite) : CommitOp := ⟨0x200, host, ok, [w], []⟩
def withCom (ok : Bool) (w : StagedWrite) : State := { up with staged := [w], commits := [com ok w] }
/-- A staged write of the TIME unit. -/
def wr3 : StagedWrite := ⟨.obj ⟨0x003, 0x1001, 0⟩, 1, host⟩
/-- The NVM port has found its flash, whose atlas region is at address 0. -/
def nvm : State := ((up.wr 0x005 0x5001 0 2).setReg .atlasBase 1).setReg .atlasLimit 4096
/-- The data port of an agent at a table. -/
def dpAt (s : State) (a : Agent) (u i off len : Nat) : State := s.setCtx a { s.ctx a with target := some (u, i), tIndex := i, offset := off, length := len }
/-- The data port's path of an agent. -/
def dpPathTo (s : State) (a : Agent) (u : Nat) : State := s.setCtx a { s.ctx a with pathLen := (pathTo u).length, path := pathTo u ++ (s.ctx a).path.drop (pathTo u).length }
/-- Octet images of table entries. -/
def ent8 (v n : Nat) : List Octet := toLsb n v

/-- A scan job entry: STATE, SOURCE 0, POLY 1, LENGTH 8, and one that asks for GO. -/
def job (st : Nat) : Nat := st * 2 ^ 62 + 2 ^ 56 + 8 * 2 ^ 160
def jobbed (st : Nat) : State := up.setEnt 0x00B 0x6002 0 (job st)
/-- TQ0 in a state, with a ring base. -/
def tq (st : Nat) : State := up.wr 0x400 0x0002 0 st

/-- Mailbox words of an operation on object `i` sub-index `k` of unit `u`. -/
def mb (o u i k len data : Nat) : MbWords :=
  ⟨1 + o * 4 + len * 2 ^ 16 + (pathTo u).length * 2 ^ 36 + k * 2 ^ 40 + i * 2 ^ 48, ((List.range (pathTo u).length).map (fun n => (pathTo u).getD n 0 * 2 ^ (16 * n))).sum, 0, data, 0⟩
def busy (ready : Bool) : State := up.setMailbox 7 { up.mailbox 7 with busy := true, ready := ready }
/-- A request PDU with its tag by key 9 of slot 1, and the frame of it for channel 0. -/
def pdu (o seq u i k len : Nat) (data : List Octet) : List Octet :=
  let p := pduHead o 1 seq i k len (pathTo u) ++ data
  p ++ pduTag 9 p
def inFrame (p : List Octet) : List Octet := toMsb 6 0x020000000001 ++ toMsb 6 2 ++ toMsb 2 (up.rd 0x012 0x1000 0) ++ p ++ [0, 0, 0, 0]
/-- Channel 0 takes object-access frames, and slot 1 has key 9. -/
def field1 : State := { (up.wr 0x200 0x1002 0 0x020000000001).wr 0x012 0x1001 0 1 with keys := [(1, 9)] }
def seq1 : Nat := run.bootEpoch * 2 ^ 32 + 1
def waitReq : AccessReq := ⟨0, [], true, 0⟩
/-- A relay's control octets, a member with ID 1, and a second member of the root 9. -/
def relayB (msg agent key : Nat) (p : List Octet) : List Octet := [BitVec.ofNat 8 msg, 0] ++ toMsb 2 (4 + p.length) ++ toMsb 2 5 ++ [BitVec.ofNat 8 agent, BitVec.ofNat 8 key] ++ p
def member : State := fab.wr 0x00D 0x5002 0 1
/-- Control octets of a HELLO, an LSA and an ASSIGN. -/
def helloB (serial : Nat) : List Octet := [1, 0, 0, 0] ++ toMsb 8 serial ++ List.replicate 20 0
def lsaB (origin seq : Nat) : List Octet := [2, 0, 0, 0] ++ toMsb 8 origin ++ [3, 0] ++ toMsb 4 seq ++ toMsb 4 0
def assignB (root chunk seq : Nat) : List Octet := [3, 0, 0, 0] ++ toMsb 8 root ++ [128, BitVec.ofNat 8 chunk] ++ toMsb 4 seq ++ toMsb 2 7 ++ toMsb 8 root ++ [1, 128]
def lsa (origin seq : Nat) : Lsa := ⟨origin, 3, seq, 0, []⟩
/-- A neighbour of lane 0, TWO_WAY. -/
def twoWay : State := (fab.setEnt 0x00D 0x6000 0 (2 * 2 ^ 62 + 5 * 2 ^ 64)).startTimer (.dead 0) 5
/-- The same with lane 1 a fabric link too. -/
def fab2 : State := (((twoWay.wr 0x101 0x1000 0 3).wr 0x101 0x5000 0 5).wr 0x204 0x1000 0 1).wr 0x101 0x1005 0 1

/-- Source 0x100 PENDING for processor 2 with priority 5, and its event queue on. -/
def event : State := (up.wr 0x4C2 0x4002 0 1).setEnt 0x002 0x6000 0x100 (2 * 2 ^ 61 + 5 * 2 ^ 57 + 2 ^ 51)
/-- A state with one more register set. -/
def withReg (s : State) (h : Hid) (v : Int) : State := s.setReg h v
/-- Discovery found a flash. -/
def sfdp (density : Nat) : SfdpResult := ⟨true, density, true, 0x20, 2, false, 1, 256, 3, 400, 30, true, 1, 45⟩
/-- Octets in the flash from an address on. -/
def cells (a : Nat) (l : List Octet) : List Host.Cell := match l with | [] => [] | o :: t => (a, o) :: cells (a + 1) t
theorem read_cells (a j : Nat) (l : List Octet) : Memory.read (cells a l) (a + j) = l.getD j Memory.erased := by
  induction l generalizing a j with
  | nil => rfl
  | cons o t ih =>
    cases j with
    | zero => simp [cells, Memory.read]
    | succ j =>
      have h : a + (j + 1) = (a + 1) + j := by omega
      simp only [cells, Memory.read, List.getD_cons_succ]
      rw [if_neg (by omega), if_neg (by omega), h]
      exact ih (a + 1) j
/-- The newest header of a flash that holds `l` at the region's base, and nothing else. -/
def newestIn (l : List Octet) (copies : List Nat) : Option (Nat × List Octet) :=
  (copies.flatMap (fun c => (List.range 64).map (fun k => (c, (List.range 64).map (fun i => l.getD (4096 * c + (64 * k + i)) Memory.erased))))).foldl
    (fun b h =>
      if !headerValid h.2 then b
      else match b with
        | some g => if newer32 (beN h.2 4 4) (beN g.2 4 4) then some h else some g
        | none => some h) none
theorem newestHeader_cells (s : State) (l : List Octet) (c : List Nat) (h : s.flash = cells regionBase l) : s.newestHeader c = newestIn l c := by
  simp only [State.newestHeader, newestIn, State.flashRead, headerAddr, h, Nat.add_assoc, read_cells] <;> rfl
/-- A header with HGEN 1, BOOT_EPOCH 4 and 64 record sectors. -/
def header : List Octet := withCrc (toMsb 4 0x4D4F4E31 ++ toMsb 4 1 ++ toMsb 4 4 ++ toMsb 2 64 ++ List.replicate 46 0)
/-- The Monument mounted, one record waiting. -/
def mon : State := nvm.wr 0x005 0x5006 0 64
/-- No job entry is free. -/
def noJob (s : State) : State := [0, 1, 2, 3].foldl (fun s j => s.setEnt 0x00B 0x6002 j (job 1)) s
/-- The port of a known flash with an operation in progress. -/
def porting (s : State) (o : NvmOp) : State := { (s.setReg .nvmKnown 1).setReg .nvmBegun 1 with nvmQ := [o] }
def record1 : MonPending := ⟨0, List.replicate 60 1, .fixed, 0, 0⟩
/-- An atlas of one entry, at address 0 of the flash: channel 0's `enable`. -/
def atlasEntry1 : List Octet := [1, BitVec.ofNat 8 (pathTo 0x200).length, 0x10, 0, 0, 0, 0, 1] ++ (pathTo 0x200).flatMap (toMsb 2) ++ [1, 0, 0, 0]
def body1 : List Octet := atlasEntry1.take (ceilDiv (8 + 2 * (pathTo 0x200).length + 1) 4 * 4)
def atlas (bodyCrc : Nat) (body : List Octet) : List Octet :=
  withCrc ([0x41, 0x54, 0x4C, 0x31, 1, 0, 0, BitVec.ofNat 8 run.build.channels] ++ toMsb 4 body.length ++ toMsb 4 1 ++ toMsb 4 bodyCrc ++ toMsb 8 9) ++ body
def atlased (image : List Octet) : State := { nvm.wr 0x005 0x500B 0 1 with flash := cells 0 image }

/-- An entry for mode `x` at order `n`. -/
def entering (x n : Nat) : State := (((run.wr 0x001 0x5001 0 1).setReg .target x).setReg .askOrder n).setReg .origin 1
/-- A return from mode `m` at step `n`. -/
def returning (m n : Nat) : State :=
  ((((run.wr 0x001 0x5000 0 m).wr 0x001 0x5001 0 2).setReg .returnFrom m).setReg .returnStep n).setReg .origin 1
/-- SLEEP, with Primrose on channel 0 for magic packets, and such a packet. -/
def asleep : State := (((up.wr 0x001 0x5000 0 3).wr 0x001 0x1004 0 1).wr 0x001 0x1005 0 1).wr 0x200 0x1002 0 0x020000000001
def magic : List Octet :=
  let l := List.replicate 14 1 ++ List.replicate 6 0xFF ++ (List.replicate 16 (toMsb 6 0x020000000001)).flatten
  l ++ fcsOctets l
def inMode (m : Nat) : State := run.wr 0x001 0x5000 0 m

/-- Legend entry 3 and Contour entries 2 and 5, each matching every key, the Legend entry with the action of its bank. -/
def legended (act : Nat) : State := (up.setEnt 0x006 0x6000 3 (2 ^ 641)).setEnt 0x006 0x6002 3 act
def contoured (s : State) : State := (s.setEnt 0x007 0x6000 2 (2 + 5 * 2 ^ 48)).setEnt 0x007 0x6000 5 (2 + 5 * 2 ^ 48)
def blankKey : Key := ⟨0, 0, false, 0, 0, 0, none⟩
theorem contoured_hit : (contoured up).contourHit blankKey 5 :=
  have h1 : menuField blankKey (field ((contoured up).ent 0x007 0x6000 5) 60 4) false = none := by decide +kernel
  have h2 : menuField blankKey (field ((contoured up).ent 0x007 0x6000 5) 56 4) true = none := by decide +kernel
  ⟨by decide +kernel, by decide +kernel, fun _ h => (nomatch h1.symm.trans h), fun _ h => (nomatch h2.symm.trans h)⟩
/-- A frame whose key waits to be decided. -/
def keyed (s : State) : State := { with1 s { stored with key := some blankKey } with keyQ := [1] }

/-! ### Well-formedness: each check refuses a command that breaks it -/

theorem test_ill_formed_0 : (([.rxFrameStart 64 ⟨(List.replicate 8 0x55), 0⟩ 0,
    .rxFrameStart 0 ⟨List.replicate 7 0x55, 0⟩ 0,
    .rxCell 64 ⟨List.replicate 64 0, true, none, 0, 0, []⟩,
    .rxCell 0 ⟨[], true, none, 0, 0, []⟩,
    .rxCell 0 ⟨List.replicate 65 0, true, none, 0, 0, []⟩,
    .rxCell 0 ⟨[0], false, none, 0, 0, []⟩,
    .rxCell 0 ⟨[0], true, some 1, 0, 0, []⟩,
    .rxCell 0 ⟨[0], true, none, 0, 0, [1]⟩,
    .decisionDeliver (.contourBad 1048576),
    .decisionDeliver (.flowBad 1048576),
    .decisionDeliver (.actionAt true 1048576),
    .decisionDeliver (.actionAt false 1048576),
    .commitPoint 0x44,
    .alRxFrame 3 64 false [] false,
    .alRxFrame 0 65536 false [] false,
    .alRxFrame 0 0 false (List.replicate 16385 0) false,
    .schedChoice 0x44 0 0,
    .schedChoice 0 4 0,
    .txFrameStart 0x44 0 0 ⟨0, false, false⟩,
    .txFrameStart 0 4 0 ⟨0, false, false⟩,
    .txFrameEnd 0x44,
    .alTxFrameEnd 3 ⟨0, false, false⟩,
    .macControlOther 64 (List.replicate 64 0),
    .macControlOther 0 (List.replicate 63 0),
    .pauseRx 64 (List.replicate 64 0),
    .pauseRx 0 (List.replicate 63 0),
    .pfcRx 64 (List.replicate 64 0),
    .pfcRx 0 (List.replicate 63 0),
    .accessRead 64 (List.replicate 64 0),
    .accessRead 0 (List.replicate 63 0),
    .accessWrite 64 (List.replicate 64 0),
    .accessWrite 0 (List.replicate 63 0),
    .accessEpoch 64 (List.replicate 64 0),
    .accessEpoch 0 (List.replicate 63 0),
    .templateInstallRx 64 (List.replicate 64 0),
    .templateInstallRx 0 (List.replicate 63 0),
    .foldNakRx 64 (List.replicate 64 0),
    .foldNakRx 0 (List.replicate 63 0),
    .helloRx 64 (List.replicate 64 0),
    .helloRx 0 (List.replicate 63 0)] : List Instr).any (Instr.wf .tlafelu64)) = false := by decide +kernel

theorem test_ill_formed_1 : (([.lsaRx 64 (List.replicate 64 0),
    .lsaRx 0 (List.replicate 63 0),
    .assignRx 64 (List.replicate 64 0),
    .assignRx 0 (List.replicate 63 0),
    .relayReqRx 64 (List.replicate 64 0),
    .relayReqRx 0 (List.replicate 63 0),
    .relayRspRx 64 (List.replicate 64 0),
    .relayRspRx 0 (List.replicate 63 0),
    .macControlOther 0 (List.replicate 16384 0),
    .foldDataRx 64 (List.replicate 64 0) false 0,
    .foldDataRx 0 [] false 0,
    .pauseGenStart 64,
    .pauseWdBreak 64,
    .holdoffEnd 64,
    .verifyRx 64,
    .respondRx 64,
    .verifyTimeExpire 64,
    .templateInstallTx 64,
    .foldNakTx 64,
    .pauseRefreshExpire 64 0,
    .pauseRefreshExpire 0 9,
    .pauseActiveExpire 64 0,
    .pauseActiveExpire 0 9,
    .pauseHoldEnd 64 0,
    .pauseHoldEnd 0 9,
    .mmFragmentRx 64 (List.replicate 8 0x55) ⟨[], none, 0, 0⟩ 0,
    .mmFragmentRx 0 [] ⟨[], none, 0, 0⟩ 0,
    .mmFragmentRx 0 (List.replicate 8 0x55) ⟨List.replicate 16384 0, none, 0, 0⟩ 0,
    .mmFragmentRx 0 (List.replicate 8 0x55) ⟨[0], some 1, 0, 0⟩ 0,
    .fabricFragmentRx 64 (List.replicate 8 0x55) ⟨[], none, 0, 0⟩ 0,
    .fabricFragmentRx 0 [] ⟨[], none, 0, 0⟩ 0,
    .fabricFragmentRx 0 (List.replicate 8 0x55) ⟨List.replicate 16384 0, none, 0, 0⟩ 0,
    .fabricFragmentRx 0 (List.replicate 8 0x55) ⟨[0], some 1, 0, 0⟩ 0,
    .fragTimeout 64 0,
    .fragTimeout 0 4,
    .foldHoldExpire 64 0,
    .foldHoldExpire 0 256,
    .sdRise 64,
    .sdFall 64,
    .syncAcquired 64] : List Instr).any (Instr.wf .tlafelu64)) = false := by decide +kernel

theorem test_ill_formed_2 : (([.syncTimeoutExpire 64,
    .upHoldExpire 64,
    .deadTimerExpire 64,
    .ledActivityTimer 64,
    .hiBerEnd 64,
    .laneClockLost ⟨64, true⟩,
    .laneClockReturn ⟨64, false⟩,
    .syncLost 64 false,
    .anComplete 64 0,
    .anComplete 0 65536,
    .linkRestart ⟨.host, 8⟩ 0,
    .linkRestart ⟨.manager, 7⟩ 64,
    .objectWrite ⟨.host, 8⟩ [1] 0 0 [],
    .objectWrite ⟨.manager, 7⟩ [] 0 0 [],
    .objectWrite ⟨.manager, 7⟩ [65536] 0 0 [],
    .objectWrite ⟨.manager, 7⟩ (List.replicate 9 1) 0 0 [],
    .objectWrite ⟨.manager, 7⟩ [1] 65536 0 [],
    .objectWrite ⟨.manager, 7⟩ [1] 0 256 [],
    .objectWrite ⟨.manager, 7⟩ [1] 0 0 (List.replicate 1025 0),
    .stagedWrite ⟨.host, 8⟩ [1] 0 0 [],
    .stagedWrite ⟨.manager, 7⟩ [] 0 0 [],
    .stagedWrite ⟨.manager, 7⟩ [65536] 0 0 [],
    .stagedWrite ⟨.manager, 7⟩ (List.replicate 9 1) 0 0 [],
    .stagedWrite ⟨.manager, 7⟩ [1] 65536 0 [],
    .stagedWrite ⟨.manager, 7⟩ [1] 0 256 [],
    .stagedWrite ⟨.manager, 7⟩ [1] 0 0 (List.replicate 1025 0),
    .commit ⟨.host, 8⟩ [1],
    .commit ⟨.manager, 7⟩ [],
    .discard ⟨.host, 8⟩ [1],
    .discard ⟨.manager, 7⟩ [],
    .leaseClaim ⟨.host, 8⟩ [1],
    .leaseClaim ⟨.manager, 7⟩ [],
    .leaseRenew ⟨.host, 8⟩ [1],
    .leaseRenew ⟨.manager, 7⟩ [],
    .leaseRelease ⟨.host, 8⟩ [1],
    .leaseRelease ⟨.manager, 7⟩ [],
    .commitCheckDone 65536,
    .leaseExpiry 65536,
    .alarmAck ⟨.host, 8⟩ [1] 0,
    .alarmAck ⟨.manager, 7⟩ [] 0] : List Instr).any (Instr.wf .tlafelu64)) = false := by decide +kernel

theorem test_ill_formed_3 : (([.alarmAck ⟨.manager, 7⟩ [1] (2 ^ 32),
    .mailboxRead 8 ⟨⟨0, 0, 0, 0, 0⟩, true⟩,
    .mailboxRead 0 ⟨⟨2 ^ 64, 0, 0, 0, 0⟩, true⟩,
    .mailboxRead 0 ⟨⟨0, 2 ^ 64, 0, 0, 0⟩, true⟩,
    .mailboxRead 0 ⟨⟨0, 0, 2 ^ 64, 0, 0⟩, true⟩,
    .mailboxRead 0 ⟨⟨0, 0, 0, 2 ^ 64, 0⟩, true⟩,
    .mailboxRead 0 ⟨⟨0, 0, 0, 0, 2 ^ 64⟩, true⟩,
    .mailboxWrite 8 ⟨⟨0, 0, 0, 0, 0⟩, true⟩,
    .mailboxWrite 0 ⟨⟨2 ^ 64, 0, 0, 0, 0⟩, true⟩,
    .mailboxWrite 0 ⟨⟨0, 2 ^ 64, 0, 0, 0⟩, true⟩,
    .mailboxWrite 0 ⟨⟨0, 0, 2 ^ 64, 0, 0⟩, true⟩,
    .mailboxWrite 0 ⟨⟨0, 0, 0, 2 ^ 64, 0⟩, true⟩,
    .mailboxWrite 0 ⟨⟨0, 0, 0, 0, 2 ^ 64⟩, true⟩,
    .mailboxDone 8,
    .dpTargetWrite ⟨.host, 8⟩ 0,
    .dpTargetWrite ⟨.manager, 7⟩ 65536,
    .dpOffsetWrite ⟨.host, 8⟩ 0,
    .dpOffsetWrite ⟨.manager, 7⟩ (2 ^ 32),
    .dpLengthWrite ⟨.host, 8⟩ 0,
    .dpLengthWrite ⟨.manager, 7⟩ (2 ^ 32),
    .dpDataRead ⟨.host, 8⟩ 8,
    .dpDataRead ⟨.manager, 7⟩ 1025,
    .dpDataWrite ⟨.host, 8⟩ [],
    .dpDataWrite ⟨.manager, 7⟩ (List.replicate 1025 0),
    .dpApertureRead 8 64,
    .dpApertureRead 0 24,
    .dpApertureWrite 8 64 0,
    .dpApertureWrite 0 24 0,
    .dpApertureWrite 0 64 (2 ^ 64),
    .accessRelayTimeout 65536,
    .keyWrite ⟨.host, 8⟩ 0 (List.replicate 16 0),
    .keyWrite ⟨.manager, 7⟩ 8 (List.replicate 16 0),
    .keyWrite ⟨.manager, 7⟩ 0 [],
    .keyErase ⟨.host, 8⟩ 0,
    .keyErase ⟨.manager, 7⟩ 256,
    .editionCommit ⟨.host, 8⟩,
    .editionDiscard ⟨.host, 8⟩,
    .foldFlush ⟨.host, 8⟩,
    .timeNowRead ⟨.host, 8⟩,
    .stepSet ⟨.host, 8⟩] : List Instr).any (Instr.wf .tlafelu64)) = false := by decide +kernel

theorem test_ill_formed_4 : (([.fbFreeze ⟨.host, 8⟩,
    .fbThaw ⟨.host, 8⟩,
    .monumentRestart ⟨.host, 8⟩,
    .atlasErase ⟨.host, 8⟩,
    .policerWrite ⟨.host, 8⟩ 0 (List.replicate 64 0),
    .policerWrite ⟨.manager, 7⟩ 65536 (List.replicate 64 0),
    .policerWrite ⟨.manager, 7⟩ 0 (List.replicate 9 0),
    .policerWrite ⟨.manager, 7⟩ 0 [],
    .policerWrite ⟨.manager, 7⟩ 0 (List.replicate 1032 0),
    .streamWrite ⟨.host, 8⟩ 0 (List.replicate 64 0),
    .streamWrite ⟨.manager, 7⟩ 65536 (List.replicate 64 0),
    .streamWrite ⟨.manager, 7⟩ 0 (List.replicate 9 0),
    .streamWrite ⟨.manager, 7⟩ 0 [],
    .streamWrite ⟨.manager, 7⟩ 0 (List.replicate 1032 0),
    .queueWrite ⟨.host, 8⟩ 0 (List.replicate 64 0),
    .queueWrite ⟨.manager, 7⟩ 65536 (List.replicate 64 0),
    .queueWrite ⟨.manager, 7⟩ 0 [],
    .gateTransition 0x44,
    .gateCtReached 0x44,
    .tailDoorbell .tq 64 0 true,
    .tailDoorbell .tq 0 (2 ^ 64) true,
    .scanKnock .bq 64 true,
    .ringScanDone .tq 64 0,
    .ringScanDone .tq 0 65537,
    .cqHeadDoorbell 64 0 true,
    .cqHeadDoorbell 0 (2 ^ 64) true,
    .doorbellAbsent 0x1FF8,
    .doorbellAbsent 0x2600,
    .doorbellAbsent 0x2001,
    .descReadDone .tq 64 (List.replicate 32 0),
    .descReadDone .tq 0 [],
    .mpReadResponse 256 (List.replicate 64 0) true false,
    .mpReadResponse 0 [] true false,
    .mpWriteResponse 64 false,
    .mpOperationTimeout true 64,
    .mpOperationTimeout false 256,
    .bqBufferTake 64 ⟨0, false, false⟩,
    .cqStallDetect 64,
    .cqIrqTimer 64,
    .ringStart ⟨.host, 8⟩ 0x400] : List Instr).any (Instr.wf .tlafelu64)) = false := by decide +kernel

theorem test_ill_formed_5 : (([.ringStart ⟨.manager, 7⟩ 0x3FF,
    .ringStart ⟨.manager, 7⟩ 0x4C0,
    .ringStop ⟨.host, 8⟩ 0x400,
    .ringStop ⟨.manager, 7⟩ 0x3FF,
    .ringStop ⟨.manager, 7⟩ 0x4C0,
    .ringReset ⟨.host, 8⟩ 0x400,
    .ringReset ⟨.manager, 7⟩ 0x3FF,
    .ringReset ⟨.manager, 7⟩ 0x4C0,
    .ringConfigWrite ⟨.host, 8⟩ 0x400 0 [],
    .ringConfigWrite ⟨.manager, 7⟩ 0x4C0 0 [],
    .ringConfigWrite ⟨.manager, 7⟩ 0x400 65536 [],
    .ringConfigWrite ⟨.manager, 7⟩ 0x400 0 (List.replicate 9 0),
    .alStateChange 3 0,
    .alStateChange 0 4,
    .alHoldExpire 3,
    .alTxStall 3,
    .coexReqRise 3,
    .coexGrant 3 false,
    .coexReqFall 3,
    .maxQuietExpire 3,
    .scanJobStore ⟨.host, 8⟩ 0 (List.replicate 32 0),
    .scanJobStore ⟨.manager, 7⟩ 4 (List.replicate 32 0),
    .scanJobStore ⟨.manager, 7⟩ 0 [],
    .scanJobGo ⟨.host, 8⟩ 0 (List.replicate 32 0),
    .scanJobGo ⟨.manager, 7⟩ 4 (List.replicate 32 0),
    .scanJobGo ⟨.manager, 7⟩ 0 [],
    .scanJobDone 4 .complete,
    .scanAbort ⟨.host, 8⟩ 0,
    .scanAbort ⟨.manager, 7⟩ 256,
    .incrementWrite ⟨.host, 8⟩ (List.replicate 8 0),
    .incrementWrite ⟨.manager, 7⟩ [],
    .adjust ⟨.host, 8⟩ 0,
    .adjust ⟨.manager, 7⟩ (2 ^ 63),
    .adjust ⟨.manager, 7⟩ (-(2 ^ 63) - 1),
    .lsaAgeOut (2 ^ 64),
    .duplicateRenumber (2 ^ 64),
    .eventDelivery 8,
    .eqHeadReturn 8 0 true,
    .eqHeadReturn 0 (2 ^ 64) true,
    .sourceComplete 8 0 true] : List Instr).any (Instr.wf .tlafelu64)) = false := by decide +kernel

theorem test_ill_formed_6 : (([.sourceComplete 0 (2 ^ 64) true,
    .maskWrite 8 0 true,
    .maskWrite 0 (2 ^ 64) true,
    .thresholdWrite 8 0 true,
    .thresholdWrite 0 (2 ^ 64) true,
    .sourceWrite ⟨.host, 8⟩ 0 (List.replicate 8 0),
    .sourceWrite ⟨.manager, 7⟩ 65536 (List.replicate 8 0),
    .sourceWrite ⟨.manager, 7⟩ 0 [],
    .testRaise ⟨.host, 8⟩ 0,
    .testRaise ⟨.manager, 7⟩ 65536,
    .eqConfigWrite ⟨.host, 8⟩ 0 0 [],
    .eqConfigWrite ⟨.manager, 7⟩ 8 0 [],
    .eqConfigWrite ⟨.manager, 7⟩ 0 65536 [],
    .eqConfigWrite ⟨.manager, 7⟩ 0 0 (List.replicate 9 0),
    .wakeInput (.source 512),
    .wakeInput (.primrose 64),
    .nvmDiscovery (sfdp (2 ^ 32)),
    .nvmDiscovery { sfdp 0 with readModes := 32 },
    .nvmDiscovery { sfdp 0 with quadEnable := 8 },
    .monumentFormat ⟨.host, 8⟩ 8,
    .monumentFormat ⟨.manager, 7⟩ 65536,
    .atlasSet ⟨.host, 8⟩ 0 0,
    .atlasSet ⟨.manager, 7⟩ (2 ^ 32) 0,
    .atlasSet ⟨.manager, 7⟩ 0 (2 ^ 32),
    .atlasImageWrite ⟨.host, 8⟩ (List.replicate 8 0),
    .atlasImageWrite ⟨.manager, 7⟩ [],
    .powerRequest ⟨.host, 8⟩ 0 false,
    .powerRequest ⟨.manager, 7⟩ 256 false,
    .returnReady 0,
    .returnReady 7,
    .primroseFrame 64 [],
    .primroseFrame 0 (List.replicate 16384 0),
    .snowdropOverride 256,
    .statsClear ⟨.host, 8⟩ 0x11,
    .statsClear ⟨.manager, 7⟩ 65536,
    .statsSnapshot ⟨.host, 8⟩ 0 0,
    .statsSnapshot ⟨.manager, 7⟩ 65536 0,
    .statsSnapshot ⟨.manager, 7⟩ 0 256,
    .snapshotDone 2,
    .rxPeakRead ⟨.host, 8⟩ 0 0] : List Instr).any (Instr.wf .tlafelu64)) = false := by decide +kernel

theorem test_ill_formed_7 : (([.rxPeakRead ⟨.manager, 7⟩ 64 0,
    .rxPeakRead ⟨.manager, 7⟩ 0 256,
    .porstRelease (2 ^ 64)] : List Instr).any (Instr.wf .tlafelu64)) = false := by decide +kernel

theorem test_well_formed : (([.rxFrameStart 63 ⟨(List.replicate 8 0x55), 3⟩ 7,
    .rxCell 0 ⟨List.replicate 64 0, true, none, 0, 0, []⟩,
    .commitPoint 0x43,
    .objectWrite ⟨.manager, 7⟩ [0xFFF] 65535 255 (List.replicate 1024 0),
    .mailboxRead 7 ⟨⟨2 ^ 64 - 1, 0, 0, 0, 0⟩, true⟩,
    .adjust ⟨.manager, 7⟩ (-(2 ^ 63)),
    .tailDoorbell .tq 63 (2 ^ 64 - 1) false,
    .returnReady 4,
    .tickBoundary,
    .porstRelease (2 ^ 64 - 1)] : List Instr).all (Instr.wf .tlafelu64)) = true := by decide +kernel

/-! ### Single steps -/

/-- What a step leaves, for a test: it answers a next state of which `p` holds. -/
def leaves (o : Host.Outcome State Fault Refusal) (p : State → Bool) : Bool := match o with | .next t => p t | _ => false

/-- The boundary after reset opens tick 1 with its slot 0 (R25). -/
theorem test_tick_boundary : leaves (exec .tickBoundary State.reset) (fun t => t.tick = 1 && t.slot = 0) = true := by decide +kernel

/-- With no command waiting one slot passes (log entry 2). -/
theorem test_empty_queue : leaves (step State.reset) (fun t => t.slot = 1 && t.tick = 0) = true := by decide +kernel

/-- The command at the front is taken off the queue and executed. -/
theorem test_queue : leaves (step { State.reset with pending := [.trefLost, .idleExit] }) (fun t => t.pending = [.idleExit] && t.rd 0x003 0x5002 0 = 1)
    = true := by decide +kernel

/-- FIPS 197, C.1. -/
theorem test_aes : aes [0, 1, 2, 3, 4, 5, 6, 7, 8, 9, 10, 11, 12, 13, 14, 15]
      [0x00, 0x11, 0x22, 0x33, 0x44, 0x55, 0x66, 0x77, 0x88, 0x99, 0xAA, 0xBB, 0xCC, 0xDD, 0xEE, 0xFF]
    = [0x69, 0xC4, 0xE0, 0xD8, 0x6A, 0x7B, 0x04, 0x30, 0xD8, 0xCD, 0xB7, 0x80, 0x70, 0xB4, 0xC5, 0x5A] := by decide +kernel

/-- SP 800-38B's examples of a message of no octets and of 40 octets, their first 8 octets. -/
theorem test_cmac : pduTag 0x2B7E151628AED2A6ABF7158809CF4F3C [] = [0xBB, 0x1D, 0x69, 0x29, 0xE9, 0x59, 0x37, 0x28] := by decide +kernel
theorem test_cmac_40 : pduTag 0x2B7E151628AED2A6ABF7158809CF4F3C
      (toMsb 16 0x6BC1BEE22E409F96E93D7E117393172A ++ toMsb 16 0xAE2D8A571E03AC9C9EB76FAC45AF8E51 ++ toMsb 8 0x30C81C46A35CE411)
    = [0xDF, 0xA6, 0x67, 0x47, 0xDE, 0x9A, 0xE6, 0x30] := by decide +kernel

/-- The check values of CRC-32 and CRC-32C over the nine digits. -/
theorem test_crc : crc crc32 [0x31, 0x32, 0x33, 0x34, 0x35, 0x36, 0x37, 0x38, 0x39] = 0xCBF43926
    ∧ crc crc32c [0x31, 0x32, 0x33, 0x34, 0x35, 0x36, 0x37, 0x38, 0x39] = 0xE3069283 := by decide +kernel

/-- R117 and the worked examples of chapters 4 and 8: durations in ticks at 25 Gb/s and 6.25 Gb/s. -/
theorem test_pause_duration : pauseTicks 0xFFFF 2500 = 8389 ∧ pauseTicks 0x0800 2500 = 263 ∧ pauseTicks 65535 625 = 33554 := by decide +kernel

/-- Chapter 3's worked example: octets 4 and 5 of quartered channels 0 and 2 at sequences 0 to 3, and the check nibbles of R208. -/
theorem test_quarter_octets : ([0, 1, 2, 3].map fun d => 0x50 + checkNibble d) = [0x50, 0x57, 0x5B, 0x5C]
    ∧ ([8, 9].map fun d => 0x50 + checkNibble d) = [0x5E, 0x59] ∧ ([4, 5, 6, 7].map checkNibble) = [0xD, 0xA, 0x6, 0x1] := by decide +kernel

/-- Chapter 8: the start octets 7 and 8 of fragments 0 and 2 of a level-1 frame with FCNT 2. -/
theorem test_fragment_start :
    let s := fab.setReg (.fcntTx 0 1) 2
    let c (n : Nat) : Copy := { run.newCopy 1 0 (.base 0 0) 1 false false none with level := 1, start := List.replicate 7 0x55 ++ [0xD5], frags := n }
    (s.unitStart (c 0) false).drop 6 = [0x06, 0x36] ∧ (s.unitStart (c 2) false).drop 6 = [0x26, 0x66] := by decide +kernel

/-- Chapter 3's column: its channels, air links and host port in the calendar of R30 (Tlafelu-24). -/
def column : State :=
  let w (l : List (Nat × Nat × Nat)) (s : State) : State := l.foldl (fun s x => s.wr x.1 x.2.1 0 x.2.2) s
  w [(0x100, 0x1000, 4), (0x101, 0x1000, 4), (0x102, 0x1000, 6), (0x103, 0x1000, 2), (0x104, 0x1000, 1), (0x104, 0x1004, 1), (0x105, 0x1000, 3),
     (0x200, 0x1000, 1), (0x204, 0x1000, 1), (0x208, 0x1000, 1), (0x209, 0x1000, 1), (0x20A, 0x1000, 1), (0x20B, 0x1000, 1), (0x20C, 0x1000, 1),
     (0x210, 0x1000, 1), (0x214, 0x1000, 1), (0x300, 0x1000, 1), (0x301, 0x1000, 1), (0x302, 0x1000, 1), (0x300, 0x1001, 8), (0x301, 0x1001, 8),
     (0x302, 0x1001, 4), (0x00C, 0x1000, 16)] { State.reset with build := .tlafelu24 }
def slotsOf (ep : Nat) : List Nat := (List.range 256).filter (fun k => (calendarOf column false).getD k 0 = ep)
theorem test_calendar : slotsOf 0x43 = (List.range 16).map (16 * ·) ∧ slotsOf 0x40 = [1, 33, 65, 97, 129, 161, 193, 225]
    ∧ slotsOf 0x42 = [5, 69, 133, 197] ∧ slotsOf 20 = [6, 91, 177] ∧ slotsOf 8 = [7] ∧ slotsOf 16 = [12] := by decide +kernel

/-- Chapter 9's lap wrap on TQ3, k = 4: the doorbell of step 4 is ignored, that of step 6 fills the ring. -/
def lap (head tail : Nat) : State := ((((up.wr 0x403 0x4001 0 4).wr 0x403 0x4006 0 3).wr 0x403 0x5001 0 head).wr 0x403 0x5000 0 tail).wr 0x403 0x0002 0 4
theorem test_lap_refused : leaves (exec (.tailDoorbell .tq 3 0x0000A true) (lap 20 22)) (fun t => t.rd 0x403 0x5000 0 = 22 && t.rd 0x403 0x8002 0 = 1)
    = true := by decide +kernel
theorem test_lap_taken : leaves (exec (.tailDoorbell .tq 3 0x00004 true) (lap 20 26)) (fun t => t.rd 0x403 0x5000 0 = 4 && t.rd 0x403 0x8002 0 = 0)
    = true := by decide +kernel

/-- Chapter 2's hung host: a claim by M1 ends with LEASE_HELD, 0x0100 and 18,000 ms. -/
theorem test_lease_held :
    leaves (exec .leaseClaimDecide { run with claims := [⟨0, man⟩], leases := [⟨0, host, 18 * 6250000⟩] })
      (fun t => t.result = ⟨man, some .leaseHeld, [0x01, 0x00, 0x00, 0x00, 0x46, 0x50]⟩ && t.leases = [⟨0, host, 18 * 6250000⟩]) = true := by
  decide +kernel

/-- Chapter 14's nesting on P1 (Tlafelu-24): TREF_LOST at 9 is delivered over CQ_DONE(2) at 4. -/
theorem test_nesting :
    leaves (exec (.eventDelivery 1)
        { (State.setEnt { run with build := .tlafelu24 } 0x002 0x6000 0x7E (1 * 2 ^ 61 + 9 * 2 ^ 57 + 2 ^ 51)).wr 0x4C1 0x4002 0 1 with
          levels := [⟨1, 0x0A, 4⟩] })
      (fun t => t.levels = [⟨1, 0x7E, 9⟩, ⟨1, 0x0A, 4⟩]) = true := by decide +kernel

/-- Chapter 16's refused sleep: the monument refuses with reason 8, and the stored frame is kept. -/
theorem test_sleep_refused :
    leaves (exec .handshakeAnswer { with1 (entering 3 8) stored with monQ := [record1] })
      (fun t => t.rd 0x001 0x5003 0 = 2 && t.rd 0x001 0x5003 2 = 0x005 && t.rd 0x001 0x5003 3 = 8 && t.frames = [stored] && t.phase = 0)
    = true := by decide +kernel

/-- A refused write changes nothing but ACCESS_REFUSED of its unit (R49). -/
theorem test_refused_write : leaves (exec (.objectWrite host (pathTo 0x000) 0x4001 0 [0, 0]) run)
      (fun t => t.result.code = some .range && t.rd 0x000 0x4001 0 = 30 && (t.rd 0x000 0x0005 0).testBit 3) = true := by decide +kernel

/-! ### The hypotheses of the statements can be met -/

/-- The hypotheses of EmptyQueuePassesOneSlot can be met, clause by clause. -/
theorem witness_EmptyQueuePassesOneSlot :
    (∃ (s : State), s.pending = [] ∧ s.mainUp = true ∧ s.slot < 255)
    ∧ (∃ (s : State), s.pending = [] ∧ (s.mainUp = false ∨ 255 ≤ s.slot))
    ∧ (∃ (s : State), s.rd 0x003 0x5002 0 = 1)
    ∧ (∃ (s : State), s.rd 0x003 0x5002 0 = 0 ∧ s.slot = 0 ∧ s.regN .paceHeld = 0) :=
  ⟨⟨({ State.reset with slot := 254 }), by decide +kernel⟩,
   ⟨({ State.reset with slot := 255 }), by decide +kernel⟩,
   ⟨(State.reset.wr 0x003 0x5002 0 1), by decide +kernel⟩,
   ⟨(State.reset), by decide +kernel⟩⟩

/-- The hypotheses of ResetLeavesConfigure can be met, clause by clause. -/
theorem witness_ResetLeavesConfigure :
    (∃ (lane : Nat), lane < 16)
    ∧ (∃ (ch : Nat), ch < 64)
    ∧ (∃ (ch : Nat), ch < 64) :=
  ⟨⟨(15), by decide +kernel⟩,
   ⟨(63), by decide +kernel⟩,
   ⟨(63), by decide +kernel⟩⟩

/-- The hypotheses of CanonicalStoresStayCanonical can be met, clause by clause. -/
theorem witness_CanonicalStoresStayCanonical :
    (∃ (s : State) (t : State), s.canon = true ∧ step s = .next t) :=
  ⟨(State.reset), ({ State.reset with slot := 1, time := 5 * State.reset.increment, elapsed := 5 * State.reset.increment }), by decide +kernel, rfl⟩

/-- The hypotheses of NoCommandTouchesQueueOrBuild can be met, clause by clause. -/
theorem witness_NoCommandTouchesQueueOrBuild :
    (∃ (c : Instr) (s : State) (t : State), exec c s = .next t) :=
  ⟨(.idleExit), (State.reset), (State.reset), rfl⟩

/-- The hypotheses of SignalDetectMovesLane can be met, clause by clause. -/
theorem witness_SignalDetectMovesLane :
    (∃ (lane : Nat) (s : State), s.laneThere lane = true ∧ s.regN (.clockLost lane) = 0 ∧ s.link lane = 1)
    ∧ (∃ (lane : Nat) (s : State), s.laneThere lane = true ∧ s.rd (lnUnit lane) 0x4000 0 ≠ 1 ∧ 2 ≤ s.link lane ∧ s.link lane ≤ 4)
    ∧ (∃ (lane : Nat) (s : State), s.laneThere lane = true ∧ s.link lane ≤ 1)
    ∧ (∃ (lane : Nat) (s : State), s.laneThere lane = true ∧ s.rd (lnUnit lane) 0x4000 0 ≠ 1 ∧ s.link lane = 5)
    ∧ (∃ (lane : Nat) (s : State), s.laneThere lane = true ∧ s.rd (lnUnit lane) 0x4000 0 ≠ 1 ∧ s.link lane = 5)
    ∧ (∃ (lane : Nat) (ch : Nat) (s : State) (id : Nat) (f : Frame), s.laneThere lane = true ∧ s.rd (lnUnit lane) 0x4000 0 ≠ 1 ∧ s.link lane = 5 ∧ s.nbState lane = 0 ∧ ch ∈ s.laneChannels lane ∧ s.asm = [] ∧ s.rxNow = [(ch, id)] ∧ s.frame? id = some f ∧ f.ing = ch)
    ∧ (∃ (lane : Nat) (ch : Nat) (s : State) (c : Copy), s.laneThere lane = true ∧ s.rd (lnUnit lane) 0x4000 0 ≠ 1 ∧ s.link lane = 5 ∧ s.nbState lane = 0 ∧ ch ∈ s.laneChannels lane ∧ s.asm = [] ∧ s.rxNow = [] ∧ s.copies = [c] ∧ c.ep = ch ∧ c.state = .sending) :=
  ⟨⟨(15), (run.wr 0x10F 0x5000 0 1), by decide +kernel⟩,
   ⟨(0), (run.wr 0x100 0x5000 0 4), by decide +kernel⟩,
   ⟨(0), (run.wr 0x100 0x5000 0 1), by decide +kernel⟩,
   ⟨(0), ({ up with fifo := [⟨0, 64, 3⟩] }), by decide +kernel⟩,
   ⟨(0), ({ up with fifo := [⟨0, 64, 3⟩] }), by decide +kernel⟩,
   ⟨(0), (0), ({ with1 up { fr 1 0 (List.replicate 64 0) with account := some 0, cells := 1 } with rxNow := [(0, 1)] }), (1), ({ fr 1 0 (List.replicate 64 0) with account := some 0, cells := 1 }), by decide +kernel⟩,
   ⟨(0), (0), (copy1 up stored { cp 1 0 with state := .sending }), ({ cp 1 0 with state := .sending }), by decide +kernel⟩⟩

/-- The hypotheses of SyncAndAutonegMoveLane can be met, clause by clause. -/
theorem witness_SyncAndAutonegMoveLane :
    (∃ (lane : Nat) (s : State), s.laneThere lane = true ∧ s.link lane = 2 ∧ s.regN (.hiBer lane) = 0 ∧ s.rd (lnUnit lane) 0x1002 0 = 1)
    ∧ (∃ (lane : Nat) (s : State), s.laneThere lane = true ∧ s.link lane = 2 ∧ s.regN (.hiBer lane) = 0 ∧ s.rd (lnUnit lane) 0x1002 0 ≠ 1 ∧ s.rd (lnUnit lane) 0x1008 0 ≠ 0)
    ∧ (∃ (lane : Nat) (page : Nat) (s : State), s.laneThere lane = true ∧ s.link lane = 3 ∧ page.testBit 5 = true ∧ s.rd (lnUnit lane) 0x1008 0 ≠ 0)
    ∧ (∃ (lane : Nat) (page : Nat) (s : State), s.laneThere lane = true ∧ s.link lane = 3 ∧ page.testBit 5 = false)
    ∧ (∃ (lane : Nat) (s : State), s.laneThere lane = true ∧ (s.link lane = 3 ∨ s.link lane = 4))
    ∧ (∃ (lane : Nat) (s : State), s.laneThere lane = true ∧ s.link lane = 2 ∧ 3 ≤ s.pcsMode lane ∧ s.regN (.hiBer lane) = 0)
    ∧ (∃ (lane : Nat) (s : State), s.laneThere lane = true ∧ s.link lane = 2 ∧ s.regN (.hiBer lane) ≠ 0)
    ∧ (∃ (lane : Nat) (s : State), s.laneThere lane = true ∧ s.link lane = 2 ∧ s.regN (.hiBer lane) = 1 ∧ s.regN (.syncHeld lane) = 1 ∧ s.rd (lnUnit lane) 0x1002 0 = 1) :=
  ⟨⟨(0), ((run.wr 0x100 0x5000 0 2).wr 0x100 0x1002 0 1), by decide +kernel⟩,
   ⟨(0), ((run.wr 0x100 0x5000 0 2).wr 0x100 0x1008 0 10), by decide +kernel⟩,
   ⟨(0), (32), ((run.wr 0x100 0x5000 0 3).wr 0x100 0x1008 0 10), by decide +kernel⟩,
   ⟨(0), (31), (run.wr 0x100 0x5000 0 3), by decide +kernel⟩,
   ⟨(0), ((run.wr 0x100 0x5000 0 4).startTimer (.upHold 0) 5), by decide +kernel⟩,
   ⟨(0), ((run.wr 0x100 0x5000 0 2).wr 0x100 0x1000 0 3), by decide +kernel⟩,
   ⟨(0), ((run.wr 0x100 0x5000 0 2).setReg (.hiBer 0) 1), by decide +kernel⟩,
   ⟨(0), ((((run.wr 0x100 0x5000 0 2).setReg (.hiBer 0) 1).setReg (.syncHeld 0) 1).wr 0x100 0x1002 0 1), by decide +kernel⟩⟩

/-- The hypotheses of LaneTimersAndClockAct can be met, clause by clause. -/
theorem witness_LaneTimersAndClockAct :
    (∃ (lane : Nat) (s : State), s.mainUp = true ∧ (s.timer (.syncTimeout lane)).isSome ∧ s.link lane ≠ 3)
    ∧ (∃ (lane : Nat) (s : State), s.mainUp = true ∧ (s.timer (.syncTimeout lane)).isSome ∧ s.link lane = 3)
    ∧ (∃ (lane : Nat) (s : State), s.mainUp = true ∧ (s.timer (.upHold lane)).isSome ∧ s.link lane = 4)
    ∧ (∃ (lane : Nat) (s : State), s.laneThere lane = true ∧ s.pcsMode lane ≠ 0 ∧ s.regN (.clockLost lane) = 0 ∧ s.link lane ≤ 4)
    ∧ (∃ (lane : Nat) (tx : Bool) (s : State), s.laneThere lane = true ∧ s.regN (.clockLost lane) = (if tx then 2 else 1) ∧ s.rd (lnUnit lane) 0x5002 0 = 0 ∧ s.rd (lnUnit lane) 0x4000 0 ≠ 1)
    ∧ (∃ (lane : Nat) (s : State), s.laneThere lane = true ∧ s.regN (.clockLost lane) = 3)
    ∧ (∃ (lane : Nat) (s : State), s.laneThere lane = true ∧ s.regN (.syncHeld lane) = 0)
    ∧ (∃ (lane : Nat) (s : State), s.mainUp = true ∧ (s.timer (.led lane)).isSome)
    ∧ (∃ (pin : Nat) (k : Nat) (s : State), s.snowdropUp = true ∧ k < 16 ∧ (s.rd 0x000 0x1010 k).testBit 31 = true ∧ field (s.rd 0x000 0x1010 k) 28 3 = pin ∧ ((∀ j < k, (s.rd 0x000 0x1010 j).testBit 31 = false ∨ field (s.rd 0x000 0x1010 j) 28 3 ≠ pin)))
    ∧ (∃ (lane : Nat) (s : State), s.mode ≤ 2 ∧ lane < 16) :=
  ⟨⟨(0), (run.startTimer (.syncTimeout 0) 0), by decide +kernel⟩,
   ⟨(0), ((run.wr 0x100 0x5000 0 3).startTimer (.syncTimeout 0) 0), by decide +kernel⟩,
   ⟨(0), ((up.wr 0x100 0x5000 0 4).startTimer (.upHold 0) 0), by decide +kernel⟩,
   ⟨(0), ((run.wr 0x100 0x1000 0 3).wr 0x100 0x5000 0 4), by decide +kernel⟩,
   ⟨(0), (false), (run.setReg (.clockLost 0) 1), by decide +kernel⟩,
   ⟨(0), (run.setReg (.clockLost 0) 3), by decide +kernel⟩,
   ⟨(0), (run.setReg (.hiBer 0) 1), by decide +kernel⟩,
   ⟨(0), ((run.startTimer (.led 0) 0).setReg (.ledActive 0) 1), by decide +kernel⟩,
   ⟨(3), (1), (run.wr 0x000 0x1010 1 (2 ^ 31 + 3 * 2 ^ 28 + 4 * 2 ^ 24)), by decide +kernel⟩,
   ⟨(15), (run), by decide +kernel⟩⟩

/-- The hypotheses of PauseFramesSetHolds can be met, clause by clause. -/
theorem witness_PauseFramesSetHolds :
    (∃ (ch : Nat) (l : List Octet) (s : State), s.mainUp = true ∧ s.isChannel ch = true ∧ s.wellFormedPause ch l = true ∧ s.rd (chUnit ch) 0x1030 0 = 1 ∧ s.rd (chUnit ch) 0x5032 0 ≠ 1 ∧ be16 l 16 ≠ 0)
    ∧ (∃ (ch : Nat) (l : List Octet) (s : State), s.mainUp = true ∧ s.isChannel ch = true ∧ s.wellFormedPause ch l = true ∧ s.rd (chUnit ch) 0x1030 0 = 1 ∧ s.rd (chUnit ch) 0x5032 0 ≠ 1 ∧ be16 l 16 = 0 ∧ s.holdOf ch 0 = 0)
    ∧ (∃ (ch : Nat) (l : List Octet) (s : State), s.mainUp = true ∧ s.isChannel ch = true ∧ s.rd (chUnit ch) 0x5032 0 ≠ 1 ∧ s.wellFormedPause ch l = false)
    ∧ (∃ (ch : Nat) (l : List Octet) (s : State), s.mainUp = true ∧ s.isChannel ch = true ∧ s.rd (chUnit ch) 0x5032 0 ≠ 1 ∧ s.wellFormedPause ch l = true ∧ s.rd (chUnit ch) 0x1030 0 = 0)
    ∧ (∃ (ch : Nat) (l : List Octet) (s : State), s.mainUp = true ∧ s.isChannel ch = true ∧ s.rd (chUnit ch) 0x5032 0 ≠ 1 ∧ s.wellFormedPause ch l = true ∧ s.rd (chUnit ch) 0x1030 0 = 2)
    ∧ (∃ (ch : Nat) (l : List Octet) (s : State), s.mainUp = true ∧ s.isChannel ch = true ∧ s.rd (chUnit ch) 0x5032 0 ≠ 1 ∧ s.wellFormedPause ch l = true ∧ s.rd (chUnit ch) 0x1030 0 = 1)
    ∧ (∃ (ch : Nat) (s : State), s.mainUp = true ∧ s.isChannel ch = true ∧ s.build.hasWatchdog = true ∧ s.rd (chUnit ch) 0x5032 0 = 1)
    ∧ (∃ (ch : Nat) (l : List Octet) (s : State), s.mainUp = true ∧ s.isChannel ch = true ∧ s.wellFormedPause ch l = true ∧ s.rd (chUnit ch) 0x1030 0 = 2 ∧ s.rd (chUnit ch) 0x5032 0 ≠ 1 ∧ ((∃ p, p < 8 ∧ (octet l 17).testBit p = true)) ∧ ((∀ p, p < 8 → (octet l 17).testBit p = true → be16 l (18 + 2 * p) ≠ 0)))
    ∧ (∃ (ch : Nat) (s : State), s.mainUp = true ∧ s.isChannel ch = true) :=
  ⟨⟨(0), (pauseOctets 1 100), (up.wr 0x200 0x1030 0 1), by decide +kernel⟩,
   ⟨(0), (pauseOctets 1 0), (up.wr 0x200 0x1030 0 1), by decide +kernel⟩,
   ⟨(0), ([]), (up.wr 0x200 0x1030 0 1), by decide +kernel⟩,
   ⟨(0), (pauseOctets 1 5), (up.wr 0x200 0x1030 0 0), by decide +kernel⟩,
   ⟨(0), (pauseOctets 1 5), (up.wr 0x200 0x1030 0 2), by decide +kernel⟩,
   ⟨(0), (pauseOctets 0x0101 0x0081), (up.wr 0x200 0x1030 0 1), by decide +kernel⟩,
   ⟨(0), ((up.wr 0x200 0x1030 0 1).wr 0x200 0x5032 0 1), by decide +kernel⟩,
   ⟨(0), (patch (pauseOctets 0x0101 0x0081) 18 (toMsb 2 7 ++ List.replicate 12 0 ++ toMsb 2 9)), (up.wr 0x200 0x1030 0 2), by decide +kernel⟩,
   ⟨(0), (up), by decide +kernel⟩⟩

/-- The hypotheses of HoldsEndAndBreak can be met, clause by clause. -/
theorem witness_HoldsEndAndBreak :
    (∃ (ch : Nat) (hold : Nat) (s : State), s.mainUp = true ∧ 0 < s.holdOf ch hold)
    ∧ (∃ (ch : Nat) (s : State), s.mainUp = true ∧ s.wdArmed ch = true)
    ∧ (∃ (ch : Nat) (s : State), s.mainUp = true ∧ s.build.hasWatchdog = true ∧ s.rd (chUnit ch) 0x5032 0 = 1) :=
  ⟨⟨(0), (0), ({ up with holds := [((0, 0), 5)] }), by decide +kernel⟩,
   ⟨(0), ({ up.wr 0x200 0x1035 0 1 with holds := [((0, 8), 5)] }), by decide +kernel⟩,
   ⟨(0), (up.wr 0x200 0x5032 0 1), by decide +kernel⟩⟩

/-- The hypotheses of GeneratedPausesFollowXoff can be met, clause by clause. -/
theorem witness_GeneratedPausesFollowXoff :
    (∃ (ch : Nat) (s : State), s.mainUp = true ∧ s.running = true ∧ s.asked 5 = false ∧ s.isChannel ch = true ∧ s.chUp ch = true ∧ s.genQ = [.pause ch] ∧ s.rd (chUnit ch) 0x1010 0 = 1 ∧ s.inXoff ch 0 = true ∧ s.reg (.pauseDue ch 0) = 1 ∧ s.rd (chUnit ch) 0x1012 0 ≠ 0 ∧ s.copies = [] ∧ s.quartered ch = false ∧ s.quiet ch 1 = false ∧ s.fabricRole ch = false)
    ∧ (∃ (ch : Nat) (acct : Nat) (s : State), s.mainUp = true ∧ (s.timer (.refresh ch acct)).isSome ∧ s.inXoff ch acct = true ∧ s.chUp ch = true ∧ GenFrame.pause ch ∉ s.genQ)
    ∧ (∃ (ch : Nat) (acct : Nat) (s : State), s.mainUp = true ∧ (s.timer (.refresh ch acct)).isSome ∧ s.inXoff ch acct = false)
    ∧ (∃ (ch : Nat) (acct : Nat) (s : State), s.mainUp = true ∧ s.isChannel ch = true ∧ s.pauseActive ch acct = true) :=
  ⟨⟨(0), ({ (((up.wr 0x200 0x1010 0 1).wr 0x200 0x5012 0 256).setReg (.pauseDue 0 0) 1).wr 0x200 0x1012 0 100 with genQ := [.pause 0] }), by decide +kernel⟩,
   ⟨(0), (8), ((up.wr 0x200 0x5012 0 128).startTimer (.refresh 0 8) 0), by decide +kernel⟩,
   ⟨(0), (0), (up.startTimer (.refresh 0 0) 0), by decide +kernel⟩,
   ⟨(0), (0), ((up.wr 0x200 0x5013 0 256).startTimer (.pauseActive 0 0) 0), by decide +kernel⟩⟩

/-- The hypotheses of PreemptVerifyRuns can be met, clause by clause. -/
theorem witness_PreemptVerifyRuns :
    (∃ (ch : Nat) (s : State), s.mainUp = true ∧ s.mergeOn ch = true ∧ s.mayPacket ch = true ∧ s.quartered ch = false)
    ∧ (∃ (ch : Nat) (s : State), s.mainUp = true ∧ s.mergeOn ch = true ∧ s.mayPacket ch = true ∧ s.quartered ch = true)
    ∧ (∃ (ch : Nat) (s : State), s.mainUp = true ∧ s.chUp ch = true ∧ s.mergeOn ch = true ∧ s.mayPacket ch = false)
    ∧ (∃ (ch : Nat) (s : State), s.mainUp = true ∧ s.chUp ch = true ∧ s.mergeOn ch = true ∧ s.rd (chUnit ch) 0x5030 0 = 1)
    ∧ (∃ (ch : Nat) (s : State), s.mainUp = true ∧ (s.timer (.verify ch)).isSome ∧ s.rd (chUnit ch) 0x5030 0 = 1 ∧ s.regN (.verifyCount ch) < 3 ∧ s.mayPacket ch = true)
    ∧ (∃ (ch : Nat) (s : State), s.mainUp = true ∧ (s.timer (.verify ch)).isSome ∧ s.rd (chUnit ch) 0x5030 0 = 1 ∧ 3 ≤ s.regN (.verifyCount ch))
    ∧ (∃ (ch : Nat) (s : State), s.mainUp = true ∧ (s.timer (.verify ch)).isSome ∧ s.rd (chUnit ch) 0x5030 0 ≠ 1) :=
  ⟨⟨(0), (up.wr 0x200 0x1031 0 1), by decide +kernel⟩,
   ⟨(0), ((up.wr 0x100 0x1000 0 6).wr 0x200 0x1031 0 1), by decide +kernel⟩,
   ⟨(0), ({ up.wr 0x200 0x1031 0 1 with copies := [{ cp 1 0 with state := .sending }] }), by decide +kernel⟩,
   ⟨(0), ((up.wr 0x200 0x1031 0 1).wr 0x200 0x5030 0 1), by decide +kernel⟩,
   ⟨(0), ((((up.wr 0x200 0x1031 0 1).wr 0x200 0x5030 0 1).startTimer (.verify 0) 0).setReg (.verifyCount 0) 2), by decide +kernel⟩,
   ⟨(0), ((((up.wr 0x200 0x1031 0 1).wr 0x200 0x5030 0 1).startTimer (.verify 0) 0).setReg (.verifyCount 0) 3), by decide +kernel⟩,
   ⟨(0), ((up.wr 0x200 0x1031 0 1).startTimer (.verify 0) 0), by decide +kernel⟩⟩

/-- The hypotheses of FrameStartsOnChannel can be met, clause by clause. -/
theorem witness_FrameStartsOnChannel :
    (∃ (ch : Nat) (start : StartInput) (s : State), s.mainUp = true ∧ s.isChannel ch = true ∧ s.rxOpen (laneOf ch) = true ∧ s.mode ≠ 2 ∧ s.quartered ch = false ∧ s.chEnabled ch = true ∧ s.unitKind ch start.octets = .whole ∧ s.asked 4 = false ∧ s.rxNow.find? ch = none ∧ (start.replErrs = 0 ∨ s.rd (lnUnit (laneOf ch)) 0x1004 0 = 0))
    ∧ (∃ (ch : Nat) (start : StartInput) (s : State), s.mainUp = true ∧ s.isChannel ch = true ∧ s.rxOpen (laneOf ch) = true ∧ s.mode ≠ 2 ∧ s.quartered ch = false ∧ s.chEnabled ch = true ∧ s.unitKind ch start.octets = .whole ∧ s.asked 4 = false ∧ s.rxNow.find? ch = none ∧ 0 < start.replErrs ∧ s.rd (lnUnit (laneOf ch)) 0x1004 0 ≠ 0 ∧ s.frame? (s.regN .nextFrame) = none)
    ∧ (∃ (ch : Nat) (start : StartInput) (s : State), s.mainUp = true ∧ s.isChannel ch = true ∧ s.rxOpen (laneOf ch) = true ∧ s.mode ≠ 2 ∧ s.quartered ch = false ∧ s.chEnabled ch = true ∧ s.unitKind ch start.octets = .bad)
    ∧ (∃ (ch : Nat) (start : StartInput) (s : State), s.mainUp = true ∧ s.isChannel ch = true ∧ s.rxOpen (laneOf ch) = true ∧ s.mode ≠ 2 ∧ s.quartered ch = true ∧ s.quarterCheck (laneOf ch) start.octets = .bad) :=
  ⟨⟨(0), (⟨start8 0xD5, 0⟩), (up), by decide +kernel⟩,
   ⟨(0), (⟨start8 0xD5, 3⟩), (up.wr 0x100 0x1004 0 1), by decide +kernel⟩,
   ⟨(0), (⟨start8 0xD4, 0⟩), (up), by decide +kernel⟩,
   ⟨(0), (⟨start8 0xD5, 0⟩), (up.wr 0x100 0x1000 0 6), by decide +kernel⟩⟩

/-- The hypotheses of CellJoinsItsFrame can be met, clause by clause. -/
theorem witness_CellJoinsItsFrame :
    (∃ (ch : Nat) (id : Nat) (cell : CellInput) (f : Frame) (s : State), s.mainUp = true ∧ s.isChannel ch = true ∧ s.rxNow.find? ch = some id ∧ s.frame? id = some f ∧ f.ing = ch ∧ f.octets ≠ [] ∧ f.onFabric = false ∧ (s.giveRoom ch cell.octets.length 0).1 = true ∧ s.cellFailure f cell true = none ∧ s.hostSending id = [] ∧ ((∀ k, f.account = some k → cellsFor (f.octets ++ cell.octets).length false = cellsFor f.octets.length false ∨ s.occupancy ch k + (cellsFor (f.octets ++ cell.octets).length false - cellsFor f.octets.length false) ≤ s.limitOf ch k))) :=
  ⟨(0), (1), (⟨whole, true, none, 0, 0, []⟩), ({ fr 1 0 (List.replicate 64 0) with account := some 0, cells := 1 }), ({ with1 (up.wr 0x200 0x1014 0 2) { fr 1 0 (List.replicate 64 0) with account := some 0, cells := 1 } with rxNow := [(0, 1)] }), by decide +kernel⟩

/-- The hypotheses of DecisionsAreMadeAndDelivered can be met, clause by clause. -/
theorem witness_DecisionsAreMadeAndDelivered :
    (∃ (id : Nat) (rest : List Nat) (f : Frame) (k : Key) (s : State), s.mainUp = true ∧ s.slotTaken = false ∧ s.keyQ = id :: rest ∧ s.frame? id = some f ∧ f.key = some k)
    ∧ (∃ (s : State), s.mainUp = true ∧ s.slotTaken = true)
    ∧ (∃ (id : Nat) (rest : List Nat) (f : Frame) (d : Decision) (s : State), s.mainUp = true ∧ s.decQ = id :: rest ∧ s.frame? id = some f ∧ f.decision = some d ∧ d.eccDrop = false ∧ d.colourAct ≠ 2 ∧ s.rd 0x009 0x1000 0 ≠ 1 ∧ d.rings = [] ∧ ((∀ x ∈ d.targets, s.queueFor d x.ep = .base x.ep d.cls)))
    ∧ (∃ (id : Nat) (rest : List Nat) (f : Frame) (d : Decision) (s : State), s.mainUp = true ∧ s.decQ = id :: rest ∧ s.frame? id = some f ∧ f.decision = some d ∧ (d.eccDrop = true ∨ d.colourAct = 2))
    ∧ (∃ (k : Key) (s : State) (i : Nat), s.canon = true ∧ s.legend k = some i)
    ∧ (∃ (k : Key) (s : State), s.canon = true ∧ s.legend k = none)
    ∧ (∃ (k : Key) (s : State) (i : Nat) (tie : Bool), s.canon = true ∧ s.contour k = some (i, tie))
    ∧ (∃ (k : Key) (s : State) (i : Nat) (tie : Bool) (j : Nat), s.canon = true ∧ s.contour k = some (i, tie) ∧ s.contourHit k j)
    ∧ (∃ (k : Key) (s : State) (i : Nat) (tie : Bool) (j : Nat), s.canon = true ∧ s.contour k = some (i, tie) ∧ s.contourHit k j ∧ s.contourPrio j = s.contourPrio i)
    ∧ (∃ (k : Key) (s : State) (i : Nat) (tie : Bool), s.canon = true ∧ s.contour k = some (i, tie))
    ∧ (∃ (k : Key) (s : State), s.canon = true ∧ s.contour k = none)
    ∧ (∃ (id : Nat) (rest : List Nat) (f : Frame) (k0 : Key) (k : Key) (s : State) (i : Nat), s.mainUp = true ∧ s.slotTaken = false ∧ s.keyQ = id :: rest ∧ s.frame? id = some f ∧ f.key = some k0 ∧ s.isTransit f = false ∧ k = s.keyNow f k0 ∧ s.legend k = some i ∧ ((actDefer (s.ent 0x006 0x6002 i) = false ∨ s.contour k = none)))
    ∧ (∃ (id : Nat) (rest : List Nat) (f : Frame) (k0 : Key) (k : Key) (s : State) (j : Nat) (tie : Bool), s.mainUp = true ∧ s.slotTaken = false ∧ s.keyQ = id :: rest ∧ s.frame? id = some f ∧ f.key = some k0 ∧ s.isTransit f = false ∧ k = s.keyNow f k0 ∧ s.contour k = some (j, tie) ∧ ((s.legend k = none ∨ ∃ i, s.legend k = some i ∧ actDefer (s.ent 0x006 0x6002 i) = true)))
    ∧ (∃ (id : Nat) (rest : List Nat) (f : Frame) (k0 : Key) (k : Key) (s : State), s.mainUp = true ∧ s.slotTaken = false ∧ s.keyQ = id :: rest ∧ s.frame? id = some f ∧ f.key = some k0 ∧ s.isTransit f = false ∧ k = s.keyNow f k0 ∧ s.legend k = none ∧ s.contour k = none) :=
  ⟨⟨(1), ([7]), ({ fr 1 0 whole with key := some ⟨0, 0, false, 0, 0, 0, none⟩ }), (⟨0, 0, false, 0, 0, 0, none⟩), ({ with1 up { fr 1 0 whole with key := some ⟨0, 0, false, 0, 0, 0, none⟩ } with keyQ := [1, 7] }), by decide +kernel⟩,
   ⟨(up.setReg .slotUsed 1), by decide +kernel⟩,
   ⟨(1), ([]), ({ stored with decision := some (dec [⟨0, none, false⟩]) }), (dec [⟨0, none, false⟩]), ({ with1 up { stored with decision := some (dec [⟨0, none, false⟩]) } with decQ := [1] }), by decide +kernel⟩,
   ⟨(1), ([]), ({ stored with decision := some { dec [] with eccDrop := true } }), ({ dec [] with eccDrop := true }), ({ with1 up { stored with decision := some { dec [] with eccDrop := true } } with decQ := [1] }), by decide +kernel⟩,
   ⟨(blankKey), (legended 0), (3), by decide +kernel⟩,
   ⟨(blankKey), (up), by decide +kernel⟩,
   ⟨(blankKey), (contoured up), (2), (true), by decide +kernel⟩,
   ⟨(blankKey), (contoured up), (2), (true), (5), by decide +kernel, by decide +kernel, contoured_hit⟩,
   ⟨(blankKey), (contoured up), (2), (true), (5), by decide +kernel, by decide +kernel, contoured_hit, by decide +kernel⟩,
   ⟨(blankKey), (contoured up), (2), (true), by decide +kernel⟩,
   ⟨(blankKey), (up), by decide +kernel⟩,
   ⟨(1), ([]), ({ stored with key := some blankKey }), (blankKey), (up.keyNow { stored with key := some blankKey } blankKey), (keyed (legended (2 ^ 61))), (3), by decide +kernel⟩,
   ⟨(1), ([]), ({ stored with key := some blankKey }), (blankKey), (up.keyNow { stored with key := some blankKey } blankKey), (keyed (contoured (legended (2 ^ 52)))), (2), (true), by decide +kernel⟩,
   ⟨(1), ([]), ({ stored with key := some blankKey }), (blankKey), (up.keyNow { stored with key := some blankKey } blankKey), (keyed up), by decide +kernel⟩⟩

/-- The hypotheses of FramesCommitOrAreUndone can be met, clause by clause. -/
theorem witness_FramesCommitOrAreUndone :
    (∃ (ep : Nat) (f : Frame) (s : State), s.mainUp = true ∧ s.mode = 1 ∧ s.isChannel ep = true ∧ s.atEnd ep = some f ∧ s.frame? f.id = some f ∧ endFailure f = none ∧ f.onFabric = false ∧ s.accessNow f = decide (f.use = .access) ∧ s.hostSending f.id = [])
    ∧ (∃ (ep : Nat) (f : Frame) (s : State), s.mainUp = true ∧ s.isChannel ep = true ∧ s.atEnd ep = some f ∧ s.frame? f.id = some f ∧ endFailure f = some .fcs)
    ∧ (∃ (id : Nat) (rest : List Nat) (f : Frame) (s : State), s.mainUp = true ∧ s.appQ = id :: rest ∧ id ∉ s.keyQ ∧ id ∉ s.decQ ∧ s.frame? id = some f ∧ f.desc = none ∧ f.use = .data ∧ f.owed = [] ∧ s.isChannel f.ing = true ∧ f.fold = 0 ∧ ((∀ d, f.decision = some d → d.decider = .transit ∧ d.tailDrops = [] ∧ d.colourAct ≠ 2)) ∧ s.hostSending id = [] ∧ s.copiesOf id = [])
    ∧ (∃ (id : Nat) (rest : List Nat) (f : Frame) (s : State), s.mainUp = true ∧ s.appQ = id :: rest ∧ id ∉ s.keyQ ∧ id ∉ s.decQ ∧ s.frame? id = some f ∧ f.desc = none ∧ f.use = .data ∧ f.owed = [] ∧ s.isChannel f.ing = true ∧ f.fold = 0 ∧ ((∀ d, f.decision = some d → d.decider = .transit ∧ d.tailDrops = [] ∧ d.colourAct ≠ 2)) ∧ s.hostSending id = [] ∧ ((∃ c ∈ s.copiesOf id, c.state ≠ .held))) :=
  ⟨⟨(0), ({ fr 1 0 whole with ended := true, cells := 1 }), (with1 up { fr 1 0 whole with ended := true, cells := 1 }), by decide +kernel⟩,
   ⟨(0), ({ fr 1 0 (List.replicate 64 0) with ended := true, cells := 1 }), (with1 up { fr 1 0 (List.replicate 64 0) with ended := true, cells := 1 }), by decide +kernel⟩,
   ⟨(1), ([]), (stored), ({ with1 up stored with appQ := [1] }), by decide +kernel⟩,
   ⟨(1), ([3]), (stored), ({ copy1 up stored (cp 1 0) with appQ := [1, 3] }), by decide +kernel⟩⟩

/-- The hypotheses of FragmentsOpenAndLoseContexts can be met, clause by clause. -/
theorem witness_FragmentsOpenAndLoseContexts :
    (∃ (ch : Nat) (n : Nat) (start : List Octet) (x : FragInput) (s : State), s.mainUp = true ∧ s.isChannel ch = true ∧ s.rxOpen (laneOf ch) = true ∧ s.fabricRole ch = false ∧ s.quartered ch = false ∧ s.chEnabled ch = true ∧ s.mergeOn ch = true ∧ s.asked 4 = false ∧ smdCountOf (octet start 7) = some n ∧ ((∀ c ∈ s.asm, c.ch ≠ ch)) ∧ fragTail x = toLsb 4 (crc crc32 (fragBody x) ^^^ 0x0000FFFF))
    ∧ (∃ (ch : Nat) (start : List Octet) (x : FragInput) (s : State), s.mainUp = true ∧ s.isChannel ch = true ∧ s.rxOpen (laneOf ch) = true ∧ s.chEnabled ch = true ∧ s.fabricRole ch = true ∧ s.asked 4 = false ∧ octet start 7 / 16 = 3 ∧ octet start 7 / 4 % 4 < 2 ∧ octet start 6 % 16 = checkNibble (octet start 7 % 16) ∧ ((∀ c ∈ s.asm, c.ch ≠ ch)) ∧ fragTail x = toLsb 4 (crc crc32 (fragBody x) ^^^ s.fragMask ch (octet start 7 / 4 % 4)))
    ∧ (∃ (ch : Nat) (level : Nat) (s : State), s.mainUp = true ∧ s.isChannel ch = true ∧ s.fabricRole ch = true ∧ ((∃ c ∈ s.asm, c.ch = ch ∧ c.level = level ∧ 12800 ≤ c.wait))) :=
  ⟨⟨(0), (3), (start8 0xB3), (⟨mcrc 0x0000FFFF, none, 0, 0⟩), (up.wr 0x200 0x1031 0 1), by decide +kernel⟩,
   ⟨(0), (List.replicate 6 0x55 ++ [BitVec.ofNat 8 (checkNibble 4)] ++ [0x34]), (⟨mcrc (fab.fragMask 0 1), none, 0, 0⟩), (fab), by decide +kernel⟩,
   ⟨(0), (1), ({ fab with asm := [⟨0, 1, 0, 0, 0, whole, none, 12800⟩] }), by decide +kernel⟩⟩

/-- The hypotheses of FoldFramesInstallAndUnfold can be met, clause by clause. -/
theorem witness_FoldFramesInstallAndUnfold :
    (∃ (ch : Nat) (frame : List Octet) (s : State), s.mainUp = true ∧ s.running = true ∧ s.chUp ch = true ∧ s.fabricRole ch = true ∧ fabType frame = 3 ∧ fabDst frame = 0 ∧ 14 ≤ octet frame 13 ∧ octet frame 13 ≤ 64)
    ∧ (∃ (ch : Nat) (frame : List Octet) (sl : FoldSlot) (s : State), s.mainUp = true ∧ s.running = true ∧ s.fabricLink ch = true ∧ (s.fabFate frame = .ownFold ∨ s.fabFate frame = .transitFold) ∧ s.foldSlot ch (fabRef frame) false = some sl ∧ sl.header ≠ [] ∧ sl.gen = octet ((frame.drop 12).take (frame.length - 16)) 0 ∧ s.rd (chUnit ch) 0x1010 0 = 0 ∧ 12 ≤ frame.length ∧ s.occupancy ch 0 + ceilDiv ((unfold sl ((frame.drop 12).take (frame.length - 16))).length + 4) 64 ≤ s.rd (chUnit ch) 0x1014 0)
    ∧ (∃ (ch : Nat) (frame : List Octet) (ecc : Bool) (s : State), s.mainUp = true ∧ s.running = true ∧ s.fabricLink ch = true ∧ (s.fabFate frame = .ownFold ∨ s.fabFate frame = .transitFold) ∧ (ecc = true ∨ s.foldSlot ch (fabRef frame) false = none))
    ∧ (∃ (ch : Nat) (frame : List Octet) (sl : FoldSlot) (s : State), s.mainUp = true ∧ s.running = true ∧ s.fabricLink ch = true ∧ (s.fabFate frame = .ownFold ∨ s.fabFate frame = .transitFold) ∧ s.foldSlot ch (fabRef frame) false = some sl ∧ (sl.header = [] ∨ sl.gen ≠ octet ((frame.drop 12).take (frame.length - 16)) 0))
    ∧ (∃ (ch : Nat) (frame : List Octet) (s : State), s.mainUp = true ∧ s.running = true ∧ s.chUp ch = true ∧ s.fabricRole ch = true ∧ fabType frame = 4 ∧ fabDst frame = 0 ∧ ((∀ c ∈ s.copies, c.ep = ch → c.fseq ≠ some (octet frame 13))))
    ∧ (∃ (ch : Nat) (frame : List Octet) (c : Copy) (s : State), s.mainUp = true ∧ s.running = true ∧ s.chUp ch = true ∧ s.fabricRole ch = true ∧ fabType frame = 4 ∧ fabDst frame = 0 ∧ s.copies.find? (fun c => c.ep = ch && c.state = .held && c.fseq = some (octet frame 13)) = some c)
    ∧ (∃ (ch : Nat) (q : Nat) (c : Copy) (f : Frame) (s : State), s.mainUp = true ∧ (s.timer (.foldHold ch q)).isSome ∧ s.copies.find? (fun c => c.ep = ch && c.state = .held && c.fseq = some q) = some c ∧ s.frame? c.frame = some f ∧ f.desc = none) :=
  ⟨⟨(0), (fabFrame 3 0 [0, 64]), (fab), by decide +kernel⟩,
   ⟨(0), (fabFrame 1 1 [0, 0, 1, 2, 3, 4, 5, 6]), (slot0), ({ (fab.wr 0x00D 0x5002 0 1).wr 0x200 0x1014 0 2 with folds := [slot0] }), by decide +kernel⟩,
   ⟨(0), (fabFrame 1 1 [0, 0]), (false), (fab.wr 0x00D 0x5002 0 1), by decide +kernel⟩,
   ⟨(0), (fabFrame 1 1 [0, 0]), ({ slot0 with gen := 1 }), ({ fab.wr 0x00D 0x5002 0 1 with folds := [{ slot0 with gen := 1 }] }), by decide +kernel⟩,
   ⟨(0), (fabFrame 4 0 [0, 5]), (fab), by decide +kernel⟩,
   ⟨(0), (fabFrame 4 0 [0, 5]), ({ cp 1 0 with state := .held, fseq := some 5 }), (copy1 fab stored { cp 1 0 with state := .held, fseq := some 5 }), by decide +kernel⟩,
   ⟨(0), (5), ({ cp 1 0 with state := .held, fseq := some 5 }), (stored), ((copy1 fab stored { cp 1 0 with state := .held, fseq := some 5 }).startTimer (.foldHold 0 5) 0), by decide +kernel⟩⟩

/-- The hypotheses of CopiesAreChosenAndStart can be met, clause by clause. -/
theorem witness_CopiesAreChosenAndStart :
    (∃ (ep : Nat) (level : Nat) (lead : Nat) (c : Copy) (s : State), s.mainUp = true ∧ s.running = true ∧ s.asked 3 = false ∧ (s.isChannel ep = true ∨ isAir ep = true) ∧ s.chosen ep level = none ∧ s.sending ep = none ∧ (s.candidates ep level lead).find? s.oversize = none ∧ s.best (s.candidates ep level lead) = some c ∧ s.expired c = false)
    ∧ (∃ (ep : Nat) (level : Nat) (c : Copy) (f : Frame) (s : State), s.mainUp = true ∧ s.running = true ∧ s.asked 3 = false ∧ isAir ep = false ∧ s.chosen ep level = some c ∧ s.frame? c.frame = some f ∧ s.mayStart ep level c = true ∧ s.chUp ep = true)
    ∧ (∃ (ep : Nat) (level : Nat) (c : Copy) (f : Frame) (s : State), s.mainUp = true ∧ s.running = true ∧ s.asked 3 = false ∧ isAir ep = true ∧ s.asked 2 = false ∧ s.chosen ep level = some c ∧ s.frame? c.frame = some f ∧ s.airFifo ep < 8192 ∧ s.gateOpen ep c.cls s.time = true) :=
  ⟨⟨(0), (0), (0), (cp 1 0), (copy1 up stored (cp 1 0)), by decide +kernel⟩,
   ⟨(0), (0), ({ cp 1 0 with state := .chosen }), (stored), (copy1 up stored { cp 1 0 with state := .chosen }), by decide +kernel⟩,
   ⟨(0x40), (0), ({ cp 1 0x40 with state := .chosen }), (stored), (copy1 (up.wr 0x300 0x1000 0 1) stored { cp 1 0x40 with state := .chosen }), by decide +kernel⟩⟩

/-- The hypotheses of CopiesEndOnTheWire can be met, clause by clause. -/
theorem witness_CopiesEndOnTheWire :
    (∃ (ep : Nat) (c : Copy) (f : Frame) (s : State), s.mainUp = true ∧ s.isChannel ep = true ∧ s.sending ep = some c ∧ s.frame? c.frame = some f ∧ f.committed = true ∧ f.desc = none ∧ ((∀ smd, GenFrame.mPacket ep smd ∉ s.genQ)) ∧ c.ending = .full ∧ c.txTime = none)
    ∧ (∃ (ep : Nat) (c : Copy) (f : Frame) (s : State), s.mainUp = true ∧ s.isChannel ep = true ∧ s.sending ep = some c ∧ s.frame? c.frame = some f ∧ f.committed = true ∧ f.desc = none ∧ ((∀ smd, GenFrame.mPacket ep smd ∉ s.genQ)) ∧ c.ending = .stomped)
    ∧ (∃ (al : Nat) (c : Copy) (f : Frame) (s : State), s.mainUp = true ∧ al < 3 ∧ s.rd (alUnit al) 0x1000 0 = 1 ∧ s.sending (0x40 + al) = some c ∧ s.frame? c.frame = some f ∧ f.desc = none) :=
  ⟨⟨(0), ({ cp 1 0 with state := .sending }), (stored), (copy1 up stored { cp 1 0 with state := .sending }), by and_intros <;> first | decide +kernel | exact fun _ => List.not_mem_nil⟩,
   ⟨(0), ({ cp 1 0 with state := .sending, ending := .stomped }), (stored), (copy1 up stored { cp 1 0 with state := .sending, ending := .stomped }), by and_intros <;> first | decide +kernel | exact fun _ => List.not_mem_nil⟩,
   ⟨(2), ({ cp 1 0x42 with state := .sending }), (stored), (copy1 (up.wr 0x302 0x1000 0 1) stored { cp 1 0x42 with state := .sending }), by decide +kernel⟩⟩

/-- The hypotheses of AirLinksReceiveAndPark can be met, clause by clause. -/
theorem witness_AirLinksReceiveAndPark :
    (∃ (al : Nat) (octets : List Octet) (s : State), s.mode ≠ 2 ∧ s.asked 2 = false ∧ s.airOpen al octets.length = true ∧ 14 ≤ octets.length ∧ octets.length ≤ 16348)
    ∧ (∃ (al : Nat) (octets : List Octet) (s : State), s.mode ≠ 2 ∧ s.asked 2 = false ∧ s.airOpen al octets.length = true)
    ∧ (∃ (al : Nat) (n : Nat) (octets : List Octet) (s : State), s.mode ≠ 2 ∧ s.asked 2 = false ∧ s.airOpen al octets.length = true ∧ (n ≠ octets.length ∨ n < 14 ∨ 16348 < n))
    ∧ (∃ (al : Nat) (v : Nat) (s : State), s.mainUp = true ∧ al < 3 ∧ v < 4)
    ∧ (∃ (al : Nat) (s : State), s.mainUp = true ∧ (s.timer (.alHold al)).isSome ∧ s.rd (alUnit al) 0x5001 0 ≠ 1)
    ∧ (∃ (al : Nat) (c : Copy) (s : State), s.mainUp = true ∧ al < 3 ∧ s.rd (alUnit al) 0x1000 0 = 1 ∧ s.sending (0x40 + al) = some c) :=
  ⟨⟨(2), (List.replicate 14 0), ((up.wr 0x302 0x1000 0 1).wr 0x009 0x1003 2 256), by decide +kernel⟩,
   ⟨(2), (List.replicate 14 0), ((up.wr 0x302 0x1000 0 1).wr 0x009 0x1003 2 256), by decide +kernel⟩,
   ⟨(2), (13), (List.replicate 13 0), ((up.wr 0x302 0x1000 0 1).wr 0x009 0x1003 2 256), by decide +kernel⟩,
   ⟨(2), (3), (up), by decide +kernel⟩,
   ⟨(0), ((up.wr 0x300 0x1000 0 1).startTimer (.alHold 0) 0), by decide +kernel⟩,
   ⟨(0), ({ cp 1 0x40 with state := .sending }), (copy1 (up.wr 0x300 0x1000 0 1) stored { cp 1 0x40 with state := .sending }), by decide +kernel⟩⟩

/-- The hypotheses of CoexistenceQuietsAndGrants can be met, clause by clause. -/
theorem witness_CoexistenceQuietsAndGrants :
    (∃ (i : Nat) (s : State), s.mainUp = true ∧ i < 3 ∧ s.rd 0x00F 0x5000 i = 0)
    ∧ (∃ (i : Nat) (s : State), s.mainUp = true ∧ i < 3 ∧ s.rd 0x00F 0x5000 i = 1 ∧ ((∀ l, l < s.build.lanes → (s.regN (.coexMask i)).testBit l = true → s.laneIdle l = true)))
    ∧ (∃ (i : Nat) (s : State), s.mainUp = true ∧ i < 3 ∧ s.rd 0x00F 0x5000 i = 1)
    ∧ (∃ (i : Nat) (s : State), s.mainUp = true ∧ i < 3 ∧ s.rd 0x00F 0x5000 i = 2)
    ∧ (∃ (i : Nat) (s : State), s.mainUp = true ∧ i < 3 ∧ s.rd 0x00F 0x5000 i = 3)
    ∧ (∃ (i : Nat) (s : State), s.mainUp = true ∧ i < 3 ∧ s.rd 0x00F 0x5000 i = 2) :=
  ⟨⟨(2), (up), by decide +kernel⟩,
   ⟨(0), ((up.wr 0x00F 0x5000 0 1).setReg (.coexMask 0) 1), by decide +kernel⟩,
   ⟨(0), (up.wr 0x00F 0x5000 0 1), by decide +kernel⟩,
   ⟨(0), (up.wr 0x00F 0x5000 0 2), by decide +kernel⟩,
   ⟨(0), (up.wr 0x00F 0x5000 0 3), by decide +kernel⟩,
   ⟨(2), (up.wr 0x00F 0x5000 2 2), by decide +kernel⟩⟩

/-- The hypotheses of FoldFramesLeave can be met, clause by clause. -/
theorem witness_FoldFramesLeave :
    (∃ (ch : Nat) (slot : Nat) (sl : FoldSlot) (s : State), s.mainUp = true ∧ s.running = true ∧ s.asked 5 = false ∧ s.fabricLink ch = true ∧ s.heldClass ch 7 = false ∧ s.quiet ch 2 = false ∧ s.quartered ch = false ∧ s.copies = [] ∧ s.genQ = [.install ch slot] ∧ s.foldSlot ch slot true = some sl ∧ sl.header ≠ [])
    ∧ (∃ (ch : Nat) (slot : Nat) (gen : Nat) (q : Nat) (r : Nat) (s : State), s.mainUp = true ∧ s.running = true ∧ s.asked 5 = false ∧ s.fabricLink ch = true ∧ s.heldClass ch 7 = false ∧ s.quiet ch 2 = false ∧ s.quartered ch = false ∧ s.copies = [] ∧ s.genQ = [.nak ch slot gen q r]) :=
  ⟨⟨(0), (3), ({ slot0 with slot := 3, send := true }), ({ fab with folds := [{ slot0 with slot := 3, send := true }], genQ := [.install 0 3] }), by decide +kernel⟩,
   ⟨(0), (3), (1), (2), (1), ({ fab with genQ := [.nak 0 3 1 2 1] }), by decide +kernel⟩⟩

/-- The hypotheses of QueuedTableWritesApply can be met, clause by clause. -/
theorem witness_QueuedTableWritesApply :
    (∃ (w : TableUpdate) (s : State), s.nextUpdate = some w ∧ s.slotFree = true ∧ s.repairQ = [] ∧ ((∀ x ∈ s.updateQ, x.held = 0))) :=
  ⟨(⟨⟨0x006, 0x6001, 4⟩, 2 ^ 255, host, 0⟩), ({ up with slot := 3, updateQ := [⟨⟨0x006, 0x6001, 4⟩, 2 ^ 255, host, 0⟩] }), by decide +kernel⟩

/-- The hypotheses of SurveyAndSweeperAdvance can be met, clause by clause. -/
theorem witness_SurveyAndSweeperAdvance :
    (∃ (s : State), s.slotFree = true ∧ s.repairQ = [] ∧ s.nextUpdate = none ∧ s.regN .surveyUsed < s.rd 0x006 0x1003 0)
    ∧ (∃ (s : State), s.slotFree = true ∧ s.repairQ = [] ∧ s.nextUpdate = none ∧ s.regN .surveyUsed < s.rd 0x006 0x1003 0)
    ∧ (∃ (i : Nat) (rest : List Nat) (s : State), s.repairQ = i :: rest ∧ s.slotFree = true)
    ∧ (∃ (s : State), (s.slot % 4 ≠ 3 ∨ s.slotTaken = true))
    ∧ (∃ (s : State), s.mainUp = true ∧ s.mode ≠ 2 ∧ (s.ent 0x008 0x6000 (s.regN .sweep)).testBit 255 = false)
    ∧ (∃ (s : State), s.mainUp = true ∧ s.mode ≠ 2 ∧ (s.ent 0x008 0x6000 (s.regN .sweep)).testBit 255 = true ∧ s.pairOdd (s.regN .sweep) = false ∧ (s.ent 0x008 0x6000 (s.regN .sweep)).testBit 252 = false ∧ s.rd 0x008 0x1000 0 ≠ 0 ∧ s.rd 0x008 0x1000 0 ≤ (s.ageClock + 65536 - field (s.ent 0x008 0x6000 (s.regN .sweep)) 39 16) % 65536) :=
  ⟨⟨({ up with slot := 3 }), by decide +kernel⟩,
   ⟨({ up with slot := 255 }), by decide +kernel⟩,
   ⟨(3), ([]), ({ up with slot := 3, repairQ := [3] }), by decide +kernel⟩,
   ⟨(up), by decide +kernel⟩,
   ⟨(up), by decide +kernel⟩,
   ⟨(((up.setEnt 0x008 0x6000 0 (2 ^ 255)).wr 0x008 0x1000 0 1).wr 0x000 0x5001 0 6250000), by decide +kernel⟩⟩

/-- The hypotheses of EditionFlipMakesNextCurrent can be met, clause by clause. -/
theorem witness_EditionFlipMakesNextCurrent :
    (∃ (s : State), s.canon = true ∧ s.mainUp = true ∧ s.rd 0x006 0x5001 0 = 1 ∧ (agentOf (s.regN .editionAgent)).kind = .host)
    ∧ (∃ (s : State), s.mainUp = true ∧ s.rd 0x006 0x5001 0 = 2 ∧ s.inflight ((s.edition + 1) % 2) = 0) :=
  ⟨⟨((State.reset.wr 0x006 0x5001 0 1).setEnt 0x006 0x6001 0 (2 ^ 255)), by decide +kernel⟩,
   ⟨(up.wr 0x006 0x5001 0 2), by decide +kernel⟩⟩

/-- The hypotheses of TimeReferenceAndPps can be met, clause by clause. -/
theorem witness_TimeReferenceAndPps :
    (∃ (s : State), s.timeUp = true ∧ s.rd 0x003 0x5002 0 = 0)
    ∧ (∃ (s : State), s.timeUp = true ∧ s.rd 0x003 0x5002 0 = 1)
    ∧ (∃ (s : State), s.mainUp = true)
    ∧ (∃ (s : State), s.mainUp = true ∧ (s.timer .ppsIn).isSome)
    ∧ (∃ (s : State), s.mainUp = true ∧ s.rd 0x003 0x1001 0 = 1 ∧ s.ppsDue = true)
    ∧ (∃ (s : State), s.mainUp = false ∧ s.timeUp = true ∧ s.rd 0x003 0x1001 0 = 1 ∧ s.atPps.ppsDue = true)
    ∧ (∃ (s : State), s.mainUp = true ∧ s.regN .ppsOut = 1 ∧ s.reg .ppsEnd ≤ s.elapsed)
    ∧ (∃ (s : State), s.mainUp = false ∧ s.timeUp = true ∧ s.regN .ppsOut = 1 ∧ s.reg .ppsEnd ≤ s.atPpsEnd.elapsed) :=
  ⟨⟨(up), by decide +kernel⟩,
   ⟨(up.wr 0x003 0x5002 0 1), by decide +kernel⟩,
   ⟨(up), by decide +kernel⟩,
   ⟨(up.startTimer .ppsIn 0), by decide +kernel⟩,
   ⟨({ up.wr 0x003 0x1001 0 1 with time := 1000000000 * nsUnit }), by decide +kernel⟩,
   ⟨((up.wr 0x001 0x5000 0 3).wr 0x003 0x1001 0 1), by decide +kernel⟩,
   ⟨(up.setReg .ppsOut 1), by decide +kernel⟩,
   ⟨(((up.wr 0x001 0x5000 0 3).setReg .ppsOut 1).setReg .ppsEnd 7), by decide +kernel⟩⟩

/-- The hypotheses of StepsAndGatesTakeEffect can be met, clause by clause. -/
theorem witness_StepsAndGatesTakeEffect :
    (∃ (s : State), s.mainUp = true)
    ∧ (∃ (s : State), s.mainUp = false)
    ∧ (∃ (h : Agent) (w : StagedWrite) (s : State), h = ⟨.host, 0⟩ ∧ w = ⟨.obj ⟨0x003, 0x1001, 0⟩, 1, h⟩ ∧ s = { (State.quietAt 0 7).startTimer .token 1 with leases := [⟨0x101, h, 1⟩], claims := [⟨0x102, h⟩], holds := [((0, 8), 1)], staged := [w], commits := [⟨0x003, h, true, [w], []⟩], modeWait := some 1, timeStep := some (h, true, 1000), snapWait := [⟨1, 0x500, h, []⟩], clearWait := [0x500] })
    ∧ (∃ (a : Agent) (v : Int) (s : State), s.mainUp = true ∧ a.kind = .host ∧ s.timeStep = some (a, true, v))
    ∧ (∃ (a : Agent) (d : Int) (s : State), s.mainUp = true ∧ a.kind = .host ∧ s.timeStep = some (a, false, d) ∧ (s.time : Int) + d * nsUnit < 0)
    ∧ (∃ (ep : Nat) (ct : Nat) (cfg : Nat) (l : List Nat) (s : State), s.mainUp = true ∧ s.gatePend.find? ep = some (ct, cfg, l) ∧ ct ≤ s.time)
    ∧ (∃ (ep : Nat) (s : State), s.mainUp = true ∧ (s.gateOper.find? ep).isSome ∧ ((∃ c ∈ s.copies, c.ep = ep ∧ c.state = .sending ∧ c.overrun = false ∧ s.gateOpen ep c.cls s.time = false)))
    ∧ (∃ (mode : Nat) (n : Nat), mode ≤ 1 ∧ n < 2 ^ 64) :=
  ⟨⟨(up), by decide +kernel⟩,
   ⟨(up.wr 0x001 0x5000 0 3), by decide +kernel⟩,
   ⟨(host), (⟨.obj ⟨0x003, 0x1001, 0⟩, 1, host⟩), ({ (State.quietAt 0 7).startTimer .token 1 with leases := [⟨0x101, host, 1⟩], claims := [⟨0x102, host⟩], holds := [((0, 8), 1)], staged := [⟨.obj ⟨0x003, 0x1001, 0⟩, 1, host⟩], commits := [⟨0x003, host, true, [⟨.obj ⟨0x003, 0x1001, 0⟩, 1, host⟩], []⟩], modeWait := some 1, timeStep := some (host, true, 1000), snapWait := [⟨1, 0x500, host, []⟩], clearWait := [0x500] }), rfl, rfl, rfl⟩,
   ⟨(host), (2 ^ 80 - 1), ({ up with timeStep := some (host, true, 2 ^ 80 - 1) }), by decide +kernel⟩,
   ⟨(host), (-1), ({ up with timeStep := some (host, false, -1) }), by decide +kernel⟩,
   ⟨(0), (0), (0), ([]), ({ up with gatePend := [(0, (0, 0, []))] }), by decide +kernel⟩,
   ⟨(0), ({ copy1 up stored { cp 1 0 with state := .sending } with gateOper := [(0, (1000 * 2 ^ 96, [(0 : Nat)]))] }), by decide +kernel⟩,
   ⟨(1), (2 ^ 64 - 1), by decide +kernel⟩⟩

/-- The hypotheses of DoorbellsAreCheckedAndMoveTails can be met, clause by clause. -/
theorem witness_DoorbellsAreCheckedAndMoveTails :
    (∃ (kind : RingKind) (ring : Nat) (value : Nat) (s : State), s.mainUp = true ∧ s.ringThere ring = true ∧ s.rd (ringUnit kind ring) 0x4002 0 ≠ 1 ∧ value < 2 * s.ringN (ringUnit kind ring) ∧ s.posDiff (ringUnit kind ring) (s.ringT (ringUnit kind ring)) (s.ringH (ringUnit kind ring)) ≤ s.posDiff (ringUnit kind ring) value (s.ringH (ringUnit kind ring)) ∧ s.posDiff (ringUnit kind ring) value (s.ringH (ringUnit kind ring)) ≤ s.ringN (ringUnit kind ring) ∧ s.ringState (ringUnit kind ring) ≠ 1)
    ∧ (∃ (kind : RingKind) (ring : Nat) (value : Nat) (s : State), s.mainUp = true ∧ s.ringThere ring = true ∧ s.rd (ringUnit kind ring) 0x4002 0 ≠ 1 ∧ value < 2 * s.ringN (ringUnit kind ring) ∧ s.posDiff (ringUnit kind ring) (s.ringT (ringUnit kind ring)) (s.ringH (ringUnit kind ring)) ≤ s.posDiff (ringUnit kind ring) value (s.ringH (ringUnit kind ring)) ∧ s.posDiff (ringUnit kind ring) value (s.ringH (ringUnit kind ring)) ≤ s.ringN (ringUnit kind ring) ∧ s.ringState (ringUnit kind ring) = 1)
    ∧ (∃ (kind : RingKind) (ring : Nat) (value : Nat) (s : State), s.mainUp = true ∧ s.ringThere ring = true ∧ s.rd (ringUnit kind ring) 0x4002 0 ≠ 1 ∧ ((2 * s.ringN (ringUnit kind ring) ≤ value ∨ s.posDiff (ringUnit kind ring) value (s.ringH (ringUnit kind ring)) < s.posDiff (ringUnit kind ring) (s.ringT (ringUnit kind ring)) (s.ringH (ringUnit kind ring)) ∨ s.ringN (ringUnit kind ring) < s.posDiff (ringUnit kind ring) value (s.ringH (ringUnit kind ring)))))
    ∧ (∃ (ring : Nat) (s : State), s.mainUp = true ∧ s.ringThere ring = true)
    ∧ (∃ (ring : Nat) (s : State), s.mainUp = true ∧ s.ringThere ring = false)
    ∧ (∃ (offset : Nat) (s : State), s.mainUp = true ∧ 0x2000 ≤ offset ∧ offset < 0x2600 ∧ s.build.rings ≤ (offset - 0x2000) / 8 % 64)
    ∧ (∃ (ring : Nat) (value : Nat) (s : State), s.mainUp = true ∧ s.ringThere ring = true ∧ value < 2 * s.ringN (cqUnit ring) ∧ s.posDiff (cqUnit ring) value (s.ringH (cqUnit ring)) ≤ s.posDiff (cqUnit ring) (s.ringT (cqUnit ring)) (s.ringH (cqUnit ring)) ∧ s.ringState (cqUnit ring) ≠ 1)
    ∧ (∃ (ring : Nat) (value : Nat) (s : State), s.mainUp = true ∧ s.ringThere ring = true ∧ value < 2 * s.ringN (cqUnit ring) ∧ s.posDiff (cqUnit ring) value (s.ringH (cqUnit ring)) ≤ s.posDiff (cqUnit ring) (s.ringT (cqUnit ring)) (s.ringH (cqUnit ring)) ∧ s.ringState (cqUnit ring) = 1)
    ∧ (∃ (ring : Nat) (value : Nat) (s : State), s.mainUp = true ∧ s.ringThere ring = true ∧ (2 * s.ringN (cqUnit ring) ≤ value ∨ s.posDiff (cqUnit ring) (s.ringT (cqUnit ring)) (s.ringH (cqUnit ring)) < s.posDiff (cqUnit ring) value (s.ringH (cqUnit ring))))
    ∧ (∃ (s : State), s.mainUp = true)
    ∧ (∃ (n : Nat) (s : State), s.mainUp = true ∧ n < 3) :=
  ⟨⟨(.bq), (63), (1), (up.wr 0x47F 0x4001 0 6), by decide +kernel⟩,
   ⟨(.tq), (0), (64), (rings), by decide +kernel⟩,
   ⟨(.tq), (0), (65), (rings), by decide +kernel⟩,
   ⟨(0), (rings), by decide +kernel⟩,
   ⟨(64), (rings), by decide +kernel⟩,
   ⟨(0x25FF), ({ up with build := .tlafelu8 }), by decide +kernel⟩,
   ⟨(0), (0), (up.wr 0x480 0x4001 0 6), by decide +kernel⟩,
   ⟨(0), (3), (rings.wr 0x480 0x5000 0 3), by decide +kernel⟩,
   ⟨(0), (4), (rings.wr 0x480 0x5000 0 3), by decide +kernel⟩,
   ⟨(run), by decide +kernel⟩,
   ⟨(2), (run), by decide +kernel⟩⟩

/-- The hypotheses of ScansFindReadyEntries can be met, clause by clause. -/
theorem witness_ScansFindReadyEntries :
    (∃ (kind : RingKind) (ring : Nat) (s : State), s.mainUp = true ∧ s.ringThere ring = true ∧ s.rd (ringUnit kind ring) 0x4002 0 = 1 ∧ s.ringState (ringUnit kind ring) = 2)
    ∧ (∃ (kind : RingKind) (ring : Nat) (s : State), s.mainUp = true ∧ s.ringThere ring = true ∧ s.rd (ringUnit kind ring) 0x4002 0 = 1 ∧ s.ringState (ringUnit kind ring) = 1 ∧ (s.scans.get (ringUnit kind ring) 0).testBit 1 = true)
    ∧ (∃ (kind : RingKind) (ring : Nat) (s : State), s.mainUp = true ∧ s.ringThere ring = true ∧ s.rd (ringUnit kind ring) 0x4002 0 = 1 ∧ s.ringState (ringUnit kind ring) = 1 ∧ (s.scans.get (ringUnit kind ring) 0).testBit 1 = false)
    ∧ (∃ (kind : RingKind) (ring : Nat) (s : State), s.mainUp = true ∧ s.ringThere ring = true ∧ s.ringState (ringUnit kind ring) = 1 ∧ s.scans.get (ringUnit kind ring) 0 = 2) :=
  ⟨⟨(.tq), (0), ((rings.wr 0x400 0x4002 0 1).wr 0x400 0x0002 0 2), by decide +kernel⟩,
   ⟨(.bq), (0), ({ rings.wr 0x440 0x4002 0 1 with scans := [(0x440, 2)] }), by decide +kernel⟩,
   ⟨(.tq), (0), (rings.wr 0x400 0x4002 0 1), by decide +kernel⟩,
   ⟨(.tq), (0), ({ rings.wr 0x400 0x4002 0 1 with scans := [(0x400, 2)] }), by decide +kernel⟩⟩

/-- The hypotheses of DescriptorsAreReadAndChecked can be met, clause by clause. -/
theorem witness_DescriptorsAreReadAndChecked :
    (∃ (ring : Nat) (l : List Octet) (o : MpOp) (s : State), s.mainUp = true ∧ ring < s.build.rings ∧ s.mpOps.find? (fun o => o.purpose = .descRead .bq ring) = some o ∧ ((s.rd (bqUnit ring) 0x4002 0 ≠ 0 ∨ (entryWord l 3).testBit 63 = (s.phaseAt (bqUnit ring) (s.readPos (bqUnit ring) o.addr) = 1))) ∧ s.readPos (bqUnit ring) o.addr = s.ringH (bqUnit ring) ∧ ((∀ b ∈ s.bqBuffers, b.bq = ring → b.ahead = none)))
    ∧ (∃ (ring : Nat) (l : List Octet) (o : MpOp) (s : State), s.mainUp = true ∧ ring < s.build.rings ∧ s.mpOps.find? (fun o => o.purpose = .descRead .bq ring) = some o ∧ ((s.rd (bqUnit ring) 0x4002 0 ≠ 0 ∨ (entryWord l 3).testBit 63 = (s.phaseAt (bqUnit ring) (s.readPos (bqUnit ring) o.addr) = 1))) ∧ s.readPos (bqUnit ring) o.addr ≠ s.ringH (bqUnit ring) ∧ ((∀ b ∈ s.bqBuffers, b.bq = ring → b.ahead.isSome → b.pos ≠ s.ringH (bqUnit ring))))
    ∧ (∃ (ring : Nat) (l : List Octet) (o : MpOp) (s : State), s.mainUp = true ∧ ring < s.build.rings ∧ s.mpOps.find? (fun o => o.purpose = .descRead .tq ring) = some o ∧ ((∀ a ∈ s.ahead, a.desc.tq = ring → a.failed = none)) ∧ ((s.rd (tqUnit ring) 0x4002 0 ≠ 0 ∨ (entryWord l 3).testBit 63 = (s.phaseAt (tqUnit ring) (s.readPos (tqUnit ring) o.addr) = 1))) ∧ tqEntryError s.build (entryWord l 1) (entryWord l 3) = none)
    ∧ (∃ (ring : Nat) (l : List Octet) (o : MpOp) (s : State), s.mainUp = true ∧ ring < s.build.rings ∧ s.mpOps.find? (fun o => o.purpose = .descRead .bq ring) = some o ∧ s.rd (bqUnit ring) 0x4002 0 = 0 ∧ (entryWord l 3).testBit 63 ≠ (s.phaseAt (bqUnit ring) (s.readPos (bqUnit ring) o.addr) = 1) ∧ s.readPos (bqUnit ring) o.addr = s.ringH (bqUnit ring) ∧ ((∀ b ∈ s.bqBuffers, b.bq = ring → b.ahead = none)))
    ∧ (∃ (ring : Nat) (l : List Octet) (o : MpOp) (s : State), s.mainUp = true ∧ ring < s.build.rings ∧ s.asked 1 = false ∧ s.mpOps.find? (fun o => o.purpose = .descRead .tq ring) = some o ∧ s.rd (tqUnit ring) 0x4002 0 = 0 ∧ ((∀ a ∈ s.ahead, a.desc.tq ≠ ring)) ∧ s.startedOf ring = 0 ∧ s.readPos (tqUnit ring) o.addr = s.nextStart ring ∧ (entryWord l 3).testBit 63 ≠ (s.phaseAt (tqUnit ring) (s.readPos (tqUnit ring) o.addr) = 1)) :=
  ⟨⟨(0), (toLsb 8 0 ++ toLsb 8 (64 * 2 ^ 48) ++ toLsb 8 7 ++ toLsb 8 (2 ^ 63)), (op false 0 (.descRead .bq 0)), ({ rings.wr 0x440 0x5002 0 1 with mpOps := [op false 0 (.descRead .bq 0)] }), by decide +kernel⟩,
   ⟨(0), (toLsb 8 0 ++ toLsb 8 (64 * 2 ^ 48) ++ toLsb 8 7 ++ toLsb 8 (2 ^ 63)), (⟨false, 0, 32, [], .descRead .bq 0⟩), ({ rings.wr 0x440 0x5002 0 2 with mpOps := [⟨false, 0, 32, [], .descRead .bq 0⟩] }), by decide +kernel⟩,
   ⟨(0), (toLsb 8 0 ++ toLsb 8 (60 * 2 ^ 48) ++ toLsb 8 7 ++ toLsb 8 (2 ^ 63)), (op false 0 (.descRead .tq 0)), ({ rings.wr 0x400 0x5002 0 1 with mpOps := [op false 0 (.descRead .tq 0)] }), by decide +kernel⟩,
   ⟨(0), (List.replicate 32 0), (op false 0 (.descRead .bq 0)), ({ rings.wr 0x440 0x5002 0 1 with mpOps := [op false 0 (.descRead .bq 0)] }), by decide +kernel⟩,
   ⟨(0), (List.replicate 32 0), (op false 0 (.descRead .tq 0)), ({ rings.wr 0x400 0x5002 0 1 with mpOps := [op false 0 (.descRead .tq 0)] }), by decide +kernel⟩⟩

/-- The hypotheses of MemoryPortAnswersEndOperations can be met, clause by clause. -/
theorem witness_MemoryPortAnswersEndOperations :
    (∃ (tag : Nat) (s : State), s.mainUp = true ∧ s.mpOps.any (fun o => o.tag = mpWaiting) = false ∧ s.mpOp? false tag = none)
    ∧ (∃ (tag : Nat) (s : State), s.mainUp = true ∧ s.mpOps.any (fun o => o.tag = mpWaiting) = false ∧ s.mpOp? true tag = none)
    ∧ (∃ (tag : Nat) (o : MpOp) (s : State), s.mainUp = true ∧ s.mpOps.any (fun o => o.tag = mpWaiting) = false ∧ s.mpOp? false tag = some o)
    ∧ (∃ (tag : Nat) (o : MpOp) (s : State), s.mainUp = true ∧ s.mpOps.any (fun o => o.tag = mpWaiting) = false ∧ s.mpOp? false tag = some o)
    ∧ (∃ (tag : Nat) (o : MpOp) (s : State), s.mainUp = true ∧ s.mpOps.any (fun o => o.tag = mpWaiting) = false ∧ s.mpOp? true tag = some o)
    ∧ (∃ (write : Bool) (tag : Nat) (o : MpOp) (s : State), s.mainUp = true ∧ s.mpOps.any (fun o => o.tag = mpWaiting) = false ∧ s.mpOp? write tag = some o)
    ∧ (∃ (tag : Nat) (cq : Nat) (e : CqEntry) (o : MpOp) (s : State), s.mainUp = true ∧ s.mpOps.any (fun o => o.tag = mpWaiting) = false ∧ s.mpOp? true tag = some o ∧ o.purpose = .cqWrite cq e ∧ e.w0 % 256 = 0) :=
  ⟨⟨(255), (rings), by decide +kernel⟩,
   ⟨(0), (rings), by decide +kernel⟩,
   ⟨(0), (op false 0 (.payload 0 0)), ({ rings with mpOps := [op false 0 (.payload 0 0)] }), by decide +kernel⟩,
   ⟨(0), (op false 0 (.payload 0 0)), ({ rings with mpOps := [op false 0 (.payload 0 0)] }), by decide +kernel⟩,
   ⟨(0), (op true 0 (.eqRecord 0)), ({ rings with mpOps := [op true 0 (.eqRecord 0)] }), by decide +kernel⟩,
   ⟨(true), (255), (op true 255 (.eqRecord 0)), ({ rings with mpOps := [op true 255 (.eqRecord 0)] }), by decide +kernel⟩,
   ⟨(0), (0), (⟨0, 0, 0, 0, 0⟩), (op true 0 (.cqWrite 0 ⟨0, 0, 0, 0, 0⟩)), ({ rings.wr 0x480 0x5000 0 1 with mpOps := [op true 0 (.cqWrite 0 ⟨0, 0, 0, 0, 0⟩)] }), by decide +kernel⟩⟩

/-- The hypotheses of CompletionTimersAndStalls can be met, clause by clause. -/
theorem witness_CompletionTimersAndStalls :
    (∃ (cq : Nat) (s : State), s.mainUp = true ∧ (s.timer (.cqIrq cq)).isSome)
    ∧ (∃ (cq : Nat) (s : State), s.mainUp = true ∧ (s.timer (.cqStall cq)).isSome ∧ s.cqHeld cq = true)
    ∧ (∃ (cq : Nat) (s : State), s.timer (.cqIrq cq) = none)
    ∧ (∃ (cq : Nat) (s : State), s.timer (.cqStall cq) = none) :=
  ⟨⟨(0), (rings.startTimer (.cqIrq 0) 0), by decide +kernel⟩,
   ⟨(0), ((((rings.wr 0x400 0x5000 0 3).wr 0x480 0x5000 0 64).startTimer (.cqStall 0) 0).setReg (.reserved 0) 8), by decide +kernel⟩,
   ⟨(0), (up), by decide +kernel⟩,
   ⟨(0), (up), by decide +kernel⟩⟩

/-- The hypotheses of HostFramesStartAndAreWritten can be met, clause by clause. -/
theorem witness_HostFramesStartAndAreWritten :
    (∃ (q : Nat) (a : AheadEntry) (s : State), s.mainUp = true ∧ s.running = true ∧ s.asked 1 = false ∧ s.tqTurnOf = some q ∧ s.aheadNext q = some a ∧ s.payloadDone a = true)
    ∧ (∃ (bq : Nat) (c : Copy) (f : Frame) (b : BqBuffer) (s : State), s.mainUp = true ∧ s.bqTurnOf = some bq ∧ s.bqHead bq = some c ∧ s.frame? c.frame = some f ∧ s.ringState (bqUnit bq) = 1 ∧ s.nextBuffer bq = some b ∧ f.whole.length ≤ b.size ∧ ((∀ x ∈ s.bqBuffers, x.bad = false))) :=
  ⟨⟨(0), (⟨⟨0, 0, 60 * 2 ^ 48, 7, 0⟩, true, [(0, List.replicate 64 0)], none⟩), ({ (rings.wr 0x400 0x5000 0 1).wr 0x400 0x5002 0 1 with ahead := [⟨⟨0, 0, 60 * 2 ^ 48, 7, 0⟩, true, [(0, List.replicate 64 0)], none⟩] }), by decide +kernel⟩,
   ⟨(0), ({ cp 1 0x7F with queue := .bq 0 }), (stored), (⟨0, 0, 4096, 64, 9, false, false, none⟩), ({ copy1 rings stored { cp 1 0x7F with queue := .bq 0 } with bqBuffers := [⟨0, 0, 4096, 64, 9, false, false, none⟩] }), by decide +kernel⟩⟩

/-- The hypotheses of LeasesFollowTheirTable can be met, clause by clause. -/
theorem witness_LeasesFollowTheirTable :
    (∃ (a : Agent) (path : List Nat) (u : Nat) (s : State), s.grants a path u 0x0012 0 [] = true ∧ ¬(u = 0x00D ∧ a.kind = .manager ∧ s.role = 3))
    ∧ (∃ (a : Agent) (path : List Nat) (u : Nat) (s : State), s.grants a path u 0x0013 0 [] = true ∧ ¬(u = 0x00D ∧ a.kind = .manager ∧ s.role = 3) ∧ s.holdsLease a u = true)
    ∧ (∃ (a : Agent) (path : List Nat) (u : Nat) (s : State), s.grants a path u 0x0013 0 [] = true ∧ ¬(u = 0x00D ∧ a.kind = .manager ∧ s.role = 3) ∧ s.holdsLease a u = false)
    ∧ (∃ (a : Agent) (path : List Nat) (u : Nat) (s : State), s.grants a path u 0x0014 0 [] = true ∧ ¬(u = 0x00D ∧ a.kind = .manager ∧ s.role = 3) ∧ s.holdsLease a u = true ∧ (s.leaseOn u).isSome = true)
    ∧ (∃ (a : Agent) (path : List Nat) (u : Nat) (s : State), s.grants a path u 0x0014 0 [] = true ∧ ¬(u = 0x00D ∧ a.kind = .manager ∧ s.role = 3) ∧ s.holdsLease a u = false ∧ s.conflicts a u = [])
    ∧ (∃ (a : Agent) (path : List Nat) (u : Nat) (s : State), s.grants a path u 0x0014 0 [] = true ∧ ¬(u = 0x00D ∧ a.kind = .manager ∧ s.role = 3) ∧ s.holdsLease a u = false ∧ s.conflicts a u ≠ [])
    ∧ (∃ (c : Claim) (s : State), s.mainUp = true ∧ s.claims = [c] ∧ c.agent.kind = .host ∧ s.holdsLease c.agent c.unit = true)
    ∧ (∃ (c : Claim) (s : State), s.mainUp = true ∧ s.claims = [c] ∧ c.agent.kind = .host ∧ s.holdsLease c.agent c.unit = false ∧ s.conflicts c.agent c.unit = [])
    ∧ (∃ (c : Claim) (s : State), s.mainUp = true ∧ s.claims = [c] ∧ c.agent.kind = .host ∧ s.holdsLease c.agent c.unit = false ∧ s.conflicts c.agent c.unit ≠ [] ∧ s.preferred c.agent = true ∧ ((∀ l ∈ s.conflicts c.agent c.unit, otherSide c.agent l.holder = true)))
    ∧ (∃ (c : Claim) (s : State), s.mainUp = true ∧ s.claims = [c] ∧ c.agent.kind = .host ∧ s.holdsLease c.agent c.unit = false ∧ s.conflicts c.agent c.unit ≠ [] ∧ ((s.preferred c.agent = false ∨ ∃ l ∈ s.conflicts c.agent c.unit, otherSide c.agent l.holder = false)))
    ∧ (∃ (unit : Nat) (l : Lease) (s : State), s.mainUp = true ∧ s.leaseOn unit = some l) :=
  ⟨⟨(host), (pathTo 0x100), (0x100), (run), by decide +kernel⟩,
   ⟨(host), (pathTo 0x100), (0x100), (leased run 0x100 host), by decide +kernel⟩,
   ⟨(man), (pathTo 0x100), (0x100), (leased run 0x100 host), by decide +kernel⟩,
   ⟨(host), (pathTo 0x100), (0x100), ({ leased run 0x100 host with staged := [⟨.obj ⟨0x100, 0x1000, 0⟩, 3, host⟩] }), by decide +kernel⟩,
   ⟨(host), (pathTo 0x100), (0x100), (run), by decide +kernel⟩,
   ⟨(man), (pathTo 0x100), (0x100), (leased run 0x100 host), by decide +kernel⟩,
   ⟨(⟨0x100, host⟩), (claim 0x100 host (leased run 0x100 host)), by decide +kernel⟩,
   ⟨(⟨0x100, host⟩), (claim 0x100 host run), by decide +kernel⟩,
   ⟨(⟨0x100, host⟩), ((claim 0x100 host (leased run 0x100 man)).wr 0x000 0x4000 0 0), by decide +kernel⟩,
   ⟨(⟨0x100, host⟩), ((claim 0x100 host (leased run 0x100 man)).wr 0x000 0x4000 0 1), by decide +kernel⟩,
   ⟨(0x100), (lease 0x100 host), ({ leased run 0x100 host with staged := [⟨.obj ⟨0x100, 0x1000, 0⟩, 3, host⟩] }), by decide +kernel⟩⟩

/-- The hypotheses of StagedWritesTakeEffectTogether can be met, clause by clause. -/
theorem witness_StagedWritesTakeEffectTogether :
    (∃ (a : Agent) (path : List Nat) (u : Nat) (i : Nat) (k : Nat) (d : List Octet) (r : ObjRow) (s : State), s.grants a path u i k d = true ∧ s.lookup a u i k = .ok r ∧ r.access = .rws ∧ ¬(u = 0x00D ∧ i = 0x1000 ∧ ofMsb d = 1 ∧ s.serial = 0) ∧ s.stageBusy u = false)
    ∧ (∃ (a : Agent) (path : List Nat) (u : Nat) (s : State), s.grants a path u 0x0030 0 [] = true ∧ s.commits.any (fun c => overlap c.unit u) = false)
    ∧ (∃ (a : Agent) (path : List Nat) (u : Nat) (s : State), s.grants a path u 0x0030 0 [] = true ∧ s.commits.any (fun c => overlap c.unit u) = true)
    ∧ (∃ (a : Agent) (path : List Nat) (u : Nat) (s : State), s.grants a path u 0x0031 0 [] = true ∧ s.commits.any (fun c => overlap c.unit u) = false)
    ∧ (∃ (a : Agent) (path : List Nat) (u : Nat) (s : State), s.grants a path u 0x0031 0 [] = true ∧ s.commits.any (fun c => overlap c.unit u) = true)
    ∧ (∃ (unit : Nat) (c : CommitOp) (s : State), s.mainUp = true ∧ s.commits.find? (fun c => c.unit = unit && !c.accepted) = some c ∧ checkCommit (s.applyWrites s.acceptedWrites) c.writes = none)
    ∧ (∃ (unit : Nat) (c : CommitOp) (s : State) (code : Abort) (x : StagedTarget), s.mainUp = true ∧ s.commits.find? (fun c => c.unit = unit && !c.accepted) = some c ∧ checkCommit (s.applyWrites s.acceptedWrites) c.writes = some (code, x))
    ∧ (∃ (s : State), s.mainUp = true ∧ ((∀ c ∈ s.commits, c.accepted = false)))
    ∧ (∃ (s : State), s.mainUp = true ∧ ((∃ c ∈ s.commits, c.accepted = true)) ∧ ((∀ w ∈ s.acceptedWrites, ∃ u i k, w.target = .obj ⟨u, i, k⟩ ∧ u < 0x100 ∧ ¬(u = 0x00D ∧ i = 0x1000) ∧ 0x1000 ≤ i ∧ i < 0x2000))) :=
  ⟨⟨(host), (pathTo 0x200), (0x200), (0x1000), (0), ([1]), (rowOf 0x200 0x1000 0), (run), by decide +kernel⟩,
   ⟨(host), (pathTo 0x200), (0x200), ({ run with staged := [wr1 0x1000 1] }), by decide +kernel⟩,
   ⟨(host), (pathTo 0x200), (0x200), (withCom false (wr1 0x1000 1)), by decide +kernel⟩,
   ⟨(host), (pathTo 0x200), (0x200), ({ run with staged := [wr1 0x1000 1] }), by decide +kernel⟩,
   ⟨(host), (pathTo 0x200), (0x200), (withCom false (wr1 0x1000 1)), by decide +kernel⟩,
   ⟨(0x200), (com false (wr1 0x1000 1)), (withCom false (wr1 0x1000 1)), by decide +kernel⟩,
   ⟨(0x200), (com false (wr1 0x1014 1048576)), (withCom false (wr1 0x1014 1048576)), (.bufferOvercommit), (.obj ⟨0x200, 0x1014, 0⟩), by decide +kernel⟩,
   ⟨(withCom false (wr1 0x1000 1)), by decide +kernel⟩,
   ⟨(withCom true wr3), by decide +kernel, by decide +kernel, (by intro w hw; have h : (withCom true wr3).acceptedWrites = [wr3] := rfl; rw [h] at hw; have h : w = wr3 := List.mem_singleton.mp hw; subst h; exact ⟨0x003, 0x1001, 0, rfl, by decide +kernel⟩)⟩⟩

/-- The hypotheses of DataPortMovesWholeEntries can be met, clause by clause. -/
theorem witness_DataPortMovesWholeEntries :
    (∃ (a : Agent) (v : Nat) (s : State) (u : Nat), v < 2 ^ 16 ∧ s.grants a (pathTo 0x00E) 0x00E 0x4001 0 (toMsb 2 v) = true ∧ s.dpResolve a ((s.ctx a).path.take (s.ctx a).pathLen) v = .ok u)
    ∧ (∃ (a : Agent) (v : Nat) (s : State) (e : Abort), v < 2 ^ 16 ∧ s.grants a (pathTo 0x00E) 0x00E 0x4001 0 (toMsb 2 v) = true ∧ s.dpResolve a ((s.ctx a).path.take (s.ctx a).pathLen) v = .error e)
    ∧ (∃ (a : Agent) (v : Nat) (s : State), v < 2 ^ 32 ∧ s.grants a (pathTo 0x00E) 0x00E 0x4002 0 (toMsb 4 v) = true ∧ s.dpPlace a v (s.ctx a).length = .ok)
    ∧ (∃ (a : Agent) (v : Nat) (s : State), v < 2 ^ 32 ∧ s.grants a (pathTo 0x00E) 0x00E 0x4003 0 (toMsb 4 v) = true ∧ s.dpPlace a v (s.ctx a).offset = .ok)
    ∧ (∃ (a : Agent) (n : Nat) (u : Nat) (i : Nat) (s : State), s.mainUp = true ∧ s.dpReadCheck a n = .ok ∧ (s.ctx a).target = some (u, i) ∧ s.inFlash (u, i) = false)
    ∧ (∃ (a : Agent) (n : Nat) (u : Nat) (i : Nat) (s : State), s.mainUp = true ∧ s.dpReadCheck a n = .ok ∧ (s.ctx a).target = some (u, i) ∧ s.inFlash (u, i) = true)
    ∧ (∃ (a : Agent) (octets : List Octet) (c : Abort) (s : State), s.mainUp = true ∧ (s.awake a).dpWriteCheck a false octets = c ∧ c ≠ .ok)
    ∧ (∃ (a : Agent) (octets : List Octet) (u : Nat) (i : Nat) (s : State), s.mainUp = true ∧ (s.awake a).dpWriteCheck a false octets = .ok ∧ (s.ctx a).target = some (u, i) ∧ ((s.ctx a).joined (s.tableSize (u, i)).1 (min octets.length (s.ctx a).length) octets).1.length < (s.tableSize (u, i)).1)
    ∧ (∃ (a : Agent) (octets : List Octet) (l : List Octet) (e : Nat) (s : State), s.mainUp = true ∧ (s.awake a).dpWriteCheck a false octets = .ok ∧ (s.ctx a).target = some (0x006, 0x6004) ∧ (s.ctx a).joined 16 (min octets.length (s.ctx a).length) octets = (l, e) ∧ l.length = 16 ∧ e < 256 ∧ endpointSetGood s.build (ofLsb l) = true)
    ∧ (∃ (a : Agent) (octets : List Octet) (l : List Octet) (e : Nat) (s : State), s.mainUp = true ∧ (s.awake a).dpWriteCheck a false octets = .ok ∧ (s.ctx a).target = some (0x006, 0x6004) ∧ (s.ctx a).joined 16 (min octets.length (s.ctx a).length) octets = (l, e) ∧ l.length = 16 ∧ e < 256 ∧ endpointSetGood s.build (ofLsb l) = false)
    ∧ (∃ (w : Nat) (width : Nat) (s : State), s.mainUp = true ∧ w < 8 ∧ width ≠ 64)
    ∧ (∃ (w : Nat) (u : Nat) (i : Nat) (s : State), s.mainUp = true ∧ w < 8 ∧ s.dpReadCheck (windowAgent w) 8 = .ok ∧ (s.ctx (windowAgent w)).target = some (u, i) ∧ s.inFlash (u, i) = false)
    ∧ (∃ (w : Nat) (u : Nat) (i : Nat) (s : State), s.mainUp = true ∧ w < 8 ∧ s.dpReadCheck (windowAgent w) 8 = .ok ∧ (s.ctx (windowAgent w)).target = some (u, i) ∧ s.inFlash (u, i) = true)
    ∧ (∃ (w : Nat) (word : Nat) (u : Nat) (i : Nat) (s : State), s.mainUp = true ∧ w < 8 ∧ s.wake.dpWriteCheck (windowAgent w) false (toLsb 8 word) = .ok ∧ (s.ctx (windowAgent w)).target = some (u, i) ∧ ((s.ctx (windowAgent w)).joined (s.tableSize (u, i)).1 (min 8 (s.ctx (windowAgent w)).length) (toLsb 8 word)).1.length < (s.tableSize (u, i)).1) :=
  ⟨⟨(host), (0x6001), (dpPathTo run host 0x008), (0x008), by decide +kernel⟩,
   ⟨(host), (0x6FFF), (dpPathTo run host 0x008), (.noObject), by decide +kernel⟩,
   ⟨(host), (64), (dpAt run host 0x008 0x6001 0 64), by decide +kernel⟩,
   ⟨(host), (64), (dpAt run host 0x008 0x6001 0 0), by decide +kernel⟩,
   ⟨(host), (32), (0x008), (0x6001), (dpAt run host 0x008 0x6001 0 64), by decide +kernel⟩,
   ⟨(host), (64), (0x005), (0x6000), (dpAt nvm host 0x005 0x6000 0 64), by decide +kernel⟩,
   ⟨(host), (List.replicate 8 0), (.modeForbids), (run), by decide +kernel⟩,
   ⟨(host), (List.replicate 8 0), (0x008), (0x6001), (dpAt run host 0x008 0x6001 0 64), by decide +kernel⟩,
   ⟨(host), (toLsb 16 (2 ^ 64)), (toLsb 16 (2 ^ 64)), (0), (dpAt run host 0x006 0x6004 0 16), by decide +kernel⟩,
   ⟨(host), (toLsb 16 (2 ^ 127)), (toLsb 16 (2 ^ 127)), (0), (dpAt run host 0x006 0x6004 0 16), by decide +kernel⟩,
   ⟨(7), (32), (run), by decide +kernel⟩,
   ⟨(0), (0x008), (0x6001), (dpAt run host 0x008 0x6001 0 64), by decide +kernel⟩,
   ⟨(0), (0x005), (0x6000), (dpAt nvm host 0x005 0x6000 0 64), by decide +kernel⟩,
   ⟨(0), (5), (0x008), (0x6001), (dpAt run host 0x008 0x6001 0 64), by decide +kernel⟩⟩

/-- The hypotheses of TableEntriesAreWritten can be met, clause by clause. -/
theorem witness_TableEntriesAreWritten :
    (∃ (a : Agent) (e : Nat) (octets : List Octet) (s : State), s.grantsEntry a 0x008 0x6001 e octets = true ∧ policerGood (ofLsb octets) = true)
    ∧ (∃ (a : Agent) (e : Nat) (octets : List Octet) (s : State), s.grantsEntry a 0x008 0x6001 e octets = true ∧ policerGood (ofLsb octets) = false)
    ∧ (∃ (a : Agent) (q : Nat) (octets : List Octet) (s : State), s.grantsEntry a 0x00A 0x6000 q octets = true ∧ s.queueForbids q (s.qCfg q) (ofLsb octets) = false ∧ queueRange s.build (ofLsb octets) = false)
    ∧ (∃ (a : Agent) (src : Nat) (octets : List Octet) (s : State), s.grantsEntry a 0x002 0x6000 src octets = true ∧ field (ofLsb octets) 48 2 = 0 ∧ field (ofLsb octets) 0 32 = 0)
    ∧ (∃ (a : Agent) (n : Nat) (octets : List Octet) (s : State), s.grantsEntry a 0x00B 0x6001 n octets = true ∧ field (ofLsb octets) 60 2 = 0 ∧ field (ofLsb octets) 48 1 = 0 ∧ field (ofLsb octets) 0 21 = 0 ∧ epPresent s.build (field (ofLsb octets) 49 7) = true ∧ (((ofLsb octets).testBit 63 = true → s.streamTwin n (ofLsb octets) = false)))
    ∧ (∃ (a : Agent) (octets : List Octet) (s : State), (s.ctx a).target ≠ some (0x005, 0x6002) ∧ s.grantsEntry a 0x005 0x6002 0 octets = true ∧ octets.length = 8 ∧ s.regN .atlasBase ≠ 0 ∧ 8 ≤ s.regN .atlasLimit ∧ s.nvmOn = true) :=
  ⟨⟨(host), (1023), (toLsb 32 (10 * 2 ^ 64 + 20 * 2 ^ 96 + 100 * 2 ^ 128 + 200 * 2 ^ 160)), (run), by decide +kernel⟩,
   ⟨(host), (0), (toLsb 32 1), (run), by decide +kernel⟩,
   ⟨(host), (0), (toLsb 32 (2 ^ 62 + 3 * 2 ^ 50 + 3 * 2 ^ 48 + 3 * 2 ^ 46 + 256 * 2 ^ 32 + 5 * 2 ^ 96 + (2048 * 2 ^ 46 + 1024 * 2 ^ 28) * 2 ^ 128)), (run), by decide +kernel⟩,
   ⟨(host), (0), (toLsb 8 (2 ^ 63)), (run), by decide +kernel⟩,
   ⟨(host), (0), (toLsb 16 (2 ^ 63 + 5 * 2 ^ 32)), (run), by decide +kernel⟩,
   ⟨(host), (List.replicate 8 7), (nvm), by decide +kernel⟩⟩

/-- The hypotheses of ScanJobsRunAndEnd can be met, clause by clause. -/
theorem witness_ScanJobsRunAndEnd :
    (∃ (a : Agent) (j : Nat) (octets : List Octet) (s : State), s.grantsEntry a 0x00B 0x6002 j octets = true ∧ jobState (s.job j) ≠ 1 ∧ jobState (s.job j) ≠ 2 ∧ jobOwner (s.job j) = false ∧ jobRange (ofLsb octets) = false ∧ (ofLsb octets).testBit 60 = false)
    ∧ (∃ (a : Agent) (j : Nat) (octets : List Octet) (s : State), s.grantsEntry a 0x00B 0x6002 j octets = true ∧ jobState (s.job j) ≠ 1 ∧ jobState (s.job j) ≠ 2 ∧ jobOwner (s.job j) = false ∧ jobRange (ofLsb octets) = false ∧ (ofLsb octets).testBit 60 = true ∧ jobSourceBad (ofLsb octets) (s.rd 0x005 0x5002 0) .ok = true ∧ jobSource (ofLsb octets) ≠ 2)
    ∧ (∃ (a : Agent) (j : Nat) (octets : List Octet) (s : State), s.grantsEntry a 0x00B 0x6002 j octets = true ∧ jobState (s.job j) ≠ 1 ∧ jobState (s.job j) ≠ 2 ∧ jobOwner (s.job j) = false ∧ jobRange (ofLsb octets) = false ∧ (ofLsb octets).testBit 60 = true ∧ jobSourceBad (ofLsb octets) (s.rd 0x005 0x5002 0) .ok = false ∧ ((jobSource (ofLsb octets) ≠ 2 ∨ (s.holdsLease a 0x00B = true ∧ s.sourceCheck a (ofLsb octets) = .ok))))
    ∧ (∃ (a : Agent) (j : Nat) (octets : List Octet) (s : State), s.grantsEntry a 0x00B 0x6002 j octets = true ∧ ((jobState (s.job j) = 1 ∨ jobState (s.job j) = 2 ∨ jobOwner (s.job j) = true)) ∧ (ofLsb octets).testBit 60 = false)
    ∧ (∃ (a : Agent) (j : Nat) (octets : List Octet) (s : State), s.grantsEntry a 0x00B 0x6002 j octets = true ∧ ((jobState (s.job j) = 1 ∨ jobState (s.job j) = 2 ∨ jobOwner (s.job j) = true)) ∧ (ofLsb octets).testBit 60 = true)
    ∧ (∃ (j : Nat) (n : Nat) (rest : List Nat) (s : State), s.mainUp = true ∧ s.jobQ = j :: rest ∧ s.freeEngine = some n)
    ∧ (∃ (j : Nat) (s : State), s.mainUp = true ∧ j < 4 ∧ jobState (s.job j) = 2 ∧ jobSource (s.job j) = 0 ∧ jobLeft (s.job j) = 0)
    ∧ (∃ (j : Nat) (s : State), s.mainUp = true ∧ j < 4 ∧ jobSource (s.job j) ≠ 0 ∧ s.jobReading j = true)
    ∧ (∃ (j : Nat) (result : Nat) (s : State), s.mainUp = true ∧ j < 4 ∧ result ∈ failResults (jobSource (s.job j)) ∧ s.jobReading j = true)
    ∧ (∃ (a : Agent) (j : Nat) (s : State), j < 4 ∧ s.grants a (pathTo 0x00B) 0x00B 0x7000 0 (toMsb 1 j) = true ∧ ((jobState (s.job j) = 1 ∨ jobState (s.job j) = 2)) ∧ jobOwner (s.job j) = false) :=
  ⟨⟨(host), (3), (toLsb 32 (job 0)), (up), by decide +kernel⟩,
   ⟨(host), (3), (toLsb 32 (job 0 + 2 ^ 60 + (2 ^ 64 - 4) * 2 ^ 64)), (up), by decide +kernel⟩,
   ⟨(host), (3), (toLsb 32 (job 0 + 2 ^ 60)), (up), by decide +kernel⟩,
   ⟨(host), (0), (toLsb 32 (job 0)), (jobbed 1), by decide +kernel⟩,
   ⟨(host), (0), (toLsb 32 (job 0 + 2 ^ 60)), (jobbed 2), by decide +kernel⟩,
   ⟨(0), (1), ([]), ({ jobbed 1 with jobQ := [0] }), by decide +kernel⟩,
   ⟨(0), (up.setEnt 0x00B 0x6002 0 (job 2 + 8 * 2 ^ 224)), by decide +kernel⟩,
   ⟨(0), (nvm.setEnt 0x00B 0x6002 0 (job 2 + 2 ^ 58)), by decide +kernel⟩,
   ⟨(0), (6), (nvm.setEnt 0x00B 0x6002 0 (job 2 + 2 ^ 58)), by decide +kernel⟩,
   ⟨(host), (0), ({ jobbed 1 with jobQ := [0] }), by decide +kernel⟩⟩

/-- The hypotheses of RingsStartStopAndReset can be met, clause by clause. -/
theorem witness_RingsStartStopAndReset :
    (∃ (a : Agent) (u : Nat) (s : State), 0x400 ≤ u ∧ u < 0x4C0 ∧ s.grants a (pathTo u) u 0x7000 0 [] = true ∧ s.ringState u = 2 ∧ ((∀ o ∈ s.ahead, tqUnit o.desc.tq = u → o.failed = none)))
    ∧ (∃ (a : Agent) (u : Nat) (s : State), 0x400 ≤ u ∧ u < 0x4C0 ∧ s.grants a (pathTo u) u 0x7000 0 [] = true ∧ s.ringState u = 4)
    ∧ (∃ (a : Agent) (u : Nat) (s : State), 0x400 ≤ u ∧ u < 0x4C0 ∧ s.grants a (pathTo u) u 0x7001 0 [] = true ∧ ((s.ringState u = 1 ∨ s.ringState u = 2 ∨ s.ringState u = 4)))
    ∧ (∃ (a : Agent) (u : Nat) (s : State), 0x400 ≤ u ∧ u < 0x4C0 ∧ s.grants a (pathTo u) u 0x7002 0 [] = true ∧ ((s.ringState u = 2 ∨ s.ringState u = 4)) ∧ ((0x480 ≤ u → s.stagedOf (u - 0x480) = [] ∧ ∀ n < s.build.rings, (s.cqOf (tqUnit n) = u - 0x480 → s.ringState (tqUnit n) = 2) ∧ (s.cqOf (bqUnit n) = u - 0x480 → s.ringState (bqUnit n) = 2))))
    ∧ (∃ (a : Agent) (u : Nat) (i : Nat) (d : List Octet) (s : State), 0x400 ≤ u ∧ u < 0x4C0 ∧ 0x4000 ≤ i ∧ i < 0x5000 ∧ s.grants a (pathTo u) u i 0 d = true ∧ s.ringState u = 2)
    ∧ (∃ (a : Agent) (u : Nat) (i : Nat) (d : List Octet) (s : State), 0x400 ≤ u ∧ u < 0x4C0 ∧ 0x4000 ≤ i ∧ i < 0x5000 ∧ s.grants a (pathTo u) u i 0 d = true ∧ s.ringState u ≠ 2 ∧ i ≤ 0x4004)
    ∧ (∃ (a : Agent) (u : Nat) (i : Nat) (d : List Octet) (s : State), 0x400 ≤ u ∧ u < 0x4C0 ∧ 0x4000 ≤ i ∧ i < 0x5000 ∧ s.grants a (pathTo u) u i 0 d = true ∧ s.ringState u ≠ 3 ∧ 0x4004 < i) :=
  ⟨⟨(host), (0x400), (tq 2), by decide +kernel⟩,
   ⟨(host), (0x400), (tq 4), by decide +kernel⟩,
   ⟨(host), (0x400), (tq 1), by decide +kernel⟩,
   ⟨(host), (0x480), (up), by decide +kernel⟩,
   ⟨(host), (0x400), (0x4000), (toMsb 8 4096), ((tq 2).wr 0x400 0x5001 0 9), by decide +kernel⟩,
   ⟨(host), (0x480), (0x4004), ([1]), (up.wr 0x480 0x0002 0 1), by decide +kernel⟩,
   ⟨(host), (0x400), (0x4005), ([7]), (tq 1), by decide +kernel⟩⟩

/-- The hypotheses of LiveWritesAreInForceAtOnce can be met, clause by clause. -/
theorem witness_LiveWritesAreInForceAtOnce :
    (∃ (a : Agent) (path : List Nat) (u : Nat) (i : Nat) (k : Nat) (d : List Octet) (r : ObjRow) (kd : UnitKind) (s : State), s.grants a path u i k d = true ∧ s.lookup a u i k = .ok r ∧ r.access = .rw ∧ unitKind? s.build u = some kd ∧ i < 0x5000 ∧ kd ∉ [.lane, .fieldbook, .tq, .bq, .cq, .eq, .dataport])
    ∧ (∃ (a : Agent) (d : List Octet) (s : State), s.grants a (pathTo 0x003) 0x003 0x4000 0 d = true)
    ∧ (∃ (a : Agent) (q : Nat) (i : Nat) (d : List Octet) (s : State), q < 8 ∧ 0x4000 ≤ i ∧ i < 0x5000 ∧ s.grants a (pathTo (eqUnit q)) (eqUnit q) i 0 d = true ∧ ((i = 0x4002 ∨ s.eqOn q = false)))
    ∧ (∃ (a : Agent) (q : Nat) (i : Nat) (d : List Octet) (s : State), q < 8 ∧ 0x4000 ≤ i ∧ i < 0x5000 ∧ s.grants a (pathTo (eqUnit q)) (eqUnit q) i 0 d = true ∧ i ≠ 0x4002 ∧ s.eqOn q = true)
    ∧ (∃ (a : Agent) (slot : Nat) (key : List Octet) (s : State), s.grants a (pathTo 0x012) 0x012 0x9000 slot key = true)
    ∧ (∃ (a : Agent) (slot : Nat) (s : State), slot < 8 ∧ s.grants a (pathTo 0x012) 0x012 0x7000 0 (toMsb 1 slot) = true)
    ∧ (∃ (a : Agent) (path : List Nat) (u : Nat) (mask : Nat) (s : State), mask < 2 ^ 32 ∧ s.grants a path u 0x0006 0 (toMsb 4 mask) = true ∧ u ≠ 0x00D ∧ ((u = 0 → s.remoteMembers = []))) :=
  ⟨⟨(host), (pathTo 0x000), (0x000), (0x4001), (0), (toMsb 2 50), (rowOf 0x000 0x4001 0), (.root), (run), by decide +kernel⟩,
   ⟨(host), (toMsb 8 (2 ^ 35 + 100)), (run), by decide +kernel⟩,
   ⟨(host), (1), (0x4002), ([1]), (run), by decide +kernel⟩,
   ⟨(host), (0), (0x4001), ([6]), (run.wr 0x4C0 0x4002 0 1), by decide +kernel⟩,
   ⟨(host), (7), (toMsb 16 9), (run), by decide +kernel⟩,
   ⟨(host), (7), (run), by decide +kernel⟩,
   ⟨(host), (pathTo 0x200), (0x200), (5), (run.wr 0x200 0x0005 0 7), by decide +kernel⟩⟩

/-- The hypotheses of UnitCommandsAct can be met, clause by clause. -/
theorem witness_UnitCommandsAct :
    (∃ (a : Agent) (lane : Nat) (s : State), s.grants a (pathTo (lnUnit lane)) (lnUnit lane) 0x7000 0 [] = true ∧ lane < s.build.lanes ∧ 2 ≤ s.link lane ∧ s.link lane ≤ 5)
    ∧ (∃ (a : Agent) (lane : Nat) (s : State), s.grants a (pathTo (lnUnit lane)) (lnUnit lane) 0x7000 0 [] = true ∧ lane < s.build.lanes ∧ s.link lane ≤ 1)
    ∧ (∃ (a : Agent) (s : State), s.grants a (pathTo 0x006) 0x006 0x7001 0 [] = true ∧ s.rd 0x006 0x5001 0 = 0)
    ∧ (∃ (a : Agent) (s : State), s.grants a (pathTo 0x006) 0x006 0x7001 0 [] = true ∧ s.rd 0x006 0x5001 0 = 1)
    ∧ (∃ (a : Agent) (s : State), s.grants a (pathTo 0x006) 0x006 0x7001 0 [] = true ∧ 2 ≤ s.rd 0x006 0x5001 0)
    ∧ (∃ (a : Agent) (s : State), s.grants a (pathTo 0x006) 0x006 0x7002 0 [] = true ∧ s.rd 0x006 0x5001 0 = 1)
    ∧ (∃ (a : Agent) (s : State), s.grants a (pathTo 0x006) 0x006 0x7002 0 [] = true ∧ s.rd 0x006 0x5001 0 ≠ 1 ∧ s.canon = true)
    ∧ (∃ (a : Agent) (s : State), s.grants a (pathTo 0x009) 0x009 0x7000 0 [] = true)
    ∧ (∃ (a : Agent) (cause : Nat) (s : State), cause < 2 ^ 16 ∧ s.grants a (pathTo 0x002) 0x002 0x7000 0 (toMsb 2 cause) = true ∧ testable s.build cause = true ∧ sharedSource s.build (sourceOf s.build cause (s.procOf (causeInst cause))) = false ∧ s.srcState (sourceOf s.build cause (s.procOf (causeInst cause))) = 0)
    ∧ (∃ (a : Agent) (cause : Nat) (s : State), cause < 2 ^ 16 ∧ s.grants a (pathTo 0x002) 0x002 0x7000 0 (toMsb 2 cause) = true ∧ testable s.build cause = false)
    ∧ (∃ (a : Agent) (s : State), s.grants a (pathTo 0x003) 0x003 0x7000 0 [] = true ∧ s.timeStep = none)
    ∧ (∃ (a : Agent) (s : State), s.grants a (pathTo 0x003) 0x003 0x7000 0 [] = true ∧ s.timeStep.isSome = true)
    ∧ (∃ (a : Agent) (d : Int) (s : State), -2 ^ 63 ≤ d ∧ d < 2 ^ 63 ∧ s.grants a (pathTo 0x003) 0x003 0x7001 0 (toMsb 8 (unsigned 64 d)) = true ∧ d.natAbs ≤ 2 ^ 40 ∧ s.timeStep = none)
    ∧ (∃ (a : Agent) (d : Int) (s : State), -2 ^ 63 ≤ d ∧ d < 2 ^ 63 ∧ s.grants a (pathTo 0x003) 0x003 0x7001 0 (toMsb 8 (unsigned 64 d)) = true ∧ d.natAbs ≤ 2 ^ 40 ∧ s.timeStep.isSome = true)
    ∧ (∃ (a : Agent) (d : Int) (s : State), -2 ^ 63 ≤ d ∧ d < 2 ^ 63 ∧ s.grants a (pathTo 0x003) 0x003 0x7001 0 (toMsb 8 (unsigned 64 d)) = true ∧ 2 ^ 40 < d.natAbs) :=
  ⟨⟨(host), (0), (up), by decide +kernel⟩,
   ⟨(host), (0), (run), by decide +kernel⟩,
   ⟨(host), (up), by decide +kernel⟩,
   ⟨(host), (up.wr 0x006 0x5001 0 1), by decide +kernel⟩,
   ⟨(host), (up.wr 0x006 0x5001 0 2), by decide +kernel⟩,
   ⟨(host), (up.wr 0x006 0x5001 0 1), by decide +kernel⟩,
   ⟨(host), (up.setEnt 0x006 0x6002 4 5), by decide +kernel⟩,
   ⟨(host), (copy1 up { stored with stub := some 3 } (cp 1 0) |>.setEnt 0x009 0x6000 3 (2 ^ 575)), by decide +kernel⟩,
   ⟨(host), (0xB001), (up), by decide +kernel⟩,
   ⟨(host), (0xFFFF), (up), by decide +kernel⟩,
   ⟨(host), (up), by decide +kernel⟩,
   ⟨(host), ({ up with timeStep := some (host, true, 7) }), by decide +kernel⟩,
   ⟨(host), (-5), (up), by decide +kernel⟩,
   ⟨(host), (-2 ^ 40), ({ up with timeStep := some (host, true, 7) }), by decide +kernel⟩,
   ⟨(host), (2 ^ 40 + 1), (up), by decide +kernel⟩⟩

/-- The hypotheses of RefusedAccessesChangeNothingElse can be met, clause by clause. -/
theorem witness_RefusedAccessesChangeNothingElse :
    (∃ (path : List Nat) (u : Nat) (s : State), s.mainUp = true ∧ s.resolvePath path = .absent u)
    ∧ (∃ (a : Agent) (path : List Nat) (u : Nat) (i : Nat) (k : Nat) (c : Abort) (s : State), s.mainUp = true ∧ s.resolvePath path = .here u ∧ s.lookup a u i k = .error c ∧ c ≠ .ok ∧ c ≠ .leaseHeld)
    ∧ (∃ (a : Agent) (path : List Nat) (u : Nat) (i : Nat) (k : Nat) (r : ObjRow) (kd : UnitKind) (s : State), s.mainUp = true ∧ s.resolvePath path = .here u ∧ s.lookup a u i k = .ok r ∧ unitKind? s.build u = some kd ∧ r.access = .ro)
    ∧ (∃ (a : Agent) (path : List Nat) (u : Nat) (i : Nat) (k : Nat) (r : ObjRow) (kd : UnitKind) (s : State), s.mainUp = true ∧ s.resolvePath path = .here u ∧ s.lookup a u i k = .ok r ∧ unitKind? s.build u = some kd ∧ r.access = .rws ∧ r.type ≠ .table ∧ s.leaseGood a kd u i = false)
    ∧ (∃ (a : Agent) (path : List Nat) (u : Nat) (i : Nat) (k : Nat) (d : List Octet) (r : ObjRow) (kd : UnitKind) (s : State), s.mainUp = true ∧ s.resolvePath path = .here u ∧ s.lookup a u i k = .ok r ∧ unitKind? s.build u = some kd ∧ r.access = .rws ∧ r.type ≠ .table ∧ s.leaseGood a kd u i = true ∧ d.length ≠ r.type.writeSize)
    ∧ (∃ (a : Agent) (path : List Nat) (u : Nat) (i : Nat) (k : Nat) (d : List Octet) (r : ObjRow) (kd : UnitKind) (s : State), s.mainUp = true ∧ s.resolvePath path = .here u ∧ s.lookup a u i k = .ok r ∧ unitKind? s.build u = some kd ∧ r.access = .rws ∧ r.type ≠ .table ∧ s.leaseGood a kd u i = true ∧ d.length = r.type.writeSize ∧ valueGood s.build r (ofMsb d) = false)
    ∧ (∃ (s : State), s.mainUp = true)
    ∧ (∃ (a : Agent) (ch : Nat) (k : Nat) (r : ObjRow) (s : State), s.mainUp = true ∧ s.isChannel ch = true ∧ s.lookup a (chUnit ch) 0x5011 k = .ok r) :=
  ⟨⟨([0x999]), (0), (run), by decide +kernel⟩,
   ⟨(host), (pathTo 0x200), (0x200), (0x1FFF), (0), (.noObject), (run), by decide +kernel⟩,
   ⟨(host), (pathTo 0x200), (0x200), (0x5000), (0), (rowOf 0x200 0x5000 0), (.channel), (run), by decide +kernel⟩,
   ⟨(host), (pathTo 0x200), (0x200), (0x1000), (0), (rowOf 0x200 0x1000 0), (.channel), (leased run 0x200 man), by decide +kernel⟩,
   ⟨(host), (pathTo 0x200), (0x200), (0x1000), (0), ([1, 1]), (rowOf 0x200 0x1000 0), (.channel), (run), by decide +kernel⟩,
   ⟨(host), (pathTo 0x200), (0x200), (0x1000), (0), ([9]), (rowOf 0x200 0x1000 0), (.channel), (run), by decide +kernel⟩,
   ⟨(run), by decide +kernel⟩,
   ⟨(man), (0), (0), (rowOf 0x200 0x5011 0), (run.wr 0x200 0x5011 0 3), by decide +kernel⟩⟩

/-- The hypotheses of MailboxesServeOneRequest can be met, clause by clause. -/
theorem witness_MailboxesServeOneRequest :
    (∃ (p : Nat) (w : MbWords) (s : State), s.mainUp = true ∧ p < 8 ∧ (s.mailbox p).busy = true ∧ w.cmd.testBit 0 = true)
    ∧ (∃ (p : Nat) (s : State), s.mainUp = true ∧ p < 8)
    ∧ (∃ (p : Nat) (u : Nat) (w : MbWords) (s : State), s.mainUp = true ∧ p < 8 ∧ (s.mailbox p).busy = false ∧ w.cmd.testBit 0 = true ∧ mbOp w = 2 ∧ s.resolvePath ((mbPath w).getD []) = .absent u)
    ∧ (∃ (p : Nat) (u : Nat) (w : MbWords) (r : ObjRow) (s : State), s.mainUp = true ∧ p < 8 ∧ (s.mailbox p).busy = false ∧ w.cmd.testBit 0 = true ∧ mbOp w = 1 ∧ s.resolvePath ((mbPath w).getD []) = .here u ∧ s.lookup ⟨.host, p⟩ u (mbIndex w) (mbSub w) = .ok r ∧ r.access ≠ .wo ∧ r.type ≠ .table ∧ forwarded u (mbIndex w) = false ∧ u ≠ 0x00E)
    ∧ (∃ (p : Nat) (u : Nat) (w : MbWords) (r : ObjRow) (s : State), s.mainUp = true ∧ p < 8 ∧ (s.mailbox p).busy = false ∧ w.cmd.testBit 0 = true ∧ mbOp w = 2 ∧ s.resolvePath ((mbPath w).getD []) = .here u ∧ s.grants ⟨.host, p⟩ ((mbPath w).getD []) u (mbIndex w) (mbSub w) (turnFields (fieldsOf u (mbIndex w) (mbSub w) false) (mbData w)) = true ∧ s.lookup ⟨.host, p⟩ u (mbIndex w) (mbSub w) = .ok r ∧ r.access = .rws ∧ s.stageBusy u = false ∧ ¬(u = 0x00D ∧ mbIndex w = 0x1000))
    ∧ (∃ (p : Nat) (s : State), s.mainUp = true ∧ (s.mailbox p).busy = true ∧ (s.mailbox p).ready = true)
    ∧ (∃ (p : Nat) (s : State), (((s.mailbox p).busy = false ∨ (s.mailbox p).ready = false))) :=
  ⟨⟨(7), (mb 1 0x200 0x5000 0 1 0), (busy false), by decide +kernel⟩,
   ⟨(7), (busy false), by decide +kernel⟩,
   ⟨(0), (0), (⟨9, 0, 0, 0, 0⟩), (up), by decide +kernel⟩,
   ⟨(0), (0x200), (mb 1 0x200 0x5000 0 1 0), (rowOf 0x200 0x5000 0), (up), by decide +kernel⟩,
   ⟨(0), (0x200), (mb 2 0x200 0x1000 0 1 1), (rowOf 0x200 0x1000 0), (up), by decide +kernel⟩,
   ⟨(7), (busy true), by decide +kernel⟩,
   ⟨(7), (busy false), by decide +kernel⟩⟩

/-- The hypotheses of FieldRequestsAreCheckedAndAnswered can be met, clause by clause. -/
theorem witness_FieldRequestsAreCheckedAndAnswered :
    (∃ (ch : Nat) (frame : List Octet) (s : State), s.mainUp = true ∧ s.running = true ∧ s.isChannel ch = true ∧ s.isAccess ch frame = true ∧ pduVer (pduOf frame) ≠ 1)
    ∧ (∃ (ch : Nat) (frame : List Octet) (s : State), s.mainUp = true ∧ s.running = true ∧ s.isChannel ch = true ∧ s.isAccess ch frame = true ∧ pduVer (pduOf frame) = 1 ∧ pduKind (pduOf frame) ≠ 0)
    ∧ (∃ (ch : Nat) (frame : List Octet) (s : State), s.mainUp = true ∧ s.running = true ∧ s.isChannel ch = true ∧ s.isAccess ch frame = true ∧ pduVer (pduOf frame) = 1 ∧ pduKind (pduOf frame) = 0 ∧ 8 ≤ s.accessQ.length)
    ∧ (∃ (ch : Nat) (frame : List Octet) (s : State), s.mainUp = true ∧ s.running = true ∧ s.isChannel ch = true ∧ s.isAccess ch frame = true ∧ pduVer (pduOf frame) = 1 ∧ pduKind (pduOf frame) = 0 ∧ s.accessQ.length < 8 ∧ ((∃ r rest, s.accessQ = r :: rest ∧ r.started = true)))
    ∧ (∃ (ch : Nat) (frame : List Octet) (s : State), s.mainUp = true ∧ s.running = true ∧ s.isChannel ch = true ∧ s.isAccess ch frame = true ∧ pduVer (pduOf frame) = 1 ∧ pduKind (pduOf frame) = 0 ∧ s.accessQ = [] ∧ s.tagGood (pduOf frame) = false ∧ s.timer (.tagRate ch) = none)
    ∧ (∃ (ch : Nat) (frame : List Octet) (s : State), s.mainUp = true ∧ s.running = true ∧ s.isChannel ch = true ∧ s.isAccess ch frame = true ∧ pduVer (pduOf frame) = 1 ∧ pduKind (pduOf frame) = 0 ∧ s.accessQ = [] ∧ s.tagGood (pduOf frame) = false ∧ (s.timer (.tagRate ch)).isSome)
    ∧ (∃ (ch : Nat) (frame : List Octet) (s : State), s.mainUp = true ∧ s.running = true ∧ s.isChannel ch = true ∧ s.isAccess ch frame = true ∧ pduVer (pduOf frame) = 1 ∧ pduKind (pduOf frame) = 0 ∧ s.accessQ = [] ∧ s.tagGood (pduOf frame) = true ∧ pduOp (pduOf frame) = 3)
    ∧ (∃ (ch : Nat) (frame : List Octet) (s : State), s.mainUp = true ∧ s.running = true ∧ s.isChannel ch = true ∧ s.isAccess ch frame = true ∧ pduVer (pduOf frame) = 1 ∧ pduKind (pduOf frame) = 0 ∧ s.accessQ = [] ∧ s.tagGood (pduOf frame) = true ∧ pduOp (pduOf frame) ≠ 3 ∧ s.fresh (pduKey (pduOf frame)) (pduSeq (pduOf frame)) = false)
    ∧ (∃ (ch : Nat) (u : Nat) (frame : List Octet) (r : ObjRow) (s : State), s.mainUp = true ∧ s.running = true ∧ s.isChannel ch = true ∧ s.isAccess ch frame = true ∧ pduVer (pduOf frame) = 1 ∧ pduKind (pduOf frame) = 0 ∧ s.accessQ = [] ∧ s.tagGood (pduOf frame) = true ∧ s.fresh (pduKey (pduOf frame)) (pduSeq (pduOf frame)) = true ∧ s.resolvePath (pduRequest (pduOf frame)).path = .here u ∧ u ≠ 0x00E ∧ pduOp (pduOf frame) = 1 ∧ s.lookup ⟨.manager, pduKey (pduOf frame)⟩ u (pduRequest (pduOf frame)).index (pduRequest (pduOf frame)).sub = .ok r ∧ r.access ≠ .wo ∧ r.type ≠ .table ∧ forwarded u (pduRequest (pduOf frame)).index = false ∧ pduLength (pduOf frame) = r.type.size)
    ∧ (∃ (ch : Nat) (u : Nat) (frame : List Octet) (r : ObjRow) (s : State), s.mainUp = true ∧ s.running = true ∧ s.isChannel ch = true ∧ s.isAccess ch frame = true ∧ pduVer (pduOf frame) = 1 ∧ pduKind (pduOf frame) = 0 ∧ s.accessQ = [] ∧ s.tagGood (pduOf frame) = true ∧ s.fresh (pduKey (pduOf frame)) (pduSeq (pduOf frame)) = true ∧ s.resolvePath (pduRequest (pduOf frame)).path = .here u ∧ u ≠ 0x00E ∧ pduOp (pduOf frame) = 2 ∧ s.lookup ⟨.manager, pduKey (pduOf frame)⟩ u (pduRequest (pduOf frame)).index (pduRequest (pduOf frame)).sub = .ok r ∧ r.access = .rws ∧ s.grants ⟨.manager, pduKey (pduOf frame)⟩ (pduRequest (pduOf frame)).path u (pduRequest (pduOf frame)).index (pduRequest (pduOf frame)).sub (pduRequest (pduOf frame)).data = true ∧ s.stageBusy u = false ∧ ¬(u = 0x00D ∧ (pduRequest (pduOf frame)).index = 0x1000))
    ∧ (∃ (r : Response) (rest : List Response) (s : State) (tg : Target), s.mainUp = true ∧ s.running = true ∧ s.responses = r :: rest ∧ s.accessQ = [] ∧ s.targetOf r.ch false 0 = some tg ∧ s.chUp tg.ep = false ∧ s.regN .requestHeld = 0)
    ∧ (∃ (r : Response) (rest : List Response) (s : State), s.mainUp = true ∧ s.running = true ∧ s.responses = r :: rest ∧ s.accessQ = [] ∧ s.targetOf r.ch false 0 = none ∧ s.regN .requestHeld = 0)
    ∧ (∃ (r : Response) (rest : List Response) (s : State) (tg : Target), s.mainUp = true ∧ s.running = true ∧ s.responses = r :: rest ∧ s.accessQ = [] ∧ s.targetOf r.ch false 0 = some tg ∧ s.chUp tg.ep = true ∧ s.epOccupancy Config.noEp + ceilDiv (r.octets.length + 4) 64 ≤ s.internalLimit) :=
  ⟨⟨(0), (inFrame (0x20 :: (pdu 1 seq1 0x200 0x5000 0 1 []).drop 1)), (field1), by decide +kernel⟩,
   ⟨(0), (inFrame (0x11 :: (pdu 1 seq1 0x200 0x5000 0 1 []).drop 1)), (field1), by decide +kernel⟩,
   ⟨(0), (inFrame (pdu 1 seq1 0x200 0x5000 0 1 [])), ({ field1 with accessQ := List.replicate 8 waitReq }), by decide +kernel⟩,
   ⟨(0), (inFrame (pdu 1 seq1 0x200 0x5000 0 1 [])), ({ field1 with accessQ := [waitReq] }), by and_intros <;> first | decide +kernel | exact ⟨waitReq, [], rfl, rfl⟩⟩,
   ⟨(0), (inFrame ((pduHead 1 1 seq1 0x5000 0 1 (pathTo 0x200) ++ List.replicate 8 0) ++ [1])), (field1), by decide +kernel⟩,
   ⟨(0), (inFrame ((pduHead 1 1 seq1 0x5000 0 1 (pathTo 0x200) ++ List.replicate 8 0) ++ [1])), (field1.startTimer (.tagRate 0) 0), by decide +kernel⟩,
   ⟨(0), (inFrame (pdu 3 0 0x200 0x5000 0 0 [])), (field1), by decide +kernel⟩,
   ⟨(0), (inFrame (pdu 2 0 0x200 0x1000 0 1 [1])), (field1.wr 0x012 0x5001 0 1), by decide +kernel⟩,
   ⟨(0), (0x200), (inFrame (pdu 1 seq1 0x200 0x5000 0 1 [])), (rowOf 0x200 0x5000 0), (field1), by decide +kernel⟩,
   ⟨(0), (0x200), (inFrame (pdu 2 seq1 0x200 0x1000 0 1 [1])), (rowOf 0x200 0x1000 0), (field1), by decide +kernel⟩,
   ⟨(⟨0, whole⟩), ([]), ({ run with responses := [⟨0, whole⟩] }), (⟨0, none, false⟩), by decide +kernel⟩,
   ⟨(⟨0, whole⟩), ([]), ({ fab with responses := [⟨0, whole⟩] }), by decide +kernel⟩,
   ⟨(⟨0, whole⟩), ([]), ({ up with responses := [⟨0, whole⟩] }), (⟨0, none, false⟩), by decide +kernel⟩⟩

/-- The hypotheses of RelaysAreAnsweredOrTimeOut can be met, clause by clause. -/
theorem witness_RelaysAreAnsweredOrTimeOut :
    (∃ (ch : Nat) (frame : List Octet) (s : State), s.mainUp = true ∧ s.running = true ∧ s.fabricLink ch = true ∧ s.fabFate frame = .ownControl ∧ ((octet (controlOf frame) 0 = 0 ∨ 5 < octet (controlOf frame) 0)))
    ∧ (∃ (ch : Nat) (frame : List Octet) (s : State), s.mainUp = true ∧ s.running = true ∧ s.fabricLink ch = true ∧ s.fabFate frame = .ownControl ∧ octet (controlOf frame) 0 = 4 ∧ (((octet (controlOf frame) 6 = 2 ∧ s.role ≠ 3) ∨ 3 < octet (controlOf frame) 6)))
    ∧ (∃ (ch : Nat) (frame : List Octet) (s : State), s.mainUp = true ∧ s.running = true ∧ s.fabricLink ch = true ∧ s.fabFate frame = .ownControl ∧ octet (controlOf frame) 0 = 5 ∧ ((∀ r ∈ s.relays, r.tag ≠ be16 (controlOf frame) 4)))
    ∧ (∃ (ch : Nat) (u : Nat) (frame : List Octet) (q : Request) (r : ObjRow) (s : State), s.mainUp = true ∧ s.running = true ∧ s.fabricLink ch = true ∧ s.fabFate frame = .ownControl ∧ octet (controlOf frame) 0 = 4 ∧ q = pduRequest (relayPdu (controlOf frame)) ∧ s.resolvePath q.path = .here u ∧ u ≠ 0x00E ∧ octet (controlOf frame) 6 = 1 ∧ pduOp (relayPdu (controlOf frame)) = 1 ∧ s.lookup ⟨.host, 0⟩ u q.index q.sub = .ok r ∧ r.access ≠ .wo ∧ r.type ≠ .table ∧ forwarded u q.index = false)
    ∧ (∃ (ch : Nat) (u : Nat) (frame : List Octet) (q : Request) (r : ObjRow) (s : State), s.mainUp = true ∧ s.running = true ∧ s.fabricLink ch = true ∧ s.fabFate frame = .ownControl ∧ octet (controlOf frame) 0 = 4 ∧ q = pduRequest (relayPdu (controlOf frame)) ∧ s.resolvePath q.path = .here u ∧ u ≠ 0x00E ∧ octet (controlOf frame) 6 = 3 ∧ pduOp (relayPdu (controlOf frame)) = 2 ∧ s.role = 2 ∧ fabSrc frame = s.rd 0x00D 0x5004 0 ∧ s.lookup ⟨.fabric, octet (controlOf frame) 7 % 8⟩ u q.index q.sub = .ok r ∧ r.access = .rws ∧ s.grants ⟨.fabric, octet (controlOf frame) 7 % 8⟩ q.path u q.index q.sub q.data = true ∧ s.stageBusy u = false ∧ ¬(u = 0x00D ∧ q.index = 0x1000))
    ∧ (∃ (ch : Nat) (ch' : Nat) (key : Nat) (frame : List Octet) (frame' : List Octet) (tag : Nat) (s : State), s.mainUp = true ∧ s.running = true ∧ s.fabricLink ch = true ∧ s.fabFate frame = .ownControl ∧ octet (controlOf frame) 0 = 5 ∧ s.groupCmds = [] ∧ s.accessQ = [] ∧ s.relays.find? (fun r => r.tag = be16 (controlOf frame) 4) = some ⟨tag, .manager ch' frame' key⟩)
    ∧ (∃ (tag : Nat) (ch : Nat) (key : Nat) (frame : List Octet) (s : State), s.mainUp = true ∧ s.groupCmds = [] ∧ s.accessQ = [] ∧ s.relays.find? (fun r => r.tag = tag) = some ⟨tag, .manager ch frame key⟩)
    ∧ (∃ (tag : Nat) (id : Nat) (ftag : Nat) (pdu : List Octet) (s : State), s.mainUp = true ∧ s.relays.find? (fun r => r.tag = tag) = some ⟨tag, .member id ftag pdu⟩)
    ∧ (∃ (tag : Nat) (s : State), ((∀ r ∈ s.relays, r.tag ≠ tag))) :=
  ⟨⟨(0), (fabFrame 2 1 [6, 0, 0, 0]), (member), by decide +kernel⟩,
   ⟨(0), (fabFrame 2 1 (relayB 4 4 1 (pduHead 1 1 0 0x5000 0 1 (pathTo 0x200)))), (member), by decide +kernel⟩,
   ⟨(0), (fabFrame 2 1 (relayB 5 1 1 (pduHead 1 1 0 0x5000 0 1 (pathTo 0x200)))), (member), by decide +kernel⟩,
   ⟨(0), (0x200), (fabFrame 2 1 (relayB 4 1 1 (pduHead 1 1 0 0x5000 0 1 (pathTo 0x200)))), (pduRequest (pduHead 1 1 0 0x5000 0 1 (pathTo 0x200))), (rowOf 0x200 0x5000 0), (member), by decide +kernel⟩,
   ⟨(0), (0x200), (fabFrame 2 1 (relayB 4 3 1 (pduHead 2 1 0 0x1000 0 1 (pathTo 0x200) ++ [1]))), (pduRequest (pduHead 2 1 0 0x1000 0 1 (pathTo 0x200) ++ [1])), (rowOf 0x200 0x1000 0), (member.wr 0x00D 0x5001 0 2), by decide +kernel⟩,
   ⟨(0), (0), (9), (fabFrame 2 1 (relayB 5 1 1 (responsePdu (pduHead 1 1 0 0x5000 0 1 (pathTo 0x200)) 0 [5]))), (inFrame (pdu 1 seq1 0x200 0x5000 0 1 [])), (5), ({ { member with keys := [(1, 9)] } with relays := [⟨5, .manager 0 (inFrame (pdu 1 seq1 0x200 0x5000 0 1 [])) 9⟩] }), by decide +kernel⟩,
   ⟨(5), (0), (9), (inFrame (pdu 1 seq1 0x200 0x5000 0 1 [])), ({ field1 with relays := [⟨5, .manager 0 (inFrame (pdu 1 seq1 0x200 0x5000 0 1 [])) 9⟩] }), by decide +kernel⟩,
   ⟨(5), (3), (1), ([]), ({ member with relays := [⟨5, .member 3 1 []⟩] }), by decide +kernel⟩,
   ⟨(5), (member), by decide +kernel⟩⟩

/-- The hypotheses of HellosMakeAndLoseNeighbours can be met, clause by clause. -/
theorem witness_HellosMakeAndLoseNeighbours :
    (∃ (ch : Nat) (frame : List Octet) (s : State), s.mainUp = true ∧ s.running = true ∧ s.fabricLink ch = true ∧ fabType frame = 2 ∧ fabDst frame = 0 ∧ ((octet (controlOf frame) 0 = 0 ∨ 5 < octet (controlOf frame) 0)))
    ∧ (∃ (ch : Nat) (frame : List Octet) (s : State), s.mainUp = true ∧ s.running = true ∧ s.fabricLink ch = true ∧ fabType frame = 2 ∧ fabDst frame = 0 ∧ octet (controlOf frame) 0 = 1 ∧ s.nbState (laneOf ch) = 0)
    ∧ (∃ (lane : Nat) (s : State), s.mainUp = true ∧ (s.timer (.dead lane)).isSome ∧ s.nbState lane ≠ 0)
    ∧ (∃ (s : State), s.mainUp = true ∧ (s.timer .hello).isSome ∧ s.fabricLanes = [])
    ∧ (∃ (s : State) (lane : Nat), s.mainUp = true ∧ (s.timer .hello).isSome ∧ s.fabricLanes = [lane] ∧ s.running = true ∧ s.epOccupancy Config.noEp + 1 ≤ s.internalLimit)
    ∧ (∃ (ch : Nat) (frame : List Octet) (l : Lsa) (s : State), s.mainUp = true ∧ s.running = true ∧ s.fabricLink ch = true ∧ fabType frame = 2 ∧ fabDst frame = 0 ∧ octet (controlOf frame) 0 = 2 ∧ l = parseLsa (controlOf frame) ∧ l.origin ≠ s.serial ∧ ((∀ x ∈ s.lsas, x.origin = l.origin → newer32 l.seq x.seq = true)))
    ∧ (∃ (ch : Nat) (frame : List Octet) (l : Lsa) (s : State) (lane : Nat), s.mainUp = true ∧ s.running = true ∧ s.fabricLink ch = true ∧ fabType frame = 2 ∧ fabDst frame = 0 ∧ octet (controlOf frame) 0 = 2 ∧ l = parseLsa (controlOf frame) ∧ l.origin ≠ s.serial ∧ ((∀ x ∈ s.lsas, x.origin = l.origin → newer32 l.seq x.seq = true)) ∧ s.twoWay.filter (fun x => some x ≠ some (laneOf ch)) = [lane] ∧ s.fabricLink (4 * lane) = true ∧ s.epOccupancy Config.noEp + 4 ≤ s.internalLimit)
    ∧ (∃ (ch : Nat) (frame : List Octet) (l : Lsa) (s : State), s.mainUp = true ∧ s.running = true ∧ s.fabricLink ch = true ∧ fabType frame = 2 ∧ fabDst frame = 0 ∧ octet (controlOf frame) 0 = 2 ∧ l = parseLsa (controlOf frame) ∧ l.origin ≠ s.serial ∧ ((∃ x, s.lsas.find? (fun x => x.origin = l.origin) = some x ∧ newer32 l.seq x.seq = false)))
    ∧ (∃ (ch : Nat) (frame : List Octet) (l : Lsa) (s : State), s.mainUp = true ∧ s.running = true ∧ s.fabricLink ch = true ∧ fabType frame = 2 ∧ fabDst frame = 0 ∧ octet (controlOf frame) 0 = 2 ∧ l = parseLsa (controlOf frame) ∧ l.origin = s.serial ∧ ((l.seq = s.regN .lsaSeq ∨ newer32 l.seq (s.regN .lsaSeq) = true)))
    ∧ (∃ (s : State), s.mainUp = true ∧ s.fabricOn = true ∧ (s.timer .lsaRefresh).isSome)
    ∧ (∃ (lane : Nat) (s : State), s.mainUp = true ∧ s.running = true ∧ s.fabricOn = true ∧ (s.timer .lsaRefresh).isSome ∧ s.twoWay = [lane] ∧ s.fabricLink (4 * lane) = true ∧ s.epOccupancy Config.noEp + 4 ≤ s.internalLimit)
    ∧ (∃ (origin : Nat) (s : State), s.mainUp = true ∧ (s.timer (.lsaAge origin)).isSome) :=
  ⟨⟨(0), (fabFrame 2 0 [6, 0, 0, 0]), (fab), by decide +kernel⟩,
   ⟨(0), (fabFrame 2 0 (helloB 5)), (fab), by decide +kernel⟩,
   ⟨(0), (twoWay), by decide +kernel⟩,
   ⟨(up.startTimer .hello 0), by decide +kernel⟩,
   ⟨(fab.startTimer .hello 0), (0), by decide +kernel⟩,
   ⟨(0), (fabFrame 2 0 (lsaB 5 9)), (lsa 5 9), ({ fab with lsas := [lsa 5 8] }), by decide +kernel⟩,
   ⟨(4), (fabFrame 2 0 (lsaB 5 9)), (lsa 5 9), (fab2), (0), by decide +kernel⟩,
   ⟨(0), (fabFrame 2 0 (lsaB 5 9)), (lsa 5 9), ({ fab with lsas := [lsa 5 9] }), by decide +kernel⟩,
   ⟨(0), (fabFrame 2 0 (lsaB fab.serial 9)), (lsa fab.serial 9), (fab), by decide +kernel⟩,
   ⟨(fab.startTimer .lsaRefresh 0), by decide +kernel⟩,
   ⟨(0), (twoWay.startTimer .lsaRefresh 0), by decide +kernel⟩,
   ⟨(5), ({ fab with lsas := [lsa 5 9] }.startTimer (.lsaAge 5) 0), by decide +kernel⟩⟩

/-- The hypotheses of RoutesAndIdsFollowTheRoot can be met, clause by clause. -/
theorem witness_RoutesAndIdsFollowTheRoot :
    (∃ (s : State), s.mainUp = true ∧ s.role ≠ 3 ∧ ((s.role = 2 → s.reachable s.rootSerial = true)))
    ∧ (∃ (ch : Nat) (frame : List Octet) (s : State), s.mainUp = true ∧ s.running = true ∧ s.fabricLink ch = true ∧ fabType frame = 2 ∧ fabDst frame = 0 ∧ octet (controlOf frame) 0 = 3 ∧ s.role = 2 ∧ octet (controlOf frame) 13 = 128 ∧ beN (controlOf frame) 4 8 = s.rootSerial ∧ ((s.assigns = [] ∨ newer32 (beN (controlOf frame) 14 4) (s.rd 0x00D 0x5006 0) = true)))
    ∧ (∃ (ch : Nat) (frame : List Octet) (s : State), s.mainUp = true ∧ s.running = true ∧ s.fabricLink ch = true ∧ fabType frame = 2 ∧ fabDst frame = 0 ∧ octet (controlOf frame) 0 = 3 ∧ (s.role = 1 ∨ s.role = 2) ∧ octet (controlOf frame) 13 = 0)
    ∧ (∃ (ch : Nat) (frame : List Octet) (s : State), s.mainUp = true ∧ s.running = true ∧ s.fabricLink ch = true ∧ fabType frame = 2 ∧ fabDst frame = 0 ∧ octet (controlOf frame) 0 = 3 ∧ s.role = 3)
    ∧ (∃ (s : State), s.mainUp = true ∧ s.role = 3 ∧ (s.timer .assignRefresh).isSome)
    ∧ (∃ (lane : Nat) (b : List Octet) (s : State), s.mainUp = true ∧ s.running = true ∧ s.role = 3 ∧ (s.timer .assignRefresh).isSome ∧ s.twoWay = [lane] ∧ s.fabricLink (4 * lane) = true ∧ assignChunks (s.tableInForce s.serial s.ownPrio) 4 0 s.assigns = [b] ∧ s.epOccupancy Config.noEp + 11 ≤ s.internalLimit)
    ∧ (∃ (serial : Nat) (s : State), s.mainUp = true ∧ (s.timer (.duplicate serial)).isSome ∧ ((s.role ≠ 3 ∨ s.assigns.any (fun a => a.serial = serial && a.duplicate) = false)))
    ∧ (∃ (serial : Nat) (s : State), s.mainUp = true ∧ (s.timer (.duplicate serial)).isSome ∧ s.role = 3 ∧ s.assigns.any (fun a => a.serial = serial && a.duplicate) = true) :=
  ⟨⟨(fab), by decide +kernel⟩,
   ⟨(0), (fabFrame 2 0 (assignB 5 128 3)), ((fab.wr 0x00D 0x5001 0 2).wr 0x00D 0x5003 0 5), by decide +kernel⟩,
   ⟨(0), (fabFrame 2 0 (assignB 5 0 3)), (fab), by decide +kernel⟩,
   ⟨(0), (fabFrame 2 0 (assignB 5 128 3)), (fab.wr 0x00D 0x5001 0 3), by decide +kernel⟩,
   ⟨((fab.wr 0x00D 0x5001 0 3).startTimer .assignRefresh 0), by decide +kernel⟩,
   ⟨(0), (((assignChunks (twoWay.tableInForce twoWay.serial twoWay.ownPrio) 4 0 [⟨twoWay.serial, 1, true, false, 0⟩]).getD 0 [])), ({ twoWay.wr 0x00D 0x5001 0 3 with assigns := [⟨twoWay.serial, 1, true, false, 0⟩] }.startTimer .assignRefresh 0), by decide +kernel⟩,
   ⟨(5), (fab.startTimer (.duplicate 5) 0), by decide +kernel⟩,
   ⟨(5), ({ fab.wr 0x00D 0x5001 0 3 with assigns := [⟨5, 2, true, true, 0⟩] }.startTimer (.duplicate 5) 0), by decide +kernel⟩⟩

/-- The hypotheses of EventQueuesDeliverAndComplete can be met, clause by clause. -/
theorem witness_EventQueuesDeliverAndComplete :
    (∃ (p : Nat) (s : State), s.mainUp = true ∧ p < 8 ∧ s.regN (.eqWrite p) = 1 ∧ s.eqHeld p = true)
    ∧ (∃ (p : Nat) (s : State), s.mainUp = true ∧ p < 8 ∧ s.regN (.eqWrite p) ≠ 1 ∧ ((s.eqOn p = false ∨ s.candidate p = none)))
    ∧ (∃ (p : Nat) (s : State) (src : Nat), s.mainUp = true ∧ p < 8 ∧ s.regN (.eqWrite p) ≠ 1 ∧ s.eqOn p = true ∧ s.candidate p = some src ∧ s.eqFull p = true)
    ∧ (∃ (p : Nat) (s : State) (src : Nat), s.mainUp = true ∧ p < 8 ∧ s.regN (.eqWrite p) ≠ 1 ∧ s.eqOn p = true ∧ s.candidate p = some src ∧ s.eqFull p = false)
    ∧ (∃ (p : Nat) (word : Nat) (width64 : Bool) (s : State), s.mainUp = true ∧ p < 8 ∧ ((width64 = false ∨ completeRsvd word = true ∧ s.wake.blockFree ⟨p, false, word⟩ = true)))
    ∧ (∃ (p : Nat) (word : Nat) (head : Nat) (s : State), s.mainUp = true ∧ p < 8 ∧ completeRsvd word = false ∧ word.testBit 17 = true ∧ s.wake.blockFree ⟨p, false, word⟩ = true ∧ word.testBit 16 = false ∧ head = field word 32 13 ∧ head < 2 * s.ringN (eqUnit p) ∧ s.posDiff (eqUnit p) head (s.rd (eqUnit p) 0x5001 0) ≤ s.posDiff (eqUnit p) (s.rd (eqUnit p) 0x5000 0) (s.rd (eqUnit p) 0x5001 0))
    ∧ (∃ (p : Nat) (word : Nat) (head : Nat) (s : State), s.mainUp = true ∧ p < 8 ∧ completeRsvd word = false ∧ word.testBit 17 = true ∧ s.wake.blockFree ⟨p, false, word⟩ = true ∧ word.testBit 16 = false ∧ head = field word 32 13 ∧ ((2 * s.ringN (eqUnit p) ≤ head ∨ s.posDiff (eqUnit p) (s.rd (eqUnit p) 0x5000 0) (s.rd (eqUnit p) 0x5001 0) < s.posDiff (eqUnit p) head (s.rd (eqUnit p) 0x5001 0))))
    ∧ (∃ (p : Nat) (word : Nat) (src : Nat) (s : State) (i : StackItem), s.mainUp = true ∧ p < 8 ∧ completeRsvd word = false ∧ word.testBit 17 = false ∧ s.wake.blockFree ⟨p, false, word⟩ = true ∧ word.testBit 16 = true ∧ src = field word 0 9 ∧ s.levels.find? (fun i => i.proc = p && i.src = src) = some i)
    ∧ (∃ (p : Nat) (word : Nat) (src : Nat) (s : State), s.mainUp = true ∧ p < 8 ∧ completeRsvd word = false ∧ word.testBit 17 = false ∧ s.wake.blockFree ⟨p, false, word⟩ = true ∧ word.testBit 16 = true ∧ src = field word 0 9 ∧ ((∀ i ∈ s.levels, i.proc = p → i.src ≠ src)))
    ∧ (∃ (p : Nat) (s : State), s.mainUp = true ∧ p < 8)
    ∧ (∃ (p : Nat) (word : Nat) (s : State), s.mainUp = true ∧ p < 8 ∧ word.testBit 31 = true ∧ word.testBit 7 = false ∧ field word 16 9 < s.build.sources ∧ s.wake.blockFree ⟨p, true, word⟩ = true)
    ∧ (∃ (p : Nat) (word : Nat) (s : State), s.mainUp = true ∧ p < 8 ∧ word.testBit 31 = false ∧ word.testBit 7 = true ∧ s.wake.blockFree ⟨p, true, word⟩ = true)
    ∧ (∃ (p : Nat) (word : Nat) (s : State), s.mainUp = true ∧ p < 8 ∧ word.testBit 31 = true ∧ word.testBit 7 = true ∧ field word 16 9 < s.build.sources ∧ s.wake.blockFree ⟨p, true, word⟩ = true)
    ∧ (∃ (p : Nat) (word : Nat) (s : State), s.mainUp = true ∧ p < 8 ∧ s.wake.blockFree ⟨p, true, word⟩ = false) :=
  ⟨⟨(2), ((event.wr 0x4C2 0x5000 0 16).setReg (.eqWrite 2) 1), by decide +kernel⟩,
   ⟨(7), (up), by decide +kernel⟩,
   ⟨(2), (event.wr 0x4C2 0x5000 0 16), (0x100), by decide +kernel⟩,
   ⟨(2), (event), (0x100), by decide +kernel⟩,
   ⟨(7), (2 ^ 63), (true), (up), by decide +kernel⟩,
   ⟨(2), (2 ^ 17 + 3 * 2 ^ 32), (3), (event.wr 0x4C2 0x5000 0 3), by decide +kernel⟩,
   ⟨(2), (2 ^ 17 + 32 * 2 ^ 32), (32), (event), by decide +kernel⟩,
   ⟨(2), (2 ^ 16 + 0x100), (0x100), ({ event with levels := [⟨2, 0x100, 5⟩] }), (⟨2, 0x100, 5⟩), by decide +kernel⟩,
   ⟨(2), (2 ^ 16 + 0x100), (0x100), (event), by decide +kernel⟩,
   ⟨(7), (up), by decide +kernel⟩,
   ⟨(7), (2 ^ 31 + 2 ^ 30 + 5 * 2 ^ 16), (up), by decide +kernel⟩,
   ⟨(7), (2 ^ 7 + 3), (up), by decide +kernel⟩,
   ⟨(7), (2 ^ 31 + 2 ^ 7), (up), by decide +kernel⟩,
   ⟨(7), (2 ^ 7), ({ up with blockWait := [⟨7, true, 0⟩] }), by decide +kernel⟩⟩

/-- The hypotheses of FreezesHoldTheBook can be met, clause by clause. -/
theorem witness_FreezesHoldTheBook :
    (∃ (a : Agent) (s : State), s.grants a (pathTo 0x004) 0x004 0x4000 0 [1] = true)
    ∧ (∃ (a : Agent) (s : State), s.grants a (pathTo 0x004) 0x004 0x4000 0 [0] = true)
    ∧ (∃ (s : State), s.timer .freezeLimit = none)
    ∧ (∃ (s : State), (s.timer .freezeLimit).isSome = true)
    ∧ (∃ (s : State), s.snowdropUp = true ∧ s.regN .pfailLow = 1)
    ∧ (∃ (s : State), s.snowdropUp = true ∧ s.regN .pfailLow ≠ 1 ∧ s.mainUp = false)
    ∧ (∃ (s : State), s.snowdropUp = true ∧ s.regN .pfailLow ≠ 1 ∧ s.mainUp = true)
    ∧ (∃ (s : State) (x : Nat) (l : List Octet), s.snowdropUp = true ∧ s.regN .pfailLow ≠ 1 ∧ s.mainUp = true ∧ s.monUp = false ∧ s.regN .nvmBegun = 1 ∧ s.regN .progCount = 0 ∧ s.nvmQ.head? = some (.image none x l))
    ∧ (∃ (s : State) (sec : Nat), s.snowdropUp = true ∧ s.regN .pfailLow ≠ 1 ∧ s.mainUp = true ∧ s.monUp = false ∧ s.regN .nvmBegun = 1 ∧ s.regN .progCount = 0 ∧ s.nvmQ.head? = some (.erase sec))
    ∧ (∃ (s : State), s.snowdropUp = true ∧ s.regN .pfailLow = 1 ∧ s.regN .pfailDone = 0)
    ∧ (∃ (s : State), s.snowdropUp = true ∧ s.regN .pfailLow = 1 ∧ s.regN .pfailDone ≠ 0) :=
  ⟨⟨(host), (up), by decide +kernel⟩,
   ⟨(host), ((up.wr 0x004 0x4000 0 1).startTimer .freezeLimit 5), by decide +kernel⟩,
   ⟨(up), by decide +kernel⟩,
   ⟨((up.wr 0x004 0x4000 0 1).startTimer .freezeLimit 0), by decide +kernel⟩,
   ⟨(up.setReg .pfailLow 1), by decide +kernel⟩,
   ⟨(State.reset.wr 0x001 0x5000 0 3), by decide +kernel⟩,
   ⟨(up), by decide +kernel⟩,
   ⟨(porting up (.image none 5 [1, 2])), (5), ([1, 2]), by decide +kernel⟩,
   ⟨(porting up (.erase 3)), (3), by decide +kernel⟩,
   ⟨(up.setReg .pfailLow 1), by decide +kernel⟩,
   ⟨((up.setReg .pfailLow 1).setReg .pfailDone 1), by decide +kernel⟩⟩

/-- The hypotheses of MonumentMountsAndPrograms can be met, clause by clause. -/
theorem witness_MonumentMountsAndPrograms :
    (∃ (f : SfdpResult) (s : State), s.mainUp = true ∧ s.regN .nvmKnown = 0 ∧ f.signature = false)
    ∧ (∃ (f : SfdpResult) (s : State), s.mainUp = true ∧ s.regN .nvmKnown = 0 ∧ f.signature = true ∧ ((f.erase4k = false ∨ f.density < regionBase + 66 * 4096)))
    ∧ (∃ (f : SfdpResult) (s : State), s.mainUp = true ∧ s.regN .nvmKnown = 0 ∧ f.signature = true ∧ f.erase4k = true ∧ regionBase + 66 * 4096 ≤ f.density)
    ∧ (∃ (s : State), s.nvmOn = true ∧ s.rd 0x012 0x5001 0 = 0 ∧ s.regN .monFault = 0 ∧ s.nvmQ.any NvmOp.formats = false ∧ s.mayCheck = false)
    ∧ (∃ (s : State) (h : Nat × List Octet) (j : Nat), s.nvmOn = true ∧ s.rd 0x012 0x5001 0 = 0 ∧ s.regN .monFault = 0 ∧ s.nvmQ.any NvmOp.formats = false ∧ s.newestHeader [0, 1] = some h ∧ s.freeJob = some j ∧ s.freeEngine.isSome = true)
    ∧ (∃ (s : State), s.nvmOn = true ∧ s.rd 0x012 0x5001 0 = 0 ∧ s.regN .monFault = 0 ∧ s.nvmQ.any NvmOp.formats = false ∧ s.newestHeader [0, 1] = none ∧ s.flashBlank regionBase 8192 = true ∧ s.mayCheck = true)
    ∧ (∃ (s : State), s.nvmOn = true ∧ s.rd 0x012 0x5001 0 = 0 ∧ s.regN .monFault = 0 ∧ s.nvmQ.any NvmOp.formats = false ∧ s.newestHeader [0, 1] = none ∧ s.flashBlank regionBase 8192 = false ∧ s.mayCheck = true)
    ∧ (∃ (s : State), s.nvmOn = true ∧ s.monUp = true ∧ s.progGroup ≠ [])
    ∧ (∃ (s : State), s.nvmOn = true ∧ s.monUp = true ∧ s.progGroup ≠ [] ∧ s.canon = true)
    ∧ (∃ (o : NvmOp) (s : State) (sec : Nat), s.nvmOn = true ∧ s.portOp = some o ∧ o = .erase sec)
    ∧ (∃ (o : NvmOp) (s : State), s.nvmOn = true ∧ s.portOp = some o ∧ o = .header ∧ s.canon = true)
    ∧ (∃ (o : NvmOp) (s : State) (a : Agent) (n : Nat) (u : Nat) (i : Nat), s.nvmOn = true ∧ s.portOp = some o ∧ o = .read a n ∧ a.kind = .host ∧ s.dpReadCheck a n = .ok ∧ (s.ctx a).target = some (u, i) ∧ s.inFlash (u, i) = true)
    ∧ (∃ (o : NvmOp) (s : State) (a : Agent) (x : Nat) (l : List Octet), s.nvmOn = true ∧ s.portOp = some o ∧ o = .image (some a) x l)
    ∧ (∃ (o : NvmOp) (s : State) (a : Agent) (x : Nat), s.nvmOn = true ∧ s.portOp = some o ∧ o = .area (some a) x)
    ∧ (∃ (o : NvmOp) (s : State) (who : Option Agent) (k : Nat) (total : Nat) (n : Nat) (first : Bool), s.nvmOn = true ∧ s.portOp = some o ∧ o = .region who k total n first ∧ k < total ∧ (first && k + 1 = total) = false)
    ∧ (∃ (o : NvmOp) (s : State) (who : Option Agent) (k : Nat) (n : Nat), s.nvmOn = true ∧ s.portOp = some o ∧ o = .region who k (k + 1) n true ∧ s.rd 0x012 0x5001 0 = 0)
    ∧ (∃ (o : NvmOp) (s : State) (a : Agent) (k : Nat) (n : Nat) (first : Bool), s.nvmOn = true ∧ s.portOp = some o ∧ o = .region (some a) k k n first ∧ a.kind = .host ∧ ((∀ p ∈ s.nvmQ.drop 1, p.writer ≠ some a)))
    ∧ (∃ (o : NvmOp) (s : State) (a : Agent), s.nvmOn = true ∧ s.portOp = some o ∧ a.kind = .host ∧ ((o.writer = some a ∨ ∃ n, o = .read a n)))
    ∧ (∃ (o : NvmOp) (s : State), s.nvmOn = true ∧ s.portOp = some o ∧ o.own = true ∧ s.regN .nvmFails < 2)
    ∧ (∃ (o : NvmOp) (s : State), s.nvmOn = true ∧ s.portOp = some o ∧ 2 ≤ s.regN .nvmFails ∧ s.regN .monFault ≠ 1)
    ∧ (∃ (s : State), s.mainUp = true ∧ s.pfailFrozen = false ∧ s.regN .nvmKnown = 0)
    ∧ (∃ (s : State) (o : NvmOp), s.mainUp = true ∧ s.pfailFrozen = false ∧ s.regN .nvmKnown ≠ 0 ∧ s.nvmState = 2 ∧ s.progGroup = [] ∧ s.portOp = some o)
    ∧ (∃ (s : State), s.mainUp = true ∧ s.pfailFrozen = false ∧ s.regN .nvmKnown ≠ 0 ∧ s.nvmState = 2 ∧ s.portFree = true ∧ s.nvmJob = none ∧ s.mountPending = false ∧ ((s.rd 0x005 0x500B 0 ≠ 1 ∨ s.regN .atlasJob ≠ 0)))
    ∧ (∃ (s : State), s.mainUp = true ∧ s.pfailFrozen = false ∧ s.regN .nvmKnown ≠ 0 ∧ s.nvmState = 2 ∧ s.progGroup ≠ [] ∧ s.regN .nvmBegun ≠ 1 ∧ s.canon = true)
    ∧ (∃ (s : State), s.mainUp = true ∧ s.pfailFrozen = false ∧ s.regN .nvmKnown ≠ 0 ∧ s.nvmState = 2 ∧ s.progGroup ≠ [] ∧ s.regN .nvmBegun = 1 ∧ s.canon = true)
    ∧ (∃ (s : State) (j : Nat), s.mainUp = true ∧ s.pfailFrozen = false ∧ s.regN .nvmKnown ≠ 0 ∧ s.nvmState = 2 ∧ s.portFree = true ∧ s.nvmJob = some j)
    ∧ (∃ (s : State), (s.timer .token).isSome = true)
    ∧ (∃ (s : State), (s.timer .budgetHour).isSome = true) :=
  ⟨⟨({ sfdp 0 with signature := false }), (up), by decide +kernel⟩,
   ⟨({ sfdp 0 with erase4k := false }), (up), by decide +kernel⟩,
   ⟨(sfdp (regionBase + 66 * 4096)), (up), by and_intros <;> first | decide +kernel | exact Nat.le_refl _⟩,
   ⟨(noJob nvm), by decide +kernel⟩,
   ⟨({ nvm with flash := cells regionBase header }), ((0, header)), (0), by and_intros <;> first | decide +kernel | exact (newestHeader_cells _ header _ rfl).trans (by decide +kernel)⟩,
   ⟨(nvm), by decide +kernel⟩,
   ⟨({ nvm with flash := cells regionBase [0] }), by and_intros <;> first | decide +kernel | exact (newestHeader_cells _ [0] _ rfl).trans (by decide +kernel) | exact (by simp [State.flashBlank, cells])⟩,
   ⟨({ (mon.setReg .nvmKnown 1).setReg .progCount 1 with monQ := [record1] }), by decide +kernel⟩,
   ⟨({ (mon.setReg .nvmKnown 1).setReg .progCount 1 with monQ := [record1] }), by decide +kernel⟩,
   ⟨(.erase 3), (porting mon (.erase 3)), (3), by decide +kernel⟩,
   ⟨(.header), (porting mon .header), by decide +kernel⟩,
   ⟨(.read host 64), (porting (dpAt nvm host 0x005 0x6000 0 64) (.read host 64)), (host), (64), (0x005), (0x6000), by decide +kernel⟩,
   ⟨(.image (some host) 0 [1]), (porting mon (.image (some host) 0 [1])), (host), (0), ([1]), by decide +kernel⟩,
   ⟨(.area (some host) 0), (porting mon (.area (some host) 0)), (host), (0), by decide +kernel⟩,
   ⟨(.region none 2 66 64 true), (porting nvm (.region none 2 66 64 true)), (none), (2), (66), (64), (true), by decide +kernel⟩,
   ⟨(.region none 65 66 64 true), (porting nvm (.region none 65 66 64 true)), (none), (65), (64), by decide +kernel⟩,
   ⟨(.region (some host) 64 64 62 false), (porting mon (.region (some host) 64 64 62 false)), (host), (64), (62), (false), by decide +kernel⟩,
   ⟨(.area (some host) 0), (porting mon (.area (some host) 0)), (host), by decide +kernel, by decide +kernel, by decide +kernel, Or.inl (by decide +kernel)⟩,
   ⟨(.header), (porting mon .header), by decide +kernel⟩,
   ⟨(.header), (porting (mon.setReg .nvmFails 2) .header), by decide +kernel⟩,
   ⟨(up), by decide +kernel⟩,
   ⟨(porting mon .header), (.header), by decide +kernel⟩,
   ⟨((mon.setReg .nvmKnown 1).wr 0x012 0x5001 0 1), by decide +kernel⟩,
   ⟨({ (mon.setReg .nvmKnown 1).setReg .progCount 1 with monQ := [record1] }), by decide +kernel⟩,
   ⟨({ porting (mon.setReg .progCount 1) (.erase 3) with monQ := [record1] }), by decide +kernel⟩,
   ⟨((nvm.setReg .nvmKnown 1).setEnt 0x00B 0x6002 0 (job 2 + 2 ^ 58)), (0), by decide +kernel⟩,
   ⟨(mon.startTimer .token 0), by decide +kernel⟩,
   ⟨(mon.startTimer .budgetHour 0), by decide +kernel⟩⟩

/-- The hypotheses of MonumentAndAtlasCommandsAct can be met, clause by clause. -/
theorem witness_MonumentAndAtlasCommandsAct :
    (∃ (a : Agent) (s : State), s.grants a (pathTo 0x005) 0x005 0x7000 0 [] = true ∧ s.nvmOn = false)
    ∧ (∃ (a : Agent) (s : State), s.grants a (pathTo 0x005) 0x005 0x7000 0 [] = true ∧ s.nvmOn = true ∧ s.mayCheck = false)
    ∧ (∃ (a : Agent) (s : State), s.grants a (pathTo 0x005) 0x005 0x7000 0 [] = true ∧ s.nvmOn = true ∧ s.mayCheck = true ∧ s.newestHeader [0, 1] = none ∧ s.flashBlank regionBase 8192 = true ∧ s.nvmQ.any NvmOp.formats = false)
    ∧ (∃ (a : Agent) (n : Nat) (s : State), n < 2 ^ 16 ∧ s.grants a (pathTo 0x005) 0x005 0x7001 0 (toMsb 2 n) = true ∧ ((n < 8 ∨ 1024 < n)))
    ∧ (∃ (a : Agent) (n : Nat) (s : State), n < 2 ^ 16 ∧ s.grants a (pathTo 0x005) 0x005 0x7001 0 (toMsb 2 n) = true ∧ 8 ≤ n ∧ n ≤ 1024 ∧ s.pfailFrozen = true)
    ∧ (∃ (a : Agent) (n : Nat) (s : State), n < 2 ^ 16 ∧ s.grants a (pathTo 0x005) 0x005 0x7001 0 (toMsb 2 n) = true ∧ 8 ≤ n ∧ n ≤ 1024 ∧ s.pfailFrozen = false ∧ s.nvmOn = false)
    ∧ (∃ (a : Agent) (n : Nat) (s : State), n < 2 ^ 16 ∧ s.grants a (pathTo 0x005) 0x005 0x7001 0 (toMsb 2 n) = true ∧ 8 ≤ n ∧ n ≤ 1024 ∧ s.nvmOn = true)
    ∧ (∃ (a : Agent) (base : Nat) (limit : Nat) (s : State), base < 2 ^ 32 ∧ limit < 2 ^ 32 ∧ s.grants a (pathTo 0x005) 0x005 0x7002 0 (toMsb 4 base ++ toMsb 4 limit) = true ∧ base + limit ≤ s.rd 0x005 0x5002 0 ∧ ((regionBase + (2 + s.recSectors) * 4096 ≤ base ∨ base + limit ≤ regionBase)))
    ∧ (∃ (a : Agent) (base : Nat) (limit : Nat) (s : State), base < 2 ^ 32 ∧ limit < 2 ^ 32 ∧ s.grants a (pathTo 0x005) 0x005 0x7002 0 (toMsb 4 base ++ toMsb 4 limit) = true ∧ ((s.rd 0x005 0x5002 0 < base + limit ∨ (base < regionBase + (2 + s.recSectors) * 4096 ∧ regionBase < base + limit))))
    ∧ (∃ (a : Agent) (s : State), s.grants a (pathTo 0x005) 0x005 0x7003 0 [] = true ∧ s.pfailFrozen = true)
    ∧ (∃ (a : Agent) (s : State), s.grants a (pathTo 0x005) 0x005 0x7003 0 [] = true ∧ s.pfailFrozen = false ∧ ((s.regN .atlasBase = 0 ∨ s.nvmOn = false)))
    ∧ (∃ (a : Agent) (s : State) (n : Nat), s.grants a (pathTo 0x005) 0x005 0x7003 0 [] = true ∧ s.regN .atlasBase ≠ 0 ∧ s.nvmOn = true ∧ n = ceilDiv (s.regN .atlasBase - 1 + s.regN .atlasLimit) 4096 - (s.regN .atlasBase - 1) / 4096 ∧ n ≠ 0)
    ∧ (∃ (s : State), ((s.nvmOn = false ∨ s.regN .atlasBase = 0)))
    ∧ (∃ (s : State), s.nvmOn = true ∧ s.regN .atlasBase ≠ 0 ∧ s.rd 0x005 0x500B 0 = 1 ∧ s.regN .atlasJob = 0 ∧ s.atlasHeaderGood s.atlasHeader = false)
    ∧ (∃ (s : State), s.nvmOn = true ∧ s.regN .atlasBase ≠ 0 ∧ s.rd 0x005 0x500B 0 = 1 ∧ s.regN .atlasJob = 0 ∧ s.atlasHeaderGood s.atlasHeader = true ∧ s.freeJob = none)
    ∧ (∃ (s : State) (j : Nat), s.nvmOn = true ∧ s.regN .atlasBase ≠ 0 ∧ s.rd 0x005 0x500B 0 = 1 ∧ s.regN .atlasJob = 0 ∧ s.atlasHeaderGood s.atlasHeader = true ∧ s.freeJob = some j ∧ s.regN .atlasBase ≤ 2 ^ 32)
    ∧ (∃ (j : Nat) (s : State), s.nvmOn = true ∧ s.regN .atlasBase ≠ 0 ∧ s.rd 0x005 0x500B 0 = 1 ∧ s.regN .atlasJob = j + 1 ∧ jobState (s.job j) ≠ 3)
    ∧ (∃ (j : Nat) (s : State), s.nvmOn = true ∧ s.regN .atlasBase ≠ 0 ∧ s.rd 0x005 0x500B 0 = 1 ∧ s.regN .atlasJob = j + 1 ∧ jobState (s.job j) = 3 ∧ jobResult (s.job j) ≠ 1)
    ∧ (∃ (j : Nat) (s : State) (e : AtlasEntry) (u : Nat) (r : ObjRow), s.nvmOn = true ∧ s.regN .atlasBase ≠ 0 ∧ s.rd 0x005 0x500B 0 = 1 ∧ s.regN .atlasJob = j + 1 ∧ jobState (s.job j) = 3 ∧ jobResult (s.job j) = 1 ∧ atlasParse s.atlasBody = some e ∧ e.size = s.atlasBody.length ∧ atlasCount s.atlasHeader = 1 ∧ e.table = false ∧ s.resolvePath e.path = .here u ∧ s.lookup atlasAgent u e.idx e.sub = .ok r ∧ r.access = .rws ∧ r.type ≠ .table ∧ e.data.length = r.type.writeSize ∧ valueGood s.build r (ofMsb e.data) = true ∧ s.stageBusy u = false ∧ ¬(u = 0x00D ∧ e.idx = 0x1000) ∧ (octet s.atlasHeader 5).testBit 0 = false) :=
  ⟨⟨(host), (up), by decide +kernel⟩,
   ⟨(host), (noJob nvm), by decide +kernel⟩,
   ⟨(host), (nvm), by decide +kernel⟩,
   ⟨(host), (7), (nvm), by decide +kernel⟩,
   ⟨(host), (8), ((nvm.wr 0x004 0x5000 0 2)), by decide +kernel⟩,
   ⟨(host), (1024), (up), by decide +kernel⟩,
   ⟨(host), (8), (nvm), by decide +kernel⟩,
   ⟨(host), (0), (0), (nvm), by decide +kernel⟩,
   ⟨(host), (0), (1), (nvm), by decide +kernel⟩,
   ⟨(host), ((nvm.wr 0x004 0x5000 0 2)), by decide +kernel⟩,
   ⟨(host), (up), by decide +kernel⟩,
   ⟨(host), (nvm), (1), by decide +kernel⟩,
   ⟨(up), by decide +kernel⟩,
   ⟨(atlased []), by decide +kernel⟩,
   ⟨(noJob (atlased (atlas (crc crc32c body1) body1))), by decide +kernel⟩,
   ⟨(atlased (atlas (crc crc32c body1) body1)), (0), by decide +kernel⟩,
   ⟨(0), ((atlased (atlas (crc crc32c body1) body1)).setReg .atlasJob 1), by decide +kernel⟩,
   ⟨(0), (((atlased (atlas (crc crc32c body1) body1)).setReg .atlasJob 1).setEnt 0x00B 0x6002 0 (setJob (job 0) 3 3 0)), by decide +kernel⟩,
   ⟨(0), (((atlased (atlas (crc crc32c body1) body1)).setReg .atlasJob 1).setEnt 0x00B 0x6002 0 (setJob (job 0) 3 1 0)), (⟨false, pathTo 0x200, 0x1000, 0, 0, [1], body1.length⟩), (0x200), (rowOf 0x200 0x1000 0), by decide +kernel⟩⟩

/-- The hypotheses of PowerRequestsPassTheHandshake can be met, clause by clause. -/
theorem witness_PowerRequestsPassTheHandshake :
    (∃ (a : Agent) (x : Nat) (s : State), x < 256 ∧ s.grants a (pathTo 0x001) 0x001 0x7000 0 (toMsb 1 x) = true ∧ ((x = 2 ∨ 5 < x)))
    ∧ (∃ (a : Agent) (x : Nat) (s : State), x < 256 ∧ s.grants a (pathTo 0x001) 0x001 0x7000 0 (toMsb 1 x) = true ∧ 3 ≤ x ∧ x ≤ 5 ∧ s.regN .sdClkLost = 1)
    ∧ (∃ (a : Agent) (x : Nat) (s : State), x < 256 ∧ s.grants a (pathTo 0x001) 0x001 0x7000 0 (toMsb 1 x) = true ∧ x ≠ 2 ∧ x ≤ 5 ∧ s.regN .sdClkLost ≠ 1 ∧ s.phase = 0 ∧ s.modeWait = none ∧ x = s.wake.mode)
    ∧ (∃ (a : Agent) (x : Nat) (inFrame : Bool) (s : State), x < 256 ∧ s.grants a (pathTo 0x001) 0x001 0x7000 0 (toMsb 1 x) = true ∧ x ≠ 2 ∧ x ≤ 5 ∧ s.regN .sdClkLost ≠ 1 ∧ s.phase = 0 ∧ s.modeWait = none ∧ x ≠ s.wake.mode ∧ inFrame = false ∧ s.wake.mode = 0 ∧ x = 1)
    ∧ (∃ (a : Agent) (x : Nat) (inFrame : Bool) (s : State), x < 256 ∧ s.grants a (pathTo 0x001) 0x001 0x7000 0 (toMsb 1 x) = true ∧ x ≠ 2 ∧ x ≤ 5 ∧ s.regN .sdClkLost ≠ 1 ∧ s.phase = 0 ∧ s.modeWait = none ∧ x ≠ s.wake.mode ∧ inFrame = false ∧ ¬(s.wake.mode = 0 ∧ x = 1))
    ∧ (∃ (a : Agent) (x : Nat) (inFrame : Bool) (s : State), x < 256 ∧ s.grants a (pathTo 0x001) 0x001 0x7000 0 (toMsb 1 x) = true ∧ x ≠ 2 ∧ x ≤ 5 ∧ s.regN .sdClkLost ≠ 1 ∧ s.phase = 0 ∧ s.modeWait = none ∧ x ≠ s.wake.mode ∧ inFrame = true)
    ∧ (∃ (a : Agent) (x : Nat) (s : State), x < 256 ∧ s.grants a (pathTo 0x001) 0x001 0x7000 0 (toMsb 1 x) = true ∧ x ≠ 2 ∧ x ≤ 5 ∧ s.regN .sdClkLost ≠ 1 ∧ s.phase = 1 ∧ s.abortWanted = false ∧ s.regN .askOrder ≠ 9 ∧ modeDepth (s.regN .target) < modeDepth x)
    ∧ (∃ (a : Agent) (x : Nat) (s : State), x < 256 ∧ s.grants a (pathTo 0x001) 0x001 0x7000 0 (toMsb 1 x) = true ∧ x ≠ 2 ∧ x ≤ 5 ∧ s.regN .sdClkLost ≠ 1 ∧ s.phase = 1 ∧ s.abortWanted = false ∧ s.regN .askOrder ≠ 9 ∧ x = s.regN .target)
    ∧ (∃ (a : Agent) (x : Nat) (s : State), x < 256 ∧ s.grants a (pathTo 0x001) 0x001 0x7000 0 (toMsb 1 x) = true ∧ x ≠ 2 ∧ x ≤ 5 ∧ s.regN .sdClkLost ≠ 1 ∧ s.phase = 1 ∧ s.abortWanted = false ∧ s.regN .askOrder ≠ 9 ∧ modeDepth x ≤ modeDepth (s.regN .target) ∧ x ≠ s.regN .target)
    ∧ (∃ (s : State), s.modeWait = none)
    ∧ (∃ (s : State) (x : Nat), s.mainUp = true ∧ s.modeWait = some x ∧ x % 16 ≤ 1 ∧ s.slotMode = 0xFF)
    ∧ (∃ (s : State), s.mainUp = true ∧ s.phase = 1 ∧ s.entryAnswer false = .wait)
    ∧ (∃ (s : State), s.mainUp = true ∧ s.phase = 1 ∧ s.entryAnswer false = .accept ∧ s.abortWanted = false ∧ s.regN .askOrder < 8)
    ∧ (∃ (s : State) (r : Nat), s.mainUp = true ∧ s.phase = 1 ∧ s.entryAnswer false = .refuse r ∧ s.abortWanted = false)
    ∧ (∃ (s : State), s.mainUp = true ∧ s.phase = 1 ∧ s.entryAnswer false ≠ .wait ∧ s.abortWanted = true)
    ∧ (∃ (s : State), s.mainUp = true ∧ s.phase = 1 ∧ s.entryAnswer false = .accept ∧ s.abortWanted = false ∧ s.regN .askOrder = 8 ∧ 3 ≤ s.regN .target ∧ s.regN .target ≤ 5)
    ∧ (∃ (s : State), s.timer .frameWait = none)
    ∧ (∃ (s : State), s.mainUp = true ∧ (s.timer .frameWait).isSome = true ∧ s.phase = 1 ∧ s.regN .askOrder = 3 ∧ s.abortWanted = false ∧ s.egressBusy = true)
    ∧ (∃ (s : State), s.mainUp = true ∧ (s.timer .frameWait).isSome = true ∧ s.phase = 1 ∧ s.regN .askOrder = 3 ∧ s.abortWanted = false ∧ s.egressBusy = false)
    ∧ (∃ (s : State), s.mainUp = true ∧ s.idleDueNow = true)
    ∧ (∃ (s : State), s.mainUp = true ∧ s.idleDueNow = false)
    ∧ (∃ (s : State), s.mainUp = true ∧ s.mode = 2)
    ∧ (∃ (s : State), s.mainUp = true ∧ s.mode ≠ 2) :=
  ⟨⟨(host), (2), (run), by decide +kernel⟩,
   ⟨(host), (4), (run.setReg .sdClkLost 1), by decide +kernel⟩,
   ⟨(host), (1), (run.wr 0x001 0x5000 0 2), by decide +kernel⟩,
   ⟨(host), (1), (false), (State.reset), by decide +kernel⟩,
   ⟨(host), (3), (false), (run), by decide +kernel⟩,
   ⟨(host), (5), (true), (run), by decide +kernel⟩,
   ⟨(host), (5), (entering 3 2), by decide +kernel⟩,
   ⟨(host), (3), (entering 3 2), by decide +kernel⟩,
   ⟨(host), (1), (entering 3 2), by decide +kernel⟩,
   ⟨(run), by decide +kernel⟩,
   ⟨({ State.reset with modeWait := some 1 }), (1), by decide +kernel⟩,
   ⟨(entering 5 5 |>.wr 0x006 0x5001 0 1), by decide +kernel⟩,
   ⟨(entering 5 7), by decide +kernel⟩,
   ⟨({ entering 4 1 with cqStaged := [(0, ⟨0, 0, 0, 0, 0⟩)] }), (2), by decide +kernel⟩,
   ⟨(entering 4 1 |>.setReg .wakeCause 1), by decide +kernel⟩,
   ⟨(entering 5 8), by decide +kernel⟩,
   ⟨(run), by decide +kernel⟩,
   ⟨({ entering 5 3 with copies := [{ cp 1 0 with state := .sending }] }.startTimer .frameWait 0), by decide +kernel⟩,
   ⟨((entering 5 3).startTimer .frameWait 0), by decide +kernel⟩,
   ⟨((run.wr 0x001 0x1000 0 1).setReg .idleTicks 1000000), by decide +kernel⟩,
   ⟨(run), by decide +kernel⟩,
   ⟨(inMode 2), by decide +kernel⟩,
   ⟨(run), by decide +kernel⟩⟩

/-- The hypotheses of WakesReturnStepByStep can be met, clause by clause. -/
theorem witness_WakesReturnStepByStep :
    (∃ (w : WakeIn) (s : State), s.regN .porstLow ≠ 1 ∧ s.watched w = false)
    ∧ (∃ (s : State), s.regN .porstLow ≠ 1 ∧ s.mainUp = true ∧ s.phase ≠ 1)
    ∧ (∃ (w : WakeIn) (s : State), s.regN .porstLow ≠ 1 ∧ s.watched w = true ∧ 3 ≤ s.mode ∧ s.phase = 0)
    ∧ (∃ (w : WakeIn) (s : State), s.regN .porstLow ≠ 1 ∧ s.watched w = true ∧ s.phase = 2)
    ∧ (∃ (w : WakeIn) (s : State), s.regN .porstLow ≠ 1 ∧ s.watched w = true ∧ s.mainUp = true ∧ s.phase = 1 ∧ s.regN .askOrder ≠ 9)
    ∧ (∃ (w : WakeIn) (s : State), s.regN .porstLow ≠ 1 ∧ s.watched w = true ∧ s.mainUp = true ∧ s.phase = 1 ∧ s.regN .askOrder = 9)
    ∧ (∃ (ch : Nat) (frame : List Octet) (s : State), s.regN .porstLow = 0 ∧ s.phase = 0 ∧ s.watched (.primrose ch) = true ∧ s.chUp ch = true ∧ s.primroseHit ch frame = true)
    ∧ (∃ (ch : Nat) (frame : List Octet) (s : State), s.regN .porstLow = 0 ∧ s.phase = 0 ∧ ((s.watched (.primrose ch) = false ∨ s.chUp ch = false ∨ s.primroseHit ch frame = false)))
    ∧ (∃ (s : State), s.atStep 1 = true)
    ∧ (∃ (s : State), s.atStep 2 = true)
    ∧ (∃ (s : State), s.atStep 5 = true)
    ∧ (∃ (s : State), s.atStep 3 = true)
    ∧ (∃ (s : State), s.atStep 4 = true)
    ∧ (∃ (s : State), s.atStep 5 = false)
    ∧ (∃ (s : State) (n : Nat), s.atStep n = false)
    ∧ (∃ (n : Nat) (m : Nat) (s : State), s.atStep n = true ∧ 1 ≤ n ∧ n ≤ 5 ∧ m = (if s.regN .returnFrom = 5 then (if n = 1 then 5 else 4) else s.regN .returnFrom))
    ∧ (∃ (s : State), s.atStep 6 = true ∧ s.regN .srstPending = 1)
    ∧ (∃ (s : State), s.atStep 6 = true ∧ s.regN .srstPending ≠ 1 ∧ s.regN .pfailLow ≠ 1 ∧ s.slotMode = 0xFF ∧ s.regN .returnView = 0 ∧ s.regN .returnFrom = 5)
    ∧ (∃ (s : State), s.atStep 6 = true ∧ s.regN .srstPending ≠ 1 ∧ s.regN .pfailLow ≠ 1 ∧ s.slotMode = 0xFF ∧ s.regN .returnView = 0 ∧ s.regN .returnFrom ≠ 5 ∧ s.regN .origin ≤ 1)
    ∧ (∃ (s : State) (v : Nat), s.atStep 6 = true ∧ s.regN .srstPending ≠ 1 ∧ s.regN .pfailLow ≠ 1 ∧ s.slotMode = 0xFF ∧ s.regN .returnFrom ≠ 5 ∧ s.regN .origin ≤ 1 ∧ s.regN .returnView = v + 1 ∧ v ≤ 1)
    ∧ (∃ (s : State) (v : Nat), s.atStep 6 = true ∧ s.regN .srstPending ≠ 1 ∧ s.regN .pfailLow ≠ 1 ∧ s.slotMode = 0xFF ∧ s.regN .returnFrom ≠ 5 ∧ s.regN .origin ≤ 1 ∧ s.regN .returnView = v + 1 ∧ 3 ≤ v ∧ v ≤ 4)
    ∧ (∃ (view : Nat) (s : State) (m : Nat), view ≤ 5 ∧ s.regN .porstLow ≠ 1 ∧ s.phase = 2 ∧ m = s.returnMode (if s.regN .returnFrom = 5 then 0 else s.regN .origin) ∧ ((view = 2 ∨ view = m)))
    ∧ (∃ (view : Nat) (s : State) (m : Nat), view ≤ 5 ∧ s.regN .porstLow ≠ 1 ∧ s.phase = 2 ∧ m = s.returnMode (if s.regN .returnFrom = 5 then 0 else s.regN .origin) ∧ view ≠ 2 ∧ view ≠ m)
    ∧ (∃ (view : Nat) (s : State), view ≤ 5 ∧ s.regN .porstLow ≠ 1 ∧ s.phase ≠ 2 ∧ ((s.mainUp = false ∨ s.phase = 1)))
    ∧ (∃ (view : Nat) (s : State), view ≤ 5 ∧ s.regN .porstLow ≠ 1 ∧ s.mainUp = true ∧ s.phase = 0 ∧ 3 ≤ view)
    ∧ (∃ (view : Nat) (s : State), view ≤ 5 ∧ s.regN .porstLow ≠ 1 ∧ s.mainUp = true ∧ s.phase = 0 ∧ view ≤ 2 ∧ ((view = 2 ∨ view = s.mode ∨ (s.mode = 2 ∧ view = 1))))
    ∧ (∃ (view : Nat) (s : State), view ≤ 5 ∧ s.regN .porstLow ≠ 1 ∧ s.mainUp = true ∧ s.phase = 0 ∧ view ≤ 1 ∧ view ≠ s.mode ∧ ¬(s.mode = 2 ∧ view = 1)) :=
  ⟨⟨(.primrose 0), (inMode 4), by decide +kernel⟩,
   ⟨(run), by decide +kernel⟩,
   ⟨(.wakeN), (inMode 5), by decide +kernel⟩,
   ⟨(.wakeN), (returning 4 3 |>.wr 0x001 0x1003 0 1), by decide +kernel⟩,
   ⟨(.wakeN), (entering 4 3), by decide +kernel⟩,
   ⟨(.wakeN), (entering 4 9), by decide +kernel⟩,
   ⟨(0), (magic), (asleep), by decide +kernel⟩,
   ⟨(0), (magic), (run), by decide +kernel⟩,
   ⟨(returning 5 1), by decide +kernel⟩,
   ⟨(returning 4 2), by decide +kernel⟩,
   ⟨(returning 4 5), by decide +kernel⟩,
   ⟨(returning 3 3), by decide +kernel⟩,
   ⟨(returning 3 4), by decide +kernel⟩,
   ⟨(run), by decide +kernel⟩,
   ⟨(returning 3 3), (2), by decide +kernel⟩,
   ⟨(3), (4), (returning 5 3), by decide +kernel⟩,
   ⟨((returning 3 6).setReg .srstPending 1), by decide +kernel⟩,
   ⟨(returning 5 6), by decide +kernel⟩,
   ⟨(returning 3 6), by decide +kernel⟩,
   ⟨((returning 3 6).setReg .returnView 1), (0), by decide +kernel⟩,
   ⟨((returning 3 6).setReg .returnView 5), (4), by decide +kernel⟩,
   ⟨(2), (returning 3 2), (1), by decide +kernel⟩,
   ⟨(4), (returning 3 2), (1), by decide +kernel⟩,
   ⟨(5), (inMode 4), by decide +kernel⟩,
   ⟨(5), (run), by decide +kernel⟩,
   ⟨(1), (inMode 2), by decide +kernel⟩,
   ⟨(0), (inMode 2), by decide +kernel⟩⟩

/-- The hypotheses of ResetsAndClocksActAsStated can be met, clause by clause. -/
theorem witness_ResetsAndClocksActAsStated :
    (∃ (s : State), s.regN .porstLow = 1)
    ∧ (∃ (s : State), s.regN .porstLow ≠ 1)
    ∧ (∃ (s : State), ((s.regN .porstLow = 1 ∨ s.mode = 5 ∨ s.regN .srstLow = 1)))
    ∧ (∃ (s : State), s.regN .porstLow ≠ 1 ∧ s.mode ≠ 5 ∧ s.regN .srstLow ≠ 1 ∧ s.phase = 2)
    ∧ (∃ (s : State), s.regN .porstLow ≠ 1 ∧ s.mode ≤ 2 ∧ s.regN .srstLow ≠ 1 ∧ s.phase ≠ 2)
    ∧ (∃ (s : State), s.regN .porstLow ≠ 1 ∧ ((s.mode = 3 ∨ s.mode = 4)) ∧ s.regN .srstLow ≠ 1 ∧ s.phase ≠ 2)
    ∧ (∃ (s : State), s.regN .srstLow = 1 ∧ s.regN .pfailLow ≠ 1)
    ∧ (∃ (s : State), s.regN .srstLow ≠ 1)
    ∧ (∃ (s : State), s.mainUp = true ∧ s.regN .sdClkLost = 0)
    ∧ (∃ (s : State), s.mainUp = true ∧ s.regN .sdClkLost ≠ 0)
    ∧ (∃ (s : State), s.mainUp = true ∧ s.regN .sdClkLost = 1)
    ∧ (∃ (s : State), s.mainUp = true ∧ s.regN .sdClkLost ≠ 1)
    ∧ (∃ (s : State), s.mainUp = false ∧ s.regN .sdClkLost = 1)
    ∧ (∃ (s : State), ((s.regN .porstLow ≠ 0 ∨ (3 ≤ s.mode ∧ s.phase ≠ 2) ∨ (s.phase = 2 ∧ s.regN .returnStep ∉ [3, 4, 6]))))
    ∧ (∃ (s : State), s.regN .porstLow = 0 ∧ (((s.mode ≤ 2 ∧ s.phase ≠ 2) ∨ (s.phase = 2 ∧ s.regN .returnStep ∈ [3, 4, 6])))) :=
  ⟨⟨(run.setReg .porstLow 1), by decide +kernel⟩,
   ⟨(run), by decide +kernel⟩,
   ⟨(run.setReg .srstLow 1), by decide +kernel⟩,
   ⟨(returning 3 2), by decide +kernel⟩,
   ⟨(inMode 2), by decide +kernel⟩,
   ⟨(inMode 4), by decide +kernel⟩,
   ⟨(run.setReg .srstLow 1), by decide +kernel⟩,
   ⟨(run), by decide +kernel⟩,
   ⟨(run), by decide +kernel⟩,
   ⟨(run.setReg .sdClkLost 1), by decide +kernel⟩,
   ⟨(run.setReg .sdClkLost 1), by decide +kernel⟩,
   ⟨(run), by decide +kernel⟩,
   ⟨((inMode 4).setReg .sdClkLost 1), by decide +kernel⟩,
   ⟨(inMode 5), by decide +kernel⟩,
   ⟨(up), by decide +kernel⟩⟩

/-- The hypotheses of StatisticsClearAndSnapshot can be met, clause by clause. -/
theorem witness_StatisticsClearAndSnapshot :
    (∃ (a : Agent) (u : Nat) (s : State), s.grants a (pathTo u) u 0x7000 0 [] = true ∧ ((unitKind? s.build u = some .chStats ∨ unitKind? s.build u = some .alStats)))
    ∧ (∃ (a : Agent) (u : Nat) (s : State), s.grants a (pathTo u) u 0x7000 0 [] = true ∧ u = 0x011)
    ∧ (∃ (s : State), s.mainUp = true ∧ s.clearWait = [])
    ∧ (∃ (s : State) (u : Nat), s.mainUp = true ∧ s.clearWait = [u])
    ∧ (∃ (a : Agent) (unit : Nat) (slot : Nat) (s : State), unit < 2 ^ 16 ∧ slot < 2 ^ 8 ∧ s.grants a (pathTo 0x011) 0x011 0x7001 0 (toMsb 2 unit ++ toMsb 1 slot) = true ∧ ((1 < slot ∨ unitKind? s.build unit = none)))
    ∧ (∃ (a : Agent) (unit : Nat) (slot : Nat) (s : State), unit < 2 ^ 16 ∧ slot < 2 ^ 8 ∧ s.grants a (pathTo 0x011) 0x011 0x7001 0 (toMsb 2 unit ++ toMsb 1 slot) = true ∧ slot ≤ 1 ∧ (unitKind? s.build unit).isSome = true ∧ s.capturing slot = true)
    ∧ (∃ (a : Agent) (unit : Nat) (slot : Nat) (s : State), unit < 2 ^ 16 ∧ slot < 2 ^ 8 ∧ s.grants a (pathTo 0x011) 0x011 0x7001 0 (toMsb 2 unit ++ toMsb 1 slot) = true ∧ slot ≤ 1 ∧ (unitKind? s.build unit).isSome = true ∧ s.capturing slot = false)
    ∧ (∃ (x : Snapshot) (s : State), s.mainUp = true ∧ s.snapWait = [x])
    ∧ (∃ (slot : Nat) (s : State), s.snapBusy.find? (fun x => x.slot = slot) = none)
    ∧ (∃ (slot : Nat) (s : State) (x : Snapshot), s.mainUp = true ∧ s.snapBusy.find? (fun x => x.slot = slot) = some x) :=
  ⟨⟨(host), (0x500), (run), by decide +kernel⟩,
   ⟨(host), (0x011), (run), by decide +kernel⟩,
   ⟨(run), by decide +kernel⟩,
   ⟨({ run.wr 0x500 0x8000 0 5 with clearWait := [0x500] }), (0x500), by decide +kernel⟩,
   ⟨(host), (0x011), (2), (run), by decide +kernel⟩,
   ⟨(host), (0x011), (1), ({ run with snapWait := [⟨1, 0x011, host, []⟩] }), by decide +kernel⟩,
   ⟨(host), (0x011), (1), (run), by decide +kernel⟩,
   ⟨(⟨1, 0x003, host, []⟩), ({ run with snapWait := [⟨1, 0x003, host, []⟩] }), by decide +kernel⟩,
   ⟨(0), (run), by decide +kernel⟩,
   ⟨(0), ({ run with snapBusy := [⟨0, 0x003, host, []⟩] }), (⟨0, 0x003, host, []⟩), by decide +kernel⟩⟩

/-- The hypotheses of EveryUnitReadsItsRevision can be met, clause by clause. -/
theorem witness_EveryUnitReadsItsRevision :
    (∃ (p : Nat) (u : Nat) (w : MbWords) (s : State), s.mainUp = true ∧ p < 8 ∧ (s.mailbox p).busy = false ∧ w.cmd.testBit 0 = true ∧ mbOp w = 1 ∧ (unitKind? s.build u).isSome = true ∧ s.resolvePath ((mbPath w).getD []) = .here u ∧ mbIndex w = 0x0001 ∧ mbSub w = 0) :=
  ⟨(7), (0x4C7), (mb 1 0x4C7 0x0001 0 2 0), (run), by decide +kernel⟩

/-- The hypotheses of SerialIsSampledAndGuardsTheFabric can be met, clause by clause. -/
theorem witness_SerialIsSampledAndGuardsTheFabric :
    (∃ (s : State), s.regN .porstLow = 1)
    ∧ (∃ (p : Nat) (w : MbWords) (s : State), s.mainUp = true ∧ p < 8 ∧ (s.mailbox p).busy = false ∧ w.cmd.testBit 0 = true ∧ mbOp w = 1 ∧ s.resolvePath ((mbPath w).getD []) = .here 0x00D ∧ mbIndex w = 0x5000 ∧ mbSub w = 0)
    ∧ (∃ (a : Agent) (path : List Nat) (s : State), s.grants a path 0x00D 0x1000 0 [1] = true ∧ s.serial = 0) :=
  ⟨⟨(run.setReg .porstLow 1), by decide +kernel⟩,
   ⟨(0), (mb 1 0x00D 0x5000 0 8 0), (run), by decide +kernel⟩,
   ⟨(host), (pathTo 0x00D), (run.wr 0x00D 0x5000 0 0), by decide +kernel⟩⟩

end Sys2Proof.Tests
end

section
/-! What every command keeps (O6) and the slot that passes on an empty queue (O2). -/
namespace Sys2Proof.Machine
/-- Every command keeps the build, the queue, the canonical form of the stores and the count of free values taken: each arm by the law of
its meaning. -/
theorem exec_keeps (i : Instr) (s : State) : KeepsNext s (exec i s) := by
  cases i with
  | tickBoundary => exact execTickBoundary_keeps s (.refl s)
  | rxFrameStart ch start crossing => exact execRxFrameStart_keeps ch start crossing s (.refl s)
  | rxCell ch cell => exact execRxCell_keeps ch cell s (.refl s)
  | keyPresent => exact execKeyPresent_keeps s (.refl s)
  | decisionDeliver ecc => exact execDecisionDeliver_keeps ecc s (.refl s)
  | commitPoint ep => exact execCommitPoint_keeps ep s (.refl s)
  | applyHeldEffects => exact execApplyHeldEffects_keeps s (.refl s)
  | hostTxFrame => exact execHostTxFrame_keeps s (.refl s)
  | alRxFrame al length rsvd octets err => exact execAlRxFrame_keeps al length rsvd octets err s (.refl s)
  | schedChoice ep level lead => exact execSchedChoice_keeps ep level lead s (.refl s)
  | txFrameStart ep level crossing ecc => exact execTxFrameStart_keeps ep level crossing ecc s (.refl s)
  | txFrameEnd ep => exact execTxFrameEnd_keeps ep s (.refl s)
  | alTxFrameEnd al ecc => exact execAlTxFrameEnd_keeps al ecc s (.refl s)
  | macControlOther ch frame => exact execMacControlOther_keeps ch frame s (.refl s)
  | pauseRx ch frame => exact execPauseRx_keeps ch frame s (.refl s)
  | pfcRx ch frame => exact execPfcRx_keeps ch frame s (.refl s)
  | pauseGenStart ch => exact execPauseGenStart_keeps ch s (.refl s)
  | pauseRefreshExpire ch acct => exact execPauseRefreshExpire_keeps ch acct s (.refl s)
  | pauseActiveExpire ch acct => exact execPauseActiveExpire_keeps ch acct s (.refl s)
  | pauseHoldEnd ch hold => exact execPauseHoldEnd_keeps ch hold s (.refl s)
  | pauseWdBreak ch => exact execPauseWdBreak_keeps ch s (.refl s)
  | holdoffEnd ch => exact execHoldoffEnd_keeps ch s (.refl s)
  | verifyRx ch => exact execVerifyRx_keeps ch s (.refl s)
  | respondRx ch => exact execRespondRx_keeps ch s (.refl s)
  | verifyTimeExpire ch => exact execVerifyTimeExpire_keeps ch s (.refl s)
  | mmFragmentRx ch start octets crossing => exact execMmFragmentRx_keeps ch start octets crossing s (.refl s)
  | fabricFragmentRx ch start octets crossing => exact execFabricFragmentRx_keeps ch start octets crossing s (.refl s)
  | fragTimeout ch level => exact execFragTimeout_keeps ch level s (.refl s)
  | sdRise lane => exact execSdRise_keeps lane s (.refl s)
  | sdFall lane => exact execSdFall_keeps lane s (.refl s)
  | laneClockLost clock => exact execLaneClockLost_keeps clock s (.refl s)
  | laneClockReturn clock => exact execLaneClockReturn_keeps clock s (.refl s)
  | syncAcquired lane => exact execSyncAcquired_keeps lane s (.refl s)
  | syncLost lane hiBer => exact execSyncLost_keeps lane hiBer s (.refl s)
  | anComplete lane page => exact execAnComplete_keeps lane page s (.refl s)
  | syncTimeoutExpire lane => exact execSyncTimeoutExpire_keeps lane s (.refl s)
  | upHoldExpire lane => exact execUpHoldExpire_keeps lane s (.refl s)
  | linkRestart agent lane => exact execLinkRestart_keeps agent lane s (.refl s)
  | objectWrite agent path index sub data => exact execObjectWrite_keeps agent path index sub data s (.refl s)
  | stagedWrite agent path index sub data => exact execStagedWrite_keeps agent path index sub data s (.refl s)
  | commit agent path => exact execCommit_keeps agent path s (.refl s)
  | commitCheckDone unit => exact execCommitCheckDone_keeps unit s (.refl s)
  | commitApply => exact execCommitApply_keeps s (.refl s)
  | discard agent path => exact execDiscard_keeps agent path s (.refl s)
  | leaseClaim agent path => exact execLeaseClaim_keeps agent path s (.refl s)
  | leaseClaimDecide => exact execLeaseClaimDecide_keeps s (.refl s)
  | leaseRenew agent path => exact execLeaseRenew_keeps agent path s (.refl s)
  | leaseRelease agent path => exact execLeaseRelease_keeps agent path s (.refl s)
  | leaseExpiry unit => exact execLeaseExpiry_keeps unit s (.refl s)
  | alarmAck agent path mask => exact execAlarmAck_keeps agent path mask s (.refl s)
  | mailboxRead proc access => exact execMailboxRead_keeps proc access s (.refl s)
  | mailboxWrite proc access => exact execMailboxWrite_keeps proc access s (.refl s)
  | mailboxDone proc => exact execMailboxDone_keeps proc s (.refl s)
  | dpTargetWrite agent value => exact execDpTargetWrite_keeps agent value s (.refl s)
  | dpOffsetWrite agent value => exact execDpOffsetWrite_keeps agent value s (.refl s)
  | dpLengthWrite agent value => exact execDpLengthWrite_keeps agent value s (.refl s)
  | dpDataRead agent n => exact execDpDataRead_keeps agent n s (.refl s)
  | dpDataWrite agent octets => exact execDpDataWrite_keeps agent octets s (.refl s)
  | dpApertureRead window width => exact execDpApertureRead_keeps window width s (.refl s)
  | dpApertureWrite window width word => exact execDpApertureWrite_keeps window width word s (.refl s)
  | accessRead ch frame => exact execAccessRead_keeps ch frame s (.refl s)
  | accessWrite ch frame => exact execAccessWrite_keeps ch frame s (.refl s)
  | accessEpoch ch frame => exact execAccessEpoch_keeps ch frame s (.refl s)
  | accessResponse => exact execAccessResponse_keeps s (.refl s)
  | accessRelayTimeout tag => exact execAccessRelayTimeout_keeps tag s (.refl s)
  | keyWrite agent slot key => exact execKeyWrite_keeps agent slot key s (.refl s)
  | keyErase agent slot => exact execKeyErase_keeps agent slot s (.refl s)
  | tableUpdateApply => exact execTableUpdateApply_keeps s (.refl s)
  | surveyStep finding => exact execSurveyStep_keeps finding s (.refl s)
  | surveyRepair => exact execSurveyRepair_keeps s (.refl s)
  | editionCommit agent => exact execEditionCommit_keeps agent s (.refl s)
  | editionDiscard agent => exact execEditionDiscard_keeps agent s (.refl s)
  | editionFlip => exact execEditionFlip_keeps s (.refl s)
  | editionDrained => exact execEditionDrained_keeps s (.refl s)
  | flowSweepVisit => exact execFlowSweepVisit_keeps s (.refl s)
  | policerWrite agent entry octets => exact execPolicerWrite_keeps agent entry octets s (.refl s)
  | foldFlush agent => exact execFoldFlush_keeps agent s (.refl s)
  | foldDataRx ch frame eccBad crossing => exact execFoldDataRx_keeps ch frame eccBad crossing s (.refl s)
  | templateInstallRx ch frame => exact execTemplateInstallRx_keeps ch frame s (.refl s)
  | foldNakRx ch frame => exact execFoldNakRx_keeps ch frame s (.refl s)
  | templateInstallTx ch => exact execTemplateInstallTx_keeps ch s (.refl s)
  | foldNakTx ch => exact execFoldNakTx_keeps ch s (.refl s)
  | foldHoldExpire ch fseq => exact execFoldHoldExpire_keeps ch fseq s (.refl s)
  | queueWrite agent queue octets => exact execQueueWrite_keeps agent queue octets s (.refl s)
  | gateTransition ep => exact execGateTransition_keeps ep s (.refl s)
  | gateCtReached ep => exact execGateCtReached_keeps ep s (.refl s)
  | tailDoorbell kind ring value width64 => exact execTailDoorbell_keeps kind ring value width64 s (.refl s)
  | scanKnock kind ring width64 => exact execScanKnock_keeps kind ring width64 s (.refl s)
  | ringScanDone kind ring ready => exact execRingScanDone_keeps kind ring ready s (.refl s)
  | cqHeadDoorbell ring value width64 => exact execCqHeadDoorbell_keeps ring value width64 s (.refl s)
  | doorbellAbsent offset => exact execDoorbellAbsent_keeps offset s (.refl s)
  | descReadDone kind ring entry => exact execDescReadDone_keeps kind ring entry s (.refl s)
  | mpReadResponse tag data last err => exact execMpReadResponse_keeps tag data last err s (.refl s)
  | mpWriteResponse tag err => exact execMpWriteResponse_keeps tag err s (.refl s)
  | mpOperationTimeout write tag => exact execMpOperationTimeout_keeps write tag s (.refl s)
  | bqBufferTake bq ecc => exact execBqBufferTake_keeps bq ecc s (.refl s)
  | cqStallDetect cq => exact execCqStallDetect_keeps cq s (.refl s)
  | cqIrqTimer cq => exact execCqIrqTimer_keeps cq s (.refl s)
  | ringStart agent unit => exact execRingStart_keeps agent unit s (.refl s)
  | ringStop agent unit => exact execRingStop_keeps agent unit s (.refl s)
  | ringReset agent unit => exact execRingReset_keeps agent unit s (.refl s)
  | ringConfigWrite agent unit index data => exact execRingConfigWrite_keeps agent unit index data s (.refl s)
  | alStateChange al value => exact execAlStateChange_keeps al value s (.refl s)
  | alHoldExpire al => exact execAlHoldExpire_keeps al s (.refl s)
  | alTxStall al => exact execAlTxStall_keeps al s (.refl s)
  | coexReqRise q => exact execCoexReqRise_keeps q s (.refl s)
  | coexGrant q late => exact execCoexGrant_keeps q late s (.refl s)
  | coexReqFall q => exact execCoexReqFall_keeps q s (.refl s)
  | maxQuietExpire q => exact execMaxQuietExpire_keeps q s (.refl s)
  | streamWrite agent entry octets => exact execStreamWrite_keeps agent entry octets s (.refl s)
  | scanJobStore agent job octets => exact execScanJobStore_keeps agent job octets s (.refl s)
  | scanJobGo agent job octets => exact execScanJobGo_keeps agent job octets s (.refl s)
  | scanJobStart => exact execScanJobStart_keeps s (.refl s)
  | scanJobDone job outcome => exact execScanJobDone_keeps job outcome s (.refl s)
  | scanAbort agent job => exact execScanAbort_keeps agent job s (.refl s)
  | timeNowRead agent => exact execTimeNowRead_keeps agent s (.refl s)
  | incrementWrite agent data => exact execIncrementWrite_keeps agent data s (.refl s)
  | trefLost => exact execTrefLost_keeps s (.refl s)
  | trefRestored => exact execTrefRestored_keeps s (.refl s)
  | stepSet agent => exact execStepSet_keeps agent s (.refl s)
  | adjust agent d => exact execAdjust_keeps agent d s (.refl s)
  | timeStepApply => exact execTimeStepApply_keeps s (.refl s)
  | ppsInEdge => exact execPpsInEdge_keeps s (.refl s)
  | ppsInMissing => exact execPpsInMissing_keeps s (.refl s)
  | ppsOutRise => exact execPpsOutRise_keeps s (.refl s)
  | ppsOutFall => exact execPpsOutFall_keeps s (.refl s)
  | helloTimer => exact execHelloTimer_keeps s (.refl s)
  | helloRx ch frame => exact execHelloRx_keeps ch frame s (.refl s)
  | deadTimerExpire lane => exact execDeadTimerExpire_keeps lane s (.refl s)
  | lsaRx ch frame => exact execLsaRx_keeps ch frame s (.refl s)
  | lsaRefresh => exact execLsaRefresh_keeps s (.refl s)
  | lsaAgeOut origin => exact execLsaAgeOut_keeps origin s (.refl s)
  | routeCompute => exact execRouteCompute_keeps s (.refl s)
  | assignRx ch frame => exact execAssignRx_keeps ch frame s (.refl s)
  | assignRefresh => exact execAssignRefresh_keeps s (.refl s)
  | duplicateRenumber serial => exact execDuplicateRenumber_keeps serial s (.refl s)
  | relayReqRx ch frame => exact execRelayReqRx_keeps ch frame s (.refl s)
  | relayRspRx ch frame => exact execRelayRspRx_keeps ch frame s (.refl s)
  | eventDelivery proc => exact execEventDelivery_keeps proc s (.refl s)
  | eqHeadReturn proc word width64 => exact execEqHeadReturn_keeps proc word width64 s (.refl s)
  | sourceComplete proc word width64 => exact execSourceComplete_keeps proc word width64 s (.refl s)
  | maskWrite proc word width64 => exact execMaskWrite_keeps proc word width64 s (.refl s)
  | thresholdWrite proc word width64 => exact execThresholdWrite_keeps proc word width64 s (.refl s)
  | sourceWrite agent source octets => exact execSourceWrite_keeps agent source octets s (.refl s)
  | testRaise agent cause => exact execTestRaise_keeps agent cause s (.refl s)
  | eqConfigWrite agent eq index data => exact execEqConfigWrite_keeps agent eq index data s (.refl s)
  | wakeInput input => exact execWakeInput_keeps input s (.refl s)
  | fbFreeze agent => exact execFbFreeze_keeps agent s (.refl s)
  | fbThaw agent => exact execFbThaw_keeps agent s (.refl s)
  | freezeLimitExpire => exact execFreezeLimitExpire_keeps s (.refl s)
  | pfailFall => exact execPfailFall_keeps s (.refl s)
  | pfailRecover => exact execPfailRecover_keeps s (.refl s)
  | nvmDiscovery found => exact execNvmDiscovery_keeps found s (.refl s)
  | nvmOperationDone ok => exact execNvmOperationDone_keeps ok s (.refl s)
  | nvmTimeout => exact execNvmTimeout_keeps s (.refl s)
  | monumentMount => exact execMonumentMount_keeps s (.refl s)
  | monumentProgram ok => exact execMonumentProgram_keeps ok s (.refl s)
  | tokenAccrue => exact execTokenAccrue_keeps s (.refl s)
  | budgetHourExpire => exact execBudgetHourExpire_keeps s (.refl s)
  | monumentRestart agent => exact execMonumentRestart_keeps agent s (.refl s)
  | monumentFormat agent sectors => exact execMonumentFormat_keeps agent sectors s (.refl s)
  | atlasSet agent base limit => exact execAtlasSet_keeps agent base limit s (.refl s)
  | atlasErase agent => exact execAtlasErase_keeps agent s (.refl s)
  | atlasImageWrite agent octets => exact execAtlasImageWrite_keeps agent octets s (.refl s)
  | atlasApply => exact execAtlasApply_keeps s (.refl s)
  | powerRequest agent target inFrame => exact execPowerRequest_keeps agent target inFrame s (.refl s)
  | modeApply => exact execModeApply_keeps s (.refl s)
  | handshakeAnswer => exact execHandshakeAnswer_keeps s (.refl s)
  | frameWaitExpire => exact execFrameWaitExpire_keeps s (.refl s)
  | idleEnter => exact execIdleEnter_keeps s (.refl s)
  | idleExit => exact execIdleExit_keeps s (.refl s)
  | returnReady step => exact execReturnReady_keeps step s (.refl s)
  | returnStepTimeout => exact execReturnStepTimeout_keeps s (.refl s)
  | returnEnd => exact execReturnEnd_keeps s (.refl s)
  | primroseFrame ch frame => exact execPrimroseFrame_keeps ch frame s (.refl s)
  | snowdropOverride view => exact execSnowdropOverride_keeps view s (.refl s)
  | statsClear agent unit => exact execStatsClear_keeps agent unit s (.refl s)
  | statsClearApply => exact execStatsClearApply_keeps s (.refl s)
  | statsSnapshot agent unit slot => exact execStatsSnapshot_keeps agent unit slot s (.refl s)
  | snapshotLatch => exact execSnapshotLatch_keeps s (.refl s)
  | snapshotDone slot => exact execSnapshotDone_keeps slot s (.refl s)
  | rxPeakRead agent ch sub => exact execRxPeakRead_keeps agent ch sub s (.refl s)
  | porstAssert => exact execPorstAssert_keeps s (.refl s)
  | porstRelease serial => exact execPorstRelease_keeps serial s (.refl s)
  | srstAssert => exact execSrstAssert_keeps s (.refl s)
  | srstRelease => exact execSrstRelease_keeps s (.refl s)
  | sdClkLost => exact execSdClkLost_keeps s (.refl s)
  | sdClkRestored => exact execSdClkRestored_keeps s (.refl s)
  | pllLockLoss => exact execPllLockLoss_keeps s (.refl s)
  | ledActivityTimer lane => exact execLedActivityTimer_keeps lane s (.refl s)
  | pllLock => exact execPllLock_keeps s (.refl s)
  | hiBerEnd lane => exact execHiBerEnd_keeps lane s (.refl s)

/-- The reassembly contexts as time passes, without the choice: a context that does not count waits no longer. -/
theorem State.countFragments_eq (s : State) (n : Nat) :
    s.countFragments n = s.asm.map (fun c => { c with wait := c.wait + (if s.fragCounts c then n else 0) }) := by
  unfold State.countFragments
  refine List.map_congr_left fun c _ => ?_
  split <;> rfl

/-- Time that passes clears at most the increment held for the next TREF_CLK edge, of the registers without an address. -/
theorem State.reg_advance_ne (s : State) (n : Nat) {h : Hid} (hh : h ≠ .paceHeld) : (s.advance n).reg h = s.reg h := by
  unfold State.advance
  split
  · rfl
  · exact (State.reg_setReg s .paceHeld h 0).trans (if_neg hh)

/-- What time that passes changes: the counter, the elapsed count, the timers of reassembly contexts and a held increment. -/
theorem State.advance_eq (s : State) (n : Nat) :
    s.advance n = { s with
      time := (s.time + s.gain n) % timeWrap, elapsed := s.elapsed + s.gain n, asm := s.countFragments n, hid := (s.advance n).hid } := by
  unfold State.advance
  split <;> rfl

/-- A slot passes while the main domain runs and the tick has slots left. -/
theorem slotPasses_of_slot_left {s : State} (hm : s.mainUp = true) (hs : s.slot < 255) :
    slotPasses s = { s.advance 1 with slot := s.slot + 1 } := if_pos ⟨hm, hs⟩

/-- No slot passes without the main clock, nor behind slot 255. -/
theorem slotPasses_of_no_slot_left {s : State} (h : s.mainUp = false ∨ 255 ≤ s.slot) : slotPasses s = s := by
  refine if_neg fun ⟨hm, hs⟩ => ?_
  rcases h with h | h
  · simp [h] at hm
  · omega

theorem step_of_empty_queue {s : State} (h : s.pending = []) : step s = .next (slotPasses s) := by
  unfold step
  rw [h]

/-- With TREF_CLK lost the counter runs free on CCLK (R282). -/
theorem State.gain_of_tref_lost {s : State} (n : Nat) (h : s.rd 0x003 0x5002 0 = 1) : s.gain n = 5 * n * s.pace := if_pos h

/-- With no increment held, `increment` is the pace (R281). -/
theorem State.pace_of_none_held {s : State} (h : s.regN .paceHeld = 0) : s.pace = s.increment := if_pos h

/-- The 20 edges of a whole tick, 64 64ths of the increment each (log entry 79). -/
theorem State.gain_of_whole_tick {s : State} (ht : s.rd 0x003 0x5002 0 = 0) (hs : s.slot = 0) (hp : s.regN .paceHeld = 0) :
    s.gain 256 = 1280 * s.increment := by
  have firstEdge : edgeSlot (edgesTo 0 + 1) = 13 := by decide
  have start : paceTo 0 = 0 := by decide
  have edge : paceTo 13 = 64 := by decide
  have last : paceTo 256 = 1280 := by decide
  simp [State.gain, ht, hs, State.pace_of_none_held hp, firstEdge, start, edge, last]
  omega

end Sys2Proof.Machine

open Sys2Proof Sys2Proof.Machine
/-- Settles O6, by the law of each command's meaning. -/
theorem noCommandTouchesQueueOrBuild : Obligations.NoCommandTouchesQueueOrBuild := by
  intro c s t h
  have k := exec_keeps c s t h
  exact ⟨k.pending, k.build, k.free⟩

/-- Settles O2, by what time that passes changes and by the pace of the counter. -/
theorem emptyQueuePassesOneSlot : Obligations.EmptyQueuePassesOneSlot := by
  refine ⟨fun s hq => ⟨fun hm hs => ?_, fun h => ?_⟩, fun s h => ?_, fun s => State.gain_of_whole_tick⟩
  · refine ⟨{ s.advance 1 with slot := s.slot + 1 }, ?_, ?_, fun h hh => State.reg_advance_ne s 1 hh⟩
    · rw [step_of_empty_queue hq, slotPasses_of_slot_left hm hs]
    · rw [State.advance_eq, State.countFragments_eq]
  · rw [step_of_empty_queue hq, slotPasses_of_no_slot_left h]
  · simpa using State.gain_of_tref_lost 1 h

end

section
/-! What the operations of a boundary leave as it is: the mode, and what decides the work of the next one (O30). -/
namespace Sys2Proof.Machine

/-! ### The mode through an event

Recording an event or raising a cause wakes the device from IDLE (R362) and leaves every other mode as it is. -/

/-- Whatever mode `s` is in, but IDLE, `t` is in. -/
structure State.ModeKept (s t : State) : Prop where
  mode : s.mode ≠ 2 → t.mode = s.mode

namespace State.ModeKept
variable {r s t : State}

theorem refl (s : State) : s.ModeKept s := ⟨fun _ => rfl⟩

theorem trans (h : r.ModeKept s) (k : s.ModeKept t) : r.ModeKept t :=
  ⟨fun hr => (k.mode ((h.mode hr).trans_ne hr)).trans (h.mode hr)⟩

theorem of_snd {α : Type} {p : α × State} {a : α} (e : p = (a, t)) (h : r.ModeKept p.2) : r.ModeKept t := by
  rw [e] at h
  exact h

theorem ite {p : Prop} [Decidable p] (h : r.ModeKept s) (k : r.ModeKept t) : r.ModeKept (if p then s else t) := by
  split <;> assumption

theorem foldl {α : Type} {f : State → α → State} (hf : ∀ (u : State) x, u.ModeKept (f u x)) (l : List α) (s : State) :
    s.ModeKept (l.foldl f s) := by
  induction l generalizing s with
  | nil => exact refl s
  | cons x l ih => exact (hf s x).trans (ih _)

theorem wr (s : State) {u i k v : Nat} (hu : 0x001 ≠ u) : s.ModeKept (s.wr u i k v) :=
  ⟨fun _ => State.rd_wr_ne s v (fun h => hu h.1)⟩

theorem bump (s : State) {u i k n : Nat} (hu : 0x001 ≠ u) : s.ModeKept (s.bump u i k n) := wr s hu

/-- A change of what is no object. -/
theorem of_obj (ho : t.obj = s.obj) (hb : t.build = s.build) : s.ModeKept t :=
  ⟨fun _ => by simp only [State.mode, State.rd, ho, hb]⟩

theorem setEnt (s : State) (u i e v : Nat) : s.ModeKept (s.setEnt u i e v) := of_obj rfl rfl
theorem setReg (s : State) (h : Hid) (v : Int) : s.ModeKept (s.setReg h v) := of_obj rfl rfl
theorem startTimer (s : State) (x : TimerId) (n : Nat) : s.ModeKept (s.startTimer x n) := of_obj rfl rfl

/-- A change of the other fields of the book. -/
theorem other (s : State) {a : List Latch} {b c : Option LastFixed} {d : Option LastVar} {e : Option (List HeldEvent)} {f : List MonPending}
    {g : Nat} : s.ModeKept { s with latches := a, lastFixed := b, lastSd := c, lastVar := d, evHold := e, monQ := f, free := g } :=
  of_obj rfl rfl

theorem wake (s : State) : s.ModeKept s.wake := ⟨fun h => by rw [State.wake, if_neg h]⟩

theorem setSrc (s : State) (src st n : Nat) : s.ModeKept (s.setSrc src st n) := (setEnt s _ _ _ _).trans (setEnt _ _ _ _ _)

theorem raiseEdge (s : State) (src : Nat) : s.ModeKept (s.raiseEdge src) := by
  unfold State.raiseEdge
  split
  · exact (setSrc s _ _ _).trans (setReg _ _ _)
  · exact (setSrc s _ _ _).trans (setReg _ _ _)
  · exact setSrc s _ _ _

theorem raiseShared (s : State) (src c : Nat) : s.ModeKept (s.raiseShared src c) := by
  unfold State.raiseShared
  split
  · exact refl s
  · dsimp only
    split <;> exact (other s).trans (setSrc _ _ _ _)

theorem raise (s : State) (c : Nat) : s.ModeKept (s.raise c) := by
  unfold State.raise
  exact .ite ((wake s).trans (.ite (raiseShared _ _ _) (.ite (refl _) (raiseEdge _ _)))) (refl s)

theorem ringWrite (s : State) (o : Nat) (l : List Octet) : s.ModeKept (s.ringWrite o l) := foldl (fun u _ => setEnt u _ _ _ _) _ s

theorem dropOldest (s : State) : s.ModeKept s.dropOldest := ((wr s (by decide)).trans (wr _ (by decide))).trans (bump _ (by decide))

theorem makeRoom (k : Nat) (s : State) (a b n : Nat) : s.ModeKept (State.makeRoom k s a b n) := by
  induction k generalizing s with
  | zero => exact refl s
  | succ k ih =>
    unfold State.makeRoom
    exact .ite (refl s) (.ite ((dropOldest s).trans (ih _)) (refl s))

theorem budgetDrop (s : State) (v : Nat) : s.ModeKept (s.budgetDrop v) := by
  unfold State.budgetDrop
  exact (bump (u := 0x005) (i := 0x8001) (k := 0) (n := 1) s (by decide)).trans (.trans (.ite (refl _) (startTimer _ _ _)) (.trans (setReg _ _ _) (setReg _ _ _)))

theorem programStart (s : State) : s.ModeKept s.programStart := .ite (refl s) (setReg s _ _)

theorem offer (s : State) (c u : Nat) (p : List Octet) (r : RingName) (q n t : Nat) (f : Bool) : s.ModeKept (s.offer c u p r q n t f).2 := by
  unfold State.offer
  dsimp only
  split
  · exact refl s
  · split
    · exact refl s
    · split
      · exact refl s
      · split
        · exact .ite (refl s) (bump s (by decide))
        · split
          · exact budgetDrop s _
          · exact .trans (.ite (refl s) (wr s (by decide))) ((wr _ (by decide)).trans ((other _).trans (.trans (wr _ (by decide)) (programStart _))))

theorem foldOffer (s : State) (c u : Nat) (p : List Octet) (r : RingName) (q n t : Nat) (f g : Bool) :
    s.ModeKept (s.foldOffer c u p r q n t f g).2 := by
  unfold State.foldOffer
  split
  · exact other s
  · exact offer s _ _ _ _ _ _ _ _

theorem fbEvent (s : State) (c : Nat) : s.ModeKept (s.fbEvent c) := .ite (raise s _) (refl s)

theorem newVar (s : State) (c u : Nat) (p : List Octet) (n : Bool) : s.ModeKept (s.newVar c u p n) := by
  unfold State.newVar
  extract_lets +onlyGivenNames n1 next wraps at1 seq s1 s2 s3
  have room : s.ModeKept s1 := makeRoom 128 s _ _ _
  have placed : s.ModeKept s2 := room.trans (.ite ((wr s1 (by decide)).trans (wr _ (by decide))) (refl s1))
  have filled : s.ModeKept s3 := placed.trans (.ite (ringWrite s2 _ _) (refl s2))
  clear_value n1 next wraps at1 seq s1 s2 s3
  split
  next res s4 e =>
  have offered : s.ModeKept s4 := filled.trans (of_snd e (offer s3 c u p .var seq 1 _ n))
  clear e
  extract_lets s5 s6
  have written : s.ModeKept s6 := offered.trans ((ringWrite _ _ _).trans ((wr _ (by decide)).trans ((wr _ (by decide)).trans (bump _ (by decide)))))
  exact written.trans ((other _).trans (fbEvent _ _))

theorem recordVar (s : State) (c u : Nat) (p : List Octet) (n : Bool) : s.ModeKept (s.recordVar c u p n) := by
  unfold State.recordVar
  split
  · split
    · extract_lets +onlyGivenNames rep flags s1
      have folded : s.ModeKept s1 := (ringWrite s _ _).trans (bump _ (by decide))
      clear_value rep flags s1
      split
      next res s2 e => exact (folded.trans (of_snd e (foldOffer s1 _ _ _ _ _ _ _ _ _))).trans ((other _).trans (ringWrite _ _ _))
    · exact newVar s _ _ _ _
  · exact newVar s _ _ _ _

theorem newFixed (s : State) (c u : Nat) (v : List (Nat × Nat)) (n : Bool) (p0 p1 q : Nat) : s.ModeKept (s.newFixed c u v n p0 p1 q) := by
  unfold State.newFixed
  extract_lets +onlyGivenNames full s1 s2 s3 s4
  have counted : s.ModeKept s2 := (setEnt s _ _ _ _).trans ((wr _ (by decide)).trans (bump _ (by decide)))
  have gap : s.ModeKept s3 := counted.trans (.trans (.ite (setReg s2 _ _) (refl s2)) (setReg _ _ _))
  have held : s.ModeKept s4 := gap.trans (.ite (raise s3 _) (setReg s3 _ _))
  clear_value full s1 s2 s3 s4
  split
  next res s5 e => exact (held.trans (of_snd e (offer s4 _ _ _ _ _ _ _ _))).trans ((other _).trans (fbEvent _ _))

theorem recordFixed (s : State) (c u : Nat) (v : List (Nat × Nat)) (n : Bool) : s.ModeKept (s.recordFixed c u v n) := by
  unfold State.recordFixed
  dsimp only
  split
  · split
    · generalize field (foldFixed _) 80 8 = n1
      exact ((setEnt s 0x004 0x6001 _ _).trans (foldOffer _ c u (payloadOctets v) .fixed _ n1 _ n _)).trans (other _)
    · exact newFixed s _ _ _ _ _ _ _
  · exact newFixed s _ _ _ _ _ _ _

theorem newSd (s : State) (c u p0 p1 q : Nat) : s.ModeKept (s.newSd c u p0 p1 q) := by
  unfold State.newSd
  split
  next f s0 e =>
  extract_lets +onlyGivenNames s1 s2 s3 s4 s5
  have placed : s.ModeKept s2 := .trans (of_snd e (other s)) (.trans (setEnt s0 _ _ _ _) (wr _ (by decide)))
  have held : s.ModeKept s5 := placed.trans (.trans (other _) (.trans (.ite (setReg s3 _ _) (refl s3)) (setReg _ _ _)))
  exact held.trans (.ite (setReg _ _ _) (refl _))

theorem recordSd (s : State) (c u : Nat) (v : List (Nat × Nat)) : s.ModeKept (s.recordSd c u v) := by
  unfold State.recordSd
  dsimp only
  split
  · split
    · exact (setEnt s _ _ _ _).trans (.ite (setReg _ _ _) (refl _))
    · exact newSd s _ _ _ _ _
  · exact newSd s _ _ _ _ _

theorem recordNow (s : State) (e : HeldEvent) : s.ModeKept (s.recordNow e) := by
  unfold State.recordNow
  split
  · exact recordSd s _ _ _
  · exact recordFixed s _ _ _ _
  · exact recordVar s _ _ _ _

theorem record (s : State) (c u : Nat) (v : List (Nat × Nat)) (n : Bool) : s.ModeKept (s.record c u v n) := by
  unfold State.record
  dsimp only
  split
  · exact other s
  · exact recordNow s _

theorem writeHeld (s : State) : s.ModeKept s.writeHeld :=
  (other s).trans (foldl recordNow _ _)

end State.ModeKept
end Sys2Proof.Machine

namespace Sys2Proof.Machine

/-! ### What the boundary does of its own accord

The upkeep of a boundary (Table 1.3), by whatever state it finds: counters, credits, timers, the alarms, records and events. It leaves the
tick count, the modes of the units and every queue of work as they are. -/

/-- The objects that decide what a boundary has to do: `tick_count`, `idle_after`, `atlas_state`, `edition_state`, the fabric's enable. -/
def keptObj (u i : Nat) : Bool :=
  (u = 0x000 && i = 0x5001) || (u = 0x001 && i = 0x1001) || (u = 0x005 && i = 0x500B) || (u = 0x006 && i = 0x5001)
    || (u = 0x00D && i = 0x1000)

/-- The registers that the opening of a tick sets, the one of a request that waits, and the count of idle ticks. -/
def Hid.kept : Hid → Bool
  | .slotsTaken => true
  | .surveyUsed => true
  | .requestHeld => true
  | .idleTicks => true
  | _ => false

/-- `s` with what a boundary's own upkeep may change taken from `t`. -/
def State.tended (s t : State) : State :=
  { s with
    obj := t.obj, tab := t.tab, hid := t.hid, timers := t.timers, copies := t.copies, rateWait := t.rateWait, mpOps := t.mpOps
    latches := t.latches, arbQ := t.arbQ, blockWait := t.blockWait, levels := t.levels, eqRecords := t.eqRecords, lastFixed := t.lastFixed
    lastSd := t.lastSd, lastVar := t.lastVar, evHold := t.evHold, monQ := t.monQ, free := t.free, time := t.time, elapsed := t.elapsed
    asm := t.asm }

/-- `t` is `s` after work of a boundary that needs nothing to be due. -/
structure State.Upkeep (s t : State) : Prop where
  fields : t = s.tended t
  copies : s.copies = [] → t.copies = []
  objs   : ∀ u i, keptObj u i = true → t.rd u i 0 = s.rd u i 0
  regs   : ∀ h, h.kept = true → t.reg h = s.reg h
  mode   : s.ModeKept t

theorem not_eventObj_of_keptObj {u i : Nat} (h : keptObj u i = true) : eventObj u i = false ∧ ¬(u = 0x001 ∧ i = 0x5000) := by
  simp only [keptObj, Bool.or_eq_true, Bool.and_eq_true, decide_eq_true_eq] at h
  rcases h with (((⟨rfl, rfl⟩ | ⟨rfl, rfl⟩) | ⟨rfl, rfl⟩) | ⟨rfl, rfl⟩) | ⟨rfl, rfl⟩ <;> decide

theorem Hid.not_ofEvents_of_kept {h : Hid} (hk : h.kept = true) : h.ofEvents = false := by
  cases e : h.ofEvents with
  | false => rfl
  | true => cases h <;> simp [Hid.kept, Hid.ofEvents] at hk e

theorem keptObj_of_high {u : Nat} (i : Nat) (h : 0x00D < u) : keptObj u i = false := by
  cases e : keptObj u i with
  | false => rfl
  | true =>
    simp only [keptObj, Bool.or_eq_true, Bool.and_eq_true, decide_eq_true_eq] at e
    omega

namespace State.Upkeep
variable {r s t : State}

theorem refl (s : State) : s.Upkeep s := ⟨rfl, id, fun _ _ _ => rfl, fun _ _ => rfl, .refl s⟩

theorem trans (h : r.Upkeep s) (k : s.Upkeep t) : r.Upkeep t where
  fields := by
    have e := k.fields
    rw [h.fields] at e
    exact e
  copies e := k.copies (h.copies e)
  objs u i a := (k.objs u i a).trans (h.objs u i a)
  regs x a := (k.regs x a).trans (h.regs x a)
  mode := h.mode.trans k.mode

theorem ite {p : Prop} [Decidable p] (h : r.Upkeep s) (k : r.Upkeep t) : r.Upkeep (if p then s else t) := by
  split <;> assumption

theorem foldl {α : Type} {f : State → α → State} (hf : ∀ (u : State) x, u.Upkeep (f u x)) (l : List α) (s : State) :
    s.Upkeep (l.foldl f s) := by
  induction l generalizing s with
  | nil => exact refl s
  | cons x l ih => exact (hf s x).trans (ih _)

theorem events (h : s.ButEvents t) (m : s.ModeKept t) : s.Upkeep t where
  fields := h.fields.trans (congrArg s.tended h.fields.symm)
  copies e := by rw [h.fields, e]
  objs u i k := h.objs u i 0 (not_eventObj_of_keptObj k).1 (not_eventObj_of_keptObj k).2
  regs x k := h.regs x (Hid.not_ofEvents_of_kept k)
  mode := m

theorem wr (s : State) {u i : Nat} (k v : Nat) (hk : keptObj u i = false) (hm : ¬(u = 0x001 ∧ i = 0x5000)) : s.Upkeep (s.wr u i k v) where
  fields := rfl
  copies e := e
  objs x j a := State.rd_wr_ne s v (by rintro ⟨rfl, rfl, -⟩; simp [a] at hk)
  regs _ _ := rfl
  mode := ⟨fun _ => State.rd_wr_ne s v (fun e => hm ⟨e.1.symm, e.2.1.symm⟩)⟩

theorem bump (s : State) {u i : Nat} (k n : Nat) (hk : keptObj u i = false) (hm : ¬(u = 0x001 ∧ i = 0x5000)) : s.Upkeep (s.bump u i k n) :=
  wr s k _ hk hm

/-- An object of a unit beyond the fabric's. -/
theorem wrHigh (s : State) {u : Nat} (i k v : Nat) (hu : 0x00D < u) : s.Upkeep (s.wr u i k v) :=
  wr s k v (keptObj_of_high i hu) (by omega)

theorem latch (s : State) (u b : Nat) : s.Upkeep (s.latch u b) := wr s 0 _ (by simp [keptObj]) (by omega)

theorem setEnt (s : State) (u i e v : Nat) : s.Upkeep (s.setEnt u i e v) := ⟨rfl, id, fun _ _ _ => rfl, fun _ _ => rfl, .setEnt s u i e v⟩

theorem setEntField (s : State) (u i e lo w v : Nat) : s.Upkeep (s.setEntField u i e lo w v) := setEnt s _ _ _ _

theorem setReg (s : State) {h : Hid} {v : Int} (hh : h.kept = false) : s.Upkeep (s.setReg h v) where
  fields := rfl
  copies := id
  objs _ _ _ := rfl
  regs x a := by
    rw [State.reg_setReg, if_neg]
    rintro rfl
    simp [a] at hh
  mode := .setReg s h v

theorem startTimer (s : State) (x : TimerId) (n : Nat) : s.Upkeep (s.startTimer x n) :=
  ⟨rfl, id, fun _ _ _ => rfl, fun _ _ => rfl, .startTimer s x n⟩

/-- A change of the other fields. -/
theorem other (s : State) {a : Map TimerId Nat} {b : Map Nat Nat} {c : List MpOp} {d : List Latch} {e : List ArbWrite} {f : List BlockWrite}
    {g : List StackItem} {h : List (Nat × Nat × List Octet)} {i j : Nat} {k : List AsmCtx} :
    s.Upkeep { s with
      timers := a, rateWait := b, mpOps := c, latches := d, arbQ := e, blockWait := f, levels := g, eqRecords := h, time := i, elapsed := j,
      asm := k } :=
  ⟨rfl, id, fun _ _ _ => rfl, fun _ _ => rfl, .of_obj rfl rfl⟩

theorem stopTimer (s : State) (x : TimerId) : s.Upkeep (s.stopTimer x) := other s

theorem raise (s : State) (c : Nat) : s.Upkeep (s.raise c) := events (.raise s c) (.raise s c)
theorem record (s : State) (c u : Nat) (v : List (Nat × Nat)) (n : Bool) : s.Upkeep (s.record c u v n) :=
  events (.record s c u v n) (.record s c u v n)
theorem writeHeld (s : State) : s.Upkeep s.writeHeld := events (.writeHeld s) (.writeHeld s)
theorem setSrc (s : State) (src st n : Nat) : s.Upkeep (s.setSrc src st n) := events (.setSrc s src st n) (.setSrc s src st n)

/-! The closing tick: its time, its counts. -/

theorem advance (s : State) (n : Nat) : s.Upkeep (s.advance n) := by
  unfold State.advance
  exact .trans (.ite (refl s) (setReg s (by rfl))) (other _)

theorem countXoff (s : State) (ch : Nat) : s.Upkeep (s.countXoff ch) :=
  .ite (refl s) (foldl (fun u k => .ite (bump u k 1 (by simp [keptObj]) (by omega)) (refl u)) _ s)

theorem countHold (s : State) (h : (Nat × Nat) × Nat) : s.Upkeep (s.countHold h) :=
  .ite (refl s) ((bump s h.1.2 1 (by simp [keptObj]) (by omega)).trans (setReg _ (by rfl)))

theorem countStall (s : State) (cq : Nat) : s.Upkeep (s.countStall cq) := .ite (setReg s (by rfl)) (refl s)

theorem countTicks (s : State) : s.Upkeep s.countTicks := by
  unfold State.countTicks
  extract_lets s1 s2
  have held : s.Upkeep s1 := (foldl countXoff _ s).trans (foldl countHold _ _)
  have stalled : s.Upkeep s2 := held.trans (.trans (.ite (bump s1 0 1 (by decide) (by decide)) (refl s1)) (foldl countStall _ _))
  exact stalled.trans (.ite (setReg s2 (by rfl)) (refl s2))

/-! The watch, the credits and the rates. -/

theorem stallCheck (s : State) (cq : Nat) : s.Upkeep (s.stallCheck cq) := by
  unfold State.stallCheck
  exact .ite (.ite (refl s) ((setReg s (by rfl)).trans (startTimer _ _ _)))
    ((stopTimer s _).trans (.ite ((setReg _ (by rfl)).trans ((record _ _ _ _ _).trans (setReg _ (by rfl)))) (refl _)))

theorem applyRates (s : State) : s.Upkeep s.applyRates :=
  .trans (other s) (foldl (fun u p => (setEntField u _ _ _ _ _ _).trans (.ite (setReg _ (by rfl)) (setReg _ (by rfl)))) _ _)

theorem quarterTicks (s : State) : s.Upkeep s.quarterTicks := foldl (fun u _ => .ite (setReg u (by rfl)) (refl u)) _ s

theorem shaperTicks (s : State) (n : Nat) : s.Upkeep (s.shaperTicks n) := foldl (fun u _ => .ite (refl u) (setReg u (by rfl))) _ s

theorem policerTicks (s : State) (n : Nat) : s.Upkeep (s.policerTicks n) := foldl (fun u _ => (setReg u (by rfl)).trans (setReg _ (by rfl))) _ s

theorem creditStep (s : State) : s.Upkeep s.creditStep :=
  (quarterTicks s).trans (.ite (setReg _ (by rfl)) ((shaperTicks _ _).trans ((policerTicks _ _).trans (setReg _ (by rfl)))))

/-! What is evaluated for the new tick. -/

theorem setParked (s : State) (al : Nat) (v : Bool) : s.Upkeep (s.setParked al v) := foldl (fun u _ => setEnt u _ _ _ _) _ s

theorem wrAir (s : State) (al i k v : Nat) : s.Upkeep (s.wr (alUnit al) i k v) := wrHigh s i k v (by unfold alUnit; omega)

theorem park (s : State) (al : Nat) : s.Upkeep (s.park al) :=
  .ite (refl s) ((wrAir s al _ _ _).trans ((setParked _ _ _).trans ((wrAir _ al _ _ _).trans ((raise _ _).trans (record _ _ _ _ _)))))

theorem rejoin (s : State) (q : QueueRef) (ep cls : Nat) : s.Upkeep (s.rejoin q ep cls) := setReg s (by rfl)

theorem unpark (s : State) (al : Nat) : s.Upkeep (s.unpark al) :=
  .ite (refl s) ((wrAir s al _ _ _).trans ((setParked _ _ _).trans
    ((foldl (fun u _ => rejoin u _ _ _) _ _).trans (foldl (fun u _ => rejoin u _ _ _) _ _))))

theorem latchAir (s : State) (al : Nat) : s.Upkeep (s.latchAir al) := by
  unfold State.latchAir
  extract_lets u old new s1 s2
  have latched : s.Upkeep s1 := .ite (refl s) ((wrAir s al _ _ _).trans (wrAir _ al _ _ _))
  have counted : s.Upkeep s2 := latched.trans (setReg s1 (by rfl))
  exact .ite (latched.trans ((setReg _ (by rfl)).trans ((stopTimer _ _).trans (park _ al))))
    (.ite (latched.trans ((setReg _ (by rfl)).trans ((stopTimer _ _).trans (unpark _ al)))) (.ite (counted.trans (startTimer _ _ _)) counted))

theorem setServing (s : State) (n : Nat) : s.Upkeep (s.setServing n) := (setEntField s _ _ _ _ _ _).trans (setEntField _ _ _ _ _ _ _)

/-- Copies that move to another link. -/
theorem mapCopies (s : State) (f : Copy → Copy) : s.Upkeep { s with copies := s.copies.map f } :=
  ⟨rfl, fun e => by simp [e], fun _ _ _ => rfl, fun _ _ => rfl, .of_obj rfl rfl⟩

theorem serveMove (s : State) (n : Nat) : s.Upkeep (s.serveMove n) := by
  unfold State.serveMove
  exact (setServing s n).trans (.ite (refl _) ((mapCopies _ _).trans ((bump _ 0 1 (by decide) (by decide)).trans (rejoin _ _ _ _))))

theorem linkMoves (s : State) : s.Upkeep s.linkMoves := foldl serveMove _ s

theorem tagVisit (s : State) (n : Nat) : s.Upkeep (s.tagVisit n) := .ite (setReg s (by rfl)) (refl s)

theorem tagVisits (s : State) : s.Upkeep s.tagVisits := (foldl (fun u i => .ite (tagVisit u _) (refl u)) _ s).trans (setReg _ (by rfl))

theorem ageHello (s : State) (lane : Nat) : s.Upkeep (s.ageHello lane) := .ite (refl s) (setEntField s _ _ _ _ _ _)

theorem recomputeAlarms (s : State) : s.Upkeep s.recomputeAlarms := foldl (fun u _ => setReg u (by rfl)) _ s

/-! The host port's own reads. -/

theorem mpIssue (s : State) (w : Bool) (a : Nat) (o : List Octet) (p : MpPurpose) : s.Upkeep (s.mpIssue w a o p) := (setReg s (by rfl)).trans (other _)

theorem wrTq (s : State) (q k v : Nat) : s.Upkeep (s.wr (tqUnit q) 0x5002 k v) := wr s k v (by simp [keptObj]) (by omega)
theorem wrBq (s : State) (q k v : Nat) : s.Upkeep (s.wr (bqUnit q) 0x5002 k v) := wr s k v (by simp [keptObj]) (by omega)

theorem fetchTq (k : Nat) (s : State) (q : Nat) : s.Upkeep (State.fetchTq k s q) := by
  induction k generalizing s with
  | zero => exact refl s
  | succ k ih => exact .ite (((setReg s (by rfl)).trans ((mpIssue _ _ _ _ _).trans (wrTq _ q _ _))).trans (ih _)) (refl s)

theorem fetchBq (k : Nat) (s : State) (b : Nat) : s.Upkeep (State.fetchBq k s b) := by
  induction k generalizing s with
  | zero => exact refl s
  | succ k ih => exact .ite (((mpIssue s _ _ _ _).trans (wrBq _ b _ _)).trans (ih _)) (refl s)

theorem jobReads (s : State) (j : Nat) : s.Upkeep (s.jobReads j) := .ite (mpIssue s _ _ _ _) (refl s)

theorem discoverStep (s : State) : s.Upkeep s.discoverStep :=
  .ite ((wr s 0 1 (by decide) (by decide)).trans ((setReg _ (by rfl)).trans (setReg _ (by rfl)))) (refl s)

/-! Interrupts, and the words that processors' blocks take. -/

theorem applyArb (s : State) (w : ArbWrite) : s.Upkeep (s.applyArb w) := by
  cases w with
  | mask p src v => exact setEntField s _ _ _ _ _ _
  | threshold p v => exact setReg s (by rfl)
  | source src target prio mask => exact (setEntField s _ _ _ _ _ _).trans ((setEntField _ _ _ _ _ _ _).trans (setEntField _ _ _ _ _ _ _))

theorem sharedState (s : State) (src : Nat) : s.Upkeep (s.sharedState src) := by
  unfold State.sharedState
  dsimp only
  split
  · exact setSrc s _ _ _
  · exact setSrc s _ _ _
  · exact setSrc s _ _ _
  · exact setSrc s _ _ _
  · exact refl s

theorem moveLatches (s : State) : s.Upkeep s.moveLatches := .trans (other s) (foldl sharedState _ _)

theorem sampleLevel (s : State) (src : Nat) : s.Upkeep (s.sampleLevel src) := by
  unfold State.sampleLevel
  split
  · exact refl s
  · exact .ite (.ite ((setSrc s _ _ _).trans (setReg _ (by rfl))) (refl s)) (.ite (setSrc s _ _ _) (refl s))

theorem afterRecord (s : State) (src c : Nat) : s.Upkeep (s.afterRecord src c) :=
  .ite ((setSrc s _ _ _).trans ((other _).trans (sharedState _ _))) (setSrc s _ _ _)

theorem wrEq (s : State) (p i k v : Nat) : s.Upkeep (s.wr (eqUnit p) i k v) := wrHigh s i k v (by unfold eqUnit; omega)

theorem deliverRecord (s : State) (p src : Nat) : s.Upkeep (s.deliverRecord p src) := by
  unfold State.deliverRecord
  exact (mpIssue s _ _ _ _).trans ((wrEq _ p _ _ _).trans ((bump _ p 1 (by decide) (by decide)).trans ((other _).trans (afterRecord _ _ _))))

theorem eqRetry (s : State) (p : Nat) : s.Upkeep (s.eqRetry p) := .trans (other s) (foldl (fun u _ => mpIssue u _ _ _ _) _ _)

theorem countFull (s : State) (p : Nat) : s.Upkeep (s.countFull p) :=
  .ite (refl s) ((bump s p 1 (by decide) (by decide)).trans (setReg _ (by rfl)))

theorem deliver (s : State) (p : Nat) : s.Upkeep (s.deliver p) := by
  unfold State.deliver
  refine .ite (.trans (.ite (countFull s p) (refl s)) (eqRetry _ p)) (.ite (refl s) ?_)
  split
  · exact refl s
  · exact .ite (countFull s p) (deliverRecord s p _)

theorem interruptStep (s : State) : s.Upkeep s.interruptStep :=
  ((other s).trans (foldl applyArb _ _)).trans
    ((moveLatches _).trans ((foldl sampleLevel _ _).trans (foldl deliver _ _)))

theorem strayCount (s : State) : s.Upkeep s.strayCount := (bump s 0 1 (by decide) (by decide)).trans (latch _ _ _)

theorem eqLine (s : State) (p : Nat) : s.Upkeep (s.eqLine p) := .ite (.ite (refl s) (setReg s (by rfl))) (setReg s (by rfl))

theorem eqHead (s : State) (p head : Nat) : s.Upkeep (s.eqHead p head) :=
  .ite ((wrEq s p _ _ _).trans (eqLine _ p)) (bump s p 1 (by decide) (by decide))

theorem completeSource (s : State) (p src : Nat) : s.Upkeep (s.completeSource p src) := by
  unfold State.completeSource
  split
  · exact .ite (.trans (other s) (setSrc _ _ _ _)) (.trans (other s) (setSrc _ _ _ _))
  · exact (strayCount s).trans (record _ _ _ _ _)

theorem completeTaken (s : State) (p word : Nat) : s.Upkeep (s.completeTaken p word) := by
  unfold State.completeTaken
  extract_lets s1
  have headed : s.Upkeep s1 := .ite (eqHead s p _) (refl s)
  exact .ite (strayCount s) (headed.trans (.ite (completeSource s1 p _) (refl s1)))

theorem blockTaken (s : State) (w : BlockWrite) : s.Upkeep (s.blockTaken w) :=
  .ite ((setReg s (by rfl)).trans ((setReg _ (by rfl)).trans (other _))) (completeTaken s _ _)

theorem blockWrite (s : State) (w : BlockWrite) : s.Upkeep (s.blockWrite w) := .ite (blockTaken s w) (other s)

theorem blockAccept (s : State) : s.Upkeep s.blockAccept := .trans (other s) (foldl blockWrite _ _)

end State.Upkeep
end Sys2Proof.Machine
end

section
/-! Gates and the step of the counter (O30). -/
namespace Sys2Proof.Machine

/-! ### Gates (R180 to R182) -/

/-- A copy in progress at an endpoint whose gate has closed and that has not been counted yet (R181). -/
def State.overruns (s : State) (ep : Nat) (c : Copy) : Bool :=
  c.ep = ep && (c.state = .sending || c.state = .suspended) && !c.overrun && !s.gateOpen ep c.cls s.time

/-- The copies when those that overrun are marked. -/
def State.overrunMarked (s : State) (ep : Nat) : List Copy :=
  s.copies.map (fun (c : Copy) => if s.overruns ep c then { c with overrun := true } else c)

theorem State.overrunCheck_of_none {s : State} {ep : Nat} (h : (s.copies.filter (s.overruns ep)).length = 0) : s.overrunCheck ep = s :=
  if_pos h

theorem State.overrunCheck_of_some {s : State} {ep : Nat} (h : (s.copies.filter (s.overruns ep)).length ≠ 0) :
    s.overrunCheck ep
      = (State.bump { s with copies := s.overrunMarked ep } 0x00A 0x8004 0 (s.copies.filter (s.overruns ep)).length).latch 0x00A 16 :=
  if_neg h

/-- The check of an endpoint's gates changes objects and copies alone. -/
theorem State.overrunCheck_fields (s : State) (ep : Nat) :
    s.overrunCheck ep = { s with obj := (s.overrunCheck ep).obj, copies := (s.overrunCheck ep).copies } := by
  by_cases h : (s.copies.filter (s.overruns ep)).length = 0
  · rw [State.overrunCheck_of_none h]
  · rw [State.overrunCheck_of_some h]
    rfl

@[simp] theorem State.overrunCheck_gateOper (s : State) (ep : Nat) : (s.overrunCheck ep).gateOper = s.gateOper := by
  rw [State.overrunCheck_fields]
@[simp] theorem State.overrunCheck_gatePend (s : State) (ep : Nat) : (s.overrunCheck ep).gatePend = s.gatePend := by
  rw [State.overrunCheck_fields]
@[simp] theorem State.overrunCheck_time (s : State) (ep : Nat) : (s.overrunCheck ep).time = s.time := by rw [State.overrunCheck_fields]
@[simp] theorem State.overrunCheck_frames (s : State) (ep : Nat) : (s.overrunCheck ep).frames = s.frames := by rw [State.overrunCheck_fields]

/-- Only `gate_overrun` and the scheduler's alarms change. -/
theorem State.rd_overrunCheck_ne (s : State) (ep : Nat) {u i k : Nat} (h8 : ¬(u = 0x00A ∧ i = 0x8004)) (h5 : ¬(u = 0x00A ∧ i = 0x0005)) :
    (s.overrunCheck ep).rd u i k = s.rd u i k := by
  by_cases h : (s.copies.filter (s.overruns ep)).length = 0
  · rw [State.overrunCheck_of_none h]
  · rw [State.overrunCheck_of_some h, State.rd_latch, if_neg (fun e => h5 ⟨e.1, e.2.1⟩), State.rd_bump, if_neg (fun e => h8 ⟨e.1, e.2.1⟩)]
    rfl

theorem State.overrunCheck_copies (s : State) (ep : Nat) : (s.overrunCheck ep).copies = s.overrunMarked ep := by
  by_cases h : (s.copies.filter (s.overruns ep)).length = 0
  · rw [State.overrunCheck_of_none h]
    have none_overruns : ∀ c ∈ s.copies, s.overruns ep c = false := by simpa using h
    have same : ∀ c ∈ s.copies, (if s.overruns ep c then { c with overrun := true } else c) = c :=
      fun c hc => if_neg (by simp [none_overruns c hc])
    rw [State.overrunMarked, List.map_congr_left same, List.map_id']
  · rw [State.overrunCheck_of_some h]
    rfl

/-- A marked copy that is still not counted is none that overruns. -/
theorem State.overruns_of_mem_overrunMarked {s : State} {ep : Nat} {c : Copy} (hc : c ∈ s.overrunMarked ep) (ho : c.overrun = false) :
    c ∈ s.copies ∧ s.overruns ep c = false := by
  obtain ⟨d, hd, rfl⟩ := List.mem_map.mp hc
  cases e : s.overruns ep d with
  | true => simp [e] at ho
  | false => simp [e, hd]

/-- Marking changes no copy's endpoint, class or state. -/
theorem State.exists_of_mem_overrunMarked {s : State} {ep : Nat} {c : Copy} (hc : c ∈ s.overrunMarked ep) :
    ∃ d ∈ s.copies, d.ep = c.ep ∧ d.cls = c.cls ∧ d.state = c.state := by
  obtain ⟨d, hd, rfl⟩ := List.mem_map.mp hc
  refine ⟨d, hd, ?_⟩
  split <;> exact ⟨rfl, rfl, rfl⟩

/-- A withdrawal changes objects and copies alone. -/
theorem State.withdraw_fields (s : State) (ep : Nat) (p : Copy → Bool) :
    s.withdraw ep p = { s with obj := (s.withdraw ep p).obj, copies := (s.withdraw ep p).copies } := by
  unfold State.withdraw
  dsimp only
  split <;> rfl

/-- No copy stays chosen that is to be withdrawn (R176). -/
theorem State.not_withdrawn_of_chosen {s : State} {ep : Nat} {p : Copy → Bool} {c : Copy} (hc : c ∈ (s.withdraw ep p).copies)
    (he : c.ep = ep) (hs : c.state = .chosen) : p c = false := by
  unfold State.withdraw at hc
  dsimp only at hc
  split at hc
  next h =>
    have none_withdrawn : ∀ d ∈ s.copies, d.ep = ep → d.state = .chosen → p d = false := by simpa using h
    exact none_withdrawn c hc he hs
  next =>
    obtain ⟨d, -, rfl⟩ := List.mem_map.mp hc
    split at hs
    next => cases hs
    next h =>
      rw [if_neg h] at he ⊢
      simpa [he, hs] using h

/-- Whether a gate is open depends on the operational lists alone. -/
theorem State.gateOpen_congr {s t : State} (h : t.gateOper = s.gateOper) (ep c x : Nat) : t.gateOpen ep c x = s.gateOpen ep c x := by
  unfold State.gateOpen
  rw [h]

/-- The state in which a configuration has become operational, before its choices are withdrawn. -/
def State.gateTaken (s : State) (ep ct cfg : Nat) (list : List Nat) : State :=
  State.record { s with gatePend := s.gatePend.erase ep, gateOper := s.gateOper.set ep (cfg, list) (0, []) } 0x0701 0x00A
    [(1, ep), (6, time48Of ct)]

theorem State.gateTaken_butEvents (s : State) (ep ct cfg : Nat) (list : List Nat) :
    State.ButEvents { s with gatePend := s.gatePend.erase ep, gateOper := s.gateOper.set ep (cfg, list) (0, []) } (s.gateTaken ep ct cfg list) :=
  .record _ _ _ _ _

theorem State.gateSwitch_eq (s : State) (ep ct cfg : Nat) (list : List Nat) :
    s.gateSwitch ep ct cfg list
      = ((s.gateTaken ep ct cfg list).withdraw ep (fun c => !(s.gateTaken ep ct cfg list).gateOpen ep c.cls (s.gateTaken ep ct cfg list).time)).overrunCheck
          ep := rfl

/-- What a change of configuration leaves: the two lists of the endpoint are moved, the frames and the counter stand (R182). -/
theorem State.gateSwitch_fields (s : State) (ep ct cfg : Nat) (list : List Nat) :
    (s.gateSwitch ep ct cfg list).gatePend = s.gatePend.erase ep
      ∧ (s.gateSwitch ep ct cfg list).gateOper = s.gateOper.set ep (cfg, list) (0, [])
      ∧ (s.gateSwitch ep ct cfg list).time = s.time ∧ (s.gateSwitch ep ct cfg list).frames = s.frames := by
  simp only [State.gateSwitch_eq, State.overrunCheck_gatePend, State.overrunCheck_gateOper, State.overrunCheck_time,
    State.overrunCheck_frames]
  rw [State.withdraw_fields, (s.gateTaken_butEvents ep ct cfg list).fields]
  exact ⟨rfl, rfl, rfl, rfl⟩

/-- A copy that stays chosen at the endpoint has its gate open under the new configuration (R176, R182). -/
theorem State.gateSwitch_chosen {s : State} {ep ct cfg : Nat} {list : List Nat} {c : Copy} (hc : c ∈ (s.gateSwitch ep ct cfg list).copies)
    (he : c.ep = ep) (hs : c.state = .chosen) :
    (s.gateSwitch ep ct cfg list).gateOpen ep c.cls (s.gateSwitch ep ct cfg list).time = true := by
  rw [State.gateSwitch_eq, State.overrunCheck_copies] at hc
  obtain ⟨d, hd, de, dc, ds⟩ := State.exists_of_mem_overrunMarked hc
  have opened := State.not_withdrawn_of_chosen hd (de.trans he) (ds.trans hs)
  obtain ⟨-, oper, time, -⟩ := s.gateSwitch_fields ep ct cfg list
  have before := (s.gateTaken_butEvents ep ct cfg list).fields
  rw [time, State.gateOpen_congr (s := s.gateTaken ep ct cfg list) (by rw [oper, before])]
  rw [dc, show (s.gateTaken ep ct cfg list).time = s.time by rw [before]] at opened
  simpa using opened

/-- GATE_CT_REACHED of a configuration whose time has come. -/
theorem execGateCtReached_of_reached {ep ct cfg : Nat} {list : List Nat} {s : State} (hm : s.mainUp = true)
    (hp : s.gatePend.find? ep = some (ct, cfg, list)) (ht : ct ≤ s.time) :
    execGateCtReached ep s = .next (s.gateSwitch ep ct cfg list) := by
  unfold execGateCtReached
  simp only [hp]
  exact if_pos ⟨hm, ht⟩

theorem gateCtReached_switches (ep ct cfg : Nat) (l : List Nat) (s : State) (hm : s.mainUp = true)
    (hp : s.gatePend.find? ep = some (ct, cfg, l)) (ht : ct ≤ s.time) :
    ∃ t, exec (.gateCtReached ep) s = .next t ∧ t.gateOper.get ep (0, []) = (cfg, l) ∧ t.gatePend.find? ep = none
      ∧ (∀ e, e ≠ ep → t.gateOper.find? e = s.gateOper.find? e ∧ t.gatePend.find? e = s.gatePend.find? e)
      ∧ (∀ c ∈ t.copies, c.ep = ep → t.gateOpen ep c.cls t.time = false → c.state ≠ .chosen) ∧ t.time = s.time ∧ t.frames = s.frames := by
  obtain ⟨pend, oper, time, frames⟩ := s.gateSwitch_fields ep ct cfg l
  refine ⟨_, execGateCtReached_of_reached hm hp ht, ?_, ?_, fun e he => ⟨?_, ?_⟩, fun c hc he closed chosen => ?_, time, frames⟩
  · rw [oper, Map.get_set_self]
  · rw [pend, Map.find?_erase_self]
  · rw [oper, Map.find?_set_ne _ he]
  · rw [pend, Map.find?_erase_ne _ he]
  · simp [State.gateSwitch_chosen hc he chosen] at closed

theorem gateTransition_counts (ep : Nat) (s : State) (hm : s.mainUp = true) (ho : (s.gateOper.find? ep).isSome)
    (hc : ∃ c ∈ s.copies, c.ep = ep ∧ c.state = .sending ∧ c.overrun = false ∧ s.gateOpen ep c.cls s.time = false) :
    ∃ t, exec (.gateTransition ep) s = .next t
      ∧ t.rd 0x00A 0x8004 0 = (s.rd 0x00A 0x8004 0 + (s.copies.filter (fun c => c.ep = ep && (c.state = .sending || c.state = .suspended)
          && !c.overrun && !s.gateOpen ep c.cls s.time)).length) % 2 ^ 64
      ∧ (∀ c ∈ t.copies, c.ep = ep → c.state = .sending → s.gateOpen ep c.cls s.time = false → c.overrun = true)
      ∧ t.rd 0x00A 0x0005 0 = setBit (s.rd 0x00A 0x0005 0) 16 true ∧ t.frames = s.frames := by
  have some_overrun : (s.copies.filter (s.overruns ep)).length ≠ 0 := by
    obtain ⟨c, hc, he, hs, hn, closed⟩ := hc
    refine List.length_pos_iff_exists_mem.mpr ⟨c, List.mem_filter.mpr ⟨hc, ?_⟩⟩ |>.ne'
    simp [State.overruns, he, hs, hn, closed]
  refine ⟨s.overrunCheck ep, if_pos ⟨hm, ho⟩, ?_, fun c hc he hs closed => ?_, ?_, State.overrunCheck_frames s ep⟩
  · rw [State.overrunCheck_of_some some_overrun, State.rd_latch, if_neg (by decide), State.rd_bump_self]
    rfl
  · rw [State.overrunCheck_copies] at hc
    by_contra uncounted
    have := (State.overruns_of_mem_overrunMarked hc (by simpa using uncounted)).2
    simp [State.overruns, he, hs, closed, uncounted] at this
  · rw [State.overrunCheck_of_some some_overrun, State.rd_latch, if_pos ⟨rfl, rfl, rfl⟩, State.rd_bump, if_neg (by decide)]
    rfl

end Sys2Proof.Machine

namespace Sys2Proof.Machine

/-! ### The step of the counter (R283) -/

theorem State.foldl_overrunCheck_fields (l : List Nat) (s : State) :
    l.foldl State.overrunCheck s
      = { s with obj := (l.foldl State.overrunCheck s).obj, copies := (l.foldl State.overrunCheck s).copies } := by
  induction l generalizing s with
  | nil => rfl
  | cons ep l ih =>
    rw [List.foldl_cons, ih (s.overrunCheck ep), State.overrunCheck_fields]

theorem State.rd_foldl_overrunCheck_ne (l : List Nat) (s : State) {u i k : Nat} (h8 : ¬(u = 0x00A ∧ i = 0x8004))
    (h5 : ¬(u = 0x00A ∧ i = 0x0005)) : (l.foldl State.overrunCheck s).rd u i k = s.rd u i k := by
  induction l generalizing s with
  | nil => rfl
  | cons ep l ih => exact (ih (s.overrunCheck ep)).trans (State.rd_overrunCheck_ne s ep h8 h5)

/-- What is told a processor changes the completion, its mailbox and the atlas's register alone. -/
theorem State.finish_fields_of_host (s : State) {a : Agent} (h : a.kind = .host) (code : Abort) (data : List Octet) :
    s.finish a code data
      = { s with
          result := ⟨a, some code, data⟩, hid := (s.finish a code data).hid, mailboxes := (s.finish a code data).mailboxes } := by
  unfold State.finish
  simp only [h]
  split
  · rfl
  · split <;> rfl

/-- The counter has its new value, which is valid and counted as a step (R283). -/
def State.stepTaken (s : State) (new : Nat) : State :=
  State.bump (({ s with timeStep := none, time := new }.setReg .ppsLast ((new : Int) - 1)).wr 0x003 0x5001 0 1) 0x003 0x8000 0 1

/-- A step has been recorded and its resynchronisation of the gates counted (R183, R283). -/
def State.stepped (s : State) (new : Nat) : State :=
  ((s.stepTaken new).record 0x0C03 0x003 [(6, time48Of s.time), (6, time48Of new)]).bump 0x00A 0x8005 0 1

/-- A step that would fall below 0 has been refused (R283). -/
def State.stepRefused (s : State) : State := (State.latch { s with timeStep := none } 0x003 3).wr 0x003 0x7001 0 Abort.range.code

theorem State.rd_finish_of_host (s : State) {a : Agent} (h : a.kind = .host) (code : Abort) (data : List Octet) (u i k : Nat) :
    (s.finish a code data).rd u i k = s.rd u i k := by
  rw [s.finish_fields_of_host h]
  rfl

theorem State.applyStep_of_step {s : State} {c : Agent × Bool × Int} (hc : s.timeStep = some c) (hv : 0 ≤ s.steppedTo c) :
    s.applyStep
      = (((s.stepped ((s.steppedTo c).toNat % timeWrap)).gateOper.map Prod.fst).foldl State.overrunCheck
          (s.stepped ((s.steppedTo c).toNat % timeWrap))).finish c.1 .ok := by
  unfold State.applyStep
  simp only [hc]
  exact if_neg (Int.not_lt.mpr hv)

theorem State.applyStep_of_below_zero {s : State} {c : Agent × Bool × Int} (hc : s.timeStep = some c) (hv : s.steppedTo c < 0) :
    s.applyStep = s.stepRefused.finish c.1 .range := by
  unfold State.applyStep
  simp only [hc]
  exact if_pos hv

/-- What a step of the counter changes but for the gates' counts and the event: its value, `valid`, the two counts (Tables 7.6, 12.3). -/
theorem State.stepped_spec (s : State) (new : Nat) :
    (s.stepped new).time = new ∧ (s.stepped new).timeStep = none ∧ (s.stepped new).frames = s.frames
      ∧ (s.stepped new).rd 0x003 0x5001 0 = 1 ∧ (s.stepped new).rd 0x003 0x8000 0 = (s.rd 0x003 0x8000 0 + 1) % 2 ^ 64
      ∧ (s.stepped new).rd 0x00A 0x8005 0 = (s.rd 0x00A 0x8005 0 + 1) % 2 ^ 64 := by
  have event := State.ButEvents.record (s.stepTaken new) 0x0C03 0x003 [(6, time48Of s.time), (6, time48Of new)] false
  refine ⟨?_, ?_, ?_, ?_, ?_, ?_⟩
  · rw [State.stepped, State.bump_time, event.fields]
    rfl
  · rw [State.stepped, State.bump_timeStep, event.fields]
    rfl
  · rw [State.stepped, State.bump_frames, event.fields]
    rfl
  · rw [State.stepped, State.rd_bump, if_neg (by decide), event.objs _ _ _ rfl (by decide), State.stepTaken, State.rd_bump,
      if_neg (by decide), State.rd_wr_self]
  · rw [State.stepped, State.rd_bump, if_neg (by decide), event.objs _ _ _ rfl (by decide), State.stepTaken, State.rd_bump_self,
      State.rd_wr_ne _ _ (by decide)]
    rfl
  · rw [State.stepped, State.rd_bump_self, event.objs _ _ _ rfl (by decide), State.stepTaken, State.rd_bump, if_neg (by decide),
      State.rd_wr_ne _ _ (by decide)]
    rfl

theorem State.stepRefused_spec (s : State) :
    s.stepRefused.time = s.time ∧ s.stepRefused.timeStep = none ∧ s.stepRefused.rd 0x003 0x7001 0 = 0x0301
      ∧ s.stepRefused.rd 0x003 0x0005 0 = setBit (s.rd 0x003 0x0005 0) 3 true := by
  refine ⟨rfl, rfl, State.rd_wr_self _ _ _ _ _, ?_⟩
  rw [State.stepRefused, State.rd_wr_ne _ _ (by decide), State.rd_latch, if_pos ⟨rfl, rfl, rfl⟩]
  rfl

theorem State.holding_fields (s : State) : s.holding = { s with evHold := s.holding.evHold } := by
  unfold State.holding
  split <;> rfl

@[simp] theorem State.holding_mainUp (s : State) : s.holding.mainUp = s.mainUp := by
  rw [State.holding_fields]
  rfl
@[simp] theorem State.holding_rd (s : State) (u i k : Nat) : s.holding.rd u i k = s.rd u i k := by
  rw [State.holding_fields]
  rfl
@[simp] theorem State.holding_time (s : State) : s.holding.time = s.time := by rw [State.holding_fields]
@[simp] theorem State.holding_timeStep (s : State) : s.holding.timeStep = s.timeStep := by rw [State.holding_fields]
@[simp] theorem State.holding_frames (s : State) : s.holding.frames = s.frames := by rw [State.holding_fields]

/-- TIME_STEP_APPLY answers what the step leaves, but for its event. -/
theorem execTimeStepApply_next {s : State} (hm : s.mainUp = true) :
    ∃ t, exec .timeStepApply s = .next t ∧ s.holding.applyStep.ButEvents t :=
  gathered_next (f := fun s => if s.mainUp then .next s.applyStep else .next s) (if_pos (by simpa using hm))

theorem timeStepApply_steps (a : Agent) (v : Int) (s : State) (hm : s.mainUp = true) (ha : a.kind = .host)
    (hs : s.timeStep = some (a, true, v)) :
    ∃ t, exec .timeStepApply s = .next t ∧ t.time = ofTime80 v.toNat % timeWrap ∧ t.timeStep = none ∧ t.rd 0x003 0x5001 0 = 1
      ∧ t.rd 0x003 0x8000 0 = (s.rd 0x003 0x8000 0 + 1) % 2 ^ 64 ∧ t.rd 0x00A 0x8005 0 = (s.rd 0x00A 0x8005 0 + 1) % 2 ^ 64
      ∧ t.result = ⟨a, some .ok, []⟩ ∧ t.frames = s.frames := by
  obtain ⟨t, ht, events⟩ := execTimeStepApply_next hm
  have value : s.holding.steppedTo (a, true, v) = (ofTime80 v.toNat : Int) := rfl
  rw [State.applyStep_of_step (by simpa using hs) (by rw [value]; exact Int.natCast_nonneg _), value, Int.toNat_natCast] at events
  obtain ⟨time, waits, frames, valid, steps, resyncs⟩ := s.holding.stepped_spec (ofTime80 v.toNat % timeWrap)
  generalize s.holding.stepped (ofTime80 v.toNat % timeWrap) = u at *
  have told := ((u.gateOper.map Prod.fst).foldl State.overrunCheck u).finish_fields_of_host ha .ok []
  have checked := State.foldl_overrunCheck_fields (u.gateOper.map Prod.fst) u
  have object : ∀ x i, eventObj x i = false → ¬(x = 0x001 ∧ i = 0x5000) → ¬(x = 0x00A ∧ i = 0x8004) → ¬(x = 0x00A ∧ i = 0x0005) →
      t.rd x i 0 = u.rd x i 0 := fun x i he hw h8 h5 => by
    rw [events.objs x i 0 he hw, State.rd_finish_of_host _ ha, State.rd_foldl_overrunCheck_ne _ _ h8 h5]
  refine ⟨t, ht, ?_, ?_, ?_, ?_, ?_, ?_, ?_⟩
  · rw [events.fields, told, checked, time]
  · rw [events.fields, told, checked, waits]
  · rw [object _ _ rfl (by decide) (by decide) (by decide), valid]
  · rw [object _ _ rfl (by decide) (by decide) (by decide), steps, State.holding_rd]
  · rw [object _ _ rfl (by decide) (by decide) (by decide), resyncs, State.holding_rd]
  · rw [events.fields, told]
  · rw [events.fields, told, checked, frames, State.holding_frames]

theorem timeStepApply_refuses (a : Agent) (d : Int) (s : State) (hm : s.mainUp = true) (ha : a.kind = .host)
    (hs : s.timeStep = some (a, false, d)) (hd : (s.time : Int) + d * nsUnit < 0) :
    ∃ t, exec .timeStepApply s = .next t ∧ t.time = s.time ∧ t.timeStep = none ∧ t.rd 0x003 0x7001 0 = 0x0301
      ∧ t.rd 0x003 0x0005 0 = setBit (s.rd 0x003 0x0005 0) 3 true ∧ t.result = ⟨a, some .range, []⟩ := by
  obtain ⟨t, ht, events⟩ := execTimeStepApply_next hm
  have value : s.holding.steppedTo (a, false, d) = (s.time : Int) + d * nsUnit := by simp [State.steppedTo]
  rw [State.applyStep_of_below_zero (by simpa using hs) (by rw [value]; exact hd)] at events
  obtain ⟨time, waits, result, alarm⟩ := s.holding.stepRefused_spec
  have told := s.holding.stepRefused.finish_fields_of_host ha .range []
  refine ⟨t, ht, ?_, ?_, ?_, ?_, ?_⟩
  · rw [events.fields, told, time, State.holding_time]
  · rw [events.fields, told, waits]
  · rw [events.objs _ _ _ rfl (by decide), State.rd_finish_of_host _ ha, result]
  · rw [events.objs _ _ _ rfl (by decide), State.rd_finish_of_host _ ha, alarm, State.holding_rd]
  · rw [events.fields, told]

end Sys2Proof.Machine
end

section
/-! The boundary: what it opens, what it does, and a device with nothing to do (O30). -/
namespace Sys2Proof.Machine

/-! ### The opening of a tick (R11, R25) -/

/-- The count of ticks over which the conditions of IDLE have held starts again, or goes on by one (R361). -/
theorem State.exists_idleCount_eq (s : State) :
    ∃ x, x ≤ max 0 (s.reg .idleTicks) + 1 ∧ s.idleCount = ((s.setReg .idleTicks x).setReg .idleMark s.idleTrace).setReg .idleBroken 0 := by
  unfold State.idleCount
  dsimp only
  split
  · exact ⟨0, by omega, rfl⟩
  · split
    · exact ⟨s.reg .idleTicks + 1, by omega, rfl⟩
    · exact ⟨1, by omega, rfl⟩

/-- Neither the count of idle ticks nor an entry into IDLE takes a slot of the new tick. -/
theorem State.idleStep_opening (s : State) :
    s.idleStep.slot = s.slot ∧ s.idleStep.reg .slotsTaken = s.reg .slotsTaken ∧ s.idleStep.reg .surveyUsed = s.reg .surveyUsed := by
  obtain ⟨x, -, counted⟩ := s.exists_idleCount_eq
  unfold State.idleStep
  dsimp only
  rw [counted]
  split <;> simp [State.enterIdle, State.reg_setReg]

theorem State.newTick_opening (s : State) :
    s.newTick.slot = 0 ∧ s.newTick.reg .slotsTaken = 0 ∧ s.newTick.reg .surveyUsed = 0 := by
  refine ⟨rfl, ?_, ?_⟩
  · show State.reg ((s.setReg .slotsTaken 0).setReg .surveyUsed 0) .slotsTaken = 0
    rw [State.reg_setReg, if_neg (by decide), State.reg_setReg_self]
  · show State.reg ((s.setReg .slotsTaken 0).setReg .surveyUsed 0) .surveyUsed = 0
    exact State.reg_setReg_self _ _ _

/-- What a boundary has done up to the delivery of interrupts, its records written. -/
def State.boundaryWork (s : State) : State :=
  s.together fun s =>
    let s0 := ((s.advance (256 - s.slot)).latchSnaps.clearBlocks.countTicks).scanStep
    let s1 := s0.boundaryTimers.pauseStep.watchStep
    let s2 := s1.commitStep.applyRates.flip.modeStep
    s2.creditStep.mPackets.applyStep.sampleStep.serveStep

/-- The delivery of interrupts and the opening of the new tick. -/
def State.boundaryOpen (s : State) : State := s.interruptStep.newTick.blockAccept.idleStep

theorem State.tickBoundary_eq (s : State) : s.tickBoundary = s.boundaryWork.together State.boundaryOpen := rfl

theorem State.boundaryOpen_opening (s : State) :
    s.boundaryOpen.slot = 0 ∧ s.boundaryOpen.reg .slotsTaken = 0 ∧ s.boundaryOpen.reg .surveyUsed = 0 := by
  obtain ⟨slot, taken, used⟩ := s.interruptStep.newTick.blockAccept.idleStep_opening
  obtain ⟨slot0, taken0, used0⟩ := s.interruptStep.newTick_opening
  have accepted := State.Upkeep.blockAccept s.interruptStep.newTick
  refine ⟨slot.trans ?_, taken.trans ((accepted.regs _ rfl).trans taken0), used.trans ((accepted.regs _ rfl).trans used0)⟩
  rw [accepted.fields]
  exact slot0

theorem State.ButEvents.slot {s t : State} (h : s.ButEvents t) : t.slot = s.slot := by rw [h.fields]

theorem State.tickBoundary_opening (s : State) :
    s.tickBoundary.slot = 0 ∧ s.tickBoundary.reg .slotsTaken = 0 ∧ s.tickBoundary.reg .surveyUsed = 0 := by
  obtain ⟨slot, taken, used⟩ := s.boundaryWork.holding.boundaryOpen_opening
  have events : s.boundaryWork.holding.boundaryOpen.ButEvents s.tickBoundary := by
    rw [State.tickBoundary_eq]
    exact together_butEvents
  exact ⟨events.slot.trans slot, (events.regs _ rfl).trans taken, (events.regs _ rfl).trans used⟩

theorem exec_tickBoundary_of_mainUp {s : State} (h : s.mainUp = true) : exec .tickBoundary s = .next s.tickBoundary := if_pos h

theorem exec_tickBoundary_of_not_mainUp {s : State} (h : s.mainUp = false) : exec .tickBoundary s = .next s := if_neg (by simp [h])

/-! ### A device with nothing to do -/

/-- A device in mode `m`, CONFIGURE or RUN, on which no work is due at a boundary, its tick count `n`, its idle ticks at most `i`. -/
structure State.Still (m n : Nat) (i : Int) (s : State) : Prop where
  awake    : m ≠ 2
  mode     : s.mode = m
  tick     : s.rd 0x000 0x5001 0 = n
  idle     : s.reg .idleTicks ≤ i
  idling   : 1 ≤ s.rd 0x001 0x1001 0
  atlas    : s.rd 0x005 0x500B 0 = 0
  edition  : s.rd 0x006 0x5001 0 = 0
  fabric   : s.rd 0x00D 0x1000 0 = 0
  request  : s.reg .requestHeld = 0
  frames   : s.frames = []
  copies   : s.copies = []
  leases   : s.leases = []
  claims   : s.claims = []
  commits  : s.commits = []
  holds    : s.holds = []
  genQ     : s.genQ = []
  accessQ  : s.accessQ = []
  groups   : s.groupCmds = []
  ahead    : s.ahead = []
  buffers  : s.bqBuffers = []
  snaps    : s.snapWait = []
  clears   : s.clearWait = []
  noMode   : s.modeWait = none
  noStep   : s.timeStep = none

namespace State.Still
variable {m n : Nat} {i : Int} {s t : State}

/-- The upkeep of a boundary gives the device nothing to do. -/
theorem upkeep (h : s.Still m n i) (k : s.Upkeep t) : t.Still m n i where
  awake := h.awake
  mode := (k.mode.mode (by rw [h.mode]; exact h.awake)).trans h.mode
  tick := (k.objs _ _ rfl).trans h.tick
  idle := (k.regs _ rfl).trans_le h.idle
  idling := h.idling.trans_eq (k.objs _ _ rfl).symm
  atlas := (k.objs _ _ rfl).trans h.atlas
  edition := (k.objs _ _ rfl).trans h.edition
  fabric := (k.objs _ _ rfl).trans h.fabric
  request := (k.regs _ rfl).trans h.request
  frames := (congrArg State.frames k.fields).trans h.frames
  copies := k.copies h.copies
  leases := (congrArg State.leases k.fields).trans h.leases
  claims := (congrArg State.claims k.fields).trans h.claims
  commits := (congrArg State.commits k.fields).trans h.commits
  holds := (congrArg State.holds k.fields).trans h.holds
  genQ := (congrArg State.genQ k.fields).trans h.genQ
  accessQ := (congrArg State.accessQ k.fields).trans h.accessQ
  groups := (congrArg State.groupCmds k.fields).trans h.groups
  ahead := (congrArg State.ahead k.fields).trans h.ahead
  buffers := (congrArg State.bqBuffers k.fields).trans h.buffers
  snaps := (congrArg State.snapWait k.fields).trans h.snaps
  clears := (congrArg State.clearWait k.fields).trans h.clears
  noMode := (congrArg State.modeWait k.fields).trans h.noMode
  noStep := (congrArg State.timeStep k.fields).trans h.noStep

theorem latchSnaps (h : s.Still m n i) : s.latchSnaps = s := by
  have none_left : { s with snapWait := [] } = s := by rw [← h.snaps]
  rw [State.latchSnaps, h.snaps, none_left, List.foldl_nil]

theorem clearBlocks (h : s.Still m n i) : s.clearBlocks = s := by
  have none_left : { s with clearWait := [] } = s := by rw [← h.clears]
  rw [State.clearBlocks, h.clears, none_left, List.foldl_nil]

theorem leaseStep (h : s.Still m n i) : s.leaseStep = s := by
  have none_left : { s with leases := [] } = s := by rw [← h.leases]
  rw [State.leaseStep, h.leases]
  exact none_left

theorem claimStep (h : s.Still m n i) : s.claimStep = s := by
  have none_left : { s with claims := [] } = s := by rw [← h.claims]
  rw [State.claimStep, State.orderedClaims, h.claims, none_left, List.foldl_nil, State.decideClaims]

theorem pauseStep (h : s.Still m n i) : s.pauseStep = s := by rw [State.pauseStep, h.holds, List.foldl_nil]

/-- No hold is in force, so no watchdog is armed (R217). -/
theorem wdCheck (h : s.Still m n i) (ch : Nat) : s.wdCheck ch = s := by
  have unarmed : s.wdArmed ch = false := by simp [State.wdArmed, State.holdOf, h.holds, Map.get, Map.find?]
  rw [State.wdCheck, if_neg (by simp [unarmed])]

theorem commitStep (h : s.Still m n i) : s.commitStep = s := by
  rw [State.commitStep, h.commits]
  rfl

theorem flip (h : s.Still m n i) : s.flip = s := if_pos (by rw [h.edition]; decide)

theorem modeStep (h : s.Still m n i) : s.modeStep = s := by rw [State.modeStep, h.noMode]

theorem mPackets (h : s.Still m n i) : s.mPackets = s := by rw [State.mPackets, h.genQ, List.foldl_nil]

theorem applyStep (h : s.Still m n i) : s.applyStep = s := by rw [State.applyStep, h.noStep]

theorem lsaCheck (h : s.Still m n i) : s.lsaCheck = s := if_pos (by simp [State.fabricOn, h.fabric])

theorem heldStep (h : s.Still m n i) : s.heldStep = s := if_pos (.inl (by simp [State.regN, h.request]))

theorem groupPump (h : s.Still m n i) : s.groupPump = s := by rw [State.groupPump, h.groups, List.foldl_nil]

theorem accessServe (h : s.Still m n i) (k : Nat) : State.accessServe k s = s := by
  cases k with
  | zero => rfl
  | succ k => rw [State.accessServe, h.accessQ]

theorem atlasResume (h : s.Still m n i) : s.atlasResume = s := by
  rw [State.atlasResume, h.atlas, if_neg (by simp), if_pos (.inl (by decide))]

/-- Nothing has been read ahead, so no entry completes in error. -/
theorem txErrors (h : s.Still m n i) (k q : Nat) : State.txErrors k s q = s := by
  cases k with
  | zero => rfl
  | succ k => simp only [State.txErrors, State.aheadNext, State.aheadOf, h.ahead, List.filter_nil, List.find?_nil]

theorem rxErrors (h : s.Still m n i) (k b : Nat) : State.rxErrors k s b = s := by
  cases k with
  | zero => rfl
  | succ k => simp only [State.rxErrors, h.buffers, List.find?_nil]

theorem pumpPayload (h : s.Still m n i) : s.pumpPayload = s := by
  have none_ahead : s.payloadOrder = [] := by simp [State.payloadOrder, State.aheadOf, h.ahead]
  rw [State.pumpPayload, none_ahead, List.foldl_nil]

/-- Steps that each keep the device still. -/
theorem foldl {α : Type} {f : State → α → State} (hf : ∀ (u : State) x, u.Still m n i → (f u x).Still m n i) (l : List α) {s : State}
    (h : s.Still m n i) : (l.foldl f s).Still m n i := by
  induction l generalizing s with
  | nil => exact h
  | cons x l ih => exact ih (hf s x h)

/-- The host port reads at most descriptors and what running jobs need. -/
theorem pump (h : s.Still m n i) : s.pump.Still m n i := by
  unfold State.pump
  split
  · exact h
  · have tqs := foldl (f := fun s q => State.fetchTq 33 (State.txErrors 33 s q) q)
      (fun u q hu => by rw [hu.txErrors]; exact hu.upkeep (.fetchTq 33 u q)) s.ringList h
    have bqs := foldl (f := fun s b => State.fetchBq 4 (State.rxErrors 4 s b) b)
      (fun u b hu => by rw [hu.rxErrors]; exact hu.upkeep (.fetchBq 4 u b)) (s.ringList.foldl (fun s q => State.fetchTq 33 (State.txErrors 33 s q) q) s).ringList tqs
    dsimp only
    rw [bqs.pumpPayload]
    exact bqs.upkeep (.foldl State.Upkeep.jobReads _ _)

theorem watchStep (h : s.Still m n i) (ht : s.timersOut true = []) : s.watchStep.Still m n i := by
  have unbroken : ∀ l : List Nat, l.foldl State.wdCheck s = s := fun l => by
    induction l with
    | nil => rfl
    | cons ch l ih => rw [List.foldl_cons, h.wdCheck, ih]
  rw [State.watchStep, unbroken, ht, List.foldl_nil]
  exact h.upkeep (.foldl State.Upkeep.stallCheck _ _)

theorem sampleStep (h : s.Still m n i) : s.sampleStep.Still m n i := by
  have aged : State.Upkeep s ((List.range s.build.lanes).foldl State.ageHello ([0, 1, 2].foldl State.latchAir s).linkMoves.tagVisits).recomputeAlarms :=
    ((State.Upkeep.foldl State.Upkeep.latchAir _ s).trans ((State.Upkeep.linkMoves _).trans (State.Upkeep.tagVisits _))).trans
      ((State.Upkeep.foldl State.Upkeep.ageHello _ _).trans (State.Upkeep.recomputeAlarms _))
  have still := h.upkeep aged
  rw [← still.lsaCheck] at still
  exact still

theorem serveStep (h : s.Still m n i) : s.serveStep.Still m n i := by
  rw [State.serveStep, h.heldStep, h.groupPump, h.accessServe, h.atlasResume]
  exact (h.upkeep (.discoverStep s)).pump

end State.Still
end Sys2Proof.Machine

namespace Sys2Proof.Machine

theorem State.foldl_keeps_field {α β : Type} (g : State → β) {f : State → α → State} (hf : ∀ u x, g (f u x) = g u) (l : List α) (s : State) :
    g (l.foldl f s) = g s := by
  induction l generalizing s with
  | nil => rfl
  | cons x l ih => exact (ih (f s x)).trans (hf s x)

/-- What the counts of a closing tick never touch. -/
def State.timersTables (s : State) : Map TimerId Nat × Map EntAddr Nat := (s.timers, s.tab)

theorem State.countTicks_timersTables (s : State) : s.countTicks.timersTables = s.timersTables := by
  have xoff : ∀ (u : State) ch, (u.countXoff ch).timersTables = u.timersTables := fun u ch => by
    unfold State.countXoff
    split
    · rfl
    · exact State.foldl_keeps_field _ (fun v k => by split <;> rfl) _ u
  have hold : ∀ (u : State) h, (u.countHold h).timersTables = u.timersTables := fun u h => by
    unfold State.countHold
    split <;> rfl
  have stall : ∀ (u : State) cq, (u.countStall cq).timersTables = u.timersTables := fun u cq => by
    unfold State.countStall
    split <;> rfl
  unfold State.countTicks
  extract_lets s1 s2
  have held : s1.timersTables = s.timersTables := (State.foldl_keeps_field _ hold _ _).trans (State.foldl_keeps_field _ xoff _ s)
  have stalled : s2.timersTables = s.timersTables := by
    refine (State.foldl_keeps_field _ stall _ _).trans (Eq.trans ?_ held)
    split <;> rfl
  refine Eq.trans ?_ stalled
  split <;> rfl

/-- Without a running job nothing is read (R274, R275). -/
theorem State.scanStep_of_no_job {s : State} (h : ∀ j, jobState (s.job j) = 0) : s.scanStep = s := by
  have idle : ∀ j, s.jobReading j = false := fun j => by simp [State.jobReading, h j]
  simp [State.scanStep, idle]

theorem State.Upkeep.holding (s : State) : s.Upkeep s.holding := by
  unfold State.holding
  split
  · exact .refl s
  · exact .events (.other s) (.other s)

theorem State.Upkeep.together (s : State) (f : State → State) : (f s.holding).Upkeep (s.together f) := by
  cases e : s.evHold with
  | some l =>
    simp only [State.holding, State.together, e]
    exact .refl _
  | none =>
    simp only [State.holding, State.together, e]
    exact .writeHeld _

/-- A tick has been counted: `tick_count` is `x`, the slot 0, and the timers stand at `timers`. -/
def State.ticked (s : State) (x : Nat) (timers : Map TimerId Nat) : State := { s.wr 0x000 0x5001 0 x with slot := 0, timers := timers }

/-- What step 1 fires, and the leases and claims after it (R25, R409). -/
def State.firedStep (s : State) : State :=
  let s3 := (s.timersOut false).foldl State.fireIf s
  (if s3.leases.any (fun l => l.left ≤ 1) then s3.wake else s3).leaseStep.claimStep

theorem State.boundaryTimers_eq (s : State) :
    s.boundaryTimers = (s.ticked ((s.tick + 1) % 2 ^ 64) (s.timers.map (fun (p : TimerId × Nat) => (p.1, p.2 - 1)))).firedStep := rfl

/-- A job whose table entry has not been written is EMPTY (Table 11.6). -/
theorem State.jobState_of_no_table {s : State} (h : s.tab = []) (j : Nat) : jobState (s.job j) = 0 := by
  have unwritten : s.job j = 0 := by
    rw [State.job, State.ent, h]
    rfl
  rw [unwritten]
  decide

namespace State.Still
variable {m n : Nat} {i : Int} {s : State}

/-- The tick count advances. -/
theorem ticked (h : s.Still m n i) (x : Nat) (timers : Map TimerId Nat) : (s.ticked x timers).Still m x i :=
  { h with
    mode := (State.rd_wr_ne s x (by decide)).trans h.mode
    tick := State.rd_wr_self s _ _ _ _
    idling := h.idling.trans_eq (State.rd_wr_ne s x (by decide)).symm
    atlas := (State.rd_wr_ne s x (by decide)).trans h.atlas
    edition := (State.rd_wr_ne s x (by decide)).trans h.edition
    fabric := (State.rd_wr_ne s x (by decide)).trans h.fabric }

/-- Step 1 with only the token timer running and not due: it counts, and nothing ends or fires. -/
theorem boundaryTimers (h : s.Still m n i) {k : Nat} (ht : s.timers = [(.token, k + 2)]) :
    s.boundaryTimers = s.ticked ((n + 1) % 2 ^ 64) [(.token, k + 1)] := by
  have still := h.ticked ((n + 1) % 2 ^ 64) [(.token, k + 1)]
  have none_due : (s.ticked ((n + 1) % 2 ^ 64) [(.token, k + 1)]).timersOut false = [] := by simp [State.timersOut, State.ticked]
  rw [State.boundaryTimers_eq, State.tick, h.tick, ht]
  show (s.ticked ((n + 1) % 2 ^ 64) [(.token, k + 1)]).firedStep = _
  rw [State.firedStep, none_due, List.foldl_nil, still.leases, List.any_nil, if_neg (by decide), still.leaseStep, still.claimStep]

theorem newTick (h : s.Still m n i) : s.newTick.Still m n i :=
  have others : ∀ g : Hid, g ≠ .slotsTaken → g ≠ .surveyUsed → s.newTick.reg g = s.reg g := fun g ht hu => by
    show State.reg ((s.setReg .slotsTaken 0).setReg .surveyUsed 0) g = s.reg g
    rw [State.reg_setReg, if_neg hu, State.reg_setReg, if_neg ht]
  { h with
    idle := (others _ (by decide) (by decide)).trans_le h.idle
    request := (others _ (by decide) (by decide)).trans h.request }

theorem setIdleTicks (h : s.Still m n i) (x : Int) : (s.setReg .idleTicks x).Still m n x :=
  { h with
    idle := (State.reg_setReg_self s _ _).le
    request := (State.reg_setReg _ _ _ _).trans ((if_neg (by decide)).trans h.request) }

/-- The conditions of IDLE have held for one tick at most, so it is not entered (R361). -/
theorem idleStep (h : s.Still m n 0) : ∃ x, s.idleStep.Still m n x := by
  obtain ⟨x, hx, counted⟩ := s.exists_idleCount_eq
  have few : x ≤ 1 := by
    have := h.idle
    omega
  have still : s.idleCount.Still m n x := by
    rw [counted]
    exact (h.setIdleTicks x).upkeep ((State.Upkeep.setReg _ (by rfl)).trans (.setReg _ (by rfl)))
  have not_due : s.idleCount.idleDueNow = false := by
    have ticks : s.idleCount.regN .idleTicks ≤ s.idleCount.rd 0x001 0x1001 0 := by
      have := still.idle
      have := still.idling
      unfold State.regN
      omega
    simp [State.idleDueNow, ticks]
  refine ⟨x, ?_⟩
  unfold State.idleStep
  dsimp only
  rw [not_due, if_neg (by decide)]
  exact still

theorem boundaryOpen (h : s.Still m n 0) : ∃ x, s.boundaryOpen.Still m n x :=
  ((h.upkeep (.interruptStep s)).newTick.upkeep (.blockAccept _)).idleStep

/-- The work of a boundary on a still device with one token timer and no jobs: the tick is counted, and nothing is left to do. -/
theorem boundaryWork (h : s.Still m n i) {k : Nat} (ht : s.timers = [(.token, k + 2)]) (htab : s.tab = []) :
    s.boundaryWork.Still m ((n + 1) % 2 ^ 64) i := by
  have advanced := h.upkeep ((State.Upkeep.holding s).trans (.advance _ (256 - s.holding.slot)))
  generalize e : s.holding.advance (256 - s.holding.slot) = a at advanced
  have same : a.timersTables = s.timersTables := by
    rw [← e, State.advance_eq, State.holding_fields]
    rfl
  have closed := advanced.upkeep (.countTicks a)
  have counts : a.countTicks.timersTables = ([(.token, k + 2)], []) := by
    rw [a.countTicks_timersTables, same, State.timersTables, ht, htab]
  have jobs := State.jobState_of_no_table (s := a.countTicks) (congrArg Prod.snd counts)
  refine upkeep ?_ (.together s _)
  dsimp only
  rw [e, advanced.latchSnaps, advanced.clearBlocks, State.scanStep_of_no_job jobs, closed.boundaryTimers (congrArg Prod.fst counts)]
  have ticked := closed.ticked ((n + 1) % 2 ^ 64) [(.token, k + 1)]
  rw [ticked.pauseStep]
  have watched := ticked.watchStep (by simp [State.timersOut, State.ticked, TimerId.isWatch])
  rw [watched.commitStep]
  have rated := watched.upkeep (.applyRates _)
  rw [rated.flip, rated.modeStep]
  have credited := rated.upkeep (.creditStep _)
  rw [credited.mPackets, credited.applyStep]
  exact credited.sampleStep.serveStep

theorem tickBoundary (h : s.Still m n 0) {k : Nat} (ht : s.timers = [(.token, k + 2)]) (htab : s.tab = []) :
    ∃ x, s.tickBoundary.Still m ((n + 1) % 2 ^ 64) x := by
  obtain ⟨x, opened⟩ := ((h.boundaryWork ht htab).upkeep (.holding _)).boundaryOpen
  rw [State.tickBoundary_eq]
  exact ⟨x, opened.upkeep (.together _ _)⟩

end State.Still

/-- Every object but the mode and the tick count is at its reset value. -/
theorem State.quietAt_rd (mode n : Nat) {u i : Nat} (hm : ¬(u = 0x001 ∧ i = 0x5000)) (ht : ¬(u = 0x000 ∧ i = 0x5001)) :
    (State.quietAt mode n).rd u i 0 = State.reset.rd u i 0 := by
  rw [State.quietAt, State.rd_wr_ne _ _ (fun h => ht ⟨h.1, h.2.1⟩), State.rd_wr_ne _ _ (fun h => hm ⟨h.1, h.2.1⟩)]

/-- After reset IDLE waits for some ticks, the atlas, an edition's flip and the fabric are off, and the mode is steady. -/
theorem State.reset_has_nothing_due :
    1 ≤ State.reset.rd 0x001 0x1001 0 ∧ State.reset.rd 0x005 0x500B 0 = 0 ∧ State.reset.rd 0x006 0x5001 0 = 0
      ∧ State.reset.rd 0x00D 0x1000 0 = 0 ∧ State.reset.rd 0x001 0x5001 0 = 0 := by
  decide +kernel

theorem State.quietAt_still {mode n : Nat} (h : mode ≤ 1) : (State.quietAt mode n).Still mode n 0 :=
  have ⟨idling, atlas, edition, fabric, _⟩ := State.reset_has_nothing_due
  { awake := by omega
    mode := by rw [State.mode, State.quietAt, State.rd_wr_ne _ _ (by decide), State.rd_wr_self]
    tick := State.rd_wr_self _ _ _ _ _
    idle := le_rfl
    idling := idling.trans_eq (State.quietAt_rd mode n (by decide) (by decide)).symm
    atlas := (State.quietAt_rd mode n (by decide) (by decide)).trans atlas
    edition := (State.quietAt_rd mode n (by decide) (by decide)).trans edition
    fabric := (State.quietAt_rd mode n (by decide) (by decide)).trans fabric
    request := rfl
    frames := rfl
    copies := rfl
    leases := rfl
    claims := rfl
    commits := rfl
    holds := rfl
    genQ := rfl
    accessQ := rfl
    groups := rfl
    ahead := rfl
    buffers := rfl
    snaps := rfl
    clears := rfl
    noMode := rfl
    noStep := rfl }

theorem State.quietAt_mainUp {mode n : Nat} (h : mode ≤ 1) : (State.quietAt mode n).mainUp = true := by
  have mode_eq := (State.quietAt_still (n := n) h).mode
  obtain ⟨-, -, -, -, steady⟩ := State.reset_has_nothing_due
  have phase : (State.quietAt mode n).phase = 0 := (State.quietAt_rd mode n (by decide) (by decide)).trans steady
  have no_reset : (State.quietAt mode n).regN .porstLow = 0 ∧ (State.quietAt mode n).regN .srstLow = 0
      ∧ (State.quietAt mode n).regN .pllLost = 0 := ⟨rfl, rfl, rfl⟩
  simp [State.mainUp, mode_eq, phase, no_reset]
  omega

theorem quiet_boundary (mode n : Nat) (hm : mode ≤ 1) :
    ∃ t, exec .tickBoundary (State.quietAt mode n) = .next t ∧ t.rd 0x000 0x5001 0 = (n + 1) % 2 ^ 64 ∧ t.slot = 0 ∧ t.mode = mode
      ∧ t.frames = [] ∧ t.copies = [] ∧ t.leases = [] := by
  obtain ⟨_, still⟩ := (State.quietAt_still (n := n) hm).tickBoundary (k := 12499998) rfl rfl
  exact ⟨_, exec_tickBoundary_of_mainUp (State.quietAt_mainUp hm), still.tick, (State.tickBoundary_opening _).1, still.mode, still.frames,
    still.copies, still.leases⟩

end Sys2Proof.Machine

namespace Sys2Proof.Machine
/-! ### A boundary at which work of each step is due (Table 1.3) -/

/-- A write of `pps_out_enable` by the first processor, covered by the commit below. -/
def dueWrite : StagedWrite := ⟨.obj ⟨0x003, 0x1001, 0⟩, 1, ⟨.host, 0⟩⟩

/-- A device on which work of each step of the boundary is due (Table 1.3). -/
def dueDevice : State :=
  { (State.quietAt 0 7).startTimer .token 1 with
    leases := [⟨0x101, ⟨.host, 0⟩, 1⟩], claims := [⟨0x102, ⟨.host, 0⟩⟩], holds := [((0, 8), 1)], staged := [dueWrite]
    commits := [⟨0x003, ⟨.host, 0⟩, true, [dueWrite], []⟩], modeWait := some 1, timeStep := some (⟨.host, 0⟩, true, 1000)
    snapWait := [⟨1, 0x500, ⟨.host, 0⟩, []⟩], clearWait := [0x500] }

theorem dueDevice_mainUp : dueDevice.mainUp = true := by decide +kernel

theorem dueDevice_boundary : let t := dueDevice.tickBoundary
    t.rd 0x000 0x5001 0 = 8 ∧ t.rd 0x005 0x5009 0 = min 512 (dueDevice.rd 0x005 0x5009 0 + 1)
      ∧ t.timer .token = some 12500000 ∧ t.leases = [⟨0x102, ⟨.host, 0⟩, dueDevice.leaseTicks⟩] ∧ t.claims = [] ∧ t.holdOf 0 8 = 0
      ∧ t.rd 0x003 0x1001 0 = 1 ∧ t.staged = [] ∧ t.commits = [] ∧ t.mode = 1 ∧ t.modeWait = none ∧ t.timeStep = none
      ∧ t.rd 0x003 0x5001 0 = 1 ∧ t.snapWait = [] ∧ t.rd 0x011 0x5002 1 = 8 ∧ t.clearWait = [] ∧ (t.rd 0x500 0x0005 0).testBit 16 = true := by
  decide +kernel

theorem boundary_does_work_of_each_step (h : Agent) (w : StagedWrite) (s : State) (hh : h = ⟨.host, 0⟩) (hw : w = ⟨.obj ⟨0x003, 0x1001, 0⟩, 1, h⟩)
    (hs : s = { (State.quietAt 0 7).startTimer .token 1 with
        leases := [⟨0x101, h, 1⟩], claims := [⟨0x102, h⟩], holds := [((0, 8), 1)], staged := [w], commits := [⟨0x003, h, true, [w], []⟩],
        modeWait := some 1, timeStep := some (h, true, 1000), snapWait := [⟨1, 0x500, h, []⟩], clearWait := [0x500] }) :
    ∃ t, exec .tickBoundary s = .next t ∧ t.rd 0x000 0x5001 0 = 8 ∧ t.rd 0x005 0x5009 0 = min 512 (s.rd 0x005 0x5009 0 + 1)
      ∧ t.timer .token = some 12500000 ∧ t.leases = [⟨0x102, h, s.leaseTicks⟩] ∧ t.claims = [] ∧ t.holdOf 0 8 = 0
      ∧ t.rd 0x003 0x1001 0 = 1 ∧ t.staged = [] ∧ t.commits = [] ∧ t.mode = 1 ∧ t.modeWait = none ∧ t.timeStep = none
      ∧ t.rd 0x003 0x5001 0 = 1 ∧ t.snapWait = [] ∧ t.rd 0x011 0x5002 1 = 8 ∧ t.clearWait = [] ∧ (t.rd 0x500 0x0005 0).testBit 16 = true := by
  obtain rfl : s = dueDevice := by rw [hs, hw, hh]; rfl
  subst hh
  exact ⟨_, exec_tickBoundary_of_mainUp dueDevice_mainUp, dueDevice_boundary⟩
end Sys2Proof.Machine

open Sys2Proof Sys2Proof.Machine

/-- Settles O30: what opens a tick, a device on which work of each step is due, the step of the counter, the gates, and a device on which
nothing is due. -/
theorem stepsAndGatesTakeEffect : Obligations.StepsAndGatesTakeEffect := by
  unfold Obligations.StepsAndGatesTakeEffect
  refine ⟨fun s => ⟨fun up => ⟨_, exec_tickBoundary_of_mainUp up, s.tickBoundary_opening⟩, exec_tickBoundary_of_not_mainUp⟩,
    boundary_does_work_of_each_step, timeStepApply_steps, timeStepApply_refuses, gateCtReached_switches, gateTransition_counts,
    fun mode n steady _ => quiet_boundary mode n steady⟩

end

section
/-! What the operations beside a frame's own path leave as it is: frames, copies, the queues of frames, and the few objects, registers and
entries that a frame's path reads (O17, O18, O21). -/

namespace Sys2Proof.Machine

/-! ### A frame by its number -/

theorem State.id_of_frame? {s : State} {id : Nat} {f : Frame} (h : s.frame? id = some f) : f.id = id := by
  simpa using List.find?_some h

theorem State.frame?_congr {s t : State} (h : t.frames = s.frames) (id : Nat) : t.frame? id = s.frame? id := by
  unfold State.frame?
  rw [h]

/-- The frame of a number after an update of the frames that moves no number. -/
theorem State.frame?_map {s t : State} {g : Frame → Frame} (ht : t.frames = s.frames.map g) (hg : ∀ x, (g x).id = x.id) (id : Nat) :
    t.frame? id = (s.frame? id).map g := by
  unfold State.frame?
  rw [ht, List.find?_map]
  simp [hg]

theorem State.frame?_setFrame {s : State} {id : Nat} {f g : Frame} (h : s.frame? id = some f) (hg : g.id = id) :
    (s.setFrame g).frame? id = some g := by
  rw [State.frame?_map (s := s) rfl (fun x => by split <;> simp_all), h]
  simp [State.id_of_frame? h, hg]

theorem State.frame?_eq_none_of_filter {s : State} {id : Nat} {l : List Frame} (h : s.frames = l.filter (fun g => g.id ≠ id)) :
    s.frame? id = none := by
  unfold State.frame?
  rw [h]
  simp

/-- The copies of a frame depend on the copies alone. -/
theorem State.copiesOf_congr {s t : State} (h : t.copies = s.copies) (id : Nat) : t.copiesOf id = s.copiesOf id := by
  unfold State.copiesOf
  rw [h]

theorem State.hostSending_congr {s t : State} (h : t.copies = s.copies) (id : Nat) : t.hostSending id = s.hostSending id := by
  unfold State.hostSending
  rw [h]

/-! ### A command that gathers its events -/

theorem gathered_of_held {s : State} {l : List HeldEvent} (h : s.evHold = some l) (f : State → Host.Outcome State Fault Refusal) :
    gathered s f = f s := by
  unfold gathered
  rw [h]

theorem State.holding_eq (s : State) : ∃ l, s.holding = { s with evHold := some l } := by
  unfold State.holding
  split
  next l held => exact ⟨l, by rw [← held]⟩
  next => exact ⟨[], rfl⟩

/-- A command that gathers its events answers, but for them, what it answers where events are held already. -/
theorem exists_gathered_next {s : State} {f : State → Host.Outcome State Fault Refusal} {Q : State → Prop}
    (h : ∀ l, ∃ u, gathered { s with evHold := some l } f = .next u ∧ Q u) : ∃ u t, gathered s f = .next t ∧ Q u ∧ u.ButEvents t := by
  obtain ⟨l, held⟩ := s.holding_eq
  obtain ⟨u, answers, hu⟩ := h l
  obtain ⟨t, ht, events⟩ := gathered_next (s := s) (f := f) (u := u) (by rw [held, ← answers]; rfl)
  exact ⟨u, t, ht, hu, events⟩

/-- Where the meaning records nothing, only the mark of the events held is as before. -/
theorem exists_gathered_eq {s : State} {f : State → Host.Outcome State Fault Refusal} {Q : State → Prop}
    (h : ∀ l, ∃ u : State, gathered { s with evHold := some l } f = .next u ∧ u.evHold = some l ∧ Q u) :
    ∃ u : State, gathered s f = .next { u with evHold := s.evHold } ∧ Q u := by
  cases held : s.evHold with
  | some l =>
    obtain ⟨u, answers, kept, hu⟩ := h l
    refine ⟨u, ?_, hu⟩
    rw [show s = { s with evHold := some l } by rw [← held], answers, ← kept]
  | none =>
    obtain ⟨u, answers, kept, hu⟩ := h []
    refine ⟨u, ?_, hu⟩
    rw [gathered_of_held rfl] at answers
    simp only [gathered, held, answers]
    simp [State.writeHeld, kept]

/-! ### What stays -/

/-- The objects that a frame's path reads or counts in: `tick_count`, the receive frame counters, `rx_fcs_err`. -/
def workObj (u i : Nat) : Bool :=
  (u = 0x000 && i = 0x5001) || (0x500 ≤ u && i = 0x8000) || (0x200 ≤ u && u < 0x500 && i = 0x8010)

/-- The registers that hold tags of fair queuing (R185). -/
def Hid.isTag : Hid → Bool
  | .vtime _ _ => true
  | .finish _ => true
  | _ => false

/-- `t` has the copies and the queues of frames that `s` has and, where `p`, its frames; the entries of the flow queues, the tags and what a
frame's path reads of the objects stand too. -/
structure State.SameWork (p : Prop) (s t : State) : Prop where
  frames : p → t.frames = s.frames
  copies : t.copies = s.copies
  keyQ   : t.keyQ = s.keyQ
  decQ   : t.decQ = s.decQ
  appQ   : t.appQ = s.appQ
  objs   : ∀ u i k, workObj u i = true → t.rd u i k = s.rd u i k
  queues : ∀ n, t.qCfg n = s.qCfg n
  tags   : ∀ h : Hid, h.isTag = true → t.reg h = s.reg h

theorem workObj_of_idx (u : Nat) {i : Nat} (h : i ≠ 0x5001 ∧ i ≠ 0x8000 ∧ i ≠ 0x8010) : workObj u i = false := by
  simp [workObj, h]

theorem not_eventObj_of_workObj {u i : Nat} (h : workObj u i = true) : eventObj u i = false ∧ ¬(u = 0x001 ∧ i = 0x5000) := by
  simp only [workObj, Bool.or_eq_true, Bool.and_eq_true, decide_eq_true_eq] at h
  have other : u ≠ 0x004 ∧ u ≠ 0x005 ∧ u ≠ 0x001 := by omega
  simp [eventObj, other]

theorem Hid.not_ofEvents_of_isTag {h : Hid} (ht : h.isTag = true) : h.ofEvents = false := by
  cases h with
  | vtime => rfl
  | finish => rfl
  | _ => cases ht

namespace State.SameWork
variable {p : Prop} {r s t : State}

theorem refl (s : State) : SameWork p s s := ⟨fun _ => rfl, rfl, rfl, rfl, rfl, fun _ _ _ _ => rfl, fun _ => rfl, fun _ _ => rfl⟩

theorem trans (h : SameWork p r s) (k : SameWork p s t) : SameWork p r t where
  frames hp := (k.frames hp).trans (h.frames hp)
  copies := k.copies.trans h.copies
  keyQ := k.keyQ.trans h.keyQ
  decQ := k.decQ.trans h.decQ
  appQ := k.appQ.trans h.appQ
  objs u i j a := (k.objs u i j a).trans (h.objs u i j a)
  queues n := (k.queues n).trans (h.queues n)
  tags x a := (k.tags x a).trans (h.tags x a)

theorem ite {q : Prop} [Decidable q] (h : SameWork p r s) (k : SameWork p r t) : SameWork p r (if q then s else t) := by
  split <;> assumption

/-- The same with a first result. -/
theorem ite_snd {α : Type} {q : Prop} [Decidable q] {a b : α × State} (h : SameWork p r a.2) (k : SameWork p r b.2) :
    SameWork p r (if q then a else b).2 := by
  split <;> assumption

theorem foldl {α : Type} {f : State → α → State} (hf : ∀ (u : State) x, SameWork p u (f u x)) (l : List α) (s : State) :
    SameWork p s (l.foldl f s) := by
  induction l generalizing s with
  | nil => exact refl s
  | cons x l ih => exact (hf s x).trans (ih _)

/-- Events that are recorded and causes that are raised leave a frame's path alone. -/
theorem events (h : s.ButEvents t) : SameWork p s t where
  frames _ := by rw [h.fields]
  copies := by rw [h.fields]
  keyQ := by rw [h.fields]
  decQ := by rw [h.fields]
  appQ := by rw [h.fields]
  objs u i k a := h.objs u i k (not_eventObj_of_workObj a).1 (not_eventObj_of_workObj a).2
  queues n := h.ents _ _ n (by decide) (by decide)
  tags x a := h.regs x (Hid.not_ofEvents_of_isTag a)

theorem wrOther (s : State) {u i k v : Nat} (h : workObj u i = false) : SameWork p s (s.wr u i k v) where
  frames _ := rfl
  copies := rfl
  keyQ := rfl
  decQ := rfl
  appQ := rfl
  objs x j l a := State.rd_wr_ne s v (by rintro ⟨rfl, rfl, -⟩; simp [a] at h)
  queues _ := rfl
  tags _ _ := rfl

theorem wr (s : State) {u i k v : Nat} (hi : i ≠ 0x5001 ∧ i ≠ 0x8000 ∧ i ≠ 0x8010) : SameWork p s (s.wr u i k v) :=
  wrOther s (workObj_of_idx u hi)

theorem bump (s : State) {u i k n : Nat} (hi : i ≠ 0x5001 ∧ i ≠ 0x8000 ∧ i ≠ 0x8010) : SameWork p s (s.bump u i k n) :=
  wr s hi

theorem latch (s : State) (u b : Nat) : SameWork p s (s.latch u b) := wr s (by decide)

theorem setEnt (s : State) {u i e v : Nat} (hi : ¬(u = 0x00A ∧ i = 0x6000)) : SameWork p s (s.setEnt u i e v) where
  frames _ := rfl
  copies := rfl
  keyQ := rfl
  decQ := rfl
  appQ := rfl
  objs _ _ _ _ := rfl
  queues n := (State.ent_setEnt s u i e v 0x00A 0x6000 n).trans (if_neg (fun h => hi ⟨h.1.symm, h.2.1.symm⟩))
  tags _ _ := rfl

theorem setReg (s : State) {h : Hid} {v : Int} (hh : h.isTag = false) : SameWork p s (s.setReg h v) where
  frames _ := rfl
  copies := rfl
  keyQ := rfl
  decQ := rfl
  appQ := rfl
  objs _ _ _ _ := rfl
  queues _ := rfl
  tags x a := by
    rw [State.reg_setReg, if_neg]
    rintro rfl
    simp [a] at hh

/-- A change of the other fields. -/
theorem other (s : State) {a : Map TimerId Nat} {b : List GenFrame} {c : List FoldSlot} {d : List (Bool × Nat)} {e : Map Nat Nat}
    {f : List AheadEntry} {g : List MpOp} {h : List (Nat × CqEntry)} {i : List BqBuffer} {j : Nat} {k : Option (List HeldEvent)} :
    SameWork p s { s with
      timers := a, genQ := b, folds := c, eccBad := d, scans := e, ahead := f, mpOps := g, cqStaged := h, bqBuffers := i, free := j
      evHold := k } :=
  ⟨fun _ => rfl, rfl, rfl, rfl, rfl, fun _ _ _ _ => rfl, fun _ => rfl, fun _ _ => rfl⟩

theorem startTimer (s : State) (x : TimerId) (n : Nat) : SameWork p s (s.startTimer x n) := other s
theorem stopTimer (s : State) (x : TimerId) : SameWork p s (s.stopTimer x) := other s

/-- A change of the frames, where it need not be that none changes. -/
theorem setFrames (hp : ¬p) (s : State) (l : List Frame) : SameWork p s { s with frames := l } :=
  ⟨fun h => (hp h).elim, rfl, rfl, rfl, rfl, fun _ _ _ _ => rfl, fun _ => rfl, fun _ _ => rfl⟩

theorem raise (s : State) (c : Nat) : SameWork p s (s.raise c) := events (.raise s c)

/-! Statistics and accounts. -/

/-- What a statistics counter does beside its count (R379). -/
theorem stat_of_bump (s : State) (u i k n : Nat) : SameWork p (s.bump u i k n) (s.stat u i k n) :=
  .ite (refl _) ((wr _ (by decide)).trans (latch _ _ _))

theorem stat (s : State) {u i k n : Nat} (hi : i ≠ 0x5001 ∧ i ≠ 0x8000 ∧ i ≠ 0x8010) : SameWork p s (s.stat u i k n) :=
  (bump s hi).trans (stat_of_bump s u i k n)

theorem armRefresh (s : State) (ch k : Nat) : SameWork p s (s.armRefresh ch k) := .ite (startTimer s _ _) (refl s)

theorem queuePause (s : State) (ch : Nat) : SameWork p s (s.queuePause ch) := .ite (refl s) (other s)

theorem checkXoff (s : State) (ch k : Nat) : SameWork p s (s.checkXoff ch k) := by
  unfold State.checkXoff
  extract_lets occ x s1
  have left : SameWork p s s1 := (wr s (by decide)).trans (stopTimer _ _)
  have entered : SameWork p s (((s.wr (chUnit ch) 0x5012 0 (setBit x (accountBit k) true)).setReg (.pauseDue ch k) 1).queuePause ch) :=
    (wr s (by decide)).trans ((setReg _ rfl).trans (queuePause _ _))
  exact .ite (refl s) (.ite (entered.trans (armRefresh _ _ _))
    (.ite (.ite (left.trans ((setReg _ rfl).trans (queuePause _ _))) (left.trans (setReg _ rfl))) (refl s)))

theorem charged (s : State) (f : Frame) : SameWork p s (s.charged f) := by
  unfold State.charged
  split
  · exact .ite ((wr s (by decide)).trans (checkXoff _ _ _)) (refl s)
  · exact refl s

theorem drainCheck (s : State) : SameWork p s s.drainCheck :=
  .ite ((wrOther s (by decide)).trans (raise _ _)) (refl s)

theorem templateCheck (s : State) (t : Nat) : SameWork p s (s.templateCheck t) := .ite (setEnt s (by decide)) (refl s)

/-! Cells that are read. -/

theorem bufferEcc (s : State) : SameWork p s s.bufferEcc :=
  (other s).trans ((bump _ (by decide)).trans ((latch _ _ _).trans (events (.record _ _ _ _ _))))

theorem templateBad (hp : ¬p) (s : State) (t : Nat) : SameWork p s (s.templateBad t) :=
  (bufferEcc s).trans ((setFrames hp _ _).trans ((setEnt _ (by decide)).trans (templateCheck _ _)))

/-- Where no error is met the frames stay as they are. -/
theorem readCells (s : State) (f : Frame) (x : CellRead) (hp : p → x.bad = false ∧ x.template = false) :
    SameWork p s (s.readCells f x).2 := by
  unfold State.readCells
  extract_lets s1 s2
  have fixed : SameWork p s s1 := .ite (refl s) (bump s (by decide))
  have read : SameWork p s s2 := by
    refine fixed.trans ?_
    unfold s2
    split
    next bad => exact (bufferEcc s1).trans (setFrames (fun h => by simp [(hp h).1] at bad) _ _)
    next => exact refl s1
  split
  · split
    next bad => exact read.trans (templateBad (fun h => by simp [(hp h).2] at bad) _ _)
    next => exact read
  · exact read

/-! Buffers of host copies, completions and the host port. -/

theorem keepBuffer (s : State) (c : Copy) : SameWork p s (s.keepBuffer c) := by
  unfold State.keepBuffer
  split
  · exact (other s).trans ((other _).trans ((setReg _ rfl).trans (bump _ (by decide))))
  · exact refl s

theorem mpIssue (s : State) (w : Bool) (a : Nat) (o : List Octet) (x : MpPurpose) : SameWork p s (s.mpIssue w a o x) :=
  (setReg s rfl).trans (other _)

theorem cqWriteNow (s : State) (cq : Nat) (e : CqEntry) : SameWork p s (s.cqWriteNow cq e) :=
  (mpIssue s _ _ _ _).trans (wr _ (by decide))

theorem cqReady (s : State) (cq : Nat) (e : CqEntry) : SameWork p s (s.cqReady cq e) :=
  (setReg s rfl).trans (.ite (cqWriteNow _ _ _) (other _))

theorem errComplete (s : State) (d : TxDesc) (n : Nat) : SameWork p s (s.errComplete d n) := (setReg s rfl).trans (cqReady _ _ _)

theorem passEntry (s : State) (q : Nat) : SameWork p s (s.passEntry (tqUnit q)) :=
  wrOther s (by simp [workObj, tqUnit])

theorem ringFault (s : State) (u x : Nat) : SameWork p s (s.ringFault u x) :=
  (wr s (by decide)).trans ((raise _ _).trans (events (.record _ _ _ _ _)))

theorem discardAhead (s : State) (q : Nat → Bool) : SameWork p s (s.discardAhead q) :=
  .ite (refl s) ((other s).trans ((other _).trans ((foldl (fun u _ => wr u (by decide)) _ _).trans (bump _ (by decide)))))

theorem tqFault (s : State) (q x c : Nat) (hc : c ≠ 0x5001 ∧ c ≠ 0x8000 ∧ c ≠ 0x8010) :
    SameWork p s (s.producerFault .tq q x c) :=
  (discardAhead s _).trans ((other _).trans ((other _).trans ((bump _ hc).trans (ringFault _ _ _))))

theorem txErrors (k : Nat) (s : State) (q : Nat) : SameWork p s (State.txErrors k s q) := by
  induction k generalizing s with
  | zero => exact refl s
  | succ k ih =>
    unfold State.txErrors
    split
    · exact refl s
    · split
      · exact refl s
      · exact .ite (refl s) (.ite (tqFault s _ _ _ (by decide)) (.ite (tqFault s _ _ _ (by decide))
          (.ite ((other s).trans ((errComplete _ _ _).trans ((passEntry _ _).trans (ih _)))) (refl s))))

theorem rxErrors (k : Nat) (s : State) (b : Nat) : SameWork p s (State.rxErrors k s b) := by
  induction k generalizing s with
  | zero => exact refl s
  | succ k ih =>
    unfold State.rxErrors
    dsimp only
    split
    · exact refl s
    · exact .ite ((other s).trans ((setReg _ rfl).trans ((cqReady _ _ _).trans (ih _)))) (refl s)

theorem fetchTq (k : Nat) (s : State) (q : Nat) : SameWork p s (State.fetchTq k s q) := by
  induction k generalizing s with
  | zero => exact refl s
  | succ k ih => exact .ite ((setReg s rfl).trans ((mpIssue _ _ _ _ _).trans ((wr _ (by decide)).trans (ih _)))) (refl s)

theorem fetchBq (k : Nat) (s : State) (b : Nat) : SameWork p s (State.fetchBq k s b) := by
  induction k generalizing s with
  | zero => exact refl s
  | succ k ih => exact .ite ((mpIssue s _ _ _ _).trans ((wr _ (by decide)).trans (ih _))) (refl s)

theorem issuePayload (s : State) (a : AheadEntry) : SameWork p s (s.issuePayload a) := (other s).trans (foldl (fun u _ => mpIssue u _ _ _ _) _ _)

theorem pumpPayload (s : State) : SameWork p s s.pumpPayload := foldl (fun u _ => .ite (refl u) (issuePayload u _)) _ s

theorem jobReads (s : State) (j : Nat) : SameWork p s (s.jobReads j) := .ite (mpIssue s _ _ _ _) (refl s)

theorem pump (s : State) : SameWork p s s.pump :=
  .ite (refl s) ((foldl (fun u _ => (txErrors _ u _).trans (fetchTq _ _ _)) _ s).trans
    ((foldl (fun u _ => (rxErrors _ u _).trans (fetchBq _ _ _)) _ _).trans ((pumpPayload _).trans (foldl jobReads _ _))))

end State.SameWork
end Sys2Proof.Machine
end

section
/-! The scheduler's choice and the start of a copy (O21). -/

namespace Sys2Proof.Machine

/-! ### The choice (R176, R178) -/

/-- With no oversize head and the best not expired, the choice drops nothing. -/
theorem State.choose_of_best {s : State} {ep level lead : Nat} {c : Copy} (n : Nat)
    (fits : (s.candidates ep level lead).find? s.oversize = none) (best : s.best (s.candidates ep level lead) = some c)
    (fresh : s.expired c = false) : State.choose (n + 1) s ep level lead = (some c, s) := by
  simp [State.choose, fits, best, fresh]

/-- Nothing is cut where nothing is being sent. -/
theorem State.cutFor_of_idle {s : State} {ep : Nat} (level : Nat) (h : s.sending ep = none) : s.cutFor ep level = s := by
  unfold State.cutFor
  rw [h]

/-- A copy marked as chosen is not being sent. -/
theorem State.sending_setCopy_chosen {s : State} {ep level : Nat} (c : Copy) (h : s.sending ep = none) :
    (s.setCopy c { c with state := .chosen, level := level }).sending ep = none := by
  have none_sending : ∀ x ∈ s.copies, x.ep = ep → x.state ≠ .sending := by simpa [State.sending] using h
  unfold State.sending
  refine List.find?_eq_none.mpr fun x hx => ?_
  obtain ⟨y, hy, rfl⟩ := List.mem_map.mp hx
  split
  · simp
  · simpa using none_sending y hy

theorem schedChoice_marks (ep level lead : Nat) (c : Copy) (s : State) (up : s.mainUp = true) (run : s.running = true)
    (unasked : s.asked 3 = false) (there : s.isChannel ep = true ∨ isAir ep = true) (unchosen : s.chosen ep level = none)
    (idle : s.sending ep = none) (fits : (s.candidates ep level lead).find? s.oversize = none)
    (best : s.best (s.candidates ep level lead) = some c) (fresh : s.expired c = false) :
    exec (.schedChoice ep level lead) s = .next (s.setCopy c { c with state := .chosen, level := level }) := by
  have chooses := State.choose_of_best s.copies.length fits best fresh
  show execSchedChoice ep level lead s = _
  unfold execSchedChoice
  rw [if_pos ⟨up, run, by simp [unasked], there, by simp [unchosen]⟩, chooses]
  exact congrArg _ (State.cutFor_of_idle level (State.sending_setCopy_chosen c idle))

/-! ### The start: tags and charges (R185, R188) -/

theorem State.of_chosen {s : State} {ep level : Nat} {c : Copy} (h : s.chosen ep level = some c) : c.ep = ep ∧ c.level = level := by
  have := List.find?_some h
  simp only [Bool.and_eq_true, decide_eq_true_eq] at this
  exact this.1

/-- The tags change registers alone. -/
theorem State.startTags_fields (s : State) (c : Copy) : s.startTags c = { s with hid := (s.startTags c).hid } := by
  unfold State.startTags
  dsimp only
  split
  · split <;> rfl
  · rfl

/-- The virtual time becomes the start tag, the queue's last finish tag the copy's. -/
theorem State.startTags_tags (s : State) (c : Copy) :
    (s.startTags c).reg (.vtime c.ep c.cls) = (s.tags c (s.charge c)).1 ∧ (s.startTags c).reg (.finish c.queue) = (s.tags c (s.charge c)).2 := by
  unfold State.startTags
  dsimp only
  split
  · split <;> simp [State.reg_setReg]
  · simp [State.reg_setReg]

/-! ### The start on an air link (R252) -/

/-- What a copy that passes into an air link's FIFO leaves, where events are held. -/
theorem execTxFrameStart_of_air {ep level : Nat} (crossing : Nat) (ecc : CellRead) {c : Copy} {f : Frame} {s : State} {l : List HeldEvent}
    (held : s.evHold = some l) (up : s.mainUp = true) (run : s.running = true) (unasked : s.asked 3 = false) (air : isAir ep = true)
    (unasked2 : s.asked 2 = false) (hc : s.chosen ep level = some c) (hf : s.frame? c.frame = some f) (room : s.airFifo ep < 8192)
    (opened : s.gateOpen ep c.cls s.time = true) :
    execTxFrameStart ep level crossing ecc s
      = .next ((s.startTags c).startCopy c { c with state := .sending, charge := s.charge c, weight := s.weightOf c }) := by
  unfold execTxFrameStart
  rw [gathered_of_held held]
  simp only [hc, hf]
  rw [if_neg (by simp [up, run, unasked]), if_pos air, if_pos ⟨room, by simp [unasked2], opened⟩]

theorem airStart_passes (ep level crossing : Nat) (ecc : CellRead) (c : Copy) (f : Frame) (s : State) (up : s.mainUp = true)
    (run : s.running = true) (unasked : s.asked 3 = false) (air : isAir ep = true) (unasked2 : s.asked 2 = false)
    (hc : s.chosen ep level = some c) (hf : s.frame? c.frame = some f) (room : s.airFifo ep < 8192) (opened : s.gateOpen ep c.cls s.time = true) :
    ∃ t, exec (.txFrameStart ep level crossing ecc) s = .next t
      ∧ t.copies = s.copies.erase c ++ [{ c with state := .sending, charge := s.charge c, weight := s.weightOf c }]
      ∧ t.reg (.vtime ep c.cls) = (s.tags c (s.charge c)).1 ∧ t.reg (.finish c.queue) = (s.tags c (s.charge c)).2
      ∧ t.frames = s.frames ∧ t.tab = s.tab := by
  obtain ⟨rfl, -⟩ := State.of_chosen hc
  obtain ⟨u, answers, l, hu⟩ : ∃ u : State, execTxFrameStart c.ep level crossing ecc s = .next { u with evHold := s.evHold } ∧ ∃ l,
      u = (State.startTags { s with evHold := some l } c).startCopy c { c with state := .sending, charge := s.charge c, weight := s.weightOf c } :=
    exists_gathered_eq fun l => ⟨_, execTxFrameStart_of_air crossing ecc (s := { s with evHold := some l }) rfl up run unasked air unasked2 hc hf
      room opened, by rw [State.startTags_fields]; rfl, l, rfl⟩
  refine ⟨_, answers, ?_⟩
  obtain ⟨vtime, finish⟩ := State.startTags_tags { s with evHold := some l } c
  rw [hu]
  refine ⟨?_, vtime, finish, ?_, ?_⟩
  all_goals
    rw [State.startTags_fields]
    rfl

/-! ### The start on a channel (R185, R196, R199) -/

/-- Nothing is being sent on a channel whose wire is free. -/
theorem State.sending_of_wireFree {s : State} {ch : Nat} (there : s.isChannel ch = true) (h : s.wireFree ch = true) : s.sending ch = none := by
  have idle : ∀ c ∈ s.copies, c.state = .sending → s.isChannel c.ep = true → laneOf c.ep ≠ laneOf ch := by
    simp only [State.wireFree, State.laneBusy, Bool.and_eq_true, Bool.not_eq_true', List.any_eq_false] at h
    simpa using h.1
  refine List.find?_eq_none.mpr fun c hc hs => ?_
  obtain ⟨rfl, sends⟩ : c.ep = ch ∧ c.state = .sending := by simpa using hs
  exact idle c hc sends there rfl

theorem State.isChannel_of_chUp {s : State} {ch : Nat} (h : s.chUp ch = true) : s.isChannel ch = true := by
  simp only [State.chUp, State.chEnabled, Bool.and_eq_true] at h
  exact h.1.1

/-- A copy meets an unreadable cell where its frame had one, one is met now, or the template of its stub is unreadable (R154, R158). -/
theorem State.readCells_fst (s : State) (f : Frame) (x : CellRead) :
    (s.readCells f x).1 = (f.eccBad || x.bad || (f.stub.isSome && x.template)) := by
  unfold State.readCells
  cases f.stub with
  | none => simp
  | some w => cases x.template <;> simp

namespace State.SameWork
variable {p : Prop}

theorem beginQuarter (s : State) (ch l : Nat) : SameWork p s (s.beginQuarter ch l) :=
  .ite (.trans (.ite ((setReg s rfl).trans (setReg _ rfl)) (refl s)) (setReg _ rfl)) (refl s)

/-- A count that a copy of a committed frame makes leaves the frames alone. -/
theorem oweCount (s : State) {id u i k n : Nat} (hi : i ≠ 0x5001 ∧ i ≠ 0x8000 ∧ i ≠ 0x8010)
    (hp : p → ∀ f, s.frame? id = some f → f.committed = true) : SameWork p s (s.owe id [.count u i k n]) := by
  unfold State.owe
  split
  next f hf =>
    split
    next => exact bump s hi
    next uncommitted => exact setFrames (fun h => uncommitted (hp h f hf)) s _
  next => exact bump s hi

theorem installSlot (s : State) (ch slot gen : Nat) (l : List Octet) (sh : Nat × Nat × Nat × Bool × Nat) :
    SameWork p s (s.installSlot ch slot gen l sh) :=
  ((other s).trans (setReg _ rfl)).trans (.ite (refl _) (other _))

theorem foldSend (s : State) (f : Frame) (c : Copy) (hp : p → ∀ f, s.frame? c.frame = some f → f.committed = true) :
    SameWork p s (s.foldSend f c).2 := by
  unfold State.foldSend
  extract_lets plain carriesData
  clear_value carriesData
  split
  · exact refl s
  · refine ite_snd (refl s) ?_
    split
    · exact refl s
    · extract_lets held slot
      refine ite_snd (refl s) ?_
      split
      · exact installSlot s _ _ _ _ _
      · exact ite_snd (installSlot s _ _ _ _ _) (ite_snd
          (ite_snd (refl s) (((setReg s rfl).trans (setReg _ rfl)).trans (oweCount _ (by decide) hp)))
          (ite_snd (installSlot s _ _ _ _ _) (setReg s rfl)))

theorem lit (s : State) (lane : Nat) : SameWork p s (s.lit lane) := .ite ((setReg s rfl).trans (startTimer _ _ _)) (refl s)

end State.SameWork

/-- The frame has committed, and reading its cells meets no error now. -/
def Frame.ReadsClean (f : Frame) (x : CellRead) : Prop := f.committed = true ∧ x.bad = false ∧ x.template = false

/-- What a copy `d` has of the copy `c` of frame `f` that starts in `s` (R185, R196). -/
structure State.Started (s : State) (f : Frame) (c : Copy) (lv : Nat) (ecc : CellRead) (d : Copy) : Prop where
  frame  : d.frame = c.frame
  ep     : d.ep = c.ep
  queue  : d.queue = c.queue
  level  : d.level = c.level
  state  : d.state = .sending
  charge : d.charge = s.charge c
  weight : d.weight = s.weightOf c
  cut    : d.cut = !f.committed
  since  : d.since = s.now
  ending : d.ending = if f.eccBad || ecc.bad || (f.stub.isSome && ecc.template) then .ecc else .full
  start  : d.start = s.startOctets c.ep (s.mergeOn c.ep && s.rd (chUnit c.ep) 0x5030 0 = 2 && lv = 0)

/-- The start of a copy on a channel that is UP: beside its tags and the copy itself nothing of a frame's path changes, and no frame where its
frame has committed and no error is met. -/
theorem State.startOnChannel_of_up {s : State} {f : Frame} {c : Copy} (level crossing : Nat) (ecc : CellRead) (hf : s.frame? c.frame = some f)
    (up : s.chUp c.ep = true) :
    ∃ u d, s.startOnChannel f c level crossing ecc = u.startCopy c d ∧ s.Started f c level ecc d
      ∧ State.SameWork (f.ReadsClean ecc) (s.startTags c) u := by
  unfold State.startOnChannel
  extract_lets pre l w start s1 s2 tx one s3 fd r
  have turn : State.SameWork (f.ReadsClean ecc) (s.startTags c) s2 :=
    (State.SameWork.beginQuarter _ _ _).trans (.ite (.setReg _ rfl) (.refl _))
  have committed {t : State} (h : State.SameWork (f.ReadsClean ecc) (s.startTags c) t) :
      f.ReadsClean ecc → ∀ g, t.frame? c.frame = some g → g.committed = true := by
    intro hp g hg
    rw [State.frame?_congr (h.frames hp), State.startTags_fields] at hg
    obtain rfl : f = g := Option.some.inj (hf.symm.trans hg)
    exact hp.1
  have skipped : State.SameWork (f.ReadsClean ecc) (s.startTags c) s3 := turn.trans (.ite (.oweCount _ (by decide) (committed turn)) (.refl _))
  have folded : State.SameWork (f.ReadsClean ecc) (s.startTags c) fd.2 := by
    refine skipped.trans ?_
    unfold fd
    split
    · exact .foldSend _ _ _ (committed skipped)
    · exact .refl _
  have read : State.SameWork (f.ReadsClean ecc) (s.startTags c) r.2 := folded.trans (.readCells _ _ _ And.right)
  rw [if_neg (by simp [up])]
  refine ⟨_, _, rfl, ?_, read.trans (.lit _ _)⟩
  exact ⟨rfl, rfl, rfl, rfl, rfl, rfl, rfl, rfl, rfl, by rw [← State.readCells_fst fd.2], rfl⟩

/-- What the start of a copy on a channel that is UP answers, where events are held. -/
theorem execTxFrameStart_of_channel {ep level : Nat} (crossing : Nat) (ecc : CellRead) {c : Copy} {f : Frame} {s : State} {l : List HeldEvent}
    (held : s.evHold = some l) (up : s.mainUp = true) (run : s.running = true) (unasked : s.asked 3 = false) (wired : isAir ep = false)
    (hc : s.chosen ep level = some c) (hf : s.frame? c.frame = some f) (may : s.mayStart ep level c = true) (chUp : s.chUp ep = true) :
    execTxFrameStart ep level crossing ecc s = .next (s.startOnChannel f c level crossing ecc) := by
  have free : s.wireFree ep = true := by
    simp only [State.mayStart, Bool.and_eq_true] at may
    exact may.1
  have uncut := State.cutFor_of_idle level (State.sending_of_wireFree (State.isChannel_of_chUp chUp) free)
  unfold execTxFrameStart
  rw [gathered_of_held held]
  simp only [hc, hf]
  rw [if_neg (by simp [up, run, unasked]), if_neg (by simp [wired]), uncut, if_pos may]

theorem channelStart_sends (ep level crossing : Nat) (ecc : CellRead) (c : Copy) (f : Frame) (s : State) (up : s.mainUp = true)
    (run : s.running = true) (unasked : s.asked 3 = false) (wired : isAir ep = false) (hc : s.chosen ep level = some c)
    (hf : s.frame? c.frame = some f) (may : s.mayStart ep level c = true) (chUp : s.chUp ep = true) :
    ∃ t d, exec (.txFrameStart ep level crossing ecc) s = .next t ∧ t.copies = s.copies.erase c ++ [d] ∧ d.frame = c.frame ∧ d.ep = ep
      ∧ d.queue = c.queue ∧ d.level = level ∧ d.state = .sending ∧ d.charge = s.charge c ∧ d.weight = s.weightOf c
      ∧ d.cut = !f.committed ∧ d.since = s.now
      ∧ d.ending = (if f.eccBad || ecc.bad || (f.stub.isSome && ecc.template) then .ecc else .full)
      ∧ d.start = s.startOctets ep (s.mergeOn ep && s.rd (chUnit ep) 0x5030 0 = 2 && level = 0)
      ∧ t.reg (.vtime ep c.cls) = (s.tags c (s.charge c)).1 ∧ t.reg (.finish c.queue) = (s.tags c (s.charge c)).2
      ∧ (f.committed = true → ecc.bad = false → ecc.template = false → t.frames = s.frames) := by
  obtain ⟨rfl, hl⟩ := State.of_chosen hc
  obtain ⟨u, t, answers, ⟨l, v, d, rfl, started, same⟩, events⟩ : ∃ u t, execTxFrameStart c.ep level crossing ecc s = .next t
      ∧ (∃ l v d, u = v.startCopy c d ∧ State.Started { s with evHold := some l } f c level ecc d
        ∧ State.SameWork (f.ReadsClean ecc) (State.startTags { s with evHold := some l } c) v)
      ∧ u.ButEvents t := by
    refine exists_gathered_next fun l => ?_
    obtain ⟨v, d, eq, started, same⟩ := State.startOnChannel_of_up (s := { s with evHold := some l }) level crossing ecc hf chUp
    exact ⟨_, execTxFrameStart_of_channel crossing ecc (s := { s with evHold := some l }) rfl up run unasked wired hc hf may chUp,
      l, v, d, eq, started, same⟩
  obtain ⟨vtime, finish⟩ := State.startTags_tags { s with evHold := some l } c
  have copies : v.copies = s.copies := by rw [same.copies, State.startTags_fields]
  refine ⟨t, d, answers, ?_, started.frame, started.ep, started.queue, started.level.trans hl, started.state, started.charge, started.weight,
    started.cut, started.since, started.ending, started.start, ?_, ?_, fun hp bad template => ?_⟩
  · rw [events.fields]
    exact congrArg (fun l => l.erase c ++ [d]) copies
  · exact (events.regs _ rfl).trans ((same.tags _ rfl).trans vtime)
  · exact (events.regs _ rfl).trans ((same.tags _ rfl).trans finish)
  · rw [events.fields]
    show v.frames = s.frames
    rw [same.frames ⟨hp, bad, template⟩, State.startTags_fields]

end Sys2Proof.Machine

open Sys2Proof Sys2Proof.Machine

/-- Settles O21: the choice of the best candidate, and its start on a channel and on an air link. -/
theorem copiesAreChosenAndStart : Obligations.CopiesAreChosenAndStart :=
  ⟨schedChoice_marks, channelStart_sends, airStart_passes⟩

end

section
/-! The commit point of a frame and its held effects (O18). -/

namespace Sys2Proof.Machine

theorem counterBits_of_high {u : Nat} (i : Nat) (h : 0x200 ≤ u) : counterBits u i = 64 := if_neg (by omega)

theorem State.lt_of_isChannel {s : State} {ch : Nat} (h : s.isChannel ch = true) : ch < 64 := by
  have there : ch < s.build.channels := by simpa [State.isChannel] using h
  cases e : s.build <;> rw [e] at there <;> exact Nat.lt_of_lt_of_le there (by decide)

theorem workObj_chUnit {ch : Nat} (h : ch < 64) : workObj (chUnit ch) 0x8010 = true := by
  have within : 0x200 ≤ chUnit ch ∧ chUnit ch < 0x500 := by
    unfold chUnit
    omega
  simp [workObj, within]

theorem workObj_csUnit (ch : Nat) : workObj (csUnit ch) 0x8000 = true := by simp [workObj, csUnit]

/-! ### A frame that commits (R35, R72) -/

/-- `u` is `s` after frame `f` has committed: it waits for its application slot, and neither a copy nor an object has changed. -/
structure State.Commits (s : State) (f : Frame) (u : State) : Prop where
  frame  : ∃ g, u.frame? f.id = some g ∧ g.committed = true ∧ g.octets = f.octets ∧ g.decision = f.decision
  appQ   : u.appQ = s.appQ ++ [f.id]
  copies : u.copies = s.copies
  obj    : u.obj = s.obj
  evHold : u.evHold = s.evHold

theorem State.commits_commitFrame {s : State} {f g : Frame} (hf : s.frame? f.id = some f) (id : g.id = f.id) (octets : g.octets = f.octets)
    (decision : g.decision = f.decision) : s.Commits f (s.commitFrame g) where
  frame := ⟨_, State.frame?_setFrame (g := { g with committed := true }) hf id, rfl, octets, decision⟩
  appQ := by rw [← id]; rfl
  copies := rfl
  obj := rfl
  evHold := rfl

/-- A key that is made at the commit point changes only the frame's key. -/
theorem State.Commits.parseFrame {s u : State} {f g : Frame} (h : s.Commits f u) (hg : u.frame? f.id = some g) (committed : g.committed = true)
    (octets : g.octets = f.octets) (decision : g.decision = f.decision) : s.Commits f (u.parseFrame g) := by
  unfold State.parseFrame
  split
  · exact {
      frame := ⟨_, State.frame?_setFrame (f := g) hg (State.id_of_frame? (f := g) hg), committed, octets, decision⟩
      appQ := h.appQ
      copies := h.copies
      obj := h.obj
      evHold := h.evHold }
  · exact h

/-- What is no frame of a fabric link keeps its use, and is discarded by no row of Table 13.2: it passes as it is, here or behind a sum it
still owes. -/
theorem State.commits_passFrame {s : State} {f : Frame} (run : s.mode = 1) (standard : f.onFabric = false)
    (access : s.accessNow f = Decidable.decide (f.use = .access)) (hf : s.frame? f.id = some f) : s.Commits f (s.passFrame f) := by
  have use : s.lateUse f = f := if_neg (by simp [standard])
  have kept : s.discardedAs f = none := if_pos (by simp [standard])
  unfold State.passFrame
  simp only [use, kept]
  rw [if_neg (by simp [run]), if_neg (by simp +contextual [access]), if_neg (by simp +contextual [access])]
  split
  · exact State.commits_commitFrame hf rfl rfl rfl
  · exact (State.commits_commitFrame hf rfl rfl rfl).parseFrame (State.frame?_setFrame hf rfl) rfl rfl rfl

theorem State.earlyWrites_of_none {s : State} {id : Nat} (h : s.hostSending id = []) : s.earlyWrites id = s := by
  unfold State.earlyWrites
  rw [h]
  rfl

/-- COMMIT_POINT of a good frame of a channel, where events are held. -/
theorem execCommitPoint_of_good {ep : Nat} {f : Frame} {s : State} {l : List HeldEvent} (held : s.evHold = some l) (up : s.mainUp = true)
    (there : s.isChannel ep = true) (hf : s.atEnd ep = some f) (good : endFailure f = none) :
    execCommitPoint ep s = .next ((s.passFrame f).earlyWrites f.id) := by
  unfold execCommitPoint
  rw [gathered_of_held held]
  simp [hf, up, there, good]

/-- COMMIT_POINT of a frame of a channel that ended with a failure, where events are held. -/
theorem execCommitPoint_of_bad {ep : Nat} {f : Frame} {r : RxFail} {s : State} {l : List HeldEvent} (held : s.evHold = some l)
    (up : s.mainUp = true) (there : s.isChannel ep = true) (hf : s.atEnd ep = some f) (bad : endFailure f = some r) :
    execCommitPoint ep s = .next (s.undo f.id r) := by
  unfold execCommitPoint
  rw [gathered_of_held held]
  simp [hf, up, there, bad]

theorem commitPoint_commits (ep : Nat) (f : Frame) (s : State) (up : s.mainUp = true) (run : s.mode = 1) (there : s.isChannel ep = true)
    (ended : s.atEnd ep = some f) (hf : s.frame? f.id = some f) (good : endFailure f = none) (standard : f.onFabric = false)
    (access : s.accessNow f = decide (f.use = .access)) (idle : s.hostSending f.id = []) :
    ∃ t g, exec (.commitPoint ep) s = .next t ∧ t.frame? f.id = some g ∧ g.committed = true ∧ g.octets = f.octets
      ∧ g.decision = f.decision ∧ t.appQ = s.appQ ++ [f.id] ∧ t.copies = s.copies ∧ t.obj = s.obj := by
  obtain ⟨u, answers, l, commits⟩ : ∃ u : State, execCommitPoint ep s = .next { u with evHold := s.evHold }
      ∧ ∃ l, State.Commits { s with evHold := some l } f u := by
    refine exists_gathered_eq fun l => ?_
    have commits : State.Commits { s with evHold := some l } f _ := State.commits_passFrame run standard access hf
    have written := State.earlyWrites_of_none ((State.hostSending_congr commits.copies f.id).trans idle)
    refine ⟨_, ?_, commits.evHold, l, commits⟩
    have answers := execCommitPoint_of_good (s := { s with evHold := some l }) rfl up there ended good
    rwa [written] at answers
  obtain ⟨g, hg, committed, octets, decision⟩ := commits.frame
  exact ⟨_, g, answers, hg, committed, octets, decision, commits.appQ, commits.copies, commits.obj⟩

/-! ### A frame that leaves the device (R106, R107) -/

/-- The state without a frame, its copies and its places in the queues. -/
def State.without (s : State) (id : Nat) : State :=
  { s with
    frames := s.frames.filter (fun g => g.id ≠ id)
    copies := s.copies.filter (fun c => c.frame ≠ id)
    keyQ := s.keyQ.filter (· ≠ id)
    decQ := s.decQ.filter (· ≠ id)
    appQ := s.appQ.filter (· ≠ id)
    rxNow := s.rxNow.filter (fun p => p.2 ≠ id) }

theorem State.without_frame? (s : State) (id : Nat) : (s.without id).frame? id = none := State.frame?_eq_none_of_filter rfl

theorem State.SameWork.without {p : Prop} {s t : State} (h : State.SameWork True s t) (id : Nat) : State.SameWork p (s.without id) (t.without id) where
  frames _ := congrArg (List.filter _) (h.frames trivial)
  copies := congrArg (List.filter _) h.copies
  keyQ := congrArg (List.filter _) h.keyQ
  decQ := congrArg (List.filter _) h.decQ
  appQ := congrArg (List.filter _) h.appQ
  objs := h.objs
  queues := h.queues
  tags := h.tags

theorem State.sameWork_releaseFrame {p : Prop} {s : State} {id : Nat} {f : Frame} (hf : s.frame? id = some f) :
    State.SameWork p (s.without id) (s.releaseFrame id) := by
  unfold State.releaseFrame
  rw [hf]
  dsimp only
  refine .trans ?_ ((State.SameWork.charged _ _).trans (.drainCheck _))
  split
  · exact .templateCheck _ _
  · exact .refl _

/-- The copies in progress of an undone frame, as they go on to their end (R107). -/
def State.stomped (s : State) (f : Frame) (r : RxFail) : List Copy :=
  ((s.copiesOf f.id).filter (fun c => s.isChannel c.ep && (c.state = .sending || c.state = .suspended))).map
    (fun c => { c with ending := if c.ending = .down then .down else .stomped, body := some (stompBody f r) })

theorem State.ending_of_mem_stomped {s : State} {f : Frame} {r : RxFail} {c : Copy} (h : c ∈ s.stomped f r) :
    c.ending = .stomped ∨ c.ending = .down := by
  obtain ⟨d, -, rfl⟩ := List.mem_map.mp h
  dsimp only
  split
  · exact .inr rfl
  · exact .inl rfl

/-- A frame of a channel with a bad FCS is undone: it is gone, its copies in progress are stomped, `rx_fcs_err` counts it. -/
theorem State.undo_fcs {s : State} {f : Frame} (hf : s.frame? f.id = some f) (there : s.isChannel f.ing = true) :
    ∃ u : State, State.SameWork True (s.without f.id) u ∧ State.SameWork True
      (State.bump { u with copies := u.copies ++ s.stomped f .fcs } (chUnit f.ing) 0x8010 0 1) (s.undo f.id .fcs) := by
  have kept : State.SameWork True s ((s.copiesOf f.id).foldl State.keepBuffer s) := .foldl State.SameWork.keepBuffer _ s
  have released : State.SameWork True (s.without f.id) _ := (kept.without f.id).trans (State.sameWork_releaseFrame ((State.frame?_congr (kept.frames trivial) f.id).trans hf))
  refine ⟨_, released, ?_⟩
  unfold State.undo
  simp only [hf]
  rw [if_pos there, if_neg (by decide)]
  exact .stat _ (by decide)

theorem State.channel_of_atEnd {s : State} {ep : Nat} {f : Frame} (h : s.atEnd ep = some f) : f.ing = ep := by
  have := List.find?_some h
  simp only [Bool.and_eq_true, decide_eq_true_eq] at this
  exact this.1.1

theorem commitPoint_undoes (ep : Nat) (f : Frame) (s : State) (up : s.mainUp = true) (there : s.isChannel ep = true)
    (ended : s.atEnd ep = some f) (hf : s.frame? f.id = some f) (bad : endFailure f = some .fcs) :
    ∃ t, exec (.commitPoint ep) s = .next t ∧ t.frame? f.id = none ∧ (∀ c ∈ t.copies, c.frame = f.id → c.ending = .stomped ∨ c.ending = .down)
      ∧ f.id ∉ t.keyQ ∧ f.id ∉ t.decQ ∧ t.rd (chUnit ep) 0x8010 0 = (s.rd (chUnit ep) 0x8010 0 + 1) % 2 ^ 64 := by
  obtain rfl := State.channel_of_atEnd ended
  obtain ⟨v, t, answers, ⟨l, rfl⟩, events⟩ : ∃ u t, execCommitPoint f.ing s = .next t
      ∧ (∃ l, u = State.undo { s with evHold := some l } f.id .fcs) ∧ u.ButEvents t := by
    exact exists_gathered_next fun l => ⟨_, execCommitPoint_of_bad (s := { s with evHold := some l }) rfl up there ended bad, l, rfl⟩
  obtain ⟨u, gone, counted⟩ := State.undo_fcs (s := { s with evHold := some l }) hf there
  have after : State.SameWork True _ t := counted.trans (.events events)
  have queues : t.keyQ = s.keyQ.filter (· ≠ f.id) ∧ t.decQ = s.decQ.filter (· ≠ f.id) :=
    ⟨after.keyQ.trans gone.keyQ, after.decQ.trans gone.decQ⟩
  refine ⟨t, answers, ?_, fun c hc hid => ?_, by simp [queues.1], by simp [queues.2], ?_⟩
  · rw [State.frame?_congr (after.frames trivial)]
    exact (State.frame?_congr (gone.frames trivial) f.id).trans (State.without_frame? _ _)
  · rw [after.copies] at hc
    have split : c ∈ u.copies ∨ c ∈ State.stomped { s with evHold := some l } f .fcs := List.mem_append.mp hc
    rw [gone.copies] at split
    rcases split with other | stomped
    · have := (List.mem_filter.mp other).2
      simp [hid] at this
    · exact State.ending_of_mem_stomped stomped
  · have work := workObj_chUnit (State.lt_of_isChannel there)
    rw [after.objs _ _ _ work, State.rd_bump_self, counterBits_of_high _ (by unfold chUnit; omega)]
    exact congrArg (fun n => (n + 1) % 2 ^ 64) (gone.objs _ _ 0 work)

/-! ### The held effects of a frame (R36, R38, R376) -/

namespace State.SameWork
variable {p : Prop}

/-- What a received frame counts in its block beside itself (R376, R377). -/
theorem statFrame (s : State) {u : Nat} (len ty : Nat) (tagged : Bool) (hu : 0x500 ≤ u) :
    SameWork p (s.bump u 0x8000 0 1) (s.statFrame u 0x8000 len ty tagged) := by
  have typed (v : State) : SameWork p v (v.stat u (0x8000 + 3 + ty) 0 1) :=
    (wrOther v (by simp [workObj]; omega)).trans (stat_of_bump v u _ 0 1)
  have sized : SameWork p (s.bump u 0x8000 0 1) (((s.stat u 0x8000 0 1).stat u 0x8001 0 len).stat u 0x8002 (sizeBucket len) 1) :=
    (stat_of_bump s u 0x8000 0 1).trans ((stat _ (by decide)).trans (stat _ (by decide)))
  exact .ite ((sized.trans (typed _)).trans (stat _ (by decide))) (sized.trans (typed _))

/-- The type of a received frame may take a free value. -/
theorem rxType (s : State) (f : Frame) : SameWork p s (s.rxType f).2 := by
  unfold State.rxType
  split
  · dsimp only
    split
    · exact ite_snd (refl s) (other s)
    · exact other s
  · exact refl s

theorem countSums (s : State) (f : Frame) : SameWork p s (s.countSums f) := by
  unfold State.countSums
  refine .ite ?_ (refl s)
  exact .ite (.trans (.ite (bump s (by decide)) (refl s)) (bump _ (by decide))) (.ite (bump s (by decide)) (refl s))

/-- The effects of a decision made from a fabric header, without drops (R300), on a frame that folding had no part in. -/
theorem applyDecision_of_transit (s : State) {f : Frame} {d : Decision} (transit : d.decider = .transit) (drops : d.tailDrops = [])
    (colour : d.colourAct ≠ 2) (unfolded : f.fold = 0) : SameWork p s (s.applyDecision f d) := by
  have counted : SameWork p s ((s.countDecision d).countDrops d) := by
    unfold State.countDecision State.countDrops
    simp only [transit, drops, colour, if_true, if_false, List.foldl_nil]
    exact .trans (.ite (refl s) (bump s (by decide))) (bump _ (by decide))
  have still (u : State) : u.templateUpdate f d = u := by
    unfold State.templateUpdate
    rw [unfolded]
    rfl
  unfold State.applyDecision
  simp only [transit, or_true, if_true, still]
  split <;> exact counted

end State.SameWork

/-- A frame of ordinary traffic from a channel is counted once in its block. -/
theorem State.statRx_of_data (s : State) {f : Frame} (data : f.use = .data) (there : s.isChannel f.ing = true) :
    State.SameWork True s (s.rxType f).2 ∧ State.SameWork True ((s.rxType f).2.bump (csUnit f.ing) 0x8000 0 1) (s.statRx f) := by
  refine ⟨.rxType s f, ?_⟩
  unfold State.statRx
  rw [data, if_neg (by decide), if_pos there]
  exact .statFrame _ _ _ _ (by unfold csUnit; omega)

/-- What a committed frame's effects are when it has been counted: it is applied, and goes where no copy of it is left (R151). -/
theorem State.settle_of_no_copy {s : State} {id : Nat} {f : Frame} (hf : s.frame? id = some f) (applied : f.applied = true) (desc : f.desc = none)
    (gone : s.copiesOf id = []) : s.settle id = s.releaseFrame id := by
  have stamped : s.tsCheck f = s := by
    unfold State.tsCheck
    rw [desc]
  unfold State.settle
  simp [hf, applied, stamped, gone]

theorem State.settle_of_copy {s : State} {id : Nat} {f : Frame} (hf : s.frame? id = some f) (applied : f.applied = true) (desc : f.desc = none)
    (left : ∃ c ∈ s.copiesOf id, c.state ≠ .held) : s.settle id = s := by
  have stamped : s.tsCheck f = s := by
    unfold State.tsCheck
    rw [desc]
  obtain ⟨c, hc, unheld⟩ := left
  have some_copy : (s.copiesOf id).isEmpty = false := List.isEmpty_eq_false_iff.mpr (List.ne_nil_of_mem hc)
  have some_unheld : (s.copiesOf id).all (fun c => c.state = .held) = false := List.all_eq_false.mpr ⟨c, hc, by simpa using unheld⟩
  unfold State.settle
  simp [hf, applied, stamped, some_copy, some_unheld]

theorem State.completeTx_of_no_desc {s : State} {id : Nat} {f : Frame} (hf : s.frame? id = some f) (desc : f.desc = none) : s.completeTx id = s := by
  unfold State.completeTx
  rw [hf]
  dsimp only
  rw [desc]

/-- A frame whose held effects, in the state with its application slot taken, are those of its statistics and of a fabric header at most. -/
structure State.PlainEffects (s : State) (f : Frame) : Prop where
  here     : s.frame? f.id = some f
  desc     : f.desc = none
  use      : f.use = .data
  owed     : f.owed = []
  channel  : s.isChannel f.ing = true
  fold     : f.fold = 0
  decision : ∀ d, f.decision = some d → d.decider = .transit ∧ d.tailDrops = [] ∧ d.colourAct ≠ 2
  idle     : s.hostSending f.id = []

/-- Before such a frame settles it is marked as applied and has been counted; its copies are as they were. -/
theorem State.PlainEffects.applyFrame {s : State} {f : Frame} (h : s.PlainEffects f) :
    ∃ a u : State, State.SameWork True s a ∧ State.SameWork True (a.bump (csUnit f.ing) 0x8000 0 1) u
      ∧ s.applyFrame f = (u.markApplied f.id).settle f.id ∧ ∃ g, (u.markApplied f.id).frame? f.id = some g ∧ g.applied = true ∧ g.desc = none := by
  obtain ⟨typed, received⟩ := s.statRx_of_data h.use h.channel
  have summed := received.trans (.countSums _ f)
  have settles {u : State} (same : State.SameWork True ((s.rxType f).2.bump (csUnit f.ing) 0x8000 0 1) u)
      (eq : s.applyFrame f = ((((u.completeTx f.id).markApplied f.id).hostSending f.id).foldl State.rxFinish
        ((u.completeTx f.id).markApplied f.id)).settle f.id) :
      s.applyFrame f = (u.markApplied f.id).settle f.id ∧ ∃ g, (u.markApplied f.id).frame? f.id = some g ∧ g.applied = true ∧ g.desc = none := by
    have still : u.frame? f.id = some f := by
      rw [State.frame?_congr ((same.frames trivial).trans (typed.frames trivial))]
      exact h.here
    have idle : (u.markApplied f.id).hostSending f.id = [] :=
      (State.hostSending_congr (same.copies.trans typed.copies) f.id).trans h.idle
    rw [State.completeTx_of_no_desc still h.desc, idle] at eq
    refine ⟨eq, { f with applied := true }, ?_, rfl, h.desc⟩
    rw [State.frame?_map (s := u) rfl (fun x => by split <;> rfl), still]
    simp
  cases hd : f.decision with
  | none =>
    refine ⟨_, _, typed, summed, settles summed ?_⟩
    unfold State.applyFrame
    rw [h.owed, hd]
    rfl
  | some d =>
    obtain ⟨transit, drops, colour⟩ := h.decision d hd
    have decided := summed.trans (.applyDecision_of_transit _ transit drops colour h.fold)
    refine ⟨_, _, typed, decided, settles decided ?_⟩
    unfold State.applyFrame
    rw [h.owed, hd]
    rfl

/-- What APPLY_HELD_EFFECTS answers for the oldest committed frame, where events are held. -/
theorem execApplyHeldEffects_of_oldest {id : Nat} {rest : List Nat} {f : Frame} {s : State} {l : List HeldEvent} (held : s.evHold = some l)
    (up : s.mainUp = true) (oldest : s.appQ = id :: rest) (nokey : id ∉ s.keyQ) (delivered : id ∉ s.decQ) (hf : s.frame? id = some f) :
    execApplyHeldEffects s = .next (State.applyFrame { s with appQ := rest } f).pump := by
  unfold execApplyHeldEffects
  rw [gathered_of_held held]
  simp only [oldest, hf]
  rw [if_neg (by simp [up, nokey, delivered])]

/-- The state in which the effects of a frame have been applied, up to what no frame's path reads: `u` is `s` with the count made, and `v` is
`u` with the frame marked and settled. -/
theorem exists_applied (id : Nat) (rest : List Nat) (f : Frame) (s : State) (up : s.mainUp = true) (oldest : s.appQ = id :: rest)
    (nokey : id ∉ s.keyQ) (delivered : id ∉ s.decQ) (hf : s.frame? id = some f) (desc : f.desc = none) (data : f.use = .data)
    (owed : f.owed = []) (there : s.isChannel f.ing = true) (unfolded : f.fold = 0)
    (plain : ∀ d, f.decision = some d → d.decider = .transit ∧ d.tailDrops = [] ∧ d.colourAct ≠ 2) (idle : s.hostSending id = []) :
    ∃ (u : State) (g : Frame) (t : State), exec .applyHeldEffects s = .next t ∧ u.frame? id = some g ∧ g.applied = true ∧ g.desc = none
      ∧ State.SameWork True (u.settle id) t ∧ u.copies = s.copies ∧ u.appQ = rest
      ∧ u.rd (csUnit f.ing) 0x8000 0 = (s.rd (csUnit f.ing) 0x8000 0 + 1) % 2 ^ 64 := by
  obtain rfl := State.id_of_frame? hf
  obtain ⟨w, t, answers, ⟨l, rfl⟩, events⟩ : ∃ w t, execApplyHeldEffects s = .next t
      ∧ (∃ l, w = (State.applyFrame { s with evHold := some l, appQ := rest } f).pump) ∧ w.ButEvents t := by
    refine exists_gathered_next fun l => ⟨_, ?_, l, rfl⟩
    exact execApplyHeldEffects_of_oldest (s := { s with evHold := some l }) rfl up oldest nokey delivered hf
  have effects : State.PlainEffects { s with evHold := some l, appQ := rest } f := ⟨hf, desc, data, owed, there, unfolded, plain, idle⟩
  obtain ⟨a, u, typed, counted, eq, g, hg, applied, undescribed⟩ := effects.applyFrame
  rw [eq] at events
  refine ⟨u.markApplied f.id, g, t, answers, hg, applied, undescribed, .trans (.pump _) (.events events), counted.copies.trans typed.copies,
    counted.appQ.trans typed.appQ, ?_⟩
  have count := counted.objs _ _ 0 (workObj_csUnit f.ing)
  rw [State.rd_bump_self, typed.objs _ _ 0 (workObj_csUnit f.ing), counterBits_of_high _ (by unfold csUnit; omega)] at count
  exact count

theorem heldEffects_apply (id : Nat) (rest : List Nat) (f : Frame) (s : State) (up : s.mainUp = true) (oldest : s.appQ = id :: rest)
    (nokey : id ∉ s.keyQ) (delivered : id ∉ s.decQ) (hf : s.frame? id = some f) (desc : f.desc = none) (data : f.use = .data)
    (owed : f.owed = []) (there : s.isChannel f.ing = true) (unfolded : f.fold = 0)
    (plain : ∀ d, f.decision = some d → d.decider = .transit ∧ d.tailDrops = [] ∧ d.colourAct ≠ 2) (idle : s.hostSending id = []) :
    (s.copiesOf id = [] → ∃ t, exec .applyHeldEffects s = .next t ∧ t.frame? id = none ∧ id ∉ t.appQ
      ∧ t.rd (csUnit f.ing) 0x8000 0 = (s.rd (csUnit f.ing) 0x8000 0 + 1) % 2 ^ 64)
    ∧ ((∃ c ∈ s.copiesOf id, c.state ≠ .held) → ∃ t g, exec .applyHeldEffects s = .next t ∧ t.frame? id = some g ∧ g.applied = true
      ∧ t.appQ = rest ∧ t.copies = s.copies
      ∧ t.rd (csUnit f.ing) 0x8000 0 = (s.rd (csUnit f.ing) 0x8000 0 + 1) % 2 ^ 64) := by
  obtain ⟨u, g, t, answers, hg, applied, undescribed, after, copies, appQ, count⟩ :=
    exists_applied id rest f s up oldest nokey delivered hf desc data owed there unfolded plain idle
  have ofId : u.copiesOf id = s.copiesOf id := State.copiesOf_congr copies id
  have work := workObj_csUnit f.ing
  refine ⟨fun gone => ?_, fun left => ?_⟩
  · rw [State.settle_of_no_copy hg applied undescribed (ofId.trans gone)] at after
    have released : State.SameWork True (u.without id) t := (State.sameWork_releaseFrame hg).trans after
    refine ⟨t, answers, (State.frame?_congr (released.frames trivial) id).trans (State.without_frame? u id), ?_,
      (released.objs _ _ 0 work).trans count⟩
    rw [released.appQ]
    simp [State.without]
  · rw [State.settle_of_copy hg applied undescribed (by rwa [ofId])] at after
    exact ⟨t, g, answers, (State.frame?_congr (after.frames trivial) id).trans hg, applied, after.appQ.trans appQ, after.copies.trans copies,
      (after.objs _ _ 0 work).trans count⟩

end Sys2Proof.Machine

open Sys2Proof Sys2Proof.Machine

/-- Settles O18: a frame that commits, one that is undone for its FCS, and the held effects of a committed one. -/
theorem framesCommitOrAreUndone : Obligations.FramesCommitOrAreUndone :=
  ⟨commitPoint_commits, commitPoint_undoes, heldEffects_apply⟩

end

section
/-! Decisions: how they are made and how they are delivered (O17). -/

namespace Sys2Proof.Machine

/-! ### A key that is presented (R38, R40) -/

/-- A decision takes at most a free value. -/
theorem State.decide_snd (s : State) (f : Frame) (k : Key) : (s.decide f k).2 = { s with free := (s.decide f k).2.free } := by
  unfold State.decide
  split
  · rfl
  · split <;> rfl

theorem State.decide_fst (s : State) {f : Frame} (k : Key) (own : s.isTransit f = false) :
    ∃ len, (s.decide f k).1 = s.decideFrame f k len := by
  unfold State.decide
  rw [if_neg (by simp [own])]
  split
  · exact ⟨_, rfl⟩
  · exact ⟨_, rfl⟩

/-- A frame with the decision on its key, and what the decision is where an entry proves unreadable. -/
def State.decidedFrame (s : State) (f : Frame) (k : Key) : Frame :=
  { f with key := some k, decision := some (s.decide f k).1, tag := some s.edition, alts := s.alternatives f k (s.decide f k).1 }

/-- What KEY_PRESENT answers for a key in a slot that is not taken: the frame with its decision, and nothing else but the two queues and a free
value. -/
theorem execKeyPresent_of_key {id : Nat} {rest : List Nat} {f : Frame} {k : Key} {s : State} (up : s.mainUp = true)
    (untaken : s.slotTaken = false) (oldest : s.keyQ = id :: rest) (hf : s.frame? id = some f) (hk : f.key = some k) :
    ∃ n, execKeyPresent s = .next { s.setFrame (State.decidedFrame { s with keyQ := rest } f (s.keyNow f k)) with
      keyQ := rest, decQ := s.decQ ++ [id], free := n } := by
  have hf' : State.frame? { s with keyQ := rest } id = some f := hf
  refine ⟨(State.decide { s with keyQ := rest } f (s.keyNow f k)).2.free, ?_⟩
  unfold execKeyPresent
  simp only [oldest, hf', hk]
  rw [if_neg (by simp [up, untaken]), State.decide_snd]
  rfl

theorem keyPresent_decides (id : Nat) (rest : List Nat) (f : Frame) (k : Key) (s : State) (up : s.mainUp = true)
    (untaken : s.slotTaken = false) (oldest : s.keyQ = id :: rest) (hf : s.frame? id = some f) (hk : f.key = some k) :
    ∃ t, exec .keyPresent s = .next t
      ∧ t.frame? id = some { f with
          key := some (s.keyNow f k), decision := some (State.decide { s with keyQ := rest } f (s.keyNow f k)).1, tag := some s.edition,
          alts := State.alternatives { s with keyQ := rest } f (s.keyNow f k) (State.decide { s with keyQ := rest } f (s.keyNow f k)).1 }
      ∧ t.keyQ = rest ∧ t.decQ = s.decQ ++ [id] ∧ t.obj = s.obj ∧ t.tab = s.tab ∧ t.copies = s.copies := by
  obtain ⟨n, answers⟩ := execKeyPresent_of_key up untaken oldest hf hk
  have decided := State.frame?_setFrame (g := State.decidedFrame { s with keyQ := rest } f (s.keyNow f k)) hf
    (State.id_of_frame? (f := f) hf)
  exact ⟨_, answers, decided, rfl, rfl, rfl, rfl, rfl⟩

theorem keyPresent_waits (s : State) (_ : s.mainUp = true) (taken : s.slotTaken = true) : exec .keyPresent s = .next s := by
  show execKeyPresent s = _
  unfold execKeyPresent
  split
  · rfl
  · exact if_pos (by simp [taken])

/-! ### Who decides (Table 5.12, R142) -/

/-- The decision of a frame that is not in transit is that of the merge rule on its key as presented. -/
theorem keyPresent_merges {id : Nat} {rest : List Nat} {f : Frame} {k0 k : Key} {s : State} (up : s.mainUp = true)
    (untaken : s.slotTaken = false) (oldest : s.keyQ = id :: rest) (hf : s.frame? id = some f) (hk : f.key = some k0)
    (own : s.isTransit f = false) (now : k = s.keyNow f k0) :
    ∃ t g d, exec .keyPresent s = .next t ∧ t.frame? id = some g ∧ g.decision = some d ∧ d.decider = (s.merge k).1
      ∧ (f.desc = none → d.action = s.actionOf (s.merge k).1) ∧ d.tie = (s.merge k).2 := by
  obtain ⟨t, answers, hg, -⟩ := keyPresent_decides id rest f k0 s up untaken oldest hf hk
  obtain ⟨len, decides⟩ := State.decide_fst { s with keyQ := rest } (s.keyNow f k0) (f := f) own
  refine ⟨t, _, _, answers, hg, rfl, ?_⟩
  rw [decides, ← now]
  refine ⟨rfl, fun desc => ?_, rfl⟩
  unfold State.decideFrame
  rw [desc]
  rfl

theorem State.merge_of_legend {s : State} {k : Key} {i : Nat} (h : s.legend k = some i)
    (stays : actDefer (s.ent 0x006 0x6002 i) = false ∨ s.contour k = none) : s.merge k = (.legend i, (s.contour k).any Prod.snd) := by
  unfold State.merge
  cases e : s.contour k with
  | none => simp [h]
  | some c =>
    obtain ⟨j, tie⟩ := c
    simp only [e, reduceCtorEq, or_false] at stays
    simp [h, stays]

theorem State.merge_of_contour {s : State} {k : Key} {j : Nat} {tie : Bool} (h : s.contour k = some (j, tie))
    (defers : s.legend k = none ∨ ∃ i, s.legend k = some i ∧ actDefer (s.ent 0x006 0x6002 i) = true) : s.merge k = (.contour j, tie) := by
  unfold State.merge
  rcases defers with unmatched | ⟨i, hi, defer⟩
  · simp [h, unmatched]
  · simp [h, hi, defer]

theorem State.merge_of_miss {s : State} {k : Key} (h : s.legend k = none) (c : s.contour k = none) : s.merge k = (.miss, false) := by
  unfold State.merge
  simp [h, c]

theorem keyPresent_decider (id : Nat) (rest : List Nat) (f : Frame) (k0 k : Key) (s : State) (up : s.mainUp = true)
    (untaken : s.slotTaken = false) (oldest : s.keyQ = id :: rest) (hf : s.frame? id = some f) (hk : f.key = some k0)
    (own : s.isTransit f = false) (now : k = s.keyNow f k0) :
    (∀ i, s.legend k = some i → (actDefer (s.ent 0x006 0x6002 i) = false ∨ s.contour k = none) →
      ∃ t g d, exec .keyPresent s = .next t ∧ t.frame? id = some g ∧ g.decision = some d ∧ d.decider = .legend i
        ∧ (f.desc = none → d.action = s.ent 0x006 0x6002 i) ∧ d.tie = (s.contour k).any Prod.snd)
    ∧ (∀ j tie, s.contour k = some (j, tie) → (s.legend k = none ∨ ∃ i, s.legend k = some i ∧ actDefer (s.ent 0x006 0x6002 i) = true) →
      ∃ t g d, exec .keyPresent s = .next t ∧ t.frame? id = some g ∧ g.decision = some d ∧ d.decider = .contour j
        ∧ (f.desc = none → d.action = s.ent 0x007 0x6002 j) ∧ d.tie = tie)
    ∧ (s.legend k = none → s.contour k = none →
      ∃ t g d, exec .keyPresent s = .next t ∧ t.frame? id = some g ∧ g.decision = some d ∧ d.decider = .miss
        ∧ (f.desc = none → d.action = s.rd 0x006 0x1001 0) ∧ d.tie = false) := by
  have merged := keyPresent_merges up untaken oldest hf hk own now
  refine ⟨fun i hi stays => ?_, fun j tie hj defers => ?_, fun unmatched uncovered => ?_⟩
  · rw [State.merge_of_legend hi stays] at merged
    exact merged
  · rw [State.merge_of_contour hj defers] at merged
    exact merged
  · rw [State.merge_of_miss unmatched uncovered] at merged
    exact merged

/-! ### A decision that is delivered (R172, R155) -/

/-- The copy of a decision for a target that takes a base queue. -/
def State.baseCopy (s : State) (id : Nat) (d : Decision) (x : Target) : Copy :=
  s.newCopy id x.ep (.base x.ep d.cls) d.cls (d.colourAct = 1) x.mirror x.dst

theorem State.place_of_base {s : State} {d : Decision} {x : Target} (id : Nat) (h : s.queueFor d x.ep = .base x.ep d.cls) :
    s.place id d x = s.placeCopy (s.baseCopy id d x) := by
  unfold State.place
  rw [h]
  rfl

/-- The targets of a decision take their copies in order. -/
theorem State.foldl_place_of_base {d : Decision} (id : Nat) (l : List Target) (s : State) (h : ∀ x ∈ l, s.queueFor d x.ep = .base x.ep d.cls) :
    l.foldl (fun s x => s.place id d x) s = { s with copies := s.copies ++ l.map (s.baseCopy id d) } := by
  induction l generalizing s with
  | nil => simp
  | cons x l ih =>
    have others := ih (s.placeCopy (s.baseCopy id d x)) (fun y hy => h y (by simp [hy]))
    rw [List.foldl_cons, State.place_of_base id (h x (by simp)), others]
    simp only [State.placeCopy, List.map_cons, List.append_assoc]
    rfl

/-- A new copy takes nothing of the state but the tick. -/
theorem State.baseCopy_congr {s t : State} (h : t.tick = s.tick) (id : Nat) (d : Decision) : t.baseCopy id d = s.baseCopy id d := by
  funext x
  unfold State.baseCopy State.newCopy
  rw [h]

theorem State.queueFor_congr {s t : State} {d : Decision} (h : t.qCfg d.queue = s.qCfg d.queue) (x : Nat) : t.queueFor d x = s.queueFor d x := by
  unfold State.queueFor
  rw [h]

namespace State.SameWork

theorem fold (s : State) (f : Frame) (d : Decision) : SameWork False s (s.fold f d) := (setFrames id s _).trans (charged _ _)

theorem leaveFlight (s : State) (id : Nat) : SameWork False s (s.leaveFlight id) := (setFrames (fun h => h) s _).trans (drainCheck _)

end State.SameWork

/-- The state in which a decision's copies are placed: the frame no longer waits, and its fold decision has been made. -/
def State.delivering (s : State) (rest : List Nat) (f : Frame) (d : Decision) : State :=
  ((State.setFrame { s with decQ := rest } { f with decision := some d, alts := [] }).fold { f with decision := some d, alts := [] } d)

theorem State.sameWork_delivering (s : State) (rest : List Nat) (f : Frame) (d : Decision) :
    State.SameWork False { s with decQ := rest } (s.delivering rest f d) := (State.SameWork.setFrames id _ _).trans (.fold _ _ _)

/-- The copies of a decision, for its targets and then for its rings; none where it drops the frame. -/
def State.placeAll (s : State) (id : Nat) (d : Decision) : State :=
  if d.eccDrop ∨ d.colourAct = 2 then s
  else d.rings.foldl (fun s r => s.placeHost id d r) (d.targets.foldl (fun s x => s.place id d x) s)

/-- Once its copies are placed a frame leaves flight at most. -/
def State.delivered (s : State) (id : Nat) : State := if (s.copiesOf id).isEmpty then s.leaveFlight id else s

/-- What DECISION_DELIVER answers for a decision that is delivered without an error met, where events are held. -/
theorem execDecisionDeliver_of_clean {id : Nat} {rest : List Nat} {f : Frame} {d : Decision} {s : State} {l : List HeldEvent}
    (held : s.evHold = some l) (up : s.mainUp = true) (oldest : s.decQ = id :: rest) (hf : s.frame? id = some f) (hd : f.decision = some d) :
    execDecisionDeliver .clean s = .next (((s.delivering rest f d).placeAll id d).delivered id) := by
  have hf' : State.frame? { s with decQ := rest } id = some f := hf
  unfold execDecisionDeliver
  rw [gathered_of_held held]
  simp only [oldest, hf', hd]
  rw [if_neg (by simp [up])]
  rfl

/-- What stays of a frame's path through a delivery, but for the copies that it places. -/
theorem exists_delivered {id : Nat} {rest : List Nat} {f : Frame} {d : Decision} {s : State} (up : s.mainUp = true) (oldest : s.decQ = id :: rest)
    (hf : s.frame? id = some f) (hd : f.decision = some d) :
    ∃ u t : State, exec (.decisionDeliver .clean) s = .next t ∧ State.SameWork False { s with decQ := rest } u
      ∧ State.SameWork False (u.placeAll id d) t := by
  obtain ⟨v, t, answers, ⟨l, rfl⟩, events⟩ : ∃ v t, execDecisionDeliver .clean s = .next t
      ∧ (∃ l, v = ((State.delivering { s with evHold := some l } rest f d).placeAll id d).delivered id) ∧ v.ButEvents t :=
    exists_gathered_next fun l => ⟨_, execDecisionDeliver_of_clean (s := { s with evHold := some l }) rfl up oldest hf hd, l, rfl⟩
  refine ⟨_, t, answers, (State.SameWork.other { s with decQ := rest }).trans (State.sameWork_delivering { s with evHold := some l } rest f d), ?_⟩
  exact (State.SameWork.ite (.leaveFlight _ _) (.refl _)).trans (.events events)

theorem decisionDeliver_places (id : Nat) (rest : List Nat) (f : Frame) (d : Decision) (s : State) (up : s.mainUp = true)
    (oldest : s.decQ = id :: rest) (hf : s.frame? id = some f) (hd : f.decision = some d) (readable : d.eccDrop = false)
    (passes : d.colourAct ≠ 2) (_ : s.rd 0x009 0x1000 0 ≠ 1) (ringless : d.rings = [])
    (base : ∀ x ∈ d.targets, s.queueFor d x.ep = .base x.ep d.cls) :
    ∃ t, exec (.decisionDeliver .clean) s = .next t ∧ t.decQ = rest
      ∧ t.copies = s.copies ++ d.targets.map (fun x => s.newCopy id x.ep (.base x.ep d.cls) d.cls (d.colourAct = 1) x.mirror x.dst) := by
  obtain ⟨u, t, answers, before, after⟩ := exists_delivered up oldest hf hd
  have placed := State.foldl_place_of_base id d.targets u fun x hx => (State.queueFor_congr (before.queues _) x.ep).trans (base x hx)
  rw [State.placeAll, if_neg (by simp [readable, passes]), ringless, List.foldl_nil, placed] at after
  refine ⟨t, answers, after.decQ.trans before.decQ, after.copies.trans ?_⟩
  have tick : u.tick = s.tick := before.objs 0x000 0x5001 0 rfl
  rw [before.copies, State.baseCopy_congr tick]
  rfl

theorem decisionDeliver_drops (id : Nat) (rest : List Nat) (f : Frame) (d : Decision) (s : State) (up : s.mainUp = true)
    (oldest : s.decQ = id :: rest) (hf : s.frame? id = some f) (hd : f.decision = some d) (drops : d.eccDrop = true ∨ d.colourAct = 2) :
    ∃ t, exec (.decisionDeliver .clean) s = .next t ∧ t.decQ = rest ∧ t.copies = s.copies := by
  obtain ⟨u, t, answers, before, after⟩ := exists_delivered up oldest hf hd
  rw [State.placeAll, if_pos drops] at after
  exact ⟨t, answers, after.decQ.trans before.decQ, after.copies.trans before.copies⟩

end Sys2Proof.Machine
end

section
/-! The searches of Legend and Contour by what their tables hold (O17). -/

namespace Sys2Proof.Machine

/-! ### What a tidy map lists -/

theorem Map.mem_of_find? {κ ν : Type} [DecidableEq κ] {m : Map κ ν} {x : κ} {v : ν} (h : m.find? x = some v) : (x, v) ∈ m := by
  induction m with
  | nil => cases h
  | cons p m ih =>
    obtain ⟨k, w⟩ := p
    by_cases hk : k = x
    · simp only [Map.find?, if_pos hk, Option.some.injEq] at h
      simp [hk, h]
    · simp only [Map.find?, if_neg hk] at h
      exact List.mem_cons_of_mem _ (ih h)

theorem Map.find?_of_mem {κ ν : Type} [DecidableEq κ] {m : Map κ ν} {x : κ} {v : ν} (once : (m.map Prod.fst).Nodup) (h : (x, v) ∈ m) :
    m.find? x = some v := by
  induction m with
  | nil => cases h
  | cons p m ih =>
    obtain ⟨k, w⟩ := p
    obtain ⟨new, rest⟩ := List.nodup_cons.mp once
    rcases List.mem_cons.mp h with e | tail
    · obtain ⟨rfl, rfl⟩ : x = k ∧ v = w := by simpa using e
      simp [Map.find?]
    · have other : k ≠ x := by
        rintro rfl
        exact new (List.mem_map.mpr ⟨_, tail, rfl⟩)
      simp only [Map.find?, if_neg other]
      exact ih rest tail

theorem State.tab_nodup {s : State} (h : s.canon = true) : (s.tab.map Prod.fst).Nodup :=
  ((Map.tidy_iff _ _).mp (s.canon_iff.mp h).2.1).1

theorem State.mem_listed {s : State} {u i : Nat} {p : Nat × Nat} : p ∈ s.listed u i ↔ (⟨u, i, p.1⟩, p.2) ∈ s.tab := by
  obtain ⟨j, e⟩ := p
  simp only [State.listed, List.mem_filterMap]
  constructor
  · rintro ⟨⟨⟨v, x, y⟩, w⟩, hm, hs⟩
    split at hs
    next here =>
      obtain ⟨rfl, rfl⟩ := here
      obtain ⟨rfl, rfl⟩ : y = j ∧ w = e := by simpa using hs
      exact hm
    next => cases hs
  · intro hm
    exact ⟨_, hm, if_pos ⟨rfl, rfl⟩⟩

/-- A listed entry reads as it is listed. -/
theorem State.ent_of_mem_listed {s : State} {u i : Nat} {p : Nat × Nat} (h : s.canon = true) (hp : p ∈ s.listed u i) : s.ent u i p.1 = p.2 := by
  unfold State.ent Map.get
  rw [Map.find?_of_mem (State.tab_nodup h) (State.mem_listed.mp hp)]
  rfl

/-- An entry that does not read as its reset value is listed. -/
theorem State.mem_listed_of_ne {s : State} {u i j : Nat} (h : s.ent u i j ≠ tabDefault s.build u i j) : (j, s.ent u i j) ∈ s.listed u i := by
  rw [State.mem_listed]
  unfold State.ent Map.get at *
  cases e : Map.find? s.tab ⟨u, i, j⟩ with
  | none => simp [e] at h
  | some v => exact Map.mem_of_find? e

/-- A table lists no entry twice. -/
theorem State.listed_nodup {s : State} (h : s.canon = true) (u i : Nat) : ((s.listed u i).map Prod.fst).Nodup := by
  have once := State.tab_nodup h
  unfold List.Nodup at *
  rw [List.pairwise_map] at *
  unfold State.listed
  rw [List.pairwise_filterMap]
  refine once.imp fun {a b} ne x hx y hy same => ne ?_
  obtain ⟨⟨v, w, j⟩, e⟩ := a
  obtain ⟨⟨v', w', j'⟩, e'⟩ := b
  split at hx
  next here =>
    split at hy
    next there =>
      obtain rfl := Option.some.inj hx
      obtain rfl := Option.some.inj hy
      simp_all
    next => cases hy
  next => cases hx

/-! ### The least and the greatest of a list -/

theorem lowest_eq_min? (l : List Nat) : lowest l = l.min? := by cases l <;> rfl

theorem lowest_eq_none {l : List Nat} : lowest l = none ↔ l = [] := by rw [lowest_eq_min?, List.min?_eq_none_iff]

theorem lowest_eq_some {l : List Nat} {i : Nat} : lowest l = some i ↔ i ∈ l ∧ ∀ j ∈ l, i ≤ j := by
  rw [lowest_eq_min?, List.min?_eq_some_iff]

/-- The maximum of a list over 0 is one of its elements where it has any, and none is greater. -/
theorem foldl_max_spec (l : List Nat) : (∀ x ∈ l, x ≤ l.foldl max 0) ∧ (l ≠ [] → l.foldl max 0 ∈ l) := by
  have top : (0 :: l).max? = some (l.foldl max 0) := rfl
  obtain ⟨there, above⟩ := List.max?_eq_some_iff.mp top
  have above' : ∀ x ∈ l, x ≤ l.foldl max 0 := fun x hx => above x (List.mem_cons_of_mem _ hx)
  refine ⟨above', fun some_ => ?_⟩
  rcases List.mem_cons.mp there with zero | there
  · obtain ⟨x, hx⟩ := List.exists_mem_of_ne_nil l some_
    have := above' x hx
    rw [zero] at this ⊢
    rwa [← Nat.le_zero.mp this]
  · exact there

/-- A list without repetitions that has `i` has more than one element exactly where it has another. -/
theorem one_lt_length_iff {l : List Nat} {i : Nat} (once : l.Nodup) (hi : i ∈ l) : 1 < l.length ↔ ∃ j, j ≠ i ∧ j ∈ l := by
  have rest : (l.erase i).length = l.length - 1 := List.length_erase_of_mem hi
  rw [show 1 < l.length ↔ 0 < (l.erase i).length by omega, List.length_pos_iff_exists_mem]
  simp [once.mem_erase_iff]

/-! ### Legend (R128, R129, Table 5.6) -/

theorem testBit_field (v lo w b : Nat) : (field v lo w).testBit b = (decide (b < w) && v.testBit (lo + b)) := by
  simp [field, Nat.testBit_mod_two_pow, Nat.testBit_shiftRight]

/-- A key word matches an entry where every key bit under a mask bit equals the value bit. -/
theorem maskMatch_iff (e w : Nat) : maskMatch e w = true ↔ ∀ b, b < 320 → e.testBit (320 + b) = true → w.testBit b = e.testBit b := by
  have bits : maskMatch e w = true ↔ ∀ b, ((w ^^^ legValue e) &&& legMask e).testBit b = false := by
    rw [maskMatch, decide_eq_true_iff]
    exact ⟨fun h b => by simp [h], fun h => Nat.eq_of_testBit_eq fun b => by simp [h b]⟩
  rw [bits]
  refine forall_congr' fun b => ?_
  by_cases within : b < 320 <;> by_cases masked : e.testBit (320 + b) = true <;>
    simp [legValue, legMask, testBit_field, within, masked]

/-- What the search asks of an entry is what matching means. -/
theorem State.legendMatches_iff (s : State) (k : Key) (i : Nat) : s.legendMatches k i (s.ent 0x006 0x6000 i) = true ↔ s.legendHit k i := by
  have tail : (!s.isTail i) = true ↔ ¬(i % 2 = 1 ∧ (s.ent 0x006 0x6000 (i - 1)).testBit 642 = true) := by
    unfold State.isTail legChain
    rw [Bool.not_eq_true', Bool.and_eq_false_iff, decide_eq_false_iff_not, ← Bool.not_eq_true, ← not_and_or]
  unfold State.legendMatches State.legendHit legCurrent
  simp only [Bool.and_eq_true, tail, and_assoc]
  refine and_congr_right fun _ => and_congr_right fun _ => and_congr (by simp) ?_
  cases pair : (s.ent 0x006 0x6000 i).testBit 642 with
  | false => simp [legChain, pair, maskMatch_iff]
  | true => simp [legChain, pair, maskMatch_iff, and_assoc, and_left_comm]

/-- The candidates of the search are the entries that match: no other entry of a table in canonical form can. -/
theorem State.mem_legend_candidates {s : State} (k : Key) (h : s.canon = true) (j : Nat) :
    j ∈ (s.listed 0x006 0x6000).filterMap (fun p => if s.legendMatches k p.1 p.2 then some p.1 else none) ↔ s.legendHit k j := by
  rw [List.mem_filterMap, ← State.legendMatches_iff]
  constructor
  · rintro ⟨p, hp, hm⟩
    split at hm
    next here =>
      obtain rfl := Option.some.inj hm
      rwa [State.ent_of_mem_listed h hp]
    next => cases hm
  · intro hj
    have current : (s.ent 0x006 0x6000 j).testBit 641 = true := ((s.legendMatches_iff k j).mp hj).1
    have listed : s.ent 0x006 0x6000 j ≠ tabDefault s.build 0x006 0x6000 j := by
      intro e
      rw [e] at current
      simp [tabDefault] at current
    exact ⟨_, State.mem_listed_of_ne listed, if_pos hj⟩

theorem legend_finds_lowest (k : Key) (s : State) (h : s.canon = true) :
    (∀ i, s.legend k = some i → s.legendHit k i ∧ ∀ j, s.legendHit k j → i ≤ j) ∧ (s.legend k = none → ∀ j, ¬s.legendHit k j) := by
  have candidates := State.mem_legend_candidates k h
  refine ⟨fun i hi => ?_, fun none_ j hj => ?_⟩
  · obtain ⟨there, least⟩ := lowest_eq_some.mp hi
    exact ⟨(candidates i).mp there, fun j hj => least j ((candidates j).mpr hj)⟩
  · have := (candidates j).mpr hj
    rw [lowest_eq_none.mp none_] at this
    cases this

/-! ### Contour (R140, Table 5.9) -/

theorem inRange_iff (v : Option Nat) (lo hi : Nat) : inRange v lo hi = true ↔ ∀ x, v = some x → lo ≤ x ∧ x ≤ hi := by
  cases v <;> simp [inRange]

theorem State.contourMatches_iff (s : State) (k : Key) (i : Nat) :
    s.contourMatches k i (s.ent 0x007 0x6000 i) = true ↔ s.contourHit k i := by
  unfold State.contourMatches State.contourHit
  simp [inRange_iff, and_assoc]

/-- The entries that the search of Contour finds matching. -/
def State.contourFound (s : State) (k : Key) : List (Nat × Nat) := (s.listed 0x007 0x6000).filter (fun p => s.contourMatches k p.1 p.2)

/-- The highest PRIORITY among them. -/
def State.contourTop (s : State) (k : Key) : Nat := ((s.contourFound k).map (fun p => field p.2 48 8)).foldl max 0

/-- Those that have it. -/
def State.contourBest (s : State) (k : Key) : List Nat := ((s.contourFound k).filter (fun p => field p.2 48 8 = s.contourTop k)).map Prod.fst

theorem State.contour_eq (s : State) (k : Key) :
    s.contour k = (lowest (s.contourBest k)).map (fun i => (i, Decidable.decide (1 < (s.contourBest k).length))) := rfl

theorem State.mem_contourFound {s : State} (k : Key) (h : s.canon = true) (p : Nat × Nat) :
    p ∈ s.contourFound k ↔ s.contourHit k p.1 ∧ p.2 = s.ent 0x007 0x6000 p.1 := by
  rw [State.contourFound, List.mem_filter, ← State.contourMatches_iff]
  constructor
  · rintro ⟨hp, hm⟩
    rw [State.ent_of_mem_listed h hp]
    exact ⟨hm, rfl⟩
  · rintro ⟨hm, e⟩
    have current : (s.ent 0x007 0x6000 p.1).testBit 1 = true := ((s.contourMatches_iff k p.1).mp hm).1
    have listed : s.ent 0x007 0x6000 p.1 ≠ tabDefault s.build 0x007 0x6000 p.1 := by
      intro e
      rw [e] at current
      simp [tabDefault] at current
    have hp := State.mem_listed_of_ne listed
    rw [← e] at hp hm
    exact ⟨hp, hm⟩

/-- No matching entry has a PRIORITY above the highest, and where one matches, one has it. -/
theorem State.contourTop_spec {s : State} (k : Key) (h : s.canon = true) :
    (∀ j, s.contourHit k j → s.contourPrio j ≤ s.contourTop k)
      ∧ ((∃ j, s.contourHit k j) → ∃ j, s.contourHit k j ∧ s.contourPrio j = s.contourTop k) := by
  obtain ⟨above, attained⟩ := foldl_max_spec ((s.contourFound k).map (fun p => field p.2 48 8))
  have found (j : Nat) (hj : s.contourHit k j) : (j, s.ent 0x007 0x6000 j) ∈ s.contourFound k := (State.mem_contourFound k h _).mpr ⟨hj, rfl⟩
  refine ⟨fun j hj => above _ (List.mem_map.mpr ⟨_, found j hj, rfl⟩), fun ⟨j, hj⟩ => ?_⟩
  obtain ⟨p, hp, top⟩ := List.mem_map.mp (attained (List.ne_nil_of_mem (List.mem_map.mpr ⟨_, found j hj, rfl⟩)))
  obtain ⟨hit, e⟩ := (State.mem_contourFound k h p).mp hp
  exact ⟨p.1, hit, by rw [State.contourPrio, ← e]; exact top⟩

theorem State.mem_contourBest {s : State} (k : Key) (h : s.canon = true) (j : Nat) :
    j ∈ s.contourBest k ↔ s.contourHit k j ∧ s.contourPrio j = s.contourTop k := by
  simp only [State.contourBest, List.mem_map, List.mem_filter, State.mem_contourFound k h, decide_eq_true_eq]
  constructor
  · rintro ⟨p, ⟨⟨hit, e⟩, top⟩, rfl⟩
    exact ⟨hit, by rw [State.contourPrio, ← e]; exact top⟩
  · rintro ⟨hit, top⟩
    exact ⟨(j, s.ent 0x007 0x6000 j), ⟨⟨hit, rfl⟩, top⟩, rfl⟩

theorem State.contourBest_nodup {s : State} (k : Key) (h : s.canon = true) : (s.contourBest k).Nodup :=
  (State.listed_nodup h 0x007 0x6000).sublist ((List.filter_sublist.trans List.filter_sublist).map Prod.fst)

theorem contour_finds_best (k : Key) (s : State) (h : s.canon = true) :
    (∀ i tie, s.contour k = some (i, tie) → s.contourHit k i ∧ (∀ j, s.contourHit k j → s.contourPrio j ≤ s.contourPrio i)
      ∧ (∀ j, s.contourHit k j → s.contourPrio j = s.contourPrio i → i ≤ j)
      ∧ (tie = true ↔ ∃ j, j ≠ i ∧ s.contourHit k j ∧ s.contourPrio j = s.contourPrio i))
    ∧ (s.contour k = none → ∀ j, ¬s.contourHit k j) := by
  obtain ⟨above, attained⟩ := State.contourTop_spec k h
  have best := State.mem_contourBest k h
  rw [State.contour_eq]
  refine ⟨fun i tie hi => ?_, fun none_ j hj => ?_⟩
  · obtain ⟨i', low, e⟩ := Option.map_eq_some_iff.mp hi
    obtain ⟨rfl, rfl⟩ : i' = i ∧ Decidable.decide (1 < (s.contourBest k).length) = tie := by simpa using e
    obtain ⟨there, least⟩ := lowest_eq_some.mp low
    obtain ⟨hit, top⟩ := (best i').mp there
    refine ⟨hit, fun j hj => top ▸ above j hj, fun j hj same => least j ((best j).mpr ⟨hj, same.trans top⟩), ?_⟩
    rw [decide_eq_true_iff, one_lt_length_iff (State.contourBest_nodup k h) there]
    simp only [best, top]
  · obtain ⟨i, hit, top⟩ := attained ⟨j, hj⟩
    have := (best i).mpr ⟨hit, top⟩
    rw [lowest_eq_none.mp (Option.map_eq_none_iff.mp none_)] at this
    cases this

end Sys2Proof.Machine
open Sys2Proof Sys2Proof.Machine

/-- Settles O17: a key's decision, its delivery, the searches of both tables, and who decides. -/
theorem decisionsAreMadeAndDelivered : Obligations.DecisionsAreMadeAndDelivered :=
  ⟨keyPresent_decides, keyPresent_waits, decisionDeliver_places, decisionDeliver_drops, legend_finds_lowest, contour_finds_best,
    keyPresent_decider⟩

end

section
/-! The stores stay in their canonical form (O4, O5). -/
namespace Sys2Proof.Machine

theorem step_keeps_canon {s t : State} (c : s.canon = true) (h : step s = .next t) : t.canon = true := by
  unfold step at h
  split at h
  next =>
    cases h
    exact (slotPasses_keeps s (.refl s)).canon c
  next i rest _ => exact (exec_keeps i { s with pending := rest } t h).canon c

end Sys2Proof.Machine
open Sys2Proof Sys2Proof.Machine

/-- Settles O4: the reset state is a literal, and its stores are computed. -/
theorem resetStoresAreCanonical : Obligations.ResetStoresAreCanonical := by
  unfold Obligations.ResetStoresAreCanonical
  decide

/-- Settles O5: every command keeps the canonical form (`exec_keeps`), and so does a slot that passes. -/
theorem canonicalStoresStayCanonical : Obligations.CanonicalStoresStayCanonical :=
  fun _ _ => step_keeps_canon

end

section
/-! Every command in every state answers a next state (O7). -/
namespace Sys2Proof.Machine

/-- The outcome of a meaning is a next state: no fault, no refusal. -/
def Answers (o : Host.Outcome State Fault Refusal) : Prop := ∃ t, o = .next t

namespace Answers

theorem next (t : State) : Answers (.next t) := ⟨t, rfl⟩

theorem ite {p : Prop} [Decidable p] {x y : Host.Outcome State Fault Refusal} (h : Answers x) (k : Answers y) :
    Answers (if p then x else y) := by
  split <;> assumption

end Answers

theorem gathered_answers {s : State} {f : State → Host.Outcome State Fault Refusal} (h : ∀ u, Answers (f u)) : Answers (gathered s f) := by
  obtain ⟨u, hu⟩ := h s.holding
  obtain ⟨t, ht, -⟩ := gathered_next hu
  exact ⟨t, ht⟩

/-! ### Accesses by an agent -/

theorem State.access_answers (s : State) (a : Agent) (path : List Nat) (i k : Nat) (d : List Octet) : Answers (s.access a path i k d) := by
  unfold State.access
  dsimp only
  repeat' split
  all_goals exact .next _

theorem State.accessUnit_answers (s : State) (a : Agent) (u i k : Nat) (d : List Octet) : Answers (s.accessUnit a u i k d) :=
  State.access_answers ..

theorem State.readUnit_answers (s : State) (a : Agent) (u i k : Nat) (n : Option Nat) : Answers (s.readUnit a u i k n) :=
  .ite (.next _) (.next _)

theorem State.accessEntry_answers (s : State) (a : Agent) (u i e : Nat) (octets : List Octet) : Answers (s.accessEntry a u i e octets) :=
  .ite (.next _) (.next _)

/-! ### Commands that choose by what the state holds -/

theorem execRxFrameStart_answers (ch : Nat) (start : StartInput) (crossing : Nat) (s : State) :
    Answers (execRxFrameStart ch start crossing s) := by
  unfold execRxFrameStart
  dsimp only
  repeat' split
  all_goals exact .next _

theorem execRxCell_answers (ch : Nat) (cell : CellInput) (s : State) : Answers (execRxCell ch cell s) := by
  refine gathered_answers fun s => ?_
  repeat' split
  all_goals exact .next _

theorem execKeyPresent_answers (s : State) : Answers (execKeyPresent s) := by
  unfold execKeyPresent
  dsimp only
  repeat' split
  all_goals exact .next _

theorem execDecisionDeliver_answers (ecc : EccFinding) (s : State) : Answers (execDecisionDeliver ecc s) := by
  refine gathered_answers fun s => ?_
  dsimp only
  repeat' split
  all_goals exact .next _

theorem execCommitPoint_answers (ep : Nat) (s : State) : Answers (execCommitPoint ep s) := by
  refine gathered_answers fun s => ?_
  repeat' split
  all_goals exact .next _

theorem execApplyHeldEffects_answers (s : State) : Answers (execApplyHeldEffects s) := by
  refine gathered_answers fun s => ?_
  repeat' split
  all_goals exact .next _

theorem execHostTxFrame_answers (s : State) : Answers (execHostTxFrame s) := by
  refine gathered_answers fun s => ?_
  repeat' split
  all_goals exact .next _

theorem execAlRxFrame_answers (al length : Nat) (rsvd : Bool) (octets : List Octet) (err : Bool) (s : State) :
    Answers (execAlRxFrame al length rsvd octets err s) := by
  unfold execAlRxFrame
  repeat' split
  all_goals exact .next _

theorem execSchedChoice_answers (ep level lead : Nat) (s : State) : Answers (execSchedChoice ep level lead s) := by
  unfold execSchedChoice
  repeat' split
  all_goals exact .next _

theorem execTxFrameStart_answers (ep level crossing : Nat) (ecc : CellRead) (s : State) :
    Answers (execTxFrameStart ep level crossing ecc s) := by
  refine gathered_answers fun s => ?_
  dsimp only
  repeat' split
  all_goals exact .next _

theorem execTxFrameEnd_answers (ep : Nat) (s : State) : Answers (execTxFrameEnd ep s) := by
  refine gathered_answers fun s => ?_
  dsimp only
  repeat' split
  all_goals exact .next _

theorem execAlTxFrameEnd_answers (al : Nat) (ecc : CellRead) (s : State) : Answers (execAlTxFrameEnd al ecc s) := by
  unfold execAlTxFrameEnd
  repeat' split
  all_goals exact .next _

theorem execMmFragmentRx_answers (ch : Nat) (start : List Octet) (frag : FragInput) (crossing : Nat) (s : State) :
    Answers (execMmFragmentRx ch start frag crossing s) := by
  unfold execMmFragmentRx
  dsimp only
  repeat' split
  all_goals exact .next _

theorem execFabricFragmentRx_answers (ch : Nat) (start : List Octet) (frag : FragInput) (crossing : Nat) (s : State) :
    Answers (execFabricFragmentRx ch start frag crossing s) := by
  unfold execFabricFragmentRx
  dsimp only
  repeat' split
  all_goals exact .next _

theorem execSyncLost_answers (lane : Nat) (hiBer : Bool) (s : State) : Answers (execSyncLost lane hiBer s) := by
  unfold execSyncLost
  repeat' split
  all_goals exact .next _

theorem execCommitCheckDone_answers (unit : Nat) (s : State) : Answers (execCommitCheckDone unit s) := by
  refine gathered_answers fun s => ?_
  repeat' split
  all_goals exact .next _

theorem execLeaseExpiry_answers (unit : Nat) (s : State) : Answers (execLeaseExpiry unit s) := by
  refine gathered_answers fun s => ?_
  repeat' split
  all_goals exact .next _

theorem execDpApertureRead_answers (window width : Nat) (s : State) : Answers (execDpApertureRead window width s) := by
  unfold execDpApertureRead
  dsimp only
  repeat' split
  all_goals exact .next _

theorem execDpApertureWrite_answers (window width word : Nat) (s : State) : Answers (execDpApertureWrite window width word s) := by
  unfold execDpApertureWrite
  dsimp only
  repeat' split
  all_goals exact .next _

theorem execAccessResponse_answers (s : State) : Answers (execAccessResponse s) := by
  refine gathered_answers fun s => ?_
  repeat' split
  all_goals exact .next _

theorem execAccessRelayTimeout_answers (tag : Nat) (s : State) : Answers (execAccessRelayTimeout tag s) := by
  unfold execAccessRelayTimeout
  repeat' split
  all_goals exact .next _

theorem execTableUpdateApply_answers (s : State) : Answers (execTableUpdateApply s) := by
  refine gathered_answers fun s => ?_
  repeat' split
  all_goals exact .next _

theorem execSurveyStep_answers (finding : SurveyFinding) (s : State) : Answers (execSurveyStep finding s) := by
  refine gathered_answers fun s => ?_
  repeat' split
  all_goals exact .next _

theorem execSurveyRepair_answers (s : State) : Answers (execSurveyRepair s) := by
  unfold execSurveyRepair
  repeat' split
  all_goals exact .next _

theorem execFoldDataRx_answers (ch : Nat) (frame : List Octet) (eccBad : Bool) (crossing : Nat) (s : State) :
    Answers (execFoldDataRx ch frame eccBad crossing s) := by
  unfold execFoldDataRx
  dsimp only
  repeat' split
  all_goals exact .next _

theorem execFoldNakRx_answers (ch : Nat) (frame : List Octet) (s : State) : Answers (execFoldNakRx ch frame s) := by
  unfold execFoldNakRx
  dsimp only
  repeat' split
  all_goals exact .next _

theorem execTemplateInstallTx_answers (ch : Nat) (s : State) : Answers (execTemplateInstallTx ch s) := by
  unfold execTemplateInstallTx
  repeat' split
  all_goals exact .next _

theorem execFoldNakTx_answers (ch : Nat) (s : State) : Answers (execFoldNakTx ch s) := by
  unfold execFoldNakTx
  repeat' split
  all_goals exact .next _

theorem execGateCtReached_answers (ep : Nat) (s : State) : Answers (execGateCtReached ep s) := by
  unfold execGateCtReached
  repeat' split
  all_goals exact .next _

theorem execTailDoorbell_answers (kind : RingKind) (ring value : Nat) (width64 : Bool) (s : State) :
    Answers (execTailDoorbell kind ring value width64 s) := by
  refine gathered_answers fun s => ?_
  dsimp only
  repeat' split
  all_goals exact .next _

theorem execScanKnock_answers (kind : RingKind) (ring : Nat) (width64 : Bool) (s : State) :
    Answers (execScanKnock kind ring width64 s) := by
  unfold execScanKnock
  dsimp only
  repeat' split
  all_goals exact .next _

theorem execCqHeadDoorbell_answers (ring value : Nat) (width64 : Bool) (s : State) : Answers (execCqHeadDoorbell ring value width64 s) := by
  refine gathered_answers fun s => ?_
  dsimp only
  repeat' split
  all_goals exact .next _

theorem execDescReadDone_answers (kind : RingKind) (ring : Nat) (entry : List Octet) (s : State) :
    Answers (execDescReadDone kind ring entry s) := by
  refine gathered_answers fun s => ?_
  repeat' split
  all_goals exact .next _

theorem State.scanBurst_answers (s : State) (o : MpOp) (kind : RingKind) (ring : Nat) : Answers (s.scanBurst o kind ring) :=
  .ite (.next _) (.ite (.next _) (.next _))

theorem State.readDone_answers (s : State) (o : MpOp) : Answers (s.readDone o) := by
  unfold State.readDone
  split
  case h_3 kind ring _ => exact State.scanBurst_answers s o kind ring
  all_goals exact .next _

theorem execMpReadResponse_answers (tag : Nat) (data : List Octet) (last err : Bool) (s : State) :
    Answers (execMpReadResponse tag data last err s) := by
  refine gathered_answers fun s => .ite (.next _) ?_
  dsimp only
  split
  · exact .next _
  · exact .ite (.next _) (.ite (State.readDone_answers _ _) (.next _))

theorem execMpWriteResponse_answers (tag : Nat) (err : Bool) (s : State) : Answers (execMpWriteResponse tag err s) := by
  refine gathered_answers fun s => ?_
  dsimp only
  repeat' split
  all_goals exact .next _

theorem execMpOperationTimeout_answers (write : Bool) (tag : Nat) (s : State) : Answers (execMpOperationTimeout write tag s) := by
  refine gathered_answers fun s => ?_
  dsimp only
  repeat' split
  all_goals exact .next _

theorem execBqBufferTake_answers (bq : Nat) (ecc : CellRead) (s : State) : Answers (execBqBufferTake bq ecc s) := by
  refine gathered_answers fun s => ?_
  repeat' split
  all_goals exact .next _

theorem execCoexReqFall_answers (i : Nat) (s : State) : Answers (execCoexReqFall i s) := by
  unfold execCoexReqFall
  repeat' split
  all_goals exact .next _

theorem execScanJobStart_answers (s : State) : Answers (execScanJobStart s) := by
  refine gathered_answers fun s => ?_
  repeat' split
  all_goals exact .next _

theorem execNvmOperationDone_answers (ok : Bool) (s : State) : Answers (execNvmOperationDone ok s) := by
  refine gathered_answers fun s => ?_
  repeat' split
  all_goals exact .next _

theorem execNvmTimeout_answers (s : State) : Answers (execNvmTimeout s) := by
  refine gathered_answers fun s => ?_
  repeat' split
  all_goals exact .next _

theorem execSnowdropOverride_answers (view : Nat) (s : State) : Answers (execSnowdropOverride view s) := by
  refine gathered_answers fun s => ?_
  dsimp only
  repeat' split
  all_goals exact .next _

theorem execSnapshotDone_answers (slot : Nat) (s : State) : Answers (execSnapshotDone slot s) := by
  unfold execSnapshotDone
  repeat' split
  all_goals exact .next _

theorem execSrstAssert_answers (s : State) : Answers (execSrstAssert s) := by
  refine gathered_answers fun s => ?_
  repeat' split
  all_goals exact .next _

theorem exec_answers (c : Instr) (s : State) : Answers (exec c s) := by
  cases c with
  | tickBoundary => exact show Answers (execTickBoundary s) from .ite (.next _) (.next _)
  | rxFrameStart ch start crossing => exact execRxFrameStart_answers ..
  | rxCell ch cell => exact execRxCell_answers ..
  | keyPresent => exact execKeyPresent_answers ..
  | decisionDeliver ecc => exact execDecisionDeliver_answers ..
  | commitPoint ep => exact execCommitPoint_answers ..
  | applyHeldEffects => exact execApplyHeldEffects_answers ..
  | hostTxFrame => exact execHostTxFrame_answers ..
  | alRxFrame al length rsvd octets err => exact execAlRxFrame_answers ..
  | schedChoice ep level lead => exact execSchedChoice_answers ..
  | txFrameStart ep level crossing ecc => exact execTxFrameStart_answers ..
  | txFrameEnd ep => exact execTxFrameEnd_answers ..
  | alTxFrameEnd al ecc => exact execAlTxFrameEnd_answers ..
  | macControlOther ch frame => exact show Answers (execMacControlOther ch frame s) from .ite (.next _) (.next _)
  | pauseRx ch frame => exact show Answers (execPauseRx ch frame s) from .ite (.next _) (.next _)
  | pfcRx ch frame => exact show Answers (execPfcRx ch frame s) from .ite (.next _) (.next _)
  | pauseGenStart ch => exact show Answers (execPauseGenStart ch s) from .ite (.next _) (.next _)
  | pauseRefreshExpire ch acct => exact show Answers (execPauseRefreshExpire ch acct s) from .ite (.next _) (.next _)
  | pauseActiveExpire ch acct => exact show Answers (execPauseActiveExpire ch acct s) from .ite (.next _) (.next _)
  | pauseHoldEnd ch hold => exact show Answers (execPauseHoldEnd ch hold s) from .ite (.next _) (.next _)
  | pauseWdBreak ch => exact show Answers (execPauseWdBreak ch s) from .ite (.next _) (.next _)
  | holdoffEnd ch => exact show Answers (execHoldoffEnd ch s) from .ite (.next _) (.next _)
  | verifyRx ch => exact show Answers (execVerifyRx ch s) from .ite (.next _) (.next _)
  | respondRx ch => exact show Answers (execRespondRx ch s) from .ite (.next _) (.next _)
  | verifyTimeExpire ch => exact show Answers (execVerifyTimeExpire ch s) from .ite (.next _) (.next _)
  | mmFragmentRx ch start octets crossing => exact execMmFragmentRx_answers ..
  | fabricFragmentRx ch start octets crossing => exact execFabricFragmentRx_answers ..
  | fragTimeout ch level => exact show Answers (execFragTimeout ch level s) from .ite (.next _) (.next _)
  | sdRise lane => exact show Answers (execSdRise lane s) from .ite (.next _) (.next _)
  | sdFall lane => exact show Answers (execSdFall lane s) from .ite (.next _) (.next _)
  | laneClockLost clock => exact show Answers (execLaneClockLost clock s) from .ite (.next _) (.next _)
  | laneClockReturn clock => exact show Answers (execLaneClockReturn clock s) from .ite (.next _) (.next _)
  | syncAcquired lane => exact show Answers (execSyncAcquired lane s) from .ite (.ite (.next _) (.next _)) (.next _)
  | syncLost lane hiBer => exact execSyncLost_answers ..
  | anComplete lane page => exact show Answers (execAnComplete lane page s) from .ite (.ite (.next _) (.next _)) (.next _)
  | syncTimeoutExpire lane => exact show Answers (execSyncTimeoutExpire lane s) from .ite (.next _) (.next _)
  | upHoldExpire lane => exact show Answers (execUpHoldExpire lane s) from .ite (.next _) (.next _)
  | linkRestart agent lane => exact show Answers (execLinkRestart agent lane s) from State.accessUnit_answers ..
  | objectWrite agent path index sub data => exact show Answers (execObjectWrite agent path index sub data s) from State.access_answers ..
  | stagedWrite agent path index sub data => exact show Answers (execStagedWrite agent path index sub data s) from State.access_answers ..
  | commit agent path => exact show Answers (execCommit agent path s) from State.access_answers ..
  | commitCheckDone unit => exact execCommitCheckDone_answers ..
  | commitApply => exact show Answers (execCommitApply s) from gathered_answers fun _ => .ite (.next _) (.next _)
  | discard agent path => exact show Answers (execDiscard agent path s) from State.access_answers ..
  | leaseClaim agent path => exact show Answers (execLeaseClaim agent path s) from State.access_answers ..
  | leaseClaimDecide => exact show Answers (execLeaseClaimDecide s) from gathered_answers fun _ => .ite (.next _) (.next _)
  | leaseRenew agent path => exact show Answers (execLeaseRenew agent path s) from State.access_answers ..
  | leaseRelease agent path => exact show Answers (execLeaseRelease agent path s) from State.access_answers ..
  | leaseExpiry unit => exact execLeaseExpiry_answers ..
  | alarmAck agent path mask => exact show Answers (execAlarmAck agent path mask s) from State.access_answers ..
  | mailboxRead proc access => exact show Answers (execMailboxRead proc access s) from gathered_answers fun _ => .ite (.next _) (.next _)
  | mailboxWrite proc access => exact show Answers (execMailboxWrite proc access s) from gathered_answers fun _ => .ite (.next _) (.next _)
  | mailboxDone proc => exact show Answers (execMailboxDone proc s) from gathered_answers fun _ => .ite (.next _) (.next _)
  | dpTargetWrite agent value => exact show Answers (execDpTargetWrite agent value s) from State.accessUnit_answers ..
  | dpOffsetWrite agent value => exact show Answers (execDpOffsetWrite agent value s) from State.accessUnit_answers ..
  | dpLengthWrite agent value => exact show Answers (execDpLengthWrite agent value s) from State.accessUnit_answers ..
  | dpDataRead agent n => exact show Answers (execDpDataRead agent n s) from State.readUnit_answers ..
  | dpDataWrite agent octets => exact show Answers (execDpDataWrite agent octets s) from State.accessUnit_answers ..
  | dpApertureRead window width => exact execDpApertureRead_answers ..
  | dpApertureWrite window width word => exact execDpApertureWrite_answers ..
  | accessRead ch frame => exact show Answers (execAccessRead ch frame s) from gathered_answers fun _ => .ite (.next _) (.next _)
  | accessWrite ch frame => exact show Answers (execAccessWrite ch frame s) from gathered_answers fun _ => .ite (.next _) (.next _)
  | accessEpoch ch frame => exact show Answers (execAccessEpoch ch frame s) from gathered_answers fun _ => .ite (.next _) (.next _)
  | accessResponse => exact execAccessResponse_answers ..
  | accessRelayTimeout tag => exact execAccessRelayTimeout_answers ..
  | keyWrite agent slot key => exact show Answers (execKeyWrite agent slot key s) from State.accessUnit_answers ..
  | keyErase agent slot => exact show Answers (execKeyErase agent slot s) from State.accessUnit_answers ..
  | tableUpdateApply => exact execTableUpdateApply_answers ..
  | surveyStep finding => exact execSurveyStep_answers ..
  | surveyRepair => exact execSurveyRepair_answers ..
  | editionCommit agent => exact show Answers (execEditionCommit agent s) from State.accessUnit_answers ..
  | editionDiscard agent => exact show Answers (execEditionDiscard agent s) from State.accessUnit_answers ..
  | editionFlip => exact show Answers (execEditionFlip s) from .ite (.next _) (.next _)
  | editionDrained => exact show Answers (execEditionDrained s) from .ite (.next _) (.next _)
  | flowSweepVisit => exact show Answers (execFlowSweepVisit s) from .ite (.next _) (.next _)
  | policerWrite agent entry octets => exact show Answers (execPolicerWrite agent entry octets s) from State.accessEntry_answers ..
  | foldFlush agent => exact show Answers (execFoldFlush agent s) from State.accessUnit_answers ..
  | foldDataRx ch frame eccBad crossing => exact execFoldDataRx_answers ..
  | templateInstallRx ch frame => exact show Answers (execTemplateInstallRx ch frame s) from .ite (.next _) (.next _)
  | foldNakRx ch frame => exact execFoldNakRx_answers ..
  | templateInstallTx ch => exact execTemplateInstallTx_answers ..
  | foldNakTx ch => exact execFoldNakTx_answers ..
  | foldHoldExpire ch fseq => exact show Answers (execFoldHoldExpire ch fseq s) from .ite (.next _) (.next _)
  | queueWrite agent queue octets => exact show Answers (execQueueWrite agent queue octets s) from State.accessEntry_answers ..
  | gateTransition ep => exact show Answers (execGateTransition ep s) from .ite (.next _) (.next _)
  | gateCtReached ep => exact execGateCtReached_answers ..
  | tailDoorbell kind ring value width64 => exact execTailDoorbell_answers ..
  | scanKnock kind ring width64 => exact execScanKnock_answers ..
  | ringScanDone kind ring ready => exact show Answers (execRingScanDone kind ring ready s) from .ite (.next _) (.next _)
  | cqHeadDoorbell ring value width64 => exact execCqHeadDoorbell_answers ..
  | doorbellAbsent offset => exact show Answers (execDoorbellAbsent offset s) from .ite (.next _) (.next _)
  | descReadDone kind ring entry => exact execDescReadDone_answers ..
  | mpReadResponse tag data last err => exact execMpReadResponse_answers ..
  | mpWriteResponse tag err => exact execMpWriteResponse_answers ..
  | mpOperationTimeout write tag => exact execMpOperationTimeout_answers ..
  | bqBufferTake bq ecc => exact execBqBufferTake_answers ..
  | cqStallDetect cq => exact show Answers (execCqStallDetect cq s) from .ite (.next _) (.next _)
  | cqIrqTimer cq => exact show Answers (execCqIrqTimer cq s) from .ite (.next _) (.next _)
  | ringStart agent unit => exact show Answers (execRingStart agent unit s) from State.accessUnit_answers ..
  | ringStop agent unit => exact show Answers (execRingStop agent unit s) from State.accessUnit_answers ..
  | ringReset agent unit => exact show Answers (execRingReset agent unit s) from State.accessUnit_answers ..
  | ringConfigWrite agent unit index data =>
    exact show Answers (execRingConfigWrite agent unit index data s) from State.accessUnit_answers ..
  | alStateChange al value => exact show Answers (execAlStateChange al value s) from .ite (.next _) (.next _)
  | alHoldExpire al => exact show Answers (execAlHoldExpire al s) from .ite (.next _) (.next _)
  | alTxStall al => exact show Answers (execAlTxStall al s) from .ite (.next _) (.next _)
  | coexReqRise q => exact show Answers (execCoexReqRise q s) from .ite (.next _) (.next _)
  | coexGrant q late => exact show Answers (execCoexGrant q late s) from .ite (.next _) (.next _)
  | coexReqFall q => exact execCoexReqFall_answers ..
  | maxQuietExpire q => exact show Answers (execMaxQuietExpire q s) from .ite (.next _) (.next _)
  | streamWrite agent entry octets => exact show Answers (execStreamWrite agent entry octets s) from State.accessEntry_answers ..
  | scanJobStore agent job octets =>
    exact show Answers (execScanJobStore agent job octets s) from .ite (.next _) (State.accessEntry_answers ..)
  | scanJobGo agent job octets => exact show Answers (execScanJobGo agent job octets s) from .ite (State.accessEntry_answers ..) (.next _)
  | scanJobStart => exact execScanJobStart_answers ..
  | scanJobDone job outcome => exact show Answers (execScanJobDone job outcome s) from .ite (.next _) (.next _)
  | scanAbort agent job => exact show Answers (execScanAbort agent job s) from State.accessUnit_answers ..
  | timeNowRead agent => exact show Answers (execTimeNowRead agent s) from State.readUnit_answers ..
  | incrementWrite agent data => exact show Answers (execIncrementWrite agent data s) from State.accessUnit_answers ..
  | trefLost => exact show Answers (execTrefLost s) from .ite (.ite (.next _) (.next _)) (.next _)
  | trefRestored => exact show Answers (execTrefRestored s) from .ite (.next _) (.next _)
  | stepSet agent => exact show Answers (execStepSet agent s) from State.accessUnit_answers ..
  | adjust agent d => exact show Answers (execAdjust agent d s) from State.accessUnit_answers ..
  | timeStepApply => exact show Answers (execTimeStepApply s) from gathered_answers fun _ => .ite (.next _) (.next _)
  | ppsInEdge => exact show Answers (execPpsInEdge s) from .ite (.next _) (.next _)
  | ppsInMissing => exact show Answers (execPpsInMissing s) from .ite (.next _) (.next _)
  | ppsOutRise => exact show Answers (execPpsOutRise s) from .ite (.next _) (.next _)
  | ppsOutFall => exact show Answers (execPpsOutFall s) from .ite (.next _) (.next _)
  | helloTimer => exact show Answers (execHelloTimer s) from gathered_answers fun _ => .ite (.next _) (.next _)
  | helloRx ch frame => exact show Answers (execHelloRx ch frame s) from gathered_answers fun _ => .next _
  | deadTimerExpire lane => exact show Answers (execDeadTimerExpire lane s) from gathered_answers fun _ => .ite (.next _) (.next _)
  | lsaRx ch frame => exact show Answers (execLsaRx ch frame s) from gathered_answers fun _ => .next _
  | lsaRefresh => exact show Answers (execLsaRefresh s) from .ite (.next _) (.next _)
  | lsaAgeOut origin => exact show Answers (execLsaAgeOut origin s) from gathered_answers fun _ => .ite (.next _) (.next _)
  | routeCompute => exact show Answers (execRouteCompute s) from gathered_answers fun _ => .ite (.next _) (.next _)
  | assignRx ch frame => exact show Answers (execAssignRx ch frame s) from gathered_answers fun _ => .next _
  | assignRefresh => exact show Answers (execAssignRefresh s) from gathered_answers fun _ => .ite (.next _) (.next _)
  | duplicateRenumber serial => exact show Answers (execDuplicateRenumber serial s) from gathered_answers fun _ => .ite (.next _) (.next _)
  | relayReqRx ch frame => exact show Answers (execRelayReqRx ch frame s) from gathered_answers fun _ => .next _
  | relayRspRx ch frame => exact show Answers (execRelayRspRx ch frame s) from gathered_answers fun _ => .next _
  | eventDelivery proc => exact show Answers (execEventDelivery proc s) from gathered_answers fun _ => .ite (.next _) (.next _)
  | eqHeadReturn proc word width64 => exact show Answers (execEqHeadReturn proc word width64 s) from .ite (.next _) (.next _)
  | sourceComplete proc word width64 => exact show Answers (execSourceComplete proc word width64 s) from .ite (.next _) (.next _)
  | maskWrite proc word width64 => exact show Answers (execMaskWrite proc word width64 s) from .ite (.next _) (.next _)
  | thresholdWrite proc word width64 => exact show Answers (execThresholdWrite proc word width64 s) from .ite (.next _) (.next _)
  | sourceWrite agent source octets => exact show Answers (execSourceWrite agent source octets s) from State.accessEntry_answers ..
  | testRaise agent cause => exact show Answers (execTestRaise agent cause s) from State.accessUnit_answers ..
  | eqConfigWrite agent eq index data => exact show Answers (execEqConfigWrite agent eq index data s) from State.accessUnit_answers ..
  | wakeInput input =>
    exact show Answers (execWakeInput input s) from
      gathered_answers fun _ => .ite (.next _) (.ite (.next _) (.ite (.next _) (.ite (.next _) (.next _))))
  | fbFreeze agent => exact show Answers (execFbFreeze agent s) from State.accessUnit_answers ..
  | fbThaw agent => exact show Answers (execFbThaw agent s) from State.accessUnit_answers ..
  | freezeLimitExpire => exact show Answers (execFreezeLimitExpire s) from gathered_answers fun _ => .ite (.next _) (.next _)
  | pfailFall => exact show Answers (execPfailFall s) from gathered_answers fun _ => .ite (.next _) (.next _)
  | pfailRecover => exact show Answers (execPfailRecover s) from gathered_answers fun _ => .ite (.next _) (.next _)
  | nvmDiscovery found => exact show Answers (execNvmDiscovery found s) from gathered_answers fun _ => .ite (.next _) (.next _)
  | nvmOperationDone ok => exact execNvmOperationDone_answers ..
  | nvmTimeout => exact execNvmTimeout_answers ..
  | monumentMount => exact show Answers (execMonumentMount s) from gathered_answers fun _ => .ite (.next _) (.next _)
  | monumentProgram ok => exact show Answers (execMonumentProgram ok s) from gathered_answers fun _ => .ite (.next _) (.next _)
  | tokenAccrue => exact show Answers (execTokenAccrue s) from gathered_answers fun _ => .ite (.next _) (.next _)
  | budgetHourExpire => exact show Answers (execBudgetHourExpire s) from gathered_answers fun _ => .ite (.next _) (.next _)
  | monumentRestart agent => exact show Answers (execMonumentRestart agent s) from State.accessUnit_answers ..
  | monumentFormat agent sectors => exact show Answers (execMonumentFormat agent sectors s) from State.accessUnit_answers ..
  | atlasSet agent base limit => exact show Answers (execAtlasSet agent base limit s) from State.accessUnit_answers ..
  | atlasErase agent => exact show Answers (execAtlasErase agent s) from State.accessUnit_answers ..
  | atlasImageWrite agent octets =>
    exact show Answers (execAtlasImageWrite agent octets s) from .ite (State.accessUnit_answers ..) (State.accessEntry_answers ..)
  | atlasApply => exact show Answers (execAtlasApply s) from gathered_answers fun _ => .ite (.next _) (.ite (.next _) (.next _))
  | powerRequest agent target inFrame => exact show Answers (execPowerRequest agent target inFrame s) from .ite (.next _) (.next _)
  | modeApply => exact show Answers (execModeApply s) from gathered_answers fun _ => .ite (.next _) (.next _)
  | handshakeAnswer => exact show Answers (execHandshakeAnswer s) from gathered_answers fun _ => .ite (.next _) (.next _)
  | frameWaitExpire => exact show Answers (execFrameWaitExpire s) from gathered_answers fun _ => .ite (.next _) (.next _)
  | idleEnter => exact show Answers (execIdleEnter s) from .ite (.next _) (.next _)
  | idleExit => exact show Answers (execIdleExit s) from .ite (.next _) (.next _)
  | returnReady step => exact show Answers (execReturnReady step s) from gathered_answers fun _ => .ite (.next _) (.next _)
  | returnStepTimeout => exact show Answers (execReturnStepTimeout s) from gathered_answers fun _ => .ite (.next _) (.next _)
  | returnEnd => exact show Answers (execReturnEnd s) from gathered_answers fun _ => .ite (.next _) (.next _)
  | primroseFrame ch frame => exact show Answers (execPrimroseFrame ch frame s) from gathered_answers fun _ => .ite (.next _) (.next _)
  | snowdropOverride view => exact execSnowdropOverride_answers ..
  | statsClear agent unit => exact show Answers (execStatsClear agent unit s) from State.accessUnit_answers ..
  | statsClearApply => exact show Answers (execStatsClearApply s) from .ite (.next _) (.next _)
  | statsSnapshot agent unit slot => exact show Answers (execStatsSnapshot agent unit slot s) from State.accessUnit_answers ..
  | snapshotLatch => exact show Answers (execSnapshotLatch s) from .ite (.next _) (.next _)
  | snapshotDone slot => exact execSnapshotDone_answers ..
  | rxPeakRead agent ch sub => exact show Answers (execRxPeakRead agent ch sub s) from State.readUnit_answers ..
  | porstAssert => exact show Answers (execPorstAssert s) from gathered_answers fun _ => .next _
  | porstRelease serial => exact show Answers (execPorstRelease serial s) from gathered_answers fun _ => .ite (.next _) (.next _)
  | srstAssert => exact execSrstAssert_answers ..
  | srstRelease => exact show Answers (execSrstRelease s) from gathered_answers fun _ => .ite (.next _) (.next _)
  | sdClkLost => exact show Answers (execSdClkLost s) from .ite (.next _) (.next _)
  | sdClkRestored => exact show Answers (execSdClkRestored s) from .ite (.next _) (.ite (.next _) (.next _))
  | pllLockLoss => exact show Answers (execPllLockLoss s) from gathered_answers fun _ => .ite (.next _) (.next _)
  | ledActivityTimer lane => exact show Answers (execLedActivityTimer lane s) from .ite (.next _) (.next _)
  | pllLock => exact show Answers (execPllLock s) from gathered_answers fun _ => .ite (.next _) (.next _)
  | hiBerEnd lane => exact show Answers (execHiBerEnd lane s) from .ite (.next _) (.next _)

end Sys2Proof.Machine
open Sys2Proof Sys2Proof.Machine

/-- Settles O7: each command's meaning ends every one of its branches with a next state. -/
theorem everyCommandAnswersANextState : Obligations.EveryCommandAnswersANextState := exec_answers

end

section
/-! An access by an agent: where it runs, what it is told, and what stays of its events. -/
namespace Sys2Proof.Machine

/-! ### The state in which a command that gathers its events runs -/

theorem State.together_of_evHold {s : State} {f : State → State} (h : (f s.holding).evHold = s.holding.evHold) :
    s.together f = { f s.holding with evHold := s.evHold } := by
  cases e : s.evHold with
  | some l =>
    simp only [State.holding, State.together, e] at h ⊢
    simp only [← h]
  | none =>
    simp only [State.holding, State.together, e] at h ⊢
    simp [State.writeHeld, h]

/-- A command that neither records an event nor writes those held answers its meaning, exactly. -/
theorem gathered_of_evHold {s u : State} {f : State → Host.Outcome State Fault Refusal} (h : f s.holding = .next u)
    (hu : u.evHold = s.holding.evHold) : gathered s f = .next { u with evHold := s.evHold } := by
  cases e : s.evHold with
  | some l =>
    simp only [State.holding, gathered, e] at h hu ⊢
    rw [h, ← hu]
  | none =>
    simp only [State.holding, gathered, e] at h hu ⊢
    simp [h, State.writeHeld, hu]

/-! ### The wake that an access of the host brings (R362) -/

theorem State.wake_eq (s : State) : s.wake = { s with obj := s.wake.obj } := by
  unfold State.wake
  split <;> rfl

theorem State.rd_wake (s : State) {u i : Nat} (k : Nat) (h : ¬(u = 0x001 ∧ i = 0x5000)) : s.wake.rd u i k = s.rd u i k := by
  unfold State.wake
  split
  · exact State.rd_wr_ne s _ fun e => h ⟨e.1, e.2.1⟩
  · rfl

theorem State.awake_eq (s : State) (a : Agent) : s.awake a = { s with obj := (s.awake a).obj } := by
  unfold State.awake
  split
  · exact s.wake_eq
  · rfl

theorem State.rd_awake (s : State) (a : Agent) {u i : Nat} (k : Nat) (h : ¬(u = 0x001 ∧ i = 0x5000)) :
    (s.awake a).rd u i k = s.rd u i k := by
  unfold State.awake
  split
  · exact s.rd_wake k h
  · rfl

/-! ### What an access is told -/

/-- The state in which an access of agent `a` runs: woken, gathering its events, with no result yet. -/
def State.accessing (s : State) (a : Agent) : State := { (s.awake a).holding with result := ⟨a, none, []⟩ }

theorem State.accessing_eq (s : State) (a : Agent) :
    s.accessing a = { s.awake a with evHold := (s.awake a).holding.evHold, result := ⟨a, none, []⟩ } := by
  rw [State.accessing, State.holding_fields]

theorem State.accessing_eq_obj (s : State) (a : Agent) :
    s.accessing a = { s with obj := (s.awake a).obj, evHold := (s.awake a).holding.evHold, result := ⟨a, none, []⟩ } := by
  rw [State.accessing_eq, State.awake_eq]

theorem State.rd_accessing (s : State) (a : Agent) {u i : Nat} (k : Nat) (h : ¬(u = 0x001 ∧ i = 0x5000)) :
    (s.accessing a).rd u i k = s.rd u i k := by
  rw [State.accessing_eq]
  exact s.rd_awake a k h

/-- The state a reply leaves, the agent told. -/
def Reply.toldTo (r : Reply) (a : Agent) : State := match r.code with | some c => r.state.complete a c r.data | none => r.state

theorem Reply.toldTo_evHold (r : Reply) (a : Agent) : (r.toldTo a).evHold = r.state.evHold := by
  unfold Reply.toldTo
  split <;> rfl

/-- What an agent is told is what its access comes to, but for the events of it. -/
theorem State.told_butEvents (s : State) (a : Agent) (f : State → Reply) :
    ((f (s.accessing a)).toldTo a).ButEvents ((s.awake a).told a f) :=
  together_butEvents (f := fun t => (f { t with result := ⟨a, none, []⟩ }).toldTo a)

/-- An access that raises no event, exactly. -/
theorem State.told_of_evHold {s : State} {a : Agent} {f : State → Reply} (h : (f (s.accessing a)).state.evHold = (s.accessing a).evHold) :
    (s.awake a).told a f = { (f (s.accessing a)).toldTo a with evHold := s.evHold } := by
  have e : s.evHold = (s.awake a).evHold := by rw [State.awake_eq]
  rw [e]
  exact State.together_of_evHold (f := fun t => (f { t with result := ⟨a, none, []⟩ }).toldTo a) ((Reply.toldTo_evHold ..).trans h)

/-! ### What the checks of an access look at -/

/-- Two states in which the checks of Table 2.4 are the same: the build, the leases, the pending writes, the commits, the fabric's members, and
every object but those of the power unit and of the access unit. -/
structure State.SameChecks (s t : State) : Prop where
  build   : t.build = s.build
  leases  : t.leases = s.leases
  staged  : t.staged = s.staged
  commits : t.commits = s.commits
  assigns : t.assigns = s.assigns
  objs    : ∀ u i k, u ≠ 0x001 → u ≠ 0x012 → t.rd u i k = s.rd u i k

theorem State.SameChecks.refl (s : State) : s.SameChecks s := ⟨rfl, rfl, rfl, rfl, rfl, fun _ _ _ _ _ => rfl⟩

theorem State.awake_sameChecks (s : State) (a : Agent) : s.SameChecks (s.awake a) := by
  constructor
  case objs => exact fun u i k h _ => s.rd_awake a k fun e => h e.1
  all_goals rw [State.awake_eq]

theorem State.accessing_sameChecks (s : State) (a : Agent) : s.SameChecks (s.accessing a) := by
  constructor
  case objs => exact fun u i k h _ => s.rd_accessing a k fun e => h e.1
  all_goals rw [State.accessing_eq_obj]

namespace State.SameChecks
variable {s t : State} (h : s.SameChecks t)
include h

theorem members : t.members = s.members := by
  unfold State.members
  rw [h.objs _ _ _ (by decide) (by decide), h.objs _ _ _ (by decide) (by decide), h.assigns]

theorem ownId : t.ownId = s.ownId := h.objs _ _ _ (by decide) (by decide)
theorem role : t.role = s.role := h.objs _ _ _ (by decide) (by decide)
theorem serial : t.serial = s.serial := h.objs _ _ _ (by decide) (by decide)

theorem walk (u : Nat) (first : Bool) (l : List Nat) : t.walk u first l = s.walk u first l := by
  induction l generalizing u first with
  | nil => rfl
  | cons e l ih => simp only [State.walk, h.members, h.ownId, h.build, ih]

theorem resolvePath (path : List Nat) : t.resolvePath path = s.resolvePath path := by
  unfold State.resolvePath
  rw [h.walk]

theorem lookup (a : Agent) (u i k : Nat) : t.lookup a u i k = s.lookup a u i k := by
  unfold State.lookup
  rw [h.build]

theorem lookupOwn (a : Agent) (u i k : Nat) : t.lookupOwn a u i k = s.lookupOwn a u i k := by
  unfold State.lookupOwn
  rw [h.lookup]

theorem leaseOn (u : Nat) : t.leaseOn u = s.leaseOn u := by
  unfold State.leaseOn
  rw [h.leases]

theorem effective (u : Nat) : t.effective u = s.effective u := by
  unfold State.effective
  rw [show t.leaseOn = s.leaseOn from funext h.leaseOn]

theorem holdsLease (a : Agent) (u : Nat) : t.holdsLease a u = s.holdsLease a u := by
  unfold State.holdsLease
  rw [h.effective]

theorem leasesBelow (a : Agent) (u : Nat) : t.leasesBelow a u = s.leasesBelow a u := by
  unfold State.leasesBelow
  rw [h.leases]

theorem leaseAllows (a : Agent) (u : Nat) : t.leaseAllows a u = s.leaseAllows a u := by
  unfold State.leaseAllows
  rw [h.holdsLease, h.effective, h.leasesBelow]

theorem conflicts (a : Agent) (u : Nat) : t.conflicts a u = s.conflicts a u := by
  unfold State.conflicts
  rw [h.effective, h.leasesBelow]

theorem leaseGood (a : Agent) (kd : UnitKind) (u i : Nat) : t.leaseGood a kd u i = s.leaseGood a kd u i := by
  unfold State.leaseGood
  rw [h.holdsLease, h.leaseAllows]

theorem leaseData (u : Nat) : t.leaseData u = s.leaseData u := by
  unfold State.leaseData State.leaseHolder State.leaseRemaining
  rw [h.effective]

theorem leaseTicks : t.leaseTicks = s.leaseTicks := by
  unfold State.leaseTicks
  rw [h.objs _ _ _ (by decide) (by decide)]

theorem preferred (a : Agent) : t.preferred a = s.preferred a := by
  unfold State.preferred
  rw [h.objs _ _ _ (by decide) (by decide)]

theorem renew_leases (u : Nat) : (t.renew u).leases = (s.renew u).leases := by
  unfold State.renew
  rw [h.effective]
  split
  · simp only [h.leases, h.leaseTicks]
  · exact h.leases

theorem atlasBusy : t.atlasBusy = s.atlasBusy := by
  unfold State.atlasBusy
  rw [h.objs _ _ _ (by decide) (by decide)]

theorem stageBusy (u : Nat) : t.stageBusy u = s.stageBusy u := by
  unfold State.stageBusy
  rw [h.commits]

theorem pendingOf (u : Nat) : t.pendingOf u = s.pendingOf u := by
  unfold State.pendingOf
  rw [h.staged]

theorem remoteMembers : t.remoteMembers = s.remoteMembers := by
  unfold State.remoteMembers
  rw [h.members, h.ownId]

end State.SameChecks

/-! ### The checks that an access passes (Table 2.4) -/

/-- A write of agent `a` to an object of unit `u` passes the checks that come before its effect: its row, its kind of unit, and the rest. -/
structure State.Admits (s : State) (a : Agent) (u i k : Nat) (d : List Octet) (r : ObjRow) (kd : UnitKind) : Prop where
  row    : s.lookup a u i k = .ok r
  kind   : unitKind? s.build u = some kd
  notRo  : r.access ≠ .ro
  scalar : r.type ≠ .table
  lease  : s.leaseGood a kd u i = true
  length : d.length = r.type.writeSize
  value  : valueGood s.build r (ofMsb d) = true
  atlas  : s.atlasBusy = false

theorem State.SameChecks.admits {s t : State} (h : s.SameChecks t) {a : Agent} {u i k : Nat} {d : List Octet} {r : ObjRow} {kd : UnitKind}
    (x : s.Admits a u i k d r kd) : t.Admits a u i k d r kd :=
  ⟨(h.lookup ..).trans x.row, h.build ▸ x.kind, x.notRo, x.scalar, (h.leaseGood ..).trans x.lease, x.length, h.build ▸ x.value,
    h.atlasBusy.trans x.atlas⟩

theorem State.grants_iff {s : State} {a : Agent} {path : List Nat} {u i k : Nat} {d : List Octet} :
    s.grants a path u i k d = true
      ↔ s.mainUp = true ∧ s.resolvePath path = .here u ∧ ∃ r kd, s.Admits a u i k d r kd := by
  unfold State.grants
  simp only [Bool.and_eq_true, Bool.not_eq_true', decide_eq_true_eq]
  constructor
  · rintro ⟨⟨⟨up, atlas⟩, path⟩, rest⟩
    split at rest
    next r kd row kind =>
      simp only [Bool.and_eq_true, decide_eq_true_eq] at rest
      obtain ⟨⟨⟨⟨notRo, scalar⟩, lease⟩, length⟩, value⟩ := rest
      exact ⟨up, path, r, kd, ⟨row, kind, notRo, scalar, lease, length, value, atlas⟩⟩
    next => cases rest
  · rintro ⟨up, path, r, kd, x⟩
    simp only [x.row, x.kind]
    simp [up, path, x.atlas, x.notRo, x.scalar, x.lease, x.length, x.value]

/-- A row and a kind are those of a unit: there is one of each. -/
theorem State.Admits.row_eq {s : State} {a : Agent} {u i k : Nat} {d : List Octet} {r q : ObjRow} {kd : UnitKind} (x : s.Admits a u i k d r kd)
    (h : s.lookup a u i k = .ok q) : r = q := by
  simpa [x.row] using h

theorem State.Admits.kind_eq {s : State} {a : Agent} {u i k : Nat} {d : List Octet} {r : ObjRow} {kd kd' : UnitKind}
    (x : s.Admits a u i k d r kd) (h : unitKind? s.build u = some kd') : kd = kd' := by
  simpa [x.kind] using h

/-! ### How an access reaches its object -/

theorem State.access_here {s : State} {a : Agent} {path : List Nat} {u : Nat} (up : s.mainUp = true) (here : s.resolvePath path = .here u)
    (i k : Nat) (d : List Octet) :
    s.access a path i k d = .next ((s.awake a).told a (fun t => t.writePath a false path i k d)) := by
  have hp : (s.awake a).resolvePath path = .here u := ((s.awake_sameChecks a).resolvePath path).trans here
  unfold State.awake at hp ⊢
  unfold State.access
  simp only [up, hp]
  rfl

theorem State.writePath_here {s : State} {path : List Nat} {u : Nat} (here : s.resolvePath path = .here u) (a : Agent) (f : Bool) (i k : Nat)
    (d : List Octet) : s.writePath a f path i k d = s.writeHere a f false u i k d := by
  unfold State.writePath
  rw [here]

theorem State.readPath_here {s : State} {path : List Nat} {u : Nat} (here : s.resolvePath path = .here u) (a : Agent) (i k : Nat)
    (n : Option Nat) : s.readPath a path i k n = s.readHere a u i k n := by
  unfold State.readPath
  rw [here]

/-- A write of an object of this device answers what its reply comes to, but for the events of it. -/
theorem State.access_butEvents {s : State} {a : Agent} {path : List Nat} {u : Nat} (up : s.mainUp = true) (here : s.resolvePath path = .here u)
    (i k : Nat) (d : List Octet) :
    ∃ t, s.access a path i k d = .next t ∧ (((s.accessing a).writeHere a false false u i k d).toldTo a).ButEvents t := by
  refine ⟨_, s.access_here up here i k d, ?_⟩
  have hp := ((s.accessing_sameChecks a).resolvePath path).trans here
  rw [← State.writePath_here hp]
  exact s.told_butEvents a (fun t => t.writePath a false path i k d)

/-- A write that raises no event, exactly. -/
theorem State.access_eq {s : State} {a : Agent} {path : List Nat} {u i k : Nat} {d : List Octet} (up : s.mainUp = true)
    (here : s.resolvePath path = .here u)
    (h : ((s.accessing a).writeHere a false false u i k d).state.evHold = (s.accessing a).evHold) :
    s.access a path i k d = .next { ((s.accessing a).writeHere a false false u i k d).toldTo a with evHold := s.evHold } := by
  have hp := ((s.accessing_sameChecks a).resolvePath path).trans here
  rw [← State.writePath_here hp] at h ⊢
  rw [s.access_here up here, State.told_of_evHold h]

/-- A read of an object of a unit of this device that raises no event, exactly. -/
theorem State.readUnit_eq {s : State} {a : Agent} {u i k : Nat} {n : Option Nat} (up : s.mainUp = true) (here : s.resolvePath (pathTo u) = .here u)
    (h : ((s.accessing a).readHere a u i k n).state.evHold = (s.accessing a).evHold) :
    s.readUnit a u i k n = .next { ((s.accessing a).readHere a u i k n).toldTo a with evHold := s.evHold } := by
  have hp := ((s.accessing_sameChecks a).resolvePath _).trans here
  rw [← State.readPath_here hp] at h ⊢
  rw [← State.told_of_evHold (f := fun t => t.readPath a (pathTo u) i k n) h]
  unfold State.readUnit State.awake
  rw [up]
  rfl

theorem State.readUnit_butEvents {s : State} {a : Agent} {u : Nat} (up : s.mainUp = true) (here : s.resolvePath (pathTo u) = .here u)
    (i k : Nat) (n : Option Nat) :
    ∃ t, s.readUnit a u i k n = .next t ∧ (((s.accessing a).readHere a u i k n).toldTo a).ButEvents t := by
  have hp := ((s.accessing_sameChecks a).resolvePath _).trans here
  rw [← State.readPath_here hp]
  refine ⟨_, ?_, s.told_butEvents a (fun t => t.readPath a (pathTo u) i k n)⟩
  unfold State.readUnit State.awake
  rw [up]
  rfl

/-- The path of a unit that is a child of root names it. -/
theorem State.resolvePath_pathTo_child (s : State) {u : Nat} (hu : u ≠ 0) (root : parentOf u = 0) (child : u ∈ childrenOf s.build 0) :
    s.resolvePath (pathTo u) = .here u := by
  simp [State.resolvePath, pathTo, root, State.walk, hu, child]

/-! ### What a write or command of an object comes to (Table 2.4) -/

/-- The effect of an access is no refusal. -/
def Effect.passes : Effect → Bool
  | .refused _ _ => false
  | _ => true

/-- The state in which the effect of a write or command that is allowed takes place: the write has counted for the lease, unless its object is
exempt (R58, R61). -/
def State.counted (s : State) (a : Agent) (kd : UnitKind) (u i : Nat) : State := if exempt kd i then s else s.wrote a u

/-- What comes behind the checks that an access passes: its effect `e`, unless its unit refuses it. -/
def State.afterChecks (s : State) (a : Agent) (f : Bool) (u i k : Nat) (d : List Octet) (r : ObjRow) (kd : UnitKind) (e : Effect) : Reply :=
  if kd = .dataport ∧ (e.refuses .noUnit ∨ e.refuses .noObject ∨ e.refuses .noSubindex ∨ e.refuses .notAuthorised) then e.reply r u i
  else if e.refuses .modeForbids then s.refuse u .modeForbids
  else if e.refuses .align then s.refuse u .align
  else
    match e with
    | .refused c t => (t.refusedCode u i c).refuse u c
    | _ =>
      if i = 0x0030 then (e.after (fun t => t.wrote a u)).reply r u i
      else ((s.counted a kd u i).effectOf a f kd r u i k (ofMsb d)).reply r u i

theorem State.Admits.writeHere_eq {s : State} {a : Agent} {u i k : Nat} {d : List Octet} {r : ObjRow} {kd : UnitKind}
    (x : s.Admits a u i k d r kd) (noData : ¬(kd = .dataport ∧ i = 0x4004)) (f : Bool) :
    s.writeHere a f false u i k d = s.afterChecks a f u i k d r kd (s.effectOf a f kd r u i k (ofMsb d)) := by
  unfold State.writeHere State.afterChecks State.counted
  simp only [x.row, x.kind, if_neg x.notRo, if_neg x.scalar, if_neg noData, x.lease, x.length, x.value, x.atlas,
    Bool.not_true, Bool.not_false, Bool.and_false, Bool.false_or, Bool.false_eq_true, ne_eq, not_true, if_false] <;> rfl

/-- An access that passes every check has its effect, and counts for the lease. -/
theorem State.Admits.writeHere_passes {s : State} {a : Agent} {f : Bool} {u i k : Nat} {d : List Octet} {r : ObjRow} {kd : UnitKind}
    (x : s.Admits a u i k d r kd) (noData : ¬(kd = .dataport ∧ i = 0x4004)) (noCommit : i ≠ 0x0030)
    (passes : (s.effectOf a f kd r u i k (ofMsb d)).passes = true) :
    s.writeHere a f false u i k d = ((s.counted a kd u i).effectOf a f kd r u i k (ofMsb d)).reply r u i := by
  rw [x.writeHere_eq noData]
  unfold State.afterChecks
  cases e : s.effectOf a f kd r u i k (ofMsb d) with
  | refused => simp [e, Effect.passes] at passes
  | _ => simp [Effect.refuses, noCommit]

/-- A COMMIT covers its writes before the lease that it claims merges others of its agent (R60). -/
theorem State.Admits.writeHere_commit {s : State} {a : Agent} {f : Bool} {u k : Nat} {d : List Octet} {r : ObjRow} {kd : UnitKind}
    (x : s.Admits a u 0x0030 k d r kd) (passes : (s.effectOf a f kd r u 0x0030 k (ofMsb d)).passes = true) :
    s.writeHere a f false u 0x0030 k d
      = ((s.effectOf a f kd r u 0x0030 k (ofMsb d)).after (fun t => t.wrote a u)).reply r u 0x0030 := by
  rw [x.writeHere_eq (fun h => absurd h.2 (by decide))]
  unfold State.afterChecks
  cases e : s.effectOf a f kd r u 0x0030 k (ofMsb d) with
  | refused => simp [e, Effect.passes] at passes
  | _ => simp [Effect.refuses]

/-- An access that its unit refuses, changing nothing, only latches ACCESS_REFUSED. -/
theorem State.Admits.writeHere_refused {s : State} {a : Agent} {f : Bool} {u i k : Nat} {d : List Octet} {r : ObjRow} {kd : UnitKind} {c : Abort}
    (x : s.Admits a u i k d r kd) (noData : ¬(kd = .dataport ∧ i = 0x4004)) (code : c ≠ .editionBusy)
    (refused : s.effectOf a f kd r u i k (ofMsb d) = .refused c s) :
    s.writeHere a f false u i k d = s.refuse u c := by
  rw [x.writeHere_eq noData, refused]
  simp only [State.afterChecks, Effect.refuses, Effect.reply, State.refusedCode, if_neg code]
  by_cases forbids : c = .modeForbids
  · simp [forbids]
  · by_cases align : c = .align
    · simp [align]
    · simp [forbids, align]

end Sys2Proof.Machine
end

section
/-! The lease and an access that counts for it (R58 to R60): what it changes, and what it leaves. -/
namespace Sys2Proof.Machine

/-! ### What counting for the lease leaves as it is -/

/-- A commit without the writes whose lease has merged or ended. -/
def CommitOp.bare (c : CommitOp) : CommitOp := { c with orphans := [] }

/-- `t` is `s` but for leases, pending writes that are gone, writes of commits noted anew, LEASE_CHANGED latched, and events. -/
structure State.ButLeases (s t : State) : Prop where
  fields : t = { s with
    obj := t.obj, tab := t.tab, hid := t.hid, timers := t.timers, leases := t.leases, staged := t.staged, commits := t.commits
    latches := t.latches, lastFixed := t.lastFixed, lastSd := t.lastSd, lastVar := t.lastVar, evHold := t.evHold, monQ := t.monQ
    free := t.free }
  objs    : ∀ u i k, eventObj u i = false → ¬(u = 0x001 ∧ i = 0x5000) → i ≠ 0x0005 → t.rd u i k = s.rd u i k
  ents    : ∀ u i e, u ≠ 0x002 → u ≠ 0x004 → t.ent u i e = s.ent u i e
  regs    : ∀ h, h.ofEvents = false → t.reg h = s.reg h
  timer   : ∀ x, x ≠ .budgetHour → t.timer x = s.timer x
  staged  : t.staged.Sublist s.staged
  commits : t.commits.map CommitOp.bare = s.commits.map CommitOp.bare

namespace State.ButLeases
variable {r s t : State}

theorem refl (s : State) : s.ButLeases s :=
  ⟨rfl, fun _ _ _ _ _ _ => rfl, fun _ _ _ _ _ => rfl, fun _ _ => rfl, fun _ _ => rfl, .refl _, rfl⟩

theorem trans (h : r.ButLeases s) (k : s.ButLeases t) : r.ButLeases t where
  fields := by
    have e := k.fields
    rw [h.fields] at e
    exact e
  objs u i j a b c := (k.objs u i j a b c).trans (h.objs u i j a b c)
  ents u i e a b := (k.ents u i e a b).trans (h.ents u i e a b)
  regs x a := (k.regs x a).trans (h.regs x a)
  timer x a := (k.timer x a).trans (h.timer x a)
  staged := k.staged.trans h.staged
  commits := k.commits.trans h.commits

theorem events (h : s.ButEvents t) : s.ButLeases t where
  fields := by
    have e := h.fields
    rw [e]
  objs u i k a b _ := h.objs u i k a b
  ents := h.ents
  regs := h.regs
  timer := h.timer
  staged := by
    rw [h.fields]
  commits := by rw [h.fields]

theorem foldl {α : Type} {f : State → α → State} (hf : ∀ (u : State) x, u.ButLeases (f u x)) (l : List α) (s : State) :
    s.ButLeases (l.foldl f s) := by
  induction l generalizing s with
  | nil => exact refl s
  | cons x l ih => exact (hf s x).trans (ih _)

theorem latch (s : State) (u b : Nat) : s.ButLeases (s.latch u b) where
  fields := rfl
  objs _ _ _ _ _ h := State.rd_wr_ne s _ fun e => h e.2.1
  ents _ _ _ _ _ := rfl
  regs _ _ := rfl
  timer _ _ := rfl
  staged := .refl _
  commits := rfl

/-- A change of the leases alone. -/
theorem leases (s : State) (l : List Lease) : s.ButLeases { s with leases := l } :=
  ⟨rfl, fun _ _ _ _ _ _ => rfl, fun _ _ _ _ _ => rfl, fun _ _ => rfl, fun _ _ => rfl, .refl _, rfl⟩

theorem dropPending (s : State) (a : Agent) (u : Nat) : s.ButLeases (s.dropPending a u) where
  fields := rfl
  objs _ _ _ _ _ _ := rfl
  ents _ _ _ _ _ := rfl
  regs _ _ := rfl
  timer _ _ := rfl
  staged := List.filter_sublist
  commits := by simp [State.dropPending, CommitOp.bare]

theorem endLease (s : State) (l : Lease) (new cause : Nat) : s.ButLeases (s.endLease l new cause) :=
  (leases s _).trans ((dropPending _ _ _).trans ((foldl (fun u _ => latch u _ _) _ _).trans (events (.record _ _ _ _ _))))

theorem renew (s : State) (u : Nat) : s.ButLeases (s.renew u) := by
  unfold State.renew
  split
  · exact leases s _
  · exact refl s

theorem takeLease (s : State) (a : Agent) (u : Nat) : s.ButLeases (s.takeLease a u) :=
  (foldl (fun u _ => endLease u _ _ _) _ s).trans (leases _ _)

theorem wrote (s : State) (a : Agent) (u : Nat) : s.ButLeases (s.wrote a u) := by
  unfold State.wrote
  split
  · exact renew s u
  · exact (takeLease s a u).trans (events (.record _ _ _ _ _))

theorem counted (s : State) (a : Agent) (kd : UnitKind) (u i : Nat) : s.ButLeases (s.counted a kd u i) := by
  unfold State.counted
  split
  · exact refl s
  · exact wrote s a u

end State.ButLeases

/-! ### Which leases and pending writes there are when a lease has ended -/

theorem State.leaseChanged_eq (s : State) (u : Nat) : s.leaseChanged u = { s with obj := (s.leaseChanged u).obj } := by
  unfold State.leaseChanged
  generalize subtree s.build u = l
  induction l generalizing s with
  | nil => rfl
  | cons x l ih => exact ih (s.latch x 2)

theorem State.ButEvents.leases {s t : State} (h : s.ButEvents t) : t.leases = s.leases := by rw [h.fields]
theorem State.ButEvents.staged {s t : State} (h : s.ButEvents t) : t.staged = s.staged := by rw [h.fields]
theorem State.ButEvents.commits {s t : State} (h : s.ButEvents t) : t.commits = s.commits := by rw [h.fields]
theorem State.ButEvents.result {s t : State} (h : s.ButEvents t) : t.result = s.result := by rw [h.fields]
theorem State.ButEvents.frames {s t : State} (h : s.ButEvents t) : t.frames = s.frames := by rw [h.fields]
theorem State.ButEvents.copies {s t : State} (h : s.ButEvents t) : t.copies = s.copies := by rw [h.fields]

theorem State.leaseRecord_butEvents (s : State) (u old new cause : Nat) : s.ButEvents (s.leaseRecord u old new cause) := .record ..

@[simp] theorem State.endLease_leases (s : State) (l : Lease) (new cause : Nat) :
    (s.endLease l new cause).leases = s.leases.filter (fun x => x.unit ≠ l.unit) := by
  unfold State.endLease
  rw [(State.leaseRecord_butEvents ..).leases, State.leaseChanged_eq]
  rfl

@[simp] theorem State.endLease_staged (s : State) (l : Lease) (new cause : Nat) :
    (s.endLease l new cause).staged = (s.dropPending l.holder l.unit).staged := by
  unfold State.endLease
  rw [(State.leaseRecord_butEvents ..).staged, State.leaseChanged_eq]
  rfl

@[simp] theorem State.endLease_commits (s : State) (l : Lease) (new cause : Nat) :
    (s.endLease l new cause).commits = (s.dropPending l.holder l.unit).commits := by
  unfold State.endLease
  rw [(State.leaseRecord_butEvents ..).commits, State.leaseChanged_eq]
  rfl

theorem State.ButLeases.leaseTicks {s t : State} (h : s.ButLeases t) : t.leaseTicks = s.leaseTicks := by
  unfold State.leaseTicks
  rw [h.objs _ _ _ (by decide) (by decide) (by decide)]

/-- Two states of the same leases and pending writes. -/
structure State.SameLeases (s t : State) : Prop where
  leases  : t.leases = s.leases
  staged  : t.staged = s.staged
  commits : t.commits = s.commits
  ticks   : t.leaseTicks = s.leaseTicks

theorem State.SameChecks.sameLeases {s t : State} (h : s.SameChecks t) : s.SameLeases t := ⟨h.leases, h.staged, h.commits, h.leaseTicks⟩

theorem State.ButEvents.sameLeases {s t : State} (h : s.ButEvents t) : s.SameLeases t :=
  ⟨h.leases, h.staged, h.commits, (State.ButLeases.events h).leaseTicks⟩

namespace State.SameLeases
variable {s t : State}

theorem trans {r : State} (h : r.SameLeases s) (k : s.SameLeases t) : r.SameLeases t :=
  ⟨k.leases.trans h.leases, k.staged.trans h.staged, k.commits.trans h.commits, k.ticks.trans h.ticks⟩

theorem symm (h : s.SameLeases t) : t.SameLeases s := ⟨h.leases.symm, h.staged.symm, h.commits.symm, h.ticks.symm⟩

/-- The same operation on the leases of both. -/
theorem endLease (h : s.SameLeases t) (l : Lease) (new cause new' cause' : Nat) :
    (s.endLease l new cause).SameLeases (t.endLease l new' cause') where
  leases := by rw [State.endLease_leases, State.endLease_leases, h.leases]
  staged := by simp only [State.endLease_staged, State.dropPending, State.inCommit, h.staged, h.commits]
  commits := by simp only [State.endLease_commits, State.dropPending, h.commits]
  ticks := by rw [(State.ButLeases.endLease ..).leaseTicks, (State.ButLeases.endLease ..).leaseTicks, h.ticks]

theorem mergeLeases (l : List Lease) (h : s.SameLeases t) : (l.foldl State.mergeLease s).SameLeases (l.foldl State.mergeLease t) := by
  induction l generalizing s t with
  | nil => exact h
  | cons x l ih => exact ih (h.endLease x _ _ _ _)

theorem append (h : s.SameLeases t) (l : Lease) : State.SameLeases { s with leases := s.leases ++ [l] } { t with leases := t.leases ++ [l] } :=
  ⟨congrArg (· ++ [l]) h.leases, h.staged, h.commits, h.ticks⟩

theorem takeLease (h : s.SameLeases t) (a : Agent) (u : Nat) : (s.takeLease a u).SameLeases (t.takeLease a u) := by
  unfold State.takeLease
  rw [h.leases]
  have k := h.mergeLeases (s.leases.filter fun l => covers u l.unit && sameAgent l.holder a)
  extract_lets s1 t1
  rw [show t1.leaseTicks = s1.leaseTicks from k.ticks]
  exact k.append _

theorem effective (h : s.SameLeases t) (u : Nat) : t.effective u = s.effective u := by
  unfold State.effective State.leaseOn
  rw [h.leases]

theorem holdsLease (h : s.SameLeases t) (a : Agent) (u : Nat) : t.holdsLease a u = s.holdsLease a u := by
  unfold State.holdsLease
  rw [h.effective]

theorem renew (h : s.SameLeases t) (u : Nat) : (s.renew u).SameLeases (t.renew u) := by
  unfold State.renew
  rw [h.effective]
  split
  · exact ⟨by simp only [h.leases, h.ticks], h.staged, h.commits, h.ticks⟩
  · exact h

theorem wrote (h : s.SameLeases t) (a : Agent) (u : Nat) : (s.wrote a u).SameLeases (t.wrote a u) := by
  unfold State.wrote
  rw [h.holdsLease]
  split
  · exact h.renew u
  · exact ((State.leaseRecord_butEvents ..).sameLeases.symm.trans (h.takeLease a u)).trans (State.leaseRecord_butEvents ..).sameLeases

end State.SameLeases

end Sys2Proof.Machine
end

section
/-! Which rows of the dictionary take which accesses, and accesses that are refused or only read (O45). -/
namespace Sys2Proof.Machine

/-! ### Rows of the dictionary (R47, R405) -/

/-- Where the dictionary has its tables, its scalar RWS rows, its RW rows and its WO rows. -/
def ObjRow.placed (r : ObjRow) : Bool :=
  if r.type = .table then r.idxHi < 0x0100 || 0x6000 ≤ r.idxLo
  else
    match r.access with
    | .rws => 0x1000 ≤ r.idxLo && r.idxHi < 0x2000
    | .rw => 0x4000 ≤ r.idxLo && r.idxHi < 0x5000
    | .wo => 0x9000 ≤ r.idxLo
    | _ => true

theorem unitRows_placed (b : Build) (kd : UnitKind) : ∀ r ∈ unitRows b kd, r.placed = true := by
  have all (kd : UnitKind) : (headerRows ++ rowsOf kd).all ObjRow.placed = true := by cases kd <;> decide
  intro r hr
  refine List.all_eq_true.mp (all kd) r ?_
  unfold unitRows at hr
  dsimp only at hr
  split at hr
  · rw [List.mem_append, List.mem_filter] at hr
    exact List.mem_append.mpr (hr.imp id And.left)
  · exact hr

theorem State.row_of_lookup {s : State} {a : Agent} {u i k : Nat} {r : ObjRow} (h : s.lookup a u i k = .ok r) :
    ∃ kd, unitKind? s.build u = some kd ∧ rowAt s.build kd i k = some r := by
  unfold State.lookup at h
  split at h
  · cases h
  next kd hk =>
    split at h
    · cases h
    · split at h
      · cases h
      next q hq =>
        split at h
        · cases h
        · cases h
          exact ⟨kd, hk, hq⟩

theorem State.mem_unitRows_of_lookup {s : State} {a : Agent} {u i k : Nat} {r : ObjRow} (h : s.lookup a u i k = .ok r) :
    r.placed = true ∧ r.idxLo ≤ i ∧ i ≤ r.idxHi := by
  obtain ⟨kd, -, hr⟩ := State.row_of_lookup h
  have found := List.find?_some hr
  simp only [Bool.and_eq_true, decide_eq_true_eq] at found
  exact ⟨unitRows_placed _ _ _ (List.mem_of_find?_eq_some hr), found.1.1.1, found.1.1.2⟩

/-- A staged object's index is one of 0x1000 to 0x1FFF. -/
theorem State.idx_of_rws {s : State} {a : Agent} {u i k : Nat} {r : ObjRow} (h : s.lookup a u i k = .ok r) (rws : r.access = .rws)
    (scalar : r.type ≠ .table) : 0x1000 ≤ i ∧ i < 0x2000 := by
  obtain ⟨placed, lo, hi⟩ := State.mem_unitRows_of_lookup h
  simp only [ObjRow.placed, rws, if_neg scalar, Bool.and_eq_true, decide_eq_true_eq] at placed
  omega

theorem State.idx_of_rw {s : State} {a : Agent} {u i k : Nat} {r : ObjRow} (h : s.lookup a u i k = .ok r) (rw : r.access = .rw)
    (scalar : r.type ≠ .table) : 0x4000 ≤ i ∧ i < 0x5000 := by
  obtain ⟨placed, lo, hi⟩ := State.mem_unitRows_of_lookup h
  simp only [ObjRow.placed, rw, if_neg scalar, Bool.and_eq_true, decide_eq_true_eq] at placed
  omega

/-- An object between the header and the tables can be read, and is no table. -/
theorem State.readable_of_idx {s : State} {a : Agent} {u i k : Nat} {r : ObjRow} (h : s.lookup a u i k = .ok r) (lo : 0x0100 ≤ i)
    (hi : i < 0x6000) : r.access ≠ .wo ∧ r.type ≠ .table := by
  obtain ⟨placed, le, ge⟩ := State.mem_unitRows_of_lookup h
  have scalar : r.type ≠ .table := by
    intro table
    simp only [ObjRow.placed, if_pos table, Bool.or_eq_true, decide_eq_true_eq] at placed
    omega
  refine ⟨fun wo => ?_, scalar⟩
  simp only [ObjRow.placed, if_neg scalar, wo, decide_eq_true_eq] at placed
  omega

/-- A staged object is not exempt from the lease (R61). -/
theorem not_exempt_of_staged {i : Nat} (kd : UnitKind) (h : 0x1000 ≤ i ∧ i < 0x2000) : exempt kd i = false := by
  have : i ≠ 0x0006 ∧ i ≠ 0x0012 ∧ i ≠ 0x0013 ∧ i ≠ 0x0014 ∧ ¬0x4000 ≤ i ∧ i ≠ 0x4000 ∧ i ≠ 0x7001 := by omega
  simp [exempt, this]

/-! ### Refusals -/

theorem State.refuse_state_evHold (s : State) (u : Nat) (c : Abort) : (s.refuse u c).state.evHold = s.evHold := by
  unfold State.refuse State.refusedAt
  by_cases h : c = .ok <;> simp [h]

/-- A refusal that latches, told to its sender, in the state that the access came in. -/
theorem State.refuse_toldTo {s : State} (a : Agent) (u : Nat) {c : Abort} (code : c ≠ .ok) :
    { ((s.accessing a).refuse u c).toldTo a with evHold := s.evHold }
      = { (s.awake a).latch u 3 with result := ⟨a, some c, if c = .leaseHeld then s.leaseData u else []⟩ } := by
  simp only [State.refuse, Reply.toldTo, State.refusedAt, if_neg code, (s.accessing_sameChecks a).leaseData]
  rw [State.accessing_eq, State.awake_eq]
  rfl

/-- A write of this device that is refused, whatever its check, changes nothing but ACCESS_REFUSED of the unit and the result. -/
theorem State.access_refused {s : State} {a : Agent} {path : List Nat} {u i k : Nat} {d : List Octet} {c : Abort} (up : s.mainUp = true)
    (here : s.resolvePath path = .here u) (code : c ≠ .ok)
    (refused : (s.accessing a).writeHere a false false u i k d = (s.accessing a).refuse u c) :
    s.access a path i k d
      = .next { (s.awake a).latch u 3 with result := ⟨a, some c, if c = .leaseHeld then s.leaseData u else []⟩ } := by
  rw [State.access_eq up here (by rw [refused, State.refuse_state_evHold]), refused, State.refuse_toldTo a u code]

theorem State.access_absent {s : State} {a : Agent} {path : List Nat} {u : Nat} (up : s.mainUp = true)
    (absent : s.resolvePath path = .absent u) (i k : Nat) (d : List Octet) :
    s.access a path i k d = .next { (s.awake a).latch u 3 with result := ⟨a, some .noUnit, []⟩ } := by
  have hp : (s.awake a).resolvePath path = .absent u := ((s.awake_sameChecks a).resolvePath path).trans absent
  have told : s.access a path i k d = .next ((s.awake a).told a (fun t => t.writePath a false path i k d)) := by
    unfold State.awake at hp ⊢
    unfold State.access
    simp only [up, hp]
    rfl
  have refused : (s.accessing a).writePath a false path i k d = (s.accessing a).refuse u .noUnit := by
    unfold State.writePath
    rw [(s.accessing_sameChecks a).resolvePath, absent]
  rw [told, State.told_of_evHold (f := fun t => t.writePath a false path i k d) (by rw [refused, State.refuse_state_evHold]), refused,
    State.refuse_toldTo a u (by decide), if_neg (by decide)]

/-! ### Writes in the order of Table 2.4 -/

theorem State.writeHere_of_noRow {s : State} {a : Agent} {u i k : Nat} {c : Abort} (h : s.lookup a u i k = .error c) (f : Bool) (d : List Octet) :
    s.writeHere a f false u i k d = s.refuse u c := by
  unfold State.writeHere
  rw [h]

theorem State.writeHere_of_ro {s : State} {a : Agent} {u i k : Nat} {r : ObjRow} {kd : UnitKind} (row : s.lookup a u i k = .ok r)
    (kind : unitKind? s.build u = some kd) (ro : r.access = .ro) (f : Bool) (d : List Octet) :
    s.writeHere a f false u i k d = s.refuse u .readOnly := by
  unfold State.writeHere
  simp only [row, kind, ro, if_true]

theorem State.stagedWrite_refuses (s : State) (a : Agent) (u i k v : Nat) {c : Abort} (h : c ≠ .range ∧ c ≠ .busy) :
    (s.stagedWrite a u i k v).refuses c = false := by
  unfold State.stagedWrite
  repeat' split
  all_goals simp [Effect.refuses, Ne.symm h.1, Ne.symm h.2]

/-- The checks of a staged write, in their order: the lease, the length, the range. -/
theorem State.writeHere_of_staged {s : State} {a : Agent} {u i k : Nat} {d : List Octet} {r : ObjRow} {kd : UnitKind}
    (row : s.lookup a u i k = .ok r) (kind : unitKind? s.build u = some kd) (rws : r.access = .rws) (scalar : r.type ≠ .table) (f : Bool)
    (bad : s.leaseGood a kd u i = false ∨ d.length ≠ r.type.writeSize ∨ valueGood s.build r (ofMsb d) = false) :
    s.writeHere a f false u i k d = s.refuse u (if s.leaseGood a kd u i = false then .leaseHeld
      else if d.length ≠ r.type.writeSize then .length else .range) := by
  have idx := State.idx_of_rws row rws scalar
  have noData : ¬(kd = .dataport ∧ i = 0x4004) := by omega
  have quiet {c : Abort} (h : c ≠ .range ∧ c ≠ .busy) : (s.effectOf a f kd r u i k (ofMsb d)).refuses c = false := by
    simp only [State.effectOf, rws]
    exact s.stagedWrite_refuses a u i k _ h
  have notRo : r.access ≠ .ro := by simp [rws]
  unfold State.writeHere
  simp only [row, kind, notRo, scalar, noData, quiet (c := .noUnit) (by decide), quiet (c := .noObject) (by decide),
    quiet (c := .noSubindex) (by decide), quiet (c := .notAuthorised) (by decide), quiet (c := .modeForbids) (by decide),
    quiet (c := .align) (by decide)]
  cases lease : s.leaseGood a kd u i with
  | false => simp
  | true =>
    by_cases length : d.length = r.type.writeSize
    · simp [length, (bad.resolve_left (by simp [lease])).resolve_left (not_not.mpr length)]
    · simp [length]

theorem execObjectWrite_eq (a : Agent) (path : List Nat) (i k : Nat) (d : List Octet) (s : State) :
    exec (.objectWrite a path i k d) s = s.access a path i k d := rfl

theorem stagedWrite_refused {a : Agent} {path : List Nat} {u i k : Nat} {d : List Octet} {r : ObjRow} {kd : UnitKind} {s : State}
    (up : s.mainUp = true) (here : s.resolvePath path = .here u) (row : s.lookup a u i k = .ok r) (kind : unitKind? s.build u = some kd)
    (rws : r.access = .rws) (scalar : r.type ≠ .table)
    (bad : s.leaseGood a kd u i = false ∨ d.length ≠ r.type.writeSize ∨ valueGood s.build r (ofMsb d) = false) {c : Abort}
    (code : (if s.leaseGood a kd u i = false then Abort.leaseHeld else if d.length ≠ r.type.writeSize then .length else .range) = c) :
    exec (.stagedWrite a path i k d) s
      = .next { (s.awake a).latch u 3 with result := ⟨a, some c, if c = .leaseHeld then s.leaseData u else []⟩ } := by
  have same := s.accessing_sameChecks a
  refine State.access_refused up here (by rw [← code]; split <;> [decide; split <;> decide]) ?_
  rw [State.writeHere_of_staged ((same.lookup ..).trans row) (same.build ▸ kind) rws scalar false
    (by rw [same.leaseGood, same.build]; exact bad), same.leaseGood, code]

/-! ### Reads -/

/-- A read of an ordinary object returns its value as it stands. -/
theorem State.readHere_ordinary {s : State} {a : Agent} {u i k : Nat} {r : ObjRow} {n : Option Nat} (row : s.lookup a u i k = .ok r)
    (own : forwarded u i = false) (readable : r.access ≠ .wo) (scalar : r.type ≠ .table) (noPort : ¬(u = 0x00E ∧ 0x4000 ≤ i))
    (asked : n.any (fun n => n ≠ r.type.size) = false) :
    s.readHere a u i k n = ⟨some .ok, s.readOctets u i k r.type, s.readEffect u i k⟩ := by
  have noData : ¬(u = 0x00E ∧ i = 0x4004) := fun h => noPort ⟨h.1, by omega⟩
  unfold State.readHere State.lookupOwn
  simp only [own, row, if_neg readable, if_neg scalar, if_neg noPort, if_neg noData, asked, Bool.false_eq_true, if_false]

/-- A read that returns a value and may write an object, exactly. -/
theorem State.readUnit_ordinary {s : State} {a : Agent} {u i k : Nat} {r : ObjRow} (up : s.mainUp = true)
    (here : s.resolvePath (pathTo u) = .here u) (row : s.lookup a u i k = .ok r) (own : forwarded u i = false) (lo : 0x0100 ≤ i)
    (hi : i < 0x6000) (noPort : ¬(u = 0x00E ∧ 0x4000 ≤ i)) :
    s.readUnit a u i k none = .next { (s.accessing a).readEffect u i k with
      result := ⟨a, some .ok, (s.accessing a).readOctets u i k r.type⟩, evHold := s.evHold } := by
  have row' := ((s.accessing_sameChecks a).lookup a u i k).trans row
  obtain ⟨readable, scalar⟩ := State.readable_of_idx row' lo hi
  have reads := State.readHere_ordinary (n := none) row' own readable scalar noPort rfl
  have quiet : ((s.accessing a).readEffect u i k).evHold = (s.accessing a).evHold := by
    unfold State.readEffect
    repeat' split
    all_goals rfl
  rw [State.readUnit_eq up here (by rw [reads]; exact quiet), reads]
  rfl

theorem State.resolvePath_time (s : State) : s.resolvePath (pathTo 0x003) = .here 0x003 := by
  refine s.resolvePath_pathTo_child (by decide) (by decide) ?_
  exact List.mem_append_left _ (List.mem_append_left _ (List.mem_append_left _ (by decide)))

theorem timeNowRead_reads (a : Agent) (s : State) (up : s.mainUp = true) :
    exec (.timeNowRead a) s = .next { (s.awake a).wr 0x003 0x5000 1 (timeFrac s.time) with result := ⟨a, some .ok, toMsb 10 s.time80⟩ } := by
  obtain ⟨r, row, time80⟩ : ∃ r, s.lookup a 0x003 0x5000 0 = .ok r ∧ r.type = .time80 := by
    cases kind : a.kind <;> exact ⟨_, by simp [State.lookup, kind]; rfl, rfl⟩
  show s.readUnit a 0x003 0x5000 0 none = _
  rw [State.readUnit_ordinary up s.resolvePath_time row rfl (by decide) (by decide) (by decide), time80, State.accessing_eq, State.awake_eq]
  rfl

theorem State.channel_facts {s : State} {ch : Nat} (there : s.isChannel ch = true) :
    unitKind? s.build (chUnit ch) = some .channel ∧ s.resolvePath (pathTo (chUnit ch)) = .here (chUnit ch) := by
  have lt : ch < s.build.channels := by simpa [State.isChannel] using there
  have lanes : s.build.lanes ≤ 16 := by cases s.build <;> decide
  have channels : s.build.channels ≤ 64 := by cases s.build <;> decide
  constructor
  · unfold unitKind? chUnit
    rw [if_neg (by omega), if_neg (by omega), if_pos (by omega)]
  · refine s.resolvePath_pathTo_child (by unfold chUnit; omega) ?_ ?_
    · unfold parentOf chUnit
      rw [if_neg (by omega), if_neg (by omega)]
    · simp [childrenOf, unitRange, chUnit, lt]

theorem rxPeakRead_reads {a : Agent} {ch k : Nat} {r : ObjRow} {s : State} (up : s.mainUp = true) (there : s.isChannel ch = true)
    (row : s.lookup a (chUnit ch) 0x5011 k = .ok r) :
    exec (.rxPeakRead a ch k) s = .next { (s.awake a).wr (chUnit ch) 0x5011 k (s.occupancy ch k) with
      result := ⟨a, some .ok, toMsb r.type.size (s.rd (chUnit ch) 0x5011 k)⟩ } := by
  obtain ⟨kind, here⟩ := State.channel_facts there
  have same := s.accessing_sameChecks a
  have effect : (s.accessing a).readEffect (chUnit ch) 0x5011 k
      = (s.accessing a).wr (chUnit ch) 0x5011 k (s.occupancy ch k) := by
    have there' : (s.accessing a).isChannel ch = true := by
      unfold State.isChannel at there ⊢
      rw [same.build]
      exact there
    unfold State.readEffect chUnit
    rw [if_neg (by omega), show 0x200 + ch - 0x200 = ch by omega, if_pos ⟨there', by omega, rfl⟩, State.accessing_eq_obj]
    rfl
  have value : (s.accessing a).readOctets (chUnit ch) 0x5011 k r.type = toMsb r.type.size (s.rd (chUnit ch) 0x5011 k) := by
    unfold State.readOctets State.readObj
    rw [if_neg (by decide), same.build, kind, ← s.rd_accessing a k (by omega)]
    rfl
  show s.readUnit a (chUnit ch) 0x5011 k none = _
  rw [State.readUnit_ordinary up here row (by simp [forwarded]) (by decide) (by decide) (by unfold chUnit; omega), effect, value,
    State.accessing_eq, State.awake_eq]
  rfl

end Sys2Proof.Machine
open Sys2Proof Sys2Proof.Machine

/-- Settles O45: each refusal by the first check that fails, and the two reads that have an effect. -/
theorem refusedAccessesChangeNothingElse : Obligations.RefusedAccessesChangeNothingElse := by
  refine ⟨fun a path u i k d s up absent => State.access_absent up absent i k d,
    fun a path u i k d c s up here row code noLease => ?_, fun a path u i k d r kd s up here row kind ro => ?_,
    fun a path u i k d r kd s up here row kind rws scalar => ⟨fun lease => ?_, fun lease length => ?_, fun lease length value => ?_⟩,
    timeNowRead_reads, fun a ch k r s up there row => rxPeakRead_reads up there row⟩
  · have same := s.accessing_sameChecks a
    have refused := State.writeHere_of_noRow ((same.lookup a u i k).trans row) false d
    rw [execObjectWrite_eq, State.access_refused up here code refused, if_neg noLease]
  · have same := s.accessing_sameChecks a
    have refused := State.writeHere_of_ro ((same.lookup a u i k).trans row) (same.build ▸ kind) ro false d
    rw [execObjectWrite_eq, State.access_refused up here (by decide) refused, if_neg (by decide)]
  · rw [stagedWrite_refused up here row kind rws scalar (.inl lease) (c := .leaseHeld) (by simp [lease]), if_pos rfl]
  · rw [stagedWrite_refused up here row kind rws scalar (.inr (.inl length)) (c := .length) (by simp [lease, length]), if_neg (by decide)]
  · rw [stagedWrite_refused up here row kind rws scalar (.inr (.inr value)) (c := .range) (by simp [lease, length]), if_neg (by decide)]

end

section
/-! The lease commands and the claims of a boundary (O37). -/
namespace Sys2Proof.Machine

/-! ### A write or command that is granted -/

/-- A granted write runs where its checks are the same, and answers its reply but for the events. -/
theorem State.access_of_grants {s : State} {a : Agent} {path : List Nat} {u i k : Nat} {d : List Octet} (g : s.grants a path u i k d = true) :
    ∃ r kd t, (s.accessing a).Admits a u i k d r kd ∧ s.access a path i k d = .next t
      ∧ (((s.accessing a).writeHere a false false u i k d).toldTo a).ButEvents t := by
  obtain ⟨up, here, r, kd, x⟩ := State.grants_iff.mp g
  obtain ⟨t, ht, events⟩ := State.access_butEvents up here i k d
  exact ⟨r, kd, t, (s.accessing_sameChecks a).admits x, ht, events⟩

/-- The commands of the common header. -/
theorem State.command_of_header {s : State} {a : Agent} {u i : Nat} {r : ObjRow} (h : s.lookup a u i 0 = .ok r)
    (header : i ∈ [0x0006, 0x0012, 0x0013, 0x0014, 0x0030, 0x0031]) : r.access = .cmd := by
  obtain ⟨kd, -, row⟩ := State.row_of_lookup h
  fin_cases header <;> (cases row; rfl)

theorem exempt_of_leaseCommand (kd : UnitKind) {i : Nat} (h : i ∈ [0x0012, 0x0013, 0x0014]) : exempt kd i = true := by
  fin_cases h <;> rfl

/-- The effect of a lease command is that of the lease, but for a command of the whole fabric. -/
theorem State.effectOf_leaseCommand (s : State) (a : Agent) (f : Bool) (kd : UnitKind) {r : ObjRow} (u : Nat) {i : Nat} (k v : Nat)
    (cmd : r.access = .cmd) (h : i ∈ [0x0012, 0x0013, 0x0014]) : s.effectOf a f kd r u i k v = s.leaseCommand a u i := by
  unfold State.effectOf
  rw [cmd]
  fin_cases h <;> rfl

/-- A lease command that passes: it is exempt, so its own effect is all there is. -/
theorem State.leaseCommand_passes {s : State} {a : Agent} {path : List Nat} {u i : Nat} (g : s.grants a path u i 0 [] = true)
    (h : i ∈ [0x0012, 0x0013, 0x0014]) (passes : ((s.accessing a).leaseCommand a u i).passes = true) :
    ∃ t r, s.access a path i 0 [] = .next t ∧ ((((s.accessing a).leaseCommand a u i).reply r u i).toldTo a).ButEvents t := by
  obtain ⟨r, kd, t, x, ht, events⟩ := State.access_of_grants g
  have cmd := State.command_of_header x.row (by fin_cases h <;> decide)
  have idx : i ≠ 0x4004 ∧ i ≠ 0x0030 := by fin_cases h <;> decide
  have effect := State.effectOf_leaseCommand (s.accessing a) a false kd u 0 (ofMsb []) cmd h
  refine ⟨t, r, ht, ?_⟩
  rw [x.writeHere_passes (fun e => idx.1 e.2) idx.2 (effect ▸ passes), State.counted, exempt_of_leaseCommand kd h, if_pos rfl, effect] at events
  exact events

/-- A lease command that is refused. -/
theorem State.leaseCommand_refused {s : State} {a : Agent} {path : List Nat} {u i : Nat} (g : s.grants a path u i 0 [] = true)
    (h : i ∈ [0x0012, 0x0013, 0x0014]) (refused : (s.accessing a).leaseCommand a u i = .refused .leaseHeld (s.accessing a)) :
    s.access a path i 0 [] = .next { (s.awake a).latch u 3 with result := ⟨a, some .leaseHeld, s.leaseData u⟩ } := by
  obtain ⟨up, here, r, kd, x⟩ := State.grants_iff.mp g
  have x' := (s.accessing_sameChecks a).admits x
  have cmd := State.command_of_header x.row (by fin_cases h <;> decide)
  have idx : i ≠ 0x4004 := by fin_cases h <;> decide
  have effect := State.effectOf_leaseCommand (s.accessing a) a false kd u 0 (ofMsb []) cmd h
  rw [State.access_refused up here (by decide) (x'.writeHere_refused (fun e => idx e.2) (by decide) (effect.trans refused)), if_pos rfl]

/-! ### Holders, conflicts, and the leases that stand -/

theorem sameAgent_refl (a : Agent) : sameAgent a a = true := by simp [sameAgent]

theorem sameAgent_trans {a b c : Agent} (h : sameAgent a b = true) (k : sameAgent b c = true) : sameAgent a c = true := by
  simp only [sameAgent, decide_eq_true_eq] at *
  exact h.trans k

theorem sameAgent_symm {a b : Agent} (h : sameAgent a b = true) : sameAgent b a = true := by
  simp only [sameAgent, decide_eq_true_eq] at *
  exact h.symm

theorem lineage_eq_cons (u : Nat) : ∃ l, lineage u = u :: l := by
  unfold lineage
  split
  next h => exact ⟨[], by rw [h]⟩
  next =>
    split
    · exact ⟨[0], rfl⟩
    · exact ⟨[parentOf u, 0], rfl⟩

/-- The lease on a unit itself is the nearest one. -/
theorem State.effective_of_leaseOn {s : State} {u : Nat} {l : Lease} (h : s.leaseOn u = some l) : s.effective u = some l := by
  obtain ⟨t, ht⟩ := lineage_eq_cons u
  rw [State.effective, ht, List.findSome?_cons, h]

theorem State.unit_of_leaseOn {s : State} {u : Nat} {l : Lease} (h : s.leaseOn u = some l) : l.unit = u := by
  simpa using List.find?_some h

theorem State.exists_leaseOn {s : State} {x : Lease} (h : x ∈ s.leases) : ∃ l, s.leaseOn x.unit = some l := by
  rw [← Option.isSome_iff_exists, State.leaseOn, List.find?_isSome]
  exact ⟨x, h, by simp⟩

theorem State.holder_of_holdsLease {s : State} {a : Agent} {u : Nat} {l : Lease} (h : s.holdsLease a u = true) (on : s.effective u = some l) :
    sameAgent l.holder a = true := by
  simpa [State.holdsLease, on] using h

/-- A conflicting lease has another holder. -/
theorem State.holder_of_mem_conflicts {s : State} {a : Agent} {u : Nat} {l : Lease} (h : l ∈ s.conflicts a u) : sameAgent l.holder a = false := by
  rcases List.mem_append.mp h with h | h
  · split at h
    · split at h
      · cases h
      next other =>
        rw [List.mem_singleton.mp h]
        simpa using other
    · cases h
  · simpa using ((Bool.and_eq_true ..).mp (List.mem_filter.mp h).2).2

/-- The lease that stands on a unit that an agent does not hold conflicts with the agent's claim. -/
theorem State.mem_conflicts_of_leaseOn {s : State} {a : Agent} {u : Nat} {l : Lease} (free : s.holdsLease a u = false)
    (on : s.leaseOn u = some l) : l ∈ s.conflicts a u := by
  have near := State.effective_of_leaseOn on
  have other : sameAgent l.holder a = false := by simpa [State.holdsLease, near] using free
  simp [State.conflicts, near, other]

/-- Without a conflict, what an agent that does not hold a unit finds in its subtree are its own leases. -/
theorem State.holder_of_no_conflict {s : State} {a : Agent} {u : Nat} (free : s.holdsLease a u = false) (none_ : s.conflicts a u = []) {x : Lease}
    (hx : x ∈ s.leases) (under : covers u x.unit = true) : sameAgent x.holder a = true := by
  by_cases at_ : x.unit = u
  · obtain ⟨l, on⟩ := State.exists_leaseOn hx
    have := State.mem_conflicts_of_leaseOn free (at_ ▸ on)
    rw [none_] at this
    cases this
  · by_contra other
    have : x ∈ s.conflicts a u := List.mem_append_right _ (List.mem_filter.mpr ⟨hx, by simp [at_, under, other]⟩)
    rw [none_] at this
    cases this

/-- Leases that end one after the other take every lease on their units with them. -/
theorem State.foldl_leases {f : State → Lease → State} (hf : ∀ s l, (f s l).leases = s.leases.filter (fun x => x.unit ≠ l.unit)) (L : List Lease)
    (s : State) : (L.foldl f s).leases = s.leases.filter (fun x => L.all (fun l => x.unit ≠ l.unit)) := by
  induction L generalizing s with
  | nil => simp
  | cons l L ih =>
    rw [List.foldl_cons, ih, hf, List.filter_filter]
    congr 1
    funext x
    simp [Bool.and_comm]

theorem State.takeLease_leases (s : State) (a : Agent) (u : Nat) :
    (s.takeLease a u).leases = s.leases.filter (fun x => (s.leases.filter (fun l => covers u l.unit && sameAgent l.holder a)).all
      (fun l => x.unit ≠ l.unit)) ++ [⟨u, a, s.leaseTicks⟩] := by
  unfold State.takeLease
  extract_lets s1
  have ticks : s1.leaseTicks = s.leaseTicks := (State.ButLeases.foldl (fun u _ => .endLease u _ _ _) _ s).leaseTicks
  have merged := State.foldl_leases (f := State.mergeLease) (fun s l => State.endLease_leases s l _ _) (s.leases.filter fun l =>
    covers u l.unit && sameAgent l.holder a) s
  show s1.leases ++ [⟨u, a, s1.leaseTicks⟩] = _
  rw [ticks]
  exact congrArg (· ++ _) merged

theorem State.takeLease_leases_of_no_conflict {s : State} {a : Agent} {u : Nat} (free : s.holdsLease a u = false) (none_ : s.conflicts a u = []) :
    (s.takeLease a u).leases = s.leases.filter (fun l => !(covers u l.unit && sameAgent l.holder a)) ++ [⟨u, a, s.leaseTicks⟩] := by
  rw [State.takeLease_leases]
  congr 1
  refine List.filter_congr fun x hx => ?_
  rw [Bool.eq_iff_iff]
  simp only [List.all_eq_true, List.mem_filter, Bool.and_eq_true, decide_eq_true_eq, Bool.not_eq_true', ← Bool.not_eq_true, and_imp]
  constructor
  · exact fun gone mine => gone x hx mine.1 mine.2 rfl
  · intro stays l _ under _ at_
    exact stays ⟨at_ ▸ under, State.holder_of_no_conflict free none_ hx (at_ ▸ under)⟩

/-- The pending writes behind the end of a lease: those of its holder in the subtree are gone, but for a running commit's (R60). -/
theorem State.mem_endLease_staged {s : State} {l : Lease} {new cause : Nat} {w : StagedWrite} (h : w ∈ (s.endLease l new cause).staged) :
    w ∈ s.staged ∧ (sameAgent w.agent l.holder = true → covers l.unit w.target.unit = true → s.inCommit w.target = true) := by
  rw [State.endLease_staged] at h
  obtain ⟨mem, keep⟩ := List.mem_filter.mp h
  refine ⟨mem, fun mine under => ?_⟩
  simpa [mine, under] using keep

/-! ### The rows of Table 2.7 that are accesses -/

/-- A lease command that ends with OK leaves the leases and pending writes of its effect. -/
theorem State.leaseCommand_ends {s u' : State} {a : Agent} {path : List Nat} {u i : Nat} (g : s.grants a path u i 0 [] = true)
    (h : i ∈ [0x0012, 0x0013, 0x0014]) (effect : (s.accessing a).leaseCommand a u i = .ends .ok u') :
    ∃ t, s.access a path i 0 [] = .next t ∧ t.result = ⟨a, some .ok, []⟩ ∧ t.leases = u'.leases ∧ t.staged = u'.staged := by
  obtain ⟨t, r, ht, events⟩ := State.leaseCommand_passes g h (by rw [effect]; rfl)
  rw [effect] at events
  have ran : (u'.ranCode r u i .ok).leases = u'.leases ∧ (u'.ranCode r u i .ok).staged = u'.staged := by
    unfold State.ranCode
    split <;> exact ⟨rfl, rfl⟩
  exact ⟨t, ht, events.result, events.leases.trans ran.1, events.staged.trans ran.2⟩

/-- A lease command that is no group's has the effect of its row. -/
theorem State.leaseCommand_own {s : State} {a : Agent} {u : Nat} (notGroup : ¬(u = 0x00D ∧ a.kind = .manager ∧ s.role = 3)) (x : State)
    (same : s.SameChecks x) :
    x.leaseCommand a u 0x0012 = .waits { x with claims := x.claims ++ [⟨u, a⟩] }
      ∧ x.leaseCommand a u 0x0013 = .told (x.leaseRenew a u) ∧ x.leaseCommand a u 0x0014 = .told (x.leaseRelease a u) := by
  rw [← same.role] at notGroup
  simp only [State.leaseCommand, if_neg notGroup, and_self]

theorem leaseClaim_waits {a : Agent} {path : List Nat} {u : Nat} {s : State} (g : s.grants a path u 0x0012 0 [] = true)
    (notGroup : ¬(u = 0x00D ∧ a.kind = .manager ∧ s.role = 3)) :
    ∃ t, exec (.leaseClaim a path) s = .next t ∧ t.result = ⟨a, none, []⟩ ∧ t.claims = s.claims ++ [⟨u, a⟩] ∧ t.leases = s.leases := by
  obtain ⟨effect, -, -⟩ := State.leaseCommand_own notGroup _ (s.accessing_sameChecks a)
  obtain ⟨t, r, ht, events⟩ := State.leaseCommand_passes g (by decide) (by rw [effect]; rfl)
  rw [effect] at events
  refine ⟨t, ht, events.result, ?_, ?_⟩
  · rw [events.fields, State.accessing_eq_obj]
    rfl
  · rw [events.leases, State.accessing_eq_obj]
    rfl

theorem leaseRenew_follows {a : Agent} {path : List Nat} {u : Nat} {s : State} (g : s.grants a path u 0x0013 0 [] = true)
    (notGroup : ¬(u = 0x00D ∧ a.kind = .manager ∧ s.role = 3)) :
    (s.holdsLease a u = true → ∃ t, exec (.leaseRenew a path) s = .next t ∧ t.result = ⟨a, some .ok, []⟩ ∧ t.leases = (s.renew u).leases)
    ∧ (s.holdsLease a u = false → ∃ t, exec (.leaseRenew a path) s = .next t ∧ t.result = ⟨a, some .leaseHeld, s.leaseData u⟩
      ∧ t.leases = s.leases) := by
  have same := s.accessing_sameChecks a
  obtain ⟨-, command, -⟩ := State.leaseCommand_own notGroup _ same
  rw [State.leaseRenew, same.holdsLease] at command
  constructor <;> intro holds <;> rw [holds] at command
  · obtain ⟨t, ht, result, leases, -⟩ := State.leaseCommand_ends g (by decide) command
    exact ⟨t, ht, result, leases.trans (same.renew_leases u)⟩
  · refine ⟨_, State.leaseCommand_refused g (by decide) command, rfl, ?_⟩
    rw [State.awake_eq]
    rfl

theorem leaseRelease_follows {a : Agent} {path : List Nat} {u : Nat} {s : State} (g : s.grants a path u 0x0014 0 [] = true)
    (notGroup : ¬(u = 0x00D ∧ a.kind = .manager ∧ s.role = 3)) :
    (s.holdsLease a u = true → (s.leaseOn u).isSome = true →
      ∃ t, exec (.leaseRelease a path) s = .next t ∧ t.result = ⟨a, some .ok, []⟩ ∧ t.leases = s.leases.filter (fun x => x.unit ≠ u)
        ∧ ∀ w ∈ t.staged, w ∈ s.staged ∧ (sameAgent w.agent a = true → covers u w.target.unit = true → s.inCommit w.target = true))
    ∧ (s.holdsLease a u = false → s.conflicts a u = [] →
      ∃ t, exec (.leaseRelease a path) s = .next t ∧ t.result = ⟨a, some .ok, []⟩ ∧ t.leases = s.leases)
    ∧ (s.holdsLease a u = false → s.conflicts a u ≠ [] →
      ∃ t, exec (.leaseRelease a path) s = .next t ∧ t.result = ⟨a, some .leaseHeld, s.leaseData u⟩ ∧ t.leases = s.leases) := by
  have same := s.accessing_sameChecks a
  obtain ⟨-, -, command⟩ := State.leaseCommand_own notGroup _ same
  rw [State.leaseRelease, same.holdsLease, same.leaseOn, same.conflicts] at command
  refine ⟨fun holds own => ?_, fun free none_ => ?_, fun free other => ?_⟩
  · obtain ⟨l, on⟩ := Option.isSome_iff_exists.mp own
    have holder := State.holder_of_holdsLease holds (State.effective_of_leaseOn on)
    have unit := State.unit_of_leaseOn on
    rw [holds, on] at command
    obtain ⟨t, ht, result, leases, staged⟩ := State.leaseCommand_ends (u' := (s.accessing a).endLease l 0 2) g (by decide) command
    refine ⟨t, ht, result, by rw [leases, State.endLease_leases, same.leases, unit], fun w hw => ?_⟩
    obtain ⟨mem, running⟩ := State.mem_endLease_staged (staged ▸ hw)
    refine ⟨same.staged ▸ mem, fun mine under => ?_⟩
    have := running (sameAgent_trans mine (sameAgent_symm holder)) (unit ▸ under)
    unfold State.inCommit at this ⊢
    rwa [same.commits] at this
  · rw [free, none_] at command
    obtain ⟨t, ht, result, leases, -⟩ := State.leaseCommand_ends g (by decide) command
    exact ⟨t, ht, result, leases.trans same.leases⟩
  · rw [free, if_neg Bool.false_ne_true, if_neg other] at command
    refine ⟨_, State.leaseCommand_refused g (by decide) command, rfl, ?_⟩
    rw [State.awake_eq]
    rfl

/-! ### The claims of a boundary (R409) -/

theorem State.claim_butLeases (s : State) (a : Agent) (u : Nat) : s.ButLeases (s.claim a u).2 := by
  unfold State.claim
  extract_lets cs old s1
  split
  · exact .renew s u
  · split
    · exact (State.ButLeases.takeLease s a u).trans (.events (State.leaseRecord_butEvents ..))
    · split
      · have taken : s.ButLeases s1 := (State.ButLeases.foldl (fun u _ => .endLease u _ _ _) _ s).trans (.takeLease _ a u)
        dsimp only
        split
        · exact taken
        · exact taken.trans (.events (State.leaseRecord_butEvents ..))
      · exact .refl s

/-- A claim by the holder renews. -/
theorem State.claim_of_holds {s : State} {a : Agent} {u : Nat} (h : s.holdsLease a u = true) : s.claim a u = (.ok, s.renew u) := by
  simp [State.claim, h]

/-- A claim without a conflict takes the unit. -/
theorem State.claim_of_no_conflict {s : State} {a : Agent} {u : Nat} (free : s.holdsLease a u = false) (none_ : s.conflicts a u = []) :
    (s.claim a u).1 = .ok ∧ (s.claim a u).2.leases
      = s.leases.filter (fun l => !(covers u l.unit && sameAgent l.holder a)) ++ [⟨u, a, s.leaseTicks⟩] := by
  simp [State.claim, free, none_, (State.leaseRecord_butEvents ..).leases, State.takeLease_leases_of_no_conflict free none_]

/-- A preferred claim against the other side ends every conflicting lease and takes the unit. -/
theorem State.claim_of_preferred {s : State} {a : Agent} {u : Nat} (free : s.holdsLease a u = false) (some_ : s.conflicts a u ≠ [])
    (preferred : s.preferred a = true) (otherSides : ∀ l ∈ s.conflicts a u, otherSide a l.holder = true) :
    (s.claim a u).1 = .ok ∧ (s.claim a u).2.leaseOn u = some ⟨u, a, s.leaseTicks⟩
      ∧ ∀ l ∈ s.conflicts a u, l ∉ (s.claim a u).2.leases := by
  let ended := (s.conflicts a u).foldl (fun s l => s.endLease l (leaseCode a) 0) s
  have leases : (s.claim a u).2.leases = (ended.takeLease a u).leases := by
    simp only [State.claim, free, some_, preferred, List.all_eq_true.mpr otherSides, Bool.false_eq_true, if_false, and_self, if_true]
    split
    · rfl
    · exact (State.leaseRecord_butEvents ..).leases
  have kept : ended.leases = s.leases.filter (fun x => (s.conflicts a u).all (fun l => x.unit ≠ l.unit)) :=
    State.foldl_leases (fun s l => State.endLease_leases s l _ _) _ s
  have gone {x : Lease} (hx : x ∈ ended.leases) {l : Lease} (hl : l ∈ s.conflicts a u) : x.unit ≠ l.unit := by
    rw [kept] at hx
    simpa using List.all_eq_true.mp (List.mem_filter.mp hx).2 l hl
  have free' {x : Lease} (hx : x ∈ ended.leases) : x.unit ≠ u := by
    intro at_
    obtain ⟨l, on⟩ := State.exists_leaseOn (List.mem_filter.mp (kept ▸ hx)).1
    exact gone hx (State.mem_conflicts_of_leaseOn free (at_ ▸ on)) (State.unit_of_leaseOn on).symm
  have ticks : ended.leaseTicks = s.leaseTicks := (State.ButLeases.foldl (fun u _ => .endLease u _ _ _) _ s).leaseTicks
  rw [leases, State.leaseOn, leases, State.takeLease_leases, ticks]
  refine ⟨?_, ?_, fun l hl mem => ?_⟩
  · simp only [State.claim, free, some_, preferred, List.all_eq_true.mpr otherSides, Bool.false_eq_true, if_false, and_self, if_true]
  · rw [List.find?_append, List.find?_eq_none.mpr fun x hx => by simpa using free' (List.mem_filter.mp hx).1]
    simp
  · rcases List.mem_append.mp mem with mem | mem
    · exact gone (List.mem_filter.mp mem).1 hl rfl
    · have other := State.holder_of_mem_conflicts hl
      rw [List.mem_singleton.mp mem, sameAgent_refl] at other
      cases other

/-- Any other claim is refused. -/
theorem State.claim_of_held {s : State} {a : Agent} {u : Nat} (free : s.holdsLease a u = false) (some_ : s.conflicts a u ≠ [])
    (weak : s.preferred a = false ∨ ∃ l ∈ s.conflicts a u, otherSide a l.holder = false) : s.claim a u = (.leaseHeld, s) := by
  have weak' : ¬(s.preferred a = true ∧ (s.conflicts a u).all (fun l => otherSide a l.holder) = true) := by
    rintro ⟨p, all⟩
    rcases weak with no | ⟨l, hl, no⟩
    · rw [no] at p
      cases p
    · rw [List.all_eq_true.mp all l hl] at no
      cases no
  simp only [State.claim, free, Bool.false_eq_true, if_false, if_neg some_, if_neg weak']

/-- A claim of the host completes: its agent is told. -/
theorem State.claimTold_of_host (s : State) {c : Claim} (h : c.agent.kind = .host) (code : Abort) :
    (s.claimTold c code).claims = s.claims ∧ (s.claimTold c code).leases = s.leases
      ∧ (s.claimTold c code).result = ⟨c.agent, some code, if code = .leaseHeld then s.leaseData c.unit else []⟩ := by
  have noGroup : s.claimGroup c = none := by simp [State.claimGroup, h]
  have latched : ((s.ran c.unit 0x0012 code).refusedAt c.unit code).claims = s.claims
      ∧ ((s.ran c.unit 0x0012 code).refusedAt c.unit code).leases = s.leases := by
    unfold State.refusedAt
    split <;> exact ⟨rfl, rfl⟩
  simp only [State.claimTold, noGroup]
  rw [State.finish_fields_of_host _ h]
  exact ⟨latched.1, latched.2, rfl⟩

/-- The state in which the claims of a boundary are decided. -/
def State.deciding (s : State) : State := { s.holding with claims := [] }

theorem State.deciding_sameChecks (s : State) : s.SameChecks s.deciding := by
  unfold State.deciding
  rw [State.holding_fields]
  exact ⟨rfl, rfl, rfl, rfl, rfl, fun _ _ _ _ _ => rfl⟩

/-- One claim of the host is decided against the leases as they stand. -/
theorem leaseClaimDecide_decides {c : Claim} {s : State} (up : s.mainUp = true) (one : s.claims = [c]) (host : c.agent.kind = .host) :
    ∃ t, exec .leaseClaimDecide s = .next t ∧ t.claims = [] ∧ t.leases = (s.deciding.claim c.agent c.unit).2.leases
      ∧ t.result = ⟨c.agent, some (s.deciding.claim c.agent c.unit).1, if (s.deciding.claim c.agent c.unit).1 = .leaseHeld
          then (s.deciding.claim c.agent c.unit).2.leaseData c.unit else []⟩ := by
  have decided : s.holding.claimStep
      = (s.deciding.claim c.agent c.unit).2.claimTold c (s.deciding.claim c.agent c.unit).1 := by
    have : s.holding.claims = [c] := by
      rw [State.holding_fields]
      exact one
    simp only [State.claimStep, State.orderedClaims, this, List.foldl_cons, List.foldl_nil, State.insertClaim, State.decideClaims, beaten,
      List.any_nil, Bool.false_eq_true, if_false]
    rfl
  obtain ⟨claims, leases, result⟩ := State.claimTold_of_host (s.deciding.claim c.agent c.unit).2 host (s.deciding.claim c.agent c.unit).1
  obtain ⟨t, ht, events⟩ := gathered_next (s := s) (f := fun s => if s.mainUp then .next s.claimStep else .next s) (u := s.holding.claimStep) (by
    have : s.holding.mainUp = true := by
      rw [State.holding_fields]
      exact up
    simp only [this, if_true])
  rw [decided] at events
  refine ⟨t, ht, ?_, events.leases.trans leases, events.result.trans result⟩
  rw [events.fields]
  refine claims.trans ?_
  rw [(s.deciding.claim_butLeases c.agent c.unit).fields]
  rfl

theorem leaseClaimDecide_follows {c : Claim} {s : State} (up : s.mainUp = true) (one : s.claims = [c]) (host : c.agent.kind = .host) :
    (s.holdsLease c.agent c.unit = true → ∃ t, exec .leaseClaimDecide s = .next t ∧ t.claims = []
      ∧ t.result = ⟨c.agent, some .ok, []⟩ ∧ t.leases = (s.renew c.unit).leases)
    ∧ (s.holdsLease c.agent c.unit = false → s.conflicts c.agent c.unit = [] →
      ∃ t, exec .leaseClaimDecide s = .next t ∧ t.claims = [] ∧ t.result = ⟨c.agent, some .ok, []⟩
        ∧ t.leases = s.leases.filter (fun l => !(covers c.unit l.unit && sameAgent l.holder c.agent)) ++ [⟨c.unit, c.agent, s.leaseTicks⟩])
    ∧ (s.holdsLease c.agent c.unit = false → s.conflicts c.agent c.unit ≠ [] → s.preferred c.agent = true →
        (∀ l ∈ s.conflicts c.agent c.unit, otherSide c.agent l.holder = true) →
      ∃ t, exec .leaseClaimDecide s = .next t ∧ t.claims = [] ∧ t.result = ⟨c.agent, some .ok, []⟩
        ∧ t.leaseOn c.unit = some ⟨c.unit, c.agent, s.leaseTicks⟩ ∧ ∀ l ∈ s.conflicts c.agent c.unit, l ∉ t.leases)
    ∧ (s.holdsLease c.agent c.unit = false → s.conflicts c.agent c.unit ≠ [] →
        (s.preferred c.agent = false ∨ ∃ l ∈ s.conflicts c.agent c.unit, otherSide c.agent l.holder = false) →
      ∃ t, exec .leaseClaimDecide s = .next t ∧ t.claims = [] ∧ t.result = ⟨c.agent, some .leaseHeld, s.leaseData c.unit⟩
        ∧ t.leases = s.leases) := by
  have same := s.deciding_sameChecks
  obtain ⟨t, ht, claims, leases, result⟩ := leaseClaimDecide_decides up one host
  simp only [← same.holdsLease, ← same.conflicts, ← same.preferred]
  refine ⟨fun holds => ⟨t, ht, claims, ?_⟩, fun free none_ => ⟨t, ht, claims, ?_⟩, fun free some_ preferred others => ⟨t, ht, claims, ?_⟩,
    fun free some_ weak => ⟨t, ht, claims, ?_⟩⟩
  · rw [State.claim_of_holds holds] at leases result
    exact ⟨result, leases.trans (same.renew_leases _)⟩
  · obtain ⟨code, took⟩ := State.claim_of_no_conflict free none_
    rw [code] at result
    exact ⟨result, by rw [leases, took, same.leases, same.leaseTicks]⟩
  · obtain ⟨code, on, gone⟩ := State.claim_of_preferred free some_ preferred others
    rw [code] at result
    exact ⟨result, by rw [State.leaseOn, leases, ← same.leaseTicks, ← on]; rfl, by rw [leases]; exact gone⟩
  · rw [State.claim_of_held free some_ weak] at leases result
    exact ⟨by rw [result, ← same.leaseData]; rfl, leases.trans same.leases⟩

theorem leaseExpiry_ends {unit : Nat} {l : Lease} {s : State} (up : s.mainUp = true) (on : s.leaseOn unit = some l) :
    ∃ t, exec (.leaseExpiry unit) s = .next t ∧ t.leases = s.leases.filter (fun x => x.unit ≠ unit)
      ∧ ∀ w ∈ t.staged, w ∈ s.staged ∧ (sameAgent w.agent l.holder = true → covers unit w.target.unit = true → s.inCommit w.target = true) := by
  have unit_eq := State.unit_of_leaseOn on
  obtain ⟨e, he⟩ := s.holding_eq
  obtain ⟨t, ht, events⟩ := gathered_next (s := s) (u := s.holding.leaseExpire l) (f := fun s => match s.leaseOn unit with
    | some l => if s.mainUp then .next (s.leaseExpire l) else .next s
    | none => .next s) (by
      have on' : s.holding.leaseOn unit = some l := by
        rw [he]
        exact on
      have up' : s.holding.mainUp = true := by
        rw [he]
        exact up
      simp only [on', up', if_true])
  rw [State.leaseExpire, he] at events
  refine ⟨t, ht, ?_, fun w hw => ?_⟩
  · rw [events.leases, State.endLease_leases, unit_eq]
  · rw [events.staged] at hw
    obtain ⟨mem, running⟩ := State.mem_endLease_staged hw
    exact ⟨mem, fun mine under => running mine (unit_eq ▸ under)⟩

end Sys2Proof.Machine
open Sys2Proof Sys2Proof.Machine

/-- Settles O37: the three lease commands through the checks of an access, the boundary's decision on the one claim, and the expiry. -/
theorem leasesFollowTheirTable : Obligations.LeasesFollowTheirTable :=
  ⟨fun _ _ _ _ g notGroup => leaseClaim_waits g notGroup, fun _ _ _ _ g notGroup => leaseRenew_follows g notGroup,
    fun _ _ _ _ g notGroup => leaseRelease_follows g notGroup, fun _ _ up one host => leaseClaimDecide_follows up one host,
    fun _ _ _ up on => leaseExpiry_ends up on⟩

end

section
/-! What telling an agent changes, and the staged configuration (O38). -/
namespace Sys2Proof.Machine

/-! ### An agent is told (R62, R73, R308) -/

/-- `t` is `s` but for who is told what, a frame generated for it, and events: no object of the header but the alarms, and no staged object,
has changed. -/
structure State.Told (s t : State) : Prop where
  fields : t = { s with
    obj := t.obj, tab := t.tab, hid := t.hid, timers := t.timers, result := t.result, mailboxes := t.mailboxes, accessQ := t.accessQ
    responses := t.responses, relayExecs := t.relayExecs, frames := t.frames, copies := t.copies, latches := t.latches
    lastFixed := t.lastFixed, lastSd := t.lastSd, lastVar := t.lastVar, evHold := t.evHold, monQ := t.monQ, free := t.free }
  objs   : ∀ u i k, i < 0x4000 → i ≠ 0x0005 → t.rd u i k = s.rd u i k

theorem not_eventObj_of_idx (u : Nat) {i : Nat} (h : i < 0x4000) : eventObj u i = false ∧ ¬(u = 0x001 ∧ i = 0x5000) := by
  constructor
  · have : i ≠ 0x5001 ∧ i ≠ 0x5002 ∧ i ≠ 0x5003 ∧ i ≠ 0x5004 ∧ i ≠ 0x5005 ∧ i ≠ 0x5006 ∧ i ≠ 0x8000 ∧ i ≠ 0x8001 ∧ i ≠ 0x8002
        ∧ i ≠ 0x8003 ∧ i ≠ 0x5008 ∧ i ≠ 0x5009 ∧ i ≠ 0x500A := by omega
    simp [eventObj, this]
  · omega

namespace State.Told
variable {r s t : State}

theorem refl (s : State) : s.Told s := ⟨rfl, fun _ _ _ _ _ => rfl⟩

theorem trans (h : r.Told s) (k : s.Told t) : r.Told t where
  fields := by
    have e := k.fields
    rw [h.fields] at e
    exact e
  objs u i j a b := (k.objs u i j a b).trans (h.objs u i j a b)

theorem events (h : s.ButEvents t) : s.Told t where
  fields := by
    have e := h.fields
    rw [e]
  objs u i k a _ := h.objs u i k (not_eventObj_of_idx u a).1 (not_eventObj_of_idx u a).2

/-- No object at all has changed. -/
theorem of_obj (fields : t = { s with
    tab := t.tab, hid := t.hid, timers := t.timers, result := t.result, mailboxes := t.mailboxes, accessQ := t.accessQ
    responses := t.responses, relayExecs := t.relayExecs, frames := t.frames, copies := t.copies }) : s.Told t where
  fields := by rw [fields]
  objs u i k _ _ := by rw [fields]; rfl

theorem generate (s : State) (ch : Nat) (octets : List Octet) (onFabric : Bool) (dst : Option Nat) :
    s.Told (s.generate ch octets onFabric dst) := by
  unfold State.generate
  extract_lets f
  split
  · refine trans ?_ (events (.record _ _ _ _ _))
    exact ⟨rfl, fun u i k a b => (State.rd_wr_ne _ _ (by omega)).trans (State.rd_wr_ne _ _ (by omega))⟩
  · exact of_obj rfl

theorem sendControl (s : State) (ch dst hop : Nat) (body : List Octet) : s.Told (s.sendControl ch dst hop body) := by
  unfold State.sendControl
  split
  · exact generate _ _ _ _ _
  · exact refl s

theorem relayResponse (s : State) (e : RelayExec) (agent : Nat) (code : Abort) (data : List Octet) :
    s.Told (s.relayResponse e agent code data) := by
  unfold State.relayResponse
  split
  · exact sendControl _ _ _ _ _
  · exact refl s

theorem finish (s : State) (a : Agent) (code : Abort) (data : List Octet) : s.Told (s.finish a code data) := by
  have completed : s.Told (s.complete a code data) := of_obj rfl
  unfold State.finish
  dsimp only
  cases a.kind with
  | host =>
    dsimp only
    split
    · exact of_obj rfl
    · split
      · exact of_obj rfl
      · exact completed
  | manager =>
    dsimp only
    split
    · split
      · exact of_obj rfl
      · exact completed
    · exact completed
  | fabric =>
    dsimp only
    split
    · next e _ =>
      have gone : (s.complete a code data).Told { s.complete a code data with relayExecs := (s.complete a code data).relayExecs.erase e } :=
        of_obj rfl
      exact (completed.trans gone).trans (relayResponse _ _ _ _ _)
    · exact completed

theorem commits (h : s.Told t) : t.commits = s.commits := by rw [h.fields]
theorem staged (h : s.Told t) : t.staged = s.staged := by rw [h.fields]

end State.Told

theorem State.generate_result (s : State) (ch : Nat) (octets : List Octet) (onFabric : Bool) (dst : Option Nat) :
    (s.generate ch octets onFabric dst).result = s.result := by
  unfold State.generate
  extract_lets f
  split
  · exact (State.ButEvents.record _ _ _ _ _).result
  · rfl

theorem State.relayResponse_result (s : State) (e : RelayExec) (agent : Nat) (code : Abort) (data : List Octet) :
    (s.relayResponse e agent code data).result = s.result := by
  unfold State.relayResponse State.sendControl
  split
  · split
    · exact State.generate_result _ _ _ _ _
    · rfl
  · rfl

/-- Whoever is told, the result is the access's. -/
theorem State.finish_result (s : State) (a : Agent) (code : Abort) (data : List Octet) : (s.finish a code data).result = ⟨a, some code, data⟩ := by
  unfold State.finish
  dsimp only
  cases a.kind with
  | host =>
    dsimp only
    split
    · rfl
    · split <;> rfl
  | manager =>
    dsimp only
    split
    · split <;> rfl
    · rfl
  | fabric =>
    dsimp only
    split
    · exact State.relayResponse_result _ _ _ _ _
    · rfl

/-! ### Pending writes behind a write that counts for the lease (R60) -/

theorem parentOf_parentOf (u : Nat) : parentOf (parentOf u) = 0 := by
  by_cases ring : 0x400 ≤ u ∧ u < 0x4C8
  · simp [parentOf, ring]
  · by_cases stats : 0x500 ≤ u
    · simp [parentOf, ring, stats]
    · simp [parentOf, ring, stats]

theorem covers_trans {a b c : Nat} (h : covers a b = true) (k : covers b c = true) : covers a c = true := by
  simp only [covers, Bool.or_eq_true, Bool.and_eq_true, decide_eq_true_eq] at h k ⊢
  rcases k with (rfl | rfl) | ⟨below, rfl⟩
  · exact h
  · exact .inl (.inr (by omega))
  · rcases h with (rfl | h) | ⟨-, h⟩
    · exact .inr ⟨below, rfl⟩
    · exact .inl (.inr h)
    · exact .inl (.inr (h.symm.trans (parentOf_parentOf c)))

theorem State.wrote_staged (s : State) (a : Agent) (u : Nat) :
    (s.wrote a u).staged = if s.holdsLease a u then s.staged else (s.takeLease a u).staged := by
  unfold State.wrote
  split
  · unfold State.renew
    split <;> rfl
  · exact (State.leaseRecord_butEvents ..).staged

theorem State.inCommit_of_bare {s t : State} (h : t.commits.map CommitOp.bare = s.commits.map CommitOp.bare) (x : StagedTarget) :
    t.inCommit x = s.inCommit x := by
  have bare (u : State) : u.inCommit x = (u.commits.map CommitOp.bare).any (fun c => c.writes.any (fun w => w.target = x)) := by
    rw [List.any_map]
    rfl
  rw [bare, bare, h]

/-- Merging leases of a subtree keeps each pending write that is outside it or in a running commit. -/
theorem State.filter_foldl_mergeLease {p : StagedWrite → Bool} {u : Nat} (L : List Lease) (under : ∀ l ∈ L, covers u l.unit = true) (s : State)
    (safe : ∀ w, p w = true → covers u w.target.unit = true → s.inCommit w.target = true) :
    (L.foldl State.mergeLease s).staged.filter p = s.staged.filter p := by
  induction L generalizing s with
  | nil => rfl
  | cons l L ih =>
    have merged : s.ButLeases (s.mergeLease l) := .endLease s l _ _
    rw [List.foldl_cons, ih (fun x hx => under x (List.mem_cons_of_mem _ hx)) _ fun w hp hw =>
      (State.inCommit_of_bare merged.commits _).trans (safe w hp hw)]
    rw [State.mergeLease, State.endLease_staged, State.dropPending, List.filter_filter]
    refine List.filter_congr fun w _ => ?_
    cases hp : p w with
    | false => rfl
    | true =>
      by_cases hw : covers l.unit w.target.unit = true
      · simp [safe w hp (covers_trans (under l List.mem_cons_self) hw)]
      · simp [hw]

theorem State.filter_wrote_staged {p : StagedWrite → Bool} {s : State} {u : Nat} (a : Agent)
    (safe : ∀ w, p w = true → covers u w.target.unit = true → s.inCommit w.target = true) :
    (s.wrote a u).staged.filter p = s.staged.filter p := by
  rw [State.wrote_staged]
  split
  · rfl
  · refine State.filter_foldl_mergeLease _ (fun l hl => ?_) s safe
    exact ((Bool.and_eq_true ..).mp (List.mem_filter.mp hl).2).1

/-- A write that counts keeps every pending write of its subtree that a commit covers. -/
theorem State.wrote_staged_of_inCommit {s : State} {u : Nat} (a : Agent)
    (safe : ∀ w ∈ s.staged, covers u w.target.unit = true → s.inCommit w.target = true) : (s.wrote a u).staged = s.staged := by
  have kept := State.filter_wrote_staged (p := fun w => w ∈ s.staged) (u := u) a (fun w hw => safe w (by simpa using hw))
  rw [List.filter_eq_self.mpr fun w hw => by simpa using (State.ButLeases.wrote s a u).staged.subset hw,
    List.filter_eq_self.mpr fun w hw => by simpa using hw] at kept
  exact kept

/-! ### Staged writes, COMMIT and DISCARD -/

theorem State.any_commits_of_bare {s t : State} (h : t.commits.map CommitOp.bare = s.commits.map CommitOp.bare) (p : Nat → Bool) :
    t.commits.any (fun c => p c.unit) = s.commits.any (fun c => p c.unit) := by
  have bare (u : State) : u.commits.any (fun c => p c.unit) = (u.commits.map CommitOp.bare).any (fun c => p c.unit) := by
    rw [List.any_map]
    rfl
  rw [bare, bare, h]

theorem State.stage_staged_congr {s t : State} (h : t.staged = s.staged) (w : StagedWrite) : (t.stage w).staged = (s.stage w).staged := by
  unfold State.stage
  rw [h]
  split <;> rfl

theorem State.stage_eq (s : State) (w : StagedWrite) : s.stage w = { s with staged := (s.stage w).staged } := by
  unfold State.stage
  split <;> rfl

/-- A staged write that passes its checks counts for the lease and joins the pending set. -/
theorem State.Admits.writeHere_staged {s : State} {a : Agent} {u i k : Nat} {d : List Octet} {r : ObjRow} {kd : UnitKind}
    (x : s.Admits a u i k d r kd) (rws : r.access = .rws) (notFabric : ¬(u = 0x00D ∧ i = 0x1000 ∧ ofMsb d = 1 ∧ s.serial = 0))
    (free : s.stageBusy u = false) (f : Bool) :
    s.writeHere a f false u i k d = ⟨some .ok, [], (s.wrote a u).stage ⟨.obj ⟨u, i, k⟩, ofMsb d, a⟩⟩ := by
  have idx := State.idx_of_rws x.row rws x.scalar
  have counts : s.counted a kd u i = s.wrote a u := by rw [State.counted, not_exempt_of_staged kd idx, if_neg Bool.false_ne_true]
  have counted := State.ButLeases.wrote s a u
  have effect (y : State) (hy : y.serial = s.serial) (hb : y.stageBusy u = false) :
      y.effectOf a f kd r u i k (ofMsb d) = .ends .ok (y.stage ⟨.obj ⟨u, i, k⟩, ofMsb d, a⟩) := by
    unfold State.effectOf
    simp only [rws, State.stagedWrite, hy, if_neg notFabric, hb, Bool.false_eq_true, if_false]
  have busy : (s.wrote a u).stageBusy u = false := (State.any_commits_of_bare counted.commits (fun v => covers v u)).trans free
  rw [x.writeHere_passes (by omega) (by omega) (by rw [effect s rfl free]; rfl), counts,
    effect _ (counted.objs _ _ _ (by decide) (by decide) (by decide)) busy, Effect.reply, State.ranCode, rws]

theorem stagedWrite_joins {a : Agent} {path : List Nat} {u i k : Nat} {d : List Octet} {r : ObjRow} {s : State}
    (g : s.grants a path u i k d = true) (row : s.lookup a u i k = .ok r) (rws : r.access = .rws)
    (notFabric : ¬(u = 0x00D ∧ i = 0x1000 ∧ ofMsb d = 1 ∧ s.serial = 0)) (free : s.stageBusy u = false) :
    ∃ t, exec (.stagedWrite a path i k d) s = .next t ∧ t.result = ⟨a, some .ok, []⟩
      ∧ t.staged = ((s.wrote a u).stage ⟨.obj ⟨u, i, k⟩, ofMsb d, a⟩).staged ∧ t.rd u i k = s.rd u i k
      ∧ t.commits.map CommitOp.bare = s.commits.map CommitOp.bare := by
  obtain ⟨r', kd, t, x, ht, events⟩ := State.access_of_grants g
  have same := s.accessing_sameChecks a
  have rws' : r'.access = .rws := by rwa [x.row_eq ((same.lookup ..).trans row)]
  have idx := State.idx_of_rws x.row rws' x.scalar
  have counted := State.ButLeases.wrote (s.accessing a) a u
  rw [x.writeHere_staged rws' (by rwa [same.serial]) ((same.stageBusy u).trans free) false, State.stage_eq] at events
  refine ⟨t, ht, events.result, ?_, ?_, ?_⟩
  · exact events.staged.trans (State.stage_staged_congr (same.sameLeases.wrote a u).staged _)
  · have quiet := not_eventObj_of_idx u (show i < 0x4000 by omega)
    calc t.rd u i k = ((s.accessing a).wrote a u).rd u i k := events.objs u i k quiet.1 quiet.2
      _ = (s.accessing a).rd u i k := counted.objs u i k quiet.1 quiet.2 (by omega)
      _ = s.rd u i k := s.rd_accessing a k quiet.2
  · rw [events.commits]
    exact counted.commits.trans (congrArg _ same.commits)

/-- A COMMIT or DISCARD that meets a running commit ends with BUSY. -/
theorem State.access_busy {s : State} {a : Agent} {path : List Nat} {u i : Nat} (g : s.grants a path u i 0 [] = true) (idx : i = 0x0030 ∨ i = 0x0031)
    (running : s.commits.any (fun c => overlap c.unit u) = true) :
    ∃ t, s.access a path i 0 [] = .next t ∧ t.result = ⟨a, some .busy, []⟩ ∧ t.staged = s.staged ∧ t.commits = s.commits := by
  obtain ⟨up, here, r, kd, x⟩ := State.grants_iff.mp g
  have same := s.accessing_sameChecks a
  have x' := same.admits x
  have cmd := State.command_of_header x.row (show i ∈ [0x0006, 0x0012, 0x0013, 0x0014, 0x0030, 0x0031] by rcases idx with rfl | rfl <;> decide)
  have busy : (s.accessing a).effectOf a false kd r u i 0 (ofMsb []) = .refused .busy (s.accessing a) := by
    unfold State.effectOf
    rw [cmd]
    rcases idx with rfl | rfl
    · simp [State.command, State.commit, same.commits, running, Effect.later, Effect.told]
    · simp [State.command, State.discardSets, same.commits, running, Effect.told]
  refine ⟨_, State.access_refused up here (by decide) (x'.writeHere_refused (by omega) (by decide) busy), rfl, ?_, ?_⟩ <;> rw [State.awake_eq] <;> rfl

/-- A commit of the pending set of `u` has begun (R53). -/
def State.committing (s : State) (u : Nat) (a : Agent) : State :=
  { s.busyNow.wr u 0x0020 0 (if s.pendingOf u = [] then 2 else 1) with
    commits := s.commits ++ [⟨u, a, s.pendingOf u = [], s.pendingOf u, []⟩] }

theorem State.commit_of_free {s : State} {u : Nat} (a : Agent) (h : s.commits.any (fun c => overlap c.unit u) = false) :
    s.commit u a = (none, s.committing u a) := by
  unfold State.commit
  rw [h]
  rfl

theorem State.committing_commits (s : State) (u : Nat) (a : Agent) :
    (s.committing u a).commits = s.commits ++ [⟨u, a, (s.pendingOf u).isEmpty, s.pendingOf u, []⟩] := by
  have empty (l : List StagedWrite) : Decidable.decide (l = []) = l.isEmpty := by cases l <;> simp
  simp only [State.committing, empty]

theorem commit_runs {a : Agent} {path : List Nat} {u : Nat} {s : State} (g : s.grants a path u 0x0030 0 [] = true)
    (free : s.commits.any (fun c => overlap c.unit u) = false) :
    ∃ t, exec (.commit a path) s = .next t ∧ t.result = ⟨a, none, []⟩ ∧ t.staged = s.staged
      ∧ t.rd u 0x0020 0 = (if s.pendingOf u = [] then 2 else 1)
      ∧ t.commits.map CommitOp.bare = s.commits.map CommitOp.bare ++ [⟨u, a, (s.pendingOf u).isEmpty, s.pendingOf u, []⟩] := by
  obtain ⟨r, kd, t, x, ht, events⟩ := State.access_of_grants g
  have same := s.accessing_sameChecks a
  have cmd := State.command_of_header x.row (by decide)
  let y := (s.accessing a).committing u a
  have commits : y.commits = s.commits ++ [⟨u, a, (s.pendingOf u).isEmpty, s.pendingOf u, []⟩] := by
    rw [State.committing_commits, same.commits, same.pendingOf]
  have effect : (s.accessing a).effectOf a false kd r u 0x0030 0 (ofMsb []) = .waits y := by
    unfold State.effectOf
    simp only [cmd, State.command]
    rw [State.commit_of_free a (by rw [same.commits, free])]
    rfl
  have counted := State.ButLeases.wrote y a u
  have safe : ∀ w ∈ y.staged, covers u w.target.unit = true → y.inCommit w.target = true := by
    intro w hw under
    have pending : w ∈ s.pendingOf u := List.mem_filter.mpr ⟨same.staged ▸ hw, under⟩
    simp only [State.inCommit, commits, List.any_append, List.any_cons, List.any_nil, Bool.or_false, Bool.or_eq_true, List.any_eq_true,
      decide_eq_true_eq]
    exact .inr ⟨w, pending, rfl⟩
  rw [x.writeHere_commit (by rw [effect]; rfl), effect] at events
  refine ⟨t, ht, ?_, ?_, ?_, ?_⟩
  · refine events.result.trans ?_
    exact congrArg State.result (show y.wrote a u = _ from counted.fields)
  · exact events.staged.trans ((State.wrote_staged_of_inCommit a safe).trans same.staged)
  · have quiet := not_eventObj_of_idx u (show 0x0020 < 0x4000 by decide)
    refine (events.objs _ _ _ quiet.1 quiet.2).trans ((counted.objs _ _ _ quiet.1 quiet.2 (by decide)).trans ?_)
    rw [← same.pendingOf]
    exact State.rd_wr_self ..
  · rw [events.commits]
    refine counted.commits.trans ?_
    rw [commits, List.map_append]
    rfl

theorem discard_drops {a : Agent} {path : List Nat} {u : Nat} {s : State} (g : s.grants a path u 0x0031 0 [] = true)
    (free : s.commits.any (fun c => overlap c.unit u) = false) :
    ∃ t, exec (.discard a path) s = .next t ∧ t.result = ⟨a, some .ok, []⟩
      ∧ t.commits.map CommitOp.bare = s.commits.map CommitOp.bare ∧ t.staged = s.staged.filter (fun w => !covers u w.target.unit) := by
  obtain ⟨r, kd, t, x, ht, events⟩ := State.access_of_grants g
  have same := s.accessing_sameChecks a
  have cmd := State.command_of_header x.row (by decide)
  have effect (y : State) (hy : y.commits.any (fun c => overlap c.unit u) = false) :
      y.effectOf a false kd r u 0x0031 0 (ofMsb []) = .ends .ok { y with staged := y.staged.filter (fun w => !covers u w.target.unit) } := by
    unfold State.effectOf
    simp [cmd, State.command, State.discardSets, hy, Effect.told]
  have counts : (s.accessing a).counted a kd u 0x0031 = (s.accessing a).wrote a u := by
    rw [State.counted, if_neg]
    simp [exempt]
  have counted := State.ButLeases.wrote (s.accessing a) a u
  have here : (s.accessing a).commits.any (fun c => overlap c.unit u) = false := by rw [same.commits, free]
  rw [x.writeHere_passes (by omega) (by omega) (by rw [effect _ here]; rfl), counts,
    effect _ ((State.any_commits_of_bare counted.commits (fun v => overlap v u)).trans here)] at events
  simp only [Effect.reply, State.ranCode, cmd] at events
  refine ⟨t, ht, events.result, ?_, ?_⟩
  · rw [events.commits]
    exact counted.commits.trans (congrArg _ same.commits)
  · refine events.staged.trans ((State.filter_wrote_staged a fun w out under => ?_).trans (by rw [same.staged]))
    rw [under] at out
    cases out

end Sys2Proof.Machine
end

section
/-! The check of a commit and the boundary's application of accepted sets (O38). -/
namespace Sys2Proof.Machine

/-! ### The check does not look at the events held -/

/-- A state with other events held. -/
def State.heldAs (s : State) (l : Option (List HeldEvent)) : State := { s with evHold := l }

@[simp] theorem State.heldAs_mainUp (s : State) (l : Option (List HeldEvent)) : (s.heldAs l).mainUp = s.mainUp := rfl
@[simp] theorem State.heldAs_commits (s : State) (l : Option (List HeldEvent)) : (s.heldAs l).commits = s.commits := rfl
@[simp] theorem State.heldAs_acceptedWrites (s : State) (l : Option (List HeldEvent)) : (s.heldAs l).acceptedWrites = s.acceptedWrites := rfl

theorem State.holding_heldAs (s : State) : ∃ l, s.holding = s.heldAs l := ⟨_, s.holding_fields⟩

/-- What a command that gathers its events answers, but for them. -/
theorem gathered_next_of {s u : State} {f : State → Host.Outcome State Fault Refusal} {P : State → Prop} (h : f s.holding = .next u)
    (hp : ∀ t, u.ButEvents t → P t) : ∃ t, gathered s f = .next t ∧ P t := by
  obtain ⟨t, ht, events⟩ := gathered_next h
  exact ⟨t, ht, hp t events⟩

/-- What a command that gathers no event answers, exactly. -/
theorem gathered_eq_of {s u : State} {f : State → Host.Outcome State Fault Refusal} (h : f s.holding = .next u)
    (quiet : u.evHold = s.holding.evHold) : gathered s f = .next (u.heldAs s.evHold) := gathered_of_evHold h quiet

theorem State.applyWrite_heldAs (s : State) (l : Option (List HeldEvent)) (w : StagedWrite) :
    (s.heldAs l).applyWrite w = (s.applyWrite w).heldAs l := by
  unfold State.applyWrite
  split <;> rfl

theorem State.applyWrites_heldAs (s : State) (l : Option (List HeldEvent)) (ws : List StagedWrite) :
    (s.heldAs l).applyWrites ws = (s.applyWrites ws).heldAs l := by
  unfold State.applyWrites
  induction ws generalizing s with
  | nil => rfl
  | cons w ws ih => rw [List.foldl_cons, List.foldl_cons, State.applyWrite_heldAs, ih]

theorem raises_heldAs (tx : Bool) (c : State) (l : Option (List HeldEvent)) (ws : List StagedWrite) (i : Nat) :
    raises tx (c.heldAs l) ws i = raises tx c ws i := by
  induction ws generalizing c i with
  | nil => rfl
  | cons w ws ih =>
    unfold raises
    simp only [State.applyWrite_heldAs, ih]
    rfl

theorem calendarOffender_heldAs (c : State) (l : Option (List HeldEvent)) (ws : List StagedWrite) :
    calendarOffender (c.heldAs l) ws = calendarOffender c ws := by
  unfold calendarOffender
  simp only [State.applyWrites_heldAs, raises_heldAs]
  rfl

theorem cutEntry_heldAs (c : State) (l : Option (List HeldEvent)) (ep cycle : Nat) (ks : List Nat) (start : Nat) :
    cutEntry (c.heldAs l) ep cycle ks start = cutEntry c ep cycle ks start := by
  induction ks generalizing start with
  | nil => rfl
  | cons k ks ih =>
    unfold cutEntry
    simp only [ih]
    rfl

theorem timerParts_heldAs (c : State) (l : Option (List HeldEvent)) (ep : Nat) : timerParts (c.heldAs l) ep = timerParts c ep := by
  unfold timerParts
  simp only [cutEntry_heldAs]
  rfl

theorem checkCommit_heldAs (c : State) (l : Option (List HeldEvent)) (ws : List StagedWrite) :
    checkCommit (c.heldAs l) ws = checkCommit c ws := by
  unfold checkCommit
  simp only [State.applyWrites_heldAs, calendarOffender_heldAs, show timerParts ((c.applyWrites ws).heldAs l) = _ from funext (timerParts_heldAs _ l)]
  rfl

/-! ### COMMIT_CHECK_DONE -/

theorem commitCheckDone_accepts {unit : Nat} {c : CommitOp} {s : State} (up : s.mainUp = true)
    (found : s.commits.find? (fun c => c.unit = unit && !c.accepted) = some c)
    (good : checkCommit (s.applyWrites s.acceptedWrites) c.writes = none) :
    exec (.commitCheckDone unit) s = .next { s.wr unit 0x0020 0 2 with
      commits := s.commits.map (fun x => if x = c then { x with accepted := true } else x) } := by
  obtain ⟨l, held⟩ := s.holding_heldAs
  have good' : checkCommit ((s.heldAs l).applyWrites s.acceptedWrites) c.writes = none := by
    rw [State.applyWrites_heldAs, checkCommit_heldAs, good]
  show execCommitCheckDone unit s = _
  unfold execCommitCheckDone
  rw [gathered_eq_of (u := { (s.heldAs l).wr unit 0x0020 0 2 with
    commits := s.commits.map (fun x => if x = c then { x with accepted := true } else x) })]
  · rfl
  · rw [held]
    simp only [State.heldAs_commits, State.heldAs_mainUp,
      State.heldAs_acceptedWrites, found, up, good', if_true]
  · rw [held]
    rfl

/-- The refused commit has told its result where its unit holds it (R54). -/
theorem State.rd_unitResult (s : State) (u : Nat) (c : Abort) (unit idx sub : Nat) :
    (s.unitResult u c unit idx sub).rd u 0x0020 0 = s.rd u 0x0020 0 ∧ (s.unitResult u c unit idx sub).rd u 0x0020 1 = c.code
      ∧ (s.unitResult u c unit idx sub).rd u 0x0020 2 = unit ∧ (s.unitResult u c unit idx sub).rd u 0x0020 3 = idx
      ∧ (s.unitResult u c unit idx sub).rd u 0x0020 4 = sub := by
  simp [State.unitResult, State.rd_wr]

/-- What a unit keeps of a commit that is refused. -/
theorem State.commitRefused_facts (s : State) (c : CommitOp) (code : Abort) (x : StagedTarget) :
    (s.commitRefused c code x).result = ⟨c.agent, some code, []⟩ ∧ (s.commitRefused c code x).commits = s.commits.erase c
      ∧ (s.commitRefused c code x).rd c.unit 0x0020 0 = 0 ∧ (s.commitRefused c code x).rd c.unit 0x0020 1 = code.code
      ∧ (s.commitRefused c code x).rd c.unit 0x0020 2 = x.place.1 ∧ (s.commitRefused c code x).rd c.unit 0x0020 3 = x.place.2.1
      ∧ (s.commitRefused c code x).rd c.unit 0x0020 4 = x.place.2.2 ∧ (s.commitRefused c code x).rd c.unit 0x0030 0 = code.code := by
  unfold State.commitRefused
  extract_lets s1 p
  have told := State.Told.finish ((((s1.wr c.unit 0x0020 0 0).unitResult c.unit code p.1 p.2.1 p.2.2).latch c.unit 1).ran c.unit 0x0030 code)
    c.agent code []
  obtain ⟨r0, r1, r2, r3, r4⟩ := State.rd_unitResult (s1.wr c.unit 0x0020 0 0) c.unit code p.1 p.2.1 p.2.2
  have held (k v : Nat) (h : ((s1.wr c.unit 0x0020 0 0).unitResult c.unit code p.1 p.2.1 p.2.2).rd c.unit 0x0020 k = v) :=
    (told.objs c.unit 0x0020 k (by decide) (by decide)).trans
      ((State.rd_wr_ne _ _ (by omega)).trans ((State.rd_wr_ne _ _ (by omega)).trans h))
  exact ⟨State.finish_result .., told.commits, held 0 _ (r0.trans (State.rd_wr_self ..)), held 1 _ r1, held 2 _ r2, held 3 _ r3, held 4 _ r4,
    (told.objs c.unit 0x0030 0 (by decide) (by decide)).trans (State.rd_wr_self ..)⟩

theorem commitCheckDone_refuses {unit : Nat} {c : CommitOp} {s : State} {code : Abort} {x : StagedTarget} (up : s.mainUp = true)
    (found : s.commits.find? (fun c => c.unit = unit && !c.accepted) = some c)
    (bad : checkCommit (s.applyWrites s.acceptedWrites) c.writes = some (code, x)) :
    ∃ t, exec (.commitCheckDone unit) s = .next t ∧ t.result = ⟨c.agent, some code, []⟩ ∧ t.commits = s.commits.erase c
      ∧ t.rd unit 0x0020 0 = 0 ∧ t.rd unit 0x0020 1 = code.code ∧ t.rd unit 0x0020 2 = x.place.1 ∧ t.rd unit 0x0020 3 = x.place.2.1
      ∧ t.rd unit 0x0020 4 = x.place.2.2 ∧ t.rd unit 0x0030 0 = code.code := by
  obtain ⟨l, held⟩ := s.holding_heldAs
  have bad' : checkCommit ((s.heldAs l).applyWrites s.acceptedWrites) c.writes = some (code, x) := by
    rw [State.applyWrites_heldAs, checkCommit_heldAs, bad]
  show ∃ t, execCommitCheckDone unit s = .next t ∧ _
  unfold execCommitCheckDone
  refine gathered_next_of (u := (s.heldAs l).commitRefused c code x) ?_ fun t events => ?_
  · rw [held]
    simp only [State.heldAs_commits, State.heldAs_mainUp,
      State.heldAs_acceptedWrites, found, up, bad', if_true]
  have unit_eq : c.unit = unit := by
    have := List.find?_some found
    simp only [Bool.and_eq_true, decide_eq_true_eq] at this
    exact this.1
  obtain ⟨result, commits, r0, r1, r2, r3, r4, ran⟩ := (s.heldAs l).commitRefused_facts c code x
  have kept (i k : Nat) (h : i < 0x4000) := events.objs c.unit i k (not_eventObj_of_idx c.unit h).1 (not_eventObj_of_idx c.unit h).2
  rw [← unit_eq]
  exact ⟨events.result.trans result, events.commits.trans commits, (kept _ _ (by decide)).trans r0, (kept _ _ (by decide)).trans r1,
    (kept _ _ (by decide)).trans r2, (kept _ _ (by decide)).trans r3, (kept _ _ (by decide)).trans r4, (kept _ _ (by decide)).trans ran⟩

/-! ### COMMIT_APPLY -/

/-- A pending write of a staged object of root or of a group, but for enable of the fabric. -/
def StagedWrite.ofRoot (w : StagedWrite) : Prop :=
  ∃ u i k, w.target = .obj ⟨u, i, k⟩ ∧ u < 0x100 ∧ ¬(u = 0x00D ∧ i = 0x1000) ∧ 0x1000 ≤ i ∧ i < 0x2000

theorem State.applyWrite_of_target {s : State} {w : StagedWrite} {u i k : Nat} (h : w.target = .obj ⟨u, i, k⟩) :
    s.applyWrite w = s.wr u i k w.value := by
  unfold State.applyWrite
  rw [h]

theorem State.applyWrites_eq_obj {ws : List StagedWrite} (h : ∀ w ∈ ws, w.ofRoot) (s : State) :
    s.applyWrites ws = { s with obj := (s.applyWrites ws).obj } := by
  unfold State.applyWrites
  induction ws generalizing s with
  | nil => rfl
  | cons w ws ih =>
    obtain ⟨u, i, k, target, -⟩ := h w List.mem_cons_self
    have one := ih (fun x hx => h x (List.mem_cons_of_mem _ hx)) (s.applyWrite w)
    rw [List.foldl_cons, one, State.applyWrite_of_target target]
    rfl

/-- An object that no write names is as before. -/
theorem State.rd_applyWrites_ne {ws : List StagedWrite} (h : ∀ w ∈ ws, w.ofRoot) (s : State) {u i k : Nat}
    (other : ∀ w ∈ ws, w.target ≠ .obj ⟨u, i, k⟩) : (s.applyWrites ws).rd u i k = s.rd u i k := by
  unfold State.applyWrites
  induction ws generalizing s with
  | nil => rfl
  | cons w ws ih =>
    obtain ⟨v, j, l, target, -⟩ := h w List.mem_cons_self
    rw [List.foldl_cons, ih (fun x hx => h x (List.mem_cons_of_mem _ hx)) _ (fun x hx => other x (List.mem_cons_of_mem _ hx)),
      State.applyWrite_of_target target]
    refine State.rd_wr_ne s _ fun e => other w List.mem_cons_self ?_
    rw [target, e.1, e.2.1, e.2.2]

/-- An object that one write names has its value. -/
theorem State.rd_applyWrites_of_mem {ws : List StagedWrite} (h : ∀ w ∈ ws, w.ofRoot) (s : State) {w : StagedWrite} (hw : w ∈ ws) {u i k : Nat}
    (target : w.target = .obj ⟨u, i, k⟩) (unique : ∀ x ∈ ws, x.target = w.target → x = w) : (s.applyWrites ws).rd u i k = w.value := by
  induction ws generalizing s with
  | nil => cases hw
  | cons x ws ih =>
    have h' : ∀ y ∈ ws, y.ofRoot := fun y hy => h y (List.mem_cons_of_mem _ hy)
    show ((s.applyWrite x).applyWrites ws).rd u i k = w.value
    by_cases later : w ∈ ws
    · exact ih h' _ later fun y hy => unique y (List.mem_cons_of_mem _ hy)
    · have here : w = x := (List.mem_cons.mp hw).resolve_right later
      rw [State.rd_applyWrites_ne h' _ fun y hy e => later (unique y (List.mem_cons_of_mem _ hy) (e.trans target.symm) ▸ hy), ← here,
        State.applyWrite_of_target target, State.rd_wr_self]

/-- Such writes change no object of a lane, a channel or an air link, and not enable of the fabric. -/
theorem differs_applyWrites {ws : List StagedWrite} (h : ∀ w ∈ ws, w.ofRoot) (s : State) {u i : Nat} (k : Nat)
    (other : 0x100 ≤ u ∨ (u = 0x00D ∧ i = 0x1000)) : differs s (s.applyWrites ws) u i k = false := by
  unfold differs
  rw [State.rd_applyWrites_ne h s]
  · simp
  · intro w hw e
    obtain ⟨v, j, l, target, low, notFabric, -⟩ := h w hw
    rw [target] at e
    injection e with e
    injection e with hu hi _
    rcases other with other | other
    · omega
    · exact notFabric ⟨hu.trans other.1, hi.trans other.2⟩

theorem gateEps_of_root {ws : List StagedWrite} (h : ∀ w ∈ ws, w.ofRoot) : gateEps ws = [] := by
  have none_ : ws.filterMap (fun w => match w.target with
      | .ent a => if a.unit = 0x00A ∧ a.idx = 0x6002 then some a.entry else if a.unit = 0x00A ∧ 0x6100 ≤ a.idx then some (a.idx - 0x6100) else none
      | .obj _ => none) = [] := by
    rw [List.filterMap_eq_nil_iff]
    intro w hw
    obtain ⟨u, i, k, target, -⟩ := h w hw
    rw [target]
  unfold gateEps
  exact congrArg List.eraseDups none_

theorem State.accountsCommit_of_applyWrites {ws : List StagedWrite} (h : ∀ w ∈ ws, w.ofRoot) (s : State) (ch : Nat) :
    State.accountsCommit s (s.applyWrites ws) ch = s.applyWrites ws := by
  have quiet (i k : Nat) : differs s (s.applyWrites ws) (chUnit ch) i k = false :=
    differs_applyWrites h s k (.inl (by unfold chUnit; omega))
  simp [State.accountsCommit, quiet]

theorem State.rebuild_eq (s : State) : s.rebuild = { s with tab := s.rebuild.tab } := by
  have puts (i : Nat) (l : List (Nat × Nat)) (s : State) :
      l.foldl (fun (s : State) p => s.setEnt 0x000 i p.2 p.1) s
        = { s with tab := (l.foldl (fun (s : State) p => s.setEnt 0x000 i p.2 p.1) s).tab } := by
    induction l generalizing s with
    | nil => rfl
    | cons p l ih => rw [List.foldl_cons, ih]; rfl
  unfold State.rebuild
  dsimp only
  rw [puts, puts 0x6000]

theorem State.fifoTurn_eq (s : State) : s.fifoTurn = { s with hid := s.fifoTurn.hid, fifo := s.fifoTurn.fifo } := by
  have turned (l : List Nat) (s : State) (t : State → Nat) :
      l.foldl (fun (s : State) n => s.fifoTo n (t s)) s
        = { s with
            hid := (l.foldl (fun (s : State) n => s.fifoTo n (t s)) s).hid, fifo := (l.foldl (fun (s : State) n => s.fifoTo n (t s)) s).fifo } := by
    induction l generalizing s with
    | nil => rfl
    | cons p l ih => rw [List.foldl_cons, ih]; rfl
  unfold State.fifoTurn
  dsimp only
  rw [turned]

/-- Sets that write only objects of root and the groups change the objects as written, and no commit. -/
theorem State.applySets_of_root {ws : List StagedWrite} (h : ∀ w ∈ ws, w.ofRoot) (s : State) :
    (∀ u i k, (s.applySets ws).rd u i k = (s.applyWrites ws).rd u i k) ∧ (s.applySets ws).commits = s.commits := by
  have quiet {u : Nat} (i k : Nat) (hu : 0x100 ≤ u) : differs s (s.applyWrites ws) u i k = false := differs_applyWrites h s k (.inl hu)
  have fabric : differs s (s.applyWrites ws) 0x00D 0x1000 0 = false := differs_applyWrites h s 0 (.inr ⟨rfl, rfl⟩)
  have noLane : laneDiffers s (s.applyWrites ws) = fun _ => false := by
    funext n
    simp [laneDiffers, quiet _ _ (show 0x100 ≤ lnUnit n by unfold lnUnit; omega)]
  have noChannel (i k ch : Nat) : differs s (s.applyWrites ws) (chUnit ch) i k = false := quiet i k (by unfold chUnit; omega)
  have noAir (i k n : Nat) : differs s (s.applyWrites ws) (alUnit n) i k = false := quiet i k (by unfold alUnit; omega)
  have accounts (l : List Nat) : l.foldl (fun t c => State.accountsCommit s t c) (s.applyWrites ws) = s.applyWrites ws := by
    induction l with
    | nil => rfl
    | cons ch l ih => rw [List.foldl_cons, State.accountsCommit_of_applyWrites h, ih]
  have turned (t : State) : (∀ u i k, t.fifoTurn.rebuild.rd u i k = t.rd u i k) ∧ t.fifoTurn.rebuild.commits = t.commits := by
    rw [State.rebuild_eq, State.fifoTurn_eq]
    exact ⟨fun _ _ _ => rfl, rfl⟩
  have applied : (s.applyWrites ws).commits = s.commits := by rw [State.applyWrites_eq_obj h]
  unfold State.applySets
  simp only [noLane, noChannel, noAir, fabric, gateEps_of_root h, Bool.false_and, Bool.and_false, Bool.or_false, List.filter_false, List.foldl_nil,
    List.contains_nil, accounts, Bool.false_eq_true, if_false]
  split_ifs <;> simp [turned, applied]

/-- The unit of a commit that has ended with OK holds it: commit_state IDLE, code OK in commit_result and in the command. -/
def State.endedOk (s : State) (u : Nat) : Prop := s.rd u 0x0020 0 = 0 ∧ s.rd u 0x0020 1 = 0 ∧ s.rd u 0x0030 0 = 0

theorem State.rd_unitResult_ne (s : State) (v : Nat) (c : Abort) (unit idx sub : Nat) {u i : Nat} (k : Nat) (h : ¬(u = v ∧ i = 0x0020)) :
    (s.unitResult v c unit idx sub).rd u i k = s.rd u i k := by
  simp only [State.unitResult, State.rd_wr, ← and_assoc, h, false_and, if_false]

/-- The objects of the header and the staged ones where a commit has ended. -/
theorem State.rd_commitEnd (s : State) (c : CommitOp) {u i : Nat} (k : Nat) (hi : i < 0x4000) (h5 : i ≠ 0x0005) :
    (s.commitEnd c).rd u i k = if u = c.unit ∧ i = 0x0030 ∧ k = 0 then 0 else ((s.wr c.unit 0x0020 0 0).unitResult c.unit .ok 0 0 0).rd u i k := by
  unfold State.commitEnd
  rw [(State.Told.finish _ c.agent .ok []).objs u i k hi h5]
  exact State.rd_wr ..

theorem State.rd_commitEnd_ne (s : State) (c : CommitOp) {u i : Nat} (k : Nat) (hi : i < 0x4000) (h5 : i ≠ 0x0005)
    (h : u ≠ c.unit ∨ i ≠ 0x0020 ∧ i ≠ 0x0030) : (s.commitEnd c).rd u i k = s.rd u i k := by
  rw [s.rd_commitEnd c k hi h5, if_neg fun e => h.elim (fun h => h e.1) (fun h => h.2 e.2.1),
    State.rd_unitResult_ne _ _ _ _ _ _ k fun e => h.elim (fun h => h e.1) (fun h => h.1 e.2)]
  exact State.rd_wr_ne s _ fun e => h.elim (fun h => h e.1) (fun h => h.1 e.2.1)

theorem State.commitEnd_endedOk (s : State) (c : CommitOp) : (s.commitEnd c).endedOk c.unit := by
  obtain ⟨r0, r1, -⟩ := State.rd_unitResult (s.wr c.unit 0x0020 0 0) c.unit .ok 0 0 0
  refine ⟨?_, ?_, ?_⟩
  · rw [s.rd_commitEnd c 0 (by decide) (by decide), if_neg fun e => absurd e.2.1 (by decide), r0, State.rd_wr_self]
  · rw [s.rd_commitEnd c 1 (by decide) (by decide), if_neg fun e => absurd e.2.1 (by decide), r1]
    rfl
  · rw [s.rd_commitEnd c 0 (by decide) (by decide), if_pos ⟨rfl, rfl, rfl⟩]

/-- A unit that has ended a commit with OK still shows it when another ends. -/
theorem State.endedOk_commitEnd {s : State} {u : Nat} (h : s.endedOk u) (c : CommitOp) : (s.commitEnd c).endedOk u := by
  by_cases same : u = c.unit
  · exact same ▸ s.commitEnd_endedOk c
  · obtain ⟨h0, h1, h2⟩ := h
    exact ⟨(s.rd_commitEnd_ne c 0 (by decide) (by decide) (.inl same)).trans h0,
      (s.rd_commitEnd_ne c 1 (by decide) (by decide) (.inl same)).trans h1, (s.rd_commitEnd_ne c 0 (by decide) (by decide) (.inl same)).trans h2⟩

theorem State.commitEnd_commits (s : State) (c : CommitOp) : (s.commitEnd c).commits = s.commits := by
  unfold State.commitEnd
  rw [(State.Told.finish _ c.agent .ok []).commits]
  rfl

/-- The commits of a boundary end one after the other. -/
theorem State.commitEnds_facts (done : List CommitOp) (s : State) :
    (done.foldl State.commitEnd s).commits = s.commits
      ∧ (∀ u, (s.endedOk u ∨ ∃ c ∈ done, c.unit = u) → (done.foldl State.commitEnd s).endedOk u)
      ∧ ∀ u i k, 0x1000 ≤ i → i < 0x2000 → (done.foldl State.commitEnd s).rd u i k = s.rd u i k := by
  induction done generalizing s with
  | nil => exact ⟨rfl, fun u h => h.resolve_right (by simp), fun _ _ _ _ _ => rfl⟩
  | cons c done ih =>
    obtain ⟨commits', ends, objs'⟩ := ih (s.commitEnd c)
    refine ⟨commits'.trans (s.commitEnd_commits c), fun u h => ends u ?_, fun u i k lo hi => (objs' u i k lo hi).trans
      (s.rd_commitEnd_ne c k (by omega) (by omega) (.inr (by omega)))⟩
    rcases h with h | ⟨x, hx, rfl⟩
    · exact .inl (State.endedOk_commitEnd h c)
    · rcases List.mem_cons.mp hx with rfl | hx
      · exact .inl (s.commitEnd_endedOk x)
      · exact .inr ⟨x, hx, rfl⟩

theorem commitApply_idle {s : State} (up : s.mainUp = true) (none_ : ∀ c ∈ s.commits, c.accepted = false) : exec .commitApply s = .next s := by
  obtain ⟨l, held⟩ := s.holding_heldAs
  have idle : (s.heldAs l).commits.filter CommitOp.accepted = [] :=
    List.filter_eq_nil_iff.mpr fun c hc => by simp [none_ c hc]
  show execCommitApply s = _
  unfold execCommitApply
  rw [gathered_eq_of (u := s.holding) _ rfl]
  · rw [held]
    rfl
  · rw [held]
    simp only [State.heldAs_mainUp, up, if_true, State.commitStep, idle]

theorem commitApply_applies {s : State} (up : s.mainUp = true) (some_ : ∃ c ∈ s.commits, c.accepted = true)
    (root : ∀ w ∈ s.acceptedWrites, w.ofRoot) :
    ∃ t, exec .commitApply s = .next t ∧ t.commits = s.commits.filter (fun c => !c.accepted)
      ∧ (∀ c ∈ s.commits, c.accepted = true → t.endedOk c.unit)
      ∧ (∀ w ∈ s.acceptedWrites, ∀ u i k, w.target = .obj ⟨u, i, k⟩ → (∀ x ∈ s.acceptedWrites, x.target = w.target → x = w) →
        t.rd u i k = w.value) := by
  obtain ⟨l, held⟩ := s.holding_heldAs
  let ready : State := { s.heldAs l with
    commits := s.commits.filter (fun c => !c.accepted), staged := s.staged.filter (fun w => !s.acceptedWrites.contains w) }
  have busy : s.commits.filter CommitOp.accepted ≠ [] := by
    obtain ⟨c, hc, acc⟩ := some_
    exact List.ne_nil_of_mem (List.mem_filter.mpr ⟨hc, acc⟩)
  obtain ⟨objs, commits⟩ := State.applySets_of_root root ready
  obtain ⟨commits', ends, objs'⟩ := State.commitEnds_facts (s.commits.filter CommitOp.accepted) (ready.applySets s.acceptedWrites)
  show ∃ t, execCommitApply s = .next t ∧ _
  unfold execCommitApply
  refine gathered_next_of (u := (s.commits.filter CommitOp.accepted).foldl State.commitEnd (ready.applySets s.acceptedWrites)) ?_ fun t events => ?_
  · rw [held]
    simp only [State.heldAs_mainUp, up, if_true, State.commitStep, if_neg (show (s.heldAs l).commits.filter CommitOp.accepted ≠ [] from busy)]
    rfl
  · have kept (u i k : Nat) (h : i < 0x4000) := events.objs u i k (not_eventObj_of_idx u h).1 (not_eventObj_of_idx u h).2
    refine ⟨events.commits.trans (commits'.trans commits), fun c hc acc => ?_, fun w hw u i k target unique => ?_⟩
    · obtain ⟨h0, h1, h2⟩ := ends c.unit (.inr ⟨c, List.mem_filter.mpr ⟨hc, acc⟩, rfl⟩)
      exact ⟨(kept _ _ _ (by decide)).trans h0, (kept _ _ _ (by decide)).trans h1, (kept _ _ _ (by decide)).trans h2⟩
    · obtain ⟨v, j, m, target', -, -, lo, hi⟩ := root w hw
      obtain ⟨-, rfl, -⟩ : v = u ∧ j = i ∧ m = k := by simpa using target'.symm.trans target
      rw [kept u j k (by omega), objs' u j k lo hi, objs, State.rd_applyWrites_of_mem root ready hw target unique]

end Sys2Proof.Machine
open Sys2Proof Sys2Proof.Machine

/-- Settles O38: the access path for the three accesses, the check's outcome, and the boundary, where sets of root and groups change objects
alone. -/
theorem stagedWritesTakeEffectTogether : Obligations.StagedWritesTakeEffectTogether :=
  ⟨fun _ _ _ _ _ _ _ _ g row rws notFabric free => stagedWrite_joins g row rws notFabric free,
    fun _ _ _ _ g => ⟨commit_runs g, State.access_busy g (.inl rfl)⟩,
    fun _ _ _ _ g => ⟨discard_drops g, State.access_busy g (.inr rfl)⟩,
    fun _ _ _ up found => ⟨commitCheckDone_accepts up found, fun _ _ bad => commitCheckDone_refuses up found bad⟩,
    fun _ up none_ => commitApply_idle up none_, fun _ up some_ root => commitApply_applies up some_ root⟩

end

section
/-! The mailboxes of the host window (O46). -/
namespace Sys2Proof.Machine

/-! ### A GO write -/

theorem State.wake_heldAs (s : State) (l : Option (List HeldEvent)) : (s.heldAs l).wake = s.wake.heldAs l := by
  unfold State.wake
  exact apply_ite (fun t => State.heldAs t l) (s.mode = 2) (s.wr 0x001 0x5000 0 1) s |>.symm

/-- The state in which the request of a mailbox is served (R63): BUSY, its words sampled. -/
def State.mbBegun (s : State) (p : Nat) (w : MbWords) : State :=
  { s.holding.wake.busyNow.setMailbox p ⟨heldWords w, true, false, false, (s.mailbox p).abort, 0⟩ with result := ⟨⟨.host, p⟩, none, []⟩ }

theorem State.mbBegun_eq (s : State) (p : Nat) (w : MbWords) : s.mbBegun p w = { s.wake.busyNow with
    mailboxes := s.mailboxes.set p ⟨heldWords w, true, false, false, (s.mailbox p).abort, 0⟩ noMailbox, evHold := s.holding.evHold
    result := ⟨⟨.host, p⟩, none, []⟩ } := by
  unfold State.mbBegun
  rw [State.holding_fields]
  show _ = _
  rw [show ({ s with evHold := s.holding.evHold } : State) = s.heldAs s.holding.evHold from rfl, State.wake_heldAs, State.wake_eq]
  rfl

theorem State.mbBegun_sameChecks (s : State) (p : Nat) (w : MbWords) : s.SameChecks (s.mbBegun p w) := by
  rw [State.mbBegun_eq]
  constructor
  case objs => exact fun u i k h _ => s.rd_wake k fun e => h e.1
  all_goals rw [State.wake_eq]; rfl

/-- A mailbox that has begun holds its words, BUSY. -/
theorem State.mailbox_mbBegun (s : State) (p : Nat) (w : MbWords) :
    (s.mbBegun p w).mailbox p = ⟨heldWords w, true, false, false, (s.mailbox p).abort, 0⟩ := by
  rw [State.mbBegun_eq]
  exact Map.get_set_self ..

/-- The OP that is held is the one written. -/
theorem mbOp_heldWords (w : MbWords) : field (heldWords w).cmd 2 2 = mbOp w := by
  show field (field w.cmd 36 28 * 2 ^ 36 + field w.cmd 16 16 * 2 ^ 16 + field w.cmd 2 2 * 4) 2 2 = field w.cmd 2 2
  have lt : field w.cmd 2 2 < 4 := Nat.mod_lt _ (by decide)
  generalize field w.cmd 36 28 = a, field w.cmd 16 16 = b, field w.cmd 2 2 = c at lt ⊢
  rw [field, Nat.shiftRight_eq_div_pow]
  omega

/-- The words of a request that has ended (R64): what a READ returns, and what a failed WRITE returns. -/
def endWords (w : MbWords) (c : Abort) (d : List Octet) : MbWords :=
  let turned := turnReply ((mbPath w).getD []) (mbIndex w) (mbSub w) (mbOp w = 1) c d
  if mbOp w = 1 || turned ≠ [] then { heldWords w with dataA := ofLsb (turned.take 8), dataB := ofLsb ((turned.drop 8).take 8) } else heldWords w

/-- A request that ends within its GO: its mailbox holds the end, still BUSY. -/
theorem State.mailbox_mbTold {y : State} {p ab : Nat} {w : MbWords} (begun : y.mailbox p = ⟨heldWords w, true, false, false, ab, 0⟩) (c : Abort)
    (d : List Octet) :
    (y.mbTold p w c d).mailbox p = ⟨endWords w c d, true, true, false, c.code, 0⟩ ∧ (y.mbTold p w c d).result = y.result
      ∧ (y.mbTold p w c d).staged = y.staged ∧ (y.mbTold p w c d).leases = y.leases := by
  unfold State.mbTold
  simp only [begun, Bool.not_false, Bool.and_self, if_true]
  refine ⟨?_, rfl, rfl, rfl⟩
  unfold State.mailboxEnd
  simp only [begun, mbOp_heldWords]
  exact Map.get_set_self ..

/-- An access of a mailbox whose request ends within its GO, whichever of the two commands it is. -/
theorem mailboxGo_ends {p : Nat} {w : MbWords} {s y : State} {c : Abort} {d : List Octet} (up : s.mainUp = true) (hp : p < 8)
    (idle : (s.mailbox p).busy = false) (go : w.cmd.testBit 0 = true) (served : (s.mbBegun p w).mbServe p w = ⟨some c, d, y⟩)
    (kept : y.mailboxes = (s.mbBegun p w).mailboxes) :
    ∃ t, execMailboxRead p ⟨w, true⟩ s = .next t ∧ t.mailbox p = ⟨endWords w c d, true, true, false, c.code, 0⟩
      ∧ t.result = ⟨⟨.host, p⟩, some c, d⟩ ∧ t.staged = y.staged ∧ t.leases = y.leases := by
  have begun : (y.complete ⟨.host, p⟩ c d).mailbox p = ⟨heldWords w, true, false, false, (s.mailbox p).abort, 0⟩ := by
    rw [← s.mailbox_mbBegun p w]
    exact congrArg (fun m => Map.get m p noMailbox) kept
  obtain ⟨mailbox, result, staged, leases⟩ := State.mailbox_mbTold begun c d
  unfold execMailboxRead
  refine gathered_next_of (u := (y.complete ⟨.host, p⟩ c d).mbTold p w c d) ?_ fun t events => ?_
  · have idle' : (s.holding.wake.mailbox p).busy = false := by
      rw [State.wake_eq, State.holding_fields]
      exact idle
    have abort : (s.holding.wake.busyNow.mailbox p).abort = (s.mailbox p).abort := by
      rw [State.wake_eq, State.holding_fields]
      rfl
    have served' : State.mbServe { s.holding.wake.busyNow.setMailbox p ⟨heldWords w, true, false, false,
        (s.holding.wake.busyNow.mailbox p).abort, 0⟩ with result := ⟨⟨.host, p⟩, none, []⟩ } p w = ⟨some c, d, y⟩ := abort ▸ served
    simp only [State.holding_mainUp, up, hp, and_self, if_true, State.mbCommand, idle', Bool.false_eq_true, if_false, go, State.mbGo, served']
  · refine ⟨?_, events.result.trans result, events.staged.trans staged, events.leases.trans leases⟩
    rw [← mailbox, events.fields]
    rfl

/-- A GO on a mailbox that is BUSY only counts. -/
theorem mailboxBusy_counts {p : Nat} {w : MbWords} {s : State} (up : s.mainUp = true) (hp : p < 8) (busy : (s.mailbox p).busy = true)
    (go : w.cmd.testBit 0 = true) :
    execMailboxRead p ⟨w, true⟩ s = .next (s.wake.setMailbox p { s.mailbox p with attempt := min 0xFFFF ((s.mailbox p).attempt + 1) }) := by
  have same (l : Option (List HeldEvent)) : (s.wake.heldAs l).mailbox p = s.mailbox p := by rw [State.wake_eq]; rfl
  obtain ⟨l, held⟩ := s.holding_heldAs
  unfold execMailboxRead
  rw [gathered_eq_of (u := (s.wake.heldAs l).setMailbox p { s.mailbox p with attempt := min 0xFFFF ((s.mailbox p).attempt + 1) })]
  · rw [State.wake_eq]
    rfl
  · simp only [held, State.heldAs_mainUp, up, hp, and_self, if_true, State.wake_heldAs, State.mbCommand, same, busy, go]
  · rw [held]
    rfl

/-- An access of another width only wakes. -/
theorem mailboxNarrow_wakes {p : Nat} {w : MbWords} {s : State} (up : s.mainUp = true) (hp : p < 8) :
    execMailboxRead p ⟨w, false⟩ s = .next s.wake := by
  obtain ⟨l, held⟩ := s.holding_heldAs
  unfold execMailboxRead
  rw [gathered_eq_of (u := s.wake.heldAs l)]
  · rw [State.wake_eq]
    rfl
  · simp only [held, State.heldAs_mainUp, up, hp, and_self, if_true, State.wake_heldAs, Bool.false_eq_true, if_false]
  · rw [held]
    rfl

theorem mailbox_noUnit {p u : Nat} {w : MbWords} {s : State} (up : s.mainUp = true) (hp : p < 8) (idle : (s.mailbox p).busy = false)
    (go : w.cmd.testBit 0 = true) (op : mbOp w = 2) (absent : s.resolvePath ((mbPath w).getD []) = .absent u) :
    ∃ t, execMailboxRead p ⟨w, true⟩ s = .next t ∧ t.mailbox p = ⟨heldWords w, true, true, false, Abort.noUnit.code, 0⟩
      ∧ t.result = ⟨⟨.host, p⟩, some .noUnit, []⟩ ∧ t.staged = s.staged ∧ t.leases = s.leases := by
  have same := s.mbBegun_sameChecks p w
  have path := (same.resolvePath _).trans absent
  have served : (s.mbBegun p w).mbServe p w = ⟨some .noUnit, [], (s.mbBegun p w).latch u 3⟩ := by
    simp only [State.mbServe, op, State.mbWrite, State.writePath, path]
    rfl
  obtain ⟨t, ht, mailbox, result, staged, leases⟩ := mailboxGo_ends up hp idle go served rfl
  have words : endWords w .noUnit [] = heldWords w := by simp [endWords, op, turnReply]
  exact ⟨t, ht, words ▸ mailbox, result, staged.trans same.staged, leases.trans same.leases⟩

theorem mailbox_reads {p u : Nat} {w : MbWords} {r : ObjRow} {s : State} (up : s.mainUp = true) (hp : p < 8) (idle : (s.mailbox p).busy = false)
    (go : w.cmd.testBit 0 = true) (op : mbOp w = 1) (here : s.resolvePath ((mbPath w).getD []) = .here u)
    (row : s.lookup ⟨.host, p⟩ u (mbIndex w) (mbSub w) = .ok r) (readable : r.access ≠ .wo) (scalar : r.type ≠ .table)
    (own : forwarded u (mbIndex w) = false) (noPort : u ≠ 0x00E) :
    ∃ t, execMailboxRead p ⟨w, true⟩ s = .next t
      ∧ t.mailbox p = ⟨endWords w .ok (s.wake.busyNow.readOctets u (mbIndex w) (mbSub w) r.type), true, true, false, 0, 0⟩
      ∧ t.result = ⟨⟨.host, p⟩, some .ok, s.wake.busyNow.readOctets u (mbIndex w) (mbSub w) r.type⟩ := by
  have same := s.mbBegun_sameChecks p w
  have path := (same.resolvePath _).trans here
  have octets : (s.mbBegun p w).readOctets u (mbIndex w) (mbSub w) r.type = s.wake.busyNow.readOctets u (mbIndex w) (mbSub w) r.type := by
    rw [State.mbBegun_eq]
    rfl
  have served : (s.mbBegun p w).mbServe p w = ⟨some .ok, s.wake.busyNow.readOctets u (mbIndex w) (mbSub w) r.type,
      (s.mbBegun p w).readEffect u (mbIndex w) (mbSub w)⟩ := by
    simp only [State.mbServe, op, State.mbRead, path, State.readPath]
    rw [State.readHere_ordinary ((same.lookup ..).trans row) own readable scalar (fun e => noPort e.1), octets]
    rw [if_neg (fun e => noPort (by simpa using e.1))]
    rfl
  have kept : ((s.mbBegun p w).readEffect u (mbIndex w) (mbSub w)).mailboxes = (s.mbBegun p w).mailboxes := by
    unfold State.readEffect
    repeat' split
    all_goals rfl
  obtain ⟨t, ht, mailbox, result, -, -⟩ := mailboxGo_ends up hp idle go served kept
  exact ⟨t, ht, mailbox, result⟩

theorem mailbox_stages {p u : Nat} {w : MbWords} {r : ObjRow} {s : State} (hp : p < 8) (idle : (s.mailbox p).busy = false)
    (go : w.cmd.testBit 0 = true) (op : mbOp w = 2)
    (g : s.grants ⟨.host, p⟩ ((mbPath w).getD []) u (mbIndex w) (mbSub w) (turnFields (fieldsOf u (mbIndex w) (mbSub w) false) (mbData w)) = true)
    (row : s.lookup ⟨.host, p⟩ u (mbIndex w) (mbSub w) = .ok r) (rws : r.access = .rws) (free : s.stageBusy u = false)
    (notFabric : ¬(u = 0x00D ∧ mbIndex w = 0x1000)) :
    ∃ t, execMailboxRead p ⟨w, true⟩ s = .next t ∧ t.mailbox p = ⟨endWords w .ok [], true, true, false, 0, 0⟩
      ∧ t.staged = ((s.wrote ⟨.host, p⟩ u).stage ⟨.obj ⟨u, mbIndex w, mbSub w⟩,
          ofMsb (turnFields (fieldsOf u (mbIndex w) (mbSub w) false) (mbData w)), ⟨.host, p⟩⟩).staged := by
  have same := s.mbBegun_sameChecks p w
  obtain ⟨up, here, r', kd, x⟩ := State.grants_iff.mp g
  have x' := same.admits x
  have path := (same.resolvePath _).trans here
  have staged := x'.writeHere_staged (by rwa [x.row_eq row]) (fun e => notFabric ⟨e.1, e.2.1⟩) ((same.stageBusy u).trans free) false
  have served := (show (s.mbBegun p w).mbServe p w = _ by simp only [State.mbServe, op, State.mbWrite, State.writePath, path]).trans staged
  obtain ⟨t, ht, mailbox, -, joined, -⟩ := mailboxGo_ends up hp idle go served (by
    rw [State.stage_eq, (State.ButLeases.wrote (s.mbBegun p w) _ u).fields])
  exact ⟨t, ht, mailbox, joined.trans (State.stage_staged_congr (same.sameLeases.wrote _ u).staged _)⟩

/-! ### MAILBOX_DONE -/

theorem mailboxDone_shows {p : Nat} {s : State} (up : s.mainUp = true) (busy : (s.mailbox p).busy = true) (ready : (s.mailbox p).ready = true) :
    ∃ t, exec (.mailboxDone p) s = .next t
      ∧ (s.setMailbox p { s.mailbox p with busy := false, ready := false, done := true }).ButEvents t := by
  obtain ⟨l, held⟩ := s.holding_heldAs
  show ∃ t, execMailboxDone p s = .next t ∧ _
  unfold execMailboxDone
  refine gathered_next_of (u := ((s.heldAs l).setMailbox p { s.mailbox p with busy := false, ready := false, done := true }).raise (causeMailbox p))
    ?_ fun t events => ?_
  · have same : (s.heldAs l).mailbox p = s.mailbox p := rfl
    simp only [held, same, State.heldAs_mainUp, up, busy, ready, and_self, if_true]
  · exact ((State.ButEvents.other _).trans (.raise _ _)).trans events

theorem mailboxDone_idle {p : Nat} {s : State} (h : (s.mailbox p).busy = false ∨ (s.mailbox p).ready = false) :
    exec (.mailboxDone p) s = .next s := by
  obtain ⟨l, held⟩ := s.holding_heldAs
  show execMailboxDone p s = _
  unfold execMailboxDone
  rw [gathered_eq_of (u := s.holding) _ rfl]
  · rw [held]
    rfl
  · rw [held]
    have same : (s.heldAs l).mailbox p = s.mailbox p := rfl
    have none_ : ¬((s.heldAs l).mainUp = true ∧ (s.mailbox p).busy = true ∧ (s.mailbox p).ready = true) := by
      rintro ⟨-, b, r⟩
      rcases h with h | h
      · rw [h] at b
        cases b
      · rw [h] at r
        cases r
    simp only [same, if_neg none_]

end Sys2Proof.Machine
open Sys2Proof Sys2Proof.Machine

/-- Settles O46: a GO runs its request in the state that holds its words; the end is shown by MAILBOX_DONE alone. -/
theorem mailboxesServeOneRequest : Obligations.MailboxesServeOneRequest := by
  refine ⟨fun p w s up hp busy go => ⟨mailboxBusy_counts up hp busy go, mailboxBusy_counts up hp busy go⟩,
    fun p w s up hp => ⟨mailboxNarrow_wakes up hp, mailboxNarrow_wakes up hp⟩,
    fun p u w s up hp idle go op absent => mailbox_noUnit up hp idle go op absent,
    fun p u w r s up hp idle go op here row readable scalar own noPort => ?_,
    fun p u w r s _ hp idle go op _ g row rws free notFabric => ?_,
    fun p s up busy ready => mailboxDone_shows up busy ready, fun p s h => mailboxDone_idle h⟩
  · obtain ⟨t, ht, mailbox, result⟩ := mailbox_reads up hp idle go op here row readable scalar own noPort
    refine ⟨t, ht, ?_⟩
    rw [mailbox]
    simp [endWords, op, result]
  · obtain ⟨t, ht, mailbox, staged⟩ := mailbox_stages hp idle go op g row rws free notFabric
    refine ⟨t, ht, ?_⟩
    rw [mailbox]
    exact ⟨rfl, rfl, rfl, staged⟩

end

section
/-! The work of the host port that any write may set going (R229, R231): what it leaves as it is. -/
namespace Sys2Proof.Machine

/-- `t` is `s` but for the work of the host port and events: no staged and no live object has changed. -/
structure State.PortWork (s t : State) : Prop where
  fields : t = { s with
    obj := t.obj, tab := t.tab, hid := t.hid, timers := t.timers, scans := t.scans, ahead := t.ahead, mpOps := t.mpOps
    cqStaged := t.cqStaged, bqBuffers := t.bqBuffers, jobQ := t.jobQ, latches := t.latches, lastFixed := t.lastFixed, lastSd := t.lastSd
    lastVar := t.lastVar, evHold := t.evHold, monQ := t.monQ, free := t.free }
  objs   : ∀ u i k, 0x1000 ≤ i → i < 0x5000 → t.rd u i k = s.rd u i k

namespace State.PortWork
variable {r s t : State}

theorem refl (s : State) : PortWork s s := ⟨rfl, fun _ _ _ _ _ => rfl⟩

theorem trans (h : PortWork r s) (k : PortWork s t) : PortWork r t where
  fields := by
    have e := k.fields
    rw [h.fields] at e
    exact e
  objs u i j a b := (k.objs u i j a b).trans (h.objs u i j a b)

theorem ite {q : Prop} [Decidable q] (h : PortWork r s) (k : PortWork r t) : PortWork r (if q then s else t) := by
  split <;> assumption

theorem foldl {α : Type} {f : State → α → State} (hf : ∀ (u : State) x, PortWork u (f u x)) (l : List α) (s : State) :
    PortWork s (l.foldl f s) := by
  induction l generalizing s with
  | nil => exact refl s
  | cons x l ih => exact (hf s x).trans (ih _)

theorem events (h : s.ButEvents t) : PortWork s t where
  fields := by
    have e := h.fields
    rw [e]
  objs u i k _ a := by
    refine h.objs u i k ?_ (by omega)
    have : i ≠ 0x5001 ∧ i ≠ 0x5002 ∧ i ≠ 0x5003 ∧ i ≠ 0x5004 ∧ i ≠ 0x5005 ∧ i ≠ 0x5006 ∧ i ≠ 0x8000 ∧ i ≠ 0x8001 ∧ i ≠ 0x8002
        ∧ i ≠ 0x8003 ∧ i ≠ 0x5008 ∧ i ≠ 0x5009 ∧ i ≠ 0x500A := by omega
    simp [eventObj, this]

/-- An object of the header, a status object or a counter is written. -/
theorem wr (s : State) {u i k v : Nat} (hi : i < 0x1000 ∨ 0x5000 ≤ i) : PortWork s (s.wr u i k v) :=
  ⟨rfl, fun _ _ _ _ _ => State.rd_wr_ne s v (by omega)⟩

theorem bump (s : State) {u i k n : Nat} (hi : i < 0x1000 ∨ 0x5000 ≤ i) : PortWork s (s.bump u i k n) := wr s hi

theorem setReg (s : State) (h : Hid) (v : Int) : PortWork s (s.setReg h v) := ⟨rfl, fun _ _ _ _ _ => rfl⟩

/-- A change of the port's own queues. -/
theorem queues (s : State) {a : Map Nat Nat} {b : List AheadEntry} {c : List MpOp} {d : List (Nat × CqEntry)} {e : List BqBuffer} :
    PortWork s { s with scans := a, ahead := b, mpOps := c, cqStaged := d, bqBuffers := e } := ⟨rfl, fun _ _ _ _ _ => rfl⟩

theorem mpIssue (s : State) (w : Bool) (a : Nat) (o : List Octet) (x : MpPurpose) : PortWork s (s.mpIssue w a o x) :=
  (setReg s _ _).trans (queues _)

theorem cqWriteNow (s : State) (cq : Nat) (e : CqEntry) : PortWork s (s.cqWriteNow cq e) :=
  (mpIssue s _ _ _ _).trans (wr _ (by decide))

theorem cqReady (s : State) (cq : Nat) (e : CqEntry) : PortWork s (s.cqReady cq e) :=
  (setReg s _ _).trans (.ite (cqWriteNow _ _ _) (queues _))

theorem errComplete (s : State) (d : TxDesc) (n : Nat) : PortWork s (s.errComplete d n) := (setReg s _ _).trans (cqReady _ _ _)

theorem ringFault (s : State) (u x : Nat) : PortWork s (s.ringFault u x) :=
  (wr s (by decide)).trans ((events (.raise _ _)).trans (events (.record _ _ _ _ _)))

theorem discardAhead (s : State) (q : Nat → Bool) : PortWork s (s.discardAhead q) :=
  .ite (refl s) ((queues s).trans ((queues _).trans ((foldl (fun u q => wr u (u := tqUnit q) (i := 0x5002) (by decide)) _ _).trans
    (bump _ (u := 0x00C) (i := 0x8003) (by decide)))))

theorem tqFault (s : State) (q x c : Nat) (hc : 0x5000 ≤ c) : PortWork s (s.producerFault .tq q x c) :=
  (discardAhead s _).trans ((queues _).trans ((queues _).trans ((bump _ (.inr hc)).trans (ringFault _ _ _))))

theorem txErrors (k : Nat) (s : State) (q : Nat) : PortWork s (State.txErrors k s q) := by
  induction k generalizing s with
  | zero => exact refl s
  | succ k ih =>
    unfold State.txErrors
    split
    · exact refl s
    · split
      · exact refl s
      · exact .ite (refl s) (.ite (tqFault s _ _ _ (by decide)) (.ite (tqFault s _ _ _ (by decide))
          (.ite ((queues s).trans ((errComplete _ _ _).trans ((wr _ (by decide)).trans (ih _)))) (refl s))))

theorem rxErrors (k : Nat) (s : State) (b : Nat) : PortWork s (State.rxErrors k s b) := by
  induction k generalizing s with
  | zero => exact refl s
  | succ k ih =>
    unfold State.rxErrors
    dsimp only
    split
    · exact refl s
    · exact .ite ((queues s).trans ((setReg _ _ _).trans ((cqReady _ _ _).trans (ih _)))) (refl s)

theorem fetchTq (k : Nat) (s : State) (q : Nat) : PortWork s (State.fetchTq k s q) := by
  induction k generalizing s with
  | zero => exact refl s
  | succ k ih => exact .ite ((setReg s _ _).trans ((mpIssue _ _ _ _ _).trans ((wr _ (by decide)).trans (ih _)))) (refl s)

theorem fetchBq (k : Nat) (s : State) (b : Nat) : PortWork s (State.fetchBq k s b) := by
  induction k generalizing s with
  | zero => exact refl s
  | succ k ih => exact .ite ((mpIssue s _ _ _ _).trans ((wr _ (by decide)).trans (ih _))) (refl s)

theorem issuePayload (s : State) (a : AheadEntry) : PortWork s (s.issuePayload a) :=
  (queues s).trans (foldl (fun u _ => mpIssue u _ _ _ _) _ _)

theorem pumpPayload (s : State) : PortWork s s.pumpPayload := foldl (fun u _ => .ite (refl u) (issuePayload u _)) _ s

theorem jobReads (s : State) (j : Nat) : PortWork s (s.jobReads j) := .ite (mpIssue s _ _ _ _) (refl s)

theorem pump (s : State) : PortWork s s.pump :=
  .ite (refl s) ((foldl (fun u _ => (txErrors _ u _).trans (fetchTq _ _ _)) _ s).trans
    ((foldl (fun u _ => (rxErrors _ u _).trans (fetchBq _ _ _)) _ _).trans ((pumpPayload _).trans (foldl jobReads _ _))))

theorem frames (h : PortWork s t) : t.frames = s.frames := by rw [h.fields]
theorem copies (h : PortWork s t) : t.copies = s.copies := by rw [h.fields]
theorem staged (h : PortWork s t) : t.staged = s.staged := by rw [h.fields]

end State.PortWork

end Sys2Proof.Machine
end

section
/-! Live writes, keys, event queues and acknowledgements (O43). -/
namespace Sys2Proof.Machine

/-! ### The state in which a write that counts takes effect -/

/-- The state of an access that has counted for the lease. -/
def State.counting (s : State) (a : Agent) (u : Nat) : State := (s.accessing a).wrote a u

theorem State.counting_butLeases (s : State) (a : Agent) (u : Nat) : (s.accessing a).ButLeases (s.counting a u) := .wrote _ a u

theorem State.counting_eq (s : State) (a : Agent) (v : Nat) : s.counting a v = { s with
    obj := (s.counting a v).obj, tab := (s.counting a v).tab, hid := (s.counting a v).hid, timers := (s.counting a v).timers
    leases := (s.counting a v).leases, staged := (s.wrote a v).staged, commits := (s.counting a v).commits
    latches := (s.counting a v).latches, lastFixed := (s.counting a v).lastFixed, lastSd := (s.counting a v).lastSd
    lastVar := (s.counting a v).lastVar, evHold := (s.counting a v).evHold, monQ := (s.counting a v).monQ, free := (s.counting a v).free
    result := ⟨a, none, []⟩ } := by
  have staged := ((s.accessing_sameChecks a).sameLeases.wrote a v).staged
  have fields := (s.counting_butLeases a v).fields
  rw [State.accessing_eq_obj] at fields
  rw [← staged]
  exact fields

theorem State.counting_stored (s : State) (a : Agent) (v : Nat) : (s.counting a v).frames = s.frames ∧ (s.counting a v).copies = s.copies
    ∧ (s.counting a v).staged = (s.wrote a v).staged ∧ (s.counting a v).keys = s.keys ∧ (s.counting a v).time = s.time := by
  have e := s.counting_eq a v
  generalize s.counting a v = c at e
  rw [e]
  exact ⟨rfl, rfl, rfl, rfl, rfl⟩

theorem State.rd_counting (s : State) (a : Agent) (v : Nat) {u i : Nat} (k : Nat) (quiet : eventObj u i = false) (mode : ¬(u = 0x001 ∧ i = 0x5000))
    (alarm : i ≠ 0x0005) : (s.counting a v).rd u i k = s.rd u i k :=
  ((s.counting_butLeases a v).objs u i k quiet mode alarm).trans (s.rd_accessing a k mode)

theorem State.reg_counting (s : State) (a : Agent) (u : Nat) {h : Hid} (quiet : h.ofEvents = false) : (s.counting a u).reg h = s.reg h := by
  refine ((s.counting_butLeases a u).regs h quiet).trans ?_
  rw [State.accessing_eq_obj]
  rfl

/-- A write of a live object, or a command that ends at once, that counts for the lease. -/
theorem State.access_ends {s y : State} {a : Agent} {path : List Nat} {u i k : Nat} {d : List Octet} {r : ObjRow} {kd : UnitKind}
    (g : s.grants a path u i k d = true) (row : s.lookup a u i k = .ok r) (kind : unitKind? s.build u = some kd) (counts : exempt kd i = false)
    (noData : ¬(kd = .dataport ∧ i = 0x4004)) (noCommit : i ≠ 0x0030)
    (passes : ((s.accessing a).effectOf a false kd r u i k (ofMsb d)).passes = true)
    (ends : (s.counting a u).effectOf a false kd r u i k (ofMsb d) = .ends .ok y) :
    ∃ t, s.access a path i k d = .next t ∧ ((y.ranCode r u i .ok).complete a .ok []).ButEvents t := by
  obtain ⟨r', kd', t, x, ht, events⟩ := State.access_of_grants g
  have same := s.accessing_sameChecks a
  obtain rfl := x.row_eq ((same.lookup ..).trans row)
  obtain rfl := x.kind_eq (same.build ▸ kind)
  rw [x.writeHere_passes noData noCommit passes, State.counted, counts, if_neg Bool.false_ne_true,
    show (s.accessing a).wrote a u = s.counting a u from rfl, ends] at events
  exact ⟨t, ht, events⟩

/-! ### Live objects (R47, R405) -/

/-- A row with an index from `lo` up to `hi` that is no table has access mode `m`. -/
def ObjRow.modeIn (lo hi : Nat) (m : Access) (r : ObjRow) : Bool := r.type = .table || r.idxHi < lo || hi ≤ r.idxLo || r.access = m

/-- The index ranges of live objects, of commands of a unit's own and of write-only objects. -/
def ObjRow.moded (r : ObjRow) : Bool := r.modeIn 0x4000 0x5000 .rw && r.modeIn 0x7000 0x8000 .cmd && r.modeIn 0x9000 0x10000 .wo

theorem unitRows_moded (b : Build) (kd : UnitKind) : ∀ r ∈ unitRows b kd, r.moded = true := by
  have all (kd : UnitKind) : (headerRows ++ rowsOf kd).all ObjRow.moded = true := by cases kd <;> decide
  intro r hr
  refine List.all_eq_true.mp (all kd) r ?_
  unfold unitRows at hr
  dsimp only at hr
  split at hr
  · rw [List.mem_append, List.mem_filter] at hr
    exact List.mem_append.mpr (hr.imp id And.left)
  · exact hr

theorem ObjRow.access_of_modeIn {lo hi : Nat} {m : Access} {r : ObjRow} {i : Nat} (h : r.modeIn lo hi m = true) (scalar : r.type ≠ .table)
    (ge : lo ≤ i) (lt : i < hi) (first : r.idxLo ≤ i) (last : i ≤ r.idxHi) : r.access = m := by
  simp only [ObjRow.modeIn, Bool.or_eq_true, decide_eq_true_eq, scalar, false_or] at h
  exact h.resolve_left (by omega)

/-- The access mode of a scalar object by its index. -/
theorem State.mode_of_idx {s : State} {a : Agent} {u i k : Nat} {r : ObjRow} (h : s.lookup a u i k = .ok r) (scalar : r.type ≠ .table) :
    (0x4000 ≤ i → i < 0x5000 → r.access = .rw) ∧ (0x7000 ≤ i → i < 0x8000 → r.access = .cmd) ∧ (0x9000 ≤ i → i < 0x10000 → r.access = .wo) := by
  obtain ⟨kd, -, hr⟩ := State.row_of_lookup h
  have found := List.find?_some hr
  have moded := unitRows_moded _ _ _ (List.mem_of_find?_eq_some hr)
  simp only [Bool.and_eq_true, decide_eq_true_eq] at found
  simp only [ObjRow.moded, Bool.and_eq_true] at moded
  obtain ⟨⟨live, command⟩, key⟩ := moded
  exact ⟨fun ge lt => ObjRow.access_of_modeIn live scalar ge lt found.1.1.1 found.1.1.2,
    fun ge lt => ObjRow.access_of_modeIn command scalar ge lt found.1.1.1 found.1.1.2,
    fun ge lt => ObjRow.access_of_modeIn key scalar ge lt found.1.1.1 found.1.1.2⟩

theorem State.live_of_idx {s : State} {a : Agent} {u i k : Nat} {r : ObjRow} (h : s.lookup a u i k = .ok r) (scalar : r.type ≠ .table)
    (lo : 0x4000 ≤ i) (hi : i < 0x5000) : r.access = .rw := (State.mode_of_idx h scalar).1 lo hi

theorem exempt_of_live {kd : UnitKind} {i : Nat} (lo : 0x4000 ≤ i) (hi : i < 0x5000) (noPort : kd ≠ .dataport) (noBook : kd ≠ .fieldbook) :
    exempt kd i = false := by
  have : i ≠ 0x0006 ∧ i ≠ 0x0012 ∧ i ≠ 0x0013 ∧ i ≠ 0x0014 ∧ i ≠ 0x7001 := by omega
  simp [exempt, this, noPort, noBook]

theorem not_eventObj_of_live (u : Nat) {i : Nat} (h : i < 0x5000) : eventObj u i = false ∧ ¬(u = 0x001 ∧ i = 0x5000) := by
  constructor
  · have : i ≠ 0x5001 ∧ i ≠ 0x5002 ∧ i ≠ 0x5003 ∧ i ≠ 0x5004 ∧ i ≠ 0x5005 ∧ i ≠ 0x5006 ∧ i ≠ 0x8000 ∧ i ≠ 0x8001 ∧ i ≠ 0x8002
        ∧ i ≠ 0x8003 ∧ i ≠ 0x5008 ∧ i ≠ 0x5009 ∧ i ≠ 0x500A := by omega
    simp [eventObj, this]
  · omega

/-- A live write of a unit without a rule of its own: the object has the value; at most the host port's work has gone on. -/
theorem State.liveWrite_plain (x : State) (a : Agent) {kd : UnitKind} {u i : Nat} (k v : Nat)
    (plain : kd ∉ [.lane, .fieldbook, .tq, .bq, .cq, .eq, .dataport]) (lo : 0x4000 ≤ i) (hi : i < 0x5000) :
    ∃ y, x.liveWrite a kd u i k v = .ends .ok y ∧ y.rd u i k = v ∧ y.frames = x.frames ∧ y.copies = x.copies
      ∧ y.staged = x.staged := by
  cases kd with
  | lane | fieldbook | tq | bq | cq | eq | dataport => simp at plain
  | host =>
    have work := State.PortWork.pump (x.wr u i k v)
    exact ⟨_, rfl, (work.objs u i k (by omega) hi).trans (State.rd_wr_self ..), work.frames, work.copies, work.staged⟩
  | time =>
    refine ⟨_, rfl, ?_⟩
    split <;> exact ⟨State.rd_wr_self .., rfl, rfl, rfl⟩
  | _ => exact ⟨_, rfl, State.rd_wr_self .., rfl, rfl, rfl⟩

theorem objectWrite_takes {a : Agent} {path : List Nat} {u i k : Nat} {d : List Octet} {r : ObjRow} {kd : UnitKind} {s : State}
    (g : s.grants a path u i k d = true) (row : s.lookup a u i k = .ok r) (rw_ : r.access = .rw) (kind : unitKind? s.build u = some kd)
    (plain : kd ∉ [.lane, .fieldbook, .tq, .bq, .cq, .eq, .dataport]) :
    ∃ t, exec (.objectWrite a path i k d) s = .next t ∧ t.result = ⟨a, some .ok, []⟩ ∧ t.rd u i k = ofMsb d
      ∧ t.frames = s.frames ∧ t.copies = s.copies ∧ t.staged = (s.wrote a u).staged := by
  obtain ⟨-, -, r', kd', x⟩ := State.grants_iff.mp g
  obtain ⟨lo, hi⟩ := State.idx_of_rw row rw_ (x.row_eq row ▸ x.scalar)
  have noPort : kd ≠ .dataport := fun e => plain (by simp [e])
  have noBook : kd ≠ .fieldbook := fun e => plain (by simp [e])
  have effect (z : State) : z.effectOf a false kd r u i k (ofMsb d) = z.liveWrite a kd u i k (ofMsb d) := by rw [State.effectOf, rw_]
  obtain ⟨y', passes, -⟩ := (s.accessing a).liveWrite_plain a k (ofMsb d) (u := u) plain lo hi
  obtain ⟨y, ends, value, frames, copies, staged⟩ := (s.counting a u).liveWrite_plain a k (ofMsb d) (u := u) plain lo hi
  obtain ⟨t, ht, events⟩ := State.access_ends g row kind (exempt_of_live lo hi noPort noBook) (fun e => noPort e.1) (by omega)
    (by rw [effect, passes]; rfl) ((effect _).trans ends)
  rw [State.ranCode, rw_] at events
  have quiet := not_eventObj_of_live u hi
  obtain ⟨frames', copies', staged', -⟩ := s.counting_stored a u
  exact ⟨t, ht, events.result, (events.objs u i k quiet.1 quiet.2).trans value, events.frames.trans (frames.trans frames'),
    events.copies.trans (copies.trans copies'), events.staged.trans (staged.trans staged')⟩

/-! ### Octets of a number -/

/-- The number of the octets of a number is the number. -/
theorem ofMsb_toMsb (n : Nat) {v : Nat} (h : v < 256 ^ n) : ofMsb (toMsb n v) = v := by
  unfold toMsb ofMsb
  induction n generalizing v with
  | zero =>
    rw [Nat.pow_zero] at h
    simp [toLsb]
    omega
  | succ n ih =>
    rw [toLsb, List.reverse_cons, List.foldl_append, ih (Nat.div_lt_of_lt_mul (by rw [Nat.pow_succ] at h; omega))]
    simp only [List.foldl_cons, List.foldl_nil, BitVec.toNat_ofNat]
    omega

theorem length_toLsb (n v : Nat) : (toLsb n v).length = n := by
  induction n generalizing v with
  | zero => rfl
  | succ n ih => rw [toLsb, List.length_cons, ih]

/-! ### The increment of the time base (R281) -/

/-- The increment is written; the counter keeps the one in force until the next edge. -/
def State.incremented (s : State) (v : Nat) : State := (s.setReg .paceHeld (s.pace + 1 : Nat)).wr 0x003 0x4000 0 v

theorem State.incremented_pace (s : State) (v : Nat) : (s.incremented v).pace = s.pace := by
  have held : (s.incremented v).regN .paceHeld = s.pace + 1 := by
    show Int.toNat ((s.setReg .paceHeld (s.pace + 1 : Nat)).reg .paceHeld) = s.pace + 1
    rw [State.reg_setReg]
    simp
  rw [State.pace, held]
  simp

theorem State.counting_pace (s : State) (a : Agent) (u : Nat) : (s.counting a u).pace = s.pace := by
  unfold State.pace State.regN State.increment
  rw [State.reg_counting s a u rfl, State.rd_counting s a u 0 (by decide) (by decide) (by decide)]

theorem incrementWrite_takes {a : Agent} {d : List Octet} {s : State} (g : s.grants a (pathTo 0x003) 0x003 0x4000 0 d = true) :
    ∃ t, exec (.incrementWrite a d) s = .next t ∧ t.result = ⟨a, some .ok, []⟩ ∧ t.increment = ofMsb d ∧ t.pace = s.pace
      ∧ t.time = s.time ∧ t.frames = s.frames ∧ t.copies = s.copies ∧ t.staged = (s.wrote a 0x003).staged := by
  obtain ⟨-, -, r, kd, x⟩ := State.grants_iff.mp g
  obtain rfl : kd = .time := x.kind_eq rfl
  have rw_ := State.live_of_idx x.row x.scalar (by decide) (by decide)
  have effect (z : State) : z.effectOf a false .time r 0x003 0x4000 0 (ofMsb d) = .ends .ok (z.incremented (ofMsb d)) := by
    rw [State.effectOf, rw_]
    rfl
  obtain ⟨t, ht, events⟩ := State.access_ends g x.row x.kind rfl (by decide) (by decide) (by rw [effect]; rfl) (effect _)
  rw [State.ranCode, rw_] at events
  have value := events.objs 0x003 0x4000 0 (by decide) (by decide)
  obtain ⟨frames, copies, staged, -, time⟩ := s.counting_stored a 0x003
  refine ⟨t, ht, events.result, value.trans (State.rd_wr_self ..), ?_, ?_⟩
  · rw [← s.counting_pace a 0x003, ← (s.counting a 0x003).incremented_pace (ofMsb d)]
    unfold State.pace State.regN State.increment
    rw [events.regs _ rfl, value]
    rfl
  · rw [events.fields, ← frames, ← copies, ← staged, ← time]
    exact ⟨rfl, rfl, rfl, rfl⟩

/-! ### Event queues (R321) -/

/-- A queue's own line follows, and no object. -/
theorem State.eqLine_eq (s : State) (q : Nat) : s.eqLine q = { s with hid := (s.eqLine q).hid } := by
  unfold State.eqLine
  extract_lets u r a
  split
  · split <;> rfl
  · rfl

/-- A write of an event queue's object that its rule takes. -/
theorem State.eqObjWrite_takes {s : State} {q i : Nat} (v : Nat) (lo : 0x4000 ≤ i) (hi : i < 0x5000) (may : i = 0x4002 ∨ s.eqOn q = false) :
    ∃ y, s.eqObjWrite q i v = (.ok, y) ∧ y.rd (eqUnit q) i 0 = v
      ∧ (i ≠ 0x4002 → y.rd (eqUnit q) 0x5000 0 = 0 ∧ y.rd (eqUnit q) 0x5001 0 = 0) ∧ y.frames = s.frames ∧ y.copies = s.copies
      ∧ y.staged = s.staged := by
  unfold State.eqObjWrite
  extract_lets u s1
  by_cases enable : i = 0x4002
  · refine ⟨_, by rw [if_pos enable], ?_⟩
    rw [State.eqLine_eq]
    exact ⟨by rw [enable]; exact State.rd_wr_self .., fun e => absurd enable e, rfl, rfl, rfl⟩
  · refine ⟨_, by rw [if_neg enable, may.resolve_left enable, if_neg Bool.false_ne_true], ?_⟩
    rw [State.eqLine_eq]
    refine ⟨?_, fun _ => ⟨?_, ?_⟩, rfl, rfl, rfl⟩
    · exact (State.rd_wr_ne _ _ (by omega)).trans ((State.rd_wr_ne _ _ (by omega)).trans (State.rd_wr_self ..))
    · exact (State.rd_wr_ne _ _ (by omega)).trans (State.rd_wr_self ..)
    · exact State.rd_wr_self ..

theorem State.eqObjWrite_refuses {s : State} {q i : Nat} (v : Nat) (notEnable : i ≠ 0x4002) (on : s.eqOn q = true) :
    s.eqObjWrite q i v = (.modeForbids, s) := by
  unfold State.eqObjWrite
  rw [if_neg notEnable, if_pos on]

section
variable {a : Agent} {q i : Nat} {d : List Octet} {s : State}

/-- The row and the kind of a live object of an event queue. -/
theorem State.Admits.eq_facts {r : ObjRow} {kd : UnitKind} (x : s.Admits a (eqUnit q) i 0 d r kd) (hq : q < 8) (lo : 0x4000 ≤ i) (hi : i < 0x5000) :
    kd = .eq ∧ ∀ (z : State) (v : Nat), z.effectOf a false kd r (eqUnit q) i 0 v = .told (z.eqObjWrite q i v) := by
  have kind : unitKind? s.build (eqUnit q) = some .eq := by
    have rings : s.build.rings ≤ 64 := by cases s.build <;> decide
    have lanes : s.build.lanes ≤ 16 := by cases s.build <;> decide
    have channels : s.build.channels ≤ 64 := by cases s.build <;> decide
    unfold unitKind? eqUnit
    rw [if_neg (by omega), if_neg (by omega), if_neg (by omega), if_neg (by omega), if_neg (by omega), if_neg (by omega), if_neg (by omega),
      if_pos (by omega)]
  obtain rfl := x.kind_eq kind
  refine ⟨rfl, fun z v => ?_⟩
  rw [State.effectOf, State.live_of_idx x.row x.scalar lo hi]
  show Effect.told (z.eqObjWrite (eqUnit q - 0x4C0) i v) = _
  rw [show eqUnit q - 0x4C0 = q by unfold eqUnit; omega]

theorem eqConfigWrite_takes (hq : q < 8) (lo : 0x4000 ≤ i) (hi : i < 0x5000) (g : s.grants a (pathTo (eqUnit q)) (eqUnit q) i 0 d = true)
    (may : i = 0x4002 ∨ s.eqOn q = false) :
    ∃ t, exec (.eqConfigWrite a q i d) s = .next t ∧ t.result = ⟨a, some .ok, []⟩
      ∧ t.rd (eqUnit q) i 0 = ofMsb d ∧ (i ≠ 0x4002 → t.rd (eqUnit q) 0x5000 0 = 0 ∧ t.rd (eqUnit q) 0x5001 0 = 0)
      ∧ t.frames = s.frames ∧ t.copies = s.copies ∧ t.staged = (s.wrote a (eqUnit q)).staged := by
  obtain ⟨-, -, r, kd, x⟩ := State.grants_iff.mp g
  obtain ⟨rfl, effect⟩ := x.eq_facts hq lo hi
  have rw_ := State.live_of_idx x.row x.scalar lo hi
  have unit : eqUnit q ≠ 0x001 ∧ eqUnit q ≠ 0x004 ∧ eqUnit q ≠ 0x005 := by unfold eqUnit; omega
  have quiet (j : Nat) : eventObj (eqUnit q) j = false := by simp [eventObj, unit]
  have mode (j : Nat) : ¬(eqUnit q = 0x001 ∧ j = 0x5000) := fun e => unit.1 e.1
  have may1 : i = 0x4002 ∨ (s.accessing a).eqOn q = false := by
    unfold State.eqOn
    rw [s.rd_accessing a 0 (mode _)]
    exact may
  have may2 : i = 0x4002 ∨ (s.counting a (eqUnit q)).eqOn q = false := by
    unfold State.eqOn
    rw [State.rd_counting s a _ 0 (quiet _) (mode _) (by decide)]
    exact may
  obtain ⟨y', passes, -⟩ := State.eqObjWrite_takes (ofMsb d) lo hi may1
  obtain ⟨y, ends, value, positions, frames, copies, staged⟩ := State.eqObjWrite_takes (ofMsb d) lo hi may2
  obtain ⟨t, ht, events⟩ := State.access_ends g x.row x.kind (exempt_of_live lo hi (by decide) (by decide)) (by simp) (by omega)
    (by rw [effect, passes]; rfl) (by rw [effect, ends]; rfl)
  rw [State.ranCode, rw_] at events
  have kept (j k : Nat) := events.objs (eqUnit q) j k (quiet j) (mode j)
  obtain ⟨frames', copies', staged', -⟩ := s.counting_stored a (eqUnit q)
  exact ⟨t, ht, events.result, (kept _ _).trans value, fun e => ⟨(kept _ _).trans (positions e).1, (kept _ _).trans (positions e).2⟩,
    events.frames.trans (frames.trans frames'), events.copies.trans (copies.trans copies'), events.staged.trans (staged.trans staged')⟩

theorem eqConfigWrite_refuses (hq : q < 8) (lo : 0x4000 ≤ i) (hi : i < 0x5000) (g : s.grants a (pathTo (eqUnit q)) (eqUnit q) i 0 d = true)
    (notEnable : i ≠ 0x4002) (on : s.eqOn q = true) :
    ∃ t, exec (.eqConfigWrite a q i d) s = .next t ∧ t.result = ⟨a, some .modeForbids, []⟩ ∧ t.rd (eqUnit q) i 0 = s.rd (eqUnit q) i 0 := by
  obtain ⟨up, here, r, kd, x⟩ := State.grants_iff.mp g
  have x' := (s.accessing_sameChecks a).admits x
  obtain ⟨rfl, effect⟩ := x'.eq_facts hq lo hi
  have mode : ¬(eqUnit q = 0x001 ∧ i = 0x5000) := by omega
  have on' : (s.accessing a).eqOn q = true := by
    unfold State.eqOn
    rw [s.rd_accessing a 0 (by omega)]
    exact on
  have refused : (s.accessing a).effectOf a false .eq r (eqUnit q) i 0 (ofMsb d) = .refused .modeForbids (s.accessing a) := by
    rw [effect, State.eqObjWrite_refuses _ notEnable on']
    rfl
  refine ⟨_, State.access_refused up here (by decide) (x'.writeHere_refused (by simp) (by decide) refused), rfl, ?_⟩
  refine (State.rd_wr_ne _ _ (by omega)).trans ?_
  exact s.rd_awake a 0 mode

end

/-! ### Keys (R70) -/

section
variable {a : Agent} {s : State}

/-- A slot of the access unit holds a key, its replay state at position `w`. -/
def State.keyed (s : State) (slot v w : Nat) : State :=
  { s.wr 0x012 0x5002 slot w with keys := s.keys.set slot v 0, replay := s.replay.filter (fun p => p.1 ≠ slot) }

theorem State.installKey_eq (s : State) (slot v : Nat) : s.installKey slot v = s.keyed slot v (s.bootEpoch * 2 ^ 32) := rfl

theorem State.keyed_facts (s : State) (slot v w : Nat) :
    (s.keyed slot v w).keys.get slot 0 = v ∧ (∀ k, k ≠ slot → (s.keyed slot v w).keys.get k 0 = s.keys.get k 0)
      ∧ (s.keyed slot v w).rd 0x012 0x5002 slot = w ∧ ∀ p ∈ (s.keyed slot v w).replay, p.1 ≠ slot := by
  refine ⟨Map.get_set_self _ _ _ _, fun k h => Map.get_set_ne _ h _ _ _, s.rd_wr_self 0x012 0x5002 slot _, fun p hp => ?_⟩
  simpa using (List.mem_filter.mp hp).2

/-- The code that a command keeps changes one object. -/
theorem State.ranCode_eq (s : State) (r : ObjRow) (u i : Nat) (c : Abort) : s.ranCode r u i c = { s with obj := (s.ranCode r u i c).obj } := by
  unfold State.ranCode
  split <;> rfl

theorem State.ranCode_stored (s : State) (r : ObjRow) (u i : Nat) (c : Abort) : (s.ranCode r u i c).frames = s.frames
    ∧ (s.ranCode r u i c).copies = s.copies ∧ (s.ranCode r u i c).staged = s.staged := by
  rw [State.ranCode_eq]
  exact ⟨rfl, rfl, rfl⟩

theorem State.keyed_stored (s : State) (slot v w : Nat) : (s.keyed slot v w).frames = s.frames ∧ (s.keyed slot v w).copies = s.copies
    ∧ (s.keyed slot v w).staged = s.staged := ⟨rfl, rfl, rfl⟩

theorem State.rd_ranCode_ne (s : State) (r : ObjRow) {u i x j : Nat} (c : Abort) (k : Nat) (h : ¬(x = u ∧ j = i)) :
    (s.ranCode r u i c).rd x j k = s.rd x j k := by
  unfold State.ranCode
  split
  · exact State.rd_wr_ne s _ fun e => h ⟨e.1, e.2.1⟩
  · rfl

/-- A key that takes effect where the access has counted, installed or erased. -/
theorem State.access_installs {path : List Nat} {i k : Nat} {d : List Octet} {r : ObjRow} (g : s.grants a path 0x012 i k d = true)
    (row : s.lookup a 0x012 i k = .ok r) (idx : i = 0x9000 ∨ i = 0x7000) {slot v : Nat}
    (effect : ∀ z : State, z.effectOf a false .access r 0x012 i k (ofMsb d) = .ends .ok (z.installKey slot v)) :
    ∃ t, s.access a path i k d = .next t ∧ t.result = ⟨a, some .ok, []⟩ ∧ t.keys.get slot 0 = v
      ∧ (∀ k, k ≠ slot → t.keys.get k 0 = s.keys.get k 0) ∧ t.rd 0x012 0x5002 slot = s.bootEpoch * 2 ^ 32
      ∧ (∀ p ∈ t.replay, p.1 ≠ slot) ∧ t.frames = s.frames ∧ t.copies = s.copies ∧ t.staged = (s.wrote a 0x012).staged := by
  have counts : exempt .access i = false := by rcases idx with rfl | rfl <;> rfl
  have epoch : (s.counting a 0x012).bootEpoch = s.bootEpoch := State.rd_counting s a _ 0 (by decide) (by decide) (by decide)
  obtain ⟨t, ht, events⟩ := State.access_ends g row rfl counts (by simp) (by omega) (by rw [effect]; rfl) (effect _)
  rw [State.installKey_eq, epoch] at events
  generalize s.bootEpoch * 2 ^ 32 = w at events ⊢
  obtain ⟨key, others, replay, window⟩ := (s.counting a 0x012).keyed_facts slot v w
  obtain ⟨frames, copies, staged, keys, -⟩ := s.counting_stored a 0x012
  have fields := events.fields
  rw [State.ranCode_eq] at fields
  refine ⟨t, ht, events.result, ?_, fun k hk => ?_, ?_, fun p hp => ?_, ?_⟩
  · rw [fields]
    exact key
  · rw [fields, ← keys]
    exact others k hk
  · exact (events.objs _ _ _ (by decide) (by decide)).trans ((State.rd_ranCode_ne _ r _ slot (by omega)).trans replay)
  · rw [fields] at hp
    exact window p hp
  · obtain ⟨frames', copies', staged'⟩ := (s.counting a 0x012).keyed_stored slot v w
    obtain ⟨ranFrames, ranCopies, ranStaged⟩ := State.ranCode_stored ((s.counting a 0x012).keyed slot v w) r 0x012 i .ok
    exact ⟨events.frames.trans (ranFrames.trans (frames'.trans frames)), events.copies.trans (ranCopies.trans (copies'.trans copies)),
      events.staged.trans (ranStaged.trans (staged'.trans staged))⟩

theorem keyWrite_installs {slot : Nat} {key : List Octet} (g : s.grants a (pathTo 0x012) 0x012 0x9000 slot key = true) :
    ∃ t, exec (.keyWrite a slot key) s = .next t ∧ t.result = ⟨a, some .ok, []⟩ ∧ t.keys.get slot 0 = ofMsb key
      ∧ (∀ k, k ≠ slot → t.keys.get k 0 = s.keys.get k 0) ∧ t.rd 0x012 0x5002 slot = s.bootEpoch * 2 ^ 32
      ∧ (∀ p ∈ t.replay, p.1 ≠ slot) ∧ t.frames = s.frames ∧ t.copies = s.copies ∧ t.staged = (s.wrote a 0x012).staged := by
  obtain ⟨-, -, r, kd, x⟩ := State.grants_iff.mp g
  have wo := (State.mode_of_idx x.row x.scalar).2.2 (by decide) (by decide)
  exact State.access_installs g x.row (.inl rfl) fun z => by rw [State.effectOf, wo]

theorem keyErase_erases {slot : Nat} (hs : slot < 8) (g : s.grants a (pathTo 0x012) 0x012 0x7000 0 (toMsb 1 slot) = true) :
    ∃ t, exec (.keyErase a slot) s = .next t ∧ t.result = ⟨a, some .ok, []⟩ ∧ t.keys.get slot 0 = 0
      ∧ (∀ k, k ≠ slot → t.keys.get k 0 = s.keys.get k 0) ∧ t.frames = s.frames ∧ t.copies = s.copies
      ∧ t.staged = (s.wrote a 0x012).staged := by
  obtain ⟨-, -, r, kd, x⟩ := State.grants_iff.mp g
  have cmd := (State.mode_of_idx x.row x.scalar).2.1 (by decide) (by decide)
  have effect (z : State) : z.effectOf a false .access r 0x012 0x7000 0 (ofMsb (toMsb 1 slot)) = .ends .ok (z.installKey slot 0) := by
    rw [State.effectOf, cmd, ofMsb_toMsb 1 (by omega)]
    show (if 7 < slot then Effect.refused .range z else .ends .ok (z.installKey slot 0)) = _
    rw [if_neg (by omega)]
  obtain ⟨t, ht, result, key, others, -, -, rest⟩ := State.access_installs g x.row (.inr rfl) effect
  exact ⟨t, ht, result, key, others, rest⟩

end

/-! ### Acknowledgements (R51, R310) -/

theorem and_add_xor_and (v m : Nat) : (v &&& m) + (v ^^^ (v &&& m)) = v := by
  induction v using Nat.strong_induction_on generalizing m with
  | _ v ih =>
    rcases Nat.eq_zero_or_pos v with rfl | pos
    · simp
    · have half := ih (v / 2) (by omega) (m / 2)
      rw [← Nat.and_div_two, ← Nat.xor_div_two] at half
      have both : (v &&& m) % 2 = 1 → v % 2 = 1 := fun h => (Nat.and_mod_two_eq_one.mp h).1
      have rest := Nat.xor_mod_two_eq (m := v) (n := v &&& m)
      omega

/-- What an acknowledgement leaves of a word of alarms. -/
def acked (mask v : Nat) : Nat := v - (v &&& mask)

/-- A second acknowledgement of the same alarms changes nothing. -/
theorem acked_acked (mask v : Nat) : acked mask (acked mask v) = acked mask v := by
  have kept : acked mask v = v ^^^ (v &&& mask) := by
    have := and_add_xor_and v mask
    unfold acked
    omega
  have none_ : acked mask v &&& mask = 0 := by
    rw [kept]
    refine Nat.eq_of_testBit_eq fun i => ?_
    simp only [Nat.testBit_and, Nat.testBit_xor, Nat.zero_testBit]
    cases v.testBit i <;> cases mask.testBit i <;> rfl
  show acked mask v - (acked mask v &&& mask) = _
  rw [none_, Nat.sub_zero]

theorem State.rd_ackUnit (mask : Nat) (s : State) (u x : Nat) :
    (s.ackUnit mask u).rd x 0x0005 0 = if x = u then acked mask (s.rd x 0x0005 0) else s.rd x 0x0005 0 := by
  have owner : (s.ackUnit mask u).rd x 0x0005 0 = (s.wr u 0x0005 0 (acked mask (s.rd u 0x0005 0))).rd x 0x0005 0 := by
    unfold State.ackUnit
    dsimp only
    split
    · exact State.rd_wr_ne _ _ (by omega)
    · rfl
  rw [owner, State.rd_wr]
  by_cases h : x = u <;> simp [h]

/-- Every unit of a list is acknowledged. -/
theorem State.rd_ackUnits (mask : Nat) (l : List Nat) (s : State) (x : Nat) :
    (l.foldl (State.ackUnit mask) s).rd x 0x0005 0 = if x ∈ l then acked mask (s.rd x 0x0005 0) else s.rd x 0x0005 0 := by
  induction l generalizing s with
  | nil => simp
  | cons u l ih =>
    rw [List.foldl_cons, ih, State.rd_ackUnit]
    by_cases here : x = u
    · by_cases later : x ∈ l <;> simp [here, acked_acked]
    · simp [here]

/-- Nothing but objects has changed. -/
def State.OnlyObjs (s t : State) : Prop := t = { s with obj := t.obj }

theorem State.OnlyObjs.refl (s : State) : s.OnlyObjs s := rfl

theorem State.OnlyObjs.trans {r s t : State} (h : r.OnlyObjs s) (k : s.OnlyObjs t) : r.OnlyObjs t := by
  unfold State.OnlyObjs at *
  rw [h] at k
  exact k

theorem State.OnlyObjs.foldl {α : Type} {f : State → α → State} (hf : ∀ (s : State) x, s.OnlyObjs (f s x)) (l : List α) (s : State) :
    s.OnlyObjs (l.foldl f s) := by
  induction l generalizing s with
  | nil => exact .refl s
  | cons x l ih => exact (hf s x).trans (ih _)

theorem State.OnlyObjs.unitResult (s : State) (u : Nat) (c : Abort) (unit idx sub : Nat) : s.OnlyObjs (s.unitResult u c unit idx sub) := rfl

theorem State.OnlyObjs.ackUnit (mask : Nat) (s : State) (u : Nat) : s.OnlyObjs (s.ackUnit mask u) := by
  unfold State.OnlyObjs State.ackUnit
  dsimp only
  split <;> rfl

theorem State.OnlyObjs.stored {s t : State} (h : s.OnlyObjs t) : t.frames = s.frames ∧ t.copies = s.copies ∧ t.staged = s.staged := by
  unfold State.OnlyObjs at h
  rw [h]
  exact ⟨rfl, rfl, rfl⟩

/-- The groups of a subtree have acknowledged (R22). -/
def State.groupsAcked (s : State) (l : List Nat) : State := l.foldl (fun s x => s.unitResult x .ok 0 0 0) s

theorem State.rd_groupsAcked (s : State) (l : List Nat) (x : Nat) : (s.groupsAcked l).rd x 0x0005 0 = s.rd x 0x0005 0 := by
  unfold State.groupsAcked
  induction l generalizing s with
  | nil => rfl
  | cons v l ih => rw [List.foldl_cons, ih, State.rd_unitResult_ne _ _ _ _ _ _ 0 (by omega)]

/-- Every unit of a subtree has acknowledged, and its groups. -/
def State.subtreeAcked (s : State) (u mask : Nat) : State :=
  ((subtree s.build u).foldl (State.ackUnit mask) s).groupsAcked
    ((subtree s.build u).filter (fun x => x ≠ 0x00D && childrenOf s.build x ≠ []))

theorem State.OnlyObjs.subtreeAcked (s : State) (u mask : Nat) : s.OnlyObjs (s.subtreeAcked u mask) :=
  (State.OnlyObjs.foldl (State.OnlyObjs.ackUnit mask) _ s).trans (State.OnlyObjs.foldl (fun s x => .unitResult s x _ _ _ _) _ _)

theorem State.rd_subtreeAcked (s : State) (u mask x : Nat) : (s.subtreeAcked u mask).rd x 0x0005 0
    = if x ∈ subtree s.build u then acked mask (s.rd x 0x0005 0) else s.rd x 0x0005 0 :=
  (State.rd_groupsAcked _ _ x).trans (State.rd_ackUnits mask _ s x)

/-- An acknowledgement on this device's units alone. -/
theorem State.alarmAck_here {s : State} (a : Agent) {u : Nat} (mask : Nat) (notFabric : u ≠ 0x00D) (alone : u = 0 → s.remoteMembers = []) :
    s.alarmAck a u mask = .ends .ok (if u = 0 then (s.subtreeAcked u mask).unitResult 0x00D .ok 0 0 0 else s.subtreeAcked u mask) := by
  have units : (if u = 0x00D ∧ s.members.contains s.ownId then subtree s.build 0 else subtree s.build u) = subtree s.build u :=
    if_neg fun e => notFabric e.1
  have remote : (if u = 0 ∨ u = 0x00D then s.remoteMembers else []) = [] := by
    split
    next h => exact alone (h.resolve_right notFabric)
    next => rfl
  unfold State.alarmAck
  simp only [units, remote]
  simp only [notFabric, or_false]
  rfl

theorem alarmAck_keeps_unmasked {a : Agent} {path : List Nat} {u mask : Nat} {s : State} (hm : mask < 2 ^ 32)
    (g : s.grants a path u 0x0006 0 (toMsb 4 mask) = true) (notFabric : u ≠ 0x00D) (alone : u = 0 → s.remoteMembers = []) :
    ∃ t, exec (.alarmAck a path mask) s = .next t ∧ t.result = ⟨a, some .ok, []⟩
      ∧ (∀ x ∈ subtree s.build u, t.rd x 0x0005 0 = s.rd x 0x0005 0 - (s.rd x 0x0005 0 &&& mask))
      ∧ (∀ x, x ∉ subtree s.build u → t.rd x 0x0005 0 = s.rd x 0x0005 0) ∧ t.frames = s.frames ∧ t.copies = s.copies
      ∧ t.staged = s.staged := by
  obtain ⟨r, kd, t, x, ht, events⟩ := State.access_of_grants g
  have same := s.accessing_sameChecks a
  have cmd := State.command_of_header x.row (by decide)
  have acks := State.alarmAck_here (s := s.accessing a) a mask notFabric fun e => same.remoteMembers.trans (alone e)
  have only : (s.accessing a).OnlyObjs (if u = 0 then ((s.accessing a).subtreeAcked u mask).unitResult 0x00D .ok 0 0 0
      else (s.accessing a).subtreeAcked u mask) := by
    split
    · exact (State.OnlyObjs.subtreeAcked _ u mask).trans (.unitResult _ _ _ _ _ _)
    · exact .subtreeAcked _ u mask
  have alarms (v : Nat) : State.rd (if u = 0 then ((s.accessing a).subtreeAcked u mask).unitResult 0x00D .ok 0 0 0
      else (s.accessing a).subtreeAcked u mask) v 0x0005 0 = ((s.accessing a).subtreeAcked u mask).rd v 0x0005 0 := by
    split
    · exact State.rd_unitResult_ne _ _ _ _ _ _ 0 (by omega)
    · rfl
  generalize (if u = 0 then ((s.accessing a).subtreeAcked u mask).unitResult 0x00D .ok 0 0 0 else (s.accessing a).subtreeAcked u mask) = y
    at acks only alarms
  have effect : (s.accessing a).effectOf a false kd r u 0x0006 0 (ofMsb (toMsb 4 mask)) = .ends .ok y := by
    rw [State.effectOf, cmd, ofMsb_toMsb 4 hm]
    exact acks
  have counts : (s.accessing a).counted a kd u 0x0006 = s.accessing a := if_pos rfl
  rw [x.writeHere_passes (by omega) (by decide) (by rw [effect]; rfl), counts, effect] at events
  have alarm (v : Nat) : t.rd v 0x0005 0 = if v ∈ subtree s.build u then acked mask (s.rd v 0x0005 0) else s.rd v 0x0005 0 := by
    refine (events.objs v 0x0005 0 (not_eventObj_of_live v (by decide)).1 (by omega)).trans ?_
    refine (State.rd_ranCode_ne y r _ 0 (by omega)).trans ?_
    rw [alarms, State.rd_subtreeAcked, same.build, s.rd_accessing a 0 (by omega)]
  obtain ⟨frames, copies, staged⟩ := y.ranCode_stored r u 0x0006 .ok
  obtain ⟨frames', copies', staged'⟩ := only.stored
  refine ⟨t, ht, events.result, fun v hv => (alarm v).trans (if_pos hv), fun v hv => (alarm v).trans (if_neg hv),
    events.frames.trans (frames.trans (frames'.trans ?_)), events.copies.trans (copies.trans (copies'.trans ?_)), events.staged.trans (staged.trans (staged'.trans ?_))⟩
  all_goals rw [State.accessing_eq_obj]

end Sys2Proof.Machine
open Sys2Proof Sys2Proof.Machine

/-- Settles O43: each write through the checks, then its own rule in the state that has counted for the lease. -/
theorem liveWritesAreInForceAtOnce : Obligations.LiveWritesAreInForceAtOnce :=
  ⟨fun _ _ _ _ _ _ _ _ _ g row rw_ kind _ plain => objectWrite_takes g row rw_ kind plain, fun _ _ _ g => incrementWrite_takes g,
    fun _ _ _ _ _ hq lo hi g => ⟨eqConfigWrite_takes hq lo hi g, eqConfigWrite_refuses hq lo hi g⟩, fun _ _ _ _ g => keyWrite_installs g,
    fun _ _ _ hs g => keyErase_erases hs g, fun _ _ _ _ _ hm g notFabric alone => alarmAck_keeps_unmasked hm g notFabric alone⟩

end

section
/-! The data port: what a `dp_data` access checks and moves (R65 to R67). -/
namespace Sys2Proof.Machine

/-! ### When the unit's state forbids an entry (check 6 of Table 2.4) -/

/-- The one rule by which a unit's state forbids an entry: that of a flow queue (R175). -/
def State.entryForbids (s : State) (u i e : Nat) (octets : List Octet) : Bool :=
  !queuedTable u i && unitKind? s.build u = some .sched && i = 0x6000 && s.queueForbids e (s.qCfg e) (ofLsb octets)

section
variable (s : State)

theorem State.stageEntry_ne_modeForbids (a : Agent) (u i e v : Nat) (good : Bool) : (s.stageEntry a u i e v good).1 ≠ .modeForbids := by
  unfold State.stageEntry
  repeat' split
  all_goals simp

theorem State.plainEntry_ne_modeForbids (u i e v : Nat) (good : Bool) : (s.plainEntry u i e v good).1 ≠ .modeForbids := by
  unfold State.plainEntry
  split <;> simp

theorem State.sourceEntryWrite_ne_modeForbids (e v : Nat) : (s.sourceEntryWrite e v).1 ≠ .modeForbids := by
  unfold State.sourceEntryWrite
  split <;> simp

theorem State.policerEntryWrite_ne_modeForbids (e v : Nat) : (s.policerEntryWrite e v).1 ≠ .modeForbids := by
  unfold State.policerEntryWrite
  split <;> simp

theorem State.streamEntryWrite_ne_modeForbids (e v : Nat) : (s.streamEntryWrite e v).1 ≠ .modeForbids := by
  unfold State.streamEntryWrite
  repeat' split
  all_goals simp

theorem State.jobWrite_ne_modeForbids (e v : Nat) (c : Abort) : (s.jobWrite e v c).1 ≠ .modeForbids := by
  unfold State.jobWrite
  dsimp only
  repeat' split
  all_goals simp

theorem State.atlasWrite_ne_modeForbids (a : Agent) (e : Nat) (octets : List Octet) : (s.atlasWrite a e octets).1 ≠ some .modeForbids := by
  unfold State.atlasWrite
  repeat' split
  all_goals simp

theorem State.queueEntryWrite_modeForbids (e v : Nat) : (s.queueEntryWrite e v).1 = .modeForbids ↔ s.queueForbids e (s.qCfg e) v = true := by
  unfold State.queueEntryWrite
  dsimp only
  split
  next forbids => simp [forbids]
  next allows =>
    split
    · simp [allows]
    · simp [allows]

end

theorem State.entryWrite_modeForbids (s : State) (a : Agent) (u i e : Nat) (octets : List Octet) :
    (s.entryWrite a u i e octets).1 = some .modeForbids ↔ s.entryForbids u i e octets = true := by
  have told {r : Abort × State} (h : r.1 ≠ .modeForbids) : (some r.1, r.2).1 ≠ some Abort.modeForbids := fun e => h (Option.some.inj e)
  unfold State.entryForbids
  cases queued : queuedTable u i with
  | true =>
    unfold State.entryWrite
    dsimp only
    rw [if_pos queued]
    repeat' split
    all_goals simp
  | false =>
    by_cases queue : unitKind? s.build u = some .sched ∧ i = 0x6000
    · obtain ⟨kind, rfl⟩ := queue
      unfold State.entryWrite
      simp [queued, kind, s.queueEntryWrite_modeForbids]
    · have allows : (unitKind? s.build u = some .sched && i = 0x6000 : Bool) = false := by simpa using queue
      rw [Bool.not_false, Bool.true_and, allows, Bool.false_and]
      refine iff_of_false ?_ Bool.false_ne_true
      unfold State.entryWrite
      dsimp only
      rw [if_neg (by simp [queued])]
      split
      · exact told (s.stageEntry_ne_modeForbids _ _ _ _ _ _)
      · exact told (s.sourceEntryWrite_ne_modeForbids _ _)
      · exact s.atlasWrite_ne_modeForbids _ _ _
      · exact told (s.plainEntry_ne_modeForbids _ _ _ _ _)
      · exact told (s.policerEntryWrite_ne_modeForbids _ _)
      · exact told (s.plainEntry_ne_modeForbids _ _ _ _ _)
      next kind => exact absurd ⟨kind, rfl⟩ queue
      · exact told (s.stageEntry_ne_modeForbids _ _ _ _ _ _)
      · exact told (s.stageEntry_ne_modeForbids _ _ _ _ _ _)
      · exact told (s.stageEntry_ne_modeForbids _ _ _ _ _ _)
      · exact told (s.streamEntryWrite_ne_modeForbids _ _)
      · exact told (s.jobWrite_ne_modeForbids _ _ _)
      · simp

/-! ### The checks of a `dp_data` access -/

theorem State.dpWriteCheck_eq (s : State) (a : Agent) (boot : Bool) (octets : List Octet) :
    s.dpWriteCheck a boot octets =
      if (s.ctx a).status ≠ .ok then (s.ctx a).status
      else match (s.ctx a).target with
        | none => .modeForbids
        | some t =>
          if (s.targetRow t).any (fun r => r.access = .ro) then .readOnly
          else if (s.tableSize t).1 ≤ ((s.ctx a).joined (s.tableSize t).1 (min octets.length (s.ctx a).length) octets).1.length
              && s.entryForbids t.1 t.2 ((s.ctx a).joined (s.tableSize t).1 (min octets.length (s.ctx a).length) octets).2
                (((s.ctx a).joined (s.tableSize t).1 (min octets.length (s.ctx a).length) octets).1.take (s.tableSize t).1) then .modeForbids
          else if !boot && !s.leaseAllows a t.1 then .leaseHeld
          else if !dpLengthGood octets.length then .length
          else if !boot && s.atlasBusy then .busy
          else .ok := by
  have first (t : Nat × Nat) : s.firstForbids a (s.ctx a) t octets
      = ((s.tableSize t).1 ≤ ((s.ctx a).joined (s.tableSize t).1 (min octets.length (s.ctx a).length) octets).1.length
        && s.entryForbids t.1 t.2 ((s.ctx a).joined (s.tableSize t).1 (min octets.length (s.ctx a).length) octets).2
          (((s.ctx a).joined (s.tableSize t).1 (min octets.length (s.ctx a).length) octets).1.take (s.tableSize t).1)) := by
    unfold State.firstForbids
    simp only [State.entryWrite_modeForbids, Bool.decide_eq_true]
  unfold State.dpWriteCheck
  simp only [first] <;> rfl

/-- The state in which an access runs checks a `dp_data` write as the woken state does. -/
theorem State.dpWriteCheck_accessing (s : State) (a : Agent) (octets : List Octet) :
    (s.accessing a).dpWriteCheck a false octets = (s.awake a).dpWriteCheck a false octets := by
  rw [State.dpWriteCheck_eq, State.dpWriteCheck_eq, State.accessing_eq]
  rfl

/-! ### What a table's shape depends on -/

/-- The size of a table's entries is the same in states of one build, one fabric and one flash. -/
theorem State.entrySize_congr {s t : State} (build : t.build = s.build) (sectors : t.recSectors = s.recSectors) (u i : Nat) :
    (t.tableSize (u, i)).1 = (s.tableSize (u, i)).1 := by
  unfold State.tableSize State.shapeOf
  rw [build, sectors]
  dsimp only
  split_ifs <;> rfl

theorem State.SameChecks.tableSize {s t : State} (h : s.SameChecks t) (x : Nat × Nat) : t.tableSize x = s.tableSize x := by
  unfold State.tableSize State.shapeOf State.childList State.recSectors
  rw [h.build, h.pendingOf, h.members, h.objs _ _ _ (by decide) (by decide)]

theorem State.ButLeases.recSectors {s t : State} (h : s.ButLeases t) : t.recSectors = s.recSectors :=
  h.objs _ _ _ (by decide) (by decide) (by decide)

theorem State.ButLeases.build {s t : State} (h : s.ButLeases t) : t.build = s.build := by rw [h.fields]
theorem State.ButLeases.ctx {s t : State} (h : s.ButLeases t) (a : Agent) : t.ctx a = s.ctx a := by rw [h.fields]; rfl

theorem State.entrySize_wrote (s : State) (a : Agent) (v : Nat) (x : Nat × Nat) : ((s.wrote a v).tableSize x).1 = (s.tableSize x).1 :=
  State.entrySize_congr (State.ButLeases.wrote s a v).build (State.ButLeases.wrote s a v).recSectors x.1 x.2

/-! ### What a `dp_data` write moves -/

@[simp] theorem State.ctx_setCtx (s : State) (a : Agent) (c : DpCtx) : (s.setCtx a c).ctx a = c := Map.get_set_self ..

theorem State.dpWrite_of_refused {s : State} {a : Agent} {boot : Bool} {octets : List Octet} {c : Abort}
    (check : s.dpWriteCheck a boot octets = c) (refused : c ≠ .ok) : s.dpWrite a boot octets = (some c, (s.dpHold a c).refusedAt 0x00E c) := by
  unfold State.dpWrite
  rw [check]
  dsimp only
  split
  · exact absurd rfl refused
  · rfl

/-- The context behind a write of `m` octets of which `gather` are left over. -/
def DpCtx.moved (c : DpCtx) (m : Nat) (gather : List Octet) : DpCtx := { c with offset := c.offset + m, length := c.length - m, gather := gather }

/-- The context at the start of entry `e`, which was refused with `x`. -/
def DpCtx.stopped (c : DpCtx) (e size : Nat) (x : Abort) : DpCtx :=
  { c with offset := e * size, length := c.offset + c.length - e * size, gather := [], status := x }

section
variable {s : State} {a : Agent} {c : DpCtx} {t : Nat × Nat} {octets l : List Octet} {e size : Nat}

/-- Octets that complete no entry are gathered. -/
theorem State.dpMove_of_short (hs : (s.tableSize t).1 = size) (joined : c.joined size (min octets.length c.length) octets = (l, e))
    (short : l.length < size) : s.dpMove a c t octets = (some .ok, e, s.setCtx a (c.moved (min octets.length c.length) l)) := by
  unfold State.dpMove
  simp only [hs, joined, Nat.div_eq_of_lt short, Nat.zero_mul, List.drop_zero]
  rfl

/-- Octets that complete one entry are written to it. -/
theorem State.dpMove_of_one (hs : (s.tableSize t).1 = size) (pos : 0 < size)
    (joined : c.joined size (min octets.length c.length) octets = (l, e)) (whole : l.length = size) :
    s.dpMove a c t octets = match s.entryWrite a t.1 t.2 e l with
      | (some .ok, z) => (some .ok, e + 1, z.setCtx a (c.moved (min octets.length c.length) []))
      | (none, z) => (none, e + 1, z.setCtx a (c.moved (min octets.length c.length) []))
      | (some x, z) => (some x, e, (z.setCtx a (c.stopped e size x)).releaseHeld a) := by
  unfold State.dpMove
  simp only [hs, joined, whole, Nat.div_self pos, Nat.one_mul]
  rw [State.entriesWrite, List.take_of_length_le (by omega), List.drop_of_length_le (by omega)]
  rcases s.entryWrite a t.1 t.2 e l with ⟨_ | x, z⟩
  · rfl
  · cases x <;> rfl

/-- A write that passes its checks counts for the lease of its target and moves its octets. -/
theorem State.dpWrite_of_short (check : s.dpWriteCheck a false octets = .ok) (target : (s.ctx a).target = some t)
    (hs : (s.tableSize t).1 = size) (joined : (s.ctx a).joined size (min octets.length (s.ctx a).length) octets = (l, e))
    (short : l.length < size) :
    s.dpWrite a false octets = (some .ok, (s.wrote a t.1).setCtx a ((s.ctx a).moved (min octets.length (s.ctx a).length) l)) := by
  unfold State.dpWrite
  simp only [check, target, Bool.false_eq_true, if_false]
  rw [State.dpMove_of_short ((s.entrySize_wrote a t.1 t).trans hs) joined short]

section
variable (check : s.dpWriteCheck a false octets = .ok) (target : (s.ctx a).target = some t) (hs : (s.tableSize t).1 = size) (pos : 0 < size)
  (joined : (s.ctx a).joined size (min octets.length (s.ctx a).length) octets = (l, e)) (whole : l.length = size)
include check target hs pos joined whole

theorem State.dpWrite_of_written {z : State} (write : (s.wrote a t.1).entryWrite a t.1 t.2 e l = (some .ok, z)) :
    s.dpWrite a false octets = (some .ok, z.setCtx a ((s.ctx a).moved (min octets.length (s.ctx a).length) [])) := by
  unfold State.dpWrite
  simp only [check, target, Bool.false_eq_true, if_false]
  rw [State.dpMove_of_one ((s.entrySize_wrote a t.1 t).trans hs) pos joined whole, write]

theorem State.dpWrite_of_waiting {z : State} (write : (s.wrote a t.1).entryWrite a t.1 t.2 e l = (none, z)) :
    s.dpWrite a false octets = (none, z.setCtx a ((s.ctx a).moved (min octets.length (s.ctx a).length) [])) := by
  unfold State.dpWrite
  simp only [check, target, Bool.false_eq_true, if_false]
  rw [State.dpMove_of_one ((s.entrySize_wrote a t.1 t).trans hs) pos joined whole, write]

/-- A first entry that is refused leaves the lease as it was. -/
theorem State.dpWrite_of_entry_refused {x : Abort} {y z : State} (write : (s.wrote a t.1).entryWrite a t.1 t.2 e l = (some x, y))
    (before : s.entryWrite a t.1 t.2 e l = (some x, z)) (refused : x ≠ .ok) :
    s.dpWrite a false octets = (some x, ((z.setCtx a ((s.ctx a).stopped e size x)).releaseHeld a).refusedAt 0x00E x) := by
  have moved : (s.wrote a t.1).dpMove a (s.ctx a) t octets = (some x, e, (y.setCtx a ((s.ctx a).stopped e size x)).releaseHeld a) := by
    rw [State.dpMove_of_one ((s.entrySize_wrote a t.1 t).trans hs) pos joined whole, write]
    cases x <;> simp at refused ⊢
  have kept : s.dpMove a (s.ctx a) t octets = (some x, e, (z.setCtx a ((s.ctx a).stopped e size x)).releaseHeld a) := by
    rw [State.dpMove_of_one hs pos joined whole, before]
    cases x <;> simp at refused ⊢
  unfold State.dpWrite
  simp only [check, target, Bool.false_eq_true, if_false, moved, kept, hs, joined]
  cases x <;> simp at refused ⊢

end

end

end Sys2Proof.Machine
end

section
/-! The data port's own objects and the burst aperture (O39). -/
namespace Sys2Proof.Machine

/-! ### `dp_data` is reached -/

/-- The row of `dp_data` (Table 2.10). -/
def dpDataRow : ObjRow := ⟨0x4004, 0x4004, 0, 0, .octets 0, .rw, .hmf, .num 0, .any⟩

theorem State.lookup_dpData (s : State) (a : Agent) : s.lookup a 0x00E 0x4004 0 = .ok dpDataRow := by
  unfold State.lookup
  cases s.build <;> rfl

theorem State.resolvePath_dataport (s : State) : s.resolvePath (pathTo 0x00E) = .here 0x00E := by
  refine s.resolvePath_pathTo_child (by decide) (by decide) ?_
  exact List.mem_append_left _ (List.mem_append_left _ (List.mem_append_left _ (by decide)))

theorem State.readHere_dpData (s : State) (a : Agent) (n : Nat) :
    s.readHere a 0x00E 0x4004 0 (some n) = ⟨(s.dpRead a n).1, (s.dpRead a n).2.1, (s.dpRead a n).2.2⟩ := by
  unfold State.readHere State.lookupOwn
  rw [if_neg (by decide), State.lookup_dpData]
  rfl

theorem State.writeHere_dpData (s : State) (a : Agent) (f : Bool) (octets : List Octet) :
    s.writeHere a f false 0x00E 0x4004 0 octets = ⟨(s.dpWrite a false octets).1, [], (s.dpWrite a false octets).2⟩ := by
  unfold State.writeHere
  rw [State.lookup_dpData, show unitKind? s.build 0x00E = some .dataport from rfl]
  rfl

/-! ### The context and the checks of the state in which an access runs -/

theorem State.ctx_accessing (s : State) (a b : Agent) : (s.accessing a).ctx b = s.ctx b := by
  rw [State.accessing_eq_obj]
  rfl

theorem State.ctx_wake (s : State) (a : Agent) : s.wake.ctx a = s.ctx a := by
  rw [State.wake_eq]
  rfl

theorem State.wake_sameChecks (s : State) : s.SameChecks s.wake := by
  constructor
  case objs => exact fun u i k h _ => s.rd_wake k fun e => h e.1
  all_goals rw [State.wake_eq]

section
variable {s t : State} (h : s.SameChecks t)
include h

theorem State.SameChecks.inFlash (x : Nat × Nat) : t.inFlash x = s.inFlash x := by
  unfold State.inFlash State.nvmState
  rw [h.objs _ _ _ (by decide) (by decide)]

theorem State.SameChecks.dpReadCheck {a : Agent} (ctx : t.ctx a = s.ctx a) (n : Nat) : t.dpReadCheck a n = s.dpReadCheck a n := by
  unfold State.dpReadCheck State.targetRow State.nvmHeld State.pfailFrozen State.fbState
  rw [ctx, h.build, h.objs _ _ _ (by decide) (by decide)]

theorem State.SameChecks.dpPlace {a : Agent} (ctx : t.ctx a = s.ctx a) (v other : Nat) : t.dpPlace a v other = s.dpPlace a v other := by
  unfold State.dpPlace
  simp only [ctx, h.tableSize]

theorem State.SameChecks.dpResolve (snaps : t.snapBusy = s.snapBusy) (a : Agent) (path : List Nat) (i : Nat) :
    t.dpResolve a path i = s.dpResolve a path i := by
  unfold State.dpResolve State.slotBusy
  simp only [h.resolvePath, h.lookupOwn, snaps]

end

/-! ### Reads of `dp_data` (R67) -/

/-- What a read of `n` octets returns and how the context moves. -/
theorem State.dpRead_delivers {s : State} {a : Agent} {n u i : Nat} (check : s.dpReadCheck a n = .ok) (target : (s.ctx a).target = some (u, i))
    (noFlash : s.inFlash (u, i) = false) :
    s.dpRead a n = (some .ok, s.tableOctets u i (s.tableSize (u, i)).1 (s.ctx a).offset (min n (s.ctx a).length)
        ++ List.replicate (n - min n (s.ctx a).length) 0,
      s.setCtx a ((s.ctx a).moved (min n (s.ctx a).length) (if min n (s.ctx a).length = 0 then (s.ctx a).gather else []))) := by
  have wait : ¬(s.dpReadCheck a n = .ok ∧ (s.ctx a).target.any s.inFlash = true) := by simp [target, noFlash]
  unfold State.dpRead
  rw [if_neg wait]
  unfold State.dpDeliver
  generalize s.ctx a = c at target ⊢
  obtain ⟨pathLen, path, t, tIndex, offset, length, status, gather⟩ := c
  subst target
  rw [check]
  rfl

theorem State.dpRead_waits {s : State} {a : Agent} {n u i : Nat} (check : s.dpReadCheck a n = .ok) (target : (s.ctx a).target = some (u, i))
    (flash : s.inFlash (u, i) = true) : s.dpRead a n = (none, [], s.queueOp (.read a n)) := by
  unfold State.dpRead
  rw [check, target, if_pos ⟨rfl, flash⟩]

/-- An operation queued for the port waits there or is begun; nothing has been read. -/
theorem State.queueOp_facts (s : State) (o : NvmOp) : o ∈ (s.queueOp o).nvmQ ∧ (s.queueOp o).dpCtx = s.dpCtx
    ∧ (s.queueOp o).flash = s.flash ∧ (s.queueOp o).result = s.result := by
  have started := (State.ButEvents.programStart { s with nvmQ := s.nvmQ ++ [o] }).fields
  have queued : o ∈ s.nvmQ ++ [o] := List.mem_append_right _ (List.mem_singleton_self o)
  have kept (x : State) (h : x = { ({ s with nvmQ := s.nvmQ ++ [o] } : State) with
      obj := x.obj, tab := x.tab, hid := x.hid, timers := x.timers, latches := x.latches, lastFixed := x.lastFixed, lastSd := x.lastSd
      lastVar := x.lastVar, evHold := x.evHold, monQ := x.monQ, free := x.free }) :
      x.nvmQ = s.nvmQ ++ [o] ∧ x.dpCtx = s.dpCtx ∧ x.flash = s.flash ∧ x.result = s.result := by
    rw [h]
    exact ⟨rfl, rfl, rfl, rfl⟩
  obtain ⟨nvmQ, ctx, flash, result⟩ := kept _ started
  rw [← nvmQ] at queued
  unfold State.queueOp State.portNext
  dsimp only
  split
  · exact ⟨queued, ctx, flash, result⟩
  · split
    · exact ⟨queued, ctx, flash, result⟩
    next next_ _ =>
      refine ⟨?_, ctx, flash, result⟩
      by_cases same : o = next_
      · exact same ▸ List.mem_cons_self
      · exact List.mem_cons_of_mem _ ((List.mem_erase_of_ne same).mpr queued)

theorem dpDataRead_delivers {a : Agent} {n u i : Nat} {s : State} (up : s.mainUp = true) (check : s.dpReadCheck a n = .ok)
    (target : (s.ctx a).target = some (u, i)) (noFlash : s.inFlash (u, i) = false) :
    exec (.dpDataRead a n) s = .next { (s.awake a).setCtx a ((s.ctx a).moved (min n (s.ctx a).length)
        (if min n (s.ctx a).length = 0 then (s.ctx a).gather else [])) with
      result := ⟨a, some .ok, (s.awake a).tableOctets u i ((s.awake a).tableSize (u, i)).1 (s.ctx a).offset (min n (s.ctx a).length)
        ++ List.replicate (n - min n (s.ctx a).length) 0⟩ } := by
  have same := s.accessing_sameChecks a
  have ctx := s.ctx_accessing a a
  have reads := State.dpRead_delivers ((same.dpReadCheck ctx n).trans check) (ctx ▸ target) ((same.inFlash _).trans noFlash)
  show s.readUnit a 0x00E 0x4004 0 (some n) = _
  rw [State.readUnit_eq up s.resolvePath_dataport (by rw [State.readHere_dpData, reads]; rfl), State.readHere_dpData, reads, ctx, State.accessing_eq,
    State.awake_eq]
  rfl

theorem dpDataRead_waits {a : Agent} {n u i : Nat} {s : State} (up : s.mainUp = true) (check : s.dpReadCheck a n = .ok)
    (target : (s.ctx a).target = some (u, i)) (flash : s.inFlash (u, i) = true) :
    ∃ t, exec (.dpDataRead a n) s = .next t ∧ t.result = ⟨a, none, []⟩ ∧ .read a n ∈ t.nvmQ ∧ t.ctx a = s.ctx a
      ∧ t.flash = s.flash := by
  have same := s.accessing_sameChecks a
  have ctx := s.ctx_accessing a a
  have reads := State.dpRead_waits ((same.dpReadCheck ctx n).trans check) (ctx ▸ target) ((same.inFlash _).trans flash)
  obtain ⟨t, ht, events⟩ := State.readUnit_butEvents up s.resolvePath_dataport 0x4004 0 (some n) (a := a)
  rw [State.readHere_dpData, reads] at events
  obtain ⟨queued, dpCtx, flash', result⟩ := (s.accessing a).queueOp_facts (.read a n)
  refine ⟨t, ht, events.result.trans result, ?_, ?_, ?_⟩
  · rw [events.fields]
    exact queued
  · rw [← ctx, events.fields]
    exact congrArg (fun m => Map.get m (a.kind, a.slot) noCtx) dpCtx
  · rw [events.fields]
    refine flash'.trans ?_
    rw [State.accessing_eq_obj]

/-! ### The objects of a context (R66) -/

theorem State.dpResolve_code {s : State} {a : Agent} {path : List Nat} {i : Nat} {e : Abort} (h : s.dpResolve a path i = .error e) :
    e ≠ .ok ∧ e ≠ .editionBusy := by
  unfold State.dpResolve State.lookupOwn State.lookup at h
  repeat' split at h
  all_goals grind

/-- A context object that may be written is live and exempt from the lease (R61). -/
theorem State.effectOf_ctx {s : State} {a : Agent} {i k : Nat} {d : List Octet} {r : ObjRow} {kd : UnitKind} (x : s.Admits a 0x00E i k d r kd)
    (lo : 0x4000 ≤ i) (hi : i < 0x5000) (t : State) (v : Nat) : t.effectOf a false kd r 0x00E i k v = t.ctxWrite a i k v := by
  obtain rfl := x.kind_eq (kd' := .dataport) rfl
  rw [State.effectOf, State.live_of_idx x.row x.scalar lo hi]
  rfl

/-- A write of a context object that its checks allow ends with OK and does what it does to the context. -/
theorem ctxWrite_takes {a : Agent} {i : Nat} {d : List Octet} {s : State} {c : DpCtx} (g : s.grants a (pathTo 0x00E) 0x00E i 0 d = true)
    (lo : 0x4000 ≤ i) (hi : i < 0x4004) (takes : (s.accessing a).ctxWrite a i 0 (ofMsb d) = .ends .ok ((s.accessing a).setCtx a c)) :
    ∃ t, s.accessUnit a 0x00E i 0 d = .next t ∧ t.result = ⟨a, some .ok, []⟩ ∧ t.ctx a = c := by
  obtain ⟨r, kd, t, x, ht, events⟩ := State.access_of_grants g
  have effect := State.effectOf_ctx x lo (by omega)
  obtain rfl := x.kind_eq (kd' := .dataport) rfl
  rw [x.writeHere_passes (by omega) (by omega) (by rw [effect, takes]; rfl), State.counted, if_pos (by simp [exempt, lo]), effect, takes] at events
  have rw_ := State.live_of_idx x.row x.scalar lo (by omega)
  rw [Effect.reply, State.ranCode, rw_] at events
  refine ⟨t, ht, events.result, ?_⟩
  rw [events.fields]
  exact State.ctx_setCtx (s.accessing a) a c

theorem dpTargetWrite_sets {a : Agent} {v u : Nat} {s : State} (hv : v < 2 ^ 16)
    (g : s.grants a (pathTo 0x00E) 0x00E 0x4001 0 (toMsb 2 v) = true)
    (target : s.dpResolve a ((s.ctx a).path.take (s.ctx a).pathLen) v = .ok u) :
    ∃ t, exec (.dpTargetWrite a v) s = .next t ∧ t.result = ⟨a, some .ok, []⟩
      ∧ t.ctx a = { s.ctx a with target := some (u, v), tIndex := v, offset := 0, length := 0, status := .ok, gather := [] } := by
  refine ctxWrite_takes g (by decide) (by decide) ?_
  rw [ofMsb_toMsb 2 hv]
  have same := (s.accessing_sameChecks a).dpResolve (by rw [State.accessing_eq_obj]) a ((s.ctx a).path.take (s.ctx a).pathLen) v
  simp only [State.ctxWrite, State.dpTarget, State.ctx_accessing, same, target]
  rfl

theorem dpTargetWrite_refuses {a : Agent} {v : Nat} {e : Abort} {s : State} (hv : v < 2 ^ 16)
    (g : s.grants a (pathTo 0x00E) 0x00E 0x4001 0 (toMsb 2 v) = true)
    (target : s.dpResolve a ((s.ctx a).path.take (s.ctx a).pathLen) v = .error e) :
    ∃ t, exec (.dpTargetWrite a v) s = .next t ∧ t.result.code = some e ∧ t.ctx a = s.ctx a := by
  obtain ⟨notOk, code⟩ := State.dpResolve_code target
  obtain ⟨r, kd, t, x, ht, events⟩ := State.access_of_grants g
  have same := (s.accessing_sameChecks a).dpResolve (by rw [State.accessing_eq_obj]) a ((s.ctx a).path.take (s.ctx a).pathLen) v
  have refused : (s.accessing a).effectOf a false kd r 0x00E 0x4001 0 (ofMsb (toMsb 2 v)) = .refused e (s.accessing a) := by
    rw [State.effectOf_ctx x (by decide) (by decide), ofMsb_toMsb 2 hv]
    simp only [State.ctxWrite, State.dpTarget, State.ctx_accessing, same, target, Effect.told, if_neg notOk]
  rw [x.writeHere_refused (by omega) code refused] at events
  have kept : ((s.accessing a).refusedAt 0x00E e).ctx a = s.ctx a := by
    rw [State.refusedAt, if_neg notOk, ← s.ctx_accessing a a]
    rfl
  refine ⟨t, ht, by rw [events.result]; rfl, ?_⟩
  rw [events.fields, ← kept]
  rfl

theorem dpOffsetWrite_sets {a : Agent} {v : Nat} {s : State} (hv : v < 2 ^ 32) (g : s.grants a (pathTo 0x00E) 0x00E 0x4002 0 (toMsb 4 v) = true)
    (place : s.dpPlace a v (s.ctx a).length = .ok) :
    ∃ t, exec (.dpOffsetWrite a v) s = .next t ∧ t.result = ⟨a, some .ok, []⟩ ∧ t.ctx a = { s.ctx a with offset := v, gather := [] } := by
  refine ctxWrite_takes g (by decide) (by decide) ?_
  have same := (s.accessing_sameChecks a).dpPlace (s.ctx_accessing a a) v (s.ctx a).length
  rw [ofMsb_toMsb 4 hv]
  simp only [State.ctxWrite, State.dpOffset, State.ctx_accessing, same, place]
  rfl

theorem dpLengthWrite_sets {a : Agent} {v : Nat} {s : State} (hv : v < 2 ^ 32) (g : s.grants a (pathTo 0x00E) 0x00E 0x4003 0 (toMsb 4 v) = true)
    (place : s.dpPlace a v (s.ctx a).offset = .ok) :
    ∃ t, exec (.dpLengthWrite a v) s = .next t ∧ t.result = ⟨a, some .ok, []⟩ ∧ t.ctx a = { s.ctx a with length := v } := by
  refine ctxWrite_takes g (by decide) (by decide) ?_
  have same := (s.accessing_sameChecks a).dpPlace (s.ctx_accessing a a) v (s.ctx a).offset
  rw [ofMsb_toMsb 4 hv]
  simp only [State.ctxWrite, State.dpLength, State.ctx_accessing, same, place]
  rfl

/-! ### Writes of `dp_data` (R67) -/

/-- A `dp_data` write comes to what the transfer comes to, with no data whatever its code. -/
theorem dpDataWrite_butEvents {a : Agent} {octets : List Octet} {s : State} (up : s.mainUp = true) :
    ∃ t, exec (.dpDataWrite a octets) s = .next t
      ∧ (Reply.toldTo ⟨((s.accessing a).dpWrite a false octets).1, [], ((s.accessing a).dpWrite a false octets).2⟩ a).ButEvents t := by
  obtain ⟨t, ht, events⟩ := State.access_butEvents up s.resolvePath_dataport 0x4004 0 octets (a := a)
  rw [State.writeHere_dpData] at events
  exact ⟨t, ht, events⟩

/-- A `dp_data` write that ends and raises no event, exactly. -/
theorem dpDataWrite_eq {a : Agent} {octets : List Octet} {c : Abort} {s z : State} (up : s.mainUp = true)
    (write : (s.accessing a).dpWrite a false octets = (some c, z)) (quiet : z.evHold = (s.accessing a).evHold) :
    exec (.dpDataWrite a octets) s = .next { z with result := ⟨a, some c, []⟩, evHold := s.evHold } := by
  have data := (s.accessing a).writeHere_dpData a false octets
  rw [write] at data
  show s.access a (pathTo 0x00E) 0x4004 0 octets = _
  rw [State.access_eq up s.resolvePath_dataport (by rw [data]; exact quiet), data]
  rfl

theorem dpDataWrite_refused {a : Agent} {octets : List Octet} {c : Abort} {s : State} (up : s.mainUp = true)
    (check : (s.awake a).dpWriteCheck a false octets = c) (refused : c ≠ .ok) :
    exec (.dpDataWrite a octets) s = .next { ((s.awake a).dpHold a c).latch 0x00E 3 with result := ⟨a, some c, []⟩ } := by
  have write := State.dpWrite_of_refused ((s.dpWriteCheck_accessing a octets).trans check) refused
  rw [State.refusedAt, if_neg refused] at write
  rw [dpDataWrite_eq up write rfl, State.accessing_eq, State.awake_eq]
  rfl

/-- What the context holds of a write is what it holds in the state of the access. -/
theorem State.entrySize_accessing (s : State) (a : Agent) (x : Nat × Nat) : ((s.accessing a).tableSize x).1 = (s.tableSize x).1 := by
  rw [(s.accessing_sameChecks a).tableSize]

theorem dpDataWrite_gathers {a : Agent} {octets : List Octet} {u i : Nat} {s : State} (up : s.mainUp = true)
    (check : (s.awake a).dpWriteCheck a false octets = .ok) (target : (s.ctx a).target = some (u, i))
    (short : ((s.ctx a).joined (s.tableSize (u, i)).1 (min octets.length (s.ctx a).length) octets).1.length < (s.tableSize (u, i)).1) :
    ∃ t, exec (.dpDataWrite a octets) s = .next t ∧ t.result = ⟨a, some .ok, []⟩
      ∧ (∀ v j e, v ≠ 0x002 → v ≠ 0x004 → t.ent v j e = s.ent v j e) ∧ t.ctx a = (s.ctx a).moved (min octets.length (s.ctx a).length)
        ((s.ctx a).joined (s.tableSize (u, i)).1 (min octets.length (s.ctx a).length) octets).1 := by
  have write := State.dpWrite_of_short ((s.dpWriteCheck_accessing a octets).trans check) ((congrArg _ (s.ctx_accessing a a)).trans target)
    (s.entrySize_accessing a (u, i)) rfl (by rw [s.ctx_accessing]; exact short)
  rw [s.ctx_accessing] at write
  obtain ⟨t, ht, events⟩ := dpDataWrite_butEvents up (a := a) (octets := octets)
  rw [write] at events
  refine ⟨t, ht, events.result, fun v j e irq trace => ?_, ?_⟩
  · refine (events.ents v j e irq trace).trans (((s.counting_butLeases a u).ents v j e irq trace).trans ?_)
    rw [State.accessing_eq_obj]
    rfl
  · rw [events.fields]
    exact State.ctx_setCtx ..

theorem State.endpointSetWrite_eq (x : State) (b : Agent) (n : Nat) (d : List Octet) :
    x.entryWrite b 0x006 0x6004 n d = (some (x.plainEntry 0x006 0x6004 n (ofLsb d) (endpointSetGood x.build (ofLsb d))).1,
      (x.plainEntry 0x006 0x6004 n (ofLsb d) (endpointSetGood x.build (ofLsb d))).2) := rfl

/-- A latch sets its bit. -/
theorem setBit_three_true (v : Nat) : setBit v 3 true = v ||| 8 := by
  have split : v = 2 ^ 4 * (v / 16) + v % 16 := by omega
  have low : ∀ r < 16, setBit r 3 true = r ||| 8 := by decide
  have lt : (v % 16 ||| 8) < 2 ^ 4 := Nat.or_lt_two_pow (by omega) (by decide)
  calc
    setBit v 3 true = 2 ^ 4 * (v / 16) + setBit (v % 16) 3 true := by
      simp only [setBit, setField, field, Bool.toNat_true]
      omega
    _ = 2 ^ 4 * (v / 16) ||| (v % 16 ||| 8) := by
      rw [low _ (by omega), Nat.two_pow_add_eq_or_of_lt lt]
    _ = v ||| 8 := by
      rw [← Nat.or_assoc, ← Nat.two_pow_add_eq_or_of_lt (by omega : v % 16 < 2 ^ 4), ← split]

theorem State.rd_refusedAt (s : State) (u : Nat) {c : Abort} (refused : c ≠ .ok) :
    (s.refusedAt u c).rd u 0x0005 0 = s.rd u 0x0005 0 ||| 8 := by
  rw [State.refusedAt, if_neg refused, State.latch, State.rd_wr_self, setBit_three_true]

theorem State.refusedAt_keeps_contexts (s : State) (u : Nat) (c : Abort) :
    (∀ b, (s.refusedAt u c).ctx b = s.ctx b) ∧ ∀ v i e, (s.refusedAt u c).ent v i e = s.ent v i e := by
  unfold State.refusedAt
  split
  · exact ⟨fun _ => rfl, fun _ _ _ => rfl⟩
  · exact ⟨fun _ => rfl, fun _ _ _ => rfl⟩

theorem State.refusedAt_evHold (s : State) (u : Nat) (c : Abort) : (s.refusedAt u c).evHold = s.evHold := by
  unfold State.refusedAt
  split <;> rfl

theorem State.ent_releaseHeld (s : State) (a : Agent) (c : DpCtx) (u i e : Nat) : ((s.setCtx a c).releaseHeld a).ent u i e = s.ent u i e := rfl

theorem State.ent_accessing (s : State) (a : Agent) (u i e : Nat) : (s.accessing a).ent u i e = s.ent u i e := by
  rw [State.accessing_eq_obj]
  rfl

section
variable {a : Agent} {octets l : List Octet} {e : Nat} {s : State} (up : s.mainUp = true)
  (check : (s.awake a).dpWriteCheck a false octets = .ok) (target : (s.ctx a).target = some (0x006, 0x6004))
  (joined : (s.ctx a).joined 16 (min octets.length (s.ctx a).length) octets = (l, e)) (whole : l.length = 16)
include up check target joined whole

theorem dpDataWrite_endpointSet (good : endpointSetGood s.build (ofLsb l) = true) :
    ∃ t, exec (.dpDataWrite a octets) s = .next t ∧ t.result = ⟨a, some .ok, []⟩
      ∧ t.ent 0x006 0x6004 e = ofLsb l ∧ (∀ x, x ≠ e → t.ent 0x006 0x6004 x = s.ent 0x006 0x6004 x)
      ∧ t.ctx a = (s.ctx a).moved (min octets.length (s.ctx a).length) [] := by
  have build : (s.counting a 0x006).build = s.build := by rw [(s.counting_butLeases a 0x006).build, (s.accessing_sameChecks a).build]
  have write := State.dpWrite_of_written ((s.dpWriteCheck_accessing a octets).trans check) ((congrArg _ (s.ctx_accessing a a)).trans target)
    (size := 16) rfl (by decide) (by rw [s.ctx_accessing]; exact joined) whole
    (z := (s.counting a 0x006).setEnt 0x006 0x6004 e (ofLsb l)) (by
      show (s.counting a 0x006).entryWrite a 0x006 0x6004 e l = _
      rw [State.endpointSetWrite_eq, State.plainEntry, build, good]
      rfl)
  obtain ⟨t, ht, events⟩ := dpDataWrite_butEvents up (a := a) (octets := octets)
  rw [write, s.ctx_accessing] at events
  have kept (x : Nat) : (s.counting a 0x006).ent 0x006 0x6004 x = s.ent 0x006 0x6004 x :=
    ((s.counting_butLeases a 0x006).ents 0x006 0x6004 x (by decide) (by decide)).trans (s.ent_accessing ..)
  refine ⟨t, ht, events.result, (events.ents 0x006 0x6004 e (by decide) (by decide)).trans (State.ent_setEnt_self ..), fun x hx => ?_, ?_⟩
  · exact (events.ents 0x006 0x6004 x (by decide) (by decide)).trans (((State.ent_setEnt ..).trans (if_neg (by simp [hx]))).trans (kept x))
  · rw [events.fields]
    exact State.ctx_setCtx ..

theorem dpDataWrite_endpointSet_refused (bad : endpointSetGood s.build (ofLsb l) = false) :
    ∃ t, exec (.dpDataWrite a octets) s = .next t ∧ t.result = ⟨a, some .range, []⟩
      ∧ (∀ x, t.ent 0x006 0x6004 x = s.ent 0x006 0x6004 x) ∧ t.rd 0x00E 0x0005 0 = s.rd 0x00E 0x0005 0 ||| 8
      ∧ t.ctx a = (s.ctx a).stopped e 16 .range := by
  have refused (x : State) (build : x.build = s.build) : x.entryWrite a 0x006 0x6004 e l = (some .range, x) := by
    rw [State.endpointSetWrite_eq, State.plainEntry, build, bad]
    rfl
  have build := (s.accessing_sameChecks a).build
  have write := State.dpWrite_of_entry_refused ((s.dpWriteCheck_accessing a octets).trans check)
    ((congrArg _ (s.ctx_accessing a a)).trans target) (size := 16) rfl (by decide) (by rw [s.ctx_accessing]; exact joined) whole
    (refused _ ((State.ButLeases.wrote _ a 0x006).build.trans build)) (refused _ build) (by decide)
  rw [s.ctx_accessing] at write
  have stopped := (s.accessing a).ent_releaseHeld a ((s.ctx a).stopped e 16 .range) 0x006 0x6004
  generalize hz : ((s.accessing a).setCtx a ((s.ctx a).stopped e 16 .range)).releaseHeld a = z at write stopped
  obtain ⟨ctx, ents⟩ := z.refusedAt_keeps_contexts 0x00E .range
  refine ⟨_, dpDataWrite_eq up write ?_, rfl, fun x => ?_, ?_, ?_⟩
  · rw [State.refusedAt_evHold, ← hz]
    rfl
  · exact (ents 0x006 0x6004 x).trans ((stopped x).trans (s.ent_accessing ..))
  · refine (z.rd_refusedAt 0x00E (c := .range) (by decide)).trans (congrArg (· ||| 8) ?_)
    rw [← hz]
    exact s.rd_accessing a 0 (u := 0x00E) (i := 0x0005) (by decide)
  · refine (ctx a).trans ?_
    rw [← hz]
    exact State.ctx_setCtx (s.accessing a) a _

end

/-! ### The burst aperture (R68) -/

section
variable {w width : Nat} {s : State} (up : s.mainUp = true) (hw : w < 8)
include up hw

/-- An aperture of this device takes accesses while the main domain has power. -/
theorem apertureServes : ¬(!s.mainUp ∨ 8 ≤ w) := by
  rw [up]
  simpa using hw

theorem dpAperture_align (word : Nat) (other : width ≠ 64) :
    exec (.dpApertureRead w width) s
      = .next ((s.wake.dpHold (windowAgent w) .align).complete (windowAgent w) .align (List.replicate (width / 8) 0))
    ∧ exec (.dpApertureWrite w width word) s = .next ((s.wake.dpHold (windowAgent w) .align).complete (windowAgent w) .align) := by
  constructor
  · show execDpApertureRead w width s = _
    unfold execDpApertureRead
    rw [if_neg (apertureServes up hw)]
    exact if_pos other
  · show execDpApertureWrite w width word s = _
    unfold execDpApertureWrite
    rw [if_neg (apertureServes up hw)]
    exact if_pos other

theorem execDpApertureRead_wide : exec (.dpApertureRead w 64) s = match s.wake.dpRead (windowAgent w) 8 with
    | (some .ok, l, s1) => .next (s1.complete (windowAgent w) .ok l)
    | (some e, _, s1) => .next (s1.complete (windowAgent w) e (List.replicate 8 0))
    | (none, _, s1) => .next { s1 with result := ⟨windowAgent w, none, []⟩ } := by
  show execDpApertureRead w 64 s = _
  unfold execDpApertureRead
  rw [if_neg (apertureServes up hw)]
  rfl

section
variable {u i : Nat} (check : s.dpReadCheck (windowAgent w) 8 = .ok) (target : (s.ctx (windowAgent w)).target = some (u, i))
include check target

theorem dpApertureRead_delivers (noFlash : s.inFlash (u, i) = false) :
    ∃ t, exec (.dpApertureRead w 64) s = .next t ∧ t.obj = s.wake.obj ∧ t.tab = s.tab
      ∧ t.result = ⟨windowAgent w, some .ok, s.wake.tableOctets u i (s.wake.tableSize (u, i)).1 (s.ctx (windowAgent w)).offset
          (min 8 (s.ctx (windowAgent w)).length) ++ List.replicate (8 - min 8 (s.ctx (windowAgent w)).length) 0⟩ := by
  have ctx := s.ctx_wake (windowAgent w)
  have reads := State.dpRead_delivers ((s.wake_sameChecks.dpReadCheck ctx 8).trans check) (ctx ▸ target)
    ((s.wake_sameChecks.inFlash _).trans noFlash)
  rw [execDpApertureRead_wide up hw, reads, ctx]
  refine ⟨_, rfl, rfl, ?_, rfl⟩
  rw [State.wake_eq]
  rfl

theorem dpApertureRead_waits (flash : s.inFlash (u, i) = true) :
    ∃ t, exec (.dpApertureRead w 64) s = .next t ∧ t.result = ⟨windowAgent w, none, []⟩ ∧ .read (windowAgent w) 8 ∈ t.nvmQ
      ∧ t.ctx (windowAgent w) = s.ctx (windowAgent w) ∧ t.flash = s.flash := by
  have ctx := s.ctx_wake (windowAgent w)
  have reads := State.dpRead_waits ((s.wake_sameChecks.dpReadCheck ctx 8).trans check) (ctx ▸ target)
    ((s.wake_sameChecks.inFlash _).trans flash)
  obtain ⟨queued, dpCtx, flash', -⟩ := s.wake.queueOp_facts (.read (windowAgent w) 8)
  rw [execDpApertureRead_wide up hw, reads]
  refine ⟨_, rfl, rfl, queued, ?_, flash'.trans ?_⟩
  · rw [← ctx]
    exact congrArg (fun m => Map.get m ((windowAgent w).kind, (windowAgent w).slot) noCtx) dpCtx
  · rw [State.wake_eq]

end

theorem dpApertureWrite_gathers {word u i : Nat} (check : s.wake.dpWriteCheck (windowAgent w) false (toLsb 8 word) = .ok)
    (target : (s.ctx (windowAgent w)).target = some (u, i))
    (short : ((s.ctx (windowAgent w)).joined (s.tableSize (u, i)).1 (min 8 (s.ctx (windowAgent w)).length) (toLsb 8 word)).1.length
      < (s.tableSize (u, i)).1) :
    ∃ t, exec (.dpApertureWrite w 64 word) s = .next t ∧ t.result = ⟨windowAgent w, some .ok, []⟩
      ∧ (t.ctx (windowAgent w)).gather
        = ((s.ctx (windowAgent w)).joined (s.tableSize (u, i)).1 (min 8 (s.ctx (windowAgent w)).length) (toLsb 8 word)).1 := by
  have ctx := s.ctx_wake (windowAgent w)
  have size : (s.wake.tableSize (u, i)).1 = (s.tableSize (u, i)).1 := by rw [s.wake_sameChecks.tableSize]
  have write := State.dpWrite_of_short check (ctx ▸ target) size rfl (by rw [ctx, length_toLsb]; exact short)
  rw [ctx, length_toLsb] at write
  have exact_ : exec (.dpApertureWrite w 64 word) s = .next (((s.wake.wrote (windowAgent w) u).setCtx (windowAgent w)
      ((s.ctx (windowAgent w)).moved (min 8 (s.ctx (windowAgent w)).length)
        ((s.ctx (windowAgent w)).joined (s.tableSize (u, i)).1 (min 8 (s.ctx (windowAgent w)).length) (toLsb 8 word)).1)).complete
      (windowAgent w) .ok) := by
    show execDpApertureWrite w 64 word s = _
    unfold execDpApertureWrite
    rw [if_neg (apertureServes up hw)]
    dsimp only
    rw [if_neg (by decide), write]
    rfl
  exact ⟨_, exact_, rfl, congrArg DpCtx.gather (State.ctx_setCtx (s.wake.wrote (windowAgent w) u) _ _)⟩

end

end Sys2Proof.Machine
open Sys2Proof Sys2Proof.Machine

/-- Settles O39: the objects of the context, the reads and writes of `dp_data`, and the burst aperture. -/
theorem dataPortMovesWholeEntries : Obligations.DataPortMovesWholeEntries := by
  refine ⟨fun a v s hv g => ⟨fun u target => dpTargetWrite_sets hv g target, fun e target => dpTargetWrite_refuses hv g target⟩,
    fun a v s hv g place => dpOffsetWrite_sets hv g place, fun a v s hv g place => dpLengthWrite_sets hv g place,
    fun a n u i s up check target noFlash => dpDataRead_delivers up check target noFlash,
    fun a n u i s up check target flash => dpDataRead_waits up check target flash,
    fun a octets c s up check refused => dpDataWrite_refused up check refused,
    fun a octets u i s up check target short => dpDataWrite_gathers up check target short,
    fun a octets l e s up check target joined whole _ => ⟨fun good => dpDataWrite_endpointSet up check target joined whole good, fun bad => ?_⟩,
    fun w width word s up hw other => dpAperture_align up hw word other,
    fun w u i s up hw check target noFlash => dpApertureRead_delivers up hw check target noFlash,
    fun w u i s up hw check target flash => dpApertureRead_waits up hw check target flash,
    fun w word u i s up hw check target short => dpApertureWrite_gathers up hw check target short⟩
  rw [Nat.mul_comm 16 e]
  exact dpDataWrite_endpointSet_refused up check target joined whole bad

end

section
/-! Whole entries of tables written as rows of their own (O40): how they pass the data port, and what each table does with its entry. -/
namespace Sys2Proof.Machine

/-! ### An access writes no entry before its effect: its events are held -/

theorem State.rd_leaseChanged (s : State) (u : Nat) {v i : Nat} (k : Nat) (alarm : i ≠ 0x0005) : (s.leaseChanged u).rd v i k = s.rd v i k := by
  unfold State.leaseChanged
  generalize subtree s.build u = l
  induction l generalizing s with
  | nil => rfl
  | cons x l ih => exact (ih (s.latch x 2)).trans (State.rd_wr_ne s _ fun e => alarm e.2.1)

/-- Events are held, so that of the stores only objects 0x0005 have changed. -/
structure State.HeldTables (s t : State) : Prop where
  held   : t.evHold.isSome = true
  tables : t.tab = s.tab
  regs   : t.hid = s.hid
  objs   : ∀ u i k, i ≠ 0x0005 → t.rd u i k = s.rd u i k

namespace State.HeldTables
variable {r s t : State}

theorem refl (h : s.evHold.isSome = true) : s.HeldTables s := ⟨h, rfl, rfl, fun _ _ _ _ => rfl⟩
theorem trans (h : r.HeldTables s) (k : s.HeldTables t) : r.HeldTables t := 
  ⟨k.held, k.tables.trans h.tables, k.regs.trans h.regs, fun u i n e => (k.objs u i n e).trans (h.objs u i n e)⟩

theorem record (h : s.evHold.isSome = true) (code source : Nat) (vals : List (Nat × Nat)) : s.HeldTables (s.record code source vals) := by
  unfold State.record
  dsimp only
  split
  · exact ⟨rfl, rfl, rfl, fun _ _ _ _ => rfl⟩
  next none => simp [none] at h

theorem leaseChanged (h : s.evHold.isSome = true) (u : Nat) : s.HeldTables (s.leaseChanged u) where
  held := by
    rw [State.leaseChanged_eq]
    exact h
  tables := by rw [State.leaseChanged_eq]
  regs := by rw [State.leaseChanged_eq]
  objs _ _ k alarm := s.rd_leaseChanged u k alarm

theorem endLease (h : s.evHold.isSome = true) (l : Lease) (new cause : Nat) : s.HeldTables (s.endLease l new cause) := by
  have dropped : s.HeldTables (State.dropPending { s with leases := s.leases.filter (fun x => x.unit ≠ l.unit) } l.holder l.unit) :=
    ⟨h, rfl, rfl, fun _ _ _ _ => rfl⟩
  have changed := dropped.trans (leaseChanged dropped.held l.unit)
  exact changed.trans (record changed.held ..)

theorem takeLease (h : s.evHold.isSome = true) (a : Agent) (u : Nat) : s.HeldTables (s.takeLease a u) := by
  have merged (l : List Lease) : ∀ {s : State}, s.evHold.isSome = true → s.HeldTables (l.foldl State.mergeLease s) := by
    induction l with
    | nil => exact fun h => refl h
    | cons x l ih => exact fun h => (endLease h x _ _).trans (ih (endLease h x _ _).held)
  obtain ⟨held, tables, regs, objs⟩ := merged (s.leases.filter fun l => covers u l.unit && sameAgent l.holder a) h
  exact ⟨held, tables, regs, objs⟩

theorem wrote (h : s.evHold.isSome = true) (a : Agent) (u : Nat) : s.HeldTables (s.wrote a u) := by
  unfold State.wrote State.leaseRecord
  split
  · unfold State.renew
    split
    · exact ⟨h, rfl, rfl, fun _ _ _ _ => rfl⟩
    · exact refl h
  · exact (takeLease h a u).trans (record (takeLease h a u).held ..)

end State.HeldTables

theorem State.holding_isSome (s : State) : s.holding.evHold.isSome = true := by
  unfold State.holding
  split
  next h => simp [h]
  · rfl

theorem State.counting_held (s : State) (a : Agent) (u : Nat) : (s.accessing a).HeldTables (s.counting a u) := by
  refine .wrote ?_ a u
  rw [State.accessing_eq]
  exact (s.awake a).holding_isSome

theorem State.counting_tab (s : State) (a : Agent) (u : Nat) : (s.counting a u).tab = s.tab := by
  refine (s.counting_held a u).tables.trans ?_
  rw [State.accessing_eq_obj]

/-- An access wakes the device at most. -/
theorem State.counting_mainUp {s : State} (up : s.mainUp = true) (a : Agent) (u : Nat) : (s.counting a u).mainUp = true := by
  have held := s.counting_held a u
  have regs : (s.counting a u).hid = s.hid := by
    rw [held.regs, State.accessing_eq_obj]
  have mode : (s.counting a u).mode = (s.awake a).mode := by
    refine (held.objs _ _ _ (by decide)).trans ?_
    rw [State.accessing_eq]
    rfl
  have woken : s.mode ≤ 2 → (s.awake a).mode ≤ 2 := by
    unfold State.awake State.wake State.mode
    repeat' split
    all_goals simp
  have phase : (s.counting a u).phase = s.phase := (held.objs _ _ _ (by decide)).trans (s.rd_accessing a 0 (by decide))
  unfold State.mainUp State.regN State.reg at up ⊢
  rw [regs, mode, phase]
  simp only [Bool.and_eq_true, decide_eq_true_eq] at up ⊢
  obtain ⟨⟨⟨⟨mode, porst⟩, srst⟩, pll⟩, phase⟩ := up
  exact ⟨⟨⟨⟨woken mode, porst⟩, srst⟩, pll⟩, phase⟩

/-! ### A whole entry passes the data port -/

/-- The context of a transfer of entry `e` of a table with entries of `size` octets. -/
def DpCtx.forEntry (c : DpCtx) (u i e size : Nat) (octets : List Octet) : DpCtx :=
  { c with target := some (u, i), tIndex := i, offset := e * size, length := octets.length, status := .ok, gather := [] }

/-- The state with the context set for the transfer of a whole entry. -/
def State.entering (s : State) (a : Agent) (u i e : Nat) (octets : List Octet) : State :=
  s.setCtx a ((s.ctx a).forEntry u i e (s.tableSize (u, i)).1 octets)

/-- The state in which a whole entry is written: its access has counted for the lease. -/
def State.entered (s : State) (a : Agent) (u i e : Nat) (octets : List Octet) : State := (s.entering a u i e octets).counting a u

theorem DpCtx.joined_forEntry (c : DpCtx) (u i e : Nat) {size : Nat} {octets : List Octet} (pos : 0 < size) :
    (c.forEntry u i e size octets).joined size (min octets.length (c.forEntry u i e size octets).length) octets = (octets, e) := by
  have none : (c.forEntry u i e size octets).lost size octets.length = 0 := by
    unfold DpCtx.lost DpCtx.forEntry
    simp
  unfold DpCtx.joined
  rw [show min octets.length (c.forEntry u i e size octets).length = octets.length from Nat.min_self _, none]
  simp [DpCtx.forEntry, pos]

theorem State.wake_setCtx (s : State) (a : Agent) (c : DpCtx) : (s.setCtx a c).wake = s.wake.setCtx a c := by
  show (if s.mode = 2 then (s.setCtx a c).wr 0x001 0x5000 0 1 else s.setCtx a c) = _
  unfold State.wake
  split <;> rfl

theorem State.awake_setCtx (s : State) (a b : Agent) (c : DpCtx) : (s.setCtx a c).awake b = (s.awake b).setCtx a c := by
  unfold State.awake
  split
  · exact s.wake_setCtx a c
  · rfl

theorem State.holding_setCtx (s : State) (a : Agent) (c : DpCtx) : (s.setCtx a c).holding = s.holding.setCtx a c := by
  cases e : s.evHold with
  | some l => simp only [State.holding, e, show (s.setCtx a c).evHold = s.evHold from rfl]
  | none =>
    simp only [State.holding, e, show (s.setCtx a c).evHold = s.evHold from rfl]
    rfl

/-- Setting the context commutes with the beginning of an access. -/
theorem State.accessing_setCtx (s : State) (a : Agent) (c : DpCtx) : (s.setCtx a c).accessing a = (s.accessing a).setCtx a c := by
  unfold State.accessing
  rw [State.awake_setCtx, State.holding_setCtx]
  rfl


/-- `t` ends the access of an agent whose entry the table took with `z`. -/
structure State.Took (z : State) (a : Agent) (t : State) : Prop where
  result   : t.result = ⟨a, some .ok, []⟩
  ents     : ∀ v j n, v ≠ 0x002 → v ≠ 0x004 → t.ent v j n = z.ent v j n
  regs     : ∀ h, h.ofEvents = false → t.reg h = z.reg h
  rateWait : t.rateWait = z.rateWait
  arbQ     : t.arbQ = z.arbQ

theorem State.Took.of_events {z t : State} {a : Agent} {c : DpCtx} (h : ((z.setCtx a c).complete a .ok []).ButEvents t) : z.Took a t where
  result := h.result
  ents := h.ents
  regs := h.regs
  rateWait := by
    rw [h.fields]
    rfl
  arbQ := by
    rw [h.fields]
    rfl

/-- What `grantsEntry` says, taken apart. -/
structure State.AdmitsEntry (s : State) (a : Agent) (u i e : Nat) (octets : List Octet) : Prop where
  up     : s.mainUp = true
  atlas  : s.atlasBusy = false
  lease  : s.leaseAllows a u = true
  length : dpLengthGood octets.length = true
  size   : (s.tableSize (u, i)).1 = octets.length
  inside : (e + 1) * octets.length ≤ (s.tableSize (u, i)).2
  row    : ∃ r, s.lookup a u i 0 = .ok r ∧ r.type = .table ∧ r.access ≠ .ro

theorem State.admitsEntry {s : State} {a : Agent} {u i e : Nat} {octets : List Octet} (g : s.grantsEntry a u i e octets = true) :
    s.AdmitsEntry a u i e octets := by
  unfold State.grantsEntry at g
  simp only [Bool.and_eq_true, Bool.not_eq_true', decide_eq_true_eq] at g
  obtain ⟨⟨⟨⟨⟨⟨up, atlas⟩, lease⟩, length⟩, size⟩, inside⟩, row⟩ := g
  split at row
  next r found =>
    simp only [Bool.and_eq_true, decide_eq_true_eq] at row
    exact ⟨up, atlas, lease, length, size.symm, inside, r, found, row.1, row.2⟩
  next => cases row

section
variable {s : State} {a : Agent} {u i e : Nat} {octets : List Octet} (x : s.AdmitsEntry a u i e octets)
include x

theorem State.AdmitsEntry.pos : 0 < octets.length := by
  have := x.length
  simp only [dpLengthGood, Bool.and_eq_true, decide_eq_true_eq] at this
  omega

/-- The transfer that writes the entry passes the checks of `dp_target`, `dp_offset` and `dp_length`. -/
theorem State.AdmitsEntry.transfer_eq (own : forwarded u i = false) :
    (s.accessing a).transfer a false u i (e * ((s.accessing a).tableSize (u, i)).1) octets
      = ((s.entering a u i e octets).accessing a).dpWrite a false octets := by
  obtain ⟨r, row, table, -⟩ := x.row
  have same := s.accessing_sameChecks a
  have lookup : (s.accessing a).lookupOwn a u i 0 = .ok r := by
    rw [State.lookupOwn, own, if_neg Bool.false_ne_true, same.lookup, row]
  have inside := x.inside
  rw [Nat.add_mul, Nat.one_mul] at inside
  unfold State.transfer
  rw [lookup, same.tableSize, x.size]
  simp only [table, ne_eq, not_true, if_false, Nat.mul_mod_left, Nat.mod_self, or_false]
  rw [if_neg (by omega), s.ctx_accessing, State.entering, State.accessing_setCtx, x.size]
  rfl

theorem State.AdmitsEntry.size_entering : (((s.entering a u i e octets).accessing a).tableSize (u, i)).1 = octets.length := by
  rw [(State.accessing_sameChecks _ a).tableSize]
  exact x.size

/-- The context is at the entry, whose octets are all there. -/
theorem State.AdmitsEntry.ctx_entering :
    ((s.entering a u i e octets).accessing a).ctx a = (s.ctx a).forEntry u i e octets.length octets := by
  rw [State.ctx_accessing, State.entering, State.ctx_setCtx, x.size]

theorem State.AdmitsEntry.check (allows : s.entryForbids u i e octets = false) :
    ((s.entering a u i e octets).accessing a).dpWriteCheck a false octets = .ok := by
  obtain ⟨r, row, -, writable⟩ := x.row
  obtain ⟨kd, kind, found⟩ := State.row_of_lookup row
  have same := s.accessing_sameChecks a
  have size := x.size_entering
  have target : ((s.entering a u i e octets).accessing a).targetRow (u, i) = some r := by
    unfold State.targetRow
    rw [(State.accessing_sameChecks _ a).build]
    show (match unitKind? s.build u with | some kd => rowAt s.build kd i 0 | none => none) = some r
    rw [kind]
    exact found
  have forbids : ((s.entering a u i e octets).accessing a).entryForbids u i e octets = false := by
    rw [← allows, State.accessing_eq_obj]
    rfl
  have lease : ((s.entering a u i e octets).accessing a).leaseAllows a u = true := by
    rw [(State.accessing_sameChecks _ a).leaseAllows]
    exact x.lease
  have atlas : ((s.entering a u i e octets).accessing a).atlasBusy = false := by
    rw [(State.accessing_sameChecks _ a).atlasBusy]
    exact x.atlas
  rw [State.dpWriteCheck_eq, x.ctx_entering, if_neg (by simp [DpCtx.forEntry])]
  simp only [show ((s.ctx a).forEntry u i e octets.length octets).target = some (u, i) from rfl, target, Option.any_some, writable, size,
    DpCtx.joined_forEntry _ u i e x.pos, List.take_length, forbids, lease, x.length, atlas]
  simp

/-- What the access comes to is what the transfer comes to, but for its events. -/
theorem State.AdmitsEntry.accessEntry_butEvents (own : forwarded u i = false) :
    ∃ t, s.accessEntry a u i e octets = .next t ∧ (Reply.toldTo ⟨(((s.entering a u i e octets).accessing a).dpWrite a false octets).1, [],
      (((s.entering a u i e octets).accessing a).dpWrite a false octets).2⟩ a).ButEvents t := by
  rw [← x.transfer_eq own]
  refine ⟨_, ?_, s.told_butEvents a (fun t => ⟨(t.transfer a false u i (e * (t.tableSize (u, i)).1) octets).1, [],
    (t.transfer a false u i (e * (t.tableSize (u, i)).1) octets).2⟩)⟩
  unfold State.accessEntry State.awake
  rw [x.up]
  rfl

theorem State.AdmitsEntry.joined : (((s.entering a u i e octets).accessing a).ctx a).joined octets.length
    (min octets.length (((s.entering a u i e octets).accessing a).ctx a).length) octets = (octets, e) := by
  rw [x.ctx_entering]
  exact DpCtx.joined_forEntry _ u i e x.pos

section
variable (own : forwarded u i = false) (allows : s.entryForbids u i e octets = false)
include own allows

/-- An entry that its table takes: the access ends with OK. -/
theorem State.AdmitsEntry.accessEntry_written {z : State} (write : (s.entered a u i e octets).entryWrite a u i e octets = (some .ok, z)) :
    ∃ t, s.accessEntry a u i e octets = .next t ∧ z.Took a t := by
  obtain ⟨t, ht, events⟩ := x.accessEntry_butEvents own
  rw [State.dpWrite_of_written (t := (u, i)) (x.check allows) (by rw [x.ctx_entering]; rfl) x.size_entering x.pos x.joined rfl write] at events
  exact ⟨t, ht, .of_events events⟩

/-- An entry that its table takes later: the access waits. -/
theorem State.AdmitsEntry.accessEntry_waiting {z : State} (write : (s.entered a u i e octets).entryWrite a u i e octets = (none, z)) :
    ∃ t, s.accessEntry a u i e octets = .next t ∧ t.result = z.result ∧ t.flash = z.flash ∧ t.nvmQ = z.nvmQ := by
  obtain ⟨t, ht, events⟩ := x.accessEntry_butEvents own
  rw [State.dpWrite_of_waiting (t := (u, i)) (x.check allows) (by rw [x.ctx_entering]; rfl) x.size_entering x.pos x.joined rfl write] at events
  refine ⟨t, ht, events.result, ?_, ?_⟩
  all_goals
    rw [events.fields]
    rfl

/-- An entry that its table refuses: no table has changed. -/
theorem State.AdmitsEntry.accessEntry_refused {c : Abort} {y z : State}
    (write : (s.entered a u i e octets).entryWrite a u i e octets = (some c, y))
    (before : ((s.entering a u i e octets).accessing a).entryWrite a u i e octets = (some c, z)) (refused : c ≠ .ok) :
    ∃ t, s.accessEntry a u i e octets = .next t ∧ t.result = ⟨a, some c, []⟩
      ∧ ∀ v j n, v ≠ 0x002 → v ≠ 0x004 → t.ent v j n = z.ent v j n := by
  obtain ⟨t, ht, events⟩ := x.accessEntry_butEvents own
  rw [State.dpWrite_of_entry_refused (t := (u, i)) (x.check allows) (by rw [x.ctx_entering]; rfl) x.size_entering
    x.pos x.joined rfl write before refused] at events
  exact ⟨t, ht, events.result, fun v j n irq trace => (events.ents v j n irq trace).trans (((State.refusedAt_keeps_contexts _ _ c).2 v j n).trans
    (State.ent_releaseHeld ..))⟩

end

end

/-! ### The state in which an entry is written -/

section
variable (s : State) (a : Agent) (u i e : Nat) (octets : List Octet)

theorem State.entered_eq : s.entered a u i e octets = { s with
    obj := (s.entered a u i e octets).obj, hid := (s.entered a u i e octets).hid, timers := (s.entered a u i e octets).timers
    leases := (s.entered a u i e octets).leases, staged := (s.entered a u i e octets).staged, commits := (s.entered a u i e octets).commits
    latches := (s.entered a u i e octets).latches, lastFixed := (s.entered a u i e octets).lastFixed
    lastSd := (s.entered a u i e octets).lastSd, lastVar := (s.entered a u i e octets).lastVar, evHold := (s.entered a u i e octets).evHold
    monQ := (s.entered a u i e octets).monQ, free := (s.entered a u i e octets).free, dpCtx := (s.entered a u i e octets).dpCtx
    result := ⟨a, none, []⟩ } := by
  have fields := (s.entering a u i e octets).counting_eq a u
  have tab := (s.entering a u i e octets).counting_tab a u
  show (s.entering a u i e octets).counting a u = _
  unfold State.entered
  generalize (s.entering a u i e octets).counting a u = c at fields tab ⊢
  rw [fields, tab]
  rfl

theorem State.rd_entered {v j : Nat} (k : Nat) (quiet : eventObj v j = false) (mode : ¬(v = 0x001 ∧ j = 0x5000)) (alarm : j ≠ 0x0005) :
    (s.entered a u i e octets).rd v j k = s.rd v j k := (s.entering a u i e octets).rd_counting a u k quiet mode alarm

theorem State.regN_entered {h : Hid} (quiet : h.ofEvents = false) : (s.entered a u i e octets).regN h = s.regN h :=
  congrArg Int.toNat ((s.entering a u i e octets).reg_counting a u quiet)

/-- What an entry's write reads of the state is as it was. -/
theorem State.entered_stored : (s.entered a u i e octets).build = s.build ∧ (s.entered a u i e octets).tab = s.tab
    ∧ (s.entered a u i e octets).copies = s.copies ∧ (s.entered a u i e octets).rateWait = s.rateWait
    ∧ (s.entered a u i e octets).arbQ = s.arbQ ∧ (s.entered a u i e octets).nvmQ = s.nvmQ ∧ (s.entered a u i e octets).flash = s.flash
    ∧ (s.entered a u i e octets).result = ⟨a, none, []⟩ := by
  have fields := s.entered_eq a u i e octets
  generalize s.entered a u i e octets = c at fields
  rw [fields]
  exact ⟨rfl, rfl, rfl, rfl, rfl, rfl, rfl, rfl⟩

theorem State.ent_entered (v j n : Nat) : (s.entered a u i e octets).ent v j n = s.ent v j n := by
  obtain ⟨build, tab, -⟩ := s.entered_stored a u i e octets
  unfold State.ent
  rw [build, tab]

end

/-! ### SERVING of a flow queue (R175, R190) -/

/-- Two states in which a queue has one entry, one set of copies and one set of links to serve it. -/
structure State.SameServing (n : Nat) (s t : State) : Prop where
  entry  : t.qCfg n = s.qCfg n
  copies : t.copies = s.copies
  links  : ∀ al i, i ∈ [0x1000, 0x5000, 0x5001] → t.rd (alUnit al) i 0 = s.rd (alUnit al) i 0

namespace State.SameServing
variable {n : Nat} {s t : State} (h : s.SameServing n t)
include h

theorem linkSet : t.linkSet n = s.linkSet n := by
  unfold State.linkSet State.waiting
  rw [h.entry, h.copies]

theorem queueHome : t.queueHome n = s.queueHome n := by
  unfold State.queueHome
  rw [h.linkSet, h.entry]

theorem airReady (al : Nat) : t.airReady al = s.airReady al := by
  unfold State.airReady
  rw [h.links al _ (by decide), h.links al _ (by decide)]

theorem servingFor : t.servingFor n = s.servingFor n := by
  unfold State.servingFor State.servingOf State.waiting
  rw [h.linkSet, h.entry, h.copies, show t.airReady = s.airReady from funext h.airReady]

theorem parkedOf (ep : Nat) : t.parkedOf ep = s.parkedOf ep := by
  unfold State.parkedOf
  rw [h.links _ _ (by decide)]

theorem setEntField (lo w v : Nat) : (s.setEntField 0x00A 0x6000 n lo w v).SameServing n (t.setEntField 0x00A 0x6000 n lo w v) where
  entry := by
    unfold State.qCfg State.setEntField
    rw [State.ent_setEnt_self, State.ent_setEnt_self]
    exact congrArg (setField · lo w v) h.entry
  copies := h.copies
  links := h.links

theorem setServing : (s.setServing n).qCfg n = (t.setServing n).qCfg n := by
  unfold State.setServing
  rw [h.servingFor]
  have k := h.setEntField 234 2 (s.servingFor n)
  dsimp only
  rw [k.queueHome, k.parkedOf]
  exact (k.setEntField 237 1 _).entry.symm

end State.SameServing

/-! ### The port that an operation waits for (R341) -/

theorem State.mem_of_nextOp {s : State} {o : NvmOp} (h : s.nextOp = some o) : o ∈ s.nvmQ := by
  unfold State.nextOp at h
  split at h
  next found =>
    cases h
    exact List.mem_of_find?_eq_some found
  next =>
    split at h
    next found =>
      cases h
      exact List.mem_of_find?_eq_some found
    next => exact List.mem_of_head? h

/-- An operation queued while none waits is the only one there. -/
theorem State.queueOp_of_idle {s : State} (idle : s.nvmQ = []) (o : NvmOp) : (s.queueOp o).nvmQ = [o] := by
  have only : (State.programStart { s with nvmQ := s.nvmQ ++ [o] }).nvmQ = [o] := by
    have started := (State.ButEvents.programStart { s with nvmQ := s.nvmQ ++ [o] }).fields
    generalize State.programStart { s with nvmQ := s.nvmQ ++ [o] } = x at started
    rw [started, idle]
    rfl
  unfold State.queueOp State.portNext
  dsimp only
  split
  · exact only
  · split
    · exact only
    next next_ found =>
      have mem := State.mem_of_nextOp found
      rw [only] at mem ⊢
      obtain rfl := List.mem_singleton.mp mem
      simp

/-- Octets of the atlas image are in the queue of the port, alone or behind those that they follow. -/
theorem State.queueImage_facts (s : State) (a : Agent) (addr : Nat) (octets : List Octet) :
    (s.queueImage a addr octets).flash = s.flash ∧ (s.queueImage a addr octets).result = s.result
    ∧ (∃ x l, .image (some a) x l ∈ (s.queueImage a addr octets).nvmQ ∧ octets <:+ l)
    ∧ (s.nvmQ = [] → (s.queueImage a addr octets).nvmQ = [.image (some a) addr octets]) := by
  have queued : (s.queueOp (.image (some a) addr octets)).flash = s.flash ∧ (s.queueOp (.image (some a) addr octets)).result = s.result
      ∧ (∃ x l, .image (some a) x l ∈ (s.queueOp (.image (some a) addr octets)).nvmQ ∧ octets <:+ l)
      ∧ (s.nvmQ = [] → (s.queueOp (.image (some a) addr octets)).nvmQ = [.image (some a) addr octets]) := by
    obtain ⟨mem, -, flash, result⟩ := s.queueOp_facts (.image (some a) addr octets)
    exact ⟨flash, result, ⟨addr, octets, mem, List.suffix_refl _⟩, fun idle => State.queueOp_of_idle idle _⟩
  unfold State.queueImage
  split
  next b x l last =>
    split
    · exact ⟨rfl, rfl, ⟨x, l ++ octets, List.mem_append_right _ (List.mem_singleton_self _), List.suffix_append _ _⟩,
        fun idle => by simp [idle] at last⟩
    · exact queued
  · exact queued

end Sys2Proof.Machine
end

section
/-! The tables that take their entries by rules of their own: policers, flow queues, sources, streams and the atlas image (O40). -/
namespace Sys2Proof.Machine

section
variable (x : State) (a : Agent) (e : Nat) (d : List Octet)

theorem State.entryWrite_policer :
    x.entryWrite a 0x008 0x6001 e d = (some (x.policerEntryWrite e (ofLsb d)).1, (x.policerEntryWrite e (ofLsb d)).2) := rfl
theorem State.entryWrite_queue :
    x.entryWrite a 0x00A 0x6000 e d = (some (x.queueEntryWrite e (ofLsb d)).1, (x.queueEntryWrite e (ofLsb d)).2) := rfl
theorem State.entryWrite_source :
    x.entryWrite a 0x002 0x6000 e d = (some (x.sourceEntryWrite e (ofLsb d)).1, (x.sourceEntryWrite e (ofLsb d)).2) := rfl
theorem State.entryWrite_stream :
    x.entryWrite a 0x00B 0x6001 e d = (some (x.streamEntryWrite e (ofLsb d)).1, (x.streamEntryWrite e (ofLsb d)).2) := rfl
theorem State.entryWrite_atlas : x.entryWrite a 0x005 0x6002 e d = x.atlasWrite a e d := rfl

end

section
variable {a : Agent} {e : Nat} {octets : List Octet} {s : State}

theorem policerWrite_takes (g : s.grantsEntry a 0x008 0x6001 e octets = true) (good : policerGood (ofLsb octets) = true) :
    ∃ t, exec (.policerWrite a e octets) s = .next t ∧ t.result = ⟨a, some .ok, []⟩ ∧ t.ent 0x008 0x6001 e = ofLsb octets % 2 ^ 192
      ∧ t.reg (.bucketC e) = 0 ∧ t.reg (.bucketP e) = 0 ∧ (∀ x, x ≠ e → t.ent 0x008 0x6001 x = s.ent 0x008 0x6001 x) := by
  have kept (x : Nat) := s.ent_entered a 0x008 0x6001 e octets 0x008 0x6001 x
  have written {z : State} := (State.admitsEntry g).accessEntry_written rfl rfl (z := z)
  generalize s.entered a 0x008 0x6001 e octets = y at kept written
  obtain ⟨t, ht, took⟩ := written (z := ((y.setEnt 0x008 0x6001 e (ofLsb octets % 2 ^ 192)).setReg (.bucketC e) 0).setReg (.bucketP e) 0)
    (by rw [State.entryWrite_policer, State.policerEntryWrite, if_pos good])
  generalize ofLsb octets % 2 ^ 192 = w at took ⊢
  have ents (x : Nat) := took.ents 0x008 0x6001 x (by decide) (by decide)
  refine ⟨t, ht, took.result, (ents e).trans (State.ent_setEnt_self y ..), (took.regs _ rfl).trans ?_,
    (took.regs _ rfl).trans (State.reg_setReg_self ..), fun x hx => (ents x).trans ?_⟩
  · exact (State.reg_setReg ..).trans ((if_neg Hid.noConfusion).trans (State.reg_setReg_self ..))
  · exact (State.ent_setEnt y ..).trans ((if_neg (fun h => hx h.2.2)).trans (kept x))

theorem policerWrite_refuses (g : s.grantsEntry a 0x008 0x6001 e octets = true) (bad : policerGood (ofLsb octets) = false) :
    ∃ t, exec (.policerWrite a e octets) s = .next t ∧ t.result = ⟨a, some .range, []⟩
      ∧ ∀ x, t.ent 0x008 0x6001 x = s.ent 0x008 0x6001 x := by
  have refused (x : State) : x.entryWrite a 0x008 0x6001 e octets = (some .range, x) := by
    rw [State.entryWrite_policer, State.policerEntryWrite, bad, if_neg Bool.false_ne_true]
  obtain ⟨t, ht, result, ents⟩ := (State.admitsEntry g).accessEntry_refused rfl rfl (refused _) (refused _) (by decide)
  exact ⟨t, ht, result, fun x => (ents 0x008 0x6001 x (by decide) (by decide)).trans (State.ent_accessing ..)⟩

/-- A flow queue holds entry `w`, RATE and BURST wait as in `wait`, and SERVING is computed (R175). -/
def State.holdQueue (s : State) (n w : Nat) (wait : Map Nat Nat) : State := State.setServing { s.setEnt 0x00A 0x6000 n w with rateWait := wait } n

theorem State.queueEntryWrite_of_good {x : State} {n v : Nat} (allows : x.queueForbids n (x.qCfg n) v = false) (good : queueRange x.build v = false) :
    x.queueEntryWrite n v = (.ok, x.holdQueue n (setField (setField v 64 64 (field (x.qCfg n) 64 64)) 192 64 (field (x.qCfg n) 192 64))
      (if field v 64 64 = field (x.qCfg n) 64 64 then x.rateWait.erase n else x.rateWait.set n (field v 64 64) (2 ^ 64))) := by
  unfold State.queueEntryWrite
  extract_lets e w s1 s2
  rw [if_neg (by simp [e, allows]), if_neg (by simp [good])]
  have wait : s1.rateWait = x.rateWait := State.setEnt_rateWait ..
  show (Abort.ok, State.setServing { s1 with
    rateWait := if field v 64 64 = field e 64 64 then s1.rateWait.erase n else s1.rateWait.set n (field v 64 64) (2 ^ 64) } n) = _
  rw [wait]
  rfl

section
variable (x : State) (n w : Nat) (wait : Map Nat Nat)

theorem State.holdQueue_rateWait : (x.holdQueue n w wait).rateWait = wait := rfl

/-- A queue serves as any does that holds its entry and has the same copies and links. -/
theorem State.holdQueue_qCfg {s : State} (copies : x.copies = s.copies)
    (links : ∀ al i, i ∈ [0x1000, 0x5000, 0x5001] → x.rd (alUnit al) i 0 = s.rd (alUnit al) i 0) :
    (x.holdQueue n w wait).qCfg n = ((s.setEnt 0x00A 0x6000 n w).setServing n).qCfg n :=
  (State.SameServing.setServing (s := s.setEnt 0x00A 0x6000 n w) (t := { x.setEnt 0x00A 0x6000 n w with rateWait := wait })
    ⟨(State.ent_setEnt_self x ..).trans (State.ent_setEnt_self s ..).symm, copies, links⟩).symm

end

theorem queueWrite_takes (g : s.grantsEntry a 0x00A 0x6000 e octets = true) (allows : s.queueForbids e (s.qCfg e) (ofLsb octets) = false)
    (good : queueRange s.build (ofLsb octets) = false) :
    ∃ t, exec (.queueWrite a e octets) s = .next t ∧ t.result = ⟨a, some .ok, []⟩
      ∧ t.ent 0x00A 0x6000 e = ((s.setEnt 0x00A 0x6000 e (setField (setField (ofLsb octets) 64 64 (field (s.qCfg e) 64 64)) 192 64
          (field (s.qCfg e) 192 64))).setServing e).ent 0x00A 0x6000 e
      ∧ t.rateWait = (if field (ofLsb octets) 64 64 = field (s.qCfg e) 64 64 then s.rateWait.erase e
          else s.rateWait.set e (field (ofLsb octets) 64 64) (2 ^ 64)) := by
  obtain ⟨build, -, copies, rateWait, -⟩ := s.entered_stored a 0x00A 0x6000 e octets
  have cfg : (s.entered a 0x00A 0x6000 e octets).qCfg e = s.qCfg e := s.ent_entered ..
  have links (al i : Nat) (h : i ∈ [0x1000, 0x5000, 0x5001]) :
      (s.entered a 0x00A 0x6000 e octets).rd (alUnit al) i 0 = s.rd (alUnit al) i 0 := by
    have quiet : alUnit al ≠ 0x004 ∧ alUnit al ≠ 0x005 ∧ alUnit al ≠ 0x001 := by unfold alUnit; omega
    exact s.rd_entered a _ _ e octets 0 (by simp [eventObj, quiet]) (fun h => quiet.2.2 h.1) (by rintro rfl; simp at h)
  have written {z : State} := (State.admitsEntry g).accessEntry_written rfl (by simp [State.entryForbids, allows]) (z := z)
  generalize s.entered a 0x00A 0x6000 e octets = y at build copies rateWait cfg links written
  have forbids : y.queueForbids e (y.qCfg e) (ofLsb octets) = false := by
    rw [← allows, cfg]
    unfold State.queueForbids State.waiting
    rw [copies]
  obtain ⟨t, ht, took⟩ := written (by rw [State.entryWrite_queue, State.queueEntryWrite_of_good forbids (build ▸ good), cfg, rateWait])
  exact ⟨t, ht, took.result, (took.ents 0x00A 0x6000 e (by decide) (by decide)).trans (y.holdQueue_qCfg e _ _ copies links),
    took.rateWait.trans (y.holdQueue_rateWait e _ _)⟩

theorem sourceWrite_takes (g : s.grantsEntry a 0x002 0x6000 e octets = true) (bits : field (ofLsb octets) 48 2 = 0)
    (low : field (ofLsb octets) 0 32 = 0) :
    ∃ t, exec (.sourceWrite a e octets) s = .next t ∧ t.result = ⟨a, some .ok, []⟩
      ∧ t.arbQ = s.arbQ ++ [.source e (field (ofLsb octets) 61 3) (field (ofLsb octets) 57 4) ((ofLsb octets).testBit 54)] := by
  obtain ⟨-, -, -, -, arbQ, -⟩ := s.entered_stored a 0x002 0x6000 e octets
  have written {z : State} := (State.admitsEntry g).accessEntry_written rfl rfl (z := z)
  generalize s.entered a 0x002 0x6000 e octets = y at arbQ written
  obtain ⟨t, ht, took⟩ := written (by rw [State.entryWrite_source, State.sourceEntryWrite, if_neg (by simp [bits, low])])
  exact ⟨t, ht, took.result, took.arbQ.trans (congrArg (· ++ _) arbQ)⟩

theorem streamWrite_takes (g : s.grantsEntry a 0x00B 0x6001 e octets = true) (high : field (ofLsb octets) 60 2 = 0)
    (mid : field (ofLsb octets) 48 1 = 0) (low : field (ofLsb octets) 0 21 = 0) (present : epPresent s.build (field (ofLsb octets) 49 7) = true)
    (single : (ofLsb octets).testBit 63 = true → s.streamTwin e (ofLsb octets) = false) :
    ∃ t, exec (.streamWrite a e octets) s = .next t ∧ t.result = ⟨a, some .ok, []⟩
      ∧ t.ent 0x00B 0x6001 e = setField (setField (setBit (ofLsb octets) 62 false) 21 11 0) 64 64 0 := by
  obtain ⟨build, tab, -⟩ := s.entered_stored a 0x00B 0x6001 e octets
  have written {z : State} := (State.admitsEntry g).accessEntry_written rfl rfl (z := z)
  generalize s.entered a 0x00B 0x6001 e octets = y at build tab written
  have twin : y.streamTwin e (ofLsb octets) = s.streamTwin e (ofLsb octets) := by
    unfold State.streamTwin State.listed
    rw [tab]
  obtain ⟨t, ht, took⟩ := written (by
    rw [State.entryWrite_stream, State.streamEntryWrite, if_neg (by simp [high, mid, low]), build, present, twin, if_neg (by simp),
      if_neg (fun h => by simp [single h.1] at h)])
  exact ⟨t, ht, took.result, (took.ents 0x00B 0x6001 e (by decide) (by decide)).trans (State.ent_setEnt_self y ..)⟩

theorem atlasImageWrite_waits (other : (s.ctx a).target ≠ some (0x005, 0x6002)) (g : s.grantsEntry a 0x005 0x6002 0 octets = true)
    (area : s.regN .atlasBase ≠ 0) (limit : 8 ≤ s.regN .atlasLimit) (on : s.nvmOn = true) :
    ∃ t, exec (.atlasImageWrite a octets) s = .next t ∧ t.result = ⟨a, none, []⟩ ∧ t.flash = s.flash
      ∧ (∃ x l, .image (some a) x l ∈ t.nvmQ ∧ octets <:+ l)
      ∧ (s.nvmQ = [] → t.nvmQ = [.image (some a) (s.regN .atlasBase - 1) octets]) := by
  obtain ⟨-, -, -, -, -, nvmQ, flash, result⟩ := s.entered_stored a 0x005 0x6002 0 octets
  have base := s.regN_entered a 0x005 0x6002 0 octets (h := .atlasBase) rfl
  have end_ := s.regN_entered a 0x005 0x6002 0 octets (h := .atlasLimit) rfl
  have state := s.rd_entered a 0x005 0x6002 0 octets (v := 0x005) (j := 0x5001) 0 (by decide) (by decide) (by decide)
  have frozen := s.rd_entered a 0x005 0x6002 0 octets (v := 0x004) (j := 0x5000) 0 (by decide) (by decide) (by decide)
  have main : (s.entered a 0x005 0x6002 0 octets).mainUp = s.mainUp :=
    (State.counting_mainUp (s := s.entering a 0x005 0x6002 0 octets) (State.admitsEntry g).up a _).trans (State.admitsEntry g).up.symm
  have waits {z : State} := (State.admitsEntry g).accessEntry_waiting rfl rfl (z := z)
  generalize s.entered a 0x005 0x6002 0 octets = y at nvmQ flash result base end_ state frozen main waits
  have on' : y.nvmOn = true := by
    rw [← on]
    unfold State.nvmOn State.nvmState State.pfailFrozen State.fbState
    rw [main, state, frozen]
  have thawed : y.pfailFrozen = false := by simpa [State.nvmOn] using (Bool.and_eq_true_iff.mp on').2
  obtain ⟨t, ht, result', flash', port⟩ := waits (by
    rw [State.entryWrite_atlas, State.atlasWrite, if_neg (by omega), thawed, if_neg Bool.false_ne_true, on', if_neg (by decide), base])
  obtain ⟨flash'', result'', image, alone⟩ := y.queueImage_facts a (s.regN .atlasBase - 1 + 8 * 0) octets
  refine ⟨t, ?_, result'.trans (result''.trans result), flash'.trans (flash''.trans flash), ?_, fun idle => ?_⟩
  · show execAtlasImageWrite a octets s = _
    rw [execAtlasImageWrite, if_neg other, ht]
  · rw [port]
    exact image
  · rw [port, alone (nvmQ.trans idle)]
    rfl

end

end Sys2Proof.Machine
open Sys2Proof Sys2Proof.Machine

/-- Settles O40: each table by the rule of its entries. -/
theorem tableEntriesAreWritten : Obligations.TableEntriesAreWritten :=
  ⟨fun _ _ _ _ g => ⟨fun good => policerWrite_takes g good, fun bad => policerWrite_refuses g bad⟩,
    fun _ _ _ _ g allows good => queueWrite_takes g allows good, fun _ _ _ _ g bits low => sourceWrite_takes g bits low,
    fun _ _ _ _ g high mid low present single => streamWrite_takes g high mid low present single,
    fun _ _ _ other g _ area limit on => atlasImageWrite_waits other g area limit on⟩

end

section
/-! The field network: a request on its channel is checked, executed and answered (O47). -/
namespace Sys2Proof.Machine

/-! ### Commands that hold no event of their own -/

theorem State.heldAs_heldAs (s : State) (l m : Option (List HeldEvent)) : (s.heldAs l).heldAs m = s.heldAs m := rfl
theorem State.heldAs_self {s : State} {l : Option (List HeldEvent)} (h : s.evHold = l) : s.heldAs l = s := by
  subst h
  rfl

theorem State.ButEvents.accessQ {s t : State} (h : s.ButEvents t) : t.accessQ = s.accessQ := by rw [h.fields]
theorem State.ButEvents.responses {s t : State} (h : s.ButEvents t) : t.responses = s.responses := by rw [h.fields]

/-- A command that answers one state whatever events are held, and leaves those as they are, answers that state. -/
theorem gathered_of_heldAs {s t : State} {f : State → Host.Outcome State Fault Refusal} (h : ∀ l, f (s.heldAs l) = .next (t.heldAs l))
    (quiet : t.evHold = s.evHold) : gathered s f = .next t := by
  obtain ⟨l, held⟩ := s.holding_heldAs
  have e := gathered_eq_of (s := s) (u := t.heldAs l) (f := f) (by rw [held, h]) (by rw [held]; rfl)
  rw [e, State.heldAs_heldAs, State.heldAs_self quiet]

/-! ### The queue of requests (R72, R73) -/

/-- The queue serves nothing while it is empty or its first request is in execution. -/
theorem State.accessServe_of_busy {s : State} (h : ∀ r ∈ s.accessQ.head?, r.started = true) (n : Nat) : State.accessServe n s = s := by
  cases n with
  | zero => rfl
  | succ n =>
    unfold State.accessServe
    cases e : s.accessQ with
    | nil => rfl
    | cons r l => simp [h r (by simp [e])]

theorem State.accessServe_of_empty {s : State} (h : s.accessQ = []) (n : Nat) : State.accessServe n s = s :=
  State.accessServe_of_busy (by simp [h]) n

section
variable {ch : Nat} {frame : List Octet} {s : State}

/-- An object-access frame on its channel, behind the check of Table 3.8. -/
theorem State.accessFrame_eq (there : s.isChannel ch = true) (access : s.isAccess ch frame = true) :
    s.accessFrame ch frame =
      if pduVer (pduOf frame) ≠ 1 then s.bump 0x012 0x8001 0 1
      else if pduKind (pduOf frame) ≠ 0 then s
      else if 8 ≤ s.accessQ.length then s.bump 0x012 0x8003 0 1
      else State.accessServe 9 { s.busyNow with accessQ := s.accessQ ++ [⟨ch, frame, false, 0⟩] } := by
  unfold State.accessFrame
  simp only [there, access, Bool.true_or, Bool.and_self, Bool.not_true, Bool.false_eq_true, if_false]

/-- Whichever of the three commands brings the frame, it does the same. -/
theorem State.accessLeads_of {t : State} (up : s.mainUp = true) (running : s.running = true)
    (frame_ : ∀ l, (s.heldAs l).accessFrame ch frame = t.heldAs l) (quiet : t.evHold = s.evHold) : s.accessLeads ch frame t := by
  have ends := gathered_of_heldAs (s := s) (t := t)
    (f := fun s => if s.mainUp ∧ s.running then .next (s.accessFrame ch frame) else .next s)
    (fun l => (if_pos ⟨up, running⟩).trans (congrArg Host.Outcome.next (frame_ l))) quiet
  exact ⟨ends, ends, ends⟩

/-- A frame that is not served now has one effect whatever its command is. -/
theorem accessFrame_unserved (up : s.mainUp = true) (running : s.running = true) (there : s.isChannel ch = true)
    (access : s.isAccess ch frame = true) :
    (pduVer (pduOf frame) ≠ 1 → s.accessLeads ch frame (s.bump 0x012 0x8001 0 1))
    ∧ (pduVer (pduOf frame) = 1 → pduKind (pduOf frame) ≠ 0 → s.accessLeads ch frame s)
    ∧ (pduVer (pduOf frame) = 1 → pduKind (pduOf frame) = 0 → 8 ≤ s.accessQ.length → s.accessLeads ch frame (s.bump 0x012 0x8003 0 1))
    ∧ (pduVer (pduOf frame) = 1 → pduKind (pduOf frame) = 0 → s.accessQ.length < 8 → (∃ r rest, s.accessQ = r :: rest ∧ r.started = true) →
      s.accessLeads ch frame { s.busyNow with accessQ := s.accessQ ++ [⟨ch, frame, false, 0⟩] }) := by
  have eq (l : Option (List HeldEvent)) := State.accessFrame_eq (s := s.heldAs l) (ch := ch) (frame := frame) there access
  refine ⟨fun version => ?_, fun version kind => ?_, fun version kind full => ?_, fun version kind room busy => ?_⟩
  · exact State.accessLeads_of up running (fun l => (eq l).trans (if_pos version)) rfl
  · exact State.accessLeads_of up running (fun l => (eq l).trans ((if_neg (not_not.mpr version)).trans (if_pos kind))) rfl
  · exact State.accessLeads_of up running (fun l => (eq l).trans ((if_neg (not_not.mpr version)).trans
      ((if_neg (not_not.mpr kind)).trans (if_pos full)))) rfl
  · obtain ⟨r, rest, queue, started⟩ := busy
    refine State.accessLeads_of up running (fun l => (eq l).trans ((if_neg (not_not.mpr version)).trans
      ((if_neg (not_not.mpr kind)).trans ((if_neg (not_le.mpr room)).trans ?_)))) rfl
    exact State.accessServe_of_busy (by
      show ∀ x ∈ (s.accessQ ++ [(⟨ch, frame, false, 0⟩ : AccessReq)]).head?, x.started = true
      simp [queue, started]) 9

/-- A request that comes to an empty queue is served at once. -/
theorem State.accessFrame_served (there : s.isChannel ch = true) (access : s.isAccess ch frame = true) (version : pduVer (pduOf frame) = 1)
    (kind : pduKind (pduOf frame) = 0) (empty : s.accessQ = []) (done : (s.busyNow.accessOne ⟨ch, frame, false, 0⟩).accessQ = []) :
    s.accessFrame ch frame = s.busyNow.accessOne ⟨ch, frame, false, 0⟩ := by
  have back : ({ s.busyNow with accessQ := [] } : State) = s.busyNow := by
    rw [← empty]
    rfl
  rw [State.accessFrame_eq there access, if_neg (not_not.mpr version), if_neg (not_not.mpr kind), if_neg (by simp [empty]), empty]
  unfold State.accessServe
  dsimp only [List.nil_append]
  rw [if_neg Bool.false_ne_true, back, State.accessServe_of_empty done]

end

/-! ### The checks of a request (R70 to R74) -/

section
variable {s : State} {r : AccessReq}

theorem State.accessOne_of_badTag (bad : s.tagGood (pduOf r.frame) = false) : s.accessOne r =
    if (s.timer (.tagRate r.ch)).isSome then s.bump 0x012 0x8001 0 1
    else ((s.bump 0x012 0x8001 0 1).respond r.ch r.frame .tagMismatch [] none).startTimer (.tagRate r.ch) 6251 := by
  unfold State.accessOne State.tagFailed
  simp only [bad, Bool.not_false, if_true]

theorem State.accessOne_of_epoch (good : s.tagGood (pduOf r.frame) = true) (op : pduOp (pduOf r.frame) = 3) : s.accessOne r =
    s.respond r.ch r.frame .ok (s.epochData (pduKey (pduOf r.frame))) (some (s.slotKey (pduKey (pduOf r.frame)))) := by
  unfold State.accessOne
  simp only [good, op, Bool.not_true, Bool.false_eq_true, if_false, if_true]

theorem State.accessOne_of_stale (good : s.tagGood (pduOf r.frame) = true) (op : pduOp (pduOf r.frame) ≠ 3)
    (stale : s.fresh (pduKey (pduOf r.frame)) (pduSeq (pduOf r.frame)) = false) : s.accessOne r =
    (s.bump 0x012 0x8002 0 1).respond r.ch r.frame .replay (s.epochData (pduKey (pduOf r.frame)))
      (some (s.slotKey (pduKey (pduOf r.frame)))) := by
  unfold State.accessOne
  simp only [good, op, stale, Bool.not_true, Bool.not_false, Bool.false_eq_true, if_false, if_true]

theorem State.accessOne_of_fresh (good : s.tagGood (pduOf r.frame) = true) (op : pduOp (pduOf r.frame) ≠ 3)
    (fresh : s.fresh (pduKey (pduOf r.frame)) (pduSeq (pduOf r.frame)) = true) :
    s.accessOne r = (s.noteSeq (pduKey (pduOf r.frame)) (pduSeq (pduOf r.frame))).accessRun r := by
  unfold State.accessOne
  simp only [good, op, fresh, Bool.not_true, Bool.false_eq_true, if_false]

end

section
variable {ch : Nat} {frame : List Octet} {s : State} (up : s.mainUp = true) (running : s.running = true) (there : s.isChannel ch = true)
  (access : s.isAccess ch frame = true) (version : pduVer (pduOf frame) = 1) (kind : pduKind (pduOf frame) = 0) (empty : s.accessQ = [])
include up running there access version kind empty

/-- A request that is answered without being executed. -/
theorem accessFrame_answered {t : State} (one : ∀ l, (s.heldAs l).busyNow.accessOne ⟨ch, frame, false, 0⟩ = t.heldAs l)
    (done : t.accessQ = []) (quiet : t.evHold = s.evHold) : s.accessLeads ch frame t :=
  State.accessLeads_of up running (fun l => (State.accessFrame_served (s := s.heldAs l) there access version kind empty
    (by rw [one]; exact done)).trans (one l)) quiet

theorem accessFrame_badTag (bad : s.tagGood (pduOf frame) = false) :
    (s.timer (.tagRate ch) = none → s.accessLeads ch frame
      (((s.busyNow.bump 0x012 0x8001 0 1).respond ch frame .tagMismatch [] none).startTimer (.tagRate ch) 6251))
    ∧ ((s.timer (.tagRate ch)).isSome → s.accessLeads ch frame (s.busyNow.bump 0x012 0x8001 0 1)) := by
  have one (l : Option (List HeldEvent)) := State.accessOne_of_badTag (s := (s.heldAs l).busyNow) (r := ⟨ch, frame, false, 0⟩) bad
  constructor
  · intro first
    refine accessFrame_answered up running there access version kind empty (fun l => (one l).trans (if_neg ?_)) empty rfl
    show ¬(s.timer (.tagRate ch)).isSome = true
    simp [first]
  · intro again
    exact accessFrame_answered up running there access version kind empty (fun l => (one l).trans (if_pos again)) empty rfl

theorem accessFrame_epoch (good : s.tagGood (pduOf frame) = true) (op : pduOp (pduOf frame) = 3) : s.accessLeads ch frame
    (s.busyNow.respond ch frame .ok (s.epochData (pduKey (pduOf frame))) (some (s.slotKey (pduKey (pduOf frame))))) :=
  accessFrame_answered up running there access version kind empty
    (fun l => State.accessOne_of_epoch (s := (s.heldAs l).busyNow) (r := ⟨ch, frame, false, 0⟩) good op) empty rfl

theorem accessFrame_stale (good : s.tagGood (pduOf frame) = true) (op : pduOp (pduOf frame) ≠ 3)
    (stale : s.fresh (pduKey (pduOf frame)) (pduSeq (pduOf frame)) = false) : s.accessLeads ch frame
      ((s.busyNow.bump 0x012 0x8002 0 1).respond ch frame .replay (s.epochData (pduKey (pduOf frame)))
        (some (s.slotKey (pduKey (pduOf frame))))) :=
  accessFrame_answered up running there access version kind empty
    (fun l => State.accessOne_of_stale (s := (s.heldAs l).busyNow) (r := ⟨ch, frame, false, 0⟩) good op stale) empty rfl

end

/-! ### The execution of a request (R73) -/

/-- The state in which a request that has passed its checks is executed: counted, and in its place in the queue. -/
def State.executing (s : State) (r : AccessReq) : State :=
  let k := pduKey (pduOf r.frame)
  let s0 := s.bump 0x012 0x8000 0 1
  { s0 with accessQ := { r with started := true, key := s.slotKey k } :: s0.accessQ, result := ⟨⟨.manager, k⟩, none, []⟩ }

theorem State.bump_sameChecks (s : State) (i k n : Nat) : s.SameChecks (s.bump 0x012 i k n) :=
  ⟨rfl, rfl, rfl, rfl, rfl, fun _ _ _ _ h => State.rd_wr_ne _ _ fun e => h e.1⟩

/-- The state in which a request of `a` in frame `r` has ended in `y`: it has left the queue, and its answer waits on its channel. -/
def State.answered (y : State) (a : Agent) (r : AccessReq) (c : Abort) (d : List Octet) (key : Nat) : State :=
  State.respond { y.complete a c d with accessQ := y.accessQ.drop 1 } r.ch r.frame c d (some key)

section
variable (y : State) (a : Agent) (r : AccessReq) (c : Abort) (d : List Octet) (key : Nat)

theorem State.answered_accessQ : (y.answered a r c d key).accessQ = y.accessQ.drop 1 := rfl
theorem State.answered_responses :
    (y.answered a r c d key).responses = y.responses ++ [⟨r.ch, y.responseFrame r.ch r.frame c d (some key)⟩] := rfl
theorem State.answered_staged : (y.answered a r c d key).staged = y.staged := rfl
theorem State.rd_answered (u i k : Nat) : (y.answered a r c d key).rd u i k = y.rd u i k := rfl

end

/-- A request to this device that ends at once: it leaves the queue, and its answer waits on its channel. -/
theorem State.accessRun_ends {s y : State} {r : AccessReq} {u : Nat} {c : Abort} {d : List Octet}
    (here : s.resolvePath (pduRequest (pduOf r.frame)).path = .here u)
    (served : (s.executing r).request ⟨.manager, pduKey (pduOf r.frame)⟩ true (pduRequest (pduOf r.frame)) = ⟨some c, d, y⟩) :
    s.accessRun r = y.answered ⟨.manager, pduKey (pduOf r.frame)⟩ r c d (s.slotKey (pduKey (pduOf r.frame))) := by
  have path := ((s.bump_sameChecks 0x8000 0 1).resolvePath (pduRequest (pduOf r.frame)).path).trans here
  have run : s.accessRun r = match (s.bump 0x012 0x8000 0 1).resolvePath (pduRequest (pduOf r.frame)).path with
      | .member id _ =>
        if (s.bump 0x012 0x8000 0 1).relaysFull then
          (s.bump 0x012 0x8000 0 1).respond r.ch r.frame .busy [] (some (s.slotKey (pduKey (pduOf r.frame))))
        else (s.bump 0x012 0x8000 0 1).relayManager (.manager r.ch r.frame (s.slotKey (pduKey (pduOf r.frame)))) id (pduKey (pduOf r.frame))
          (pduTagged (pduOf r.frame))
      | _ =>
        let w := (s.executing r).request ⟨.manager, pduKey (pduOf r.frame)⟩ true (pduRequest (pduOf r.frame))
        match w.code with
        | some c => State.respond { w.state.complete ⟨.manager, pduKey (pduOf r.frame)⟩ c w.data with accessQ := w.state.accessQ.drop 1 }
            r.ch r.frame c w.data (some (s.slotKey (pduKey (pduOf r.frame))))
        | none => w.state := rfl
  rw [run, path]
  dsimp only
  rw [served]
  rfl

/-- The state in which a request that comes to an empty queue of `s` is executed (R71, R73): its events gathered, its sequence noted. -/
def State.executingIn (s : State) (r : AccessReq) : State :=
  (s.holding.busyNow.noteSeq (pduKey (pduOf r.frame)) (pduSeq (pduOf r.frame))).executing r

theorem State.executingIn_eq (s : State) (r : AccessReq) : s.executingIn r =
    { (s.busyNow.noteSeq (pduKey (pduOf r.frame)) (pduSeq (pduOf r.frame))).bump 0x012 0x8000 0 1 with
      evHold := s.holding.evHold, accessQ := { r with started := true, key := s.slotKey (pduKey (pduOf r.frame)) } :: s.accessQ
      result := ⟨⟨.manager, pduKey (pduOf r.frame)⟩, none, []⟩ } := by
  unfold State.executingIn
  rw [State.holding_fields]
  rfl

theorem State.executingIn_sameChecks (s : State) (r : AccessReq) : s.SameChecks (s.executingIn r) := by
  rw [State.executingIn_eq]
  exact ⟨rfl, rfl, rfl, rfl, rfl, fun _ _ _ _ h => (State.rd_wr_ne _ _ fun e => h e.1).trans (State.rd_wr_ne _ _ fun e => h e.1)⟩

/-- What the request has changed of the access unit: it is counted, and its sequence is the highest or was not. -/
theorem State.executingIn_counts (s : State) (r : AccessReq) : (s.executingIn r).rd 0x012 0x8000 0 = (s.rd 0x012 0x8000 0 + 1) % 2 ^ 64
    ∧ s.seqHigh (pduKey (pduOf r.frame)) ≤ (s.executingIn r).seqHigh (pduKey (pduOf r.frame))
    ∧ (s.executingIn r).responses = s.responses := by
  rw [State.executingIn_eq]
  refine ⟨?_, ?_, rfl⟩
  · refine (State.rd_wr_self ..).trans ?_
    rw [show (s.busyNow.noteSeq (pduKey (pduOf r.frame)) (pduSeq (pduOf r.frame))).rd 0x012 0x8000 0 = s.rd 0x012 0x8000 0 from
      State.rd_wr_ne s.busyNow _ (by simp)]
    rfl
  · have noted : (s.busyNow.noteSeq (pduKey (pduOf r.frame)) (pduSeq (pduOf r.frame))).seqHigh (pduKey (pduOf r.frame))
        = max (s.seqHigh (pduKey (pduOf r.frame))) (pduSeq (pduOf r.frame)) := State.rd_wr_self s.busyNow ..
    refine (le_max_left _ (pduSeq (pduOf r.frame))).trans_eq (noted.symm.trans (Eq.symm ?_))
    exact State.rd_wr_ne _ _ (by simp)

/-- What a response says of its state is the address of its channel. -/
theorem State.responseFrame_congr {s t : State} {ch : Nat} (address : t.rd (chUnit ch) 0x1002 0 = s.rd (chUnit ch) 0x1002 0) (frame : List Octet)
    (c : Abort) (d : List Octet) (key : Option Nat) : t.responseFrame ch frame c d key = s.responseFrame ch frame c d key := by
  unfold State.responseFrame
  rw [address]

/-- The events held are no matter to the checks of a request. -/
theorem State.holding_checks (s : State) (ch : Nat) (frame : List Octet) (k q : Nat) :
    s.holding.busyNow.tagGood (pduOf frame) = s.tagGood (pduOf frame) ∧ s.holding.busyNow.fresh k q = s.fresh k q
    ∧ (s.holding.busyNow.noteSeq k q).slotKey k = s.slotKey k ∧ s.holding.accessQ = s.accessQ ∧ s.holding.isChannel ch = s.isChannel ch
    ∧ s.holding.isAccess ch frame = s.isAccess ch frame ∧ s.holding.running = s.running ∧ s.SameChecks (s.holding.busyNow.noteSeq k q) := by
  rw [State.holding_fields]
  exact ⟨rfl, rfl, rfl, rfl, rfl, rfl, rfl, rfl, rfl, rfl, rfl, rfl, fun _ _ _ _ h => State.rd_wr_ne _ _ fun e => h e.1⟩

/-- A request that comes to an empty queue, passes its checks and ends at once with OK. -/
theorem accessFrame_executed {ch u : Nat} {frame d : List Octet} {s y : State} (up : s.mainUp = true) (running : s.running = true)
    (there : s.isChannel ch = true) (access : s.isAccess ch frame = true) (version : pduVer (pduOf frame) = 1) (kind : pduKind (pduOf frame) = 0)
    (empty : s.accessQ = []) (good : s.tagGood (pduOf frame) = true) (op : pduOp (pduOf frame) ≠ 3)
    (fresh : s.fresh (pduKey (pduOf frame)) (pduSeq (pduOf frame)) = true) (here : s.resolvePath (pduRequest (pduOf frame)).path = .here u)
    (served : (s.executingIn ⟨ch, frame, false, 0⟩).request ⟨.manager, pduKey (pduOf frame)⟩ true (pduRequest (pduOf frame)) = ⟨some .ok, d, y⟩)
    (queue : y.accessQ = (s.executingIn ⟨ch, frame, false, 0⟩).accessQ) (responses : y.responses = s.responses)
    (address : y.rd (chUnit ch) 0x1002 0 = s.rd (chUnit ch) 0x1002 0) :
    ∃ t, execAccessRead ch frame s = .next t ∧ t.accessQ = []
      ∧ t.responses = s.responses ++ [⟨ch, s.responseFrame ch frame .ok d (some (s.slotKey (pduKey (pduOf frame))))⟩]
      ∧ t.staged = y.staged ∧ ∀ i k, t.rd 0x012 i k = y.rd 0x012 i k := by
  obtain ⟨tag, seq, key, accessQ, channel, frame_, run, same⟩ := s.holding_checks ch frame (pduKey (pduOf frame)) (pduSeq (pduOf frame))
  have one := State.accessOne_of_fresh (r := ⟨ch, frame, false, 0⟩) (tag.trans good) op (seq.trans fresh)
  have executed := State.accessRun_ends (r := ⟨ch, frame, false, 0⟩) ((same.resolvePath _).trans here) served
  rw [executed, key] at one
  have left : y.accessQ.drop 1 = [] := by
    rw [queue, State.executingIn_eq]
    exact empty
  have done : (s.holding.busyNow.accessOne ⟨ch, frame, false, 0⟩).accessQ = [] := by rw [one, State.answered_accessQ, left]
  unfold execAccessRead
  refine gathered_next_of (u := y.answered ⟨.manager, pduKey (pduOf frame)⟩ ⟨ch, frame, false, 0⟩ .ok d (s.slotKey (pduKey (pduOf frame)))) ?_
    fun t events => ?_
  · rw [State.accessFrame_served (channel.trans there) (frame_.trans access) version kind (accessQ.trans empty) done, one]
    exact if_pos ⟨(s.holding_mainUp).trans up, run.trans running⟩
  · refine ⟨events.accessQ.trans left, ?_, events.staged.trans (State.answered_staged ..), fun i k =>
      (events.objs 0x012 i k (by simp [eventObj]) (by simp)).trans (State.rd_answered ..)⟩
    rw [events.responses, State.answered_responses, responses, State.responseFrame_congr address]

/-! ### READ and WRITE -/

/-- A request to write a staged object that may be written joins the pending set, whoever makes it. -/
theorem State.request_staged {s z : State} (same : s.SameChecks z) {a : Agent} {q : Request} {u : Nat} {r : ObjRow} {kd : UnitKind}
    (here : s.resolvePath q.path = .here u) (op : q.op = 2) (x : s.Admits a u q.index q.sub q.data r kd) (rws : r.access = .rws)
    (notFabric : ¬(u = 0x00D ∧ q.index = 0x1000)) (free : s.stageBusy u = false) (f : Bool) :
    z.request a f q = ⟨some .ok, [], (z.wrote a u).stage ⟨.obj ⟨u, q.index, q.sub⟩, ofMsb q.data, a⟩⟩ := by
  unfold State.request
  rw [op]
  exact (State.writePath_here ((same.resolvePath _).trans here) ..).trans ((same.admits x).writeHere_staged rws
    (fun h => notFabric ⟨h.1, h.2.1⟩) ((same.stageBusy u).trans free) f)

theorem State.readEffect_facts (s : State) (u i k : Nat) : (s.readEffect u i k).accessQ = s.accessQ ∧ (s.readEffect u i k).responses = s.responses
    ∧ ∀ v j m, j ≠ 0x5000 → j ≠ 0x5011 → (s.readEffect u i k).rd v j m = s.rd v j m := by
  unfold State.readEffect
  split
  · exact ⟨rfl, rfl, fun _ _ _ h _ => State.rd_wr_ne _ _ fun e => h e.2.1⟩
  · split
    · exact ⟨rfl, rfl, fun _ _ _ _ h => State.rd_wr_ne _ _ fun e => h e.2.1⟩
    · exact ⟨rfl, rfl, fun _ _ _ _ _ => rfl⟩

/-- What an object reads as depends neither on the requests and events held nor on a result. -/
theorem State.readOctets_congr (s : State) (h : Option (List HeldEvent)) (q : List AccessReq) (x : Completion) (u i k : Nat) (ty : ObjType) :
    State.readOctets { s with evHold := h, accessQ := q, result := x } u i k ty = s.readOctets u i k ty := rfl

theorem State.stage_facts (s : State) (w : StagedWrite) : (s.stage w).accessQ = s.accessQ ∧ (s.stage w).responses = s.responses
    ∧ ∀ u i k, (s.stage w).rd u i k = s.rd u i k := by
  rw [State.stage_eq]
  exact ⟨rfl, rfl, fun _ _ _ => rfl⟩

section
variable {ch u : Nat} {frame : List Octet} {r : ObjRow} {s : State} (up : s.mainUp = true) (running : s.running = true)
  (there : s.isChannel ch = true) (access : s.isAccess ch frame = true) (version : pduVer (pduOf frame) = 1) (kind : pduKind (pduOf frame) = 0)
  (empty : s.accessQ = []) (good : s.tagGood (pduOf frame) = true)
  (fresh : s.fresh (pduKey (pduOf frame)) (pduSeq (pduOf frame)) = true) (here : s.resolvePath (pduRequest (pduOf frame)).path = .here u)
  (row : s.lookup ⟨.manager, pduKey (pduOf frame)⟩ u (pduRequest (pduOf frame)).index (pduRequest (pduOf frame)).sub = .ok r)
include up running there access version kind empty good fresh here row

theorem accessRead_reads (noPort : u ≠ 0x00E) (op : pduOp (pduOf frame) = 1) (readable : r.access ≠ .wo) (scalar : r.type ≠ .table)
    (own : forwarded u (pduRequest (pduOf frame)).index = false) (length : pduLength (pduOf frame) = r.type.size) :
    ∃ t, exec (.accessRead ch frame) s = .next t ∧ t.accessQ = []
      ∧ t.responses = s.responses ++ [⟨ch, s.responseFrame ch frame .ok
        (((s.busyNow.noteSeq (pduKey (pduOf frame)) (pduSeq (pduOf frame))).bump 0x012 0x8000 0 1).readOctets u (pduRequest (pduOf frame)).index
          (pduRequest (pduOf frame)).sub r.type) (some (s.slotKey (pduKey (pduOf frame))))⟩]
      ∧ s.seqHigh (pduKey (pduOf frame)) ≤ t.seqHigh (pduKey (pduOf frame)) ∧ t.rd 0x012 0x8000 0 = (s.rd 0x012 0x8000 0 + 1) % 2 ^ 64 := by
  have same := s.executingIn_sameChecks ⟨ch, frame, false, 0⟩
  obtain ⟨count, high, responses⟩ := s.executingIn_counts ⟨ch, frame, false, 0⟩
  have octets : (s.executingIn ⟨ch, frame, false, 0⟩).readOctets u (pduRequest (pduOf frame)).index (pduRequest (pduOf frame)).sub r.type
      = ((s.busyNow.noteSeq (pduKey (pduOf frame)) (pduSeq (pduOf frame))).bump 0x012 0x8000 0 1).readOctets u (pduRequest (pduOf frame)).index
        (pduRequest (pduOf frame)).sub r.type := by
    rw [State.executingIn_eq]
    exact State.readOctets_congr ..
  generalize hz : s.executingIn ⟨ch, frame, false, 0⟩ = z at same count high responses octets
  have served : z.request ⟨.manager, pduKey (pduOf frame)⟩ true (pduRequest (pduOf frame)) = ⟨some .ok,
      z.readOctets u (pduRequest (pduOf frame)).index (pduRequest (pduOf frame)).sub r.type,
      z.readEffect u (pduRequest (pduOf frame)).index (pduRequest (pduOf frame)).sub⟩ := by
    unfold State.request
    rw [show (pduRequest (pduOf frame)).op = 1 from op]
    show z.readPath _ _ _ _ _ = _
    rw [State.readPath_here ((same.resolvePath _).trans here)]
    exact State.readHere_ordinary ((same.lookup ..).trans row) own readable scalar (fun h => noPort h.1) (by simpa [pduRequest] using length)
  obtain ⟨queue, responses', objs⟩ := z.readEffect_facts u (pduRequest (pduOf frame)).index (pduRequest (pduOf frame)).sub
  rw [octets] at served
  obtain ⟨t, ht, left, answer, -, counts⟩ := accessFrame_executed up running there access version kind empty good (by simp [op]) fresh here
    (by rw [hz, served]) (by rw [hz, queue]) (responses'.trans responses)
    ((objs _ _ _ (by decide) (by decide)).trans (same.objs _ _ _ (by unfold chUnit; omega) (by unfold chUnit; omega)))
  refine ⟨t, ht, left, answer, ?_, ?_⟩
  · refine high.trans_eq (Eq.symm ?_)
    exact (counts ..).trans (objs _ _ _ (by decide) (by decide))
  · rw [counts, objs _ _ _ (by decide) (by decide)]
    exact count

theorem accessWrite_stages (op : pduOp (pduOf frame) = 2) (rws : r.access = .rws)
    (g : s.grants ⟨.manager, pduKey (pduOf frame)⟩ (pduRequest (pduOf frame)).path u (pduRequest (pduOf frame)).index
      (pduRequest (pduOf frame)).sub (pduRequest (pduOf frame)).data = true) (free : s.stageBusy u = false)
    (notFabric : ¬(u = 0x00D ∧ (pduRequest (pduOf frame)).index = 0x1000)) :
    ∃ t, exec (.accessWrite ch frame) s = .next t ∧ t.accessQ = []
      ∧ t.responses = s.responses ++ [⟨ch, s.responseFrame ch frame .ok [] (some (s.slotKey (pduKey (pduOf frame))))⟩]
      ∧ t.rd 0x012 0x8000 0 = (s.rd 0x012 0x8000 0 + 1) % 2 ^ 64
      ∧ t.staged = ((s.wrote ⟨.manager, pduKey (pduOf frame)⟩ u).stage ⟨.obj ⟨u, (pduRequest (pduOf frame)).index, (pduRequest (pduOf frame)).sub⟩,
          ofMsb (pduRequest (pduOf frame)).data, ⟨.manager, pduKey (pduOf frame)⟩⟩).staged := by
  have same := s.executingIn_sameChecks ⟨ch, frame, false, 0⟩
  obtain ⟨count, -, responses⟩ := s.executingIn_counts ⟨ch, frame, false, 0⟩
  obtain ⟨-, -, r', kd, x⟩ := State.grants_iff.mp g
  obtain rfl := x.row_eq row
  generalize hz : s.executingIn ⟨ch, frame, false, 0⟩ = z at same count responses
  have counted := State.ButLeases.wrote z ⟨.manager, pduKey (pduOf frame)⟩ u
  have served := State.request_staged same here op x rws notFabric free true
  have stored : (z.wrote ⟨.manager, pduKey (pduOf frame)⟩ u).accessQ = z.accessQ
      ∧ (z.wrote ⟨.manager, pduKey (pduOf frame)⟩ u).responses = z.responses := by
    rw [counted.fields]
    exact ⟨rfl, rfl⟩
  have staged := (same.sameLeases.wrote ⟨.manager, pduKey (pduOf frame)⟩ u).staged
  have objs (v i k : Nat) (other : v ≠ 0x004 ∧ v ≠ 0x005 ∧ v ≠ 0x001) (alarm : i ≠ 0x0005) :=
    counted.objs v i k (by simp [eventObj, other]) (fun h => other.2.2 h.1) alarm
  generalize z.wrote ⟨.manager, pduKey (pduOf frame)⟩ u = y at served stored staged objs
  generalize StagedWrite.mk _ _ _ = w at served ⊢
  obtain ⟨queue, responses', objs'⟩ := y.stage_facts w
  obtain ⟨t, ht, left, answer, pending, counts⟩ := accessFrame_executed up running there access version kind empty good (by simp [op]) fresh here
    (by rw [hz, served]) (by rw [hz, queue, stored.1]) (responses'.trans (stored.2.trans responses))
    ((objs' ..).trans <| (objs _ _ _ (by unfold chUnit; omega) (by decide)).trans
      (same.objs _ _ _ (by unfold chUnit; omega) (by unfold chUnit; omega)))
  exact ⟨t, ht, left, answer, (counts ..).trans ((objs' ..).trans ((objs _ _ _ (by decide) (by decide)).trans count)),
    pending.trans (State.stage_staged_congr staged _)⟩

end

/-! ### ACCESS_RESPONSE (R73) -/

theorem State.responseLeft_of_none {s : State} (h : s.regN .requestHeld = 0) (id : Nat) : s.responseLeft id = s := by
  unfold State.responseLeft
  exact if_pos (.inl h)

/-- Noting that a response has left changes one register. -/
theorem State.responseLeft_eq (s : State) (id : Nat) : s.responseLeft id = { s with hid := (s.responseLeft id).hid } := by
  unfold State.responseLeft
  dsimp only
  repeat' split
  all_goals rfl

/-- A frame for which the internal account has room is generated, with one copy. -/
theorem State.generate_of_room {s : State} {ch : Nat} {octets : List Octet} {onFabric : Bool} {dst : Option Nat}
    (room : s.epOccupancy Config.noEp + (s.genFrame octets onFabric).cells ≤ s.internalLimit) : s.generate ch octets onFabric dst
      = (s.addFrame (s.genFrame octets onFabric)).placeCopy
        (s.newCopy (s.genFrame octets onFabric).id ch (.base ch 7) 7 false false dst) := by
  unfold State.generate
  rw [if_neg (not_lt.mpr room)]

theorem fcsOctets_length (l : List Octet) : (fcsOctets l).length = 4 := length_toLsb ..

/-- What ACCESS_RESPONSE does while its events are gathered. -/
def answerFirst (x : State) : Host.Outcome State Fault Refusal :=
  match x.responses with
  | r :: t => if x.mainUp ∧ x.running then .next (State.accessServe 9 (State.responseOut { x with responses := t } r)) else .next x
  | [] => .next x

theorem execAccessResponse_eq (s : State) : exec .accessResponse s = gathered s answerFirst := rfl

section
variable {r : Response} {rest : List Response} {s : State} (up : s.mainUp = true) (running : s.running = true) (queue : s.responses = r :: rest)
include up running queue

/-- ACCESS_RESPONSE is the leaving of the oldest response where no request waits behind it. -/
theorem answerFirst_eq {x : State} (same : x.mainUp = s.mainUp ∧ x.running = s.running ∧ x.responses = s.responses)
    (idle : (State.responseOut { x with responses := rest } r).accessQ = []) :
    answerFirst x = .next (State.responseOut { x with responses := rest } r) := by
  obtain ⟨up', running', queue'⟩ := same
  unfold answerFirst
  rw [queue', queue]
  dsimp only
  rw [if_pos ⟨up'.trans up, running'.trans running⟩, State.accessServe_of_empty idle]

theorem accessResponse_drops (empty : s.accessQ = []) (held : s.regN .requestHeld = 0) {tg : Target} (target : s.targetOf r.ch false 0 = some tg)
    (down : s.chUp tg.ep = false) : exec .accessResponse s = .next { s with responses := rest } := by
  have out (l : Option (List HeldEvent)) : State.responseOut { s.heldAs l with responses := rest } r
      = State.heldAs { s with responses := rest } l := by
    unfold State.responseOut
    rw [show State.targetOf { s.heldAs l with responses := rest } r.ch false 0 = some tg from target]
    dsimp only
    rw [show State.chUp { s.heldAs l with responses := rest } tg.ep = false from down, if_neg Bool.false_ne_true]
    exact State.responseLeft_of_none (s := { s.heldAs l with responses := rest }) held _
  rw [execAccessResponse_eq]
  refine gathered_of_heldAs (s := s) (t := { s with responses := rest }) (fun l => ?_) rfl
  rw [← out l]
  exact answerFirst_eq up running queue (x := s.heldAs l) ⟨rfl, rfl, rfl⟩ (by rw [out]; exact empty)

theorem accessResponse_noRoute (empty : s.accessQ = []) (held : s.regN .requestHeld = 0) (target : s.targetOf r.ch false 0 = none) :
    exec .accessResponse s = .next { s.bump 0x00D 0x8003 0 1 with responses := rest } := by
  have out (l : Option (List HeldEvent)) : State.responseOut { s.heldAs l with responses := rest } r
      = State.heldAs { s.bump 0x00D 0x8003 0 1 with responses := rest } l := by
    unfold State.responseOut
    rw [show State.targetOf { s.heldAs l with responses := rest } r.ch false 0 = none from target]
    exact State.responseLeft_of_none (s := State.bump { s.heldAs l with responses := rest } 0x00D 0x8003 0 1) held _
  rw [execAccessResponse_eq]
  refine gathered_of_heldAs (s := s) (t := { s.bump 0x00D 0x8003 0 1 with responses := rest }) (fun l => ?_) rfl
  rw [← out l]
  exact answerFirst_eq up running queue (x := s.heldAs l) ⟨rfl, rfl, rfl⟩ (by rw [out]; exact empty)

/-- A response that finds its channel up and room leaves as a frame of its own, with one copy. -/
theorem accessResponse_sends (empty : s.accessQ = []) {tg : Target} (target : s.targetOf r.ch false 0 = some tg) (chUp : s.chUp tg.ep = true)
    (room : s.epOccupancy Config.noEp + ceilDiv (r.octets.length + 4) 64 ≤ s.internalLimit) :
    ∃ t f, exec .accessResponse s = .next t ∧ t.responses = rest ∧ f ∈ t.frames ∧ f.id = s.regN .nextFrame
      ∧ f.octets = r.octets ++ fcsOctets r.octets ∧ ∃ c ∈ t.copies, c.frame = f.id ∧ c.ep = tg.ep ∧ c.dst = tg.dst := by
  obtain ⟨l, held⟩ := s.holding_heldAs
  have cells (x : State) : (x.genFrame (r.octets ++ fcsOctets r.octets) false).cells = ceilDiv (r.octets.length + 4) 64 := by
    simp [State.genFrame, fcsOctets_length]
  have out : State.responseOut { s.holding with responses := rest } r = State.responseLeft
      ((State.addFrame { s.heldAs l with responses := rest } (s.genFrame (r.octets ++ fcsOctets r.octets) false)).placeCopy
        (s.newCopy (s.regN .nextFrame) tg.ep (.base tg.ep 7) 7 false false tg.dst)) (s.regN .nextFrame) := by
    rw [held]
    unfold State.responseOut
    rw [show State.targetOf { s.heldAs l with responses := rest } r.ch false 0 = some tg from target]
    dsimp only
    rw [show State.chUp { s.heldAs l with responses := rest } tg.ep = true from chUp, if_pos rfl,
      State.generate_of_room (by rw [cells]; exact room)]
    rfl
  have idle : (State.responseOut { s.holding with responses := rest } r).accessQ = [] := by
    rw [out, State.responseLeft_eq]
    exact empty
  obtain ⟨t, ht, events⟩ := gathered_next (s := s) (answerFirst_eq up running queue (by rw [held]; exact ⟨rfl, rfl, rfl⟩) idle)
  refine ⟨t, s.genFrame (r.octets ++ fcsOctets r.octets) false, ?_⟩
  rw [out, State.responseLeft_eq] at events
  refine ⟨ht, events.responses, ?_, rfl, rfl, s.newCopy (s.regN .nextFrame) tg.ep (.base tg.ep 7) 7 false false tg.dst, ?_, rfl, rfl, rfl⟩
  · rw [events.frames]
    exact List.mem_append_right _ (List.mem_singleton_self _)
  · rw [events.copies]
    exact List.mem_append_right _ (List.mem_singleton_self _)

end

end Sys2Proof.Machine
open Sys2Proof Sys2Proof.Machine

/-- Settles O47: the checks in their order, the two executions, and what becomes of a response. -/
theorem fieldRequestsAreCheckedAndAnswered : Obligations.FieldRequestsAreCheckedAndAnswered := by
  refine ⟨fun ch frame s up running there access => accessFrame_unserved up running there access,
    fun ch frame s up running there access version kind empty => ⟨fun bad first => ?_, fun bad again => ?_, fun good op => ?_,
      fun good op stale => accessFrame_stale up running there access version kind empty good op stale⟩,
    fun ch u frame r s up running there access version kind empty good fresh here noPort => ⟨fun op row readable scalar own length => ?_,
      fun op row rws g free notFabric => ?_⟩,
    fun r rest s up running queue empty => ⟨fun tg target down held => accessResponse_drops up running queue empty held target down,
      fun target held => accessResponse_noRoute up running queue empty held target,
      fun tg target chUp room => accessResponse_sends up running queue empty target chUp room⟩⟩
  · exact (accessFrame_badTag up running there access version kind empty bad).1 first
  · exact (accessFrame_badTag up running there access version kind empty bad).2 again
  · exact (accessFrame_epoch up running there access version kind empty good op).2.2
  · exact accessRead_reads up running there access version kind empty good fresh here row noPort op readable scalar own length
  · exact accessWrite_stages up running there access version kind empty good fresh here row op rws g free notFabric

end

section
/-! The relays between the members of a fabric (O48). -/
namespace Sys2Proof.Machine

/-! ### A CONTROL frame for this member (R298, R301) -/

/-- What RELAY_REQ_RX does while its events are gathered. -/
def relayReqTaken (ch : Nat) (frame : List Octet) (x : State) : Host.Outcome State Fault Refusal :=
  .next (x.takeRelay ch frame 4 (fun b => x.relayRequest (octet b 6) ⟨octet b 7 % 8, fabSrc frame, be16 b 4, relayPdu b⟩))

/-- What RELAY_RSP_RX does while its events are gathered. -/
def relayRspTaken (ch : Nat) (frame : List Octet) (x : State) : Host.Outcome State Fault Refusal := .next (x.takeRelay ch frame 5 x.relayAnswer)

theorem execRelayReqRx_eq (ch : Nat) (frame : List Octet) (s : State) : exec (.relayReqRx ch frame) s = gathered s (relayReqTaken ch frame) := rfl
theorem execRelayRspRx_eq (ch : Nat) (frame : List Octet) (s : State) : exec (.relayRspRx ch frame) s = gathered s (relayRspTaken ch frame) := rfl

section
variable {ch : Nat} {frame : List Octet} {s : State} (up : s.mainUp = true) (running : s.running = true) (link : s.fabricLink ch = true)
  (own : s.fabFate frame = .ownControl)
include up running link own

theorem State.takeRelay_eq (msg : Nat) (act : List Octet → State) : s.takeRelay ch frame msg act =
    if octet (controlOf frame) 0 = 0 ∨ 5 < octet (controlOf frame) 0 then s.bump 0x00D 0x8001 0 1
    else if octet (controlOf frame) 0 = msg then act (controlOf frame) else s := by
  unfold State.takeRelay
  simp only [up, running, link, own, decide_true, Bool.true_or, Bool.and_self, Bool.not_true, Bool.or_self, Bool.false_eq_true, if_false]

theorem State.takeRelay_unknown (unknown : octet (controlOf frame) 0 = 0 ∨ 5 < octet (controlOf frame) 0) (msg : Nat) (act : List Octet → State) :
    s.takeRelay ch frame msg act = s.bump 0x00D 0x8001 0 1 := by
  rw [State.takeRelay_eq up running link own, if_pos unknown]

theorem State.takeRelay_known {msg : Nat} (message : octet (controlOf frame) 0 = msg) (known : msg = 4 ∨ msg = 5) (act : List Octet → State) :
    s.takeRelay ch frame msg act = act (controlOf frame) := by
  rw [State.takeRelay_eq up running link own, if_neg (by omega), if_pos message]

/-- A frame of an unknown message is only counted. -/
theorem relay_unknown (unknown : octet (controlOf frame) 0 = 0 ∨ 5 < octet (controlOf frame) 0) :
    exec (.relayReqRx ch frame) s = .next (s.bump 0x00D 0x8001 0 1) ∧ exec (.relayRspRx ch frame) s = .next (s.bump 0x00D 0x8001 0 1) := by
  have counts (l : Option (List HeldEvent)) (msg : Nat) (act : List Octet → State) :
      (s.heldAs l).takeRelay ch frame msg act = State.heldAs (s.bump 0x00D 0x8001 0 1) l :=
    State.takeRelay_unknown (s := s.heldAs l) up running link own unknown msg act
  rw [execRelayReqRx_eq, execRelayRspRx_eq]
  exact ⟨gathered_of_heldAs (s := s) (fun l => congrArg _ (counts l _ _)) rfl, gathered_of_heldAs (s := s) (fun l => congrArg _ (counts l _ _)) rfl⟩

end

/-! ### Requests that are relayed here (R308) -/

theorem State.heldAs_sameChecks (s : State) (l : Option (List HeldEvent)) : s.SameChecks (s.heldAs l) :=
  ⟨rfl, rfl, rfl, rfl, rfl, fun _ _ _ _ _ => rfl⟩

/-- The state in which a relayed request is executed as F. -/
def State.relaying (s : State) (e : RelayExec) : State :=
  { s with relayExecs := s.relayExecs ++ [e], result := ⟨⟨.fabric, e.slot⟩, none, []⟩ }

/-- A relayed request that ends at once is answered. -/
theorem State.relayFabric_ends {s y : State} {e : RelayExec} {c : Abort} {d : List Octet}
    (served : (s.relaying e).request ⟨.fabric, e.slot⟩ false (pduRequest e.pdu) = ⟨some c, d, y⟩) : s.relayFabric e =
      State.relayResponse { y.complete ⟨.fabric, e.slot⟩ c d with relayExecs := y.relayExecs.erase e } e 3 c d := by
  have run : s.relayFabric e =
      let w := (s.relaying e).request ⟨.fabric, e.slot⟩ false (pduRequest e.pdu)
      match w.code with
      | some c => State.relayResponse { w.state.complete ⟨.fabric, e.slot⟩ c w.data with relayExecs := w.state.relayExecs.erase e } e 3 c w.data
      | none => w.state := rfl
  rw [run, served]

/-- The request of a RELAY_REQ (Table 13.3). -/
def relayExecOf (frame : List Octet) : RelayExec :=
  ⟨octet (controlOf frame) 7 % 8, fabSrc frame, be16 (controlOf frame) 4, relayPdu (controlOf frame)⟩

section
variable {ch : Nat} {frame : List Octet} {s : State} (up : s.mainUp = true) (running : s.running = true) (link : s.fabricLink ch = true)
  (own : s.fabFate frame = .ownControl) (message : octet (controlOf frame) 0 = 4)
include up running link own message

theorem relayReqTaken_eq (l : Option (List HeldEvent)) :
    relayReqTaken ch frame (s.heldAs l) = .next ((s.heldAs l).relayRequest (octet (controlOf frame) 6) (relayExecOf frame)) :=
  congrArg _ (State.takeRelay_known (s := s.heldAs l) up running link own message (.inl rfl) _)

/-- A request that is not for this member is only counted. -/
theorem relayReqRx_refuses (refused : (octet (controlOf frame) 6 = 2 ∧ s.role ≠ 3) ∨ 3 < octet (controlOf frame) 6) :
    exec (.relayReqRx ch frame) s = .next (s.bump 0x00D 0x800C 0 1) := by
  have counts (l : Option (List HeldEvent)) : (s.heldAs l).relayRequest (octet (controlOf frame) 6) (relayExecOf frame)
      = State.heldAs (s.bump 0x00D 0x800C 0 1) l := by
    rcases refused with ⟨manager, notRoot⟩ | other
    · rw [manager]
      exact if_pos notRoot
    · obtain ⟨n, hn⟩ : ∃ n, octet (controlOf frame) 6 = n + 4 := ⟨_, (Nat.sub_add_cancel other).symm⟩
      rw [hn]
      rfl
  rw [execRelayReqRx_eq]
  exact gathered_of_heldAs (s := s) (fun l => (relayReqTaken_eq up running link own message l).trans (congrArg _ (counts l))) rfl

/-- What a relayed request comes to, but for its events. -/
theorem relayReqRx_butEvents : ∃ t, exec (.relayReqRx ch frame) s = .next t
    ∧ (s.holding.relayRequest (octet (controlOf frame) 6) (relayExecOf frame)).ButEvents t := by
  obtain ⟨l, held⟩ := s.holding_heldAs
  rw [execRelayReqRx_eq]
  refine gathered_next ?_
  rw [held]
  exact relayReqTaken_eq up running link own message l

section
variable {u : Nat} {r : ObjRow} (here : s.resolvePath (pduRequest (relayPdu (controlOf frame))).path = .here u)
include here

/-- A host's READ from another member is executed as the host (R308). -/
theorem relayReqRx_reads (noPort : u ≠ 0x00E) (agent : octet (controlOf frame) 6 = 1) (op : pduOp (relayPdu (controlOf frame)) = 1)
    (row : s.lookup ⟨.host, 0⟩ u (pduRequest (relayPdu (controlOf frame))).index (pduRequest (relayPdu (controlOf frame))).sub = .ok r)
    (readable : r.access ≠ .wo) (scalar : r.type ≠ .table) (ownObj : forwarded u (pduRequest (relayPdu (controlOf frame))).index = false) :
    ∃ t, exec (.relayReqRx ch frame) s = .next t ∧ t.result = ⟨⟨.host, 0⟩, some .ok,
      s.readOctets u (pduRequest (relayPdu (controlOf frame))).index (pduRequest (relayPdu (controlOf frame))).sub r.type⟩ := by
  obtain ⟨t, ht, events⟩ := relayReqRx_butEvents up running link own message
  obtain ⟨l, held⟩ := s.holding_heldAs
  generalize hq : pduRequest (relayPdu (controlOf frame)) = q at *
  have reads : (s.heldAs l).readPath ⟨.host, 0⟩ q.path q.index q.sub none
      = ⟨some .ok, s.readOctets u q.index q.sub r.type, (s.heldAs l).readEffect u q.index q.sub⟩ :=
    (State.readPath_here (((s.heldAs_sameChecks l).resolvePath _).trans here) ..).trans
      (State.readHere_ordinary (s := s.heldAs l) row ownObj readable scalar (fun h => noPort h.1) rfl)
  have executed : (s.heldAs l).relayRequest 1 (relayExecOf frame) = (((s.heldAs l).readEffect u q.index q.sub).complete ⟨.host, 0⟩ .ok
      (s.readOctets u q.index q.sub r.type)).relayResponse (relayExecOf frame) 1 .ok (s.readOctets u q.index q.sub r.type) := by
    have notPort : ¬((s.heldAs l).resolvePath q.path = .here 0x00E ∧ q.index = 0x4004) := by
      rintro ⟨port, -⟩
      rw [(s.heldAs_sameChecks l).resolvePath, here] at port
      exact noPort (Place.here.inj port)
    refine (if_pos op).trans ?_
    unfold State.relayHost
    rw [show pduRequest (relayExecOf frame).pdu = q from hq]
    dsimp only
    rw [if_neg notPort, reads]
  rw [held, agent, executed] at events
  exact ⟨t, ht, events.result.trans (State.relayResponse_result ..)⟩

/-- A WRITE of a staged object that the root relays is executed as F (R308). -/
theorem relayReqRx_stages (agent : octet (controlOf frame) 6 = 3) (op : pduOp (relayPdu (controlOf frame)) = 2) (role : s.role = 2)
    (root : fabSrc frame = s.rd 0x00D 0x5004 0)
    (row : s.lookup ⟨.fabric, octet (controlOf frame) 7 % 8⟩ u (pduRequest (relayPdu (controlOf frame))).index
      (pduRequest (relayPdu (controlOf frame))).sub = .ok r) (rws : r.access = .rws)
    (g : s.grants ⟨.fabric, octet (controlOf frame) 7 % 8⟩ (pduRequest (relayPdu (controlOf frame))).path u
      (pduRequest (relayPdu (controlOf frame))).index (pduRequest (relayPdu (controlOf frame))).sub
      (pduRequest (relayPdu (controlOf frame))).data = true)
    (free : s.stageBusy u = false) (notFabric : ¬(u = 0x00D ∧ (pduRequest (relayPdu (controlOf frame))).index = 0x1000)) :
    ∃ t, exec (.relayReqRx ch frame) s = .next t ∧ t.result = ⟨⟨.fabric, octet (controlOf frame) 7 % 8⟩, some .ok, []⟩
      ∧ t.staged = ((s.wrote ⟨.fabric, octet (controlOf frame) 7 % 8⟩ u).stage
        ⟨.obj ⟨u, (pduRequest (relayPdu (controlOf frame))).index, (pduRequest (relayPdu (controlOf frame))).sub⟩,
          ofMsb (pduRequest (relayPdu (controlOf frame))).data, ⟨.fabric, octet (controlOf frame) 7 % 8⟩⟩).staged := by
  obtain ⟨t, ht, events⟩ := relayReqRx_butEvents up running link own message
  obtain ⟨l, held⟩ := s.holding_heldAs
  obtain ⟨-, -, r', kd, x⟩ := State.grants_iff.mp g
  obtain rfl := x.row_eq row
  have same : s.SameChecks ((s.heldAs l).relaying (relayExecOf frame)) := ⟨rfl, rfl, rfl, rfl, rfl, fun _ _ _ _ _ => rfl⟩
  have fabric : (s.heldAs l).relayRequest 3 (relayExecOf frame) = (s.heldAs l).relayFabric (relayExecOf frame) := if_pos ⟨role, root⟩
  rw [held, agent, fabric, State.relayFabric_ends (State.request_staged same here op x rws notFabric free false)] at events
  exact ⟨t, ht, events.result.trans (State.relayResponse_result ..), events.staged.trans ((State.Told.relayResponse ..).staged.trans
    (State.stage_staged_congr (same.sameLeases.wrote _ u).staged _))⟩

end

end

/-! ### Relays that are answered or time out (R75, R308) -/

/-- With no group command and no request waiting nothing follows the end of a relay. -/
theorem State.accessServe_groupPump {s : State} (noGroup : s.groupCmds = []) (empty : s.accessQ = []) : State.accessServe 9 s.groupPump = s := by
  have pump : s.groupPump = s := by
    unfold State.groupPump
    rw [noGroup]
    rfl
  rw [pump, State.accessServe_of_empty empty]

/-- A relay for a manager ends: its answer waits on the manager's channel. -/
theorem State.relayEnd_of_manager {s : State} {tag ch key : Nat} {frame : List Octet} (c : Abort) (d : List Octet) (noGroup : s.groupCmds = [])
    (empty : s.accessQ = []) : s.relayEnd ⟨tag, .manager ch frame key⟩ c d
      = State.respond { s with relays := s.relays.erase ⟨tag, .manager ch frame key⟩ } ch frame c d (some key) :=
  State.accessServe_groupPump noGroup empty

section
variable {ch : Nat} {frame : List Octet} {s : State} (up : s.mainUp = true) (running : s.running = true) (link : s.fabricLink ch = true)
  (own : s.fabFate frame = .ownControl) (message : octet (controlOf frame) 0 = 5)
include up running link own message

theorem relayRspTaken_eq (l : Option (List HeldEvent)) :
    relayRspTaken ch frame (s.heldAs l) = .next ((s.heldAs l).relayAnswer (controlOf frame)) :=
  congrArg _ (State.takeRelay_known (s := s.heldAs l) up running link own message (.inr rfl) _)

theorem relayRspRx_unmatched (none_ : ∀ r ∈ s.relays, r.tag ≠ be16 (controlOf frame) 4) : exec (.relayRspRx ch frame) s = .next s := by
  have found : s.relays.find? (fun r => r.tag = be16 (controlOf frame) 4) = none := List.find?_eq_none.mpr (by simpa using none_)
  have answer (l : Option (List HeldEvent)) : (s.heldAs l).relayAnswer (controlOf frame) = s.heldAs l := by
    unfold State.relayAnswer
    dsimp only
    rw [show (s.heldAs l).relays = s.relays from rfl, found]
  rw [execRelayRspRx_eq]
  exact gathered_of_heldAs (fun l => (relayRspTaken_eq up running link own message l).trans (congrArg _ (answer l))) rfl

theorem relayRspRx_answers {tag ch' key : Nat} {frame' : List Octet} (noGroup : s.groupCmds = []) (empty : s.accessQ = [])
    (found : s.relays.find? (fun r => r.tag = be16 (controlOf frame) 4) = some ⟨tag, .manager ch' frame' key⟩) :
    exec (.relayRspRx ch frame) s = .next (State.respond { s with relays := s.relays.erase ⟨tag, .manager ch' frame' key⟩ } ch' frame'
      (Abort.ofCode (be16 (relayPdu (controlOf frame)) 18))
      (((relayPdu (controlOf frame)).drop 36).take (pduLength (relayPdu (controlOf frame)))) (some key)) := by
  have answer (l : Option (List HeldEvent)) : (s.heldAs l).relayAnswer (controlOf frame) = (s.heldAs l).relayEnd ⟨tag, .manager ch' frame' key⟩
      (Abort.ofCode (be16 (relayPdu (controlOf frame)) 18))
      (((relayPdu (controlOf frame)).drop 36).take (pduLength (relayPdu (controlOf frame)))) := by
    unfold State.relayAnswer
    dsimp only
    rw [show (s.heldAs l).relays = s.relays from rfl, found]
  have ends (l : Option (List HeldEvent)) (c : Abort) (d : List Octet) := State.relayEnd_of_manager (s := s.heldAs l) (tag := tag) (ch := ch')
    (key := key) (frame := frame') c d noGroup empty
  rw [execRelayRspRx_eq]
  exact gathered_of_heldAs (fun l => (relayRspTaken_eq up running link own message l).trans (congrArg _ ((answer l).trans (ends l _ _)))) rfl

end

section
variable {tag : Nat} {s : State}

theorem execAccessRelayTimeout_eq {r : Relay} (up : s.mainUp = true) (found : s.relays.find? (fun r => r.tag = tag) = some r) :
    exec (.accessRelayTimeout tag) s = .next (s.relayTimeout r) := by
  show execAccessRelayTimeout tag s = _
  unfold execAccessRelayTimeout
  rw [found]
  exact if_pos up

theorem accessRelayTimeout_unmatched (none_ : ∀ r ∈ s.relays, r.tag ≠ tag) : exec (.accessRelayTimeout tag) s = .next s := by
  show execAccessRelayTimeout tag s = _
  unfold execAccessRelayTimeout
  rw [List.find?_eq_none.mpr (by simpa using none_)]

end

end Sys2Proof.Machine
open Sys2Proof Sys2Proof.Machine

/-- Settles O48: which relayed requests are executed, and how each relay ends. -/
theorem relaysAreAnsweredOrTimeOut : Obligations.RelaysAreAnsweredOrTimeOut := by
  refine ⟨fun ch frame s up running link own => ⟨fun unknown => relay_unknown up running link own unknown,
      fun message refused => relayReqRx_refuses up running link own message refused,
      fun message none_ => relayRspRx_unmatched up running link own message none_⟩,
    fun ch u frame q r s up running link own message hq here noPort => ⟨fun agent op row readable scalar ownObj => ?_,
      fun agent op role root row rws g free notFabric => ?_⟩,
    fun ch ch' key frame frame' tag s up running link own message noGroup empty found =>
      relayRspRx_answers up running link own message noGroup empty found,
    fun tag ch key frame s up noGroup empty found => ?_, fun tag id ftag pdu s up found => execAccessRelayTimeout_eq up found,
    fun tag s none_ => accessRelayTimeout_unmatched none_⟩
  · subst hq
    exact relayReqRx_reads up running link own message here noPort agent op row readable scalar ownObj
  · subst hq
    exact relayReqRx_stages up running link own message here agent op role root row rws g free notFabric
  · rw [execAccessRelayTimeout_eq up found]
    exact congrArg _ (State.relayEnd_of_manager (s := s.bump 0x012 0x8004 0 1) .timeout [] noGroup empty)

end

section
/-! The link state of a lane: what a change of it does where the lane neither leaves nor enters UP, and what follows it (O9, O10). -/
namespace Sys2Proof.Machine

/-! ### The same operation behind events -/

namespace State.ButEvents
variable {s t : State}

theorem wr_congr (h : s.ButEvents t) (u i k v : Nat) : (s.wr u i k v).ButEvents (t.wr u i k v) where
  fields := congrArg (fun x : State => { x with obj := (t.wr u i k v).obj }) h.fields
  objs x j l quiet mode := by
    rw [State.rd_wr, State.rd_wr, h.objs x j l quiet mode]
  ents := h.ents
  regs := h.regs
  timer := h.timer

theorem setReg_congr (h : s.ButEvents t) (g : Hid) (v : Int) : (s.setReg g v).ButEvents (t.setReg g v) where
  fields := congrArg (fun x : State => { x with hid := (t.setReg g v).hid }) h.fields
  objs := h.objs
  ents := h.ents
  regs x quiet := by rw [State.reg_setReg, State.reg_setReg, h.regs x quiet]
  timer := h.timer

theorem startTimer_congr (h : s.ButEvents t) (x : TimerId) (n : Nat) : (s.startTimer x n).ButEvents (t.startTimer x n) where
  fields := congrArg (fun z : State => { z with timers := (t.startTimer x n).timers }) h.fields
  objs := h.objs
  ents := h.ents
  regs := h.regs
  timer y other := by rw [State.timer_startTimer, State.timer_startTimer, h.timer y other]

/-- No event changes an object of a lane. -/
theorem rd_lane (h : s.ButEvents t) (lane i k : Nat) : t.rd (lnUnit lane) i k = s.rd (lnUnit lane) i k := by
  have unit : lnUnit lane ≠ 0x004 ∧ lnUnit lane ≠ 0x005 ∧ lnUnit lane ≠ 0x001 := by
    unfold lnUnit
    omega
  exact h.objs _ i k (by simp [eventObj, unit]) (fun e => unit.2.2 e.1)

theorem link (h : s.ButEvents t) (lane : Nat) : t.link lane = s.link lane := h.rd_lane lane _ _

theorem startSync (h : s.ButEvents t) (lane : Nat) : (s.startSync lane).ButEvents (t.startSync lane) := by
  unfold State.startSync
  rw [h.rd_lane]
  exact h.startTimer_congr _ _

theorem basePage (h : s.ButEvents t) (lane : Nat) : t.basePage lane = s.basePage lane := by
  unfold State.basePage
  rw [h.rd_lane]

theorem negotiate (h : s.ButEvents t) (lane : Nat) : (s.negotiate lane).ButEvents (t.negotiate lane) := by
  unfold State.negotiate
  rw [h.basePage]
  exact (h.setReg_congr _ _).startSync lane

end State.ButEvents

/-! ### What starts at a change reads only the configuration -/

theorem State.startSync_of_rd {s t : State} {lane : Nat} (h : t.rd (lnUnit lane) 0x1007 0 = s.rd (lnUnit lane) 0x1007 0) :
    t.startSync lane = t.startTimer (.syncTimeout lane) (s.rd (lnUnit lane) 0x1007 0 * 6250) := by
  rw [State.startSync, h]

theorem State.negotiate_of_rd {s t : State} {lane : Nat} (h : ∀ i, i < 0x5000 → 0x1000 ≤ i → t.rd (lnUnit lane) i 0 = s.rd (lnUnit lane) i 0) :
    t.negotiate lane = (t.setReg (.anPage lane) (s.basePage lane)).startTimer (.syncTimeout lane) (s.rd (lnUnit lane) 0x1007 0 * 6250) := by
  have page : t.basePage lane = s.basePage lane := by
    unfold State.basePage
    rw [h _ (by decide) (by decide)]
  rw [State.negotiate, page]
  exact State.startSync_of_rd (h _ (by decide) (by decide))

/-! ### A change of the link state beside UP (R98) -/

/-- A lane that neither leaves nor enters UP changes its state, which is recorded and raised. -/
theorem State.setLink_butEvents {s : State} {lane new : Nat} (input : LinkInput) (change : s.link lane ≠ new) (old : s.link lane ≠ 5)
    (notUp : new ≠ 5) : (s.wr (lnUnit lane) 0x5000 0 new).ButEvents (s.setLink lane new input) := by
  unfold State.setLink
  dsimp only
  rw [if_neg change, if_neg old, if_neg notUp]
  exact (State.ButEvents.record _ _ _ _ _).trans (.raise _ _)

theorem State.toAcquire_butEvents {s : State} {lane : Nat} (input : LinkInput) (change : s.link lane ≠ 2) (old : s.link lane ≠ 5) :
    ((((s.stopTimer (.upHold lane)).setReg (.syncHeld lane) 0).wr (lnUnit lane) 0x5000 0 2).startTimer (.syncTimeout lane)
      (s.rd (lnUnit lane) 0x1007 0 * 6250)).ButEvents (s.toAcquire lane input) := by
  have moved := State.setLink_butEvents (s := (s.stopTimer (.upHold lane)).setReg (.syncHeld lane) 0) input change old (by decide)
  have time : (((s.stopTimer (.upHold lane)).setReg (.syncHeld lane) 0).wr (lnUnit lane) 0x5000 0 2).rd (lnUnit lane) 0x1007 0
      = s.rd (lnUnit lane) 0x1007 0 := State.rd_wr_ne _ 2 (by simp)
  have started := moved.startSync lane
  rwa [State.startSync_of_rd time] at started

theorem State.toConfirm_butEvents {s : State} {lane : Nat} (input : LinkInput) (change : s.link lane ≠ 4) (old : s.link lane ≠ 5)
    (hold : s.rd (lnUnit lane) 0x1008 0 ≠ 0) :
    (((s.stopTimer (.syncTimeout lane)).wr (lnUnit lane) 0x5000 0 4).startTimer (.upHold lane)
      (s.rd (lnUnit lane) 0x1008 0 * 6250)).ButEvents (s.toConfirm lane input) := by
  unfold State.toConfirm
  dsimp only
  rw [if_neg hold]
  exact (State.setLink_butEvents (s := s.stopTimer (.syncTimeout lane)) input change old (by decide)).startTimer_congr _ _

theorem State.toDown_butEvents {s : State} {lane new : Nat} (input : LinkInput) (change : s.link lane ≠ new) (old : s.link lane ≠ 5)
    (notUp : new ≠ 5) :
    (((((s.stopTimer (.upHold lane)).stopTimer (.syncTimeout lane)).setReg (.hiBer lane) 0).setReg (.syncHeld lane) 0).wr
      (lnUnit lane) 0x5000 0 new).ButEvents (s.toDown lane new input) :=
  State.setLink_butEvents input change old notUp

/-- The receiver of a lane in ACQUIRE has sync, and Clause 37 is to follow. -/
theorem State.synced_butEvents_negotiate {s : State} {lane : Nat} (acquire : s.link lane = 2) (an : s.rd (lnUnit lane) 0x1002 0 = 1) :
    (((s.wr (lnUnit lane) 0x5000 0 3).setReg (.anPage lane) (s.basePage lane)).startTimer (.syncTimeout lane)
      (s.rd (lnUnit lane) 0x1007 0 * 6250)).ButEvents (s.synced lane) := by
  unfold State.synced
  rw [if_pos an]
  have started := (State.setLink_butEvents (new := 3) .sync (by rw [acquire]; decide) (by rw [acquire]; decide) (by decide)).negotiate lane
  rwa [State.negotiate_of_rd (s := s) fun i below _ => State.rd_wr_ne s 3 (by omega)] at started

/-- The same without Clause 37. -/
theorem State.synced_butEvents_confirm {s : State} {lane : Nat} (acquire : s.link lane = 2) (an : s.rd (lnUnit lane) 0x1002 0 ≠ 1)
    (hold : s.rd (lnUnit lane) 0x1008 0 ≠ 0) :
    (((s.stopTimer (.syncTimeout lane)).wr (lnUnit lane) 0x5000 0 4).startTimer (.upHold lane)
      (s.rd (lnUnit lane) 0x1008 0 * 6250)).ButEvents (s.synced lane) := by
  unfold State.synced
  rw [if_neg an]
  exact State.toConfirm_butEvents .sync (by rw [acquire]; decide) (by rw [acquire]; decide) hold

/-! ### The receiver's events (R96, R98) -/

section
variable {lane : Nat} {s : State}

theorem execSyncAcquired_of_acquire (there : s.laneThere lane = true) (acquire : s.link lane = 2) :
    exec (.syncAcquired lane) s = .next (if s.regN (.hiBer lane) = 0 then s.synced lane else s.setReg (.syncHeld lane) 1) := by
  show execSyncAcquired lane s = _
  unfold execSyncAcquired
  rw [if_pos ⟨there, acquire⟩]
  split <;> rfl

theorem execAnComplete_of_autoneg {page : Nat} (there : s.laneThere lane = true) (autoneg : s.link lane = 3) :
    exec (.anComplete lane page) s = .next (if page.testBit 5 then (s.wr (lnUnit lane) 0x5001 0 (page % 65536)).toConfirm lane .fd
      else ((s.wr (lnUnit lane) 0x5001 0 (page % 65536)).latch (lnUnit lane) 18).negotiate lane) := by
  show execAnComplete lane page s = _
  unfold execAnComplete
  rw [if_pos ⟨there, autoneg⟩]
  split <;> rfl

/-- A sync that is dropped twice is dropped. -/
theorem State.setReg_zero_twice (s : State) (h : Hid) : (s.setReg h 0).setReg h 0 = s.setReg h 0 := by
  have gone : ∀ m : Map Hid Int, Map.erase (Map.erase m h) h = Map.erase m h := fun m => by
    induction m with
    | nil => rfl
    | cons p m ih =>
      by_cases same : p.1 = h
      · simpa [Map.erase, same] using ih
      · simp [Map.erase, same, ih]
  simp [State.setReg, Map.set, gone]

theorem execSyncLost_of_syncing (there : s.laneThere lane = true) (syncing : s.link lane = 3 ∨ s.link lane = 4) :
    exec (.syncLost lane false) s = .next ((s.setReg (.syncHeld lane) 0).toAcquire lane .syncLost) := by
  show execSyncLost lane false s = _
  unfold execSyncLost
  rw [if_pos ⟨there, by omega⟩]
  dsimp only
  rw [if_pos (by omega : 3 ≤ s.link lane)]
  rfl

theorem execSyncLost_of_hiBer (there : s.laneThere lane = true) (acquire : s.link lane = 2) (coded : 3 ≤ s.pcsMode lane)
    (before : s.regN (.hiBer lane) = 0) :
    exec (.syncLost lane true) s = .next ((s.setReg (.hiBer lane) 1).bump (lnUnit lane) 0x8005 0 1) := by
  show execSyncLost lane true s = _
  unfold execSyncLost
  rw [if_pos ⟨there, by omega⟩]
  simp [acquire, State.is66, coded, before]

theorem execHiBerEnd_eq (there : s.laneThere lane = true) :
    exec (.hiBerEnd lane) s = .next (if s.link lane = 2 ∧ s.regN (.hiBer lane) = 1 ∧ s.regN (.syncHeld lane) = 1
      then ((s.setReg (.hiBer lane) 0).setReg (.syncHeld lane) 0).synced lane else (s.setReg (.hiBer lane) 0).setReg (.syncHeld lane) 0) := by
  show execHiBerEnd lane s = _
  unfold execHiBerEnd
  rw [if_pos there]

theorem anComplete_repeats {page : Nat} (there : s.laneThere lane = true) (autoneg : s.link lane = 3) (half : page.testBit 5 = false) :
    exec (.anComplete lane page) s = .next ((((s.wr (lnUnit lane) 0x5001 0 (page % 65536)).latch (lnUnit lane) 18).setReg (.anPage lane)
      (s.basePage lane)).startTimer (.syncTimeout lane) (s.rd (lnUnit lane) 0x1007 0 * 6250)) := by
  rw [execAnComplete_of_autoneg there autoneg, half, if_neg Bool.false_ne_true]
  refine congrArg _ (State.negotiate_of_rd fun i below above => ?_)
  rw [State.rd_latch, if_neg (by omega), State.rd_wr_ne _ _ (by omega)]

theorem anComplete_confirms {page : Nat} (there : s.laneThere lane = true) (autoneg : s.link lane = 3) (full : page.testBit 5 = true)
    (hold : s.rd (lnUnit lane) 0x1008 0 ≠ 0) :
    ∃ t, exec (.anComplete lane page) s = .next t
      ∧ ((((s.wr (lnUnit lane) 0x5001 0 (page % 65536)).stopTimer (.syncTimeout lane)).wr (lnUnit lane) 0x5000 0 4).startTimer (.upHold lane)
          (s.rd (lnUnit lane) 0x1008 0 * 6250)).ButEvents t := by
  have state : (s.wr (lnUnit lane) 0x5001 0 (page % 65536)).link lane = 3 := (State.rd_wr_ne _ _ (by simp)).trans autoneg
  have time : (s.wr (lnUnit lane) 0x5001 0 (page % 65536)).rd (lnUnit lane) 0x1008 0 = s.rd (lnUnit lane) 0x1008 0 :=
    State.rd_wr_ne _ _ (by simp)
  have confirms := State.toConfirm_butEvents .fd (by rw [state]; decide) (by rw [state]; decide) (time ▸ hold)
  rw [time] at confirms
  exact ⟨_, by rw [execAnComplete_of_autoneg there autoneg, if_pos full], confirms⟩

theorem syncLost_acquires (there : s.laneThere lane = true) (syncing : s.link lane = 3 ∨ s.link lane = 4) :
    ∃ t, exec (.syncLost lane false) s = .next t
      ∧ ((((s.stopTimer (.upHold lane)).setReg (.syncHeld lane) 0).wr (lnUnit lane) 0x5000 0 2).startTimer (.syncTimeout lane)
          (s.rd (lnUnit lane) 0x1007 0 * 6250)).ButEvents t := by
  refine ⟨_, execSyncLost_of_syncing there syncing, ?_⟩
  have moved := State.toAcquire_butEvents (s := s.setReg (.syncHeld lane) 0) (lane := lane) .syncLost
    (by show s.link lane ≠ 2; omega) (by show s.link lane ≠ 5; omega)
  rwa [show (State.stopTimer (s.setReg (.syncHeld lane) 0) (.upHold lane)).setReg (.syncHeld lane) 0
    = (s.stopTimer (.upHold lane)).setReg (.syncHeld lane) 0 from State.setReg_zero_twice (s.stopTimer (.upHold lane)) _] at moved

theorem hiBerEnd_negotiates (there : s.laneThere lane = true) (acquire : s.link lane = 2) (hiBer : s.regN (.hiBer lane) = 1)
    (held : s.regN (.syncHeld lane) = 1) (an : s.rd (lnUnit lane) 0x1002 0 = 1) :
    ∃ t, exec (.hiBerEnd lane) s = .next t ∧ t.link lane = 3 ∧ t.regN (.hiBer lane) = 0 ∧ t.regN (.syncHeld lane) = 0
      ∧ t.timer (.syncTimeout lane) = some (s.rd (lnUnit lane) 0x1007 0 * 6250) := by
  refine ⟨_, (execHiBerEnd_eq there).trans (congrArg _ (if_pos ⟨acquire, hiBer, held⟩)), ?_⟩
  have events := State.synced_butEvents_negotiate (s := (s.setReg (.hiBer lane) 0).setReg (.syncHeld lane) 0) acquire an
  refine ⟨(events.link lane).trans (State.rd_wr_self ..), ?_, ?_, (events.timer _ (by simp)).trans ?_⟩
  · rw [State.regN, events.regs _ rfl]
    simp [State.reg_setReg]
  · rw [State.regN, events.regs _ rfl]
    simp [State.reg_setReg]
  · rw [State.timer_startTimer, if_pos rfl]
    rfl

end

end Sys2Proof.Machine
open Sys2Proof Sys2Proof.Machine

/-- Settles O9: each input of Table 3.8 moves the lane by one change of its link state, which is beside UP; what runs and what is advertised
behind it reads the configuration alone. -/
theorem syncAndAutonegMoveLane : Obligations.SyncAndAutonegMoveLane := by
  refine ⟨fun lane s there acquire clear an => ⟨_, ?_, State.synced_butEvents_negotiate acquire an⟩,
    fun lane s there acquire clear an hold => ⟨_, ?_, State.synced_butEvents_confirm acquire an hold⟩,
    fun _ _ _ => anComplete_confirms, fun _ _ _ => anComplete_repeats, fun _ _ => syncLost_acquires,
    fun _ _ => execSyncLost_of_hiBer, fun lane s there acquire hiBer => ?_, fun _ _ => hiBerEnd_negotiates⟩
  · rw [execSyncAcquired_of_acquire there acquire, if_pos clear]
  · rw [execSyncAcquired_of_acquire there acquire, if_pos clear]
  · rw [execSyncAcquired_of_acquire there acquire, if_neg hiBer]

end
section
/-! The timers, the clocks and the LED of a lane, its entry into UP, and the pins of MF (O10). -/
namespace Sys2Proof.Machine

/-! ### sync_timeout (R95) -/

/-- An object that says no mode is as before the wake. -/
theorem State.rd_wake_lane (s : State) (lane i k : Nat) : s.wake.rd (lnUnit lane) i k = s.rd (lnUnit lane) i k :=
  s.rd_wake k (fun e => by simp [lnUnit] at e; omega)

section
variable {lane : Nat} {s : State}

theorem execSyncTimeoutExpire_of_running (up : s.mainUp = true) (running : (s.timer (.syncTimeout lane)).isSome) :
    exec (.syncTimeoutExpire lane) s = .next (s.wake.syncExpire lane) := by
  show execSyncTimeoutExpire lane s = _
  unfold execSyncTimeoutExpire
  rw [if_pos ⟨up, running⟩]

/-- What a timeout counts is no configuration. -/
theorem State.rd_syncExpired (s : State) (lane : Nat) {i : Nat} (below : i < 0x5000) :
    ((s.wake.bump (lnUnit lane) 0x8001 0 1).setReg (.syncHeld lane) 0).rd (lnUnit lane) i 0 = s.rd (lnUnit lane) i 0 := by
  rw [State.rd_setReg, State.rd_bump, if_neg (by omega), State.rd_wake_lane]

theorem State.syncExpire_eq (s : State) (lane : Nat) : s.wake.syncExpire lane
    = if s.link lane = 3 then ((s.wake.bump (lnUnit lane) 0x8001 0 1).setReg (.syncHeld lane) 0).negotiate lane
      else ((s.wake.bump (lnUnit lane) 0x8001 0 1).setReg (.syncHeld lane) 0).startSync lane := by
  unfold State.syncExpire
  rw [State.link, State.rd_wake_lane]
  rfl

theorem syncTimeout_restarts (up : s.mainUp = true) (running : (s.timer (.syncTimeout lane)).isSome) (other : s.link lane ≠ 3) :
    exec (.syncTimeoutExpire lane) s = .next (((s.wake.bump (lnUnit lane) 0x8001 0 1).setReg (.syncHeld lane) 0).startTimer (.syncTimeout lane)
      (s.rd (lnUnit lane) 0x1007 0 * 6250)) := by
  rw [execSyncTimeoutExpire_of_running up running, State.syncExpire_eq, if_neg other, State.startSync_of_rd (s.rd_syncExpired lane (by decide))]

theorem syncTimeout_advertises (up : s.mainUp = true) (running : (s.timer (.syncTimeout lane)).isSome) (autoneg : s.link lane = 3) :
    exec (.syncTimeoutExpire lane) s = .next ((((s.wake.bump (lnUnit lane) 0x8001 0 1).setReg (.syncHeld lane) 0).setReg (.anPage lane)
      (s.basePage lane)).startTimer (.syncTimeout lane) (s.rd (lnUnit lane) 0x1007 0 * 6250)) := by
  rw [execSyncTimeoutExpire_of_running up running, State.syncExpire_eq, if_pos autoneg,
    State.negotiate_of_rd fun i below _ => s.rd_syncExpired lane below]

end

/-! ### The entry into UP (R98, R118, R203) -/

/-- `t` is `s` but for what the flow control and the preemption of a channel do when it enters UP: no link state, no `up_hold`, no frame and no copy
has changed. -/
structure State.EntersUp (s t : State) : Prop where
  links  : ∀ lane, t.link lane = s.link lane
  holds  : ∀ lane, t.timer (.upHold lane) = s.timer (.upHold lane)
  copies : t.copies = s.copies
  frames : t.frames = s.frames

namespace State.EntersUp
variable {r s t : State}

theorem refl (s : State) : s.EntersUp s := ⟨fun _ => rfl, fun _ => rfl, rfl, rfl⟩

theorem trans (h : r.EntersUp s) (k : s.EntersUp t) : r.EntersUp t :=
  ⟨fun l => (k.links l).trans (h.links l), fun l => (k.holds l).trans (h.holds l), k.copies.trans h.copies, k.frames.trans h.frames⟩

theorem ite {p : Prop} [Decidable p] (h : r.EntersUp s) (k : r.EntersUp t) : r.EntersUp (if p then s else t) := by
  split <;> assumption

theorem foldl {α : Type} {f : State → α → State} (hf : ∀ (u : State) x, u.EntersUp (f u x)) (l : List α) (s : State) :
    s.EntersUp (l.foldl f s) := by
  induction l generalizing s with
  | nil => exact refl s
  | cons x l ih => exact (hf s x).trans (ih _)

theorem events (h : s.ButEvents t) : s.EntersUp t := ⟨h.link, fun _ => h.timer _ (by simp), h.copies, h.frames⟩

theorem wr (s : State) {u i k v : Nat} (hi : i ≠ 0x5000) : s.EntersUp (s.wr u i k v) :=
  ⟨fun _ => State.rd_wr_ne s v (fun e => hi e.2.1.symm), fun _ => rfl, rfl, rfl⟩

theorem startTimer (s : State) {x : TimerId} (n : Nat) (hx : ∀ lane, .upHold lane ≠ x) : s.EntersUp (s.startTimer x n) :=
  ⟨fun _ => rfl, fun lane => (State.timer_startTimer ..).trans (if_neg (hx lane)), rfl, rfl⟩

/-- A change of registers, of the generated frames that wait, and of what has been sent. -/
theorem other (s : State) {a : Map Hid Int} {b : List GenFrame} {c : Map Nat (List Octet)} :
    s.EntersUp { s with hid := a, genQ := b, txOut := c } := ⟨fun _ => rfl, fun _ => rfl, rfl, rfl⟩

theorem setReg (s : State) (h : Hid) (v : Int) : s.EntersUp (s.setReg h v) := other s

theorem queuePause (s : State) (ch : Nat) : s.EntersUp (s.queuePause ch) := ite (refl s) (other s)

theorem armRefresh (s : State) (ch k : Nat) : s.EntersUp (s.armRefresh ch k) := ite (startTimer s _ (by simp)) (refl s)

theorem pauseUp (s : State) (ch : Nat) : s.EntersUp (s.pauseUp ch) :=
  foldl (fun u _ => ite (((setReg u _ _).trans (queuePause _ _)).trans (armRefresh _ _ _)) (ite (queuePause u _) (refl u))) _ s

theorem setPreempt (s : State) (ch v : Nat) : s.EntersUp (s.setPreempt ch v) :=
  ite (refl s) ((wr s (by decide)).trans (events (.record _ _ _ _ _)))

theorem sendMPacket (s : State) (ch smd : Nat) : s.EntersUp (s.sendMPacket ch smd) := by
  have charged : s.EntersUp (s.chargeQuarter ch 64) := ite ((setReg s _ _).trans (setReg _ _ _)) (refl s)
  exact ite (charged.trans (other _)) (other s)

theorem sendVerify (s : State) (ch : Nat) : s.EntersUp (s.sendVerify ch) :=
  ((sendMPacket s _ _).trans (setReg _ _ _)).trans (startTimer _ _ (by simp))

theorem preemptUp (s : State) (ch : Nat) : s.EntersUp (s.preemptUp ch) :=
  ite (ite (setPreempt s _ _) (((setPreempt s _ _).trans (setReg _ _ _)).trans (sendVerify _ _))) (refl s)

theorem channelUp (s : State) (ch : Nat) : s.EntersUp (s.channelUp ch) := ite ((pauseUp s ch).trans (preemptUp _ ch)) (refl s)

end State.EntersUp

/-- A lane in CONFIRM enters UP. -/
theorem State.upHoldOver_entersUp {s : State} {lane : Nat} (confirm : s.link lane = 4) :
    ((s.stopTimer (.upHold lane)).wr (lnUnit lane) 0x5000 0 5).EntersUp (s.upHoldOver lane) := by
  have old : (s.stopTimer (.upHold lane)).link lane = 4 := confirm
  unfold State.upHoldOver State.setLink
  dsimp only
  rw [old, if_neg (by decide), if_neg (by decide), if_pos rfl]
  exact (State.EntersUp.events ((State.ButEvents.record _ _ _ _ _).trans (.raise _ _))).trans (.foldl State.EntersUp.channelUp _ _)

theorem upHoldExpire_enters {lane : Nat} {s : State} (up : s.mainUp = true) (running : (s.timer (.upHold lane)).isSome)
    (confirm : s.link lane = 4) :
    ∃ t, exec (.upHoldExpire lane) s = .next t ∧ t.link lane = 5 ∧ t.timer (.upHold lane) = none ∧ t.copies = s.copies
      ∧ t.frames = s.frames ∧ (∀ l, l ≠ lane → t.link l = s.link l) := by
  have awake : ∀ l, s.wake.link l = s.link l := fun l => s.rd_wake_lane l _ _
  have enters := State.upHoldOver_entersUp ((awake lane).trans confirm)
  rw [State.wake_eq] at enters
  refine ⟨s.wake.upHoldOver lane, ?_, ?_⟩
  · show execUpHoldExpire lane s = _
    unfold execUpHoldExpire
    rw [if_pos ⟨up, running⟩]
  · rw [State.wake_eq]
    refine ⟨(enters.links lane).trans (State.rd_wr_self ..), (enters.holds lane).trans ?_, enters.copies, enters.frames, fun l other => ?_⟩
    · exact (State.timer_stopTimer ..).trans (if_pos rfl)
    · refine (enters.links l).trans ((State.rd_wr_ne _ _ ?_).trans ?_)
      · simp [lnUnit, other]
      · have same := awake l
        rwa [State.wake_eq] at same

/-! ### The clocks of a lane (R97) -/

section
variable {lane : Nat} {tx : Bool} {s : State}

/-- The state in which the loss of a clock takes the lane down. -/
def State.clockGone (s : State) (lane : Nat) (tx : Bool) : State :=
  (((s.setReg (.clockLost lane) (if tx then 2 else 1)).wr (lnUnit lane) 0x5002 0 0).bump (lnUnit lane) 0x8002 0 1).latch (lnUnit lane) 19

theorem execLaneClockLost_of_clocked (there : s.laneThere lane = true) (coded : s.pcsMode lane ≠ 0) (clocks : s.regN (.clockLost lane) = 0) :
    exec (.laneClockLost ⟨lane, tx⟩) s = .next ((s.clockGone lane tx).sdDown lane) := by
  show execLaneClockLost ⟨lane, tx⟩ s = _
  unfold execLaneClockLost
  rw [clocks]
  cases tx
  all_goals
    simp only [there, coded, ne_eq, not_false_eq_true, Nat.zero_testBit, and_self, if_true]
    rfl

theorem State.rd_clockGone (s : State) (lane : Nat) (tx : Bool) :
    (s.clockGone lane tx).rd (lnUnit lane) 0x5002 0 = 0
      ∧ (s.clockGone lane tx).rd (lnUnit lane) 0x8002 0 = (s.rd (lnUnit lane) 0x8002 0 + 1) % 2 ^ counterBits (lnUnit lane) 0x8002
      ∧ (s.clockGone lane tx).rd (lnUnit lane) 0x0005 0 = setBit (s.rd (lnUnit lane) 0x0005 0) 19 true
      ∧ (s.clockGone lane tx).link lane = s.link lane := by
  simp [State.clockGone, State.link, State.rd_latch, State.rd_bump, State.rd_wr]

theorem State.reg_clockGone (s : State) (lane : Nat) (tx : Bool) :
    (s.clockGone lane tx).reg (.clockLost lane) = (if tx then 2 else 1) := by
  rw [State.clockGone, State.reg_latch, State.reg_bump, State.reg_wr, State.reg_setReg_self]

/-- Signal detect taken as low moves a lane beside UP to DOWN, unless it is DISABLED. -/
theorem State.sdDown_butEvents {s : State} {lane : Nat} (notUp : s.link lane ≤ 4) :
    ∃ u : State, u.ButEvents (s.sdDown lane) ∧ u.link lane = min 1 (s.link lane) ∧ u.reg (.clockLost lane) = s.reg (.clockLost lane)
      ∧ ∀ i, i ≠ 0x5000 → u.rd (lnUnit lane) i 0 = s.rd (lnUnit lane) i 0 := by
  unfold State.sdDown
  split
  next moves =>
    refine ⟨_, State.toDown_butEvents .sdLow (by omega) (by omega) (by decide), ?_, ?_, fun i other => State.rd_wr_ne _ _ (by omega)⟩
    · exact (State.rd_wr_self ..).trans (by omega)
    · simp [State.reg_setReg]
  next stays => exact ⟨s, .refl s, by omega, rfl, fun _ _ => rfl⟩

theorem clockLost_goes (there : s.laneThere lane = true) (coded : s.pcsMode lane ≠ 0) (clocks : s.regN (.clockLost lane) = 0)
    (notUp : s.link lane ≤ 4) :
    ∃ t, exec (.laneClockLost ⟨lane, tx⟩) s = .next t ∧ t.regN (.clockLost lane) = (if tx then 2 else 1) ∧ t.rd (lnUnit lane) 0x5002 0 = 0
      ∧ t.rd (lnUnit lane) 0x8002 0 = (s.rd (lnUnit lane) 0x8002 0 + 1) % 2 ^ counterBits (lnUnit lane) 0x8002
      ∧ t.rd (lnUnit lane) 0x0005 0 = setBit (s.rd (lnUnit lane) 0x0005 0) 19 true ∧ t.link lane = min 1 (s.link lane) := by
  obtain ⟨low, counted, alarm, link⟩ := s.rd_clockGone lane tx
  obtain ⟨u, events, down, lost, kept⟩ := State.sdDown_butEvents (s := s.clockGone lane tx) (lane := lane) (link.trans_le notUp)
  have rd : ∀ i, i ≠ 0x5000 → ((s.clockGone lane tx).sdDown lane).rd (lnUnit lane) i 0 = (s.clockGone lane tx).rd (lnUnit lane) i 0 :=
    fun i other => (events.rd_lane ..).trans (kept i other)
  refine ⟨_, execLaneClockLost_of_clocked there coded clocks, ?_, (rd _ (by decide)).trans low, (rd _ (by decide)).trans counted,
    (rd _ (by decide)).trans alarm, (events.link lane).trans (down.trans (by rw [link]))⟩
  rw [State.regN, events.regs _ rfl, lost, State.reg_clockGone]
  cases tx <;> rfl

theorem execLaneClockReturn_of_lost (there : s.laneThere lane = true) (lost : (s.regN (.clockLost lane)).testBit tx.toNat = true) :
    exec (.laneClockReturn ⟨lane, tx⟩) s
      = .next ((s.setReg (.clockLost lane) (setBit (s.regN (.clockLost lane)) tx.toNat false)).sdCheck lane) := by
  show execLaneClockReturn ⟨lane, tx⟩ s = _
  unfold execLaneClockReturn
  dsimp only
  rw [if_pos ⟨there, lost⟩]

theorem State.sdCheck_of_low {s : State} {lane : Nat} (low : s.sdHigh lane = false) : s.sdCheck lane = s := by
  unfold State.sdCheck
  rw [if_neg (by simp [low])]

theorem clockReturn_ends (there : s.laneThere lane = true) (lost : s.regN (.clockLost lane) = (if tx then 2 else 1))
    (low : s.rd (lnUnit lane) 0x5002 0 = 0) (normal : s.rd (lnUnit lane) 0x4000 0 ≠ 1) :
    exec (.laneClockReturn ⟨lane, tx⟩) s = .next (s.setReg (.clockLost lane) 0) := by
  have bit : (s.regN (.clockLost lane)).testBit tx.toNat = true ∧ setBit (s.regN (.clockLost lane)) tx.toNat false = 0 := by
    rw [lost]
    cases tx <;> decide
  rw [execLaneClockReturn_of_lost there bit.1, bit.2]
  exact congrArg _ (State.sdCheck_of_low (by simp [State.sdHigh, low, normal]))

theorem clockReturn_waits (there : s.laneThere lane = true) (lost : s.regN (.clockLost lane) = 3) :
    exec (.laneClockReturn ⟨lane, tx⟩) s = .next (s.setReg (.clockLost lane) (if tx then 1 else 2)) := by
  have bit : (s.regN (.clockLost lane)).testBit tx.toNat = true
      ∧ ((setBit (s.regN (.clockLost lane)) tx.toNat false : Nat) : Int) = (if tx then 1 else 2) := by
    rw [lost]
    cases tx <;> decide
  rw [execLaneClockReturn_of_lost there bit.1, bit.2]
  refine congrArg _ (State.sdCheck_of_low ?_)
  cases tx <;> simp [State.sdHigh, State.regN_setReg]

end

/-! ### The LED and the pins of MF (R397, R399) -/

theorem ledActivityTimer_turns {lane : Nat} {s : State} (up : s.mainUp = true) (running : (s.timer (.led lane)).isSome) :
    exec (.ledActivityTimer lane) s = .next (if s.regN (.ledActive lane) = 1
      then (s.wake.setReg (.ledActive lane) 2).startTimer (.led lane) 250000
      else (s.wake.stopTimer (.led lane)).setReg (.ledActive lane) 0) := by
  show execLedActivityTimer lane s = _
  unfold execLedActivityTimer
  rw [if_pos ⟨up, running⟩, State.ledOver, State.wake_eq]
  rfl

/-- The first enabled slot that names a pin gives its function. -/
theorem State.mfSlotOf_of_first {s : State} {pin k : Nat} (hk : k < 16) (on : (s.rd 0x000 0x1010 k).testBit 31 = true)
    (names : field (s.rd 0x000 0x1010 k) 28 3 = pin)
    (first : ∀ j < k, (s.rd 0x000 0x1010 j).testBit 31 = false ∨ field (s.rd 0x000 0x1010 j) 28 3 ≠ pin) :
    s.mfSlotOf pin = some (s.rd 0x000 0x1010 k) := by
  unfold State.mfSlotOf
  rw [List.find?_eq_some_iff_getElem]
  refine ⟨by simp [on, names], k, by simpa using hk, by simp, fun j before => ?_⟩
  rcases first j before with off | other
  · simp [off]
  · simp [other]

theorem State.mfPin_of_first {s : State} {pin k : Nat} (powered : s.snowdropUp = true) (hk : k < 16)
    (on : (s.rd 0x000 0x1010 k).testBit 31 = true) (names : field (s.rd 0x000 0x1010 k) 28 3 = pin)
    (first : ∀ j < k, (s.rd 0x000 0x1010 j).testBit 31 = false ∨ field (s.rd 0x000 0x1010 j) 28 3 ≠ pin) :
    s.mfPin pin = some (true, s.mfLevel (field (s.rd 0x000 0x1010 k) 24 4) (field (s.rd 0x000 0x1010 k) 0 16)) := by
  simp only [State.mfPin, powered, Bool.not_true, Bool.false_eq_true, if_false, State.mfSlotOf_of_first hk on names first]

/-- LANE_LED: instances 0 to 15 are LINK, 16 to 31 ACTIVITY (Table 18.7). -/
theorem State.mfLevel_laneLed {s : State} {lane : Nat} (main : s.mode ≤ 2) (hl : lane < 16) :
    s.mfLevel 4 lane = s.laneUp lane ∧ s.mfLevel 4 (16 + lane) = (s.laneUp lane && s.regN (.ledActive lane) ≠ 1) := by
  have link : lane % 16 = lane ∧ lane.testBit 4 = false := ⟨Nat.mod_eq_of_lt hl, Nat.testBit_lt_two_pow hl⟩
  have activity : (16 + lane) % 16 = lane ∧ (16 + lane).testBit 4 = true := by
    refine ⟨by omega, ?_⟩
    rw [show 16 + lane = 2 ^ 4 + lane from rfl, Nat.testBit_two_pow_add_eq, link.2]
    rfl
  simp [State.mfLevel, main, link, activity]

end Sys2Proof.Machine
open Sys2Proof Sys2Proof.Machine

/-- Settles O10: each timer and clock by its command's one branch; the entry into UP leaves links, frames and copies (`State.EntersUp`). -/
theorem laneTimersAndClockAct : Obligations.LaneTimersAndClockAct :=
  ⟨fun _ _ => syncTimeout_restarts, fun _ _ => syncTimeout_advertises, fun _ _ => upHoldExpire_enters,
    fun _ _ _ => clockLost_goes, fun _ _ _ => clockReturn_ends, fun _ _ _ => clockReturn_waits,
    fun lane s there noSync => (execHiBerEnd_eq there).trans (congrArg _ (if_neg (by simp [noSync]))),
    fun _ _ => ledActivityTimer_turns, fun _ _ _ => State.mfPin_of_first, fun _ _ => State.mfLevel_laneLed⟩

end

section
/-! A lane that leaves UP while the frame in its reception is applied already (O8). -/
namespace Sys2Proof.Machine

/-- Lane 0 UP in 10GBASE-R and the device in RUN; frame 1 in reception on channel 1 has its held effects applied already, and a copy of it is on
the wire of channel 0. -/
def appliedInReception : State :=
  let s := ((State.quietAt 1 0).wr 0x100 0x1000 0 3).wr 0x100 0x5000 0 5
  let f : Frame := { s.newFrame 1 (0, 0) false with id := 1, octets := List.replicate 64 0, applied := true }
  { s with
    frames := [f]
    copies := [{ s.newCopy 1 0 (.base 0 0) 0 false false none with state := .sending }]
    rxNow := [(1, 1)] }

theorem sdFall_appliedInReception : exec (.sdFall 0) appliedInReception = .next ((appliedInReception.wr 0x100 0x5002 0 0).sdDown 0) := by
  show execSdFall 0 appliedInReception = _
  have there : appliedInReception.laneThere 0 = true := by decide +kernel
  have low : (appliedInReception.wr (lnUnit 0) 0x5002 0 0).sdHigh 0 = false := by decide +kernel
  simp only [execSdFall, there, if_true, low, Bool.false_eq_true, if_false]
  rfl

/-- The copy on channel 0 is cut first, and its frame, which is applied and has no other copy, is released before channel 1 is looked at. -/
theorem appliedInReception_symbolErrors :
    ((appliedInReception.wr 0x100 0x5002 0 0).sdDown 0).rd (chUnit 1) 0x8012 0 ≠ (appliedInReception.rd (chUnit 1) 0x8012 0 + 1) % 2 ^ 64 := by
  decide +kernel

end Sys2Proof.Machine
open Sys2Proof Sys2Proof.Machine

/-- Refutes O8 by its clause on a single frame in reception, which lets that frame be applied already: `appliedInReception` has it also on the wire
of another channel of the lane, and its release with that copy comes before the count of its symbol error. No frame in reception is applied, and
the clause does not ask that. -/
theorem not_signalDetectMovesLane : ¬ Obligations.SignalDetectMovesLane := by
  rintro ⟨-, -, -, -, fails⟩
  have inReception := (fails 0 1 appliedInReception (by decide +kernel) (by decide +kernel) (by decide +kernel) (by decide +kernel)
    (by decide +kernel) rfl).1
  obtain ⟨t, answer, -, counted⟩ := inReception 1 _ rfl rfl rfl
  rw [sdFall_appliedInReception] at answer
  obtain rfl := Host.Outcome.next.inj answer
  exact appliedInReception_symbolErrors counted

end

section
/-! TEST_RAISE of the ring error of a ring whose `proc` names no processor (O44). -/
namespace Sys2Proof.Machine

/-- A device in RUN whose TQ0 has the `proc` 0xA0, beyond the 0 to 7 of Table 9.9. -/
def farProc : State := (State.quietAt 1 0).wr 0x400 0x4006 0 0xA0

/-- RING_ERR of TQ0. -/
def farCause : Nat := causeRingErr 0x400

/-- Its source is 0x88 + 0xA0, the level source of AL_PARKED of air link 0: no source that several causes share, and IDLE. -/
theorem farProc_source : sourceOf farProc.build farCause (farProc.procOf (causeInst farCause)) = 0x128
    ∧ levelCause? farProc.build 0x128 = some (causeAlParked 0) ∧ sharedSource farProc.build 0x128 = false ∧ farProc.srcState 0x128 = 0 := by
  decide +kernel

theorem testRaise_farProc : exec (.testRaise ⟨.host, 0⟩ farCause) farProc = .next ((farProc.awake ⟨.host, 0⟩).told ⟨.host, 0⟩
    (fun t => t.writePath ⟨.host, 0⟩ false (pathTo 0x002) 0x7000 0 (toMsb 2 farCause))) :=
  State.access_here (by decide +kernel : farProc.mainUp = true) (by decide +kernel : farProc.resolvePath (pathTo 0x002) = .here 0x002) _ _ _

/-- A level source is sampled at the boundary (R317): the raise does nothing. -/
theorem testRaise_farProc_idle : State.srcState ((farProc.awake ⟨.host, 0⟩).told ⟨.host, 0⟩
    (fun t => t.writePath ⟨.host, 0⟩ false (pathTo 0x002) 0x7000 0 (toMsb 2 farCause))) 0x128 = 0 := by
  decide +kernel

end Sys2Proof.Machine
open Sys2Proof Sys2Proof.Machine

/-- Refutes O44 by its clause on TEST_RAISE: the cause of a ring error has its source by the ring's `proc`, which the clause lets be any number.
In `farProc` it is beyond the processors of Table 9.9, and the source is the level source of an air link, which no raise makes PENDING. -/
theorem not_unitCommandsAct : ¬ Obligations.UnitCommandsAct := by
  rintro ⟨-, -, -, -, raises, -⟩
  obtain ⟨source, -, own, idle⟩ := farProc_source
  obtain ⟨t, answer, -, pending⟩ := (raises ⟨.host, 0⟩ farCause farProc (by decide) (by decide +kernel)).1 (by decide +kernel)
    (source ▸ own) (source ▸ idle)
  rw [testRaise_farProc] at answer
  obtain rfl := Host.Outcome.next.inj answer
  rw [source, testRaise_farProc_idle] at pending
  exact absurd pending (by decide)

end

section
/-! A cell that joins its frame: what the lane counts of it, the room in the lane FIFO, the account, and the frame itself (O16). -/
namespace Sys2Proof.Machine

/-! ### What the lane counts of a cell (R82, R84, R210) -/

/-- `t` is `s` but for counters, the level of the unit a fabric link receives, and the mark of the events held: all that RX_CELL changes before it
looks at its frame. -/
structure State.CellCounted (s t : State) : Prop where
  fields : t = { s with obj := t.obj, hid := t.hid, evHold := t.evHold }
  config : ∀ u i k, i < 0x8000 → t.rd u i k = s.rd u i k
  regs   : ∀ h : Hid, (∀ ch, h ≠ .rxLevel ch) → t.reg h = s.reg h

namespace State.CellCounted
variable {r s t : State}

theorem refl (s : State) : s.CellCounted s := ⟨rfl, fun _ _ _ _ => rfl, fun _ _ => rfl⟩

theorem trans (h : r.CellCounted s) (k : s.CellCounted t) : r.CellCounted t where
  fields := by rw [k.fields, h.fields]
  config u i l below := (k.config u i l below).trans (h.config u i l below)
  regs x other := (k.regs x other).trans (h.regs x other)

theorem hold (s : State) (l : Option (List HeldEvent)) : s.CellCounted { s with evHold := l } := ⟨rfl, fun _ _ _ _ => rfl, fun _ _ => rfl⟩

theorem bump (s : State) {u i k n : Nat} (counter : 0x8000 ≤ i) : s.CellCounted (s.bump u i k n) where
  fields := rfl
  config _ _ _ below := State.rd_wr_ne s _ (by omega)
  regs _ _ := rfl

theorem unitLevel (s : State) (ch level : Nat) : s.CellCounted (s.unitLevel ch level) := by
  unfold State.unitLevel
  split
  · exact ⟨rfl, fun _ _ _ _ => rfl, fun h other => by rw [State.reg_setReg, if_neg (other ch)]⟩
  · exact refl s

theorem cellCounts (s : State) (lane : Nat) (cell : CellInput) : s.CellCounted (s.cellCounts lane cell) := by
  have fec : s.CellCounted (s.fecCounts lane cell.fecCorrected cell.fecBad) := by
    unfold State.fecCounts
    split
    · exact (bump s (by decide)).trans (bump _ (by decide))
    · exact refl s
  unfold State.cellCounts
  dsimp only
  split
  · exact fec
  · exact fec.trans (bump _ (by decide))

theorem cellLevel (s : State) (ch : Nat) (cell : CellInput) : s.CellCounted (s.cellLevel ch cell) := by
  unfold State.cellLevel
  split
  · exact unitLevel ..
  · split
    · split
      · exact unitLevel ..
      · exact refl s
    · exact refl s

/-! ### What reads the same behind the counts -/

theorem fifo (h : s.CellCounted t) : t.fifo = s.fifo := by rw [h.fields]
theorem ent (h : s.CellCounted t) (u i e : Nat) : t.ent u i e = s.ent u i e := by rw [h.fields]; rfl

theorem now (h : s.CellCounted t) : t.now = s.now := by
  have slot : t.slot = s.slot := by rw [h.fields]
  have tick : t.tick = s.tick := h.config _ _ _ (by decide)
  unfold State.now
  rw [slot, tick]

theorem wireEnd (h : s.CellCounted t) (lane : Nat) : t.regN (.wireEnd lane) = s.regN (.wireEnd lane) :=
  congrArg Int.toNat (h.regs _ (by simp))

theorem fifoSeen (h : s.CellCounted t) (lane : Nat) : t.regN (.fifoSeen lane) = s.regN (.fifoSeen lane) :=
  congrArg Int.toNat (h.regs _ (by simp))

theorem laneRate (h : s.CellCounted t) (lane : Nat) : t.laneRate lane = s.laneRate lane := by
  unfold State.laneRate
  rw [h.config _ _ _ (by decide), h.config _ _ _ (by decide)]

/-! ### The room in the lane FIFO (R79) -/

theorem fifoAt (h : s.CellCounted t) (slot : Nat) (last : Map Nat Nat) (l : List FifoCell) : t.fifoAt slot last l = s.fifoAt slot last l := by
  induction l generalizing last with
  | nil => rfl
  | cons c r ih =>
    have owned : ∀ a, t.nextOwned c.ch a = s.nextOwned c.ch a := fun a => by
      unfold State.nextOwned
      simp only [h.ent]
    simp only [State.fifoAt, owned, h.fifoSeen, ih]

theorem fifoTo (h : s.CellCounted t) (lane slot : Nat) : (t.fifoTo lane slot).fifo = (s.fifoTo lane slot).fifo := by
  show t.fifo.filter _ ++ t.fifoAt _ _ _ = _
  rw [h.fifoAt, h.fifo]
  rfl

end State.CellCounted

/-- The slot in which a cell with `behind` octets behind it on the wire has been received. -/
def State.cellSlot (s : State) (ch n behind : Nat) : Nat :=
  max (s.now - octetSlots behind (s.laneRate (laneOf ch))) (s.regN (.wireEnd (laneOf ch)) + octetSlots n (s.laneRate (laneOf ch)))

/-- The state in which a cell seeks room: where the lane FIFO is too full, what has left it by then is gone. -/
def State.beforeCell (s : State) (ch n behind : Nat) : State :=
  if laneOctets (laneOf ch) s.fifo + n ≤ Config.laneFifoOctets then s
  else s.fifoTo (laneOf ch) (s.cellSlot ch n behind - octetSlots n (s.laneRate (laneOf ch)))

theorem State.giveRoom_eq (s : State) (ch n behind : Nat) : s.giveRoom ch n behind
    = if laneOctets (laneOf ch) (s.beforeCell ch n behind).fifo + n ≤ Config.laneFifoOctets then
        (true, { (s.beforeCell ch n behind).setReg (.wireEnd (laneOf ch)) (s.cellSlot ch n behind) with
          fifo := (s.beforeCell ch n behind).fifo ++ [FifoCell.mk ch n (s.cellSlot ch n behind)] })
      else (false, (s.beforeCell ch n behind).setReg (.wireEnd (laneOf ch)) (s.cellSlot ch n behind)) := rfl

theorem State.fst_giveRoom (s : State) (ch n behind : Nat) : (s.giveRoom ch n behind).1
    = Decidable.decide (laneOctets (laneOf ch) (s.beforeCell ch n behind).fifo + n ≤ Config.laneFifoOctets) := by
  rw [State.giveRoom_eq]
  split
  next room => exact (decide_eq_true room).symm
  next full => exact (decide_eq_false full).symm

theorem State.fifo_giveRoom (s : State) (ch n behind : Nat) : (s.giveRoom ch n behind).2.fifo
    = (s.beforeCell ch n behind).fifo ++ if (s.giveRoom ch n behind).1 then [FifoCell.mk ch n (s.cellSlot ch n behind)] else [] := by
  rw [State.giveRoom_eq]
  split
  · rfl
  · exact (List.append_nil _).symm

theorem State.beforeCell_fields (s : State) (ch n behind : Nat) :
    s.beforeCell ch n behind = { s with hid := (s.beforeCell ch n behind).hid, fifo := (s.beforeCell ch n behind).fifo } := by
  unfold State.beforeCell
  split <;> rfl

/-- Room in the lane FIFO changes that FIFO and what is remembered of its lane's wire. -/
theorem State.giveRoom_fields (s : State) (ch n behind : Nat) :
    (s.giveRoom ch n behind).2 = { s with hid := (s.giveRoom ch n behind).2.hid, fifo := (s.giveRoom ch n behind).2.fifo } := by
  rw [State.giveRoom_eq]
  split
  all_goals
    rw [State.beforeCell_fields]
    rfl

namespace State.CellCounted
variable {s t : State}

theorem cellSlot (h : s.CellCounted t) (ch n behind : Nat) : t.cellSlot ch n behind = s.cellSlot ch n behind := by
  unfold State.cellSlot
  rw [h.now, h.wireEnd, h.laneRate]

theorem beforeCell (h : s.CellCounted t) (ch n behind : Nat) : (t.beforeCell ch n behind).fifo = (s.beforeCell ch n behind).fifo := by
  unfold State.beforeCell
  rw [h.fifo, h.cellSlot, h.laneRate]
  split
  · exact h.fifo
  · exact h.fifoTo ..

theorem giveRoom (h : s.CellCounted t) (ch n behind : Nat) : (t.giveRoom ch n behind).1 = (s.giveRoom ch n behind).1 := by
  rw [State.fst_giveRoom, State.fst_giveRoom, h.beforeCell]

theorem fifo_giveRoom (h : s.CellCounted t) (ch n behind : Nat) :
    (t.giveRoom ch n behind).2.fifo = (s.giveRoom ch n behind).2.fifo := by
  rw [State.fifo_giveRoom, State.fifo_giveRoom, h.beforeCell, h.giveRoom, h.cellSlot]

end State.CellCounted

/-! ### What the cell of a frame reads -/

/-- `t` has the frames of `s` and what decides on a cell of one of them: the configuration and the decisions that wait. -/
structure State.SameForCell (s t : State) : Prop where
  config : ∀ u i k, i < 0x8000 → t.rd u i k = s.rd u i k
  frames : t.frames = s.frames
  copies : t.copies = s.copies
  decQ   : t.decQ = s.decQ

theorem State.CellCounted.same {s t : State} (h : s.CellCounted t) : s.SameForCell t where
  config := h.config
  frames := by rw [h.fields]
  copies := by rw [h.fields]
  decQ := by rw [h.fields]

theorem State.sameForCell_giveRoom (s : State) (ch n behind : Nat) : s.SameForCell (s.giveRoom ch n behind).2 := by
  rw [State.giveRoom_fields]
  exact ⟨fun _ _ _ _ => rfl, rfl, rfl, rfl⟩

namespace State.SameForCell
variable {r s t : State}

theorem trans (h : r.SameForCell s) (k : s.SameForCell t) : r.SameForCell t where
  config u i l below := (k.config u i l below).trans (h.config u i l below)
  frames := k.frames.trans h.frames
  copies := k.copies.trans h.copies
  decQ := k.decQ.trans h.decQ

theorem occupancy (h : s.SameForCell t) (ch k : Nat) : t.occupancy ch k = s.occupancy ch k := by
  unfold State.occupancy
  rw [h.frames]

theorem limitOf (h : s.SameForCell t) (ch k : Nat) : t.limitOf ch k = s.limitOf ch k := by
  unfold State.limitOf State.hasHeadroom
  repeat rw [h.config _ _ _ (by decide)]

theorem cellFailure (h : s.SameForCell t) (f : Frame) (cell : CellInput) (room : Bool) :
    t.cellFailure f cell room = s.cellFailure f cell room := by
  have symbol : ∀ lane, t.symbolAt lane cell = s.symbolAt lane cell := fun lane => by
    unfold State.symbolAt
    repeat rw [h.config _ _ _ (by decide)]
  unfold State.cellFailure
  rw [symbol]

theorem inStaging (h : s.SameForCell t) {f : Frame} (standard : f.onFabric = false) : t.inStaging f = s.inStaging f := by
  have wants : t.wantsKey f = s.wantsKey f := by simp [State.wantsKey, standard]
  unfold State.inStaging
  rw [wants, h.decQ]

end State.SameForCell

/-! ### The pause thresholds and the peak of an account (R109, R114 to R117) -/

theorem State.queuePause_fields (s : State) (ch : Nat) : s.queuePause ch = { s with genQ := (s.queuePause ch).genQ } := by
  unfold State.queuePause
  split <;> rfl

theorem State.armRefresh_fields (s : State) (ch k : Nat) : s.armRefresh ch k = { s with timers := (s.armRefresh ch k).timers } := by
  unfold State.armRefresh
  split <;> rfl

/-- `t` is `s` but for the messages of pause, the state of the thresholds, and the peak of an account, which has not fallen. -/
structure State.Charges (s t : State) : Prop where
  fields : t = { s with obj := t.obj, hid := t.hid, genQ := t.genQ, timers := t.timers }
  peaks  : ∀ u k, s.rd u 0x5011 k ≤ t.rd u 0x5011 k

namespace State.Charges
variable {r s t : State}

theorem refl (s : State) : s.Charges s := ⟨rfl, fun _ _ => Nat.le_refl _⟩

theorem trans (h : r.Charges s) (k : s.Charges t) : r.Charges t where
  fields := by rw [k.fields, h.fields]
  peaks u l := (h.peaks u l).trans (k.peaks u l)

theorem setReg (s : State) (h : Hid) (v : Int) : s.Charges (s.setReg h v) := ⟨rfl, fun _ _ => Nat.le_refl _⟩
theorem stopTimer (s : State) (x : TimerId) : s.Charges (s.stopTimer x) := ⟨rfl, fun _ _ => Nat.le_refl _⟩

theorem wr (s : State) {u i k v : Nat} (hi : i ≠ 0x5011) : s.Charges (s.wr u i k v) where
  fields := rfl
  peaks x l := Nat.le_of_eq (State.rd_wr_ne s v (by omega)).symm

theorem peak (s : State) (u k occ : Nat) : s.Charges (s.wr u 0x5011 k (max (s.rd u 0x5011 k) occ)) where
  fields := rfl
  peaks x l := by
    rw [State.rd_wr]
    split
    next same =>
      obtain ⟨rfl, -, rfl⟩ := same
      exact Nat.le_max_left ..
    next => exact Nat.le_refl _

theorem queuePause (s : State) (ch : Nat) : s.Charges (s.queuePause ch) := by
  rw [State.queuePause_fields]
  exact ⟨rfl, fun _ _ => Nat.le_refl _⟩

theorem armRefresh (s : State) (ch k : Nat) : s.Charges (s.armRefresh ch k) := by
  rw [State.armRefresh_fields]
  exact ⟨rfl, fun _ _ => Nat.le_refl _⟩

theorem checkXoff (s : State) (ch k : Nat) : s.Charges (s.checkXoff ch k) := by
  unfold State.checkXoff
  dsimp only
  split
  · exact refl s
  split
  · exact (((wr s (i := 0x5012) (by decide)).trans (setReg ..)).trans (queuePause ..)).trans (armRefresh ..)
  split
  · have left (v : Nat) : s.Charges ((s.wr (chUnit ch) 0x5012 0 v).stopTimer (.refresh ch k)) := (wr s (by decide)).trans (stopTimer ..)
    split
    · exact ((left _).trans (setReg ..)).trans (queuePause ..)
    · exact (left _).trans (setReg ..)
  · exact refl s

theorem charged (s : State) (f : Frame) : s.Charges (s.charged f) := by
  unfold State.charged
  split
  · split
    · exact (peak ..).trans (checkXoff ..)
    · exact refl s
  · exact refl s

end State.Charges

/-! ### The frame that a cell joins (R103, R111, R112) -/

/-- A frame of no fabric link with the octets of a cell behind its own. -/
def Frame.extended (f : Frame) (cell : CellInput) : Frame := { f with octets := f.octets ++ cell.octets, ended := cell.last }

/-- That frame with the cells it then needs of its account. -/
def State.joined (s : State) (f : Frame) (cell : CellInput) : Frame :=
  { f.extended cell with
    cells := if f.account.isSome then cellsFor (f.octets ++ cell.octets).length (f.stub.isSome || s.inStaging f) else f.cells }

/-- A frame that has ended is in progress on no channel. -/
def State.leaveWire (s : State) (g : Frame) : State := if g.ended then { s with rxNow := s.rxNow.filter (fun p => p.2 ≠ g.id) } else s

/-- What follows a frame's cell: the account is charged, a frame that has ended leaves the wire, and its key is parsed when it is due. -/
def State.afterCell (s : State) (g : Frame) : State := (((s.setFrame g).charged g).leaveWire g).parseFrame g

section
variable {s : State} {f : Frame} {cell : CellInput}

theorem State.withCell_of_standard (begun : f.octets ≠ []) (standard : f.onFabric = false) (o : List Octet) :
    s.withCell f o = { f with octets := f.octets ++ o } := by
  unfold State.withCell
  rw [if_neg begun, standard]
  rfl

theorem State.headerSeen_of_standard (standard : f.onFabric = false) (n : Nat) : s.headerSeen f n = s := by
  simp [State.headerSeen, standard]

theorem Frame.inner_of_standard (standard : f.onFabric = false) : f.inner = f.octets := by
  simp [Frame.inner, standard]

theorem State.inStaging_extended (standard : f.onFabric = false) : s.inStaging (f.extended cell) = s.inStaging f := by
  have wants : s.wantsKey (f.extended cell) = s.wantsKey f := by
    simp [State.wantsKey, Frame.extended, standard]
  unfold State.inStaging
  rw [wants]
  rfl

theorem State.admitCell_of_within {k old : Nat} (account : f.account = some k) (within : cellsFor f.inner.length false - old = 0
      ∨ s.occupancy f.ing k + (cellsFor f.inner.length false - old) ≤ s.limitOf f.ing k) :
    s.admitCell f old = some { f with cells := cellsFor f.inner.length (f.stub.isSome || s.inStaging f) } := by
  unfold State.admitCell
  rw [account]
  exact if_pos within

theorem State.admitCell_extended (standard : f.onFabric = false)
    (within : ∀ k, f.account = some k → cellsFor (f.octets ++ cell.octets).length false = cellsFor f.octets.length false
      ∨ s.occupancy f.ing k + (cellsFor (f.octets ++ cell.octets).length false - cellsFor f.octets.length false) ≤ s.limitOf f.ing k) :
    s.admitCell (f.extended cell) (cellsFor f.inner.length false) = some (s.joined f cell) := by
  have inner : (f.extended cell).inner = f.octets ++ cell.octets := Frame.inner_of_standard (f := f.extended cell) standard
  unfold State.joined
  cases account : f.account with
  | none =>
    unfold State.admitCell
    rw [show (f.extended cell).account = none from account]
    rfl
  | some k =>
    have fits := (within k account).imp_left fun same => Nat.sub_eq_zero_of_le (Nat.le_of_eq same)
    rw [State.admitCell_of_within (f := f.extended cell) account (by rw [inner, Frame.inner_of_standard standard]; exact fits), inner,
      State.inStaging_extended standard]
    rfl

theorem State.takeCell_of_good {behind : Nat} (begun : f.octets ≠ []) (standard : f.onFabric = false)
    (room : (s.giveRoom f.ing cell.octets.length behind).1 = true)
    (good : (s.giveRoom f.ing cell.octets.length behind).2.cellFailure f cell true = none) {g : Frame}
    (admitted : (s.giveRoom f.ing cell.octets.length behind).2.admitCell (f.extended cell) (cellsFor f.inner.length false) = some g)
    (sameId : g.id = f.id) : s.takeCell f cell behind = ((s.giveRoom f.ing cell.octets.length behind).2.afterCell g).earlyWrites f.id := by
  unfold State.takeCell
  generalize s.giveRoom f.ing cell.octets.length behind = made at *
  obtain ⟨given, s0⟩ := made
  obtain rfl : given = true := room
  have kept : { f with maxFrame := (s0.withCell f []).maxFrame } = f := by rw [State.withCell_of_standard begun standard]
  have joins : { s0.withCell f cell.octets with ended := cell.last } = f.extended cell := by
    rw [State.withCell_of_standard begun standard]
    rfl
  dsimp only at good admitted ⊢
  rw [kept, good]
  dsimp only
  rw [joins, State.headerSeen_of_standard (f := f.extended cell) standard, if_neg begun, if_neg begun, admitted]
  unfold State.afterCell State.leaveWire
  rw [sameId]

end

/-- `t` is what `s` becomes when `g` has taken its cell `cell`, as far as the frame, its account and the lane FIFO go. -/
structure State.TookCell (s : State) (cell : CellInput) (g : Frame) (t : State) : Prop where
  frame  : ∃ key, t.frame? g.id = some { g with key := key }
  copies : t.copies = s.copies
  fifo   : t.fifo = (s.giveRoom g.ing cell.octets.length 0).2.fifo
  ended  : g.ended = true → ∀ p ∈ t.rxNow, p.2 ≠ g.id
  peaks  : ∀ u k, s.rd u 0x5011 k ≤ t.rd u 0x5011 k

namespace State.TookCell
variable {r s t : State} {cell : CellInput} {f g : Frame}

theorem of_charges (hf : r.frame? g.id = some f) (same : s.SameForCell r) (fifo : r.fifo = (s.giveRoom g.ing cell.octets.length 0).2.fifo)
    (h : (r.setFrame g).Charges t) : s.TookCell cell g (t.leaveWire g) := by
  have framed : t.frames = (r.setFrame g).frames := by rw [h.fields]
  have copied : t.copies = r.copies := by rw [h.fields]; rfl
  have queued : t.fifo = r.fifo := by rw [h.fields]; rfl
  have peaked : ∀ u k, s.rd u 0x5011 k ≤ t.rd u 0x5011 k := fun u k => (same.config u _ k (by decide)).symm.le.trans (h.peaks u k)
  have frame : ∃ key, t.frame? g.id = some { g with key := key } :=
    ⟨g.key, (State.frame?_congr framed _).trans (State.frame?_setFrame hf rfl)⟩
  unfold State.leaveWire
  split
  next => exact ⟨frame, copied.trans same.copies, queued.trans fifo, fun _ p hp => by simpa using List.of_mem_filter hp, peaked⟩
  next runs => exact ⟨frame, copied.trans same.copies, queued.trans fifo, fun e => absurd e runs, peaked⟩

theorem parseFrame (h : s.TookCell cell g t) : s.TookCell cell g (t.parseFrame g) := by
  obtain ⟨key, hg⟩ := h.frame
  unfold State.parseFrame
  split
  · exact ⟨⟨_, State.frame?_setFrame (g := { g with key := some (t.parseOf g).parse }) hg rfl⟩, h.copies, h.fifo, h.ended, h.peaks⟩
  · exact h

end State.TookCell

/-- What RX_CELL counts of its lane does not tell on the frame that takes the cell. -/
theorem State.CellCounted.tookCell {s t : State} {f : Frame} {cell : CellInput} (h : s.CellCounted t) (hf : s.frame? f.id = some f)
    (begun : f.octets ≠ []) (standard : f.onFabric = false) (room : (s.giveRoom f.ing cell.octets.length 0).1 = true)
    (good : s.cellFailure f cell true = none) (idle : s.hostSending f.id = [])
    (within : ∀ k, f.account = some k → cellsFor (f.octets ++ cell.octets).length false = cellsFor f.octets.length false
      ∨ s.occupancy f.ing k + (cellsFor (f.octets ++ cell.octets).length false - cellsFor f.octets.length false) ≤ s.limitOf f.ing k) :
    s.TookCell cell (s.joined f cell) (t.takeCell f cell 0) := by
  have same := h.same.trans (t.sameForCell_giveRoom f.ing cell.octets.length 0)
  have joined : (t.giveRoom f.ing cell.octets.length 0).2.joined f cell = s.joined f cell := by
    unfold State.joined
    rw [same.inStaging standard]
  have admitted := State.admitCell_extended (s := (t.giveRoom f.ing cell.octets.length 0).2) (cell := cell) standard
    fun k account => by rw [same.occupancy, same.limitOf]; exact within k account
  rw [joined] at admitted
  rw [State.takeCell_of_good begun standard ((h.giveRoom ..).trans room) ((same.cellFailure ..).trans good) admitted rfl]
  have took : s.TookCell cell (s.joined f cell) ((t.giveRoom f.ing cell.octets.length 0).2.afterCell (s.joined f cell)) :=
    .parseFrame (.of_charges (g := s.joined f cell) ((State.frame?_congr same.frames _).trans hf) same (h.fifo_giveRoom ..) (.charged _ _))
  rwa [State.earlyWrites_of_none ((State.hostSending_congr took.copies _).trans idle)]

/-- No event changes an object of a channel. -/
theorem State.ButEvents.rd_channel {s t : State} (h : s.ButEvents t) {ch : Nat} (hc : ch < 64) (i k : Nat) :
    t.rd (chUnit ch) i k = s.rd (chUnit ch) i k := by
  have unit : chUnit ch ≠ 0x004 ∧ chUnit ch ≠ 0x005 ∧ chUnit ch ≠ 0x001 := by
    unfold chUnit
    omega
  exact h.objs _ i k (by simp [eventObj, unit]) (fun e => unit.2.2 e.1)

/-- RX_CELL of a frame in progress, where events are held. -/
theorem execRxCell_of_frame {ch : Nat} {cell : CellInput} {f : Frame} {s : State} {l : List HeldEvent} (held : s.evHold = some l)
    (up : s.mainUp = true) (there : s.isChannel ch = true) (hf : (s.rxNow.find? ch).bind s.frame? = some f) :
    execRxCell ch cell s = .next (((s.cellCounts (laneOf ch) cell).cellLevel ch cell).takeCell f cell 0) := by
  unfold execRxCell
  rw [gathered_of_held held]
  simp [up, there, hf]

end Sys2Proof.Machine
open Sys2Proof Sys2Proof.Machine

/-- Settles O16: what the lane counts of the cell does not tell on the frame; the frame that takes it is `State.joined`. -/
theorem cellJoinsItsFrame : Obligations.CellJoinsItsFrame := by
  intro ch id cell f s up there progress hf ing begun standard room good idle within
  subst ing
  obtain rfl := State.id_of_frame? hf
  obtain ⟨u, t, answer, took, events⟩ : ∃ u t, execRxCell f.ing cell s = .next t ∧ s.TookCell cell (s.joined f cell) u ∧ u.ButEvents t := by
    refine exists_gathered_next (Q := s.TookCell cell (s.joined f cell)) fun l =>
      ⟨_, execRxCell_of_frame (f := f) (s := { s with evHold := some l }) rfl up there ?_, ?_⟩
    · show (s.rxNow.find? f.ing).bind s.frame? = some f
      rw [progress]
      exact hf
    · have counted := ((State.CellCounted.hold s (some l)).trans (.cellCounts _ (laneOf f.ing) cell)).trans (.cellLevel _ f.ing cell)
      exact counted.tookCell hf begun standard room good idle within
  obtain ⟨key, hg⟩ := took.frame
  refine ⟨t, _, answer, (State.frame?_congr events.frames _).trans hg, rfl, rfl, rfl, rfl, events.copies.trans took.copies, ?_, ?_, ?_⟩
  · exact Eq.trans (by rw [events.fields]) took.fifo
  · intro last p hp
    exact took.ended last p (by rw [events.fields] at hp; exact hp)
  · intro k account
    exact ⟨if_pos (by simp [account]), (took.peaks ..).trans (events.rd_channel (State.lt_of_isChannel there) ..).ge⟩

end

section
/-! What counts, lights and wakes leave as it is (R84, R362, R376, R399): shared by the start of a received frame (O15) and by the pauses that the
device generates (O13). -/
namespace Sys2Proof.Machine

/-- `t` is `s` but for the objects that `p` names, the activity LEDs of lanes, and timers. -/
structure State.ButCounts (p : Nat → Nat → Prop) (s t : State) : Prop where
  fields : t = { s with obj := t.obj, hid := t.hid, timers := t.timers }
  objs   : ∀ u i k, ¬p u i → t.rd u i k = s.rd u i k
  regs   : ∀ h : Hid, (∀ lane, h ≠ .ledActive lane) → t.reg h = s.reg h

/-- `p` names no object of a channel and of its lane but counters. -/
def SparesChannel (p : Nat → Nat → Prop) (ch : Nat) : Prop := ∀ i, i < 0x8000 → ¬p (chUnit ch) i ∧ ¬p (lnUnit (laneOf ch)) i

namespace State.ButCounts
variable {p : Nat → Nat → Prop} {r s t : State}

theorem refl (s : State) : s.ButCounts p s := ⟨rfl, fun _ _ _ _ => rfl, fun _ _ => rfl⟩

theorem trans (h : r.ButCounts p s) (k : s.ButCounts p t) : r.ButCounts p t where
  fields := by rw [k.fields, h.fields]
  objs u i l other := (k.objs u i l other).trans (h.objs u i l other)
  regs x other := (k.regs x other).trans (h.regs x other)

theorem ite {q : Prop} [Decidable q] (h : r.ButCounts p s) (k : r.ButCounts p t) : r.ButCounts p (if q then s else t) := by
  split <;> assumption

theorem wr (s : State) {u i : Nat} (k v : Nat) (named : p u i) : s.ButCounts p (s.wr u i k v) where
  fields := rfl
  objs _ _ _ other := State.rd_wr_ne s v (by rintro ⟨rfl, rfl, -⟩; exact other named)
  regs _ _ := rfl

theorem bump (s : State) {u i : Nat} (k n : Nat) (named : p u i) : s.ButCounts p (s.bump u i k n) := wr s k _ named

theorem latch (s : State) {u : Nat} (b : Nat) (named : p u 0x0005) : s.ButCounts p (s.latch u b) := wr s 0 _ named

theorem lit (s : State) (lane : Nat) : s.ButCounts p (s.lit lane) := by
  refine ite ⟨rfl, fun _ _ _ _ => rfl, fun h other => ?_⟩ (refl s)
  rw [State.reg_startTimer, State.reg_setReg, if_neg (other lane)]

/-- A statistics counter counts in its unit (R379). -/
theorem stat (s : State) {u : Nat} (i k n : Nat) (named : ∀ i, p u i) : s.ButCounts p (s.stat u i k n) :=
  ite (bump s _ _ (named _)) (((bump s _ _ (named _)).trans (wr _ _ _ (named _))).trans (latch _ _ (named _)))

theorem statFrame (s : State) {u : Nat} (base len ty : Nat) (tagged : Bool) (named : ∀ i, p u i) :
    s.ButCounts p (s.statFrame u base len ty tagged) := by
  have typed := (((stat s base 0 1 named).trans (stat _ (base + 1) 0 len named)).trans (stat _ (base + 2) (sizeBucket len) 1 named)).trans
    (stat _ (base + 3 + ty) 0 1 named)
  exact ite (typed.trans (stat _ _ _ _ named)) typed

theorem regN (h : s.ButCounts p t) {x : Hid} (other : ∀ lane, x ≠ .ledActive lane) : t.regN x = s.regN x :=
  congrArg Int.toNat (h.regs x other)

theorem build (h : s.ButCounts p t) : t.build = s.build := by rw [h.fields]
theorem tab (h : s.ButCounts p t) : t.tab = s.tab := by rw [h.fields]
theorem frames (h : s.ButCounts p t) : t.frames = s.frames := by rw [h.fields]
theorem copies (h : s.ButCounts p t) : t.copies = s.copies := by rw [h.fields]
theorem rxNow (h : s.ButCounts p t) : t.rxNow = s.rxNow := by rw [h.fields]
theorem asm (h : s.ButCounts p t) : t.asm = s.asm := by rw [h.fields]
theorem genQ (h : s.ButCounts p t) : t.genQ = s.genQ := by rw [h.fields]
theorem txOut (h : s.ButCounts p t) : t.txOut = s.txOut := by rw [h.fields]

theorem wake (s : State) : s.ButCounts (fun u i => u = 0x001 ∧ i = 0x5000) s.wake := ite (wr s _ _ ⟨rfl, rfl⟩) (refl s)

/-! ### What a channel and its lane are set to reads the same -/

variable {ch : Nat} (h : s.ButCounts p t)
include h

theorem isChannel : t.isChannel ch = s.isChannel ch := by
  unfold State.isChannel
  rw [h.build]

variable (spares : SparesChannel p ch)
include spares

theorem rd_channel {i : Nat} (below : i < 0x8000) (k : Nat) : t.rd (chUnit ch) i k = s.rd (chUnit ch) i k := h.objs _ i k (spares i below).1
theorem rd_lane {i : Nat} (below : i < 0x8000) (k : Nat) : t.rd (lnUnit (laneOf ch)) i k = s.rd (lnUnit (laneOf ch)) i k :=
  h.objs _ i k (spares i below).2

theorem chEnabled : t.chEnabled ch = s.chEnabled ch := by
  unfold State.chEnabled
  rw [h.isChannel, h.rd_channel spares (by decide)]

theorem chUp : t.chUp ch = s.chUp ch := by
  unfold State.chUp State.laneUp
  rw [h.chEnabled spares, h.rd_lane spares (by decide)]

theorem quartered : t.quartered ch = s.quartered ch := by
  unfold State.quartered
  rw [h.rd_lane spares (by decide)]

theorem fabricRole : t.fabricRole ch = s.fabricRole ch := by
  unfold State.fabricRole
  rw [h.rd_lane spares (by decide)]

theorem mergeOn : t.mergeOn ch = s.mergeOn ch := by
  unfold State.mergeOn
  dsimp only
  rw [h.isChannel, h.rd_channel spares (by decide)]
  repeat rw [h.rd_lane spares (by decide)]

theorem unitKind (o : List Octet) : t.unitKind ch o = s.unitKind ch o := by
  unfold State.unitKind
  rw [h.fabricRole spares, h.mergeOn spares]

theorem inXoff (k : Nat) : t.inXoff ch k = s.inXoff ch k := by
  unfold State.inXoff
  rw [h.rd_channel spares (by decide)]

theorem pauseD : t.pauseD ch = s.pauseD ch := by
  unfold State.pauseD State.speed State.speedCode
  rw [h.rd_channel spares (by decide), h.chEnabled spares, h.rd_lane spares (by decide), h.rd_lane spares (by decide)]

end State.ButCounts

theorem State.units_of_isChannel {s : State} {ch : Nat} (there : s.isChannel ch = true) :
    (0x100 ≤ lnUnit (laneOf ch) ∧ lnUnit (laneOf ch) < 0x300) ∧ (0x100 ≤ chUnit ch ∧ chUnit ch < 0x300)
      ∧ lnUnit (laneOf ch) ≠ chUnit ch := by
  have small := State.lt_of_isChannel there
  unfold lnUnit laneOf chUnit
  omega

/-- A frame that starts on a lane leaves its activity LED lit or about to be (R399). -/
theorem State.ledActive_lit (s : State) (lane : Nat) : (s.lit lane).reg (.ledActive lane) ≠ 0 := by
  unfold State.lit
  split
  next => simp
  next lit =>
    intro off
    exact lit (by simp [State.regN, off])

end Sys2Proof.Machine
end

section
/-! The start of a frame on a channel (O15): the checks of its start octets, the frame that it opens, and a frame that fails at once. -/
namespace Sys2Proof.Machine

/-- A counter of the runs of start octets that differ in a repetition (R84). -/
def startCount (_ i : Nat) : Prop := i = 0x8006

theorem startCount_sparesChannel (ch : Nat) : SparesChannel startCount ch := fun i below => by
  unfold startCount
  omega

/-- The state in which the start octets are checked: the lane is active but for a continuation (R399), and the runs that differ are counted. -/
def State.startSeen (s : State) (ch : Nat) (start : StartInput) : State :=
  (if s.unitKind ch start.octets = .continuation then s else s.lit (laneOf ch)).startCounts (laneOf ch) start

theorem State.startSeen_butCounts {p : Nat → Nat → Prop} (s : State) (ch : Nat) (start : StartInput) (named : ∀ u, p u 0x8006) :
    s.ButCounts p (s.startSeen ch start) :=
  (State.ButCounts.ite (.refl s) (.lit s _)).trans (.ite (.refl _) (.bump _ _ _ (named _)))

theorem State.seen (s : State) (ch : Nat) (start : StartInput) : s.ButCounts startCount (s.startSeen ch start) :=
  s.startSeen_butCounts ch start fun _ => rfl

theorem State.startSeen_of_lit {s : State} {ch : Nat} {start : StartInput} (lit : s.unitKind ch start.octets ≠ .continuation) :
    s.startSeen ch start = (s.lit (laneOf ch)).startCounts (laneOf ch) start := by
  rw [State.startSeen, if_neg lit]

/-! ### What the checks read (R86, R88, R100, R202) -/

namespace State.ButCounts
variable {s t : State} (h : s.ButCounts startCount t)
include h

theorem quarterCheck (lane : Nat) (o : List Octet) : t.quarterCheck lane o = s.quarterCheck lane o := by
  unfold State.quarterCheck
  simp only [h.chEnabled (startCount_sparesChannel _)]

theorem asked (n : Nat) : t.asked n = s.asked n := by
  unfold State.asked State.phase
  rw [h.objs _ _ _ (by simp [startCount]), h.regN (by simp)]

theorem rxInstant (ch crossing : Nat) : t.rxInstant ch crossing = s.rxInstant ch crossing := by
  unfold State.rxInstant State.instant
  rw [h.rd_lane (startCount_sparesChannel ch) (by decide), h.fields]

theorem newFrame (ch : Nat) (time : Nat × Nat) (asm : Bool) : t.newFrame ch time asm = s.newFrame ch time asm := by
  unfold State.newFrame State.maxFrame
  rw [h.regN (by simp), h.fabricRole (startCount_sparesChannel ch), h.rd_channel (startCount_sparesChannel ch) (by decide)]

end State.ButCounts

/-- On a channel that is enabled on a lane that is not quartered, the octets that have been seen open for that channel what they opened before. -/
theorem State.startSeen_plain {s : State} {ch : Nat} (start : StartInput) (plain : s.quartered ch = false) (enabled : s.chEnabled ch = true) :
    (s.startSeen ch start).channelOf ch start.octets = some ch ∧ (s.startSeen ch start).deliverTo ch start.octets = s.startSeen ch start
      ∧ (s.startSeen ch start).unitKind ch start.octets = s.unitKind ch start.octets := by
  have seen := s.seen ch start
  have plain' : (s.startSeen ch start).quartered ch = false := (seen.quartered (startCount_sparesChannel ch)).trans plain
  have enabled' : (s.startSeen ch start).chEnabled ch = true := (seen.chEnabled (startCount_sparesChannel ch)).trans enabled
  exact ⟨by simp [State.channelOf, plain', enabled'], if_neg (by simp [plain']), seen.unitKind (startCount_sparesChannel ch) _⟩

/-! ### The answers of RX_FRAME_START -/

section
variable {ch : Nat} {start : StartInput} {s : State} (crossing : Nat) (up : s.mainUp = true) (there : s.isChannel ch = true)
  (opened : s.rxOpen (laneOf ch) = true) (awake : s.mode ≠ 2)
include up there opened awake

theorem rxFrameStart_of_whole (plain : s.quartered ch = false) (enabled : s.chEnabled ch = true) (whole : s.unitKind ch start.octets = .whole)
    (unasked : s.asked 4 = false) (idle : s.rxNow.find? ch = none) :
    exec (.rxFrameStart ch start crossing) s = .next ((s.startSeen ch start).wholeStart ch start crossing) := by
  obtain ⟨channel, delivered, kind⟩ := State.startSeen_plain start plain enabled
  have seen := s.seen ch start
  show execRxFrameStart ch start crossing s = _
  unfold execRxFrameStart
  rw [if_pos ⟨up, there, opened⟩, State.wake, if_neg awake]
  dsimp only
  rw [← State.startSeen]
  simp [channel, delivered, kind, whole, seen.asked, unasked, seen.rxNow, idle]

theorem rxFrameStart_of_bad (plain : s.quartered ch = false) (enabled : s.chEnabled ch = true) (bad : s.unitKind ch start.octets = .bad) :
    exec (.rxFrameStart ch start crossing) s = .next ((s.startSeen ch start).bump (chUnit ch) 0x8015 0 1) := by
  obtain ⟨channel, delivered, kind⟩ := State.startSeen_plain start plain enabled
  show execRxFrameStart ch start crossing s = _
  unfold execRxFrameStart
  rw [if_pos ⟨up, there, opened⟩, State.wake, if_neg awake]
  dsimp only
  rw [← State.startSeen]
  simp [channel, delivered, kind, bad]

/-- A bad marker on a quartered lane names no channel. -/
theorem rxFrameStart_of_badMarker (quartered : s.quartered ch = true) (bad : s.quarterCheck (laneOf ch) start.octets = .bad) :
    exec (.rxFrameStart ch start crossing) s
      = .next (((s.startSeen ch start).bump (lnUnit (laneOf ch)) 0x8008 0 1).latch (lnUnit (laneOf ch)) 17) := by
  have seen := s.seen ch start
  have quartered' : (s.startSeen ch start).quartered ch = true := (seen.quartered (startCount_sparesChannel ch)).trans quartered
  have channel : (s.startSeen ch start).channelOf ch start.octets = none := by
    simp [State.channelOf, quartered', seen.quarterCheck, bad]
  have delivered : (s.startSeen ch start).deliverTo ch start.octets
      = ((s.startSeen ch start).bump (lnUnit (laneOf ch)) 0x8008 0 1).latch (lnUnit (laneOf ch)) 17 := by
    simp [State.deliverTo, quartered', seen.quarterCheck, bad]
  show execRxFrameStart ch start crossing s = _
  unfold execRxFrameStart
  rw [if_pos ⟨up, there, opened⟩, State.wake, if_neg awake]
  dsimp only
  rw [← State.startSeen]
  simp [channel, delivered]

end

/-! ### The frame that begins -/

/-- The state with a new frame in progress on a channel. -/
def State.withFrame (s : State) (ch : Nat) (f : Frame) : State := (State.addFrame { s with rxNow := s.rxNow ++ [(ch, f.id)] } f).unitLevel ch 4

theorem State.withFrame_fields (s : State) (ch : Nat) (f : Frame) : s.withFrame ch f
    = { s with hid := (s.withFrame ch f).hid, frames := s.frames ++ [f], rxNow := s.rxNow ++ [(ch, f.id)] } := by
  unfold State.withFrame State.unitLevel
  split <;> rfl

theorem State.frames_withFrame (s : State) (ch : Nat) (f : Frame) : (s.withFrame ch f).frames = s.frames ++ [f] := by
  rw [State.withFrame_fields]

theorem State.rxNow_withFrame (s : State) (ch : Nat) (f : Frame) : (s.withFrame ch f).rxNow = s.rxNow ++ [(ch, f.id)] := by
  rw [State.withFrame_fields]

/-- A frame that enters moves neither object nor entry, copy or context. -/
theorem State.withFrame_keeps (s : State) (ch : Nat) (f : Frame) :
    (s.withFrame ch f).obj = s.obj ∧ (s.withFrame ch f).tab = s.tab ∧ (s.withFrame ch f).copies = s.copies
      ∧ (s.withFrame ch f).asm = s.asm := by
  rw [State.withFrame_fields]
  exact ⟨rfl, rfl, rfl, rfl⟩

theorem State.reg_withFrame (s : State) (ch : Nat) (f : Frame) {h : Hid} (other : h ≠ .rxLevel ch) :
    (s.withFrame ch f).reg h = if h = .nextFrame then s.reg .nextFrame + 1 else s.reg h := by
  have added : (State.addFrame { s with rxNow := s.rxNow ++ [(ch, f.id)] } f).reg h = if h = .nextFrame then s.reg .nextFrame + 1 else s.reg h :=
    State.reg_setReg ..
  unfold State.withFrame State.unitLevel
  split
  · rw [State.reg_setReg, if_neg other, added]
  · exact added

theorem State.wholeStart_of_good {s : State} {ch : Nat} {start : StartInput} (crossing : Nat)
    (good : start.replErrs = 0 ∨ s.rd (lnUnit (laneOf ch)) 0x1004 0 = 0) :
    s.wholeStart ch start crossing = s.withFrame ch (s.newFrame ch (s.rxInstant ch crossing) false) :=
  if_neg (by omega)

/-- Lighting the lane touches no object. -/
theorem State.obj_startSeen {s : State} {ch : Nat} {start : StartInput} (lit : s.unitKind ch start.octets ≠ .continuation) :
    (s.startSeen ch start).obj = (s.startCounts (laneOf ch) start).obj := by
  rw [State.startSeen_of_lit lit, State.startCounts, State.startCounts, apply_ite State.obj, apply_ite State.obj]
  unfold State.lit
  split <;> rfl

theorem State.ledActive_startSeen {s : State} {ch : Nat} {start : StartInput} (lit : s.unitKind ch start.octets ≠ .continuation) :
    (s.startSeen ch start).reg (.ledActive (laneOf ch)) ≠ 0 := by
  have counted : ∀ t : State, (t.startCounts (laneOf ch) start).reg (.ledActive (laneOf ch)) = t.reg (.ledActive (laneOf ch)) := fun t => by
    unfold State.startCounts
    split <;> rfl
  rw [State.startSeen_of_lit lit, counted]
  exact s.ledActive_lit _

theorem wholeFrame_begins (ch : Nat) (start : StartInput) (crossing : Nat) (s : State) (up : s.mainUp = true) (there : s.isChannel ch = true)
    (opened : s.rxOpen (laneOf ch) = true) (awake : s.mode ≠ 2) (plain : s.quartered ch = false) (enabled : s.chEnabled ch = true)
    (whole : s.unitKind ch start.octets = .whole) (unasked : s.asked 4 = false) (idle : s.rxNow.find? ch = none)
    (good : start.replErrs = 0 ∨ s.rd (lnUnit (laneOf ch)) 0x1004 0 = 0) :
    ∃ t, exec (.rxFrameStart ch start crossing) s = .next t ∧ t.rxNow = s.rxNow ++ [(ch, s.regN .nextFrame)]
      ∧ t.frames = s.frames ++ [s.newFrame ch (s.rxInstant ch crossing) false] ∧ t.reg .nextFrame = s.reg .nextFrame + 1
      ∧ t.reg (.ledActive (laneOf ch)) ≠ 0
      ∧ t.obj = (s.startCounts (laneOf ch) start).obj ∧ t.tab = s.tab ∧ t.copies = s.copies ∧ t.asm = s.asm := by
  have seen := s.seen ch start
  have lit : s.unitKind ch start.octets ≠ .continuation := by simp [whole]
  have good' : start.replErrs = 0 ∨ (s.startSeen ch start).rd (lnUnit (laneOf ch)) 0x1004 0 = 0 := by
    rwa [seen.rd_lane (startCount_sparesChannel ch) (by decide)]
  have answer := rxFrameStart_of_whole crossing up there opened awake plain enabled whole unasked idle
  rw [State.wholeStart_of_good crossing good', seen.newFrame, seen.rxInstant] at answer
  obtain ⟨obj, tab, copies, asm⟩ := (s.startSeen ch start).withFrame_keeps ch (s.newFrame ch (s.rxInstant ch crossing) false)
  refine ⟨_, answer, ?_, ?_, ?_, ?_, obj.trans (State.obj_startSeen lit), tab.trans seen.tab, copies.trans seen.copies, asm.trans seen.asm⟩
  · rw [State.rxNow_withFrame, seen.rxNow]
    rfl
  · rw [State.frames_withFrame, seen.frames]
  · rw [State.reg_withFrame _ _ _ (by simp), if_pos rfl, seen.regs _ (by simp)]
  · rw [State.reg_withFrame _ _ _ (by simp), if_neg (by simp)]
    exact State.ledActive_startSeen lit

/-! ### A frame that fails at once (R84, R106) -/

/-- `t` has the frames of `s`, the same of them in progress, and the objects of its lanes and channels. -/
structure State.SameReceipt (s t : State) : Prop where
  rxNow  : t.rxNow = s.rxNow
  frames : t.frames = s.frames
  objs   : ∀ u i k, 0x100 ≤ u → u < 0x300 → t.rd u i k = s.rd u i k

namespace State.SameReceipt
variable {r s t : State}

theorem refl (s : State) : s.SameReceipt s := ⟨rfl, rfl, fun _ _ _ _ _ => rfl⟩

theorem trans (h : r.SameReceipt s) (k : s.SameReceipt t) : r.SameReceipt t where
  rxNow := k.rxNow.trans h.rxNow
  frames := k.frames.trans h.frames
  objs u i l above below := (k.objs u i l above below).trans (h.objs u i l above below)

theorem ite {q : Prop} [Decidable q] (h : r.SameReceipt s) (k : r.SameReceipt t) : r.SameReceipt (if q then s else t) := by
  split <;> assumption

theorem foldl {α : Type} {f : State → α → State} (hf : ∀ (u : State) x, u.SameReceipt (f u x)) (l : List α) (s : State) :
    s.SameReceipt (l.foldl f s) := by
  induction l generalizing s with
  | nil => exact refl s
  | cons x l ih => exact (hf s x).trans (ih _)

theorem wr (s : State) {u : Nat} (i k v : Nat) (other : u < 0x100 ∨ 0x300 ≤ u) : s.SameReceipt (s.wr u i k v) :=
  ⟨rfl, rfl, fun _ _ _ _ _ => State.rd_wr_ne s v (by omega)⟩

/-- A change of registers, of the host's buffers and their operations, and of copies. -/
theorem other (s : State) {a : Map Hid Int} {b : List BqBuffer} {c : List MpOp} {d : List Copy} :
    s.SameReceipt { s with hid := a, bqBuffers := b, mpOps := c, copies := d } := ⟨rfl, rfl, fun _ _ _ _ _ => rfl⟩

theorem bump_congr (h : s.SameReceipt t) {u : Nat} (i k n : Nat) (above : 0x100 ≤ u) (below : u < 0x300) :
    (s.bump u i k n).SameReceipt (t.bump u i k n) where
  rxNow := h.rxNow
  frames := h.frames
  objs x j l lo hi := by rw [State.rd_bump, State.rd_bump, h.objs u i k above below, h.objs x j l lo hi]

theorem events (h : s.ButEvents t) : s.SameReceipt t where
  rxNow := by rw [h.fields]
  frames := by rw [h.fields]
  objs u i k above _ := by
    have other : u ≠ 0x004 ∧ u ≠ 0x005 ∧ u ≠ 0x001 := by omega
    exact h.objs u i k (by simp [eventObj, other]) fun e => other.2.2 e.1

theorem stat (s : State) {u : Nat} (i k n : Nat) (other : u < 0x100 ∨ 0x300 ≤ u) : s.SameReceipt (s.stat u i k n) :=
  ite (wr s _ _ _ other) (((wr s _ _ _ other).trans (wr _ _ _ _ other)).trans (wr _ _ _ _ other))

theorem keepBuffer (s : State) (c : Copy) : s.SameReceipt (s.keepBuffer c) := by
  unfold State.keepBuffer
  split
  next b _ => exact (other s).trans (wr (u := bqUnit b.bq) _ _ _ _ (by unfold bqUnit; omega))
  next => exact refl s

theorem drainCheck (s : State) : s.SameReceipt s.drainCheck :=
  ite ((wr s _ _ _ (by decide)).trans (events (.raise _ _))) (refl s)

theorem without (h : s.SameReceipt t) (id : Nat) : (s.without id).SameReceipt (t.without id) :=
  ⟨congrArg (List.filter _) h.rxNow, congrArg (List.filter _) h.frames, h.objs⟩

end State.SameReceipt

/-- A frame with no account and no stub leaves the device without a trace in its lane and channel (R40, R111). -/
theorem State.sameReceipt_releaseFrame {s : State} {f : Frame} (hf : s.frame? f.id = some f) (account : f.account = none) (stub : f.stub = none) :
    (s.without f.id).SameReceipt (s.releaseFrame f.id) := by
  unfold State.releaseFrame
  simp only [hf, stub, State.charged, account]
  exact .drainCheck _

/-- A frame of a channel that fails for a symbol, with no account and no stub yet, is gone; `rx_symbol_err` counts it. -/
theorem State.undo_symbol {s : State} {f : Frame} (hf : s.frame? f.id = some f) (there : s.isChannel f.ing = true) (account : f.account = none)
    (stub : f.stub = none) : ((s.without f.id).bump (chUnit f.ing) 0x8012 0 1).SameReceipt (s.undo f.id .symbol) := by
  have kept : s.SameReceipt ((s.copiesOf f.id).foldl State.keepBuffer s) := .foldl State.SameReceipt.keepBuffer _ s
  have released := (kept.without f.id).trans
    (State.sameReceipt_releaseFrame ((State.frame?_congr kept.frames f.id).trans hf) account stub)
  obtain ⟨-, ⟨above, below⟩, -⟩ := State.units_of_isChannel there
  unfold State.undo
  simp only [hf]
  rw [if_pos there, if_neg (by decide)]
  exact ((released.trans (.other _)).bump_congr _ _ _ above below).trans (.stat (u := csUnit f.ing) _ _ _ _ (.inr (by unfold csUnit; omega)))

theorem State.frame?_withFrame {s : State} (ch : Nat) {f : Frame} (fresh : s.frame? f.id = none) : (s.withFrame ch f).frame? f.id = some f := by
  rw [State.frame?, State.frames_withFrame, List.find?_append, show s.frames.find? _ = none from fresh]
  simp

/-- Setting a frame that is there, alone under its number, changes nothing. -/
theorem State.setFrame_of_unique {s : State} {f : Frame} (unique : ∀ g ∈ s.frames, g.id = f.id → g = f) : s.setFrame f = s := by
  have same : s.frames.map (fun g => if g.id = f.id then f else g) = s.frames.map id := List.map_congr_left fun g hg => by
    split
    next number => exact (unique g hg number).symm
    next => rfl
  unfold State.setFrame
  rw [same, List.map_id]

theorem State.setFrame_withFrame {s : State} (ch : Nat) {f : Frame} (fresh : s.frame? f.id = none) :
    (s.withFrame ch f).setFrame f = s.withFrame ch f := by
  have others : ∀ g ∈ s.frames, g.id ≠ f.id := by simpa [State.frame?] using fresh
  refine State.setFrame_of_unique fun g hg number => ?_
  rw [State.frames_withFrame] at hg
  rcases List.mem_append.mp hg with old | new
  · exact absurd number (others g old)
  · exact List.mem_singleton.mp new

/-- A channel with no frame in progress has none when the one it has begun is taken out. -/
theorem Map.find?_filter_append {m : Map Nat Nat} {ch : Nat} (id : Nat) (idle : m.find? ch = none) :
    Map.find? ((m ++ [(ch, id)]).filter fun p => p.2 ≠ id) ch = none := by
  induction m with
  | nil => simp [Map.find?]
  | cons p m ih =>
    obtain ⟨c, i⟩ := p
    by_cases same : c = ch
    · simp [Map.find?, same] at idle
    · have rest := ih (by simpa [Map.find?, same] using idle)
      by_cases gone : i = id
      · simpa [gone] using rest
      · simpa [gone, Map.find?, same] using rest

theorem State.without_withFrame {s : State} (ch : Nat) {f : Frame} (fresh : s.frame? f.id = none) (idle : s.rxNow.find? ch = none) :
    ((s.withFrame ch f).without f.id).frames = s.frames ∧ ((s.withFrame ch f).without f.id).rxNow.find? ch = none
      ∧ ∀ u i k, ((s.withFrame ch f).without f.id).rd u i k = s.rd u i k := by
  have others : ∀ g ∈ s.frames, g.id ≠ f.id := by simpa [State.frame?] using fresh
  rw [State.withFrame_fields]
  refine ⟨?_, Map.find?_filter_append f.id idle, fun _ _ _ => rfl⟩
  simpa [State.without] using others

/-- A whole frame whose start octets differ under replication leaves nothing but its count. -/
theorem State.wholeStart_fails {s : State} {ch : Nat} {start : StartInput} (crossing : Nat) (there : s.isChannel ch = true)
    (idle : s.rxNow.find? ch = none) (differ : 0 < start.replErrs) (replicated : s.rd (lnUnit (laneOf ch)) 0x1004 0 ≠ 0)
    (fresh : s.frame? (s.regN .nextFrame) = none) :
    (s.wholeStart ch start crossing).rxNow.find? ch = none ∧ (s.wholeStart ch start crossing).frames = s.frames
      ∧ ∀ u i k, 0x100 ≤ u → u < 0x300 → (s.wholeStart ch start crossing).rd u i k = (s.bump (chUnit ch) 0x8012 0 1).rd u i k := by
  generalize hf : s.newFrame ch (s.rxInstant ch crossing) false = f
  obtain ⟨number, ingress, account, stub, kept⟩ : f.id = s.regN .nextFrame ∧ f.ing = ch ∧ f.account = none ∧ f.stub = none
      ∧ { f with octets := [] } = f := by
    subst hf
    exact ⟨rfl, rfl, rfl, rfl, rfl⟩
  have fresh' : s.frame? f.id = none := number ▸ fresh
  have fails : s.wholeStart ch start crossing = (s.withFrame ch f).undo f.id .symbol := by
    unfold State.wholeStart
    rw [hf, if_pos ⟨differ, replicated⟩]
    show State.undo ((s.withFrame ch f).setFrame _) _ _ = _
    rw [kept, State.setFrame_withFrame ch fresh']
  have undone := State.undo_symbol (State.frame?_withFrame ch fresh') (by rw [State.withFrame_fields, ingress]; exact there) account stub
  obtain ⟨frames, gone, objs⟩ := State.without_withFrame ch fresh' idle
  rw [fails]
  refine ⟨(congrArg (Map.find? · ch) undone.rxNow).trans gone, undone.frames.trans frames, fun u i k above below => ?_⟩
  rw [undone.objs u i k above below, ingress, State.rd_bump, State.rd_bump, objs, objs]

/-- Start octets that differ under replication are counted by the lane (R84). -/
theorem State.rd_startSeen_differing {s : State} {ch : Nat} {start : StartInput} (lit : s.unitKind ch start.octets ≠ .continuation)
    (replicated : s.rd (lnUnit (laneOf ch)) 0x1004 0 ≠ 0) :
    (s.startSeen ch start).rd (lnUnit (laneOf ch)) 0x8006 0 = (s.rd (lnUnit (laneOf ch)) 0x8006 0 + start.replErrs) % 2 ^ 64 := by
  have same : ∀ i, (s.lit (laneOf ch)).rd (lnUnit (laneOf ch)) i 0 = s.rd (lnUnit (laneOf ch)) i 0 := fun i =>
    (State.ButCounts.lit (p := fun _ _ => False) s _).objs _ i 0 id
  rw [State.startSeen_of_lit lit, State.startCounts, if_neg (by rwa [same]), State.rd_bump_self, same, counterBits, if_neg (by omega)]

theorem wholeFrame_fails (ch : Nat) (start : StartInput) (crossing : Nat) (s : State) (up : s.mainUp = true) (there : s.isChannel ch = true)
    (opened : s.rxOpen (laneOf ch) = true) (awake : s.mode ≠ 2) (plain : s.quartered ch = false) (enabled : s.chEnabled ch = true)
    (whole : s.unitKind ch start.octets = .whole) (unasked : s.asked 4 = false) (idle : s.rxNow.find? ch = none)
    (differ : 0 < start.replErrs) (replicated : s.rd (lnUnit (laneOf ch)) 0x1004 0 ≠ 0) (fresh : s.frame? (s.regN .nextFrame) = none) :
    ∃ t, exec (.rxFrameStart ch start crossing) s = .next t ∧ t.rxNow.find? ch = none ∧ t.frames = s.frames
      ∧ t.rd (lnUnit (laneOf ch)) 0x8006 0 = (s.rd (lnUnit (laneOf ch)) 0x8006 0 + start.replErrs) % 2 ^ 64
      ∧ t.rd (chUnit ch) 0x8012 0 = (s.rd (chUnit ch) 0x8012 0 + 1) % 2 ^ 64 := by
  have seen := s.seen ch start
  have lit : s.unitKind ch start.octets ≠ .continuation := by simp [whole]
  obtain ⟨gone, left, objs⟩ := State.wholeStart_fails (s := s.startSeen ch start) crossing (seen.isChannel.trans there)
    (by rwa [seen.rxNow]) differ (by rwa [seen.rd_lane (startCount_sparesChannel ch) (by decide)])
    (by rwa [State.frame?_congr seen.frames, seen.regN (by simp)])
  obtain ⟨lane, channel, apart⟩ := State.units_of_isChannel there
  refine ⟨_, rxFrameStart_of_whole crossing up there opened awake plain enabled whole unasked idle, gone, left.trans seen.frames, ?_, ?_⟩
  · rw [objs _ _ _ lane.1 lane.2, State.rd_bump, if_neg (by omega), State.rd_startSeen_differing lit replicated]
  · rw [objs _ _ _ channel.1 channel.2, State.rd_bump_self, seen.objs _ _ _ (by simp [startCount]), counterBits_of_high _ (by unfold chUnit; omega)]

theorem badMarker_counts (ch : Nat) (start : StartInput) (crossing : Nat) (s : State) (up : s.mainUp = true) (there : s.isChannel ch = true)
    (opened : s.rxOpen (laneOf ch) = true) (awake : s.mode ≠ 2) (quartered : s.quartered ch = true)
    (bad : s.quarterCheck (laneOf ch) start.octets = .bad) :
    ∃ t, exec (.rxFrameStart ch start crossing) s = .next t
      ∧ t.rd (lnUnit (laneOf ch)) 0x8008 0 = (s.rd (lnUnit (laneOf ch)) 0x8008 0 + 1) % 2 ^ 64
      ∧ t.rxNow = s.rxNow ∧ t.frames = s.frames ∧ t.copies = s.copies ∧ t.asm = s.asm := by
  have seen := s.seen ch start
  have kept : s.ButCounts (fun _ _ => True) _ := ((s.startSeen_butCounts ch start fun _ => trivial).trans
    (.bump (u := lnUnit (laneOf ch)) _ (i := 0x8008) 0 1 trivial)).trans (.latch _ (u := lnUnit (laneOf ch)) 17 trivial)
  refine ⟨_, rxFrameStart_of_badMarker crossing up there opened awake quartered bad, ?_, kept.rxNow, kept.frames, kept.copies, kept.asm⟩
  rw [State.rd_latch, if_neg (by omega), State.rd_bump_self, seen.objs _ _ _ (by simp [startCount]), counterBits, if_neg (by omega)]

end Sys2Proof.Machine
open Sys2Proof Sys2Proof.Machine

/-- Settles O15: the answers of RX_FRAME_START in the state that has seen the start octets; a frame that fails at once leaves its count alone. -/
theorem frameStartsOnChannel : Obligations.FrameStartsOnChannel := by
  refine ⟨wholeFrame_begins, wholeFrame_fails, fun ch start crossing s up there opened awake plain enabled bad => ?_, badMarker_counts⟩
  rw [rxFrameStart_of_bad crossing up there opened awake plain enabled bad, State.startSeen_of_lit (by simp [bad])]

end

section
/-! The pauses that the device generates (O13): the frame that leaves with what an account owes, the refresh, and the end of a pause. -/
namespace Sys2Proof.Machine

theorem Map.find?_set_self {κ ν : Type} [DecidableEq κ] [DecidableEq ν] (m : Map κ ν) (x : κ) {v d : ν} (other : v ≠ d) :
    (m.set x v d).find? x = some v := by
  simp [Map.set, other, Map.find?]

theorem testBit_setBit_self (v i : Nat) : (setBit v i true).testBit i = true := by
  have bit : v.testBit i = decide (v / 2 ^ i % 2 = 1) := Nat.testBit_eq_decide_div_mod_eq
  have written : setBit v i true = v - v / 2 ^ i % 2 * 2 ^ i + 2 ^ i := by
    simp [setBit, setField, field, Nat.shiftRight_eq_div_pow]
  rw [written]
  rcases Nat.mod_two_eq_zero_or_one (v / 2 ^ i) with off | on
  · rw [off, Nat.zero_mul, Nat.sub_zero, Nat.add_comm, Nat.testBit_two_pow_add_eq, bit, off]
    rfl
  · rw [on] at bit
    rw [on, Nat.one_mul, Nat.sub_add_cancel (Nat.ge_two_pow_of_testBit bit), bit]
    rfl

/-! ### PAUSE_GEN_START (R116, R118) -/

section
variable {ch : Nat} {s : State}

/-- Account 0 in XOFF that owes its message is all that a channel in link-level pause mode sends. -/
theorem State.messages_of_xoff (linkLevel : s.rd (chUnit ch) 0x1010 0 = 1) (xoff : s.inXoff ch 0 = true) (due : s.reg (.pauseDue ch 0) = 1) :
    s.messages ch = [(0, s.rd (chUnit ch) 0x1012 0)] := by
  simp [State.messages, State.flowAccounts, State.messageDue, linkLevel, xoff, due]

theorem State.sending_of_no_copy (empty : s.copies = []) (ep : Nat) : s.sending ep = none := by
  simp [State.sending, empty]

theorem State.resume_of_no_copy (empty : s.copies = []) (ep : Nat) : s.resume ep = s := by
  simp [State.resume, State.suspended, empty]

/-- With no copy in the device the wire of a channel that is UP and not quiet is free. -/
theorem State.clearFor_of_no_copy (chUp : s.chUp ch = true) (heard : s.quiet ch 1 = false) (standard : s.fabricRole ch = false)
    (plain : s.quartered ch = false) (empty : s.copies = []) : s.clearFor ch = some s := by
  have free : s.wireFree ch = true := by simp [State.wireFree, State.laneBusy, empty, plain]
  have uncut := State.cutFor_of_idle 1 (s.sending_of_no_copy empty ch)
  simp [State.clearFor, standard, chUp, heard, uncut, free]

/-- The pause frame that is the only one to wait leaves with the message of account 0. -/
theorem State.startPause_of_xoff (waits : s.genQ = [.pause ch]) (linkLevel : s.rd (chUnit ch) 0x1010 0 = 1) (xoff : s.inXoff ch 0 = true)
    (due : s.reg (.pauseDue ch 0) = 1) (clear : s.clearFor ch = some s) :
    s.startPause ch = (((s.genDone (.pause ch)).sendGenerated ch s.macControlHeader
      (s.macControlFrame ch false [(0, s.rd (chUnit ch) 0x1012 0)]) 1).messageSent ch (0, s.rd (chUnit ch) 0x1012 0)).resume ch := by
  simp [State.startPause, waits, State.messages_of_xoff linkLevel xoff due, clear, linkLevel]

/-- A statistics counter. -/
def statCount (u _ : Nat) : Prop := 0x500 ≤ u

theorem statCount_sparesChannel (there : s.isChannel ch = true) : SparesChannel statCount ch := fun _ _ => by
  obtain ⟨⟨-, lane⟩, ⟨-, channel⟩, -⟩ := State.units_of_isChannel there
  unfold statCount
  omega

/-- A generated frame on a standard channel goes behind the plain start octets, with its FCS; beside that it is counted and lights its lane. -/
theorem State.sendGenerated_butCounts (header l : List Octet) (ty : Nat) (plain : s.quartered ch = false) (standard : s.fabricRole ch = false) :
    State.ButCounts statCount { s with txOut := s.txOut.set ch (List.replicate 7 0x55 ++ [0xD5] ++ l ++ fcsOctets l) [] }
      (s.sendGenerated ch header l ty) := by
  have start : s.startOctets ch false = List.replicate 7 0x55 ++ [0xD5] := by
    unfold State.startOctets State.startWith
    rw [if_neg (by simp [plain])]
    rfl
  have named : ∀ i, statCount (csUnit ch) i := fun _ => by
    unfold statCount csUnit
    omega
  unfold State.sendGenerated State.beginQuarter
  dsimp only
  rw [if_neg (show ¬s.fabricRole ch = true by simp [standard]), if_neg (show ¬s.quartered ch = true by simp [plain]), start]
  exact ((State.ButCounts.statFrame _ _ _ _ _ named).trans (.stat _ _ _ _ named)).trans (.lit _ _)

/-- What an XOFF message of account `k` leaves when it has been sent (R116). -/
structure State.XoffSent (s : State) (ch k : Nat) (t : State) : Prop where
  genQ   : t.genQ = s.genQ
  txOut  : t.txOut = s.txOut
  copies : t.copies = s.copies
  due    : t.reg (.pauseDue ch k) = 0
  active : t.pauseActive ch k = true
  timer  : t.timer (.pauseActive ch k) = some (s.pauseD ch + 1)
  count  : t.rd (chUnit ch) 0x801B k = (s.rd (chUnit ch) 0x801B k + 1) % 2 ^ 64

theorem State.xoffSent_messageSent (k : Nat) {quanta : Nat} (timed : quanta ≠ 0) : s.XoffSent ch k (s.messageSent ch (k, quanta)) := by
  unfold State.messageSent
  dsimp only
  rw [if_neg timed]
  refine ⟨?_, ?_, ?_, ?_, ?_, ?_, ?_⟩
  · rw [State.bump_genQ, State.startTimer_genQ, State.wr_genQ, State.setReg_genQ]
  · rw [State.bump_txOut, State.startTimer_txOut, State.wr_txOut, State.setReg_txOut]
  · rw [State.bump_copies, State.startTimer_copies, State.wr_copies, State.setReg_copies]
  · simp
  · rw [State.pauseActive, State.rd_bump, if_neg (by omega), State.rd_startTimer, State.rd_wr_self]
    exact testBit_setBit_self _ _
  · rw [State.timer_bump, State.timer_startTimer, if_pos rfl]
  · rw [State.rd_bump_self, State.rd_startTimer, State.rd_wr_ne _ _ (by omega), State.rd_setReg, counterBits_of_high _ (by unfold chUnit; omega)]

end

theorem pauseGenStart_sends (ch : Nat) (s : State) (up : s.mainUp = true) (running : s.running = true) (unasked : s.asked 5 = false)
    (there : s.isChannel ch = true) (chUp : s.chUp ch = true) (waits : s.genQ = [.pause ch]) (linkLevel : s.rd (chUnit ch) 0x1010 0 = 1)
    (xoff : s.inXoff ch 0 = true) (due : s.reg (.pauseDue ch 0) = 1) (quanta : s.rd (chUnit ch) 0x1012 0 ≠ 0) (empty : s.copies = [])
    (plain : s.quartered ch = false) (heard : s.quiet ch 1 = false) (standard : s.fabricRole ch = false) :
    ∃ t, exec (.pauseGenStart ch) s = .next t ∧ t.genQ = [] ∧ t.reg (.pauseDue ch 0) = 0 ∧ t.pauseActive ch 0 = true
      ∧ t.timer (.pauseActive ch 0) = some (s.pauseD ch + 1)
      ∧ t.rd (chUnit ch) 0x801B 0 = (s.rd (chUnit ch) 0x801B 0 + 1) % 2 ^ 64
      ∧ t.txOut.find? ch = some (List.replicate 7 0x55 ++ [0xD5]
          ++ s.macControlFrame ch false [(0, s.rd (chUnit ch) 0x1012 0)]
          ++ fcsOctets (s.macControlFrame ch false [(0, s.rd (chUnit ch) 0x1012 0)])) := by
  have starts := State.startPause_of_xoff waits linkLevel xoff due (State.clearFor_of_no_copy chUp heard standard plain empty)
  have sent := State.sendGenerated_butCounts (s := s.genDone (.pause ch)) s.macControlHeader
    (s.macControlFrame ch false [(0, s.rd (chUnit ch) 0x1012 0)]) 1 plain standard
  generalize (s.genDone (.pause ch)).sendGenerated .. = u at starts sent
  have message := u.xoffSent_messageSent (ch := ch) 0 quanta
  have spares := statCount_sparesChannel there
  generalize u.messageSent .. = t at starts message
  rw [State.resume_of_no_copy (message.copies.trans (sent.copies.trans empty))] at starts
  have shown (l : List Octet) : (s.txOut.set ch (List.replicate 7 0x55 ++ [0xD5] ++ l ++ fcsOctets l) []).find? ch
      = some (List.replicate 7 0x55 ++ [0xD5] ++ l ++ fcsOctets l) := Map.find?_set_self _ _ (by simp)
  refine ⟨t, ?_, ?_, message.due, message.active, ?_, ?_, ?_⟩
  · show execPauseGenStart ch s = _
    unfold execPauseGenStart
    rw [if_pos ⟨up, running, by simp [unasked], there⟩, starts]
  · rw [message.genQ, sent.genQ]
    simp [State.genDone, waits]
  · rw [message.timer, sent.pauseD spares]
    rfl
  · rw [message.count, sent.objs _ _ _ (by unfold statCount chUnit; have := State.lt_of_isChannel there; omega)]
    rfl
  · rw [message.txOut, sent.txOut]
    exact shown _

/-! ### The timers of a pause (R116, R117) -/

/-- The object that a wake writes is of no channel and no lane. -/
theorem wakeObject_sparesChannel (ch : Nat) : SparesChannel (fun u i => u = 0x001 ∧ i = 0x5000) ch := fun i _ => by
  unfold chUnit lnUnit
  omega

section
variable {ch k : Nat} {s : State}

theorem State.refresh_of_xoff (xoff : s.inXoff ch k = true) (chUp : s.chUp ch = true) (unqueued : GenFrame.pause ch ∉ s.genQ) :
    s.refresh ch k = State.startTimer { (s.stopTimer (.refresh ch k)).setReg (.pauseDue ch k) 1 with genQ := s.genQ ++ [.pause ch] }
      (.refresh ch k) (max 1 (4 * s.pauseD ch / 5) + 1) := by
  have owes : State.queuePause ((s.stopTimer (.refresh ch k)).setReg (.pauseDue ch k) 1) ch
      = { (s.stopTimer (.refresh ch k)).setReg (.pauseDue ch k) 1 with genQ := s.genQ ++ [.pause ch] } := by
    refine if_neg ?_
    simpa [show State.chUp ((s.stopTimer (.refresh ch k)).setReg (.pauseDue ch k) 1) ch = true from chUp] using unqueued
  unfold State.refresh
  dsimp only
  rw [if_pos (show _ ∧ _ from ⟨xoff, chUp⟩), owes]
  exact if_pos (show State.chUp _ ch = true from chUp)

theorem pauseRefresh_renews (up : s.mainUp = true) (running : (s.timer (.refresh ch k)).isSome) (xoff : s.inXoff ch k = true)
    (chUp : s.chUp ch = true) (unqueued : GenFrame.pause ch ∉ s.genQ) :
    exec (.pauseRefreshExpire ch k) s = .next (State.startTimer { (s.wake.stopTimer (.refresh ch k)).setReg (.pauseDue ch k) 1 with
      genQ := s.genQ ++ [.pause ch] } (.refresh ch k) (max 1 (4 * s.pauseD ch / 5) + 1)) := by
  have woken := State.ButCounts.wake s
  have spares := wakeObject_sparesChannel ch
  have renews := State.refresh_of_xoff ((woken.inXoff spares k).trans xoff) ((woken.chUp spares).trans chUp) (by rwa [woken.genQ])
  rw [woken.genQ, woken.pauseD spares] at renews
  show execPauseRefreshExpire ch k s = _
  unfold execPauseRefreshExpire
  rw [if_pos ⟨up, running⟩, renews]

theorem pauseRefresh_stands (up : s.mainUp = true) (running : (s.timer (.refresh ch k)).isSome) (xon : s.inXoff ch k = false) :
    exec (.pauseRefreshExpire ch k) s = .next (s.wake.stopTimer (.refresh ch k)) := by
  have left : s.wake.inXoff ch k = false := ((State.ButCounts.wake s).inXoff (wakeObject_sparesChannel ch) k).trans xon
  show execPauseRefreshExpire ch k s = _
  unfold execPauseRefreshExpire
  rw [if_pos ⟨up, running⟩, State.refresh, if_neg (by simp [left])]

theorem pauseActive_ends (up : s.mainUp = true) (there : s.isChannel ch = true) (active : s.pauseActive ch k = true) :
    exec (.pauseActiveExpire ch k) s = .next ((s.wake.stopTimer (.pauseActive ch k)).wr (chUnit ch) 0x5013 0
      (setBit (s.rd (chUnit ch) 0x5013 0) (accountBit k) false)) := by
  show execPauseActiveExpire ch k s = _
  unfold execPauseActiveExpire
  rw [if_pos ⟨up, there, active⟩, State.activeOver, (State.ButCounts.wake s).rd_channel (wakeObject_sparesChannel ch) (by decide)]

end

end Sys2Proof.Machine
open Sys2Proof Sys2Proof.Machine

/-- Settles O13: what the frame that waits sends and leaves (`State.sendGenerated_butCounts`, `State.XoffSent`), and the two timers behind a wake. -/
theorem generatedPausesFollowXoff : Obligations.GeneratedPausesFollowXoff :=
  ⟨pauseGenStart_sends, fun _ _ _ => pauseRefresh_renews, fun _ _ _ => pauseRefresh_stands, fun _ _ _ => pauseActive_ends⟩

end

section
/-! The survey of the classifier's tables and the sweeper of the flow table (O27). -/
namespace Sys2Proof.Machine
variable {s : State}

@[simp] theorem State.heldAs_slotFree (s : State) (l : Option (List HeldEvent)) : (s.heldAs l).slotFree = s.slotFree := rfl

/-! ### The classifier's slots (R32) -/

theorem State.slotFree_of_taken (h : s.slot % 4 ≠ 3 ∨ s.slotTaken = true) : s.slotFree = false := by
  unfold State.slotFree
  rcases h with other | taken
  · simp [other]
  · simp [taken]

/-! ### The survey (R139) -/

/-- SURVEY_STEP may read: a slot is free, nothing goes before the survey, and `survey_rate` is not used up. -/
abbrev State.surveyMay (s : State) : Prop :=
  s.slotFree = true ∧ s.repairQ = [] ∧ s.nextUpdate = none ∧ s.regN .surveyUsed < s.rd 0x006 0x1003 0

/-- What SURVEY_STEP does while its events are gathered. -/
def surveyRead (found : SurveyFinding) (s : State) : Host.Outcome State Fault Refusal :=
  if s.surveyMay then .next (s.survey found) else .next s

theorem execSurveyStep_eq (found : SurveyFinding) (s : State) : exec (.surveyStep found) s = gathered s (surveyRead found) := rfl

theorem surveyRead_of_may (may : s.surveyMay) (found : SurveyFinding) : surveyRead found s = .next (s.survey found) := if_pos may

theorem surveyRead_of_busy (busy : s.slotFree = false) (found : SurveyFinding) : surveyRead found s = .next s := if_neg (by simp [busy])

/-- A read of the survey before its outcome: its slot is taken, and the position is behind the entry. -/
def State.surveyed (s : State) : State :=
  let s1 := s.takeSlot.setReg .surveyUsed (s.reg .surveyUsed + 1)
  if s.rd 0x006 0x5003 0 + 1 < s.build.legendEntries then s1.wr 0x006 0x5003 0 (s.rd 0x006 0x5003 0 + 1)
  else (s1.wr 0x006 0x5003 0 0).bump 0x006 0x8002 0 1

theorem State.survey_equal (s : State) : s.survey .equal = s.surveyed := rfl
theorem State.survey_differs (s : State) : s.survey .differs = s.surveyed.surveyDiffers (s.rd 0x006 0x5003 0) := rfl

/-- A read of the survey changes objects and registers alone. -/
theorem State.surveyed_fields (s : State) : s.surveyed = { s with obj := s.surveyed.obj, hid := s.surveyed.hid } := by
  unfold State.surveyed
  dsimp only
  split <;> rfl

theorem State.surveyed_heldAs (s : State) (l : Option (List HeldEvent)) : (s.heldAs l).surveyed = s.surveyed.heldAs l := by
  unfold State.surveyed
  dsimp only
  rw [apply_ite (fun u : State => u.heldAs l)]
  rfl

theorem State.reg_surveyed (s : State) (h : Hid) :
    s.surveyed.reg h = ((s.takeSlot).setReg .surveyUsed (s.reg .surveyUsed + 1)).reg h := by
  unfold State.surveyed
  dsimp only
  split <;> rfl

theorem State.surveyed_slots (s : State) :
    s.surveyed.reg .slotsTaken = s.reg .slotsTaken + 1 ∧ s.surveyed.reg .surveyUsed = s.reg .surveyUsed + 1 := by
  simp [State.reg_surveyed, State.takeSlot, State.reg_setReg]

/-- Of the objects a read moves the position and counts the passes. -/
theorem State.rd_surveyed_ne (s : State) {u i k : Nat} (position : ¬(u = 0x006 ∧ i = 0x5003)) (passes : ¬(u = 0x006 ∧ i = 0x8002)) :
    s.surveyed.rd u i k = s.rd u i k := by
  unfold State.surveyed State.takeSlot
  dsimp only
  split
  · rw [State.rd_wr_ne _ _ (by tauto)]
    rfl
  · rw [State.rd_bump, if_neg (by tauto), State.rd_wr_ne _ _ (by tauto)]
    rfl

theorem State.surveyed_within (more : s.rd 0x006 0x5003 0 + 1 < s.build.legendEntries) :
    s.surveyed.rd 0x006 0x5003 0 = s.rd 0x006 0x5003 0 + 1 ∧ s.surveyed.rd 0x006 0x8002 0 = s.rd 0x006 0x8002 0 := by
  unfold State.surveyed
  dsimp only
  rw [if_pos more]
  exact ⟨State.rd_wr_self .., State.rd_wr_ne _ _ (by decide)⟩

theorem State.surveyed_at_end (last : s.build.legendEntries ≤ s.rd 0x006 0x5003 0 + 1) :
    s.surveyed.rd 0x006 0x5003 0 = 0 ∧ s.surveyed.rd 0x006 0x8002 0 = (s.rd 0x006 0x8002 0 + 1) % 2 ^ 64 := by
  unfold State.surveyed
  dsimp only
  rw [if_neg (Nat.not_lt.mpr last)]
  exact ⟨(State.rd_bump ..).trans (State.rd_wr_self ..),
    (State.rd_bump_self ..).trans (congrArg (fun n => (n + 1) % 2 ^ 64) (State.rd_wr_ne _ _ (by decide)))⟩

/-- A difference found waits for its repair, is counted and latches alarm 16, but for its record. -/
theorem State.surveyDiffers_butEvents (s : State) (i : Nat) :
    ((State.bump { s with repairQ := s.repairQ ++ [i] } 0x006 0x8000 0 1).latch 0x006 16).ButEvents (s.surveyDiffers i) := .record ..

theorem surveyStep_equal (may : s.surveyMay) : exec (.surveyStep .equal) s = .next s.surveyed := by
  have held (l : Option (List HeldEvent)) : surveyRead .equal (s.heldAs l) = .next (s.surveyed.heldAs l) := by
    rw [surveyRead_of_may (s := s.heldAs l) may, State.survey_equal, State.surveyed_heldAs]
  rw [execSurveyStep_eq, gathered_of_heldAs held (by rw [s.surveyed_fields])]

theorem surveyStep_moves_on (may : s.surveyMay) :
    ∃ t, exec (.surveyStep .equal) s = .next t ∧ t.reg .slotsTaken = s.reg .slotsTaken + 1 ∧ t.reg .surveyUsed = s.reg .surveyUsed + 1
      ∧ (s.rd 0x006 0x5003 0 + 1 < s.build.legendEntries → t.rd 0x006 0x5003 0 = s.rd 0x006 0x5003 0 + 1
        ∧ t.rd 0x006 0x8002 0 = s.rd 0x006 0x8002 0)
      ∧ (s.build.legendEntries ≤ s.rd 0x006 0x5003 0 + 1 → t.rd 0x006 0x5003 0 = 0
        ∧ t.rd 0x006 0x8002 0 = (s.rd 0x006 0x8002 0 + 1) % 2 ^ 64)
      ∧ t.tab = s.tab ∧ t.repairQ = [] := by
  have ⟨_, noRepair, _⟩ := may
  obtain ⟨slots, used⟩ := s.surveyed_slots
  exact ⟨_, surveyStep_equal may, slots, used, State.surveyed_within, State.surveyed_at_end, by rw [s.surveyed_fields],
    by rw [s.surveyed_fields, noRepair]⟩

theorem surveyStep_finds (may : s.surveyMay) :
    ∃ t, exec (.surveyStep .differs) s = .next t ∧ t.repairQ = [s.rd 0x006 0x5003 0]
      ∧ t.rd 0x006 0x8000 0 = (s.rd 0x006 0x8000 0 + 1) % 2 ^ 64
      ∧ t.rd 0x006 0x0005 0 = setBit (s.rd 0x006 0x0005 0) 16 true := by
  have ⟨_, noRepair, _⟩ := may
  obtain ⟨l, held⟩ := s.holding_heldAs
  have answer : surveyRead .differs s.holding = .next ((s.heldAs l).survey .differs) := by
    rw [held, surveyRead_of_may (s := s.heldAs l) may]
  refine gathered_next_of answer fun t events => ?_
  have found := ((s.heldAs l).surveyed.surveyDiffers_butEvents (s.rd 0x006 0x5003 0)).trans events
  have same {i : Nat} (position : i ≠ 0x5003) (passes : i ≠ 0x8002) : (s.heldAs l).surveyed.rd 0x006 i 0 = s.rd 0x006 i 0 :=
    State.rd_surveyed_ne _ (by simp [position]) (by simp [passes])
  refine ⟨?_, ?_, ?_⟩
  · rw [found.fields]
    show (s.heldAs l).surveyed.repairQ ++ _ = _
    rw [State.surveyed_fields, show (s.heldAs l).repairQ = [] from noRepair]
    rfl
  · rw [found.objs _ _ _ rfl (by decide), State.rd_latch, if_neg (by decide), State.rd_bump_self]
    exact congrArg (fun n => (n + 1) % 2 ^ 64) (same (by decide) (by decide))
  · rw [found.objs _ _ _ rfl (by decide), State.rd_latch, if_pos ⟨rfl, rfl, rfl⟩, State.rd_bump, if_neg (by decide)]
    exact congrArg (setBit · 16 true) (same (by decide) (by decide))

theorem surveyRepair_takes {i : Nat} {rest : List Nat} (waits : s.repairQ = i :: rest) (free : s.slotFree = true) :
    exec .surveyRepair s = .next { s.takeSlot with repairQ := rest } := by
  show execSurveyRepair s = _
  unfold execSurveyRepair
  simp only [waits, free, if_true]

/-- Without a free slot neither the survey nor a repair does anything. -/
theorem survey_rests (busy : s.slotFree = false) (found : SurveyFinding) :
    exec (.surveyStep found) s = .next s ∧ exec .surveyRepair s = .next s := by
  constructor
  · rw [execSurveyStep_eq, gathered_of_heldAs (fun l => surveyRead_of_busy (s := s.heldAs l) busy found) rfl]
  · show execSurveyRepair s = _
    unfold execSurveyRepair
    simp only [busy, Bool.false_eq_true, if_false]
    split <;> rfl

/-! ### The sweeper of the flow table (R145) -/

/-- The state of the sweeper behind its visit to an entry. -/
theorem flowSweepVisit_eq (up : s.mainUp = true) (awake : s.mode ≠ 2) :
    exec .flowSweepVisit s
      = .next ((s.sweepVisit (s.regN .sweep)).setReg .sweep (((s.regN .sweep + 1) % s.build.flowEntries : Nat) : Int)) :=
  if_pos ⟨up, awake⟩

theorem State.sweepVisit_of_not_valid {i : Nat} (empty : (s.ent 0x008 0x6000 i).testBit 255 = false) : s.sweepVisit i = s := by
  unfold State.sweepVisit
  dsimp only
  rw [if_pos (by simp [empty])]

theorem State.sweepVisit_of_old {i : Nat} (valid : (s.ent 0x008 0x6000 i).testBit 255 = true) (single : s.pairOdd i = false)
    (unpinned : (s.ent 0x008 0x6000 i).testBit 252 = false) (ages : s.rd 0x008 0x1000 0 ≠ 0)
    (old : s.rd 0x008 0x1000 0 ≤ (s.ageClock + 65536 - field (s.ent 0x008 0x6000 i) 39 16) % 65536) :
    s.sweepVisit i = (s.removeFlow i).bump 0x008 0x8002 0 1 := by
  unfold State.sweepVisit
  dsimp only
  rw [if_neg (by simp [valid, single, unpinned]), if_pos ⟨ages, old⟩]

theorem State.rd_removeFlow (s : State) (i u j k : Nat) : (s.removeFlow i).rd u j k = s.rd u j k := by
  unfold State.removeFlow
  dsimp only
  split <;> rfl

/-- A removed entry is 0, its odd way too, and every other entry is as before. -/
theorem State.ent_removeFlow (s : State) (i : Nat) :
    (s.removeFlow i).ent 0x008 0x6000 i = 0
      ∧ ((s.ent 0x008 0x6000 i).testBit 254 = true → (s.removeFlow i).ent 0x008 0x6000 (i + 1) = 0)
      ∧ ∀ e, e ≠ i → e ≠ i + 1 → (s.removeFlow i).ent 0x008 0x6000 e = s.ent 0x008 0x6000 e := by
  unfold State.removeFlow
  dsimp only
  refine ⟨State.ent_setEnt_self .., fun pair => ?_, fun e notEven notOdd => ?_⟩
  · rw [State.ent_setEnt, if_neg (by simp), if_pos pair, State.ent_setEnt_self]
  · rw [State.ent_setEnt, if_neg (by simp [notEven])]
    split
    · rw [State.ent_setEnt, if_neg (by simp [notOdd])]
    · rfl

theorem flowSweepVisit_skips (up : s.mainUp = true) (awake : s.mode ≠ 2)
    (empty : (s.ent 0x008 0x6000 (s.regN .sweep)).testBit 255 = false) :
    exec .flowSweepVisit s = .next (s.setReg .sweep (((s.regN .sweep + 1) % s.build.flowEntries : Nat) : Int)) := by
  rw [flowSweepVisit_eq up awake, State.sweepVisit_of_not_valid empty]

theorem flowSweepVisit_removes (up : s.mainUp = true) (awake : s.mode ≠ 2)
    (valid : (s.ent 0x008 0x6000 (s.regN .sweep)).testBit 255 = true) (single : s.pairOdd (s.regN .sweep) = false)
    (unpinned : (s.ent 0x008 0x6000 (s.regN .sweep)).testBit 252 = false) (ages : s.rd 0x008 0x1000 0 ≠ 0)
    (old : s.rd 0x008 0x1000 0 ≤ (s.ageClock + 65536 - field (s.ent 0x008 0x6000 (s.regN .sweep)) 39 16) % 65536) :
    ∃ t, exec .flowSweepVisit s = .next t ∧ t.ent 0x008 0x6000 (s.regN .sweep) = 0
      ∧ ((s.ent 0x008 0x6000 (s.regN .sweep)).testBit 254 = true → t.ent 0x008 0x6000 (s.regN .sweep + 1) = 0)
      ∧ t.rd 0x008 0x8002 0 = (s.rd 0x008 0x8002 0 + 1) % 2 ^ 64
      ∧ t.reg .sweep = (((s.regN .sweep + 1) % s.build.flowEntries : Nat) : Int)
      ∧ ∀ e, e ≠ s.regN .sweep → e ≠ s.regN .sweep + 1 → t.ent 0x008 0x6000 e = s.ent 0x008 0x6000 e := by
  obtain ⟨gone, oddGone, others⟩ := s.ent_removeFlow (s.regN .sweep)
  have visit := flowSweepVisit_eq up awake
  rw [State.sweepVisit_of_old valid single unpinned ages old] at visit
  refine ⟨_, visit, gone, oddGone, ?_, State.reg_setReg_self .., others⟩
  rw [State.rd_setReg, State.rd_bump_self, State.rd_removeFlow]
  rfl

end Sys2Proof.Machine
open Sys2Proof Sys2Proof.Machine

/-- Settles O27: a read of the survey moves its position (`State.surveyed`), a difference waits for its repair, and the sweeper removes an old
entry with its odd way. -/
theorem surveyAndSweeperAdvance : Obligations.SurveyAndSweeperAdvance := by
  refine ⟨fun s free noRepair noUpdate rate => surveyStep_moves_on ⟨free, noRepair, noUpdate, rate⟩,
    fun s free noRepair noUpdate rate => surveyStep_finds ⟨free, noRepair, noUpdate, rate⟩,
    fun i rest s => surveyRepair_takes, fun found s taken => survey_rests (State.slotFree_of_taken taken) found,
    fun s up awake => ⟨flowSweepVisit_skips up awake, flowSweepVisit_removes up awake⟩⟩

end

section
/-! The flip of an edition (O28): what becomes of both memberships and both banks of actions, and who is told. -/
namespace Sys2Proof.Machine

/-! ### A bit that is set, and a table that is cleared -/

theorem testBit_setBit (v i : Nat) (b : Bool) : (setBit v i b).testBit i = b := by
  cases b with
  | true => exact testBit_setBit_self v i
  | false =>
    have cleared : setBit v i false = v - v / 2 ^ i % 2 * 2 ^ i := by
      simp [setBit, setField, field, Nat.shiftRight_eq_div_pow]
    have bit : v.testBit i = decide (v / 2 ^ i % 2 = 1) := Nat.testBit_eq_decide_div_mod_eq
    rw [cleared]
    rcases Nat.mod_two_eq_zero_or_one (v / 2 ^ i) with off | on
    · rw [off, Nat.zero_mul, Nat.sub_zero, bit, off]
      rfl
    · have set : v.testBit i = true := by rw [bit, on]; rfl
      have whole : v = 2 ^ i + (v - 2 ^ i) := (Nat.add_sub_cancel' (Nat.ge_two_pow_of_testBit set)).symm
      rw [whole, Nat.testBit_two_pow_add_eq] at set
      rw [on, Nat.one_mul]
      simpa using set

theorem setBit_zero_false (i : Nat) : setBit 0 i false = 0 := by simp [setBit, setField, field]

theorem Map.find?_filter_key {κ ν : Type} [DecidableEq κ] (keep : κ → Bool) (m : Map κ ν) (x : κ) :
    Map.find? (m.filter fun e => keep e.1) x = if keep x then m.find? x else none := by
  induction m with
  | nil => simp [Map.find?]
  | cons p m ih =>
    obtain ⟨k, v⟩ := p
    by_cases same : k = x
    · subst same
      cases kept : keep k with
      | true => simp [Map.find?, kept]
      | false => simpa [Map.find?, kept] using ih
    · cases kept : keep k with
      | true => simpa [Map.find?, kept, same] using ih
      | false => simpa [Map.find?, kept, same] using ih

/-- A cleared table reads its reset values, and every other table is as before. -/
theorem State.ent_clearTable (s : State) (u i x j e : Nat) :
    (s.clearTable u i).ent x j e = if x = u ∧ j = i then tabDefault s.build x j e else s.ent x j e := by
  have kept := Map.find?_filter_key (fun a : EntAddr => !(a.unit = u && a.idx = i)) s.tab ⟨x, j, e⟩
  unfold State.ent State.clearTable Map.get
  dsimp only at kept ⊢
  rw [kept]
  by_cases here : x = u ∧ j = i
  · simp [here]
  · rw [if_neg here, if_pos (by simpa using not_and_or.mp here)]

/-! ### Entries written one after another -/

section
variable {f : Nat → Nat} {l : List (Nat × Nat)} {u i : Nat}

/-- The entries of a list, each at `f` of its listed value. -/
def State.putAll (f : Nat → Nat) (u i : Nat) (l : List (Nat × Nat)) (s : State) : State := l.foldl (fun s p => s.setEnt u i p.1 (f p.2)) s

theorem State.ent_putAll_of_not_mem (s : State) {x j e : Nat} (other : ¬(x = u ∧ j = i) ∨ e ∉ l.map Prod.fst) :
    (s.putAll f u i l).ent x j e = s.ent x j e := by
  unfold State.putAll
  induction l generalizing s with
  | nil => rfl
  | cons p l ih =>
    rw [List.map_cons, List.mem_cons, not_or] at other
    refine (ih _ (other.imp_right And.right)).trans ?_
    rw [State.ent_setEnt, if_neg (by tauto)]

theorem State.ent_putAll_of_mem (s : State) (once : (l.map Prod.fst).Nodup) {e v : Nat} (here : (e, v) ∈ l) :
    (s.putAll f u i l).ent u i e = f v := by
  induction l generalizing s with
  | nil => cases here
  | cons p l ih =>
    obtain ⟨new, rest⟩ := List.nodup_cons.mp once
    rcases List.mem_cons.mp here with rfl | tail
    · exact (State.ent_putAll_of_not_mem (l := l) _ (.inr new)).trans (State.ent_setEnt_self ..)
    · exact ih _ rest tail

/-- A table at `f` of another of a canonical state, whose reset value is 0: it need only be so where that one reads 0. -/
theorem State.ent_putAll_listed {s : State} {src : Nat} (canon : s.canon = true) (reset : ∀ e, tabDefault s.build u src e = 0) (t : State) (e : Nat)
    (zero : s.ent u src e = 0 → t.ent u i e = f 0) : (t.putAll f u i (s.listed u src)).ent u i e = f (s.ent u src e) := by
  by_cases listed : e ∈ (s.listed u src).map Prod.fst
  · obtain ⟨p, there, rfl⟩ := List.mem_map.mp listed
    rw [State.ent_putAll_of_mem t (State.listed_nodup canon u src) there, State.ent_of_mem_listed canon there]
  · have unwritten : s.ent u src e = 0 := by
      by_contra other
      exact listed (List.mem_map.mpr ⟨_, State.mem_listed_of_ne (by rwa [reset]), rfl⟩)
    rw [State.ent_putAll_of_not_mem t (.inr listed), zero unwritten, unwritten]

end

/-! ### The copies of a flip (R135, Table 5.8) -/

section
variable {s : State} {u : Nat}

theorem State.copyMember_eq (s : State) (u cur next : Nat) :
    s.copyMember u cur next false = s.putAll (fun v => setBit v cur (v.testBit next)) u 0x6000 (s.listed u 0x6000) := rfl

theorem State.copyBank_eq (s : State) (u src dst : Nat) :
    s.copyBank u src dst = (s.clearTable u dst).putAll id u dst (s.listed u src) := rfl

theorem State.ent_copyMember_ne (s : State) {x j : Nat} (cur next e : Nat) (other : ¬(x = u ∧ j = 0x6000)) :
    (s.copyMember u cur next false).ent x j e = s.ent x j e := by
  rw [State.copyMember_eq, State.ent_putAll_of_not_mem _ (.inl other)]

theorem State.ent_copyBank_ne (s : State) {dst x j : Nat} (src e : Nat) (other : ¬(x = u ∧ j = dst)) :
    (s.copyBank u src dst).ent x j e = s.ent x j e := by
  rw [State.copyBank_eq, State.ent_putAll_of_not_mem _ (.inl other), State.ent_clearTable, if_neg other]

theorem State.testBit_copyMember (canon : s.canon = true) (reset : ∀ e, tabDefault s.build u 0x6000 e = 0) (cur next e : Nat) :
    ((s.copyMember u cur next false).ent u 0x6000 e).testBit cur = (s.ent u 0x6000 e).testBit next := by
  rw [State.copyMember_eq, State.ent_putAll_listed canon reset s e fun zero => by rw [zero, Nat.zero_testBit, setBit_zero_false], testBit_setBit]

theorem State.ent_copyBank (canon : s.canon = true) {src dst : Nat} (reset : ∀ i e, i = src ∨ i = dst → tabDefault s.build u i e = 0) (e : Nat) :
    (s.copyBank u src dst).ent u dst e = s.ent u src e := by
  rw [State.copyBank_eq, State.ent_putAll_listed canon (fun e => reset src e (.inl rfl)) _ e fun _ => ?_]
  · rfl
  · rw [State.ent_clearTable, if_pos ⟨rfl, rfl⟩, reset dst e (.inr rfl)]
    rfl

/-- The next edition copied over the current one in both tables. -/
def State.nextCopied (s : State) : State :=
  (((s.copyMember 0x006 641 640 false).copyMember 0x007 1 0 false).copyBank 0x006 0x6001 0x6002).copyBank 0x007 0x6001 0x6002

/-- What holds once the next edition has been copied. -/
structure State.NextIsCurrent (s t : State) : Prop where
  legend         : ∀ e, (t.ent 0x006 0x6000 e).testBit 641 = (s.ent 0x006 0x6000 e).testBit 640
  contour        : ∀ e, (t.ent 0x007 0x6000 e).testBit 1 = (s.ent 0x007 0x6000 e).testBit 0
  legendActions  : ∀ e, t.ent 0x006 0x6002 e = s.ent 0x006 0x6001 e
  contourActions : ∀ e, t.ent 0x007 0x6002 e = s.ent 0x007 0x6001 e

theorem State.nextIsCurrent_nextCopied (canon : s.canon = true) : s.NextIsCurrent s.nextCopied := by
  unfold State.nextCopied
  have legend := State.testBit_copyMember (u := 0x006) canon (fun _ => rfl) 641 640
  have other1 {x j : Nat} := s.ent_copyMember_ne (u := 0x006) (x := x) (j := j) 641 640
  have canon1 := (State.copyMember_keeps s 0x006 641 640 false (.refl s)).canon canon
  generalize s.copyMember 0x006 641 640 false = s1 at *
  have contour := State.testBit_copyMember (u := 0x007) canon1 (fun _ => rfl) 1 0
  have other2 {x j : Nat} := s1.ent_copyMember_ne (u := 0x007) (x := x) (j := j) 1 0
  have canon2 := (State.copyMember_keeps s1 0x007 1 0 false (.refl s1)).canon canon1
  generalize s1.copyMember 0x007 1 0 false = s2 at *
  have legendActions := State.ent_copyBank (u := 0x006) (src := 0x6001) (dst := 0x6002) canon2 (by rintro i e (rfl | rfl) <;> rfl)
  have other3 {x j : Nat} := s2.ent_copyBank_ne (u := 0x006) (dst := 0x6002) (x := x) (j := j) 0x6001
  have canon3 := (State.copyBank_keeps s2 0x006 0x6001 0x6002 (.refl s2)).canon canon2
  generalize s2.copyBank 0x006 0x6001 0x6002 = s3 at *
  have contourActions := State.ent_copyBank (u := 0x007) (src := 0x6001) (dst := 0x6002) canon3 (by rintro i e (rfl | rfl) <;> rfl)
  have other4 {x j : Nat} := s3.ent_copyBank_ne (u := 0x007) (dst := 0x6002) (x := x) (j := j) 0x6001
  generalize s3.copyBank 0x007 0x6001 0x6002 = s4 at *
  refine ⟨fun e => ?_, fun e => ?_, fun e => ?_, fun e => ?_⟩
  · rw [other4 _ (by decide), other3 _ (by decide), other2 _ (by decide), legend]
  · rw [other4 _ (by decide), other3 _ (by decide), contour, other1 _ (by decide)]
  · rw [other4 _ (by decide), legendActions, other2 _ (by decide), other1 _ (by decide)]
  · rw [contourActions, other3 _ (by decide), other2 _ (by decide), other1 _ (by decide)]

end

/-! ### EDITION_FLIP and EDITION_DRAINED (R135, R136) -/

section
variable {s : State}

/-- The next edition is the current one, and the agent of the commit is told. -/
def State.flipTold (s : State) : State :=
  (s.nextCopied.wr 0x006 0x5000 0 ((s.edition + 1) % 65536)).finish (agentOf (s.regN .editionAgent)) .ok

/-- A flip moves `edition_state`; where no frame of the old tag is in flight an interrupt follows. -/
theorem State.flip_butEvents (committed : s.rd 0x006 0x5001 0 = 1) :
    (s.flipTold.wr 0x006 0x5001 0 (if 0 < s.inflight (s.edition % 2) then 2 else 0)).ButEvents s.flip := by
  unfold State.flip
  rw [if_neg (not_not.mpr committed)]
  dsimp only
  by_cases drains : 0 < s.inflight (s.edition % 2)
  · rw [if_pos drains, if_pos drains]
    exact .refl _
  · rw [if_neg drains, if_neg drains]
    exact .raise _ _

theorem State.ent_flipTold (host : (agentOf (s.regN .editionAgent)).kind = .host) (u i e : Nat) :
    s.flipTold.ent u i e = s.nextCopied.ent u i e := by
  rw [State.flipTold, State.finish_fields_of_host _ host]
  rfl

theorem editionFlip_switches (canon : s.canon = true) (up : s.mainUp = true) (committed : s.rd 0x006 0x5001 0 = 1)
    (host : (agentOf (s.regN .editionAgent)).kind = .host) :
    ∃ t, exec .editionFlip s = .next t ∧ t.rd 0x006 0x5000 0 = (s.edition + 1) % 65536
      ∧ (∀ e, (t.ent 0x006 0x6000 e).testBit 641 = (s.ent 0x006 0x6000 e).testBit 640)
      ∧ (∀ e, (t.ent 0x007 0x6000 e).testBit 1 = (s.ent 0x007 0x6000 e).testBit 0)
      ∧ (∀ e, t.ent 0x006 0x6002 e = s.ent 0x006 0x6001 e) ∧ (∀ e, t.ent 0x007 0x6002 e = s.ent 0x007 0x6001 e)
      ∧ t.rd 0x006 0x5001 0 = (if 0 < s.inflight (s.edition % 2) then 2 else 0)
      ∧ t.result = ⟨agentOf (s.regN .editionAgent), some .ok, []⟩ := by
  have events := State.flip_butEvents committed
  have copied := State.nextIsCurrent_nextCopied canon
  have entry (u i e : Nat) (irq : u ≠ 0x002) (book : u ≠ 0x004) : s.flip.ent u i e = s.nextCopied.ent u i e :=
    (events.ents u i e irq book).trans (State.ent_flipTold host u i e)
  refine ⟨s.flip, if_pos up, ?_, fun e => ?_, fun e => ?_, fun e => ?_, fun e => ?_, ?_, ?_⟩
  · rw [events.objs _ _ _ rfl (by decide), State.rd_wr_ne _ _ (by decide), State.flipTold, State.rd_finish_of_host _ host, State.rd_wr_self]
  · rw [entry _ _ _ (by decide) (by decide), copied.legend]
  · rw [entry _ _ _ (by decide) (by decide), copied.contour]
  · rw [entry _ _ _ (by decide) (by decide), copied.legendActions]
  · rw [entry _ _ _ (by decide) (by decide), copied.contourActions]
  · rw [events.objs _ _ _ rfl (by decide), State.rd_wr_self]
  · exact events.result.trans (State.finish_result ..)

theorem editionDrained_settles (up : s.mainUp = true) (draining : s.rd 0x006 0x5001 0 = 2) (drained : s.inflight ((s.edition + 1) % 2) = 0) :
    ∃ t, exec .editionDrained s = .next t ∧ (s.wr 0x006 0x5001 0 0).ButEvents t := by
  have settles : s.drainCheck = (s.wr 0x006 0x5001 0 0).raise causeEditionSteady := if_pos ⟨draining, drained⟩
  exact ⟨_, (if_pos up).trans (congrArg _ settles), .raise _ _⟩

end

end Sys2Proof.Machine
open Sys2Proof Sys2Proof.Machine

/-- Settles O28: the four copies of the flip (`State.nextIsCurrent_nextCopied`), the commit's completion, and the end of the drain. -/
theorem editionFlipMakesNextCurrent : Obligations.EditionFlipMakesNextCurrent :=
  ⟨fun _ => editionFlip_switches, fun _ => editionDrained_settles⟩

end

section
/-! The fold frames that a fabric link sends of its own (O25). -/
namespace Sys2Proof.Machine
variable {ch : Nat} {s : State}

/-- A fabric link is a channel that is UP, on a lane of role FABRIC, in an enabled fabric (R294). -/
theorem State.of_fabricLink (link : s.fabricLink ch = true) : s.chUp ch = true ∧ s.fabricRole ch = true ∧ s.rd 0x00D 0x1000 0 = 1 := by
  simpa [State.fabricLink, and_assoc] using link

/-- With no copy in the device the wire of a fabric link that is not quiet is free. -/
theorem State.clearFor_fabricLink_of_no_copy (link : s.fabricLink ch = true) (heard : s.quiet ch 2 = false) (plain : s.quartered ch = false)
    (empty : s.copies = []) : s.clearFor ch = some s := by
  obtain ⟨chUp, fabric, enabled⟩ := State.of_fabricLink link
  have free : s.wireFree ch = true := by simp [State.wireFree, State.laneBusy, empty, plain]
  have uncut := State.cutFor_of_idle 2 (s.sending_of_no_copy empty ch)
  simp [State.clearFor, fabric, chUp, heard, enabled, uncut, free]

theorem State.startOctets_of_plain (plain : s.quartered ch = false) : s.startOctets ch false = List.replicate 7 0x55 ++ [0xD5] := by
  unfold State.startOctets State.startWith
  rw [if_neg (by simp [plain])]
  rfl

/-- A generated frame on a fabric link goes behind the plain start octets and its header, with the FCS of both; beside that it is counted and
lights its lane. -/
theorem State.sendGenerated_onFabric_butCounts (header l : List Octet) (ty : Nat) (plain : s.quartered ch = false) (fabric : s.fabricRole ch = true) :
    State.ButCounts statCount
      { s with txOut := s.txOut.set ch (List.replicate 7 0x55 ++ [0xD5] ++ (header ++ l) ++ fcsOctets (header ++ l)) [] }
      (s.sendGenerated ch header l ty) := by
  have named : ∀ i, statCount (csUnit ch) i := fun _ => by
    unfold statCount csUnit
    omega
  unfold State.sendGenerated State.beginQuarter
  dsimp only
  rw [if_pos fabric, if_neg (show ¬s.quartered ch = true by simp [plain]), State.startOctets_of_plain plain]
  exact ((State.ButCounts.statFrame _ _ _ _ _ named).trans (.stat _ _ _ _ named)).trans (.lit _ _)

/-- The octets of a fold frame on the wire (R161, R196). -/
def foldWire (header body : List Octet) : List Octet := List.replicate 7 0x55 ++ [0xD5] ++ (header ++ body) ++ fcsOctets (header ++ body)

/-- `t` is what the fold frame `g` leaves of `s` once it has been sent: it waits no more, its octets are on the wire, and no object below the
statistics has changed. -/
structure State.FoldSent (s : State) (ch : Nat) (g : GenFrame) (octets : List Octet) (t : State) : Prop where
  genQ   : t.genQ = s.genQ.erase g
  copies : t.copies = s.copies
  txOut  : t.txOut.get ch [] = octets
  objs   : ∀ u i k, u < 0x500 → t.rd u i k = s.rd u i k

theorem State.foldSent_sendGenerated (g : GenFrame) (header body : List Octet) (plain : s.quartered ch = false) (fabric : s.fabricRole ch = true) :
    s.FoldSent ch g (foldWire header body) ((s.genDone g).sendGenerated ch header body 3) := by
  have sent := State.sendGenerated_onFabric_butCounts (s := s.genDone g) header body 3 plain fabric
  exact {
    genQ := sent.genQ
    copies := sent.copies
    txOut := by rw [sent.txOut, Map.get_set_self, foldWire]
    objs := fun u i k below => sent.objs u i k (Nat.not_le.mpr below) }

/-! ### The two commands (R161, R163) -/

section
variable (up : s.mainUp = true) (running : s.running = true) (unasked : s.asked 5 = false) (link : s.fabricLink ch = true)
  (unheld : s.heldClass ch 7 = false) (heard : s.quiet ch 2 = false) (plain : s.quartered ch = false) (empty : s.copies = [])
include up running unasked link unheld heard plain empty

theorem templateInstallTx_sends {slot : Nat} {sl : FoldSlot} (waits : s.genQ = [.install ch slot]) (here : s.foldSlot ch slot true = some sl)
    (valid : sl.header ≠ []) :
    ∃ t, exec (.templateInstallTx ch) s = .next t ∧ t.genQ = [] ∧ t.txOut.get ch [] = foldWire (s.foldHeader 3 slot) (installBody sl)
      ∧ t.rd (chUnit ch) 0x8022 0 = (s.rd (chUnit ch) 0x8022 0 + 1) % 2 ^ 64 := by
  obtain ⟨chUp, fabric, -⟩ := State.of_fabricLink link
  have small := State.lt_of_isChannel (State.isChannel_of_chUp chUp)
  have sent := State.foldSent_sendGenerated (.install ch slot) (s.foldHeader 3 slot) (installBody sl) plain fabric
  have clear := State.clearFor_fabricLink_of_no_copy link heard plain empty
  have sends : s.sendFold ch (.install ch slot)
      = ((s.genDone (.install ch slot)).sendGenerated ch (s.foldHeader 3 slot) (installBody sl) 3).bump (chUnit ch) 0x8022 0 1 := by
    simp only [State.sendFold, unheld, clear, here, valid, Bool.false_eq_true, if_false]
    exact State.resume_of_no_copy (show (State.bump _ (chUnit ch) 0x8022 0 1).copies = [] from sent.copies.trans empty) ch
  refine ⟨State.bump _ (chUnit ch) 0x8022 0 1, ?_, sent.genQ.trans ?_, sent.txOut, (State.rd_bump_self ..).trans ?_⟩
  · show execTemplateInstallTx ch s = _
    unfold execTemplateInstallTx
    rw [if_pos ⟨up, running, by simp [unasked], link⟩]
    simp only [waits, List.find?_cons, decide_true]
    rw [sends]
  · rw [waits, List.erase_cons_head]
  · rw [counterBits_of_high _ (by unfold chUnit; omega), sent.objs _ _ _ (by unfold chUnit; omega)]

theorem foldNakTx_sends {slot gen q r : Nat} (waits : s.genQ = [.nak ch slot gen q r]) :
    ∃ t, exec (.foldNakTx ch) s = .next t ∧ t.genQ = []
      ∧ t.txOut.get ch [] = foldWire (s.foldHeader 4 slot) (padBody (toMsb 1 gen ++ toMsb 1 q ++ toMsb 1 r)) := by
  obtain ⟨-, fabric, -⟩ := State.of_fabricLink link
  have sent := State.foldSent_sendGenerated (.nak ch slot gen q r) (s.foldHeader 4 slot) (padBody (toMsb 1 gen ++ toMsb 1 q ++ toMsb 1 r))
    plain fabric
  have clear := State.clearFor_fabricLink_of_no_copy link heard plain empty
  have sends : s.sendFold ch (.nak ch slot gen q r) = (s.genDone (.nak ch slot gen q r)).sendGenerated ch (s.foldHeader 4 slot)
      (padBody (toMsb 1 gen ++ toMsb 1 q ++ toMsb 1 r)) 3 := by
    simp only [State.sendFold, unheld, clear, Bool.false_eq_true, if_false]
    exact State.resume_of_no_copy (sent.copies.trans empty) ch
  refine ⟨_, ?_, sent.genQ.trans ?_, sent.txOut⟩
  · show execFoldNakTx ch s = _
    unfold execFoldNakTx
    rw [if_pos ⟨up, running, by simp [unasked], link⟩]
    simp only [waits, List.find?_cons, decide_true]
    rw [sends]
  · rw [waits, List.erase_cons_head]

end
end Sys2Proof.Machine
open Sys2Proof Sys2Proof.Machine

/-- Settles O25: what a generated frame leaves of the state once it is on a fabric link (`State.FoldSent`), for the install and for the NAK. -/
theorem foldFramesLeave : Obligations.FoldFramesLeave :=
  ⟨fun _ _ _ _ up running unasked link unheld heard plain empty waits here valid =>
      templateInstallTx_sends up running unasked link unheld heard plain empty waits here valid,
    fun _ _ _ _ _ _ up running unasked link unheld heard plain empty waits =>
      foldNakTx_sends up running unasked link unheld heard plain empty waits⟩

end

section
/-! What the host port and a frame that settles leave of the timers and the copies: for the end of a hold (O20). -/
namespace Sys2Proof.Machine

/-! ### Timers

Beside events, which may start the Monument's hour, the port touches no timer, and a frame that leaves only those of its account's refresh. -/

section
variable {x : TimerId}

theorem State.timer_ite {p : Prop} [Decidable p] {r s t : State} (h : s.timer x = r.timer x) (k : t.timer x = r.timer x) :
    (if p then s else t).timer x = r.timer x := by
  split <;> assumption

theorem State.timer_foldl {α : Type} {f : State → α → State} (hf : ∀ u a, (f u a).timer x = u.timer x) (l : List α) (s : State) :
    (l.foldl f s).timer x = s.timer x := State.foldl_keeps_field (fun u => u.timer x) hf l s

theorem State.timer_cqReady (s : State) (cq : Nat) (e : CqEntry) : (s.cqReady cq e).timer x = s.timer x := State.timer_ite rfl rfl

theorem State.timer_discardAhead (s : State) (p : Nat → Bool) : (s.discardAhead p).timer x = s.timer x :=
  State.timer_ite rfl ((State.timer_bump ..).trans (State.timer_foldl (fun u q => State.timer_wr u (tqUnit q) 0x5002 0 _ x) _ _))

theorem State.timer_mpIssue (s : State) (w : Bool) (a : Nat) (o : List Octet) (p : MpPurpose) : (s.mpIssue w a o p).timer x = s.timer x := rfl

theorem State.timer_issuePayload (s : State) (a : AheadEntry) : (s.issuePayload a).timer x = s.timer x :=
  State.timer_foldl (fun u _ => u.timer_mpIssue ..) _ _

theorem State.timer_pumpPayload (s : State) : s.pumpPayload.timer x = s.timer x :=
  State.timer_foldl (fun u a => State.timer_ite rfl (u.timer_issuePayload a)) _ s

theorem State.timer_jobReads (s : State) (j : Nat) : (s.jobReads j).timer x = s.timer x := State.timer_ite rfl rfl

theorem State.timer_fetchTq (k : Nat) (s : State) (q : Nat) : (State.fetchTq k s q).timer x = s.timer x := by
  induction k generalizing s with
  | zero => rfl
  | succ k ih => exact State.timer_ite (ih _) rfl

theorem State.timer_fetchBq (k : Nat) (s : State) (b : Nat) : (State.fetchBq k s b).timer x = s.timer x := by
  induction k generalizing s with
  | zero => rfl
  | succ k ih => exact State.timer_ite (ih _) rfl

theorem State.timer_rxErrors (k : Nat) (s : State) (b : Nat) : (State.rxErrors k s b).timer x = s.timer x := by
  induction k generalizing s with
  | zero => rfl
  | succ k ih =>
    unfold State.rxErrors
    dsimp only
    split
    · rfl
    · exact State.timer_ite ((ih _).trans (State.timer_cqReady ..)) rfl

theorem State.timer_templateCheck (s : State) (t : Nat) : (s.templateCheck t).timer x = s.timer x := State.timer_ite (State.timer_setEnt ..) rfl

variable (kept : x ≠ .budgetHour)
include kept

theorem State.timer_tqFault (s : State) (q pos counter : Nat) : (s.producerFault .tq q pos counter).timer x = s.timer x :=
  ((State.ButEvents.record _ _ _ _ _).timer x kept).trans (((State.ButEvents.raise _ _).timer x kept).trans (s.timer_discardAhead _))

theorem State.timer_txErrors (k : Nat) (s : State) (q : Nat) : (State.txErrors k s q).timer x = s.timer x := by
  induction k generalizing s with
  | zero => rfl
  | succ k ih =>
    unfold State.txErrors
    split
    · rfl
    · split
      · rfl
      · exact State.timer_ite rfl (State.timer_ite (s.timer_tqFault kept ..) (State.timer_ite (s.timer_tqFault kept ..)
          (State.timer_ite ((ih _).trans (State.timer_cqReady ..)) rfl)))

theorem State.timer_pump (s : State) : s.pump.timer x = s.timer x := by
  refine State.timer_ite rfl ?_
  refine (State.timer_foldl State.timer_jobReads _ _).trans ((State.timer_pumpPayload _).trans ?_)
  refine (State.timer_foldl (fun u b => (State.timer_fetchBq ..).trans (State.timer_rxErrors ..)) _ _).trans ?_
  exact State.timer_foldl (fun u q => (State.timer_fetchTq ..).trans (u.timer_txErrors kept ..)) _ s

theorem State.timer_drainCheck (s : State) : s.drainCheck.timer x = s.timer x :=
  State.timer_ite ((State.ButEvents.raise _ _).timer x kept) rfl

omit kept
variable (other : ∀ ch k, x ≠ .refresh ch k)
include other

theorem State.timer_armRefresh (s : State) (ch k : Nat) : (s.armRefresh ch k).timer x = s.timer x :=
  State.timer_ite ((State.timer_startTimer ..).trans (if_neg (other ch k))) rfl

theorem State.timer_checkXoff (s : State) (ch k : Nat) : (s.checkXoff ch k).timer x = s.timer x := by
  have queued (u : State) : (u.queuePause ch).timer x = u.timer x := State.timer_ite rfl rfl
  unfold State.checkXoff
  extract_lets occ xoff left
  have stopped : left.timer x = s.timer x := (State.timer_stopTimer ..).trans (if_neg (other ch k))
  exact State.timer_ite rfl (State.timer_ite ((State.timer_armRefresh other ..).trans (queued _))
    (State.timer_ite (State.timer_ite ((queued _).trans stopped) stopped) rfl))

theorem State.timer_charged (s : State) (f : Frame) : (s.charged f).timer x = s.timer x := by
  unfold State.charged
  split
  · exact State.timer_ite (State.timer_checkXoff other ..) rfl
  · rfl

include kept

theorem State.timer_releaseFrame (s : State) (id : Nat) : (s.releaseFrame id).timer x = s.timer x := by
  unfold State.releaseFrame
  split
  · rfl
  · refine (State.timer_drainCheck kept _).trans ((State.timer_charged other ..).trans ?_)
    split
    · exact State.timer_templateCheck ..
    · rfl

end

/-! ### A frame that settles (R40, R151) -/

section
variable {s : State} {id : Nat} {f : Frame}

/-- A frame without a host descriptor that settles stays, leaves flight, or leaves the device. -/
theorem State.settle_cases (hf : s.frame? id = some f) (desc : f.desc = none) :
    s.settle id = s ∨ s.settle id = s.leaveFlight id ∨ s.settle id = s.releaseFrame id := by
  have stamped : s.tsCheck f = s := by
    unfold State.tsCheck
    rw [desc]
  unfold State.settle
  simp only [hf, stamped]
  split
  · split
    · exact .inr (.inl rfl)
    · exact .inl rfl
  · split
    · exact .inr (.inr rfl)
    · split
      · exact .inr (.inl rfl)
      · exact .inl rfl

/-- No copy is new when a frame settles. -/
theorem State.copies_settle_sublist (hf : s.frame? id = some f) (desc : f.desc = none) : (s.settle id).copies.Sublist s.copies := by
  rcases State.settle_cases hf desc with eq | eq | eq
  · rw [eq]
  · rw [eq, (State.SameWork.leaveFlight s id).copies]
  · rw [eq, (State.sameWork_releaseFrame (p := True) hf).copies]
    exact List.filter_sublist

theorem State.timer_settle {x : TimerId} (kept : x ≠ .budgetHour) (other : ∀ ch k, x ≠ .refresh ch k) (hf : s.frame? id = some f)
    (desc : f.desc = none) : (s.settle id).timer x = s.timer x := by
  rcases State.settle_cases hf desc with eq | eq | eq
  · rw [eq]
  · rw [eq]
    exact State.timer_drainCheck kept _
  · rw [eq]
    exact State.timer_releaseFrame kept other s id

end

end Sys2Proof.Machine
end

section
/-! The fold frames that a link receives, and the end of a hold (O20). -/
namespace Sys2Proof.Machine

/-! ### A template that is installed (R161) -/

theorem octet_drop (l : List Octet) (n i : Nat) : octet (l.drop n) i = octet l (n + i) := by
  simp [octet, List.getD_eq_getElem?_getD]

theorem templateInstallRx_fills (ch : Nat) (frame : List Octet) (s : State) (up : s.mainUp = true) (running : s.running = true)
    (chUp : s.chUp ch = true) (fabric : s.fabricRole ch = true) (install : fabType frame = 3) (linkLocal : fabDst frame = 0)
    (least : 14 ≤ octet frame 13) (most : octet frame 13 ≤ 64) :
    exec (.templateInstallRx ch frame) s = .next ((s.setFoldSlot ⟨ch, fabRef frame, false, octet frame 12, octet frame 14, octet frame 15,
      (octet frame 16).testBit 7, octet frame 17, (frame.drop 18).take (octet frame 13)⟩).bump (chUnit ch) 0x8023 0 1) := by
  show execTemplateInstallRx ch frame s = _
  unfold execTemplateInstallRx
  simp only [octet_drop, List.drop_drop]
  exact if_pos ⟨up, running, chUp, fabric, install, linkLocal, least, most⟩

/-! ### A FOLD_DATA frame that does not unfold (R163, Table 6.5) -/

/-- The body of a fabric frame: its octets behind the header and before the FCS. -/
def foldBody (frame : List Octet) : List Octet := (frame.drop 12).take (frame.length - 16)

/-- A FOLD_NAK with a reason waits for a FOLD_DATA frame that could not be unfolded, and it is counted. -/
def State.refuseFold (s : State) (ch : Nat) (frame : List Octet) (reason : Nat) : State :=
  { s.bump (chUnit ch) 0x8024 0 1 with
    genQ := s.genQ ++ [.nak ch (fabRef frame) (octet (foldBody frame) 0) (octet (foldBody frame) 1) reason] }

/-- What FOLD_DATA_RX leaves of a frame that is for this device or in transit (R163). -/
def State.takeFold (s : State) (ch crossing : Nat) (frame : List Octet) (unreadable : Bool) : State :=
  if unreadable then s.refuseFold ch frame 3
  else
    match s.foldSlot ch (fabRef frame) false with
    | none => s.refuseFold ch frame 1
    | some sl =>
      if sl.header = [] then s.refuseFold ch frame 1
      else if sl.gen ≠ octet (foldBody frame) 0 then s.refuseFold ch frame 2
      else (s.bump (chUnit ch) 0x8021 0 1).storeUnfolded ch (frame.take 12) (unfold sl (foldBody frame)) (s.rxInstant ch crossing)

theorem foldDataRx_takes {ch : Nat} {frame : List Octet} {s : State} (crossing : Nat) (ecc : Bool) (up : s.mainUp = true) (running : s.running = true)
    (link : s.fabricLink ch = true) (fate : s.fabFate frame = .ownFold ∨ s.fabFate frame = .transitFold) :
    exec (.foldDataRx ch frame ecc crossing) s = .next (s.takeFold ch crossing frame ecc) := by
  show execFoldDataRx ch frame ecc crossing s = _
  unfold execFoldDataRx State.takeFold
  rw [if_pos ⟨up, running, link, fate.imp_right .inl⟩]
  cases ecc with
  | true => rfl
  | false =>
    dsimp only
    cases s.foldSlot ch (fabRef frame) false with
    | none => rfl
    | some sl => exact ((apply_ite Host.Outcome.next ..).trans (if_congr Iff.rfl rfl (apply_ite Host.Outcome.next ..))).symm

theorem foldDataRx_refuses (ch crossing : Nat) (frame : List Octet) (ecc : Bool) (s : State) (up : s.mainUp = true) (running : s.running = true)
    (link : s.fabricLink ch = true) (fate : s.fabFate frame = .ownFold ∨ s.fabFate frame = .transitFold)
    (lost : ecc = true ∨ s.foldSlot ch (fabRef frame) false = none) :
    exec (.foldDataRx ch frame ecc crossing) s = .next (s.refuseFold ch frame (if ecc then 3 else 1)) := by
  rw [foldDataRx_takes crossing ecc up running link fate, State.takeFold]
  cases ecc with
  | true => rfl
  | false => rw [lost.resolve_left (by decide)]; rfl

theorem foldDataRx_refuses_slot (ch crossing : Nat) (frame : List Octet) (sl : FoldSlot) (s : State) (up : s.mainUp = true)
    (running : s.running = true) (link : s.fabricLink ch = true) (fate : s.fabFate frame = .ownFold ∨ s.fabFate frame = .transitFold)
    (here : s.foldSlot ch (fabRef frame) false = some sl) (stale : sl.header = [] ∨ sl.gen ≠ octet (foldBody frame) 0) :
    exec (.foldDataRx ch frame false crossing) s = .next (s.refuseFold ch frame (if sl.header = [] then 1 else 2)) := by
  rw [foldDataRx_takes crossing false up running link fate, State.takeFold, here]
  by_cases invalid : sl.header = []
  · simp [invalid]
  · simp [invalid, stale.resolve_left invalid]

/-! ### A FOLD_DATA frame that unfolds (R163) -/

theorem length_toMsb (n v : Nat) : (toMsb n v).length = n := by rw [toMsb, List.length_reverse, length_toLsb]

/-- A fabric header that is made anew from one has 12 octets (Table 13.1). -/
theorem length_reHeader {h : List Octet} (long : 11 ≤ h.length) (type hop level ref : Nat) : (reHeader h type hop level ref).length = 12 := by
  simp [reHeader, patch, length_toMsb]
  omega

section
variable {ch : Nat} {s : State}

/-- Without a pause mode an account has no headroom, and its limit is its quota (R109, R112). -/
theorem State.hasHeadroom_of_no_pause (off : s.rd (chUnit ch) 0x1010 0 = 0) (k : Nat) : s.hasHeadroom ch k = false := by
  simp [State.hasHeadroom, off]

theorem State.limitOf_of_no_pause (off : s.rd (chUnit ch) 0x1010 0 = 0) (k : Nat) : s.limitOf ch k = s.rd (chUnit ch) 0x1014 k := by
  simp [State.limitOf, State.hasHeadroom_of_no_pause off]

/-- Without a pause mode a charge moves the peak of the account alone. -/
theorem State.charged_of_no_pause {f : Frame} {k : Nat} (off : s.rd (chUnit f.ing) 0x1010 0 = 0) (there : s.isChannel f.ing = true)
    (account : f.account = some k) : ∃ peak, s.charged f = s.wr (chUnit f.ing) 0x5011 k peak := by
  have left (v : Nat) : (s.wr (chUnit f.ing) 0x5011 k v).rd (chUnit f.ing) 0x1010 0 = 0 :=
    (State.rd_wr_ne _ _ fun e => absurd e.2.1 (by decide)).trans off
  refine ⟨max (s.rd (chUnit f.ing) 0x5011 k) (s.occupancy f.ing k), ?_⟩
  unfold State.charged
  simp only [account]
  rw [if_pos there]
  exact if_pos (by simp [State.hasHeadroom_of_no_pause (left _)])

/-- A frame that has been unfolded meets no row of Table 13.2 where the fabric is enabled: it commits with its sums. -/
theorem State.passFrame_of_unfolded {f : Frame} {k : Key} (run : s.mode ≠ 0) (enabled : s.rd 0x00D 0x1000 0 = 1) (use : f.use = .unfolded)
    (key : f.key = some k) : s.passFrame f = s.commitSums f k := by
  have late : s.lateUse f = f := if_neg (by simp [use])
  have kept : s.discardedAs f = none := by simp [State.discardedAs, use, enabled]
  unfold State.passFrame
  simp only [late, kept]
  rw [if_neg (by simp [run]), if_neg (by simp [use])]
  simp [use, key]

/-- The frame of a channel that a FOLD_DATA frame with a header unfolds to, with the octets `l` in front of its FCS. -/
def State.unfoldedFrame (s : State) (ch : Nat) (header l : List Octet) (time : Nat × Nat) (cells : Nat) (key : Option Key) : Frame :=
  { s.newFrame ch time false with
    octets := reHeader header 0 (fabHop header) (fabLevel header) 0 ++ l ++ fcsOctets l, onFabric := true, ended := true, use := .unfolded
    account := some 0, cells := cells, key := key }

/-- The state in which a frame that was unfolded is charged and its key waits. -/
def State.holdUnfolded (s : State) (f : Frame) (peak : Nat) : State :=
  { (s.addFrame f).wr (chUnit f.ing) 0x5011 0 peak with keyQ := s.keyQ ++ [f.id] }

theorem State.rd_holdUnfolded (f : Frame) (peak u : Nat) {i : Nat} (k : Nat) (other : i ≠ 0x5011) : (s.holdUnfolded f peak).rd u i k = s.rd u i k :=
  State.rd_wr_ne _ _ fun e => other e.2.1

variable {header l : List Octet} {time : Nat × Nat}

theorem State.inner_unfoldedFrame (long : 11 ≤ header.length) (cells : Nat) (key : Option Key) :
    (s.unfoldedFrame ch header l time cells key).inner = l ++ fcsOctets l := by
  simp [Frame.inner, State.unfoldedFrame, length_reHeader long]

/-- Account 0, the one of a channel without a pause mode, takes an unfolded frame that fits its quota. -/
theorem State.admitCell_unfoldedFrame (long : 11 ≤ header.length) (off : s.rd (chUnit ch) 0x1010 0 = 0)
    (room : s.occupancy ch 0 + ceilDiv (l.length + 4) 64 ≤ s.rd (chUnit ch) 0x1014 0) :
    ∃ cells, s.admitCell (s.unfoldedFrame ch header l time 0 none) 0 = some (s.unfoldedFrame ch header l time cells none) := by
  refine ⟨_, if_pos (.inr ?_)⟩
  rw [State.inner_unfoldedFrame long, List.length_append, fcsOctets_length]
  exact (State.limitOf_of_no_pause off 0).symm ▸ room

/-- With room in that account the frame enters the device and commits. -/
theorem State.storeUnfolded_of_room (long : 11 ≤ header.length) (run : s.mode ≠ 0) (enabled : s.rd 0x00D 0x1000 0 = 1)
    (there : s.isChannel ch = true) (off : s.rd (chUnit ch) 0x1010 0 = 0)
    (room : s.occupancy ch 0 + ceilDiv (l.length + 4) 64 ≤ s.rd (chUnit ch) 0x1014 0) :
    ∃ cells key peak, s.storeUnfolded ch header l time
      = (s.holdUnfolded (s.unfoldedFrame ch header l time cells (some key)) peak).commitSums (s.unfoldedFrame ch header l time cells (some key)) key := by
  have account (f : Frame) (use : f.use = .unfolded) (ing : f.ing = ch) : s.chooseAccount f = some 0 := by
    simp [State.chooseAccount, State.accountAt, use, ing, off]
  obtain ⟨cells, admitted⟩ := State.admitCell_unfoldedFrame (time := time) long off room
  obtain ⟨key, parsed⟩ : ∃ key, key = (s.parseOf (s.unfoldedFrame ch header l time cells none)).parse := ⟨_, rfl⟩
  let f := s.unfoldedFrame ch header l time cells (some key)
  obtain ⟨peak, charged⟩ := State.charged_of_no_pause (s := s.addFrame f) (f := f) off there rfl
  refine ⟨cells, key, peak, ?_⟩
  rw [← State.passFrame_of_unfolded ((State.rd_holdUnfolded f peak _ _ (by decide)).trans_ne run)
    ((State.rd_holdUnfolded f peak _ _ (by decide)).trans enabled) rfl rfl]
  unfold State.storeUnfolded
  dsimp only
  rw [account _ rfl rfl]
  split
  next refused => exact absurd (refused.symm.trans admitted) (by simp)
  next f3 e =>
    obtain rfl : f3 = s.unfoldedFrame ch header l time cells none := Option.some.inj (e.symm.trans admitted)
    rw [← parsed]
    exact congrArg (fun u : State => State.passFrame { u with keyQ := u.keyQ ++ [f.id] } f) charged

/-- Its key waits, and so do its held effects; of the objects that stood before only the peak of the account may have moved. -/
theorem State.storeUnfolded_stores (long : 11 ≤ header.length) (run : s.mode ≠ 0) (enabled : s.rd 0x00D 0x1000 0 = 1)
    (there : s.isChannel ch = true) (off : s.rd (chUnit ch) 0x1010 0 = 0)
    (room : s.occupancy ch 0 + ceilDiv (l.length + 4) 64 ≤ s.rd (chUnit ch) 0x1014 0) :
    let t := s.storeUnfolded ch header l time
    (∃ g ∈ t.frames, g.ing = ch ∧ g.committed = true ∧ g.use = .unfolded ∧ g.key.isSome ∧ g.inner = l ++ fcsOctets l)
      ∧ t.keyQ = s.keyQ ++ [s.regN .nextFrame] ∧ t.appQ = s.appQ ++ [s.regN .nextFrame] ∧ ∀ u i k, i ≠ 0x5011 → t.rd u i k = s.rd u i k := by
  obtain ⟨cells, key, peak, stored⟩ := State.storeUnfolded_of_room (time := time) long run enabled there off room
  let f := s.unfoldedFrame ch header l time cells (some key)
  have inner : f.inner = l ++ fcsOctets l := State.inner_unfoldedFrame long cells (some key)
  rw [stored]
  exact ⟨⟨_, List.mem_map.mpr ⟨f, List.mem_append_right _ (List.mem_singleton_self f), if_pos rfl⟩, rfl, rfl, rfl, rfl, inner⟩, rfl, rfl,
    fun u i k other => State.rd_holdUnfolded f peak u k other⟩

end

theorem foldDataRx_unfolds (ch crossing : Nat) (frame : List Octet) (sl : FoldSlot) (s : State) (up : s.mainUp = true) (running : s.running = true)
    (link : s.fabricLink ch = true) (fate : s.fabFate frame = .ownFold ∨ s.fabFate frame = .transitFold)
    (here : s.foldSlot ch (fabRef frame) false = some sl) (valid : sl.header ≠ []) (same : sl.gen = octet (foldBody frame) 0)
    (off : s.rd (chUnit ch) 0x1010 0 = 0) (long : 12 ≤ frame.length)
    (room : s.occupancy ch 0 + ceilDiv ((unfold sl (foldBody frame)).length + 4) 64 ≤ s.rd (chUnit ch) 0x1014 0) :
    ∃ t, exec (.foldDataRx ch frame false crossing) s = .next t
      ∧ (∃ g ∈ t.frames, g.ing = ch ∧ g.committed = true ∧ g.use = .unfolded ∧ g.key.isSome
        ∧ g.inner = unfold sl (foldBody frame) ++ fcsOctets (unfold sl (foldBody frame)))
      ∧ t.keyQ = s.keyQ ++ [s.regN .nextFrame] ∧ t.appQ = s.appQ ++ [s.regN .nextFrame]
      ∧ t.rd (chUnit ch) 0x8021 0 = (s.rd (chUnit ch) 0x8021 0 + 1) % 2 ^ 64 := by
  obtain ⟨chUp, -, enabled⟩ := State.of_fabricLink link
  have run : s.mode = 1 := by simpa [State.running] using running
  have counted (u i k : Nat) (other : i ≠ 0x8021) : (s.bump (chUnit ch) 0x8021 0 1).rd u i k = s.rd u i k :=
    State.rd_wr_ne _ _ fun e => other e.2.1
  have unfolds : s.takeFold ch crossing frame false = (s.bump (chUnit ch) 0x8021 0 1).storeUnfolded ch (frame.take 12)
      (unfold sl (foldBody frame)) (s.rxInstant ch crossing) := by simp [State.takeFold, here, valid, same]
  obtain ⟨stored, keyQ, appQ, objs⟩ := State.storeUnfolded_stores (s := s.bump (chUnit ch) 0x8021 0 1) (header := frame.take 12)
    (l := unfold sl (foldBody frame)) (time := s.rxInstant ch crossing) (by rw [List.length_take]; omega)
    ((counted _ _ _ (by decide)).trans_ne (show s.mode ≠ 0 by omega)) ((counted _ _ _ (by decide)).trans enabled)
    (show s.isChannel ch = true from State.isChannel_of_chUp chUp) ((counted _ _ _ (by decide)).trans off)
    (room.trans_eq (counted _ _ _ (by decide)).symm)
  refine ⟨_, (foldDataRx_takes crossing false up running link fate).trans (congrArg _ unfolds), stored, keyQ, appQ, ?_⟩
  rw [objs _ _ _ (by decide), State.rd_bump_self, counterBits_of_high _ (by unfold chUnit; omega)]

/-! ### A FOLD_NAK (R164) -/

theorem foldNakRx_counts_late (ch : Nat) (frame : List Octet) (s : State) (up : s.mainUp = true) (running : s.running = true)
    (chUp : s.chUp ch = true) (fabric : s.fabricRole ch = true) (nak : fabType frame = 4) (linkLocal : fabDst frame = 0)
    (late : ∀ c ∈ s.copies, c.ep = ch → c.fseq ≠ some (octet frame 13)) :
    ∃ t, exec (.foldNakRx ch frame) s = .next t ∧ (s.bump (chUnit ch) 0x8026 0 1).ButEvents t := by
  have unheld : s.copies.find? (fun c => c.ep = ch && c.state = .held && c.fseq = some (octet frame 13)) = none :=
    List.find?_eq_none.mpr fun c mem => by
      have := late c mem
      simp +contextual [this]
  refine ⟨_, ?_, .record _ 0x0603 (chUnit ch) [(1, fabRef frame), (1, octet frame 13)] false⟩
  show execFoldNakRx ch frame s = _
  unfold execFoldNakRx
  rw [if_pos ⟨up, running, chUp, fabric, nak, linkLocal⟩]
  simp only [unheld]

/-- The state in which a slot of a send cache, where there is one, is not valid (R160, R164). -/
def State.dropTemplate (s : State) (ch slot : Nat) : State :=
  match s.foldSlot ch slot true with
  | some sl => s.setFoldSlot { sl with header := [] }
  | none => s

/-- A held copy that waits to be sent as DATA (R164). -/
def Copy.resent (c : Copy) : Copy :=
  { c with state := .queued, fseq := none, resend := true, lead := [], skip := 0, patches := [], pos := 0, frags := 0 }

section
variable {ch slot : Nat} {s : State}

theorem State.dropTemplate_fields (s : State) (ch slot : Nat) : s.dropTemplate ch slot = { s with folds := (s.dropTemplate ch slot).folds } := by
  unfold State.dropTemplate
  split <;> rfl

theorem State.header_of_dropTemplate {sl : FoldSlot} (here : (s.dropTemplate ch slot).foldSlot ch slot true = some sl) : sl.header = [] := by
  unfold State.dropTemplate at here
  split at here
  next old held =>
    obtain ⟨link, number, side⟩ : old.ch = ch ∧ old.slot = slot ∧ old.send = true := by simpa [and_assoc] using List.find?_some held
    rw [State.foldSlot, State.setFoldSlot, List.find?_cons_of_pos (by simp [link, number, side])] at here
    exact Option.some.inj here ▸ rfl
  next none_held => simp [none_held] at here

end

theorem foldNakRx_resends (ch : Nat) (frame : List Octet) (c : Copy) (s : State) (up : s.mainUp = true) (running : s.running = true)
    (chUp : s.chUp ch = true) (fabric : s.fabricRole ch = true) (nak : fabType frame = 4) (linkLocal : fabDst frame = 0)
    (held : s.copies.find? (fun c => c.ep = ch && c.state = .held && c.fseq = some (octet frame 13)) = some c) :
    ∃ t d, exec (.foldNakRx ch frame) s = .next t ∧ t.copies = s.copies.erase c ++ [d] ∧ d.frame = c.frame ∧ d.ep = ch
      ∧ d.state = .queued ∧ d.fseq = none ∧ d.resend = true ∧ t.timer (.foldHold ch (octet frame 13)) = none
      ∧ (∀ sl, t.foldSlot ch (fabRef frame) true = some sl → sl.header = [])
      ∧ t.rd (chUnit ch) 0x8025 0 = (s.rd (chUnit ch) 0x8025 0 + 1) % 2 ^ 64 ∧ t.frames = s.frames := by
  have ep : c.ep = ch := by
    have := List.find?_some held
    simp only [Bool.and_eq_true, decide_eq_true_eq] at this
    exact this.1.1
  have dropped := s.dropTemplate_fields ch (fabRef frame)
  refine ⟨(((s.dropTemplate ch (fabRef frame)).stopTimer (.foldHold ch (octet frame 13))).startCopy c c.resent).bump (chUnit ch) 0x8025 0 1,
    c.resent, ?_, ?_, rfl, ep, rfl, rfl, rfl, (State.timer_stopTimer ..).trans (if_pos rfl), fun sl here => State.header_of_dropTemplate here, ?_, ?_⟩
  · show execFoldNakRx ch frame s = _
    unfold execFoldNakRx
    rw [if_pos ⟨up, running, chUp, fabric, nak, linkLocal⟩]
    simp only [held]
    rfl
  · show (s.dropTemplate ch (fabRef frame)).copies.erase c ++ [c.resent] = _
    rw [dropped]
  · refine (State.rd_bump_self ..).trans ?_
    rw [counterBits_of_high _ (by unfold chUnit; omega)]
    show ((s.dropTemplate ch (fabRef frame)).rd (chUnit ch) 0x8025 0 + 1) % 2 ^ 64 = _
    rw [dropped]
    rfl
  · show (s.dropTemplate ch (fabRef frame)).frames = _
    rw [dropped]

/-! ### A hold that ends (R164) -/

/-- The state in which a copy is held no more, before its frame settles. -/
def State.unheld (s : State) (ch q : Nat) (c : Copy) : State := (s.wake.stopTimer (.foldHold ch q)).dropCopy c

theorem foldHoldExpire_frees (ch q : Nat) (c : Copy) (f : Frame) (s : State) (up : s.mainUp = true) (running : (s.timer (.foldHold ch q)).isSome)
    (held : s.copies.find? (fun c => c.ep = ch && c.state = .held && c.fseq = some q) = some c) (hf : s.frame? c.frame = some f)
    (desc : f.desc = none) :
    ∃ t, exec (.foldHoldExpire ch q) s = .next t ∧ t.timer (.foldHold ch q) = none ∧ t.copies.length < s.copies.length := by
  have woken := State.ButCounts.wake s
  have stopped : (s.unheld ch q c).timer (.foldHold ch q) = none := (State.timer_stopTimer s.wake _ _).trans (if_pos rfl)
  have frame : (s.unheld ch q c).frame? c.frame = some f := (State.frame?_congr (t := s.unheld ch q c) woken.frames _).trans hf
  have fewer : (s.unheld ch q c).copies.length < s.copies.length := by
    have mem := List.mem_of_find?_eq_some held
    show (s.wake.copies.erase c).length < _
    rw [woken.copies, List.length_erase_of_mem mem]
    exact Nat.sub_lt (List.length_pos_of_mem mem) Nat.one_pos
  have released : s.wake.foldRelease ch q = (s.unheld ch q c).settle c.frame := by
    rw [← woken.copies] at held
    simp only [State.foldRelease, held]
    rfl
  refine ⟨((s.unheld ch q c).settle c.frame).pump, ?_, ?_, ?_⟩
  · show execFoldHoldExpire ch q s = _
    unfold execFoldHoldExpire
    rw [if_pos ⟨up, running⟩, released]
  · rw [State.timer_pump (by simp), State.timer_settle (by simp) (by simp) frame desc, stopped]
  · rw [(State.SameWork.pump (p := True) _).copies]
    exact (State.copies_settle_sublist frame desc).length_le.trans_lt fewer

end Sys2Proof.Machine
open Sys2Proof Sys2Proof.Machine

/-- Settles O20: the install fills its slot; a FOLD_DATA frame is unfolded and stored (`State.storeUnfolded_of_room`) or refused; a NAK is late or
has its copy sent again; and the end of a hold frees the copy. -/
theorem foldFramesInstallAndUnfold : Obligations.FoldFramesInstallAndUnfold :=
  ⟨templateInstallRx_fills, foldDataRx_unfolds, foldDataRx_refuses, foldDataRx_refuses_slot, foldNakRx_counts_late, foldNakRx_resends,
    foldHoldExpire_frees⟩

end

section
/-! Pause and PFC frames that are received: the holds that they set, and the choices that they withdraw (O11). -/
namespace Sys2Proof.Machine

/-! ### A hold that is set, and the choices that it withdraws (R176, R215) -/

section
variable {s : State} {ch : Nat}

/-- A hold that is set changes its counter, and the record of its length where it begins. -/
theorem State.setHold_fields (s : State) (ch hold n : Nat) :
    s.setHold ch hold n = { s with hid := (s.setHold ch hold n).hid, holds := s.holds.set (ch, hold) n 0 } := by
  unfold State.setHold
  dsimp only
  split <;> rfl

theorem State.holdOf_congr {s t : State} (h : t.holds = s.holds) (c k : Nat) : t.holdOf c k = s.holdOf c k := by
  unfold State.holdOf
  rw [h]

theorem State.holdOf_setHold (s : State) (ch hold n c h : Nat) :
    (s.setHold ch hold n).holdOf c h = if (c, h) = (ch, hold) then n else s.holdOf c h := by
  unfold State.holdOf
  rw [State.setHold_fields]
  split
  next same =>
    rw [same]
    exact Map.get_set_self ..
  next other => exact Map.get_set_ne _ other ..

/-- A withdrawal counts in the scheduler's unit alone. -/
theorem State.rd_withdraw (s : State) (ep : Nat) (p : Copy → Bool) {u : Nat} (other : u ≠ 0x00A) (i k : Nat) :
    (s.withdraw ep p).rd u i k = s.rd u i k := by
  unfold State.withdraw
  dsimp only
  split
  · rfl
  · exact State.rd_wr_ne _ _ fun e => other e.1

/-- `t` is `s` but for holds, registers, copies and what the scheduler counts: all that a frame with a time changes. -/
structure State.SetsHolds (s t : State) : Prop where
  build  : t.build = s.build
  frames : t.frames = s.frames
  objs   : ∀ u i k, u ≠ 0x00A → t.rd u i k = s.rd u i k

namespace State.SetsHolds
variable {r s t : State}

theorem refl (s : State) : s.SetsHolds s := ⟨rfl, rfl, fun _ _ _ _ => rfl⟩

theorem trans (h : r.SetsHolds s) (k : s.SetsHolds t) : r.SetsHolds t :=
  ⟨k.build.trans h.build, k.frames.trans h.frames, fun u i l other => (k.objs u i l other).trans (h.objs u i l other)⟩

theorem rd_channel (h : s.SetsHolds t) (ch i k : Nat) : t.rd (chUnit ch) i k = s.rd (chUnit ch) i k :=
  h.objs _ _ _ (by unfold chUnit; omega)

/-- The speed of a channel is by what is configured. -/
theorem speed (h : s.SetsHolds t) (ch : Nat) : t.speed ch = s.speed ch := by
  have lane (i : Nat) : t.rd (lnUnit (laneOf ch)) i 0 = s.rd (lnUnit (laneOf ch)) i 0 := h.objs _ _ _ (by unfold lnUnit; omega)
  unfold State.speed State.speedCode State.chEnabled State.isChannel
  rw [h.build, h.rd_channel, lane, lane]

end State.SetsHolds

/-- What a frame with a time `t` leaves that acts on hold `hold` (R215). -/
def State.timedHold (s : State) (ch hold t : Nat) : State :=
  (s.setHold ch hold (pauseTicks t (s.speed ch) + 1)).withdraw ch (fun c => hold = 0 || c.cls + 1 = hold)

theorem State.obey_of_time {t : Nat} (timed : t ≠ 0) (hold : Nat) : s.obey ch hold t = s.timedHold ch hold t := if_pos timed

theorem State.setsHolds_timedHold (s : State) (ch hold t : Nat) : s.SetsHolds (s.timedHold ch hold t) where
  build := by
    rw [State.timedHold, State.withdraw_fields, State.setHold_fields]
  frames := by
    rw [State.timedHold, State.withdraw_fields, State.setHold_fields]
  objs u i k other := by
    rw [State.timedHold, State.rd_withdraw _ _ _ other, State.setHold_fields]
    rfl

theorem State.holdOf_timedHold (s : State) (ch hold t c h : Nat) :
    (s.timedHold ch hold t).holdOf c h = if (c, h) = (ch, hold) then pauseTicks t (s.speed ch) + 1 else s.holdOf c h := by
  rw [← State.holdOf_setHold, State.timedHold]
  exact State.holdOf_congr (by rw [State.withdraw_fields]) c h

/-- The channel-wide hold leaves no copy of its channel chosen. -/
theorem State.unchosen_timedHold {t : Nat} {c : Copy} (hc : c ∈ (s.timedHold ch 0 t).copies) (ep : c.ep = ch) : c.state ≠ .chosen := fun chosen => by
  simpa using State.not_withdrawn_of_chosen hc ep chosen

/-! ### The classes that a PFC frame names (R215) -/

/-- Each of the classes `l` is held for its time. -/
def State.holdClasses (s : State) (ch : Nat) (time : Nat → Nat) (l : List Nat) : State := l.foldl (fun s p => s.timedHold ch (p + 1) (time p)) s

theorem State.setsHolds_holdClasses (s : State) (ch : Nat) (time : Nat → Nat) (l : List Nat) : s.SetsHolds (s.holdClasses ch time l) := by
  induction l generalizing s with
  | nil => exact .refl s
  | cons p l ih => exact (s.setsHolds_timedHold ch (p + 1) (time p)).trans (ih _)

theorem State.holdOf_holdClasses_of_unnamed {time : Nat → Nat} {l : List Nat} {c h : Nat} (unnamed : ∀ p ∈ l, (c, h) ≠ (ch, p + 1)) :
    (s.holdClasses ch time l).holdOf c h = s.holdOf c h := by
  induction l generalizing s with
  | nil => rfl
  | cons p l ih =>
    calc (s.holdClasses ch time (p :: l)).holdOf c h
        = (s.timedHold ch (p + 1) (time p)).holdOf c h := ih fun q hq => unnamed q (List.mem_cons_of_mem _ hq)
      _ = s.holdOf c h := by rw [State.holdOf_timedHold, if_neg (unnamed p List.mem_cons_self)]

theorem State.holdOf_holdClasses_of_named {time : Nat → Nat} {l : List Nat} {p : Nat} (named : p ∈ l) :
    (s.holdClasses ch time l).holdOf ch (p + 1) = pauseTicks (time p) (s.speed ch) + 1 := by
  induction l generalizing s with
  | nil => cases named
  | cons q l ih =>
    by_cases later : p ∈ l
    · rw [← (s.setsHolds_timedHold ch (q + 1) (time q)).speed]
      exact ih later
    · obtain rfl : p = q := (List.mem_cons.mp named).resolve_right later
      have last : ∀ q ∈ l, (ch, p + 1) ≠ (ch, q + 1) := fun q hq e => later (by simp at e; exact e ▸ hq)
      calc (s.holdClasses ch time (p :: l)).holdOf ch (p + 1)
          = (s.timedHold ch (p + 1) (time p)).holdOf ch (p + 1) := State.holdOf_holdClasses_of_unnamed last
        _ = _ := by rw [State.holdOf_timedHold, if_pos rfl]

/-- The classes that a PFC frame names. -/
def pfcClasses (l : List Octet) : List Nat := [0, 1, 2, 3, 4, 5, 6, 7].filter (fun p => (octet l 17).testBit p)

theorem mem_pfcClasses {l : List Octet} {p : Nat} : p ∈ pfcClasses l ↔ p < 8 ∧ (octet l 17).testBit p = true := by
  have below : p ∈ [0, 1, 2, 3, 4, 5, 6, 7] ↔ p < 8 := by
    simp only [List.mem_cons, List.not_mem_nil, or_false]
    omega
  rw [pfcClasses, List.mem_filter, below]

theorem State.foldl_obey_of_timed {time : Nat → Nat} {l : List Nat} (timed : ∀ p ∈ l, time p ≠ 0) :
    l.foldl (fun s p => s.obey ch (p + 1) (time p)) s = s.holdClasses ch time l := by
  induction l generalizing s with
  | nil => rfl
  | cons p l ih =>
    rw [List.foldl_cons, State.obey_of_time (timed p List.mem_cons_self), ih fun q hq => timed q (List.mem_cons_of_mem _ hq)]
    rfl

/-- A PFC frame that names a class, and none with time 0, holds what it names and counts. -/
theorem State.obeyPfc_of_timed {l : List Octet} (some_named : ∃ p, p ∈ pfcClasses l) (timed : ∀ p ∈ pfcClasses l, be16 l (18 + 2 * p) ≠ 0) :
    s.obeyPfc ch l = (s.holdClasses ch (fun p => be16 l (18 + 2 * p)) (pfcClasses l)).bump (chUnit ch) 0x8031 0 1 := by
  obtain ⟨p, hp⟩ := some_named
  have counts : (pfcClasses l).any (fun p => be16 l (18 + 2 * p) ≠ 0) = true := List.any_eq_true.mpr ⟨p, hp, by simpa using timed p hp⟩
  show (if (pfcClasses l).any _ then State.bump ((pfcClasses l).foldl _ s) (chUnit ch) 0x8031 0 1 else _) = _
  rw [if_pos counts, State.foldl_obey_of_timed (time := fun p => be16 l (18 + 2 * p)) timed]

/-! ### Which frames are obeyed (R213, R214, R218) -/

/-- What a PAUSE that is obeyed does: it counts as an XON or by its time. -/
def State.obeyPause (s : State) (ch : Nat) (l : List Octet) : State :=
  if be16 l 16 = 0 then s.obey ch 0 (be16 l 16) else (s.obey ch 0 (be16 l 16)).bump (chUnit ch) 0x8030 0 1

variable {l : List Octet}

theorem pauseRx_answers (up : s.mainUp = true) (there : s.isChannel ch = true) :
    exec (.pauseRx ch l) s = .next (s.pauseFrame ch l 1 (fun s => s.obeyPause ch l)) := if_pos ⟨up, there⟩

theorem pfcRx_answers (up : s.mainUp = true) (there : s.isChannel ch = true) :
    exec (.pfcRx ch l) s = .next (s.pauseFrame ch l 2 (fun s => s.obeyPfc ch l)) := if_pos ⟨up, there⟩

variable {form : Nat} {act : State → State}

theorem State.pauseFrame_of_holdoff (watched : s.build.hasWatchdog = true) (holdoff : s.rd (chUnit ch) 0x5032 0 = 1) :
    s.pauseFrame ch l form act = s.bump (chUnit ch) 0x8044 0 1 := if_pos ⟨holdoff, watched⟩

variable (free : s.rd (chUnit ch) 0x5032 0 ≠ 1)
include free

theorem State.pauseFrame_of_malformed (malformed : s.wellFormedPause ch l = false) :
    s.pauseFrame ch l form act = s.bump (chUnit ch) 0x8034 0 1 := by
  simp [State.pauseFrame, free, malformed]

theorem State.pauseFrame_of_other (wellFormed : s.wellFormedPause ch l = true) (other : s.rd (chUnit ch) 0x1030 0 ≠ form) :
    s.pauseFrame ch l form act = s.bump (chUnit ch) 0x8035 0 1 := by
  simp [State.pauseFrame, free, wellFormed, other]

theorem State.pauseFrame_of_obeyed (wellFormed : s.wellFormedPause ch l = true) (obeyed : s.rd (chUnit ch) 0x1030 0 = form) :
    s.pauseFrame ch l form act = act s := by
  simp [State.pauseFrame, free, wellFormed, obeyed]

end

/-! ### The two commands (R215) -/

section
variable {ch : Nat} {l : List Octet} {s : State} (up : s.mainUp = true) (there : s.isChannel ch = true)
include up there

theorem pauseRx_of_holdoff (watched : s.build.hasWatchdog = true) (holdoff : s.rd (chUnit ch) 0x5032 0 = 1) :
    exec (.pauseRx ch l) s = .next (s.bump (chUnit ch) 0x8044 0 1) ∧ exec (.pfcRx ch l) s = .next (s.bump (chUnit ch) 0x8044 0 1) := by
  rw [pauseRx_answers up there, pfcRx_answers up there, State.pauseFrame_of_holdoff watched holdoff, State.pauseFrame_of_holdoff watched holdoff]
  exact ⟨rfl, rfl⟩

variable (free : s.rd (chUnit ch) 0x5032 0 ≠ 1)
include free

/-- A frame that is malformed or not of the form that the channel obeys is only counted. -/
theorem pauseRx_unobeyed :
    (s.wellFormedPause ch l = false →
      exec (.pauseRx ch l) s = .next (s.bump (chUnit ch) 0x8034 0 1) ∧ exec (.pfcRx ch l) s = .next (s.bump (chUnit ch) 0x8034 0 1))
    ∧ (s.wellFormedPause ch l = true → s.rd (chUnit ch) 0x1030 0 = 0 →
      exec (.pauseRx ch l) s = .next (s.bump (chUnit ch) 0x8035 0 1) ∧ exec (.pfcRx ch l) s = .next (s.bump (chUnit ch) 0x8035 0 1))
    ∧ (s.wellFormedPause ch l = true → s.rd (chUnit ch) 0x1030 0 = 2 → exec (.pauseRx ch l) s = .next (s.bump (chUnit ch) 0x8035 0 1))
    ∧ (s.wellFormedPause ch l = true → s.rd (chUnit ch) 0x1030 0 = 1 → exec (.pfcRx ch l) s = .next (s.bump (chUnit ch) 0x8035 0 1)) := by
  rw [pauseRx_answers up there, pfcRx_answers up there]
  refine ⟨fun malformed => ?_, fun wellFormed off => ?_, fun wellFormed pfc => ?_, fun wellFormed pause => ?_⟩
  · rw [State.pauseFrame_of_malformed free malformed, State.pauseFrame_of_malformed free malformed]
    exact ⟨rfl, rfl⟩
  · rw [State.pauseFrame_of_other free wellFormed (by omega), State.pauseFrame_of_other free wellFormed (by omega)]
    exact ⟨rfl, rfl⟩
  · rw [State.pauseFrame_of_other free wellFormed (by omega)]
  · rw [State.pauseFrame_of_other free wellFormed (by omega)]

variable (wellFormed : s.wellFormedPause ch l = true)
include wellFormed

theorem pauseRx_holds (obeyed : s.rd (chUnit ch) 0x1030 0 = 1) (timed : be16 l 16 ≠ 0) :
    ∃ t, exec (.pauseRx ch l) s = .next t ∧ t.holdOf ch 0 = pauseTicks (be16 l 16) (s.speed ch) + 1
      ∧ (∀ c h, (c, h) ≠ (ch, 0) → t.holdOf c h = s.holdOf c h) ∧ (∀ c ∈ t.copies, c.ep = ch → c.state ≠ .chosen)
      ∧ t.rd (chUnit ch) 0x8030 0 = (s.rd (chUnit ch) 0x8030 0 + 1) % 2 ^ 64 ∧ t.frames = s.frames := by
  have same := s.setsHolds_timedHold ch 0 (be16 l 16)
  have holds := s.holdOf_timedHold ch 0 (be16 l 16)
  refine ⟨(s.timedHold ch 0 (be16 l 16)).bump (chUnit ch) 0x8030 0 1, ?_, (holds ch 0).trans (if_pos rfl),
    fun c h other => (holds c h).trans (if_neg other), fun c hc => State.unchosen_timedHold hc, ?_, same.frames⟩
  · rw [pauseRx_answers up there, State.pauseFrame_of_obeyed free wellFormed obeyed, State.obeyPause, if_neg timed, State.obey_of_time timed]
  · rw [State.rd_bump_self, same.rd_channel, counterBits_of_high _ (by unfold chUnit; omega)]

theorem pauseRx_idle_xon (obeyed : s.rd (chUnit ch) 0x1030 0 = 1) (xon : be16 l 16 = 0) (unheld : s.holdOf ch 0 = 0) :
    exec (.pauseRx ch l) s = .next (s.bump (chUnit ch) 0x8033 0 1) := by
  rw [pauseRx_answers up there, State.pauseFrame_of_obeyed free wellFormed obeyed]
  simp [State.obeyPause, State.obey, xon, unheld]

theorem pfcRx_holds (obeyed : s.rd (chUnit ch) 0x1030 0 = 2) (named : ∃ p, p < 8 ∧ (octet l 17).testBit p = true)
    (timed : ∀ p, p < 8 → (octet l 17).testBit p = true → be16 l (18 + 2 * p) ≠ 0) :
    ∃ t, exec (.pfcRx ch l) s = .next t
      ∧ (∀ p, p < 8 → (octet l 17).testBit p = true → t.holdOf ch (p + 1) = pauseTicks (be16 l (18 + 2 * p)) (s.speed ch) + 1)
      ∧ (∀ c h, (∀ p, p < 8 → (octet l 17).testBit p = true → (c, h) ≠ (ch, p + 1)) → t.holdOf c h = s.holdOf c h)
      ∧ t.rd (chUnit ch) 0x8031 0 = (s.rd (chUnit ch) 0x8031 0 + 1) % 2 ^ 64 ∧ t.frames = s.frames := by
  have same := s.setsHolds_holdClasses ch (fun p => be16 l (18 + 2 * p)) (pfcClasses l)
  have acts := State.obeyPfc_of_timed (s := s) (ch := ch) (named.imp fun p => mem_pfcClasses.mpr)
    fun p hp => timed p (mem_pfcClasses.mp hp).1 (mem_pfcClasses.mp hp).2
  have answers : exec (.pfcRx ch l) s = .next (s.obeyPfc ch l) := by
    rw [pfcRx_answers up there, State.pauseFrame_of_obeyed free wellFormed obeyed]
  refine ⟨_, answers.trans (congrArg _ acts),
    fun p below bit => State.holdOf_holdClasses_of_named (mem_pfcClasses.mpr ⟨below, bit⟩),
    fun c h unnamed => State.holdOf_holdClasses_of_unnamed fun p hp => unnamed p (mem_pfcClasses.mp hp).1 (mem_pfcClasses.mp hp).2, ?_, same.frames⟩
  rw [State.rd_bump_self, same.rd_channel, counterBits_of_high _ (by unfold chUnit; omega)]

end
end Sys2Proof.Machine
open Sys2Proof Sys2Proof.Machine

/-- Settles O11: a frame that is obeyed sets its holds one by one (`State.timedHold`, `State.holdClasses`), every other is only counted. -/
theorem pauseFramesSetHolds : Obligations.PauseFramesSetHolds :=
  ⟨fun _ _ _ up there wellFormed obeyed free timed => pauseRx_holds up there free wellFormed obeyed timed,
    fun _ _ _ up there wellFormed obeyed free xon unheld => pauseRx_idle_xon up there free wellFormed obeyed xon unheld,
    fun _ _ _ up there free => pauseRx_unobeyed up there free,
    fun _ _ _ up there watched holdoff => pauseRx_of_holdoff up there watched holdoff,
    fun _ _ _ up there wellFormed obeyed free named timed => pfcRx_holds up there free wellFormed obeyed named timed,
    fun _ _ _ up there => if_pos ⟨up, there⟩⟩

end

section
/-! Holds that end, and the watchdog that breaks them (O12). -/
namespace Sys2Proof.Machine

section
variable {s : State} {ch : Nat}

/-! ### Transmission that goes on (R216) -/

/-- A remainder that goes on is one copy in another state. -/
theorem State.resume_fields (s : State) (ep : Nat) : s.resume ep = { s with copies := (s.resume ep).copies } := by
  unfold State.resume
  split
  · rfl
  · split <;> rfl

theorem State.length_copies_resume (s : State) (ep : Nat) : (s.resume ep).copies.length = s.copies.length := by
  unfold State.resume
  split
  · rfl
  · split
    · rfl
    · exact List.length_map _

theorem State.rd_resume (s : State) (ep u i k : Nat) : (s.resume ep).rd u i k = s.rd u i k := by
  rw [State.resume_fields]
  rfl

/-! ### A hold that ends (R215) -/

/-- A hold in force that ends changes its counter, and copies as transmission goes on. -/
theorem State.endHold_fields {hold : Nat} (held : 0 < s.holdOf ch hold) :
    s.endHold ch hold = { s with holds := s.holds.set (ch, hold) 0 0, copies := (s.endHold ch hold).copies } := by
  have ended : s.setHold ch hold 0 = { s with holds := s.holds.set (ch, hold) 0 0 } := by
    rw [State.setHold, if_neg held.ne']
  unfold State.endHold
  rw [State.resume_fields, ended]

theorem State.holdOf_endHold (s : State) (ch hold c h : Nat) :
    (s.endHold ch hold).holdOf c h = if (c, h) = (ch, hold) then 0 else s.holdOf c h := by
  rw [← State.holdOf_setHold]
  exact State.holdOf_congr (by rw [State.endHold, State.resume_fields]) c h

theorem pauseHoldEnd_ends (ch hold : Nat) (s : State) (up : s.mainUp = true) (held : 0 < s.holdOf ch hold) :
    ∃ t, exec (.pauseHoldEnd ch hold) s = .next t ∧ t.holdOf ch hold = 0 ∧ (∀ c h, (c, h) ≠ (ch, hold) → t.holdOf c h = s.holdOf c h)
      ∧ t.obj = s.obj ∧ t.hid = s.hid ∧ t.timers = s.timers ∧ t.frames = s.frames ∧ t.copies.length = s.copies.length := by
  have fields := State.endHold_fields held
  refine ⟨s.endHold ch hold, if_pos ⟨up, held⟩, (s.holdOf_endHold ..).trans (if_pos rfl), fun c h other => (s.holdOf_endHold ..).trans (if_neg other),
    by rw [fields], by rw [fields], by rw [fields], by rw [fields], ?_⟩
  rw [State.endHold, State.length_copies_resume, State.setHold_fields]

/-! ### The watchdog (R217) -/

/-- A map without the keys of a kind reads as its default there, and as before elsewhere. -/
theorem Map.get_filter_key {κ ν : Type} [DecidableEq κ] [DecidableEq ν] (m : Map κ ν) (p : κ → Bool) (x : κ) (d : ν) :
    Map.get (m.filter fun e => p e.1) x d = if p x then m.get x d else d := by
  unfold Map.get
  induction m with
  | nil => simp [Map.find?]
  | cons e m ih =>
    obtain ⟨k, v⟩ := e
    by_cases same : k = x
    · subst same
      cases keep : p k with
      | true => simp [keep, Map.find?]
      | false => simpa [keep] using ih
    · cases keep : p k with
      | true => simpa [keep, Map.find?, same] using ih
      | false => simpa [keep, Map.find?, same] using ih

theorem State.endHolds_fields (s : State) (ch : Nat) :
    s.endHolds ch = { s with holds := s.holds.filter (fun h => h.1.1 ≠ ch), copies := (s.endHolds ch).copies } := by
  unfold State.endHolds
  exact State.resume_fields ..

theorem State.holdOf_endHolds (s : State) (ch c h : Nat) : (s.endHolds ch).holdOf c h = if c = ch then 0 else s.holdOf c h := by
  unfold State.holdOf
  rw [State.endHolds_fields]
  refine (Map.get_filter_key s.holds (fun x => Decidable.decide (x.1 ≠ ch)) (c, h) 0).trans ?_
  by_cases same : c = ch <;> simp [same]

theorem State.rd_endHolds (s : State) (ch u i k : Nat) : (s.endHolds ch).rd u i k = s.rd u i k := by
  rw [State.endHolds_fields]
  rfl

theorem State.timer_endHolds (s : State) (ch : Nat) (x : TimerId) : (s.endHolds ch).timer x = s.timer x := by
  rw [State.endHolds_fields]
  rfl

theorem State.frames_endHolds (s : State) (ch : Nat) : (s.endHolds ch).frames = s.frames := by
  rw [State.endHolds_fields]

/-- The state in which the break of a channel's holds has been counted and latched. -/
def State.breakCounted (s : State) (ch : Nat) : State := (s.bump (chUnit ch) 0x8043 0 1).latch (chUnit ch) 19

theorem State.frames_breakCounted (s : State) (ch : Nat) : (s.breakCounted ch).frames = s.frames := by
  rw [State.breakCounted, State.latch_frames, State.bump_frames]

theorem State.holds_breakCounted (s : State) (ch : Nat) : (s.breakCounted ch).holds = s.holds := by
  rw [State.breakCounted, State.latch_holds, State.bump_holds]

/-- The state in which a channel is in HOLDOFF for its time. -/
def State.heldOff (s : State) (ch n : Nat) : State := (s.wr (chUnit ch) 0x5032 0 1).startTimer (.holdoff ch) n

theorem State.holdOf_heldOff (s : State) (ch n c h : Nat) : (s.heldOff ch n).holdOf c h = s.holdOf c h := rfl

theorem State.rd_heldOff (s : State) (ch n i : Nat) :
    (s.heldOff ch n).rd (chUnit ch) i 0 = if i = 0x5032 then 1 else s.rd (chUnit ch) i 0 := by
  rw [State.heldOff, State.rd_startTimer, State.rd_wr]
  simp

theorem State.timer_heldOff (s : State) (ch n : Nat) : (s.heldOff ch n).timer (.holdoff ch) = some n := by
  rw [State.heldOff, State.timer_startTimer, if_pos rfl]

theorem State.frames_heldOff (s : State) (ch n : Nat) : (s.heldOff ch n).frames = s.frames := rfl

/-- The watchdog counts the break, records it, and ends the holds in HOLDOFF. -/
theorem State.wdBreak_eq (s : State) (ch : Nat) :
    ∃ u, (s.breakCounted ch).ButEvents u ∧ s.wdBreak ch = (u.heldOff ch (s.rd (chUnit ch) 0x1036 0 * 6250)).endHolds ch :=
  ⟨_, (State.ButEvents.raise ..).trans (.record ..), rfl⟩

theorem State.rd_breakCounted_count (s : State) (ch : Nat) :
    (s.breakCounted ch).rd (chUnit ch) 0x8043 0 = (s.rd (chUnit ch) 0x8043 0 + 1) % 2 ^ 64 := by
  rw [State.breakCounted, State.rd_latch, if_neg (by omega), State.rd_bump_self, counterBits_of_high _ (by unfold chUnit; omega)]

theorem State.rd_breakCounted_alarms (s : State) (ch : Nat) :
    (s.breakCounted ch).rd (chUnit ch) 0x0005 0 = setBit (s.rd (chUnit ch) 0x0005 0) 19 true := by
  rw [State.breakCounted, State.rd_latch, if_pos ⟨rfl, rfl, rfl⟩, State.rd_bump, if_neg (by omega)]

theorem State.of_wdArmed (armed : s.wdArmed ch = true) : s.build.hasWatchdog = true ∧ s.isChannel ch = true := by
  simp only [State.wdArmed, Bool.and_eq_true] at armed
  exact armed.1.1

theorem pauseWdBreak_breaks (ch : Nat) (s : State) (up : s.mainUp = true) (armed : s.wdArmed ch = true) :
    ∃ t, exec (.pauseWdBreak ch) s = .next t ∧ (∀ h, t.holdOf ch h = 0) ∧ (∀ c h, c ≠ ch → t.holdOf c h = s.holdOf c h)
      ∧ t.rd (chUnit ch) 0x8043 0 = (s.rd (chUnit ch) 0x8043 0 + 1) % 2 ^ 64 ∧ t.rd (chUnit ch) 0x5032 0 = 1
      ∧ t.timer (.holdoff ch) = some (s.rd (chUnit ch) 0x1036 0 * 6250)
      ∧ t.rd (chUnit ch) 0x0005 0 = setBit (s.rd (chUnit ch) 0x0005 0) 19 true ∧ t.frames = s.frames := by
  obtain ⟨u, events, breaks⟩ := s.wdBreak_eq ch
  have small := State.lt_of_isChannel (State.of_wdArmed armed).2
  have objs (i : Nat) : (s.wdBreak ch).rd (chUnit ch) i 0 = if i = 0x5032 then 1 else (s.breakCounted ch).rd (chUnit ch) i 0 := by
    rw [breaks, State.rd_endHolds, State.rd_heldOff, events.rd_channel small]
  have holds : u.holds = s.holds := by rw [events.fields, State.holds_breakCounted]
  refine ⟨s.wdBreak ch, if_pos ⟨up, armed⟩, fun h => ?_, fun c h other => ?_, ?_, ?_, ?_, ?_, ?_⟩
  · rw [breaks, State.holdOf_endHolds, if_pos rfl]
  · rw [breaks, State.holdOf_endHolds, if_neg other]
    exact (u.holdOf_heldOff ..).trans (State.holdOf_congr holds c h)
  · rw [objs, if_neg (by decide), State.rd_breakCounted_count]
  · rw [objs, if_pos rfl]
  · rw [breaks, State.timer_endHolds, State.timer_heldOff]
  · rw [objs, if_neg (by decide), State.rd_breakCounted_alarms]
  · rw [breaks, State.frames_endHolds, State.frames_heldOff, events.frames, State.frames_breakCounted]

end
end Sys2Proof.Machine
open Sys2Proof Sys2Proof.Machine

/-- Settles O12: a hold that ends, and all of a channel that are broken, change the holds they name (`State.endHold_fields`,
`State.endHolds_fields`) beside copies that go on; HOLDOFF ends behind a wake. -/
theorem holdsEndAndBreak : Obligations.HoldsEndAndBreak :=
  ⟨pauseHoldEnd_ends, pauseWdBreak_breaks, fun _ _ up watched holdoff => if_pos ⟨up, watched, holdoff⟩⟩

end

section
/-! The verification of preemption (O14): the mPackets on a wire that is free, and what follows the answer and the timer. -/
namespace Sys2Proof.Machine

/-! ### The start octets of a unit (R87, R196) -/

section
variable {s : State} {ch : Nat}

theorem toMsb_one (v : Nat) : toMsb 1 v = [BitVec.ofNat 8 v] := rfl

theorem State.startWith_of_plain (plain : s.quartered ch = false) (smd : Nat) :
    s.startWith ch smd = List.replicate 7 0x55 ++ [BitVec.ofNat 8 smd] := by
  rw [State.startWith, if_neg (by simp [plain]), toMsb_one]

theorem State.startWith_of_quartered (quartered : s.quartered ch = true) (smd : Nat) :
    s.startWith ch smd = [0x55, 0x55, 0x55] ++ toMsb 1 (0xD0 + (ch % 4 * 4 + s.regN (.quarterSeqTx ch) % 4))
      ++ toMsb 1 (0x50 + checkNibble (ch % 4 * 4 + s.regN (.quarterSeqTx ch) % 4)) ++ [0x55, 0x55, BitVec.ofNat 8 smd] := by
  rw [State.startWith, if_pos quartered]
  simp [toMsb_one]

theorem State.length_startWith (s : State) (ch smd : Nat) : (s.startWith ch smd).length = 8 := by
  unfold State.startWith
  split <;> simp [toMsb_one]

/-- The eighth of them tells what the unit is. -/
theorem State.octet_startWith (s : State) (ch smd : Nat) (l : List Octet) : octet (s.startWith ch smd ++ l) 7 = smd % 256 := by
  unfold State.startWith
  split <;> simp [toMsb_one, octet]

/-! ### A verify or respond mPacket (R203) -/

/-- What stands behind the start octets of a verify or respond mPacket (log entry 5). -/
def mPacketBody : List Octet := List.replicate 60 0 ++ toLsb 4 (crc crc32 (List.replicate 60 0) ^^^ 0x0000FFFF)

theorem State.putMPacket_fields (s : State) (ch smd : Nat) :
    s.putMPacket ch smd = { s with hid := (s.chargeQuarter ch 64).hid, txOut := s.txOut.set ch (s.startWith ch smd ++ mPacketBody) [] } := by
  unfold State.putMPacket mPacketBody
  dsimp only
  rw [List.append_assoc]
  unfold State.chargeQuarter
  split <;> rfl

/-- The credit of a quartered lane that an mPacket leaves (R89). -/
theorem State.reg_chargeQuarter_of_quartered (quartered : s.quartered ch = true) (l : Nat) :
    (s.chargeQuarter ch l).reg (.quarterCredit ch) = s.reg (.quarterCredit ch) - (l + 20) := by
  rw [State.chargeQuarter, if_pos quartered, State.reg_setReg, if_neg (by simp), State.reg_setReg_self]

theorem State.reg_chargeQuarter_of_other (s : State) (ch l : Nat) {h : Hid} (credit : h ≠ .quarterCredit ch) (turn : h ≠ .quarterTurn (laneOf ch)) :
    (s.chargeQuarter ch l).reg h = s.reg h := by
  unfold State.chargeQuarter
  split
  · rw [State.reg_setReg, if_neg turn, State.reg_setReg, if_neg credit]
  · rfl

theorem State.find?_txOut_putMPacket (s : State) (ch smd : Nat) :
    (s.putMPacket ch smd).txOut.find? ch = some (s.startWith ch smd ++ mPacketBody) := by
  rw [State.putMPacket_fields]
  refine Map.find?_set_self _ _ fun empty => ?_
  have := congrArg List.length empty
  simp [State.length_startWith] at this

theorem State.sendMPacket_of_free (free : s.mayPacket ch = true) (smd : Nat) : s.sendMPacket ch smd = s.putMPacket ch smd := if_pos free

theorem State.chUp_of_mayPacket (free : s.mayPacket ch = true) : s.chUp ch = true := by
  simp only [State.mayPacket, Bool.and_eq_true] at free
  exact free.1.1

theorem verifyRx_responds (up : s.mainUp = true) (merge : s.mergeOn ch = true) (chUp : s.chUp ch = true) :
    exec (.verifyRx ch) s = .next (s.sendMPacket ch 0x19) := if_pos ⟨up, chUp, merge⟩

theorem verifyRx_plain (up : s.mainUp = true) (merge : s.mergeOn ch = true) (free : s.mayPacket ch = true) (plain : s.quartered ch = false) :
    exec (.verifyRx ch) s = .next { s with
      txOut := s.txOut.set ch (List.replicate 7 0x55 ++ [0x19] ++ List.replicate 60 0
        ++ toLsb 4 (crc crc32 (List.replicate 60 0) ^^^ 0x0000FFFF)) [] } := by
  rw [verifyRx_responds up merge (State.chUp_of_mayPacket free), State.sendMPacket_of_free free, State.putMPacket_fields,
    State.startWith_of_plain plain, State.chargeQuarter, if_neg (by simp [plain]), mPacketBody, ← List.append_assoc]
  rfl

theorem verifyRx_quartered (up : s.mainUp = true) (merge : s.mergeOn ch = true) (free : s.mayPacket ch = true)
    (quartered : s.quartered ch = true) :
    ∃ t, exec (.verifyRx ch) s = .next t
      ∧ (t.txOut.find? ch).map (fun l => l.take 8) = some ([0x55, 0x55, 0x55]
          ++ toMsb 1 (0xD0 + (ch % 4 * 4 + s.regN (.quarterSeqTx ch) % 4))
          ++ toMsb 1 (0x50 + checkNibble (ch % 4 * 4 + s.regN (.quarterSeqTx ch) % 4)) ++ [0x55, 0x55, 0x19])
      ∧ t.reg (.quarterCredit ch) = s.reg (.quarterCredit ch) - 84 ∧ t.reg (.quarterSeqTx ch) = s.reg (.quarterSeqTx ch) ∧ t.obj = s.obj
      ∧ t.copies = s.copies := by
  have fields := s.putMPacket_fields ch 0x19
  have regs (h : Hid) : (s.putMPacket ch 0x19).reg h = (s.chargeQuarter ch 64).reg h := by
    rw [fields]
    rfl
  refine ⟨s.putMPacket ch 0x19, ?_, ?_, ?_, ?_, by rw [fields], by rw [fields]⟩
  · rw [verifyRx_responds up merge (State.chUp_of_mayPacket free), State.sendMPacket_of_free free]
  · rw [State.find?_txOut_putMPacket, Option.map_some, List.take_left' (State.length_startWith ..), State.startWith_of_quartered quartered]
    rfl
  · rw [regs, State.reg_chargeQuarter_of_quartered quartered]
    rfl
  · rw [regs, State.reg_chargeQuarter_of_other _ _ _ (by simp) (by simp)]

/-! ### The status of preemption (R203) -/

theorem State.setPreempt_butEvents {v : Nat} (change : s.rd (chUnit ch) 0x5030 0 ≠ v) :
    (s.wr (chUnit ch) 0x5030 0 v).ButEvents (s.setPreempt ch v) := by
  unfold State.setPreempt
  dsimp only
  rw [if_neg change]
  exact .record ..

theorem respondRx_verifies (up : s.mainUp = true) (chUp : s.chUp ch = true) (merge : s.mergeOn ch = true)
    (verifying : s.rd (chUnit ch) 0x5030 0 = 1) :
    ∃ t, exec (.respondRx ch) s = .next t ∧ ((s.stopTimer (.verify ch)).wr (chUnit ch) 0x5030 0 2).ButEvents t :=
  ⟨_, if_pos ⟨up, chUp, merge, verifying⟩, State.setPreempt_butEvents (s := s.stopTimer (.verify ch)) (by simp [verifying])⟩

end

/-! ### What a wake leaves as it is on a wire -/

namespace State.ButCounts
variable {s t : State} (woken : s.ButCounts (fun u i => u = 0x001 ∧ i = 0x5000) t)
include woken

theorem rd_beside_mode {u : Nat} (other : u ≠ 0x001) (i k : Nat) : t.rd u i k = s.rd u i k := woken.objs u i k fun e => other e.1

theorem quarterRegs (ch : Nat) : t.reg (.quarterCredit ch) = s.reg (.quarterCredit ch)
    ∧ t.regN (.quarterTurn ch) = s.regN (.quarterTurn ch) := ⟨woken.regs _ (by simp), woken.regN (by simp)⟩

theorem heldClass (ch cls : Nat) : t.heldClass ch cls = s.heldClass ch cls := by
  unfold State.heldClass State.holdOf
  rw [woken.fields]

theorem genReady (ch : Nat) : t.genReady ch = s.genReady ch := by
  unfold State.genReady
  rw [woken.genQ, woken.heldClass]

theorem quiet (ch level : Nat) : t.quiet ch level = s.quiet ch level := by
  have lanes : t.quietLane (laneOf ch) = s.quietLane (laneOf ch) := by
    unfold State.quietLane State.coexQuiet
    simp only [woken.rd_beside_mode (u := 0x00F) (by decide), woken.regN (x := .coexMask _) (by simp)]
  unfold State.quiet
  rw [woken.isChannel, lanes, woken.fabricRole (wakeObject_sparesChannel ch), woken.rd_beside_mode (by decide)]

theorem startOpen (ch level : Nat) (c : Copy) : t.startOpen ch level c = s.startOpen ch level c := by
  have gate : t.gateOpen ch c.cls t.time = s.gateOpen ch c.cls s.time := by
    unfold State.gateOpen
    rw [woken.fields]
  unfold State.startOpen
  rw [woken.genReady, woken.fabricRole (wakeObject_sparesChannel ch), woken.rd_beside_mode (by decide), woken.heldClass, woken.quiet, gate, woken.copies]

theorem frameReady (ch : Nat) : t.frameReady ch = s.frameReady ch := by
  unfold State.frameReady
  simp only [woken.genReady, woken.quiet, woken.fabricRole (wakeObject_sparesChannel ch), woken.copies, woken.startOpen]

theorem wireFree (ch : Nat) : t.wireFree ch = s.wireFree ch := by
  have busy : t.laneBusy ch = s.laneBusy ch := by
    unfold State.laneBusy
    simp only [woken.copies, woken.isChannel]
  have turn : t.quarterTurnOf ch = s.quarterTurnOf ch := by
    unfold State.quarterTurnOf
    simp only [woken.quarterRegs, woken.frameReady]
  unfold State.wireFree
  rw [busy, turn, woken.quartered (wakeObject_sparesChannel ch)]

theorem mayPacket (ch : Nat) : t.mayPacket ch = s.mayPacket ch := by
  unfold State.mayPacket
  rw [woken.chUp (wakeObject_sparesChannel ch), woken.wireFree, woken.quiet]

end State.ButCounts

/-! ### The timer of the verification (R203) -/

namespace State.ButEvents
variable {s t : State}

theorem stopTimer_congr (h : s.ButEvents t) (x : TimerId) : (s.stopTimer x).ButEvents (t.stopTimer x) where
  fields := congrArg (fun z : State => { z with timers := (t.stopTimer x).timers }) h.fields
  objs := h.objs
  ents := h.ents
  regs := h.regs
  timer y other := by rw [State.timer_stopTimer, State.timer_stopTimer, h.timer y other]

/-- No event changes an object of a unit above those of the device. -/
theorem rd_above (h : s.ButEvents t) {u : Nat} (above : 0x100 ≤ u) (i k : Nat) : t.rd u i k = s.rd u i k := by
  have unit : u ≠ 0x004 ∧ u ≠ 0x005 ∧ u ≠ 0x001 := by omega
  exact h.objs _ i k (by simp [eventObj, unit]) fun e => unit.2.2 e.1

theorem bump_congr (h : s.ButEvents t) {u : Nat} (above : 0x100 ≤ u) (i k n : Nat) : (s.bump u i k n).ButEvents (t.bump u i k n) := by
  unfold State.bump
  rw [h.rd_above above]
  exact h.wr_congr ..

theorem latch_congr (h : s.ButEvents t) {u : Nat} (above : 0x100 ≤ u) (b : Nat) : (s.latch u b).ButEvents (t.latch u b) := by
  unfold State.latch
  rw [h.rd_above above]
  exact h.wr_congr ..

end State.ButEvents

section
variable {s : State} {ch : Nat}

theorem verifyTimeExpire_answers (up : s.mainUp = true) (running : (s.timer (.verify ch)).isSome) :
    exec (.verifyTimeExpire ch) s = .next (s.wake.verifyExpire ch) := if_pos ⟨up, running⟩

/-- A wake touches no object of a channel and no register of its verification. -/
theorem State.wake_verify (s : State) (ch : Nat) : (∀ i, s.wake.rd (chUnit ch) i 0 = s.rd (chUnit ch) i 0)
    ∧ s.wake.reg (.verifyCount ch) = s.reg (.verifyCount ch) ∧ s.wake.regN (.verifyCount ch) = s.regN (.verifyCount ch) := by
  have woken := State.ButCounts.wake s
  exact ⟨fun i => woken.rd_beside_mode (by unfold chUnit; omega) i 0, woken.regs _ (by simp), woken.regN (by simp)⟩

theorem verifyTimeExpire_tries (up : s.mainUp = true) (running : (s.timer (.verify ch)).isSome) (verifying : s.rd (chUnit ch) 0x5030 0 = 1)
    (few : s.regN (.verifyCount ch) < 3) (free : s.mayPacket ch = true) :
    ∃ t, exec (.verifyTimeExpire ch) s = .next t ∧ t.reg (.verifyCount ch) = s.reg (.verifyCount ch) + 1
      ∧ t.timer (.verify ch) = some (s.rd (chUnit ch) 0x1033 0 * 6250) ∧ t.obj = s.wake.obj ∧ t.copies = s.copies
      ∧ (t.txOut.find? ch).map (fun l => octet l 7) = some 0x07 := by
  obtain ⟨objs, count, countN⟩ := s.wake_verify ch
  have woken := State.ButCounts.wake s
  have fields := s.wake.putMPacket_fields ch 0x07
  have tries : s.wake.verifyExpire ch = ((s.wake.putMPacket ch 0x07).setReg (.verifyCount ch) (s.reg (.verifyCount ch) + 1)).startTimer (.verify ch)
      (s.rd (chUnit ch) 0x1033 0 * 6250) := by
    rw [State.verifyExpire, if_neg (by simp [objs, verifying]), if_pos (by rwa [countN]), State.sendVerify,
      State.sendMPacket_of_free ((woken.mayPacket ch).trans free), count, objs]
  refine ⟨_, (verifyTimeExpire_answers up running).trans (congrArg _ tries), ?_, ?_, ?_, ?_, ?_⟩
  · rw [State.reg_startTimer, State.reg_setReg_self]
  · rw [State.timer_startTimer, if_pos rfl]
  · rw [State.startTimer_obj, State.setReg_obj, fields]
  · rw [State.startTimer_copies, State.setReg_copies, fields]
    exact woken.copies
  · rw [State.startTimer_txOut, State.setReg_txOut, State.find?_txOut_putMPacket, Option.map_some, State.octet_startWith]

theorem verifyTimeExpire_fails (up : s.mainUp = true) (running : (s.timer (.verify ch)).isSome) (verifying : s.rd (chUnit ch) 0x5030 0 = 1)
    (tried : 3 ≤ s.regN (.verifyCount ch)) :
    ∃ t, exec (.verifyTimeExpire ch) s = .next t
      ∧ ((((s.stopTimer (.verify ch)).bump (chUnit ch) 0x803D 0 1).latch (chUnit ch) 18).wr (chUnit ch) 0x5030 0 3).ButEvents t := by
  obtain ⟨objs, -, countN⟩ := s.wake_verify ch
  have above : 0x100 ≤ chUnit ch := by
    unfold chUnit
    omega
  have counted := (((State.ButEvents.wake s).stopTimer_congr (.verify ch)).bump_congr above 0x803D 0 1).latch_congr above 18
  have status : (((s.wake.stopTimer (.verify ch)).bump (chUnit ch) 0x803D 0 1).latch (chUnit ch) 18).rd (chUnit ch) 0x5030 0 = 1 := by
    rw [State.rd_latch, if_neg (by omega), State.rd_bump, if_neg (by omega), State.rd_stopTimer, objs, verifying]
  have fails : s.wake.verifyExpire ch
      = (((s.wake.stopTimer (.verify ch)).bump (chUnit ch) 0x803D 0 1).latch (chUnit ch) 18).setPreempt ch 3 := by
    rw [State.verifyExpire, if_neg (by simp [objs, verifying]), if_neg (by omega)]
  exact ⟨_, (verifyTimeExpire_answers up running).trans (congrArg _ fails),
    (counted.wr_congr ..).trans (State.setPreempt_butEvents (by rw [status]; decide))⟩

theorem verifyTimeExpire_stands (up : s.mainUp = true) (running : (s.timer (.verify ch)).isSome) (idle : s.rd (chUnit ch) 0x5030 0 ≠ 1) :
    exec (.verifyTimeExpire ch) s = .next (s.wake.stopTimer (.verify ch)) := by
  rw [verifyTimeExpire_answers up running, State.verifyExpire, if_pos (by rwa [(s.wake_verify ch).1])]

end
end Sys2Proof.Machine
open Sys2Proof Sys2Proof.Machine

/-- Settles O14: an mPacket on a free wire (`State.putMPacket_fields`), the status that changes beside events, and the timer behind a wake, which
leaves the wire as it is. -/
theorem preemptVerifyRuns : Obligations.PreemptVerifyRuns :=
  ⟨fun _ _ => verifyRx_plain, fun _ _ => verifyRx_quartered,
    fun _ _ up chUp merge busy => (verifyRx_responds up merge chUp).trans (congrArg _ (if_neg (by simp [busy]))),
    fun _ _ => respondRx_verifies, fun _ _ => verifyTimeExpire_tries, fun _ _ => verifyTimeExpire_fails, fun _ _ => verifyTimeExpire_stands⟩

end

section
/-! What stays of the octets that have been sent, of the transmit frame counters and of AL_TX_ERR behind the end of a copy: while its frame settles,
while other channels send mPackets, and while the host port goes on (O22). -/
namespace Sys2Proof.Machine

/-- The registers that hold AL_TX_ERR of the last frame of an air link (R252). -/
def Hid.isTxErr : Hid → Bool
  | .alTxErr _ => true
  | _ => false

/-- `t` shows of what endpoint `ep` has sent what `s` shows: its last unit, the frames counted, AL_TX_ERR; and no mPacket has come to wait for it. -/
structure State.SameSent (ep : Nat) (s t : State) : Prop where
  unit    : t.txOut.get ep [] = s.txOut.get ep []
  packets : ∀ smd, GenFrame.mPacket ep smd ∈ t.genQ → GenFrame.mPacket ep smd ∈ s.genQ
  counts  : ∀ u k, 0x500 ≤ u → t.rd u 0x8010 k = s.rd u 0x8010 k
  errors  : ∀ h : Hid, h.isTxErr = true → t.reg h = s.reg h

namespace State.SameSent
variable {ep : Nat} {r s t : State}

theorem refl (s : State) : SameSent ep s s := ⟨rfl, fun _ => id, fun _ _ _ => rfl, fun _ _ => rfl⟩

theorem trans (h : SameSent ep r s) (k : SameSent ep s t) : SameSent ep r t where
  unit := k.unit.trans h.unit
  packets smd waits := h.packets smd (k.packets smd waits)
  counts u j above := (k.counts u j above).trans (h.counts u j above)
  errors x hx := (k.errors x hx).trans (h.errors x hx)

theorem ite {q : Prop} [Decidable q] (h : SameSent ep r s) (k : SameSent ep r t) : SameSent ep r (if q then s else t) := by
  split <;> assumption

theorem foldl_of_mem {α : Type} {f : State → α → State} {l : List α} (hf : ∀ (u : State), ∀ x ∈ l, SameSent ep u (f u x)) (s : State) :
    SameSent ep s (l.foldl f s) := by
  induction l generalizing s with
  | nil => exact refl s
  | cons x l ih => exact (hf s x List.mem_cons_self).trans (ih (fun u y hy => hf u y (List.mem_cons_of_mem _ hy)) _)

theorem foldl {α : Type} {f : State → α → State} (hf : ∀ (u : State) x, SameSent ep u (f u x)) (l : List α) (s : State) :
    SameSent ep s (l.foldl f s) := foldl_of_mem (fun u x _ => hf u x) s

theorem wr (s : State) {u i k v : Nat} (hi : i ≠ 0x8010) : SameSent ep s (s.wr u i k v) :=
  ⟨rfl, fun _ => id, fun _ _ _ => State.rd_wr_ne s v (fun e => hi e.2.1.symm), fun _ _ => rfl⟩

theorem bump (s : State) {u i k n : Nat} (hi : i ≠ 0x8010) : SameSent ep s (s.bump u i k n) := wr s hi

theorem latch (s : State) (u b : Nat) : SameSent ep s (s.latch u b) := wr s (by decide)

theorem setReg (s : State) {h : Hid} {v : Int} (hh : h.isTxErr = false) : SameSent ep s (s.setReg h v) where
  unit := rfl
  packets _ := id
  counts _ _ _ := rfl
  errors x hx := (State.reg_setReg ..).trans (if_neg fun e => by simp [← e, hx] at hh)

theorem events (h : s.ButEvents t) : SameSent ep s t where
  unit := by rw [h.fields]
  packets smd waits := by rwa [h.fields] at waits
  counts u k above := h.rd_above (by omega) _ k
  errors x hx := h.regs x (by cases x with | alTxErr => rfl | _ => cases hx)

/-- A change of entries, frames, copies and their queues, timers, and the work of the host port. -/
theorem other (s : State) {tab : Map EntAddr Nat} {timers : Map TimerId Nat} {frames : List Frame} {copies : List Copy} {keyQ decQ appQ : List Nat}
    {rxNow : Map Nat Nat} {scans : Map Nat Nat} {ahead : List AheadEntry} {mpOps : List MpOp} {cqStaged : List (Nat × CqEntry)}
    {bqBuffers : List BqBuffer} {free : Nat} :
    SameSent ep s { s with
      tab := tab, timers := timers, frames := frames, copies := copies, keyQ := keyQ, decQ := decQ, appQ := appQ, rxNow := rxNow
      scans := scans, ahead := ahead, mpOps := mpOps, cqStaged := cqStaged, bqBuffers := bqBuffers, free := free } :=
  ⟨rfl, fun _ => id, fun _ _ _ => rfl, fun _ _ => rfl⟩

theorem resume (s : State) (c : Nat) : SameSent ep s (s.resume c) := by
  rw [State.resume_fields]
  exact other s

/-! ### Counters -/

theorem bump_congr (h : SameSent ep s t) {u : Nat} (above : 0x500 ≤ u) (n : Nat) : SameSent ep (s.bump u 0x8010 0 n) (t.bump u 0x8010 0 n) where
  unit := h.unit
  packets := h.packets
  counts x k hx := by rw [State.rd_bump, State.rd_bump, h.counts u 0 above, h.counts x k hx]
  errors := h.errors

/-- What a statistics counter does beside its count (R379). -/
theorem stat_of_bump (s : State) (u i k n : Nat) : SameSent ep (s.bump u i k n) (s.stat u i k n) :=
  .ite (refl _) ((wr _ (by decide)).trans (latch _ _ _))

theorem stat (s : State) {u i k n : Nat} (hi : i ≠ 0x8010) : SameSent ep s (s.stat u i k n) := (bump s hi).trans (stat_of_bump s u i k n)

/-- What a frame that has been sent counts in its block beside itself (R376). -/
theorem statAir (s : State) (u len : Nat) : SameSent ep (s.bump u 0x8010 0 1) (s.statAir u 0x8010 len) :=
  (stat_of_bump s u 0x8010 0 1).trans ((stat _ (by decide)).trans (stat _ (by decide)))

theorem statFrame (s : State) (u len ty : Nat) (tagged : Bool) : SameSent ep (s.bump u 0x8010 0 1) (s.statFrame u 0x8010 len ty tagged) := by
  have typed := (statAir (ep := ep) s u len).trans (stat _ (u := u) (i := 0x8010 + 3 + ty) (k := 0) (n := 1) (by omega))
  exact .ite (typed.trans (stat _ (by decide))) typed

theorem countQueue (s : State) (q : QueueRef) (i n : Nat) : SameSent ep s (s.countQueue q i n) := by
  unfold State.countQueue
  split
  · exact other s
  · exact refl s

theorem oweCount (s : State) (id : Nat) {u i k n : Nat} (hi : i ≠ 0x8010) : SameSent ep s (s.owe id [.count u i k n]) := by
  unfold State.owe
  split
  · exact ite (bump s hi) (other s)
  · exact bump s hi

/-! ### A frame that settles (R40, R151) -/

theorem queuePause (s : State) (ch : Nat) : SameSent ep s (s.queuePause ch) :=
  ite (refl s) ⟨rfl, fun smd waits => by simpa using waits, fun _ _ _ => rfl, fun _ _ => rfl⟩

theorem armRefresh (s : State) (ch k : Nat) : SameSent ep s (s.armRefresh ch k) := ite (other s) (refl s)

theorem checkXoff (s : State) (ch k : Nat) : SameSent ep s (s.checkXoff ch k) := by
  unfold State.checkXoff
  extract_lets occ x s1
  have left : SameSent ep s s1 := (wr s (by decide)).trans (other _)
  have entered : SameSent ep s (((s.wr (chUnit ch) 0x5012 0 (setBit x (accountBit k) true)).setReg (.pauseDue ch k) 1).queuePause ch) :=
    (wr s (by decide)).trans ((setReg _ rfl).trans (queuePause _ _))
  exact .ite (refl s) (.ite (entered.trans (armRefresh _ _ _))
    (.ite (.ite (left.trans ((setReg _ rfl).trans (queuePause _ _))) (left.trans (setReg _ rfl))) (refl s)))

theorem charged (s : State) (f : Frame) : SameSent ep s (s.charged f) := by
  unfold State.charged
  split
  · exact ite ((wr s (by decide)).trans (checkXoff _ _ _)) (refl s)
  · exact refl s

theorem drainCheck (s : State) : SameSent ep s s.drainCheck := ite ((wr s (by decide)).trans (events (.raise _ _))) (refl s)

theorem templateCheck (s : State) (t : Nat) : SameSent ep s (s.templateCheck t) := ite (other s) (refl s)

theorem releaseFrame (s : State) (id : Nat) : SameSent ep s (s.releaseFrame id) := by
  unfold State.releaseFrame
  split
  · exact refl s
  · refine .trans ?_ ((charged _ _).trans (drainCheck _))
    split
    · exact (other s).trans (templateCheck _ _)
    · exact other s

theorem mpIssue (s : State) (w : Bool) (a : Nat) (o : List Octet) (x : MpPurpose) : SameSent ep s (s.mpIssue w a o x) :=
  (setReg s rfl).trans (other _)

theorem cqReady (s : State) (cq : Nat) (e : CqEntry) : SameSent ep s (s.cqReady cq e) :=
  (setReg s rfl).trans (ite ((mpIssue _ _ _ _ _).trans (wr _ (by decide))) (other _))

theorem tsCheck (s : State) (f : Frame) : SameSent ep s (s.tsCheck f) := by
  unfold State.tsCheck
  split
  · exact ite ((other s).trans (cqReady _ _ _)) (refl s)
  · exact refl s

theorem leaveFlight (s : State) (id : Nat) : SameSent ep s (s.leaveFlight id) := (other s).trans (drainCheck _)

theorem settle (s : State) (id : Nat) : SameSent ep s (s.settle id) := by
  unfold State.settle
  split
  · exact refl s
  · refine ite (ite (leaveFlight s id) (refl s)) ?_
    dsimp only
    exact ite ((tsCheck s _).trans (releaseFrame _ _)) (ite ((tsCheck s _).trans (leaveFlight _ _)) (tsCheck s _))

/-! ### Cells that are read (R154, R158) -/

theorem bufferEcc (s : State) : SameSent ep s s.bufferEcc :=
  (other s).trans ((bump _ (by decide)).trans ((latch _ _ _).trans (events (.record _ _ _ _ _))))

theorem templateBad (s : State) (t : Nat) : SameSent ep s (s.templateBad t) :=
  (bufferEcc s).trans ((other _).trans ((other _).trans (templateCheck _ _)))

theorem readCells (s : State) (f : Frame) (x : CellRead) : SameSent ep s (s.readCells f x).2 := by
  unfold State.readCells
  extract_lets s1 s2
  have read : SameSent ep s s2 := .trans (ite (refl s) (bump s (by decide))) (ite ((bufferEcc s1).trans (other _)) (refl s1))
  split
  · split
    · exact read.trans (templateBad _ _)
    · exact read
  · exact read

/-! ### The host port -/

theorem discardAhead (s : State) (p : Nat → Bool) : SameSent ep s (s.discardAhead p) :=
  ite (refl s) ((other s).trans ((other _).trans ((foldl (fun u _ => wr u (by decide)) _ _).trans (bump _ (by decide)))))

theorem tqFault (s : State) (q x c : Nat) (hc : c ≠ 0x8010) : SameSent ep s (s.producerFault .tq q x c) :=
  (discardAhead s _).trans ((other _).trans ((other _).trans ((bump _ hc).trans ((wr _ (by decide)).trans
    ((events (.raise _ _)).trans (events (.record _ _ _ _ _)))))))

theorem txErrors (k : Nat) (s : State) (q : Nat) : SameSent ep s (State.txErrors k s q) := by
  induction k generalizing s with
  | zero => exact refl s
  | succ k ih =>
    unfold State.txErrors
    split
    · exact refl s
    · split
      · exact refl s
      · exact ite (refl s) (ite (tqFault s _ _ _ (by decide)) (ite (tqFault s _ _ _ (by decide))
          (ite ((other s).trans ((setReg _ rfl).trans ((cqReady _ _ _).trans ((wr _ (by decide)).trans (ih _))))) (refl s))))

theorem rxErrors (k : Nat) (s : State) (b : Nat) : SameSent ep s (State.rxErrors k s b) := by
  induction k generalizing s with
  | zero => exact refl s
  | succ k ih =>
    unfold State.rxErrors
    dsimp only
    split
    · exact refl s
    · exact ite ((other s).trans ((setReg _ rfl).trans ((cqReady _ _ _).trans (ih _)))) (refl s)

theorem fetchTq (k : Nat) (s : State) (q : Nat) : SameSent ep s (State.fetchTq k s q) := by
  induction k generalizing s with
  | zero => exact refl s
  | succ k ih => exact ite ((setReg s rfl).trans ((mpIssue _ _ _ _ _).trans ((wr _ (by decide)).trans (ih _)))) (refl s)

theorem fetchBq (k : Nat) (s : State) (b : Nat) : SameSent ep s (State.fetchBq k s b) := by
  induction k generalizing s with
  | zero => exact refl s
  | succ k ih => exact ite ((mpIssue s _ _ _ _).trans ((wr _ (by decide)).trans (ih _))) (refl s)

theorem pumpPayload (s : State) : SameSent ep s s.pumpPayload :=
  foldl (fun u _ => ite (refl u) ((other u).trans (foldl (fun v _ => mpIssue v _ _ _ _) _ _))) _ s

theorem pump (s : State) : SameSent ep s s.pump :=
  ite (refl s) ((foldl (fun u _ => (txErrors _ u _).trans (fetchTq _ _ _)) _ s).trans
    ((foldl (fun u _ => (rxErrors _ u _).trans (fetchBq _ _ _)) _ _).trans
      ((pumpPayload _).trans (foldl (fun u _ => ite (mpIssue u _ _ _ _) (refl u)) _ _))))

/-! ### mPackets of other channels (R203) -/

theorem putMPacket (s : State) {ch : Nat} (another : ep ≠ ch) (smd : Nat) : SameSent ep s (s.putMPacket ch smd) := by
  have charged : SameSent ep s (s.chargeQuarter ch 64) := ite ((setReg s rfl).trans (setReg _ rfl)) (refl s)
  rw [State.putMPacket_fields]
  exact ⟨Map.get_set_ne _ another _ _ _, fun _ => id, fun _ _ _ => rfl, charged.errors⟩

theorem mPackets (unawaited : ∀ smd, GenFrame.mPacket ep smd ∉ s.genQ) : SameSent ep s s.mPackets := by
  refine foldl_of_mem (fun u g hg => ?_) s
  split
  next ch smd =>
    have another : ep ≠ ch := fun e => unawaited smd (e ▸ hg)
    have taken : SameSent ep u { u with genQ := u.genQ.erase (.mPacket ch smd) } :=
      ⟨rfl, fun _ => List.mem_of_mem_erase, fun _ _ _ => rfl, fun _ _ => rfl⟩
    exact ite (taken.trans (putMPacket _ another smd)) (refl u)
  next => exact refl u

end State.SameSent
end Sys2Proof.Machine
end

section
/-! The end of a copy on a channel and on an air link (O22). -/
namespace Sys2Proof.Machine

theorem State.ep_of_sending {s : State} {ep : Nat} {c : Copy} (h : s.sending ep = some c) : c.ep = ep := by
  have := List.find?_some h
  simp only [Bool.and_eq_true, decide_eq_true_eq] at this
  exact this.1

/-! ### TX_FRAME_END (R196, R376) -/

section
variable {s : State} {c : Copy} {f : Frame}

/-- The octets of the unit that ends a copy, with `fcs` at its end. -/
def State.lastUnit (s : State) (c : Copy) (fcs : List Octet) : List Octet := s.unitStart c true ++ (s.wireOctets c).drop c.pos ++ fcs

/-- The state in which the last unit of a copy is on the wire and its charge has been corrected. -/
def State.unitSent (s : State) (c : Copy) (fcs : List Octet) : State :=
  { s.correctCharge c ((s.wireOctets c).length + 4) with txOut := s.txOut.set c.ep (s.lastUnit c fcs) [] }

/-- A charge is corrected in registers alone (R89, R185, R188). -/
theorem State.correctCharge_fields (s : State) (c : Copy) (n : Nat) : s.correctCharge c n = { s with hid := (s.correctCharge c n).hid } := by
  unfold State.correctCharge
  extract_lets actual d s0 s1
  split
  · rfl
  · have credited : s0 = { s with hid := s0.hid } := by
      unfold s0
      split <;> rfl
    have finished : s1 = { s with hid := s1.hid } := congrArg (fun u : State => { u with hid := s1.hid }) credited
    clear_value s1
    split
    · split
      · exact finished
      · rw [finished]
        rfl
    · exact finished

theorem State.get_unitSent (s : State) (c : Copy) (fcs : List Octet) : (s.unitSent c fcs).txOut.get c.ep [] = s.lastUnit c fcs :=
  Map.get_set_self ..

theorem State.genQ_unitSent (s : State) (c : Copy) (fcs : List Octet) : (s.unitSent c fcs).genQ = s.genQ := by
  rw [State.unitSent, State.correctCharge_fields]

theorem State.rd_unitSent (s : State) (c : Copy) (fcs : List Octet) (u i k : Nat) : (s.unitSent c fcs).rd u i k = s.rd u i k := by
  rw [State.unitSent, State.correctCharge_fields]
  rfl

/-- The unit that ends a copy may be one more fragment (Table 8.3). -/
def State.fragmentCounted (s : State) (c : Copy) : State := if 0 < c.frags then s.fragmentSent c else s

theorem State.sameSent_fragmentCounted (s : State) (c : Copy) (ep : Nat) : s.SameSent ep (s.fragmentCounted c) :=
  .ite (.ite (.refl s) (.oweCount s _ (by decide))) (.refl s)

/-- A copy of a frame from no host that asks for no timestamp counts, and is held or goes (R164, R376). -/
theorem State.sameSent_endFull (s : State) (desc : f.desc = none) (unstamped : c.txTime = none) (ep : Nat) :
    State.SameSent ep (s.bump (csUnit c.ep) 0x8010 0 1) (s.endFull f c) := by
  have counted (n len m ty : Nat) (tagged : Bool) : State.SameSent ep (s.bump (csUnit c.ep) 0x8010 0 1)
      (((s.statFrame (csUnit c.ep) 0x8010 len ty tagged).countQueue c.queue 0 n).countQueue c.queue 1 m) :=
    (State.SameSent.statFrame ..).trans ((State.SameSent.countQueue ..).trans (.countQueue ..))
  unfold State.endFull
  simp only [desc, unstamped]
  split
  · exact (counted ..).trans (.other _)
  · exact (counted ..).trans (.other _)

theorem State.txEnd_of_full (hf : s.frame? c.frame = some f) (desc : f.desc = none) (full : c.ending = .full) (unstamped : c.txTime = none) :
    State.SameSent c.ep ((s.unitSent c (fcsOctets (s.wireOctets c))).bump (csUnit c.ep) 0x8010 0 1) (s.txEnd c) := by
  have ends : s.txEnd c = (((s.unitSent c (fcsOctets (s.wireOctets c))).fragmentCounted c).endFull f c).settle c.frame := by
    unfold State.txEnd
    simp only [full, hf]
    rfl
  rw [ends]
  exact ((State.sameSent_fragmentCounted ..).bump_congr (by unfold csUnit; omega) 1).trans ((State.sameSent_endFull _ desc unstamped _).trans (.settle ..))

theorem State.txEnd_of_stomped (stomped : c.ending = .stomped) :
    State.SameSent c.ep (s.unitSent c (stompOctets (s.wireOctets c))) (s.txEnd c) := by
  have counted := State.sameSent_fragmentCounted (s.unitSent c (stompOctets (s.wireOctets c))) c c.ep
  unfold State.txEnd
  simp only [stomped]
  refine .trans (.trans ?_ (.other _)) (.settle ..)
  exact .ite (counted.trans (.bump _ (by decide))) counted

/-- TX_FRAME_END of a copy of a committed frame, where events are held. -/
theorem execTxFrameEnd_of_committed {ep : Nat} {l : List HeldEvent} (held : s.evHold = some l) (up : s.mainUp = true) (there : s.isChannel ep = true)
    (hc : s.sending ep = some c) (hf : s.frame? c.frame = some f) (committed : f.committed = true) :
    execTxFrameEnd ep s = .next ((s.txEnd c).mPackets.resume ep).pump := by
  unfold execTxFrameEnd
  rw [gathered_of_held held]
  simp [hc, hf, committed, up, there]

/-- Behind the end itself nothing changes what its channel shows. -/
theorem txFrameEnd_shows {ep : Nat} (up : s.mainUp = true) (there : s.isChannel ep = true) (hc : s.sending ep = some c)
    (hf : s.frame? c.frame = some f) (committed : f.committed = true) (unawaited : ∀ smd, GenFrame.mPacket ep smd ∉ s.genQ)
    {u : Option (List HeldEvent) → State}
    (packets : ∀ l, (u l).genQ = s.genQ) (ends : ∀ l, State.SameSent ep (u l) (State.txEnd { s with evHold := l } c)) :
    ∃ t l, exec (.txFrameEnd ep) s = .next t ∧ State.SameSent ep (u l) t := by
  obtain ⟨v, t, answers, ⟨l, rfl⟩, events⟩ : ∃ v t, execTxFrameEnd ep s = .next t
      ∧ (∃ l, v = ((State.txEnd { s with evHold := some l } c).mPackets.resume ep).pump) ∧ v.ButEvents t :=
    exists_gathered_next fun l => ⟨_, execTxFrameEnd_of_committed (s := { s with evHold := some l }) rfl up there hc hf committed, l, rfl⟩
  have ended := ends (some l)
  have others := State.SameSent.mPackets fun smd waits => unawaited smd (packets (some l) ▸ ended.packets smd waits)
  exact ⟨t, some l, answers, ended.trans (others.trans ((State.SameSent.resume ..).trans ((State.SameSent.pump _).trans (.events events))))⟩

end

theorem txFrameEnd_sends (ep : Nat) (c : Copy) (f : Frame) (s : State) (up : s.mainUp = true) (there : s.isChannel ep = true)
    (hc : s.sending ep = some c) (hf : s.frame? c.frame = some f) (committed : f.committed = true) (desc : f.desc = none)
    (unawaited : ∀ smd, GenFrame.mPacket ep smd ∉ s.genQ) (full : c.ending = .full) (unstamped : c.txTime = none) :
    ∃ t, exec (.txFrameEnd ep) s = .next t
      ∧ t.txOut.get ep [] = s.unitStart c true ++ (s.wireOctets c).drop c.pos ++ fcsOctets (s.wireOctets c)
      ∧ t.rd (csUnit ep) 0x8010 0 = (s.rd (csUnit ep) 0x8010 0 + 1) % 2 ^ 64 := by
  obtain rfl := State.ep_of_sending hc
  obtain ⟨t, l, answers, same⟩ := txFrameEnd_shows up there hc hf committed unawaited
    (u := fun l => (State.unitSent { s with evHold := l } c (fcsOctets (s.wireOctets c))).bump (csUnit c.ep) 0x8010 0 1)
    (fun l => State.genQ_unitSent { s with evHold := l } c (fcsOctets (s.wireOctets c)))
    fun l => State.txEnd_of_full (s := { s with evHold := l }) hf desc full unstamped
  refine ⟨t, answers, same.unit.trans (State.get_unitSent ..), ?_⟩
  rw [same.counts _ _ (by unfold csUnit; omega), State.rd_bump_self, State.rd_unitSent, counterBits_of_high _ (by unfold csUnit; omega)]
  rfl

theorem txFrameEnd_stomps (ep : Nat) (c : Copy) (f : Frame) (s : State) (up : s.mainUp = true) (there : s.isChannel ep = true)
    (hc : s.sending ep = some c) (hf : s.frame? c.frame = some f) (committed : f.committed = true) (unawaited : ∀ smd, GenFrame.mPacket ep smd ∉ s.genQ)
    (stomped : c.ending = .stomped) :
    ∃ t, exec (.txFrameEnd ep) s = .next t
      ∧ t.txOut.get ep [] = s.unitStart c true ++ (s.wireOctets c).drop c.pos ++ stompOctets (s.wireOctets c)
      ∧ t.rd (csUnit ep) 0x8010 0 = s.rd (csUnit ep) 0x8010 0 := by
  obtain rfl := State.ep_of_sending hc
  obtain ⟨t, l, answers, same⟩ := txFrameEnd_shows up there hc hf committed unawaited
    (u := fun l => State.unitSent { s with evHold := l } c (stompOctets (s.wireOctets c)))
    (fun l => State.genQ_unitSent { s with evHold := l } c (stompOctets (s.wireOctets c)))
    fun l => State.txEnd_of_stomped (s := { s with evHold := l }) stomped
  exact ⟨t, answers, same.unit.trans (State.get_unitSent ..), (same.counts _ _ (by unfold csUnit; omega)).trans (State.rd_unitSent ..)⟩

/-! ### AL_TX_FRAME_END (R252, R376) -/

section
variable {s : State} {c : Copy} {f : Frame} {al : Nat}

/-- The state in which a copy to the radio has been counted. -/
def State.airCounted (s : State) (al : Nat) (c : Copy) (f : Frame) : State :=
  ((s.statAir (asUnit al) 0x8010 f.len).countQueue c.queue 0 1).countQueue c.queue 1 f.len

theorem State.sameSent_airCounted (s : State) (al : Nat) (c : Copy) (f : Frame) (ep : Nat) :
    State.SameSent ep (s.bump (asUnit al) 0x8010 0 1) (s.airCounted al c f) :=
  (State.SameSent.statAir ..).trans ((State.SameSent.countQueue ..).trans (.countQueue ..))

/-- The state in which the cells of a counted copy have been read, and an error has been counted. -/
def State.airRead (s : State) (al : Nat) (f : Frame) (ecc : CellRead) : State :=
  if (s.readCells f ecc).1 then (s.readCells f ecc).2.bump (alUnit al) 0x8003 0 1 else (s.readCells f ecc).2

theorem State.sameSent_airRead (s : State) (al : Nat) (f : Frame) (ecc : CellRead) (ep : Nat) : State.SameSent ep s (s.airRead al f ecc) :=
  .ite ((State.SameSent.readCells ..).trans (.bump _ (by decide))) (.readCells ..)

/-- The state in which the beat and the octets of a copy have passed to the radio. -/
def State.airPassed (s : State) (al : Nat) (c : Copy) (f : Frame) (ecc : CellRead) : State :=
  { ((s.airCounted al c f).airRead al f ecc).setReg (.alTxErr al) ((s.airCounted al c f).readCells f ecc).1.toNat with
    txOut := ((s.airCounted al c f).airRead al f ecc).txOut.set (0x40 + al) (airBeat f c ++ f.data) [] }

theorem State.get_airPassed (s : State) (al : Nat) (c : Copy) (f : Frame) (ecc : CellRead) :
    (s.airPassed al c f ecc).txOut.get (0x40 + al) [] = airBeat f c ++ f.data :=
  Map.get_set_self ((s.airCounted al c f).airRead al f ecc).txOut (0x40 + al) (airBeat f c ++ f.data) []

theorem State.airEnd_eq (s : State) (al : Nat) (c : Copy) (f : Frame) (ecc : CellRead) :
    s.airEnd al c f ecc = ((s.airPassed al c f ecc).dropCopy c).settle f.id := rfl

theorem State.sameSent_airEnd (s : State) (al : Nat) (c : Copy) (f : Frame) (ecc : CellRead) (ep : Nat) :
    State.SameSent ep (s.airPassed al c f ecc) (s.airEnd al c f ecc) := by
  rw [State.airEnd_eq]
  exact (State.SameSent.other _).trans (.settle ..)

end

theorem alTxFrameEnd_sends (al : Nat) (ecc : CellRead) (c : Copy) (f : Frame) (s : State) (up : s.mainUp = true) (there : al < 3)
    (enabled : s.rd (alUnit al) 0x1000 0 = 1) (hc : s.sending (0x40 + al) = some c) (hf : s.frame? c.frame = some f) :
    ∃ t, exec (.alTxFrameEnd al ecc) s = .next t ∧ t.txOut.get (0x40 + al) [] = airBeat f c ++ f.data
      ∧ t.rd (asUnit al) 0x8010 0 = (s.rd (asUnit al) 0x8010 0 + 1) % 2 ^ 64
      ∧ t.regN (.alTxErr al) = (f.eccBad || ecc.bad || (f.stub.isSome && ecc.template)).toNat := by
  have counted := s.sameSent_airCounted al c f (0x40 + al)
  have read := (s.airCounted al c f).sameSent_airRead al f ecc (0x40 + al)
  have after := (s.sameSent_airEnd al c f ecc (0x40 + al)).trans (.pump _)
  refine ⟨(s.airEnd al c f ecc).pump, ?_, after.unit.trans (State.get_airPassed ..), ?_, ?_⟩
  · show execAlTxFrameEnd al ecc s = _
    unfold execAlTxFrameEnd
    simp only [hc, hf]
    exact if_pos ⟨up, there, enabled⟩
  · have above : 0x500 ≤ asUnit al := by
      unfold asUnit
      omega
    calc (s.airEnd al c f ecc).pump.rd (asUnit al) 0x8010 0
        = ((s.airCounted al c f).airRead al f ecc).rd (asUnit al) 0x8010 0 := after.counts _ _ above
      _ = (s.airCounted al c f).rd (asUnit al) 0x8010 0 := read.counts _ _ above
      _ = (s.bump (asUnit al) 0x8010 0 1).rd (asUnit al) 0x8010 0 := counted.counts _ _ above
      _ = (s.rd (asUnit al) 0x8010 0 + 1) % 2 ^ 64 := by rw [State.rd_bump_self, counterBits_of_high _ (by omega)]
  · rw [← State.readCells_fst (s.airCounted al c f)]
    exact congrArg Int.toNat ((after.errors _ rfl).trans (State.reg_setReg_self ..))

end Sys2Proof.Machine
open Sys2Proof Sys2Proof.Machine

/-- Settles O22: the last unit is on the wire and counted (`State.txEnd_of_full`, `State.txEnd_of_stomped`, `State.airEnd_eq`), and nothing behind it
changes what its endpoint shows (`State.SameSent`). -/
theorem copiesEndOnTheWire : Obligations.CopiesEndOnTheWire :=
  ⟨txFrameEnd_sends,
    fun ep c f s up there hc hf committed _ unawaited stomped => txFrameEnd_stomps ep c f s up there hc hf committed unawaited stomped,
    fun al ecc c f s up there enabled hc hf _ => alTxFrameEnd_sends al ecc c f s up there enabled hc hf⟩

end

section
/-! A first fragment where the number of its frame is taken (O19). -/
namespace Sys2Proof.Machine

/-- Channel 0 of lane 0 UP in 10GBASE-R with 802.3br enabled and no context open, in a device in RUN that takes 0 as the number of its next frame,
while a frame in reception has that number already, with an octet beyond its `max_frame` of 0. -/
def takenNumber : State :=
  let s := (((State.quietAt 1 0).wr 0x100 0x1000 0 3).wr 0x100 0x5000 0 5).wr 0x200 0x1031 0 1
  { s.wr 0x200 0x1000 0 1 with frames := [{ s.newFrame 0 (0, 0) false with octets := [0], maxFrame := 0 }] }

/-- The start octets of a first fragment: SMD-S of frame count 0. -/
def firstStart : List Octet := List.replicate 7 0x55 ++ [0xE6]

/-- A first fragment of no octets, whose mCRC says that more follows. -/
def emptyFragment : FragInput := ⟨toLsb 4 (crc crc32 [] ^^^ 0x0000FFFF), none, 0, 0⟩

/-- `takenNumber` once the codewords of the fragment are counted. -/
def takenNumberCounted : State := takenNumber.fecCounts (laneOf 0) emptyFragment.fecCorrected emptyFragment.fecBad

/-- `takenNumber` once the fragment is in its context. -/
def takenNumberAfter : State := takenNumberCounted.mergeFragment 0 firstStart emptyFragment (takenNumberCounted.rxInstant 0 0)

theorem mmFragmentRx_takenNumber : exec (.mmFragmentRx 0 firstStart emptyFragment 0) takenNumber = .next takenNumberAfter := by
  have receives : takenNumber.mainUp = true ∧ takenNumber.isChannel 0 = true ∧ takenNumber.rxOpen (laneOf 0) = true
      ∧ (!takenNumber.fabricRole 0) = true := by decide +kernel
  have channel : takenNumberCounted.channelOf 0 firstStart = some 0 := by decide +kernel
  have kind : takenNumberCounted.unitKind 0 firstStart ≠ .bad := by decide +kernel
  have unasked : ¬ (takenNumberCounted.asked 4 = true ∧ (smdCountOf (octet firstStart 7)).isSome = true) := by decide +kernel
  show execMmFragmentRx 0 firstStart emptyFragment 0 takenNumber = _
  unfold execMmFragmentRx
  unfold takenNumberCounted at channel kind unasked
  simp only [if_pos receives, channel, if_neg kind, if_neg unasked, takenNumberAfter, takenNumberCounted]

/-- The context is handed on to the frame that had the number, which is oversize, and both frames of the number are undone. -/
theorem takenNumberAfter_frames : takenNumberAfter.frames = [] := by decide +kernel

end Sys2Proof.Machine
open Sys2Proof Sys2Proof.Machine

/-- Refutes O19 by its clause on a first fragment, which lets a frame have the number of the next one already: in `takenNumber` the first such frame
is oversize, and the new frame is undone with it. No frame has that number, and the clause does not ask that. -/
theorem not_fragmentsOpenAndLoseContexts : ¬ Obligations.FragmentsOpenAndLoseContexts := by
  rintro ⟨opens, -⟩
  obtain ⟨t, c, answer, -, -, -, -, -, -, -, -, short⟩ := opens 0 0 0 firstStart emptyFragment takenNumber (by decide +kernel) (by decide +kernel)
    (by decide +kernel) (by decide +kernel) (by decide +kernel) (by decide +kernel) (by decide +kernel) (by decide +kernel) (by decide +kernel)
    (by decide +kernel) (by decide +kernel)
  obtain ⟨-, frames, -⟩ := short (by decide +kernel)
  rw [mmFragmentRx_takenNumber] at answer
  obtain rfl := Host.Outcome.next.inj answer
  simp [takenNumberAfter_frames] at frames

end
